-- ==== Sys2Proof/Word.lean ====
section
/-! DEFINITION. Words, bytes, register fields, and tables that are sparse by key. -/

namespace Sys2Proof

/-- A 32-bit register or descriptor word (R12). -/
abbrev Word := BitVec 32

/-- A byte of memory. -/
abbrev Byte := BitVec 8

/-- A table that lists only some keys. Keys rise strictly (see `twf`); a key that is not listed reads as a default. -/
abbrev Table (α : Type) := List (Nat × α)

/-- The entry of a table at a key, or the default. -/
def tget {α : Type} (d : α) : Table α → Nat → α
  | [], _ => d
  | (j, v) :: t, k => if j = k then v else tget d t k

/-- Whether a table lists a key. -/
def thas {α : Type} : Table α → Nat → Bool
  | [], _ => false
  | (j, _) :: t, k => if j = k then true else thas t k

/-- Lists a key with a value, in place of what it had. -/
def tput {α : Type} : Table α → Nat → α → Table α
  | [], k, v => [(k, v)]
  | (j, w) :: t, k, v =>
    if k < j then (k, v) :: (j, w) :: t else if k = j then (k, v) :: t else (j, w) :: tput t k v

/-- Takes a key out of a table. -/
def tdel {α : Type} : Table α → Nat → Table α
  | [], _ => []
  | (j, w) :: t, k => if k = j then tdel t k else (j, w) :: tdel t k

/-- Writes a cell of a memory whose unlisted cells read as `d`: writing `d` takes the entry out, so that equal memories are
equal lists. -/
def mput {α : Type} [DecidableEq α] (d : α) (t : Table α) (k : Nat) (v : α) : Table α :=
  if v = d then tdel t k else tput t k v

/-- The keys of a table rise strictly from a lower bound on. -/
def keysFrom {α : Type} (b : Nat) : Table α → Bool
  | [] => true
  | (j, _) :: t => decide (b ≤ j) && keysFrom (j + 1) t

/-- The canonical form of a memory: keys strictly rising, and no entry equal to what an unlisted cell reads as. -/
def twf {α : Type} [DecidableEq α] (d : α) (t : Table α) : Bool :=
  keysFrom 0 t && t.all (fun e => decide (e.2 ≠ d))

/-- A field of a register: the register's byte offset in BAR0 and its bits [hi:lo] (R6). -/
structure Fld where
  off : Nat
  hi : Nat
  lo : Nat
  deriving DecidableEq, Repr

/-- Bits [hi:lo] of a word as a number (R6). -/
def bits {w : Nat} (v : BitVec w) (hi lo : Nat) : Nat := (v.extractLsb' lo (hi - lo + 1)).toNat

/-- A word with its bits [hi:lo] replaced by the low bits of a number. -/
def setBits {w : Nat} (v : BitVec w) (hi lo n : Nat) : BitVec w :=
  let m : BitVec w := (BitVec.ofNat w (2 ^ (hi - lo + 1) - 1)) <<< lo
  (v &&& ~~~m) ||| ((BitVec.ofNat w n <<< lo) &&& m)

/-- Bit k of a word. -/
def bit {w : Nat} (v : BitVec w) (k : Nat) : Bool := v.getLsbD k

/-- 1 for true and 0 for false: a flag as the value of a one-bit field. -/
def b2n (b : Bool) : Nat := if b then 1 else 0

/-- The saturating increment of a count of `w` bits. -/
def satAdd (w a n : Nat) : Nat := min (a + n) (2 ^ w - 1)

/-- The low half and the high half of a 64-bit value. -/
def lo32 (n : Nat) : Word := BitVec.ofNat 32 n
def hi32 (n : Nat) : Word := BitVec.ofNat 32 (n / 2 ^ 32)

/-- The two's complement value of the low `w` bits of a number. -/
def toSigned (w n : Nat) : Int := let m := n % 2 ^ w; if m < 2 ^ (w - 1) then (m : Int) else (m : Int) - 2 ^ w

/-- The low `w` bits of an integer in two's complement. -/
def ofSigned (w : Nat) (i : Int) : Nat := (i % (2 ^ w : Int)).toNat

/-- ⌈a / b⌉. -/
def ceilDiv (a b : Nat) : Nat := (a + b - 1) / b

end Sys2Proof
end

