-- ==== Sys2Proof/Syntax.lean ====
section
/-! DEFINITION. The commands the block takes from outside: one constructor of Instr per row of the opcode table, and the types of
their operands. Unit numbers are of the unit's range (R4); field values are of the field's width; what the manual calls a fact of
the environment (an error found, a reading, bytes that arrive) is an operand. -/

namespace Sys2Proof

/-- A mesh packet's header (R29, R30): stops, virtual channel (0 SIG, 1 RSP, 2 REQ, 3 CFG), AGE, generation, sequence number. -/
structure MeshPkt where
  dst : BitVec 16
  src : BitVec 16
  vc : BitVec 2
  age : BitVec 12
  gen : BitVec 8
  seq : Nat
  deriving DecidableEq, Repr

/-- What line ECC finds on a DRAM read (R492): nothing, a corrected error, or a failure of the first read and of the re-read. -/
inductive Ecc where
  | clean
  | corrected
  | uncorrectable
  deriving DecidableEq, Repr

/-- Whose read it is (R494): a cluster's stream, FEED or commit; a BAR4 read; a COPY_OUT, session reply, fetch or broadcast read. -/
inductive ReadUse where
  | step
  | bar4
  | other
  deriving DecidableEq, Repr

/-- The PTP messages that drive the time base (R330, R406). -/
inductive PtpMsg where
  | sync
  | followUp
  | delayResp
  | announce
  deriving DecidableEq, Repr

/-- How the reference is lost (R334). -/
inductive LossCause where
  | pulses
  | syncs
  | refIn
  deriving DecidableEq, Repr

/-- How instances are reset (R387). -/
inductive ResetCause where
  | flr (i : Fin 64)
  | register (i : Fin 64)
  | pfFlr
  | vfEnableClear
  deriving DecidableEq, Repr

/-- A Flarid packet: the header words of Table 13.2, the operation block of Table 13.3, and the payload. -/
structure FlPacket where
  hdr : List Word
  op : List Word
  data : List Byte
  deriving DecidableEq, Repr

/-- The addressing of an Ethernet datagram: port, sub-port, and the far end's MAC, IP, UDP port and VLAN. -/
structure EthFrom where
  port : Fin 4
  sub : BitVec 2
  mac : BitVec 48
  v6 : Bool
  ip : BitVec 128
  udp : BitVec 16
  vlan : BitVec 12
  dstUdp : BitVec 16
  deriving DecidableEq, Repr

/-- A session datagram: the eight header words of Table 12.3 and the payload. -/
structure Datagram where
  hdr : List Word
  payload : List Byte
  deriving DecidableEq, Repr

/-- What an Ethernet frame carries (R400 to R402). -/
inductive FrameKind where
  | udp (d : Datagram) (v6 : Bool) (dstIp : BitVec 128) (extras : Bool) (fragment : Bool) (cksumOk : Bool) (cksumZero : Bool)
  | pfc
  | globalPause
  | ptp
  | arp
  | other
  deriving DecidableEq, Repr

/-- A frame as received: tags, bytes from destination address to FCS, FCS check, destination, PCP, VLAN and contents. -/
structure EthFrame where
  tags : Nat
  bytes : Nat
  fcsOk : Bool
  dst : BitVec 48
  pcp : BitVec 3
  vlan : BitVec 12
  kind : FrameKind
  deriving DecidableEq, Repr

/-- The fields of a slot word that gate it: PRED, PNEG and ACC_LIVE (Table 2.3). -/
structure SlotCtl where
  pred : Fin 8
  pneg : Bool
  accLive : Bool
  deriving DecidableEq, Repr

/-- The ARG of MMA, MAX and MIN (Table 4.2). -/
structure MatArg where
  lt : Fin 16
  fmtA : BitVec 4
  fmtW : BitVec 4
  mrows : BitVec 7
  klen : BitVec 7
  bankB : Bool
  cont : Bool
  swap : Bool
  epi : Bool
  epiIdx : Fin 16
  deriving DecidableEq, Repr

/-- The ARG and EXT word of a VECTOR slot (Tables 5.1 and 5.2) but for VOP. -/
structure VecArg where
  lt : Fin 16
  fmtA : BitVec 4
  fmtB : BitVec 4
  fmtD : BitVec 4
  srcA : BitVec 2
  srcB : BitVec 2
  dst : BitVec 2
  maskEn : Bool
  sumsq : Bool
  sat : Bool
  sub : BitVec 4
  aux : BitVec 23
  imm : BitVec 32
  deriving DecidableEq, Repr

/-- The source of a PRED slot (Table 2.3a). -/
inductive PredSrc where
  | const (v : Bool)
  | level (lt : Fin 16) (l : Fin 6)
  | tile (ep : Fin 8)
  | byte (addr : BitVec 23)
  deriving DecidableEq, Repr

/-- What the error check of scratchpad reads finds (R198): nothing, single errors corrected at these addresses, or an uncorrectable
word. -/
inductive SpEcc where
  | clean
  | corrected (addrs : List (BitVec 23))
  | uncorrectable (addr : BitVec 23)
  deriving DecidableEq, Repr

/-- The bank conflicts that the schedule meets during an operation (R203 to R206), as facts of its cycles: extra accesses, cycles of
slip, and the first conflict's requesters, bank and addresses. -/
structure Conflict where
  extra : Nat
  slip : Nat
  reqFirst : BitVec 4
  reqSecond : BitVec 4
  bank : Fin 32
  addr1 : BitVec 23
  addr2 : BitVec 23
  deriving DecidableEq, Repr

/-- A fault of the matrix unit that shows during an operation (R150 to R154): the D and D1 of a row that the checker forms, as
multiples of 2^-512 for floating pairs and exact for integer pairs; a comparator disagreement; an accumulator error, corrected
or not. -/
inductive MatFault where
  | none
  | residual (row : Fin 128) (d d1 : Int)
  | comparator (row : Fin 128)
  | accCorrected (count : Nat)
  | accUncorrectable (row : Fin 128)
  deriving DecidableEq, Repr

/-- A packet of a tile or a FEED (R274): endpoint, plane, context, sequence number, packet index of how many, NULL, TAKE, instance,
generation, attempt, tile indices in halo form, and up to 1,024 bytes. -/
structure TilePkt where
  ep : Fin 8
  plane : Fin 8
  ctx : Fin 4
  seq : Nat
  index : Fin 16
  total : Nat
  isNull : Bool
  take : Bool
  inst : Fin 64
  gen : BitVec 8
  attempt : BitVec 8
  halo : List Nat
  data : List Byte
  deriving DecidableEq, Repr

/-- Whose deadline instant is reached (R347, R411): a RUN descriptor's or a session request's. -/
inductive RunSrc where
  | desc (ring : Fin 4096) (pos : Word)
  | req (session : Fin 4096) (reqId : Word)
  deriving DecidableEq, Repr

/-- What a read of store pages finds (R497): pages corrected, and pages uncorrectable after read-retry. -/
structure PageReads where
  corrected : Nat
  uncorrectable : Nat
  deriving DecidableEq, Repr

/-- What a boot stage finds (Table 19.3): nothing of its own (stages 0 and 1); the clusters that fail their test and the scratchpad banks that do,
with what fails of the paths beyond repair; the DRAM stacks that do not train; the store's half-erased blocks, with the count of a valid INTENT
record. -/
inductive BootFact where
  | rom
  | firmware
  | selfTest (clusters : List Nat) (banks : List (Nat × Nat)) (paths : Bool)
  | dram (dead : List Nat)
  | store (halfErased : List (Nat × Option Nat)) (pages : PageReads)
  deriving DecidableEq, Repr

/-- The rails of Table 19.1. -/
inductive Rail where
  | aon
  | io
  | vppDram
  | vccNand
  | hub
  | serdes
  | dram
  | nand
  | core (d : Fin 4)
  deriving DecidableEq, Repr

/-- What holds an internal cold reset (R606, R643). -/
inductive Supply where
  | aon
  | hub
  | refclk
  deriving DecidableEq, Repr

/-- The reference clocks of Table 20.5. -/
inductive RefClk where
  | sys
  | eth
  | flarid (d : Fin 4)
  | pcie
  deriving DecidableEq, Repr

/-- The commands (spec/opcode_table.json), one constructor per row. -/
inductive Instr where
  /-- REGISTER_WRITE (R658): A BAR0 or MCTP write to a set-up register that has no row of its own passes the ordered checks and sets its fields. -/
  | registerWrite (off : BitVec 24) (size : Nat) (v : BitVec 64) (vfEnabled : Bool)
  /-- LATCHED_READ (R657): A read of a _LO register or TB_NOW_TURN returns its value and latches the partner register for the requester's next read. -/
  | latchedRead (mc : Bool) (off : BitVec 24) (size : Nat)
  /-- AGE_INCREMENT (R32): Each 16 mesh cycles that a head flit waits at a router or bridge end, its AGE advances by 1, saturating at 4,095. -/
  | ageIncrement (k : Nat)
  /-- MESH_PACKET_ARRIVE (R36): A mesh packet reaches its destination region switch and is delivered, or dropped and counted when the destination cluster is fenced. -/
  | meshPacketArrive (p : MeshPkt)
  /-- DRAM_READ_ARRIVE (R37): A read of a 64-byte line reaches a DRAM controller and joins an open merge entry, opens one, or is served unmerged. -/
  | dramReadArrive (st : Fin 8) (req : BitVec 16) (inst : Fin 64) (gen : BitVec 8) (addr : BitVec 40)
  /-- DRAM_WRITE_ARRIVE (R38): A write reaches a DRAM controller, is checked for generation per burst, closes the line's merge entry and takes effect in arrival order. -/
  | dramWriteArrive (st : Fin 8) (src : BitVec 16) (inst : Fin 64) (gen : BitVec 8) (attempt : Option (BitVec 8)) (addr : BitVec 40) (data : List Byte)
  /-- MERGE_WINDOW_EXPIRE (R37): 32 mesh cycles after its opening read, a merge entry stops accepting joiners. -/
  | mergeWindowExpire (st : Fin 8) (line : BitVec 34)
  /-- DRAM_READ_COMPLETE (R39): A DRAM read completes, line ECC is checked and each joined requester receives its own reply, discarded there if stale. -/
  | dramReadComplete (st : Fin 8) (k : Nat) (ecc : Ecc) (row pc : Nat) (retries : Nat) (use : ReadUse) (again : Bool)
  /-- PSEUDO_CHANNEL_MIGRATE_DONE (R493): The copy of a failing pseudo-channel to the spare ends and the mapping switches. -/
  | pseudoChannelMigrateDone (st : Fin 8)
  /-- BRIDGE_GROUP_FAIL (R41): A bridge wire group fails and the spare group takes over, with packets held in the replay buffer. -/
  | bridgeGroupFail (bridge : Fin 8) (link : Fin 2) (group : BitVec 8)
  /-- NOP (R54): A NOP slot issues and has no effect. -/
  | nop (n : Fin 576) (x : SlotCtl)
  /-- LOADW (R137): A LOADW slot queues a weight-tile load into the shadow register. -/
  | loadw (n : Fin 576) (x : SlotCtl) (lt : Fin 16) (fmtW : BitVec 4) (swap : Bool)
  /-- MMA (R129): An MMA slot queues a multiply-accumulate of activation vectors against the active tile. -/
  | mma (n : Fin 576) (x : SlotCtl) (a : MatArg)
  /-- MAX (R121): A MAX slot queues a maximum-with-index reduction along k. -/
  | max (n : Fin 576) (x : SlotCtl) (a : MatArg)
  /-- MIN (R121): A MIN slot queues a minimum-with-index reduction along k. -/
  | min (n : Fin 576) (x : SlotCtl) (a : MatArg)
  /-- MATRIX_OP_START (R141): A queued matrix operation starts on the loader or array once its holds are met and runs its cycle-exact pipeline. -/
  | matrixOpStart (n : Fin 576) (loader : Bool) (fault : MatFault) (ecc : SpEcc) (conf : Option Conflict)
  /-- TILE_COMPLETE (R138): A weight tile with its checksum weights is complete in the shadow register in loader cycle 136. -/
  | tileComplete (n : Fin 576)
  /-- ARRAY_BANK_RELEASE (R145): After the check of its last row, the array releases its accumulator bank. -/
  | arrayBankRelease (n : Fin 576)
  /-- EPILOGUE_START (R146): The epilogue starts on a released bank once a scheduled scoreboard entry is free and reads its preamble. -/
  | epilogueStart (n : Fin 576) (ecc : SpEcc) (conf : Option Conflict) (acc : MatFault)
  /-- EPILOGUE_DONE (R146): The epilogue writes its last output row and its scoreboard entry retires. -/
  | epilogueDone (n : Fin 576)
  /-- MXU_INJECT (R156): A write arming MXU_INJECT makes the checker add a test offset to one column of the next checked row. -/
  | mxuInject (n : Fin 576) (v : Word)
  /-- COPY (R168): A VECTOR COPY converts source A to the destination format. -/
  | vecCopy (n : Fin 576) (x : SlotCtl) (v : VecArg)
  /-- IADD (R169): A VECTOR IADD adds integer operands, saturating or wrapping. -/
  | vecIadd (n : Fin 576) (x : SlotCtl) (v : VecArg)
  /-- ISUB (R169): A VECTOR ISUB subtracts integer operands, saturating or wrapping. -/
  | vecIsub (n : Fin 576) (x : SlotCtl) (v : VecArg)
  /-- IMUL (R169): A VECTOR IMUL multiplies integer operands, saturating or wrapping. -/
  | vecImul (n : Fin 576) (x : SlotCtl) (v : VecArg)
  /-- SHL (R170): A VECTOR SHL shifts left by b. -/
  | vecShl (n : Fin 576) (x : SlotCtl) (v : VecArg)
  /-- SHRL (R170): A VECTOR SHRL shifts right with zero fill. -/
  | vecShrl (n : Fin 576) (x : SlotCtl) (v : VecArg)
  /-- SHRA (R170): A VECTOR SHRA shifts right with sign fill. -/
  | vecShra (n : Fin 576) (x : SlotCtl) (v : VecArg)
  /-- AND (R171): A VECTOR AND combines 32-bit lane patterns. -/
  | vecAnd (n : Fin 576) (x : SlotCtl) (v : VecArg)
  /-- OR (R171): A VECTOR OR combines 32-bit lane patterns. -/
  | vecOr (n : Fin 576) (x : SlotCtl) (v : VecArg)
  /-- XOR (R171): A VECTOR XOR combines 32-bit lane patterns. -/
  | vecXor (n : Fin 576) (x : SlotCtl) (v : VecArg)
  /-- ANDN (R171): A VECTOR ANDN computes a AND NOT b on lane patterns. -/
  | vecAndn (n : Fin 576) (x : SlotCtl) (v : VecArg)
  /-- ICMP (R172): A VECTOR ICMP writes 1 or 0 per lane from an integer comparison. -/
  | vecIcmp (n : Fin 576) (x : SlotCtl) (v : VecArg)
  /-- IMAX (R173): A VECTOR IMAX selects the larger integer, a on a tie. -/
  | vecImax (n : Fin 576) (x : SlotCtl) (v : VecArg)
  /-- IMIN (R173): A VECTOR IMIN selects the smaller integer, a on a tie. -/
  | vecImin (n : Fin 576) (x : SlotCtl) (v : VecArg)
  /-- SEL (R168): A VECTOR SEL picks a or b by bit 0 of the select byte. -/
  | vecSel (n : Fin 576) (x : SlotCtl) (v : VecArg)
  /-- FADD (R174): A VECTOR FADD adds floating operands within 1 ulp. -/
  | vecFadd (n : Fin 576) (x : SlotCtl) (v : VecArg)
  /-- FSUB (R174): A VECTOR FSUB subtracts floating operands within 1 ulp. -/
  | vecFsub (n : Fin 576) (x : SlotCtl) (v : VecArg)
  /-- FCMP (R172): A VECTOR FCMP writes 1 or 0 per lane from a floating comparison. -/
  | vecFcmp (n : Fin 576) (x : SlotCtl) (v : VecArg)
  /-- FMAX (R173): A VECTOR FMAX selects the larger float, NaN giving canonical NaN. -/
  | vecFmax (n : Fin 576) (x : SlotCtl) (v : VecArg)
  /-- FMIN (R173): A VECTOR FMIN selects the smaller float, NaN giving canonical NaN. -/
  | vecFmin (n : Fin 576) (x : SlotCtl) (v : VecArg)
  /-- FMUL (R175): A VECTOR FMUL multiplies floating operands within 1 ulp. -/
  | vecFmul (n : Fin 576) (x : SlotCtl) (v : VecArg)
  /-- FDIV (R175): A VECTOR FDIV divides with one refinement, within 2 ulp. -/
  | vecFdiv (n : Fin 576) (x : SlotCtl) (v : VecArg)
  /-- LUT (R176): A VECTOR LUT evaluates a loadable or built-in table function per lane. -/
  | vecLut (n : Fin 576) (x : SlotCtl) (v : VecArg)
  /-- GATHER (R177): A VECTOR GATHER reads table elements at indices from operand 1. -/
  | vecGather (n : Fin 576) (x : SlotCtl) (v : VecArg)
  /-- PMAX (R187): A VECTOR PMAX combines a MAX partial into the running value and index. -/
  | vecPmax (n : Fin 576) (x : SlotCtl) (v : VecArg)
  /-- PMIN (R187): A VECTOR PMIN combines a MIN partial into the running value and index. -/
  | vecPmin (n : Fin 576) (x : SlotCtl) (v : VecArg)
  /-- VECTOR_OP_START (R182): A queued vector operation starts on the unit once its holds are met and runs its beats. -/
  | vectorOpStart (n : Fin 576) (ecc : SpEcc) (conf : Option Conflict)
  /-- SUMSQ_RECORD_WRITE (R188): 64 cycles after the operation's last write, the sums-of-squares record is written. -/
  | sumsqRecordWrite (n : Fin 576)
  /-- ELASTIC_ACCESS (R200): An elastic requester takes a free bank cycle and performs its buffered access. -/
  | elasticAccess (n : Fin 576) (addr : BitVec 23) (data : List Byte)
  /-- PATROL_SCRUB (R202): The patrol scrubber reads the next line, correcting or reporting errors. -/
  | patrolScrub (n : Fin 576) (ecc : SpEcc)
  /-- SPARE_BANK_COPY_DONE (R215): The copy of a worn bank to the spare ends and the mapping switches at the next step boundary. -/
  | spareBankCopyDone (n : Fin 576)
  /-- ZEROING_REQUEST (R24): A zeroing request is served by the region engine or waits for one of its four slots. -/
  | zeroingRequest (n : Fin 576)
  /-- ZEROING_DONE (R218): The zeroing of a cluster's ranges, banks and counters completes. -/
  | zeroingDone (n : Fin 576)
  /-- SP_DBG_READ (R222): A read of SP_DBG_DATA is served through the debug requester. -/
  | spDbgRead (mc : Bool) (n : Fin 576) (ecc : SpEcc)
  /-- SP_DBG_READ_TIMEOUT (R222): A debug read unserved for 10 µs completes with zero and sets RD_LATE. -/
  | spDbgReadTimeout (mc : Bool) (n : Fin 576)
  /-- SP_DBG_WRITE (R222): A write of SP_DBG_DATA writes the word if the cluster is halted, idle or fenced, else is refused. -/
  | spDbgWrite (n : Fin 576) (v : Word)
  /-- LOOP (R226): A LOOP slot advances a loop index and jumps back while it is below its bound. -/
  | loop (n : Fin 576) (x : SlotCtl) (l : Fin 6) (target : BitVec 12)
  /-- PRED (R59): A PRED slot writes a predicate bit from a constant, loop extent, tile presence or scratchpad byte. -/
  | pred (n : Fin 576) (x : SlotCtl) (pbit : Fin 8) (src : PredSrc) (ecc : SpEcc)
  /-- STREAM_START (R261): A STREAM START resets the stream position and begins the transfer. -/
  | streamStart (n : Fin 576) (x : SlotCtl) (engine : Fin 4) (desc : Fin 16)
  /-- STREAM_WAIT (R261): A STREAM WAIT waits until the next block is complete and takes it. -/
  | streamWait (n : Fin 576) (x : SlotCtl) (desc : Fin 16)
  /-- STREAM_WAIT_ALL (R261): A STREAM WAIT_ALL waits until every block of the stream is complete. -/
  | streamWaitAll (n : Fin 576) (x : SlotCtl) (desc : Fin 16)
  /-- STREAM_ADVANCE (R261): A STREAM ADVANCE hands a ring slot back to the engine. -/
  | streamAdvance (n : Fin 576) (x : SlotCtl) (desc : Fin 16)
  /-- STREAM_BLOCK_START (R262): A stream engine starts a block once its gate allows it. -/
  | streamBlockStart (n : Fin 576) (p : Fin 8) (c : Fin 4) (desc : Fin 16)
  /-- STREAM_BLOCK_COMPLETE (R265): A block completes, P advances past completed blocks and the counter binding advances. -/
  | streamBlockComplete (n : Fin 576) (p : Fin 8) (c : Fin 4) (desc : Fin 16) (block : Nat)
  /-- BW_SPLIT_WRITE (R268): A write of BW_SPLIT stages new presets, or is refused during a run. -/
  | bwSplitWrite (v : Word)
  /-- BW_PRESET_ADOPT (R268): A DRAM controller adopts the new preset at its next frame start. -/
  | bwPresetAdopt (st : Fin 8)
  /-- SEND (R273): A plain SEND takes a credit and sends a tile, or a null tile when predicated off. -/
  | send (n : Fin 576) (x : SlotCtl) (ep : Fin 8) (addr : BitVec 23) (linesM1 : BitVec 8)
  /-- SEND_HALO (R244): A SEND in halo form sends an edge slab to a neighbour. -/
  | sendHalo (n : Fin 576) (x : SlotCtl) (ep : Fin 8) (lt : Fin 16) (bindB upper : Bool)
  /-- RECV (R275): A RECV takes the oldest complete tile of its context or waits for one. -/
  | recv (n : Fin 576) (x : SlotCtl) (ep : Fin 8) (pbit : Fin 8)
  /-- RELEASE (R276): A RELEASE frees the oldest taken tile and returns a credit, or refills from spill. -/
  | release (n : Fin 576) (x : SlotCtl) (ep : Fin 8)
  /-- TILE_PACKET_ARRIVE (R274): A channel or FEED packet reaches a receive endpoint and is written, held, or dropped. -/
  | tilePacketArrive (n : Fin 576) (k : TilePkt)
  /-- CREDIT_ARRIVE (R277): A credit flit reaches a send endpoint and is counted, or discarded on complement or count error. -/
  | creditArrive (n : Fin 576) (p : Fin 8) (ep : Fin 8) (c : Fin 4) (feed : Option (Fin 16)) (bad : Bool) (src : BitVec 16) (srcEp : Fin 8)
  /-- TAKE_NOTICE (R80): A take notice reaches a send endpoint; when counts match, the fused plane switch may proceed. -/
  | takeNotice (n : Fin 576) (p : Fin 8) (ep : Fin 8) (c : Fin 4) (bad : Bool) (src : BitVec 16) (srcEp : Fin 8)
  /-- CONTEXT_SWITCH (R62): The sequencer finishes switching to the chosen ready context after 2 or 8 cycles. -/
  | contextSwitch (n : Fin 576)
  /-- PLANE_SWITCH (R81): A cluster switches from outgoing to incoming plane over 32 cycles. -/
  | planeSwitch (n : Fin 576)
  /-- YIELD (R69): A YIELD slot offers the sequencer to the next plane of the fold ring. -/
  | yield (n : Fin 576) (x : SlotCtl)
  /-- END (R63): An END slot makes the context DONE and the sequencer picks the next context or arrives at the step barrier. -/
  | endSlot (n : Fin 576) (x : SlotCtl)
  /-- DEADLOCK_WINDOW_EXPIRE (R87): A region's 2.56 µs window expires with every cluster blocked and no progress. -/
  | deadlockWindowExpire (g : Fin 32)
  /-- SEQ_HALT (R92): A write of SEQ_DEBUG.HALT stops or resumes issue at the next slot boundary. -/
  | seqHalt (n : Fin 576) (halt : Bool)
  /-- SEQ_STEP (R92): A write of SEQ_DEBUG.STEP with HALT set issues one slot. -/
  | seqStep (n : Fin 576)
  /-- CSIG (R292): A CSIG slot advances an OWN counter, or stages an advance of a package or remote counter. -/
  | csig (n : Fin 576) (x : SlotCtl) (b : Fin 64) (inc : BitVec 16)
  /-- CWAIT (R295): A CWAIT slot waits until a counter reaches its target. -/
  | cwait (n : Fin 576) (x : SlotCtl) (b : Fin 64) (ref : Fin 64) (rel : Bool) (offset : BitVec 32)
  /-- MIRROR_UPDATE (R294): A counter value update reaches a mirror and is applied, held, dropped or discarded. -/
  | mirrorUpdate (n : Fin 576) (k : Fin 64) (v : BitVec 48) (bad : Bool) (step : BitVec 8) (attempt : BitVec 8) (inst : Fin 64) (gen : BitVec 8) (src : BitVec 16)
  /-- PKG_MIRROR_UPDATE (R301): The hub's update of a package counter value reaches a LOCAL mirror. -/
  | pkgMirrorUpdate (n : Fin 576) (k : Fin 64) (v : BitVec 48) (bad : Bool) (inst : Fin 64) (gen : BitVec 8)
  /-- COUNTER_SIGNAL (R303): An 8-byte BAR2 write signals a package counter after size, complement and ownership checks. -/
  | counterSignal (inst : Fin 64) (c : Fin 4096) (bytes : Nat) (v : BitVec 64)
  /-- PC_CTRL_WRITE (R325): A write of PC_CTRL changes notify, interrupt, lock or ownership, or is refused under a bound plane. -/
  | pcCtrlWrite (c : Fin 4096) (v : Word)
  /-- CNT_SET_GO (R321): A write of GO raises a counter by hand to the set value, or is refused. -/
  | cntSetGo
  /-- BARRIER (R310): A BARRIER slot arrives at a barrier and waits for its release. -/
  | barrier (n : Fin 576) (x : SlotCtl) (bid : Fin 15)
  /-- BARRIER_RELEASE (R313): A barrier node, having all arrivals and any gate firing, releases the episode. -/
  | barrierRelease (sect : BitVec 16) (bid : Fin 15)
  /-- BARRIER_RELEASE_ARRIVE (R313): A barrier release reaches a participant's sequencer and its waiting contexts become READY. -/
  | barrierReleaseArrive (n : Fin 576) (bid : Fin 15) (attempt : BitVec 8) (inst : Fin 64) (gen : BitVec 8)
  /-- STEP_BARRIER_RELEASE (R314): The package node releases the step barrier after the last arrival, the commit and any gate; micro-batches are bound. -/
  | stepBarrierRelease
  /-- STEP_RELEASE_ARRIVE (R314): The step release reaches a cluster: counters restart, held mirror updates apply, new contexts become READY. -/
  | stepReleaseArrive (n : Fin 576)
  /-- LEND_START (R318): A cluster idle for 2 µs drops to the floor state and lends its budget to the region pool. -/
  | lendStart (n : Fin 576)
  /-- TRACE_NOTICE (R322): A wait on a traced counter's mirror starts or ends and notifies the hub's trace record. -/
  | traceNotice (n : Fin 576) (p : Fin 8) (c : Fin 4) (k : Fin 256) (starts : Bool)
  /-- FRAME_PULSE (R329): A TB_FRAME_IN edge is compared against the predicted turn boundary for lock and slew. -/
  | framePulse (err : Int) (spacing : Nat) (refIn : Bool)
  /-- PPS_PULSE (R328): A TB_PPS_IN rising edge is compared with the time base. -/
  | ppsPulse (err : Int) (spacing : Nat)
  /-- PTP_SYNC (R330): A PTP Sync, Follow_Up, Delay_Resp or Announce message updates the time-base comparison. -/
  | ptpSync (msg : PtpMsg) (err : Int) (turns : Nat) (angle : BitVec 24)
  /-- REFERENCE_LOSS (R334): Missing pulses, Syncs or a bad TB_REF_IN lose the reference; the time base enters HOLDOVER or ACQUIRING. -/
  | referenceLoss (why : LossCause)
  /-- DELAY_REQ_SEND (R406): At the G.8275.1 rate the device sends a PTP Delay_Req on the PTP port. -/
  | delayReqSend
  /-- TIME_RELOCK (R336): Maintenance command 6 applies staged time-base fields and steps the time to the reference. -/
  | timeRelock (turns : BitVec 32) (angle : BitVec 24) (valid : Bool)
  /-- AE_COMMIT (R339): A write of word 7 of an angle-event entry commits the staged entry or refuses it. -/
  | aeCommit (e : Fin 512) (w7 : Word)
  /-- START_RUN (R342): An angle firing admits the oldest awaiting RUN descriptor of its ring. -/
  | startRun (e : Fin 512) (bad : BitVec 2) (late : Bool)
  /-- RING (R365): An angle firing applies the ring's staged tail as a doorbell. -/
  | ringFire (e : Fin 512) (bad : BitVec 2) (late : Bool)
  /-- START_STEP (R315): An angle firing gates the step barrier of the ring's program instance. -/
  | startStep (e : Fin 512) (bad : BitVec 2) (late : Bool)
  /-- AE_BARRIER (R315): An angle firing of action BARRIER gates a named barrier of a section. -/
  | aeBarrier (e : Fin 512) (bad : BitVec 2) (late : Bool)
  /-- DEADLINE (R346): An angle firing checks a package counter's advance since the last firing and flags or abandons on a miss. -/
  | deadline (e : Fin 512) (bad : BitVec 2) (late : Bool)
  /-- POWER_WAKE (R342): A POWER firing with OP 0 is a wake trigger. -/
  | powerWake (e : Fin 512) (bad : BitVec 2) (late : Bool)
  /-- POWER_ENTER_REST (R596): A POWER firing with OP 1 requests entry to Rest. -/
  | powerEnterRest (e : Fin 512) (bad : BitVec 2) (late : Bool)
  /-- POWER_SET_CAP (R574): A POWER firing with OP 2 sets CAP_W. -/
  | powerSetCap (e : Fin 512) (bad : BitVec 2) (late : Bool)
  /-- TELEMETRY (R569): A TELEMETRY firing copies the selected sample sets into snapshot pages. -/
  | telemetry (e : Fin 512) (bad : BitVec 2) (late : Bool)
  /-- RUN_DEADLINE (R347): A run's deadline instant passes before its last commit and it is flagged LATE or abandoned. -/
  | runDeadline (src : RunSrc)
  /-- TB_OUTPUT_PULSE (R351): At FRAME_OUT_ANGLE or each second the time base drives TB_FRAME_OUT or TB_PPS_OUT. -/
  | tbOutputPulse (pps : Bool)
  /-- SQ_DOORBELL (R362): A submission tail doorbell announces new descriptors after size, complement and range checks. -/
  | sqDoorbell (inst : Fin 64) (loc : Fin 64) (bytes : Nat) (v : BitVec 64)
  /-- CQ_DOORBELL (R364): A completion head doorbell announces consumed completions and frees room. -/
  | cqDoorbell (inst : Fin 64) (loc : Fin 64) (bytes : Nat) (v : BitVec 64)
  /-- STAGED_TAIL_WRITE (R365): A write of a staged tail is checked and kept for a later RING firing. -/
  | stagedTailWrite (inst : Fin 64) (loc : Fin 64) (bytes : Nat) (v : BitVec 64)
  /-- DESCRIPTOR_FETCH (R368): A fetched descriptor is checked and fetched again on failure, or rejected with BAD_DESC. -/
  | descriptorFetch (ring : Fin 4096) (words : List Word)
  /-- DESCRIPTOR_ADMIT (R377): The admission arbiter grants one descriptor of an active ring per round. -/
  | descriptorAdmit (ring : Fin 4096)
  /-- RUN (R370): A RUN descriptor joins NSTEPS steps of a registered program to its batch. -/
  | run (ring : Fin 4096) (pos : Word)
  /-- COPY_IN (R371): A COPY_IN descriptor copies host memory into DRAM within a window. -/
  | copyIn (ring : Fin 4096) (pos : Word) (data : List Byte)
  /-- COPY_OUT (R371): A COPY_OUT descriptor copies DRAM into host memory. -/
  | copyOut (ring : Fin 4096) (pos : Word)
  /-- SIGNAL (R372): A SIGNAL descriptor adds INC to an owned package counter. -/
  | signal (ring : Fin 4096) (pos : Word)
  /-- WAIT (R372): A WAIT descriptor holds its ring until a package counter reaches its target. -/
  | wait (ring : Fin 4096) (pos : Word)
  /-- WAIT_TIMEOUT (R372): An unmet WAIT completes LATE after TIMEOUT_US. -/
  | waitTimeout (ring : Fin 4096) (pos : Word)
  /-- LOAD_PROGRAM (R529): A LOAD_PROGRAM descriptor claims a slot and registers a signed image. -/
  | loadProgram (ring : Fin 4096) (pos : Word) (head : List Word)
  /-- EVICT (R374): An EVICT descriptor frees a program's planes and spill areas, optionally its slot, after earlier runs complete. -/
  | evict (ring : Fin 4096) (pos : Word)
  /-- FENCE (R379): A FENCE descriptor completes once earlier descriptors of its ring or instance complete. -/
  | fence (ring : Fin 4096) (pos : Word)
  /-- DESCRIPTOR_COMPLETE (R380): A descriptor's work ends; its post-signal applies and its completion is written. -/
  | descriptorComplete (ring : Fin 4096) (pos : Word)
  /-- COAL_TIMER (R384): COAL_US after the first uninterrupted completion the ring raises its vector. -/
  | coalTimer (ring : Fin 4096)
  /-- HOST_READ_TIMEOUT (R385): A host read without completion times out and is reissued or its descriptor fails. -/
  | hostReadTimeout (tag : Fin 16384) (newTag : Fin 16384)
  /-- LATE_COMPLETION (R386): A PCIe completion for a timed-out read is dropped and its tag quarantined. -/
  | lateCompletion (tag : Fin 16384)
  /-- TAG_QUARANTINE_EXPIRE (R386): A quarantined tag becomes reusable after twice HL_CPL_TIMEOUT. -/
  | tagQuarantineExpire (tag : Fin 16384)
  /-- BAR4_ACCESS (R358): A BAR4 read or write reaches device DRAM through the remote share. -/
  | bar4Access (write : Bool) (off : BitVec 36) (len : Nat) (data : List Byte) (uncorrectable : Bool)
  /-- RING_CONTEXT_WRITE (R361): A write to a ring context sets it, enables rings, or is refused. -/
  | ringContextWrite (ring : Fin 4096) (word : Fin 16) (v : Word) (vfEnabled : Bool)
  /-- WINDOW_WRITE (R396): A write of an instance window sets it or is refused for overlap, range or use. -/
  | windowWrite (inst : Fin 64) (w : Fin 8) (size : Bool) (v : Word)
  /-- INST_RESET (R387): An FLR, INST_CTRL.RESET, PF FLR or VF Enable clear resets instances: generation advances and work stops. -/
  | instReset (why : ResetCause)
  /-- RESET_DONE (R390): No old-generation transfer remains and zeroing is complete; RESET_DONE sets. -/
  | resetDone (inst : Fin 64)
  /-- DRAM_PAGE_ZEROED (R496): The DRAM zeroing engine finishes a 2 MiB page and waiting accesses proceed. -/
  | dramPageZeroed
  /-- STORE_ERASE (R512): Maintenance command 1 erases free and orphan blocks of a range. -/
  | storeErase (failing : List Nat)
  /-- STORE_FORMAT (R508): Maintenance command 2 erases every entry and clears key slots. -/
  | storeFormat (failing : List Nat)
  /-- REPAIR_SCAN (R568): Maintenance command 3 self-tests spares, fenced clusters, spare banks and repair maps. -/
  | repairScan (badClusters badBanks : List Nat)
  /-- IMAGE_VERIFY (R514): Maintenance command 4 checks every digest and the signature of a library entry. -/
  | imageVerify (sigOk : Bool) (badChunks : List Nat) (pages : PageReads)
  /-- FIRMWARE_UPDATE (R616): Maintenance command 5 writes a signed firmware copy and names it pending. -/
  | firmwareUpdate (sigOk : Bool) (svn build : BitVec 16)
  /-- MAINT_DONE (R393): A maintenance command ends; BUSY clears, DONE sets and RESULT is written. -/
  | maintDone
  /-- ETH_FRAME_RECEIVE (R400): An Ethernet frame is received and accepted or dropped by tag, size, FCS, address and protocol. -/
  | ethFrameReceive (p : Fin 4) (sub : BitVec 2) (f : EthFrame) (fill : Nat)
  /-- PFC_RECEIVE (R403): A PFC frame sets pause times for enabled priorities. -/
  | pfcReceive (p : Fin 4) (sub : BitVec 2) (en : BitVec 8) (quanta : List (BitVec 16))
  /-- PAUSE_EXPIRE (R403): A priority's pause time runs out and it resumes. -/
  | pauseExpire (p : Fin 4) (sub : BitVec 2) (q : Fin 8)
  /-- PFC_REPEAT (R405): Every half pause time with the buffer above 512 KiB the pause frame is repeated. -/
  | pfcRepeat (p : Fin 4) (sub : BitVec 2) (q : Fin 8) (fill : Nat)
  /-- ARP_REQUEST (R401): An ARP request or neighbour solicitation for an own address is answered. -/
  | arpRequest (p : Fin 4) (sub : BitVec 2) (v6 : Bool) (ip : BitVec 128) (vlan : BitVec 12)
  /-- OPEN (R408): An OPEN to a listener opens a session and is answered with OPEN_ACK or ERROR NO_ROOM. -/
  | sesOpen (f : EthFrom) (d : Datagram)
  /-- REQ (R411): A REQ fragment is taken into its request, refused with an ERROR, or completes the request. -/
  | req (f : EthFrom) (d : Datagram)
  /-- ACK (R409): A client ACK acknowledges reply datagrams. -/
  | ack (f : EthFrom) (d : Datagram)
  /-- POLL (R412): A POLL resends uncovered reply fragments or is answered with ACK. -/
  | poll (f : EthFrom) (d : Datagram)
  /-- CLOSE (R413): A CLOSE closes the session with CLOSE_ACK and frees its pages. -/
  | close (f : EthFrom) (d : Datagram)
  /-- KEEPALIVE (R414): A KEEPALIVE restarts the session's idle time. -/
  | keepalive (f : EthFrom) (d : Datagram)
  /-- SESSION_ACK_TIMER (R409): 20 µs after receipt the device acknowledges unacknowledged datagrams. -/
  | sessionAckTimer (n : Fin 4096)
  /-- SESSION_AGE_OUT (R414): A session idle for IDLE_MS with no pending request closes. -/
  | sessionAgeOut (n : Fin 4096)
  /-- GROUP_HOLD_EXPIRE (R417): A group destination still paused 1 ms after its hold is dropped. -/
  | groupHoldExpire (n : Fin 4096) (reqId : Word) (dest : Fin 64)
  /-- ACC_CLEAR (R423): A write of ACC_CLEAR restarts an instance's accounting totals. -/
  | accClear (inst : Fin 64) (v : Word)
  /-- FL_PORT_ENABLE (R428): A write of FL_CTRL.EN enables or disables a Flarid port and starts training. -/
  | flPortEnable (p : Fin 16) (v : Word)
  /-- LINK_TRAINED (R428): A port's training completes and it becomes UP. -/
  | linkTrained (p : Fin 16) (peerPort : BitVec 4) (peerPkg : BitVec 14)
  /-- TRAINING_RETRY (R428): Every 10 ms a failed or DOWN port tries training again. -/
  | trainingRetry (p : Fin 16)
  /-- LINK_BLOCK_RECEIVE (R429): A link block is received, its CRC checked, acknowledged or a replay requested. -/
  | linkBlockReceive (p : Fin 16) (seq ack : BitVec 12) (credits : List Nat) (crcOk : Bool)
  /-- REPLAY_REQUEST (R429): A replay request makes the sender resend the bad block and all after it. -/
  | replayRequest (p : Fin 16) (block : BitVec 12)
  /-- BLOCK_LOCK_LOSS (R430): A port loses block lock or a block fails 8 times and it enters RETRAINING. -/
  | blockLockLoss (p : Fin 16)
  /-- RETRAIN (R430): A write of FL_CTRL.RETRAIN starts a retraining. -/
  | retrain (p : Fin 16) (v : Word)
  /-- RETRAIN_TIMEOUT (R430): A port not UP 40 µs after entering RETRAINING enters DOWN and discards its replay buffers. -/
  | retrainTimeout (p : Fin 16)
  /-- LANE_RETIRE (R431): A lane exceeding its error rate is retired and the spare or a narrower width takes over. -/
  | laneRetire (p : Fin 16) (lane : Fin 5)
  /-- FLARID_HEAD_ARRIVE (R438): A head flit arrives at a port, is checked, and is forwarded, delivered or dropped. -/
  | flaridHeadArrive (q : Fin 16) (p : FlPacket)
  /-- READ (R451): A Flarid READ is delivered and answered by READ_DATA or NACK. -/
  | read (q : Fin 16) (p : FlPacket)
  /-- WRITE (R451): A Flarid WRITE is delivered to DRAM and answered by ACK or NACK. -/
  | write (q : Fin 16) (p : FlPacket)
  /-- ATOMIC_ADD (R458): A Flarid ATOMIC_ADD adds a 64-bit operand, or is answered from the duplicate table. -/
  | atomicAdd (q : Fin 16) (p : FlPacket)
  /-- COUNTER_ADD (R458): A Flarid COUNTER_ADD adds to a package counter, or is answered from the duplicate table. -/
  | counterAdd (q : Fin 16) (p : FlPacket)
  /-- READ_DATA (R457): Read data returns to its source and is accepted once, or dropped late or stale. -/
  | readData (p : FlPacket)
  /-- FL_ACK (R457): An ACK completes a request at its source, late copies dropped. -/
  | flAck (p : FlPacket)
  /-- NACK (R456): A NACK reaches the source; refusals end the operation, BUSY and ASLEEP schedule a resend. -/
  | nack (p : FlPacket)
  /-- NACK_RESEND (R456): 20 µs or 2 ms after a BUSY or ASLEEP NACK the request is resent with the same REQ_ID. -/
  | nackResend (id : Word)
  /-- MCAST_WRITE (R462): A multicast write is replicated to branches and delivered locally with arrival counting. -/
  | mcastWrite (q : Fin 16) (p : FlPacket)
  /-- MCAST_FRAME (R534): A multicast frame packet is replicated and written to an armed receiver's area. -/
  | mcastFrame (q : Fin 16) (p : FlPacket)
  /-- NOTICE (R463): A NOTICE of partial delivery or suspect report reaches its package and is recorded. -/
  | notice (p : FlPacket)
  /-- RETURN (R465): A RETURN marks the route failed and the request is resent at once. -/
  | flReturn (p : FlPacket)
  /-- FL_WAIT_TIMEOUT (R443): A head flit waiting over 500 µs at a departure port is dropped. -/
  | flWaitTimeout (p : Fin 16) (k : Nat)
  /-- REQUEST_TIMEOUT (R456): A request unanswered after 200 µs marks its route failed and is resent or completes unreachable. -/
  | requestTimeout (id : Word)
  /-- ROUTE_MARK_EXPIRE (R437): A route failure mark clears 50 ms after it was set. -/
  | routeMarkExpire (dest : BitVec 14) (r : Fin 4)
  /-- EPOCH_EXPIRE (R445): A kept source epoch not refreshed for 10 ms is forgotten. -/
  | epochExpire (src : BitVec 14)
  /-- DUP_ENTRY_EXPIRE (R458): A duplicate table entry not hit for 10 ms is dropped. -/
  | dupEntryExpire (src : BitVec 14) (id : Word)
  /-- ROUTE_CACHE_EXPIRE (R441): A route cache entry ages out. -/
  | routeCacheExpire (p : Fin 16) (dest : BitVec 14)
  /-- FENCED_INJECT (R459): A fenced packet is injected once every earlier packet to its destination has been answered. -/
  | fencedInject (id : Word)
  /-- LIMITER_WINDOW (R454): At the end of each 10 µs window a limiter lowers or raises its rate. -/
  | limiterWindow (p : Fin 16) (v : Fin 4)
  /-- LIMITER_RAMP (R455): Each µs before the first marked window the limiter rate rises by 2. -/
  | limiterRamp (p : Fin 16) (v : Fin 4)
  /-- RT_READ (R471): FL_RT_CMD = 1 loads the selected route entry into its window. -/
  | rtRead
  /-- RT_WRITE (R436): FL_RT_CMD = 2 writes the route entry, invalidating caches and clearing failure marks. -/
  | rtWrite
  /-- MC_READ (R471): FL_MC_CMD = 1 loads the selected multicast group entry. -/
  | mcRead
  /-- MC_WRITE (R471): FL_MC_CMD = 2 writes the multicast group entry after its complement check. -/
  | mcWrite
  /-- FL_KEY_COMMIT (R470): A write of FL_KEY_k_N commits a port key entry or refuses it. -/
  | flKeyCommit (p k : Fin 16) (v : Word)
  /-- INST_KEY_COMMIT (R471): A write of FL_INST_KEY_i_N commits an instance's outbound key. -/
  | instKeyCommit (inst : Fin 64) (v : Word)
  /-- FL_SRC_ID_WRITE (R471): A write of FL_SRC_ID sets the source identifier while every port is disabled. -/
  | flSrcIdWrite (v : Word)
  /-- GATE_ARM (R474): A write of XCH_GATE_CTRL arms or clears an instance's step gate. -/
  | gateArm (inst : Fin 64) (v : Word)
  /-- BROADCAST_GO (R482): A write of GO starts a broadcast of a DRAM range as MCAST_WRITE packets. -/
  | broadcastGo (inst : Fin 64) (v : Word)
  /-- BROADCAST_DONE (R483): A broadcast's last packet is injected and DONE sets. -/
  | broadcastDone (inst : Fin 64)
  /-- STAT_ARM (R488): A write of STAT_CTRL.EN arms the statistics block or is refused. -/
  | statArm (inst : Fin 64) (v : Word)
  /-- STAT_CLEAR (R488): A write of STAT_CTRL.CLEAR restarts the statistics block. -/
  | statClear (inst : Fin 64) (v : Word)
  /-- BLOCK_ERASE_DONE (R501): A store block erase completes and its blank check and ERASED record follow. -/
  | blockEraseDone (block : Fin 131072) (intentOk : Bool) (blankFails : Nat) (erasedOk : Bool)
  /-- REFRESH_DUE (R504): A store block reaching its refresh age or read count is rewritten to a free block. -/
  | refreshDue (block : Fin 131072) (retire : Bool) (pages : PageReads)
  /-- ENTRY_WRITE (R509): A write of STW_CTRL.GO starts writing a library entry from DRAM. -/
  | entryWrite (v : Word) (sigOk : Bool) (digestsOk : Bool)
  /-- ENTRY_WRITE_DONE (R509): An entry write ends with commit or a failure RESULT. -/
  | entryWriteDone (aborted : Bool)
  /-- LIB_DELETE (R511): A write of LIB_DELETE marks an entry DELETING and removes it once its uses end. -/
  | libDelete (v : Word)
  /-- KEY_COMMIT (R508): A write of KEY_CTRL.COMMIT commits KEY_DATA to a key slot. -/
  | keyCommit
  /-- KEY_LOCK (R508): A write of KEY_CTRL.LOCK locks a key slot. -/
  | keyLock
  /-- FETCH_ARM (R515): A write of STF_CTRL.EN arms an instance's fetch queue or is refused. -/
  | fetchArm (inst : Fin 64) (v : Word)
  /-- FETCH_COMPLETE (R516): The store finishes a taken fetch record, writes STATUS and advances DONE. -/
  | fetchComplete (inst : Fin 64) (sigOk : Bool) (badChunk : Option Nat) (pages : PageReads)
  /-- SIGNATURE_CHECK_DONE (R529): An image's signature check ends, possibly passing the final check. -/
  | signatureCheckDone (ok : Bool)
  /-- ACTIVATION_STAGE_RELEASE (R538): A ZNF-12 activation stage is released DELAY_j mesh cycles after the previous one. -/
  | activationStageRelease (slot : Fin 1024)
  /-- PLANE_LOAD_DONE (R532): A stage's planes have been written into a cluster and become RESIDENT. -/
  | planeLoadDone (n : Fin 576) (slot : Fin 1024) (sect : BitVec 16)
  /-- MC_RX_ARM (R542): A write arming CE_MC_RX_CTRL prepares a multicast image receiver or refuses it. -/
  | mcRxArm (v : Word)
  /-- MC_TX_ARM (R534): A write arming CE_MC_TX makes loads of a slot also multicast the entry. -/
  | mcTxArm (v : Word)
  /-- MC_RX_TIMEOUT (R534): A receiver without a packet for 10 ms ends INCOMPLETE. -/
  | mcRxTimeout
  /-- PLANE_SCRUB (R536): The plane scrubber reads a plane word, correcting, rewriting or faulting. -/
  | planeScrub (n : Fin 576) (p : Fin 8) (word : Fin 5120) (ecc : Ecc)
  /-- AUTOSTART (R541): After set-up is restored the engine loads each valid autostart record. -/
  | autostart
  /-- CE_AUTO_COMMIT (R541): A write of CE_AUTO_COMMIT commits the autostart records to the library table. -/
  | ceAutoCommit (v : Word)
  /-- FAULT_REPORT (R546): A fault report reaches a collector and opens an incident, merges, or queues. -/
  | faultReport (stop : BitVec 16) (unit : BitVec 8) (detail : BitVec 24) (byCount beyond restored : Bool)
  /-- INCIDENT_CLOSE (R547): An incident closes after its repair and replay and 1 ms since opening. -/
  | incidentClose (c : Fin 33) (k : Fin 32)
  /-- STEP_REPLAY (R561): A step replay stops issue, advances the attempt and drops old-attempt writes. -/
  | stepReplay
  /-- REPLAY_RESTART (R561): Once drains and repairs end, the journal is rolled back and the step restarts. -/
  | replayRestart
  /-- STEP_COMMIT (R560): After all arrivals and acknowledgements the journal is marked committed and staged advances and commit work apply. -/
  | stepCommit
  /-- POWER_CONTROL_PERIOD (R575): Every 1 µs the power controller estimates draw and sends each region its budget. -/
  | powerControlPeriod (draw others : Nat) (cmds : List (Nat × Nat × Bool))
  /-- STARTUP_END (R578): 10 ms after cold reset the controller leaves STARTING. -/
  | startupEnd
  /-- AGEING_CHECK (R580): Each second a cluster's ageing monitors may lower its maximum frequency. -/
  | ageingCheck (n : Fin 576) (low : Bool)
  /-- GAP_END (R587): A fixed-frequency gap ends and the next step may be released. -/
  | gapEnd
  /-- DROOP (R589): A droop detector stretches a region's cluster clocks until 16 cycles after recovery. -/
  | droop (g : Fin 32)
  /-- VR_ALERT (R590): VR_ALERT_N asserts and every cluster goes to the floor state. -/
  | vrAlert
  /-- FLOOR_END (R590): 100 µs after the last VR_ALERT_N deassertion the floor ends. -/
  | floorEnd
  /-- THERMAL_SAMPLE (R592): Every 100 µs sensors are read and thermal thresholds applied. -/
  | thermalSample (temps : List (List Int))
  /-- THROTTLE_STEP (R592): Each ms while throttling or recovering the thermal limit moves by 3 W. -/
  | throttleStep
  /-- PWR_CTRL_WRITE (R574): A write of PWR_CTRL sets cap, mode or guard, or is refused. -/
  | pwrCtrlWrite (v : Word)
  /-- REST_ENTER (R596): A write of PWR_REST.ENTER requests Rest, accepted or refused. -/
  | restEnter (v : Word)
  /-- REST_ENTERED (R596): An accepted Rest request completes within 200 µs. -/
  | restEntered
  /-- WAKE (R597): A wake trigger, including PWR_REST.WAKE, starts the wake from Rest. -/
  | wake (host : Bool)
  /-- WAKE_DONE (R598): 1.5 ms after the trigger the module runs again. -/
  | wakeDone
  /-- COLD_RESET (R605): COLD_RESET_N asserts for at least 10 µs and the module enters cold reset. -/
  | coldReset (powerOn : Bool)
  /-- BOOT_STAGE_END (R610): A boot stage completes and the next begins, ending with READY. -/
  | bootStageEnd (f : BootFact)
  /-- BOOT_WATCHDOG (R612): Boot not READY within 5 s causes a cold reset onto the other copy or recovery. -/
  | bootWatchdog
  /-- RAIL_FAULT (R606): A rail out of tolerance for 10 µs causes a brownout reset or fails the package. -/
  | railFault (r : Rail)
  /-- REFCLK_LOSS (R643): A reference clock is lost and the dependent block resets or goes down. -/
  | refclkLoss (c : RefClk)
  /-- HOST_RESET (R607): PERST_N resets the link and all 64 instances. -/
  | hostReset
  /-- CONTROLLER_RESET (R622): MC_RESET_N, a reset code or the watchdog resets the management controller. -/
  | controllerReset
  /-- CONTROLLER_WATCHDOG (R622): A controller silent for 1 s is reset. -/
  | controllerWatchdog
  /-- HUB_WATCHDOG (R624): 100 ms without a hub signal asserts ALERT_N, forces the fan and sets HUB_DEAD. -/
  | hubWatchdog
  /-- GS_RESET_COLD (R629): GS_RESET with code 0x0C01 and complement starts a cold reset. -/
  | gsResetCold (v : Word)
  /-- GS_RESET_CONTROLLER (R629): GS_RESET with code 0x0C02 resets the management controller. -/
  | gsResetController (v : Word)
  /-- SETUP_SAVE (R614): A write of GS_SETUP.SAVE snapshots the set-up registers. -/
  | setupSave (v : Word)
  /-- SETUP_SAVE_DONE (R614): A set-up snapshot is stored and RESULT written. -/
  | setupSaveDone (ok : Bool)
  /-- SETUP_RESTORE (R614): After READY the controller restores the latest set-up record. -/
  | setupRestore
  /-- SET_ENDPOINT_ID (R617): MCTP Set Endpoint ID assigns the endpoint ID. -/
  | setEndpointId (pecOk : Bool) (eid : BitVec 8)
  /-- GET_ENDPOINT_ID (R617): MCTP Get Endpoint ID returns the endpoint ID. -/
  | getEndpointId (pecOk : Bool)
  /-- GET_MCTP_VERSION_SUPPORT (R617): MCTP Get MCTP Version Support returns supported versions. -/
  | getMctpVersionSupport (pecOk : Bool) (typ : BitVec 8)
  /-- GET_MESSAGE_TYPE_SUPPORT (R617): MCTP Get Message Type Support returns supported types. -/
  | getMessageTypeSupport (pecOk : Bool)
  /-- GET_VENDOR_DEFINED_MESSAGE_SUPPORT (R617): MCTP Get Vendor Defined Message Support returns the vendor set. -/
  | getVendorDefinedMessageSupport (pecOk : Bool) (sel : BitVec 8)
  /-- READ_REG (R618): Vendor command READ_REG returns a BAR0 register. -/
  | readReg (pecOk : Bool) (off : Word)
  /-- WRITE_REG (R618): Vendor command WRITE_REG writes a BAR0 register under the write checks. -/
  | writeReg (pecOk : Bool) (off v : Word) (vfEnabled : Bool)
  /-- READ_PAGE (R618): Vendor command READ_PAGE returns part of a snapshot page. -/
  | readPage (pecOk : Bool) (k part : BitVec 8)
  /-- READ_EVENT (R618): Vendor command READ_EVENT returns an event record. -/
  | readEvent (pecOk : Bool) (n : Word)
  /-- RESET (R618): Vendor command RESET answers then performs a cold or controller reset. -/
  | mctpReset (pecOk : Bool) (code codeN : BitVec 16)
  /-- RECOVERY_WRITE (R618): Vendor command RECOVERY_WRITE stores firmware bytes in recovery. -/
  | recoveryWrite (pecOk : Bool) (off : Word) (data : List Byte)
  /-- RECOVERY_COMMIT (R618): Vendor command RECOVERY_COMMIT checks and writes firmware over both copies, then cold resets. -/
  | recoveryCommit (pecOk : Bool) (len : Word) (sigOk : Bool) (svn build : BitVec 16)
  /-- PMBUS_POLL (R619): The controller reads READ_PIN and regulator status over PMBus. -/
  | pmbusPoll (die : Option (Fin 4)) (ok fault : Bool)
  /-- SHUTDOWN (R625): PWR_WARN_N for 2 µs starts a shutdown: admission stops and clusters drop to the floor. -/
  | shutdown
  /-- SHUTDOWN_DONE (R625): The store goes idle and outputs are disabled; SHUTDOWN_DONE sets. -/
  | shutdownDone
  /-- SHUTDOWN_RESTART (R627): 20 ms of PWR_WARN_N deasserted after SHUTDOWN_DONE causes a cold reset. -/
  | shutdownRestart
  /-- TAP_RESET (R647): TRST_N or five TCK edges with TMS high reset the TAP to IDCODE. -/
  | tapReset
  /-- EXTEST (R647): Instruction EXTEST drives pins from the boundary register during cold reset. -/
  | extest (captured shifted : Word)
  /-- SAMPLE_PRELOAD (R647): Instruction SAMPLE/PRELOAD captures pins without disturbing them. -/
  | samplePreload (captured shifted : Word)
  /-- IDCODE (R646): Instruction IDCODE selects the identification register. -/
  | idcode
  /-- CLAMP (R647): Instruction CLAMP holds pins and selects bypass during cold reset. -/
  | clamp
  /-- HIGHZ (R647): Instruction HIGHZ floats the outputs during cold reset. -/
  | highz
  /-- EXTEST_PULSE (R647): Instruction EXTEST_PULSE tests AC-coupled lanes under 1149.6. -/
  | extestPulse (captured shifted : Word)
  /-- EXTEST_TRAIN (R647): Instruction EXTEST_TRAIN tests AC-coupled lanes with pulse trains. -/
  | extestTrain (captured shifted : Word)
  /-- BYPASS (R646): Instruction BYPASS, and any undefined opcode, selects the bypass register. -/
  | bypass (opcode : BitVec 8)
  /-- COLD_RESET_N_DEASSERT (R605): COLD_RESET_N deasserts and the module boots from stage 0. -/
  | coldResetNDeassert
  /-- BROWNOUT_END (R606): VDD_AON, VDD_HUB or REFCLK_SYS has been back in tolerance for 10 ms and the internal cold reset ends, starting boot. -/
  | brownoutEnd (c : Supply)
  /-- PERST_N_DEASSERT (R613): PERST_N deasserts and the host link starts training, ending with HL_STATUS.UP. -/
  | perstNDeassert (rate : BitVec 2) (flit : Bool) (width : BitVec 5)
  /-- CONTROLLER_RESET_DONE (R622): The management controller serves again after its reset, and FAN_PWM and held outputs follow their sources again. -/
  | controllerResetDone
  /-- VR_ALERT_DEASSERT (R590): VR_ALERT_N deasserts and the 100 µs count to the end of the floor starts or restarts. -/
  | vrAlertDeassert
  /-- PWR_WARN_DEASSERT (R627): PWR_WARN_N deasserts and the 20 ms count toward the shutdown restart starts or restarts. -/
  | pwrWarnDeassert
  /-- DROOP_END (R589): The core rail at a region recovers and the clock stretch ends 16 cycles later. -/
  | droopEnd (g : Fin 32)
  /-- ETH_LINK_UP (R399): An Ethernet sub-port, with FEC locked, comes up and LINK_UP sets. -/
  | ethLinkUp (p : Fin 4) (sub : BitVec 2)
  /-- ETH_LINK_DOWN (R417): An Ethernet sub-port goes down, LINK_UP clears and group destinations on it are dropped. -/
  | ethLinkDown (p : Fin 4) (sub : BitVec 2) (fecLock : Bool)
  /-- IMAGE_CHUNK_READ (R529): A chunk of an image being registered arrives, its digest is checked and its frames are applied, which may pass the final check. -/
  | imageChunkRead (data : List Byte) (digestOk : Bool) (transient : Nat) (pages : PageReads)
  /-- PAGE_RETIREMENT_DONE (R493): The copy of a retired DRAM page to its reserve page ends and waiting accesses proceed. -/
  | pageRetirementDone (st : Fin 8)
  /-- ROW_SWAP_DONE (R493): The swap of a DRAM row to a spare row ends and waiting accesses proceed. -/
  | rowSwapDone (st : Fin 8)
  deriving DecidableEq, Repr

end Sys2Proof
end

