-- ==== Sys2Proof/Config.lean ====
section
/-! DEFINITION. What the manual leaves to the part's stepping (R11) and the free values of the model. Each constant is opaque:
nothing can evaluate it or prove a value of it, so a statement holds for every choice. -/

namespace Sys2Proof.Config

/-- A free word: the n-th value that the manual leaves open. Log entry 2. -/
opaque freeWord : Nat → Word

/-- The product that the log path forms from two operand patterns of format code f, as a signed multiple of 2^-512. Used where no
operand is zero, special or a power of two and the format's mantissa exceeds 3 bits (R102, R103). Log entry 10. -/
opaque logProduct : (f : Nat) → (a b : Nat) → Int

/-- The activation of code c at an FP32 pattern (Table 3.6; R115, R116). Log entry 10. -/
opaque activation : (c : Nat) → Word → Word

/-- The bias adder of the epilogue on FP32 patterns, within 1 ulp of the sum (R114). Log entry 10. -/
opaque biasAdd : Word → Word → Word

/-- The vector adder, multiplier and divider on FP32 patterns (R125, R174, R175). Log entry 10. -/
opaque vecAdd : Word → Word → Word
opaque vecMul : Word → Word → Word
opaque vecDiv : Word → Word → Word

/-- The table function with selector f at an FP32 pattern, for a table whose words the unit reads (R176). Log entry 10. -/
opaque vecLut : (f : Nat) → (table : List Word) → Word → Word

/-- The fused maximum of a physical cluster, in steps of 10 MHz above 1,260 MHz, modulo 20 (R579). Log entry 90. -/
opaque fusedSteps : Nat → Nat

end Sys2Proof.Config
end

