-- ==== Sys2Proof/Machine/Arith.lean ====
section
/-! DEFINITION. The number formats and arithmetic of chapter 3: decoding, rounding and conversion of formats, products, runs and
totals, activations, stochastic rounding. Every exact value is an integer scaled by a power of two. -/

namespace Sys2Proof.Machine

/-- A floating value: NaN, an infinity, or (−1)^neg × m × 2^e; m = 0 is a signed zero (R95, R98). -/
inductive FV where
  | nan
  | inf (neg : Bool)
  | fin (neg : Bool) (m : Nat) (e : Int)
  deriving DecidableEq, Repr

/-- The width in bits of a format code (Table 3.1). -/
def fmtWidth (f : Nat) : Nat :=
  if f ≤ 1 then 16 else if f ≤ 4 then 8 else if f ≤ 6 then 4 else 32

/-- Integer formats: INT8, INT4 and INT32. -/
def isIntFmt (f : Nat) : Bool := f == 4 || f == 5 || f == 8

/-- Mantissa bits, exponent bits and the exponent of the smallest subnormal of a floating format (Table 3.2). -/
def floatFmt (f : Nat) : Nat × Nat × Int :=
  if f == 0 then (10, 5, -24) else if f == 1 then (7, 8, -133) else if f == 2 then (3, 4, -9)
  else if f == 3 then (2, 5, -16) else if f == 6 then (1, 2, -1) else (23, 8, -149)

/-- The bits of a number: 0 for 0. -/
def bitLen (m : Nat) : Nat := if m = 0 then 0 else Nat.log2 m + 1

/-- Reads a pattern of a floating format (R95, R97; BS4 elements have no special values). -/
def decodeF (f p : Nat) : FV :=
  let (man, ex, lsb) := floatFmt f
  let mant := p % 2 ^ man
  let e := p / 2 ^ man % 2 ^ ex
  let neg := p / 2 ^ (man + ex) % 2 == 1
  if f == 2 && e == 15 && mant == 7 then .nan
  else if f ≠ 2 && f ≠ 6 && e == 2 ^ ex - 1 then (if mant == 0 then .inf neg else .nan)
  else if e == 0 then .fin neg mant lsb else .fin neg (2 ^ man + mant) (lsb + e - 1)

/-- Scales a finite value by a power of two. -/
def FV.shift (v : FV) (k : Int) : FV :=
  match v with
  | .fin n m e => .fin n m (e + k)
  | x => x

/-- The value of an element of a format: integers exactly, BS4 with its scale byte (R96, R97). -/
def elemVal (f p scale : Nat) : FV :=
  if isIntFmt f then
    let i := toSigned (fmtWidth f) p
    .fin (decide (i < 0)) i.natAbs 0
  else if f == 6 then (if scale == 255 then .nan else (decodeF 6 p).shift ((scale : Int) - 127))
  else decodeF f p

/-- The signed integer of an exact value at a scale 2^q that divides it, q ≤ e. -/
def FV.at (v : FV) (q : Int) : Int :=
  match v with
  | .fin n m e => (if n then -1 else 1) * ((m * 2 ^ (e - q).toNat : Nat) : Int)
  | _ => 0

/-! ### Rounding (R108, R117, R120) -/

/-- Divides by 2^s, rounding to nearest with ties to even, or by a drawn value r: away from zero exactly when r is below the
discarded fraction truncated to 16 bits (R120). -/
def roundShift (m s : Nat) (r : Option Nat) : Nat :=
  let k := m / 2 ^ s
  let rem := m % 2 ^ s
  let up := match r with
    | none => decide (2 ^ s < 2 * rem) || (decide (2 * rem = 2 ^ s) && decide (k % 2 = 1))
    | some d => decide (d < rem * 2 ^ 16 / 2 ^ s)
  k + b2n up

/-- The exponent of the last place of m × 2^e at man + 1 significant bits, not below the subnormal's. -/
def quantum (man : Nat) (lsb : Int) (m : Nat) (e : Int) : Int := max (e + bitLen m - (man + 1)) lsb

/-- m × 2^e as a multiple of 2^q, rounded when q > e. -/
def roundAt (m : Nat) (e q : Int) (r : Option Nat) : Nat :=
  if q ≤ e then m * 2 ^ (e - q).toNat else roundShift m (q - e).toNat r

/-- The magnitude pattern of a floating format nearest to m × 2^e, before the range is checked: it rises with the value, and runs on
past the largest finite pattern. -/
def magnitude (f m : Nat) (e : Int) (r : Option Nat) : Nat :=
  let (man, _, lsb) := floatFmt f
  let q := quantum man lsb m e
  let k := roundAt m e q r
  (q - lsb).toNat * 2 ^ man + k

/-- The largest finite pattern, the pattern of a NaN, and whether the format has infinities (Table 3.2, R98). -/
def maxFinite (f : Nat) : Nat :=
  if f == 2 then 0x7E else if f == 6 then 7 else let x := floatFmt f; (2 ^ x.2.1 - 1) * 2 ^ x.1 - 1

def nanPattern (f : Nat) : Nat :=
  if f == 0 then 0x7E00 else if f == 1 then 0x7FC0 else if f == 2 ∨ f == 3 then 0x7F else 0x7FC00000

/-- Converts a value to a format other than BS4 (Table 3.7): the pattern, and whether CSAT's condition holds. -/
def convF (f : Nat) (v : FV) (r : Option Nat) : Nat × Bool :=
  if isIntFmt f then
    let w := fmtWidth f
    let hi : Int := 2 ^ (w - 1) - 1
    let lo : Int := -(2 ^ (w - 1))
    match v with
    | .nan => (0, true)
    | .inf n => (ofSigned w (if n then lo else hi), true)
    | .fin n m e =>
      let k : Int := (if n then -1 else 1) * (roundAt m e 0 r : Int)
      if hi < k then (ofSigned w hi, true) else if k < lo then (ofSigned w lo, true) else (ofSigned w k, false)
  else
    let sgn (n : Bool) : Nat := b2n n * 2 ^ (fmtWidth f - 1)
    match v with
    | .nan => (nanPattern f, false)
    | .inf n => if f == 2 then (sgn n + 0x7E, true) else (sgn n + maxFinite f + 1, false)
    | .fin n m e =>
      let p := if m = 0 then 0 else magnitude f m e r
      if maxFinite f < p then (if f == 2 then (sgn n + 0x7E, true) else (sgn n + maxFinite f + 1, false)) else (sgn n + p, false)

/-! ### FP32 -/

/-- The canonical NaN of FP32 (R98). -/
def nan32 : Word := 0x7FC00000#32

def val32 (w : Word) : FV := decodeF 7 w.toNat

/-- Rounds a value to FP32, to nearest with ties to even. -/
def to32 (v : FV) : Word := BitVec.ofNat 32 (convF 7 v none).1

/-- Whether an FP32 pattern is NaN, or infinite. -/
def isNan32 (w : Word) : Bool := match val32 w with | .nan => true | _ => false
def isInf32 (w : Word) : Bool := match val32 w with | .inf _ => true | _ => false

/-- The exact sum of two values with the zero signs of R108: −0 only from two negative zeros. -/
def FV.add (a b : FV) : FV :=
  match a, b with
  | .nan, _ => .nan
  | _, .nan => .nan
  | .inf x, .inf y => if x = y then .inf x else .nan
  | .inf x, _ => .inf x
  | _, .inf y => .inf y
  | .fin na ma ea, .fin nb mb eb =>
    let q := min ea eb
    let i := (FV.fin na ma ea).at q + (FV.fin nb mb eb).at q
    if i = 0 then .fin (na && nb && ma == 0 && mb == 0) 0 0 else .fin (decide (i < 0)) i.natAbs q

/-- The exact product of two values (IEEE 754 special cases, R105). -/
def FV.mul (a b : FV) : FV :=
  match a, b with
  | .nan, _ => .nan
  | _, .nan => .nan
  | .inf x, .inf y => .inf (x != y)
  | .inf x, .fin n m _ => if m = 0 then .nan else .inf (x != n)
  | .fin n m _, .inf y => if m = 0 then .nan else .inf (n != y)
  | .fin na ma ea, .fin nb mb eb => .fin (na != nb) (ma * mb) (ea + eb)

def FV.neg : FV → FV
  | .nan => .nan
  | .inf n => .inf (!n)
  | .fin n m e => .fin (!n) m e

/-- Whether a < b of two values that are not NaN; −0 equals +0. -/
def FV.lt (a b : FV) : Bool :=
  match a, b with
  | .nan, _ => false
  | _, .nan => false
  | .inf x, .inf y => x && !y
  | .inf x, _ => x
  | _, .inf y => !y
  | .fin na ma ea, .fin nb mb eb =>
    let q := min ea eb
    decide ((FV.fin na ma ea).at q < (FV.fin nb mb eb).at q)

/-- The correctly rounded FP32 sum and product. -/
def add32 (a b : Word) : Word := to32 ((val32 a).add (val32 b))
def mul32 (a b : Word) : Word := to32 ((val32 a).mul (val32 b))

/-- The function that the part computes within u units in the last place of an exact finite nonzero value: the stepping's result
where it lies within the bound and has the exact value's sign, and the correctly rounded value otherwise (R114, R174, R175; log
entry 10). -/
def within (u : Nat) (exact : FV) (candidate : Word) : Word :=
  match exact, val32 candidate with
  | .fin n m e, .fin n' m' e' =>
    let q := quantum 23 (-149) m e
    let z := min (min e e') q
    let d := (FV.fin n m e).at z - (FV.fin n' m' e').at z
    if m ≠ 0 && decide (maxFinite 7 ≥ magnitude 7 m e none) && decide (d.natAbs ≤ u * 2 ^ (q - z).toNat) && n == n'
    then candidate else to32 exact
  | x, _ => to32 x

/-- The adder of R174, also the bias adder of R114, and the multiplier of R175. -/
def vadd (f : Word → Word → Word) (a b : Word) : Word := within 1 ((val32 a).add (val32 b)) (f a b)
def vmul (a b : Word) : Word := within 1 ((val32 a).mul (val32 b)) (Config.vecMul a b)

/-- The quotient m1 × 2^e1 / (m2 × 2^e2), m2 ≠ 0, cut to a 64-bit quotient with a sticky bit: close enough to judge 2 units in
the last place. -/
def FV.quot (a b : FV) : FV :=
  match a, b with
  | .fin na ma ea, .fin nb mb eb =>
    if mb = 0 then (if ma = 0 then .nan else .inf (na != nb))
    else if ma = 0 then .fin (na != nb) 0 0
    else
      let s := 64 + bitLen mb
      let k := ma * 2 ^ s / mb
      .fin (na != nb) (2 * k + b2n (decide (ma * 2 ^ s % mb ≠ 0))) (ea - eb - s - 1)
  | .nan, _ => .nan
  | _, .nan => .nan
  | .inf _, .inf _ => .nan
  | .inf x, .fin n _ _ => .inf (x != n)
  | .fin n _ _, .inf y => .fin (n != y) 0 0

/-- The divider of R175: within 2 units in the last place. -/
def vdiv (a b : Word) : Word := within 2 ((val32 a).quot (val32 b)) (Config.vecDiv a b)

/-! ### Products (R101 to R105) -/

/-- A product: special, a signed zero, or a nonzero multiple of 2^-512 with the exponent that R107 aligns to. -/
inductive Prod where
  | nan
  | inf (neg : Bool)
  | zero (neg : Bool)
  | fin (v : Int) (ex : Int)
  deriving DecidableEq, Repr

/-- A finite value is normal and a power of two (R103). -/
def powerOfTwo (f p : Nat) (v : FV) : Bool :=
  match v with
  | .fin _ m _ => decide (m = 2 ^ (bitLen m - 1)) && decide (m ≠ 0) && decide (p / 2 ^ (floatFmt f).1 % 2 ^ (floatFmt f).2.1 ≠ 0)
  | _ => false

/-- At most 3 mantissa bits: the exact path (R101). -/
def smallFmt (f : Nat) : Bool := f == 2 || f == 3 || f == 6

/-- The product of two floating operands. On the log path it is the stepping's value where that meets the bound of R102 (a relative
error below 2^-11 at 24 significant bits), and the exact product otherwise. -/
def prodF (fa fw pa pw : Nat) (a w : FV) : Prod :=
  match a.mul w with
  | .nan => .nan
  | .inf n => .inf n
  | .fin n m e =>
    match a, w with
    | .fin _ ma ea, .fin _ mw ew =>
      if m = 0 then .zero n else
      let x := m * 2 ^ (e + 512).toNat
      let sgn : Int := if n then -1 else 1
      let ex := ea + bitLen ma - 1 + (ew + bitLen mw - 1)
      if (smallFmt fa && smallFmt fw) || powerOfTwo fa pa a || powerOfTwo fw pw w then .fin (sgn * x) ex
      else
        let c := (Config.logProduct (16 * fa + fw) pa pw).natAbs
        let y := if decide ((max c x - min c x) * 2 ^ 11 < x) && c % 2 ^ (bitLen c - 24) == 0 then c else x
        .fin (sgn * y) ((bitLen y : Int) - 1 - 512)
    | _, _ => .zero n

/-- A run of the float accumulation (R107 to R109): the value, and the Ŝ of R150 in units of 2^-512. -/
def runF (ps : List Prod) : FV × Nat :=
  let infP := ps.contains (.inf false)
  let infN := ps.contains (.inf true)
  if ps.contains .nan || (infP && infN) then (.nan, 0)
  else if infP then (.inf false, 0) else if infN then (.inf true, 0)
  else
    let exs := ps.filterMap fun p => match p with | .fin _ x => some x | _ => none
    match exs with
    | [] => (.fin (!ps.isEmpty && ps.all (· == .zero true)) 0 0, 0)
    | x :: xs =>
      let emax := xs.foldl max x
      let u : Int := 2 ^ (emax - 30 + 512).toNat
      let i : Int := (ps.map fun p => match p with | .fin v _ => v.tdiv u * u | _ => (0 : Int)).sum
      (if i = 0 then .fin false 0 0 else .fin (decide (i < 0)) i.natAbs (-512), 16 * 2 ^ (emax + 2 + 512).toNat)

/-- Cuts a list into runs of 16 (R106). -/
def runs {α : Type} : Nat → List α → List (List α)
  | 0, _ => []
  | n + 1, l => if l.isEmpty then [] else l.take 16 :: runs n (l.drop 16)

/-- What one column of a row gives: the result, the flags CSAT, ISAT, INF, NAN as bits 3 to 0, its Ŝ, and whether a special value
keeps the row from being checked (R151). -/
structure ColOut where
  value : Word
  flags : Nat
  shat : Nat
  special : Bool
  deriving DecidableEq, Repr

/-- Adds the runs of a column to a total in FP32 (R108, R109). INF also tells of a run that holds an infinite product (R128). -/
def sumF (total : Word) (ps : List Prod) : ColOut :=
  (runs (ps.length + 1) ps).foldl (fun o r =>
    let x := runF r
    let run := to32 x.1
    let t := add32 o.value run
    let wasInf := isInf32 o.value
    let nan := isNan32 run || isNan32 t
    let inf := r.contains (.inf false) || r.contains (.inf true) || isInf32 run || (isInf32 t && !wasInf)
    ⟨t, o.flags ||| (b2n nan + 2 * b2n inf), o.shat + x.2, o.special || isNan32 run || isInf32 run || isNan32 t || isInf32 t⟩)
    ⟨total, 0, 0, false⟩

/-- Adds the runs of a column in INT32 with saturation (R110). -/
def sumI (total : Word) (ps : List Int) : ColOut :=
  (runs (ps.length + 1) ps).foldl (fun o r =>
    let t := o.value.toInt + r.sum
    if 2147483647 < t then ⟨0x7FFFFFFF#32, o.flags ||| 4, 0, false⟩
    else if t < -2147483648 then ⟨0x80000000#32, o.flags ||| 4, 0, false⟩ else ⟨BitVec.ofInt 32 t, o.flags, 0, false⟩)
    ⟨total, 0, 0, false⟩

/-! ### Maximum and minimum with index (R121 to R123) -/

/-- A product as a value to compare at full precision. -/
def Prod.val : Prod → FV
  | .nan => .nan
  | .inf n => .inf n
  | .zero n => .fin n 0 0
  | .fin v _ => .fin (decide (v < 0)) v.natAbs (-512)

/-- Goes on with a candidate: strictly better candidates and the first NaN win (R122). The winner is a value and its index, or none. -/
def better (isMax : Bool) (w : Option (FV × Nat)) (c : FV) (k : Nat) : Option (FV × Nat) :=
  match w with
  | none => some (c, k)
  | some (v, i) =>
    match v, c with
    | .nan, _ => some (v, i)
    | _, .nan => some (.nan, k)
    | _, _ => if (if isMax then v.lt c else c.lt v) then some (c, k) else some (v, i)

/-- The winner over the positions k0 and up; a masked position (none) never wins (R123). -/
def winner (isMax : Bool) : Option (FV × Nat) → Nat → List (Option FV) → Option (FV × Nat)
  | w, _, [] => w
  | w, k, none :: l => winner isMax w (k + 1) l
  | w, k, some c :: l => winner isMax (better isMax w c k) (k + 1) l

/-- The value and index words that a reduction writes (R122, R123); `int` selects INT32. -/
def winnerWords (isMax int : Bool) (w : Option (FV × Nat)) : Word × Word :=
  match w with
  | none =>
    (if int then (if isMax then 0x80000000#32 else 0x7FFFFFFF#32) else if isMax then 0xFF800000#32 else 0x7F800000#32, 0xFFFFFFFF#32)
  | some (v, k) => (if int then BitVec.ofNat 32 (convF 8 v none).1 else to32 v, BitVec.ofNat 32 k)

/-! ### The epilogue's steps (R113 to R118) -/

/-- The floor of a finite value. -/
def FV.floor (v : FV) : Int :=
  match v with
  | .fin n m e =>
    let i : Int := (if n then -1 else 1) * (m : Int)
    if 0 ≤ e then i * 2 ^ e.toNat else i.fdiv (2 ^ (-e).toNat)
  | _ => 0

/-! ### Functions that are bounded, to 128 places after the binary point (R115, R176; log entry 10)

The functions of Tables 3.5 and 5.5 are approximated by integers scaled by 2^128, to judge whether a result lies within its bound. -/

/-- The scale 2^128, and ln 2, log2 e and 1 / √(2π) at that scale. -/
def fixOne : Nat := 2 ^ 128
def fixLn2 : Nat := 0xb17217f7d1cf79abc9e3b39803f2f6af
def fixLog2e : Nat := 0x171547652b82fe1777d0ffda0d23a7d11
def fixPhi0 : Nat := 0x662114cf50d942343f2cf1402eae38bf

/-- A finite value at the scale, cut below. -/
def FV.fix (v : FV) : Int := (v.shift 128).floor

/-- The value of a number at the scale. -/
def unfix (i : Int) : FV := .fin (decide (i < 0)) i.natAbs (-128)

/-- e^z for 0 ≤ z < 1, by its power series. -/
def fixExp (z : Nat) : Nat :=
  ((List.range 40).foldl (fun (a : Nat × Nat) k => let u := a.2 * z / fixOne / (k + 1); (a.1 + u, u)) (fixOne, fixOne)).1

/-- 2^f for 0 ≤ f < 1. -/
def fixExp2 (f : Nat) : Nat := fixExp (f * fixLn2 / fixOne)

/-- e^(−y) for y ≥ 0. -/
def fixExpNeg (y : Nat) : Nat :=
  let u := y * fixLog2e / fixOne
  fixExp2 (fixOne - 1 - u % fixOne) / 2 ^ min 130 (u / fixOne + 1)

/-- 1 / (1 + e^(−y)) for y ≥ 0. -/
def fixSigmoidPos (y : Nat) : Nat := fixOne * fixOne / (fixOne + fixExpNeg y)

/-- The logistic function. -/
def fixSigmoid (x : Int) : Int :=
  if x < 0 then (fixOne : Int) - fixSigmoidPos x.natAbs else fixSigmoidPos x.natAbs

/-- The hyperbolic tangent: 2 × sigmoid(2x) − 1. -/
def fixTanh (x : Int) : Int := 2 * fixSigmoid (2 * x) - fixOne

/-- The normal distribution function of x ≥ 0: ½ + φ(x) × (x + x³/3 + x⁵/15 + …), and 1 from 12 on. -/
def fixPhiPos (x : Nat) : Nat :=
  if 12 * fixOne ≤ x then fixOne
  else
    let q := x * x / fixOne
    let sum := ((List.range 600).foldl (fun (a : Nat × Nat) k => let u := a.2 * q / fixOne / (2 * k + 3); (a.1 + u, u)) (x, x)).1
    fixOne / 2 + fixPhi0 * fixExpNeg (q / 2) / fixOne * sum / fixOne

/-- The normal distribution function. -/
def fixPhi (x : Int) : Int := if x < 0 then (fixOne : Int) - fixPhiPos x.natAbs else fixPhiPos x.natAbs

/-- log2 of m / 2^128 for 2^128 ≤ m < 2^129, to 64 places, by squaring. -/
def fixLog2 (m : Nat) : Nat :=
  ((List.range 64).foldl (fun (a : Nat × Nat) k =>
    let z := a.1 * a.1 / fixOne
    if 2 * fixOne ≤ z then (z / 2, a.2 + 2 ^ (127 - k)) else (z, a.2)) (m, 0)).2

/-- The integer square root of a number below 2^512. -/
def isqrt (n : Nat) : Nat :=
  (List.range 256).foldl (fun r k => let c := r + 2 ^ (255 - k); if c * c ≤ n then c else r) 0

/-- The value of sigmoid, tanh, GELU and SiLU (ACT 4 to 7) at a finite value, at the scale. -/
def fixAct (code : Nat) (x : Int) : Int :=
  if code = 4 then fixSigmoid x
  else if code = 5 then fixTanh x
  else (x * (if code = 6 then fixPhi x else fixSigmoid x)).fdiv fixOne

/-- Such an activation within its bound of Table 3.5: 2^-16, for GELU and SiLU × max(1, |x|). -/
def actBounded (code : Nat) (v : FV) (c : Word) : Word :=
  let x := v.fix
  let y := fixAct code x
  let m : Nat := if code ≤ 5 then fixOne else max fixOne x.natAbs
  match val32 c with
  | .fin n k e => if (((FV.fin n k e).fix - y).natAbs : Nat) * 2 ^ 16 ≤ m then c else to32 (unfix y)
  | _ => to32 (unfix y)

/-- EXP2 within its bound of Table 5.5, 2^-22 relative; a result that is not normal has no bound. -/
def exp2Bounded (v : FV) (c : Word) : Word :=
  let i := v.floor
  let y := (FV.fin false (fixExp2 ((v.fix - i * fixOne).toNat)) (i - 128))
  if i < -126 ∨ 127 < i then c
  else match val32 c with
    | .fin false k e => if ((((FV.fin false k e).shift (-i)).fix - (y.shift (-i)).fix).natAbs : Int) * 2 ^ 22 ≤ (y.shift (-i)).fix then c else to32 y
    | _ => to32 y

/-- LOG2 of a positive finite value within its bound of Table 5.5, 2^-22. -/
def log2Bounded (m : Nat) (e : Int) (c : Word) : Word :=
  let k := bitLen m - 1
  let y : Int := (e + k) * fixOne + fixLog2 (m * 2 ^ 128 / 2 ^ k)
  match val32 c with
  | .fin n j f => if ((FV.fin n j f).fix - y).natAbs * 2 ^ 22 ≤ fixOne then c else to32 (unfix y)
  | _ => to32 (unfix y)

/-- RSQRT of a positive finite value m × 2^e within its bound of Table 5.5: |c × √x − 1| ≤ 2^-22. -/
def rsqrtBounded (m : Nat) (e : Int) (c : Word) : Word :=
  let h : Int := e.fdiv 2
  let m' := if e.fmod 2 = 0 then m else 2 * m
  let y := to32 (.fin false (isqrt (2 ^ 320 / m')) (-160 - h))
  match val32 c with
  | .fin false j f =>
    let z := ((FV.fin false (j * j) (2 * f)).mul (.fin false m (e + 44))).fix
    if ((2 ^ 22 - 1) ^ 2 * fixOne : Nat) ≤ z ∧ z ≤ ((2 ^ 22 + 1) ^ 2 * fixOne : Nat) then c else y
  | _ => y

/-- |c − x| ≤ 2^-22 × max(|y|, |z|) of finite values (R116). -/
def nearTable (c x y z : FV) : Bool :=
  match c, x, y, z with
  | .fin cn cm ce, .fin xn xm xe, .fin _ ym ye, .fin _ zm ze =>
    let q := min (min ce xe) (min ye ze)
    let m := max ((FV.fin false ym ye).at q) ((FV.fin false zm ze).at q)
    decide ((((FV.fin cn cm ce).at q - (FV.fin xn xm xe).at q).natAbs : Int) * 2 ^ 22 ≤ m)
  | _, _, _, _ => false

/-- The interpolation of a loadable table (R116), for a table of 260 words: a clamped edge is the end knot; in the interior the
stepping's result where it lies within the bound, and the correctly rounded interpolation otherwise; an extension, which has no
bound, is the stepping's where that is finite, and the largest finite value where the exact extension lies beyond it. -/
def tableFn (t : List Word) (x : Word) : Word :=
  match val32 x with
  | .nan => nan32
  | v =>
    let xlo := val32 (t.getD 257 0)
    let w := toSigned 8 (bits (t.getD 258 0) 7 0)
    let extend := bit (t.getD 259 0) 0
    let left := v.lt xlo
    let right := !v.lt (xlo.add (.fin false 256 w))
    let c := Config.vecLut 0 t x
    if left && !extend then t.getD 0 0
    else if right && !extend then t.getD 256 0
    else
      let d := (v.add xlo.neg).shift (-w)
      let i := if left then 0 else if right then 255 else d.floor.toNat
      let y := val32 (t.getD i 0)
      let z := val32 (t.getD (i + 1) 0)
      let r := y.add ((d.add (.fin true i 0)).mul (z.add y.neg))
      if left || right then
        let top := BitVec.ofNat 32 (b2n (r.lt (.fin false 0 0)) * 2 ^ 31 + maxFinite 7)
        if isInf32 (to32 r) then top
        else match val32 c with | .fin _ _ _ => c | .inf n => BitVec.ofNat 32 (b2n n * 2 ^ 31 + maxFinite 7) | .nan => to32 r
      else if nearTable (val32 c) r y z then c else to32 r

/-- The activation of an ACT code (Table 3.5); `q` is LEAKY_Q and `t` the loadable table. -/
def act (code q : Nat) (t : List Word) (x : Word) : Word :=
  match val32 x with
  | .nan => if code = 0 then x else nan32
  | v =>
    let neg := v.lt (.fin false 0 0)
    match code with
    | 0 => x
    | 1 => if neg || x == 0x80000000#32 then 0 else x
    | 2 => if neg || x == 0x80000000#32 then 0 else if (FV.fin false 6 0).lt v then 0x40C00000#32 else x
    | 3 => if neg then to32 (v.shift (-(q : Int))) else x
    | 8 => tableFn t x
    | _ =>
      match v with
      | .inf n =>
        if code = 4 then (if n then 0 else 0x3F800000#32)
        else if code = 5 then (if n then 0xBF800000#32 else 0x3F800000#32)
        else if n then 0x80000000#32 else 0x7F800000#32
      | _ => actBounded code v (Config.activation code x)

/-- One step of the generator of R120. -/
def xorshift (x : Word) : Word :=
  let x := x ^^^ (x <<< 13)
  let x := x ^^^ (x >>> 17)
  x ^^^ (x <<< 5)

/-- The seed of R120. -/
def srSeed (seed : Word) (lc ctx number : Nat) : Word :=
  let x := seed ^^^ BitVec.ofNat 32 (lc * 2 ^ 20) ^^^ BitVec.ofNat 32 (ctx * 2 ^ 18) ^^^ BitVec.ofNat 32 (number % 2 ^ 18)
  if x = 0 then 1 else x

/-- A BS4 block (R118): its scale byte, its 32 codes, CSAT and NAN. -/
def blockBs4 (xs : List FV) (rs : List (Option Nat)) : Nat × List Nat × Bool × Bool :=
  if xs.any (fun v => match v with | .fin _ _ _ => false | _ => true) then (255, xs.map fun _ => 0, false, true)
  else
    let tops := xs.filterMap fun v => match v with | .fin _ m e => if m = 0 then none else some (e + bitLen m - 1) | _ => none
    match tops with
    | [] => (0, xs.map fun _ => 0, false, false)
    | y :: ys =>
      let s : Int := max 0 (min 254 (ys.foldl max y - 2 + 127))
      let cs := (xs.zip rs).map fun vr => match vr.1 with
        | .fin n m e =>
          let p := if m = 0 then 0 else magnitude 6 m (e + 127 - s) vr.2
          (b2n n * 8 + min p 7, decide (7 < p))
        | _ => (0, false)
      (s.toNat, cs.map (·.1), cs.any (·.2), false)

end Sys2Proof.Machine
end

