-- ==== Sys2Proof/Machine/RegTable.lean ====
section
/-! DEFINITION. The register index of chapter 21 (Tables 21.4 to 21.10): which offsets are registers, their reset values, and
which of their bits a write sets (RW) or clears (W1C). R652, R12. -/

namespace Sys2Proof.Machine

/-- One row of the register index inside a block: n registers from off, stride bytes apart, with the reset value of the whole
register, the bits of access RW and the bits of access W1C (R12). -/
structure RegRow where
  off : Nat
  n : Nat
  stride : Nat
  reset : Nat
  rw : Nat
  w1c : Nat
  deriving DecidableEq, Repr

/-- A block of registers: count copies of its rows from base, stride bytes apart. -/
structure RegBlock where
  base : Nat
  stride : Nat
  count : Nat
  rows : List RegRow
  deriving DecidableEq, Repr

/-- Registers outside the repeated blocks. -/
def regRowsSingle0 : List RegRow :=
  [⟨0x30400, 1, 4, 0x0, 0xFFFFFFFF, 0x0⟩,
   ⟨0x30404, 1, 4, 0x0, 0xFFFFFFFF, 0x0⟩,
   ⟨0xB0040, 1, 4, 0x0, 0xFF, 0x80000000⟩,
   ⟨0x30800, 1, 4, 0x0, 0x803FFFFF, 0x0⟩,
   ⟨0x30804, 1, 4, 0x0, 0xFFFFFFFF, 0x0⟩,
   ⟨0x30808, 1, 4, 0x0, 0xFFFF, 0x0⟩,
   ⟨0x3080C, 1, 4, 0x0, 0xFFFFFFFF, 0x0⟩,
   ⟨0x30810, 1, 4, 0x0, 0xFFFF, 0x0⟩,
   ⟨0x30814, 1, 4, 0x0, 0x0, 0x0⟩,
   ⟨0x30818, 1, 4, 0x0, 0x0, 0x80000000⟩,
   ⟨0x30820, 1, 4, 0x0, 0x0, 0x0⟩,
   ⟨0x30824, 1, 4, 0x0, 0x0, 0x0⟩,
   ⟨0x30828, 1, 4, 0x0, 0x0, 0x0⟩,
   ⟨0x32000, 1, 4, 0x0, 0x0, 0x80000000⟩,
   ⟨0x32004, 1, 4, 0x0, 0x0, 0x0⟩,
   ⟨0x10000, 1, 4, 0x18, 0xFF0000FF, 0x0⟩,
   ⟨0x10004, 1, 4, 0x2710, 0xFFFFF, 0x0⟩,
   ⟨0x10008, 1, 4, 0x0, 0xFFFFFFFF, 0x0⟩,
   ⟨0x1000C, 1, 4, 0x0, 0x0, 0x0⟩,
   ⟨0x10010, 1, 4, 0x0, 0x0, 0x0⟩,
   ⟨0x10014, 1, 4, 0x0, 0x0, 0x0⟩,
   ⟨0x10018, 1, 4, 0x0, 0x0, 0x0⟩,
   ⟨0x1001C, 1, 4, 0x0, 0x0, 0x0⟩,
   ⟨0x10020, 1, 4, 0x0, 0x0, 0xF⟩,
   ⟨0x10024, 1, 4, 0x0, 0xC0FFFFFF, 0x0⟩,
   ⟨0x10030, 1, 4, 0x0, 0x0, 0x0⟩,
   ⟨0x10034, 1, 4, 0x0, 0x0, 0x0⟩,
   ⟨0x10038, 1, 4, 0x0, 0x0, 0x0⟩,
   ⟨0x1003C, 1, 4, 0x0, 0x0, 0x0⟩,
   ⟨0x10040, 1, 4, 0x0, 0x0, 0x0⟩,
   ⟨0x10044, 1, 4, 0x0, 0x0, 0x0⟩,
   ⟨0x10048, 1, 4, 0x0, 0x0, 0x0⟩,
   ⟨0x1004C, 1, 4, 0x0, 0x0, 0x0⟩,
   ⟨0x10050, 1, 4, 0x0, 0x0, 0x0⟩,
   ⟨0x10054, 1, 4, 0x0, 0x0, 0x0⟩,
   ⟨0x10058, 1, 4, 0x0, 0x0, 0x0⟩,
   ⟨0x100, 1, 4, 0x0, 0x0, 0x0⟩,
   ⟨0x104, 1, 4, 0xC350, 0xFFFF, 0x0⟩,
   ⟨0x108, 1, 4, 0x0, 0x1FF, 0x0⟩,
   ⟨0x10C, 1, 4, 0x0, 0x0, 0x0⟩]

/-- Registers outside the repeated blocks. -/
def regRowsSingle1 : List RegRow :=
  [⟨0x110, 1, 4, 0x0, 0x0, 0x0⟩,
   ⟨0x114, 1, 4, 0x0, 0x0, 0x0⟩,
   ⟨0x118, 1, 4, 0x0, 0x0, 0x0⟩,
   ⟨0x11C, 1, 4, 0x0, 0x0, 0x0⟩,
   ⟨0x2000, 8, 4, 0x0, 0x800007FF, 0x0⟩,
   ⟨0x2040, 1, 4, 0x0, 0x0, 0x7F⟩,
   ⟨0x1000, 1, 4, 0x0, 0x0, 0x0⟩,
   ⟨0x1004, 3, 4, 0x0, 0xFFFFFFFF, 0x0⟩,
   ⟨0x1010, 1, 4, 0x0, 0x0, 0x40000000⟩,
   ⟨0x1014, 1, 4, 0x0, 0x0, 0x0⟩,
   ⟨0x1018, 1, 4, 0x0, 0x0, 0x0⟩,
   ⟨0x100800, 1, 4, 0x75300000, 0xFFFF0000, 0x0⟩,
   ⟨0x100804, 1, 4, 0x0, 0x0, 0x0⟩,
   ⟨0x100808, 1, 4, 0x0, 0x0, 0x0⟩,
   ⟨0x10080C, 1, 4, 0x0, 0x0, 0x0⟩,
   ⟨0x100810, 1, 4, 0x0, 0x0, 0x0⟩,
   ⟨0x100814, 1, 4, 0x0, 0x0, 0x0⟩,
   ⟨0x100818, 1, 4, 0x0, 0x0, 0x0⟩,
   ⟨0x10081C, 1, 4, 0x0, 0x0, 0x0⟩,
   ⟨0x100820, 1, 4, 0x0, 0x0, 0x0⟩,
   ⟨0x100840, 1, 4, 0x0, 0xFFF, 0x0⟩,
   ⟨0x100844, 1, 4, 0x0, 0x0, 0x0⟩,
   ⟨0x100848, 1, 4, 0x0, 0x0, 0x0⟩,
   ⟨0x10084C, 1, 4, 0x0, 0x0, 0x0⟩,
   ⟨0x100850, 1, 4, 0x0, 0x0, 0x0⟩,
   ⟨0x100854, 1, 4, 0x0, 0x0, 0x0⟩,
   ⟨0x100858, 1, 4, 0x0, 0x0, 0x0⟩,
   ⟨0x106000, 256, 4, 0x0, 0xFE00007F, 0x0⟩,
   ⟨0x210000, 1, 4, 0x3FFF0000, 0x3FFF3FFF, 0x0⟩,
   ⟨0x210004, 1, 4, 0x0, 0x0, 0x1F⟩,
   ⟨0x210008, 1, 4, 0x0, 0x80003FFF, 0x0⟩,
   ⟨0x210010, 1, 4, 0x0, 0x0, 0x0⟩,
   ⟨0x210014, 1, 4, 0x0, 0x0, 0x0⟩,
   ⟨0x210018, 1, 4, 0x0, 0x0, 0x0⟩,
   ⟨0x21001C, 1, 4, 0x0, 0x0, 0x0⟩,
   ⟨0x210020, 1, 4, 0x0, 0x0, 0x0⟩,
   ⟨0x210024, 1, 4, 0x0, 0x0, 0x0⟩,
   ⟨0x210028, 1, 4, 0x0, 0x0, 0x0⟩,
   ⟨0x21002C, 1, 4, 0x0, 0x0, 0x0⟩,
   ⟨0x210030, 1, 4, 0x0, 0x0, 0x0⟩]

/-- Registers outside the repeated blocks. -/
def regRowsSingle2 : List RegRow :=
  [⟨0x210034, 1, 4, 0x0, 0x0, 0x0⟩,
   ⟨0x210038, 1, 4, 0x0, 0x0, 0x0⟩,
   ⟨0x210040, 1, 4, 0x0, 0x0, 0x0⟩,
   ⟨0x210044, 1, 4, 0x0, 0x0, 0x0⟩,
   ⟨0x210048, 1, 4, 0x0, 0x0, 0x0⟩,
   ⟨0x21004C, 1, 4, 0x0, 0x0, 0x0⟩,
   ⟨0x210100, 64, 8, 0x0, 0x8000FFFF, 0x0⟩,
   ⟨0x210104, 64, 8, 0xFFFFFFFF, 0xFFFFFFFF, 0x0⟩,
   ⟨0x210400, 1, 4, 0x0, 0x3FFF, 0x0⟩,
   ⟨0x210404, 1, 4, 0x0, 0xC0000000, 0x0⟩,
   ⟨0x210410, 4, 32, 0x0, 0x801F0000, 0x0⟩,
   ⟨0x210414, 4, 32, 0x0, 0xFFFFFFFF, 0x0⟩,
   ⟨0x210418, 4, 32, 0x0, 0xFFFFFFFF, 0x0⟩,
   ⟨0x21041C, 4, 32, 0xFFFFFFFF, 0xFFFFFFFF, 0x0⟩,
   ⟨0x210420, 4, 32, 0xFFFFFFFF, 0xFFFFFFFF, 0x0⟩,
   ⟨0x2104C0, 1, 4, 0x0, 0x0, 0x0⟩,
   ⟨0x2104C4, 1, 4, 0x0, 0x0, 0x0⟩,
   ⟨0x210500, 1, 4, 0x0, 0xFFF, 0x0⟩,
   ⟨0x210504, 1, 4, 0x0, 0x8001FFFF, 0x0⟩,
   ⟨0x210508, 1, 4, 0xFFFFFFFF, 0xFFFFFFFF, 0x0⟩,
   ⟨0x21050C, 1, 4, 0x0, 0x0, 0x0⟩,
   ⟨0x210510, 1, 4, 0x0, 0x0, 0x0⟩,
   ⟨0x240000, 1024, 4, 0x0, 0x80000003, 0x0⟩,
   ⟨0x241000, 4096, 4, 0x0, 0x80000FFF, 0x0⟩,
   ⟨0xB0200, 1, 4, 0x0, 0x0, 0x80000000⟩,
   ⟨0xB0204, 1, 4, 0x0, 0x0, 0x0⟩,
   ⟨0xB0208, 1, 4, 0x0, 0x0, 0x0⟩,
   ⟨0xB0210, 1, 4, 0x30000, 0x0, 0x0⟩,
   ⟨0xB1000, 1, 4, 0x0, 0x0, 0x0⟩,
   ⟨0xB1004, 1, 4, 0x0, 0x0, 0x0⟩,
   ⟨0xB1008, 1, 4, 0x0, 0x0, 0x0⟩,
   ⟨0xB100C, 1, 4, 0x0, 0x0, 0x0⟩,
   ⟨0xB1010, 1, 4, 0x0, 0x0, 0x0⟩,
   ⟨0xB1014, 1, 4, 0x0, 0x0, 0x0⟩,
   ⟨0xB1018, 1, 4, 0x0, 0x0, 0x0⟩,
   ⟨0xB101C, 1, 4, 0x0, 0x0, 0x0⟩,
   ⟨0xB1020, 1, 4, 0x0, 0x0, 0x0⟩,
   ⟨0xB1100, 1, 4, 0x0, 0x3F00FFF, 0x4000000⟩,
   ⟨0xB1104, 1, 4, 0x0, 0xFFFFFFC0, 0x0⟩,
   ⟨0xB1108, 1, 4, 0x0, 0xFF, 0x0⟩]

/-- Registers outside the repeated blocks. -/
def regRowsSingle3 : List RegRow :=
  [⟨0xB1110, 1, 4, 0x0, 0xFFF, 0x0⟩,
   ⟨0xB1114, 1, 4, 0x0, 0x0, 0x0⟩,
   ⟨0xB1118, 1, 4, 0x0, 0x0, 0x0⟩,
   ⟨0xB111C, 1, 4, 0x0, 0x0, 0x0⟩,
   ⟨0xB1120, 1, 4, 0x0, 0x0, 0x0⟩,
   ⟨0xB1128, 1, 4, 0x0, 0xFFF, 0x40000000⟩,
   ⟨0xB1200, 1, 4, 0x0, 0x7, 0x0⟩,
   ⟨0xB1204, 1, 4, 0x0, 0x40000000, 0x10000000⟩,
   ⟨0xB1280, 24, 4, 0x0, 0xFFFFFFFF, 0x0⟩,
   ⟨0xA0000, 1, 4, 0x0, 0x0, 0x80000000⟩,
   ⟨0xA0004, 1, 4, 0x0, 0x1F, 0x0⟩,
   ⟨0xA0008, 1, 4, 0x0, 0x0, 0x0⟩,
   ⟨0xA000C, 1, 4, 0x0, 0x0, 0x0⟩,
   ⟨0xA0010, 1, 4, 0x0, 0x0, 0x0⟩,
   ⟨0xA0018, 1, 4, 0x0, 0x0, 0x0⟩,
   ⟨0xA001C, 1, 4, 0x0, 0x0, 0x0⟩,
   ⟨0xA0020, 1, 4, 0x0, 0x0, 0x0⟩,
   ⟨0xA0024, 1, 4, 0x0, 0x0, 0x0⟩,
   ⟨0xA0028, 1, 4, 0x0, 0x0, 0x0⟩,
   ⟨0xA0100, 1, 4, 0x0, 0x8FFF03FF, 0x40000000⟩,
   ⟨0xA0200, 1, 4, 0x0, 0xFFFFF3FF, 0x0⟩,
   ⟨0xA0204, 1, 4, 0x0, 0xFFFFF000, 0x0⟩,
   ⟨0xA0208, 1, 4, 0x0, 0xFF, 0x0⟩,
   ⟨0xA020C, 1, 4, 0x0, 0xFFFFF000, 0x0⟩,
   ⟨0xA0210, 1, 4, 0x0, 0xFF, 0x0⟩,
   ⟨0xA0214, 1, 4, 0x0, 0x80000FFF, 0x0⟩,
   ⟨0xA0218, 1, 4, 0x0, 0x0, 0x80000000⟩,
   ⟨0xA021C, 1, 4, 0x0, 0x0, 0x0⟩,
   ⟨0xA0380, 1, 4, 0x0, 0x0, 0x40000000⟩,
   ⟨0x35800, 1, 4, 0x0, 0x7FF, 0x0⟩,
   ⟨0x35804, 1, 4, 0x0, 0x0, 0x0⟩,
   ⟨0x35808, 1, 4, 0x0, 0x0, 0x0⟩,
   ⟨0x3580C, 1, 4, 0x0, 0x0, 0x0⟩,
   ⟨0x30000, 1, 4, 0x0, 0x0, 0x0⟩,
   ⟨0x30004, 1, 4, 0x0, 0x0, 0x0⟩,
   ⟨0x30008, 1, 4, 0x0, 0x0, 0x0⟩,
   ⟨0x3000C, 1, 4, 0x0, 0x0, 0x0⟩,
   ⟨0x30010, 1, 4, 0x0, 0x0, 0x0⟩,
   ⟨0x30014, 1, 4, 0x0, 0x0, 0x0⟩,
   ⟨0x30018, 1, 4, 0x0, 0x0, 0x0⟩]

/-- Registers outside the repeated blocks. -/
def regRowsSingle4 : List RegRow :=
  [⟨0x30020, 1, 4, 0x0, 0x0, 0x80000000⟩,
   ⟨0x20000, 1, 4, 0x2000012C, 0x600001FF, 0x80000000⟩,
   ⟨0x20004, 1, 4, 0x0, 0x0, 0x0⟩,
   ⟨0x20008, 1, 4, 0x0, 0x0, 0x0⟩,
   ⟨0x2000C, 1, 4, 0xBB8, 0x0, 0x0⟩,
   ⟨0x20010, 1, 4, 0x0, 0x0, 0x0⟩,
   ⟨0x20014, 1, 4, 0x0, 0x0, 0x0⟩,
   ⟨0x20018, 1, 4, 0x4B0, 0x0, 0x0⟩,
   ⟨0x20020, 1, 4, 0x0, 0x0, 0x1FF⟩,
   ⟨0x20024, 1, 4, 0x0, 0x0, 0x0⟩,
   ⟨0x20030, 1, 4, 0x0, 0x0, 0x0⟩,
   ⟨0x20034, 1, 4, 0x0, 0x0, 0x0⟩,
   ⟨0x20038, 1, 4, 0x0, 0x0, 0x0⟩,
   ⟨0x2003C, 1, 4, 0x0, 0x0, 0x0⟩,
   ⟨0x20040, 1, 4, 0x0, 0x0, 0x0⟩,
   ⟨0x20044, 1, 4, 0x0, 0x0, 0x0⟩,
   ⟨0x20048, 1, 4, 0x0, 0x0, 0x0⟩,
   ⟨0x2004C, 1, 4, 0x0, 0x0, 0x0⟩,
   ⟨0x20080, 1, 4, 0x0, 0x0, 0x0⟩,
   ⟨0x20084, 5, 4, 0x0, 0x0, 0x0⟩,
   ⟨0x20098, 1, 4, 0x5F0, 0xFFFF, 0x0⟩,
   ⟨0x200A0, 1, 4, 0x1E3C5A00, 0xFFFFFF00, 0x0⟩,
   ⟨0x200A4, 1, 4, 0x64, 0x0, 0x0⟩,
   ⟨0x20100, 1, 4, 0x0, 0x3FF, 0x0⟩,
   ⟨0x20104, 1, 4, 0x0, 0x0, 0x0⟩,
   ⟨0x20108, 1, 4, 0x0, 0x0, 0x0⟩,
   ⟨0x0, 1, 4, 0x241000, 0x0, 0x0⟩,
   ⟨0x4, 1, 4, 0x0, 0x0, 0x0⟩,
   ⟨0x8, 1, 4, 0x0, 0x0, 0x0⟩,
   ⟨0xC, 1, 4, 0x0, 0x0, 0x0⟩,
   ⟨0x10, 1, 4, 0x0, 0x0, 0x0⟩,
   ⟨0x14, 1, 4, 0x0, 0x0, 0x0⟩,
   ⟨0x18, 1, 4, 0x0, 0x0, 0x3F⟩,
   ⟨0x1C, 1, 4, 0x0, 0x0, 0x0⟩,
   ⟨0x20, 1, 4, 0x0, 0x0, 0x0⟩,
   ⟨0x40, 1, 4, 0x0, 0x0, 0x3F⟩,
   ⟨0x44, 1, 4, 0x7, 0x38, 0x0⟩,
   ⟨0x48, 1, 4, 0x4C, 0x7F, 0x0⟩,
   ⟨0x4C, 1, 4, 0x6040, 0x7F7F, 0x0⟩,
   ⟨0x50, 1, 4, 0x0, 0x0, 0x0⟩]

/-- Registers outside the repeated blocks. -/
def regRowsSingle5 : List RegRow :=
  [⟨0x54, 1, 4, 0x0, 0x0, 0x0⟩,
   ⟨0x58, 1, 4, 0x0, 0x0, 0x0⟩]

/-- Registers of the cluster windows (Table 21.3). -/
def regRows400000_0 : List RegRow :=
  [⟨0x0, 1, 4, 0x0, 0x0, 0x0⟩,
   ⟨0x4, 1, 4, 0x0, 0x0, 0x0⟩,
   ⟨0x10, 8, 4, 0x0, 0x0, 0x0⟩,
   ⟨0x40, 1, 4, 0x0, 0x0, 0x0⟩,
   ⟨0x44, 1, 4, 0x0, 0x0, 0x0⟩,
   ⟨0x48, 1, 4, 0x0, 0x0, 0x0⟩,
   ⟨0x4C, 1, 4, 0x0, 0x0, 0x0⟩,
   ⟨0x50, 1, 4, 0x0, 0x1, 0x0⟩,
   ⟨0x100, 1, 4, 0x0, 0x0, 0xFFFF⟩,
   ⟨0x104, 1, 4, 0x0, 0x0, 0x0⟩,
   ⟨0x200, 1, 4, 0x7F8000, 0x0, 0x0⟩,
   ⟨0x204, 1, 4, 0x0, 0x0, 0x80000000⟩,
   ⟨0x208, 1, 4, 0x0, 0x0, 0x0⟩,
   ⟨0x20C, 1, 4, 0x0, 0x0, 0x0⟩,
   ⟨0x210, 1, 4, 0x0, 0x0, 0x0⟩,
   ⟨0x214, 1, 4, 0x0, 0x0, 0x0⟩,
   ⟨0x218, 1, 4, 0x0, 0x0, 0x0⟩,
   ⟨0x21C, 1, 4, 0x0, 0x0, 0x0⟩,
   ⟨0x220, 1, 4, 0x0, 0x0, 0x0⟩,
   ⟨0x224, 1, 4, 0x0, 0x0, 0x0⟩,
   ⟨0x230, 1, 4, 0x0, 0x8000007F, 0x0⟩,
   ⟨0x238, 1, 4, 0x0, 0x0, 0x0⟩,
   ⟨0x304, 1, 4, 0x0, 0x0, 0x0⟩,
   ⟨0x308, 1, 4, 0x0, 0x0, 0x0⟩,
   ⟨0x30C, 1, 4, 0x0, 0x0, 0x80000000⟩,
   ⟨0x310, 1, 4, 0x0, 0x0, 0x0⟩,
   ⟨0x314, 1, 4, 0x0, 0x0, 0x0⟩,
   ⟨0x318, 1, 4, 0x0, 0x0, 0x0⟩,
   ⟨0x320, 1, 4, 0x0, 0x0, 0x0⟩,
   ⟨0x324, 1, 4, 0x0, 0x0, 0x0⟩,
   ⟨0x300, 1, 4, 0x0, 0x0, 0xFFFF⟩,
   ⟨0x400, 1, 4, 0x0, 0x0, 0x0⟩,
   ⟨0x404, 1, 4, 0x0, 0x0, 0x80000000⟩,
   ⟨0x408, 1, 4, 0x0, 0x0, 0x0⟩,
   ⟨0x40C, 1, 4, 0x0, 0x0, 0x0⟩,
   ⟨0x410, 1, 4, 0x0, 0x0, 0x0⟩,
   ⟨0x414, 1, 4, 0x0, 0x0, 0x0⟩,
   ⟨0x418, 1, 4, 0x0, 0x0, 0x0⟩,
   ⟨0x41C, 1, 4, 0x0, 0x0, 0x80000000⟩,
   ⟨0x420, 1, 4, 0xFC00, 0x0, 0x0⟩]

/-- Registers of the cluster windows (Table 21.3). -/
def regRows400000_1 : List RegRow :=
  [⟨0x430, 1, 4, 0x0, 0x801FFFFF, 0x60000000⟩,
   ⟨0x434, 1, 4, 0x0, 0xFFFFFFFF, 0x0⟩,
   ⟨0x500, 1, 4, 0x0, 0x73, 0x0⟩,
   ⟨0x504, 1, 4, 0x0, 0x0, 0x0⟩,
   ⟨0x508, 1, 4, 0x0, 0x0, 0x0⟩,
   ⟨0x50C, 1, 4, 0x0, 0x0, 0x0⟩,
   ⟨0x510, 6, 4, 0x0, 0x0, 0x0⟩,
   ⟨0x528, 1, 4, 0x0, 0x0, 0x80000000⟩,
   ⟨0x52C, 1, 4, 0x0, 0x0, 0x0⟩,
   ⟨0x530, 1, 4, 0x0, 0x0, 0x0⟩,
   ⟨0x534, 1, 4, 0x0, 0x0, 0x0⟩,
   ⟨0x538, 1, 4, 0x0, 0x0, 0x0⟩,
   ⟨0x53C, 1, 4, 0x0, 0x0, 0x0⟩,
   ⟨0x600, 4, 4, 0x0, 0x0, 0x0⟩,
   ⟨0x610, 1, 4, 0x0, 0x0, 0x80000000⟩,
   ⟨0x614, 1, 4, 0x0, 0x0, 0x0⟩,
   ⟨0x618, 1, 4, 0x0, 0x0, 0x0⟩,
   ⟨0x61C, 1, 4, 0x0, 0x0, 0x0⟩,
   ⟨0x620, 1, 4, 0x0, 0x0, 0x0⟩,
   ⟨0x624, 1, 4, 0x0, 0x0, 0x0⟩,
   ⟨0x628, 1, 4, 0x0, 0x0, 0x0⟩,
   ⟨0x62C, 1, 4, 0x0, 0x0, 0x0⟩,
   ⟨0x630, 1, 4, 0x0, 0x0, 0x0⟩,
   ⟨0x700, 8, 4, 0x0, 0x0, 0x0⟩,
   ⟨0x720, 8, 4, 0x0, 0x0, 0x0⟩,
   ⟨0x740, 1, 4, 0x0, 0x0, 0x80000000⟩,
   ⟨0x744, 1, 4, 0x0, 0x0, 0x0⟩,
   ⟨0x748, 1, 4, 0x0, 0x0, 0x0⟩,
   ⟨0x74C, 1, 4, 0x0, 0x0, 0x0⟩,
   ⟨0x750, 1, 4, 0x0, 0x0, 0x0⟩,
   ⟨0x754, 1, 4, 0x0, 0x0, 0x0⟩,
   ⟨0x800, 64, 8, 0x0, 0x0, 0x0⟩,
   ⟨0x804, 64, 8, 0x0, 0x0, 0x0⟩,
   ⟨0xA00, 1, 4, 0x0, 0x0, 0x80000000⟩,
   ⟨0xA04, 1, 4, 0x0, 0x0, 0x0⟩,
   ⟨0xA08, 1, 4, 0x0, 0x0, 0x0⟩,
   ⟨0xA0C, 1, 4, 0x0, 0x0, 0x0⟩,
   ⟨0xA10, 1, 4, 0x0, 0x0, 0x0⟩,
   ⟨0xA14, 1, 4, 0x0, 0x0, 0x0⟩,
   ⟨0xA18, 1, 4, 0x0, 0x0, 0x0⟩]

/-- Registers of the cluster windows (Table 21.3). -/
def regRows400000_2 : List RegRow :=
  [⟨0xA1C, 1, 4, 0x0, 0x0, 0x0⟩,
   ⟨0xA20, 1, 4, 0x0, 0x0, 0x0⟩,
   ⟨0xA24, 1, 4, 0x0, 0x0, 0x0⟩]

/-- Registers of the package counters (Table 9.9a). -/
def regRows90000_0 : List RegRow :=
  [⟨0x0, 1, 4, 0x0, 0x0, 0x0⟩,
   ⟨0x4, 1, 4, 0x0, 0x0, 0x0⟩,
   ⟨0x8, 1, 4, 0x0, 0xFFC007FF, 0x0⟩,
   ⟨0xC, 1, 4, 0x0, 0xFFFFFFFF, 0x0⟩]

/-- Registers of the traced counters (Table 9.10). -/
def regRows31000_0 : List RegRow :=
  [⟨0x0, 1, 4, 0x0, 0x0, 0x0⟩,
   ⟨0x4, 1, 4, 0x0, 0x0, 0x0⟩,
   ⟨0x8, 1, 4, 0x0, 0x0, 0x0⟩,
   ⟨0xC, 1, 4, 0x0, 0x0, 0x0⟩]

/-- Registers of the wait-graph edges (Table 9.11). -/
def regRows33000_0 : List RegRow :=
  [⟨0x0, 1, 4, 0x0, 0x0, 0x0⟩,
   ⟨0x4, 1, 4, 0x0, 0x0, 0x0⟩,
   ⟨0x8, 1, 4, 0x0, 0x0, 0x0⟩,
   ⟨0xC, 1, 4, 0x0, 0x0, 0x0⟩]

/-- Registers of the ring contexts (Table 11.11). -/
def regRows40000_0 : List RegRow :=
  [⟨0x0, 1, 4, 0x8400, 0xFFFFFF00, 0x0⟩,
   ⟨0x4, 1, 4, 0x0, 0xFFFFF000, 0x0⟩,
   ⟨0x8, 1, 4, 0x0, 0xFFFFFFFF, 0x0⟩,
   ⟨0xC, 1, 4, 0x0, 0xFFFFF000, 0x0⟩,
   ⟨0x10, 1, 4, 0x0, 0xFFFFFFFF, 0x0⟩,
   ⟨0x14, 1, 4, 0x0, 0xFFF00000, 0x0⟩,
   ⟨0x18, 1, 4, 0x0, 0xFFFFFFFF, 0x0⟩,
   ⟨0x1C, 1, 4, 0x0, 0x0, 0x0⟩,
   ⟨0x20, 1, 4, 0x0, 0x0, 0x0⟩,
   ⟨0x24, 1, 4, 0x0, 0x0, 0x0⟩,
   ⟨0x28, 1, 4, 0x0, 0x0, 0x0⟩,
   ⟨0x2C, 1, 4, 0x0, 0x0, 0xC0000000⟩,
   ⟨0x30, 1, 4, 0x0, 0x0, 0x0⟩]

/-- Registers of the device instances (Table 21.2). -/
def regRows80000_0 : List RegRow :=
  [⟨0x0, 1, 4, 0x0, 0x400007FF, 0x0⟩,
   ⟨0x4, 1, 4, 0x0, 0x0, 0x90000000⟩,
   ⟨0x8, 1, 4, 0x0, 0x0, 0x3F⟩,
   ⟨0x10, 1, 4, 0x0, 0xFFFF0001, 0x0⟩,
   ⟨0x14, 1, 4, 0x0, 0xFFFFFFFF, 0x0⟩,
   ⟨0x20, 8, 8, 0x0, 0xC007FFFF, 0x0⟩,
   ⟨0x24, 8, 8, 0x0, 0x7FFFF, 0x0⟩,
   ⟨0x60, 1, 4, 0x0, 0x0, 0x0⟩,
   ⟨0x100, 1, 4, 0x0, 0x0, 0x0⟩,
   ⟨0x104, 1, 4, 0x0, 0x0, 0x0⟩,
   ⟨0x108, 1, 4, 0x0, 0x0, 0x0⟩,
   ⟨0x10C, 1, 4, 0x0, 0x0, 0x0⟩,
   ⟨0x110, 1, 4, 0x0, 0x0, 0x0⟩,
   ⟨0x114, 1, 4, 0x0, 0x0, 0x0⟩,
   ⟨0x118, 1, 4, 0x0, 0x0, 0x0⟩,
   ⟨0x180, 1, 4, 0x1, 0x8FFFFFFF, 0x40000000⟩,
   ⟨0x184, 1, 4, 0x0, 0x0, 0x0⟩,
   ⟨0x188, 1, 4, 0x0, 0x0, 0x0⟩,
   ⟨0x18C, 1, 4, 0x0, 0x0, 0x0⟩,
   ⟨0x190, 1, 4, 0x0, 0x0, 0x0⟩,
   ⟨0x1C0, 1, 4, 0x0, 0x2FFF03FF, 0x0⟩,
   ⟨0x1C4, 1, 4, 0x0, 0xFFFFFFC0, 0x0⟩,
   ⟨0x1C8, 1, 4, 0x0, 0xFF, 0x0⟩,
   ⟨0x1CC, 1, 4, 0x0, 0xFFFFFFFF, 0x0⟩,
   ⟨0x1D0, 1, 4, 0x0, 0x0, 0xE0000000⟩,
   ⟨0x200, 1, 4, 0x0, 0x800003FF, 0x20000000⟩,
   ⟨0x204, 1, 4, 0x10001, 0xFFFFFFFF, 0x0⟩,
   ⟨0x208, 1, 4, 0x0, 0xFFFFFFF0, 0x0⟩,
   ⟨0x20C, 1, 4, 0x0, 0xFF, 0x0⟩,
   ⟨0x210, 1, 4, 0x0, 0x0, 0x0⟩,
   ⟨0x214, 1, 4, 0x0, 0x0, 0x0⟩,
   ⟨0x218, 1, 4, 0x0, 0x0, 0x0⟩,
   ⟨0x21C, 1, 4, 0x0, 0x0, 0x0⟩,
   ⟨0x220, 1, 4, 0x0, 0x0, 0x0⟩,
   ⟨0x224, 1, 4, 0x0, 0x0, 0x0⟩,
   ⟨0x240, 1, 4, 0x10000000, 0xBCFFFFFF, 0x40000000⟩,
   ⟨0x244, 1, 4, 0x0, 0xFFFFF000, 0x0⟩,
   ⟨0x248, 1, 4, 0x0, 0xFF, 0x0⟩,
   ⟨0x24C, 1, 4, 0x0, 0x0, 0x0⟩,
   ⟨0x250, 1, 4, 0x0, 0x0, 0x0⟩]

/-- Registers of the Ethernet ports (Table 12.8). -/
def regRows100000_0 : List RegRow :=
  [⟨0x0, 1, 4, 0x0, 0xFC000000, 0x0⟩,
   ⟨0x4, 1, 4, 0xFF000000, 0xFFFF0000, 0x0⟩,
   ⟨0x8, 1, 4, 0x0, 0x0, 0x0⟩,
   ⟨0xC, 1, 4, 0x0, 0x0, 0x0⟩,
   ⟨0x10, 1, 4, 0x0, 0xFFFFFFFF, 0x0⟩,
   ⟨0x14, 1, 4, 0x0, 0xFFFF, 0x0⟩,
   ⟨0x18, 1, 4, 0x0, 0x0, 0x0⟩,
   ⟨0x1C, 1, 4, 0x0, 0x0, 0x0⟩,
   ⟨0x20, 1, 4, 0x0, 0x0, 0x0⟩,
   ⟨0x24, 1, 4, 0x0, 0x0, 0x0⟩,
   ⟨0x40, 8, 32, 0x0, 0xF0FFF000, 0x0⟩,
   ⟨0x44, 8, 32, 0x0, 0xFFFFFFFF, 0x0⟩,
   ⟨0x48, 8, 32, 0x0, 0xFFFFFFFF, 0x0⟩,
   ⟨0x4C, 8, 32, 0x0, 0xFFFFFFFF, 0x0⟩,
   ⟨0x50, 8, 32, 0x0, 0xFFFFFFFF, 0x0⟩]

/-- Registers of the listeners (Table 12.9). -/
def regRows101000_0 : List RegRow :=
  [⟨0x0, 1, 4, 0x0, 0xFFF80000, 0x0⟩,
   ⟨0x4, 1, 4, 0x0, 0xFFFF, 0x0⟩,
   ⟨0x8, 1, 4, 0x0, 0xFFFF, 0x0⟩,
   ⟨0xC, 1, 4, 0x1000000, 0x1FFFFFF, 0x0⟩]

/-- Registers of the batching records (Table 12.9). -/
def regRows102000_0 : List RegRow :=
  [⟨0x0, 1, 4, 0x200000, 0xFFE0FFFF, 0x0⟩,
   ⟨0x4, 1, 4, 0xFFFF, 0xFFFF, 0x0⟩,
   ⟨0x8, 1, 4, 0x0, 0x0, 0x0⟩]

/-- Registers of the group destinations (Table 12.9). -/
def regRows180000_0 : List RegRow :=
  [⟨0x0, 1, 4, 0x0, 0xFFFFF000, 0x0⟩,
   ⟨0x4, 4, 4, 0x0, 0xFFFFFFFF, 0x0⟩,
   ⟨0x14, 1, 4, 0x0, 0xFFFF, 0x0⟩,
   ⟨0x18, 1, 4, 0x0, 0xFFFFFFFF, 0x0⟩,
   ⟨0x1C, 1, 4, 0x0, 0xFFFF, 0x0⟩]

/-- Registers of the Flarid ports (Table 13.8). -/
def regRows200000_0 : List RegRow :=
  [⟨0x0, 1, 4, 0x0, 0x80000000, 0x0⟩,
   ⟨0x4, 1, 4, 0x0, 0x0, 0x0⟩,
   ⟨0x8, 1, 4, 0x0, 0x0, 0x0⟩,
   ⟨0xC, 1, 4, 0x0, 0x0, 0x0⟩,
   ⟨0x10, 1, 4, 0x0, 0x0, 0x0⟩,
   ⟨0x14, 1, 4, 0x0, 0x0, 0x0⟩,
   ⟨0x18, 1, 4, 0x0, 0x0, 0x0⟩,
   ⟨0x1C, 1, 4, 0x0, 0x0, 0x0⟩,
   ⟨0x20, 1, 4, 0x0, 0x0, 0x0⟩,
   ⟨0x24, 1, 4, 0x0, 0x0, 0x0⟩,
   ⟨0x30, 4, 4, 0x80, 0x0, 0x0⟩,
   ⟨0x100, 16, 8, 0x0, 0xC03FFFFF, 0x0⟩,
   ⟨0x104, 16, 8, 0xFFFFFFFF, 0xFFFFFFFF, 0x0⟩]

/-- Registers of the DRAM stacks (Table 15.10). -/
def regRowsB0100_0 : List RegRow :=
  [⟨0x0, 1, 4, 0x0, 0x0, 0x0⟩,
   ⟨0x4, 1, 4, 0x0, 0x0, 0x0⟩,
   ⟨0x8, 1, 4, 0x0, 0x0, 0x0⟩,
   ⟨0xC, 1, 4, 0x0, 0x0, 0x0⟩,
   ⟨0x10, 1, 4, 0x0, 0x0, 0x0⟩]

/-- Registers of the autostart records (Table 16.7). -/
def regRowsA0300_0 : List RegRow :=
  [⟨0x0, 1, 4, 0x0, 0xFFFFF3FF, 0x0⟩,
   ⟨0x4, 1, 4, 0x0, 0xFFFFF000, 0x0⟩,
   ⟨0x8, 1, 4, 0x0, 0xFF, 0x0⟩,
   ⟨0xC, 1, 4, 0x0, 0x0, 0x0⟩]

/-- Registers of the repair maps and region collectors (Table 17.7). -/
def regRows34000_0 : List RegRow :=
  [⟨0x0, 16, 4, 0x0, 0x0, 0x0⟩,
   ⟨0x40, 1, 4, 0xFFFFC002, 0x0, 0x0⟩,
   ⟨0x44, 1, 4, 0x0, 0x0, 0x0⟩,
   ⟨0x48, 1, 4, 0x0, 0x0, 0x0⟩,
   ⟨0x4C, 1, 4, 0x0, 0x0, 0x0⟩,
   ⟨0x50, 1, 4, 0x0, 0x0, 0x0⟩]

/-- Registers of the event records (Table 17.10). -/
def regRows36000_0 : List RegRow :=
  [⟨0x0, 1, 4, 0x0, 0x0, 0x0⟩,
   ⟨0x4, 1, 4, 0x0, 0x0, 0x0⟩,
   ⟨0x8, 1, 4, 0x0, 0x0, 0x0⟩,
   ⟨0xC, 1, 4, 0x0, 0x0, 0x0⟩,
   ⟨0x10, 1, 4, 0x0, 0x0, 0x0⟩,
   ⟨0x14, 1, 4, 0x0, 0x0, 0x0⟩,
   ⟨0x18, 1, 4, 0x0, 0x0, 0x0⟩]

/-- Registers of the angle-event entries (Table 10.3): writes are staged, so no bit is plainly writable. -/
def regRowsAE : List RegRow :=
  [⟨0x0, 2, 4, 0, 0, 0⟩, ⟨0x8, 1, 4, 0x10000, 0, 0⟩, ⟨0xC, 1, 4, 0, 0, 0⟩, ⟨0x10, 2, 4, 0xFFFFFFFF, 0, 0⟩,
   ⟨0x18, 1, 4, 0xFFFEFFFF, 0, 0⟩, ⟨0x1C, 1, 4, 0xFFFFFFFF, 0, 0⟩]

/-- Every block of set-up registers (Table 21.1). -/
def regBlocks : List RegBlock :=
  [⟨0x400000, 0x4000, 576, regRows400000_0 ++ regRows400000_1 ++ regRows400000_2⟩,
   ⟨0x90000, 0x10, 4096, regRows90000_0⟩,
   ⟨0x31000, 0x10, 256, regRows31000_0⟩,
   ⟨0x33000, 0x10, 256, regRows33000_0⟩,
   ⟨0x40000, 0x40, 4096, regRows40000_0⟩,
   ⟨0x80000, 0x400, 64, regRows80000_0⟩,
   ⟨0x100000, 0x200, 4, regRows100000_0⟩,
   ⟨0x101000, 0x10, 64, regRows101000_0⟩,
   ⟨0x102000, 0x10, 1024, regRows102000_0⟩,
   ⟨0x180000, 0x20, 16384, regRows180000_0⟩,
   ⟨0x200000, 0x1000, 16, regRows200000_0⟩,
   ⟨0xB0100, 0x20, 8, regRowsB0100_0⟩,
   ⟨0xA0300, 0x10, 8, regRowsA0300_0⟩,
   ⟨0x34000, 0x80, 33, regRows34000_0⟩,
   ⟨0x36000, 0x20, 256, regRows36000_0⟩,
   ⟨0x11000, 32, 512, regRowsAE⟩,
   ⟨0, 0x1000000, 1, regRowsSingle0 ++ regRowsSingle1 ++ regRowsSingle2 ++ regRowsSingle3 ++ regRowsSingle4 ++ regRowsSingle5⟩]

/-- The row of a register inside its block, with the index of the register in the row. -/
def findRow (rel : Nat) : List RegRow → Option (RegRow × Nat)
  | [] => none
  | r :: rs =>
    if r.off ≤ rel ∧ rel < r.off + r.n * r.stride ∧ (rel - r.off) % r.stride = 0 then some (r, (rel - r.off) / r.stride)
    else findRow rel rs

/-- The row of the index that names the register at an offset; none where the offset is reserved (R652). -/
def findReg (off : Nat) : List RegBlock → Option (RegRow × Nat)
  | [] => none
  | b :: bs =>
    if b.base ≤ off ∧ off < b.base + b.stride * b.count then
      (findRow ((off - b.base) % b.stride) b.rows).orElse fun _ => findReg off bs
    else findReg off bs

/-- The reset value of the register at an offset (Tables 21.4 to 21.10); 0 at a reserved offset (R652). The repair-map entries
reset to the shipment binding, logical index j at position j (Table 17.7); the angle-event words to Table 10.3. -/
def regReset (off : Nat) : BitVec 32 :=
  if 0x34000 ≤ off ∧ off < 0x35000 ∧ (off - 0x34000) % 0x80 < 0x40 then
    BitVec.ofNat 32 (0xFC00 + (off - 0x34000) % 0x80 / 4 * 0x07FFF800)
  else match findReg off regBlocks with
    | some (r, _) => BitVec.ofNat 32 r.reset
    | none => 0#32

/-- The bits of the register at an offset that a host write sets (access RW) and that it clears by a 1 (access W1C), R12. The
MSI-X tables are plain storage (PCIe 6.0, R652). -/
def regMasks (off : Nat) : Nat × Nat :=
  if 0x300000 ≤ off ∧ off < 0x308000 then (0xFFFFFFFF, 0)
  else match findReg off regBlocks with
    | some (r, _) => (r.rw, r.w1c)
    | none => (0, 0)

end Sys2Proof.Machine
end

