-- ==== Sys2Proof/Machine/Regs.lean ====
section
/-! DEFINITION. The set-up registers of the device by BAR0 byte offset, and their fields: Tables 21.4 to 21.10 and the field
tables of the chapters. Every name is the manual's; an array's index letters are arguments, the block's index first. -/

namespace Sys2Proof.Machine

/-- Table 2.11, SEQ_STATUS at window offset 0x0000. -/
def Reg.SEQ_STATUS (n : Nat) : Nat := 0x400000 + 0x4000 * n
def Reg.SEQ_STATUS_ACTIVE_PLANE (n : Nat) : Fld := ⟨Reg.SEQ_STATUS n, 31, 29⟩
def Reg.SEQ_STATUS_ACTIVE_CTX (n : Nat) : Fld := ⟨Reg.SEQ_STATUS n, 28, 27⟩
def Reg.SEQ_STATUS_SLOT_PTR (n : Nat) : Fld := ⟨Reg.SEQ_STATUS n, 23, 12⟩
def Reg.SEQ_STATUS_STATE (n : Nat) : Fld := ⟨Reg.SEQ_STATUS n, 11, 8⟩
/-- Table 2.12, PLANE_STATE at window offset 0x0004. -/
def Reg.PLANE_STATE (n : Nat) : Nat := 0x400004 + 0x4000 * n
def Reg.PLANE_STATE_PLANE_7 (n : Nat) : Fld := ⟨Reg.PLANE_STATE n, 31, 28⟩
def Reg.PLANE_STATE_PLANE_0 (n : Nat) : Fld := ⟨Reg.PLANE_STATE n, 3, 0⟩
/-- Table 2.13, CTX_STATE_p at window offset 0x0010 + 4 × p, for plane p from 0 to 7. -/
def Reg.CTX_STATE (n p : Nat) : Nat := 0x400010 + 0x4000 * n + 4 * p
def Reg.CTX_STATE_CTX_3 (n p : Nat) : Fld := ⟨Reg.CTX_STATE n p, 31, 24⟩
def Reg.CTX_STATE_CTX_2 (n p : Nat) : Fld := ⟨Reg.CTX_STATE n p, 23, 16⟩
def Reg.CTX_STATE_CTX_1 (n p : Nat) : Fld := ⟨Reg.CTX_STATE n p, 15, 8⟩
def Reg.CTX_STATE_CTX_0 (n p : Nat) : Fld := ⟨Reg.CTX_STATE n p, 7, 0⟩
/-- Table 2.14, SWITCHES_LO at 0x0040. -/
def Reg.SWITCHES_LO (n : Nat) : Nat := 0x400040 + 0x4000 * n
def Reg.SWITCHES_LO_COUNT (n : Nat) : Fld := ⟨Reg.SWITCHES_LO n, 31, 0⟩
/-- Table 2.14, SWITCHES_HI at 0x0044. -/
def Reg.SWITCHES_HI (n : Nat) : Nat := 0x400044 + 0x4000 * n
def Reg.SWITCHES_HI_COUNT (n : Nat) : Fld := ⟨Reg.SWITCHES_HI n, 31, 0⟩
/-- Table 2.14, WAIT_CYCLES_LO at 0x0048. -/
def Reg.WAIT_CYCLES_LO (n : Nat) : Nat := 0x400048 + 0x4000 * n
def Reg.WAIT_CYCLES_LO_COUNT (n : Nat) : Fld := ⟨Reg.WAIT_CYCLES_LO n, 31, 0⟩
/-- Table 2.14, WAIT_CYCLES_HI at 0x004C. -/
def Reg.WAIT_CYCLES_HI (n : Nat) : Nat := 0x40004C + 0x4000 * n
def Reg.WAIT_CYCLES_HI_COUNT (n : Nat) : Fld := ⟨Reg.WAIT_CYCLES_HI n, 31, 0⟩
/-- Table 2.14, SEQ_DEBUG at 0x0050. -/
def Reg.SEQ_DEBUG (n : Nat) : Nat := 0x400050 + 0x4000 * n
def Reg.SEQ_DEBUG_STEP (n : Nat) : Fld := ⟨Reg.SEQ_DEBUG n, 1, 1⟩
def Reg.SEQ_DEBUG_HALT (n : Nat) : Fld := ⟨Reg.SEQ_DEBUG n, 0, 0⟩
/-- Table 3.8, ARITH_FLAGS at window offset 0x0100. -/
def Reg.ARITH_FLAGS (n : Nat) : Nat := 0x400100 + 0x4000 * n
def Reg.ARITH_FLAGS_CTX_3 (n : Nat) : Fld := ⟨Reg.ARITH_FLAGS n, 15, 12⟩
def Reg.ARITH_FLAGS_CTX_2 (n : Nat) : Fld := ⟨Reg.ARITH_FLAGS n, 11, 8⟩
def Reg.ARITH_FLAGS_CTX_1 (n : Nat) : Fld := ⟨Reg.ARITH_FLAGS n, 7, 4⟩
def Reg.ARITH_FLAGS_CTX_0 (n : Nat) : Fld := ⟨Reg.ARITH_FLAGS n, 3, 0⟩
/-- Table 3.9, ARITH_EVENTS at window offset 0x0104. -/
def Reg.ARITH_EVENTS (n : Nat) : Nat := 0x400104 + 0x4000 * n
def Reg.ARITH_EVENTS_COUNT (n : Nat) : Fld := ⟨Reg.ARITH_EVENTS n, 31, 0⟩
/-- Table 4.9, MXU_STATUS at 0x0200. -/
def Reg.MXU_STATUS (n : Nat) : Nat := 0x400200 + 0x4000 * n
def Reg.MXU_STATUS_FAULT (n : Nat) : Fld := ⟨Reg.MXU_STATUS n, 31, 31⟩
def Reg.MXU_STATUS_LOADER_BUSY (n : Nat) : Fld := ⟨Reg.MXU_STATUS n, 30, 30⟩
def Reg.MXU_STATUS_ARRAY_BUSY (n : Nat) : Fld := ⟨Reg.MXU_STATUS n, 29, 29⟩
def Reg.MXU_STATUS_EPI_BUSY (n : Nat) : Fld := ⟨Reg.MXU_STATUS n, 28, 28⟩
def Reg.MXU_STATUS_BANK1_USER (n : Nat) : Fld := ⟨Reg.MXU_STATUS n, 27, 26⟩
def Reg.MXU_STATUS_BANK0_USER (n : Nat) : Fld := ⟨Reg.MXU_STATUS n, 25, 24⟩
def Reg.MXU_STATUS_SHADOW_VALID (n : Nat) : Fld := ⟨Reg.MXU_STATUS n, 23, 23⟩
def Reg.MXU_STATUS_ACTIVE_FMT (n : Nat) : Fld := ⟨Reg.MXU_STATUS n, 22, 19⟩
def Reg.MXU_STATUS_SHADOW_FMT (n : Nat) : Fld := ⟨Reg.MXU_STATUS n, 18, 15⟩
/-- Table 4.9, MXU_FAULT at 0x0204. -/
def Reg.MXU_FAULT (n : Nat) : Nat := 0x400204 + 0x4000 * n
def Reg.MXU_FAULT_VALID (n : Nat) : Fld := ⟨Reg.MXU_FAULT n, 31, 31⟩
def Reg.MXU_FAULT_INJ (n : Nat) : Fld := ⟨Reg.MXU_FAULT n, 30, 30⟩
def Reg.MXU_FAULT_LOC_VALID (n : Nat) : Fld := ⟨Reg.MXU_FAULT n, 29, 29⟩
def Reg.MXU_FAULT_KIND (n : Nat) : Fld := ⟨Reg.MXU_FAULT n, 28, 27⟩
def Reg.MXU_FAULT_COLUMN (n : Nat) : Fld := ⟨Reg.MXU_FAULT n, 26, 20⟩
def Reg.MXU_FAULT_ROW (n : Nat) : Fld := ⟨Reg.MXU_FAULT n, 19, 13⟩
/-- Table 4.9, MXU_RESIDUAL at 0x0208. -/
def Reg.MXU_RESIDUAL (n : Nat) : Nat := 0x400208 + 0x4000 * n
def Reg.MXU_RESIDUAL_D (n : Nat) : Fld := ⟨Reg.MXU_RESIDUAL n, 31, 0⟩
/-- Table 4.9, MXU_FAULT_SLOT at 0x020C. -/
def Reg.MXU_FAULT_SLOT (n : Nat) : Nat := 0x40020C + 0x4000 * n
def Reg.MXU_FAULT_SLOT_PLANE (n : Nat) : Fld := ⟨Reg.MXU_FAULT_SLOT n, 27, 25⟩
def Reg.MXU_FAULT_SLOT_CTX (n : Nat) : Fld := ⟨Reg.MXU_FAULT_SLOT n, 24, 23⟩
def Reg.MXU_FAULT_SLOT_SLOT (n : Nat) : Fld := ⟨Reg.MXU_FAULT_SLOT n, 11, 0⟩
/-- Table 4.9, ROWS_CHECKED_LO at 0x0210. -/
def Reg.ROWS_CHECKED_LO (n : Nat) : Nat := 0x400210 + 0x4000 * n
def Reg.ROWS_CHECKED_LO_COUNT (n : Nat) : Fld := ⟨Reg.ROWS_CHECKED_LO n, 31, 0⟩
/-- Table 4.9, ROWS_CHECKED_HI at 0x0214. -/
def Reg.ROWS_CHECKED_HI (n : Nat) : Nat := 0x400214 + 0x4000 * n
def Reg.ROWS_CHECKED_HI_COUNT (n : Nat) : Fld := ⟨Reg.ROWS_CHECKED_HI n, 31, 0⟩
/-- Table 4.9, ROWS_UNCHECKED at 0x0218. -/
def Reg.ROWS_UNCHECKED (n : Nat) : Nat := 0x400218 + 0x4000 * n
def Reg.ROWS_UNCHECKED_COUNT (n : Nat) : Fld := ⟨Reg.ROWS_UNCHECKED n, 31, 0⟩
/-- Table 4.9, MISMATCHES at 0x021C. -/
def Reg.MISMATCHES (n : Nat) : Nat := 0x40021C + 0x4000 * n
def Reg.MISMATCHES_COUNT (n : Nat) : Fld := ⟨Reg.MISMATCHES n, 31, 0⟩
/-- Table 4.9, ARRAY_CYCLES_LO at 0x0220. -/
def Reg.ARRAY_CYCLES_LO (n : Nat) : Nat := 0x400220 + 0x4000 * n
def Reg.ARRAY_CYCLES_LO_COUNT (n : Nat) : Fld := ⟨Reg.ARRAY_CYCLES_LO n, 31, 0⟩
/-- Table 4.9, ARRAY_CYCLES_HI at 0x0224. -/
def Reg.ARRAY_CYCLES_HI (n : Nat) : Nat := 0x400224 + 0x4000 * n
def Reg.ARRAY_CYCLES_HI_COUNT (n : Nat) : Fld := ⟨Reg.ARRAY_CYCLES_HI n, 31, 0⟩
/-- Table 4.9, MXU_INJECT at 0x0230. -/
def Reg.MXU_INJECT (n : Nat) : Nat := 0x400230 + 0x4000 * n
def Reg.MXU_INJECT_ARM (n : Nat) : Fld := ⟨Reg.MXU_INJECT n, 31, 31⟩
def Reg.MXU_INJECT_COLUMN (n : Nat) : Fld := ⟨Reg.MXU_INJECT n, 6, 0⟩
/-- Table 4.9, ACC_ECC_CORR at 0x0238. -/
def Reg.ACC_ECC_CORR (n : Nat) : Nat := 0x400238 + 0x4000 * n
def Reg.ACC_ECC_CORR_COUNT (n : Nat) : Fld := ⟨Reg.ACC_ECC_CORR n, 31, 0⟩
/-- Table 5.9, VEC_EVENTS at 0x0304. -/
def Reg.VEC_EVENTS (n : Nat) : Nat := 0x400304 + 0x4000 * n
def Reg.VEC_EVENTS_COUNT (n : Nat) : Fld := ⟨Reg.VEC_EVENTS n, 31, 0⟩
/-- Table 5.9, VEC_STATUS at 0x0308. -/
def Reg.VEC_STATUS (n : Nat) : Nat := 0x400308 + 0x4000 * n
def Reg.VEC_STATUS_BUSY (n : Nat) : Fld := ⟨Reg.VEC_STATUS n, 31, 31⟩
def Reg.VEC_STATUS_SQ_PENDING (n : Nat) : Fld := ⟨Reg.VEC_STATUS n, 30, 30⟩
def Reg.VEC_STATUS_VOP (n : Nat) : Fld := ⟨Reg.VEC_STATUS n, 29, 24⟩
def Reg.VEC_STATUS_HOLD_BANK1 (n : Nat) : Fld := ⟨Reg.VEC_STATUS n, 23, 23⟩
def Reg.VEC_STATUS_HOLD_BANK0 (n : Nat) : Fld := ⟨Reg.VEC_STATUS n, 22, 22⟩
/-- Table 5.9, VEC_FAULT at 0x030C. -/
def Reg.VEC_FAULT (n : Nat) : Nat := 0x40030C + 0x4000 * n
def Reg.VEC_FAULT_VALID (n : Nat) : Fld := ⟨Reg.VEC_FAULT n, 31, 31⟩
def Reg.VEC_FAULT_KIND (n : Nat) : Fld := ⟨Reg.VEC_FAULT n, 30, 29⟩
def Reg.VEC_FAULT_LANE (n : Nat) : Fld := ⟨Reg.VEC_FAULT n, 28, 23⟩
def Reg.VEC_FAULT_PLANE (n : Nat) : Fld := ⟨Reg.VEC_FAULT n, 22, 20⟩
def Reg.VEC_FAULT_CTX (n : Nat) : Fld := ⟨Reg.VEC_FAULT n, 19, 18⟩
def Reg.VEC_FAULT_SLOT (n : Nat) : Fld := ⟨Reg.VEC_FAULT n, 11, 0⟩
/-- Table 5.9, VEC_FAULT_ADDR at 0x0310. -/
def Reg.VEC_FAULT_ADDR (n : Nat) : Nat := 0x400310 + 0x4000 * n
def Reg.VEC_FAULT_ADDR_ADDR (n : Nat) : Fld := ⟨Reg.VEC_FAULT_ADDR n, 22, 0⟩
/-- Table 5.9, VEC_FAULT_ELEM at 0x0314. -/
def Reg.VEC_FAULT_ELEM (n : Nat) : Nat := 0x400314 + 0x4000 * n
def Reg.VEC_FAULT_ELEM_ELEMENT (n : Nat) : Fld := ⟨Reg.VEC_FAULT_ELEM n, 31, 0⟩
/-- Table 5.9, SUPPRESSED at 0x0318. -/
def Reg.SUPPRESSED (n : Nat) : Nat := 0x400318 + 0x4000 * n
def Reg.SUPPRESSED_COUNT (n : Nat) : Fld := ⟨Reg.SUPPRESSED n, 31, 0⟩
/-- Table 5.9, BEATS_LO at 0x0320. -/
def Reg.BEATS_LO (n : Nat) : Nat := 0x400320 + 0x4000 * n
def Reg.BEATS_LO_COUNT (n : Nat) : Fld := ⟨Reg.BEATS_LO n, 31, 0⟩
/-- Table 5.9, BEATS_HI at 0x0324. -/
def Reg.BEATS_HI (n : Nat) : Nat := 0x400324 + 0x4000 * n
def Reg.BEATS_HI_COUNT (n : Nat) : Fld := ⟨Reg.BEATS_HI n, 31, 0⟩
/-- Table 5.10, VEC_FLAGS at window offset 0x0300. -/
def Reg.VEC_FLAGS (n : Nat) : Nat := 0x400300 + 0x4000 * n
def Reg.VEC_FLAGS_CTX_3 (n : Nat) : Fld := ⟨Reg.VEC_FLAGS n, 15, 12⟩
def Reg.VEC_FLAGS_CTX_2 (n : Nat) : Fld := ⟨Reg.VEC_FLAGS n, 11, 8⟩
def Reg.VEC_FLAGS_CTX_1 (n : Nat) : Fld := ⟨Reg.VEC_FLAGS n, 7, 4⟩
def Reg.VEC_FLAGS_CTX_0 (n : Nat) : Fld := ⟨Reg.VEC_FLAGS n, 3, 0⟩
/-- Table 6.4, SP_STATUS at 0x0400. -/
def Reg.SP_STATUS (n : Nat) : Nat := 0x400400 + 0x4000 * n
def Reg.SP_STATUS_ZEROING (n : Nat) : Fld := ⟨Reg.SP_STATUS n, 31, 31⟩
def Reg.SP_STATUS_MIGRATING (n : Nat) : Fld := ⟨Reg.SP_STATUS n, 30, 30⟩
def Reg.SP_STATUS_SB_SCHED (n : Nat) : Fld := ⟨Reg.SP_STATUS n, 23, 20⟩
def Reg.SP_STATUS_SB_STREAM (n : Nat) : Fld := ⟨Reg.SP_STATUS n, 19, 16⟩
/-- Table 6.4, SP_CONFLICT at 0x0404. -/
def Reg.SP_CONFLICT (n : Nat) : Nat := 0x400404 + 0x4000 * n
def Reg.SP_CONFLICT_VALID (n : Nat) : Fld := ⟨Reg.SP_CONFLICT n, 31, 31⟩
def Reg.SP_CONFLICT_STRICT (n : Nat) : Fld := ⟨Reg.SP_CONFLICT n, 30, 30⟩
def Reg.SP_CONFLICT_REQ_FIRST (n : Nat) : Fld := ⟨Reg.SP_CONFLICT n, 29, 26⟩
def Reg.SP_CONFLICT_REQ_SECOND (n : Nat) : Fld := ⟨Reg.SP_CONFLICT n, 25, 22⟩
def Reg.SP_CONFLICT_BANK (n : Nat) : Fld := ⟨Reg.SP_CONFLICT n, 21, 17⟩
def Reg.SP_CONFLICT_PLANE (n : Nat) : Fld := ⟨Reg.SP_CONFLICT n, 16, 14⟩
def Reg.SP_CONFLICT_CTX (n : Nat) : Fld := ⟨Reg.SP_CONFLICT n, 13, 12⟩
def Reg.SP_CONFLICT_SLOT (n : Nat) : Fld := ⟨Reg.SP_CONFLICT n, 11, 0⟩
/-- Table 6.4, SP_CONFLICT_ADDR_1 at 0x0408. -/
def Reg.SP_CONFLICT_ADDR_1 (n : Nat) : Nat := 0x400408 + 0x4000 * n
def Reg.SP_CONFLICT_ADDR_1_ADDR (n : Nat) : Fld := ⟨Reg.SP_CONFLICT_ADDR_1 n, 22, 0⟩
/-- Table 6.4, SP_CONFLICT_ADDR_2 at 0x040C. -/
def Reg.SP_CONFLICT_ADDR_2 (n : Nat) : Nat := 0x40040C + 0x4000 * n
def Reg.SP_CONFLICT_ADDR_2_ADDR (n : Nat) : Fld := ⟨Reg.SP_CONFLICT_ADDR_2 n, 22, 0⟩
/-- Table 6.4, SP_CONFLICTS at 0x0410. -/
def Reg.SP_CONFLICTS (n : Nat) : Nat := 0x400410 + 0x4000 * n
def Reg.SP_CONFLICTS_COUNT (n : Nat) : Fld := ⟨Reg.SP_CONFLICTS n, 31, 0⟩
/-- Table 6.4, SP_SLIP_CYCLES at 0x0414. -/
def Reg.SP_SLIP_CYCLES (n : Nat) : Nat := 0x400414 + 0x4000 * n
def Reg.SP_SLIP_CYCLES_COUNT (n : Nat) : Fld := ⟨Reg.SP_SLIP_CYCLES n, 31, 0⟩
/-- Table 6.4, SP_ECC_CORR at 0x0418. -/
def Reg.SP_ECC_CORR (n : Nat) : Nat := 0x400418 + 0x4000 * n
def Reg.SP_ECC_CORR_COUNT (n : Nat) : Fld := ⟨Reg.SP_ECC_CORR n, 31, 0⟩
/-- Table 6.4, SP_ECC_UNCORR at 0x041C. -/
def Reg.SP_ECC_UNCORR (n : Nat) : Nat := 0x40041C + 0x4000 * n
def Reg.SP_ECC_UNCORR_VALID (n : Nat) : Fld := ⟨Reg.SP_ECC_UNCORR n, 31, 31⟩
def Reg.SP_ECC_UNCORR_ADDR (n : Nat) : Fld := ⟨Reg.SP_ECC_UNCORR n, 22, 0⟩
/-- Table 6.4, SP_BANK_MAP at 0x0420. -/
def Reg.SP_BANK_MAP (n : Nat) : Nat := 0x400420 + 0x4000 * n
def Reg.SP_BANK_MAP_USED (n : Nat) : Fld := ⟨Reg.SP_BANK_MAP n, 31, 31⟩
def Reg.SP_BANK_MAP_BANK (n : Nat) : Fld := ⟨Reg.SP_BANK_MAP n, 30, 26⟩
def Reg.SP_BANK_MAP_USED_N (n : Nat) : Fld := ⟨Reg.SP_BANK_MAP n, 15, 15⟩
def Reg.SP_BANK_MAP_BANK_N (n : Nat) : Fld := ⟨Reg.SP_BANK_MAP n, 14, 10⟩
/-- Table 6.4, SP_DBG_ADDR at 0x0430. -/
def Reg.SP_DBG_ADDR (n : Nat) : Nat := 0x400430 + 0x4000 * n
def Reg.SP_DBG_ADDR_AUTOINC (n : Nat) : Fld := ⟨Reg.SP_DBG_ADDR n, 31, 31⟩
def Reg.SP_DBG_ADDR_REFUSED (n : Nat) : Fld := ⟨Reg.SP_DBG_ADDR n, 30, 30⟩
def Reg.SP_DBG_ADDR_RD_LATE (n : Nat) : Fld := ⟨Reg.SP_DBG_ADDR n, 29, 29⟩
def Reg.SP_DBG_ADDR_WORD_ADDR (n : Nat) : Fld := ⟨Reg.SP_DBG_ADDR n, 20, 0⟩
/-- Table 6.4, SP_DBG_DATA at 0x0434. -/
def Reg.SP_DBG_DATA (n : Nat) : Nat := 0x400434 + 0x4000 * n
def Reg.SP_DBG_DATA_DATA (n : Nat) : Fld := ⟨Reg.SP_DBG_DATA n, 31, 0⟩
/-- Table 6.5, SP_STRICT_LO at 0x0003_0400. -/
def Reg.SP_STRICT_LO : Nat := 0x30400
def Reg.SP_STRICT_LO_STRICT : Fld := ⟨Reg.SP_STRICT_LO, 31, 0⟩
/-- Table 6.5, SP_STRICT_HI at 0x0003_0404. -/
def Reg.SP_STRICT_HI : Nat := 0x30404
def Reg.SP_STRICT_HI_STRICT : Fld := ⟨Reg.SP_STRICT_HI, 31, 0⟩
/-- Table 7.8, LOOP_SEL at 0x0500. -/
def Reg.LOOP_SEL (n : Nat) : Nat := 0x400500 + 0x4000 * n
def Reg.LOOP_SEL_PLANE (n : Nat) : Fld := ⟨Reg.LOOP_SEL n, 6, 4⟩
def Reg.LOOP_SEL_CTX (n : Nat) : Fld := ⟨Reg.LOOP_SEL n, 1, 0⟩
/-- Table 7.8, BUCKET_STATUS at 0x0504. -/
def Reg.BUCKET_STATUS (n : Nat) : Nat := 0x400504 + 0x4000 * n
def Reg.BUCKET_STATUS_VALID (n : Nat) : Fld := ⟨Reg.BUCKET_STATUS n, 31, 31⟩
def Reg.BUCKET_STATUS_BUCKET (n : Nat) : Fld := ⟨Reg.BUCKET_STATUS n, 2, 0⟩
/-- Table 7.8, ACTUAL_0 at 0x0508. -/
def Reg.ACTUAL_0 (n : Nat) : Nat := 0x400508 + 0x4000 * n
def Reg.ACTUAL_0_SIZE (n : Nat) : Fld := ⟨Reg.ACTUAL_0 n, 31, 0⟩
/-- Table 7.8, ACTUAL_1 at 0x050C. -/
def Reg.ACTUAL_1 (n : Nat) : Nat := 0x40050C + 0x4000 * n
def Reg.ACTUAL_1_SIZE (n : Nat) : Fld := ⟨Reg.ACTUAL_1 n, 31, 0⟩
/-- Table 7.8, LOOP_IDX_l at 0x0510 + 4 × l. -/
def Reg.LOOP_IDX (n l : Nat) : Nat := 0x400510 + 0x4000 * n + 4 * l
def Reg.LOOP_IDX_INDEX (n l : Nat) : Fld := ⟨Reg.LOOP_IDX n l, 31, 0⟩
/-- Table 7.8, LOOP_FAULT at 0x0528. -/
def Reg.LOOP_FAULT (n : Nat) : Nat := 0x400528 + 0x4000 * n
def Reg.LOOP_FAULT_VALID (n : Nat) : Fld := ⟨Reg.LOOP_FAULT n, 31, 31⟩
def Reg.LOOP_FAULT_SOURCE (n : Nat) : Fld := ⟨Reg.LOOP_FAULT n, 30, 28⟩
def Reg.LOOP_FAULT_LT (n : Nat) : Fld := ⟨Reg.LOOP_FAULT n, 27, 24⟩
def Reg.LOOP_FAULT_OPERAND (n : Nat) : Fld := ⟨Reg.LOOP_FAULT n, 23, 22⟩
def Reg.LOOP_FAULT_PLANE (n : Nat) : Fld := ⟨Reg.LOOP_FAULT n, 21, 19⟩
def Reg.LOOP_FAULT_CTX (n : Nat) : Fld := ⟨Reg.LOOP_FAULT n, 18, 17⟩
def Reg.LOOP_FAULT_SLOT (n : Nat) : Fld := ⟨Reg.LOOP_FAULT n, 11, 0⟩
/-- Table 7.8, LOOP_FAULT_ADDR at 0x052C. -/
def Reg.LOOP_FAULT_ADDR (n : Nat) : Nat := 0x40052C + 0x4000 * n
def Reg.LOOP_FAULT_ADDR_ADDR (n : Nat) : Fld := ⟨Reg.LOOP_FAULT_ADDR n, 31, 0⟩
/-- Table 7.8, LOOP_FAULT_POS at 0x0530. -/
def Reg.LOOP_FAULT_POS (n : Nat) : Nat := 0x400530 + 0x4000 * n
def Reg.LOOP_FAULT_POS_POSITION (n : Nat) : Fld := ⟨Reg.LOOP_FAULT_POS n, 31, 0⟩
/-- Table 7.8, EXTENT_FAULTS at 0x0534. -/
def Reg.EXTENT_FAULTS (n : Nat) : Nat := 0x400534 + 0x4000 * n
def Reg.EXTENT_FAULTS_COUNT (n : Nat) : Fld := ⟨Reg.EXTENT_FAULTS n, 31, 0⟩
/-- Table 7.8, MASKED_LO at 0x0538. -/
def Reg.MASKED_LO (n : Nat) : Nat := 0x400538 + 0x4000 * n
def Reg.MASKED_LO_COUNT (n : Nat) : Fld := ⟨Reg.MASKED_LO n, 31, 0⟩
/-- Table 7.8, MASKED_HI at 0x053C. -/
def Reg.MASKED_HI (n : Nat) : Nat := 0x40053C + 0x4000 * n
def Reg.MASKED_HI_COUNT (n : Nat) : Fld := ⟨Reg.MASKED_HI n, 31, 0⟩
/-- Table 8.7, BW_SPLIT at BAR0 offset 0x000B_0040. -/
def Reg.BW_SPLIT : Nat := 0xB0040
def Reg.BW_SPLIT_REFUSED : Fld := ⟨Reg.BW_SPLIT, 31, 31⟩
def Reg.BW_SPLIT_PRESET_3 : Fld := ⟨Reg.BW_SPLIT, 7, 6⟩
def Reg.BW_SPLIT_PRESET_2 : Fld := ⟨Reg.BW_SPLIT, 5, 4⟩
def Reg.BW_SPLIT_PRESET_1 : Fld := ⟨Reg.BW_SPLIT, 3, 2⟩
def Reg.BW_SPLIT_PRESET_0 : Fld := ⟨Reg.BW_SPLIT, 1, 0⟩
/-- Table 8.9, STR_ENGINE_e at 0x0600 + 4 × e. -/
def Reg.STR_ENGINE (n e : Nat) : Nat := 0x400600 + 0x4000 * n + 4 * e
def Reg.STR_ENGINE_INSTANCES (n e : Nat) : Fld := ⟨Reg.STR_ENGINE n e, 31, 26⟩
def Reg.STR_ENGINE_OUTSTANDING (n e : Nat) : Fld := ⟨Reg.STR_ENGINE n e, 25, 20⟩
/-- Table 8.9, STR_FAULT at 0x0610. -/
def Reg.STR_FAULT (n : Nat) : Nat := 0x400610 + 0x4000 * n
def Reg.STR_FAULT_VALID (n : Nat) : Fld := ⟨Reg.STR_FAULT n, 31, 31⟩
def Reg.STR_FAULT_KIND (n : Nat) : Fld := ⟨Reg.STR_FAULT n, 30, 28⟩
def Reg.STR_FAULT_DESC (n : Nat) : Fld := ⟨Reg.STR_FAULT n, 27, 24⟩
def Reg.STR_FAULT_PLANE (n : Nat) : Fld := ⟨Reg.STR_FAULT n, 23, 21⟩
def Reg.STR_FAULT_CTX (n : Nat) : Fld := ⟨Reg.STR_FAULT n, 20, 19⟩
def Reg.STR_FAULT_SLOT (n : Nat) : Fld := ⟨Reg.STR_FAULT n, 11, 0⟩
/-- Table 8.9, STR_FAULT_ADDR_LO at 0x0614. -/
def Reg.STR_FAULT_ADDR_LO (n : Nat) : Nat := 0x400614 + 0x4000 * n
def Reg.STR_FAULT_ADDR_LO_ADDR (n : Nat) : Fld := ⟨Reg.STR_FAULT_ADDR_LO n, 31, 0⟩
/-- Table 8.9, STR_FAULT_ADDR_HI at 0x0618. -/
def Reg.STR_FAULT_ADDR_HI (n : Nat) : Nat := 0x400618 + 0x4000 * n
def Reg.STR_FAULT_ADDR_HI_PKG (n : Nat) : Fld := ⟨Reg.STR_FAULT_ADDR_HI n, 29, 16⟩
def Reg.STR_FAULT_ADDR_HI_ADDR (n : Nat) : Fld := ⟨Reg.STR_FAULT_ADDR_HI n, 7, 0⟩
/-- Table 8.9, STR_FAULT_BLOCK at 0x061C. -/
def Reg.STR_FAULT_BLOCK (n : Nat) : Nat := 0x40061C + 0x4000 * n
def Reg.STR_FAULT_BLOCK_BLOCK (n : Nat) : Fld := ⟨Reg.STR_FAULT_BLOCK n, 31, 0⟩
/-- Table 8.9, STR_BYTES_IN_LO at 0x0620. -/
def Reg.STR_BYTES_IN_LO (n : Nat) : Nat := 0x400620 + 0x4000 * n
def Reg.STR_BYTES_IN_LO_COUNT (n : Nat) : Fld := ⟨Reg.STR_BYTES_IN_LO n, 31, 0⟩
/-- Table 8.9, STR_BYTES_IN_HI at 0x0624. -/
def Reg.STR_BYTES_IN_HI (n : Nat) : Nat := 0x400624 + 0x4000 * n
def Reg.STR_BYTES_IN_HI_COUNT (n : Nat) : Fld := ⟨Reg.STR_BYTES_IN_HI n, 31, 0⟩
/-- Table 8.9, STR_BYTES_OUT_LO at 0x0628. -/
def Reg.STR_BYTES_OUT_LO (n : Nat) : Nat := 0x400628 + 0x4000 * n
def Reg.STR_BYTES_OUT_LO_COUNT (n : Nat) : Fld := ⟨Reg.STR_BYTES_OUT_LO n, 31, 0⟩
/-- Table 8.9, STR_BYTES_OUT_HI at 0x062C. -/
def Reg.STR_BYTES_OUT_HI (n : Nat) : Nat := 0x40062C + 0x4000 * n
def Reg.STR_BYTES_OUT_HI_COUNT (n : Nat) : Fld := ⟨Reg.STR_BYTES_OUT_HI n, 31, 0⟩
/-- Table 8.9, STR_WAIT_CYCLES at 0x0630. -/
def Reg.STR_WAIT_CYCLES (n : Nat) : Nat := 0x400630 + 0x4000 * n
def Reg.STR_WAIT_CYCLES_COUNT (n : Nat) : Fld := ⟨Reg.STR_WAIT_CYCLES n, 31, 0⟩
/-- Table 8.10, CH_SEND_i at 0x0700 + 4 × i. -/
def Reg.CH_SEND (n i : Nat) : Nat := 0x400700 + 0x4000 * n + 4 * i
def Reg.CH_SEND_CREDITS (n i : Nat) : Fld := ⟨Reg.CH_SEND n i, 31, 16⟩
/-- Table 8.10, CH_RECV_j at 0x0720 + 4 × j. -/
def Reg.CH_RECV (n j : Nat) : Nat := 0x400720 + 0x4000 * n + 4 * j
def Reg.CH_RECV_HELD (n j : Nat) : Fld := ⟨Reg.CH_RECV n j, 31, 16⟩
def Reg.CH_RECV_SPILLED (n j : Nat) : Fld := ⟨Reg.CH_RECV n j, 15, 12⟩
/-- Table 8.10, CH_FAULT at 0x0740. -/
def Reg.CH_FAULT (n : Nat) : Nat := 0x400740 + 0x4000 * n
def Reg.CH_FAULT_VALID (n : Nat) : Fld := ⟨Reg.CH_FAULT n, 31, 31⟩
def Reg.CH_FAULT_KIND (n : Nat) : Fld := ⟨Reg.CH_FAULT n, 30, 28⟩
def Reg.CH_FAULT_EP (n : Nat) : Fld := ⟨Reg.CH_FAULT n, 27, 25⟩
def Reg.CH_FAULT_CTX (n : Nat) : Fld := ⟨Reg.CH_FAULT n, 24, 23⟩
def Reg.CH_FAULT_PLANE (n : Nat) : Fld := ⟨Reg.CH_FAULT n, 22, 20⟩
def Reg.CH_FAULT_SLOT (n : Nat) : Fld := ⟨Reg.CH_FAULT n, 11, 0⟩
/-- Table 8.10, CH_DROPPED at 0x0744. -/
def Reg.CH_DROPPED (n : Nat) : Nat := 0x400744 + 0x4000 * n
def Reg.CH_DROPPED_COUNT (n : Nat) : Fld := ⟨Reg.CH_DROPPED n, 31, 0⟩
/-- Table 8.10, CH_TILES_SENT_LO at 0x0748. -/
def Reg.CH_TILES_SENT_LO (n : Nat) : Nat := 0x400748 + 0x4000 * n
def Reg.CH_TILES_SENT_LO_COUNT (n : Nat) : Fld := ⟨Reg.CH_TILES_SENT_LO n, 31, 0⟩
/-- Table 8.10, CH_TILES_SENT_HI at 0x074C. -/
def Reg.CH_TILES_SENT_HI (n : Nat) : Nat := 0x40074C + 0x4000 * n
def Reg.CH_TILES_SENT_HI_COUNT (n : Nat) : Fld := ⟨Reg.CH_TILES_SENT_HI n, 31, 0⟩
/-- Table 8.10, CH_SPILLS at 0x0750. -/
def Reg.CH_SPILLS (n : Nat) : Nat := 0x400750 + 0x4000 * n
def Reg.CH_SPILLS_COUNT (n : Nat) : Fld := ⟨Reg.CH_SPILLS n, 31, 0⟩
/-- Table 8.10, CH_CREDIT_ERR at 0x0754. -/
def Reg.CH_CREDIT_ERR (n : Nat) : Nat := 0x400754 + 0x4000 * n
def Reg.CH_CREDIT_ERR_COUNT (n : Nat) : Fld := ⟨Reg.CH_CREDIT_ERR n, 31, 0⟩
/-- Table 9.8, CC_n_LO at 0x0800 + 8 × n. -/
def Reg.CC_LO (n c : Nat) : Nat := 0x400800 + 0x4000 * n + 8 * c
def Reg.CC_LO_VALUE (n c : Nat) : Fld := ⟨Reg.CC_LO n c, 31, 0⟩
/-- Table 9.8, CC_n_HI at 0x0804 + 8 × n. -/
def Reg.CC_HI (n c : Nat) : Nat := 0x400804 + 0x4000 * n + 8 * c
def Reg.CC_HI_LAST_SRC (n c : Nat) : Fld := ⟨Reg.CC_HI n c, 31, 16⟩
def Reg.CC_HI_VALUE (n c : Nat) : Fld := ⟨Reg.CC_HI n c, 15, 0⟩
/-- Table 9.8, CC_FAULT at 0x0A00. -/
def Reg.CC_FAULT (n : Nat) : Nat := 0x400A00 + 0x4000 * n
def Reg.CC_FAULT_VALID (n : Nat) : Fld := ⟨Reg.CC_FAULT n, 31, 31⟩
def Reg.CC_FAULT_KIND (n : Nat) : Fld := ⟨Reg.CC_FAULT n, 30, 28⟩
def Reg.CC_FAULT_COUNTER (n : Nat) : Fld := ⟨Reg.CC_FAULT n, 27, 22⟩
def Reg.CC_FAULT_PLANE (n : Nat) : Fld := ⟨Reg.CC_FAULT n, 21, 19⟩
def Reg.CC_FAULT_CTX (n : Nat) : Fld := ⟨Reg.CC_FAULT n, 18, 17⟩
def Reg.CC_FAULT_SLOT (n : Nat) : Fld := ⟨Reg.CC_FAULT n, 11, 0⟩
/-- Table 9.8, CC_FAULT_OWN at 0x0A04. -/
def Reg.CC_FAULT_OWN (n : Nat) : Nat := 0x400A04 + 0x4000 * n
def Reg.CC_FAULT_OWN_VALUE (n : Nat) : Fld := ⟨Reg.CC_FAULT_OWN n, 31, 0⟩
/-- Table 9.8, CC_FAULT_PEER at 0x0A08. -/
def Reg.CC_FAULT_PEER (n : Nat) : Nat := 0x400A08 + 0x4000 * n
def Reg.CC_FAULT_PEER_VALUE (n : Nat) : Fld := ⟨Reg.CC_FAULT_PEER n, 31, 0⟩
/-- Table 9.8, CC_DRIFTS at 0x0A0C. -/
def Reg.CC_DRIFTS (n : Nat) : Nat := 0x400A0C + 0x4000 * n
def Reg.CC_DRIFTS_COUNT (n : Nat) : Fld := ⟨Reg.CC_DRIFTS n, 31, 0⟩
/-- Table 9.8, CC_SIG_DISCARD at 0x0A10. -/
def Reg.CC_SIG_DISCARD (n : Nat) : Nat := 0x400A10 + 0x4000 * n
def Reg.CC_SIG_DISCARD_COUNT (n : Nat) : Fld := ⟨Reg.CC_SIG_DISCARD n, 31, 0⟩
/-- Table 9.8, CC_STALE at 0x0A14. -/
def Reg.CC_STALE (n : Nat) : Nat := 0x400A14 + 0x4000 * n
def Reg.CC_STALE_COUNT (n : Nat) : Fld := ⟨Reg.CC_STALE n, 31, 0⟩
/-- Table 9.8, BAR_STATUS at 0x0A18. -/
def Reg.BAR_STATUS (n : Nat) : Nat := 0x400A18 + 0x4000 * n
def Reg.BAR_STATUS_WAITING (n : Nat) : Fld := ⟨Reg.BAR_STATUS n, 31, 31⟩
def Reg.BAR_STATUS_BID (n : Nat) : Fld := ⟨Reg.BAR_STATUS n, 30, 27⟩
def Reg.BAR_STATUS_SCOPE (n : Nat) : Fld := ⟨Reg.BAR_STATUS n, 26, 25⟩
/-- Table 9.8, LEND_STATUS at 0x0A1C. -/
def Reg.LEND_STATUS (n : Nat) : Nat := 0x400A1C + 0x4000 * n
def Reg.LEND_STATUS_LENDING (n : Nat) : Fld := ⟨Reg.LEND_STATUS n, 31, 31⟩
/-- Table 9.8, LEND_EVENTS at 0x0A20. -/
def Reg.LEND_EVENTS (n : Nat) : Nat := 0x400A20 + 0x4000 * n
def Reg.LEND_EVENTS_COUNT (n : Nat) : Fld := ⟨Reg.LEND_EVENTS n, 31, 0⟩
/-- Table 9.8, LEND_US at 0x0A24. -/
def Reg.LEND_US (n : Nat) : Nat := 0x400A24 + 0x4000 * n
def Reg.LEND_US_COUNT (n : Nat) : Fld := ⟨Reg.LEND_US n, 31, 0⟩
/-- Table 9.9a, PC_VALUE_LO at +0x0. -/
def Reg.PC_VALUE_LO (i : Nat) : Nat := 0x90000 + 0x10 * i
def Reg.PC_VALUE_LO_VALUE (i : Nat) : Fld := ⟨Reg.PC_VALUE_LO i, 31, 0⟩
/-- Table 9.9a, PC_VALUE_HI at +0x4. -/
def Reg.PC_VALUE_HI (i : Nat) : Nat := 0x90004 + 0x10 * i
def Reg.PC_VALUE_HI_VALUE (i : Nat) : Fld := ⟨Reg.PC_VALUE_HI i, 15, 0⟩
/-- Table 9.9a, PC_CTRL at +0x8. -/
def Reg.PC_CTRL (i : Nat) : Nat := 0x90008 + 0x10 * i
def Reg.PC_CTRL_NOTIFY_EN (i : Nat) : Fld := ⟨Reg.PC_CTRL i, 31, 31⟩
def Reg.PC_CTRL_IRQ_ARM (i : Nat) : Fld := ⟨Reg.PC_CTRL i, 30, 30⟩
def Reg.PC_CTRL_LOCK (i : Nat) : Fld := ⟨Reg.PC_CTRL i, 29, 29⟩
def Reg.PC_CTRL_OWNED (i : Nat) : Fld := ⟨Reg.PC_CTRL i, 28, 28⟩
def Reg.PC_CTRL_OWNER (i : Nat) : Fld := ⟨Reg.PC_CTRL i, 27, 22⟩
def Reg.PC_CTRL_VECTOR (i : Nat) : Fld := ⟨Reg.PC_CTRL i, 10, 0⟩
/-- Table 9.9a, PC_IRQ_AT at +0xC. -/
def Reg.PC_IRQ_AT (i : Nat) : Nat := 0x9000C + 0x10 * i
def Reg.PC_IRQ_AT_TARGET (i : Nat) : Fld := ⟨Reg.PC_IRQ_AT i, 31, 0⟩
/-- Table 9.9, CNT_SET_TARGET at 0x0003_0800. -/
def Reg.CNT_SET_TARGET : Nat := 0x30800
def Reg.CNT_SET_TARGET_PKG : Fld := ⟨Reg.CNT_SET_TARGET, 31, 31⟩
def Reg.CNT_SET_TARGET_PCLUSTER : Fld := ⟨Reg.CNT_SET_TARGET, 21, 12⟩
def Reg.CNT_SET_TARGET_INDEX : Fld := ⟨Reg.CNT_SET_TARGET, 11, 0⟩
/-- Table 9.9, CNT_SET_VAL_LO at 0x0003_0804. -/
def Reg.CNT_SET_VAL_LO : Nat := 0x30804
def Reg.CNT_SET_VAL_LO_VALUE : Fld := ⟨Reg.CNT_SET_VAL_LO, 31, 0⟩
/-- Table 9.9, CNT_SET_VAL_HI at 0x0003_0808. -/
def Reg.CNT_SET_VAL_HI : Nat := 0x30808
def Reg.CNT_SET_VAL_HI_VALUE : Fld := ⟨Reg.CNT_SET_VAL_HI, 15, 0⟩
/-- Table 9.9, CNT_SET_VAL_N_LO at 0x0003_080C. -/
def Reg.CNT_SET_VAL_N_LO : Nat := 0x3080C
def Reg.CNT_SET_VAL_N_LO_VALUE_N : Fld := ⟨Reg.CNT_SET_VAL_N_LO, 31, 0⟩
/-- Table 9.9, CNT_SET_VAL_N_HI at 0x0003_0810. -/
def Reg.CNT_SET_VAL_N_HI : Nat := 0x30810
def Reg.CNT_SET_VAL_N_HI_VALUE_N : Fld := ⟨Reg.CNT_SET_VAL_N_HI, 15, 0⟩
/-- Table 9.9, CNT_SET_GO at 0x0003_0814. -/
def Reg.CNT_SET_GO : Nat := 0x30814
def Reg.CNT_SET_GO_GO : Fld := ⟨Reg.CNT_SET_GO, 0, 0⟩
/-- Table 9.9, CNT_SET_STATUS at 0x0003_0818. -/
def Reg.CNT_SET_STATUS : Nat := 0x30818
def Reg.CNT_SET_STATUS_DONE : Fld := ⟨Reg.CNT_SET_STATUS, 31, 31⟩
def Reg.CNT_SET_STATUS_BUSY : Fld := ⟨Reg.CNT_SET_STATUS, 30, 30⟩
def Reg.CNT_SET_STATUS_RESULT : Fld := ⟨Reg.CNT_SET_STATUS, 29, 27⟩
/-- Table 9.9, PC_SIG_DISCARD at 0x0003_0820. -/
def Reg.PC_SIG_DISCARD : Nat := 0x30820
def Reg.PC_SIG_DISCARD_COUNT : Fld := ⟨Reg.PC_SIG_DISCARD, 31, 0⟩
/-- Table 9.9, PC_SIG_REFUSED at 0x0003_0824. -/
def Reg.PC_SIG_REFUSED : Nat := 0x30824
def Reg.PC_SIG_REFUSED_COUNT : Fld := ⟨Reg.PC_SIG_REFUSED, 31, 0⟩
/-- Table 9.9, PC_CTRL_REFUSED at 0x0003_0828. -/
def Reg.PC_CTRL_REFUSED : Nat := 0x30828
def Reg.PC_CTRL_REFUSED_COUNT : Fld := ⟨Reg.PC_CTRL_REFUSED, 31, 0⟩
/-- Table 9.10, TR_LAST at +0x0. -/
def Reg.TR_LAST (i : Nat) : Nat := 0x31000 + 0x10 * i
def Reg.TR_LAST_NODE (i : Nat) : Fld := ⟨Reg.TR_LAST i, 31, 0⟩
/-- Table 9.10, TR_WAITERS at +0x4. -/
def Reg.TR_WAITERS (i : Nat) : Nat := 0x31004 + 0x10 * i
def Reg.TR_WAITERS_COUNT (i : Nat) : Fld := ⟨Reg.TR_WAITERS i, 7, 0⟩
/-- Table 9.10, TR_FIRST at +0x8. -/
def Reg.TR_FIRST (i : Nat) : Nat := 0x31008 + 0x10 * i
def Reg.TR_FIRST_NODE (i : Nat) : Fld := ⟨Reg.TR_FIRST i, 31, 0⟩
/-- Table 9.10, TR_TARGET at +0xC. -/
def Reg.TR_TARGET (i : Nat) : Nat := 0x3100C + 0x10 * i
def Reg.TR_TARGET_TARGET (i : Nat) : Fld := ⟨Reg.TR_TARGET i, 31, 0⟩
/-- Table 9.11, WG_STATUS at 0x0003_2000. -/
def Reg.WG_STATUS : Nat := 0x32000
def Reg.WG_STATUS_VALID : Fld := ⟨Reg.WG_STATUS, 31, 31⟩
def Reg.WG_STATUS_TRUNC : Fld := ⟨Reg.WG_STATUS, 30, 30⟩
def Reg.WG_STATUS_REGION : Fld := ⟨Reg.WG_STATUS, 13, 9⟩
def Reg.WG_STATUS_EDGES : Fld := ⟨Reg.WG_STATUS, 8, 0⟩
/-- Table 9.11, WG_SOURCE at 0x0003_2004. -/
def Reg.WG_SOURCE : Nat := 0x32004
def Reg.WG_SOURCE_SECTION : Fld := ⟨Reg.WG_SOURCE, 31, 16⟩
def Reg.WG_SOURCE_INSTANCE : Fld := ⟨Reg.WG_SOURCE, 5, 0⟩
/-- Table 9.11, WG_FROM_e at +0x0. -/
def Reg.WG_FROM (e : Nat) : Nat := 0x33000 + 0x10 * e
def Reg.WG_FROM_NODE (e : Nat) : Fld := ⟨Reg.WG_FROM e, 31, 0⟩
/-- Table 9.11, WG_TO_e at +0x4. -/
def Reg.WG_TO (e : Nat) : Nat := 0x33004 + 0x10 * e
def Reg.WG_TO_NODE (e : Nat) : Fld := ⟨Reg.WG_TO e, 31, 0⟩
/-- Table 9.11, WG_TARGET_e at +0x8. -/
def Reg.WG_TARGET (e : Nat) : Nat := 0x33008 + 0x10 * e
def Reg.WG_TARGET_TARGET (e : Nat) : Fld := ⟨Reg.WG_TARGET e, 31, 0⟩
/-- Table 9.11, WG_VALUE_e at +0xC. -/
def Reg.WG_VALUE (e : Nat) : Nat := 0x3300C + 0x10 * e
def Reg.WG_VALUE_VALUE (e : Nat) : Fld := ⟨Reg.WG_VALUE e, 31, 0⟩
/-- Table 10.6, TB_CTRL at 0x0001_0000. -/
def Reg.TB_CTRL : Nat := 0x10000
def Reg.TB_CTRL_SOURCE : Fld := ⟨Reg.TB_CTRL, 31, 29⟩
def Reg.TB_CTRL_PTP_PORT : Fld := ⟨Reg.TB_CTRL, 28, 27⟩
def Reg.TB_CTRL_REF_SEL : Fld := ⟨Reg.TB_CTRL, 26, 25⟩
def Reg.TB_CTRL_FRAME_EDGE : Fld := ⟨Reg.TB_CTRL, 24, 24⟩
def Reg.TB_CTRL_TB_PTP_DOMAIN : Fld := ⟨Reg.TB_CTRL, 7, 0⟩
/-- Table 10.6, TB_TURN_US at 0x0001_0004. -/
def Reg.TB_TURN_US : Nat := 0x10004
def Reg.TB_TURN_US_TURN_US : Fld := ⟨Reg.TB_TURN_US, 19, 0⟩
/-- Table 10.6, TB_OFFSET at 0x0001_0008. -/
def Reg.TB_OFFSET : Nat := 0x10008
def Reg.TB_OFFSET_OFFSET : Fld := ⟨Reg.TB_OFFSET, 31, 0⟩
/-- Table 10.6, TB_STATUS at 0x0001_000C. -/
def Reg.TB_STATUS : Nat := 0x1000C
def Reg.TB_STATUS_STATE : Fld := ⟨Reg.TB_STATUS, 31, 29⟩
def Reg.TB_STATUS_FIRST_LOCK : Fld := ⟨Reg.TB_STATUS, 28, 28⟩
def Reg.TB_STATUS_REF_VALID : Fld := ⟨Reg.TB_STATUS, 27, 27⟩
def Reg.TB_STATUS_REF_IN_OK : Fld := ⟨Reg.TB_STATUS, 26, 26⟩
/-- Table 10.6, TB_NOW_TURN at 0x0001_0010. -/
def Reg.TB_NOW_TURN : Nat := 0x10010
def Reg.TB_NOW_TURN_TURN : Fld := ⟨Reg.TB_NOW_TURN, 31, 0⟩
/-- Table 10.6, TB_NOW_ANGLE at 0x0001_0014. -/
def Reg.TB_NOW_ANGLE : Nat := 0x10014
def Reg.TB_NOW_ANGLE_ANGLE : Fld := ⟨Reg.TB_NOW_ANGLE, 23, 0⟩
/-- Table 10.6, TB_PHASE_ERR at 0x0001_0018. -/
def Reg.TB_PHASE_ERR : Nat := 0x10018
def Reg.TB_PHASE_ERR_ERROR : Fld := ⟨Reg.TB_PHASE_ERR, 31, 0⟩
/-- Table 10.6, TB_HOLDOVER_S at 0x0001_001C. -/
def Reg.TB_HOLDOVER_S : Nat := 0x1001C
def Reg.TB_HOLDOVER_S_COUNT : Fld := ⟨Reg.TB_HOLDOVER_S, 31, 0⟩
/-- Table 10.6, TB_EVENTS at 0x0001_0020. -/
def Reg.TB_EVENTS : Nat := 0x10020
def Reg.TB_EVENTS_RELOCK_NEEDED : Fld := ⟨Reg.TB_EVENTS, 3, 3⟩
def Reg.TB_EVENTS_STEPPED : Fld := ⟨Reg.TB_EVENTS, 2, 2⟩
def Reg.TB_EVENTS_LOCK_LOST : Fld := ⟨Reg.TB_EVENTS, 1, 1⟩
def Reg.TB_EVENTS_LOCK_GAINED : Fld := ⟨Reg.TB_EVENTS, 0, 0⟩
/-- Table 10.6, TB_OUT_CTRL at 0x0001_0024. -/
def Reg.TB_OUT_CTRL : Nat := 0x10024
def Reg.TB_OUT_CTRL_FRAME_OUT_EN : Fld := ⟨Reg.TB_OUT_CTRL, 31, 31⟩
def Reg.TB_OUT_CTRL_PPS_OUT_EN : Fld := ⟨Reg.TB_OUT_CTRL, 30, 30⟩
def Reg.TB_OUT_CTRL_FRAME_OUT_ANGLE : Fld := ⟨Reg.TB_OUT_CTRL, 23, 0⟩
/-- Table 10.6, AE_COMMIT at 0x0001_0030. -/
def Reg.AE_COMMIT : Nat := 0x10030
def Reg.AE_COMMIT_RESULT : Fld := ⟨Reg.AE_COMMIT, 31, 30⟩
def Reg.AE_COMMIT_ENTRY : Fld := ⟨Reg.AE_COMMIT, 8, 0⟩
/-- Table 10.6, AE_FIRED at 0x0001_0034. -/
def Reg.AE_FIRED : Nat := 0x10034
def Reg.AE_FIRED_COUNT : Fld := ⟨Reg.AE_FIRED, 31, 0⟩
/-- Table 10.6, AE_MISSED at 0x0001_0038. -/
def Reg.AE_MISSED : Nat := 0x10038
def Reg.AE_MISSED_COUNT : Fld := ⟨Reg.AE_MISSED, 31, 0⟩
/-- Table 10.6, AE_LAST_MISS at 0x0001_003C. -/
def Reg.AE_LAST_MISS : Nat := 0x1003C
def Reg.AE_LAST_MISS_ENTRY : Fld := ⟨Reg.AE_LAST_MISS, 8, 0⟩
/-- Table 10.6, AE_IDLE at 0x0001_0040. -/
def Reg.AE_IDLE : Nat := 0x10040
def Reg.AE_IDLE_COUNT : Fld := ⟨Reg.AE_IDLE, 31, 0⟩
/-- Table 10.6, AE_LATE at 0x0001_0044. -/
def Reg.AE_LATE : Nat := 0x10044
def Reg.AE_LATE_COUNT : Fld := ⟨Reg.AE_LATE, 31, 0⟩
/-- Table 10.6, AE_CROWDED at 0x0001_0048. -/
def Reg.AE_CROWDED : Nat := 0x10048
def Reg.AE_CROWDED_COUNT : Fld := ⟨Reg.AE_CROWDED, 31, 0⟩
/-- Table 10.6, AE_DISCARD at 0x0001_004C. -/
def Reg.AE_DISCARD : Nat := 0x1004C
def Reg.AE_DISCARD_COUNT : Fld := ⟨Reg.AE_DISCARD, 31, 0⟩
/-- Table 10.6, DL_MISSES at 0x0001_0050. -/
def Reg.DL_MISSES : Nat := 0x10050
def Reg.DL_MISSES_COUNT : Fld := ⟨Reg.DL_MISSES, 31, 0⟩
/-- Table 10.6, DL_ABANDONS at 0x0001_0054. -/
def Reg.DL_ABANDONS : Nat := 0x10054
def Reg.DL_ABANDONS_COUNT : Fld := ⟨Reg.DL_ABANDONS, 31, 0⟩
/-- Table 10.6, DL_UNCHECKED at 0x0001_0058. -/
def Reg.DL_UNCHECKED : Nat := 0x10058
def Reg.DL_UNCHECKED_COUNT : Fld := ⟨Reg.DL_UNCHECKED, 31, 0⟩
/-- Table 11.10, HL_STATUS at 0x0000_0100. -/
def Reg.HL_STATUS : Nat := 0x100
def Reg.HL_STATUS_RATE : Fld := ⟨Reg.HL_STATUS, 31, 30⟩
def Reg.HL_STATUS_FLIT : Fld := ⟨Reg.HL_STATUS, 29, 29⟩
def Reg.HL_STATUS_WIDTH : Fld := ⟨Reg.HL_STATUS, 28, 24⟩
def Reg.HL_STATUS_UP : Fld := ⟨Reg.HL_STATUS, 23, 23⟩
/-- Table 11.10, HL_CPL_TIMEOUT at 0x0000_0104. -/
def Reg.HL_CPL_TIMEOUT : Nat := 0x104
def Reg.HL_CPL_TIMEOUT_TIMEOUT_US : Fld := ⟨Reg.HL_CPL_TIMEOUT, 15, 0⟩
/-- Table 11.10, HL_BAR4_BASE at 0x0000_0108. -/
def Reg.HL_BAR4_BASE : Nat := 0x108
def Reg.HL_BAR4_BASE_BASE_GIB : Fld := ⟨Reg.HL_BAR4_BASE, 8, 0⟩
/-- Table 11.10, HL_TIMEOUTS at 0x0000_010C. -/
def Reg.HL_TIMEOUTS : Nat := 0x10C
def Reg.HL_TIMEOUTS_COUNT : Fld := ⟨Reg.HL_TIMEOUTS, 31, 0⟩
/-- Table 11.10, HL_LATE_CPL at 0x0000_0110. -/
def Reg.HL_LATE_CPL : Nat := 0x110
def Reg.HL_LATE_CPL_COUNT : Fld := ⟨Reg.HL_LATE_CPL, 31, 0⟩
/-- Table 11.10, HL_QUARANTINED at 0x0000_0114. -/
def Reg.HL_QUARANTINED : Nat := 0x114
def Reg.HL_QUARANTINED_TAGS : Fld := ⟨Reg.HL_QUARANTINED, 14, 0⟩
/-- Table 11.10, HL_DB_DISCARD at 0x0000_0118. -/
def Reg.HL_DB_DISCARD : Nat := 0x118
def Reg.HL_DB_DISCARD_COUNT : Fld := ⟨Reg.HL_DB_DISCARD, 31, 0⟩
/-- Table 11.10, HL_BAR4_DROPPED at 0x0000_011C. -/
def Reg.HL_BAR4_DROPPED : Nat := 0x11C
def Reg.HL_BAR4_DROPPED_COUNT : Fld := ⟨Reg.HL_BAR4_DROPPED, 31, 0⟩
/-- Table 11.11, RC_CTRL at +0x00. -/
def Reg.RC_CTRL (r : Nat) : Nat := 0x40000 + 0x40 * r
def Reg.RC_CTRL_SQ_EN (r : Nat) : Fld := ⟨Reg.RC_CTRL r, 31, 31⟩
def Reg.RC_CTRL_CQ_EN (r : Nat) : Fld := ⟨Reg.RC_CTRL r, 30, 30⟩
def Reg.RC_CTRL_OWNER (r : Nat) : Fld := ⟨Reg.RC_CTRL r, 29, 24⟩
def Reg.RC_CTRL_LOCAL (r : Nat) : Fld := ⟨Reg.RC_CTRL r, 23, 18⟩
def Reg.RC_CTRL_SQ_LOG2 (r : Nat) : Fld := ⟨Reg.RC_CTRL r, 17, 13⟩
def Reg.RC_CTRL_CQ_LOG2 (r : Nat) : Fld := ⟨Reg.RC_CTRL r, 12, 8⟩
/-- Table 11.11, RC_SQ_BASE_LO at +0x04. -/
def Reg.RC_SQ_BASE_LO (r : Nat) : Nat := 0x40004 + 0x40 * r
def Reg.RC_SQ_BASE_LO_ADDR (r : Nat) : Fld := ⟨Reg.RC_SQ_BASE_LO r, 31, 12⟩
/-- Table 11.11, RC_SQ_BASE_HI at +0x08. -/
def Reg.RC_SQ_BASE_HI (r : Nat) : Nat := 0x40008 + 0x40 * r
def Reg.RC_SQ_BASE_HI_ADDR (r : Nat) : Fld := ⟨Reg.RC_SQ_BASE_HI r, 31, 0⟩
/-- Table 11.11, RC_CQ_BASE_LO at +0x0C. -/
def Reg.RC_CQ_BASE_LO (r : Nat) : Nat := 0x4000C + 0x40 * r
def Reg.RC_CQ_BASE_LO_ADDR (r : Nat) : Fld := ⟨Reg.RC_CQ_BASE_LO r, 31, 12⟩
/-- Table 11.11, RC_CQ_BASE_HI at +0x10. -/
def Reg.RC_CQ_BASE_HI (r : Nat) : Nat := 0x40010 + 0x40 * r
def Reg.RC_CQ_BASE_HI_ADDR (r : Nat) : Fld := ⟨Reg.RC_CQ_BASE_HI r, 31, 0⟩
/-- Table 11.11, RC_SQ_LINK at +0x14. -/
def Reg.RC_SQ_LINK (r : Nat) : Nat := 0x40014 + 0x40 * r
def Reg.RC_SQ_LINK_CQ (r : Nat) : Fld := ⟨Reg.RC_SQ_LINK r, 31, 20⟩
/-- Table 11.11, RC_CQ_IRQ at +0x18. -/
def Reg.RC_CQ_IRQ (r : Nat) : Nat := 0x40018 + 0x40 * r
def Reg.RC_CQ_IRQ_IRQ_EN (r : Nat) : Fld := ⟨Reg.RC_CQ_IRQ r, 31, 31⟩
def Reg.RC_CQ_IRQ_VECTOR (r : Nat) : Fld := ⟨Reg.RC_CQ_IRQ r, 30, 20⟩
def Reg.RC_CQ_IRQ_COAL_COUNT (r : Nat) : Fld := ⟨Reg.RC_CQ_IRQ r, 19, 12⟩
def Reg.RC_CQ_IRQ_COAL_US (r : Nat) : Fld := ⟨Reg.RC_CQ_IRQ r, 11, 0⟩
/-- Table 11.11, RC_SQ_HEAD at +0x1C. -/
def Reg.RC_SQ_HEAD (r : Nat) : Nat := 0x4001C + 0x40 * r
def Reg.RC_SQ_HEAD_POS (r : Nat) : Fld := ⟨Reg.RC_SQ_HEAD r, 31, 0⟩
/-- Table 11.11, RC_SQ_TAIL at +0x20. -/
def Reg.RC_SQ_TAIL (r : Nat) : Nat := 0x40020 + 0x40 * r
def Reg.RC_SQ_TAIL_POS (r : Nat) : Fld := ⟨Reg.RC_SQ_TAIL r, 31, 0⟩
/-- Table 11.11, RC_CQ_WRITTEN at +0x24. -/
def Reg.RC_CQ_WRITTEN (r : Nat) : Nat := 0x40024 + 0x40 * r
def Reg.RC_CQ_WRITTEN_POS (r : Nat) : Fld := ⟨Reg.RC_CQ_WRITTEN r, 31, 0⟩
/-- Table 11.11, RC_CQ_HEAD at +0x28. -/
def Reg.RC_CQ_HEAD (r : Nat) : Nat := 0x40028 + 0x40 * r
def Reg.RC_CQ_HEAD_POS (r : Nat) : Fld := ⟨Reg.RC_CQ_HEAD r, 31, 0⟩
/-- Table 11.11, RC_STATUS at +0x2C. -/
def Reg.RC_STATUS (r : Nat) : Nat := 0x4002C + 0x40 * r
def Reg.RC_STATUS_SQ_ERR (r : Nat) : Fld := ⟨Reg.RC_STATUS r, 31, 31⟩
def Reg.RC_STATUS_CFG_REFUSED (r : Nat) : Fld := ⟨Reg.RC_STATUS r, 30, 30⟩
def Reg.RC_STATUS_ERR_CODE (r : Nat) : Fld := ⟨Reg.RC_STATUS r, 29, 26⟩
def Reg.RC_STATUS_CQ_FULL (r : Nat) : Fld := ⟨Reg.RC_STATUS r, 25, 25⟩
/-- Table 11.11, RC_DB_DISCARD at +0x30. -/
def Reg.RC_DB_DISCARD (r : Nat) : Nat := 0x40030 + 0x40 * r
def Reg.RC_DB_DISCARD_COUNT (r : Nat) : Fld := ⟨Reg.RC_DB_DISCARD r, 31, 0⟩
/-- Table 11.12, INST_CTRL at +0x000. -/
def Reg.INST_CTRL (i : Nat) : Nat := 0x80000 + 0x400 * i
def Reg.INST_CTRL_RESET (i : Nat) : Fld := ⟨Reg.INST_CTRL i, 31, 31⟩
def Reg.INST_CTRL_EVT_IRQ_EN (i : Nat) : Fld := ⟨Reg.INST_CTRL i, 30, 30⟩
def Reg.INST_CTRL_EVT_VECTOR (i : Nat) : Fld := ⟨Reg.INST_CTRL i, 10, 0⟩
/-- Table 11.12, INST_STATUS at +0x004. -/
def Reg.INST_STATUS (i : Nat) : Nat := 0x80004 + 0x400 * i
def Reg.INST_STATUS_RESET_DONE (i : Nat) : Fld := ⟨Reg.INST_STATUS i, 31, 31⟩
def Reg.INST_STATUS_IN_RESET (i : Nat) : Fld := ⟨Reg.INST_STATUS i, 30, 30⟩
def Reg.INST_STATUS_DRAM_ZEROING (i : Nat) : Fld := ⟨Reg.INST_STATUS i, 29, 29⟩
def Reg.INST_STATUS_WIN_REFUSED (i : Nat) : Fld := ⟨Reg.INST_STATUS i, 28, 28⟩
def Reg.INST_STATUS_GENERATION (i : Nat) : Fld := ⟨Reg.INST_STATUS i, 15, 8⟩
/-- Table 11.12, INST_EVENTS at +0x008. -/
def Reg.INST_EVENTS (i : Nat) : Nat := 0x80008 + 0x400 * i
def Reg.INST_EVENTS_RING_ERROR (i : Nat) : Fld := ⟨Reg.INST_EVENTS i, 5, 5⟩
def Reg.INST_EVENTS_BANK_CONFLICT (i : Nat) : Fld := ⟨Reg.INST_EVENTS i, 4, 4⟩
def Reg.INST_EVENTS_COUNT_DRIFT (i : Nat) : Fld := ⟨Reg.INST_EVENTS i, 3, 3⟩
def Reg.INST_EVENTS_DEADLOCK (i : Nat) : Fld := ⟨Reg.INST_EVENTS i, 2, 2⟩
def Reg.INST_EVENTS_DEADLINE_MISS (i : Nat) : Fld := ⟨Reg.INST_EVENTS i, 1, 1⟩
def Reg.INST_EVENTS_RESET_DONE (i : Nat) : Fld := ⟨Reg.INST_EVENTS i, 0, 0⟩
/-- Table 11.12, NOTIFY_LO at +0x010. -/
def Reg.NOTIFY_LO (i : Nat) : Nat := 0x80010 + 0x400 * i
def Reg.NOTIFY_LO_ADDR (i : Nat) : Fld := ⟨Reg.NOTIFY_LO i, 31, 16⟩
def Reg.NOTIFY_LO_VALID (i : Nat) : Fld := ⟨Reg.NOTIFY_LO i, 0, 0⟩
/-- Table 11.12, NOTIFY_HI at +0x014. -/
def Reg.NOTIFY_HI (i : Nat) : Nat := 0x80014 + 0x400 * i
def Reg.NOTIFY_HI_ADDR (i : Nat) : Fld := ⟨Reg.NOTIFY_HI i, 31, 0⟩
/-- Table 11.12, WIN_w_BASE at +0x020 + 8 × w. -/
def Reg.WIN_BASE (i w : Nat) : Nat := 0x80020 + 0x400 * i + 8 * w
def Reg.WIN_BASE_EN (i w : Nat) : Fld := ⟨Reg.WIN_BASE i w, 31, 31⟩
def Reg.WIN_BASE_REMOTE (i w : Nat) : Fld := ⟨Reg.WIN_BASE i w, 30, 30⟩
def Reg.WIN_BASE_BASE (i w : Nat) : Fld := ⟨Reg.WIN_BASE i w, 18, 0⟩
/-- Table 11.12, WIN_w_SIZE at +0x024 + 8 × w. -/
def Reg.WIN_SIZE (i w : Nat) : Nat := 0x80024 + 0x400 * i + 8 * w
def Reg.WIN_SIZE_SIZE (i w : Nat) : Fld := ⟨Reg.WIN_SIZE i w, 18, 0⟩
/-- Table 11.12, INST_DISCARDS at +0x060. -/
def Reg.INST_DISCARDS (i : Nat) : Nat := 0x80060 + 0x400 * i
def Reg.INST_DISCARDS_COUNT (i : Nat) : Fld := ⟨Reg.INST_DISCARDS i, 31, 0⟩
/-- Table 11.13, IRQ_MAP_s at 0x0000_2000 + 4 × s. -/
def Reg.IRQ_MAP (s : Nat) : Nat := 0x2000 + 4 * s
def Reg.IRQ_MAP_EN (s : Nat) : Fld := ⟨Reg.IRQ_MAP s, 31, 31⟩
def Reg.IRQ_MAP_VECTOR (s : Nat) : Fld := ⟨Reg.IRQ_MAP s, 10, 0⟩
/-- Table 11.13, IRQ_STATUS at 0x0000_2040. -/
def Reg.IRQ_STATUS : Nat := 0x2040
def Reg.IRQ_STATUS_FLARID : Fld := ⟨Reg.IRQ_STATUS, 6, 6⟩
def Reg.IRQ_STATUS_SESSION : Fld := ⟨Reg.IRQ_STATUS, 5, 5⟩
def Reg.IRQ_STATUS_POWER : Fld := ⟨Reg.IRQ_STATUS, 4, 4⟩
def Reg.IRQ_STATUS_HOST_LINK : Fld := ⟨Reg.IRQ_STATUS, 3, 3⟩
def Reg.IRQ_STATUS_HEALTH : Fld := ⟨Reg.IRQ_STATUS, 2, 2⟩
def Reg.IRQ_STATUS_TIME : Fld := ⟨Reg.IRQ_STATUS, 1, 1⟩
def Reg.IRQ_STATUS_MAINT : Fld := ⟨Reg.IRQ_STATUS, 0, 0⟩
/-- Table 11.14, MAINT_CMD at 0x0000_1000. -/
def Reg.MAINT_CMD : Nat := 0x1000
def Reg.MAINT_CMD_CMD : Fld := ⟨Reg.MAINT_CMD, 7, 0⟩
/-- Table 11.14, MAINT_ARG_a at 0x0000_1004 + 4 × a. -/
def Reg.MAINT_ARG (a : Nat) : Nat := 0x1004 + 4 * a
def Reg.MAINT_ARG_ARG (a : Nat) : Fld := ⟨Reg.MAINT_ARG a, 31, 0⟩
/-- Table 11.14, MAINT_STATUS at 0x0000_1010. -/
def Reg.MAINT_STATUS : Nat := 0x1010
def Reg.MAINT_STATUS_BUSY : Fld := ⟨Reg.MAINT_STATUS, 31, 31⟩
def Reg.MAINT_STATUS_DONE : Fld := ⟨Reg.MAINT_STATUS, 30, 30⟩
def Reg.MAINT_STATUS_RESULT : Fld := ⟨Reg.MAINT_STATUS, 29, 28⟩
def Reg.MAINT_STATUS_CMD : Fld := ⟨Reg.MAINT_STATUS, 7, 0⟩
/-- Table 11.14, REJECTED_WRITES at 0x0000_1014. -/
def Reg.REJECTED_WRITES : Nat := 0x1014
def Reg.REJECTED_WRITES_COUNT : Fld := ⟨Reg.REJECTED_WRITES, 31, 0⟩
/-- Table 11.14, REJECTED_LAST at 0x0000_1018. -/
def Reg.REJECTED_LAST : Nat := 0x1018
def Reg.REJECTED_LAST_OFFSET : Fld := ⟨Reg.REJECTED_LAST, 23, 0⟩
/-- Table 12.8, ETH_CTRL at +0x00. -/
def Reg.ETH_CTRL (p : Nat) : Nat := 0x100000 + 0x200 * p
def Reg.ETH_CTRL_MODE (p : Nat) : Fld := ⟨Reg.ETH_CTRL p, 31, 30⟩
def Reg.ETH_CTRL_SUB_EN (p : Nat) : Fld := ⟨Reg.ETH_CTRL p, 29, 26⟩
/-- Table 12.8, ETH_PFC at +0x04. -/
def Reg.ETH_PFC (p : Nat) : Nat := 0x100004 + 0x200 * p
def Reg.ETH_PFC_RX_EN (p : Nat) : Fld := ⟨Reg.ETH_PFC p, 31, 24⟩
def Reg.ETH_PFC_TX_EN (p : Nat) : Fld := ⟨Reg.ETH_PFC p, 23, 16⟩
/-- Table 12.8, ETH_STATUS at +0x08. -/
def Reg.ETH_STATUS (p : Nat) : Nat := 0x100008 + 0x200 * p
def Reg.ETH_STATUS_LINK_UP (p : Nat) : Fld := ⟨Reg.ETH_STATUS p, 31, 28⟩
def Reg.ETH_STATUS_FEC_LOCK (p : Nat) : Fld := ⟨Reg.ETH_STATUS p, 27, 24⟩
/-- Table 12.8, ETH_PAUSED at +0x0C. -/
def Reg.ETH_PAUSED (p : Nat) : Nat := 0x10000C + 0x200 * p
def Reg.ETH_PAUSED_PAUSED (p : Nat) : Fld := ⟨Reg.ETH_PAUSED p, 31, 0⟩
/-- Table 12.8, ETH_MAC_LO at +0x10. -/
def Reg.ETH_MAC_LO (p : Nat) : Nat := 0x100010 + 0x200 * p
def Reg.ETH_MAC_LO_MAC (p : Nat) : Fld := ⟨Reg.ETH_MAC_LO p, 31, 0⟩
/-- Table 12.8, ETH_MAC_HI at +0x14. -/
def Reg.ETH_MAC_HI (p : Nat) : Nat := 0x100014 + 0x200 * p
def Reg.ETH_MAC_HI_MAC (p : Nat) : Fld := ⟨Reg.ETH_MAC_HI p, 15, 0⟩
/-- Table 12.8, ETH_PFC_RX at +0x18. -/
def Reg.ETH_PFC_RX (p : Nat) : Nat := 0x100018 + 0x200 * p
def Reg.ETH_PFC_RX_COUNT (p : Nat) : Fld := ⟨Reg.ETH_PFC_RX p, 31, 0⟩
/-- Table 12.8, ETH_GPAUSE_DROPPED at +0x1C. -/
def Reg.ETH_GPAUSE_DROPPED (p : Nat) : Nat := 0x10001C + 0x200 * p
def Reg.ETH_GPAUSE_DROPPED_COUNT (p : Nat) : Fld := ⟨Reg.ETH_GPAUSE_DROPPED p, 31, 0⟩
/-- Table 12.8, ETH_RX_DROPPED at +0x20. -/
def Reg.ETH_RX_DROPPED (p : Nat) : Nat := 0x100020 + 0x200 * p
def Reg.ETH_RX_DROPPED_COUNT (p : Nat) : Fld := ⟨Reg.ETH_RX_DROPPED p, 31, 0⟩
/-- Table 12.8, ETH_PTP_DROPPED at +0x24. -/
def Reg.ETH_PTP_DROPPED (p : Nat) : Nat := 0x100024 + 0x200 * p
def Reg.ETH_PTP_DROPPED_COUNT (p : Nat) : Fld := ⟨Reg.ETH_PTP_DROPPED p, 31, 0⟩
/-- Table 12.8, ETH_ADDR_k at +0x40 + 0x20 × k. -/
def Reg.ETH_ADDR (p k : Nat) : Nat := 0x100040 + 0x200 * p + 32 * k
def Reg.ETH_ADDR_VALID (p k : Nat) : Fld := ⟨Reg.ETH_ADDR p k, 31, 31⟩
def Reg.ETH_ADDR_V6 (p k : Nat) : Fld := ⟨Reg.ETH_ADDR p k, 30, 30⟩
def Reg.ETH_ADDR_SUB (p k : Nat) : Fld := ⟨Reg.ETH_ADDR p k, 29, 28⟩
def Reg.ETH_ADDR_VLAN (p k : Nat) : Fld := ⟨Reg.ETH_ADDR p k, 23, 12⟩
/-- Table 12.8, ETH_ADDR_k_0 to _3 at +0x44 + 0x20 × k to +0x50 + 0x20 × k. -/
def Reg.ETH_ADDR_WORD (p k q : Nat) : Nat := 0x100044 + 0x200 * p + 32 * k + 4 * q
def Reg.ETH_ADDR_WORD_ADDR (p k q : Nat) : Fld := ⟨Reg.ETH_ADDR_WORD p k q, 31, 0⟩
/-- Table 12.9, SES_CTRL at 0x0010_0800. -/
def Reg.SES_CTRL : Nat := 0x100800
def Reg.SES_CTRL_IDLE_MS : Fld := ⟨Reg.SES_CTRL, 31, 16⟩
/-- Table 12.9, SES_ACTIVE at 0x0010_0804. -/
def Reg.SES_ACTIVE : Nat := 0x100804
def Reg.SES_ACTIVE_COUNT : Fld := ⟨Reg.SES_ACTIVE, 12, 0⟩
/-- Table 12.9, SES_DUP_DROPPED at 0x0010_0808. -/
def Reg.SES_DUP_DROPPED : Nat := 0x100808
def Reg.SES_DUP_DROPPED_COUNT : Fld := ⟨Reg.SES_DUP_DROPPED, 31, 0⟩
/-- Table 12.9, SES_WINDOW_DROPPED at 0x0010_080C. -/
def Reg.SES_WINDOW_DROPPED : Nat := 0x10080C
def Reg.SES_WINDOW_DROPPED_COUNT : Fld := ⟨Reg.SES_WINDOW_DROPPED, 31, 0⟩
/-- Table 12.9, SES_REFUSED at 0x0010_0810. -/
def Reg.SES_REFUSED : Nat := 0x100810
def Reg.SES_REFUSED_COUNT : Fld := ⟨Reg.SES_REFUSED, 31, 0⟩
/-- Table 12.9, SES_CPL_DISCARD at 0x0010_0814. -/
def Reg.SES_CPL_DISCARD : Nat := 0x100814
def Reg.SES_CPL_DISCARD_COUNT : Fld := ⟨Reg.SES_CPL_DISCARD, 31, 0⟩
/-- Table 12.9, GRP_DELIVERED at 0x0010_0818. -/
def Reg.GRP_DELIVERED : Nat := 0x100818
def Reg.GRP_DELIVERED_COUNT : Fld := ⟨Reg.GRP_DELIVERED, 31, 0⟩
/-- Table 12.9, GRP_HELD_DROPPED at 0x0010_081C. -/
def Reg.GRP_HELD_DROPPED : Nat := 0x10081C
def Reg.GRP_HELD_DROPPED_COUNT : Fld := ⟨Reg.GRP_HELD_DROPPED, 31, 0⟩
/-- Table 12.9, GRP_DOWN_DROPPED at 0x0010_0820. -/
def Reg.GRP_DOWN_DROPPED : Nat := 0x100820
def Reg.GRP_DOWN_DROPPED_COUNT : Fld := ⟨Reg.GRP_DOWN_DROPPED, 31, 0⟩
/-- Table 12.9, SES_SEL at 0x0010_0840. -/
def Reg.SES_SEL : Nat := 0x100840
def Reg.SES_SEL_SESSION : Fld := ⟨Reg.SES_SEL, 11, 0⟩
/-- Table 12.9, SES_INFO at 0x0010_0844. -/
def Reg.SES_INFO : Nat := 0x100844
def Reg.SES_INFO_OPEN : Fld := ⟨Reg.SES_INFO, 31, 31⟩
def Reg.SES_INFO_OWNER : Fld := ⟨Reg.SES_INFO, 30, 25⟩
def Reg.SES_INFO_LISTENER : Fld := ⟨Reg.SES_INFO, 24, 19⟩
def Reg.SES_INFO_EPOCH : Fld := ⟨Reg.SES_INFO, 18, 11⟩
def Reg.SES_INFO_PENDING : Fld := ⟨Reg.SES_INFO, 10, 8⟩
/-- Table 12.9, SES_HOME at 0x0010_0848. -/
def Reg.SES_HOME : Nat := 0x100848
def Reg.SES_HOME_VALID : Fld := ⟨Reg.SES_HOME, 31, 31⟩
def Reg.SES_HOME_SLOT : Fld := ⟨Reg.SES_HOME, 9, 0⟩
/-- Table 12.9, SES_QWAIT_LO at 0x0010_084C. -/
def Reg.SES_QWAIT_LO : Nat := 0x10084C
def Reg.SES_QWAIT_LO_AU : Fld := ⟨Reg.SES_QWAIT_LO, 31, 0⟩
/-- Table 12.9, SES_QWAIT_HI at 0x0010_0850. -/
def Reg.SES_QWAIT_HI : Nat := 0x100850
def Reg.SES_QWAIT_HI_AU : Fld := ⟨Reg.SES_QWAIT_HI, 31, 0⟩
/-- Table 12.9, SES_PREEMPT_LO at 0x0010_0854. -/
def Reg.SES_PREEMPT_LO : Nat := 0x100854
def Reg.SES_PREEMPT_LO_COUNT : Fld := ⟨Reg.SES_PREEMPT_LO, 31, 0⟩
/-- Table 12.9, SES_PREEMPT_HI at 0x0010_0858. -/
def Reg.SES_PREEMPT_HI : Nat := 0x100858
def Reg.SES_PREEMPT_HI_COUNT : Fld := ⟨Reg.SES_PREEMPT_HI, 31, 0⟩
/-- Table 12.9, LSN_l_CTRL at 0x0010_1000 + 16 × l. -/
def Reg.LSN_CTRL (l : Nat) : Nat := 0x101000 + 0x10 * l
def Reg.LSN_CTRL_VALID (l : Nat) : Fld := ⟨Reg.LSN_CTRL l, 31, 31⟩
def Reg.LSN_CTRL_OWNER (l : Nat) : Fld := ⟨Reg.LSN_CTRL l, 30, 25⟩
def Reg.LSN_CTRL_PCP (l : Nat) : Fld := ⟨Reg.LSN_CTRL l, 24, 22⟩
def Reg.LSN_CTRL_WIN (l : Nat) : Fld := ⟨Reg.LSN_CTRL l, 21, 19⟩
/-- Table 12.9, LSN_l_PORT at 0x0010_1004 + 16 × l. -/
def Reg.LSN_PORT (l : Nat) : Nat := 0x101004 + 0x10 * l
def Reg.LSN_PORT_UDP (l : Nat) : Fld := ⟨Reg.LSN_PORT l, 15, 0⟩
/-- Table 12.9, LSN_l_MODEL at 0x0010_1008 + 16 × l. -/
def Reg.LSN_MODEL (l : Nat) : Nat := 0x101008 + 0x10 * l
def Reg.LSN_MODEL_MODEL_ID (l : Nat) : Fld := ⟨Reg.LSN_MODEL l, 15, 0⟩
/-- Table 12.9, LSN_l_MAXREQ at 0x0010_100C + 16 × l. -/
def Reg.LSN_MAXREQ (l : Nat) : Nat := 0x10100C + 0x10 * l
def Reg.LSN_MAXREQ_BYTES (l : Nat) : Fld := ⟨Reg.LSN_MAXREQ l, 24, 0⟩
/-- Table 12.9, BAT_s_CTRL at 0x0010_2000 + 16 × s. -/
def Reg.BAT_CTRL (s : Nat) : Nat := 0x102000 + 0x10 * s
def Reg.BAT_CTRL_VALID (s : Nat) : Fld := ⟨Reg.BAT_CTRL s, 31, 31⟩
def Reg.BAT_CTRL_MODE (s : Nat) : Fld := ⟨Reg.BAT_CTRL s, 30, 30⟩
def Reg.BAT_CTRL_MAX_SEQ (s : Nat) : Fld := ⟨Reg.BAT_CTRL s, 29, 21⟩
def Reg.BAT_CTRL_MODEL_ID (s : Nat) : Fld := ⟨Reg.BAT_CTRL s, 15, 0⟩
/-- Table 12.9, BAT_s_QUANTUM at 0x0010_2004 + 16 × s. -/
def Reg.BAT_QUANTUM (s : Nat) : Nat := 0x102004 + 0x10 * s
def Reg.BAT_QUANTUM_STEPS (s : Nat) : Fld := ⟨Reg.BAT_QUANTUM s, 15, 0⟩
/-- Table 12.9, BAT_s_LOAD at 0x0010_2008 + 16 × s. -/
def Reg.BAT_LOAD (s : Nat) : Nat := 0x102008 + 0x10 * s
def Reg.BAT_LOAD_IN_BATCH (s : Nat) : Fld := ⟨Reg.BAT_LOAD s, 24, 16⟩
def Reg.BAT_LOAD_WAITING (s : Nat) : Fld := ⟨Reg.BAT_LOAD s, 15, 0⟩
/-- Table 12.9, GRP_g at 0x0010_6000 + 4 × g. -/
def Reg.GRP (g : Nat) : Nat := 0x106000 + 4 * g
def Reg.GRP_VALID (g : Nat) : Fld := ⟨Reg.GRP g, 31, 31⟩
def Reg.GRP_OWNER (g : Nat) : Fld := ⟨Reg.GRP g, 30, 25⟩
def Reg.GRP_COUNT (g : Nat) : Fld := ⟨Reg.GRP g, 6, 0⟩
/-- Table 12.9, GRP_g_DST_d at 0x0018_0000 + 2,048 × g + 32 × d. -/
def Reg.GRP_DST (g d : Nat) : Nat := 0x180000 + 2048 * g + 32 * d
def Reg.GRP_DST_PORT (g d : Nat) : Fld := ⟨Reg.GRP_DST g d, 31, 30⟩
def Reg.GRP_DST_SUB (g d : Nat) : Fld := ⟨Reg.GRP_DST g d, 29, 28⟩
def Reg.GRP_DST_V6 (g d : Nat) : Fld := ⟨Reg.GRP_DST g d, 27, 27⟩
def Reg.GRP_DST_PCP (g d : Nat) : Fld := ⟨Reg.GRP_DST g d, 26, 24⟩
def Reg.GRP_DST_VLAN (g d : Nat) : Fld := ⟨Reg.GRP_DST g d, 23, 12⟩
/-- Table 12.9, GRP_g_DST_d_IP_0 to _3 at +0x04 to +0x10. -/
def Reg.GRP_DST_IP (g d q : Nat) : Nat := 0x180004 + 2048 * g + 32 * d + 4 * q
def Reg.GRP_DST_IP_ADDR (g d q : Nat) : Fld := ⟨Reg.GRP_DST_IP g d q, 31, 0⟩
/-- Table 12.9, GRP_g_DST_d_UDP at +0x14. -/
def Reg.GRP_DST_UDP (g d : Nat) : Nat := 0x180014 + 2048 * g + 32 * d
def Reg.GRP_DST_UDP_UDP (g d : Nat) : Fld := ⟨Reg.GRP_DST_UDP g d, 15, 0⟩
/-- Table 12.9, GRP_g_DST_d_MAC_LO at +0x18. -/
def Reg.GRP_DST_MAC_LO (g d : Nat) : Nat := 0x180018 + 2048 * g + 32 * d
def Reg.GRP_DST_MAC_LO_MAC (g d : Nat) : Fld := ⟨Reg.GRP_DST_MAC_LO g d, 31, 0⟩
/-- Table 12.9, GRP_g_DST_d_MAC_HI at +0x1C. -/
def Reg.GRP_DST_MAC_HI (g d : Nat) : Nat := 0x18001C + 2048 * g + 32 * d
def Reg.GRP_DST_MAC_HI_MAC (g d : Nat) : Fld := ⟨Reg.GRP_DST_MAC_HI g d, 15, 0⟩
/-- Table 12.10, ACC_QWAIT_LO at +0x100. -/
def Reg.ACC_QWAIT_LO (i : Nat) : Nat := 0x80100 + 0x400 * i
def Reg.ACC_QWAIT_LO_AU (i : Nat) : Fld := ⟨Reg.ACC_QWAIT_LO i, 31, 0⟩
/-- Table 12.10, ACC_QWAIT_HI at +0x104. -/
def Reg.ACC_QWAIT_HI (i : Nat) : Nat := 0x80104 + 0x400 * i
def Reg.ACC_QWAIT_HI_AU (i : Nat) : Fld := ⟨Reg.ACC_QWAIT_HI i, 31, 0⟩
/-- Table 12.10, ACC_PREEMPT_LO at +0x108. -/
def Reg.ACC_PREEMPT_LO (i : Nat) : Nat := 0x80108 + 0x400 * i
def Reg.ACC_PREEMPT_LO_COUNT (i : Nat) : Fld := ⟨Reg.ACC_PREEMPT_LO i, 31, 0⟩
/-- Table 12.10, ACC_PREEMPT_HI at +0x10C. -/
def Reg.ACC_PREEMPT_HI (i : Nat) : Nat := 0x8010C + 0x400 * i
def Reg.ACC_PREEMPT_HI_COUNT (i : Nat) : Fld := ⟨Reg.ACC_PREEMPT_HI i, 31, 0⟩
/-- Table 12.10, ACC_DONE_LO at +0x110. -/
def Reg.ACC_DONE_LO (i : Nat) : Nat := 0x80110 + 0x400 * i
def Reg.ACC_DONE_LO_COUNT (i : Nat) : Fld := ⟨Reg.ACC_DONE_LO i, 31, 0⟩
/-- Table 12.10, ACC_DONE_HI at +0x114. -/
def Reg.ACC_DONE_HI (i : Nat) : Nat := 0x80114 + 0x400 * i
def Reg.ACC_DONE_HI_COUNT (i : Nat) : Fld := ⟨Reg.ACC_DONE_HI i, 31, 0⟩
/-- Table 12.10, ACC_CLEAR at +0x118. -/
def Reg.ACC_CLEAR (i : Nat) : Nat := 0x80118 + 0x400 * i
def Reg.ACC_CLEAR_CLEAR (i : Nat) : Fld := ⟨Reg.ACC_CLEAR i, 0, 0⟩
/-- Table 13.8, FL_CTRL at +0x000. -/
def Reg.FL_CTRL (p : Nat) : Nat := 0x200000 + 0x1000 * p
def Reg.FL_CTRL_EN (p : Nat) : Fld := ⟨Reg.FL_CTRL p, 31, 31⟩
def Reg.FL_CTRL_RETRAIN (p : Nat) : Fld := ⟨Reg.FL_CTRL p, 30, 30⟩
/-- Table 13.8, FL_STATUS at +0x004. -/
def Reg.FL_STATUS (p : Nat) : Nat := 0x200004 + 0x1000 * p
def Reg.FL_STATUS_STATE (p : Nat) : Fld := ⟨Reg.FL_STATUS p, 31, 29⟩
def Reg.FL_STATUS_LANES (p : Nat) : Fld := ⟨Reg.FL_STATUS p, 28, 26⟩
def Reg.FL_STATUS_SPARE_USED (p : Nat) : Fld := ⟨Reg.FL_STATUS p, 25, 25⟩
def Reg.FL_STATUS_FAILED (p : Nat) : Fld := ⟨Reg.FL_STATUS p, 24, 20⟩
def Reg.FL_STATUS_PEER_PORT (p : Nat) : Fld := ⟨Reg.FL_STATUS p, 17, 14⟩
def Reg.FL_STATUS_PEER_PKG (p : Nat) : Fld := ⟨Reg.FL_STATUS p, 13, 0⟩
/-- Table 13.8, FL_REPLAYS at +0x008. -/
def Reg.FL_REPLAYS (p : Nat) : Nat := 0x200008 + 0x1000 * p
def Reg.FL_REPLAYS_COUNT (p : Nat) : Fld := ⟨Reg.FL_REPLAYS p, 31, 0⟩
/-- Table 13.8, FL_RETRAINS at +0x00C. -/
def Reg.FL_RETRAINS (p : Nat) : Nat := 0x20000C + 0x1000 * p
def Reg.FL_RETRAINS_COUNT (p : Nat) : Fld := ⟨Reg.FL_RETRAINS p, 31, 0⟩
/-- Table 13.8, FL_DOWNS at +0x010. -/
def Reg.FL_DOWNS (p : Nat) : Nat := 0x200010 + 0x1000 * p
def Reg.FL_DOWNS_COUNT (p : Nat) : Fld := ⟨Reg.FL_DOWNS p, 31, 0⟩
/-- Table 13.8, FL_PKEY_REJECTS at +0x014. -/
def Reg.FL_PKEY_REJECTS (p : Nat) : Nat := 0x200014 + 0x1000 * p
def Reg.FL_PKEY_REJECTS_COUNT (p : Nat) : Fld := ⟨Reg.FL_PKEY_REJECTS p, 31, 0⟩
/-- Table 13.8, FL_CPL_DISCARD at +0x018. -/
def Reg.FL_CPL_DISCARD (p : Nat) : Nat := 0x200018 + 0x1000 * p
def Reg.FL_CPL_DISCARD_COUNT (p : Nat) : Fld := ⟨Reg.FL_CPL_DISCARD p, 31, 0⟩
/-- Table 13.8, FL_WAIT_DROPS at +0x01C. -/
def Reg.FL_WAIT_DROPS (p : Nat) : Nat := 0x20001C + 0x1000 * p
def Reg.FL_WAIT_DROPS_COUNT (p : Nat) : Fld := ⟨Reg.FL_WAIT_DROPS p, 31, 0⟩
/-- Table 13.8, FL_MARKED at +0x020. -/
def Reg.FL_MARKED (p : Nat) : Nat := 0x200020 + 0x1000 * p
def Reg.FL_MARKED_COUNT (p : Nat) : Fld := ⟨Reg.FL_MARKED p, 31, 0⟩
/-- Table 13.8, FL_TRUNCATED at +0x024. -/
def Reg.FL_TRUNCATED (p : Nat) : Nat := 0x200024 + 0x1000 * p
def Reg.FL_TRUNCATED_COUNT (p : Nat) : Fld := ⟨Reg.FL_TRUNCATED p, 31, 0⟩
/-- Table 13.8, FL_RATE_v at +0x030 + 4 × v. -/
def Reg.FL_RATE (p v : Nat) : Nat := 0x200030 + 0x1000 * p + 4 * v
def Reg.FL_RATE_RATE (p v : Nat) : Fld := ⟨Reg.FL_RATE p v, 8, 0⟩
/-- Table 13.8, FL_KEY_k at +0x100 + 8 × k. -/
def Reg.FL_KEY (p k : Nat) : Nat := 0x200100 + 0x1000 * p + 8 * k
def Reg.FL_KEY_VALID (p k : Nat) : Fld := ⟨Reg.FL_KEY p k, 31, 31⟩
def Reg.FL_KEY_DELIVER (p k : Nat) : Fld := ⟨Reg.FL_KEY p k, 30, 30⟩
def Reg.FL_KEY_INSTANCE (p k : Nat) : Fld := ⟨Reg.FL_KEY p k, 21, 16⟩
def Reg.FL_KEY_KEY (p k : Nat) : Fld := ⟨Reg.FL_KEY p k, 15, 0⟩
/-- Table 13.8, FL_KEY_k_N at +0x104 + 8 × k. -/
def Reg.FL_KEY_N (p k : Nat) : Nat := 0x200104 + 0x1000 * p + 8 * k
def Reg.FL_KEY_N_KEY_N (p k : Nat) : Fld := ⟨Reg.FL_KEY_N p k, 31, 0⟩
/-- Table 13.9, FL_SRC_ID at 0x0021_0000. -/
def Reg.FL_SRC_ID : Nat := 0x210000
def Reg.FL_SRC_ID_SRC_N : Fld := ⟨Reg.FL_SRC_ID, 29, 16⟩
def Reg.FL_SRC_ID_SRC : Fld := ⟨Reg.FL_SRC_ID, 13, 0⟩
/-- Table 13.9, FL_EVENTS at 0x0021_0004. -/
def Reg.FL_EVENTS : Nat := 0x210004
def Reg.FL_EVENTS_LANE_LOST : Fld := ⟨Reg.FL_EVENTS, 4, 4⟩
def Reg.FL_EVENTS_LINK_DOWN : Fld := ⟨Reg.FL_EVENTS, 3, 3⟩
def Reg.FL_EVENTS_PARTIAL_DELIVERY : Fld := ⟨Reg.FL_EVENTS, 2, 2⟩
def Reg.FL_EVENTS_ROUTE_FAILED : Fld := ⟨Reg.FL_EVENTS, 1, 1⟩
def Reg.FL_EVENTS_PARTITION_SUSPECTED : Fld := ⟨Reg.FL_EVENTS, 0, 0⟩
/-- Table 13.9, FL_REPORT_DST at 0x0021_0008. -/
def Reg.FL_REPORT_DST : Nat := 0x210008
def Reg.FL_REPORT_DST_EN : Fld := ⟨Reg.FL_REPORT_DST, 31, 31⟩
def Reg.FL_REPORT_DST_PKG : Fld := ⟨Reg.FL_REPORT_DST, 13, 0⟩
/-- Table 13.9, FL_TIMEOUTS at 0x0021_0010. -/
def Reg.FL_TIMEOUTS : Nat := 0x210010
def Reg.FL_TIMEOUTS_COUNT : Fld := ⟨Reg.FL_TIMEOUTS, 31, 0⟩
/-- Table 13.9, FL_RESENDS at 0x0021_0014. -/
def Reg.FL_RESENDS : Nat := 0x210014
def Reg.FL_RESENDS_COUNT : Fld := ⟨Reg.FL_RESENDS, 31, 0⟩
/-- Table 13.9, FL_LATE_REPLIES at 0x0021_0018. -/
def Reg.FL_LATE_REPLIES : Nat := 0x210018
def Reg.FL_LATE_REPLIES_COUNT : Fld := ⟨Reg.FL_LATE_REPLIES, 31, 0⟩
/-- Table 13.9, FL_UNREACHABLE at 0x0021_001C. -/
def Reg.FL_UNREACHABLE : Nat := 0x21001C
def Reg.FL_UNREACHABLE_COUNT : Fld := ⟨Reg.FL_UNREACHABLE, 31, 0⟩
/-- Table 13.9, FL_DUP_SUPPRESSED at 0x0021_0020. -/
def Reg.FL_DUP_SUPPRESSED : Nat := 0x210020
def Reg.FL_DUP_SUPPRESSED_COUNT : Fld := ⟨Reg.FL_DUP_SUPPRESSED, 31, 0⟩
/-- Table 13.9, FL_DUP_FULL at 0x0021_0024. -/
def Reg.FL_DUP_FULL : Nat := 0x210024
def Reg.FL_DUP_FULL_COUNT : Fld := ⟨Reg.FL_DUP_FULL, 31, 0⟩
/-- Table 13.9, FL_STALE_EPOCH at 0x0021_0028. -/
def Reg.FL_STALE_EPOCH : Nat := 0x210028
def Reg.FL_STALE_EPOCH_COUNT : Fld := ⟨Reg.FL_STALE_EPOCH, 31, 0⟩
/-- Table 13.9, FL_MISROUTED at 0x0021_002C. -/
def Reg.FL_MISROUTED : Nat := 0x21002C
def Reg.FL_MISROUTED_COUNT : Fld := ⟨Reg.FL_MISROUTED, 31, 0⟩
/-- Table 13.9, FL_PARTIAL at 0x0021_0030. -/
def Reg.FL_PARTIAL : Nat := 0x210030
def Reg.FL_PARTIAL_COUNT : Fld := ⟨Reg.FL_PARTIAL, 31, 0⟩
/-- Table 13.9, FL_MC_REFUSED at 0x0021_0034. -/
def Reg.FL_MC_REFUSED : Nat := 0x210034
def Reg.FL_MC_REFUSED_COUNT : Fld := ⟨Reg.FL_MC_REFUSED, 31, 0⟩
/-- Table 13.9, FL_NACKS at 0x0021_0038. -/
def Reg.FL_NACKS : Nat := 0x210038
def Reg.FL_NACKS_COUNT : Fld := ⟨Reg.FL_NACKS, 31, 0⟩
/-- Table 13.9, FL_PARTIAL_LAST at 0x0021_0040. -/
def Reg.FL_PARTIAL_LAST : Nat := 0x210040
def Reg.FL_PARTIAL_LAST_PORT : Fld := ⟨Reg.FL_PARTIAL_LAST, 31, 28⟩
def Reg.FL_PARTIAL_LAST_GROUP : Fld := ⟨Reg.FL_PARTIAL_LAST, 27, 16⟩
def Reg.FL_PARTIAL_LAST_PKG : Fld := ⟨Reg.FL_PARTIAL_LAST, 13, 0⟩
/-- Table 13.9, FL_DIGEST_COUNT at 0x0021_0044. -/
def Reg.FL_DIGEST_COUNT : Nat := 0x210044
def Reg.FL_DIGEST_COUNT_COUNT : Fld := ⟨Reg.FL_DIGEST_COUNT, 14, 0⟩
/-- Table 13.9, FL_DIGEST_CRC at 0x0021_0048. -/
def Reg.FL_DIGEST_CRC : Nat := 0x210048
def Reg.FL_DIGEST_CRC_CRC : Fld := ⟨Reg.FL_DIGEST_CRC, 31, 0⟩
/-- Table 13.9, FL_DIGEST_SEQ at 0x0021_004C. -/
def Reg.FL_DIGEST_SEQ : Nat := 0x21004C
def Reg.FL_DIGEST_SEQ_SEQ : Fld := ⟨Reg.FL_DIGEST_SEQ, 31, 0⟩
/-- Table 13.9, FL_INST_KEY_i at 0x0021_0100 + 8 × i. -/
def Reg.FL_INST_KEY (i : Nat) : Nat := 0x210100 + 8 * i
def Reg.FL_INST_KEY_VALID (i : Nat) : Fld := ⟨Reg.FL_INST_KEY i, 31, 31⟩
def Reg.FL_INST_KEY_KEY (i : Nat) : Fld := ⟨Reg.FL_INST_KEY i, 15, 0⟩
/-- Table 13.9, FL_INST_KEY_i_N at 0x0021_0104 + 8 × i. -/
def Reg.FL_INST_KEY_N (i : Nat) : Nat := 0x210104 + 8 * i
def Reg.FL_INST_KEY_N_KEY_N (i : Nat) : Fld := ⟨Reg.FL_INST_KEY_N i, 31, 0⟩
/-- Table 13.9, FL_RT_SEL at 0x0021_0400. -/
def Reg.FL_RT_SEL : Nat := 0x210400
def Reg.FL_RT_SEL_DEST : Fld := ⟨Reg.FL_RT_SEL, 13, 0⟩
/-- Table 13.9, FL_RT_MODE at 0x0021_0404. -/
def Reg.FL_RT_MODE : Nat := 0x210404
def Reg.FL_RT_MODE_VALID : Fld := ⟨Reg.FL_RT_MODE, 31, 31⟩
def Reg.FL_RT_MODE_SPREAD : Fld := ⟨Reg.FL_RT_MODE, 30, 30⟩
def Reg.FL_RT_MODE_FAILED : Fld := ⟨Reg.FL_RT_MODE, 3, 0⟩
/-- Table 13.9, FL_RT_r_CTRL at 0x0021_0410 + 32 × r. -/
def Reg.FL_RT_CTRL (r : Nat) : Nat := 0x210410 + 32 * r
def Reg.FL_RT_CTRL_VALID (r : Nat) : Fld := ⟨Reg.FL_RT_CTRL r, 31, 31⟩
def Reg.FL_RT_CTRL_HOPS (r : Nat) : Fld := ⟨Reg.FL_RT_CTRL r, 20, 16⟩
/-- Table 13.9, FL_RT_r_LO at 0x0021_0414 + 32 × r. -/
def Reg.FL_RT_LO (r : Nat) : Nat := 0x210414 + 32 * r
def Reg.FL_RT_LO_ROUTE (r : Nat) : Fld := ⟨Reg.FL_RT_LO r, 31, 0⟩
/-- Table 13.9, FL_RT_r_HI at 0x0021_0418 + 32 × r. -/
def Reg.FL_RT_HI (r : Nat) : Nat := 0x210418 + 32 * r
def Reg.FL_RT_HI_ROUTE (r : Nat) : Fld := ⟨Reg.FL_RT_HI r, 31, 0⟩
/-- Table 13.9, FL_RT_r_LO_N at 0x0021_041C + 32 × r. -/
def Reg.FL_RT_LO_N (r : Nat) : Nat := 0x21041C + 32 * r
def Reg.FL_RT_LO_N_ROUTE_N (r : Nat) : Fld := ⟨Reg.FL_RT_LO_N r, 31, 0⟩
/-- Table 13.9, FL_RT_r_HI_N at 0x0021_0420 + 32 × r. -/
def Reg.FL_RT_HI_N (r : Nat) : Nat := 0x210420 + 32 * r
def Reg.FL_RT_HI_N_ROUTE_N (r : Nat) : Fld := ⟨Reg.FL_RT_HI_N r, 31, 0⟩
/-- Table 13.9, FL_RT_CMD at 0x0021_04C0. -/
def Reg.FL_RT_CMD : Nat := 0x2104C0
def Reg.FL_RT_CMD_CMD : Fld := ⟨Reg.FL_RT_CMD, 1, 0⟩
/-- Table 13.9, FL_RT_STATUS at 0x0021_04C4. -/
def Reg.FL_RT_STATUS : Nat := 0x2104C4
def Reg.FL_RT_STATUS_RESULT : Fld := ⟨Reg.FL_RT_STATUS, 1, 0⟩
/-- Table 13.9, FL_MC_SEL at 0x0021_0500. -/
def Reg.FL_MC_SEL : Nat := 0x210500
def Reg.FL_MC_SEL_GROUP : Fld := ⟨Reg.FL_MC_SEL, 11, 0⟩
/-- Table 13.9, FL_MC_ENTRY at 0x0021_0504. -/
def Reg.FL_MC_ENTRY : Nat := 0x210504
def Reg.FL_MC_ENTRY_VALID : Fld := ⟨Reg.FL_MC_ENTRY, 31, 31⟩
def Reg.FL_MC_ENTRY_LOCAL : Fld := ⟨Reg.FL_MC_ENTRY, 16, 16⟩
def Reg.FL_MC_ENTRY_PORTS : Fld := ⟨Reg.FL_MC_ENTRY, 15, 0⟩
/-- Table 13.9, FL_MC_ENTRY_N at 0x0021_0508. -/
def Reg.FL_MC_ENTRY_N : Nat := 0x210508
def Reg.FL_MC_ENTRY_N_ENTRY_N : Fld := ⟨Reg.FL_MC_ENTRY_N, 31, 0⟩
/-- Table 13.9, FL_MC_CMD at 0x0021_050C. -/
def Reg.FL_MC_CMD : Nat := 0x21050C
def Reg.FL_MC_CMD_CMD : Fld := ⟨Reg.FL_MC_CMD, 1, 0⟩
/-- Table 13.9, FL_MC_STATUS at 0x0021_0510. -/
def Reg.FL_MC_STATUS : Nat := 0x210510
def Reg.FL_MC_STATUS_RESULT : Fld := ⟨Reg.FL_MC_STATUS, 1, 0⟩
/-- Table 14.1, XCH_GATE_CTRL at +0x180. -/
def Reg.XCH_GATE_CTRL (i : Nat) : Nat := 0x80180 + 0x400 * i
def Reg.XCH_GATE_CTRL_EN (i : Nat) : Fld := ⟨Reg.XCH_GATE_CTRL i, 31, 31⟩
def Reg.XCH_GATE_CTRL_REFUSED (i : Nat) : Fld := ⟨Reg.XCH_GATE_CTRL i, 30, 30⟩
def Reg.XCH_GATE_CTRL_COUNTER (i : Nat) : Fld := ⟨Reg.XCH_GATE_CTRL i, 27, 16⟩
def Reg.XCH_GATE_CTRL_PER_STEP (i : Nat) : Fld := ⟨Reg.XCH_GATE_CTRL i, 15, 0⟩
/-- Table 14.1, XCH_GATE_BASE_LO at +0x184. -/
def Reg.XCH_GATE_BASE_LO (i : Nat) : Nat := 0x80184 + 0x400 * i
def Reg.XCH_GATE_BASE_LO_VALUE (i : Nat) : Fld := ⟨Reg.XCH_GATE_BASE_LO i, 31, 0⟩
/-- Table 14.1, XCH_GATE_BASE_HI at +0x188. -/
def Reg.XCH_GATE_BASE_HI (i : Nat) : Nat := 0x80188 + 0x400 * i
def Reg.XCH_GATE_BASE_HI_VALUE (i : Nat) : Fld := ⟨Reg.XCH_GATE_BASE_HI i, 15, 0⟩
/-- Table 14.1, XCH_GATE_STEPS at +0x18C. -/
def Reg.XCH_GATE_STEPS (i : Nat) : Nat := 0x8018C + 0x400 * i
def Reg.XCH_GATE_STEPS_COUNT (i : Nat) : Fld := ⟨Reg.XCH_GATE_STEPS i, 31, 0⟩
/-- Table 14.1, XCH_GATE_WAIT_US at +0x190. -/
def Reg.XCH_GATE_WAIT_US (i : Nat) : Nat := 0x80190 + 0x400 * i
def Reg.XCH_GATE_WAIT_US_COUNT (i : Nat) : Fld := ⟨Reg.XCH_GATE_WAIT_US i, 31, 0⟩
/-- Table 14.2, XCH_SLOT_s at at 0x0024_0000 + 4 × s, for slot s from 0 to 1,023. -/
def Reg.XCH_SLOT (s : Nat) : Nat := 0x240000 + 4 * s
def Reg.XCH_SLOT_EN (s : Nat) : Fld := ⟨Reg.XCH_SLOT s, 31, 31⟩
def Reg.XCH_SLOT_PREF (s : Nat) : Fld := ⟨Reg.XCH_SLOT s, 1, 0⟩
/-- Table 14.3, XCH_BC_CTRL at +0x1C0. -/
def Reg.XCH_BC_CTRL (i : Nat) : Nat := 0x801C0 + 0x400 * i
def Reg.XCH_BC_CTRL_GO (i : Nat) : Fld := ⟨Reg.XCH_BC_CTRL i, 31, 31⟩
def Reg.XCH_BC_CTRL_BUSY (i : Nat) : Fld := ⟨Reg.XCH_BC_CTRL i, 30, 30⟩
def Reg.XCH_BC_CTRL_ON_COMMIT (i : Nat) : Fld := ⟨Reg.XCH_BC_CTRL i, 29, 29⟩
def Reg.XCH_BC_CTRL_GROUP (i : Nat) : Fld := ⟨Reg.XCH_BC_CTRL i, 27, 16⟩
def Reg.XCH_BC_CTRL_SLOT (i : Nat) : Fld := ⟨Reg.XCH_BC_CTRL i, 9, 0⟩
/-- Table 14.3, XCH_BC_SRC_LO at +0x1C4. -/
def Reg.XCH_BC_SRC_LO (i : Nat) : Nat := 0x801C4 + 0x400 * i
def Reg.XCH_BC_SRC_LO_ADDR (i : Nat) : Fld := ⟨Reg.XCH_BC_SRC_LO i, 31, 6⟩
/-- Table 14.3, XCH_BC_SRC_HI at +0x1C8. -/
def Reg.XCH_BC_SRC_HI (i : Nat) : Nat := 0x801C8 + 0x400 * i
def Reg.XCH_BC_SRC_HI_ADDR (i : Nat) : Fld := ⟨Reg.XCH_BC_SRC_HI i, 7, 0⟩
/-- Table 14.3, XCH_BC_BYTES at +0x1CC. -/
def Reg.XCH_BC_BYTES (i : Nat) : Nat := 0x801CC + 0x400 * i
def Reg.XCH_BC_BYTES_BYTES (i : Nat) : Fld := ⟨Reg.XCH_BC_BYTES i, 31, 0⟩
/-- Table 14.3, XCH_BC_STATUS at +0x1D0. -/
def Reg.XCH_BC_STATUS (i : Nat) : Nat := 0x801D0 + 0x400 * i
def Reg.XCH_BC_STATUS_DONE (i : Nat) : Fld := ⟨Reg.XCH_BC_STATUS i, 31, 31⟩
def Reg.XCH_BC_STATUS_PARTIAL (i : Nat) : Fld := ⟨Reg.XCH_BC_STATUS i, 30, 30⟩
def Reg.XCH_BC_STATUS_REFUSED (i : Nat) : Fld := ⟨Reg.XCH_BC_STATUS i, 29, 29⟩
def Reg.XCH_BC_STATUS_PORT (i : Nat) : Fld := ⟨Reg.XCH_BC_STATUS i, 28, 25⟩
def Reg.XCH_BC_STATUS_PKG (i : Nat) : Fld := ⟨Reg.XCH_BC_STATUS i, 13, 0⟩
/-- Table 14.4, XCH_MCC_g at at 0x0024_1000 + 4 × g, for group g from 0 to 4,095. -/
def Reg.XCH_MCC (g : Nat) : Nat := 0x241000 + 4 * g
def Reg.XCH_MCC_EN (g : Nat) : Fld := ⟨Reg.XCH_MCC g, 31, 31⟩
def Reg.XCH_MCC_COUNTER (g : Nat) : Fld := ⟨Reg.XCH_MCC g, 11, 0⟩
/-- Table 14.6, STAT_CTRL at +0x200. -/
def Reg.STAT_CTRL (i : Nat) : Nat := 0x80200 + 0x400 * i
def Reg.STAT_CTRL_EN (i : Nat) : Fld := ⟨Reg.STAT_CTRL i, 31, 31⟩
def Reg.STAT_CTRL_CLEAR (i : Nat) : Fld := ⟨Reg.STAT_CTRL i, 30, 30⟩
def Reg.STAT_CTRL_REFUSED (i : Nat) : Fld := ⟨Reg.STAT_CTRL i, 29, 29⟩
def Reg.STAT_CTRL_SLOT (i : Nat) : Fld := ⟨Reg.STAT_CTRL i, 9, 0⟩
/-- Table 14.6, STAT_SHAPE at +0x204. -/
def Reg.STAT_SHAPE (i : Nat) : Nat := 0x80204 + 0x400 * i
def Reg.STAT_SHAPE_SLICES (i : Nat) : Fld := ⟨Reg.STAT_SHAPE i, 31, 16⟩
def Reg.STAT_SHAPE_PIECES (i : Nat) : Fld := ⟨Reg.STAT_SHAPE i, 15, 0⟩
/-- Table 14.6, STAT_BASE_LO at +0x208. -/
def Reg.STAT_BASE_LO (i : Nat) : Nat := 0x80208 + 0x400 * i
def Reg.STAT_BASE_LO_ADDR (i : Nat) : Fld := ⟨Reg.STAT_BASE_LO i, 31, 4⟩
/-- Table 14.6, STAT_BASE_HI at +0x20C. -/
def Reg.STAT_BASE_HI (i : Nat) : Nat := 0x8020C + 0x400 * i
def Reg.STAT_BASE_HI_ADDR (i : Nat) : Fld := ⟨Reg.STAT_BASE_HI i, 7, 0⟩
/-- Table 14.6, STAT_STEPS at +0x210. -/
def Reg.STAT_STEPS (i : Nat) : Nat := 0x80210 + 0x400 * i
def Reg.STAT_STEPS_COUNT (i : Nat) : Fld := ⟨Reg.STAT_STEPS i, 31, 0⟩
/-- Table 14.6, STAT_BAD at +0x214. -/
def Reg.STAT_BAD (i : Nat) : Nat := 0x80214 + 0x400 * i
def Reg.STAT_BAD_COUNT (i : Nat) : Fld := ⟨Reg.STAT_BAD i, 31, 0⟩
/-- Table 14.6, STAT_PIECE_SQ_LO at +0x218. -/
def Reg.STAT_PIECE_SQ_LO (i : Nat) : Nat := 0x80218 + 0x400 * i
def Reg.STAT_PIECE_SQ_LO_VALUE (i : Nat) : Fld := ⟨Reg.STAT_PIECE_SQ_LO i, 31, 0⟩
/-- Table 14.6, STAT_PIECE_SQ_HI at +0x21C. -/
def Reg.STAT_PIECE_SQ_HI (i : Nat) : Nat := 0x8021C + 0x400 * i
def Reg.STAT_PIECE_SQ_HI_VALUE (i : Nat) : Fld := ⟨Reg.STAT_PIECE_SQ_HI i, 31, 0⟩
/-- Table 14.6, STAT_TOTAL_SQ_LO at +0x220. -/
def Reg.STAT_TOTAL_SQ_LO (i : Nat) : Nat := 0x80220 + 0x400 * i
def Reg.STAT_TOTAL_SQ_LO_VALUE (i : Nat) : Fld := ⟨Reg.STAT_TOTAL_SQ_LO i, 31, 0⟩
/-- Table 14.6, STAT_TOTAL_SQ_HI at +0x224. -/
def Reg.STAT_TOTAL_SQ_HI (i : Nat) : Nat := 0x80224 + 0x400 * i
def Reg.STAT_TOTAL_SQ_HI_VALUE (i : Nat) : Fld := ⟨Reg.STAT_TOTAL_SQ_HI i, 31, 0⟩
/-- Table 15.7, STF_CTRL at +0x240. -/
def Reg.STF_CTRL (i : Nat) : Nat := 0x80240 + 0x400 * i
def Reg.STF_CTRL_EN (i : Nat) : Fld := ⟨Reg.STF_CTRL i, 31, 31⟩
def Reg.STF_CTRL_REFUSED (i : Nat) : Fld := ⟨Reg.STF_CTRL i, 30, 30⟩
def Reg.STF_CTRL_LOG2 (i : Nat) : Fld := ⟨Reg.STF_CTRL i, 29, 26⟩
def Reg.STF_CTRL_REQ (i : Nat) : Fld := ⟨Reg.STF_CTRL i, 23, 12⟩
def Reg.STF_CTRL_DONE (i : Nat) : Fld := ⟨Reg.STF_CTRL i, 11, 0⟩
/-- Table 15.7, STF_BASE_LO at +0x244. -/
def Reg.STF_BASE_LO (i : Nat) : Nat := 0x80244 + 0x400 * i
def Reg.STF_BASE_LO_ADDR (i : Nat) : Fld := ⟨Reg.STF_BASE_LO i, 31, 12⟩
/-- Table 15.7, STF_BASE_HI at +0x248. -/
def Reg.STF_BASE_HI (i : Nat) : Nat := 0x80248 + 0x400 * i
def Reg.STF_BASE_HI_ADDR (i : Nat) : Fld := ⟨Reg.STF_BASE_HI i, 7, 0⟩
/-- Table 15.7, STF_TAKEN at +0x24C. -/
def Reg.STF_TAKEN (i : Nat) : Nat := 0x8024C + 0x400 * i
def Reg.STF_TAKEN_COUNT (i : Nat) : Fld := ⟨Reg.STF_TAKEN i, 31, 0⟩
/-- Table 15.7, STF_FAILED at +0x250. -/
def Reg.STF_FAILED (i : Nat) : Nat := 0x80250 + 0x400 * i
def Reg.STF_FAILED_COUNT (i : Nat) : Fld := ⟨Reg.STF_FAILED i, 31, 0⟩
/-- Table 15.10, DRAM_s_STATUS at 0x000B_0100 + 0x20 × s. -/
def Reg.DRAM_STATUS (s : Nat) : Nat := 0xB0100 + 0x20 * s
def Reg.DRAM_STATUS_UP (s : Nat) : Fld := ⟨Reg.DRAM_STATUS s, 31, 31⟩
def Reg.DRAM_STATUS_SPARE_PC (s : Nat) : Fld := ⟨Reg.DRAM_STATUS s, 30, 30⟩
def Reg.DRAM_STATUS_PC_FOR (s : Nat) : Fld := ⟨Reg.DRAM_STATUS s, 29, 25⟩
def Reg.DRAM_STATUS_MIGRATING (s : Nat) : Fld := ⟨Reg.DRAM_STATUS s, 24, 24⟩
def Reg.DRAM_STATUS_RETIRED (s : Nat) : Fld := ⟨Reg.DRAM_STATUS s, 14, 0⟩
/-- Table 15.10, DRAM_s_CORR at +0x04. -/
def Reg.DRAM_CORR (s : Nat) : Nat := 0xB0104 + 0x20 * s
def Reg.DRAM_CORR_COUNT (s : Nat) : Fld := ⟨Reg.DRAM_CORR s, 31, 0⟩
/-- Table 15.10, DRAM_s_UNCORR at +0x08. -/
def Reg.DRAM_UNCORR (s : Nat) : Nat := 0xB0108 + 0x20 * s
def Reg.DRAM_UNCORR_COUNT (s : Nat) : Fld := ⟨Reg.DRAM_UNCORR s, 31, 0⟩
/-- Table 15.10, DRAM_s_ROWS_SPARED at +0x0C. -/
def Reg.DRAM_ROWS_SPARED (s : Nat) : Nat := 0xB010C + 0x20 * s
def Reg.DRAM_ROWS_SPARED_COUNT (s : Nat) : Fld := ⟨Reg.DRAM_ROWS_SPARED s, 31, 0⟩
/-- Table 15.10, DRAM_s_LINK_RETRY at +0x10. -/
def Reg.DRAM_LINK_RETRY (s : Nat) : Nat := 0xB0110 + 0x20 * s
def Reg.DRAM_LINK_RETRY_COUNT (s : Nat) : Fld := ⟨Reg.DRAM_LINK_RETRY s, 31, 0⟩
/-- Table 15.10, DRAM_LOST at 0x000B_0200. -/
def Reg.DRAM_LOST : Nat := 0xB0200
def Reg.DRAM_LOST_VALID : Fld := ⟨Reg.DRAM_LOST, 31, 31⟩
def Reg.DRAM_LOST_INSTANCE : Fld := ⟨Reg.DRAM_LOST, 5, 0⟩
/-- Table 15.10, DRAM_LOST_ADDR_LO at 0x000B_0204. -/
def Reg.DRAM_LOST_ADDR_LO : Nat := 0xB0204
def Reg.DRAM_LOST_ADDR_LO_ADDR : Fld := ⟨Reg.DRAM_LOST_ADDR_LO, 31, 0⟩
/-- Table 15.10, DRAM_LOST_ADDR_HI at 0x000B_0208. -/
def Reg.DRAM_LOST_ADDR_HI : Nat := 0xB0208
def Reg.DRAM_LOST_ADDR_HI_ADDR : Fld := ⟨Reg.DRAM_LOST_ADDR_HI, 7, 0⟩
/-- Table 15.10, ZERO_STATUS at 0x000B_0210. -/
def Reg.ZERO_STATUS : Nat := 0xB0210
def Reg.ZERO_STATUS_BUSY : Fld := ⟨Reg.ZERO_STATUS, 31, 31⟩
def Reg.ZERO_STATUS_PAGES_LEFT : Fld := ⟨Reg.ZERO_STATUS, 17, 0⟩
/-- Table 15.10, ST_STATUS at 0x000B_1000. -/
def Reg.ST_STATUS : Nat := 0xB1000
def Reg.ST_STATUS_READY : Fld := ⟨Reg.ST_STATUS, 31, 31⟩
def Reg.ST_STATUS_WRITING : Fld := ⟨Reg.ST_STATUS, 30, 30⟩
/-- Table 15.10, ST_FREE_BLOCKS at 0x000B_1004. -/
def Reg.ST_FREE_BLOCKS : Nat := 0xB1004
def Reg.ST_FREE_BLOCKS_COUNT : Fld := ⟨Reg.ST_FREE_BLOCKS, 17, 0⟩
/-- Table 15.10, ST_BAD_BLOCKS at 0x000B_1008. -/
def Reg.ST_BAD_BLOCKS : Nat := 0xB1008
def Reg.ST_BAD_BLOCKS_COUNT : Fld := ⟨Reg.ST_BAD_BLOCKS, 17, 0⟩
/-- Table 15.10, ST_HALF_ERASED at 0x000B_100C. -/
def Reg.ST_HALF_ERASED : Nat := 0xB100C
def Reg.ST_HALF_ERASED_COUNT : Fld := ⟨Reg.ST_HALF_ERASED, 31, 0⟩
/-- Table 15.10, ST_CORR at 0x000B_1010. -/
def Reg.ST_CORR : Nat := 0xB1010
def Reg.ST_CORR_COUNT : Fld := ⟨Reg.ST_CORR, 31, 0⟩
/-- Table 15.10, ST_UNCORR at 0x000B_1014. -/
def Reg.ST_UNCORR : Nat := 0xB1014
def Reg.ST_UNCORR_COUNT : Fld := ⟨Reg.ST_UNCORR, 31, 0⟩
/-- Table 15.10, ST_REFRESHED at 0x000B_1018. -/
def Reg.ST_REFRESHED : Nat := 0xB1018
def Reg.ST_REFRESHED_COUNT : Fld := ⟨Reg.ST_REFRESHED, 31, 0⟩
/-- Table 15.10, ST_WEAR at 0x000B_101C. -/
def Reg.ST_WEAR : Nat := 0xB101C
def Reg.ST_WEAR_PE_MEAN : Fld := ⟨Reg.ST_WEAR, 31, 16⟩
def Reg.ST_WEAR_PE_MAX : Fld := ⟨Reg.ST_WEAR, 15, 0⟩
/-- Table 15.10, ST_OVERDUE at 0x000B_1020. -/
def Reg.ST_OVERDUE : Nat := 0xB1020
def Reg.ST_OVERDUE_COUNT : Fld := ⟨Reg.ST_OVERDUE, 31, 0⟩
/-- Table 15.10, STW_CTRL at 0x000B_1100. -/
def Reg.STW_CTRL : Nat := 0xB1100
def Reg.STW_CTRL_GO : Fld := ⟨Reg.STW_CTRL, 31, 31⟩
def Reg.STW_CTRL_BUSY : Fld := ⟨Reg.STW_CTRL, 30, 30⟩
def Reg.STW_CTRL_RESULT : Fld := ⟨Reg.STW_CTRL, 29, 27⟩
def Reg.STW_CTRL_DONE : Fld := ⟨Reg.STW_CTRL, 26, 26⟩
def Reg.STW_CTRL_OWNER : Fld := ⟨Reg.STW_CTRL, 25, 20⟩
def Reg.STW_CTRL_ENTRY : Fld := ⟨Reg.STW_CTRL, 11, 0⟩
/-- Table 15.10, STW_SRC_LO at 0x000B_1104. -/
def Reg.STW_SRC_LO : Nat := 0xB1104
def Reg.STW_SRC_LO_ADDR : Fld := ⟨Reg.STW_SRC_LO, 31, 6⟩
/-- Table 15.10, STW_SRC_HI at 0x000B_1108. -/
def Reg.STW_SRC_HI : Nat := 0xB1108
def Reg.STW_SRC_HI_ADDR : Fld := ⟨Reg.STW_SRC_HI, 7, 0⟩
/-- Table 15.10, LIB_SEL at 0x000B_1110. -/
def Reg.LIB_SEL : Nat := 0xB1110
def Reg.LIB_SEL_ENTRY : Fld := ⟨Reg.LIB_SEL, 11, 0⟩
/-- Table 15.10, LIB_INFO at 0x000B_1114. -/
def Reg.LIB_INFO : Nat := 0xB1114
def Reg.LIB_INFO_STATE : Fld := ⟨Reg.LIB_INFO, 31, 30⟩
def Reg.LIB_INFO_KIND : Fld := ⟨Reg.LIB_INFO, 29, 28⟩
def Reg.LIB_INFO_SHARED : Fld := ⟨Reg.LIB_INFO, 27, 27⟩
def Reg.LIB_INFO_OWNER : Fld := ⟨Reg.LIB_INFO, 26, 21⟩
def Reg.LIB_INFO_KEY_SLOT : Fld := ⟨Reg.LIB_INFO, 20, 18⟩
def Reg.LIB_INFO_MODEL_ID : Fld := ⟨Reg.LIB_INFO, 15, 0⟩
/-- Table 15.10, LIB_VERSION at 0x000B_1118. -/
def Reg.LIB_VERSION : Nat := 0xB1118
def Reg.LIB_VERSION_VERSION : Fld := ⟨Reg.LIB_VERSION, 31, 0⟩
/-- Table 15.10, LIB_CHUNKS at 0x000B_111C. -/
def Reg.LIB_CHUNKS : Nat := 0xB111C
def Reg.LIB_CHUNKS_CHUNKS : Fld := ⟨Reg.LIB_CHUNKS, 20, 0⟩
/-- Table 15.10, LIB_COUNT at 0x000B_1120. -/
def Reg.LIB_COUNT : Nat := 0xB1120
def Reg.LIB_COUNT_COUNT : Fld := ⟨Reg.LIB_COUNT, 12, 0⟩
/-- Table 15.10, LIB_DELETE at 0x000B_1128. -/
def Reg.LIB_DELETE : Nat := 0xB1128
def Reg.LIB_DELETE_GO : Fld := ⟨Reg.LIB_DELETE, 31, 31⟩
def Reg.LIB_DELETE_REFUSED : Fld := ⟨Reg.LIB_DELETE, 30, 30⟩
def Reg.LIB_DELETE_ENTRY : Fld := ⟨Reg.LIB_DELETE, 11, 0⟩
/-- Table 15.10, KEY_SEL at 0x000B_1200. -/
def Reg.KEY_SEL : Nat := 0xB1200
def Reg.KEY_SEL_SLOT : Fld := ⟨Reg.KEY_SEL, 2, 0⟩
/-- Table 15.10, KEY_CTRL at 0x000B_1204. -/
def Reg.KEY_CTRL : Nat := 0xB1204
def Reg.KEY_CTRL_VALID : Fld := ⟨Reg.KEY_CTRL, 31, 31⟩
def Reg.KEY_CTRL_LOCK : Fld := ⟨Reg.KEY_CTRL, 30, 30⟩
def Reg.KEY_CTRL_COMMIT : Fld := ⟨Reg.KEY_CTRL, 29, 29⟩
def Reg.KEY_CTRL_REFUSED : Fld := ⟨Reg.KEY_CTRL, 28, 28⟩
/-- Table 15.10, KEY_DATA_w at 0x000B_1280 + 4 × w. -/
def Reg.KEY_DATA (w : Nat) : Nat := 0xB1280 + 4 * w
def Reg.KEY_DATA_DATA (w : Nat) : Fld := ⟨Reg.KEY_DATA w, 31, 0⟩
/-- Table 16.7, CE_STATUS at 0x000A_0000. -/
def Reg.CE_STATUS : Nat := 0xA0000
def Reg.CE_STATUS_LOAD_ERR : Fld := ⟨Reg.CE_STATUS, 31, 31⟩
def Reg.CE_STATUS_BUSY : Fld := ⟨Reg.CE_STATUS, 30, 30⟩
def Reg.CE_STATUS_LAST_DETAIL : Fld := ⟨Reg.CE_STATUS, 27, 20⟩
def Reg.CE_STATUS_LAST_SLOT : Fld := ⟨Reg.CE_STATUS, 19, 10⟩
/-- Table 16.7, CE_GROUP at 0x000A_0004. -/
def Reg.CE_GROUP : Nat := 0xA0004
def Reg.CE_GROUP_GROUP : Fld := ⟨Reg.CE_GROUP, 4, 0⟩
/-- Table 16.7, CE_LOADS at 0x000A_0008. -/
def Reg.CE_LOADS : Nat := 0xA0008
def Reg.CE_LOADS_COUNT : Fld := ⟨Reg.CE_LOADS, 31, 0⟩
/-- Table 16.7, CE_FAILS at 0x000A_000C. -/
def Reg.CE_FAILS : Nat := 0xA000C
def Reg.CE_FAILS_COUNT : Fld := ⟨Reg.CE_FAILS, 31, 0⟩
/-- Table 16.7, CE_FRAMES_REFUSED at 0x000A_0010. -/
def Reg.CE_FRAMES_REFUSED : Nat := 0xA0010
def Reg.CE_FRAMES_REFUSED_COUNT : Fld := ⟨Reg.CE_FRAMES_REFUSED, 31, 0⟩
/-- Table 16.7, CE_PLANE_BYTES_LO at 0x000A_0018. -/
def Reg.CE_PLANE_BYTES_LO : Nat := 0xA0018
def Reg.CE_PLANE_BYTES_LO_COUNT : Fld := ⟨Reg.CE_PLANE_BYTES_LO, 31, 0⟩
/-- Table 16.7, CE_PLANE_BYTES_HI at 0x000A_001C. -/
def Reg.CE_PLANE_BYTES_HI : Nat := 0xA001C
def Reg.CE_PLANE_BYTES_HI_COUNT : Fld := ⟨Reg.CE_PLANE_BYTES_HI, 31, 0⟩
/-- Table 16.7, CE_SCRUB_CORR at 0x000A_0020. -/
def Reg.CE_SCRUB_CORR : Nat := 0xA0020
def Reg.CE_SCRUB_CORR_COUNT : Fld := ⟨Reg.CE_SCRUB_CORR, 31, 0⟩
/-- Table 16.7, CE_SCRUB_REPAIR at 0x000A_0024. -/
def Reg.CE_SCRUB_REPAIR : Nat := 0xA0024
def Reg.CE_SCRUB_REPAIR_COUNT : Fld := ⟨Reg.CE_SCRUB_REPAIR, 31, 0⟩
/-- Table 16.7, CE_SCRUB_FAULT at 0x000A_0028. -/
def Reg.CE_SCRUB_FAULT : Nat := 0xA0028
def Reg.CE_SCRUB_FAULT_COUNT : Fld := ⟨Reg.CE_SCRUB_FAULT, 31, 0⟩
/-- Table 16.7, CE_MC_TX at 0x000A_0100. -/
def Reg.CE_MC_TX : Nat := 0xA0100
def Reg.CE_MC_TX_EN : Fld := ⟨Reg.CE_MC_TX, 31, 31⟩
def Reg.CE_MC_TX_PARTIAL : Fld := ⟨Reg.CE_MC_TX, 30, 30⟩
def Reg.CE_MC_TX_GROUP : Fld := ⟨Reg.CE_MC_TX, 27, 16⟩
def Reg.CE_MC_TX_SLOT : Fld := ⟨Reg.CE_MC_TX, 9, 0⟩
/-- Table 16.7, CE_MC_RX_CTRL at 0x000A_0200. -/
def Reg.CE_MC_RX_CTRL : Nat := 0xA0200
def Reg.CE_MC_RX_CTRL_EN : Fld := ⟨Reg.CE_MC_RX_CTRL, 31, 31⟩
def Reg.CE_MC_RX_CTRL_PRELOAD : Fld := ⟨Reg.CE_MC_RX_CTRL, 30, 30⟩
def Reg.CE_MC_RX_CTRL_OWNER : Fld := ⟨Reg.CE_MC_RX_CTRL, 29, 24⟩
def Reg.CE_MC_RX_CTRL_GROUP : Fld := ⟨Reg.CE_MC_RX_CTRL, 23, 12⟩
def Reg.CE_MC_RX_CTRL_SLOT : Fld := ⟨Reg.CE_MC_RX_CTRL, 9, 0⟩
/-- Table 16.7, CE_MC_RX_ADDR_LO at 0x000A_0204. -/
def Reg.CE_MC_RX_ADDR_LO : Nat := 0xA0204
def Reg.CE_MC_RX_ADDR_LO_ADDR : Fld := ⟨Reg.CE_MC_RX_ADDR_LO, 31, 12⟩
/-- Table 16.7, CE_MC_RX_ADDR_HI at 0x000A_0208. -/
def Reg.CE_MC_RX_ADDR_HI : Nat := 0xA0208
def Reg.CE_MC_RX_ADDR_HI_ADDR : Fld := ⟨Reg.CE_MC_RX_ADDR_HI, 7, 0⟩
/-- Table 16.7, CE_MC_RX_BASE_LO at 0x000A_020C. -/
def Reg.CE_MC_RX_BASE_LO : Nat := 0xA020C
def Reg.CE_MC_RX_BASE_LO_ADDR : Fld := ⟨Reg.CE_MC_RX_BASE_LO, 31, 12⟩
/-- Table 16.7, CE_MC_RX_BASE_HI at 0x000A_0210. -/
def Reg.CE_MC_RX_BASE_HI : Nat := 0xA0210
def Reg.CE_MC_RX_BASE_HI_ADDR : Fld := ⟨Reg.CE_MC_RX_BASE_HI, 7, 0⟩
/-- Table 16.7, CE_MC_RX_CNT at 0x000A_0214. -/
def Reg.CE_MC_RX_CNT : Nat := 0xA0214
def Reg.CE_MC_RX_CNT_EN : Fld := ⟨Reg.CE_MC_RX_CNT, 31, 31⟩
def Reg.CE_MC_RX_CNT_COUNTER : Fld := ⟨Reg.CE_MC_RX_CNT, 11, 0⟩
/-- Table 16.7, CE_MC_RX_STATUS at 0x000A_0218. -/
def Reg.CE_MC_RX_STATUS : Nat := 0xA0218
def Reg.CE_MC_RX_STATUS_DONE : Fld := ⟨Reg.CE_MC_RX_STATUS, 31, 31⟩
def Reg.CE_MC_RX_STATUS_RESULT : Fld := ⟨Reg.CE_MC_RX_STATUS, 30, 28⟩
def Reg.CE_MC_RX_STATUS_DETAIL : Fld := ⟨Reg.CE_MC_RX_STATUS, 27, 20⟩
/-- Table 16.7, CE_MC_RX_BYTES at 0x000A_021C. -/
def Reg.CE_MC_RX_BYTES : Nat := 0xA021C
def Reg.CE_MC_RX_BYTES_COUNT : Fld := ⟨Reg.CE_MC_RX_BYTES, 31, 0⟩
/-- Table 16.7, CE_AUTO_n_CTRL at 0x000A_0300 + 16 × n. -/
def Reg.CE_AUTO_CTRL (n : Nat) : Nat := 0xA0300 + 0x10 * n
def Reg.CE_AUTO_CTRL_VALID (n : Nat) : Fld := ⟨Reg.CE_AUTO_CTRL n, 31, 31⟩
def Reg.CE_AUTO_CTRL_PRELOAD (n : Nat) : Fld := ⟨Reg.CE_AUTO_CTRL n, 30, 30⟩
def Reg.CE_AUTO_CTRL_OWNER (n : Nat) : Fld := ⟨Reg.CE_AUTO_CTRL n, 29, 24⟩
def Reg.CE_AUTO_CTRL_ENTRY (n : Nat) : Fld := ⟨Reg.CE_AUTO_CTRL n, 23, 12⟩
def Reg.CE_AUTO_CTRL_SLOT (n : Nat) : Fld := ⟨Reg.CE_AUTO_CTRL n, 9, 0⟩
/-- Table 16.7, CE_AUTO_n_BASE_LO at +0x4. -/
def Reg.CE_AUTO_BASE_LO (n : Nat) : Nat := 0xA0304 + 0x10 * n
def Reg.CE_AUTO_BASE_LO_ADDR (n : Nat) : Fld := ⟨Reg.CE_AUTO_BASE_LO n, 31, 12⟩
/-- Table 16.7, CE_AUTO_n_BASE_HI at +0x8. -/
def Reg.CE_AUTO_BASE_HI (n : Nat) : Nat := 0xA0308 + 0x10 * n
def Reg.CE_AUTO_BASE_HI_ADDR (n : Nat) : Fld := ⟨Reg.CE_AUTO_BASE_HI n, 7, 0⟩
/-- Table 16.7, CE_AUTO_n_STATUS at +0xC. -/
def Reg.CE_AUTO_STATUS (n : Nat) : Nat := 0xA030C + 0x10 * n
def Reg.CE_AUTO_STATUS_DONE (n : Nat) : Fld := ⟨Reg.CE_AUTO_STATUS n, 31, 31⟩
def Reg.CE_AUTO_STATUS_STATUS (n : Nat) : Fld := ⟨Reg.CE_AUTO_STATUS n, 30, 28⟩
def Reg.CE_AUTO_STATUS_DETAIL (n : Nat) : Fld := ⟨Reg.CE_AUTO_STATUS n, 27, 20⟩
/-- Table 16.7, CE_AUTO_COMMIT at 0x000A_0380. -/
def Reg.CE_AUTO_COMMIT : Nat := 0xA0380
def Reg.CE_AUTO_COMMIT_GO : Fld := ⟨Reg.CE_AUTO_COMMIT, 31, 31⟩
def Reg.CE_AUTO_COMMIT_REFUSED : Fld := ⟨Reg.CE_AUTO_COMMIT, 30, 30⟩
/-- Table 17.7, RM_g_ENTRY_j at +0x4 × j. -/
def Reg.RM_ENTRY (g j : Nat) : Nat := 0x34000 + 0x80 * g + 4 * j
def Reg.RM_ENTRY_POS (g j : Nat) : Fld := ⟨Reg.RM_ENTRY g j, 31, 27⟩
def Reg.RM_ENTRY_FOLD (g j : Nat) : Fld := ⟨Reg.RM_ENTRY g j, 26, 26⟩
def Reg.RM_ENTRY_POS_N (g j : Nat) : Fld := ⟨Reg.RM_ENTRY g j, 15, 11⟩
def Reg.RM_ENTRY_FOLD_N (g j : Nat) : Fld := ⟨Reg.RM_ENTRY g j, 10, 10⟩
/-- Table 17.7, RM_g_STATUS at +0x40. -/
def Reg.RM_STATUS (g : Nat) : Nat := 0x34040 + 0x80 * g
def Reg.RM_STATUS_WORKING (g : Nat) : Fld := ⟨Reg.RM_STATUS g, 31, 14⟩
def Reg.RM_STATUS_FOLDED (g : Nat) : Fld := ⟨Reg.RM_STATUS g, 13, 6⟩
def Reg.RM_STATUS_EXHAUSTED (g : Nat) : Fld := ⟨Reg.RM_STATUS g, 5, 5⟩
def Reg.RM_STATUS_SPARES (g : Nat) : Fld := ⟨Reg.RM_STATUS g, 4, 0⟩
/-- Table 17.7, RM_g_FENCES at +0x44. -/
def Reg.RM_FENCES (g : Nat) : Nat := 0x34044 + 0x80 * g
def Reg.RM_FENCES_COUNT (g : Nat) : Fld := ⟨Reg.RM_FENCES g, 31, 0⟩
/-- Table 17.7, RM_g_SLOW_FOLD at +0x48. -/
def Reg.RM_SLOW_FOLD (g : Nat) : Nat := 0x34048 + 0x80 * g
def Reg.RM_SLOW_FOLD_CYCLES (g : Nat) : Fld := ⟨Reg.RM_SLOW_FOLD g, 31, 0⟩
/-- Table 17.7, FC_g_STATUS at +0x4C. -/
def Reg.FC_STATUS (g : Nat) : Nat := 0x3404C + 0x80 * g
def Reg.FC_STATUS_OPEN (g : Nat) : Fld := ⟨Reg.FC_STATUS g, 31, 26⟩
def Reg.FC_STATUS_QUEUED (g : Nat) : Fld := ⟨Reg.FC_STATUS g, 25, 15⟩
/-- Table 17.7, FC_g_COALESCED at +0x50. -/
def Reg.FC_COALESCED (g : Nat) : Nat := 0x34050 + 0x80 * g
def Reg.FC_COALESCED_COUNT (g : Nat) : Fld := ⟨Reg.FC_COALESCED g, 31, 0⟩
/-- Table 17.7, IC_SEL at 0x0003_5800. -/
def Reg.IC_SEL : Nat := 0x35800
def Reg.IC_SEL_COLLECTOR : Fld := ⟨Reg.IC_SEL, 10, 5⟩
def Reg.IC_SEL_SLOT : Fld := ⟨Reg.IC_SEL, 4, 0⟩
/-- Table 17.7, IC_INFO at 0x0003_5804. -/
def Reg.IC_INFO : Nat := 0x35804
def Reg.IC_INFO_OPEN : Fld := ⟨Reg.IC_INFO, 31, 31⟩
def Reg.IC_INFO_STATE : Fld := ⟨Reg.IC_INFO, 30, 28⟩
def Reg.IC_INFO_ACTION : Fld := ⟨Reg.IC_INFO, 27, 24⟩
def Reg.IC_INFO_UNIT : Fld := ⟨Reg.IC_INFO, 23, 16⟩
def Reg.IC_INFO_SUSPECT : Fld := ⟨Reg.IC_INFO, 15, 0⟩
/-- Table 17.7, IC_DETAIL at 0x0003_5808. -/
def Reg.IC_DETAIL : Nat := 0x35808
def Reg.IC_DETAIL_DETAIL : Fld := ⟨Reg.IC_DETAIL, 23, 0⟩
/-- Table 17.7, IC_REPORTS at 0x0003_580C. -/
def Reg.IC_REPORTS : Nat := 0x3580C
def Reg.IC_REPORTS_COUNT : Fld := ⟨Reg.IC_REPORTS, 31, 0⟩
/-- Table 17.9, FH_SUMMARY at 0x0003_0000. -/
def Reg.FH_SUMMARY : Nat := 0x30000
def Reg.FH_SUMMARY_FAILED : Fld := ⟨Reg.FH_SUMMARY, 31, 31⟩
def Reg.FH_SUMMARY_DEGRADED : Fld := ⟨Reg.FH_SUMMARY, 30, 30⟩
def Reg.FH_SUMMARY_WORKING : Fld := ⟨Reg.FH_SUMMARY, 29, 20⟩
def Reg.FH_SUMMARY_EXHAUSTED : Fld := ⟨Reg.FH_SUMMARY, 19, 14⟩
def Reg.FH_SUMMARY_FOLDED : Fld := ⟨Reg.FH_SUMMARY, 13, 5⟩
def Reg.FH_SUMMARY_CAUSE : Fld := ⟨Reg.FH_SUMMARY, 4, 0⟩
/-- Table 17.9, FH_REPLAYS at 0x0003_0004. -/
def Reg.FH_REPLAYS : Nat := 0x30004
def Reg.FH_REPLAYS_COUNT : Fld := ⟨Reg.FH_REPLAYS, 31, 0⟩
/-- Table 17.9, FH_INCIDENTS at 0x0003_0008. -/
def Reg.FH_INCIDENTS : Nat := 0x30008
def Reg.FH_INCIDENTS_COUNT : Fld := ⟨Reg.FH_INCIDENTS, 31, 0⟩
/-- Table 17.9, FH_COALESCED at 0x0003_000C. -/
def Reg.FH_COALESCED : Nat := 0x3000C
def Reg.FH_COALESCED_COUNT : Fld := ⟨Reg.FH_COALESCED, 31, 0⟩
/-- Table 17.9, FH_CPL_MISMATCH at 0x0003_0010. -/
def Reg.FH_CPL_MISMATCH : Nat := 0x30010
def Reg.FH_CPL_MISMATCH_COUNT : Fld := ⟨Reg.FH_CPL_MISMATCH, 31, 0⟩
/-- Table 17.9, FH_LOST at 0x0003_0014. -/
def Reg.FH_LOST : Nat := 0x30014
def Reg.FH_LOST_COUNT : Fld := ⟨Reg.FH_LOST, 31, 0⟩
/-- Table 17.9, FH_EVT_HEAD at 0x0003_0018. -/
def Reg.FH_EVT_HEAD : Nat := 0x30018
def Reg.FH_EVT_HEAD_COUNT : Fld := ⟨Reg.FH_EVT_HEAD, 31, 0⟩
/-- Table 17.9, FH_SCAN at 0x0003_0020. -/
def Reg.FH_SCAN : Nat := 0x30020
def Reg.FH_SCAN_VALID : Fld := ⟨Reg.FH_SCAN, 31, 31⟩
def Reg.FH_SCAN_TESTED : Fld := ⟨Reg.FH_SCAN, 30, 21⟩
def Reg.FH_SCAN_PASSED : Fld := ⟨Reg.FH_SCAN, 20, 11⟩
/-- Table 17.10, EVT_e_CAUSE at +0x00. -/
def Reg.EVT_CAUSE (e : Nat) : Nat := 0x36000 + 0x20 * e
def Reg.EVT_CAUSE_CLASS (e : Nat) : Fld := ⟨Reg.EVT_CAUSE e, 31, 24⟩
def Reg.EVT_CAUSE_UNIT (e : Nat) : Fld := ⟨Reg.EVT_CAUSE e, 23, 16⟩
def Reg.EVT_CAUSE_SUSPECT (e : Nat) : Fld := ⟨Reg.EVT_CAUSE e, 15, 0⟩
/-- Table 17.10, EVT_e_ACTION at +0x04. -/
def Reg.EVT_ACTION (e : Nat) : Nat := 0x36004 + 0x20 * e
def Reg.EVT_ACTION_ACTION (e : Nat) : Fld := ⟨Reg.EVT_ACTION e, 31, 24⟩
def Reg.EVT_ACTION_DETAIL (e : Nat) : Fld := ⟨Reg.EVT_ACTION e, 23, 0⟩
/-- Table 17.10, EVT_e_OWNER at +0x08. -/
def Reg.EVT_OWNER (e : Nat) : Nat := 0x36008 + 0x20 * e
def Reg.EVT_OWNER_INST_VALID (e : Nat) : Fld := ⟨Reg.EVT_OWNER e, 31, 31⟩
def Reg.EVT_OWNER_INSTANCE (e : Nat) : Fld := ⟨Reg.EVT_OWNER e, 30, 25⟩
def Reg.EVT_OWNER_SECTION (e : Nat) : Fld := ⟨Reg.EVT_OWNER e, 15, 0⟩
/-- Table 17.10, EVT_e_TURN at +0x0C. -/
def Reg.EVT_TURN (e : Nat) : Nat := 0x3600C + 0x20 * e
def Reg.EVT_TURN_TURN (e : Nat) : Fld := ⟨Reg.EVT_TURN e, 31, 0⟩
/-- Table 17.10, EVT_e_ANGLE at +0x10. -/
def Reg.EVT_ANGLE (e : Nat) : Nat := 0x36010 + 0x20 * e
def Reg.EVT_ANGLE_ANGLE (e : Nat) : Fld := ⟨Reg.EVT_ANGLE e, 23, 0⟩
/-- Table 17.10, EVT_e_SEQ at +0x14. -/
def Reg.EVT_SEQ (e : Nat) : Nat := 0x36014 + 0x20 * e
def Reg.EVT_SEQ_SEQ (e : Nat) : Fld := ⟨Reg.EVT_SEQ e, 31, 0⟩
/-- Table 17.10, EVT_e_LC at +0x18. -/
def Reg.EVT_LC (e : Nat) : Nat := 0x36018 + 0x20 * e
def Reg.EVT_LC_LC_VALID (e : Nat) : Fld := ⟨Reg.EVT_LC e, 31, 31⟩
def Reg.EVT_LC_LC (e : Nat) : Fld := ⟨Reg.EVT_LC e, 8, 0⟩
/-- Table 18.7, PWR_CTRL at 0x0002_0000. -/
def Reg.PWR_CTRL : Nat := 0x20000
def Reg.PWR_CTRL_REFUSED : Fld := ⟨Reg.PWR_CTRL, 31, 31⟩
def Reg.PWR_CTRL_MODE : Fld := ⟨Reg.PWR_CTRL, 30, 30⟩
def Reg.PWR_CTRL_GUARD : Fld := ⟨Reg.PWR_CTRL, 29, 29⟩
def Reg.PWR_CTRL_CAP_W : Fld := ⟨Reg.PWR_CTRL, 8, 0⟩
/-- Table 18.7, PWR_STATUS at 0x0002_0004. -/
def Reg.PWR_STATUS : Nat := 0x20004
def Reg.PWR_STATUS_STATE : Fld := ⟨Reg.PWR_STATUS, 31, 29⟩
def Reg.PWR_STATUS_FLOOR : Fld := ⟨Reg.PWR_STATUS, 28, 28⟩
def Reg.PWR_STATUS_THROTTLE : Fld := ⟨Reg.PWR_STATUS, 27, 27⟩
def Reg.PWR_STATUS_HOT_FLOOR : Fld := ⟨Reg.PWR_STATUS, 26, 26⟩
def Reg.PWR_STATUS_TRIPPED : Fld := ⟨Reg.PWR_STATUS, 25, 25⟩
/-- Table 18.7, PWR_NOW at 0x0002_0008. -/
def Reg.PWR_NOW : Nat := 0x20008
def Reg.PWR_NOW_DECIWATTS : Fld := ⟨Reg.PWR_NOW, 15, 0⟩
/-- Table 18.7, PWR_LIMIT at 0x0002_000C. -/
def Reg.PWR_LIMIT : Nat := 0x2000C
def Reg.PWR_LIMIT_DECIWATTS : Fld := ⟨Reg.PWR_LIMIT, 15, 0⟩
/-- Table 18.7, PWR_FREQ at 0x0002_0010. -/
def Reg.PWR_FREQ : Nat := 0x20010
def Reg.PWR_FREQ_MEAN_MHZ : Fld := ⟨Reg.PWR_FREQ, 26, 16⟩
def Reg.PWR_FREQ_MIN_FMAX_MHZ : Fld := ⟨Reg.PWR_FREQ, 10, 0⟩
/-- Table 18.7, PWR_DEBT at 0x0002_0014. -/
def Reg.PWR_DEBT : Nat := 0x20014
def Reg.PWR_DEBT_MICROJOULES : Fld := ⟨Reg.PWR_DEBT, 31, 0⟩
/-- Table 18.7, PWR_P_IDLE at 0x0002_0018. -/
def Reg.PWR_P_IDLE : Nat := 0x20018
def Reg.PWR_P_IDLE_DECIWATTS : Fld := ⟨Reg.PWR_P_IDLE, 15, 0⟩
/-- Table 18.7, PWR_EVENTS at 0x0002_0020. -/
def Reg.PWR_EVENTS : Nat := 0x20020
def Reg.PWR_EVENTS_THERM_WARN : Fld := ⟨Reg.PWR_EVENTS, 8, 8⟩
def Reg.PWR_EVENTS_REST_REFUSED : Fld := ⟨Reg.PWR_EVENTS, 7, 7⟩
def Reg.PWR_EVENTS_AGEING_STEP : Fld := ⟨Reg.PWR_EVENTS, 6, 6⟩
def Reg.PWR_EVENTS_FIXED_BROKEN : Fld := ⟨Reg.PWR_EVENTS, 5, 5⟩
def Reg.PWR_EVENTS_WOKE : Fld := ⟨Reg.PWR_EVENTS, 4, 4⟩
def Reg.PWR_EVENTS_REST_ENTERED : Fld := ⟨Reg.PWR_EVENTS, 3, 3⟩
def Reg.PWR_EVENTS_THERM_TRIP : Fld := ⟨Reg.PWR_EVENTS, 2, 2⟩
def Reg.PWR_EVENTS_THROTTLE_START : Fld := ⟨Reg.PWR_EVENTS, 1, 1⟩
def Reg.PWR_EVENTS_VR_ALERT : Fld := ⟨Reg.PWR_EVENTS, 0, 0⟩
/-- Table 18.7, PWR_REST at 0x0002_0024. -/
def Reg.PWR_REST : Nat := 0x20024
def Reg.PWR_REST_ENTER : Fld := ⟨Reg.PWR_REST, 31, 31⟩
def Reg.PWR_REST_WAKE : Fld := ⟨Reg.PWR_REST, 30, 30⟩
def Reg.PWR_REST_RESULT : Fld := ⟨Reg.PWR_REST, 29, 27⟩
/-- Table 18.7, VR_ALERTS at 0x0002_0030. -/
def Reg.VR_ALERTS : Nat := 0x20030
def Reg.VR_ALERTS_COUNT : Fld := ⟨Reg.VR_ALERTS, 31, 0⟩
/-- Table 18.7, DROOP_EVENTS at 0x0002_0034. -/
def Reg.DROOP_EVENTS : Nat := 0x20034
def Reg.DROOP_EVENTS_COUNT : Fld := ⟨Reg.DROOP_EVENTS, 31, 0⟩
/-- Table 18.7, THROTTLE_MS at 0x0002_0038. -/
def Reg.THROTTLE_MS : Nat := 0x20038
def Reg.THROTTLE_MS_COUNT : Fld := ⟨Reg.THROTTLE_MS, 31, 0⟩
/-- Table 18.7, IDLE_GAPS at 0x0002_003C. -/
def Reg.IDLE_GAPS : Nat := 0x2003C
def Reg.IDLE_GAPS_COUNT : Fld := ⟨Reg.IDLE_GAPS, 31, 0⟩
/-- Table 18.7, FIXED_BROKEN at 0x0002_0040. -/
def Reg.FIXED_BROKEN : Nat := 0x20040
def Reg.FIXED_BROKEN_COUNT : Fld := ⟨Reg.FIXED_BROKEN, 31, 0⟩
/-- Table 18.7, REST_ENTRIES at 0x0002_0044. -/
def Reg.REST_ENTRIES : Nat := 0x20044
def Reg.REST_ENTRIES_COUNT : Fld := ⟨Reg.REST_ENTRIES, 31, 0⟩
/-- Table 18.7, CAP_MS at 0x0002_0048. -/
def Reg.CAP_MS : Nat := 0x20048
def Reg.CAP_MS_COUNT : Fld := ⟨Reg.CAP_MS, 31, 0⟩
/-- Table 18.7, PWR_CMD_DISCARD at 0x0002_004C. -/
def Reg.PWR_CMD_DISCARD : Nat := 0x2004C
def Reg.PWR_CMD_DISCARD_COUNT : Fld := ⟨Reg.PWR_CMD_DISCARD, 31, 0⟩
/-- Table 18.7, TH_HOT at 0x0002_0080. -/
def Reg.TH_HOT : Nat := 0x20080
def Reg.TH_HOT_DIE : Fld := ⟨Reg.TH_HOT, 31, 29⟩
def Reg.TH_HOT_TEMP : Fld := ⟨Reg.TH_HOT, 15, 0⟩
/-- Table 18.7, TH_DIE_d at 0x0002_0084 + 4 × d. -/
def Reg.TH_DIE (d : Nat) : Nat := 0x20084 + 4 * d
def Reg.TH_DIE_GOOD (d : Nat) : Fld := ⟨Reg.TH_DIE d, 28, 24⟩
def Reg.TH_DIE_TEMP (d : Nat) : Fld := ⟨Reg.TH_DIE d, 15, 0⟩
/-- Table 18.7, TH_WARN at 0x0002_0098. -/
def Reg.TH_WARN : Nat := 0x20098
def Reg.TH_WARN_TEMP : Fld := ⟨Reg.TH_WARN, 15, 0⟩
/-- Table 18.7, FAN_CTRL at 0x0002_00A0. -/
def Reg.FAN_CTRL : Nat := 0x200A0
def Reg.FAN_CTRL_MIN_DUTY : Fld := ⟨Reg.FAN_CTRL, 31, 24⟩
def Reg.FAN_CTRL_T_LOW : Fld := ⟨Reg.FAN_CTRL, 23, 16⟩
def Reg.FAN_CTRL_T_HIGH : Fld := ⟨Reg.FAN_CTRL, 15, 8⟩
/-- Table 18.7, FAN_STATUS at 0x0002_00A4. -/
def Reg.FAN_STATUS : Nat := 0x200A4
def Reg.FAN_STATUS_DUTY : Fld := ⟨Reg.FAN_STATUS, 7, 0⟩
/-- Table 18.7, CL_SEL at 0x0002_0100. -/
def Reg.CL_SEL : Nat := 0x20100
def Reg.CL_SEL_PCLUSTER : Fld := ⟨Reg.CL_SEL, 9, 0⟩
/-- Table 18.7, CL_FMAX at 0x0002_0104. -/
def Reg.CL_FMAX : Nat := 0x20104
def Reg.CL_FMAX_FUSED_MHZ : Fld := ⟨Reg.CL_FMAX, 26, 16⟩
def Reg.CL_FMAX_FMAX_MHZ : Fld := ⟨Reg.CL_FMAX, 10, 0⟩
/-- Table 18.7, CL_NOW at 0x0002_0108. -/
def Reg.CL_NOW : Nat := 0x20108
def Reg.CL_NOW_CUR_MHZ : Fld := ⟨Reg.CL_NOW, 26, 16⟩
def Reg.CL_NOW_STATE : Fld := ⟨Reg.CL_NOW, 2, 0⟩
/-- Table 19.10, GS_ID at 0x0000_0000. -/
def Reg.GS_ID : Nat := 0x0
def Reg.GS_ID_PART : Fld := ⟨Reg.GS_ID, 31, 16⟩
def Reg.GS_ID_STEPPING : Fld := ⟨Reg.GS_ID, 15, 8⟩
/-- Table 19.10, GS_SERIAL_LO at 0x0000_0004. -/
def Reg.GS_SERIAL_LO : Nat := 0x4
def Reg.GS_SERIAL_LO_SERIAL : Fld := ⟨Reg.GS_SERIAL_LO, 31, 0⟩
/-- Table 19.10, GS_SERIAL_HI at 0x0000_0008. -/
def Reg.GS_SERIAL_HI : Nat := 0x8
def Reg.GS_SERIAL_HI_SERIAL : Fld := ⟨Reg.GS_SERIAL_HI, 31, 0⟩
/-- Table 19.10, GS_FW_VERSION at 0x0000_000C. -/
def Reg.GS_FW_VERSION : Nat := 0xC
def Reg.GS_FW_VERSION_SVN : Fld := ⟨Reg.GS_FW_VERSION, 31, 16⟩
def Reg.GS_FW_VERSION_BUILD : Fld := ⟨Reg.GS_FW_VERSION, 15, 0⟩
/-- Table 19.10, GS_STATUS at 0x0000_0010. -/
def Reg.GS_STATUS : Nat := 0x10
def Reg.GS_STATUS_READY : Fld := ⟨Reg.GS_STATUS, 31, 31⟩
def Reg.GS_STATUS_SETUP_RESTORED : Fld := ⟨Reg.GS_STATUS, 30, 30⟩
def Reg.GS_STATUS_SHUTTING_DOWN : Fld := ⟨Reg.GS_STATUS, 29, 29⟩
def Reg.GS_STATUS_SHUTDOWN_DONE : Fld := ⟨Reg.GS_STATUS, 28, 28⟩
def Reg.GS_STATUS_RECOVERY : Fld := ⟨Reg.GS_STATUS, 27, 27⟩
def Reg.GS_STATUS_FW_COPY : Fld := ⟨Reg.GS_STATUS, 26, 26⟩
def Reg.GS_STATUS_FALLBACK : Fld := ⟨Reg.GS_STATUS, 25, 25⟩
def Reg.GS_STATUS_STAGE : Fld := ⟨Reg.GS_STATUS, 24, 22⟩
/-- Table 19.10, GS_BOOT at 0x0000_0014. -/
def Reg.GS_BOOT : Nat := 0x14
def Reg.GS_BOOT_FAILED : Fld := ⟨Reg.GS_BOOT, 31, 31⟩
def Reg.GS_BOOT_CAUSE : Fld := ⟨Reg.GS_BOOT, 30, 28⟩
def Reg.GS_BOOT_BOOT_MS : Fld := ⟨Reg.GS_BOOT, 15, 0⟩
/-- Table 19.10, GS_RESET_CAUSE at 0x0000_0018. -/
def Reg.GS_RESET_CAUSE : Nat := 0x18
def Reg.GS_RESET_CAUSE_HUB_DEAD : Fld := ⟨Reg.GS_RESET_CAUSE, 5, 5⟩
def Reg.GS_RESET_CAUSE_BROWNOUT : Fld := ⟨Reg.GS_RESET_CAUSE, 4, 4⟩
def Reg.GS_RESET_CAUSE_SOFTWARE : Fld := ⟨Reg.GS_RESET_CAUSE, 3, 3⟩
def Reg.GS_RESET_CAUSE_SHUTDOWN_RESTART : Fld := ⟨Reg.GS_RESET_CAUSE, 2, 2⟩
def Reg.GS_RESET_CAUSE_PIN : Fld := ⟨Reg.GS_RESET_CAUSE, 1, 1⟩
def Reg.GS_RESET_CAUSE_POWER_ON : Fld := ⟨Reg.GS_RESET_CAUSE, 0, 0⟩
/-- Table 19.10, GS_RESET at 0x0000_001C. -/
def Reg.GS_RESET : Nat := 0x1C
def Reg.GS_RESET_CODE_N : Fld := ⟨Reg.GS_RESET, 31, 16⟩
def Reg.GS_RESET_CODE : Fld := ⟨Reg.GS_RESET, 15, 0⟩
/-- Table 19.10, GS_SETUP at 0x0000_0020. -/
def Reg.GS_SETUP : Nat := 0x20
def Reg.GS_SETUP_SAVE : Fld := ⟨Reg.GS_SETUP, 31, 31⟩
def Reg.GS_SETUP_SAVING : Fld := ⟨Reg.GS_SETUP, 30, 30⟩
def Reg.GS_SETUP_RESULT : Fld := ⟨Reg.GS_SETUP, 29, 28⟩
def Reg.GS_SETUP_VALID : Fld := ⟨Reg.GS_SETUP, 27, 27⟩
def Reg.GS_SETUP_VERSION : Fld := ⟨Reg.GS_SETUP, 15, 0⟩
/-- Table 19.10, MG_ALERT at 0x0000_0040. -/
def Reg.MG_ALERT : Nat := 0x40
def Reg.MG_ALERT_READY : Fld := ⟨Reg.MG_ALERT, 5, 5⟩
def Reg.MG_ALERT_EVENT : Fld := ⟨Reg.MG_ALERT, 4, 4⟩
def Reg.MG_ALERT_THERM_WARN : Fld := ⟨Reg.MG_ALERT, 3, 3⟩
def Reg.MG_ALERT_SHUTDOWN : Fld := ⟨Reg.MG_ALERT, 2, 2⟩
def Reg.MG_ALERT_BOOT_FAILED : Fld := ⟨Reg.MG_ALERT, 1, 1⟩
def Reg.MG_ALERT_PACKAGE_FAILED : Fld := ⟨Reg.MG_ALERT, 0, 0⟩
/-- Table 19.10, MG_ALERT_EN at 0x0000_0044. -/
def Reg.MG_ALERT_EN : Nat := 0x44
def Reg.MG_ALERT_EN_EN : Fld := ⟨Reg.MG_ALERT_EN, 5, 3⟩
def Reg.MG_ALERT_EN_FORCED : Fld := ⟨Reg.MG_ALERT_EN, 2, 0⟩
/-- Table 19.10, MG_SMBUS at 0x0000_0048. -/
def Reg.MG_SMBUS : Nat := 0x48
def Reg.MG_SMBUS_EID : Fld := ⟨Reg.MG_SMBUS, 15, 8⟩
def Reg.MG_SMBUS_ADDR : Fld := ⟨Reg.MG_SMBUS, 6, 0⟩
/-- Table 19.10, MG_PMBUS at 0x0000_004C. -/
def Reg.MG_PMBUS : Nat := 0x4C
def Reg.MG_PMBUS_VR_BASE : Fld := ⟨Reg.MG_PMBUS, 14, 8⟩
def Reg.MG_PMBUS_IN_ADDR : Fld := ⟨Reg.MG_PMBUS, 6, 0⟩
/-- Table 19.10, MG_PMBUS_ERR at 0x0000_0050. -/
def Reg.MG_PMBUS_ERR : Nat := 0x50
def Reg.MG_PMBUS_ERR_COUNT : Fld := ⟨Reg.MG_PMBUS_ERR, 31, 0⟩
/-- Table 19.10, MG_RESETS at 0x0000_0054. -/
def Reg.MG_RESETS : Nat := 0x54
def Reg.MG_RESETS_COUNT : Fld := ⟨Reg.MG_RESETS, 31, 0⟩
/-- Table 19.10, MG_IANA at 0x0000_0058. -/
def Reg.MG_IANA : Nat := 0x58
def Reg.MG_IANA_NUMBER : Fld := ⟨Reg.MG_IANA, 31, 0⟩
/-- Table 10.3, word w of angle-event entry e. -/
def Reg.AE_WORD (e w : Nat) : Nat := 0x11000 + 32 * e + 4 * w

end Sys2Proof.Machine
end

