-- ==== Sys2Proof/Machine/Output.lean ====
section
/-! DEFINITION. What the device sends to the world outside it. The outbox of the state lists it in order; nothing reads it back. -/

namespace Sys2Proof.Machine

/-- What an Ethernet port sends beyond session datagrams (R401, R403, R405, R406). -/
inductive EthSent where
  | pause (priority quanta : Nat)
  | delayReq
  | neighbour (ip : Nat)
  deriving DecidableEq, Repr

/-- One thing sent. -/
inductive Output where
  /-- An MSI-X message of an instance (R306, R384, R397). -/
  | msix (inst vector : Nat)
  /-- A write of words to host memory (R305, R380). -/
  | hostWrite (inst addr : Nat) (words : List Word)
  /-- Copied bytes written to host memory (R371). -/
  | hostBytes (inst addr : Nat) (bytes : List Byte)
  /-- A host read issued under a tag (R385), and a completion timeout reported through AER. -/
  | hostRead (inst tag : Nat)
  | aerTimeout (tag : Nat)
  /-- The answer to a BAR0 or MCTP register read (R657); mc tells the management controller's reads. -/
  | regRead (mc : Bool) (off : Nat) (v : Word)
  /-- The answer to a BAR4 read (R358). -/
  | bar4Read (bytes : List Byte) (poisoned : Bool)
  /-- A DRAM controller's reply and acknowledgement (R39, R38). -/
  | dramReply (requester line : Nat) (data : List Byte)
  | dramAck (requester addr : Nat)
  /-- A mesh packet delivered by a region switch (R36). -/
  | delivered (p : MeshPkt)
  /-- A package counter's value sent to its mirrors (R301). -/
  | counterUpdate (i v : Nat)
  /-- A cluster counter's value update on its way to a mirror (R294): logical cluster, counter, value. -/
  | mirrorUpdate (lc idx v : Nat)
  /-- A tile, a credit and a take notice on their way (R274, R277, R80). -/
  | tile (lc ep plane ctx seq : Nat) (isNull take : Bool) (halo : List Nat) (data : List Byte)
  | credit (lc ep ctx : Nat)
  | takeNotice (lc ep ctx : Nat)
  /-- Ethernet: a session datagram to a far end, and the rest. -/
  | datagram (port sub : Nat) (mac ip : Nat) (udp vlan : Nat) (d : Datagram)
  | eth (port sub : Nat) (k : EthSent)
  /-- A session datagram that a sub-port has accepted (R400 to R407), for the command of its type. -/
  | ethDelivered (port sub : Nat) (d : Datagram)
  /-- A Flarid packet leaving by a port, and one delivered in this package with its arrival port; a link-level message of a port (R429):
  0 acknowledgement of a block, 1 request to replay it, 2 the block sent again. -/
  | flarid (port : Nat) (p : FlPacket)
  | flDelivered (port : Nat) (p : FlPacket)
  | link (port kind block : Nat)
  /-- An answer on the management bus (R617, R618): command, status or completion code, bytes. -/
  | mctp (cmd status : Nat) (data : List Byte)
  /-- A PMBus read and its address (R619); an AVSBus set-point. -/
  | pmbus (addr : Nat)
  | avs (rail mv : Nat)
  /-- Pulses of TB_FRAME_OUT and TB_PPS_OUT (R351). -/
  | pulse (pps : Bool)
  /-- TDO data of the TAP (R646). -/
  | tdo (v : Word)
  deriving DecidableEq, Repr

end Sys2Proof.Machine
end

