-- ==== Sys2Proof/Machine/StateCluster.lean ====
section
/-! DEFINITION. The state of one physical cluster: planes and contexts (chapter 2), matrix unit (4), vector unit (5), scratchpad and
scoreboard (6), streams and channels (8), counters and lending (9). The registers of its debug window that count or record are in
the register map. Plain data. -/

namespace Sys2Proof.Machine

/-- The states of a context (R61). -/
inductive CtxState where
  | free
  | ready
  | running
  | waiting
  | done
  deriving DecidableEq, Repr

/-- What a WAITING context waits for (R56, R92): WAIT_KIND 0 to 6. A scoreboard wait holds its line range, or waits for a free
stream entry. -/
inductive Wait where
  | none
  | recv (ep pbit : Nat)
  | credit (ep : Nat)
  | stream (desc : Nat) (all : Bool)
  | counter (bind ref : Nat) (rel : Bool) (offset : Nat)
  | barrier (bid : Nat)
  | board (lo hi : Nat)
  | entry
  deriving DecidableEq, Repr

/-- A context (R60, R61, R240): state, wait, the accumulator hold of R64, slot pointer, six loop indices, predicate bits, tag (the
first sequence of its micro-batch), step number (R120), actual sizes, and by endpoint whether the last tile taken held data. -/
structure Ctx where
  st : CtxState
  wait : Wait
  accLive : Bool
  slotPtr : Nat
  idx : List Nat
  preds : BitVec 8
  tag : Option Nat
  number : Nat
  size0 : Nat
  size1 : Nat
  tiles : Table Bool
  deriving DecidableEq, Repr

/-- A plane (R51, R75): state code of Table 2.5, program slot, instance, generation, section, logical cluster, time of last use
(R77), its place in the image (the key of ProgSlot.planes), and its words by word index. -/
structure Plane where
  st : Nat
  slot : Nat
  inst : Nat
  gen : Nat
  sect : Nat
  lc : Nat
  used : Nat
  key : Nat
  words : Table Word
  deriving DecidableEq, Repr

/-- A MATRIX operation that has issued (Table 4.2): who issued it, whether its predicate is on, and its ARG. MROWS and KLEN are held
with 0 taken as 128, and the tile indices are those at issue (R225). -/
structure MatOp where
  plane : Nat
  ctx : Nat
  slot : Nat
  on : Bool
  order : Nat
  mop : Nat
  lt : Nat
  fmtA : Nat
  fmtW : Nat
  rows : Nat
  klen : Nat
  bankB : Bool
  cont : Bool
  swap : Bool
  epi : Bool
  epiIdx : Nat
  idx : List Nat
  deriving DecidableEq, Repr

/-- A VECTOR operation that has issued (Tables 5.1, 5.2). -/
structure VecOp where
  plane : Nat
  ctx : Nat
  slot : Nat
  on : Bool
  order : Nat
  vop : Nat
  lt : Nat
  fmtA : Nat
  fmtB : Nat
  fmtD : Nat
  srcA : Nat
  srcB : Nat
  dst : Nat
  maskEn : Bool
  sumsq : Bool
  sat : Bool
  sub : Nat
  aux : Nat
  imm : Word
  idx : List Nat
  deriving DecidableEq, Repr

/-- A weight register (R130, R135): format (15: none), loaded since the plane became ACTIVE, complete, weights by 128·k + n, block
scales by 128·⌊k/32⌋ + n, order of the LOADW that filled it. -/
structure WTile where
  fmt : Nat
  loaded : Bool
  complete : Bool
  w : Table Nat
  sc : Table Nat
  order : Nat
  deriving DecidableEq, Repr

/-- An accumulator bank (R134, R143): user (0 free, 1 array, 2 epilogue, 3 vector unit), elements by 128·row + column, the k reached
and by whom, and whether the accumulation is closed. -/
structure Bank where
  user : Nat
  data : Table Word
  kPos : Nat
  owner : Nat
  closed : Bool
  deriving DecidableEq, Repr

/-- An array operation whose bank is not yet released (R145), or an epilogue waiting or running: the operation, its rows, whether
its epilogue runs, and the scoreboard entries it holds. -/
structure ArrayRun where
  op : MatOp
  banks : List Nat
  epi : Bool
  entries : List Nat
  deriving DecidableEq, Repr

/-- A scoreboard entry (R208): identifier, stream entry or scheduled entry, first and last line. -/
structure SbEntry where
  id : Nat
  stream : Bool
  lo : Nat
  hi : Nat
  deriving DecidableEq, Repr

/-- A stream instance (R253, R261): positions P, T, A and B, engine, slot of its START, blocks started, blocks complete ahead of P,
FEED credits, its scoreboard entry, and whether a block faulted. -/
structure Strm where
  p : Nat
  t : Nat
  a : Nat
  b : Nat
  started : Bool
  engine : Nat
  slot : Nat
  next : Nat
  flying : List Nat
  ahead : List Nat
  credits : Option Nat
  entry : Option Nat
  faulted : Bool
  seq : Nat
  deriving DecidableEq, Repr

/-- A send endpoint of one context (R272, R274, R80). -/
structure SendEp where
  bound : Bool
  credits : Nat
  seq : Nat
  takeSent : Nat
  takeGot : Nat
  deriving DecidableEq, Repr

/-- A tile at a receive endpoint (R274, R275, R89): sequence number, packets there are and packets here, NULL, TAKE, plane addressed,
taken, DRAM address while spilled, bytes held outside its buffer. -/
structure Tile where
  seq : Nat
  total : Nat
  got : List Nat
  isNull : Bool
  take : Bool
  plane : Nat
  taken : Bool
  spilledAt : Option Nat
  len : Nat
  held : Table (List Byte)
  halo : List Nat
  deriving DecidableEq, Repr

/-- A receive endpoint of one context: tiles by arrival, the number of tiles taken since the binding (R271), and whether the plane left ACTIVE
with tiles untaken or unreleased (R282). -/
structure RecvEp where
  tiles : List Tile
  q : Nat
  stale : Bool
  deriving DecidableEq, Repr

/-- A pending plane switch (R78 to R82): program slot, section and instance of the incoming planes, and whether zeroing is awaited. -/
structure PlaneSwitch where
  slot : Nat
  sect : Nat
  inst : Nat
  fused : Bool
  zeroing : Bool
  deriving DecidableEq, Repr

/-- What the zeroing engine is asked to zero (Table 6.6): byte ranges, banks, counters, and whether an instance reset asks. -/
structure ZeroReq where
  ranges : List (Nat × Nat)
  banks : Bool
  counters : Bool
  reset : Option Nat
  deriving DecidableEq, Repr

/-- A sums-of-squares record to be written (R188): whether the operation ran, its address, its words, its context, the flags of R189 and
its scoreboard entries. -/
structure SumsqRec where
  on : Bool
  addr : Nat
  words : List Word
  ctx : Nat
  flags : Nat
  entries : List Nat
  deriving DecidableEq, Repr

/-- One physical cluster. Contexts are keyed 4·plane + context; streams 64·plane + 4·descriptor + context; endpoints
32·plane + 4·endpoint + context. `cur` is the RUNNING context or the one that waits in place, `last` the one the order of R62 counts from. -/
structure ClusterSt where
  planes : Table Plane
  ctxs : Table Ctx
  cur : Option Nat
  last : Nat
  switching : Option Nat
  stopped : Bool
  mxuFault : Bool
  stepOne : Bool
  issued : Nat
  loaderQ : Option MatOp
  arrayQ : Option MatOp
  vecQ : Option VecOp
  loading : Option MatOp
  sel : Bool
  tile0 : WTile
  tile1 : WTile
  bank0 : Bank
  bank1 : Bank
  arrays : List ArrayRun
  epiQ : List ArrayRun
  epiRun : Option ArrayRun
  sumsq : Option SumsqRec
  sp : Table Byte
  board : List SbEntry
  nextEntry : Nat
  corrected : Table Nat
  migrating : Option (Nat × Bool)
  zero : List ZeroReq
  zeroing : Bool
  streams : Table Strm
  sends : Table SendEp
  recvs : Table RecvEp
  heldUpd : Table Nat
  base : Table Nat
  step : Nat
  attempt : Nat
  bucket : Option Nat
  switch : Option PlaneSwitch
  arrived : Bool
  lending : Option Nat
  confRun : Option Nat
  driftRun : Option Nat
  strict : Bool
  deriving DecidableEq, Repr

end Sys2Proof.Machine
end

