-- ==== Sys2Proof/Machine/StateHub.lean ====
section
/-! DEFINITION. The parts of the state that belong to the hub and to the package: time base, host link, sessions, memory
controllers, store, images, repair. Plain data; each field names the rule that gives it. -/

namespace Sys2Proof.Machine

/-- A fault report: suspect stop, UNIT and DETAIL (R543). `byCount` tells a report of a count or threshold (no replay in
Table 17.2) from one of an error. -/
structure Report where
  stop : Nat
  unit : Nat
  detail : Nat
  byCount : Bool
  deriving DecidableEq, Repr

/-- An open incident (R546, R547): its report, action code of Table 17.3, IC_INFO.STATE, time of opening and reports merged. -/
structure Incident where
  report : Report
  action : Nat
  state : Nat
  opened : Nat
  reports : Nat
  deriving DecidableEq, Repr

/-- A fault collector: open incidents by slot 0 to 31, the intake queue, and whether a report found the queue full (R548). -/
structure Collector where
  slots : Table Incident
  queue : List Report
  lost : Bool
  deriving DecidableEq, Repr

/-- The repair state: collectors by region, 32 for the package collector (R545); reports on their way (SIG channel); times at
which path and endpoint suspects opened incidents (R556); plane words found uncorrectable, with times (R554); fenced physical
clusters (R550); the health record (R567): fence counts, retired clusters, and the spare-bank maps that the last cold reset found;
telemetry sample number (R569); times of events limited to one per 10 ms. `foldOrder` holds, by region, the order that its folds follow. -/
structure RepairSt where
  collectors : Table Collector
  inFlight : List Report
  escalation : List (Report × Nat)
  planeWords : List (Report × Nat)
  fenced : List Nat
  fenceCount : Table Nat
  retired : List Nat
  spareMaps : Table Word
  foldOrder : Table (List Nat)
  sampleSeq : Nat
  limited : Table Nat
  deriving DecidableEq, Repr

/-- A watch value (R346): the counter's value at the latest firing that named it, the ideal time of that firing, and the value that the entries of
that ideal time compare with; `checks` is false at the first firing that named the counter. -/
structure Watch where
  value : Nat
  ideal : Nat
  before : Nat
  checks : Bool
  deriving DecidableEq, Repr

/-- The time base (R328 to R337) and the angle-event table's own state (R338 to R347). `clk` is elapsed time in 2^-24 µs; then the turn count and
the angle; the fields of R329 in force; good comparisons in a row and the time of the first; the time the holdover began; the time of first lock; whether a relock
command waits for lock; watch values by counter; ideal times fired, by entry (R337); by entry the contents before the last commit and its
time (R339); and the staging copies of entries, keyed 8·entry + word. -/
structure TimeSt where
  clk : Nat
  turn : Nat
  angle : Nat
  source : Nat
  ptpPort : Nat
  refSel : Nat
  turnUs : Nat
  offset : Nat
  good : Nat
  goodSince : Nat
  holdFrom : Nat
  lockAt : Nat
  relocking : Bool
  watch : Table Watch
  fired : Table (List Nat)
  previous : Table (Nat × List Word)
  staged : Table Word
  deriving DecidableEq, Repr

/-- The state of a descriptor between fetch and completion (R368, R376 to R380). -/
inductive DescState where
  | fetched
  | admitted
  | running
  | ended
  deriving DecidableEq, Repr

/-- A descriptor in flight: its ring and position, its 16 words, the owner and generation it was admitted under, the times of
R381, and its outcome (R380). -/
structure Desc where
  ring : Nat
  pos : Nat
  words : List Word
  inst : Nat
  gen : Nat
  state : DescState
  rung : Nat
  order : Nat
  start : Option Nat
  status : Nat
  detail : Nat
  preempt : Nat
  replay : Nat
  hadDeadline : Bool
  deriving DecidableEq, Repr

/-- What the hub keeps for a ring context beyond its registers: staged tail (R365), next position to fetch and failures of the
fetch in hand (R368), doorbells with their times (R381), completions reserved (R378), and for a completion ring the completions
since the last interrupt and the start of the coalescing time (R384). -/
structure RingSt where
  stagedTail : Option Nat
  fetchPos : Nat
  failures : Nat
  bells : List (Nat × Nat)
  reserved : Nat
  sinceIrq : Nat
  coalFrom : Option Nat
  deriving DecidableEq, Repr

/-- What a read of host memory serves: the data of a descriptor, or the fetch of a ring's next descriptor. -/
inductive ReadOf where
  | data (desc : Nat)
  | fetch (ring : Nat)
  deriving DecidableEq, Repr

/-- A read of host memory that is outstanding: what it serves, its reissues, whether it is retry-safe (R385). -/
structure HostRead where
  use : ReadOf
  tries : Nat
  safe : Bool
  gen : Nat
  inst : Nat
  deriving DecidableEq, Repr

/-- A run deadline held by the hub (R347). -/
structure RunDeadline where
  desc : Nat
  instant : Nat
  abandon : Bool
  deriving DecidableEq, Repr

/-- The host link: ring state, descriptors by identifier, the arbiter's grants left in the round (R377), host reads by tag,
quarantined tags with the time of release (R386), the run deadlines (R347), read latches by requester
(R657); waiters of the traced counters, earliest first, as node and target (R322). -/
structure HostSt where
  rings : Table RingSt
  descs : Table Desc
  nextDesc : Nat
  admitCount : Nat
  grants : List Nat
  reads : Table HostRead
  quarantine : Table Nat
  deadlines : List RunDeadline
  latches : Table Word
  waiters : Table (List (Word × Word))
  maintWait : Option Nat
  deriving DecidableEq, Repr

/-- The far end of a session: MAC, IP words, UDP port, VLAN, Ethernet port and sub-port (R408). -/
structure Peer where
  mac : Nat
  ip : Nat
  v6 : Bool
  udp : Nat
  vlan : Nat
  port : Nat
  sub : Nat
  deriving DecidableEq, Repr

/-- A request of a session (R411): fragments received, the LAST fragment's index once known, bytes by fragment, completion time,
sequence and reply. -/
structure Request where
  reqId : Nat
  frags : Table (List Byte)
  lastFrag : Option Nat
  complete : Bool
  seqId : Option Nat
  reply : Option (List (List Byte))
  replySeq : Nat
  deriving DecidableEq, Repr

/-- A session identifier (R408 to R414). -/
structure Session where
  opened : Bool
  owner : Nat
  listener : Nat
  epoch : Nat
  peer : Peer
  ack : Nat
  sack : Nat
  txSeq : Nat
  clientAck : Nat
  clientSack : Nat
  unacked : Nat
  lastReq : Nat
  requests : List Request
  home : Option Nat
  qwait : Nat
  preempt : Nat
  pages : List Nat
  deriving DecidableEq, Repr

/-- One destination of a group reply under way (R417): index, time its hold began, and how it was resolved
(0 not yet, 1 delivered, 2 held and dropped, 3 down). -/
structure GroupDest where
  dest : Nat
  heldFrom : Option Nat
  outcome : Nat
  deriving DecidableEq, Repr

/-- A group reply under way (R416). -/
structure GroupReply where
  group : Nat
  session : Nat
  reqId : Nat
  payload : List (List Byte)
  dests : List GroupDest
  deriving DecidableEq, Repr

/-- Where a sequence stands (R419, R422). -/
inductive SeqState where
  | ready
  | batched
  | displaced
  | leaving
  | gone
  deriving DecidableEq, Repr

/-- A sequence (R418, R419): a RUN descriptor, or a request of a session; its program slot and state, the figures of R423, and the order of
its joining and its context in mode 0. -/
structure Seq where
  desc : Option Nat
  session : Option (Nat × Nat)
  slot : Nat
  inst : Nat
  state : SeqState
  readyAt : Nat
  order : Nat
  stepNo : Nat
  stepsRun : Nat
  maxSteps : Nat
  urgent : Bool
  gateAngle : Option Nat
  size0 : Nat
  size1 : Nat
  inAddr : Nat
  outAddr : Nat
  startAt : Option Nat
  preempt : Nat
  replay : Nat
  deadline : Option (Nat × Bool)
  late : Bool
  joined : Nat
  place : Nat
  deriving DecidableEq, Repr

/-- An advance staged to the commit of the step (R300): context, target package (none for this one), counter and INC. -/
structure StagedAdvance where
  cluster : Nat
  ctx : Nat
  pkg : Option Nat
  counter : Nat
  inc : Nat
  deriving DecidableEq, Repr

/-- The step that the array runs (R314, R421, R560): its program slot, the sequences bound to each context in joining order
(R418), the section being run, the attempt number and the replays made (R561, R562), the logical clusters that arrived at the step
barrier, the physical clusters that its release has reached, whether it is past its commit point and its commit work has run, whether a
replay is due or under way, staged advances, the journal's length (R558), and the REMOTE advances awaited. -/
structure StepSt where
  slot : Nat
  inst : Nat
  gen : Nat
  number : Nat
  members : List (List Nat)
  sect : Nat
  attempt : Nat
  attempts : Nat
  arrived : List Nat
  released : List Nat
  committed : Bool
  worked : Bool
  replayDue : Bool
  replaying : Bool
  staged : List StagedAdvance
  journal : Nat
  remoteWait : List Nat
  deriving DecidableEq, Repr

/-- Ethernet, sessions and batching. Pause times are by sub-port and priority, key (4·port + sub)·8 + priority (R403). `expired` lists the
regions whose deadlock window has expired (R317), `lastSpill` by region the endpoint spilled since the last delivery (R90). `restart` names
the slot whose step restarts (R349), `stepCount` and `attemptNo` the last step's numbers, `joins` the joinings so far, `gateFrom` by
instance since when its gate alone holds a step (R476). -/
structure NetSt where
  paused : Table Nat
  rxFill : Table Nat
  pfcSent : Table Bool
  sessions : Table Session
  groups : List GroupReply
  seqs : Table Seq
  nextSeq : Nat
  step : Option StepSt
  current : Option (Nat × Nat)
  gateStep : Bool
  expired : List Nat
  lastSpill : Table Nat
  restart : Option Nat
  stepCount : Nat
  attemptNo : Nat
  joins : Nat
  gateFrom : Table Nat
  deriving DecidableEq, Repr

/-- A barrier's episode, keyed by 16·section + BID (R310 to R316): logical clusters that arrived, those that a release has yet to
reach with its attempt number, and a firing latched for a gated barrier. -/
structure BarrierSt where
  arrived : List Nat
  releasing : List Nat
  attempt : Nat
  latched : Bool
  deriving DecidableEq, Repr

/-- A DRAM access waiting for its page or entry (R37, R38, R496). -/
structure DramAccess where
  requester : Nat
  inst : Nat
  gen : Nat
  addr : Nat
  write : Bool
  data : List Byte
  deriving DecidableEq, Repr

/-- A merge entry or an unmerged read of a DRAM controller (R37 to R39): line address, data at the opening, whether it still
takes joiners, and the requesters in joining order (requester, instance, generation). -/
structure MergeEntry where
  line : Nat
  data : List Byte
  joinable : Bool
  merged : Bool
  share : Nat
  requesters : List (Nat × Nat × Nat)
  deriving DecidableEq, Repr

/-- One DRAM controller (R37, R493): its reads, corrected errors by row and page with times, retired and spared places, the preset in force, and the
pseudo-channel that the spare replaced before the last cold reset (Table 19.3). -/
structure DramCtl where
  reads : List MergeEntry
  corrected : Table (List Nat)
  spared : List Nat
  retired : List Nat
  copying : Option Nat
  swapping : Option Nat
  pcRows : Table Nat
  pcPages : Table Nat
  preset : Nat
  sparePc : Option Nat
  deriving DecidableEq, Repr

/-- DRAM beyond its bytes: controllers by stack, the zeroing engine (R495, R496), backing tags by 4 KiB page (R555; 0 NONE,
1 + slot IMAGE, 4096 + entry FETCH), and accesses that wait. `instZero` holds the pages
yet to be zeroed after an instance reset (key: instance) or a session's close (key: 64 + session). -/
structure DramSt where
  ctl : Table DramCtl
  zeroNext : Nat
  zeroed : List Nat
  zeroBusy : Option Nat
  demand : List Nat
  waiting : List DramAccess
  tags : Table Nat
  instZero : Table (List Nat)
  deriving DecidableEq, Repr

/-- A library entry (R507, Table 15.4): state 1 VALID, 2 DAMAGED, 3 DELETING; header and hash list; payload bytes by offset; damaged
chunks; uses. -/
structure LibEntry where
  state : Nat
  kind : Nat
  isShared : Bool
  owner : Nat
  keySlot : Nat
  model : Nat
  version : Nat
  bytes : Nat
  chunks : Nat
  head : List Word
  payload : Table Byte
  damaged : List Nat
  uses : Nat
  deriving DecidableEq, Repr

/-- A store block (R500 to R505): class 0 free, 1 data, 2 orphan, 3 half-erased, 4 retired; program and erase count; the entry and
first chunk it holds; reads since written. -/
structure StoreBlock where
  cls : Nat
  pe : Nat
  entry : Nat
  chunk : Nat
  reads : Nat
  deriving DecidableEq, Repr

/-- A key slot of the store (R508). -/
structure KeySlot where
  valid : Bool
  locked : Bool
  key : List Word
  deriving DecidableEq, Repr

/-- An instance's fetch queue (R515, R516): base value of REQ, next record, records taken and not finished. -/
structure FetchSt where
  base : Nat
  next : Nat
  deriving DecidableEq, Repr

/-- The weight store (R497 to R517). `writing` is the entry write in progress with its outcome so far (R509). -/
structure StoreSt where
  lib : Table LibEntry
  blocks : Table StoreBlock
  keys : Table KeySlot
  keyStage : Table Word
  version : Nat
  seqNo : Nat
  fetch : Table FetchSt
  erasing : List Nat
  autos : Table (List Word)
  writing : Option (Nat × Nat)
  ready : Bool
  deriving DecidableEq, Repr

/-- A program slot (R373, R520 to R538). Phase: 1 registering, 2 registered. `origin` tells what ordered the load: 0 a descriptor, 1 the
multicast receiver, 2 + n autostart record n. Planes are held by key `(((section·2 + fold)·8 + pair)·512 + logical cluster)·8 + index`, as
words by word index, with the byte ranges written and the essential-bit maps beside them; `dataRanges` are the ranges that DATA frames
wrote; `jumpTo` the frame at which the main sequence goes on; `fail` the class of R529 of the failure found, 0 for none; `released` the
activation stages released (R538); `told` whether the load's outcome has been told. -/
structure ProgSlot where
  phase : Nat
  inst : Nat
  gen : Nat
  desc : Option Nat
  origin : Nat
  source : Nat
  image : Nat
  bytes : Nat
  payOff : Nat
  keySlot : Nat
  dramBase : Nat
  preload : Bool
  header : List Word
  sections : Table (List Word)
  planes : Table (Table Word)
  written : Table (List (Nat × Nat))
  essential : Table (List Byte)
  dataRanges : List (Nat × Nat)
  chunksRead : Nat
  jumpTo : Nat
  sigDone : Bool
  fail : Nat
  released : List Nat
  preloaded : Bool
  told : Bool
  evicting : Bool
  deriving DecidableEq, Repr

/-- The configuration engine (R529 to R542): program slots, the slot being registered, and the multicast receiver's ranges received and
whether a first packet has come. -/
structure ImageSt where
  slots : Table ProgSlot
  active : Option Nat
  rxHave : List (Nat × Nat)
  rxSeen : Bool
  deriving DecidableEq, Repr

end Sys2Proof.Machine
end

