-- ==== Sys2Proof/Machine/StateLink.lean ====
section
/-! DEFINITION. The state of the Flarid links (chapter 13) and of the engines across packages (chapter 14) beyond their registers. Plain
data. -/

namespace Sys2Proof.Machine

/-- A port (R427 to R431, R443, R453 to R455). `txFlits` counts the flits sent since the link came up, `acked` the blocks acknowledged (the
replay buffer holds the blocks between), `rxNext` the next block expected and `rxBad` how often it has failed; credits in flits by virtual channel;
packets that wait to depart, in order; by virtual channel, whether the limiter's window is marked and whether a marked window has ended
since the port came up; and whether three lanes have failed. -/
structure PortSt where
  txFlits : Nat
  acked : Nat
  rxNext : Nat
  rxBad : Nat
  credits : List Nat
  waiting : List FlPacket
  marked : List Bool
  ended : List Bool
  dead : Bool
  cache : List Nat
  deriving DecidableEq, Repr

/-- The engine that a request serves (ORIGIN and TAG of Table 13.3): an RLOAD piece with its place in the scratchpad, an RSTORE piece,
or a REMOTE advance of the step's commit. -/
inductive FlUse where
  | rload (n k desc block sp : Nat)
  | rstore (n k desc block : Nat)
  | advance (n k slot sect : Nat)
  deriving DecidableEq, Repr

/-- A request of this package (R456, R459, R466): destination, order of acceptance, its packet's fields, the owner, generation, step number and
attempt it was made in, its epoch, route and port once injected, and whether it awaits the resend after a BUSY or ASLEEP answer. -/
structure FlReq where
  id : Nat
  dest : Nat
  order : Nat
  typ : Nat
  prio : Bool
  fence : Bool
  addr : Nat
  argLo : Nat
  argHi : Nat
  data : List Byte
  inst : Nat
  gen : Nat
  number : Nat
  attempt : Nat
  use : FlUse
  epoch : Nat
  route : Nat
  port : Nat
  later : Bool
  deriving DecidableEq, Repr

/-- A route (R436): whether it is valid, its hops and its 64 route bits. -/
structure Route where
  valid : Bool
  hops : Nat
  bits : Nat
  deriving DecidableEq, Repr

/-- A route table entry (R436, R437): in use, SPREAD, its four routes, their failure marks, and the next route in turn. -/
structure RouteEnt where
  valid : Bool
  spread : Bool
  routes : List Route
  failed : List Bool
  turn : Nat
  deriving DecidableEq, Repr

/-- A broadcast under way (R482): its group and range, and whether a commit waits for it. -/
structure Cast where
  group : Nat
  addr : Nat
  bytes : Nat
  commit : Bool
  deriving DecidableEq, Repr

/-- The Flarid links of the package. `egress` holds requests accepted and not yet injected, `tracked` those whose reply is awaited, `idle` those
held for an unreachable destination (R466); routes by destination and groups by number are the committed tables; `epochOut` and `epochIn`
are R444's and R445's, `dup` the duplicate table keyed 2^32·source + REQ_ID (R458); `staged` holds the staging copies of the key
registers (R659); `pref` the route preference of the running slot (R478); `refused` the sections whose next run ends with REMOTE
(R302); `unsent` the suspicions not sent (R468); broadcasts by instance. -/
structure LinkSt where
  ports : Table PortSt
  egress : List FlReq
  tracked : List FlReq
  idle : List FlReq
  nextId : Nat
  nextOrder : Nat
  routes : Table RouteEnt
  groups : Table Word
  epochOut : Table Nat
  epochIn : Table Nat
  dup : Table FlPacket
  staged : Table Word
  pref : Option Nat
  refused : List (Nat × Nat)
  unsent : Nat
  casts : Table Cast
  deriving DecidableEq, Repr

end Sys2Proof.Machine
end

