-- ==== Sys2Proof/Machine/StateRest.lean ====
section
/-! DEFINITION. Parts of the state that later chapters give: power (18), reset and management (19), pins and TAP (20), mesh and
bridges (1). -/

namespace Sys2Proof.Machine

/-- Power (R573 to R602): frequency granted to each physical cluster in MHz; 10 MHz steps by which its maximum has fallen (R580, kept without
power); each region's last command, its budget in mW and the frequency that a share covers (R575, R576); regions whose clocks are stretched;
the energy debt, and the energy and µs since it was last formed, in units of 0.1 µJ (R587); the draw in 0.1 W and the mean frequency of each of the
last 1,000 periods, and the periods of the ms in progress; a gap in progress, VR_ALERT_N, the count to the end of the floor, the trip; the thermal limit in 0.1 W
(R592); whether a floor or limit acted in the step in progress, and whether that step is held to the cap by frequency (R588, R590); a wake trigger
held during entry to Rest (R598), and the angle-event entries, with their words, whose action waits for the wake (R344). -/
structure PowerSt where
  granted : Table Nat
  falls : Table Nat
  budgets : Table (Nat × Nat)
  stretch : List Nat
  debt : Nat
  energy : Nat
  periods : Nat
  draws : List Nat
  means : List Nat
  ticks : Nat
  gap : Bool
  alert : Bool
  floorCount : Bool
  trip : Bool
  thermLimit : Nat
  broken : Bool
  byFreq : Bool
  trigger : Bool
  held : List (Nat × List Word)
  deriving DecidableEq, Repr

/-- A firmware copy (R609): whether its signature and key check, its security version and its build number. -/
structure Firmware where
  good : Bool
  svn : Nat
  build : Nat
  deriving DecidableEq, Repr

/-- A saved set-up register: its offset and value. -/
abbrev SetupRecord := List (Nat × Word)

/-- Reset, boot and management (R603 to R629). Kept without power: the two firmware copies, the boot-select record (the copy it names, and a
pending copy), the fuses (minimum security version and how often it was raised, serial number, base MAC address, whether a copy of the identity record
checks), the enterprise number, and the set-up record with its version. `updating` is the update that a maintenance command will end with; `saving` the
snapshot being stored, `restore` what a restore has yet to write (the batching records); `copy` the copy that runs, `stops` the watchdog stops in
succession; `recovery` the bytes of recovery writes; then the controller in reset, the hub dead, COLD_RESET_N asserted and a cold reset that waits
for the shutdown, by its cause, PERST_N and PWR_WARN_N asserted, the restart's 20 ms counting, and what holds an internal cold reset. -/
structure MgmtSt where
  copyA : Firmware
  copyB : Firmware
  select : Nat
  pendingCopy : Option Nat
  minSvn : Nat
  svnRaises : Nat
  serial : Nat
  mac : Nat
  identityGood : Bool
  iana : Nat
  setup : Option SetupRecord
  setupVersion : Nat
  updating : Option Firmware
  saving : Option SetupRecord
  restore : Option SetupRecord
  copy : Nat
  stops : Nat
  recovery : Table Byte
  controllerReset : Bool
  hubDead : Bool
  inColdReset : Bool
  coldDue : Option Nat
  perst : Bool
  warn : Bool
  restartCount : Bool
  brownout : List Supply
  deriving DecidableEq, Repr

/-- Pins and the TAP (R639 to R647). `alertN`, `loadErrN` and `thermTripN` tell that the pin is asserted, `fanPwm` the duty in %; the TAP's instruction and its
boundary register; whether the TAP has the pins; the reference clocks lost; whether VDD_IO_1V8 is lost, which releases every output (R639). -/
structure PinSt where
  alertN : Bool
  loadErrN : Bool
  thermTripN : Bool
  fanPwm : Nat
  tapInstr : Nat
  boundary : Nat
  tapTakes : Bool
  refLost : List RefClk
  ioOff : Bool
  deriving DecidableEq, Repr

/-- A bridge link's wire groups (R41): failed groups, and whether the spare is in use. -/
structure BridgeSt where
  failed : List Nat
  spareUsed : Bool
  held : Nat
  deriving DecidableEq, Repr

end Sys2Proof.Machine
end

