-- ==== Sys2Proof/Machine/State.lean ====
section
/-! DEFINITION. The state of the ZNF-24 package, its value at reset, and the ways a command can stop. -/

namespace Sys2Proof.Machine

/-- The state of one package. `pending` is the queue of waiting commands, first in first out; `regs` holds the set-up registers by
BAR0 offset (chapter 21); the other fields are the state that the chapters name. -/
structure State where
  pending : List Instr
  freeCount : Nat
  outbox : List Output
  regs : Table Word
  clusters : Table ClusterSt
  dram : Table Byte
  mem : DramSt
  time : TimeSt
  host : HostSt
  net : NetSt
  barriers : Table BarrierSt
  store : StoreSt
  images : ImageSt
  repair : RepairSt
  links : LinkSt
  power : PowerSt
  mgmt : MgmtSt
  pins : PinSt
  mesh : List MeshPkt
  meshDropped : Table Nat
  bridges : Table BridgeSt
  deriving DecidableEq, Repr

/-- How a command can stop the machine. -/
inductive Fault where
  /-- Raised by no command of the table; kept closed so that no run can end in it. Safe. -/
  | none
  deriving DecidableEq, Repr

/-- Why a command has no meaning. -/
inductive Refusal where
  /-- Raised by an arm of exec that has no meaning yet. Safe: nothing is claimed of the command. -/
  | notModelled (mnemonic : String)
  deriving DecidableEq, Repr

/-! ### Reset -/

/-- A firmware copy of a module as delivered: it checks, with security version and build number 0 (log entry 5). -/
def Firmware.shipped : Firmware := ⟨true, 0, 0⟩

/-- The parts of the state that a cold reset brings to one value (Table 19.2). Log entry 4 names each value that the manual does not give. -/
def MemReset : DramSt where
  ctl := []
  zeroNext := 0
  zeroed := []
  zeroBusy := none
  demand := []
  waiting := []
  tags := []
  instZero := []

/-- The time base in free run from 0 (R333). -/
def TimeReset : TimeSt where
  clk := 0
  turn := 0
  angle := 0
  source := 0
  ptpPort := 0
  refSel := 0
  turnUs := 10000
  offset := 0
  good := 0
  goodSince := 0
  holdFrom := 0
  lockAt := 0
  relocking := false
  watch := []
  fired := []
  previous := []
  staged := []

def HostReset : HostSt where
  rings := []
  descs := []
  nextDesc := 0
  admitCount := 0
  grants := []
  reads := []
  quarantine := []
  deadlines := []
  latches := []
  waiters := []
  maintWait := none

def NetReset : NetSt where
  paused := []
  rxFill := []
  pfcSent := []
  sessions := []
  groups := []
  seqs := []
  nextSeq := 0
  step := none
  current := none
  gateStep := false
  expired := []
  lastSpill := []
  restart := none
  stepCount := 0
  attemptNo := 0
  joins := 0
  gateFrom := []

/-- An empty store (log entry 5). -/
def StoreReset : StoreSt where
  lib := []
  blocks := []
  keys := []
  keyStage := []
  version := 0
  seqNo := 0
  fetch := []
  erasing := []
  autos := []
  writing := none
  ready := false

def ImageReset : ImageSt := ⟨[], none, [], false⟩

def RepairReset : RepairSt where
  collectors := []
  inFlight := []
  escalation := []
  planeWords := []
  fenced := []
  fenceCount := []
  retired := []
  spareMaps := []
  foldOrder := []
  sampleSeq := 0
  limited := []

def LinkReset : LinkSt where
  ports := []
  egress := []
  tracked := []
  idle := []
  nextId := 0
  nextOrder := 0
  routes := []
  groups := []
  epochOut := []
  epochIn := []
  dup := []
  staged := []
  pref := none
  refused := []
  unsent := 0
  casts := []

def PowerReset : PowerSt where
  granted := []
  falls := []
  budgets := []
  stretch := []
  debt := 0
  energy := 0
  periods := 0
  draws := []
  means := []
  ticks := 0
  gap := false
  alert := false
  floorCount := false
  trip := false
  thermLimit := 0
  broken := false
  byFreq := false
  trigger := false
  held := []

/-- Management after power-on, COLD_RESET_N deasserted, boot in stage 0, PERST_N asserted (log entry 5). -/
def MgmtReset : MgmtSt where
  copyA := .shipped
  copyB := .shipped
  select := 0
  pendingCopy := none
  minSvn := 0
  svnRaises := 0
  serial := 0
  mac := 0
  identityGood := true
  iana := 0
  setup := none
  setupVersion := 0
  updating := none
  saving := none
  restore := none
  copy := 0
  stops := 0
  recovery := []
  controllerReset := false
  hubDead := false
  inColdReset := false
  coldDue := none
  perst := true
  warn := false
  restartCount := false
  brownout := []

/-- The pins after cold reset: outputs released, FAN_PWM at 100 % (Table 20.4), the TAP at IDCODE (R647). -/
def PinReset : PinSt where
  alertN := false
  loadErrN := false
  thermTripN := false
  fanPwm := 100
  tapInstr := 2
  boundary := 0
  tapTakes := false
  refLost := []
  ioOff := false

/-- The package right after its first cold reset, at power-on (Table 19.2): every register at its reset value but GS_RESET_CAUSE, whose bit
POWER_ON has set (Table 19.10); no command waits. Boot has yet to run (Table 19.3). -/
def State.reset : State where
  pending := []
  freeCount := 0
  outbox := []
  regs := [(0x18, 1#32)]
  clusters := []
  dram := []
  mem := MemReset
  time := TimeReset
  host := HostReset
  net := NetReset
  barriers := []
  store := StoreReset
  images := ImageReset
  repair := RepairReset
  links := LinkReset
  power := PowerReset
  mgmt := MgmtReset
  pins := PinReset
  mesh := []
  meshDropped := []
  bridges := []

end Sys2Proof.Machine
end

