-- ==== Sys2Proof/Machine/Ops.lean ====
section
/-! DEFINITION. The named operations over registers, DRAM, outputs, interrupts, events, reports and package counters that every
family of commands shares. -/

namespace Sys2Proof.Machine

/-- What a command answers. -/
abbrev Out := Host.Outcome State Fault Refusal

/-! ### Registers -/

/-- The stored value of the register at a BAR0 offset; unwritten registers hold their reset value. -/
def State.rg (s : State) (off : Nat) : Word := tget (regReset off) s.regs off

/-- Stores a register. -/
def State.wrg (s : State) (off : Nat) (v : Word) : State := { s with regs := mput (regReset off) s.regs off v }

/-- The value of a register field. -/
def State.fd (s : State) (x : Fld) : Nat := bits (s.rg x.off) x.hi x.lo

/-- Sets a register field. -/
def State.setF (s : State) (x : Fld) (n : Nat) : State := s.wrg x.off (setBits (s.rg x.off) x.hi x.lo n)

/-- Whether a one-bit field is set. -/
def State.on (s : State) (x : Fld) : Bool := s.fd x == 1

/-- Advances a count of 32 bits, which wraps. -/
def State.incN (s : State) (off n : Nat) : State := s.wrg off (s.rg off + BitVec.ofNat 32 n)
def State.inc (s : State) (off : Nat) : State := s.incN off 1

/-- The value of a pair of registers _LO at an offset and _HI four bytes above. -/
def State.rg64 (s : State) (off : Nat) : Nat := (s.rg off).toNat + 2 ^ 32 * (s.rg (off + 4)).toNat

/-- Stores a pair of registers _LO and _HI. -/
def State.wrg64 (s : State) (off n : Nat) : State := (s.wrg off (lo32 n)).wrg (off + 4) (hi32 n)

/-- Advances a count of 64 bits in a pair of registers. -/
def State.inc64 (s : State) (off n : Nat) : State := s.wrg64 off (s.rg64 off + n)

/-- Runs an update only where a condition holds. -/
def State.cond (s : State) (c : Bool) (f : State → State) : State := if c then f s else s

/-- Applies an update for each element of a list, in order. -/
def State.each {α : Type} (s : State) (l : List α) (f : State → α → State) : State := l.foldl f s

/-- Inserts an element before the first that it does not come after; a list in order, elements of equal rank in the order they had. -/
def insertBy {α : Type} (le : α → α → Bool) (x : α) : List α → List α
  | [] => [x]
  | y :: ys => if le x y then x :: y :: ys else y :: insertBy le x ys
def sortBy {α : Type} (le : α → α → Bool) (l : List α) : List α := l.foldr (insertBy le) []

/-! ### Outputs and free values -/

/-- What a finished shutdown disables (Table 19.7): Ethernet transmission, Flarid egress, and PCIe writes and MSI-X messages of the device. -/
def Output.disabled : Output → Bool
  | .msix .. | .hostWrite .. | .hostBytes .. | .datagram .. | .eth .. | .flarid .. | .link .. => true
  | _ => false

/-- Appends what the device sends, unless a finished shutdown has disabled it. -/
def State.emit (s : State) (o : Output) : State :=
  if s.on Reg.GS_STATUS_SHUTDOWN_DONE && o.disabled then s else { s with outbox := s.outbox ++ [o] }

/-- The next free word (log entry 2), and the state with the count advanced. -/
def State.free (s : State) : Word × State := (Config.freeWord s.freeCount, { s with freeCount := s.freeCount + 1 })

/-! ### Time -/

/-- The time of R331 in au: the turn count and the angle together. -/
def State.now (s : State) : Nat := s.time.turn * 2 ^ 24 + s.time.angle

/-- A difference of two times in au, saturating at 0xFFFF_FFFF (R381). -/
def auDiff (a b : Nat) : Nat := min ((b + 2 ^ 56 - a) % 2 ^ 56) 0xFFFFFFFF

/-- Elapsed time since cold reset in units of 2^-24 µs. -/
def State.clk (s : State) : Nat := s.time.clk

/-- A number of µs as elapsed time. -/
def us (n : Nat) : Nat := n * 2 ^ 24

/-! ### Interrupts -/

/-- Raises an MSI-X vector of an instance (R306, R384, R397). -/
def State.msix (s : State) (inst vector : Nat) : State := s.emit (.msix inst vector)

/-- An event of interrupt source k: its IRQ_STATUS bit sets, and the mapped PF vector is raised when the bit goes from 0 to 1 with
IRQ_MAP_k.EN set (R397). -/
def State.irq (s : State) (k : Nat) : State :=
  let x : Fld := ⟨Reg.IRQ_STATUS, k, k⟩
  let t := s.setF x 1
  if s.on x then t else if s.on (Reg.IRQ_MAP_EN k) then t.msix 0 (s.fd (Reg.IRQ_MAP_VECTOR k)) else t

/-- Sets bit k of INST_EVENTS of an instance, with its vector when EVT_IRQ_EN is set (R396). -/
def State.instEvent (s : State) (i k : Nat) : State :=
  let t := s.setF ⟨Reg.INST_EVENTS i, k, k⟩ 1
  if s.on (Reg.INST_CTRL_EVT_IRQ_EN i) then t.msix i (s.fd (Reg.INST_CTRL_EVT_VECTOR i)) else t

/-! ### ALERT_N and LOAD_ERR_N (R621, R539) -/

/-- The two outputs follow their sources, except while the management controller is reset, when they hold (R622, R624). -/
def State.drivePins (s : State) : State :=
  if s.mgmt.controllerReset then s
  else { s with pins := { s.pins with
    alertN := s.mgmt.hubDead || (s.rg Reg.MG_ALERT &&& s.rg Reg.MG_ALERT_EN) ≠ 0#32
    loadErrN := if s.mgmt.hubDead then s.pins.loadErrN else s.on Reg.CE_STATUS_LOAD_ERR } }

/-- Sets bit k of MG_ALERT (Table 19.10). -/
def State.alert (s : State) (k : Nat) : State := (s.setF ⟨Reg.MG_ALERT, k, k⟩ 1).drivePins

/-! ### Events, reports and complements (R543, R545, R564, R571) -/

/-- The stop identifier of a hub function of Table 1.7 (R28, R42). -/
def hubStop (f : Nat) : Nat := 4 * 2 ^ 13 + 5 * 2 ^ 10 + f

/-- The stop identifier of physical cluster n (R2, R28). -/
def clusterStop (n : Nat) : Nat := n / 144 * 2 ^ 13 + n / 18 % 8 * 32 + n % 18

/-- The stop identifier of the services of region g (R28). -/
def regionStop (g : Nat) : Nat := g / 8 * 2 ^ 13 + 2 ^ 10 + g % 8

/-- The stop identifiers of DRAM controller s and of Flarid port p (R28, R4). -/
def dramStop (s : Nat) : Nat := s / 2 * 2 ^ 13 + 2 * 2 ^ 10 + s
def portStop (p : Nat) : Nat := p / 4 * 2 ^ 13 + 3 * 2 ^ 10 + p

/-- Posts event n = FH_EVT_HEAD into the event ring (R571, Table 17.10), and sets IRQ_STATUS.HEALTH (R570) and MG_ALERT.EVENT. -/
def State.post (s : State) (cls unit stop action detail : Nat) (owner : Option (Nat × Nat)) (lc : Option Nat) : State :=
  let n := (s.rg Reg.FH_EVT_HEAD).toNat
  let e := n % 256
  let own := match owner with
    | some (i, sec) => 2 ^ 31 + i % 64 * 2 ^ 25 + sec % 2 ^ 16
    | none => 0
  let l := match lc with
    | some c => 2 ^ 31 + c % 512
    | none => 0
  let t := (s.wrg (Reg.EVT_CAUSE e) (BitVec.ofNat 32 (cls % 256 * 2 ^ 24 + unit % 256 * 2 ^ 16 + stop % 2 ^ 16))).wrg
    (Reg.EVT_ACTION e) (BitVec.ofNat 32 (action % 256 * 2 ^ 24 + detail % 2 ^ 24))
  let t := (t.wrg (Reg.EVT_OWNER e) (BitVec.ofNat 32 own)).wrg (Reg.EVT_TURN e) (BitVec.ofNat 32 s.time.turn)
  let t := (t.wrg (Reg.EVT_ANGLE e) (BitVec.ofNat 32 s.time.angle)).wrg (Reg.EVT_SEQ e) (BitVec.ofNat 32 n)
  (((t.wrg (Reg.EVT_LC e) (BitVec.ofNat 32 l)).inc Reg.FH_EVT_HEAD).irq 2).alert 4

/-- Posts an event of a class for which the manual names no UNIT and DETAIL, nor, without one given, a SUSPECT: they are free values. -/
def State.postOpen (s : State) (cls : Nat) (stop : Option Nat) (owner : Option (Nat × Nat)) : State :=
  let f := s.free
  let g := f.2.free
  g.2.post cls (bits f.1 7 0) (stop.getD (bits g.1 15 0)) 0 (bits f.1 31 8) owner none

/-- Sends a fault report on its way to its collector (R545); it arrives by FAULT_REPORT. -/
def State.report (s : State) (stop unit detail : Nat) (byCount : Bool) : State :=
  { s with repair := { s.repair with inFlight := s.repair.inFlight ++ [⟨stop, unit, detail, byCount⟩] } }

/-- A complement mismatch: the count given for the value advances, FH_CPL_MISMATCH advances, and the path that carried the value is
reported (R564). -/
def State.cplMismatch (s : State) (count : Option Nat) (stop unit detail : Nat) : State :=
  let t := match count with
    | some off => s.inc off
    | none => s
  (t.inc Reg.FH_CPL_MISMATCH).report stop unit detail false

/-- A complement mismatch of the host write path, UNIT 15 (R659). -/
def State.hostMismatch (s : State) (inst : Nat) : State := s.cplMismatch none (hubStop 0) 15 inst

/-! ### Device DRAM (R489) -/

/-- The bytes of DRAM: no address at or above 384 GiB reaches storage (R489). -/
def dramSize : Nat := 384 * 2 ^ 30

/-- One byte of DRAM. An unlisted byte reads as zero: no access is served before its page is zeroed (R496). -/
def State.rdB (s : State) (a : Nat) : Byte := tget 0#8 s.dram a

/-- Writes one byte of DRAM; no address at or above 384 GiB reaches storage. -/
def State.wrB (s : State) (a : Nat) (v : Byte) : State :=
  if a < dramSize then { s with dram := mput 0#8 s.dram a v } else s

/-- Bytes of DRAM from an address up. -/
def State.rdBytes (s : State) (a : Nat) : Nat → List Byte
  | 0 => []
  | n + 1 => s.rdB a :: s.rdBytes (a + 1) n

/-- Writes bytes of DRAM from an address up. -/
def State.wrBytes (s : State) (a : Nat) : List Byte → State
  | [] => s
  | b :: bs => (s.wrB a b).wrBytes (a + 1) bs

/-- The little-endian value of bytes, and the n low bytes of a value (R6). -/
def leVal : List Byte → Nat
  | [] => 0
  | b :: bs => b.toNat + 256 * leVal bs

def leBytes : Nat → Nat → List Byte
  | 0, _ => []
  | n + 1, v => BitVec.ofNat 8 v :: leBytes n (v / 256)

/-- A 32-bit word of DRAM, and words from an address up. -/
def State.rdW (s : State) (a : Nat) : Word := BitVec.ofNat 32 (leVal (s.rdBytes a 4))

def State.rdWords (s : State) (a : Nat) : Nat → List Word
  | 0 => []
  | n + 1 => s.rdW a :: s.rdWords (a + 4) n

/-- Writes 32-bit words of DRAM from an address up. -/
def State.wrWords (s : State) (a : Nat) : List Word → State
  | [] => s
  | w :: ws => (s.wrBytes a (leBytes 4 w.toNat)).wrWords (a + 4) ws

/-- The bytes of words in little-endian order, and bytes gathered into words. -/
def wordBytes (ws : List Word) : List Byte := ws.flatMap fun w => leBytes 4 w.toNat

/-- The stack that holds an address (R489). -/
def stackOf (a : Nat) : Nat := 2 * (a / (96 * 2 ^ 30)) + a / 4096 % 2

/-- A 2 MiB page is zeroed (R496): the background has passed it, or it was demanded and done. -/
def State.pageZeroed (s : State) (p : Nat) : Bool :=
  (decide (p < s.mem.zeroNext)) || s.mem.zeroed.contains p

/-- The pages of a range are all zeroed, and no page of it waits for the zeroing after an instance reset (R391). -/
def State.rangeReady (s : State) (a len : Nat) : Bool :=
  (List.range ((a % 2 ^ 21 + len + 2 ^ 21 - 1) / 2 ^ 21)).all fun k => s.pageZeroed (a / 2 ^ 21 + k) &&
    s.mem.instZero.all fun e => ! e.2.contains (a / 2 ^ 21 + k)

/-- Demands the pages of a range that are not zeroed, in the order of first access (R496, R391). -/
def State.demand (s : State) (a len : Nat) : State :=
  let ps := (List.range ((a % 2 ^ 21 + len + 2 ^ 21 - 1) / 2 ^ 21)).map (a / 2 ^ 21 + ·)
  let new := ps.filter fun p => (! s.pageZeroed p || s.mem.instZero.any fun e => e.2.contains p) && ! s.mem.demand.contains p
  { s with mem := { s.mem with demand := s.mem.demand ++ new } }

/-- A range lies within one enabled window of an instance (R371, R396). -/
def State.inWindow (s : State) (i a len : Nat) : Bool :=
  (List.range 8).any fun w => s.on (Reg.WIN_BASE_EN i w) &&
    decide (s.fd (Reg.WIN_BASE_BASE i w) * 2 ^ 21 ≤ a) &&
    decide (a + len ≤ (s.fd (Reg.WIN_BASE_BASE i w) + s.fd (Reg.WIN_SIZE_SIZE i w)) * 2 ^ 21)

/-- A line lies within some enabled window of an instance, for lines that may lie in different windows (R258). -/
def State.inWindows (s : State) (i a len : Nat) : Bool := s.inWindow i a len

/-! ### Package counters (R285 to R306, R325) -/

/-- The 48-bit value of a package counter. -/
def State.pc (s : State) (i : Nat) : Nat := (s.rg (Reg.PC_VALUE_LO i)).toNat + 2 ^ 32 * s.fd (Reg.PC_VALUE_HI_VALUE i)

/-- Stores a package counter. -/
def State.setPc (s : State) (i v : Nat) : State :=
  (s.wrg (Reg.PC_VALUE_LO i) (lo32 v)).setF (Reg.PC_VALUE_HI_VALUE i) (v / 2 ^ 32 % 2 ^ 16)

/-- An instance owns a package counter (R303). -/
def State.pcOwned (s : State) (i inst : Nat) : Bool :=
  s.on (Reg.PC_CTRL_OWNED i) && s.fd (Reg.PC_CTRL_OWNER i) == inst

/-- The notify record of a counter (R305): 16 bytes at the owner's notify area plus 16·i, the value and its complement. -/
def State.notify (s : State) (i : Nat) : State :=
  let o := s.fd (Reg.PC_CTRL_OWNER i)
  if s.on (Reg.PC_CTRL_NOTIFY_EN i) && s.on (Reg.NOTIFY_LO_VALID o) then
    let v := s.pc i
    let base := s.fd (Reg.NOTIFY_LO_ADDR o) * 2 ^ 16 + (s.rg (Reg.NOTIFY_HI o)).toNat * 2 ^ 32
    let w := [lo32 v, hi32 v]
    s.emit (.hostWrite o (base + 16 * i) (w ++ w.map (~~~ ·)))
  else s

/-- The interrupt of a counter (R306): armed, and VALUE[31:0] − IRQ_AT as a signed value is 0 or more. -/
def State.pcIrq (s : State) (i : Nat) : State :=
  if s.on (Reg.PC_CTRL_IRQ_ARM i) && decide (0 ≤ (s.rg (Reg.PC_VALUE_LO i) - s.rg (Reg.PC_IRQ_AT i)).toInt) then
    (s.setF (Reg.PC_CTRL_IRQ_ARM i) 0).msix (s.fd (Reg.PC_CTRL_OWNER i)) (s.fd (Reg.PC_CTRL_VECTOR i))
  else s

/-- The WAIT target of a descriptor (Table 11.5). -/
def waitTarget (d : Desc) : Nat := (d.words.getD 5 0).toNat + 2 ^ 32 * bits (d.words.getD 6 0) 15 0

/-- The opcode of a descriptor (Table 11.4). -/
def Desc.opcode (d : Desc) : Nat := bits (d.words.getD 0 0) 31 28

/-- Shows the waiters of a traced counter in its record (Table 9.10). -/
def State.traceShow (s : State) (i : Nat) (l : List (Word × Word)) : State :=
  let t := { s with host := { s.host with waiters := tput s.host.waiters i l } }
  let t := t.setF (Reg.TR_WAITERS_COUNT i) (min l.length 255)
  let w := l.headD (0, 0)
  (t.wrg (Reg.TR_FIRST i) w.1).wrg (Reg.TR_TARGET i) w.2

/-- A wait on a traced counter starts, or ends (R322). -/
def State.traceStart (s : State) (i : Nat) (w : Word × Word) : State :=
  if i < 256 then s.traceShow i (tget [] s.host.waiters i ++ [w]) else s
def State.traceEnd (s : State) (i : Nat) (w : Word × Word) : State :=
  if i < 256 then s.traceShow i ((tget [] s.host.waiters i).erase w) else s

/-- The node code of a host instance (Table 9.7). -/
def hostNode (inst : Nat) : Nat := 6 * 2 ^ 29 + hubStop 0 * 2 ^ 13 + inst

/-- A WAIT descriptor that still waits on counter i. -/
def Desc.waitsOn (d : Desc) (i : Nat) : Bool := d.state == .running && d.opcode == 5 && bits (d.words.getD 4 0) 11 0 == i

/-- WAIT descriptors that the value of a counter meets end with status OK (R304, R372). -/
def State.wakeWaits (s : State) (i : Nat) : State :=
  let met (d : Desc) : Bool := d.waitsOn i && decide (waitTarget d ≤ s.pc i)
  let t := s.each (s.host.descs.filter fun e => met e.2) fun u e =>
    u.traceEnd i (BitVec.ofNat 32 (hostNode e.2.inst), e.2.words.getD 5 0)
  { t with host := { t.host with descs := t.host.descs.map fun e => if met e.2 then (e.1, { e.2 with state := .ended }) else e } }

/-- Records taken by armed fetch queues whose REQ is this counter (R515). -/
def State.takeFetches (s : State) (i : Nat) : State :=
  s.each (List.range 64) fun t k =>
    if t.on (Reg.STF_CTRL_EN k) && t.fd (Reg.STF_CTRL_REQ k) == i then
      t.wrg (Reg.STF_TAKEN k) (BitVec.ofNat 32 (t.pc i - (tget ⟨0, 0⟩ t.store.fetch k).base)) else t

/-- A counter of the package changes to a value: the mirrors of PKG bindings are sent it (R301), traced counters keep the
signaller (R322), WAITs and fetch queues see it, then the notify record and the interrupt (R305, R306). -/
def State.pcChanged (s : State) (i v node : Nat) : State :=
  let t := (s.setPc i v).emit (.counterUpdate i v)
  let t := if i < 256 then t.wrg (Reg.TR_LAST i) (BitVec.ofNat 32 node) else t
  (((t.wakeWaits i).takeFetches i).notify i).pcIrq i

/-- Adds to a package counter at once; the value stays at 2^48 − 1 at most (R287, R303). -/
def State.advancePc (s : State) (i inc node : Nat) : State := s.pcChanged i (satAdd 48 (s.pc i) inc) node

/-! ### Host writes to BAR0 (R658) -/

/-- Counts a BAR0 write refused at checks 1 to 3 of Table 21.11. -/
def State.rejectWrite (s : State) (off : Nat) : State :=
  (s.inc Reg.REJECTED_WRITES).setF Reg.REJECTED_LAST_OFFSET off

/-- Checks 2 and 3 of Table 21.11: READY is set (R613), and no maintenance command holds BUSY (R393), from which the PF MSI-X table
and pending bits are exempt. -/
def State.writeAllowed (s : State) (off : Nat) : Bool :=
  s.on Reg.GS_STATUS_READY && (! s.on Reg.MAINT_STATUS_BUSY || (decide (0x300000 ≤ off) && decide (off < 0x308100)))

/-- A BAR0 write of 4 bytes to a register: refused at checks 2 and 3, else given to the register's own rule. -/
def State.hostWrite (s : State) (off : Nat) (f : State → State) : State :=
  if s.writeAllowed off then f s else s.rejectWrite off

/-- The plain effect of a write on a register: RW bits take the value, W1C bits written 1 clear, the rest stay (R12, R656). -/
def plainWrite (old v : Word) (rw w1c : Nat) : Word :=
  let m := BitVec.ofNat 32 rw
  let c := BitVec.ofNat 32 w1c
  ((old &&& ~~~m) ||| (v &&& m)) &&& ~~~(v &&& c)

/-- Writes a register by its access types alone. -/
def State.plain (s : State) (off : Nat) (v : Word) : State :=
  let m := regMasks off
  s.wrg off (plainWrite (s.rg off) v m.1 m.2)

end Sys2Proof.Machine
end

