-- ==== Sys2Proof/Machine/ClusterOps.lean ====
section
/-! DEFINITION. Operations over one physical cluster: its planes, loop tables and bindings as their words say them, the choice of the
next context, cluster counters, waits and what meets them, scratchpad bytes, and the scoreboard. -/

namespace Sys2Proof.Machine

/-! ### Defaults -/

/-- A context that is FREE (R60): P0 reads 1. -/
def noCtx : Ctx := ⟨.free, .none, false, 0, [0, 0, 0, 0, 0, 0], 1#8, none, 0, 0, 0, []⟩
/-- A FREE plane. -/
def noPlane : Plane := ⟨0, 0, 0, 0, 0, 0, 0, 0, []⟩
/-- A weight register that holds no tile (R135). -/
def noTile : WTile := ⟨15, false, false, [], [], 0⟩
/-- A free bank. -/
def noBank : Bank := ⟨0, [], 0, 0, false⟩
/-- A stream instance that no START began (R261). -/
def noStrm : Strm := ⟨0, 0, 0, 0, false, 0, 0, 0, [], [], none, none, false, 0⟩
/-- Endpoints that no context is bound to. -/
def noSend : SendEp := ⟨false, 0, 0, 0, 0⟩
def noRecv : RecvEp := ⟨[], 0, false⟩
/-- A cluster after cold reset (Table 6.6: scratchpad, banks and counters zeroed). -/
def noCluster : ClusterSt where
  planes := []
  ctxs := []
  cur := none
  last := 3
  switching := none
  stopped := false
  mxuFault := false
  stepOne := false
  issued := 0
  loaderQ := none
  arrayQ := none
  vecQ := none
  loading := none
  sel := false
  tile0 := noTile
  tile1 := noTile
  bank0 := noBank
  bank1 := noBank
  arrays := []
  epiQ := []
  epiRun := none
  sumsq := none
  sp := []
  board := []
  nextEntry := 0
  corrected := []
  migrating := none
  zero := []
  zeroing := false
  streams := []
  sends := []
  recvs := []
  heldUpd := []
  base := []
  step := 0
  attempt := 0
  bucket := none
  switch := none
  arrived := false
  lending := none
  confRun := none
  driftRun := none
  strict := false

def State.cl (s : State) (n : Nat) : ClusterSt := tget noCluster s.clusters n
def State.setCl (s : State) (n : Nat) (c : ClusterSt) : State := { s with clusters := tput s.clusters n c }
/-- Updates a cluster. -/
def State.upCl (s : State) (n : Nat) (f : ClusterSt → ClusterSt) : State := s.setCl n (f (s.cl n))

def ClusterSt.plane (c : ClusterSt) (p : Nat) : Plane := tget noPlane c.planes p
def ClusterSt.setPlane (c : ClusterSt) (p : Nat) (x : Plane) : ClusterSt := { c with planes := tput c.planes p x }
def ClusterSt.ctx (c : ClusterSt) (k : Nat) : Ctx := tget noCtx c.ctxs k
def ClusterSt.setCtx (c : ClusterSt) (k : Nat) (x : Ctx) : ClusterSt := { c with ctxs := tput c.ctxs k x }
def ClusterSt.strm (c : ClusterSt) (k : Nat) : Strm := tget noStrm c.streams k
def ClusterSt.setStrm (c : ClusterSt) (k : Nat) (x : Strm) : ClusterSt := { c with streams := tput c.streams k x }
def ClusterSt.sendEp (c : ClusterSt) (k : Nat) : SendEp := tget noSend c.sends k
def ClusterSt.setSend (c : ClusterSt) (k : Nat) (x : SendEp) : ClusterSt := { c with sends := tput c.sends k x }
def ClusterSt.recvEp (c : ClusterSt) (k : Nat) : RecvEp := tget noRecv c.recvs k
def ClusterSt.setRecv (c : ClusterSt) (k : Nat) (x : RecvEp) : ClusterSt := { c with recvs := tput c.recvs k x }
def ClusterSt.bank (c : ClusterSt) (b : Nat) : Bank := if b = 0 then c.bank0 else c.bank1
def ClusterSt.setBank (c : ClusterSt) (b : Nat) (x : Bank) : ClusterSt :=
  if b = 0 then { c with bank0 := x } else { c with bank1 := x }

/-! ### The words of a plane (Tables 2.1, 2.2, 7.1 to 7.4, 8.1, 8.8, 9.2, 4.5) -/

/-- The word of a plane at a byte offset, and a field of it. -/
def Plane.w (p : Plane) (off : Nat) : Word := tget 0 p.words (off / 4)
def Plane.f (p : Plane) (off hi lo : Nat) : Nat := bits (p.w off) hi lo

def Plane.contexts (p : Plane) : Nat := p.f 0 2 0
def Plane.foldEn (p : Plane) : Bool := p.f 0 7 7 == 1
def Plane.foldNext (p : Plane) : Nat := p.f 0 6 4
/-- ACC_MASK of a context. -/
def Plane.accMask (p : Plane) (c : Nat) : Nat := p.f 0 (9 + 2 * c) (8 + 2 * c)
def Plane.slotWords (p : Plane) : Nat := p.f 4 31 19
def Plane.loopTables (p : Plane) : Nat := p.f 4 18 14
def Plane.scratchBase (p : Plane) : Nat := p.f 8 22 0
def Plane.scratchTop (p : Plane) : Nat := p.f 12 22 0

/-- Bank A and bank B of a context (R133). -/
def Plane.bankA (p : Plane) (c : Nat) : Nat := if p.accMask c % 2 = 1 then 0 else 1
def Plane.bankB (p : Plane) (c : Nat) : Nat := if p.accMask c = 3 then 1 else p.bankA c

/-- Word k of loop table t, and a field of it (R227). -/
def Plane.lt (p : Plane) (t k hi lo : Nat) : Nat := p.f (0x8040 + 256 * t + 4 * k) hi lo
def Plane.levels (p : Plane) (t : Nat) : Nat := p.lt t 0 31 29
def Plane.elems (p : Plane) (t : Nat) : Nat := p.lt t 0 28 26
def Plane.ddim (p : Plane) (t k : Nat) : Nat := if k = 0 then p.lt t 0 25 23 else p.lt t 0 22 20
/-- Fields of a level record (Table 7.2). -/
def Plane.order (p : Plane) (t l : Nat) : Nat := p.lt t (9 + 6 * l) 31 29
def Plane.dim (p : Plane) (t l : Nat) : Nat := p.lt t (9 + 6 * l) 28 26
def Plane.dyn (p : Plane) (t l : Nat) : Bool := p.lt t (9 + 6 * l) 25 25 == 1
def Plane.weight (p : Plane) (t l : Nat) : Nat := p.lt t (9 + 6 * l) 15 0
def Plane.stride (p : Plane) (t l o : Nat) : Int := toSigned 32 (p.lt t (10 + 6 * l + o) 31 0)
/-- Fields of an operand record (Table 7.3). -/
def Plane.inUse (p : Plane) (t o : Nat) : Bool := p.lt t (44 + 4 * o) 31 31 == 1
def Plane.scMode (p : Plane) (t o : Nat) : Nat := p.lt t (44 + 4 * o) 30 29
def Plane.base (p : Plane) (t o : Nat) : Nat := p.lt t (44 + 4 * o) 22 0
def Plane.extLo (p : Plane) (t o : Nat) : Nat := p.lt t (45 + 4 * o) 22 0
def Plane.scPitch (p : Plane) (t o : Nat) : Nat := p.lt t (46 + 4 * o) 31 24
def Plane.extHi (p : Plane) (t o : Nat) : Nat := p.lt t (46 + 4 * o) 23 0
def Plane.scaleBase (p : Plane) (t o : Nat) : Nat := p.lt t (47 + 4 * o) 22 0

/-- Size of dynamic dimension k in bucket b (Table 7.4). -/
def Plane.bucketSize (p : Plane) (b k : Nat) : Nat := p.f (0x9E40 + 32 * b + 4 * k) 31 0

/-- Which dynamic dimension a level walks, if any (R235). -/
def Plane.dynDim (p : Plane) (t l : Nat) : Option Nat :=
  let d := p.dim t l
  if d = 7 then none else if p.ddim t 0 = d then some 0 else if p.ddim t 1 = d then some 1 else none

/-- The bound of a level for a selected bucket (R236). -/
def Plane.bound (p : Plane) (b t l : Nat) : Nat :=
  if p.dyn t l then
    match p.dynDim t l with
    | some k => ceilDiv (p.bucketSize b k) (p.weight t l)
    | none => 0
  else p.lt t (8 + 6 * l) 31 0

/-- The level at an order position (R224). -/
def Plane.levelAt (p : Plane) (t o : Nat) : Nat := ((List.range (p.levels t)).find? fun l => p.order t l == o).getD 0

/-- The positions of a table's element levels, N of R225. -/
def Plane.positions (p : Plane) (b t : Nat) : Nat :=
  ((List.range (p.elems t)).map fun o => p.bound b t (p.levelAt t o)).prod

/-- The index of level l at position `pos` of an operation of a context with the given tile indices (R225). -/
def Plane.index (p : Plane) (b t : Nat) (idx : List Nat) (pos l : Nat) : Nat :=
  let o := p.order t l
  if o < p.elems t then
    pos / ((List.range o).map fun j => p.bound b t (p.levelAt t j)).prod % p.bound b t l
  else idx.getD l 0

/-- The element offset of an operand (R228). -/
def Plane.offset (p : Plane) (b t o : Nat) (idx : List Nat) (pos : Nat) : Int :=
  ((List.range (p.levels t)).map fun l => (p.index b t idx pos l : Int) * p.stride t l o).sum

/-- The coordinate of a position in dimension d (R235). -/
def Plane.coord (p : Plane) (b t d : Nat) (idx : List Nat) (pos : Nat) : Nat :=
  ((List.range (p.levels t)).map fun l => if p.dim t l = d then p.index b t idx pos l * p.weight t l else 0).sum

/-- Whether a position is masked for actual sizes (R235). -/
def Plane.masked (p : Plane) (b t : Nat) (x : Ctx) (pos : Nat) : Bool :=
  (decide (p.ddim t 0 ≠ 7) && decide (x.size0 ≤ p.coord b t (p.ddim t 0) x.idx pos)) ||
    (decide (p.ddim t 1 ≠ 7) && decide (x.size1 ≤ p.coord b t (p.ddim t 1) x.idx pos))

/-- The byte address of an element offset of a format width (R228), and whether it lies in the operand's extent (R229). -/
def Plane.addr (p : Plane) (t o w : Nat) (e : Int) : Int := (p.base t o : Int) + (e * w).fdiv 8
def Plane.inExtent (p : Plane) (t o w : Nat) (a : Int) : Bool :=
  decide ((p.extLo t o : Int) ≤ a) && decide (a + ceilDiv w 8 ≤ (p.extHi t o : Int))

/-- The address of the scale byte of a BS4 element (R234). -/
def Plane.scaleAddr (p : Plane) (t o : Nat) (e : Int) : Int :=
  let q : Int := 32 * p.scPitch t o
  let k := if p.scMode t o = 2 then e.fdiv (32 * q) * q + e.fmod q else e.fdiv 32
  (p.scaleBase t o : Int) + k

/-- Fields of stream descriptor d (Table 8.1). -/
def Plane.sd (p : Plane) (d k hi lo : Nat) : Nat := p.f (0x9040 + 64 * d + 4 * k) hi lo
/-- Words of send binding i and receive binding j (Table 8.8). -/
def Plane.sb (p : Plane) (i hi lo : Nat) : Nat := p.f (0x9440 + 32 * i) hi lo
def Plane.rb (p : Plane) (j k hi lo : Nat) : Nat := p.f (0x9540 + 32 * j + 4 * k) hi lo
/-- Words of counter binding b (Table 9.2). -/
def Plane.cb (p : Plane) (b k hi lo : Nat) : Nat := p.f (0x9640 + 16 * b + 4 * k) hi lo
/-- Words of epilogue descriptor e (Table 4.5). -/
def Plane.ed (p : Plane) (e k hi lo : Nat) : Nat := p.f (0x9A40 + 64 * e + 4 * k) hi lo

/-- The selected bucket as a number. -/
def ClusterSt.bkt (c : ClusterSt) : Nat := c.bucket.getD 0

/-! ### Logical and physical clusters (R2, R21) -/

/-- The physical cluster that a logical cluster is bound to, and the logical clusters bound to a physical one. -/
def State.physOf (s : State) (lc : Nat) : Nat := 18 * (lc / 16) + s.fd (Reg.RM_ENTRY_POS (lc / 16) (lc % 16))
def State.lcsOf (s : State) (n : Nat) : List Nat :=
  ((List.range 16).filter fun j => s.fd (Reg.RM_ENTRY_POS (n / 18) j) == n % 18).map (16 * (n / 18) + ·)

/-- A plane's place in its image: whether it is of a fold variant, its index, the stage or variant that it belongs to, and the logical
clusters that it serves: its own, or both of a variant's pair (R71). -/
def Plane.variant (p : Plane) : Bool := p.key / 32768 % 2 == 1
def Plane.place (p : Plane) : Nat := p.key % 8
def Plane.stage (p : Plane) : Nat := p.key / 8
def Plane.serves (p : Plane) : List Nat := if p.variant then [p.lc, p.lc + 1] else [p.lc]

/-- The physical plane that holds the plane which a binding or FOLD_NEXT names by its index (R532): the plane of that index of the section,
or of a fold variant the one that binds the receive endpoint (R71; log entry 70). -/
def ClusterSt.planeAt (c : ClusterSt) (slot sect idx : Nat) (ep : Option Nat) : Nat :=
  ((List.range 8).find? fun p =>
    let x := c.plane p
    x.st ≠ 0 && x.slot == slot && x.sect == sect && match ep with
      | some j => if x.variant then x.rb j 0 31 31 == 1 else x.place == idx
      | none => x.place == idx).getD idx

/-- A physical cluster is fenced (R550). -/
def State.isFenced (s : State) (n : Nat) : Bool := s.repair.fenced.contains n

/-! ### Choosing the next context (R62 to R64, R69) -/

/-- A wait with ACC_LIVE of another context holds a bank that context k uses (R64). -/
def ClusterSt.bankHeld (c : ClusterSt) (k : Nat) : Bool :=
  (List.range 32).any fun j => j ≠ k && (c.ctx j).accLive &&
    ((c.ctx j).st == .waiting || (c.ctx j).st == .ready) &&
    ((c.plane (j / 4)).accMask (j % 4) &&& (c.plane (k / 4)).accMask (k % 4)) ≠ 0

/-- A context the sequencer may switch to: READY, of an ACTIVE plane, its banks not held. -/
def ClusterSt.canRun (c : ClusterSt) (k : Nat) : Bool :=
  (c.ctx k).st == .ready && (c.plane (k / 4)).st == 3 && !c.bankHeld k

/-- The order of R62 counted from context k: its plane from k + 1, then the other ACTIVE planes of its section. -/
def ClusterSt.orderFrom (c : ClusterSt) (k : Nat) : List Nat :=
  let p := k / 4
  let same := (List.range 4).map fun i => 4 * p + (k % 4 + 1 + i) % 4
  let others := ((List.range 7).map fun i => (p + 1 + i) % 8).filter fun q =>
    (c.plane q).st == 3 && (c.plane q).sect == (c.plane p).sect && (c.plane q).slot == (c.plane p).slot
  same ++ others.flatMap fun q => (List.range 4).map (4 * q + ·)

/-- The running context, if one runs. -/
def ClusterSt.running (c : ClusterSt) : Option Nat := c.cur.filter fun k => (c.ctx k).st == .running

/-- The sequencer looks for the next context after the running one waited or ended, and begins the switch to it. -/
def ClusterSt.seek (c : ClusterSt) : ClusterSt :=
  if c.switching.isSome || c.running.isSome then c
  else match (c.orderFrom c.last).find? c.canRun with
    | some k => { c with switching := some k, cur := none }
    | none => c

/-- A context becomes READY (R61, R62): in place it resumes at once, otherwise the sequencer may switch to it. -/
def ClusterSt.makeReady (c : ClusterSt) (k : Nat) : ClusterSt :=
  let x := { c.ctx k with st := .ready, wait := .none }
  if c.cur = some k && c.switching.isNone then c.setCtx k { x with st := .running, accLive := false }
  else (c.setCtx k x).seek

/-- The running context waits (R61, R62): ACC_LIVE holds its banks, and the sequencer looks for another context. -/
def ClusterSt.waitFor (c : ClusterSt) (k : Nat) (w : Wait) (live : Bool) : ClusterSt :=
  { c.setCtx k { c.ctx k with st := .waiting, wait := w, accLive := live } with last := k }.seek

/-- Issue stops, and nothing that waits goes on (R349, step 1). Operations already issued run to their end. -/
def ClusterSt.stopStep (c : ClusterSt) : ClusterSt := { c with stopped := true, switching := none }

/-- The slot pointer of a context moves on by a slot's words. -/
def ClusterSt.advance (c : ClusterSt) (k words : Nat) : ClusterSt :=
  c.setCtx k { c.ctx k with slotPtr := (c.ctx k).slotPtr + words }

/-- A predicate bit of a context (R57, R59). -/
def ClusterSt.setPred (c : ClusterSt) (k i : Nat) (v : Bool) : ClusterSt :=
  if i = 0 then c else c.setCtx k { c.ctx k with preds := setBits (c.ctx k).preds i i (b2n v) }

/-! ### Lending (R318, R319) -/

/-- A lending cluster stops lending: the µs spent lending are counted. -/
def State.stopLend (s : State) (n : Nat) : State :=
  match (s.cl n).lending with
  | none => s
  | some t =>
    (s.upCl n fun c => { c with lending := none }).incN (Reg.LEND_US n) ((s.clk - t) / 2 ^ 24)

/-- A context becomes READY; a lending cluster stops lending (R319). -/
def State.ready (s : State) (n k : Nat) : State := (s.upCl n fun c => c.makeReady k).stopLend n

/-- The deadlock window of a cluster's region restarts at a delivery or an advance (R87); a delivery also ends the record of the last
spill (R90). -/
def State.activity (s : State) (n : Nat) (delivery : Bool) : State :=
  { s with net := { s.net with
    expired := s.net.expired.filter (· ≠ n / 18)
    lastSpill := if delivery then tdel s.net.lastSpill (n / 18) else s.net.lastSpill } }

/-! ### Cluster counters (R285 to R296) -/

/-- The 48-bit value of a cluster counter, and storing it with its source. -/
def State.cc (s : State) (n i : Nat) : Nat := (s.rg (Reg.CC_LO n i)).toNat + 2 ^ 32 * s.fd (Reg.CC_HI_VALUE n i)
def State.setCc (s : State) (n i v src : Nat) : State :=
  (s.wrg (Reg.CC_LO n i) (lo32 v)).wrg (Reg.CC_HI n i) (BitVec.ofNat 32 (src % 2 ^ 16 * 2 ^ 16 + v / 2 ^ 32 % 2 ^ 16))

/-- The counter that a binding names for a context (Table 9.2). -/
def Plane.counter (p : Plane) (b ctx : Nat) : Nat :=
  if p.cb b 0 30 29 = 2 then p.cb b 1 5 0
  else p.cb b 0 11 0 % 64 + (if p.cb b 0 28 28 = 1 then ctx else 0)

/-- The value that a CWAIT compares (R295): for a PKG binding, the mirror less its value at the last step boundary. -/
def State.bindVal (s : State) (n k b : Nat) : Nat :=
  let c := s.cl n
  let p := c.plane (k / 4)
  let i := p.counter b (k % 4)
  if p.cb b 0 30 29 = 2 then s.cc n i - tget 0 c.base i else s.cc n i

/-- The condition of a CWAIT (R295). -/
def State.counterMet (s : State) (n k b ref : Nat) (rel : Bool) (offset : Nat) : Bool :=
  if rel then decide ((s.bindVal n k ref : Int) + toSigned 32 offset ≤ (s.bindVal n k b : Int))
  else decide (offset ≤ s.bindVal n k b)

/-! ### Scratchpad (R193 to R197, R208 to R212) -/

/-- A byte of the scratchpad; addresses at and above 0x60_0000 have no storage. -/
def ClusterSt.rd (c : ClusterSt) (a : Nat) : Byte := tget 0#8 c.sp a
def ClusterSt.wr (c : ClusterSt) (a : Nat) (v : Byte) : ClusterSt :=
  if a < 0x600000 then { c with sp := mput 0#8 c.sp a v } else c
def ClusterSt.rdN (c : ClusterSt) (a : Nat) : Nat → List Byte
  | 0 => []
  | n + 1 => c.rd a :: c.rdN (a + 1) n
def ClusterSt.wrN (c : ClusterSt) (a : Nat) : List Byte → ClusterSt
  | [] => c
  | b :: bs => (c.wr a b).wrN (a + 1) bs

/-- A little-endian word of the scratchpad. -/
def ClusterSt.rdW (c : ClusterSt) (a : Nat) : Word := BitVec.ofNat 32 (leVal (c.rdN a 4))
def ClusterSt.wrW (c : ClusterSt) (a : Nat) (v : Word) : ClusterSt := c.wrN a (leBytes 4 v.toNat)

/-- Reads and writes an element of width w at a byte address; `high` selects the upper nibble of a 4-bit format (R96). -/
def ClusterSt.rdElem (c : ClusterSt) (a w : Nat) (high : Bool) : Nat :=
  if w = 4 then (if high then (c.rd a).toNat / 16 else (c.rd a).toNat % 16) else leVal (c.rdN a (w / 8))
def ClusterSt.wrElem (c : ClusterSt) (a w : Nat) (high : Bool) (v : Nat) : ClusterSt :=
  if w = 4 then c.wr a (setBits (c.rd a) (if high then 7 else 3) (if high then 4 else 0) v)
  else c.wrN a (leBytes (w / 8) v)

/-- Zeroes a byte range of the scratchpad. -/
def ClusterSt.zeroRange (c : ClusterSt) (lo hi : Nat) : ClusterSt :=
  { c with sp := c.sp.filter fun e => !(decide (lo ≤ e.1) && decide (e.1 < hi)) }

/-- Line ranges meet. -/
def meets (a b c d : Nat) : Bool := decide (a ≤ d) && decide (c ≤ b)

/-- A byte range [lo, hi) as lines, first and last. -/
def lineRange (lo hi : Nat) : Nat × Nat := (lo / 64, (hi - 1) / 64)

/-- Entries of a kind in use (R208). -/
def ClusterSt.used (c : ClusterSt) (stream : Bool) : Nat := (c.board.filter fun e => e.stream == stream).length

/-- Enters line ranges in the scoreboard, and the identifiers they got. -/
def ClusterSt.enter (c : ClusterSt) (stream : Bool) : List (Nat × Nat) → ClusterSt × List Nat
  | [] => (c, [])
  | r :: rs =>
    let c1 : ClusterSt := { c with board := c.board ++ [SbEntry.mk c.nextEntry stream r.1 r.2], nextEntry := c.nextEntry + 1 }
    let x := c1.enter stream rs
    (x.1, c.nextEntry :: x.2)

/-- Retires entries. -/
def ClusterSt.retire (c : ClusterSt) (ids : List Nat) : ClusterSt :=
  { c with board := c.board.filter fun e => !ids.contains e.id }

/-- A line range overlaps a stream entry, or a scheduled entry. -/
def ClusterSt.overlaps (c : ClusterSt) (stream : Bool) (r : Nat × Nat) : Bool :=
  c.board.any fun e => e.stream == stream && meets r.1 r.2 e.lo e.hi

/-! ### Receive endpoints (R271, R275, R89) -/

/-- Buffers per context, and the scratchpad address of the buffer of a tile (R271). -/
def Plane.bpc (p : Plane) (j : Nat) : Nat := p.rb j 0 16 13
def Plane.bufAddr (p : Plane) (j ctx seq : Nat) : Nat :=
  p.rb j 1 22 0 + (ctx * p.bpc j + seq % p.bpc j) * p.rb j 2 14 0

/-- A halo endpoint: named by an enabled halo binding of a loop table of the plane (R245): the table, the binding (0 A, 1 B) and
whether it is the upper margin. -/
def Plane.haloOf (p : Plane) (j : Nat) : Option (Nat × Nat × Bool) :=
  ((List.range p.loopTables).flatMap fun t => [(t, 0), (t, 1)]).findSome? fun tb =>
    let w := p.lt tb.1 3 31 0 / (if tb.2 = 0 then 2 ^ 20 else 2 ^ 8)
    if w.testBit 11 && w.testBit 7 && w / 2 ^ 4 % 8 == j then some (tb.1, tb.2, false)
    else if w.testBit 11 && w.testBit 3 && w % 8 == j then some (tb.1, tb.2, true) else none

/-- All packets of a tile have arrived. -/
def Tile.whole (t : Tile) : Bool := decide (t.total ≤ t.got.length)

/-- Another tile of the endpoint lies in the buffer of a sequence number. -/
def RecvEp.occupied (r : RecvEp) (bpc seq : Nat) : Bool :=
  r.tiles.any fun t => t.seq ≠ seq && t.spilledAt.isNone && t.held.isEmpty && decide (t.got ≠ []) && t.seq % bpc == seq % bpc

/-- Writes the packets that a tile holds outside its buffer into the buffer. -/
def ClusterSt.place (c : ClusterSt) (addr : Nat) (held : Table (List Byte)) : ClusterSt :=
  held.foldl (fun d e => d.wrN (addr + 1024 * e.1) e.2) c

/-- A tile to present: the oldest untaken tile is number q (R275). -/
def RecvEp.next (r : RecvEp) : Option Tile := r.tiles.find? fun t => t.seq == r.q && !t.taken && t.whole

/-- The sender of a tile at a receive endpoint: logical cluster and endpoint, or a FEED stream of the cluster (R269). -/
def Plane.sender (p : Plane) (j : Nat) : Nat × Nat := (p.rb j 0 28 20, p.rb j 0 19 17)

/-- The key of an endpoint of a context: 32·plane + 4·endpoint + context. -/
def epKey (k ep : Nat) : Nat := 32 * (k / 4) + 4 * ep + k % 4

/-- Takes the next tile of a context on an endpoint (R275, R89): a spilled tile is read from the spill area, and its buffer, if a
later tile lies there, gives way. A tile with TAKE sends a take notice (R80). Answers whether the tile held data. -/
def State.takeTile (s : State) (n k ep pbit : Nat) : State :=
  let c := s.cl n
  let r := c.recvEp (epKey k ep)
  match r.next with
  | none => s
  | some t =>
    let p := c.plane (k / 4)
    let at0 := p.bufAddr ep (k % 4) t.seq
    let data : Table (List Byte) := match t.spilledAt with
      | some a => [((0 : Nat), s.rdBytes a t.len)]
      | none => t.held
    let outside := !data.isEmpty
    let moved := r.tiles.map fun u =>
      if outside && u.seq ≠ t.seq && u.spilledAt.isNone && u.held.isEmpty && u.seq % p.bpc ep == t.seq % p.bpc ep
      then { u with held := [(0, c.rdN at0 u.len)] } else u
    let tiles := moved.map fun u => if u.seq == t.seq then { u with taken := true, spilledAt := none, held := [] } else u
    let x := c.ctx k
    let c := ((c.place at0 data).setRecv (epKey k ep) (RecvEp.mk tiles (r.q + 1) r.stale)).setCtx k { x with tiles := tput x.tiles ep (!t.isNull) }
    let s := s.setCl n (c.setPred k pbit (!t.isNull))
    let snd := p.sender ep
    if t.take then s.emit (.takeNotice snd.1 snd.2 (k % 4)) else s

/-! ### What meets a wait (R61, R272, R275, R261, R296, R211) -/

/-- The descriptor key of a stream instance. -/
def strmKey (k d : Nat) : Nat := 64 * (k / 4) + 4 * d + k % 4

/-- Whether the wait of a context is met. A BARRIER wait is met only by its release (R313). -/
def State.waitMet (s : State) (n k : Nat) : Bool :=
  let c := s.cl n
  match (c.ctx k).wait with
  | .none => false
  | .recv ep _ => (c.recvEp (epKey k ep)).next.isSome
  | .credit ep => decide (0 < (c.sendEp (epKey k ep)).credits)
  | .stream d all => let x := c.strm (strmKey k d); if all then x.p == x.b else decide (x.t + 1 ≤ x.p)
  | .counter b ref rel offset => s.counterMet n k b ref rel offset
  | .barrier _ => false
  | .board lo hi => !c.overlaps true (lo, hi)
  | .entry => decide (c.used true < 8)

/-- The slot of a met wait has its effect, and the slot pointer moves on; a SEND or a scoreboard wait issues its slot again. -/
def State.finishWait (s : State) (n k : Nat) : State :=
  match ((s.cl n).ctx k).wait with
  | .recv ep pbit => (s.takeTile n k ep pbit).upCl n fun c => c.advance k 1
  | .stream d all => s.upCl n fun c =>
      let x := c.strm (strmKey k d)
      (if all then c else c.setStrm (strmKey k d) { x with t := x.t + 1 }).advance k 1
  | .counter _ _ _ _ => s.upCl n fun c => c.advance k 1
  | _ => s

/-- Looks at every WAITING context of a cluster, in order, and makes READY those whose wait is met. -/
def State.wake (s : State) (n : Nat) : State :=
  if (s.cl n).stopped then s else
  s.each (List.range 32) fun t k =>
    if ((t.cl n).ctx k).st == .waiting && t.waitMet n k then (t.finishWait n k).ready n k else t

end Sys2Proof.Machine
end

