-- ==== Sys2Proof/Machine/Runs.lean ====
section
/-! DEFINITION. Sequences, steps and replies: what ends a run (R298, R349, R380), the journal and its rollback (R558, R561), replies
to sessions and groups (R411 to R417), and accounting (R423). -/

namespace Sys2Proof.Machine

/-! ### Defaults of the unit tables -/

/-- A descriptor that is not there. -/
def noDesc : Desc := ⟨0, 0, [], 0, 0, .ended, 0, 0, none, 0, 0, 0, 0, false⟩
/-- A ring context's own state after enabling (R360). -/
def noRing : RingSt := ⟨none, 0, 0, [], 0, 0, none⟩
/-- A far end that is not there. -/
def noPeer : Peer := ⟨0, 0, false, 0, 0, 0, 0⟩
/-- A session that has never been opened (R408). -/
def noSession : Session := ⟨false, 0, 0, 0, noPeer, 0, 0, 0, 0, 0, 0, 0, [], none, 0, 0, []⟩
/-- A sequence that is not there. -/
def noSeq : Seq := ⟨none, none, 0, 0, .gone, 0, 0, 0, 0, 0, false, none, 0, 0, 0, 0, none, 0, 0, none, false, 0, 0⟩
/-- An empty program slot (R373). -/
def noSlot : ProgSlot :=
  ⟨0, 0, 0, none, 0, 0, 0, 0, 0, 0, 0, false, [], [], [], [], [], [], 0, 0, false, 0, [], false, false, false⟩

def State.desc (s : State) (id : Nat) : Desc := tget noDesc s.host.descs id
def State.setDesc (s : State) (id : Nat) (d : Desc) : State := { s with host := { s.host with descs := tput s.host.descs id d } }
def State.ring (s : State) (r : Nat) : RingSt := tget noRing s.host.rings r
def State.setRing (s : State) (r : Nat) (x : RingSt) : State := { s with host := { s.host with rings := tput s.host.rings r x } }
def State.ses (s : State) (n : Nat) : Session := tget noSession s.net.sessions n
def State.setSes (s : State) (n : Nat) (x : Session) : State :=
  { s with net := { s.net with sessions := tput s.net.sessions n x } }
def State.seq (s : State) (id : Nat) : Seq := tget noSeq s.net.seqs id
def State.setSeq (s : State) (id : Nat) (q : Seq) : State := { s with net := { s.net with seqs := tput s.net.seqs id q } }
def State.slot (s : State) (n : Nat) : ProgSlot := tget noSlot s.images.slots n
def State.setSlot (s : State) (n : Nat) (p : ProgSlot) : State :=
  { s with images := { s.images with slots := tput s.images.slots n p } }
def State.setStep (s : State) (x : Option StepSt) : State := { s with net := { s.net with step := x } }

/-- The identifier of the descriptor in flight at a ring position. -/
def State.findDesc (s : State) (ring pos : Nat) : Option Nat :=
  (s.host.descs.find? fun e => e.2.ring == ring && e.2.pos == pos).map (·.1)

/-- An instance's current generation (R387, R388). -/
def State.gen (s : State) (i : Nat) : Nat := s.fd (Reg.INST_STATUS_GENERATION i)

/-! ### The program area (R524, R525) -/

/-- Program header words (Table 16.2) and the program area's regions. -/
def ProgSlot.hw (p : ProgSlot) (k : Nat) : Nat := (p.header.getD k 0).toNat
def ProgSlot.areaBytes (p : ProgSlot) : Nat := p.hw 1 * 1024
def ProgSlot.staging (p : ProgSlot) : Nat := p.dramBase + p.hw 3 * 1024
def ProgSlot.stagingBytes (p : ProgSlot) : Nat := p.hw 4 * 1024
def ProgSlot.inBytes (p : ProgSlot) : Nat := p.hw 5
def ProgSlot.outBytes (p : ProgSlot) : Nat := p.hw 6

/-- Base and bytes of a section's spill area, with DRAM_BASE added (R524, Table 2.6). -/
def ProgSlot.spill (p : ProgSlot) (sec : Nat) : Nat × Nat :=
  let r := tget [] p.sections sec
  (p.dramBase + (r.getD 2 0).toNat + 2 ^ 32 * (r.getD 3 0).toNat, (r.getD 4 0).toNat * 1024)

/-- An address lies in a region of a base and a size. -/
def inRange (a base len : Nat) : Bool := decide (base ≤ a) && decide (a < base + len)

/-- The protected ranges of a program (R557): its area less the image copy, the staging region and the spill areas, and the input
and output areas of its sequences. -/
def State.protected (s : State) (slot a : Nat) : Bool :=
  let p := s.slot slot
  (inRange a p.dramBase p.areaBytes && ! inRange a p.dramBase p.bytes && ! inRange a p.staging p.stagingBytes &&
    ! p.sections.any fun e => inRange a (p.spill e.1).1 (p.spill e.1).2) ||
  s.net.seqs.any fun e => e.2.slot == slot && (inRange a e.2.inAddr p.inBytes || inRange a e.2.outAddr p.outBytes)

/-! ### The journal (R558) -/

/-- The undo record of a line: its prior contents, the address, the attempt number, and complements (R558). -/
def undoRecord (old : List Byte) (a attempt : Nat) : List Byte :=
  let w16 := lo32 a
  let w17 := BitVec.ofNat 32 (attempt % 256 * 2 ^ 24 + a / 2 ^ 32 % 256)
  old ++ wordBytes ([w16, w17, ~~~w16, ~~~w17] ++ List.replicate 12 0)

/-- The journal header: step number, attempt, record count and commit state, each with its complement (R558; the order is log
entry 20). -/
def journalHeader (number attempt count commit : Nat) : List Word :=
  [number, attempt, count, commit].flatMap fun v => [BitVec.ofNat 32 v, ~~~(BitVec.ofNat 32 v)]

/-- Records that the staging region holds (R558). -/
def ProgSlot.journalRoom (p : ProgSlot) : Nat := (p.stagingBytes - 64) / 128

/-- Writes the journal header of the step. -/
def State.putJournalHeader (s : State) (x : StepSt) : State :=
  s.wrWords (s.slot x.slot).staging (journalHeader x.number x.attempt x.journal (b2n x.committed))

/-- Appends the undo record of the 64-byte line that holds an address, before a journalled write (R558). -/
def State.journalLine (s : State) (a : Nat) : State :=
  match s.net.step with
  | none => s
  | some x =>
    let line := a / 64 * 64
    let t := s.wrBytes ((s.slot x.slot).staging + 64 + 128 * x.journal) (undoRecord (s.rdBytes line 64) line x.attempt)
    let y := { x with journal := x.journal + 1 }
    (t.putJournalHeader y).setStep (some y)

/-- Data with no other copy is lost (R494): DRAM_LOST records instance and address, and the event DATA_LOST is posted. -/
def State.lostRecord (s : State) (i a : Nat) : State :=
  let t := (s.setF Reg.DRAM_LOST_VALID 1).setF Reg.DRAM_LOST_INSTANCE i
  let t := (t.wrg Reg.DRAM_LOST_ADDR_LO (lo32 a)).wrg Reg.DRAM_LOST_ADDR_HI (BitVec.ofNat 32 (a / 2 ^ 32 % 256))
  t.post 0x14 10 (dramStop (stackOf a)) 5 (a % (96 * 2 ^ 30) / 8192) (some (i, 0)) none

/-- Rolls back one undo record: the line's bytes are written again when the record's complements hold; a record that fails its
check is a complement mismatch and lost data (R558, Table 17.5). -/
def State.undo (s : State) (inst base : Nat) (k : Nat) : State :=
  let at0 := base + 64 + 128 * k
  let w := s.rdWords (at0 + 64) 4
  if (w.getD 2 0) == ~~~(w.getD 0 0) && (w.getD 3 0) == ~~~(w.getD 1 0) then
    s.wrBytes ((w.getD 0 0).toNat + bits (w.getD 1 0) 7 0 * 2 ^ 32) (s.rdBytes at0 64)
  else (s.cplMismatch none (dramStop (stackOf at0)) 10 (at0 % (96 * 2 ^ 30) / 8192)).lostRecord inst at0

/-- Rolls back n records, newest first (R561, step 4). -/
def State.undoAll (s : State) (inst base : Nat) : Nat → State
  | 0 => s
  | n + 1 => (s.undo inst base n).undoAll inst base n

/-- Rolls the journal of the step back and empties it. -/
def State.rollback (s : State) : State :=
  match s.net.step with
  | none => s
  | some x =>
    let t := s.undoAll x.inst (s.slot x.slot).staging x.journal
    let y := { x with journal := 0, staged := [] }
    (t.putJournalHeader y).setStep (some y)

/-! ### Session datagrams out (R407 to R415) -/

/-- A session header (Table 12.3), with word 1 the complement of word 0. -/
def sesHeader (typ : Nat) (last group : Bool) (session seq ack sack reqId frag epoch len : Nat) : List Word :=
  let w0 := BitVec.ofNat 32 (2 ^ 28 + typ * 2 ^ 24 + b2n last * 2 ^ 23 + b2n group * 2 ^ 21 + session)
  [w0, ~~~w0, BitVec.ofNat 32 seq, BitVec.ofNat 32 ack, BitVec.ofNat 32 sack, BitVec.ofNat 32 reqId,
    BitVec.ofNat 32 (frag * 2 ^ 16), BitVec.ofNat 32 (epoch % 256 * 2 ^ 24 + len % 2 ^ 24)]

/-- Sends a datagram of a session to its recorded far end; every datagram carries the current ACK and SACK (R409), which it thereby
acknowledges. -/
def State.sesSend (s : State) (n typ : Nat) (last : Bool) (seq reqId frag : Nat) (payload : List Byte) : State :=
  let x := s.ses n
  let h := sesHeader typ last false n seq x.ack x.sack reqId frag x.epoch payload.length
  (s.setSes n { x with unacked := 0 }).emit
    (.datagram x.peer.port x.peer.sub x.peer.mac x.peer.ip x.peer.udp x.peer.vlan ⟨h, payload⟩)

/-- Cuts bytes into fragments of at most 8,192 bytes; at least one (log entry 21). -/
def fragments : Nat → List Byte → List (List Byte)
  | 0, _ => []
  | n + 1, bs => if bs.length ≤ 8192 then [bs] else bs.take 8192 :: fragments n (bs.drop 8192)

def cutReply (bs : List Byte) : List (List Byte) := fragments (bs.length / 8192 + 1) bs

/-- Sends REPLY fragments from an index on, taking sequence numbers in turn. -/
def State.sendFrags (s : State) (n reqId : Nat) (total : Nat) : Nat → List (List Byte) → State
  | _, [] => s
  | k, f :: fs =>
    let x := s.ses n
    let t := (s.setSes n { x with txSeq := x.txSeq + 1 }).sesSend n 4 (k + 1 == total) (x.txSeq + 1) reqId k f
    t.sendFrags n reqId total (k + 1) fs

/-- The reply record (Table 12.5). -/
def replyRecord (status detail qwait run preempt replay total steps : Nat) : List Word :=
  [BitVec.ofNat 32 (status * 2 ^ 28 + detail * 2 ^ 16), BitVec.ofNat 32 qwait, BitVec.ofNat 32 run,
    BitVec.ofNat 32 (min preempt 65535 * 2 ^ 16 + min replay 65535), BitVec.ofNat 32 total, BitVec.ofNat 32 steps, 0, 0]

/-- Stores the reply of a request, keeps it for resending (R412), and sends its fragments. -/
def State.reply (s : State) (n reqId : Nat) (bytes : List Byte) : State :=
  let x := s.ses n
  let fs := cutReply bytes
  let y := { x with requests := x.requests.map fun r =>
    if r.reqId == reqId then { r with reply := some fs, replySeq := x.txSeq + 1, seqId := none } else r }
  (s.setSes n y).sendFrags n reqId fs.length 0 fs

/-! ### Groups (R416, R417) -/

/-- A destination of a group: its sub-port's link is up, and whether its priority is paused (R417, R403). -/
def State.dstUp (s : State) (g d : Nat) : Bool :=
  (s.fd (Reg.ETH_STATUS_LINK_UP (s.fd (Reg.GRP_DST_PORT g d)))).testBit (s.fd (Reg.GRP_DST_SUB g d))

def State.dstPaused (s : State) (g d : Nat) : Bool :=
  decide (0 < tget 0 s.net.paused ((4 * s.fd (Reg.GRP_DST_PORT g d) + s.fd (Reg.GRP_DST_SUB g d)) * 8 + s.fd (Reg.GRP_DST_PCP g d)))

/-- Sends the fragments of a group reply to a destination (R416): GROUP set, SESSION, EPOCH, SEQ and ACK 0. -/
def State.groupSend (s : State) (g d reqId total : Nat) : Nat → List (List Byte) → State
  | _, [] => s
  | k, f :: fs =>
    let h := sesHeader 4 (k + 1 == total) true 0 0 0 0 reqId k 0 f.length
    let mac := (s.rg (Reg.GRP_DST_MAC_LO g d)).toNat + 2 ^ 32 * s.fd (Reg.GRP_DST_MAC_HI_MAC g d)
    let ip := ((List.range 4).map fun q => (s.rg (Reg.GRP_DST_IP g d q)).toNat * 2 ^ (32 * q)).sum
    (s.emit (.datagram (s.fd (Reg.GRP_DST_PORT g d)) (s.fd (Reg.GRP_DST_SUB g d)) mac ip (s.fd (Reg.GRP_DST_UDP_UDP g d))
      (s.fd (Reg.GRP_DST_VLAN g d)) ⟨h, f⟩)).groupSend g d reqId total (k + 1) fs

/-- Decides one destination of a group reply when the reply is ready, or when its pause ends (R417). -/
def State.groupDest (s : State) (g reqId : Nat) (fs : List (List Byte)) (d : GroupDest) : State × GroupDest :=
  if d.outcome ≠ 0 then (s, d)
  else if ! s.dstUp g d.dest then (s.inc Reg.GRP_DOWN_DROPPED, { d with outcome := 3 })
  else if s.dstPaused g d.dest then (s, { d with heldFrom := d.heldFrom.orElse fun _ => some s.clk })
  else ((s.groupSend g d.dest reqId fs.length 0 fs).inc Reg.GRP_DELIVERED, { d with outcome := 1 })

/-- Goes over the destinations of a group reply in order. -/
def State.groupDests (s : State) (g reqId : Nat) (fs : List (List Byte)) : List GroupDest → State × List GroupDest
  | [] => (s, [])
  | d :: ds =>
    let a := s.groupDest g reqId fs d
    let b := a.1.groupDests g reqId fs ds
    (b.1, a.2 :: b.2)

/-- The GROUP_REPORT of a group reply, once every destination is resolved (R416); one with a dropped destination sets IRQ_STATUS.SESSION. A
session that has closed meanwhile (number 4,096) is told nothing. -/
def State.groupReport (s : State) (r : GroupReply) : State :=
  let n (k : Nat) := BitVec.ofNat 32 (r.dests.filter fun d => d.outcome == k).length
  let x := s.ses r.session
  if ! x.opened then s
  else
    let t := (s.setSes r.session { x with txSeq := x.txSeq + 1 }).sesSend r.session 9 true (x.txSeq + 1) r.reqId 0
      (wordBytes [n 1, n 2, n 3, 0])
    t.cond (r.dests.any fun d => decide (2 ≤ d.outcome)) fun u => u.irq 5

/-- Takes a group reply a step further: sends what may be sent, and reports when all destinations are resolved. -/
def State.groupStep (s : State) (r : GroupReply) : State :=
  let a := s.groupDests r.group r.reqId r.payload r.dests
  let r' := { r with dests := a.2 }
  if r'.dests.all fun d => d.outcome ≠ 0 then a.1.groupReport r'
  else { a.1 with net := { a.1.net with groups := a.1.net.groups ++ [r'] } }

/-! ### The end of a sequence (R380, R411, R423) -/

/-- The times of a sequence in au (R381, R423): QWAIT to its start, or to now when it never started; RUN_TIME from its start. -/
def State.seqTimes (s : State) (q : Seq) : Nat × Nat :=
  match q.startAt with
  | some t => (auDiff q.readyAt t, auDiff t s.now)
  | none => (auDiff q.readyAt s.now, 0)

/-- Adds a finished sequence to its instance's totals (R423, Table 12.10). -/
def State.account (s : State) (i qwait preempt : Nat) : State :=
  ((s.inc64 (Reg.ACC_QWAIT_LO i) qwait).inc64 (Reg.ACC_PREEMPT_LO i) preempt).inc64 (Reg.ACC_DONE_LO i) 1

/-- A request names a reply group (Table 12.5): the record's word 6 of the kept fragments. -/
def Request.record (r : Request) (k : Nat) : Word := BitVec.ofNat 32 (leVal (((tget [] r.frags 0).drop (4 * k)).take 4))

/-- Ends a sequence with a status and detail. A RUN's descriptor is marked ended, and its completion follows by
DESCRIPTOR_COMPLETE; a request's reply is sent, to its group where it names one (R416, R419); a deadline that no lock let be evaluated is
counted (R347). -/
def State.endSeq (s : State) (id status detail : Nat) : State :=
  let q := s.seq id
  if q.state == .gone then s else
  let st := if status == 0 && q.late then (1, 1) else (status, detail)
  let tm := s.seqTimes q
  let t := (s.setSeq id { q with state := .gone }).account q.inst tm.1 q.preempt
  match q.desc, q.session with
  | some d, _ =>
    let x := t.desc d
    t.setDesc d { x with state := .ended, start := q.startAt, status := st.1, detail := st.2, preempt := q.preempt, replay := q.replay }
  | none, some (n, reqId) =>
    let x := t.ses n
    let t := t.setSes n { x with qwait := x.qwait + tm.1, preempt := x.preempt + q.preempt }
    let t := t.cond (q.deadline.isSome && ! t.on Reg.TB_STATUS_FIRST_LOCK) fun u => u.inc Reg.DL_UNCHECKED
    let nb := (t.rdW (q.outAddr + 4)).toNat
    let payload := if st.1 ≤ 1 then t.rdBytes (q.outAddr + 64) nb else []
    let grp := (x.requests.find? fun r => r.reqId == reqId).bind fun r =>
      if bit (r.record 6) 31 then some (bits (r.record 6) 7 0) else none
    match grp with
    | none =>
      t.reply n reqId (wordBytes (replyRecord st.1 st.2 tm.1 tm.2 q.preempt q.replay (32 + payload.length) q.stepsRun) ++ payload)
    | some g =>
      let t := t.reply n reqId (wordBytes (replyRecord st.1 st.2 tm.1 tm.2 q.preempt q.replay 32 q.stepsRun))
      t.groupStep ⟨g, n, reqId, cutReply payload, (List.range (t.fd (Reg.GRP_COUNT g))).map fun d => ⟨d, none, 0⟩⟩
  | none, none => t

/-- The sequences of the step, over its micro-batches. -/
def StepSt.seqIds (x : StepSt) : List Nat := x.members.flatten

/-- The channels and streams of a cluster restart (R283): receive buffers are emptied, and credits, sequence numbers and stream
instances begin again at the next binding; the scoreboard entries of its streams go. -/
def ClusterSt.restartUnits (c : ClusterSt) : ClusterSt :=
  { c with streams := [], sends := [], recvs := [], board := c.board.filter fun e => ! e.stream }

/-- Stops issue on every cluster of the step, whose channels and streams restart (R349, steps 1 and 3). -/
def State.stopClusters (s : State) : State :=
  { s with clusters := s.clusters.map fun e => (e.1, e.2.stopStep.restartUnits) }

/-- Open barrier episodes end without release (R316). -/
def State.endEpisodes (s : State) : State :=
  { s with barriers := s.barriers.map fun e => (e.1, { e.2 with arrived := [] }) }

/-- Ends the step with a program error: nothing of it is committed, the journal is rolled back, and its sequences complete with
PROGRAM_ERROR and the detail (R298, Table 11.7; which sequences end is log entry 22). -/
def State.programError (s : State) (detail : Nat) : State :=
  match s.net.step with
  | none => s
  | some x =>
    if x.committed then s else
    let t := ((s.stopClusters).endEpisodes).rollback
    (t.each x.seqIds fun u id => u.endSeq id 3 detail).setStep none

/-- Abandons one sequence of the step (R349, R350): issue stops, nothing commits, episodes end; the other sequences of the step
restart it without the abandoned one, each with one pre-emption. A step past its commit point stands, and awaits its REMOTE advances no
longer (R466). A sequence not in the step completes without running. -/
def State.abandonSeq (s : State) (id detail : Nat) : State :=
  match s.net.step with
  | none => (s.endSeq id 2 detail).inc Reg.DL_ABANDONS
  | some x =>
    if x.seqIds.contains id && ! x.committed then
      let t := ((s.stopClusters).endEpisodes).rollback
      let t := (t.endSeq id 2 detail).inc Reg.DL_ABANDONS
      let rest := x.seqIds.filter (· ≠ id)
      -- an undo record that failed its check loses data of the whole run (R494)
      if t.rg Reg.FH_CPL_MISMATCH ≠ s.rg Reg.FH_CPL_MISMATCH then (t.each rest fun u k => u.endSeq k 2 0).setStep none else
      let t := (t.each rest fun u k => u.setSeq k { u.seq k with preempt := (u.seq k).preempt + 1, state := .displaced }).setStep none
      if rest.isEmpty then t else { t with net := { t.net with restart := some x.slot } }
    else
      let t := (s.endSeq id 2 detail).inc Reg.DL_ABANDONS
      if x.seqIds.contains id then t.setStep (some { x with remoteWait := [] }) else t

/-- Data with no other copy is lost (R494), and the affected run is abandoned with detail NONE. -/
def State.dataLost (s : State) (i a : Nat) : State :=
  let t := s.lostRecord i a
  match t.net.step with
  | none => t
  | some x => if x.inst == i then t.each x.seqIds fun u id => u.abandonSeq id 0 else t

end Sys2Proof.Machine
end

