-- ==== Sys2Proof/Machine/Sequencer.lean ====
section
/-! DEFINITION. The sequencer of a cluster (chapter 2): issuing a slot, program errors and scratchpad errors it meets, contexts,
plane switches, barriers (chapter 9), and the debug controls of R92. -/

namespace Sys2Proof.Machine

/-! ### Errors that a cluster raises -/

/-- The bit of INST_EVENTS that an event class sets (Table 11.12), if any. -/
def instBit (cls : Nat) : Option Nat :=
  match cls with
  | 2 => some 4
  | 3 => some 3
  | 7 => some 2
  | _ => none

/-- Posts an event that names a cluster, its instance and section (R571), and sets the instance's own event bit (Table 11.12). -/
def State.clusterEvent (s : State) (n cls unit action detail : Nat) : State :=
  let t := s.post cls unit (clusterStop n) action detail (s.net.step.map fun x => (x.inst, x.sect)) ((s.lcsOf n).head?)
  match s.net.step, instBit cls with
  | some x, some b => t.instEvent x.inst b
  | _, _ => t

/-- An extent fault of any source (R248, R249, R258): EXTENT_FAULTS advances, the first of a run is posted, and the run ends with
PROGRAM_ERROR and detail EXTENT. -/
def State.extentFault (s : State) (n : Nat) : State :=
  let t := s.inc (Reg.EXTENT_FAULTS n)
  (t.cond t.net.step.isSome fun u => u.clusterEvent n 0x01 0 0 0).programError 6

/-- An extent fault of Table 7.7 with its record (R249): source, loop table, operand, slot, address and position. -/
def State.loopFault (s : State) (n source lt op k slot : Nat) (addr : Int) (pos : Nat) : State :=
  let t := s.cond (! s.on (Reg.LOOP_FAULT_VALID n)) fun u =>
    let u := (u.setF (Reg.LOOP_FAULT_VALID n) 1).setF (Reg.LOOP_FAULT_SOURCE n) source
    let u := ((u.setF (Reg.LOOP_FAULT_LT n) lt).setF (Reg.LOOP_FAULT_OPERAND n) op).setF (Reg.LOOP_FAULT_PLANE n) (k / 4)
    let u := (u.setF (Reg.LOOP_FAULT_CTX n) (k % 4)).setF (Reg.LOOP_FAULT_SLOT n) slot
    (u.wrg (Reg.LOOP_FAULT_ADDR n) (BitVec.ofInt 32 addr)).wrg (Reg.LOOP_FAULT_POS n) (BitVec.ofNat 32 pos)
  t.extentFault n

/-- Misuse of a slot, channel, counter or stream: the run ends with PROGRAM_ERROR and detail FLOW (Table 11.7). -/
def State.flowError (s : State) : State := s.programError 9

/-- Writes the record of Table 8.9 when none is held: the address of the faulting line and the block, where the kind has them; the manual
states no value for those it does not have (log entry 2). -/
def State.strFault (s : State) (n kind k desc slot pkg : Nat) (addr block : Option Nat) : State :=
  s.cond (! s.on (Reg.STR_FAULT_VALID n)) fun u =>
    let u := ((u.setF (Reg.STR_FAULT_VALID n) 1).setF (Reg.STR_FAULT_KIND n) kind).setF (Reg.STR_FAULT_DESC n) desc
    let u := ((u.setF (Reg.STR_FAULT_PLANE n) (k / 4)).setF (Reg.STR_FAULT_CTX n) (k % 4)).setF (Reg.STR_FAULT_SLOT n) slot
    let lo := match addr with | some a => (lo32 a, u) | none => u.free
    let hi := match addr with | some a => (BitVec.ofNat 32 (a / 2 ^ 32), lo.2) | none => lo.2.free
    let bl := match block with | some b => (BitVec.ofNat 32 b, hi.2) | none => hi.2.free
    let u := (bl.2.wrg (Reg.STR_FAULT_ADDR_LO n) lo.1).wrg (Reg.STR_FAULT_BLOCK n) bl.1
    u.wrg (Reg.STR_FAULT_ADDR_HI n) (BitVec.ofNat 32 (pkg * 2 ^ 16 + hi.1.toNat % 256))

/-- Corrected errors of scratchpad reads (R198, R215): counted, and at 16 in one bank since cold reset reported. -/
def State.spCorrected (s : State) (n : Nat) (addrs : List (BitVec 23)) : State :=
  s.each addrs fun t a =>
    let b := bits a 10 6
    let k := tget 0 (t.cl n).corrected b + 1
    let t := (t.upCl n fun c => { c with corrected := tput c.corrected b k }).inc (Reg.SP_ECC_CORR n)
    if k = 16 then t.report (clusterStop n) 3 b true else t

/-- What the error check of a read finds (R198): an uncorrectable word is recorded, stops issue and is reported with its bank. The
answer tells whether the read returned data. -/
def State.spEcc (s : State) (n : Nat) (e : SpEcc) : State × Bool :=
  match e with
  | .clean => (s, true)
  | .corrected l => (s.spCorrected n l, true)
  | .uncorrectable a =>
    let t := s.cond (! s.on (Reg.SP_ECC_UNCORR_VALID n)) fun u =>
      (u.setF (Reg.SP_ECC_UNCORR_VALID n) 1).setF (Reg.SP_ECC_UNCORR_ADDR n) a.toNat
    let bank := if t.on (Reg.SP_BANK_MAP_USED n) && t.fd (Reg.SP_BANK_MAP_BANK n) == bits a 10 6 then 32 else bits a 10 6
    ((t.upCl n fun c => c.stopStep).report (clusterStop n) 3 bank false, false)

/-- A bank conflict met by an operation (R204 to R207). In strict mode the conflicting access is not served and the run ends; the
answer tells whether the operation goes on. -/
def State.conflict (s : State) (n k slot : Nat) (x : Option Conflict) : State × Bool :=
  match x with
  | none => (s, true)
  | some f =>
    let strict := (s.cl n).strict
    let t := s.cond (! s.on (Reg.SP_CONFLICT_VALID n) || (strict && ! s.on (Reg.SP_CONFLICT_STRICT n))) fun u =>
      let u := (u.setF (Reg.SP_CONFLICT_VALID n) 1).setF (Reg.SP_CONFLICT_STRICT n) (b2n strict)
      let u := (u.setF (Reg.SP_CONFLICT_REQ_FIRST n) f.reqFirst.toNat).setF (Reg.SP_CONFLICT_REQ_SECOND n) f.reqSecond.toNat
      let u := (u.setF (Reg.SP_CONFLICT_BANK n) f.bank.val).setF (Reg.SP_CONFLICT_PLANE n) (k / 4)
      let u := (u.setF (Reg.SP_CONFLICT_CTX n) (k % 4)).setF (Reg.SP_CONFLICT_SLOT n) slot
      (u.wrg (Reg.SP_CONFLICT_ADDR_1 n) (f.addr1.zeroExtend 32)).wrg (Reg.SP_CONFLICT_ADDR_2 n) (f.addr2.zeroExtend 32)
    let run := t.net.step.bind fun y => y.seqIds.head?
    let t := if run.isSome && (t.cl n).confRun ≠ run then
        (t.upCl n fun c => { c with confRun := run }).clusterEvent n 0x02 3 0 f.bank.val else t
    let t := (t.incN (Reg.SP_CONFLICTS n) f.extra)
    if strict then (t.programError 8, false) else (t.incN (Reg.SP_SLIP_CYCLES n) f.slip, true)

/-! ### Issue (R55, R57, R92) -/

/-- The gating predicate of a slot, after PNEG (R57). -/
def predOn (c : Ctx) (x : SlotCtl) : Bool := (x.pred.val == 0 || bit c.preds x.pred.val) != x.pneg

/-- Issues a slot of the running context: nothing issues on a stopped or fenced cluster, and on a halted one only a single step
(R92). The slot's own meaning gets the context and whether its predicate is on. -/
def State.issue (s : State) (n : Nat) (x : SlotCtl) (f : Nat → Bool → State → State) : Out :=
  let c := s.cl n
  match c.running with
  | none => .next s
  | some k =>
    if c.stopped || s.isFenced n || (s.on (Reg.SEQ_DEBUG_HALT n) && ! c.stepOne) then .next s
    else .next (f k (predOn (c.ctx k) x) (s.upCl n fun c => { c with stepOne := false }))

/-- The slot pointer moves past a one-word slot. -/
def State.pass (s : State) (n k : Nat) : State := s.upCl n fun c => c.advance k 1

/-- The running context waits at its slot (R61). -/
def State.waitAt (s : State) (n k : Nat) (w : Wait) (x : SlotCtl) : State := s.upCl n fun c => c.waitFor k w x.accLive

/-! ### The scoreboard at issue (R210, R211) -/

/-- The output offset of a MATRIX operation, in elements (R233). -/
def Plane.outOffset (p : Plane) (t : Nat) (idx : List Nat) : Int :=
  if p.inUse t 3 then
    ((List.range (p.levels t)).map fun l => if p.elems t ≤ p.order t l then (idx.getD l 0 : Int) * p.stride t l 3 else 0).sum
  else 0

/-- The output ranges of an epilogue as line ranges: rows, and BS4 scales or indices where it writes them (R148, R233). -/
def Plane.epiRanges (p : Plane) (o : MatOp) : List (Nat × Nat) :=
  let e := o.epiIdx
  let off := p.outOffset o.lt o.idx
  let w := fmtWidth (p.ed e 0 31 28)
  let at0 (k : Nat) (width : Nat) : Nat := ((p.ed e k 22 0 : Int) + (off * width).fdiv 8).toNat
  let span (a stride len : Nat) : Nat × Nat := lineRange a (a + (o.rows - 1) * stride + len)
  let rows := span (at0 1 w) (p.ed e 2 22 0) (16 * w)
  let sc := if p.ed e 0 31 28 = 6 then [span (at0 6 4) 4 4] else []
  let ix := if p.ed e 0 15 15 = 1 then [span (at0 7 32) (p.ed e 8 22 0) 512] else []
  rows :: (sc ++ ix)

/-- The destination ranges of a vector operation: operand 3's declared extent in scratchpad, and its record (R183). -/
def Plane.vecRanges (p : Plane) (o : VecOp) : List (Nat × Nat) :=
  (if o.dst = 0 then [lineRange (p.extLo o.lt 3) (p.extHi o.lt 3)] else []) ++
    (if o.sumsq then [lineRange o.aux (o.aux + 16)] else [])

/-- Write ranges of operations that have issued and not yet entered (R210). -/
def ClusterSt.queuedRanges (c : ClusterSt) : List (Nat × Nat) :=
  let mats := c.arrayQ.toList ++ (c.arrays.map (·.op)) ++ (c.epiQ.map (·.op))
  ((mats.filter fun o => o.epi && o.on).flatMap fun o => (c.plane o.plane).epiRanges o) ++
    ((c.vecQ.toList.filter (·.on)).flatMap fun o => (c.plane o.plane).vecRanges o)

/-- How the scoreboard treats a slot that reads these line ranges (R211): it holds in place behind a scheduled or queued write, waits
behind a stream write, or may issue. -/
def ClusterSt.held (c : ClusterSt) (rs : List (Nat × Nat)) : Bool :=
  rs.any fun r => c.overlaps false r || c.queuedRanges.any fun q => meets r.1 r.2 q.1 q.2
def ClusterSt.behindStream (c : ClusterSt) (rs : List (Nat × Nat)) : Option (Nat × Nat) := rs.find? (c.overlaps true)

/-- Issues a slot that reads scratchpad ranges: it holds, waits with WAIT_KIND 6, or has its effect (R210, R211). -/
def State.readSlot (s : State) (n k : Nat) (x : SlotCtl) (rs : List (Nat × Nat)) (f : State → State) : State :=
  let c := s.cl n
  if c.held rs then s
  else match c.behindStream rs with
    | some r => s.waitAt n k (.board r.1 r.2) x
    | none => f s

/-! ### NOP, LOOP, PRED (R54, R226, R59, R662) -/

/-- NOP (R54). -/
def execNop (n : Fin 576) (x : SlotCtl) (s : State) : Out := s.issue n x fun k _ t => t.pass n k

/-- The loop table that uses level l as a tile level (R226). -/
def Plane.tileTable (p : Plane) (l : Nat) : Nat :=
  ((List.range p.loopTables).find? fun t => decide (l < p.levels t) && decide (p.elems t ≤ p.order t l)).getD 0

/-- LOOP (R226): adds 1 to the level's index, and jumps back while it is below the level's bound. -/
def execLoop (n : Fin 576) (x : SlotCtl) (l : Fin 6) (target : BitVec 12) (s : State) : Out :=
  s.issue n x fun k on t =>
    if ! on then t.pass n k else
    t.upCl n fun c =>
      let y := c.ctx k
      let p := c.plane (k / 4)
      let i := y.idx.getD l 0 + 1
      if i < p.bound c.bkt (p.tileTable l) l then c.setCtx k { y with idx := y.idx.set l i, slotPtr := target.toNat }
      else c.setCtx k { y with idx := y.idx.set l 0, slotPtr := y.slotPtr + 1 }

/-- The actual extent of a level for a context (R237). -/
def Plane.actual (p : Plane) (b t l : Nat) (y : Ctx) : Nat :=
  let bound := p.bound b t l
  match p.dynDim t l with
  | none => bound
  | some d =>
    let a := if d = 0 then y.size0 else y.size1
    let rest := ((List.range (p.levels t)).map fun j =>
      if j ≠ l ∧ p.dim t j = p.dim t l ∧ p.elems t ≤ p.order t j then y.idx.getD j 0 * p.weight t j else 0).sum
    if a ≤ rest then 0 else if p.weight t l = 0 then bound else min bound (ceilDiv (a - rest) (p.weight t l))

/-- The value that a PRED slot's source gives (R59, R662). -/
def ClusterSt.predValue (c : ClusterSt) (k : Nat) (src : PredSrc) : Bool :=
  let y := c.ctx k
  match src with
  | .const v => v
  | .level t l => decide (y.idx.getD l 0 < (c.plane (k / 4)).actual c.bkt t l y)
  | .tile ep => tget false y.tiles ep
  | .byte a => bit (c.rd a.toNat) 0

/-- PRED (R59, R662): writes a predicate bit. With the scratchpad source the read is made whatever the predicate (R57). -/
def execPred (n : Fin 576) (x : SlotCtl) (pbit : Fin 8) (src : PredSrc) (ecc : SpEcc) (s : State) : Out :=
  s.issue n x fun k on t =>
    let set (u : State) : State :=
      (if on then u.upCl n fun c => c.setPred k pbit (c.predValue k src) else u).pass n k
    match src with
    | .byte a => t.readSlot n k x [lineRange a.toNat (a.toNat + 1)] fun u =>
        let r := u.spEcc n ecc
        if r.2 then set r.1 else r.1
    | _ => set t

/-! ### Binding contexts (R67, R120, R240, R282) -/

/-- The mode of a program slot's batch (R418). -/
def State.batMode (s : State) (slot : Nat) : Nat := if s.on (Reg.BAT_CTRL_VALID slot) then s.fd (Reg.BAT_CTRL_MODE slot) else 0

/-- The actual sizes of a micro-batch (R418): in mode 1, its number of sequences, and the largest second size. -/
def State.microSizes (s : State) (slot : Nat) (ids : List Nat) : Nat × Nat :=
  if s.batMode slot = 1 then (ids.length, (ids.map fun i => (s.seq i).size1).foldl max 0)
  else match ids with
    | i :: _ => ((s.seq i).size0, (s.seq i).size1)
    | [] => (0, 0)

/-- The words of some plane of a section of a program, where its bucket table and its CONTEXTS are read: every plane of a section carries the
same table (R238), and channel peers the same CONTEXTS (R270). -/
def ProgSlot.planeOf (p : ProgSlot) (sect : Nat) : Table Word :=
  match p.planes.find? fun e => e.1 / 65536 == sect && e.1 / 32768 % 2 == 0 with
  | some e => e.2
  | none => []
def ProgSlot.sizes (p : ProgSlot) (sect b : Nat) : Nat × Nat :=
  let ws := p.planeOf sect
  ((tget (0 : Word) ws (0x9E40 / 4 + 8 * b)).toNat, (tget (0 : Word) ws (0x9E40 / 4 + 8 * b + 1)).toNat)

/-- The smallest bucket of a section that covers sizes (R50, R239); a dimension that the section does not use is ignored. -/
def ProgSlot.bucketFor (p : ProgSlot) (sect : Nat) (zs : List (Nat × Nat)) : Option Nat :=
  (List.range (bits ((tget [] p.sections sect).getD 0 0) 15 12)).find? fun b =>
    let z := p.sizes sect b
    zs.all fun a => (z.1 == 0 || decide (a.1 ≤ z.1)) && (z.2 == 0 || decide (a.2 ≤ z.2))

/-- The bucket of a section for the micro-batches of the step (R240). -/
def State.selectBucket (s : State) (x : StepSt) (sect : Nat) : Nat :=
  ((s.slot x.slot).bucketFor sect ((x.members.filter (· ≠ [])).map (s.microSizes x.slot))).getD 0

/-- Whether an endpoint table or a stream of a context was left unfinished at its binding (R282). -/
def ClusterSt.unfinishedTile (c : ClusterSt) (k : Nat) (keep : Bool) : Option Nat :=
  (List.range 8).find? fun j => let r := c.recvEp (epKey k j); if keep then r.stale else decide (r.tiles ≠ [])
def ClusterSt.unfinishedStream (c : ClusterSt) (k : Nat) : Option Nat :=
  (List.range 16).find? fun d => decide ((c.strm (strmKey k d)).p < (c.strm (strmKey k d)).b)

/-- Binds the endpoints and streams of a context afresh: credits at CREDITS, counts at 0 (R261, R272, R80). `keep` leaves the receive
side as it is, where tiles were held for an incoming plane (R79). -/
def ClusterSt.bindUnits (c : ClusterSt) (k : Nat) (keep : Bool) : ClusterSt :=
  let p := c.plane (k / 4)
  let c := (List.range 16).foldl (fun c d => { c with streams := tdel c.streams (strmKey k d) }) c
  (List.range 8).foldl (fun c i =>
    let c := if p.sb i 31 31 = 1 then c.setSend (epKey k i) ⟨true, p.sb i 14 11, 0, 0, 0⟩
      else { c with sends := tdel c.sends (epKey k i) }
    if keep then c else { c with recvs := tdel c.recvs (epKey k i) }) c

/-- The binding itself: READY, slot 0, indices 0, actual sizes and step number of the micro-batch (R67, R120, R240). -/
def State.bind1 (s : State) (n k i : Nat) (ids : List Nat) (slot : Nat) (keep : Bool) : State :=
  let z := s.microSizes slot ids
  s.upCl n fun c =>
    (c.bindUnits k keep).setCtx k { c.ctx k with
      st := .ready
      wait := .none
      accLive := false
      slotPtr := 0
      idx := [0, 0, 0, 0, 0, 0]
      tag := some i
      number := (s.seq i).stepNo
      size0 := z.1
      size1 := z.2
      tiles := [] }

/-- Binds one context of an incoming or active plane to a micro-batch (R67): READY at slot 0 with its loop indices at 0. -/
def State.bindCtx (s : State) (n k : Nat) (ids : List Nat) (slot : Nat) (keep : Bool) : State :=
  match ids with
  | [] => s.upCl n fun c => c.setCtx k { c.ctx k with st := .free, tag := none }
  | i :: _ =>
    let c := s.cl n
    match c.unfinishedTile k keep, c.unfinishedStream k with
    | some j, _ =>
      let u := s.incN (Reg.CH_DROPPED n) ((c.recvEp (epKey k j)).tiles.length)
      (u.cond (! u.on (Reg.CH_FAULT_VALID n)) fun u =>
        let u := ((u.setF (Reg.CH_FAULT_VALID n) 1).setF (Reg.CH_FAULT_KIND n) 2).setF (Reg.CH_FAULT_EP n) j
        ((u.setF (Reg.CH_FAULT_CTX n) (k % 4)).setF (Reg.CH_FAULT_PLANE n) (k / 4)).setF (Reg.CH_FAULT_SLOT n) 0).flowError
    | none, some d =>
      (s.strFault n 3 k d (c.strm (strmKey k d)).slot 0 none (some (c.strm (strmKey k d)).p)).flowError
    | none, none => s.bind1 n k i ids slot keep

end Sys2Proof.Machine
end

