-- ==== Sys2Proof/Machine/Contexts.lean ====
section
/-! DEFINITION. Ends, switches and boundaries of a cluster's contexts and planes: YIELD, END, context and plane switches (chapter 2),
barriers inside a section, and the step's release at a cluster (chapter 9), and the debug controls. -/

namespace Sys2Proof.Machine

/-! ### Sections of the step (R48, R78, R79) -/

/-- The sections of a program in SECTION_ID order: the next one after a section, and whether a section's exit is fused (Table 2.6). -/
def ProgSlot.nextSect (p : ProgSlot) (sect : Nat) : Option Nat := (p.sections.find? fun e => decide (sect < e.1)).map (·.1)
def ProgSlot.exitChain (p : ProgSlot) (sect : Nat) : Bool := bit ((tget [] p.sections sect).getD 0 0) 0

/-- The sections that follow a section over fused boundaries. -/
def ProgSlot.chain (p : ProgSlot) : Nat → Nat → List Nat
  | 0, _ => []
  | f + 1, sect => if p.exitChain sect then (match p.nextSect sect with | some t => t :: p.chain f t | none => []) else []

/-- The planes of a section of a program on a cluster, in ascending number, in one of the given states. -/
def ClusterSt.planesOf (c : ClusterSt) (slot sect : Nat) (sts : List Nat) : List Nat :=
  (List.range 8).filter fun p => let x := c.plane p; x.slot == slot && x.sect == sect && sts.contains x.st

/-- The section whose planes are ACTIVE on a cluster. -/
def ClusterSt.activePlane (c : ClusterSt) : Option Nat := (List.range 8).find? fun p => (c.plane p).st == 3

/-- Every cluster that the repair map binds has the planes of a section RESIDENT or ACTIVE (R78). -/
def State.sectionResident (s : State) (slot sect : Nat) : Bool :=
  (List.range 512).all fun lc =>
    let c := s.cl (s.physOf lc)
    (List.range 8).any fun p => let x := c.plane p; x.slot == slot && x.sect == sect && (x.st == 2 || x.st == 3)

/-- A section may start: its planes, and over a fused exit those of the next section too, are RESIDENT or ACTIVE on every cluster (R78, R79,
Table 16.6; log entry 23). -/
def State.startable (s : State) (slot sect : Nat) : Bool :=
  let p := s.slot slot
  s.sectionResident slot sect && match p.nextSect sect, p.exitChain sect with
    | some t, true => s.sectionResident slot t
    | _, _ => true

/-- A plane's tiles are held, since it belongs to a section that follows the active one over fused boundaries (R79, R279). -/
def State.incoming (s : State) (n p : Nat) : Bool :=
  let c := s.cl n
  let x := c.plane p
  match s.net.step, c.activePlane with
  | some y, some a => x.st == 2 && x.slot == y.slot && ((s.slot y.slot).chain 64 (c.plane a).sect).contains x.sect
  | _, _ => false

/-- The release of a staged boundary: once all clusters have arrived and the incoming planes are RESIDENT everywhere, every cluster
begins its switch (R78). -/
def State.tryBoundary (s : State) : State :=
  match s.net.step with
  | none => s
  | some x =>
    match (s.slot x.slot).nextSect x.sect with
    | none => s
    | some t =>
      if decide (x.arrived.length < 512) || (s.slot x.slot).exitChain x.sect || ! s.sectionResident x.slot t then s
      else
        let u := s.setStep (some { x with sect := t, arrived := [] })
        { u with clusters := u.clusters.map fun e =>
            (e.1, if (e.2.planesOf x.slot t [2]).isEmpty then e.2
              else { e.2 with switch := some ⟨x.slot, t, x.inst, false, false⟩, arrived := false }) }

/-- Whether every context of a cluster is DONE or FREE (R63). -/
def ClusterSt.allDone (c : ClusterSt) : Bool := (List.range 32).all fun k => (c.ctx k).st == .done || (c.ctx k).st == .free

/-- A cluster's outgoing work has ended (R63, R79, R314): at a fused exit its switch is armed, else it arrives, once for every logical
cluster it holds, at the boundary's barrier. -/
def State.clusterEnds (s : State) (n : Nat) : State :=
  let c := s.cl n
  match s.net.step with
  | none => s
  | some x =>
    if ! c.allDone || c.arrived then s else
    let sect := (c.activePlane.map fun p => (c.plane p).sect).getD x.sect
    let p := s.slot x.slot
    match p.nextSect sect, p.exitChain sect with
    | some t, true => s.upCl n fun c => { c with switch := some ⟨x.slot, t, x.inst, true, false⟩ }
    | _, _ =>
      let lcs := (s.lcsOf n).filter fun l => ! x.arrived.contains l
      -- the section of the step follows the clusters over fused boundaries
      let u := (s.setStep (some { x with arrived := x.arrived ++ lcs, sect := sect })).upCl n fun c => { c with arrived := true }
      u.tryBoundary

/-! ### Barriers inside a section (R310 to R316) -/

/-- The key of a barrier's node. -/
def barKey (sect bid : Nat) : Nat := 16 * sect + bid
def noBarrier : BarrierSt := ⟨[], [], 0, false⟩
def State.bar (s : State) (k : Nat) : BarrierSt := tget noBarrier s.barriers k
def State.setBar (s : State) (k : Nat) (b : BarrierSt) : State := { s with barriers := tput s.barriers k b }

/-- The key of a plane of a program (see ProgSlot). -/
def planeKey (sect fold pair lc index : Nat) : Nat := (((sect * 2 + fold) * 8 + pair) * 512 + lc) * 8 + index

/-- A plane's words hold a BARRIER slot that names a barrier (Tables 2.1, 2.3). -/
def hasBarrier (ws : Table Word) (bid : Nat) : Bool :=
  ws.any fun e => decide (16 ≤ e.1) && decide (e.1 < 0x2010) && decide (e.1 % 2 = 1) && bits e.2 31 28 == 11 && bits e.2 15 12 == bid

/-- The participants of a barrier (R311): the logical clusters whose planes of the section hold a BARRIER slot naming it. -/
def State.participants (s : State) (slot sect bid : Nat) : List Nat :=
  (((s.slot slot).planes.filter fun e => e.1 / 65536 == sect && e.1 / 32768 % 2 == 0 && hasBarrier e.2 bid).map
    fun e => e.1 / 8 % 512).dedup

/-- The scope of a barrier: the smallest that holds its participants (R312): 0 region, 1 die, 2 package. -/
def barrierScope (ps : List Nat) : Nat :=
  match ps with
  | [] => 0
  | l :: ls => if ls.all fun x => x / 16 == l / 16 then 0 else if ls.all fun x => x / 128 == l / 128 then 1 else 2

/-- A physical cluster waits at a barrier: each context of its logical clusters that is neither FREE nor DONE waits there (R311). Of a fold
variant, whose planes do not say which of the pair they serve, the planes that name the barrier are looked at. -/
def ClusterSt.waitsAt (c : ClusterSt) (folded : Bool) (bid : Nat) : Bool :=
  let ks := (List.range 32).filter fun k => (c.plane (k / 4)).st == 3 && (! folded || hasBarrier (c.plane (k / 4)).words bid) &&
    (c.ctx k).st ≠ .free && (c.ctx k).st ≠ .done
  !ks.isEmpty && ks.all fun k => (c.ctx k).st == .waiting && (c.ctx k).wait == .barrier bid

/-- Arrivals of a cluster at its barriers (R311). A physical cluster with a fold pair arrives when both have arrived. -/
def State.barrierArrive (s : State) (n : Nat) : State :=
  match s.net.step with
  | none => s
  | some x =>
    s.each (List.range 15) fun t bid =>
      let c := t.cl n
      let sect := (c.activePlane.map fun p => (c.plane p).sect).getD x.sect
      let b := t.bar (barKey sect bid)
      let ps := t.participants x.slot sect bid
      let mine := (t.lcsOf n).filter fun l => ps.contains l
      if mine.isEmpty || ! c.waitsAt (decide (1 < (t.lcsOf n).length)) bid || mine.any b.arrived.contains || mine.any b.releasing.contains then t
      else
        let t := t.setBar (barKey sect bid) { b with arrived := b.arrived ++ mine }
        ((t.setF (Reg.BAR_STATUS_WAITING n) 1).setF (Reg.BAR_STATUS_BID n) bid).setF (Reg.BAR_STATUS_SCOPE n) (barrierScope ps)

/-- BARRIER (R310): arrives and waits, whatever the predicate. -/
def execBarrier (n : Fin 576) (x : SlotCtl) (bid : Fin 15) (s : State) : Out :=
  s.issue n x fun k _ t => (t.waitAt n k (.barrier bid) x).barrierArrive n

/-- A committed angle-event entry names a barrier of a section (Table 10.4), which makes it gated (R315). -/
def State.barrierGated (s : State) (sect bid : Nat) : Bool :=
  (List.range 512).any fun e =>
    let w := s.rg (Reg.AE_WORD e 0)
    let a := s.rg (Reg.AE_WORD e 3)
    bit w 31 && bits w 30 27 == 4 && bits a 19 16 == bid && bits a 15 0 == sect

/-- BARRIER_RELEASE (R313, R315): with all participants arrived, and for a gated barrier a latched firing, the node releases the
episode and consumes the firing. -/
def execBarrierRelease (sect : BitVec 16) (bid : Fin 15) (s : State) : Out :=
  match s.net.step with
  | none => .next s
  | some x =>
    let k := barKey sect.toNat bid
    let b := s.bar k
    let ps := s.participants x.slot sect.toNat bid
    let gated := s.barrierGated sect.toNat bid
    if ps.isEmpty || ! ps.all b.arrived.contains || (gated && ! b.latched) then .next s
    else .next (s.setBar k ⟨[], ps, x.attempt, if gated then false else b.latched⟩)

/-- BARRIER_RELEASE_ARRIVE (R313, R316): the waiting contexts of a participant become READY. A release of an earlier attempt or of a
stale generation is dropped. -/
def execBarrierReleaseArrive (n : Fin 576) (bid : Fin 15) (attempt : BitVec 8) (i : Fin 64) (gen : BitVec 8) (s : State) : Out :=
  match s.net.step with
  | none => .next s
  | some x =>
    let c := s.cl n
    let sect := (c.activePlane.map fun p => (c.plane p).sect).getD x.sect
    let b := s.bar (barKey sect bid)
    let mine := (s.lcsOf n).filter b.releasing.contains
    if mine.isEmpty then .next s else
    let t := s.setBar (barKey sect bid) { b with releasing := b.releasing.filter fun l => ! mine.contains l }
    if attempt.toNat ≠ x.attempt % 256 ∨ i.val ≠ x.inst ∨ gen.toNat ≠ s.gen i ∨ c.stopped then .next t
    else
      let t := t.setF (Reg.BAR_STATUS_WAITING n) 0
      .next (t.each (List.range 32) fun u k =>
        if ((u.cl n).ctx k).wait == .barrier bid && ((u.cl n).ctx k).st == .waiting then (u.upCl n fun c => c.advance k 1).ready n k
        else u)

/-! ### YIELD, END and context switches (R62, R63, R69) -/

/-- The physical plane that a plane's FOLD_NEXT names. -/
def ClusterSt.nextFold (c : ClusterSt) (p : Nat) : Nat := let x := c.plane p; c.planeAt x.slot x.sect x.foldNext none

/-- The planes of a fold ring after a plane, from FOLD_NEXT on. -/
def ClusterSt.ring (c : ClusterSt) (first : Nat) : Nat → Nat → List Nat
  | 0, _ => []
  | f + 1, p => if p = first then [] else p :: c.ring first f (c.nextFold p)

/-- YIELD (R69): the context becomes READY, and the sequencer switches to the first plane along the ring with a ready context; without
one it goes on. -/
def execYield (n : Fin 576) (x : SlotCtl) (s : State) : Out :=
  s.issue n x fun k _ t => t.upCl n fun c =>
    let c := c.advance k 1
    let p := k / 4
    let ring := if (c.plane p).foldEn then c.ring p 8 (c.nextFold p) else []
    let target := ring.findSome? fun q => ((List.range 4).map (4 * q + ·)).find? c.canRun
    match target with
    | none => c
    | some j => { c.setCtx k { c.ctx k with st := .ready } with last := k, cur := none, switching := some j }

/-- END (R63): the context is DONE until the next step boundary; the sequencer picks the next context, or the cluster's work ends. -/
def execEndSlot (n : Fin 576) (x : SlotCtl) (s : State) : Out :=
  s.issue n x fun k _ t =>
    let t := t.upCl n fun c => ({ c.setCtx k { c.ctx k with st := .done } with last := k, cur := none } : ClusterSt).seek
    (t.barrierArrive n).clusterEnds n

/-- CONTEXT_SWITCH (R62, R64): the switch to the chosen ready context ends, and it runs. -/
def execContextSwitch (n : Fin 576) (s : State) : Out :=
  let c := s.cl n
  match c.switching with
  | none => .next s
  | some k =>
    if c.stopped || s.isFenced n then .next s
    else if (c.ctx k).st ≠ .ready then .next (s.upCl n fun c => ({ c with switching := none } : ClusterSt).seek)
    else
      .next ((s.upCl n fun c =>
        { c.setCtx k { c.ctx k with st := .running, accLive := false } with cur := some k, switching := none }).inc64
          (Reg.SWITCHES_LO n) 1)

/-! ### Plane switches (R78 to R82) -/

/-- No unit of a cluster has an operation queued or running (Table 2.7, cycle 0). -/
def ClusterSt.unitsIdle (c : ClusterSt) : Bool :=
  c.loaderQ.isNone && c.arrayQ.isNone && c.vecQ.isNone && c.loading.isNone && c.arrays.isEmpty && c.epiQ.isEmpty && c.epiRun.isNone &&
    c.sumsq.isNone

/-- Every tile sent with TAKE has been taken (R80). -/
def ClusterSt.takesEqual (c : ClusterSt) : Bool := c.sends.all fun e => e.2.takeSent == e.2.takeGot

/-- Every binding with END_EN of the ACTIVE planes has reached END, for every context (R299). -/
def State.endsReached (s : State) (n : Nat) : Bool :=
  let c := s.cl n
  (List.range 8).all fun p =>
    let x := c.plane p
    x.st ≠ 3 || (List.range (x.f 4 6 0)).all fun b =>
      x.cb b 3 31 31 = 0 || (List.range (if x.cb b 0 28 28 = 1 then x.contexts else 1)).all fun j =>
        decide ((x.cb b 2 31 0) ≤ s.cc n (x.counter b j))

/-- The planes that a switch takes out, and brings in. -/
def ClusterSt.outgoing (c : ClusterSt) : List Nat := (List.range 8).filter fun p => (c.plane p).st == 3

/-- A program of another instance comes in (R82). -/
def ClusterSt.otherOwner (c : ClusterSt) (w : PlaneSwitch) : Bool := c.outgoing.any fun p => (c.plane p).inst ≠ w.inst

/-- Binds every context of planes to the step's micro-batches (R67). -/
def State.bindPlanes (s : State) (n : Nat) (planes : List Nat) (x : StepSt) (keep : Bool) : State :=
  s.each (planes.flatMap fun p => (List.range 4).map (4 * p + ·)) fun t k =>
    if k % 4 < ((t.cl n).plane (k / 4)).contexts then t.bindCtx n k (x.members.getD (k % 4) []) x.slot keep
    else t.upCl n fun c => c.setCtx k { c.ctx k with st := .free }

/-- The sequencer starts with the lowest-numbered READY context of the given planes at no further cost, or proceeds as after an END
counted from context 3 of the first plane (R81). -/
def ClusterSt.startAt (c : ClusterSt) (planes : List Nat) : ClusterSt :=
  let p := planes.headD 0
  let c : ClusterSt := { c with last := 4 * p + 3, cur := none, switching := none }
  match ((List.range 4).map (4 * p + ·)).find? c.canRun with
  | some k => { c.setCtx k { c.ctx k with st := .running } with cur := some k }
  | none => c.seek

/-- What the switch waits for before cycle 1 of Table 2.7 (R78 to R80, R82, R219). -/
def State.switchReady (s : State) (n : Nat) (w : PlaneSwitch) : Bool :=
  let c := s.cl n
  c.unitsIdle && !c.mxuFault && ! s.isFenced n && !(c.planesOf w.slot w.sect [2, 3]).isEmpty &&
    (!w.fused || (c.takesEqual && s.endsReached n)) && c.zero.isEmpty && s.startable w.slot w.sect

/-- The receive endpoints of a plane that leaves ACTIVE: their counts restart, and tiles left there are marked (R282). -/
def ClusterSt.leave (c : ClusterSt) (p : Nat) : ClusterSt :=
  { c with recvs := c.recvs.map fun e => if e.1 / 32 = p then (e.1, { e.2 with q := 0, stale := decide (e.2.tiles ≠ []) }) else e }

/-- The mark of a plane used now, later than that of every other plane of the cluster (R77). -/
def ClusterSt.useStamp (c : ClusterSt) (now : Nat) : Nat := max now (1 + ((List.range 8).map fun p => (c.plane p).used).foldl max 0)

/-- ACTIVE planes start over at a step boundary: their contexts are bound and the sequencer takes up the next ready one (R67, R314). -/
def State.startActive (s : State) (n : Nat) (act : List Nat) (x : StepSt) : State :=
  let t := s.bindPlanes n act x false
  if t.net.step.isNone then t
  else (t.upCl n fun c => ({ c with cur := none, switching := none } : ClusterSt).seek).stopLend n

/-- PLANE_SWITCH (R81): the outgoing planes become RESIDENT, their scoreboard entries and counter bindings go, the incoming planes
become ACTIVE and their contexts READY. A change of owner is zeroed first (R82): the switch then asks the zeroing engine and waits. Planes that
are ACTIVE already only start. -/
def execPlaneSwitch (n : Fin 576) (s : State) : Out :=
  let c := s.cl n
  match c.switch, s.net.step with
  | some w, some x =>
    if ! s.switchReady n w then .next s
    else if ! (c.planesOf w.slot w.sect [3]).isEmpty then
      .next ((s.upCl n fun c => { c with switch := none }).startActive n (c.planesOf w.slot w.sect [3]) x)
    else if c.otherOwner w && ! w.zeroing then
      let ranges := (c.planesOf w.slot w.sect [2]).map fun p => ((c.plane p).scratchBase, (c.plane p).scratchTop)
      .next (s.upCl n fun c => { c with zero := c.zero ++ [⟨ranges, true, true, none⟩], switch := some { w with zeroing := true } })
    else
      let inc := c.planesOf w.slot w.sect [2]
      let owner := c.otherOwner w
      let stamp := c.useStamp s.clk
      let t := s.upCl n fun c =>
        let c := c.outgoing.foldl (fun c p => (c.setPlane p { c.plane p with st := 2 }).leave p) c
        let c := inc.foldl (fun c p => c.setPlane p { c.plane p with st := 3, used := stamp }) c
        { c with
          board := []
          switch := none
          bucket := some (s.selectBucket x w.sect)
          tile0 := { c.tile0 with loaded := false }
          tile1 := { c.tile1 with loaded := false }
          arrived := false }
      let t := t.cond owner fun u =>
        ((u.wrg (Reg.ARITH_FLAGS n) 0).wrg (Reg.ARITH_EVENTS n) 0).wrg (Reg.VEC_FLAGS n) 0 |>.wrg (Reg.VEC_EVENTS n) 0
      let t := t.inc64 (Reg.SWITCHES_LO n) 1
      let t := t.bindPlanes n inc x w.fused
      if t.net.step.isNone then .next t else .next (t.upCl n fun c => c.startAt inc)
  | _, _ => .next s

/-! ### The step's release at a cluster (R314, R286, R294, R295) -/

/-- The cluster counters that OWN and MIRROR bindings of a program's planes on a cluster name (Table 9.1). -/
def ClusterSt.stepCounters (c : ClusterSt) (slot : Nat) : List Nat :=
  (List.range 8).flatMap fun p =>
    let x := c.plane p
    if x.slot = slot ∧ x.st ≠ 0 ∧ x.st ≠ 1 then
      (List.range (x.f 4 6 0)).flatMap fun b =>
        if x.cb b 0 31 31 = 1 ∧ x.cb b 0 30 29 ≤ 1 then
          (List.range (if x.cb b 0 28 28 = 1 then x.contexts else 1)).map (x.counter b ·)
        else []
    else []

/-- The mirrors of PKG bindings of a program's planes on a cluster (R295). -/
def ClusterSt.pkgMirrors (c : ClusterSt) (slot : Nat) : List Nat :=
  (List.range 8).flatMap fun p =>
    let x := c.plane p
    if x.slot = slot ∧ x.st ≠ 0 ∧ x.st ≠ 1 then
      (List.range (x.f 4 6 0)).flatMap fun b => if x.cb b 0 31 31 = 1 ∧ x.cb b 0 30 29 = 2 then [x.cb b 1 5 0] else []
    else []

/-- The spare bank takes over after its copy, at a step boundary (R215). -/
def State.bankSwitch (s : State) (n : Nat) : State :=
  match (s.cl n).migrating with
  | some (b, true) =>
    let t := s.upCl n fun c => { c with migrating := none }
    let t := (t.setF (Reg.SP_BANK_MAP_USED n) 1).setF (Reg.SP_BANK_MAP_BANK n) b
    (t.setF (Reg.SP_BANK_MAP_USED_N n) 0).setF (Reg.SP_BANK_MAP_BANK_N n) (31 - b)
  | _ => s

/-- Restarts the counters of a program's bindings on a cluster (Table 9.1). -/
def State.restartCounters (s : State) (n slot : Nat) : State :=
  s.each ((s.cl n).stepCounters slot) fun t i => t.setCc n i 0 0

/-- The first section of a program. -/
def ProgSlot.firstSect (p : ProgSlot) : Nat := (p.sections.head?.map (·.1)).getD 0

/-- STEP_RELEASE_ARRIVE (R314): at the cluster's instant of the step boundary its counters restart, held mirror updates apply, and its
newly bound contexts become READY, by a plane switch where the section's planes are not ACTIVE, or where the section may not start yet (R79). -/
def execStepReleaseArrive (n : Fin 576) (s : State) : Out :=
  let c := s.cl n
  match s.net.step with
  | none => .next s
  | some x =>
    if x.released.contains n.val || x.replaying || s.isFenced n || c.mxuFault then .next s
    else
      let t := (s.setStep (some { x with released := x.released ++ [n.val] })).restartCounters n x.slot
      let t := t.each c.heldUpd fun u e => u.setCc n e.1 (max (u.cc n e.1) (e.2 / 2 ^ 16)) (e.2 % 2 ^ 16)
      let t := t.bankSwitch n
      let t := t.upCl n fun c =>
        { c with
          heldUpd := []
          base := (c.pkgMirrors x.slot).map fun i => (i, t.cc n i)
          step := x.number
          attempt := x.attempt
          arrived := false
          stopped := false
          switch := none
          bucket := some (t.selectBucket x x.sect)
          strict := if x.inst < 32 then bit (t.rg Reg.SP_STRICT_LO) x.inst else bit (t.rg Reg.SP_STRICT_HI) (x.inst - 32) }
      let act := (t.cl n).planesOf x.slot x.sect [3]
      if act.isEmpty || ! s.startable x.slot x.sect then
        .next (t.upCl n fun c => { c with switch := some ⟨x.slot, x.sect, x.inst, false, false⟩ })
      else .next (t.startActive n act x)

/-! ### Debug controls (R92) -/

/-- A write of SEQ_DEBUG (R92): HALT stops issue at the next slot boundary, or lets it resume; with HALT set, STEP lets one slot issue. In Rest the
debug windows ignore writes (R595). -/
def State.seqDebugWrite (s : State) (n : Nat) (halt step : Bool) : State :=
  if 3 ≤ s.fd Reg.PWR_STATUS_STATE then s
  else
    let t := (s.setF (Reg.SEQ_DEBUG_HALT n) (b2n halt)).upCl n fun c => { c with stepOne := c.stepOne && halt }
    if step && halt then t.upCl n fun c => { c with stepOne := true } else t

/-- SEQ_HALT (R92): a write that sets or clears HALT. -/
def execSeqHalt (n : Fin 576) (halt : Bool) (s : State) : Out :=
  .next (s.hostWrite (Reg.SEQ_DEBUG n) fun t => t.seqDebugWrite n halt false)

/-- SEQ_STEP (R92): a write of STEP that leaves HALT as it is. -/
def execSeqStep (n : Fin 576) (s : State) : Out :=
  .next (s.hostWrite (Reg.SEQ_DEBUG n) fun t => t.seqDebugWrite n (t.on (Reg.SEQ_DEBUG_HALT n)) true)

end Sys2Proof.Machine
end

