-- ==== Sys2Proof/Machine/Matrix.lean ====
section
/-! DEFINITION. The matrix unit (chapter 4): its slots, weight loading, array operations with the checker, banks, and the epilogue. -/

namespace Sys2Proof.Machine

/-! ### The slots (R132, R136, R210) -/

/-- Queues a MATRIX operation on a port whose queue is free (R55). A slot that finds its queue full holds issue. -/
def State.matSlot (s : State) (n : Nat) (x : SlotCtl) (loader : Bool) (mk : Nat → Bool → ClusterSt → MatOp) : Out :=
  s.issue n x fun k on t =>
    let c := t.cl n
    if (if loader then c.loaderQ.isSome else c.arrayQ.isSome) then t else
    let o := mk k on c
    let p := c.plane (k / 4)
    t.readSlot n k x [lineRange (p.extLo o.lt (b2n loader)) (p.extHi o.lt (b2n loader))] fun u =>
      u.upCl n fun c =>
        let c := { c with issued := c.issued + 1 }
        (if loader then { c with loaderQ := some o } else { c with arrayQ := some o } : ClusterSt).advance k 1

/-- The operation of an MMA, MAX or MIN slot (Table 4.2). -/
def matOpOf (a : MatArg) (mop k : Nat) (on : Bool) (c : ClusterSt) : MatOp where
  plane := k / 4
  ctx := k % 4
  slot := (c.ctx k).slotPtr
  on := on
  order := c.issued
  mop := mop
  lt := a.lt
  fmtA := a.fmtA.toNat
  fmtW := a.fmtW.toNat
  rows := if a.mrows = 0 then 128 else a.mrows.toNat
  klen := if a.klen = 0 then 128 else a.klen.toNat
  bankB := a.bankB
  cont := a.cont
  swap := a.swap
  epi := a.epi
  epiIdx := a.epiIdx
  idx := (c.ctx k).idx

/-- LOADW (R137). -/
def execLoadw (n : Fin 576) (x : SlotCtl) (lt : Fin 16) (fmtW : BitVec 4) (swap : Bool) (s : State) : Out :=
  s.matSlot n x true fun k on c => matOpOf (MatArg.mk lt 0 fmtW 0 0 false false swap false 0) 0 k on c

/-- MMA (R129). -/
def execMma (n : Fin 576) (x : SlotCtl) (a : MatArg) (s : State) : Out := s.matSlot n x false (matOpOf a 1)

/-- MAX (R121). -/
def execMax (n : Fin 576) (x : SlotCtl) (a : MatArg) (s : State) : Out := s.matSlot n x false (matOpOf a 2)

/-- MIN (R121). -/
def execMin (n : Fin 576) (x : SlotCtl) (a : MatArg) (s : State) : Out := s.matSlot n x false (matOpOf a 3)

/-! ### Weight registers (R130, R135, R138) -/

def ClusterSt.active (c : ClusterSt) : WTile := if c.sel then c.tile1 else c.tile0
def ClusterSt.shadow (c : ClusterSt) : WTile := if c.sel then c.tile0 else c.tile1
def ClusterSt.setShadow (c : ClusterSt) (t : WTile) : ClusterSt := if c.sel then { c with tile0 := t } else { c with tile1 := t }

/-- SWAP: the shadow tile becomes active; the tile it replaces is no longer one to swap in. -/
def ClusterSt.swapTiles (c : ClusterSt) : ClusterSt :=
  let old := c.active
  ({ c with sel := !c.sel } : ClusterSt).setShadow { old with complete := false }

/-! ### LOADW (R137, R232) -/

/-- One row of a tile as it is read: its masks, the first address that leaves the extent with its source, the patterns and scales. -/
structure RowRead where
  masked : Bool
  fault : Option (Nat × Int)
  elems : List Nat
  scales : List Nat
  deriving DecidableEq, Repr

/-- The elements of an operand from an element offset on, `len` consecutive ones, with their BS4 scale bytes (R228, R234). -/
def ClusterSt.readRun (c : ClusterSt) (p : Plane) (t o f : Nat) (e : Int) (len : Nat) : RowRead :=
  let w := fmtWidth f
  let es := (List.range len).map fun j => e + (j : Int)
  let bad := es.find? fun x => !p.inExtent t o w (p.addr t o w x)
  let badSc := if f = 6 then es.find? fun x => !p.inExtent t o 8 (p.scaleAddr t o x) else none
  match badSc, bad with
  | some x, _ => ⟨false, some (5, p.scaleAddr t o x), [], []⟩
  | none, some x => ⟨false, some (0, p.addr t o w x), [], []⟩
  | none, none =>
    ⟨false, none, es.map fun x => c.rdElem (p.addr t o w x).toNat w (x.fmod 2 == 1),
      if f = 6 then es.map fun x => (c.rd (p.scaleAddr t o x).toNat).toNat else es.map fun _ => 0⟩

/-- Loads the rows of a tile from k on; answers the tile so far, masked rows, and the fault with its row. -/
def ClusterSt.loadRows (c : ClusterSt) (p : Plane) (b : Nat) (o : MatOp) (y : Ctx) :
    Nat → Nat → WTile × Nat × Option (Nat × Nat × Int) → WTile × Nat × Option (Nat × Nat × Int)
  | 0, _, a => a
  | f + 1, k, (t, m, bad) =>
    if p.masked b o.lt y k then c.loadRows p b o y f (k + 1) (t, m + 1, bad)
    else
      let r := c.readRun p o.lt 1 o.fmtW (p.offset b o.lt 1 o.idx k) 128
      match r.fault with
      | some (src, a) => (t, m, some (k, if src = 5 then 5 else 1, a))
      | none =>
        let w := (r.elems.zipIdx).foldl (fun w e => mput 0 w (128 * k + e.2) e.1) t.w
        let sc := if k % 32 = 0 then (r.scales.zipIdx).foldl (fun w e => mput 0 w (128 * (k / 32) + e.2) e.1) t.sc else t.sc
        c.loadRows p b o y f (k + 1) ({ t with w := w, sc := sc }, m, bad)

/-- LOADW starts on the loader: the rows are read into the shadow register, which is complete at TILE_COMPLETE. -/
def State.startLoad (s : State) (n : Nat) (o : MatOp) : State :=
  let t := s.upCl n fun c => { c with loaderQ := none, loading := some o }
  if ! o.on then t else
  let c := t.cl n
  let p := c.plane o.plane
  let k := 4 * o.plane + o.ctx
  let y := { c.ctx k with idx := o.idx }
  let rows := p.bound c.bkt o.lt (p.levelAt o.lt 0)
  let r := c.loadRows p c.bkt o y rows 0 (⟨o.fmtW, true, false, [], [], o.order⟩, 0, none)
  let t := t.inc64 (Reg.MASKED_LO n) r.2.1
  match r.2.2 with
  | some (row, src, a) =>
    ((t.upCl n fun c => { c.setShadow noTile with loading := none }).loopFault n src o.lt 1 k o.slot a row)
  | none => t.upCl n fun c => c.setShadow r.1

/-- TILE_COMPLETE (R138): the tile with its checksum weights is complete in the shadow register. -/
def execTileComplete (n : Fin 576) (s : State) : Out :=
  match (s.cl n).loading with
  | none => .next s
  | some o => .next (s.upCl n fun c =>
      let c := { c with loading := none }
      if o.on && c.shadow.order == o.order && c.shadow.loaded then c.setShadow { c.shadow with complete := true } else c)

/-! ### Array operations (R129, R140, R232) -/

/-- An activation vector: masked positions are none, the others a pattern (with the BS4 scale above it) and a value. -/
def actVector (f : Nat) (r : RowRead) (masks : List Bool) : List (Option (Nat × FV)) :=
  ((r.elems.zip r.scales).zip masks).map fun e =>
    if e.2 then none else some (e.1.1 + (if f = 6 then 16 * e.1.2 else 0), elemVal f e.1.1 e.1.2)

/-- Reads activation vector i. Only unmasked positions are checked (R230). -/
def ClusterSt.readAct (c : ClusterSt) (p : Plane) (o : MatOp) (y : Ctx) (i : Nat) :
    List (Option (Nat × FV)) × Option (Nat × Int) :=
  let b := c.bkt
  let w := fmtWidth o.fmtA
  let xs := (List.range o.klen).map fun k =>
    let pos := k + o.klen * i
    (p.masked b o.lt y pos, p.offset b o.lt 0 o.idx pos)
  let live := xs.filter fun x => !x.1
  let badSc := if o.fmtA = 6 then live.find? fun x => !p.inExtent o.lt 0 8 (p.scaleAddr o.lt 0 x.2) else none
  let bad := live.find? fun x => !p.inExtent o.lt 0 w (p.addr o.lt 0 w x.2)
  match badSc, bad with
  | some x, _ => ([], some (5, p.scaleAddr o.lt 0 x.2))
  | none, some x => ([], some (0, p.addr o.lt 0 w x.2))
  | none, none =>
    (xs.map fun x =>
      if x.1 then none else
      let v := c.rdElem (p.addr o.lt 0 w x.2).toNat w (x.2.fmod 2 == 1)
      let sc := if o.fmtA = 6 then (c.rd (p.scaleAddr o.lt 0 x.2).toNat).toNat else 0
      some (v + 16 * sc, elemVal o.fmtA v sc), none)

/-- Weight W[k][n] of a tile: pattern with scale, and value. -/
def WTile.weight (t : WTile) (k n : Nat) : Nat × FV :=
  let v := tget 0 t.w (128 * k + n)
  let sc := if t.fmt = 6 then tget 0 t.sc (128 * (k / 32) + n) else 0
  (v + 16 * sc, elemVal t.fmt v sc)

/-- The products of a column over an activation vector, as float products (R106: a masked position is +0). -/
def columnF (t : WTile) (fa : Nat) (act : List (Option (Nat × FV))) (n : Nat) : List Prod :=
  act.zipIdx.map fun e => match e.1 with
    | none => .zero false
    | some a => let w := t.weight e.2 n; prodF fa t.fmt a.1 w.1 a.2 w.2

/-- The integer products of a column. -/
def columnI (t : WTile) (act : List (Option (Nat × FV))) (n : Nat) : List Int :=
  act.zipIdx.map fun e => match e.1 with
    | none => 0
    | some a => a.2.at 0 * (t.weight e.2 n).2.at 0

/-- One row of an MMA: the 128 columns (R129). -/
def mmaRow (t : WTile) (fa : Nat) (act : List (Option (Nat × FV))) (total : Nat → Word) : List ColOut :=
  (List.range 128).map fun n =>
    if isIntFmt fa then sumI (total n) (columnI t act n) else sumF (total n) (columnF t fa act n)

/-- One row of a MAX or MIN: value and index words, and the NAN flag (R121 to R123). `held` gives what the banks hold of a column. -/
def maxRow (t : WTile) (fa : Nat) (isMax : Bool) (act : List (Option (Nat × FV))) (k0 : Nat) (held : Nat → Option (FV × Nat)) :
    List (Word × Word) :=
  (List.range 128).map fun n =>
    let vs := act.zipIdx.map fun e => e.1.map fun a =>
      let w := t.weight e.2 n
      if isIntFmt fa then (let i := a.2.at 0 * w.2.at 0; FV.fin (decide (i < 0)) i.natAbs 0) else (prodF fa t.fmt a.1 w.1 a.2 w.2).val
    winnerWords isMax (isIntFmt fa) (winner isMax (held n) k0 vs)

/-- Sets arithmetic flags of a context and counts them (R127, R128): bits CSAT, ISAT, INF, NAN. -/
def State.arithFlags (s : State) (n ctx f : Nat) : State :=
  if f = 0 then s else
  (s.wrg (Reg.ARITH_FLAGS n) (s.rg (Reg.ARITH_FLAGS n) ||| BitVec.ofNat 32 (f * 2 ^ (4 * ctx)))).incN (Reg.ARITH_EVENTS n)
    (f % 2 + f / 2 % 2 + f / 4 % 2 + f / 8 % 2)

/-- Writes a row of a bank. -/
def ClusterSt.wrRow (c : ClusterSt) (b i : Nat) (ws : List Word) : ClusterSt :=
  let k := c.bank b
  c.setBank b { k with data := ws.zipIdx.foldl (fun d e => mput 0 d (128 * i + e.2) e.1) k.data }

/-- What the checker needs of a row: floating or integer, whether it is checked, and Σ̂ in units of 2^-512 (R150, R151). -/
structure RowCheck where
  float : Bool
  checked : Bool
  sigma : Nat
  deriving DecidableEq, Repr

/-- Runs the rows of an array operation from row i on, until a vector's extent fault: bank writes and flags. -/
def State.arrayRows (s : State) (n : Nat) (o : MatOp) (bank other k0 : Nat) :
    Nat → Nat → List RowCheck → State × List RowCheck × Option (Nat × Nat × Int)
  | 0, _, l => (s, l, none)
  | f + 1, i, l =>
    let c := s.cl n
    let p := c.plane o.plane
    let y := { c.ctx (4 * o.plane + o.ctx) with idx := o.idx }
    let r := c.readAct p o y i
    match r.2 with
    | some (src, a) => (s, l, some (i, src, a))
    | none =>
      let allMasked := r.1.all Option.isNone
      let s := if allMasked then s.inc64 (Reg.MASKED_LO n) 1 else s
      let t := c.active
      let old (b j : Nat) : Word := tget 0 (c.bank b).data (128 * i + j)
      if o.mop = 1 then
        let row := mmaRow t o.fmtA r.1 fun j => if o.cont then old bank j else 0
        let s := (s.upCl n fun c => c.wrRow bank i (row.map (·.value))).arithFlags n o.ctx ((row.map (·.flags)).foldl (· ||| ·) 0)
        let chk := RowCheck.mk (! isIntFmt o.fmtA) (!row.any (·.special)) (row.map (·.shat)).sum
        s.arrayRows n o bank other k0 f (i + 1) (l ++ [chk])
      else
        let held (j : Nat) : Option (FV × Nat) :=
          if o.cont && old other j ≠ 0xFFFFFFFF#32 then some (elemVal (if isIntFmt o.fmtA then 8 else 7) (old bank j).toNat 0, (old other j).toNat)
          else none
        let row := maxRow t o.fmtA (o.mop == 2) r.1 k0 held
        let nan := ! isIntFmt o.fmtA && row.any fun w => isNan32 w.1
        let s := (s.upCl n fun c => (c.wrRow bank i (row.map (·.1))).wrRow other i (row.map (·.2))).arithFlags n o.ctx (b2n nan)
        s.arrayRows n o bank other k0 f (i + 1) (l ++ [⟨! isIntFmt o.fmtA, true, 0⟩])

/-! ### The checker (R150 to R156, R160) -/

/-- A checksum mismatch of a row (R151). Residuals of floating rows are multiples of 2^-512. -/
def mismatch (r : RowCheck) (d : Int) : Bool :=
  r.checked && if r.float then decide (r.sigma + 2 ^ 8 * 2 ^ 372 < d.natAbs * 2 ^ 8) else decide (d ≠ 0)

/-- D1 / D rounded to nearest, ties away from zero. -/
def roundDiv (a b : Int) : Int :=
  let q := (2 * a.natAbs + b.natAbs) / (2 * b.natAbs)
  if (a < 0) = (b < 0) then (q : Int) else -(q : Int)

/-- The column that a mismatch is localised to, if it is (R152). -/
def localised (r : RowCheck) (d d1 : Int) : Option Nat :=
  if r.float then
    let c := roundDiv d1 d - 1
    if decide (2 * r.sigma ≤ d.natAbs) && decide (0 ≤ c) && decide (c ≤ 127) then some c.toNat else none
  else if d1 % d = 0 ∧ 1 ≤ d1 / d ∧ d1 / d ≤ 128 then some (d1 / d - 1).toNat else none

/-- Writes the fault record (R160): the first since VALID was clear; a genuine fault replaces an injected one. -/
def State.mxuRecord (s : State) (n : Nat) (o : MatOp) (inj : Bool) (kind row : Nat) (loc : Option Nat) (resid : Word) : State :=
  let t := s.inc (Reg.MISMATCHES n)
  if t.on (Reg.MXU_FAULT_VALID n) && (inj || ! t.on (Reg.MXU_FAULT_INJ n)) then t
  else
    let t := (t.wrg (Reg.MXU_FAULT n) (BitVec.ofNat 32 (2 ^ 31 + b2n inj * 2 ^ 30 + b2n loc.isSome * 2 ^ 29 + kind * 2 ^ 27 +
      loc.getD 0 * 2 ^ 20 + row * 2 ^ 13))).wrg (Reg.MXU_RESIDUAL n) resid
    t.wrg (Reg.MXU_FAULT_SLOT n) (BitVec.ofNat 32 (o.plane * 2 ^ 25 + o.ctx * 2 ^ 23 + o.slot))

/-- A fault of the matrix unit (R154): issue stops, the record is written, and the fault is reported with the column when localised. -/
def State.mxuFail (s : State) (n : Nat) (o : MatOp) (kind row : Nat) (loc : Option Nat) (resid : Word) : State :=
  let t := s.upCl n fun c => { c.stopStep with mxuFault := true }
  (t.mxuRecord n o false kind row loc resid).report (clusterStop n) 1 (match loc with | some c => 128 + c | none => 0) false

/-- D as FP32 (MXU_RESIDUAL). -/
def residual32 (r : RowCheck) (d : Int) : Word := to32 (.fin (decide (d < 0)) d.natAbs (if r.float then -512 else 0))

/-- Checks the rows of an operation in order: counts, an armed injection on the next checked row of an MMA, and a fault that shows. -/
def State.checkRows (s : State) (n : Nat) (o : MatOp) (fault : MatFault) : Nat → List RowCheck → State
  | _, [] => s
  | i, r :: rs =>
    let genuine : Option (Option Nat × Word) := match fault with
      | .residual row d d1 =>
        if o.mop = 1 && row.val == i && mismatch r d then some (localised r d d1, residual32 r d) else none
      | _ => none
    let comp : Bool := match fault with
      | .comparator row => o.mop ≠ 1 && row.val == i
      | _ => false
    let s := if r.checked then s.inc64 (Reg.ROWS_CHECKED_LO n) 1 else s.inc (Reg.ROWS_UNCHECKED n)
    let arm := r.checked && o.mop == 1 && s.on (Reg.MXU_INJECT_ARM n)
    let s := if arm then s.setF (Reg.MXU_INJECT_ARM n) 0 else s
    match genuine, comp with
    | some (loc, d), _ => s.mxuFail n o 0 i loc d
    | none, true => s.mxuFail n o 1 i none 0
    | none, false =>
      if arm then
        let col := s.fd (Reg.MXU_INJECT_COLUMN n)
        -- for floating pairs D also holds the checker's own rounding, which the manual leaves open (log entry 2)
        let v := if r.float then s.free else (0x3F800000#32, s)
        (v.2.mxuRecord n o true 0 i (some col) v.1).checkRows n o fault (i + 1) rs
      else s.checkRows n o fault (i + 1) rs

/-! ### Starting an array operation (R134 to R136, R138, R141, R143, R144, R184) -/

/-- The banks of an operation: the named one, and for MAX and MIN the other one too (R121). -/
def Plane.opBank (p : Plane) (o : MatOp) : Nat := if o.bankB then p.bankB o.ctx else p.bankA o.ctx
def Plane.opBanks (p : Plane) (o : MatOp) : List Nat := if o.mop = 1 then [p.opBank o] else [p.opBank o, 1 - p.opBank o]

/-- The banks a vector operation names (R163, R187). -/
def Plane.vecBanks (p : Plane) (o : VecOp) : List Nat :=
  let b (x : Nat) : List Nat := if x = 1 then [p.bankA o.ctx] else if x = 2 then [p.bankB o.ctx] else []
  b o.srcA ++ (if o.srcB = 3 then [] else b o.srcB) ++ b o.dst ++ (if o.vop = 0x28 ∨ o.vop = 0x29 then [p.bankB o.ctx] else [])

/-- A bank is free for an array operation: free or the array's, with no epilogue to come on it; or read out by the epilogue when CONT is
clear (R144). A vector operation that issued earlier and names it goes first (R184). -/
def ClusterSt.bankFor (c : ClusterSt) (o : MatOp) (b : Nat) : Bool :=
  let users := (c.bank b).user == 0 || ((c.bank b).user == 1 && !c.arrays.any fun r => r.epi && r.banks.contains b) ||
    ((c.bank b).user == 2 && !o.cont && c.epiRun.any (·.banks.contains b))
  let waiting := !c.epiQ.any (·.banks.contains b)
  let vec := !c.vecQ.any fun v => decide (v.order < o.order) && ((c.plane v.plane).vecBanks v).contains b
  users && waiting && vec

/-- The holds of an array operation's start. -/
def ClusterSt.arrayMayStart (c : ClusterSt) (o : MatOp) : Bool :=
  let p := c.plane o.plane
  (!o.swap || (c.loading.isNone && !c.loaderQ.any fun l => decide (l.order < o.order))) && (p.opBanks o).all (c.bankFor o)

/-- The holds of a LOADW's start: the loader is free, and no operation issued before it has yet to use the register it writes (R138). -/
def ClusterSt.loadMayStart (c : ClusterSt) (o : MatOp) : Bool :=
  c.loading.isNone && !c.arrayQ.any fun a => a.swap && decide (a.order < o.order)

/-- The named bank and, for MAX and MIN, the other one, marked as the array's with the k reached (R134, R143). -/
def ClusterSt.takeBanks (c : ClusterSt) (o : MatOp) (banks : List Nat) (k0 : Nat) : ClusterSt :=
  banks.foldl (fun c b => c.setBank b { c.bank b with
    user := 1, kPos := k0 + o.klen, owner := 4 * o.plane + o.ctx, closed := decide (o.klen % 16 ≠ 0) }) c

/-- Runs an array operation that is on: checks of R134 and R135, rows, checker, and the end of an extent fault. -/
def State.runArray (s : State) (n : Nat) (o : MatOp) (fault : MatFault) : State :=
  let c := s.cl n
  let p := c.plane o.plane
  let b := p.opBank o
  let c := if o.swap then c.swapTiles else c
  if (o.cont && (c.bank b).closed) || !c.active.loaded || c.active.fmt ≠ o.fmtW then (s.setCl n c).flowError
  else
    let k0 := if o.cont then (c.bank b).kPos else 0
    let s := s.setCl n (c.takeBanks o (p.opBanks o) k0)
    let r := s.arrayRows n o b (1 - b) k0 o.rows 0 []
    let t := r.1.inc64 (Reg.ARRAY_CYCLES_LO n) r.2.1.length
    let t := t.checkRows n o fault 0 r.2.1
    let t := match fault with
      | .accCorrected m => t.incN (Reg.ACC_ECC_CORR n) m
      | .accUncorrectable row => t.mxuFail n o 2 row none 0
      | _ => t
    let epi := o.epi && r.2.2.isNone
    let t := t.upCl n fun c => { c with arrays := c.arrays ++ [⟨o, p.opBanks o, epi, []⟩] }
    if (t.cl n).mxuFault then t else
    match r.2.2 with
    | some (i, src, a) => t.loopFault n src o.lt 0 (4 * o.plane + o.ctx) o.slot a i
    | none => t

/-- MATRIX_OP_START (R138, R141): the queued operation of the loader or the array starts once its holds are met. -/
def execMatrixOpStart (n : Fin 576) (loader : Bool) (fault : MatFault) (ecc : SpEcc) (conf : Option Conflict) (s : State) : Out :=
  let c := s.cl n
  match loader, c.loaderQ, c.arrayQ with
  | true, some o, _ =>
    if ! c.loadMayStart o || s.isFenced n then .next s else
    let e := if o.on then s.spEcc n ecc else (s, true)
    if ! e.2 then .next (e.1.upCl n fun c => { c with loaderQ := none }) else
    let f := if o.on then e.1.conflict n (4 * o.plane + o.ctx) o.slot conf else (e.1, true)
    if ! f.2 then .next (f.1.upCl n fun c => { c with loaderQ := none }) else .next (f.1.startLoad n o)
  | false, _, some o =>
    if ! c.arrayMayStart o || s.isFenced n then .next s else
    let p := c.plane o.plane
    let s := s.upCl n fun c => { c with arrayQ := none }
    if ! o.on then
      .next (s.upCl n fun c =>
        let c := (p.opBanks o).foldl (fun c b => c.setBank b { c.bank b with user := 1 }) c
        { c with arrays := c.arrays ++ [⟨o, p.opBanks o, false, []⟩] })
    else
      let e := s.spEcc n ecc
      if ! e.2 then .next e.1 else
      let f := e.1.conflict n (4 * o.plane + o.ctx) o.slot conf
      if ! f.2 then .next f.1 else .next (f.1.runArray n o fault)
  | _, _, _ => .next s

/-- ARRAY_BANK_RELEASE (R145): after the check of its last row the array releases the oldest operation's bank, to the epilogue where
EPI is set (R146). After a fault nothing is released (R154). -/
def execArrayBankRelease (n : Fin 576) (s : State) : Out :=
  let c := s.cl n
  match c.arrays with
  | [] => .next s
  | r :: rs =>
    if c.mxuFault then .next s else
    .next (s.upCl n fun c =>
      let c := r.banks.foldl (fun c b =>
        if rs.any (·.banks.contains b) then c else c.setBank b { c.bank b with user := if r.epi then 2 else 0 }) c
      { c with arrays := rs, epiQ := if r.epi then c.epiQ ++ [r] else c.epiQ })

/-! ### The epilogue (R113, R146 to R149, R233) -/

/-- The preamble's vectors (R663): scales, biases and loadable table. -/
structure Preamble where
  scale : List Word
  bias : List Word
  table : List Word
  deriving DecidableEq, Repr

def ClusterSt.words (c : ClusterSt) (a len : Nat) : List Word := (List.range len).map fun i => c.rdW (a + 4 * i)

def ClusterSt.preamble (c : ClusterSt) (p : Plane) (e : Nat) : Preamble :=
  ⟨if p.ed e 0 17 17 = 1 then c.words (p.ed e 3 22 0) 128 else [], if p.ed e 0 16 16 = 1 then c.words (p.ed e 4 22 0) 128 else [],
    if p.ed e 0 27 24 = 8 then c.words (p.ed e 5 22 0) 260 else []⟩

/-- Steps 1 to 4 of R113 on one element: the value to convert, and whether an activation gave NaN. -/
def epiValue (p : Plane) (e : Nat) (pre : Preamble) (int : Bool) (col : Nat) (w : Word) : FV × Bool :=
  let code := p.ed e 0 27 24
  if pre.scale.isEmpty && pre.bias.isEmpty && code = 0 then (elemVal (if int then 8 else 7) w.toNat 0, false)
  else
    let x := if int then to32 (elemVal 8 w.toNat 0) else w
    let x := if pre.scale.isEmpty then x else mul32 x (pre.scale.getD col 0)
    let x := if pre.bias.isEmpty then x else vadd Config.biasAdd x (pre.bias.getD col 0)
    let x := act code (p.ed e 0 23 20) pre.table x
    (val32 x, code ≠ 0 && isNan32 x)

/-- The draws of a row of R120 from a generator state: one value per column, and the state after. -/
def draws (x : Word) : Nat → Word × List Nat
  | 0 => (x, [])
  | m + 1 =>
    let y := xorshift x
    let r := draws y m
    (r.1, bits y 31 16 :: r.2)

/-- The first byte of [a, a + len) outside an operand's extent (R229). -/
def Plane.firstOut (p : Plane) (t o : Nat) (a : Int) (len : Nat) : Option Int :=
  if ¬ p.inUse t o then none
  else if a < (p.extLo t o : Int) then some a
  else if (p.extHi t o : Int) < a + len then some (max a (p.extHi t o)) else none

/-- One output row of the epilogue: what it writes, as addresses and bytes or nibbles, with the flags. -/
def State.epiRow (s : State) (n : Nat) (o : MatOp) (pre : Preamble) (b : Nat) (j : Nat) (rs : List (Option Nat)) :
    State × Option Int :=
  let c := s.cl n
  let p := c.plane o.plane
  let e := o.epiIdx
  let fmt := p.ed e 0 31 28
  let w := fmtWidth fmt
  let off := p.outOffset o.lt o.idx
  let ncols := p.ed e 0 7 0
  let int := isIntFmt o.fmtA
  let at0 (k width : Nat) : Int := (p.ed e k 22 0 : Int) + (off * width).fdiv 8
  let row := at0 1 w + (j * p.ed e 2 22 0 : Nat)
  let sc := at0 6 w + (4 * j : Nat)
  let ix := at0 7 32 + (j * p.ed e 8 22 0 : Nat)
  let idxOut := p.ed e 0 15 15 = 1
  let bad := (p.firstOut o.lt 3 row (ceilDiv (ncols * w) 8)).orElse fun _ =>
    (if fmt = 6 then p.firstOut o.lt 3 sc 4 else none).orElse fun _ =>
      if idxOut then p.firstOut o.lt 3 ix (4 * ncols) else none
  match bad with
  | some a => (s, some a)
  | none =>
    let vals := (List.range 128).map fun k => epiValue p e pre int k (tget 0 (c.bank b).data (128 * j + k))
    let nan := (vals.take ncols).any (·.2)
    let put (c : ClusterSt) (k v : Nat) : ClusterSt :=
      if k < ncols then c.wrElem (row + (k * w / 8 : Nat)).toNat w (k % 2 == 1) v else c
    let vs := vals.map (·.1)
    let r : ClusterSt × Nat :=
      if fmt = 6 then
        (List.range 4).foldl (fun cr q =>
          let z := blockBs4 ((vs.drop (32 * q)).take 32) ((rs.drop (32 * q)).take 32)
          let c := cr.1.wr (sc + (q : Nat)).toNat (BitVec.ofNat 8 z.1)
          (z.2.1.zipIdx.foldl (fun c x => put c (32 * q + x.2) x.1) c, cr.2 ||| (8 * b2n z.2.2.1 + b2n z.2.2.2))) (c, 0)
      else
        (vs.zip rs).zipIdx.foldl (fun cr x =>
          let y := if (pre.scale.isEmpty && pre.bias.isEmpty && p.ed e 0 27 24 = 0) && fmt = (if int then 8 else 7)
            then ((tget (0 : Word) (c.bank b).data (128 * j + x.2)).toNat, false) else convF fmt x.1.1 x.1.2
          (put cr.1 x.2 y.1, cr.2 ||| (if y.2 && decide (x.2 < ncols) then 8 else 0))) (c, 0)
    let c := if idxOut then
        (List.range ncols).foldl (fun d k => d.wrW (ix + (4 * k : Nat)).toNat (tget 0 (c.bank (1 - b)).data (128 * j + k))) r.1
      else r.1
    ((s.setCl n c).arithFlags n o.ctx (r.2 ||| b2n nan), none)

/-- The rows of an epilogue in order, with the generator's state; the row and address of an extent fault end it. -/
def State.epiRows (s : State) (n : Nat) (o : MatOp) (pre : Preamble) (b : Nat) : Nat → Nat → Word → State × Option (Nat × Int)
  | 0, _, _ => (s, none)
  | f + 1, j, x =>
    let stoch := ((s.cl n).plane o.plane).ed o.epiIdx 0 19 18 = 1
    let d := if stoch then draws x 128 else (x, [])
    let rs := if stoch then d.2.map some else List.replicate 128 none
    let r := s.epiRow n o pre b j rs
    match r.2 with
    | some a => (r.1, some (j, a))
    | none => r.1.epiRows n o pre b f (j + 1) d.1

/-- EPILOGUE_START (R146): once scheduled scoreboard entries are free for its output ranges, the epilogue reads its preamble and drains
the bank's rows. -/
def execEpilogueStart (n : Fin 576) (ecc : SpEcc) (conf : Option Conflict) (acc : MatFault) (s : State) : Out :=
  let c := s.cl n
  match c.epiRun, c.epiQ with
  | none, r :: rest =>
    let o := r.op
    let p := c.plane o.plane
    let ranges := p.epiRanges o
    let k := 4 * o.plane + o.ctx
    if decide (8 < c.used false + ranges.length) || s.isFenced n || c.mxuFault then .next s else
    match acc with
    | .accUncorrectable row => .next (s.mxuFail n o 2 row none 0)
    | _ =>
      let s := match acc with
        | .accCorrected m => s.incN (Reg.ACC_ECC_CORR n) m
        | _ => s
      let e := s.spEcc n ecc
      if ! e.2 then .next (e.1.upCl n fun c => { c with epiQ := rest }) else
      let f := e.1.conflict n k o.slot conf
      if ! f.2 then .next (f.1.upCl n fun c => { c with epiQ := rest }) else
      let s := f.1
      let x := c.enter false ranges
      let s := s.upCl n fun _ => { x.1 with epiQ := rest, epiRun := some { r with entries := x.2 } }
      let seed := srSeed (p.w (0x9A40 + 64 * o.epiIdx + 36)) p.lc o.ctx (c.ctx k).number
      let z := s.epiRows n o (c.preamble p o.epiIdx) (p.opBank o) o.rows 0 seed
      match z.2 with
      | none => .next z.1
      | some (j, a) =>
        let t := z.1.upCl n fun c => { (r.banks.foldl (fun c b => c.setBank b { c.bank b with user := 0 }) c).retire x.2 with epiRun := none }
        .next (t.loopFault n 2 o.lt 3 k o.slot a j)
  | _, _ => .next s

/-- EPILOGUE_DONE (R146): the last output row is written, its scoreboard entries retire, and the bank is free. -/
def execEpilogueDone (n : Fin 576) (s : State) : Out :=
  match (s.cl n).epiRun with
  | none => .next s
  | some r => .next (s.upCl n fun c =>
      let c := r.banks.foldl (fun c b => if (c.bank b).user = 2 then c.setBank b { c.bank b with user := 0 } else c) c
      { c.retire r.entries with epiRun := none })

/-- MXU_INJECT (R156, R160): arms or cancels an injection. In Rest the debug windows ignore writes (R595). -/
def execMxuInject (n : Fin 576) (v : Word) (s : State) : Out :=
  .next (s.hostWrite (Reg.MXU_INJECT n) fun t => if 3 ≤ t.fd Reg.PWR_STATUS_STATE then t else t.plain (Reg.MXU_INJECT n) v)

end Sys2Proof.Machine
end

