-- ==== Sys2Proof/Machine/Vector.lean ====
section
/-! DEFINITION. The vector unit (chapter 5): its slots, lanes and beats, operations, masks and faults, and sums of squares. -/

namespace Sys2Proof.Machine

/-! ### The slots (R165, R166, R210) -/

/-- A VOP takes a source B, or reads operand 2 beside the mask stream (Table 5.3). -/
def vopTakesB (vop : Nat) : Bool := vop ≠ 0x00 && vop ≠ 0x20
def vopReads2 (vop : Nat) : Bool := vop == 0x13 || vop == 0x28 || vop == 0x29

/-- The operation of a VECTOR slot. -/
def vecOpOf (v : VecArg) (vop k : Nat) (on : Bool) (c : ClusterSt) : VecOp where
  plane := k / 4
  ctx := k % 4
  slot := (c.ctx k).slotPtr
  on := on
  order := c.issued
  vop := vop
  lt := v.lt
  fmtA := v.fmtA.toNat
  fmtB := v.fmtB.toNat
  fmtD := v.fmtD.toNat
  srcA := v.srcA.toNat
  srcB := v.srcB.toNat
  dst := v.dst.toNat
  maskEn := v.maskEn
  sumsq := v.sumsq
  sat := v.sat
  sub := v.sub.toNat
  aux := v.aux.toNat
  imm := v.imm
  idx := (c.ctx k).idx

/-- The scratchpad ranges that a vector operation reads, as lines (R210). -/
def Plane.vecReads (p : Plane) (o : VecOp) : List (Nat × Nat) :=
  let ext (i : Nat) : Nat × Nat := lineRange (p.extLo o.lt i) (p.extHi o.lt i)
  (if o.srcA = 0 then [ext 0] else []) ++ (if vopTakesB o.vop && o.srcB == 0 then [ext 1] else []) ++
    (if o.maskEn || vopReads2 o.vop then [ext 2] else []) ++
    (if o.vop = 0x20 ∧ o.sub = 0 then [lineRange o.aux (o.aux + 1040)] else [])

/-- Queues a VECTOR operation (R55, R165): two slot words. -/
def State.vecSlot (s : State) (n : Nat) (x : SlotCtl) (v : VecArg) (vop : Nat) : Out :=
  s.issue n x fun k on t =>
    let c := t.cl n
    if c.vecQ.isSome then t else
    let o := vecOpOf v vop k on c
    t.readSlot n k x ((c.plane (k / 4)).vecReads o) fun u =>
      u.upCl n fun c => ({ c with issued := c.issued + 1, vecQ := some o } : ClusterSt).advance k 2

/-- COPY (R168). -/
def execVecCopy (n : Fin 576) (x : SlotCtl) (v : VecArg) (s : State) : Out := s.vecSlot n x v 0x00
/-- IADD (R169). -/
def execVecIadd (n : Fin 576) (x : SlotCtl) (v : VecArg) (s : State) : Out := s.vecSlot n x v 0x01
/-- ISUB (R169). -/
def execVecIsub (n : Fin 576) (x : SlotCtl) (v : VecArg) (s : State) : Out := s.vecSlot n x v 0x02
/-- IMUL (R169). -/
def execVecImul (n : Fin 576) (x : SlotCtl) (v : VecArg) (s : State) : Out := s.vecSlot n x v 0x03
/-- SHL (R170). -/
def execVecShl (n : Fin 576) (x : SlotCtl) (v : VecArg) (s : State) : Out := s.vecSlot n x v 0x04
/-- SHRL (R170). -/
def execVecShrl (n : Fin 576) (x : SlotCtl) (v : VecArg) (s : State) : Out := s.vecSlot n x v 0x05
/-- SHRA (R170). -/
def execVecShra (n : Fin 576) (x : SlotCtl) (v : VecArg) (s : State) : Out := s.vecSlot n x v 0x06
/-- AND (R171). -/
def execVecAnd (n : Fin 576) (x : SlotCtl) (v : VecArg) (s : State) : Out := s.vecSlot n x v 0x08
/-- OR (R171). -/
def execVecOr (n : Fin 576) (x : SlotCtl) (v : VecArg) (s : State) : Out := s.vecSlot n x v 0x09
/-- XOR (R171). -/
def execVecXor (n : Fin 576) (x : SlotCtl) (v : VecArg) (s : State) : Out := s.vecSlot n x v 0x0A
/-- ANDN (R171). -/
def execVecAndn (n : Fin 576) (x : SlotCtl) (v : VecArg) (s : State) : Out := s.vecSlot n x v 0x0B
/-- ICMP (R172). -/
def execVecIcmp (n : Fin 576) (x : SlotCtl) (v : VecArg) (s : State) : Out := s.vecSlot n x v 0x10
/-- IMAX (R173). -/
def execVecImax (n : Fin 576) (x : SlotCtl) (v : VecArg) (s : State) : Out := s.vecSlot n x v 0x11
/-- IMIN (R173). -/
def execVecImin (n : Fin 576) (x : SlotCtl) (v : VecArg) (s : State) : Out := s.vecSlot n x v 0x12
/-- SEL (R168). -/
def execVecSel (n : Fin 576) (x : SlotCtl) (v : VecArg) (s : State) : Out := s.vecSlot n x v 0x13
/-- FADD (R174). -/
def execVecFadd (n : Fin 576) (x : SlotCtl) (v : VecArg) (s : State) : Out := s.vecSlot n x v 0x18
/-- FSUB (R174). -/
def execVecFsub (n : Fin 576) (x : SlotCtl) (v : VecArg) (s : State) : Out := s.vecSlot n x v 0x19
/-- FCMP (R172). -/
def execVecFcmp (n : Fin 576) (x : SlotCtl) (v : VecArg) (s : State) : Out := s.vecSlot n x v 0x1A
/-- FMAX (R173). -/
def execVecFmax (n : Fin 576) (x : SlotCtl) (v : VecArg) (s : State) : Out := s.vecSlot n x v 0x1B
/-- FMIN (R173). -/
def execVecFmin (n : Fin 576) (x : SlotCtl) (v : VecArg) (s : State) : Out := s.vecSlot n x v 0x1C
/-- FMUL (R175). -/
def execVecFmul (n : Fin 576) (x : SlotCtl) (v : VecArg) (s : State) : Out := s.vecSlot n x v 0x1D
/-- FDIV (R175). -/
def execVecFdiv (n : Fin 576) (x : SlotCtl) (v : VecArg) (s : State) : Out := s.vecSlot n x v 0x1E
/-- LUT (R176). -/
def execVecLut (n : Fin 576) (x : SlotCtl) (v : VecArg) (s : State) : Out := s.vecSlot n x v 0x20
/-- GATHER (R177). -/
def execVecGather (n : Fin 576) (x : SlotCtl) (v : VecArg) (s : State) : Out := s.vecSlot n x v 0x21
/-- PMAX (R187). -/
def execVecPmax (n : Fin 576) (x : SlotCtl) (v : VecArg) (s : State) : Out := s.vecSlot n x v 0x28
/-- PMIN (R187). -/
def execVecPmin (n : Fin 576) (x : SlotCtl) (v : VecArg) (s : State) : Out := s.vecSlot n x v 0x29

/-! ### Where an element lies (R163, R228, R229, R234) -/

/-- The place of an element: scratchpad byte, nibble and scale byte; bank and element; the immediate; or the address that leaves the
extent, which for a bank element is no byte address. -/
inductive Loc where
  | sp (a : Nat) (high : Bool) (scale : Nat)
  | bank (b i : Nat)
  | imm
  | out (a : Option Int)
  deriving DecidableEq, Repr

/-- An element of an operand at an element offset of scratchpad. -/
def Plane.locSp (p : Plane) (t op f : Nat) (e : Int) : Loc :=
  let w := fmtWidth f
  let a := p.addr t op w e
  let sc := if f = 6 then p.scaleAddr t op e else 0
  if ! p.inExtent t op w a then .out (some a)
  else if f = 6 && ! p.inExtent t op 8 sc then .out (some sc)
  else .sp a.toNat (e.fmod 2 == 1) sc.toNat

/-- The element of operand op at a position, where `place` is SRCA, SRCB or DST. -/
def Plane.locate (p : Plane) (bkt : Nat) (o : VecOp) (place op f pos : Nat) : Loc :=
  let e := p.offset bkt o.lt op o.idx pos
  if place = 0 then p.locSp o.lt op f e
  else if place = 3 then .imm
  else
    let i := ((p.base o.lt op % 2 ^ 14 : Nat) : Int) + e
    if 0 ≤ i ∧ i < 16384 then .bank (if place = 1 then p.bankA o.ctx else p.bankB o.ctx) i.toNat else .out none

/-- The pattern of an element, and its scale byte. -/
def ClusterSt.rdLoc (c : ClusterSt) (imm : Word) (f : Nat) : Loc → Nat × Nat
  | .sp a h sc => (c.rdElem a (fmtWidth f) h, if f = 6 then (c.rd sc).toNat else 0)
  | .bank b i => ((tget (0 : Word) (c.bank b).data i).toNat, 0)
  | .imm => (imm.toNat, 0)
  | .out _ => (0, 0)

/-- Writes a pattern of a format. -/
def ClusterSt.wrLoc (c : ClusterSt) (f : Nat) : Loc × Nat → ClusterSt
  | (.sp a h _, v) => c.wrElem a (fmtWidth f) h v
  | (.bank b i, v) => c.setBank b { c.bank b with data := mput 0 (c.bank b).data i (BitVec.ofNat 32 v) }
  | _ => c

/-! ### What a lane computes (R164, R169 to R177) -/

/-- A lane's result: a 32-bit pattern and flags VNAN 1, VINF 2, VSAT 4 (Table 5.10). -/
abbrev LaneVal := Word × Nat

/-- Widens an element to a lane (R164). -/
def widen (f : Nat) (e : Nat × Nat) : LaneVal :=
  if f = 7 ∨ f = 8 then (BitVec.ofNat 32 e.1, 0)
  else if isIntFmt f then (BitVec.ofInt 32 (toSigned (fmtWidth f) e.1), 0)
  else
    let v := elemVal f e.1 e.2
    let w := to32 v
    (w, match v with | .fin _ _ _ => 2 * b2n (isInf32 w) | _ => 0)

/-- The value of a lane. -/
def laneFV (int : Bool) (w : Word) : FV := elemVal (if int then 8 else 7) w.toNat 0

/-- Converts a result to FMT_D (R164), with the flags of R192. -/
def narrow (int : Bool) (f : Nat) (w : Word) : Nat × Nat :=
  let v := laneFV int w
  let r := convF f v none
  let nan := if isIntFmt f then 0 else match v with | .nan => 1 | _ => 0
  let inf := if isIntFmt f then 0 else match v, decodeF f r.1 with | .fin _ _ _, .inf _ => 2 | _, _ => 0
  (r.1, nan + inf + 4 * b2n r.2)

/-- An exact integer result: saturated or wrapped (R169). -/
def satOrWrap (sat : Bool) (i : Int) : LaneVal :=
  if ! sat then (BitVec.ofInt 32 i, 0)
  else if 2147483647 < i then (0x7FFFFFFF#32, 4) else if i < -2147483648 then (0x80000000#32, 4) else (BitVec.ofInt 32 i, 0)

/-- SHL (R170). -/
def shiftLeft (sat : Bool) (a b : Word) : LaneVal :=
  if b.toNat < 32 then satOrWrap sat (a.toInt * 2 ^ b.toNat)
  else if sat && a ≠ 0 then satOrWrap true (a.toInt * 2 ^ 32) else (0, 0)

/-- A floating result and its flags: NaN, and an infinity from an exact finite value. -/
def floatFlags (exact : FV) (w : Word) : LaneVal :=
  (w, b2n (isNan32 w) + match exact with | .fin _ _ _ => 2 * b2n (isInf32 w) | _ => 0)

/-- Integer comparisons of Table 5.4. -/
def cmpI (sub : Nat) (a b : Word) : Bool :=
  match sub with
  | 0 => a == b
  | 1 => a ≠ b
  | 2 => decide (a.toInt < b.toInt)
  | 3 => decide (a.toInt ≤ b.toInt)
  | 4 => decide (b.toInt < a.toInt)
  | 5 => decide (b.toInt ≤ a.toInt)
  | 6 => decide (a.toNat < b.toNat)
  | _ => decide (b.toNat ≤ a.toNat)

/-- Floating comparisons of Table 5.4. -/
def cmpF (sub : Nat) (a b : Word) : Bool :=
  let nan := isNan32 a || isNan32 b
  let x := val32 a
  let y := val32 b
  match sub with
  | 0 => !nan && !x.lt y && !y.lt x
  | 1 => nan || x.lt y || y.lt x
  | 2 => !nan && x.lt y
  | 3 => !nan && !y.lt x
  | 4 => !nan && y.lt x
  | 5 => !nan && !x.lt y
  | 8 => nan
  | _ => !nan

/-- FMAX and FMIN (R173). -/
def pickF (isMax : Bool) (a b : Word) : LaneVal :=
  if isNan32 a || isNan32 b then (nan32, 1)
  else if (if isMax then (val32 a).lt (val32 b) else (val32 b).lt (val32 a)) then (b, 0) else (a, 0)

/-- LUT (R176, Table 5.5). -/
def lutFn (sub : Nat) (t : List Word) (x : Word) : LaneVal :=
  match sub, val32 x with
  | _, .nan => (nan32, 1)
  | 0, _ => let w := tableFn t x; (w, b2n (isNan32 w))
  | 1, .inf n => (if n then 0 else 0x7F800000#32, 0)
  | 1, v =>
    if (FV.fin false 128 0).lt v then (0x7F800000#32, 2)
    else if v.lt (.fin true 150 0) then (0, 0) else floatFlags v (exp2Bounded v (Config.vecLut 1 [] x))
  | 2, .inf n => if n then (nan32, 1) else (0x7F800000#32, 0)
  | 2, .fin n m e =>
    if m = 0 then (0xFF800000#32, 0) else if n then (nan32, 1) else floatFlags (.fin n m 0) (log2Bounded m e (Config.vecLut 2 [] x))
  | _, .inf n => if n then (nan32, 1) else (0, 0)
  | _, .fin n m e =>
    if m = 0 then (if n then 0xFF800000#32 else 0x7F800000#32, 0)
    else if n then (nan32, 1) else floatFlags (.fin n m 0) (rsqrtBounded m e (Config.vecLut 3 [] x))

/-- The result of an operation other than GATHER, PMAX and PMIN on widened operands; `sel` is bit 0 of the select byte. -/
def laneFn (o : VecOp) (t : List Word) (a b : Word) (sel : Bool) : LaneVal :=
  match o.vop with
  | 0x01 => satOrWrap o.sat (a.toInt + b.toInt)
  | 0x02 => satOrWrap o.sat (a.toInt - b.toInt)
  | 0x03 => satOrWrap o.sat (a.toInt * b.toInt)
  | 0x04 => shiftLeft o.sat a b
  | 0x05 => (if b.toNat < 32 then a >>> b.toNat else 0, 0)
  | 0x06 => (a.sshiftRight (min b.toNat 31), 0)
  | 0x08 => (a &&& b, 0)
  | 0x09 => (a ||| b, 0)
  | 0x0A => (a ^^^ b, 0)
  | 0x0B => (a &&& ~~~b, 0)
  | 0x10 => (BitVec.ofNat 32 (b2n (cmpI o.sub a b)), 0)
  | 0x11 => (if a.toInt < b.toInt then b else a, 0)
  | 0x12 => (if b.toInt < a.toInt then b else a, 0)
  | 0x13 => (if sel then a else b, 0)
  | 0x18 => let x := (val32 a).add (val32 b); floatFlags x (vadd Config.vecAdd a b)
  | 0x19 =>
    let nb := b ^^^ 0x80000000#32
    let x := (val32 a).add (val32 nb)
    floatFlags x (vadd Config.vecAdd a nb)
  | 0x1A => (BitVec.ofNat 32 (b2n (cmpF o.sub a b)), 0)
  | 0x1B => pickF true a b
  | 0x1C => pickF false a b
  | 0x1D => let x := (val32 a).mul (val32 b); floatFlags x (vmul a b)
  | 0x1E => let x := (val32 a).quot (val32 b); floatFlags x (vdiv a b)
  | 0x20 => lutFn o.sub t a
  | _ => (a, 0)

/-- An operation keeps 32-bit patterns as they are and sets no flag (R171). -/
def vopRaw (vop : Nat) : Bool := (decide (0x08 ≤ vop) && decide (vop ≤ 0x0B)) || vop == 0x13

/-- The result of an operation is an integer lane. -/
def vopInt (o : VecOp) : Bool :=
  if o.vop = 0x00 ∨ o.vop = 0x21 then isIntFmt o.fmtA else decide (o.vop < 0x18) || o.vop == 0x1A

/-- Whether a partial replaces a running value and index (R187). -/
def partialWins (isMax int : Bool) (v i pv pi : Word) : Bool :=
  let nan (w : Word) : Bool := !int && isNan32 w
  (i == 0xFFFFFFFF#32 && pi ≠ 0xFFFFFFFF#32) || (!nan v && nan pv) ||
    (!nan v && !nan pv &&
      if isMax then (laneFV int v).lt (laneFV int pv) else (laneFV int pv).lt (laneFV int v))

/-! ### Lanes (R161, R178, R179) -/

/-- One position of a beat: places of A, B, operand 2 and D, whether a shape masks it, whether it is active, and its faults in the order
mask byte, A, B, operand 2, D, index, gathered element: KIND of VEC_FAULT and the address. -/
structure Lane where
  a : Loc
  b : Loc
  two : Loc
  d : Loc
  masked : Bool
  active : Bool
  maskFault : Bool
  faults : List (Nat × Option Int)
  deriving DecidableEq, Repr

/-- The index that a GATHER lane reads, and the place of its element (R177). -/
def ClusterSt.gatherLoc (c : ClusterSt) (p : Plane) (o : VecOp) (b : Loc) : Loc × List (Nat × Option Int) :=
  let i := (widen o.fmtB (c.rdLoc o.imm o.fmtB b)).1.toInt
  let l := p.locSp o.lt 0 o.fmtA i
  let range := o.imm ≠ 0 && !(decide (0 ≤ i) && decide (i < (o.imm.toNat : Int)))
  (l, (if range then [(1, some (0 : Int))] else []) ++ match l with | .out a => [(2, a)] | _ => [])

/-- The lane of a position. -/
def ClusterSt.lane (c : ClusterSt) (p : Plane) (o : VecOp) (y : Ctx) (pos : Nat) : Lane :=
  let bkt := c.bkt
  let none := Loc.imm
  if p.masked bkt o.lt y pos then ⟨none, none, none, none, true, false, false, []⟩
  else
    let gather := o.vop == 0x21
    let mask := if o.maskEn then p.locate bkt o 0 2 4 pos else none
    let a := if gather then none else p.locate bkt o o.srcA 0 o.fmtA pos
    let b := if vopTakesB o.vop then p.locate bkt o o.srcB 1 o.fmtB pos else none
    let two := if o.vop = 0x13 then p.locate bkt o 0 2 4 pos else if vopReads2 o.vop then p.locate bkt o 0 2 8 pos else none
    let d := p.locate bkt o o.dst 3 o.fmtD pos
    let bad (l : Loc) : List (Nat × Option Int) := match l with | .out x => [(0, x)] | _ => []
    let on := ! o.maskEn || (match mask with | .out _ => true | _ => (c.rdLoc 0 4 mask).1 % 2 == 1)
    let g := if gather && (bad b).isEmpty then c.gatherLoc p o b else (a, [])
    ⟨g.1, b, two, d, false, on, !(bad mask).isEmpty, bad mask ++ bad a ++ bad b ++ bad two ++ bad d ++ g.2⟩

/-- What an active lane writes, its flags, and the squares it adds to SQ_IN and SQ_OUT (R188). -/
structure LaneOut where
  writes : List (Loc × Nat)
  flags : Nat
  sqIn : Word
  sqOut : Word
  deriving DecidableEq, Repr

/-- The square of a lane, rounded to FP32. -/
def square (int : Bool) (w : Word) : Word := let v := laneFV int w; to32 (v.mul v)

/-- Runs one active lane. `g` holds the memory that gathered elements are read from. -/
def ClusterSt.runLane (c g : ClusterSt) (p : Plane) (o : VecOp) (t : List Word) (l : Lane) : LaneOut :=
  if o.vop = 0x28 ∨ o.vop = 0x29 then
    let int := isIntFmt o.fmtA
    let other (x : Loc) : Loc := match x with | .bank _ i => .bank (p.bankB o.ctx) i | y => y
    let v := BitVec.ofNat 32 (c.rdLoc 0 8 l.a).1
    let i := BitVec.ofNat 32 (c.rdLoc 0 8 (other l.a)).1
    let pv := BitVec.ofNat 32 (c.rdLoc o.imm 8 l.b).1
    let pi0 := BitVec.ofNat 32 (c.rdLoc 0 8 l.two).1
    let pi := if pi0 = 0xFFFFFFFF#32 then pi0 else pi0 + o.imm
    let r := if partialWins (o.vop == 0x28) int v i pv pi then (pv, pi) else (v, i)
    ⟨[(l.d, r.1.toNat), (other l.d, r.2.toNat)], if ! int && isNan32 r.1 then 1 else 0, 0, 0⟩
  else
    let m := if o.vop = 0x21 then g else c
    let a := widen o.fmtA (m.rdLoc 0 o.fmtA l.a)
    let b := if vopTakesB o.vop then widen o.fmtB (c.rdLoc o.imm o.fmtB l.b) else (0, 0)
    let sel := (c.rdLoc 0 4 l.two).1 % 2 == 1
    let r := laneFn o t a.1 (if o.vop = 0x21 then 0 else b.1) sel
    if vopRaw o.vop then ⟨[(l.d, r.1.toNat)], 0, 0, 0⟩
    else
      let w := narrow (vopInt o) o.fmtD r.1
      let sq := if o.vop = 0x00 then square (isIntFmt o.fmtA) a.1 else square false b.1
      ⟨[(l.d, w.1)], r.2 ||| w.2 ||| a.2 ||| (if o.vop = 0x21 then 0 else b.2), sq,
        square (isIntFmt o.fmtD) (widen o.fmtD (w.1, 0)).1⟩

/-! ### Beats (R180, R181, R183) -/

/-- Cycles per beat, and latency (Tables 5.3 and 5.6). -/
def beatCycles (vop : Nat) : Nat := if vop = 0x1D ∨ vop = 0x21 then 2 else if vop = 0x1E then 4 else 1
def latency (vop : Nat) : Nat := if vop = 0x20 then 11 else if vop = 0x1D then 12 else if vop = 0x1E ∨ vop = 0x21 then 16 else 10

/-- Sets flags of VEC_FLAGS and counts them (R192): VSUP 8, VSAT 4, VINF 2, VNAN 1. -/
def State.vecFlags (s : State) (n ctx f : Nat) : State :=
  if f = 0 then s else
  (s.wrg (Reg.VEC_FLAGS n) (s.rg (Reg.VEC_FLAGS n) ||| BitVec.ofNat 32 (f * 2 ^ (4 * ctx)))).incN (Reg.VEC_EVENTS n)
    (f % 2 + f / 2 % 2 + f / 4 % 2 + f / 8 % 2)

/-- A vector operation under way: the state, with the writes that have taken effect; the writes of earlier beats that have not, by
beat; the lane totals of SQ_IN and SQ_OUT; active lanes; whether a square was infinite or NaN; and the fault that ended it: KIND,
lane, address, element. -/
structure VecRun where
  s : State
  late : List (Nat × List (Loc × Nat))
  sqIn : List Word
  sqOut : List Word
  active : Nat
  inf : Bool
  nan : Bool
  fault : Option (Nat × Nat × Option Int × Nat)
  deriving DecidableEq, Repr

/-- Applies the writes of beats that land before a cycle, counted from the first beat's read. -/
def ClusterSt.land (c : ClusterSt) (o : VecOp) (cycle : Nat) (late : List (Nat × List (Loc × Nat))) : ClusterSt :=
  late.foldl (fun c e =>
    if beatCycles o.vop * e.1 + latency o.vop < cycle then e.2.foldl (fun c w => c.wrLoc o.fmtD w) c else c) c

/-- Adds the squares of a beat to the lane totals (R188). -/
def addSquares (tot : List Word) (sq : List (Option Word)) : List Word :=
  tot.mapIdx fun l t => match sq.getD l none with | some q => vadd Config.vecAdd t q | none => t

/-- Runs beat j: its reads see the writes that have landed; a fault on an active lane stops the operation (R180). -/
def VecRun.beat (r : VecRun) (n : Nat) (o : VecOp) (t : List Word) (total j : Nat) : VecRun :=
  let cyc := beatCycles o.vop * j
  let s := r.s.upCl n fun c => c.land o cyc r.late
  let late := r.late.filter fun e => !decide (beatCycles o.vop * e.1 + latency o.vop < cyc)
  let c := s.cl n
  let p := c.plane o.plane
  let y := { c.ctx (4 * o.plane + o.ctx) with idx := o.idx }
  let g := c.land o (cyc + 7) late
  let lanes := (List.range (min 64 (total - 64 * j))).map fun l => c.lane p o y (64 * j + l)
  let live (l : Lane) : Bool := l.active || l.maskFault
  match lanes.zipIdx.find? fun e => live e.1 && !e.1.faults.isEmpty with
  | some (l, k) =>
    let f := l.faults.headD (0, none)
    { r with s := s, late := late, fault := some (f.1, k, f.2, 64 * j + k) }
  | none =>
    let outs := lanes.map fun l => if l.active then some (c.runLane g p o t l) else none
    let on := outs.filterMap id
    let sup := ((lanes.filter fun l => !l.active).map fun l => l.faults.length).sum
    let flags := (on.map (·.flags)).foldl (· ||| ·) 0 ||| (if sup = 0 then 0 else 8)
    let s := ((s.inc64 (Reg.BEATS_LO n) 1).incN (Reg.SUPPRESSED n) sup).vecFlags n o.ctx flags
    let s := s.inc64 (Reg.MASKED_LO n) (lanes.filter (·.masked)).length
    { s := s
      late := late ++ [(j, on.flatMap (·.writes))]
      sqIn := if o.sumsq then addSquares r.sqIn (outs.map fun x => x.map (·.sqIn)) else r.sqIn
      sqOut := if o.sumsq then addSquares r.sqOut (outs.map fun x => x.map (·.sqOut)) else r.sqOut
      active := r.active + on.length
      inf := r.inf || on.any fun x => isInf32 x.sqIn || isInf32 x.sqOut
      nan := r.nan || on.any fun x => isNan32 x.sqIn || isNan32 x.sqOut
      fault := none }

/-- The last writes land. -/
def VecRun.land (r : VecRun) (n : Nat) (o : VecOp) : VecRun :=
  { r with s := r.s.upCl n fun c => r.late.foldl (fun c e => e.2.foldl (fun c w => c.wrLoc o.fmtD w) c) c, late := [] }

/-- Runs the beats from j on, up to a fault, and lets the last writes land. -/
def VecRun.beats (r : VecRun) (n : Nat) (o : VecOp) (t : List Word) (total : Nat) : Nat → Nat → VecRun
  | 0, _ => r.land n o
  | f + 1, j =>
    let r := r.beat n o t total j
    if r.fault.isSome then r.land n o else r.beats n o t total f (j + 1)

/-- The record of a vector extent fault (Table 5.9), and the end of the run (R180, R249). A bank element has no byte address; what the
record then holds is a free value. -/
def State.vecFault (s : State) (n : Nat) (o : VecOp) (kind lane : Nat) (a : Option Int) (elem : Nat) : State :=
  let t := s.cond (! s.on (Reg.VEC_FAULT_VALID n)) fun u =>
    let v := match a with | some i => (BitVec.ofInt 32 i, u) | none => u.free
    let u := v.2.wrg (Reg.VEC_FAULT n) (BitVec.ofNat 32 (2 ^ 31 + kind * 2 ^ 29 + lane * 2 ^ 23 + o.plane * 2 ^ 20 + o.ctx * 2 ^ 18 + o.slot))
    (u.wrg (Reg.VEC_FAULT_ADDR n) (BitVec.ofNat 32 (v.1.toNat % 2 ^ 23))).wrg (Reg.VEC_FAULT_ELEM n) (BitVec.ofNat 32 elem)
  t.extentFault n

/-- The record of a finished SUMSQ operation: lane totals added in lane order, and the flags of R189. -/
def VecRun.record (r : VecRun) (o : VecOp) (ids : List Nat) : SumsqRec :=
  let sum (l : List Word) : Word := match l with | [] => 0 | x :: xs => xs.foldl (vadd Config.vecAdd) x
  let a := sum r.sqIn
  let b := sum r.sqOut
  let nan := r.nan || isNan32 a || isNan32 b
  let inf := r.inf || isInf32 a || isInf32 b
  ⟨true, o.aux, [a, b, BitVec.ofNat 32 r.active, 0], o.ctx, b2n nan + 2 * b2n inf, ids⟩

/-- Runs a vector operation that is on. -/
def State.runVec (s : State) (n : Nat) (o : VecOp) : State :=
  let c := s.cl n
  let p := c.plane o.plane
  let t := if o.vop = 0x20 ∧ o.sub = 0 then c.words o.aux 260 else []
  let x := c.enter false (p.vecRanges o)
  let total := p.positions c.bkt o.lt
  let z := List.replicate 64 (0 : Word)
  let r := (VecRun.mk (s.setCl n x.1) [] z z 0 false false none).beats n o t total (ceilDiv total 64) 0
  match r.fault with
  | some (kind, lane, a, elem) => (r.s.upCl n fun c => c.retire x.2).vecFault n o kind lane a elem
  | none =>
    if o.sumsq then
      let dst := x.2.take (b2n (o.dst == 0))
      r.s.upCl n fun c => { c.retire dst with sumsq := some (r.record o (x.2.drop (b2n (o.dst == 0)))) }
    else r.s.upCl n fun c => c.retire x.2

/-- The holds of a vector operation's start (R182 to R184, R212): no record outstanding, its banks free, scheduled entries free, and no
array operation that issued first waiting for its banks. -/
def ClusterSt.vecMayStart (c : ClusterSt) (o : VecOp) : Bool :=
  let p := c.plane o.plane
  let free (b : Nat) : Bool := (c.bank b).user == 0 && !c.epiQ.any (·.banks.contains b) &&
    !c.arrayQ.any fun a => decide (a.order < o.order) && ((c.plane a.plane).opBanks a).contains b
  c.sumsq.isNone && (p.vecBanks o).all free && decide (c.used false + (p.vecRanges o).length ≤ 8)

/-- VECTOR_OP_START (R182): the queued operation starts once its holds are met and runs its beats. -/
def execVectorOpStart (n : Fin 576) (ecc : SpEcc) (conf : Option Conflict) (s : State) : Out :=
  match (s.cl n).vecQ with
  | none => .next s
  | some o =>
    if ! (s.cl n).vecMayStart o || s.isFenced n then .next s
    else
      let s := s.upCl n fun c => { c with vecQ := none }
      if ! o.on then
        .next (if o.sumsq then s.upCl n fun c => { c with sumsq := some ⟨false, 0, [], o.ctx, 0, []⟩ } else s)
      else
        let e := s.spEcc n ecc
        if ! e.2 then .next e.1 else
        let f := e.1.conflict n (4 * o.plane + o.ctx) o.slot conf
        if ! f.2 then .next f.1 else .next (f.1.runVec n o)

/-- SUMSQ_RECORD_WRITE (R188, R189): the record is written to AUX, its scoreboard entry retires, and the unit is free. -/
def execSumsqRecordWrite (n : Fin 576) (s : State) : Out :=
  match (s.cl n).sumsq with
  | none => .next s
  | some r =>
    let t := s.upCl n fun c =>
      let c : ClusterSt := { c with sumsq := none }
      if r.on then (c.retire r.entries).wrN r.addr (wordBytes r.words) else c
    .next ((t.vecFlags n r.ctx r.flags).wake n)

end Sys2Proof.Machine
end

