-- ==== Sys2Proof/Machine/Scratchpad.lean ====
section
/-! DEFINITION. The scratchpad's elastic and background accesses, the spare bank, zeroing, and the debug path (chapter 6; R24). -/

namespace Sys2Proof.Machine

/-! ### What the sequencer shows (Table 2.11) -/

/-- SEQ_STATUS.STATE of a cluster. -/
def State.seqState (s : State) (n : Nat) : Nat :=
  let c := s.cl n
  if c.mxuFault || s.isFenced n then 5
  else if s.on (Reg.SEQ_DEBUG_HALT n) then 6
  else if c.switching.isSome || c.switch.isSome then 3
  else if c.running.isSome then (if c.stopped then 0 else 1)
  else if c.arrived then 4
  else match c.cur with
    | some k => match (c.ctx k).wait with
      | .barrier _ => 4
      | .none => 0
      | _ => 2
    | none => 0

/-! ### Elastic accesses (R199 to R202) -/

/-- ELASTIC_ACCESS (R200): the access that an elastic requester holds in its buffer is performed; a write's bytes are the requester's
data, and a read changes nothing (log entry 43). A fenced cluster's clock is stopped. -/
def execElasticAccess (n : Fin 576) (addr : BitVec 23) (data : List Byte) (s : State) : Out :=
  .next (if s.isFenced n then s else s.upCl n fun c => c.wrN addr.toNat data)

/-- PATROL_SCRUB (R202): single errors are corrected; an uncorrectable one is handled as a read's, except that issue stops only while a
plane of the cluster is ACTIVE. A fenced cluster and a device in Rest are not scrubbed. -/
def execPatrolScrub (n : Fin 576) (ecc : SpEcc) (s : State) : Out :=
  .next (if s.isFenced n || s.fd Reg.PWR_STATUS_STATE == 3 then s
    else
      let c := s.cl n
      let t := (s.spEcc n ecc).1
      if c.activePlane.isSome then t else t.upCl n fun d => { d with stopped := c.stopped, switching := c.switching })

/-- SPARE_BANK_COPY_DONE (R215): the copy has ended; the mapping switches at the next step boundary. -/
def execSpareBankCopyDone (n : Fin 576) (s : State) : Out :=
  .next (s.upCl n fun c => { c with migrating := c.migrating.map fun m => (m.1, true) })

/-! ### Zeroing (R24, R217 to R220) -/

/-- Clusters of a cluster's region that the zeroing engine serves. -/
def State.zeroingIn (s : State) (g : Nat) : Nat := ((List.range 18).filter fun p => (s.cl (18 * g + p)).zeroing).length

/-- ZEROING_REQUEST (R24, R218): the first request of a cluster is served when fewer than four clusters of its region are. A fenced cluster
is not zeroed (R220). -/
def execZeroingRequest (n : Fin 576) (s : State) : Out :=
  let c := s.cl n
  .next (if c.zero.isEmpty || c.zeroing then s
    else if s.isFenced n then s.upCl n fun c => { c with zero := [] }
    else if 4 ≤ s.zeroingIn (n.val / 18) then s
    else s.upCl n fun c => { c with zeroing := true })

/-- Zeroes what a request names. -/
def ClusterSt.zeroNow (c : ClusterSt) (z : ZeroReq) : ClusterSt :=
  let c := z.ranges.foldl (fun c r => c.zeroRange r.1 r.2) c
  let wipe (b : Bank) : Bank := { b with data := [] }
  let c : ClusterSt := if z.banks then { c with bank0 := wipe c.bank0, bank1 := wipe c.bank1 } else c
  if z.counters then { c with heldUpd := [] } else c

/-- ZEROING_DONE (R217, R218): the ranges, banks and counters that the request names are zero. -/
def execZeroingDone (n : Fin 576) (s : State) : Out :=
  let c := s.cl n
  .next (match c.zeroing, c.zero with
    | true, z :: zs =>
      let t := s.upCl n fun c => { c.zeroNow z with zero := zs, zeroing := false }
      if z.counters then t.each (List.range 64) fun u i => u.setCc n i 0 0 else t
    | _, _ => s)

/-! ### The debug path (R222) -/

/-- The byte address in SP_DBG_ADDR. -/
def State.dbgAddr (s : State) (n : Nat) : Nat := 4 * s.fd (Reg.SP_DBG_ADDR_WORD_ADDR n)

/-- An access advances WORD_ADDR by 1 when AUTOINC is set. -/
def State.dbgAdvance (s : State) (n : Nat) : State :=
  if s.on (Reg.SP_DBG_ADDR_AUTOINC n) then
    s.setF (Reg.SP_DBG_ADDR_WORD_ADDR n) ((s.fd (Reg.SP_DBG_ADDR_WORD_ADDR n) + 1) % 2 ^ 21)
  else s

/-- SP_DBG_READ (R222): a free bank cycle serves the read. With an uncorrectable word the read has no data of its own: what it answers is
a free value. -/
def execSpDbgRead (mc : Bool) (n : Fin 576) (ecc : SpEcc) (s : State) : Out :=
  let a := s.dbgAddr n
  let off := Reg.SP_DBG_DATA n
  .next (if 0x600000 ≤ a then (s.emit (.regRead mc off 0)).dbgAdvance n
    else
      let e := s.spEcc n ecc
      let v := if e.2 then ((e.1.cl n).rdW a, e.1) else e.1.free
      (v.2.emit (.regRead mc off v.1)).dbgAdvance n)

/-- SP_DBG_READ_TIMEOUT (R222): the read completes with 0 and sets RD_LATE; WORD_ADDR stays. -/
def execSpDbgReadTimeout (mc : Bool) (n : Fin 576) (s : State) : Out :=
  .next ((s.emit (.regRead mc (Reg.SP_DBG_DATA n) 0)).setF (Reg.SP_DBG_ADDR_RD_LATE n) 1)

/-- A write of SP_DBG_DATA (R222): takes effect while the cluster is halted, idle or fenced; else REFUSED sets. -/
def State.dbgWrite (s : State) (n : Nat) (v : Word) : State :=
  let q := s.seqState n
  if q = 0 ∨ q = 5 ∨ q = 6 then
    (if s.dbgAddr n < 0x600000 then s.upCl n fun c => c.wrW (s.dbgAddr n) v else s).dbgAdvance n
  else s.setF (Reg.SP_DBG_ADDR_REFUSED n) 1

/-- SP_DBG_WRITE (R222). In Rest the debug windows ignore writes (R595). -/
def execSpDbgWrite (n : Fin 576) (v : Word) (s : State) : Out :=
  .next (s.hostWrite (Reg.SP_DBG_DATA n) fun t => if 3 ≤ t.fd Reg.PWR_STATUS_STATE then t else t.dbgWrite n v)

end Sys2Proof.Machine
end

