-- ==== Sys2Proof/Machine/Counters.lean ====
section
/-! DEFINITION. Counters (chapter 9): advances, pairs and drift, mirrors, CSIG and CWAIT, package counters from the host side, setting by
hand, traced counters, and lending. -/

namespace Sys2Proof.Machine

/-! ### Count drift (R297, R298) -/

/-- A count drift: its record, the count, the first event of the run on the cluster, and the end of the run. -/
def State.countDrift (s : State) (n kind ctr k slot : Nat) (own : Nat) (peer : Option Nat) : State :=
  let t := s.cond (! s.on (Reg.CC_FAULT_VALID n)) fun u =>
    let p := match peer with | some v => (lo32 v, u) | none => u.free
    let u := p.2.wrg (Reg.CC_FAULT n)
      (BitVec.ofNat 32 (2 ^ 31 + kind * 2 ^ 28 + ctr * 2 ^ 22 + k / 4 * 2 ^ 19 + k % 4 * 2 ^ 17 + slot))
    (u.wrg (Reg.CC_FAULT_OWN n) (lo32 own)).wrg (Reg.CC_FAULT_PEER n) p.1
  let t := t.inc (Reg.CC_DRIFTS n)
  let run := t.net.step.bind fun y => y.seqIds.head?
  let t := if run.isSome && (t.cl n).driftRun ≠ run then
      (t.upCl n fun c => { c with driftRun := run }).clusterEvent n 0x03 0 0 ctr else t
  t.programError 7

/-- The pairs of the ACTIVE planes: plane, binding and context. -/
def ClusterSt.pairs (c : ClusterSt) : List (Nat × Nat × Nat) :=
  (List.range 8).flatMap fun p =>
    let x := c.plane p
    if x.st ≠ 3 then [] else
    (List.range (x.f 4 6 0)).flatMap fun b =>
      if x.cb b 0 31 31 = 1 ∧ x.cb b 0 30 29 = 0 ∧ (x.cb b 0 26 25 = 1 ∨ x.cb b 0 26 25 = 2) then
        (List.range (if x.cb b 0 28 28 = 1 then x.contexts else 1)).map fun j => (p, b, j)
      else []

/-- Which drift a pair shows, if any: KIND, with the pair's own count and its mirror of the peer's (R297). -/
def State.pairDrift (s : State) (n : Nat) (e : Nat × Nat × Nat) : Option (Nat × Nat × Nat) :=
  let x := (s.cl n).plane e.1
  let own := s.cc n (x.counter e.2.1 e.2.2)
  let peer := s.cc n (x.counter (x.cb e.2.1 0 24 19) e.2.2)
  let producer := x.cb e.2.1 0 26 25 = 1
  let pc := if producer then (own, peer) else (peer, own)
  if pc.1 < pc.2 then some (0, own, peer)
  else if x.cb e.2.1 0 18 15 < pc.1 - pc.2 then some (1, own, peer) else none

/-- Checks the pairs that counter i belongs to; the first that drifts ends the run. `slot` is the slot word of a CSIG and k its context. -/
def State.checkPairs (s : State) (n i slot : Nat) : State :=
  let touched := (s.cl n).pairs.filter fun e =>
    let x := (s.cl n).plane e.1
    x.counter e.2.1 e.2.2 == i || x.counter (x.cb e.2.1 0 24 19) e.2.2 == i
  match touched.find? fun e => (s.pairDrift n e).isSome with
  | none => s
  | some e =>
    match s.pairDrift n e with
    | some (kind, own, peer) => s.countDrift n kind (((s.cl n).plane e.1).counter e.2.1 e.2.2) (4 * e.1 + e.2.2) slot own (some peer)
    | none => s

/-! ### Advances (R287, R292 to R294, R300) -/

/-- The largest value of a counter. -/
def counterMax : Nat := 2 ^ 48 - 1

/-- The device advances a binding for a context, at a CSIG or a completed block: an OWN counter at once, with its update and the check of
its pair; a PKG or REMOTE binding staged for the commit; a MIRROR binding is a program error. -/
def State.advanceBinding (s : State) (n k b inc slot : Nat) : State :=
  let p := (s.cl n).plane (k / 4)
  match p.cb b 0 30 29 with
  | 0 =>
    let i := p.counter b (k % 4)
    let v := s.cc n i + inc
    let w := min v counterMax
    let t := (s.setCc n i w (clusterStop n)).activity n false
    let t := if p.cb b 1 31 31 = 1 then
        t.emit (.mirrorUpdate (p.cb b 1 30 22) (p.cb b 1 21 16 + if p.cb b 0 28 28 = 1 then k % 4 else 0) w) else t
    if counterMax < v then t.countDrift n 2 i k slot w none else (t.checkPairs n i slot).wake n
  | 1 => s.flowError
  | kind =>
    match s.net.step with
    | none => s
    | some x => s.setStep (some { x with staged := x.staged ++
        [⟨n, k, if kind = 3 then some (p.cb b 1 13 0) else none, p.cb b 0 11 0, inc⟩] })

/-- CSIG (R292). -/
def execCsig (n : Fin 576) (x : SlotCtl) (b : Fin 64) (inc : BitVec 16) (s : State) : Out :=
  s.issue n x fun k on t =>
    let slot := ((t.cl n).ctx k).slotPtr
    let t := t.pass n k
    if on then t.advanceBinding n k b inc.toNat slot else t

/-- CWAIT (R295, R296): a condition that holds at issue does not wait. -/
def execCwait (n : Fin 576) (x : SlotCtl) (b ref : Fin 64) (rel : Bool) (offset : BitVec 32) (s : State) : Out :=
  s.issue n x fun k on t =>
    if ! on || t.counterMet n k b ref rel offset.toNat then t.pass n k
    else t.waitAt n k (.counter b ref rel offset.toNat) x

/-! ### Mirrors (R294, R301) -/

/-- A value reaches a mirror: it takes the larger; a change is checked and may meet waits. -/
def State.mirrorTake (s : State) (n i v src : Nat) : State :=
  if s.cc n i < v then (((s.setCc n i v src).activity n false).checkPairs n i 0).wake n else s

/-- An update whose complement does not match: discarded, counted, and a fault of the path that carried it (R294, Table 17.5). -/
def State.updateMismatch (s : State) (n stop : Nat) : State := s.cplMismatch (some (Reg.CC_SIG_DISCARD n)) stop 7 0

/-- MIRROR_UPDATE (R294): `step` and `attempt` are those of the update. An update of the next step, or of a step whose release has not yet
reached the cluster, is held, the largest only. -/
def execMirrorUpdate (n : Fin 576) (k : Fin 64) (v : BitVec 48) (bad : Bool) (step attempt : BitVec 8) (i : Fin 64) (gen : BitVec 8)
    (src : BitVec 16) (s : State) : Out :=
  let c := s.cl n
  .next (if s.isFenced n then s
    else if bad then s.updateMismatch n src.toNat
    else if gen.toNat ≠ s.gen i then s.inc (Reg.CC_STALE n)
    else if step.toNat = (c.step + 1) % 256 || (s.net.step.any fun x =>
        ! x.released.contains n.val && step.toNat == x.number % 256 && attempt.toNat == x.attempt % 256) then
      let old := tget 0 c.heldUpd k
      if old / 2 ^ 16 < v.toNat then s.upCl n fun c => { c with heldUpd := tput c.heldUpd k (v.toNat * 2 ^ 16 + src.toNat) } else s
    else if step.toNat = c.step % 256 ∧ attempt.toNat = c.attempt % 256 then s.mirrorTake n k v.toNat src.toNat
    else s.inc (Reg.CC_STALE n))

/-- PKG_MIRROR_UPDATE (R301): the hub's value of a package counter; no check of step and attempt. -/
def execPkgMirrorUpdate (n : Fin 576) (k : Fin 64) (v : BitVec 48) (bad : Bool) (i : Fin 64) (gen : BitVec 8) (s : State) : Out :=
  .next (if s.isFenced n then s
    else if bad then s.updateMismatch n (hubStop 6)
    else if gen.toNat ≠ s.gen i then s.inc (Reg.CC_STALE n)
    else s.mirrorTake n k v.toNat (hubStop 6))

/-! ### PC_CTRL (R325, R286) -/

/-- A RESIDENT or ACTIVE plane holds a PKG binding of a package counter. -/
def State.pkgBound (s : State) (i : Nat) : Bool :=
  s.clusters.any fun e => (List.range 8).any fun p =>
    let x := e.2.plane p
    (x.st == 2 || x.st == 3) && (List.range (x.f 4 6 0)).any fun b =>
      x.cb b 0 31 31 == 1 && x.cb b 0 30 29 == 2 && x.cb b 0 11 0 == i

/-- A write to PC_CTRL: refused when it changes OWNED or OWNER under a bound plane; a change of them restarts the counter at 0, and with it its
watch value (R346). A vector
beyond the owner's range keeps its old value (R656). An armed interrupt that is due fires (R306). -/
def State.pcCtrlWrite (s : State) (i : Nat) (v : Word) : State :=
  let old := s.rg (Reg.PC_CTRL i)
  let change := bits old 28 22 ≠ bits v 28 22
  if change && s.pkgBound i then s.inc Reg.PC_CTRL_REFUSED
  else
    let v := if decide (bits v 10 0 < if bits v 27 22 = 0 then 2048 else 32) then v else setBits v 10 0 (bits old 10 0)
    let t := s.plain (Reg.PC_CTRL i) v
    (if change then { t.setPc i 0 with time := { t.time with watch := tdel t.time.watch i } } else t).pcIrq i

/-- PC_CTRL_WRITE (R325). -/
def execPcCtrlWrite (c : Fin 4096) (v : Word) (s : State) : Out := .next (s.hostWrite (Reg.PC_CTRL c) fun t => t.pcCtrlWrite c v)

/-! ### Setting by hand (R321, R326) -/

/-- A setting has finished. -/
def State.setDone (s : State) (result : Nat) : State := (s.setF Reg.CNT_SET_STATUS_DONE 1).setF Reg.CNT_SET_STATUS_RESULT result

/-- The binding of an ACTIVE plane that names a cluster counter sets LOCK. -/
def ClusterSt.counterLocked (c : ClusterSt) (i : Nat) : Bool :=
  (List.range 8).any fun p =>
    let x := c.plane p
    x.st == 3 && (List.range (x.f 4 6 0)).any fun b =>
      x.cb b 0 31 31 == 1 && x.cb b 0 27 27 == 1 && decide (x.cb b 0 30 29 ≤ 2) &&
        (List.range (if x.cb b 0 28 28 = 1 then x.contexts else 1)).any fun j => x.counter b j == i

/-- The setting that the CNT_SET registers describe. A target that names no counter sets nothing; what RESULT then holds is a free value. -/
def State.cntSet (s : State) : State :=
  let v := (s.rg Reg.CNT_SET_VAL_LO).toNat + 2 ^ 32 * s.fd Reg.CNT_SET_VAL_HI_VALUE
  let good := s.rg Reg.CNT_SET_VAL_N_LO == ~~~(s.rg Reg.CNT_SET_VAL_LO) &&
    s.fd Reg.CNT_SET_VAL_N_HI_VALUE_N == 65535 - s.fd Reg.CNT_SET_VAL_HI_VALUE
  let i := s.fd Reg.CNT_SET_TARGET_INDEX
  let n := s.fd Reg.CNT_SET_TARGET_PCLUSTER
  if ! good then (s.hostMismatch 0).setDone 3
  else if s.on Reg.CNT_SET_TARGET_PKG then
    if s.on (Reg.PC_CTRL_LOCK i) then s.setDone 2
    else if v ≤ s.pc i then s.setDone 1
    -- a setting by hand is no signaller: a traced counter keeps its last one
    else (s.pcChanged i v (s.rg (Reg.TR_LAST i)).toNat).setDone 0
  else if 576 ≤ n ∨ 64 ≤ i then s.free.2.setDone (bits s.free.1 2 0)
  else if s.isFenced n || (s.cl n).counterLocked i then s.setDone 2
  else if v ≤ s.cc n i then s.setDone 1
  else
    let t := (s.setCc n i v (s.fd (Reg.CC_HI_LAST_SRC n i))).checkPairs n i 0
    if t.rg (Reg.CC_DRIFTS n) ≠ s.rg (Reg.CC_DRIFTS n) then t.setDone 4 else (t.wake n).setDone 0

/-- CNT_SET_GO (R321, R326). -/
def execCntSetGo (s : State) : Out := .next (s.hostWrite Reg.CNT_SET_GO fun t => t.cntSet)

/-! ### Traced counters (R322) -/

/-- The node code of a context (Table 9.7). -/
def ctxNode (n k : Nat) : Word := BitVec.ofNat 32 (clusterStop n * 2 ^ 13 + k / 4 * 2 ^ 10 + k % 4 * 2 ^ 8)

/-- The target of a CWAIT, low 32 bits (R295). -/
def State.waitGoal (s : State) (n k : Nat) : Word :=
  match ((s.cl n).ctx k).wait with
  | .counter _ ref true offset => BitVec.ofInt 32 ((s.bindVal n k ref : Int) + toSigned 32 offset)
  | .counter _ _ false offset => BitVec.ofNat 32 offset
  | _ => 0

/-- TRACE_NOTICE (R322): a context's wait on a mirror of a traced counter starts, or has been met. -/
def execTraceNotice (n : Fin 576) (p : Fin 8) (c : Fin 4) (k : Fin 256) (starts : Bool) (s : State) : Out :=
  let j := 4 * p.val + c.val
  let node := ctxNode n j
  .next (if starts then s.traceStart k (node, s.waitGoal n j)
    else match (tget [] s.host.waiters k.val).find? fun w => w.1 == node with
      | some w => s.traceEnd k w
      | none => s)

/-! ### Lending (R318 to R320) -/

/-- LEND_START (R318): a cluster with no slot to issue and no unit busy lends; a halted or fenced one does not, nor any in fixed-frequency
mode (R320). -/
def execLendStart (n : Fin 576) (s : State) : Out :=
  let c := s.cl n
  .next (if c.lending.isSome || s.isFenced n || s.on (Reg.SEQ_DEBUG_HALT n) || s.on Reg.PWR_CTRL_MODE || c.running.isSome ||
      c.switching.isSome || ! c.unitsIdle then s
    else (s.upCl n fun c => { c with lending := some s.clk }).inc (Reg.LEND_EVENTS n))

end Sys2Proof.Machine
end

