-- ==== Sys2Proof/Machine/Channels.lean ====
section
/-! DEFINITION. Channels (chapter 8): SEND in plain and halo form, RECV, RELEASE, arriving tiles, credits and take notices; halos
(chapter 7). -/

namespace Sys2Proof.Machine

/-! ### Halo slabs (R242, R243) -/

/-- Halo widths (Table 7.1). -/
def Plane.haloWidth (p : Plane) (t d : Nat) : Nat :=
  if d < 4 then p.lt t 1 (8 * d + 7) (8 * d) else p.lt t 2 (8 * d - 25) (8 * d - 32)

/-- A slab of a halo binding: the unit level, the halo width, the first coordinate u, and the number of positions (Table 7.5). -/
structure Slab where
  op : Nat
  unit : Nat
  hw : Nat
  u0 : Int
  total : Nat
  deriving DecidableEq, Repr

/-- The dimension of a halo binding: 0 A, 1 B. -/
def Plane.haloDim (p : Plane) (t bnd : Nat) : Nat := if bnd = 0 then p.lt t 3 30 28 else p.lt t 3 18 16

/-- The slab of a binding: an edge, or a margin, on the lower or upper side. -/
def Plane.slab (p : Plane) (b t bnd : Nat) (margin upper : Bool) : Slab :=
  let d := p.haloDim t bnd
  let hw := p.haloWidth t d
  let unit := ((List.range (p.levels t)).find? fun l => decide (p.order t l < p.elems t) && p.dim t l == d && p.weight t l == 1).getD 0
  let tt := p.bound b t unit
  let u0 : Int := match margin, upper with
    | false, false => 0
    | false, true => (tt : Int) - hw
    | true, false => -(hw : Int)
    | true, true => tt
  let others := ((List.range (p.levels t)).filter fun l => decide (p.order t l < p.elems t) && l ≠ unit).map fun l => p.bound b t l
  ⟨p.lt t 0 19 18, unit, hw, u0, hw * others.prod⟩

/-- The index of level l at a slab position: u stands in for the unit level's index. -/
def Plane.slabIndex (p : Plane) (b t : Nat) (s : Slab) (idx : List Nat) (pos l : Nat) : Int :=
  let o := p.order t l
  if o < p.elems t then
    let bd (x : Nat) : Nat := if x = s.unit then s.hw else p.bound b t x
    let i := pos / ((List.range o).map fun j => bd (p.levelAt t j)).prod % bd l
    if l = s.unit then s.u0 + i else i
  else idx.getD l 0

/-- A slab position is masked for actual sizes (R235, R230). -/
def Plane.slabMasked (p : Plane) (b t : Nat) (s : Slab) (y : Ctx) (idx : List Nat) (pos : Nat) : Bool :=
  let x (d : Nat) : Int :=
    ((List.range (p.levels t)).map fun l => if p.dim t l = d then p.slabIndex b t s idx pos l * p.weight t l else 0).sum
  (decide (p.ddim t 0 ≠ 7) && decide ((y.size0 : Int) ≤ x (p.ddim t 0))) ||
    (decide (p.ddim t 1 ≠ 7) && decide ((y.size1 : Int) ≤ x (p.ddim t 1)))

/-- The address of a slab position, and whether it is the high nibble of a 4-bit format (R243). -/
def Plane.slabAddr (p : Plane) (b t w : Nat) (s : Slab) (idx : List Nat) (pos : Nat) : Int × Bool :=
  let ls := List.range (p.levels t)
  let tile := (ls.map fun l => if p.elems t ≤ p.order t l ∧ p.dim t l ≠ 7 then (idx.getD l 0 : Int) * p.stride t l s.op else 0).sum
  let origin := (p.base t s.op : Int) + ((toSigned 24 (p.lt t 4 23 0) + tile) * w).fdiv 8
  let e := (ls.map fun l => if p.order t l < p.elems t then p.slabIndex b t s idx pos l * p.stride t l s.op else 0).sum
  (origin + (e * w).fdiv 8, e.fmod 2 == 1)

/-- The format of a loop table's operand, as the first MATRIX or VECTOR slot of the plane that names the table gives it: a SEND in halo
form names no format (log entry 44). -/
def Plane.operandFmt (p : Plane) (t op : Nat) : Option Nat :=
  (List.range p.slotWords).findSome? fun k =>
    let hi := tget (0 : Word) p.words (17 + 2 * k)
    let lo := tget (0 : Word) p.words (16 + 2 * k)
    if bits hi 31 28 = 1 ∧ bits hi 12 9 = t then
      (if op = 0 then some (bits hi 8 5) else if op = 1 then some (bits hi 4 1)
        else if op = 3 then some (p.ed (bits lo 14 11) 0 31 28) else none)
    else if bits hi 31 28 = 2 ∧ bits hi 9 6 = t then
      (if op = 0 then some (bits hi 5 2) else if op = 1 then some (bits hi 1 0 * 4 + bits lo 31 30)
        else if op = 3 then some (bits lo 29 26) else some (if bits hi 15 10 = 0x28 ∨ bits hi 15 10 = 0x29 then 8 else 4))
    else none

/-- Elements packed in order, 4-bit ones low nibble first. -/
def packElems (w : Nat) : List Nat → List Byte
  | [] => []
  | [a] => if w = 4 then [BitVec.ofNat 8 a] else leBytes (w / 8) a
  | a :: b :: l =>
    if w = 4 then BitVec.ofNat 8 (a + 16 * b) :: packElems w l else leBytes (w / 8) a ++ packElems w (b :: l)

/-- Element i of packed bytes. -/
def packedAt (w : Nat) (bs : List Byte) (i : Nat) : Nat :=
  if w = 4 then (bs.getD (i / 2) 0).toNat / (if i % 2 = 1 then 16 else 1) % 16
  else leVal ((bs.drop (i * (w / 8))).take (w / 8))

/-! ### SEND (R58, R80, R244, R272 to R274) -/

/-- Sends a tile: a credit is taken, and the sequence number and counts move on. -/
def State.sendTile (s : State) (n k ep : Nat) (isNull : Bool) (halo : List Nat) (data : List Byte) : State :=
  let c := s.cl n
  let p := c.plane (k / 4)
  let e := c.sendEp (epKey k ep)
  let take := (s.slot p.slot).exitChain p.sect
  let lc := p.sb ep 23 15
  let sect := if p.sb ep 10 10 = 1 then ((s.slot p.slot).nextSect p.sect).getD p.sect else p.sect
  let dst := (s.cl (s.physOf lc)).planeAt p.slot sect (p.sb ep 29 27) (some (p.sb ep 26 24))
  let t := s.upCl n fun c => (c.setSend (epKey k ep)
    { e with credits := e.credits - 1, seq := e.seq + 1, takeSent := e.takeSent + b2n take }).advance k 1
  (t.inc64 (Reg.CH_TILES_SENT_LO n) 1).emit
    (.tile lc (p.sb ep 26 24) dst (k % 4) e.seq isNull take halo data)

/-- Issues a SEND: with no credit the context waits. -/
def State.sendSlot (s : State) (n : Nat) (x : SlotCtl) (ep : Nat) (f : Nat → Bool → State → State) : Out :=
  s.issue n x fun k on t =>
    if ((t.cl n).sendEp (epKey k ep)).credits = 0 then t.waitAt n k (.credit ep) x else f k on t

/-- SEND (R273): a tile of LINES_M1 + 1 lines, or a null tile when predicated off (R58). -/
def execSend (n : Fin 576) (x : SlotCtl) (ep : Fin 8) (addr : BitVec 23) (linesM1 : BitVec 8) (s : State) : Out :=
  s.sendSlot n x ep fun k on t =>
    if ! on then t.sendTile n k ep true [] []
    else
      let len := 64 * (linesM1.toNat + 1)
      t.readSlot n k x [lineRange addr.toNat (addr.toNat + len)] fun u =>
        u.sendTile n k ep false [] ((u.cl n).rdN addr.toNat len)

/-- The width of the halo operand of a loop table; a table that no MATRIX or VECTOR slot names leaves it open. -/
def State.haloFmt (s : State) (n k t op : Nat) : Nat × State :=
  match ((s.cl n).plane (k / 4)).operandFmt t op with
  | some f => (f, s)
  | none => (s.free.1.toNat % 9, s.free.2)

/-- Reads an edge slab: the elements, masked ones as 0, or the position and address of the first extent fault. -/
def ClusterSt.readSlab (c : ClusterSt) (k t f : Nat) (sl : Slab) : List Nat × Option (Nat × Int) :=
  let p := c.plane (k / 4)
  let y := c.ctx k
  let w := fmtWidth f
  let at0 (i : Nat) : Int × Bool := p.slabAddr c.bkt t w sl y.idx i
  let live (i : Nat) : Bool := ! p.slabMasked c.bkt t sl y y.idx i
  match (List.range sl.total).find? fun i => live i && ! p.inExtent t sl.op w (at0 i).1 with
  | some i => ([], some (i, (at0 i).1))
  | none => ((List.range sl.total).map fun i => if live i then c.rdElem (at0 i).1.toNat w (at0 i).2 else 0, none)

/-- SEND_HALO (R244): sends an edge slab; an extent fault sends nothing and takes no credit. -/
def execSendHalo (n : Fin 576) (x : SlotCtl) (ep : Fin 8) (lt : Fin 16) (bindB upper : Bool) (s : State) : Out :=
  s.sendSlot n x ep fun k on t =>
    let idx := ((t.cl n).ctx k).idx
    if ! on then t.sendTile n k ep true idx []
    else
      let c := t.cl n
      let p := c.plane (k / 4)
      let sl := p.slab c.bkt lt (b2n bindB) false upper
      let f := t.haloFmt n k lt sl.op
      let lines := (List.range sl.total).map fun i =>
        let a := (p.slabAddr c.bkt lt (fmtWidth f.1) sl idx i).1.toNat / 64
        (a, a)
      f.2.readSlot n k x lines fun u =>
        let r := (u.cl n).readSlab k lt f.1 sl
        match r.2 with
        | some (i, a) => u.loopFault n 3 lt sl.op k (c.ctx k).slotPtr a i
        | none =>
          let y := c.ctx k
          let masked := ((List.range sl.total).filter fun i => p.slabMasked c.bkt lt sl y y.idx i).length
          (u.inc64 (Reg.MASKED_LO n) masked).sendTile n k ep false idx (packElems (fmtWidth f.1) r.1)

/-! ### RECV and RELEASE (R275, R276, R89) -/

/-- RECV (R275): takes the oldest untaken tile, or waits, whatever the predicate (R58). -/
def execRecv (n : Fin 576) (x : SlotCtl) (ep pbit : Fin 8) (s : State) : Out :=
  s.issue n x fun k _ t =>
    if ((t.cl n).recvEp (epKey k ep)).next.isSome then (t.takeTile n k ep pbit).pass n k else t.waitAt n k (.recv ep pbit) x

/-- The endpoint that a credit of a receive binding goes to: the send endpoint that the binding names, or for a FEED the cluster and
8 plus the descriptor that names it. -/
def State.creditTo (s : State) (p : Plane) (ep : Nat) : Nat × Nat :=
  if p.rb ep 0 29 29 = 1 then
    let names (x : Plane) (d : Nat) : Bool := x.slot == p.slot && x.sect == p.sect && x.st ≠ 0 && x.sd d 0 31 29 == 2 &&
      p.serves.contains (x.sd d 11 24 16) && (p.variant || x.sd d 11 30 28 == p.place) && x.sd d 11 27 25 == ep
    let l := s.clusters.flatMap fun e => (List.range 8).flatMap fun q =>
      ((List.range 16).filter fun d => names (e.2.plane q) d).map fun d => ((e.2.plane q).lc, 8 + d)
    l.headD (0, 0)
  else p.sender ep

/-- Reads the oldest spilled tile of an endpoint back into its buffer, or beside it while another tile lies there (R89). -/
def State.restoreTile (s : State) (n k ep : Nat) : State :=
  let c := s.cl n
  let r := c.recvEp (epKey k ep)
  match r.tiles.find? fun t => t.spilledAt.isSome && ! t.taken with
  | none => s
  | some t =>
    let p := c.plane (k / 4)
    let data := s.rdBytes (t.spilledAt.getD 0) t.len
    let home := ! r.occupied (p.bpc ep) t.seq
    let t' := { t with spilledAt := none, held := if home then [] else [((0 : Nat), data)] }
    let tiles := r.tiles.map fun u => if u.seq == t.seq then t' else u
    s.upCl n fun c =>
      (if home then c.wrN (p.bufAddr ep (k % 4) t.seq) data else c).setRecv (epKey k ep) { r with tiles := tiles }

/-- RELEASE (R276): frees the oldest taken tile; the freed buffer is refilled from the spill area, or a credit returns (R89). -/
def execRelease (n : Fin 576) (x : SlotCtl) (ep : Fin 8) (s : State) : Out :=
  s.issue n x fun k _ t =>
    let c := t.cl n
    let r := c.recvEp (epKey k ep)
    match r.tiles.find? (·.taken) with
    | none =>
      (t.cond (! t.on (Reg.CH_FAULT_VALID n)) fun u =>
        u.wrg (Reg.CH_FAULT n) (BitVec.ofNat 32
          (2 ^ 31 + 2 ^ 28 + ep.val * 2 ^ 25 + k % 4 * 2 ^ 23 + k / 4 * 2 ^ 20 + (c.ctx k).slotPtr))).flowError
    | some d =>
      let u := t.upCl n fun c => (c.setRecv (epKey k ep) { r with tiles := r.tiles.filter fun y => y.seq ≠ d.seq }).advance k 1
      if r.tiles.any fun y => y.spilledAt.isSome then (u.restoreTile n k ep).wake n
      else
        let dst := u.creditTo (c.plane (k / 4)) ep
        u.emit (.credit dst.1 dst.2 (k % 4))

/-! ### Arriving tiles (R274, R279, R245, R283) -/

/-- Writes a whole halo tile into its margin, or finds the extent fault (R245). -/
def ClusterSt.wrMargin (c : ClusterSt) (k t f : Nat) (sl : Slab) (idx : List Nat) (data : List Byte) :
    ClusterSt × Option (Nat × Int) :=
  let p := c.plane (k / 4)
  let y := c.ctx k
  let w := fmtWidth f
  let at0 (i : Nat) : Int × Bool := p.slabAddr c.bkt t w sl idx i
  let live (i : Nat) : Bool := ! p.slabMasked c.bkt t sl y idx i
  match (List.range sl.total).find? fun i => live i && ! p.inExtent t sl.op w (at0 i).1 with
  | some i => (c, some (i, (at0 i).1))
  | none =>
    ((List.range sl.total).foldl (fun c i => if live i then c.wrElem (at0 i).1.toNat w (at0 i).2 (packedAt w data i) else c) c, none)

/-- The bytes of a tile's packets in order. -/
def Tile.bytes (t : Tile) : List Byte := t.held.flatMap (·.2)

/-- A halo tile that is whole fills its margin; an extent fault writes nothing of it (Table 7.7). SLOT of the record names a RECV that waits
on the endpoint; with none waiting it is a free value. -/
def State.fillMargin (s : State) (n k ep : Nat) (h : Nat × Nat × Bool) (t : Tile) : State :=
  let c := s.cl n
  let sl := (c.plane (k / 4)).slab c.bkt h.1 h.2.1 true h.2.2
  let f := s.haloFmt n k h.1 sl.op
  let y := c.ctx k
  let slot := match y.wait with
    | .recv e _ => if e = ep then (y.slotPtr, f.2) else (bits f.2.free.1 11 0, f.2.free.2)
    | _ => (bits f.2.free.1 11 0, f.2.free.2)
  if t.isNull then s else
  let r := c.wrMargin k h.1 f.1 sl t.halo t.bytes
  match r.2 with
  | some (i, a) => slot.2.loopFault n 4 h.1 sl.op k slot.1 a i
  | none =>
    let masked := ((List.range sl.total).filter fun i => (c.plane (k / 4)).slabMasked c.bkt h.1 sl y t.halo i).length
    (f.2.setCl n r.1).inc64 (Reg.MASKED_LO n) masked

/-- A packet of a tile for an ACTIVE plane, or one held for an incoming plane, is taken into its endpoint. -/
def State.takePacket (s : State) (n : Nat) (q : TilePkt) : State :=
  let k := 4 * q.plane.val + q.ctx.val
  let c := s.cl n
  let p := c.plane q.plane
  let r := c.recvEp (epKey k q.ep)
  let old := (r.tiles.find? fun t => t.seq == q.seq).getD
    ⟨q.seq, q.total, [], q.isNull, q.take, q.plane, false, none, 0, [], q.halo⟩
  if old.got.contains q.index.val || old.taken then s else
  let halo := p.haloOf q.ep
  let aside := halo.isSome || r.occupied (p.bpc q.ep) q.seq || ! old.held.isEmpty
  let new := { old with
    got := old.got ++ [q.index.val], len := old.len + q.data.length
    held := if aside && ! q.isNull then tput old.held q.index q.data else old.held }
  let done := if halo.isSome && new.whole then { new with held := [] } else new
  let others := r.tiles.filter fun t => t.seq ≠ q.seq
  let tiles := (others.filter fun t => decide (t.seq < q.seq)) ++ done :: others.filter fun t => decide (q.seq < t.seq)
  let t := s.upCl n fun c =>
    (if aside || q.isNull then c else c.wrN (p.bufAddr q.ep q.ctx q.seq + 1024 * q.index) q.data).setRecv (epKey k q.ep)
      { r with tiles := tiles }
  let t := if new.whole then t.activity n true else t
  let t := match halo with
    | some h => if new.whole then t.fillMargin n k q.ep h new else t
    | none => t
  if p.st = 3 && t.net.step.isSome then t.wake n else t

/-- TILE_PACKET_ARRIVE (R274, R279): dropped at a fenced cluster, with a stale generation, or of a failed attempt; taken for an ACTIVE or
incoming plane; any other is counted and ends the run. -/
def execTilePacketArrive (n : Fin 576) (k : TilePkt) (s : State) : Out :=
  .next (if s.isFenced n || k.gen.toNat ≠ s.gen k.inst || k.attempt.toNat ≠ (s.cl n).attempt % 256 then s
    else if ((s.cl n).plane k.plane).st = 3 || s.incoming n k.plane then s.takePacket n k
    else if k.index.val ≠ 0 then s
    else
      let t := s.inc (Reg.CH_DROPPED n)
      (t.cond (! t.on (Reg.CH_FAULT_VALID n)) fun u =>
        u.wrg (Reg.CH_FAULT n)
          (BitVec.ofNat 32 (2 ^ 31 + k.ep.val * 2 ^ 25 + k.ctx.val * 2 ^ 23 + k.plane.val * 2 ^ 20))).flowError)

/-- The physical plane that a FEED addresses. -/
def State.feedPlane (s : State) (p : Plane) (d : Nat) : Nat :=
  (s.cl (s.physOf (p.sd d 11 24 16))).planeAt p.slot p.sect (p.sd d 11 30 28) (some (p.sd d 11 27 25))

/-- The credits that a FEED holds when none has moved: BPC of the receive binding it names (R272). -/
def State.feedLimit (s : State) (p : Plane) (d : Nat) : Nat :=
  ((s.cl (s.physOf (p.sd d 11 24 16))).plane (s.feedPlane p d)).bpc (p.sd d 11 27 25)

/-! ### Credits and take notices (R272, R277, R80) -/

/-- A credit or notice beyond its count: discarded, counted, and charged to the receive endpoint that sent it (R277). -/
def State.creditExcess (s : State) (n : Nat) (src : BitVec 16) (srcEp : Nat) : State :=
  (s.inc (Reg.CH_CREDIT_ERR n)).report src.toNat 6 (8 + srcEp) false

/-- CREDIT_ARRIVE (R272, R277): a credit of a send endpoint, or of the FEED of descriptor `feed`, for a context of a plane. -/
def execCreditArrive (n : Fin 576) (p ep : Fin 8) (c : Fin 4) (feed : Option (Fin 16)) (bad : Bool) (src : BitVec 16) (srcEp : Fin 8)
    (s : State) : Out :=
  let k := 4 * p.val + c.val
  let x := (s.cl n).plane p
  .next (if s.isFenced n then s
    else if bad then s.cplMismatch (some (Reg.CH_CREDIT_ERR n)) src.toNat 7 0
    else match feed with
      | some d =>
        let y := (s.cl n).strm (strmKey k d)
        let limit := s.feedLimit x d
        let held := y.credits.getD limit
        if limit ≤ held then s.creditExcess n src srcEp
        else s.upCl n fun c => c.setStrm (strmKey k d) { y with credits := some (held + 1) }
      | none =>
        let e := (s.cl n).sendEp (epKey k ep)
        if x.sb ep 14 11 ≤ e.credits then s.creditExcess n src srcEp
        else (s.upCl n fun c => c.setSend (epKey k ep) { e with credits := e.credits + 1 }).wake n)

/-- TAKE_NOTICE (R80, R277): a tile sent with TAKE has been taken. -/
def execTakeNotice (n : Fin 576) (p ep : Fin 8) (c : Fin 4) (bad : Bool) (src : BitVec 16) (srcEp : Fin 8) (s : State) : Out :=
  let k := 4 * p.val + c.val
  let e := (s.cl n).sendEp (epKey k ep)
  .next (if s.isFenced n then s
    else if bad then s.cplMismatch (some (Reg.CH_CREDIT_ERR n)) src.toNat 7 0
    else if e.takeSent ≤ e.takeGot then s.creditExcess n src srcEp
    else s.upCl n fun c => c.setSend (epKey k ep) { e with takeGot := e.takeGot + 1 })

end Sys2Proof.Machine
end

