-- ==== Sys2Proof/Machine/Dram.lean ====
section
/-! DEFINITION. The DRAM controllers: arrival, merging, ECC, sparing, retirement, zeroing (R37 to R41, R489 to R496), the mesh's
region switches and the bridges (R32, R36, R41). -/

namespace Sys2Proof.Machine

/-- A controller at cold reset. -/
def noCtl : DramCtl := ⟨[], [], [], [], none, none, [], [], 0, none⟩

def State.ctl (s : State) (st : Nat) : DramCtl := tget noCtl s.mem.ctl st
def State.setCtl (s : State) (st : Nat) (c : DramCtl) : State := { s with mem := { s.mem with ctl := tput s.mem.ctl st c } }

/-- The share that serves an access (R40, R490): 0 read and 1 write for a cluster of the address's own die, 2 remote for all others. -/
def share (src a : Nat) (write : Bool) : Nat :=
  if src / 2 ^ 13 = a / (96 * 2 ^ 30) ∧ src / 2 ^ 10 % 8 = 0 then b2n write else 2

/-- Joins a read to the first open entry of its line (R37). -/
def joinRead (line : Nat) (r : Nat × Nat × Nat) : List MergeEntry → Option (List MergeEntry)
  | [] => none
  | e :: es =>
    if e.line = line ∧ e.joinable then some ({ e with requesters := e.requesters ++ [r] } :: es)
    else (joinRead line r es).map (e :: ·)

/-- Serves the arrival of a read at a controller (R37, R38): it joins an open entry, opens one while fewer than 64 are open, or is
served unmerged; its data is the line's as of its arrival. -/
def State.readArrive (s : State) (st src i gen a : Nat) : State :=
  let c := s.ctl st
  match joinRead (a / 64) (src, i, gen) c.reads with
  | some es => s.setCtl st { c with reads := es }
  | none =>
    let opens := decide ((c.reads.filter fun e => e.joinable).length < 64)
    s.setCtl st { c with reads := c.reads ++
      [⟨a / 64, s.rdBytes (a / 64 * 64) 64, opens, opens, share src a false, [(src, i, gen)]⟩] }

/-- Closes the open entries of the lines that a write touches (R38). -/
def closeEntries (a len : Nat) (es : List MergeEntry) : List MergeEntry :=
  es.map fun e => if a / 64 ≤ e.line ∧ e.line < (a + len + 63) / 64 then { e with joinable := false } else e

/-- A write that passed its checks takes effect (R38): the lines' entries close, the bytes change, the page's backing tag becomes
NONE (R555), and the write is acknowledged. -/
def State.writeTake (s : State) (st src a : Nat) (data : List Byte) : State :=
  let c := s.ctl st
  let t := s.setCtl st { c with reads := closeEntries a data.length c.reads }
  ({ t.wrBytes a data with mem := { (t.wrBytes a data).mem with tags := tdel (t.wrBytes a data).mem.tags (a / 4096) } }).emit
    (.dramAck src a)

/-- Bytes written to DRAM by an engine of the hub or by a Flarid delivery: the lines' merge entries close (R38) and the pages' backing
tags become NONE (R555). -/
def State.hubWrite (s : State) (a : Nat) (data : List Byte) : State :=
  let t := s.wrBytes a data
  { t with mem := { t.mem with
    ctl := t.mem.ctl.map fun (e : Nat × DramCtl) => (e.1, { e.2 with reads := closeEntries a data.length e.2.reads })
    tags := t.mem.tags.filter fun e => ! decide (a / 4096 ≤ e.1 ∧ e.1 ≤ (a + data.length - 1) / 4096) } }

/-- The page of an access is being copied for retirement, or its row swapped: the access waits (R493). -/
def State.held (s : State) (st a : Nat) : Bool := (s.ctl st).copying == some (a / 4096)

/-- AGE_INCREMENT (R32): AGE of the k-th packet in the mesh advances by 1 and saturates at 4,095. -/
def execAgeIncrement (k : Nat) (s : State) : Out :=
  .next { s with mesh := s.mesh.mapIdx fun j p =>
    if j = k then { p with age := if p.age = 4095#12 then p.age else p.age + 1 } else p }

/-- The region and the physical cluster that a stop identifier of KIND 0 names (R28). -/
def stopRegion (stop : Nat) : Nat := 8 * (stop / 2 ^ 13) + stop / 32 % 32
def stopCluster (stop : Nat) : Nat := 18 * stopRegion stop + stop % 32
def stopKind (stop : Nat) : Nat := stop / 2 ^ 10 % 8

/-- MESH_PACKET_ARRIVE (R36): a packet for a fenced cluster is dropped and counted in its region; every other packet is delivered. Packets
in flight at a rewrite of the map are dropped by the rewrite itself. -/
def execMeshPacketArrive (p : MeshPkt) (s : State) : Out :=
  let d := p.dst.toNat
  let t := { s with mesh := s.mesh.erase p }
  .next (if stopKind d = 0 ∧ s.repair.fenced.contains (stopCluster d)
    then { t with meshDropped := tput t.meshDropped (stopRegion d) (tget 0 t.meshDropped (stopRegion d) + 1) }
    else t.emit (.delivered p))

/-- DRAM_READ_ARRIVE (R37): a read of an address that has no storage reaches no controller (R489); a read of an unzeroed page, or of
a page being copied, waits (R496, R493). -/
def execDramReadArrive (st : Fin 8) (req : BitVec 16) (i : Fin 64) (gen : BitVec 8) (addr : BitVec 40) (s : State) : Out :=
  let a := addr.toNat
  .next (if dramSize ≤ a then s
    else if ! s.rangeReady (a / 64 * 64) 64 || s.held st a then
      let t := s.demand (a / 64 * 64) 64
      { t with mem := { t.mem with waiting := t.mem.waiting ++ [⟨req.toNat, i, gen.toNat, a, false, []⟩] } }
    else s.readArrive st req.toNat i gen.toNat a)

/-- A write passes the checks at the controller: the current generation per burst (R389), and of a step's writes the current attempt
(R561). -/
def State.writeFresh (s : State) (i gen : Nat) (attempt : Option Nat) : Bool :=
  s.gen i == gen && match attempt, s.net.step with
    | some n, some x => n == x.attempt
    | some _, none => false
    | none, _ => true

/-- DRAM_WRITE_ARRIVE (R38): stale writes are dropped (R389, R561); a step's write into a protected range is journalled first, and a
journal that would overflow ends the run with detail EXTENT (R558). -/
def execDramWriteArrive (st : Fin 8) (src : BitVec 16) (i : Fin 64) (gen : BitVec 8) (attempt : Option (BitVec 8))
    (addr : BitVec 40) (data : List Byte) (s : State) : Out :=
  let a := addr.toNat
  .next (if ! s.writeFresh i gen.toNat (attempt.map (·.toNat)) then s
    else if dramSize ≤ a then s
    else if ! s.rangeReady a data.length || s.held st a then
      let t := s.demand a data.length
      { t with mem := { t.mem with waiting := t.mem.waiting ++ [⟨src.toNat, i, gen.toNat, a, true, data⟩] } }
    else match attempt, s.net.step with
      | some _, some x =>
        if s.protected x.slot a then
          if x.journal < (s.slot x.slot).journalRoom then (s.journalLine a).writeTake st src.toNat a data else s.programError 6
        else s.writeTake st src.toNat a data
      | _, _ => s.writeTake st src.toNat a data)

/-- MERGE_WINDOW_EXPIRE (R37): the line's open entry takes no more joiners. -/
def execMergeWindowExpire (st : Fin 8) (line : BitVec 34) (s : State) : Out :=
  .next (s.setCtl st { s.ctl st with reads := closeEntries (line.toNat * 64) 64 (s.ctl st).reads })

/-- Times within 24 h before now. -/
def State.within24h (s : State) (ts : List Nat) : List Nat := ts.filter fun t => decide (s.clk ≤ t + us (24 * 3600 * 10 ^ 6))

/-- A page retires (R493): its copy to a reserve page starts, unless the stack's reserve of 16,384 pages is exhausted, which is only
reported. -/
def State.retirePage (s : State) (st page : Nat) : State :=
  let c := s.ctl st
  if c.retired.contains page || c.copying == some page then s
  else if 16384 ≤ c.retired.length then s.report (dramStop st) 10 (page % (96 * 2 ^ 18) / 2) true
  else s.setCtl st { c with copying := some page }

/-- A row is replaced by a spare row (R493): the swap starts. -/
def State.spareRow (s : State) (st row : Nat) : State :=
  let c := s.ctl st
  if c.spared.contains row || c.swapping == some row then s else s.setCtl st { c with swapping := some row }

/-- A corrected error is counted at its row, and at its page once the row is spared; more than 8 in a row or 4 in a page within 24 h
start the repair of R493. -/
def State.correctedAt (s : State) (st row page : Nat) : State :=
  let c := s.ctl st
  let spared := c.spared.contains row
  let key := if spared then 2 * page + 1 else 2 * row
  let ts := s.within24h (tget [] c.corrected key) ++ [s.clk]
  let t := (s.setCtl st { c with corrected := tput c.corrected key ts }).inc (Reg.DRAM_CORR st)
  if spared then (if 4 < ts.length then t.retirePage st page else t) else if 8 < ts.length then t.spareRow st row else t

/-- Replies to each requester of a read whose generation still stands; a stale reply is discarded at its requester (R39). -/
def State.replyRead (s : State) (e : MergeEntry) : State :=
  s.each e.requesters fun t r => if s.gen r.2.1 == r.2.2 then t.emit (.dramReply r.1 e.line e.data) else t

/-- An uncorrectable read (R494): counted; its page retires. A step's read is reported and replays the step, a BAR4 read is answered
poisoned, any other is retried once; when the retried read fails, or no copy of the line exists, the data is lost. -/
def State.uncorrectable (s : State) (st k : Nat) (e : MergeEntry) (use : ReadUse) (again : Bool) : State :=
  let page := e.line / 64
  let t := (s.inc (Reg.DRAM_UNCORR st)).retirePage st page
  let gone := t.setCtl st { t.ctl st with reads := (t.ctl st).reads.eraseIdx k }
  let inst := match e.requesters with
    | r :: _ => r.2.1
    | [] => 0
  match use with
  | .step => if again then gone.dataLost inst (e.line * 64) else gone.report (dramStop st) 10 (page % (96 * 2 ^ 18) / 2) false
  | .bar4 => gone.emit (.bar4Read [] true)
  | .other => if again then gone.dataLost inst (e.line * 64) else t

/-- DRAM_READ_COMPLETE (R39, R492, R493, R494): the k-th read of the stack ends; `row` and `pc` name the row and pseudo-channel,
`retries` the link retries, `again` a read retried or restored. -/
def execDramReadComplete (st : Fin 8) (k : Nat) (ecc : Ecc) (row pc : Nat) (retries : Nat) (use : ReadUse) (again : Bool)
    (s : State) : Out :=
  let c := s.ctl st
  .next (match c.reads[k]? with
    | none => s
    | some e =>
      let t := s.incN (Reg.DRAM_LINK_RETRY st) retries
      let gone := t.setCtl st { t.ctl st with reads := (t.ctl st).reads.eraseIdx k, pcRows := tput c.pcRows row pc }
      match ecc with
      | .clean => gone.replyRead e
      | .corrected => (gone.replyRead e).correctedAt st row (e.line / 64)
      | .uncorrectable => t.uncorrectable st k e use again)

/-- Accesses that wait are served in order once nothing holds them (R496, R493). -/
def State.serveWaiting (s : State) : State :=
  let t := { s with mem := { s.mem with waiting := [] } }
  t.each s.mem.waiting fun u w =>
    let st := stackOf w.addr
    if ! u.rangeReady (w.addr / 64 * 64) 64 || u.held st w.addr then
      { u with mem := { u.mem with waiting := u.mem.waiting ++ [w] } }
    else if w.write then (if u.gen w.inst == w.gen then u.writeTake st w.requester w.addr w.data else u)
    else u.readArrive st w.requester w.inst w.gen w.addr

/-- Pseudo-channels that spare more than 64 rows or retire more than 256 pages are replaced by the spare (R493): MIGRATING sets.
A second failed pseudo-channel puts the stack beyond repair. -/
def State.checkPseudoChannel (s : State) (st pc n limit : Nat) : State :=
  if n ≤ limit then s
  else if s.on (Reg.DRAM_STATUS_SPARE_PC st) || s.on (Reg.DRAM_STATUS_MIGRATING st) then
    if s.fd (Reg.DRAM_STATUS_PC_FOR st) = pc then s else (s.setF (Reg.DRAM_STATUS_UP st) 0).report (dramStop st) 11 pc true
  else ((s.setF (Reg.DRAM_STATUS_MIGRATING st) 1).setF (Reg.DRAM_STATUS_PC_FOR st) pc).report (dramStop st) 11 pc true

/-- PSEUDO_CHANNEL_MIGRATE_DONE (R493): the mapping switches to the spare. -/
def execPseudoChannelMigrateDone (st : Fin 8) (s : State) : Out :=
  .next (if s.on (Reg.DRAM_STATUS_MIGRATING st) then
    (s.setF (Reg.DRAM_STATUS_MIGRATING st) 0).setF (Reg.DRAM_STATUS_SPARE_PC st) 1 else s)

/-- PAGE_RETIREMENT_DONE (R493): the page is remapped, RETIRED advances, and accesses that waited proceed. -/
def execPageRetirementDone (st : Fin 8) (s : State) : Out :=
  let c := s.ctl st
  .next (match c.copying with
    | none => s
    | some p =>
      let c' := { c with copying := none, retired := c.retired ++ [p], pcPages := tput c.pcPages 0 (tget 0 c.pcPages 0 + 1) }
      let t := (s.setCtl st c').setF (Reg.DRAM_STATUS_RETIRED st) (c.retired.length + 1)
      (t.checkPseudoChannel st 0 (tget 0 c'.pcPages 0) 256).serveWaiting)

/-- ROW_SWAP_DONE (R493): the spare row serves, DRAM_s_ROWS_SPARED advances, and accesses that waited proceed. -/
def execRowSwapDone (st : Fin 8) (s : State) : Out :=
  let c := s.ctl st
  .next (match c.swapping with
    | none => s
    | some r =>
      let pc := tget 0 c.pcRows r
      let c' := { c with swapping := none, spared := c.spared ++ [r] }
      let t := (s.setCtl st c').inc (Reg.DRAM_ROWS_SPARED st)
      (t.checkPseudoChannel st pc (c'.spared.filter fun q => tget 0 c'.pcRows q == pc).length 64).serveWaiting)

/-- A bridge link with every wire group good. -/
def noBridge : BridgeSt := ⟨[], false, 0⟩

/-- BRIDGE_GROUP_FAIL (R41): the spare group of the link takes over, packets waiting in the replay buffer; the failure is reported
with UNIT 9, action PATH_SWAP (Table 17.2). A bridge all of whose links have lost two groups is beyond repair (R45). -/
def execBridgeGroupFail (bridge : Fin 8) (link : Fin 2) (group : BitVec 8) (s : State) : Out :=
  let k := 2 * bridge.val + link.val
  let b := tget noBridge s.bridges k
  let stop := bridge.val % 4 * 2 ^ 13 + 4 * 2 ^ 10 + (if bridge.val < 4 then (bridge.val + 1) % 4 else 4)
  .next (if b.failed.contains group.toNat then s
    else
      let t := { s with bridges := tput s.bridges k { b with failed := b.failed ++ [group.toNat], spareUsed := true } }
      t.report stop 9 group.toNat true)

/-- The page that the zeroing engine takes next: the first demanded, else the next in ascending order (R496), else one of an instance reset or of a
closed session (R391, R413). -/
def State.nextZero (s : State) : Option Nat :=
  match s.mem.demand with
  | p :: _ => some p
  | [] => if s.mem.zeroNext < 196608 then some s.mem.zeroNext else (s.mem.instZero.head?).bind fun e => e.2.head?

/-- Advances the background position over pages already zeroed on demand. -/
def skipZeroed (z : List Nat) : Nat → Nat → Nat
  | 0, n => n
  | f + 1, n => if z.contains n then skipZeroed z f (n + 1) else n

/-- Zeroes the 2 MiB of a page. -/
def State.zeroPage (s : State) (p : Nat) : State :=
  { s with dram := s.dram.filter fun e => ! decide (p * 2 ^ 21 ≤ e.1 ∧ e.1 < (p + 1) * 2 ^ 21) }

/-- DRAM_PAGE_ZEROED (R496, R391): the page in progress is done, or the next one by the engine's order; ZERO_STATUS shows the pages
left; pages of an instance reset end DRAM_ZEROING with the last of them; waiting accesses proceed, and the next page starts. -/
def execDramPageZeroed (s : State) : Out :=
  .next (match s.mem.zeroBusy.orElse fun _ => s.nextZero with
    | none => s.setF Reg.ZERO_STATUS_BUSY 0
    | some p =>
      let was := s.pageZeroed p
      let iz := s.mem.instZero.map fun e => (e.1, e.2.filter (· ≠ p))
      let zl := if p < s.mem.zeroNext then s.mem.zeroed else p :: s.mem.zeroed
      let zn := skipZeroed zl (zl.length + 1) s.mem.zeroNext
      let t := s.zeroPage p
      let m := { t.mem with zeroNext := zn, zeroed := zl.filter (fun q => decide (zn ≤ q)), zeroBusy := none }
      let m := { m with demand := m.demand.filter (· ≠ p), instZero := iz.filter (fun e => decide (e.2 ≠ [])) }
      let t := { t with mem := m }
      let t := t.each (s.mem.instZero.filter fun e => decide (e.1 < 64) && e.2.contains p && decide (e.2.length = 1)) fun u e =>
        u.setF (Reg.INST_STATUS_DRAM_ZEROING e.1) 0
      let t := if was then t else t.setF Reg.ZERO_STATUS_PAGES_LEFT (t.fd Reg.ZERO_STATUS_PAGES_LEFT - 1)
      let nxt := t.nextZero
      ({ t with mem := { t.mem with zeroBusy := nxt } }.setF Reg.ZERO_STATUS_BUSY (b2n nxt.isSome)).serveWaiting)

end Sys2Proof.Machine
end

