-- ==== Sys2Proof/Machine/Store.lean ====
section
/-! DEFINITION. The weight store: blocks, library entries, key slots, entry writes, the fetch queues (R497 to R517), and the
maintenance commands of chapters 15 and 16 that act on it (R392, R393). -/

namespace Sys2Proof.Machine

/-- An empty library entry, a block free since manufacture, an empty key slot. -/
def noEntry : LibEntry := ⟨0, 0, false, 0, 0, 0, 0, 0, 0, [], [], [], 0⟩
def freeBlock : StoreBlock := ⟨0, 0, 0, 0, 0⟩
def noKey : KeySlot := ⟨false, false, []⟩

/-- Blocks of the store: 4 stacks of 32,768 (R497). -/
def blockCount : Nat := 131072

def State.lib (s : State) (e : Nat) : LibEntry := tget noEntry s.store.lib e
def State.setLib (s : State) (e : Nat) (x : LibEntry) : State := { s with store := { s.store with lib := tput s.store.lib e x } }
def State.block (s : State) (b : Nat) : StoreBlock := tget freeBlock s.store.blocks b
def State.key (s : State) (k : Nat) : KeySlot := tget noKey s.store.keys k

/-- Stores a block's record. -/
def State.setBlock (s : State) (b : Nat) (x : StoreBlock) : State :=
  { s with store := { s.store with blocks := tput s.store.blocks b x } }

/-- Free and retired blocks, and the wear figures, as ST_FREE_BLOCKS, ST_BAD_BLOCKS and ST_WEAR show them (Table 15.10). -/
def State.freeBlocks (s : State) : Nat := blockCount - (s.store.blocks.filter fun e => e.2.cls ≠ 0).length
def State.storeCounts (s : State) : State :=
  let bad := (s.store.blocks.filter fun e => e.2.cls == 4).length
  let sum := (s.store.blocks.map fun e => e.2.pe).sum
  let top := (s.store.blocks.map fun e => e.2.pe).foldl max 0
  ((s.setF Reg.ST_FREE_BLOCKS_COUNT s.freeBlocks).setF Reg.ST_BAD_BLOCKS_COUNT bad).wrg Reg.ST_WEAR
    (BitVec.ofNat 32 (sum / blockCount * 2 ^ 16 + min top 65535))

/-- The lowest-numbered free block from a number on; the manual does not say which free block is taken (log entry 30). -/
def State.freeFrom (s : State) : Nat → Nat → Option Nat
  | 0, _ => none
  | f + 1, b => if (s.block b).cls = 0 then some b else s.freeFrom f (b + 1)

/-- Chunks of 1 MiB that one block holds beside its header page (R497, R500): 1,023 pages of 16 KiB hold 15 whole chunks. -/
def chunksPerBlock : Nat := 15

/-- Takes free blocks for n groups of chunks of an entry (R509, step 3); the store sequence number advances per record written. -/
def State.placeEntry (s : State) (e : Nat) : Nat → Nat → State
  | 0, _ => s
  | n + 1, c =>
    match s.freeFrom (s.store.blocks.length + 1) 0 with
    | none => s
    | some b =>
      let t := s.setBlock b { s.block b with cls := 1, entry := e, chunk := c, reads := 0 }
      { t with store := { t.store with seqNo := t.store.seqNo + 1 } }.placeEntry e n (c + chunksPerBlock)

/-- The blocks of an entry leave it: they are erased in the background (R501, R511). -/
def State.eraseBlocks (s : State) (e : Nat) : State :=
  let bs := (s.store.blocks.filter fun x => x.2.cls == 1 && x.2.entry == e).map (·.1)
  let t := s.each bs fun u b => u.setBlock b { u.block b with cls := 2 }
  { t with store := { t.store with erasing := t.store.erasing ++ bs, version := t.store.version + 1 } }

/-- An entry marked DELETING whose uses have ended is removed, and its blocks are erased (R511). -/
def State.libSettle (s : State) (e : Nat) : State :=
  let x := s.lib e
  if x.state = 3 ∧ x.uses = 0 then (s.eraseBlocks e).setLib e noEntry else s

/-- A fetch or load of an entry starts or ends (R511). -/
def State.libUse (s : State) (e : Nat) : State := s.setLib e { s.lib e with uses := (s.lib e).uses + 1 }
def State.libRelease (s : State) (e : Nat) : State := (s.setLib e { s.lib e with uses := (s.lib e).uses - 1 }).libSettle e

/-- A chunk is damaged (R510): the entry becomes DAMAGED, and an event names it. -/
def State.damage (s : State) (e c : Nat) : State :=
  let x := s.lib e
  let t := s.setLib e { x with state := if x.state = 1 then 2 else x.state, damaged := if x.damaged.contains c then x.damaged else x.damaged ++ [c] }
  (t.post 0x15 14 (hubStop 3) 0 e none none).report (hubStop 3) 14 e false

/-! ### Maintenance commands (R392, R393) -/

/-- Starts a maintenance command: BUSY sets and CMD shows it. -/
def State.maintBegin (s : State) (cmd : Nat) : State :=
  (s.setF Reg.MAINT_STATUS_BUSY 1).setF Reg.MAINT_STATUS_CMD cmd

/-- The result that the command in progress will end with. -/
def State.maintResult (s : State) (r : Nat) : State := { s with host := { s.host with maintWait := some r } }

/-- Ends a maintenance command (R393): BUSY clears, DONE sets, RESULT is written, and source MAINT is raised (R397). -/
def State.maintEnd (s : State) (r : Nat) : State :=
  let t := ((s.setF Reg.MAINT_STATUS_BUSY 0).setF Reg.MAINT_STATUS_DONE 1).setF Reg.MAINT_STATUS_RESULT r
  { t with host := { t.host with maintWait := none } }.irq 0

/-- Erases one block in full (R501): a failing block is retired (R498). -/
def State.eraseNow (s : State) (failing : List Nat) (b : Nat) : State :=
  let x := s.block b
  s.setBlock b (if failing.contains b then { x with cls := 4, pe := x.pe + 1 } else { x with cls := 0, pe := x.pe + 1, entry := 0, chunk := 0, reads := 0 })

/-- STORE_ERASE's work (R512): free blocks and orphans of the range are erased; mapped and retired blocks are skipped. -/
def State.storeEraseWork (s : State) (failing : List Nat) (first n : Nat) : State :=
  let bs := (List.range n).map (first + ·)
  let skip := bs.any fun b => (s.block b).cls == 1 || (s.block b).cls == 4
  let t := s.each (bs.filter fun b => (s.block b).cls ≠ 1 && (s.block b).cls ≠ 4) fun u b => u.eraseNow failing b
  let t := { t with store := { t.store with erasing := t.store.erasing.filter fun b => ! bs.contains b } }
  t.storeCounts.maintResult (if skip then 3 else 0)

/-- STORE_FORMAT's work (R508): every entry is erased, key slots and locks clear; wear records and retired blocks stay. -/
def State.storeFormatWork (s : State) (failing : List Nat) : State :=
  let bs := (s.store.blocks.filter fun e => e.2.cls ≠ 0 && e.2.cls ≠ 4).map (·.1)
  let t := s.each bs fun u b => u.eraseNow failing b
  let t := { t with store := { t.store with lib := [], keys := [], erasing := [], version := t.store.version + 1 } }
  t.storeCounts.maintResult 0

/-- STORE_ERASE (R512): waits, BUSY set, for an entry write in progress; a range beyond block 131,071 is an INVALID ARGUMENT. -/
def execStoreErase (failing : List Nat) (s : State) : Out :=
  .next (s.hostWrite Reg.MAINT_CMD fun s =>
    let t := s.maintBegin 1
    let first := (s.rg (Reg.MAINT_ARG 0)).toNat
    let n := (s.rg (Reg.MAINT_ARG 1)).toNat
    if blockCount < first + n then t.maintResult 2
    else if s.store.writing.isSome then t else t.storeEraseWork failing first n)

/-- STORE_FORMAT (R508, R512). -/
def execStoreFormat (failing : List Nat) (s : State) : Out :=
  .next (s.hostWrite Reg.MAINT_CMD fun s =>
    let t := s.maintBegin 2
    if s.store.writing.isSome then t else t.storeFormatWork failing)

/-- Pages of the store read with corrections, and pages uncorrectable (Table 15.10). -/
def State.countPages (s : State) (p : PageReads) : State := (s.incN Reg.ST_CORR p.corrected).incN Reg.ST_UNCORR p.uncorrectable

/-- IMAGE_VERIFY (R514): an empty entry is an INVALID ARGUMENT; a digest or the signature that fails damages the entry. -/
def execImageVerify (sigOk : Bool) (badChunks : List Nat) (pages : PageReads) (s : State) : Out :=
  .next (s.hostWrite Reg.MAINT_CMD fun s =>
    let t := (s.maintBegin 4).countPages pages
    let e := (s.rg (Reg.MAINT_ARG 0)).toNat
    if 4096 ≤ e ∨ (s.lib e).state = 0 then t.maintResult 2
    else
      let bad := (badChunks.filter fun c => decide (c < (s.lib e).chunks)) ++ (s.lib e).damaged
      if sigOk && bad.isEmpty then t.maintResult 0
      else (if bad.isEmpty then (t.damage e 0) else t.each bad fun u c => u.damage e c).maintResult 1)

/-- A firmware update that ends well is written over the copy not running, and named pending (R616). -/
def MgmtSt.takeUpdate (m : MgmtSt) : MgmtSt :=
  match m.updating with
  | none => m
  | some f => { m with
      updating := none, pendingCopy := some (1 - m.copy)
      copyA := if m.copy = 0 then m.copyA else f
      copyB := if m.copy = 0 then f else m.copyB }

/-- MAINT_DONE (R393): the command in progress ends with its result; one that still waits does not end, but for a time relock, which ends
INCOMPLETE when the bound of R332 has passed without lock (R336). -/
def execMaintDone (s : State) : Out :=
  .next (if s.on Reg.MAINT_STATUS_BUSY then
    match s.host.maintWait with
    | some r => { s with mgmt := s.mgmt.takeUpdate }.maintEnd r
    | none => if s.time.relocking then { s with time := { s.time with relocking := false } }.maintEnd 3 else s
  else s)

/-- BLOCK_ERASE_DONE (R501): an INTENT or ERASED record that does not read back valid, or a blank check that fails twice, retires the
block; else it is free with its count advanced. -/
def execBlockEraseDone (block : Fin 131072) (intentOk : Bool) (blankFails : Nat) (erasedOk : Bool) (s : State) : Out :=
  .next (if s.store.erasing.contains block.val then
    let t := s.eraseNow (if intentOk && erasedOk && decide (blankFails < 2) then [] else [block.val]) block
    { t with store := { t.store with erasing := t.store.erasing.erase block.val } }.storeCounts
  else s)

/-- REFRESH_DUE (R504): a block with entry data is copied to a free block, the table is committed, the old block is erased, and
ST_REFRESHED advances. A block whose pages need read-retry too often is retired in place of the erase (R498). -/
def execRefreshDue (block : Fin 131072) (retire : Bool) (pages : PageReads) (s : State) : Out :=
  let x := s.block block
  .next (if x.cls = 1 then
    let s := s.countPages pages
    match s.freeFrom (s.store.blocks.length + 1) 0 with
    | none => s.inc Reg.ST_OVERDUE
    | some b =>
      let t := (s.setBlock b { s.block b with cls := 1, entry := x.entry, chunk := x.chunk, reads := 0 }).setBlock block
        { x with cls := if retire then 4 else 2 }
      let st := { t.store with
        erasing := if retire then t.store.erasing else t.store.erasing ++ [block.val], version := t.store.version + 1, seqNo := t.store.seqNo + 1 }
      ({ t with store := st }.inc Reg.ST_REFRESHED).storeCounts
  else s)

/-! ### Entries (R507 to R511) -/

/-- The header of an entry in DRAM is well formed (Table 15.4): defined KIND, reserved fields zero, CHUNKS = ⌈BYTES / 1 MiB⌉. -/
def headerOk (h : List Word) : Bool :=
  let bytes := (h.getD 2 0).toNat + 2 ^ 32 * bits (h.getD 3 0) 7 0
  decide (bits (h.getD 0 0) 31 28 ≤ 1) && bits (h.getD 0 0) 23 16 == 0 && bits (h.getD 3 0) 31 8 == 0 && bits (h.getD 4 0) 31 21 == 0 &&
    (h.getD 4 0).toNat == ceilDiv bytes (2 ^ 20) && decide (1 ≤ (h.getD 4 0).toNat) && decide ((h.getD 4 0).toNat ≤ 2 ^ 20) &&
    ((h.drop 5).take 27).all (· == 0#32) && ((h.drop 56).take 8).all (· == 0#32)

/-- Payload bytes and the payload's offset behind header and hash list, at the next 64-byte boundary (R507). -/
def headerBytes (h : List Word) : Nat := (h.getD 2 0).toNat + 2 ^ 32 * bits (h.getD 3 0) 7 0
def payloadOffset (h : List Word) : Nat := ceilDiv (256 + 48 * (h.getD 4 0).toNat) 64 * 64

/-- The DRAM address in STW_SRC. -/
def State.stwSrc (s : State) : Nat := s.fd Reg.STW_SRC_LO_ADDR * 64 + s.fd Reg.STW_SRC_HI_ADDR * 2 ^ 32

/-- The checks of an entry write in the order of R509, with the RESULT of the first that fails; `atOnce` tells the refusals of
step 1. -/
def State.entryCheck (s : State) (e owner : Nat) (sigOk digestsOk : Bool) : Nat × Bool :=
  let src := s.stwSrc
  let h := s.rdWords src 64
  if (s.lib e).state ≠ 0 then (3, true)
  else if ! headerOk h || ! (s.key (bits (h.getD 0 0) 26 24)).valid || ! s.inWindow owner src (payloadOffset h + headerBytes h) then (4, true)
  else if ! sigOk then (1, false)
  else if s.freeBlocks < 1024 ∨ s.freeBlocks < ceilDiv (h.getD 4 0).toNat chunksPerBlock then (2, false)
  else if ! digestsOk then (1, false)
  else (0, false)

/-- The end of an entry write: RESULT and DONE (Table 15.10). -/
def State.stwEnd (s : State) (r : Nat) : State :=
  let t := ((s.setF Reg.STW_CTRL_RESULT r).setF Reg.STW_CTRL_DONE 1).setF Reg.STW_CTRL_BUSY 0
  { t.setF Reg.ST_STATUS_WRITING 0 with store := { (t.setF Reg.ST_STATUS_WRITING 0).store with writing := none } }

/-- A write of STW_CTRL: its fields, and with GO the start of an entry write, unless one is in progress (R509). -/
def State.stwWrite (s : State) (v : Word) (sigOk digestsOk : Bool) : State :=
  let t := s.plain Reg.STW_CTRL v
  if bit v 31 && s.store.writing.isNone then
    let e := t.fd Reg.STW_CTRL_ENTRY
    let r := t.entryCheck e (t.fd Reg.STW_CTRL_OWNER) sigOk digestsOk
    if r.2 then t.stwEnd r.1
    else
      let u := (t.setF Reg.STW_CTRL_BUSY 1).setF Reg.ST_STATUS_WRITING 1
      { u with store := { u.store with writing := some (e, r.1) } }
  else t

/-- ENTRY_WRITE (R509): a write of STW_CTRL. -/
def execEntryWrite (v : Word) (sigOk digestsOk : Bool) (s : State) : Out :=
  .next (s.hostWrite Reg.STW_CTRL fun s => s.stwWrite v sigOk digestsOk)

/-- The payload of an entry as read from DRAM, keyed by offset; zero bytes are not listed. -/
def payloadTable (bs : List Byte) : Table Byte := (bs.mapIdx fun k b => (k, b)).filter fun e => e.2 ≠ 0#8

/-- Commits an entry to the library table with state VALID (R509, step 4). -/
def State.commitEntry (s : State) (e : Nat) : State :=
  let src := s.stwSrc
  let h := s.rdWords src 64
  let w := h.getD 0 0
  let n := (h.getD 4 0).toNat
  let x : LibEntry := { noEntry with
    state := 1, kind := bits w 31 28, isShared := bit w 27, owner := s.fd Reg.STW_CTRL_OWNER, keySlot := bits w 26 24
    model := bits w 15 0, version := (h.getD 1 0).toNat, bytes := headerBytes h, chunks := n
    head := s.rdWords src (payloadOffset h / 4)
    payload := payloadTable (s.rdBytes (src + payloadOffset h) (headerBytes h)) }
  let t := ((s.setLib e x).placeEntry e (ceilDiv n chunksPerBlock) 0)
  { t with store := { t.store with version := t.store.version + 1 } }.storeCounts

/-- A waiting STORE_ERASE or STORE_FORMAT starts when the entry write has ended (R512). -/
def State.maintResume (s : State) : State :=
  if s.on Reg.MAINT_STATUS_BUSY && s.host.maintWait.isNone then
    if s.fd Reg.MAINT_STATUS_CMD = 1 then
      s.storeEraseWork [] (s.rg (Reg.MAINT_ARG 0)).toNat (s.rg (Reg.MAINT_ARG 1)).toNat
    else if s.fd Reg.MAINT_STATUS_CMD = 2 then s.storeFormatWork [] else s
  else s

/-- ENTRY_WRITE_DONE (R509): commit and RESULT OK, or the failure found; a power warning ends it with ABORTED (R506). -/
def execEntryWriteDone (aborted : Bool) (s : State) : Out :=
  .next (match s.store.writing with
    | none => s
    | some (e, r) =>
      if aborted then (s.stwEnd 5).maintResume
      else if r = 0 then ((s.commitEntry e).stwEnd 0).maintResume
      else (s.stwEnd r).maintResume)

/-- A write of LIB_DELETE (R511): with GO, an entry that is empty or DELETING sets REFUSED; any other becomes DELETING and goes once
its uses have ended. -/
def State.libDeleteWrite (s : State) (v : Word) : State :=
  let t := s.plain Reg.LIB_DELETE v
  if bit v 31 then
    let e := t.fd Reg.LIB_DELETE_ENTRY
    let x := t.lib e
    if x.state = 0 ∨ x.state = 3 then t.setF Reg.LIB_DELETE_REFUSED 1
    else ((t.setLib e { x with state := 3 }).libSettle e).storeCounts
  else t

/-- LIB_DELETE (R511). -/
def execLibDelete (v : Word) (s : State) : Out := .next (s.hostWrite Reg.LIB_DELETE fun s => s.libDeleteWrite v)

/-- Commits KEY_DATA to the selected slot (R508): refused on a locked slot. -/
def State.keyCommit (s : State) : State :=
  let k := s.fd Reg.KEY_SEL_SLOT
  if (s.key k).locked then s.setF Reg.KEY_CTRL_REFUSED 1
  else
    let data := (List.range 24).map fun w => tget 0 s.store.keyStage w
    { s with store := { s.store with keys := tput s.store.keys k { s.key k with valid := true, key := data }, version := s.store.version + 1 } }

/-- Locks the selected slot (R508): refused without a valid key. -/
def State.keyLock (s : State) : State :=
  let k := s.fd Reg.KEY_SEL_SLOT
  if (s.key k).valid then
    { s with store := { s.store with keys := tput s.store.keys k { s.key k with locked := true }, version := s.store.version + 1 } }
  else s.setF Reg.KEY_CTRL_REFUSED 1

/-- KEY_COMMIT: a write of KEY_CTRL.COMMIT (R508). -/
def execKeyCommit (s : State) : Out := .next (s.hostWrite Reg.KEY_CTRL fun s => s.keyCommit)
/-- KEY_LOCK: a write of KEY_CTRL.LOCK (R508). -/
def execKeyLock (s : State) : Out := .next (s.hostWrite Reg.KEY_CTRL fun s => s.keyLock)

/-! ### Fetch queues (R515, R516) -/

/-- The DRAM address of an instance's fetch ring. -/
def State.stfBase (s : State) (i : Nat) : Nat := s.fd (Reg.STF_BASE_LO_ADDR i) * 4096 + s.fd (Reg.STF_BASE_HI_ADDR i) * 2 ^ 32

/-- A write of STF_CTRL (R515): arming is refused when REQ or DONE is not owned, LOG2 is out of range, or the ring lies outside the
windows; else EN sets and the value of REQ is latched as the base. -/
def State.fetchArm (s : State) (i : Nat) (v : Word) : State :=
  if bit v 31 then
    let log2 := bits v 29 26
    if s.pcOwned (bits v 23 12) i && s.pcOwned (bits v 11 0) i && decide (4 ≤ log2) && decide (log2 ≤ 15) &&
        s.inWindow i (s.stfBase i) (32 * 2 ^ log2) then
      let t := (s.plain (Reg.STF_CTRL i) v).wrg (Reg.STF_TAKEN i) 0
      { t with store := { t.store with fetch := tput t.store.fetch i ⟨t.pc (bits v 23 12), 0⟩ } }
    else s.setF (Reg.STF_CTRL_REFUSED i) 1
  else s.plain (Reg.STF_CTRL i) v

/-- FETCH_ARM (R515). -/
def execFetchArm (i : Fin 64) (v : Word) (s : State) : Out := .next (s.hostWrite (Reg.STF_CTRL i) fun s => s.fetchArm i v)

/-- Status of a fetch record in the order of Table 15.6's causes (R516), and the chunks that are written. -/
def State.fetchStatus (s : State) (i : Nat) (w : List Word) (sigOk : Bool) (badChunk : Option Nat) : Nat × Nat :=
  let e := bits (w.getD 0 0) 31 20
  let first := bits (w.getD 0 0) 19 0
  let n := bits (w.getD 2 0) 15 0
  let dst := bits (w.getD 3 0) 31 6 * 64 + bits (w.getD 4 0) 7 0 * 2 ^ 32
  let x := s.lib e
  let bad := (List.range n).find? fun k => x.damaged.contains (first + k) || badChunk == some (first + k)
  if w.getD 1 0 ≠ ~~~(w.getD 0 0) ∨ bits (w.getD 2 0) 31 16 ≠ 0 ∨ bits (w.getD 3 0) 5 0 ≠ 0 ∨ bits (w.getD 4 0) 31 8 ≠ 0 ∨
      bits (w.getD 5 0) 31 8 ≠ 0 ∨ w.getD 6 0 ≠ 0 ∨ w.getD 7 0 ≠ 0 then (2, 0)
  else if (x.state ≠ 1 ∧ x.state ≠ 2) ∨ x.kind ≠ 1 then (3, 0)
  else if n = 0 ∨ x.chunks < first + n then (2, 0)
  else if x.owner ≠ i ∧ ¬ x.isShared then (4, 0)
  else if ! s.inWindow i dst (min (n * 2 ^ 20) (x.bytes - first * 2 ^ 20)) then (5, 0)
  else if ! sigOk then (6, 0)
  else match bad with
    | some k => (6, k)
    | none => (1, n)

/-- Writes chunks of an entry to DRAM, each page tagged FETCH (R516, R555). -/
def State.fetchChunks (s : State) (e first dst : Nat) : Nat → State
  | 0 => s
  | n + 1 =>
    let t := s.fetchChunks e first dst n
    let x := s.lib e
    let len := min (2 ^ 20) (x.bytes - (first + n) * 2 ^ 20)
    let bytes := (List.range len).map fun k => tget 0#8 x.payload ((first + n) * 2 ^ 20 + k)
    let u := t.wrBytes (dst + n * 2 ^ 20) bytes
    let pages := (List.range (ceilDiv len 4096)).map fun k => (dst + n * 2 ^ 20) / 4096 + k
    { u with mem := { u.mem with tags := pages.foldl (fun g p => tput g p (4096 + e)) u.mem.tags } }

/-- FETCH_COMPLETE (R516): the next taken record is served; its STATUS is written, and only then does counter DONE advance by 1. A
record of a queue that is not armed, or not yet taken, is not served. -/
def execFetchComplete (i : Fin 64) (sigOk : Bool) (badChunk : Option Nat) (pages : PageReads) (s : State) : Out :=
  let s := s.countPages pages
  let q := tget ⟨0, 0⟩ s.store.fetch i
  let req := s.fd (Reg.STF_CTRL_REQ i)
  .next (if s.on (Reg.STF_CTRL_EN i) && decide (q.base + q.next + 1 ≤ s.pc req) then
    let a := s.stfBase i + 32 * (q.next % 2 ^ s.fd (Reg.STF_CTRL_LOG2 i))
    let w := s.rdWords a 8
    let r := s.fetchStatus i w sigOk badChunk
    let e := bits (w.getD 0 0) 31 20
    let dst := bits (w.getD 3 0) 31 6 * 64 + bits (w.getD 4 0) 7 0 * 2 ^ 32
    let t := s.fetchChunks e (bits (w.getD 0 0) 19 0) dst r.2
    let t := if r.1 = 6 then t.damage e (bits (w.getD 0 0) 19 0 + r.2) else t
    let t := if w.getD 1 0 ≠ ~~~(w.getD 0 0) then t.cplMismatch none (dramStop (stackOf a)) 10 (a % (96 * 2 ^ 30) / 8192) else t
    let t := t.wrBytes (a + 20) [BitVec.ofNat 8 r.1]
    let t := if r.1 = 1 then t else t.inc (Reg.STF_FAILED i)
    let t := { t with store := { t.store with fetch := tput t.store.fetch i { q with next := q.next + 1 } } }
    t.advancePc (s.fd (Reg.STF_CTRL_DONE i)) 1 (hostNode i)
  else s)

end Sys2Proof.Machine
end

