-- ==== Sys2Proof/Machine/Rings.lean ====
section
/-! DEFINITION. Descriptor rings of the host link: doorbells, fetch, admission, the descriptors' own work, completions and host
reads (R359 to R386), the BAR4 window (R358), and package-counter signals (R303). -/

namespace Sys2Proof.Machine

/-! ### Finding a ring, doorbells (R359 to R365) -/

/-- The ring whose submission or completion doorbell is at an instance's local index (R359). -/
def State.ringAt (s : State) (sq : Bool) (i loc : Nat) : Option Nat :=
  (s.host.rings.find? fun e => s.fd (Reg.RC_CTRL_OWNER e.1) == i && s.fd (Reg.RC_CTRL_LOCAL e.1) == loc &&
    s.on (if sq then Reg.RC_CTRL_SQ_EN e.1 else Reg.RC_CTRL_CQ_EN e.1)).map (·.1)

/-- A wake trigger (R597): in Rest it starts the wake, PWR_STATUS.STATE 4; while Rest is being entered it is held (R596). -/
def State.wakeTrigger (s : State) : State :=
  if s.fd Reg.PWR_STATUS_STATE = 3 then s.setF Reg.PWR_STATUS_STATE 4
  else if s.fd Reg.PWR_STATUS_STATE = 2 then { s with power := { s.power with trigger := true } }
  else s

/-- A BAR2 write of an instance in reset is discarded and counted (R388); before READY it is discarded (R613). -/
def State.bar2 (s : State) (i : Nat) (f : State → State) : State :=
  if s.on (Reg.INST_STATUS_IN_RESET i) then s.inc (Reg.INST_DISCARDS i)
  else if ! s.on Reg.GS_STATUS_READY then s.inc Reg.HL_DB_DISCARD
  else f s

/-- A doorbell of the wrong size or with a mismatched complement (R363). -/
def State.badBell (s : State) (i : Nat) : State :=
  (s.cplMismatch (some Reg.HL_DB_DISCARD) (hubStop 0) 15 i).irq 3

/-- A doorbell whose size is 8 bytes and whose halves are complements (R362). -/
def bellOk (bytes : Nat) (v : BitVec 64) : Bool := bytes == 8 && v.extractLsb' 32 32 == ~~~(v.extractLsb' 0 32)

/-- A doorbell out of range (R363): counted, SQ_ERR with the error code, and the event of the owner. -/
def State.rangeError (s : State) (r i code : Nat) : State :=
  ((((s.inc (Reg.RC_DB_DISCARD r)).setF (Reg.RC_STATUS_SQ_ERR r) 1).setF (Reg.RC_STATUS_ERR_CODE r) code).instEvent i 5).irq 3

/-- The new tail T satisfies 0 ≤ T − TAIL ≤ 2^n and T − HEAD ≤ 2^n as unsigned 32-bit differences (R362). -/
def tailOk (t tail head : Word) (log2 : Nat) : Bool :=
  decide ((t - tail).toNat ≤ 2 ^ log2) && decide ((t - head).toNat ≤ 2 ^ log2)

/-- The lowest tag that is neither in use nor in quarantine (log entry 80). -/
def State.freeTag (s : State) : Option Nat :=
  (List.range (s.host.reads.length + s.host.quarantine.length + 1)).find? fun k =>
    decide (k < 16384) && ! thas s.host.reads k && ! thas s.host.quarantine k

/-- Issues a read of host memory under a free tag (R385); without one the read waits. -/
def State.issueRead (s : State) (use : ReadOf) (inst : Nat) (safe : Bool) : State :=
  match s.freeTag with
  | none => s
  | some k => { s with host := { s.host with reads := tput s.host.reads k ⟨use, 0, safe, s.gen inst, inst⟩ } }.emit (.hostRead inst k)

/-- A read has ended. -/
def State.endRead (s : State) (use : ReadOf) : State :=
  { s with host := { s.host with reads := s.host.reads.filter fun e => e.2.use ≠ use } }

/-- Issues the fetch of a ring's next descriptor, if one is due and none is outstanding (R368, R376). -/
def State.issueFetch (s : State) (r : Nat) : State :=
  if s.on (Reg.RC_CTRL_SQ_EN r) && (s.rg (Reg.RC_SQ_TAIL r)).toNat != (s.ring r).fetchPos && ! s.host.reads.any fun e => e.2.use == .fetch r then
    s.issueRead (.fetch r) (s.fd (Reg.RC_CTRL_OWNER r)) true
  else s

/-- Applies a new tail to a submission ring; an equal tail has no effect (R362). -/
def State.newTail (s : State) (r : Nat) (t : Word) : State :=
  if t = s.rg (Reg.RC_SQ_TAIL r) then s
  else
    let x := s.ring r
    (((s.wrg (Reg.RC_SQ_TAIL r) t).setRing r { x with bells := x.bells ++ [(t.toNat, s.now)] }).issueFetch r).wakeTrigger

/-- The checks of a submission doorbell or staged tail, and what is done with a tail that passes. -/
def State.sqBell (s : State) (i loc bytes : Nat) (v : BitVec 64) (f : State → Nat → Word → State) : State :=
  s.bar2 i fun s =>
    if ! bellOk bytes v then s.badBell i
    else match s.ringAt true i loc with
      | none => s
      | some r =>
        let t := v.extractLsb' 0 32
        if tailOk t (s.rg (Reg.RC_SQ_TAIL r)) (s.rg (Reg.RC_SQ_HEAD r)) (s.fd (Reg.RC_CTRL_SQ_LOG2 r)) then f s r t
        else s.rangeError r i 1

/-- SQ_DOORBELL (R362, R363). -/
def execSqDoorbell (i loc : Fin 64) (bytes : Nat) (v : BitVec 64) (s : State) : Out :=
  .next (s.sqBell i loc bytes v fun s r t => s.newTail r t)

/-- STAGED_TAIL_WRITE (R365): checked like a doorbell; the tail is kept for a later RING firing. -/
def execStagedTailWrite (i loc : Fin 64) (bytes : Nat) (v : BitVec 64) (s : State) : Out :=
  .next (s.sqBell i loc bytes v fun s r t => s.setRing r { s.ring r with stagedTail := some t.toNat })

/-- Whether a completion ring has room for one more completion (R378), and CQ_FULL that shows it. -/
def State.cqRoom (s : State) (c : Nat) : Bool :=
  decide ((s.rg (Reg.RC_CQ_WRITTEN c) - s.rg (Reg.RC_CQ_HEAD c)).toNat + (s.ring c).reserved < 2 ^ s.fd (Reg.RC_CTRL_CQ_LOG2 c))
def State.showRoom (s : State) (c : Nat) : State := s.setF (Reg.RC_STATUS_CQ_FULL c) (b2n (! s.cqRoom c))

/-- CQ_DOORBELL (R364): the head may not pass the completions written (log entry 40). -/
def execCqDoorbell (i loc : Fin 64) (bytes : Nat) (v : BitVec 64) (s : State) : Out :=
  .next (s.bar2 i fun s =>
    if ! bellOk bytes v then s.badBell i
    else match s.ringAt false i loc with
      | none => s
      | some r =>
        let h := v.extractLsb' 0 32
        let head := s.rg (Reg.RC_CQ_HEAD r)
        if (h - head).toNat ≤ (s.rg (Reg.RC_CQ_WRITTEN r) - head).toNat then ((s.wrg (Reg.RC_CQ_HEAD r) h).showRoom r).wakeTrigger
        else s.rangeError r i 2)

/-! ### Fetch and check (R367 to R369) -/

/-- Bits that the tables define in each word of a descriptor of an opcode (Tables 11.4, 11.5); all others are reserved. -/
def descMask (op : Nat) : List Nat :=
  let all := 0xFFFFFFFF
  let body : List Nat := match op with
    | 1 => [0xFFFFF800, 0xFFFFFF, all, 0xFFFF, all, all, all, 0xFF, all, 0xFF, 0]
    | 2 => [all, all, all, 0xFF, all, 0, 0, 0, 0, 0, 0]
    | 3 => [all, all, all, 0xFF, all, 0, 0, 0, 0, 0, 0]
    | 4 => [0xFFF, all, 0, 0, 0, 0, 0, 0, 0, 0, 0]
    | 5 => [0xFFF, all, 0xFFFF, all, 0, 0, 0, 0, 0, 0, 0]
    | 6 => [0xFFF80000, all, all, all, all, 0xFF, 0, 0, 0, 0, 0]
    | 7 => [0xFFE00000, 0, 0, 0, 0, 0, 0, 0, 0, 0, 0]
    | _ => [1, 0, 0, 0, 0, 0, 0, 0, 0, 0, 0]
  [0xFE00FFFF, all, all, all] ++ body ++ [0x8FFFFFFF]

/-- Word k of a descriptor. -/
def Desc.w (d : Desc) (k : Nat) : Word := d.words.getD k 0

/-- No reserved bit of a descriptor is set. -/
def reservedZero : List Word → List Nat → Bool
  | w :: ws, m :: ms => (w &&& ~~~(BitVec.ofNat 32 m)) == 0#32 && reservedZero ws ms
  | _, _ => true

/-- Values within the ranges and alignments of Table 11.5, and the source-specific reserved bits of LOAD_PROGRAM (log entry 41). -/
def descValues (op : Nat) (ws : List Word) : Bool :=
  let w (k : Nat) := ws.getD k 0
  (! bit (w 15) 31 || bits (w 15) 15 0 ≠ 0) &&
  match op with
  | 1 => bits (w 7) 15 0 ≠ 0
  | 2 | 3 => bits (w 4) 1 0 == 0 && bits (w 6) 5 0 == 0 && bits (w 8) 5 0 == 0 && w 8 ≠ 0
  | 4 => w 5 ≠ 0
  | 6 => match bits (w 4) 21 20 with
    | 0 => true
    | 1 => bits (w 6) 31 8 == 0
    | 2 => bits (w 5) 31 12 == 0 && w 6 == 0 && w 7 == 0
    | _ => false
  | _ => true

/-- The checks of R368 on fetched words at a position: complement, DSEQ, a defined opcode, reserved fields zero. -/
def descOk (ws : List Word) (pos : Nat) : Bool :=
  let w0 := ws.getD 0 0
  let op := bits w0 31 28
  ws.length == 16 && ws.getD 1 0 == ~~~w0 && bits w0 15 0 == pos % 65536 && decide (1 ≤ op) && decide (op ≤ 8) &&
    reservedZero ws (descMask op) && descValues op ws

/-- The time of the doorbell that announced a position (R381): the first whose tail lies beyond it. -/
def bellTime (tail head pos : Nat) : List (Nat × Nat) → Nat → Nat
  | [], d => d
  | (t, at0) :: bs, d => if (t + 2 ^ 32 - pos) % 2 ^ 32 ≠ 0 ∧ (t + 2 ^ 32 - pos) % 2 ^ 32 ≤ 65536 then at0 else bellTime tail head pos bs d

/-- Puts a descriptor in flight at the ring's next position; `reject` is the detail that rejects it, 0 for one that passed its checks. -/
def State.takeFetched (s : State) (r : Nat) (ws : List Word) (reject : Nat) : State :=
  let x := s.ring r
  let i := s.fd (Reg.RC_CTRL_OWNER r)
  let d : Desc := { noDesc with
    ring := r, pos := x.fetchPos, words := ws, inst := i, gen := s.gen i, state := .fetched
    rung := bellTime 0 0 x.fetchPos x.bells s.now, status := if reject = 0 then 0 else 4, detail := reject }
  let t := s.setDesc s.host.nextDesc d
  (({ t with host := { t.host with nextDesc := t.host.nextDesc + 1 } }.setRing r
    { x with fetchPos := (x.fetchPos + 1) % 2 ^ 32, failures := 0 }).endRead (.fetch r)).issueFetch r

/-- DESCRIPTOR_FETCH (R368, R376): the next position below the accepted tail is fetched and checked; a failure is fetched again, and
the fourth failure rejects the descriptor with BAD_DESC. -/
def execDescriptorFetch (ring : Fin 4096) (words : List Word) (s : State) : Out :=
  let x := s.ring ring
  .next (if ! s.on (Reg.RC_CTRL_SQ_EN ring) || (s.rg (Reg.RC_SQ_TAIL ring)).toNat == x.fetchPos then s
    else if descOk words x.fetchPos then s.takeFetched ring words 0
    else
      let t := if words.getD 1 0 == ~~~(words.getD 0 0) then s
        else s.cplMismatch none (hubStop 0) 15 (s.fd (Reg.RC_CTRL_OWNER ring))
      if x.failures < 3 then ((t.setRing ring { x with failures := x.failures + 1 }).endRead (.fetch ring)).issueFetch ring
      else t.takeFetched ring words 18)

/-! ### Admission (R376 to R378) -/

/-- The identifier of a ring's next descriptor, when it is fetched. -/
def State.nextDesc (s : State) (r : Nat) : Option Nat :=
  (s.host.descs.find? fun e => e.2.ring == r && e.2.state == .fetched && e.2.pos == (s.rg (Reg.RC_SQ_HEAD r)).toNat).map (·.1)

/-- A WAIT unmet or a FENCE not completed holds the ring (R372, R379). -/
def State.ringHeld (s : State) (r : Nat) : Bool :=
  s.host.descs.any fun e => e.2.ring == r && e.2.state ≠ .fetched && (e.2.opcode == 8 || (e.2.opcode == 5 && e.2.state ≠ .ended))

/-- A RUN marked to await an angle entry (Table 11.5). -/
def Desc.awaits (d : Desc) : Bool := d.opcode == 1 && bit (d.w 4) 21 && d.status == 0

/-- The hub has a place for the run's deadline, if it carries one (R347). -/
def State.deadlineRoom (s : State) (d : Desc) : Bool :=
  ! (d.opcode == 1 && bit (d.w 4) 20) || decide (s.host.deadlines.length < 16384)

/-- A ring is active (R376): its next descriptor is fetched, and nothing holds it. -/
def State.ringActive (s : State) (r : Nat) : Bool :=
  s.on (Reg.RC_CTRL_SQ_EN r) && ! s.ringHeld r && s.cqRoom (s.fd (Reg.RC_SQ_LINK_CQ r)) &&
    match s.nextDesc r with
    | some id => ! (s.desc id).awaits && s.deadlineRoom (s.desc id)
    | none => false

/-- The deadline instant (R347): the first instant of DL_ANGLE at or after a time, plus whole turns, in au. -/
def deadlineInstant (now angle turns : Nat) : Nat :=
  let base := now / 2 ^ 24 * 2 ^ 24 + angle
  (if now ≤ base then base else base + 2 ^ 24) + turns * 2 ^ 24

/-- Admits a descriptor (R376 to R378): HEAD advances, a completion is reserved, the time of admission fixes its deadline. One that
was rejected by its checks ends at once. -/
def State.admitOne (s : State) (id : Nat) : State :=
  let d := s.desc id
  let c := s.fd (Reg.RC_SQ_LINK_CQ d.ring)
  let dl := d.opcode == 1 && bit (d.w 4) 20 && d.status == 0
  let t := s.setDesc id { d with
    state := if d.status = 0 then .admitted else .ended, order := s.host.admitCount, gen := s.gen d.inst, hadDeadline := dl }
  let h := { t.host with admitCount := t.host.admitCount + 1 }
  let h := if dl then { h with deadlines := h.deadlines ++
    [⟨id, deadlineInstant s.now (bits (d.w 5) 23 0) (bits (d.w 4) 18 11), bit (d.w 4) 19⟩] } else h
  let t := { t with host := h }
  let t := ((t.inc (Reg.RC_SQ_HEAD d.ring)).setRing c { t.ring c with reserved := (t.ring c).reserved + 1 }).showRoom c
  if d.status = 0 ∧ (d.opcode = 2 ∨ (d.opcode = 6 ∧ bits (d.words.getD 4 0) 21 20 = 0)) then
    t.issueRead (.data id) d.inst (bit (d.words.getD 0 0) 25)
  else t

/-- No descriptor is admitted: before READY, during a shutdown (R625), after a thermal trip (R593), and from the entry to Rest to the end of the
wake (R596, R598). -/
def State.admitHeld (s : State) : Bool :=
  ! s.on Reg.GS_STATUS_READY || s.on Reg.GS_STATUS_SHUTTING_DOWN || s.power.trip || decide (2 ≤ s.fd Reg.PWR_STATUS_STATE)

/-- DESCRIPTOR_ADMIT (R377): the arbiter grants a ring at most once per round; a round starts, with every ring then active, when no
ring that has a grant left is active. The ring of the command is the one that the arbiter's turn has reached. -/
def execDescriptorAdmit (ring : Fin 4096) (s : State) : Out :=
  let left := s.host.grants.filter fun r => s.ringActive r
  let left := if left.isEmpty then (s.host.rings.map (·.1)).filter fun r => s.ringActive r else left
  .next (if left.contains ring.val && ! s.admitHeld then
    match s.nextDesc ring with
    | some id => { s with host := { s.host with grants := left.erase ring.val } }.admitOne id
    | none => s
  else s)

/-! ### The descriptors' work (R370 to R375, R379) -/

/-- Runs the work of an admitted descriptor of an opcode at a ring position. -/
def State.work (s : State) (ring : Nat) (pos : Word) (op : Nat) (f : State → Nat → Desc → State) : State :=
  match s.findDesc ring pos.toNat with
  | some id => if (s.desc id).state = .admitted ∧ (s.desc id).opcode = op then f s id (s.desc id) else s
  | none => s

/-- Ends a descriptor with a status and detail; its work started now, if it had not (R381). A rejection never started. -/
def State.endDesc (s : State) (id status detail : Nat) : State :=
  let d := s.desc id
  (s.endRead (.data id)).setDesc id { d with state := .ended, status := status, detail := detail, start := if status = 4 then d.start else d.start.orElse fun _ => some s.now }

/-- A DRAM address of a descriptor: a _LO word and bits [7:0] of the next word (R369). -/
def Desc.dram (d : Desc) (k : Nat) : Nat := (d.w k).toNat + 2 ^ 32 * bits (d.w (k + 1)) 7 0
/-- A host address of a descriptor. -/
def Desc.hostAddr (d : Desc) (k : Nat) : Nat := (d.w k).toNat + 2 ^ 32 * (d.w (k + 1)).toNat

/-- An EVICT with UNREGISTER of a slot was admitted before a descriptor (R374). -/
def State.evictBefore (s : State) (n order : Nat) : Bool :=
  s.host.descs.any fun e => e.2.opcode == 7 && bit (e.2.w 4) 21 && bits (e.2.w 4) 31 22 == n && e.2.state == .admitted && decide (e.2.order < order)

/-- RUN (R370): the sequence is made ready in the batch of its slot; areas outside the windows, an empty slot or a slot of another
owner reject it. A failed package abandons it (R566). -/
def execRun (ring : Fin 4096) (pos : Word) (s : State) : Out :=
  .next (s.work ring pos 1 fun s id d =>
    let n := bits (d.w 4) 31 22
    let p := s.slot n
    let a := d.dram 10
    let b := d.dram 12
    if s.on Reg.FH_SUMMARY_FAILED then s.endDesc id 2 0
    else if p.phase ≠ 2 ∨ s.evictBefore n d.order then s.endDesc id 4 15
    else if p.inst ≠ d.inst then s.endDesc id 4 14
    else if ! s.inWindow d.inst a p.inBytes || ! s.inWindow d.inst b p.outBytes then s.endDesc id 4 13
    else
      let q : Seq := { noSeq with
        desc := some id, slot := n, inst := d.inst, state := .ready, readyAt := d.rung, order := s.net.nextSeq
        stepNo := (d.w 6).toNat, maxSteps := bits (d.w 7) 15 0, size0 := (d.w 8).toNat, size1 := (d.w 9).toNat
        inAddr := a, outAddr := b }
      let t := (s.setSeq s.net.nextSeq q).setDesc id { d with state := .running }
      { t with net := { t.net with nextSeq := t.net.nextSeq + 1 } })

/-- COPY_IN (R371): the DRAM range lies in one window, or the copy is rejected; it waits for unzeroed pages (R496). Pages written
lose their backing tags (R555). -/
def execCopyIn (ring : Fin 4096) (pos : Word) (data : List Byte) (s : State) : Out :=
  .next (s.work ring pos 2 fun s id d =>
    let a := d.dram 6
    let n := (d.w 8).toNat
    if ! s.inWindow d.inst a n then s.endDesc id 4 13
    else if ! s.rangeReady a n then s.demand a n
    else if data.length ≠ n then s
    else (s.hubWrite a data).endDesc id 0 0)

/-- COPY_OUT (R371). -/
def execCopyOut (ring : Fin 4096) (pos : Word) (s : State) : Out :=
  .next (s.work ring pos 3 fun s id d =>
    let a := d.dram 6
    let n := (d.w 8).toNat
    if ! s.inWindow d.inst a n then s.endDesc id 4 13
    else if ! s.rangeReady a n then s.demand a n
    else (s.emit (.hostBytes d.inst (d.hostAddr 4) (s.rdBytes a n))).endDesc id 0 0)

/-- SIGNAL (R372, R304). -/
def execSignal (ring : Fin 4096) (pos : Word) (s : State) : Out :=
  .next (s.work ring pos 4 fun s id d =>
    let c := bits (d.w 4) 11 0
    if s.pcOwned c d.inst then (s.advancePc c (d.w 5).toNat (hostNode d.inst)).endDesc id 0 0 else s.endDesc id 4 14)

/-- WAIT (R372, R304): met at once, or it runs until the counter reaches its target. -/
def execWait (ring : Fin 4096) (pos : Word) (s : State) : Out :=
  .next (s.work ring pos 5 fun s id d =>
    let c := bits (d.w 4) 11 0
    if ! s.pcOwned c d.inst then s.endDesc id 4 14
    else if waitTarget d ≤ s.pc c then s.endDesc id 0 0
    else
      let t := s.setDesc id { d with state := .running, start := some s.now }
      t.traceStart c (BitVec.ofNat 32 (hostNode d.inst), d.w 5))

/-- WAIT_TIMEOUT (R372): a WAIT still unmet after TIMEOUT_US completes with LATE and detail WAIT_TIMEOUT. -/
def execWaitTimeout (ring : Fin 4096) (pos : Word) (s : State) : Out :=
  .next (match s.findDesc ring pos.toNat with
    | some id =>
      let d := s.desc id
      if d.state = .running ∧ d.opcode = 5 ∧ d.w 7 ≠ 0 then
        (s.traceEnd (bits (d.w 4) 11 0) (BitVec.ofNat 32 (hostNode d.inst), d.w 5)).endDesc id 1 3
      else s
    | none => s)

/-- FENCE (R379): ends once every earlier descriptor of its ring, or of its instance, has completed; else it goes on waiting. -/
def execFence (ring : Fin 4096) (pos : Word) (s : State) : Out :=
  .next (s.work ring pos 8 fun s id d =>
    if s.host.descs.any fun e => e.2.state ≠ .fetched && decide (e.2.order < d.order) &&
      (if bit (d.w 4) 0 then e.2.inst == d.inst else e.2.ring == d.ring) then s
    else s.endDesc id 0 0)

/-! ### Completions (R375, R380 to R384) -/

/-- The completion entry of Table 11.6. -/
def completion (s : State) (d : Desc) (cq : Nat) : List Word :=
  let written := (s.rg (Reg.RC_CQ_WRITTEN cq)).toNat
  let phase := 1 - written / 2 ^ s.fd (Reg.RC_CTRL_CQ_LOG2 cq) % 2
  let w0 := BitVec.ofNat 32 (phase * 2 ^ 31 + d.status * 2 ^ 28 + d.opcode * 2 ^ 24 + d.detail * 2 ^ 16 + d.ring)
  let qw := match d.start with
    | some t => auDiff d.rung t
    | none => auDiff d.rung s.now
  let rt := match d.start with
    | some t => auDiff t s.now
    | none => 0
  [w0, ~~~w0, d.w 2, d.w 3, BitVec.ofNat 32 qw, BitVec.ofNat 32 rt,
    BitVec.ofNat 32 (min d.preempt 65535 * 2 ^ 16 + min d.replay 65535), BitVec.ofNat 32 d.pos]

/-- Raises the vector of a completion ring; count and timer restart with each interrupt (R384). -/
def State.cqIrq (s : State) (c : Nat) : State :=
  (s.msix (s.fd (Reg.RC_CTRL_OWNER c)) (s.fd (Reg.RC_CQ_IRQ_VECTOR c))).setRing c { s.ring c with sinceIrq := 0, coalFrom := none }

/-- After a completion is written: the vector is raised on IRQ, or when COAL_COUNT is reached, where 0 and 1 mean every completion;
else the coalescing time starts with the first completion (R384). -/
def State.coalesce (s : State) (c : Nat) (irqBit : Bool) : State :=
  if ! s.on (Reg.RC_CQ_IRQ_IRQ_EN c) then s
  else
    let n := (s.ring c).sinceIrq + 1
    let t := s.setRing c { s.ring c with sinceIrq := n, coalFrom := (s.ring c).coalFrom.orElse fun _ => some s.clk }
    if irqBit || decide (s.fd (Reg.RC_CQ_IRQ_COAL_COUNT c) ≤ n) then t.cqIrq c else t

/-- The post-signal (R375): applied unless the descriptor was rejected under R368; a counter not owned makes the status REJECTED. -/
def State.postSignal (s : State) (id : Nat) : State :=
  let d := s.desc id
  if bit (d.w 15) 31 && d.detail ≠ 18 then
    let c := bits (d.w 15) 27 16
    if s.pcOwned c d.inst then s.advancePc c (bits (d.w 15) 15 0) (hostNode d.inst)
    else s.setDesc id { d with status := 4, detail := 14 }
  else s

/-- Writes the completion of a descriptor that has ended, and takes it out of flight (R378, R380). -/
def State.complete (s : State) (id : Nat) : State :=
  let t := s.postSignal id
  let d := t.desc id
  let c := t.fd (Reg.RC_SQ_LINK_CQ d.ring)
  let quiet := bit (d.w 0) 26 && d.status == 0
  let addr := t.fd (Reg.RC_CQ_BASE_LO_ADDR c) * 4096 + (t.rg (Reg.RC_CQ_BASE_HI c)).toNat * 2 ^ 32 +
    32 * ((t.rg (Reg.RC_CQ_WRITTEN c)).toNat % 2 ^ t.fd (Reg.RC_CTRL_CQ_LOG2 c))
  let u := if quiet then t
    else ((t.emit (.hostWrite d.inst addr (completion t d c))).inc (Reg.RC_CQ_WRITTEN c)).coalesce c (bit (d.w 0) 27)
  let u := u.setRing c { u.ring c with reserved := (u.ring c).reserved - 1 }
  let h := { u.host with descs := tdel u.host.descs id, deadlines := u.host.deadlines.filter fun x => x.desc ≠ id }
  let u := if d.hadDeadline && ! u.on Reg.TB_STATUS_FIRST_LOCK then u.inc Reg.DL_UNCHECKED else u
  { u with host := h }.showRoom c

/-- DESCRIPTOR_COMPLETE (R380): a descriptor whose work has ended, of the current generation. -/
def execDescriptorComplete (ring : Fin 4096) (pos : Word) (s : State) : Out :=
  .next (match s.findDesc ring pos.toNat with
    | some id => if (s.desc id).state = .ended then s.complete id else s
    | none => s)

/-- COAL_TIMER (R384): COAL_US after the first uninterrupted completion. -/
def execCoalTimer (ring : Fin 4096) (s : State) : Out :=
  .next (if s.on (Reg.RC_CQ_IRQ_IRQ_EN ring) && s.fd (Reg.RC_CQ_IRQ_COAL_US ring) ≠ 0 && (s.ring ring).coalFrom.isSome
    then s.cqIrq ring else s)

/-! ### Host reads (R385, R386) -/

/-- A tag leaves use into quarantine for twice HL_CPL_TIMEOUT (R386). -/
def State.quarantineTag (s : State) (tag : Nat) : State :=
  let t := { s with host := { s.host with quarantine := tput s.host.quarantine tag (s.clk + us (2 * s.fd Reg.HL_CPL_TIMEOUT_TIMEOUT_US)) } }
  t.setF Reg.HL_QUARANTINED_TAGS t.host.quarantine.length

/-- LATE_COMPLETION (R386): a completion for a tag in quarantine is dropped and counted. -/
def execLateCompletion (tag : Fin 16384) (s : State) : Out :=
  .next (if thas s.host.quarantine tag then (s.inc Reg.HL_LATE_CPL).irq 3 else s)

/-- TAG_QUARANTINE_EXPIRE (R386): a tag whose quarantine has run out becomes reusable. -/
def execTagQuarantineExpire (tag : Fin 16384) (s : State) : Out :=
  .next (
    let t := { s with host := { s.host with quarantine := tdel s.host.quarantine tag } }
    t.setF Reg.HL_QUARANTINED_TAGS t.host.quarantine.length)

/-! ### BAR4 (R358) -/

/-- BAR4_ACCESS (R358): beyond 384 GiB a read returns all ones and a write is dropped, both counted, as is every access before READY
(R613); an access to an unzeroed page waits (R496). An uncorrectable read is poisoned. A BAR4 access is a wake trigger (R597). -/
def execBar4Access (write : Bool) (off : BitVec 36) (len : Nat) (data : List Byte) (uncorrectable : Bool) (s : State) : Out :=
  let a := s.fd Reg.HL_BAR4_BASE_BASE_GIB * 2 ^ 30 + off.toNat
  let n := if write then data.length else len
  let miss (s : State) : State :=
    (if write then s else s.emit (.bar4Read (List.replicate n 0xFF#8) false)).inc Reg.HL_BAR4_DROPPED
  .next (if ! s.on Reg.GS_STATUS_READY then miss s
    else
      let s := s.wakeTrigger
      if dramSize < a + n then miss s
      else if ! s.rangeReady a n then s.demand a n
      else if write then
        let t := s.wrBytes a data
        { t with mem := { t.mem with tags := t.mem.tags.filter fun e => ! decide (a / 4096 ≤ e.1 ∧ e.1 ≤ (a + n - 1) / 4096) } }
      else if uncorrectable then (s.inc (Reg.DRAM_UNCORR (stackOf a))).emit (.bar4Read [] true)
      else s.emit (.bar4Read (s.rdBytes a n) false))

/-! ### Package counters from the host (R303, R325) -/

/-- COUNTER_SIGNAL (R303): size and complement, then INC 0, then ownership. -/
def execCounterSignal (i : Fin 64) (c : Fin 4096) (bytes : Nat) (v : BitVec 64) (s : State) : Out :=
  .next (s.bar2 i fun s =>
    if ! bellOk bytes v then s.cplMismatch (some Reg.PC_SIG_DISCARD) (hubStop 0) 15 i
    else if v.extractLsb' 0 32 = 0 then s
    else if ! s.pcOwned c i then s.inc Reg.PC_SIG_REFUSED
    else s.advancePc c (v.extractLsb' 0 32).toNat (hostNode i))

/-! ### Ring contexts and windows (R361, R396) -/

/-- The MSI-X vectors of an instance (R354). -/
def vectorOk (i v : Nat) : Bool := decide (v < if i = 0 then 2048 else 32)

/-- Two enabled rings of one kind and owner share a LOCAL index (R359). -/
def State.localClash (s : State) (r : Nat) (sq : Bool) (i loc : Nat) : Bool :=
  match s.ringAt sq i loc with
  | some k => k ≠ r
  | none => false

/-- Whether a write to word 0 of a ring context is refused (R361). -/
def State.rcCtrlRefused (s : State) (r : Nat) (v : Word) (vfEnabled : Bool) : Bool :=
  let old := s.rg (Reg.RC_CTRL r)
  let i := bits v 29 24
  let sq := bit v 31
  let cq := bit v 30
  let oldOn := bit old 31 || bit old 30
  let link := s.fd (Reg.RC_SQ_LINK_CQ r)
  let linkOn := if link = r then cq && bits v 29 24 == i else s.on (Reg.RC_CTRL_CQ_EN link) && s.fd (Reg.RC_CTRL_OWNER link) == i
  (oldOn && bits v 29 18 ≠ bits old 29 18) || (bit old 31 && bits v 17 13 ≠ bits old 17 13) || (bit old 30 && bits v 12 8 ≠ bits old 12 8) ||
  ((sq && ! bit old 31) && (s.localClash r true i (bits v 23 18) || ! linkOn || bits v 17 13 < 4 || 16 < bits v 17 13)) ||
  ((cq && ! bit old 30) && (s.localClash r false i (bits v 23 18) || bits v 12 8 < 4 || 16 < bits v 12 8 || ! vectorOk i (s.fd (Reg.RC_CQ_IRQ_VECTOR r)))) ||
  (((sq && ! bit old 31) || (cq && ! bit old 30)) && i ≠ 0 && ! vfEnabled) ||
  ((! cq && bit old 30) && s.host.descs.any fun e => s.fd (Reg.RC_SQ_LINK_CQ e.2.ring) == r && e.2.state ≠ .fetched)

/-- Whether a write to another word of a ring context is refused (R361): bases and link of an enabled ring, a vector beyond the
owner's range. -/
def State.rcWordRefused (s : State) (r word : Nat) (v : Word) : Bool :=
  let old := s.rg (Reg.RC_CTRL r + 4 * word)
  let sqOn := s.on (Reg.RC_CTRL_SQ_EN r)
  let cqOn := s.on (Reg.RC_CTRL_CQ_EN r)
  match word with
  | 1 | 2 | 5 => sqOn && old ≠ v
  | 3 | 4 => cqOn && old ≠ v
  | 6 => ! vectorOk (s.fd (Reg.RC_CTRL_OWNER r)) (bits v 30 20)
  | _ => false

/-- A ring just enabled: its positions are 0 (R360). -/
def State.ringStart (s : State) (r : Nat) (sq cq : Bool) : State :=
  let t := if sq then (s.wrg (Reg.RC_SQ_HEAD r) 0).wrg (Reg.RC_SQ_TAIL r) 0 else s
  let t := if cq then (t.wrg (Reg.RC_CQ_WRITTEN r) 0).wrg (Reg.RC_CQ_HEAD r) 0 else t
  let x := t.ring r
  let x := if sq then { x with stagedTail := none, fetchPos := 0, failures := 0, bells := [] } else x
  t.setRing r (if cq then { x with reserved := 0, sinceIrq := 0, coalFrom := none } else x)

/-- A write to a word of a ring context (R361). -/
def State.rcWrite (s : State) (r word : Nat) (v : Word) (vfEnabled : Bool) : State :=
  let off := Reg.RC_CTRL r + 4 * word
  let refuse (s : State) : State := ((s.setF (Reg.RC_STATUS_CFG_REFUSED r) 1).instEvent (s.fd (Reg.RC_CTRL_OWNER r)) 5)
  if word = 0 then
    if s.rcCtrlRefused r v vfEnabled then refuse s
    else
      let old := s.rg off
      let t := (s.plain off v).ringStart r (bit v 31 && ! bit old 31) (bit v 30 && ! bit old 30)
      if ! bit v 31 && bit old 31 then
        { t.endRead (.fetch r) with host := { (t.endRead (.fetch r)).host with
          descs := t.host.descs.filter fun e => ! (e.2.ring == r && e.2.state == .fetched) } }
      else t
  else if s.rcWordRefused r word v then refuse s
  else s.plain off v

/-- RING_CONTEXT_WRITE (R361): `vfEnabled` is the VF's enable in configuration space. -/
def execRingContextWrite (ring : Fin 4096) (word : Fin 16) (v : Word) (vfEnabled : Bool) (s : State) : Out :=
  .next (s.hostWrite (Reg.RC_CTRL ring + 4 * word.val) fun s => s.rcWrite ring word v vfEnabled)

/-- An instance has a run, copy or stream in progress (R396). -/
def State.instBusy (s : State) (i : Nat) : Bool :=
  (s.host.descs.any fun e => e.2.inst == i && (e.2.opcode == 1 || e.2.opcode == 2 || e.2.opcode == 3) && e.2.state ≠ .fetched) ||
  s.net.seqs.any fun e => e.2.inst == i && e.2.state ≠ .gone

/-- A range of 2 MiB units overlaps an enabled window of another instance (R396). -/
def State.windowClash (s : State) (i base size : Nat) : Bool :=
  (List.range 64).any fun j => j ≠ i && (List.range 8).any fun w => s.on (Reg.WIN_BASE_EN j w) &&
    decide (base < s.fd (Reg.WIN_BASE_BASE j w) + s.fd (Reg.WIN_SIZE_SIZE j w)) && decide (s.fd (Reg.WIN_BASE_BASE j w) < base + size)

/-- A write to WIN_w_BASE or WIN_w_SIZE (R396). A write that only clears EN is taken (log entry 42). -/
def State.windowWrite (s : State) (i w : Nat) (size : Bool) (v : Word) : State :=
  let off := if size then Reg.WIN_SIZE i w else Reg.WIN_BASE i w
  let en := s.on (Reg.WIN_BASE_EN i w)
  let nb := if size then s.fd (Reg.WIN_BASE_BASE i w) else bits v 18 0
  let ns := if size then bits v 18 0 else s.fd (Reg.WIN_SIZE_SIZE i w)
  let onlyClears := ! size && ! bit v 31
  if s.instBusy i || (en && ! onlyClears) || dramSize / 2 ^ 21 < nb + ns || (! onlyClears && s.windowClash i nb ns) then
    s.setF (Reg.INST_STATUS_WIN_REFUSED i) 1
  else if en then s.setF (Reg.WIN_BASE_EN i w) 0
  else s.plain off v

/-- WINDOW_WRITE (R396). -/
def execWindowWrite (i : Fin 64) (w : Fin 8) (size : Bool) (v : Word) (s : State) : Out :=
  .next (s.hostWrite (if size then Reg.WIN_SIZE i w else Reg.WIN_BASE i w) fun s => s.windowWrite i w size v)

end Sys2Proof.Machine
end

