-- ==== Sys2Proof/Machine/Flarid.lean ====
section
/-! DEFINITION. Flarid packets, ports, routes and the requests of this package (chapter 13): what every command of a link or of an engine
that sends over one shares. -/

namespace Sys2Proof

/-! ### Packets (R433, Tables 13.2 to 13.4) -/

def FlPacket.h (p : FlPacket) (k : Nat) : Word := p.hdr.getD k 0
def FlPacket.o (p : FlPacket) (k : Nat) : Word := p.op.getD k 0
def FlPacket.typ (p : FlPacket) : Nat := bits (p.h 0) 31 28
def FlPacket.isReply (p : FlPacket) : Bool := bit (p.h 0) 27
def FlPacket.prio (p : FlPacket) : Bool := bit (p.h 0) 26
def FlPacket.mcast (p : FlPacket) : Bool := bit (p.h 0) 24
def FlPacket.mark (p : FlPacket) : Bool := bit (p.h 0) 23
def FlPacket.echo (p : FlPacket) : Bool := bit (p.h 0) 22
def FlPacket.hops (p : FlPacket) : Nat := bits (p.h 0) 21 18 + 1
def FlPacket.hop (p : FlPacket) : Nat := bits (p.h 0) 17 13
def FlPacket.len (p : FlPacket) : Nat := bits (p.h 0) 12 0
def FlPacket.route (p : FlPacket) : Nat := (p.h 2).toNat + 2 ^ 32 * (p.h 3).toNat
def FlPacket.src (p : FlPacket) : Nat := bits (p.h 6) 31 18
def FlPacket.dst (p : FlPacket) : Nat := bits (p.h 6) 17 4
def FlPacket.group (p : FlPacket) : Nat := bits (p.h 6) 15 4
def FlPacket.pkey (p : FlPacket) : Nat := bits (p.h 7) 15 0
def FlPacket.reqId (p : FlPacket) : Nat := (p.o 0).toNat
def FlPacket.epoch (p : FlPacket) : Nat := bits (p.o 1) 31 24
def FlPacket.status (p : FlPacket) : Nat := bits (p.o 1) 15 8
def FlPacket.addr (p : FlPacket) : Nat := (p.o 2).toNat + 2 ^ 32 * bits (p.o 1) 7 0

/-- The virtual channel of a packet (R447). -/
def FlPacket.vc (p : FlPacket) : Nat := 2 * b2n p.isReply + b2n p.prio
/-- The flits of a packet (R433). -/
def FlPacket.flits (p : FlPacket) : Nat := 1 + ceilDiv p.len 64
/-- A truncated packet (R449): its tail was lost. -/
def FlPacket.truncated (p : FlPacket) : Bool := decide (p.data.length < p.len)

/-- The complements of words 0, 2, 3 and PKEY hold (R435). -/
def FlPacket.good (p : FlPacket) : Bool :=
  p.h 1 == ~~~(p.h 0) && p.h 4 == ~~~(p.h 2) && p.h 5 == ~~~(p.h 3) && bits (p.h 7) 31 16 == 65535 - p.pkey

/-- Header words from word 0, the route, source and destination fields and the key, each with its complement. -/
def flHeader (w0 : Word) (route src dst pkey : Nat) : List Word :=
  [w0, ~~~w0, lo32 route, hi32 route, ~~~(lo32 route), ~~~(hi32 route), BitVec.ofNat 32 (src * 2 ^ 18 + dst * 2 ^ 4),
    BitVec.ofNat 32 ((65535 - pkey) * 2 ^ 16 + pkey)]

/-- Word 0 of Table 13.2. -/
def flWord0 (typ : Nat) (cls prio fence mcast mark echo : Bool) (hopsM1 hop len : Nat) : Word :=
  BitVec.ofNat 32 (typ * 2 ^ 28 + b2n cls * 2 ^ 27 + b2n prio * 2 ^ 26 + b2n fence * 2 ^ 25 + b2n mcast * 2 ^ 24 + b2n mark * 2 ^ 23 +
    b2n echo * 2 ^ 22 + hopsM1 * 2 ^ 18 + hop * 2 ^ 13 + len)

/-- A packet with word 0 or the route replaced, and the complement rewritten with it (R435). -/
def FlPacket.withW0 (p : FlPacket) (w0 : Word) : FlPacket := { p with hdr := flHeader w0 p.route p.src p.dst p.pkey }
def FlPacket.withRoute (p : FlPacket) (r : Nat) : FlPacket := { p with hdr := flHeader (p.h 0) r p.src p.dst p.pkey }
def FlPacket.withHop (p : FlPacket) (n : Nat) : FlPacket := p.withW0 (setBits (p.h 0) 17 13 n)

/-- Nibble h of a route, and a route with a nibble replaced. -/
def nib (r h : Nat) : Nat := r / 16 ^ h % 16
def setNib (r h q : Nat) : Nat := r - nib r h * 16 ^ h + q * 16 ^ h

/-- The nibbles 0 to n − 1 of a route in reverse order (R439). -/
def revRoute (r n : Nat) : Nat := ((List.range n).map fun i => nib r (n - 1 - i) * 16 ^ i).sum

/-- The operation block (Table 13.3). -/
def flOp (reqId epoch status addr argLo argHi origin tag : Nat) : List Word :=
  [BitVec.ofNat 32 reqId, BitVec.ofNat 32 (epoch * 2 ^ 24 + status * 2 ^ 8 + addr / 2 ^ 32 % 256), lo32 addr, BitVec.ofNat 32 argLo,
    BitVec.ofNat 32 argHi, BitVec.ofNat 32 origin, BitVec.ofNat 32 tag, 0]

end Sys2Proof

namespace Sys2Proof.Machine

/-! ### Registers and ports -/

/-- This package's source identifier (Table 13.9). -/
def State.srcId (s : State) : Nat := s.fd Reg.FL_SRC_ID_SRC

/-- A port after cold reset (R427, R447, R455): 512 flits of credit on each virtual channel. -/
def noPort : PortSt :=
  ⟨0, 0, 0, 0, [512, 512, 512, 512], [], [false, false, false, false], [false, false, false, false], false, []⟩
def State.port (s : State) (p : Nat) : PortSt := tget noPort s.links.ports p
def State.setPort (s : State) (p : Nat) (x : PortSt) : State := { s with links := { s.links with ports := tput s.links.ports p x } }
/-- FL_STATUS.STATE of a port (Table 13.1). -/
def State.portState (s : State) (p : Nat) : Nat := s.fd (Reg.FL_STATUS_STATE p)
/-- A port that is DOWN or DISABLED. -/
def State.portOff (s : State) (p : Nat) : Bool := s.portState p == 4 || s.portState p == 0

/-- A bit of FL_EVENTS sets, with IRQ_STATUS.FLARID (R471). -/
def State.flEvent (s : State) (x : Fld) : State := (s.setF x 1).irq 6

/-- Runs an update unless one of the same key ran within 10 ms before (R467, R571). -/
def State.limit10 (s : State) (key : Nat) (f : State → State) : State :=
  match s.repair.limited.find? fun e => e.1 == key with
  | some e => if s.clk < e.2 + us 10000 then s else
      f { s with repair := { s.repair with limited := tput s.repair.limited key s.clk } }
  | none => f { s with repair := { s.repair with limited := tput s.repair.limited key s.clk } }

/-- The valid key entry of a port that matches a key (R450). -/
def State.keyEntry (s : State) (p key : Nat) : Option Nat :=
  (List.range 16).find? fun k => s.on (Reg.FL_KEY_VALID p k) && s.fd (Reg.FL_KEY_KEY p k) == key

/-- The blocks sent so far on a port (R427): eight flits each. -/
def PortSt.blocks (x : PortSt) : Nat := ceilDiv x.txFlits 8

/-- Puts a packet on the link of a port (R435, R438, R453): credits go, HOP advances, and a request that leaves while more than 75 % of the
next port's buffer is occupied is marked. -/
def State.launch (s : State) (q : Nat) (p : FlPacket) : State :=
  let x := s.port q
  let c := x.credits.getD p.vc 0
  let marks := ! p.isReply && decide (4 * (512 - c) > 3 * 512)
  let w := setBits (p.h 0) 17 13 (p.hop + 1)
  let w := if marks then setBits w 23 23 1 else w
  let t := s.setPort q { x with credits := x.credits.set p.vc (c - p.flits), txFlits := x.txFlits + p.flits }
  (t.cond marks fun u => u.inc (Reg.FL_MARKED q)).emit (.flarid q (p.withW0 w))

/-- A packet may leave now: the port is UP, has the credits, room in its replay buffer of 256 blocks (R429), and nothing of the packet's
channel waits ahead. -/
def State.mayLeave (s : State) (q : Nat) (p : FlPacket) : Bool :=
  let x := s.port q
  s.portState q == 2 && decide (p.flits ≤ x.credits.getD p.vc 0) && decide ((x.txFlits + p.flits) / 8 < x.acked + 256) &&
    ! x.waiting.any fun w => w.vc == p.vc

/-- A packet reaches a departure port: it leaves or waits (R443, R448). -/
def State.depart (s : State) (q : Nat) (p : FlPacket) : State :=
  if s.mayLeave q p then s.launch q p
  else s.setPort q { s.port q with waiting := (s.port q).waiting ++ [p] }

/-- Sends from a port what may leave of one virtual channel, oldest first. -/
def State.drainVc (s : State) (q v : Nat) : Nat → State
  | 0 => s
  | f + 1 =>
    let x := s.port q
    match x.waiting.find? fun w => w.vc == v with
    | none => s
    | some p =>
      let t := s.setPort q { x with waiting := x.waiting.filter fun w => w.vc ≠ v }
      if t.mayLeave q p then
        let u := t.launch q p
        (u.setPort q { u.port q with waiting := x.waiting.erase p }).drainVc q v f
      else s

/-- Sends what may leave by a port: high priority before low, and within a priority replies before requests (R448). -/
def State.drain (s : State) (q : Nat) : State :=
  s.each [3, 1, 2, 0] fun t v => t.drainVc q v ((t.port q).waiting.length)

/-- A partition reject at a port (R450, R571). -/
def State.partReject (s : State) (q : Nat) : State :=
  (s.inc (Reg.FL_PKEY_REJECTS q)).limit10 (1000 + q) fun t => t.postOpen 5 (some (portStop q)) none

/-- The reply to a packet retraces its path (R439): its nibbles 0 to HOP − 1 in reverse, from the port that it arrived at. -/
def flReply (p : FlPacket) (me typ status : Nat) (prio : Bool) (op : List Word) (data : List Byte) : FlPacket :=
  let op := op.set 1 (BitVec.ofNat 32 ((op.getD 1 0).toNat % 256 + status * 2 ^ 8 + bits (op.getD 1 0) 31 24 * 2 ^ 24))
  ⟨flHeader (flWord0 typ true prio false false false p.mark (p.hop - 1) 0 data.length) (revRoute p.route p.hop) me p.src p.pkey, op, data⟩

/-- Sends an answer to a request of another package: it leaves by the first port of the reversed route, where its key is checked
(R450). An answer that cannot be forwarded is dropped (R465). -/
def State.answer (s : State) (r : FlPacket) : State :=
  let q := nib r.route 0
  if s.portOff q then s
  else if (s.keyEntry q r.pkey).isNone then s.partReject q
  else s.depart q r

/-- The operation block of a reply: REQ_ID, ORIGIN and TAG copied, EPOCH zero (Table 13.3). -/
def flReplyOp (p : FlPacket) (argLo argHi : Nat) : List Word :=
  flOp p.reqId 0 0 0 argLo argHi (bits (p.o 5) 15 0) (p.o 6).toNat

/-- A NACK with a reason of Table 13.5. -/
def State.nack (s : State) (p : FlPacket) (reason : Nat) : State :=
  s.answer (flReply p s.srcId 6 reason p.prio (flReplyOp p 0 0) [])

/-! ### Routes (R436, R437, R444, R467) -/

def noRoute : Route := ⟨false, 0, 0⟩
def noRouteEnt : RouteEnt := ⟨false, false, [noRoute, noRoute, noRoute, noRoute], [false, false, false, false], 0⟩
def State.routeEnt (s : State) (d : Nat) : RouteEnt := tget noRouteEnt s.links.routes d
def State.setRouteEnt (s : State) (d : Nat) (e : RouteEnt) : State :=
  { s with links := { s.links with routes := tput s.links.routes d e } }

/-- A route of a destination is usable (R437). -/
def State.usable (s : State) (e : RouteEnt) (r : Nat) : Bool :=
  let x := e.routes.getD r noRoute
  e.valid && x.valid && ! e.failed.getD r false && s.portState (nib x.bits 0) == 2

def State.reachable (s : State) (d : Nat) : Bool := (List.range 4).any fun r => s.usable (s.routeEnt d) r

/-- The route that the next request to a destination takes (R436, R478), by the preference where it applies; none is usable where the
destination is unreachable. -/
def State.pickRoute (s : State) (e : RouteEnt) (pref : Option Nat) : Option Nat :=
  match pref.filter fun r => s.usable e r with
  | some r => some r
  | none =>
    if e.spread then ((List.range 4).map fun i => (e.turn + i) % 4).find? fun r => s.usable e r
    else (List.range 4).find? fun r => s.usable e r

/-- CRC-32 of IEEE 802.3: one bit, one byte, and the whole. -/
def crcBit (c : Word) : Word := if bit c 0 then (c >>> 1) ^^^ 0xEDB88320#32 else c >>> 1
def crcByte (c : Word) (b : Byte) : Word := (List.range 8).foldl (fun c _ => crcBit c) (c ^^^ (b.zeroExtend 32))
def crc32 (bs : List Byte) : Word := ~~~(bs.foldl crcByte 0xFFFFFFFF#32)

/-- The digest's bitmap: bit i of word w stands for source identifier 32w + i (R471). -/
def State.digestWord (s : State) (w : Nat) : Word :=
  BitVec.ofNat 32 ((List.range 32).map fun i => if s.reachable (32 * w + i) then 2 ^ i else 0).sum

/-- Offset of FL_DIGEST_w (R471). -/
def digestOff (w : Nat) : Nat := 0x220000 + 4 * w

/-- Words of the digest that no table entry and no bit stand in are 0: the words to look at. -/
def State.digestKeys (s : State) : List Nat :=
  (s.links.routes.map (fun (e : Nat × RouteEnt) => e.1 / 32) ++ ((List.range 512).filter fun w => s.rg (digestOff w) ≠ 0)).dedup

/-- The suspicion of a peer (R468): reported here, posted, and sent as a NOTICE of KIND 2 at most once in 10 ms. `send` sends the notice. -/
def State.suspect (s : State) (pkg stop : Nat) (send : State → State) : State :=
  let t := (s.report stop 13 pkg true).post 0x17 13 stop 0 pkg none none
  if ! t.on Reg.FL_REPORT_DST_EN then t
  else
    let u := t.limit10 (10000 + pkg) send
    if u.repair.limited == t.repair.limited then { u with links := { u.links with unsent := u.links.unsent + 1 } } else u

/-- Sends a reply-class packet of this package's own over its route table, on reply-high (R447, R463, R468); with no usable route it is
dropped. Hub traffic carries the key of instance 0 (R452). -/
def State.sendOwn (s : State) (dst argLo argHi origin tag : Nat) : State :=
  match s.pickRoute (s.routeEnt dst) none with
  | none => s
  | some r =>
    let x := (s.routeEnt dst).routes.getD r noRoute
    if ! s.on (Reg.FL_INST_KEY_VALID 0) then s
    else s.answer ⟨flHeader (flWord0 9 true true false false false false (x.hops - 1) 0 0) x.bits s.srcId dst (s.fd (Reg.FL_INST_KEY_KEY 0)),
      flOp 0 0 0 0 argLo argHi origin tag, []⟩

/-- Looks at the reachable set after a change (R467, R468): a changed digest is rewritten and counted; a destination that became
unreachable raises partition suspected and is suspected as a peer. -/
def State.refreshDigest (s : State) : State :=
  let ch := s.digestKeys.filter fun w => s.digestWord w ≠ s.rg (digestOff w)
  if ch.isEmpty then s
  else
    let lost := ch.flatMap fun w => (List.range 32).filterMap fun i =>
      if bit (s.rg (digestOff w)) i && ! bit (s.digestWord w) i then some (32 * w + i) else none
    let t := s.each ch fun u w => u.wrg (digestOff w) (s.digestWord w)
    let count := ((List.range 16384).filter fun d => bit (t.rg (digestOff (d / 32))) (d % 32)).length
    let t := (t.setF Reg.FL_DIGEST_COUNT_COUNT count).wrg Reg.FL_DIGEST_CRC (crc32 ((List.range 512).flatMap fun w => leBytes 4 (t.rg (digestOff w)).toNat))
    let t := t.inc Reg.FL_DIGEST_SEQ
    if lost.isEmpty then t
    else
      let t := (t.flEvent Reg.FL_EVENTS_PARTITION_SUSPECTED).limit10 0 fun u => u.post 0x16 13 (hubStop 4) 0 (lost.headD 0) none none
      t.each lost fun u d => u.suspect d (hubStop 4) fun v => v.sendOwn (v.fd Reg.FL_REPORT_DST_PKG) (2 * 2 ^ 28 + 2 ^ 24 + d) 0 (hubStop 4) 0

/-- A route of a destination is marked failed (R437, R444): its epoch advances. -/
def State.markFailed (s : State) (d r : Nat) : State :=
  let e := s.routeEnt d
  let t := s.setRouteEnt d { e with failed := e.failed.set r true }
  { t with links := { t.links with epochOut := tput t.links.epochOut d ((tget 0 t.links.epochOut d + 1) % 256) } }.flEvent
    Reg.FL_EVENTS_ROUTE_FAILED

/-! ### Requests of this package (R434, R452, R456, R459, R466) -/

/-- A request still serves the step it was made for (R561): later attempts and steps make it stale. -/
def State.reqLive (s : State) (r : FlReq) : Bool :=
  match s.net.step with
  | some x => x.number == r.number && x.attempt == r.attempt && s.gen r.inst == r.gen
  | none => false

/-- A refusal of a request (R266, R302): a stream's ends the run with PROGRAM_ERROR and detail REMOTE; an advance's ends the next run of its
section. Both are recorded with KIND 2; an advance has no descriptor or slot, so those fields are free values. -/
def State.refuse (s : State) (r : FlReq) : State :=
  match r.use with
  | .rload n k d b _ | .rstore n k d b =>
    if s.reqLive r then (s.strFault n 2 k d ((s.cl n).strm (strmKey k d)).slot r.dest (some r.addr) (some b)).programError 10 else s
  | .advance n k slot sect =>
    let f := s.free
    let t := f.2.strFault n 2 k (bits f.1 3 0) (bits f.1 15 4) r.dest none none
    { t with links := { t.links with refused := if t.links.refused.contains (slot, sect) then t.links.refused else t.links.refused ++ [(slot, sect)] } }

/-- The outcome of a request is in: the step's commit waits for it no longer. -/
def State.settle (s : State) (id : Nat) : State :=
  match s.net.step with
  | some x => s.setStep (some { x with remoteWait := x.remoteWait.filter (· ≠ id) })
  | none => s

/-- The packet of a request on a route (Table 13.2). -/
def State.reqPacket (s : State) (r : FlReq) (x : Route) (epoch key : Nat) : FlPacket :=
  ⟨flHeader (flWord0 r.typ false r.prio r.fence false false false (x.hops - 1) 0 r.data.length) x.bits s.srcId r.dest key,
    flOp r.id epoch 0 r.addr r.argLo r.argHi (match r.use with | .advance .. => hubStop 6 | .rload n .. => clusterStop n | .rstore n .. => clusterStop n) 0,
    r.data⟩

/-- The preference that applies to a request's first injection (R478). -/
def State.prefOf (s : State) (resend : Bool) : Option Nat := if resend then none else s.links.pref

/-- A port uses a destination's route entry: its cache holds the 256 entries used last (R441). -/
def PortSt.cached (x : PortSt) (d : Nat) : PortSt := { x with cache := ((x.cache.erase d) ++ [d]).drop ((x.cache.erase d).length + 1 - 256) }

/-- Injects a request, or sends it again: by the route of R436 with the current epoch; with no usable route it completes as unreachable and
is held (R466). A key that the port does not let in is a refusal (R450, R452). -/
def State.inject (s : State) (r : FlReq) (resend : Bool) : State :=
  let e := s.routeEnt r.dest
  match s.pickRoute e (s.prefOf resend) with
  | none =>
    { s with links := { s.links with idle := s.links.idle ++ [{ r with later := false }] } }.inc Reg.FL_UNREACHABLE
  | some k =>
    let x := e.routes.getD k noRoute
    let q := nib x.bits 0
    let epoch := tget 0 s.links.epochOut r.dest
    let key := s.fd (Reg.FL_INST_KEY_KEY r.inst)
    let t := s.setRouteEnt r.dest { e with turn := (k + 1) % 4 }
    let t := t.setPort q ((t.port q).cached r.dest)
    if ! s.on (Reg.FL_INST_KEY_VALID r.inst) then (t.refuse r).settle r.id
    else if (s.keyEntry q key).isNone then ((t.partReject q).refuse r).settle r.id
    else
      let r' := { r with epoch := epoch, route := k, port := q, later := false }
      let t := { t with links := { t.links with tracked := t.links.tracked ++ [r'] } }
      t.depart q (s.reqPacket r x epoch key)

/-- An earlier request to the same destination is not yet answered (R459). -/
def State.earlier (s : State) (r : FlReq) : Bool :=
  (s.links.tracked ++ s.links.egress).any fun x => x.dest == r.dest && decide (x.order < r.order)

/-- The egress accepts a request: it takes a REQ_ID, and is injected at once unless its fence or the tracker holds it (R456, R459). -/
def State.accept (s : State) (r : FlReq) : State :=
  let r := { r with id := s.links.nextId, order := s.links.nextOrder }
  let t := { s with links := { s.links with nextId := (s.links.nextId + 1) % 2 ^ 32, nextOrder := s.links.nextOrder + 1 } }
  if ! t.on (Reg.FL_INST_KEY_VALID r.inst) then t.refuse r
  else if 16384 ≤ t.links.tracked.length || (r.fence && t.earlier r) then { t with links := { t.links with egress := t.links.egress ++ [r] } }
  else t.inject r false

/-- Takes a request out of the tracker. -/
def State.dropTracked (s : State) (id : Nat) : State :=
  { s with links := { s.links with tracked := s.links.tracked.filter fun x => x.id ≠ id } }

/-- Injects the oldest request that waited only for a tracker entry, if one is free. -/
def State.pump (s : State) : State :=
  match s.links.egress.find? fun x => ! x.fence with
  | some x =>
    if s.links.tracked.length < 16384 then { s with links := { s.links with egress := s.links.egress.erase x } }.inject x false else s
  | none => s

/-- A request is answered: its tracker entry is free. -/
def State.untrack (s : State) (r : FlReq) : State := (s.dropTracked r.id).pump

/-- Sends a tracked request again (R456, R465). -/
def State.resend (s : State) (r : FlReq) : State := ((s.dropTracked r.id).inject r true).pump

/-- The tracked request that a reply of a package names. -/
def State.trackedReq (s : State) (id src : Nat) : Option FlReq := s.links.tracked.find? fun r => r.id == id && r.dest == src

/-- Requests held for destinations that have become usable again are made afresh (R466); those of an earlier attempt are dropped. -/
def State.reviveIdle (s : State) : State :=
  let go := s.links.idle.filter fun r => s.reachable r.dest
  if go.isEmpty then s
  else
    let t := { s with links := { s.links with idle := s.links.idle.filter fun r => ! s.reachable r.dest } }
    t.each go fun u r =>
      if u.reqLive r then
        let id := u.links.nextId
        -- the commit waits for the new request in place of the old
        let u := match u.net.step with
          | some x => u.setStep (some { x with remoteWait := x.remoteWait.map fun i => if i = r.id then id else i })
          | none => u
        u.accept r
      else u

/-- After a change of ports, marks or routes: the digest, and what waits for a route. -/
def State.refresh (s : State) : State := (s.refreshDigest).reviveIdle

/-- Requests of an engine's use. -/
def State.pendingUse (s : State) (f : FlUse → Bool) : Bool :=
  (s.links.tracked ++ s.links.egress ++ s.links.idle).any fun r => f r.use && s.reqLive r

end Sys2Proof.Machine
end

