-- ==== Sys2Proof/Machine/Streams.lean ====
section
/-! DEFINITION. Streams (chapter 8): START, WAIT, WAIT_ALL and ADVANCE, the blocks that the engines move, and the bandwidth presets. -/

namespace Sys2Proof.Machine

/-! ### Descriptors (Tables 8.1, 8.2) -/

def Plane.sKind (p : Plane) (d : Nat) : Nat := p.sd d 0 31 29
def Plane.sSlots (p : Plane) (d : Nat) : Nat := p.sd d 0 23 20
def Plane.sLines (p : Plane) (d : Nat) : Nat := p.sd d 0 8 0
def Plane.sRows (p : Plane) (d : Nat) : Nat := p.sd d 1 15 0
def Plane.sPkg (p : Plane) (d : Nat) : Nat := p.sd d 11 13 0

/-- BLOCKS of a descriptor in a bucket (R256). -/
def Plane.sBlocks (p : Plane) (b d : Nat) : Nat :=
  let y := p.sd d 0 25 24
  if y = 0 then p.sd d 2 31 0 else ceilDiv (p.bucketSize b (y - 1)) (p.sd d 3 15 0)

/-- DADDR of a descriptor, and the scratchpad address of line l of row r of block n (R256). -/
def Plane.sDaddr (p : Plane) (d : Nat) : Nat := p.sd d 4 31 0 + 2 ^ 32 * p.sd d 5 7 0
def Plane.sPad (p : Plane) (d n r l : Nat) : Nat :=
  let slot := if p.sSlots d = 0 then n else n % p.sSlots d
  p.sd d 8 22 0 + 64 * (slot * p.sd d 10 16 0 + r * p.sd d 9 16 0 + l)

/-- Where a block's addresses count from (R256, R526, R527): the base, the area that bounds its lines, and whether DBLK_STRIDE applies. -/
structure BlockBase where
  base : Int
  area : Option (Nat × Nat)
  strided : Bool
  deriving DecidableEq, Repr

/-- Resolves the DADDR of a block (R526, R527): absolute, or the program area, or the input or output area of a member of the context's
micro-batch. A block whose member does not exist has none. A reserved area code names an empty area. -/
def State.blockBase (s : State) (x : StepSt) (p : Plane) (c d n : Nat) : Option BlockBase :=
  let a := p.sDaddr d
  if ! a.testBit 39 then some ⟨a, none, true⟩
  else
    let code := a / 2 ^ 37 % 4
    let per := a.testBit 36
    let off := a % 2 ^ 36
    let slot := s.slot x.slot
    if code = 0 then some ⟨((slot.dramBase + off : Nat) : Int), some (slot.dramBase, slot.areaBytes), true⟩
    else
      match (x.members.getD c [])[if per then n else 0]? with
      | none => none
      | some id =>
        let q := s.seq id
        let r := if code = 1 then (q.inAddr, slot.inBytes) else if code = 2 then (q.outAddr, slot.outBytes) else (0, 0)
        some ⟨((r.1 + off : Nat) : Int), some r, ! per⟩

/-- The DRAM address of line l of row r of block n from its base (R256). -/
def Plane.sDram (p : Plane) (d : Nat) (b : BlockBase) (n r l : Nat) : Int :=
  b.base + 64 * ((if b.strided then (n : Int) * toSigned 32 (p.sd d 7 31 0) else 0) + (r : Int) * toSigned 32 (p.sd d 6 31 0) + l)

/-- The lines of a block: DRAM address and scratchpad address. -/
def Plane.sBlockLines (p : Plane) (d : Nat) (b : BlockBase) (n : Nat) : List (Int × Nat) :=
  (List.range (p.sRows d)).flatMap fun r => (List.range (p.sLines d)).map fun l => (p.sDram d b n r l, p.sPad d n r l)

/-- A line of a block may be accessed (R258, R526): it lies in its area and in a window of the instance. -/
def State.lineOk (s : State) (inst : Nat) (b : BlockBase) (a : Int) : Bool :=
  decide (0 ≤ a) && s.inWindows inst a.toNat 64 &&
    match b.area with
    | none => true
    | some r => decide (r.1 ≤ a.toNat) && decide (a.toNat + 64 ≤ r.1 + r.2)

/-- The scratchpad lines that a stream of B blocks covers, first and last. -/
def Plane.sRange (p : Plane) (d b : Nat) : Nat × Nat :=
  let slots := if p.sSlots d = 0 then b else min b (p.sSlots d)
  let lo := p.sd d 8 22 0
  lineRange lo (lo + 64 * ((slots - 1) * p.sd d 10 16 0 + (p.sRows d - 1) * p.sd d 9 16 0 + p.sLines d))

/-- The stream's slot word and context: a program error of R263, recorded with KIND 1. -/
def State.streamError (s : State) (n k d : Nat) : State :=
  (s.strFault n 1 k d ((s.cl n).ctx k).slotPtr 0 none none).flowError

/-! ### The STREAM slot (R260 to R264) -/

/-- Begins a transfer: P, T and A at 0, B recorded; credits and tile numbers go on from the binding (R261, R272). -/
def State.strmBegin (s : State) (n k d engine b : Nat) (entry : Option Nat) : State :=
  s.upCl n fun c =>
    let old := c.strm (strmKey k d)
    (c.setStrm (strmKey k d)
      { noStrm with
        b := b
        started := true
        engine := engine
        slot := (c.ctx k).slotPtr
        entry := entry
        credits := old.credits
        seq := old.seq }).advance k 1

/-- STREAM START (R261, R263, R264): a direct load with SB set takes a stream entry of the scoreboard, and waits for one; a store's reads
are ordered behind writes by the scoreboard. -/
def execStreamStart (n : Fin 576) (x : SlotCtl) (engine : Fin 4) (desc : Fin 16) (s : State) : Out :=
  s.issue n x fun k on t =>
    if ! on then t.pass n k else
    let c := t.cl n
    let p := c.plane (k / 4)
    let y := c.strm (strmKey k desc)
    let b := p.sBlocks c.bkt desc
    let kind := p.sKind desc
    if y.p < y.b then t.streamError n k desc
    else if p.sd desc 0 28 28 = 1 then
      if 8 ≤ c.used true then t.waitAt n k .entry x
      else
        let e := c.enter true [p.sRange desc b]
        (t.setCl n e.1).strmBegin n k desc engine b e.2.head?
    else if kind = 1 ∨ kind = 4 then
      t.readSlot n k x [p.sRange desc b] fun u => u.strmBegin n k desc engine b none
    else t.strmBegin n k desc engine b none

/-- STREAM WAIT (R261, R263). -/
def execStreamWait (n : Fin 576) (x : SlotCtl) (desc : Fin 16) (s : State) : Out :=
  s.issue n x fun k on t =>
    if ! on then t.pass n k else
    let y := (t.cl n).strm (strmKey k desc)
    if y.t = y.b then t.streamError n k desc
    else if y.t + 1 ≤ y.p then (t.upCl n fun c => c.setStrm (strmKey k desc) { y with t := y.t + 1 }).pass n k
    else t.waitAt n k (.stream desc false) x

/-- STREAM WAIT_ALL (R261). -/
def execStreamWaitAll (n : Fin 576) (x : SlotCtl) (desc : Fin 16) (s : State) : Out :=
  s.issue n x fun k on t =>
    let y := (t.cl n).strm (strmKey k desc)
    if ! on || y.p == y.b then t.pass n k else t.waitAt n k (.stream desc true) x

/-- STREAM ADVANCE (R261, R263): a program error for a direct stream and for a FEED, beyond T on a load ring, and beyond B on a store ring. -/
def execStreamAdvance (n : Fin 576) (x : SlotCtl) (desc : Fin 16) (s : State) : Out :=
  s.issue n x fun k on t =>
    if ! on then t.pass n k else
    let c := t.cl n
    let p := c.plane (k / 4)
    let y := c.strm (strmKey k desc)
    let kind := p.sKind desc
    let limit := if kind = 0 ∨ kind = 3 then y.t else y.b
    if p.sSlots desc = 0 || kind == 2 || decide (limit < y.a + 1) then t.streamError n k desc
    else (t.upCl n fun c => c.setStrm (strmKey k desc) { y with a := y.a + 1 }).pass n k

/-! ### Blocks (R256 to R259, R262, R265, R266) -/

/-- The gate of Table 8.4 for the next block. -/
def State.blockGate (s : State) (p : Plane) (d : Nat) (y : Strm) : Bool :=
  match p.sKind d with
  | 2 => decide (0 < y.credits.getD (s.feedLimit p d))
  | 0 | 3 => p.sSlots d == 0 || decide (y.next < y.a + p.sSlots d)
  | _ => p.sSlots d == 0 || decide (y.next < y.a)

/-- Picks elements by free bits: which of a faulting block's other lines had been moved (R258, log entry 2). -/
def State.freePick {α : Type} (s : State) : List α → List α × State
  | [] => ([], s)
  | a :: l =>
    let r := (s.free.2).freePick l
    (if bit s.free.1 0 then a :: r.1 else r.1, r.2)

/-- A write of the step to a line of DRAM: journalled first where the range is protected (R557, R558); a journal that would overflow ends
the run with detail EXTENT. -/
def State.stepWrite (s : State) (n a : Nat) (data : List Byte) : State :=
  match s.net.step with
  | none => s
  | some x =>
    let go (s : State) : State := s.writeTake (stackOf a) (clusterStop n) a data
    if s.protected x.slot a then
      if x.journal < (s.slot x.slot).journalRoom then go (s.journalLine a) else s.programError 6
    else go s

/-- Moves lines of a block between DRAM and scratchpad: in, or out. -/
def State.moveLines (s : State) (n : Nat) (out : Bool) : List (Int × Nat) → State
  | [] => s
  | (a, q) :: l =>
    let t := if out then s.stepWrite n a.toNat ((s.cl n).rdN q 64) else s.upCl n fun c => c.wrN q (s.rdBytes a.toNat 64)
    t.moveLines n out l

/-- The pieces of a block that travel over Flarid: runs of at most 16 lines of a row (R433): DRAM address, scratchpad address, lines. -/
def Plane.sPieces (p : Plane) (d : Nat) (b : BlockBase) (n : Nat) : List (Int × Nat × Nat) :=
  (List.range (p.sRows d)).flatMap fun r => (List.range (ceilDiv (p.sLines d) 16)).map fun i =>
    (p.sDram d b n r (16 * i), p.sPad d n r (16 * i), min 16 (p.sLines d - 16 * i))

/-- Requests the pieces of a block of a remote stream (R266); the last packet of the last block carries the fence where FENCE is set. -/
def State.remoteBlock (s : State) (n k d block : Nat) (last : Bool) (x : StepSt) : List (Int × Nat × Nat) → State
  | [] => s
  | (a, q, lines) :: l =>
    let c := s.cl n
    let p := c.plane (k / 4)
    let load := p.sKind d = 3
    let fence := p.sd d 0 27 27 = 1 ∧ last = true ∧ l = []
    let r : FlReq :=
      { id := 0, dest := p.sPkg d, order := 0, typ := if load then 0 else 1, prio := p.sd d 0 26 26 == 1, fence := decide fence
        addr := a.toNat, argLo := if load then 64 * lines else 0, argHi := 0, data := if load then [] else c.rdN q (64 * lines)
        inst := p.inst, gen := p.gen, number := x.number, attempt := x.attempt
        use := if load then .rload n k d block q else .rstore n k d block, epoch := 0, route := 0, port := 0, later := false }
    (s.accept r).remoteBlock n k d block last x l

/-- A stream extent fault (R258): of the block's lines outside every window one is recorded, and others of the block may have moved. -/
def State.streamExtent (s : State) (n k d block : Nat) (lines : List (Int × Nat)) (bad : List (Int × Nat)) : State :=
  let p := (s.cl n).plane (k / 4)
  let good := lines.filter fun x => ! bad.contains x
  let pick := if p.sKind d = 2 then ([], s) else s.freePick good
  let t := pick.2.moveLines n (p.sKind d == 1) pick.1
  let f := t.free
  let at0 := (bad.getD (f.1.toNat % bad.length) (0, 0)).1
  let t := f.2.upCl n fun c => c.setStrm (strmKey k d) { c.strm (strmKey k d) with faulted := true }
  (t.strFault n 0 k d ((t.cl n).strm (strmKey k d)).slot 0 (some (at0 % 2 ^ 40).toNat) (some block)).extentFault n

/-- P passes the blocks that are complete from it on, and CNT_EN counts each of them in order (R261, R265). -/
def State.passBlocks (s : State) (n k d : Nat) : Nat → State
  | 0 => s
  | f + 1 =>
    let c := s.cl n
    let y := c.strm (strmKey k d)
    if y.ahead.contains y.p then
      let t := s.upCl n fun c => c.setStrm (strmKey k d) { y with p := y.p + 1, ahead := y.ahead.erase y.p }
      let p := c.plane (k / 4)
      (if p.sd d 12 31 31 = 1 then t.advanceBinding n k (p.sd d 12 29 24) 1 y.slot else t).passBlocks n k d f
    else s

/-- A block is complete: P, the counter, the scoreboard entry with the last write, and the waits that this meets. -/
def State.blockDone (s : State) (n k d block : Nat) : State :=
  let t := s.upCl n fun c =>
    let y := c.strm (strmKey k d)
    c.setStrm (strmKey k d) { y with flying := y.flying.erase block, ahead := y.ahead ++ [block] }
  let t := t.passBlocks n k d (((t.cl n).strm (strmKey k d)).ahead.length)
  let y := (t.cl n).strm (strmKey k d)
  let t := if y.p = y.b then t.upCl n fun c => c.retire y.entry.toList else t
  if t.net.step.isSome then t.wake n else t

/-- STREAM_BLOCK_START (R262): the next block of an instance starts when its gate allows it. A block whose member does not exist completes
at once (R527). Its lines are checked against its area and the windows of the instance (R526, R258); a FEED takes a credit; a remote
stream's requests leave. -/
def execStreamBlockStart (n : Fin 576) (p : Fin 8) (c : Fin 4) (desc : Fin 16) (s : State) : Out :=
  let k := 4 * p.val + c.val
  let d := desc.val
  let pl := (s.cl n).plane p
  let y := (s.cl n).strm (strmKey k d)
  .next (match s.net.step with
    | none => s
    | some x =>
      if pl.slot ≠ x.slot ∨ s.isFenced n ∨ ! y.started ∨ y.faulted ∨ y.b ≤ y.next ∨ ! s.blockGate pl d y then s
      else
        let y' := { y with next := y.next + 1, flying := y.flying ++ [y.next] }
        match s.blockBase x pl c d y.next with
        | none => (s.upCl n fun c => c.setStrm (strmKey k d) y').blockDone n k d y.next
        | some b =>
          let lines := pl.sBlockLines d b y.next
          match pl.sKind d with
          | 3 =>
            let t := s.upCl n fun c => c.setStrm (strmKey k d) y'
            t.remoteBlock n k d y.next (y.next + 1 == y.b) x (pl.sPieces d b y.next)
          | 4 =>
            let t := s.upCl n fun c => c.setStrm (strmKey k d) y'
            let t := t.inc64 (Reg.STR_BYTES_OUT_LO n) (64 * lines.length)
            t.remoteBlock n k d y.next (y.next + 1 == y.b) x (pl.sPieces d b y.next)
          | kind =>
            let bad := lines.filter fun l => ! s.lineOk pl.inst b l.1
            if ! bad.isEmpty then s.streamExtent n k d y.next lines bad
            else
              let y'' := if kind = 2 then { y' with credits := some (y.credits.getD (s.feedLimit pl d) - 1) } else y'
              s.upCl n fun c => c.setStrm (strmKey k d) y'')

/-- The pages that a block's lines touch are zeroed (R496). -/
def State.linesReady (s : State) (lines : List (Int × Nat)) : Bool := lines.all fun l => s.rangeReady l.1.toNat 64

/-- STREAM_BLOCK_COMPLETE (Table 8.2): a block that has started completes. A page not yet zeroed is waited for. A remote block completes
once every one of its requests is answered. -/
def execStreamBlockComplete (n : Fin 576) (p : Fin 8) (c : Fin 4) (desc : Fin 16) (block : Nat) (s : State) : Out :=
  let k := 4 * p.val + c.val
  let d := desc.val
  let pl := (s.cl n).plane p
  let y := (s.cl n).strm (strmKey k d)
  let lines := match s.net.step.bind fun x => s.blockBase x pl c d block with
    | some b => pl.sBlockLines d b block
    | none => []
  let demand (s : State) : State := s.each lines fun t l => if t.rangeReady l.1.toNat 64 then t else t.demand l.1.toNat 64
  .next (if ! y.flying.contains block || s.isFenced n || s.net.step.isNone then s
    else match pl.sKind d with
      | 0 =>
        if ! s.linesReady lines then demand s
        else ((s.moveLines n false lines).inc64 (Reg.STR_BYTES_IN_LO n) (64 * lines.length)).blockDone n k d block
      | 1 =>
        if ! s.linesReady lines then demand s
        else
          let t := (s.moveLines n true lines).inc64 (Reg.STR_BYTES_OUT_LO n) (64 * lines.length)
          if t.net.step.isNone then t else t.blockDone n k d block
      | 2 =>
        if ! s.linesReady lines then demand s
        else
          let t := s.emit (.tile (pl.sd d 11 24 16) (pl.sd d 11 27 25) (s.feedPlane pl d) (k % 4) y.seq false false []
            (lines.flatMap fun l => s.rdBytes l.1.toNat 64))
          let t := (t.upCl n fun c => c.setStrm (strmKey k d) { y with seq := y.seq + 1 }).inc64 (Reg.STR_BYTES_IN_LO n) (64 * lines.length)
          t.blockDone n k d block
      | 3 =>
        if s.pendingUse fun u => match u with | .rload n' k' d' b' _ => n' == n.val && k' == k && d' == d && b' == block | _ => false then s
        else (s.inc64 (Reg.STR_BYTES_IN_LO n) (64 * lines.length)).blockDone n k d block
      | _ =>
        if s.pendingUse fun u => match u with | .rstore n' k' d' b' => n' == n.val && k' == k && d' == d && b' == block | _ => false then s
        else s.blockDone n k d block)

/-! ### Bandwidth presets (R267, R268) -/

/-- A run is in progress on the package. -/
def State.runInProgress (s : State) : Bool := s.net.step.isSome || s.net.seqs.any fun e => e.2.state ≠ .gone

/-- A write of BW_SPLIT (R268): refused while any run is in progress, and with preset 3; a write of 1 clears REFUSED (set wins). -/
def State.bwSplitWrite (s : State) (v : Word) : State :=
  if s.runInProgress || (List.range 4).any fun d => bits v (2 * d + 1) (2 * d) == 3 then s.setF Reg.BW_SPLIT_REFUSED 1
  else s.plain Reg.BW_SPLIT v

/-- BW_SPLIT_WRITE (R268). -/
def execBwSplitWrite (v : Word) (s : State) : Out := .next (s.hostWrite Reg.BW_SPLIT fun t => t.bwSplitWrite v)

/-- BW_PRESET_ADOPT (R268): a controller's next frame begins, under the preset of its die. -/
def execBwPresetAdopt (st : Fin 8) (s : State) : Out :=
  let d := st.val / 2
  .next (s.setCtl st { s.ctl st with preset := bits (s.rg Reg.BW_SPLIT) (2 * d + 1) (2 * d) })

end Sys2Proof.Machine
end

