-- ==== Sys2Proof/Machine/Deadlock.lean ====
section
/-! DEFINITION. The deadlock detector of a region (R87 to R91, R317, R345, R476), the spill, and the wait graph (R323). -/

namespace Sys2Proof.Machine

/-- A context counts as blocked (R87, R281): FREE or DONE, or waiting on a channel, a counter, a barrier, or a stream that has nothing
outstanding and no block pending at its gate. -/
def ClusterSt.blockedCtx (c : ClusterSt) (k : Nat) : Bool :=
  let x := c.ctx k
  match x.st, x.wait with
  | .free, _ | .done, _ => true
  | .waiting, .recv _ _ | .waiting, .credit _ | .waiting, .counter _ _ _ _ | .waiting, .barrier _ => true
  | .waiting, .stream d _ => let y := c.strm (strmKey k d); y.flying.isEmpty && decide (y.b ≤ y.next)
  | _, _ => false

/-- The contexts of a cluster's ACTIVE planes. -/
def ClusterSt.activeCtxs (c : ClusterSt) : List Nat :=
  (List.range 32).filter fun k => (c.plane (k / 4)).st == 3 && decide (k % 4 < (c.plane (k / 4)).contexts)

/-- The working active clusters of a region, and whether all of them are blocked. -/
def State.regionActive (s : State) (g : Nat) : List Nat :=
  ((List.range 18).map (18 * g + ·)).filter fun n => ! s.isFenced n && ! (s.cl n).activeCtxs.isEmpty
def State.regionBlocked (s : State) (g : Nat) : Bool :=
  let l := s.regionActive g
  ! l.isEmpty && l.all fun n => (s.cl n).activeCtxs.all (s.cl n).blockedCtx

/-- The waiting contexts of a region: cluster and context. -/
def State.regionWaits (s : State) (g : Nat) : List (Nat × Nat) :=
  (s.regionActive g).flatMap fun n => ((s.cl n).activeCtxs.filter fun k => ((s.cl n).ctx k).st == .waiting).map fun k => (n, k)

/-- The section of a cluster's ACTIVE planes. -/
def State.sectOf (s : State) (n : Nat) : Nat :=
  match (s.cl n).activePlane, s.net.step with
  | some p, _ => ((s.cl n).plane p).sect
  | none, some x => x.sect
  | none, none => 0

/-- A context waits at a gated barrier that all its participants have reached (R345). -/
def State.atGate (s : State) (n k : Nat) : Bool :=
  match ((s.cl n).ctx k).wait, s.net.step with
  | .barrier b, some x =>
    let sect := s.sectOf n
    let ps := s.participants x.slot sect b
    s.barrierGated sect b && ! ps.isEmpty && ps.all (s.bar (barKey sect b)).arrived.contains
  | _, _ => false

/-- A context waits at a barrier for a participant in a region whose window has not expired (R317). -/
def State.excused (s : State) (n k : Nat) : Bool :=
  match ((s.cl n).ctx k).wait, s.net.step with
  | .barrier b, some x =>
    let sect := s.sectOf n
    (s.participants x.slot sect b).any fun l =>
      ! (s.bar (barKey sect b)).arrived.contains l && ! s.net.expired.contains (l / 16)
  | _, _ => false

/-! ### Spilling (R88, R89) -/

/-- The sender of a receive endpoint's context waits for a credit: its context at a SEND, or the FEED's next block at its gate. -/
def State.senderWaits (s : State) (n p ep c : Nat) : Bool :=
  let x := (s.cl n).plane p
  if x.rb ep 0 29 29 = 1 then
    let dst := s.creditTo x ep
    let m := s.physOf dst.1
    (List.range 8).any fun q => ((s.cl m).plane q).lc == dst.1 && ((s.cl m).plane q).st == 3 &&
      let y := (s.cl m).strm (strmKey (4 * q + c) (dst.2 - 8))
      y.started && decide (y.next < y.b) && y.credits == some 0
  else
    let snd := x.sender ep
    let m := s.physOf snd.1
    (List.range 8).any fun q => ((s.cl m).plane q).lc == snd.1 && ((s.cl m).plane q).st == 3 &&
      ((s.cl m).ctx (4 * q + c)).st == .waiting && ((s.cl m).ctx (4 * q + c)).wait == .credit snd.2

/-- A receive endpoint's share of a context is full of whole tiles not yet taken (R88, R278); halo endpoints hold no buffers to spill. -/
def State.endpointFull (s : State) (n p ep c : Nat) : Bool :=
  let x := (s.cl n).plane p
  let r := (s.cl n).recvEp (epKey (4 * p + c) ep)
  x.rb ep 0 31 31 == 1 && (x.haloOf ep).isNone && decide (0 < x.bpc ep) &&
    (r.tiles.filter fun t => t.spilledAt.isNone).length == x.bpc ep && r.tiles.all fun t => ! t.taken && t.whole

/-- The spill candidate of a region: the lowest logical cluster, then the lowest endpoint (R88); cluster, plane, endpoint, context. -/
def State.spillCandidate (s : State) (g : Nat) : Option (Nat × Nat × Nat × Nat) :=
  ((List.range 16).map (16 * g + ·)).findSome? fun lc =>
    let n := s.physOf lc
    if s.isFenced n then none else
    ((List.range 8).flatMap fun ep => (List.range 8).flatMap fun p => (List.range 4).map fun c => (ep, p, c)).findSome? fun e =>
      let x := (s.cl n).plane e.2.1
      if x.st = 3 ∧ x.lc = lc ∧ s.endpointFull n e.2.1 e.1 e.2.2 ∧ s.senderWaits n e.2.1 e.1 e.2.2 then some (n, e.2.1, e.1, e.2.2) else none

/-- Addresses of the spill area that tiles occupy. -/
def State.spillUsed (s : State) : List Nat :=
  s.clusters.flatMap fun e => e.2.recvs.flatMap fun r => r.2.tiles.filterMap (·.spilledAt)

/-- Free places of 16 KiB of a section's spill area. -/
def State.spillFree (s : State) (slot sect : Nat) : List Nat :=
  let a := (s.slot slot).spill sect
  ((List.range (a.2 / 16384)).map fun i => a.1 + 16384 * i).filter fun x => ! s.spillUsed.contains x

/-- Moves tiles of an endpoint to the spill area, each with a credit to the sender (R88). -/
def State.spillTiles (s : State) (n k ep : Nat) : List Tile → List Nat → State
  | t :: ts, a :: as =>
    let c := s.cl n
    let p := c.plane (k / 4)
    let r := c.recvEp (epKey k ep)
    let data := if t.held.isEmpty then c.rdN (p.bufAddr ep (k % 4) t.seq) t.len else t.bytes
    let u := (s.wrBytes a data).upCl n fun c => c.setRecv (epKey k ep)
      { r with tiles := r.tiles.map fun y => if y.seq == t.seq then { y with spilledAt := some a, held := [] } else y }
    let dst := u.creditTo p ep
    ((u.emit (.credit dst.1 dst.2 (k % 4))).inc (Reg.CH_SPILLS n)).spillTiles n k ep ts as
  | _, _ => s

/-! ### The wait graph (R323, R327) -/

/-- An edge: from, to, target, value. -/
abbrev Edge := Nat × Nat × Word × Word

/-- The node of a cluster counter, a package counter, a barrier and an endpoint (Table 9.7). -/
def counterNode (n i : Nat) : Nat := 2 ^ 29 + clusterStop n * 2 ^ 13 + i
def pkgNode (i : Nat) : Nat := 2 * 2 ^ 29 + hubStop 6 * 2 ^ 13 + i

/-- The stop that holds a barrier's node: the hub's barrier node for a package scope, else the lowest region's first stop (Table 1.4). -/
def barrierStop (ps : List Nat) : Nat :=
  if barrierScope ps = 2 then hubStop 8 else regionStop (ps.headD 0 / 16)

/-- The edges from a waiting context: to what it waits on, and from a counter to its last signaller (R323). -/
def State.ctxEdges (s : State) (n k : Nat) : List Edge :=
  let c := s.cl n
  let x := c.ctx k
  let p := c.plane (k / 4)
  let me := (ctxNode n k).toNat
  match x.wait with
  | .recv ep _ => [(me, 4 * 2 ^ 29 + clusterStop n * 2 ^ 13 + ep, 0, 0)]
  | .credit ep => [(me, 5 * 2 ^ 29 + clusterStop n * 2 ^ 13 + ep, 0, 0)]
  | .counter b _ _ _ =>
    let i := p.counter b (k % 4)
    let e : Edge := (me, counterNode n i, s.waitGoal n k, lo32 (s.cc n i))
    if p.cb b 0 30 29 = 2 then [e, (counterNode n i, pkgNode (p.cb b 0 11 0), 0, 0)]
    else [e, (counterNode n i, s.fd (Reg.CC_HI_LAST_SRC n i) * 2 ^ 13, 0, 0)]
  | .barrier bid =>
    match s.net.step with
    | some y =>
      let ps := s.participants y.slot (s.sectOf n) bid
      [(me, 3 * 2 ^ 29 + barrierStop ps * 2 ^ 13 + bid, BitVec.ofNat 32 ps.length,
        BitVec.ofNat 32 (s.bar (barKey (s.sectOf n) bid)).arrived.length)]
    | none => []
  | _ => []

/-- Follows traced package counters to their last signallers until no new node is reached. -/
def State.follow (s : State) : List Edge → List Edge
  | es =>
    es ++ ((es.filterMap fun e =>
      if e.2.1 / 2 ^ 29 = 2 ∧ e.2.1 % 2 ^ 13 < 256 then some (e.2.1, (s.rg (Reg.TR_LAST (e.2.1 % 2 ^ 13))).toNat, (0 : Word), (0 : Word)) else none).dedup)

/-- Takes the snapshot of a region's wait graph, unless one is held. -/
def State.waitGraph (s : State) (g : Nat) : State :=
  if s.on Reg.WG_STATUS_VALID then s
  else
    let ctxs := s.regionWaits g
    let first := s.follow (ctxs.flatMap fun e => s.ctxEdges e.1 e.2)
    -- a context that signalled a traced counter and waits itself is reached in turn
    let more := first.filterMap fun e =>
      if e.2.1 / 2 ^ 29 = 0 ∧ e.2.2.1 = 0 then
        (s.clusters.findSome? fun c => ((List.range 32).find? fun k => (ctxNode c.1 k).toNat == e.2.1 && (c.2.ctx k).st == .waiting).map fun k => (c.1, k))
      else none
    let es := (first ++ s.follow ((more.filter fun m => ! ctxs.contains m).dedup.flatMap fun e => s.ctxEdges e.1 e.2)).dedup
    let t := s.each ((es.take 256).zipIdx) fun u e =>
      let u := (u.wrg (Reg.WG_FROM e.2) (BitVec.ofNat 32 e.1.1)).wrg (Reg.WG_TO e.2) (BitVec.ofNat 32 e.1.2.1)
      (u.wrg (Reg.WG_TARGET e.2) e.1.2.2.1).wrg (Reg.WG_VALUE e.2) e.1.2.2.2
    let t := t.each ((List.range 256).drop es.length) fun u e =>
      ((u.wrg (Reg.WG_FROM e) 0).wrg (Reg.WG_TO e) 0).wrg (Reg.WG_TARGET e) 0 |>.wrg (Reg.WG_VALUE e) 0
    let t := (t.setF Reg.WG_STATUS_TRUNC (b2n (decide (256 < es.length)))).setF Reg.WG_STATUS_REGION g
    let t := (t.setF Reg.WG_STATUS_EDGES (min es.length 256)).setF Reg.WG_STATUS_VALID 1
    match s.net.step, ctxs.head? with
    | some x, some e => (t.setF Reg.WG_SOURCE_SECTION (s.sectOf e.1)).setF Reg.WG_SOURCE_INSTANCE x.inst
    | _, _ => t

/-- The event *deadlock suspected* of a region (R90): the snapshot, the event, and the instance's bit. -/
def State.suspectDeadlock (s : State) (g : Nat) : State :=
  match (s.regionWaits g).head? with
  | some e => (s.waitGraph g).clusterEvent e.1 7 0 0 0
  | none => s

/-! ### The window (R87 to R90) -/

/-- DEADLOCK_WINDOW_EXPIRE (R87 to R90, R317, R345): the window of a region runs only while all its working active clusters are blocked,
and not while all that wait do so at gated barriers fully reached; where nothing waits there is nothing to suspect. -/
def execDeadlockWindowExpire (g : Fin 32) (s : State) : Out :=
  let waits := s.regionWaits g
  .next (match s.net.step with
    | none => s
    | some x =>
      if ! s.regionBlocked g || waits.isEmpty || waits.all fun e => s.atGate e.1 e.2 then s
      else
        let t := { s with net := { s.net with expired := g.val :: s.net.expired.filter (· ≠ g.val) } }
        let raise (u : State) : State := if waits.all fun e => u.excused e.1 e.2 then u else u.suspectDeadlock g
        match t.spillCandidate g with
        | none => raise t
        | some (n, p, ep, c) =>
          let k := 4 * p + c
          let r := (t.cl n).recvEp (epKey k ep)
          let tiles := r.tiles.filter fun y => y.spilledAt.isNone
          let move := if ((t.cl n).plane p).bpc ep = 1 then tiles else tiles.drop 1
          let places := t.spillFree x.slot (t.sectOf n)
          if places.length < move.length then raise t
          else
            let id := 1024 * n + epKey k ep
            let again := tget 0 (t.net.lastSpill.map fun e => (e.1, e.2 + 1)) g == id + 1
            let u := t.spillTiles n k ep move places
            let u := { u with net := { u.net with expired := u.net.expired.filter (· ≠ g.val), lastSpill := tput u.net.lastSpill g id } }
            if again then u.suspectDeadlock g else u)

end Sys2Proof.Machine
end

