-- ==== Sys2Proof/Machine/Repair.lean ====
section
/-! DEFINITION. Faults and their repair (chapter 17): reports and incidents, fences and the repair map, the other repairs of Table 17.3,
and the failure of the package. -/

namespace Sys2Proof.Machine

/-! ### Answers that refuse a request (R415) -/

/-- An ERROR to the recorded far end of a session, with a code of Table 12.6. -/
def State.sesError (s : State) (n reqId code : Nat) : State :=
  ((s.sesSend n 8 false 0 reqId 0 (leBytes 4 code)).inc Reg.SES_REFUSED).irq 5

/-- A request leaves its session unanswered by a reply. -/
def State.dropRequest (s : State) (n reqId : Nat) : State :=
  let x := s.ses n
  s.setSes n { x with requests := x.requests.filter fun r => r.reqId ≠ reqId }

/-! ### The failure of the package (R566) -/

/-- One sequence of a failed package: a RUN completes with ABANDONED and detail NONE, a request is answered with ERROR NO_PROGRAM. -/
def State.failSeq (s : State) (id : Nat) : State :=
  let q := s.seq id
  match q.desc, q.session with
  | none, some (n, reqId) =>
    if q.state == .gone then s else ((s.setSeq id { q with state := .gone }).sesError n reqId 5).dropRequest n reqId
  | _, _ => s.endSeq id 2 0

/-- Every run stops (R566): nothing more commits, admitted RUNs complete as abandoned, and complete requests are refused. -/
def State.failRuns (s : State) : State :=
  let t := (s.stopClusters).endEpisodes
  let t := match t.net.step with
    | some x => if x.committed then t else t.rollback
    | none => t
  let t := t.each (t.net.seqs.map (·.1)) fun u id => u.failSeq id
  let t := t.each (t.host.descs.filter fun e => e.2.state == .admitted && e.2.opcode == 1) fun u e => u.endDesc e.1 2 0
  let t := t.each t.net.sessions fun u e =>
    u.each (e.2.requests.filter fun r => r.complete && r.reply.isNone) fun v r => (v.sesError e.1 r.reqId 5).dropRequest e.1 r.reqId
  t.setStep none

/-- The package has failed, with the cause of Table 17.9 and the suspect that led to it (R566). -/
def State.packageFailed (s : State) (cause stop unit : Nat) : State :=
  if s.on Reg.FH_SUMMARY_FAILED then s
  else ((((s.setF Reg.FH_SUMMARY_FAILED 1).setF Reg.FH_SUMMARY_CAUSE cause).post 0x18 unit stop 8 0 none none).alert 0).failRuns

/-! ### The repair map (R551, R552) -/

/-- Position p of region g works (RM_g_STATUS.WORKING); the position and fold mark of logical index l. -/
def State.works (s : State) (g p : Nat) : Bool := (s.fd (Reg.RM_STATUS_WORKING g)).testBit p
def State.mapPos (s : State) (g l : Nat) : Nat := s.fd (Reg.RM_ENTRY_POS g l)
def State.mapFold (s : State) (g l : Nat) : Bool := s.on (Reg.RM_ENTRY_FOLD g l)

/-- An entry of the map with its complements (Table 17.7). -/
def mapEntry (pos : Nat) (fold : Bool) : Word :=
  BitVec.ofNat 32 (pos * 2 ^ 27 + b2n fold * 2 ^ 26 + (31 - pos) * 2 ^ 11 + (1 - b2n fold) * 2 ^ 10)

/-- The pairs in the order that a section record gives (Table 2.6). -/
def foldNibbles (w : Word) : List Nat := (List.range 8).map fun i => bits w (4 * i + 3) (4 * i)

/-- The order in which a region folds its pairs: the one that its folds have followed, else that of the section in progress, else
ascending (log entry 60). -/
def State.foldOrderOf (s : State) (g : Nat) : List Nat :=
  match s.repair.foldOrder.find? fun e => e.1 == g with
  | some e => e.2
  | none => match s.net.step with
    | some x =>
      let l := foldNibbles ((tget [] (s.slot x.slot).sections x.sect).getD 1 0)
      if l.dedup.length = 8 ∧ l.all fun q => decide (q < 8) then l else List.range 8
    | none => List.range 8

/-- The position that a logical index, or its folded pair, keeps in the rewrite (R552). -/
def State.keepPos (s : State) (g : Nat) (folds : List Nat) (l : Nat) : Option Nat :=
  let q := l / 2
  if folds.contains q then
    let odd := s.mapPos g (2 * q + 1)
    let even := s.mapPos g (2 * q)
    if s.works g odd then some odd else if s.works g even then some even else none
  else if s.works g (s.mapPos g l) then some (s.mapPos g l) else none

/-- The positions of the 16 logical indices after the rewrite (R552): those kept, and for the others the free working positions in
ascending order. -/
def State.rebind (s : State) (g : Nat) (folds : List Nat) : List Nat :=
  let used := (List.range 16).filterMap (s.keepPos g folds)
  let free := (List.range 18).filter fun p => s.works g p && ! used.contains p
  let need := (List.range 16).filter fun l => (s.keepPos g folds l).isNone && (! folds.contains (l / 2) || l % 2 == 0)
  (List.range 16).map fun l => match s.keepPos g folds l with
    | some p => p
    | none => free.getD (need.idxOf (if folds.contains (l / 2) then l / 2 * 2 else l)) 31

/-- What a position holds: its logical indices. -/
def heldBy (bound : List Nat) (p : Nat) : List Nat := (List.range 16).filter fun l => bound.getD l 31 == p

/-- A cluster whose binding changed (R552): its planes and contexts are not those of its new stage; one that was bound to nothing is zeroed
in full before it serves (Table 6.6). -/
def ClusterSt.rebound (c : ClusterSt) (fresh : Bool) : ClusterSt :=
  { c.stopStep.restartUnits with
    planes := []
    ctxs := []
    cur := none
    switch := none
    zero := if fresh then c.zero ++ [⟨[(0, 0x600000)], true, true, none⟩] else c.zero }

/-- Packets in flight to positions are dropped at the region's switch and counted (R36). -/
def State.dropMesh (s : State) (ns : List Nat) : State :=
  let hit (p : MeshPkt) : Bool := stopKind p.dst.toNat == 0 && ns.contains (stopCluster p.dst.toNat)
  let lost := s.mesh.filter hit
  { s with
    mesh := s.mesh.filter fun p => ! hit p
    meshDropped := lost.foldl (fun t p => tput t (stopRegion p.dst.toNat) (tget 0 t (stopRegion p.dst.toNat) + 1)) s.meshDropped }

/-- A port of the package runs on two lanes (R431). -/
def State.narrowPort (s : State) : Bool :=
  (List.range 16).any fun p => s.portState p == 2 && s.fd (Reg.FL_STATUS_LANES p) == 2

/-- FH_SUMMARY's counts (Table 17.9); a package that becomes degraded posts DEGRADED. -/
def State.summary (s : State) : State :=
  let ones (w v : Nat) : Nat := ((List.range w).filter fun k => v.testBit k).length
  let regs (f : Nat → Nat) : Nat := ((List.range 32).map f).sum
  let folded := regs fun g => ones 8 (s.fd (Reg.RM_STATUS_FOLDED g))
  let empty := regs fun g => s.fd (Reg.RM_STATUS_EXHAUSTED g)
  let bad := decide (0 < folded) || decide (0 < empty) || s.narrowPort
  let t := (s.setF Reg.FH_SUMMARY_WORKING (regs fun g => ones 18 (s.fd (Reg.RM_STATUS_WORKING g)))).setF Reg.FH_SUMMARY_EXHAUSTED empty
  let t := (t.setF Reg.FH_SUMMARY_FOLDED folded).setF Reg.FH_SUMMARY_DEGRADED (b2n bad)
  if bad && ! s.on Reg.FH_SUMMARY_DEGRADED then t.postOpen 0x13 none none else t

/-- RM_g_STATUS after a change of the map or of the working positions. -/
def State.mapStatus (s : State) (g : Nat) : State :=
  let bound := (List.range 16).map (s.mapPos g)
  let spares := ((List.range 18).filter fun p => s.works g p && ! bound.contains p).length
  let folded := ((List.range 8).map fun q => if s.mapFold g (2 * q) then 2 ^ q else 0).sum
  (((s.setF (Reg.RM_STATUS_FOLDED g) folded).setF (Reg.RM_STATUS_SPARES g) spares).setF (Reg.RM_STATUS_EXHAUSTED g)
    (b2n (spares == 0)))

/-- The number of working positions of a region. -/
def State.workCount (s : State) (g : Nat) : Nat := ((List.range 18).filter (s.works g)).length

/-- Rewrites the map of a region after a fence (R552), and tells whether the rewrite folded a pair. Below 8 working positions the package has
failed (R73, R565). -/
def State.rewriteMap (s : State) (g stop : Nat) : State × Bool :=
  let k := s.workCount g
  if k < 8 then (s.packageFailed 1 stop 0, false)
  else
    let order := s.foldOrderOf g
    let folds := if k < 16 then order.take (16 - k) else []
    let before := (List.range 16).map (s.mapPos g)
    let after := s.rebind g folds
    let newFold := folds.any fun q => ! s.mapFold g (2 * q)
    let moved := (List.range 18).filter fun p => s.works g p && (heldBy before p != heldBy after p ||
      (heldBy after p).any fun l => folds.contains (l / 2) != s.mapFold g l)
    let t := s.each (List.range 16) fun u l => u.wrg (Reg.RM_ENTRY g l) (mapEntry (after.getD l 31) (folds.contains (l / 2)))
    let t := t.each moved fun u p => u.upCl (18 * g + p) fun c => c.rebound (heldBy before p).isEmpty
    let gone := (List.range 18).filter fun p => ! s.works g p
    let t := t.dropMesh ((moved ++ gone).map (18 * g + ·))
    let t := if newFold then { t with repair := { t.repair with foldOrder := tput t.repair.foldOrder g order } } else t
    let t := (t.mapStatus g).summary
    (if newFold then t.post 0x12 0 stop 2 0 none none else t, newFold)

/-- A cluster is fenced (R550): its port closes, its clock is gated, it neither lends nor draws budget, and it is never used again before
cold reset; then the map is rewritten. The answer tells whether a pair was folded. -/
def State.fenceCluster (s : State) (n : Nat) : State × Bool :=
  if s.isFenced n then (s, false)
  else
    let g := n / 18
    let t := (s.stopLend n).upCl n fun c => c.stopStep.restartUnits
    let t := { t with repair := { t.repair with
      fenced := t.repair.fenced ++ [n], fenceCount := tput t.repair.fenceCount n (tget 0 t.repair.fenceCount n + 1) } }
    let t := t.setF (Reg.RM_STATUS_WORKING g) (t.fd (Reg.RM_STATUS_WORKING g) &&& (2 ^ 18 - 1 - 2 ^ (n % 18)))
    (t.inc (Reg.RM_FENCES g)).rewriteMap g (clusterStop n)

/-! ### The other repairs (R215, R554, R555, R556) -/

/-- The spare bank of a cluster is in use, or a copy to it runs. -/
def State.spareUsed (s : State) (n : Nat) : Bool := s.on (Reg.SP_BANK_MAP_USED n) || (s.cl n).migrating.isSome

/-- Maps a bank to the spare, which is zeroed (R215). -/
def State.mapSpare (s : State) (n b : Nat) : State :=
  let t := ((s.setF (Reg.SP_BANK_MAP_USED n) 1).setF (Reg.SP_BANK_MAP_BANK n) b).setF (Reg.SP_BANK_MAP_USED_N n) 0
  (t.setF (Reg.SP_BANK_MAP_BANK_N n) (31 - b)).upCl n fun c => { c with sp := c.sp.filter fun e => e.1 / 64 % 32 ≠ b }

/-- Writes a plane of a cluster again from the image copy (R554). -/
def State.rewritePlane (s : State) (n p : Nat) : State :=
  s.upCl n fun c =>
    let x := c.plane p
    c.setPlane p { x with words := tget x.words (s.slot x.slot).planes x.key }

/-- Fences a cluster as an incident's action: FENCE, or FENCE_FOLD where the rewrite folds a pair. -/
def State.fenceAction (s : State) (n : Nat) : State × Nat :=
  let r := s.fenceCluster n
  (r.1, if r.2 then 2 else 1)

/-- The 4 KiB page of DRAM that a DETAIL of UNIT 10 names on a stack (R489). -/
def stackPage (st p : Nat) : Nat := st / 2 * (96 * 2 ^ 18) + 2 * p + st % 2

/-- Restores a page by its backing tag (R555). The source of the copy is unchanged, so that a restoration that succeeds gives the page its
bytes; one that fails, and a page without a copy, is lost (R494). -/
def State.restorePage (s : State) (st p : Nat) (restored : Bool) : State :=
  let page := stackPage st p
  if tget 0 s.mem.tags page ≠ 0 && restored then s
  else s.dataLost ((s.net.step.map fun x => x.inst).getD 0) (page * 4096)

/-- Units of paths and endpoints inside the package, which escalate (R556). -/
def escalates (r : Report) : Bool := ! r.byCount && [6, 7, 8, 9, 17, 18].contains r.unit

/-- Incidents that a suspect has opened within 10 s, this one among them. -/
def State.escalation (s : State) (same : Report → Report → Bool) (r : Report) : Nat :=
  1 + (s.repair.escalation.filter fun e => same e.1 r && decide (s.clk < e.2 + us (10 * 10 ^ 6))).length

/-- Two reports name the same suspect (R543). -/
def sameSuspect (a b : Report) : Bool :=
  a.stop == b.stop && a.unit == b.unit && (! [3, 4, 10, 12, 13, 14].contains a.unit || a.detail == b.detail)

/-- A plane word of a cluster was found uncorrectable within the last 24 h (R554). -/
def State.wordAgain (s : State) (r : Report) : Bool :=
  s.repair.planeWords.any fun e => sameSuspect e.1 r && decide (s.clk < e.2 + us (24 * 3600 * 10 ^ 6))

/-- The cluster that a stop names, where it names one. -/
def stopUnit (stop : Nat) : Option Nat := if stopKind stop = 0 ∧ stopCluster stop < 576 ∧ stop % 32 < 18 then some (stopCluster stop) else none

/-- The repair of Table 17.2 for a report: the state with the repair made or begun, the action code, and whether the step replays. -/
def State.repairFor (s : State) (r : Report) (restored : Bool) : State × Nat × Bool :=
  let esc := s.escalation sameSuspect r
  let fence (n : Nat) : State × Nat × Bool := let f := s.fenceAction n; (f.1, f.2, true)
  match r.unit, stopUnit r.stop with
  | 1, some n => fence n
  | 0, some n => fence n
  | 0, none => (s, 6, true)
  | 3, some n =>
    if s.spareUsed n || decide (31 < r.detail) then fence n
    else if r.byCount then (s.upCl n fun c => { c with migrating := some (r.detail, false) }, 3, false)
    else (s.mapSpare n r.detail, 3, true)
  | 4, some n =>
    if s.wordAgain r then fence n
    else
      let t := s.rewritePlane n (r.detail / 2 ^ 21)
      ({ t with repair := { t.repair with planeWords := t.repair.planeWords ++ [(r, s.clk)] } }, 4, true)
  | 6, some n | 7, some n => if r.byCount then (s, 0, false) else if 3 ≤ esc then fence n else (s, 6, true)
  | 9, _ => if r.byCount then (s, 7, false) else if 3 ≤ esc then (s, 7, true) else (s, 6, true)
  | 6, none | 7, none | 8, _ | 17, _ | 18, _ => if r.byCount then (s, 0, false) else (s, 6, true)
  | 10, _ =>
    if r.byCount then (s, 0, false)
    else (s.restorePage (r.stop % 2 ^ 10) r.detail restored, 5, true)
  | _, _ => (s, 0, false)

/-! ### Collectors (R545 to R549) -/

/-- The collector of a suspect stop: its region's, or 32 for the package collector (R545). -/
def collectorOf (stop : Nat) : Nat :=
  if 4 ≤ stop / 2 ^ 13 then 32
  else if stopKind stop = 0 then stopRegion stop % 32
  else if stopKind stop = 1 then (8 * (stop / 2 ^ 13) + stop % 2 ^ 10) % 32
  else 32

def noCollector : Collector := ⟨[], [], false⟩
def State.collector (s : State) (c : Nat) : Collector := tget noCollector s.repair.collectors c

/-- Stores a collector, and FC_g_STATUS that shows it. -/
def State.setCollector (s : State) (c : Nat) (x : Collector) : State :=
  let t := { s with repair := { s.repair with collectors := tput s.repair.collectors c x } }
  (t.setF (Reg.FC_STATUS_OPEN c) x.slots.length).setF (Reg.FC_STATUS_QUEUED c) x.queue.length

/-- A report merged into an open incident, or about a fenced cluster, is counted (R546, R547). -/
def State.coalesced (s : State) (c : Nat) : State := (s.inc (Reg.FC_COALESCED c)).inc Reg.FH_COALESCED

/-- The lowest free slot of a collector. -/
def Collector.freeSlot (x : Collector) : Option Nat := (List.range 32).find? fun k => ! thas x.slots k

/-- The class of an incident's event: COMPLEMENT_MISMATCH on a path, INCIDENT otherwise (R564, R571). -/
def incidentClass (r : Report) : Nat := if ! r.byCount && [7, 8, 9, 12, 15, 16, 17, 18].contains r.unit then 4 else 0x10

/-- The step in progress replays (R544, R560): a fault reported before its commit point. -/
def State.orderReplay (s : State) : State :=
  match s.net.step with
  | some x => if x.committed then s else s.setStep (some { x with replayDue := true })
  | none => s

/-- A step is in progress that a fault would replay. -/
def State.stepOpen (s : State) : Bool := s.net.step.any fun x => ! x.committed

/-- Opens an incident in a free slot (R546): the repair starts, the event is posted, and the replay is ordered. -/
def State.openIncident (s : State) (c k : Nat) (r : Report) (restored : Bool) : State :=
  let f := s.repairFor r restored
  let replay := f.2.2 && s.stepOpen
  let t := f.1
  let t := if escalates r then { t with repair := { t.repair with escalation := t.repair.escalation ++ [(r, s.clk)] } } else t
  let x := t.collector c
  let t := t.setCollector c { x with slots := tput x.slots k ⟨r, f.2.1, if replay then 1 else 2, s.clk, 0⟩ }
  let lc := (stopUnit r.stop).bind fun n => (s.lcsOf n).head?
  let t := (t.inc Reg.FH_INCIDENTS).post (incidentClass r) r.unit r.stop f.2.1 r.detail (s.net.step.map fun x => (x.inst, x.sect)) lc
  if replay then t.orderReplay else t

/-- The open incident of a suspect. -/
def Collector.find (x : Collector) (r : Report) : Option (Nat × Incident) := x.slots.find? fun e => sameSuspect e.2.report r

/-- A report reaches its collector (R546 to R548). -/
def State.takeReport (s : State) (r : Report) (restored : Bool) : State :=
  let c := collectorOf r.stop
  let x := s.collector c
  match x.find r with
  | some (k, i) => (s.setCollector c { x with slots := tput x.slots k { i with reports := i.reports + 1 } }).coalesced c
  | none =>
    if (stopUnit r.stop).any s.isFenced then s.coalesced c
    else match x.freeSlot with
      | some k => s.openIncident c k r restored
      | none =>
        if x.queue.length < 1024 then s.setCollector c { x with queue := x.queue ++ [r] }
        else (s.setCollector c { x with lost := true }).inc Reg.FH_LOST

/-! ### Faults beyond repair (R45, R551) -/

/-- Whether a bridge link still carries traffic: its spare stands in for one group at most (R41). -/
def BridgeSt.carries (b : BridgeSt) : Bool := decide (b.failed.length ≤ 1)

/-- The bridge that a stop of KIND 4 names carries nothing on any of its links: ring bridges have one link, hub bridges two (R41). -/
def State.bridgeDead (s : State) (stop : Nat) : Bool :=
  (List.range 8).any fun b =>
    stop == b % 4 * 2 ^ 13 + 4 * 2 ^ 10 + (if b < 4 then (b + 1) % 4 else 4) &&
      (List.range (if b < 4 then 1 else 2)).all fun l => ! (tget noBridge s.bridges (2 * b + l)).carries

/-- Both DRAM stacks of the die of a stop are beyond repair (R493). -/
def State.stacksDead (s : State) (stop : Nat) : Bool :=
  let d := stop / 2 ^ 13 % 4
  ! s.on (Reg.DRAM_STATUS_UP (2 * d)) && ! s.on (Reg.DRAM_STATUS_UP (2 * d + 1)) && s.on Reg.GS_STATUS_READY

/-- The cause of Table 17.9 for a report beyond repair, if it is one; `beyond` says that the fault leaves what it names unable to carry traffic,
or has taken both copies of a map entry. -/
def State.failCause (s : State) (r : Report) (beyond : Bool) : Option Nat :=
  if r.unit = 11 ∧ s.stacksDead r.stop then some 4
  else if r.unit = 9 ∧ r.byCount ∧ s.bridgeDead r.stop then some 3
  else if ! beyond then none
  else if r.unit = 17 then some 5
  else if r.unit = 10 ∨ r.unit = 11 then some 4
  else some 3

/-- FAULT_REPORT (R543 to R548): the report named, one on its way or one that the detection makes now, reaches its collector. -/
def execFaultReport (stop : BitVec 16) (unit : BitVec 8) (detail : BitVec 24) (byCount beyond restored : Bool) (s : State) : Out :=
  let r : Report := ⟨stop.toNat, unit.toNat, detail.toNat, byCount⟩
  let t := { s with repair := { s.repair with inFlight := s.repair.inFlight.erase r } }
  let t := t.takeReport r restored
  .next (match s.failCause r beyond with
    | some cause => t.packageFailed cause r.stop r.unit
    | none => t)

/-- The repair of an incident has not ended: zeroing of the region's clusters, a bank's copy, or a controller's copy goes on. -/
def State.repairing (s : State) (i : Incident) : Bool :=
  match i.action with
  | 1 | 2 => (List.range 18).any fun p => let c := s.cl (stopRegion i.report.stop * 18 + p); c.zeroing || ! c.zero.isEmpty
  | 3 => (stopUnit i.report.stop).any fun n => (s.cl n).migrating.isSome
  | _ =>
    if i.report.unit = 10 ∨ i.report.unit = 11 then
      let st := i.report.stop % 2 ^ 10
      (s.ctl st).copying.isSome || (s.ctl st).swapping.isSome || (i.report.unit == 11 && s.on (Reg.DRAM_STATUS_MIGRATING st))
    else false

/-- The replay that an incident ordered has not ended. -/
def State.replayPending (s : State) (i : Incident) : Bool :=
  i.state == 1 && s.net.step.any fun x => x.replayDue || x.replaying

/-- A slot has become free: the incident for lost reports opens first, on the collector's own stop, else the oldest queued report is taken
(R548). The manual gives the package collector no stop: its INDEX is a free value. -/
def State.serveQueue (s : State) (c : Nat) : State :=
  let x := s.collector c
  match x.freeSlot with
  | none => s
  | some k =>
    if x.lost then
      let stop := if c < 32 then (regionStop c, s) else (4 * 2 ^ 13 + 5 * 2 ^ 10 + bits s.free.1 9 0, s.free.2)
      (stop.2.setCollector c { x with lost := false }).openIncident c k ⟨stop.1, 0, 0, false⟩ true
    else match x.queue with
      | r :: rs => (s.setCollector c { x with queue := rs }).takeReport r true
      | [] => s

/-- Serves the intake queue while a slot is free. -/
def State.serveQueues (s : State) (c : Nat) : Nat → State
  | 0 => s
  | n + 1 => (s.serveQueue c).serveQueues c n

/-- INCIDENT_CLOSE (R547, R548): 1 ms after its opening an incident closes, once its repair and its replay have ended; then the intake queue
is served. -/
def execIncidentClose (c : Fin 33) (k : Fin 32) (s : State) : Out :=
  let x := s.collector c
  .next (match x.slots.find? fun e => e.1 == k.val with
    | some (_, i) => if s.repairing i || s.replayPending i then s else (s.setCollector c { x with slots := tdel x.slots k }).serveQueues c (x.queue.length + 1)
    | none => s)

end Sys2Proof.Machine
end

