-- ==== Sys2Proof/Machine/Power.lean ====
section
/-! DEFINITION. Power, clocks, heat and Rest (chapter 18). Draws are in 0.1 W, energies in 0.1 µJ, frequencies in MHz. -/

namespace Sys2Proof.Machine

def State.setPower (s : State) (p : PowerSt) : State := { s with power := p }

/-- A bit of PWR_EVENTS sets, and with it IRQ_STATUS.POWER (R600). -/
def State.powerEvent (s : State) (x : Fld) : State := (s.setF x 1).irq 4

/-! ### Frequencies (R576, R578 to R586, R590) -/

/-- The fused and the current maximum of a physical cluster (R579, R580). -/
def fusedMax (n : Nat) : Nat := 1260 + 10 * (Config.fusedSteps n % 20)
def State.fmax (s : State) (n : Nat) : Nat := fusedMax n - 10 * tget 0 s.power.falls n

/-- The effective cap (R575, R592), in 0.1 W: the thermal limit counts while throttling. -/
def State.effectiveCap (s : State) : Nat :=
  let c := 10 * s.fd Reg.PWR_CTRL_CAP_W
  if s.on Reg.PWR_STATUS_THROTTLE then min c s.power.thermLimit else c

/-- The floor of R590 is in force: VR_ALERT_N's, that of 110 °C, or that of a shutdown (R625). -/
def State.floored (s : State) : Bool :=
  s.on Reg.PWR_STATUS_FLOOR || s.on Reg.PWR_STATUS_HOT_FLOOR || s.on Reg.GS_STATUS_SHUTTING_DOWN

/-- Table 18.2: effective cap in 0.1 W and guaranteed mean frequency. -/
def guaranteeRows : List (Nat × Nat) := [(3000, 1200), (2500, 1080), (2000, 910), (1500, 730), (1200, 600)]

/-- The guaranteed frequency of a cap, interpolated between the rows and rounded down to 10 MHz (R584). -/
def guaranteed (cap : Nat) : List (Nat × Nat) → Nat
  | (c1, f1) :: (c0, f0) :: rows =>
    if c1 ≤ cap then f1
    else if c0 ≤ cap then (f0 + (f1 - f0) * (cap - c0) / (c1 - c0)) / 10 * 10
    else guaranteed cap ((c0, f0) :: rows)
  | [(_, f)] => f
  | [] => 0

/-- The highest grid frequency under the ceiling of R584: each active cluster is held to it, which holds their mean to it (log entry 91). -/
def ceilingGrid (cap : Nat) : Nat := guaranteed cap guaranteeRows * 104 / 100 / 10 * 10

/-- The common frequency of the first 10 ms (R578): at most 1,200 MHz, with the 457 W of Table 18.1's peaks at 1,450 MHz scaled to it
(log entry 92). -/
def startGrid (cap : Nat) : Nat := min 1200 (max 300 (cap * 1450 / 4570 / 10 * 10))

/-- The frequency granted to a physical cluster. -/
def State.grant (s : State) (n : Nat) : Nat :=
  let cap := s.effectiveCap
  if s.isFenced n || s.power.trip || s.fd Reg.PWR_STATUS_STATE = 3 then 0
  else if s.floored then 300
  else if s.on Reg.PWR_CTRL_MODE && ! s.power.byFreq then 1200
  else if (s.cl n).lending.isSome then 300
  else if s.fd Reg.PWR_STATUS_STATE = 0 then min (s.fmax n) (startGrid cap)
  else
    let f := min (s.fmax n) ((tget (0, 0) s.power.budgets (n / 18)).2 / 10 * 10)
    let f := if s.power.byFreq then min f 1200 else if s.on Reg.PWR_CTRL_GUARD then min f (ceilingGrid cap) else f
    max 300 f

/-- The active clusters: those that the repair map binds, and that are not fenced. -/
def State.activeClusters (s : State) : List Nat := ((List.range 512).map s.physOf).dedup.filter fun n => ! s.isFenced n

/-- The highest frequency granted on a die. -/
def State.dieTop (s : State) (d : Nat) : Nat := ((List.range 144).map fun k => tget 0 s.power.granted (144 * d + k)).foldl max 0

/-- Grants frequencies anew (R576); the core rail of each die whose highest grant changed is set (R577). The voltages that the frequencies require
are free values. -/
def State.regrant (s : State) : State :=
  let t := s.setPower { s.power with granted := (List.range 576).map fun n => (n, s.grant n) }
  let t := t.setF Reg.PWR_FREQ_MIN_FMAX_MHZ ((((List.range 576).filter fun n => ! s.isFenced n).map s.fmax).foldl min 1450)
  t.each (List.range 4) fun u d =>
    if u.dieTop d = s.dieTop d then u
    else
      let v := u.free
      v.2.emit (.avs d v.1.toNat)

/-! ### The control period (R573 to R576) -/

/-- The mean of a list of readings. -/
def meanOf (l : List Nat) : Nat := if l.isEmpty then 0 else l.sum / l.length

/-- PWR_NOW, PWR_FREQ and CAP_MS after a period (Table 18.7): means over the last 1 ms. -/
def State.showPower (s : State) (draw : Nat) : State :=
  let act := s.activeClusters
  let m := meanOf (act.map fun n => tget 0 s.power.granted n)
  let p := { s.power with
    draws := (draw :: s.power.draws).take 1000, means := (m :: s.power.means).take 1000
    energy := s.power.energy + draw, periods := s.power.periods + 1, ticks := (s.power.ticks + 1) % 1000 }
  let t := s.setPower p
  let now := meanOf p.draws
  let cap := s.effectiveCap
  let t := ((t.setF Reg.PWR_NOW_DECIWATTS now).setF Reg.PWR_LIMIT_DECIWATTS cap).setF Reg.PWR_FREQ_MEAN_MHZ (meanOf p.means)
  t.cond (p.ticks == 0 && decide (100 * now ≤ 101 * cap) && decide (99 * cap ≤ 100 * now)) fun u => u.inc Reg.CAP_MS

/-- A region's command arrives (R575): one whose complement fails is discarded, and its region keeps its previous budget. -/
def State.takeBudget (s : State) (g : Nat) (b : Nat × Nat) (bad : Bool) : State :=
  if bad then s.cplMismatch (some Reg.PWR_CMD_DISCARD) (regionStop g) 18 0
  else s.setPower { s.power with budgets := tput s.power.budgets g b }

/-- POWER_CONTROL_PERIOD (R575). `draw` is the package's draw in the period, `others` that of the consumers outside the array, and `cmds` the
controller's commands by region: the budget in 0.1 W, the frequency that a share covers, and whether the complement fails. The manual leaves to
the controller how it divides: the budgets need only fit the effective cap. In Rest there is no array to budget. -/
def execPowerControlPeriod (draw others : Nat) (cmds : List (Nat × Nat × Bool)) (s : State) : Out :=
  .next (
    if 2 ≤ s.fd Reg.PWR_STATUS_STATE ∨ s.power.trip then s.showPower draw
    else if cmds.length ≠ 32 ∨ s.effectiveCap < others + (cmds.map fun c => c.1).sum then s
    else
      let t := s.each (cmds.mapIdx fun g c => (g, c)) fun u c => u.takeBudget c.1 (c.2.1, c.2.2.1) c.2.2.2
      t.regrant.showPower draw)

/-- STARTUP_END (R578). -/
def execStartupEnd (s : State) : Out :=
  .next (if s.fd Reg.PWR_STATUS_STATE = 0 then (s.setF Reg.PWR_STATUS_STATE 1).regrant else s)

/-- AGEING_CHECK (R580, R581): a margin below the guard lowers the cluster's maximum by 10 MHz; one that would fall below 1,200 MHz is reported. -/
def execAgeingCheck (n : Fin 576) (low : Bool) (s : State) : Out :=
  .next (if ! low || s.isFenced n then s
    else
      let t := (s.setPower { s.power with falls := tput s.power.falls n (tget 0 s.power.falls n + 1) }).powerEvent Reg.PWR_EVENTS_AGEING_STEP
      (t.cond (decide (t.fmax n < 1200)) fun u => u.report (clusterStop n) 0 0 false).regrant)

/-! ### PWR_CTRL (R574, R583) -/

/-- A run is in progress on the package. -/
def State.anyRun (s : State) : Bool := s.net.seqs.any fun e => e.2.state ≠ .gone

/-- A write of PWR_CTRL: a cap out of range, or a change of MODE during a run, refuses it. Setting MODE starts the debt at 0. -/
def State.powerWrite (s : State) (v : Word) : State :=
  let s := s.cond (bit v 31) fun t => t.setF Reg.PWR_CTRL_REFUSED 0
  let cap := bits v 8 0
  let change := bit v 30 ≠ s.on Reg.PWR_CTRL_MODE
  if cap < 120 ∨ 300 < cap ∨ (change ∧ s.anyRun) then s.setF Reg.PWR_CTRL_REFUSED 1
  else
    let t := ((s.setF Reg.PWR_CTRL_MODE (b2n (bit v 30))).setF Reg.PWR_CTRL_GUARD (b2n (bit v 29))).setF Reg.PWR_CTRL_CAP_W cap
    if ! change then t
    else
      let t := t.setPower { t.power with debt := 0, energy := 0, periods := 0, broken := false, byFreq := false }
      let t := t.cond (bit v 30) fun u => (u.wrg Reg.PWR_DEBT 0).setF Reg.PWR_P_IDLE_DECIWATTS 1200
      (t.cond (bit v 30) fun u => u.each (u.clusters.map (·.1)) State.stopLend).regrant

/-- PWR_CTRL_WRITE (R574). -/
def execPwrCtrlWrite (v : Word) (s : State) : Out := .next (s.hostWrite Reg.PWR_CTRL fun t => t.powerWrite v)

/-! ### The energy debt (R587, R588) -/

/-- D after an interval (R587, rule 1); the energy and time counts start again. -/
def State.formDebt (s : State) : State :=
  let p := s.power
  let d := p.debt + p.energy - s.effectiveCap * p.periods
  (s.setPower { p with debt := d, energy := 0, periods := 0 }).wrg Reg.PWR_DEBT (BitVec.ofNat 32 (d / 10))

/-- The boundary after a committed step in fixed-frequency mode: a broken step is counted; then a gap, or enforcement by frequency, or neither. -/
def State.powerBoundary (s : State) : State :=
  if ! s.on Reg.PWR_CTRL_MODE then s.setPower { s.power with energy := 0, periods := 0, broken := false }
  else
    let ts := s.power.periods
    let t := s.cond s.power.broken fun u => (u.inc Reg.FIXED_BROKEN).powerEvent Reg.PWR_EVENTS_FIXED_BROKEN
    let c := t.effectiveCap
    let idle := t.fd Reg.PWR_P_IDLE_DECIWATTS
    let acting := t.floored || t.on Reg.PWR_STATUS_THROTTLE
    if c < idle + 100 then
      let u := t.setPower { t.power with debt := 0, energy := 0, periods := 0, broken := true, byFreq := true }
      (u.wrg Reg.PWR_DEBT 0).regrant
    else if t.power.byFreq then
      let u := t.setPower { t.power with debt := 0, energy := 0, periods := 0, broken := acting, byFreq := false }
      (u.wrg Reg.PWR_DEBT 0).regrant
    else
      let u := t.formDebt
      u.setPower { u.power with broken := acting, gap := decide ((c - idle) * ts ≤ u.power.debt) && decide (0 < ts) }

/-- GAP_END (R587): the gap's energy enters the debt, its mean draw becomes P_IDLE, and the next step may be released. -/
def execGapEnd (s : State) : Out :=
  .next (if ! s.power.gap then s
    else
      let idle := if s.power.periods = 0 then s.fd Reg.PWR_P_IDLE_DECIWATTS else s.power.energy / s.power.periods
      let t := (s.formDebt.setF Reg.PWR_P_IDLE_DECIWATTS idle).inc Reg.IDLE_GAPS
      t.setPower { t.power with gap := false })

/-! ### Droop and the floor (R589, R590) -/

/-- DROOP, DROOP_END (R589). -/
def execDroop (g : Fin 32) (s : State) : Out :=
  .next (if s.power.stretch.contains g.val then s
    else (s.setPower { s.power with stretch := s.power.stretch ++ [g.val] }).inc Reg.DROOP_EVENTS)
def execDroopEnd (g : Fin 32) (s : State) : Out := .next (s.setPower { s.power with stretch := s.power.stretch.erase g.val })

/-- VR_ALERT (R590): every cluster goes to the floor. -/
def execVrAlert (s : State) : Out :=
  .next (if s.power.alert then s
    else
      let t := ((s.setF Reg.PWR_STATUS_FLOOR 1).inc Reg.VR_ALERTS).powerEvent Reg.PWR_EVENTS_VR_ALERT
      (t.setPower { t.power with alert := true, floorCount := false, broken := true }).regrant)

/-- VR_ALERT_DEASSERT (R590): the 100 µs to the end of the floor start, or start again. -/
def execVrAlertDeassert (s : State) : Out :=
  .next (if s.power.alert then s.setPower { s.power with alert := false, floorCount := true } else s)

/-- FLOOR_END (R590). -/
def execFloorEnd (s : State) : Out :=
  .next (if s.power.floorCount && ! s.power.alert then
    ((s.setF Reg.PWR_STATUS_FLOOR 0).setPower { s.power with floorCount := false }).regrant
  else s)

/-! ### Heat (R591 to R594) -/

/-- The readings of a die that lie from −55 °C to 150 °C, and their median in units of 1/32 °C: the mean of the middle two of an even number. -/
def inSensorRange (t : Int) : Bool := decide (-880 ≤ t) && decide (t ≤ 2400)
def median2 (l : List Int) : Int :=
  let s := sortBy (fun a b => decide (a ≤ b)) l
  s.getD ((s.length - 1) / 2) 0 + s.getD (s.length / 2) 0

/-- Good sensors of a die and its temperature (R591): too few good sensors are taken as 100 °C. -/
def dieTemp (least : Nat) (ts : List Int) : Nat × Int :=
  let ok := ts.filter inSensorRange
  let m := median2 ok
  let good := ok.filter fun t => decide ((2 * t - m).natAbs ≤ 320)
  (good.length, if good.length < least then 1600 else good.foldl max (-880))

/-- The hottest of the dies and its number, the lowest among equals (log entry 93). -/
def hottest : Nat → List (Nat × Int) → Nat × Int
  | d, [x] => (d, x.2)
  | d, x :: xs => let r := hottest (d + 1) xs; if r.2 ≤ x.2 then (d, x.2) else r
  | d, [] => (d, 0)

/-- The hottest reading, as TH_HOT shows it. -/
def State.hot (s : State) : Int := toSigned 16 (s.fd Reg.TH_HOT_TEMP)

/-- The duty of the fan (R594), in %; TH_WARN and temperatures in 1/16 °C. A line's value between whole percents is rounded down. -/
def State.fanDuty (s : State) : Nat :=
  let t := s.hot
  let lo : Int := 16 * s.fd Reg.FAN_CTRL_T_LOW
  let hi : Int := 16 * s.fd Reg.FAN_CTRL_T_HIGH
  let least := s.fd Reg.FAN_CTRL_MIN_DUTY
  if hi ≤ t ∨ (s.fd Reg.TH_WARN_TEMP : Int) ≤ t then 100
  else if t ≤ lo then least
  else least + ((100 - least : Nat) * (t - lo) / (hi - lo)).toNat

/-- FAN_PWM follows the hottest reading, except while the controller is reset or the hub is dead (R622, R624), when it is at 100 %. -/
def State.driveFan (s : State) : State :=
  let d := if s.mgmt.controllerReset || s.mgmt.hubDead then 100 else s.fanDuty
  { s.setF Reg.FAN_STATUS_DUTY d with pins := { s.pins with fanPwm := d } }

/-- A thermal trip (R593). -/
def State.thermTrip (s : State) : State :=
  if s.power.trip then s
  else
    let t := (s.setF Reg.PWR_STATUS_TRIPPED 1).powerEvent Reg.PWR_EVENTS_THERM_TRIP
    { (t.setPower { t.power with trip := true }).regrant with pins := { t.pins with thermTripN := true } }

/-- What the thresholds of Table 18.4 do at a reading, after one before it. -/
def State.thermActs (s : State) (before : Int) : State :=
  let t := s.hot
  let warn : Int := s.fd Reg.TH_WARN_TEMP
  let s := s.cond (decide (warn ≤ t) && ! decide (warn ≤ before)) fun u => (u.powerEvent Reg.PWR_EVENTS_THERM_WARN).alert 3
  let s := s.cond (decide (1600 ≤ t) && ! s.on Reg.PWR_STATUS_THROTTLE) fun u =>
    ((u.setF Reg.PWR_STATUS_THROTTLE 1).setPower { u.power with thermLimit := u.fd Reg.PWR_NOW_DECIWATTS, broken := true }).powerEvent
      Reg.PWR_EVENTS_THROTTLE_START
  let s := if 1760 ≤ t then ((s.setF Reg.PWR_STATUS_HOT_FLOOR 1).setPower { s.power with broken := true }).regrant
    else if t ≤ 1680 ∧ s.on Reg.PWR_STATUS_HOT_FLOOR then (s.setF Reg.PWR_STATUS_HOT_FLOOR 0).regrant else s
  if 1840 ≤ t then s.thermTrip else s

/-- THERMAL_SAMPLE (R591, R592): the readings of the sensors by die, the hub last, in 1/16 °C. -/
def execThermalSample (temps : List (List Int)) (s : State) : Out :=
  .next (if temps.length ≠ 5 then s
    else
      let dies := temps.mapIdx fun d ts => dieTemp (if d = 4 then 2 else 8) ts
      let before := s.hot
      let t := s.each (dies.mapIdx fun d x => (d, x)) fun u e =>
        (u.setF (Reg.TH_DIE_GOOD e.1) e.2.1).setF (Reg.TH_DIE_TEMP e.1) (ofSigned 16 e.2.2)
      let h := hottest 0 dies
      let t := (t.setF Reg.TH_HOT_DIE h.1).setF Reg.TH_HOT_TEMP (ofSigned 16 h.2)
      (t.thermActs before).driveFan)

/-- THROTTLE_STEP (Table 18.4): each ms the thermal limit falls or rises by 3 W; between 97 °C and 100 °C it stays. -/
def execThrottleStep (s : State) : Out :=
  .next (if ! s.on Reg.PWR_STATUS_THROTTLE then s
    else
      let t := s.inc Reg.THROTTLE_MS
      let l := t.power.thermLimit
      if 1600 ≤ t.hot then t.setPower { t.power with thermLimit := l - 30, broken := true }
      else if t.hot ≤ 1552 then
        let u := t.setPower { t.power with thermLimit := l + 30 }
        u.cond (decide (10 * u.fd Reg.PWR_CTRL_CAP_W < l + 30)) fun v => v.setF Reg.PWR_STATUS_THROTTLE 0
      else t)

/-! ### Rest (R595 to R598) -/

/-- What refuses a request to enter Rest (R596). -/
def State.restBusy (s : State) : Bool :=
  (s.host.descs.any fun e => e.2.state ≠ .fetched) ||
  (s.net.sessions.any fun e => e.2.opened && e.2.requests.any fun r => r.reply.isNone) ||
  s.on Reg.MAINT_STATUS_BUSY || s.store.writing.isSome || s.images.active.isSome ||
  ((List.range 64).any fun i => let q := tget ⟨0, 0⟩ s.store.fetch i
    s.on (Reg.STF_CTRL_EN i) && decide (q.base + q.next < s.pc (s.fd (Reg.STF_CTRL_REQ i)))) ||
  s.on Reg.PWR_CTRL_MODE || s.power.trip

/-- A request to enter Rest (R596): accepted, refused, or in the cycle of a wake trigger prevented. -/
def State.restRequest (s : State) (woken : Bool) : State :=
  if 2 ≤ s.fd Reg.PWR_STATUS_STATE then s
  else if s.restBusy then (s.powerEvent Reg.PWR_EVENTS_REST_REFUSED).setF Reg.PWR_REST_RESULT 2
  else if woken then s.setF Reg.PWR_REST_RESULT 3
  else (s.setF Reg.PWR_STATUS_STATE 2).setPower { s.power with trigger := false }

/-- A write of PWR_REST (R596, R597). -/
def State.restWrite (s : State) (v : Word) : State := if bit v 31 then s.restRequest (bit v 30) else s.cond (bit v 30) State.wakeTrigger

/-- REST_ENTER (R596): a write of PWR_REST that requests Rest. -/
def execRestEnter (v : Word) (s : State) : Out := .next (s.hostWrite Reg.PWR_REST fun t => t.restWrite v)

/-- REST_ENTERED (R596, R598): Rest is entered; a trigger held during entry starts the wake at once. -/
def execRestEntered (s : State) : Out :=
  .next (if s.fd Reg.PWR_STATUS_STATE ≠ 2 then s
    else
      let t := ((s.setF Reg.PWR_STATUS_STATE 3).setF Reg.PWR_REST_RESULT 1).inc Reg.REST_ENTRIES
      let t := (t.powerEvent Reg.PWR_EVENTS_REST_ENTERED).regrant
      if t.power.trigger then (t.setPower { t.power with trigger := false }).wakeTrigger else t)

/-- WAKE (R597): a wake trigger; `host` tells a write of PWR_REST.WAKE. -/
def execWake (host : Bool) (s : State) : Out := .next (if host then s.hostWrite Reg.PWR_REST State.wakeTrigger else s.wakeTrigger)

end Sys2Proof.Machine
end

