-- ==== Sys2Proof/Machine/Steps.lean ====
section
/-! DEFINITION. Steps of the array: joining and choosing (R418 to R422), the release that begins a step (R314, R474, R476), the commit (R560,
R487, R482), and the replay (R561, R562). -/

namespace Sys2Proof.Machine

/-! ### Sequences that may join (R418, R419) -/

/-- Divides a list into n micro-batches as evenly as possible, the earlier ones larger by one (R418, mode 1). -/
def divide : Nat → List Nat → List (List Nat)
  | 0, _ => []
  | n + 1, l => let k := ceilDiv l.length (n + 1); l.take k :: divide n (l.drop k)

/-- CONTEXTS of a program's planes (R418): every plane of a section carries the same. -/
def ProgSlot.contexts (p : ProgSlot) : Nat := bits (tget (0 : Word) (p.planeOf p.firstSect) 0) 2 0

/-- The micro-batches of a batch by context (R418): in mode 0 each sequence at the context it took, in mode 1 the division in joining order. -/
def State.microBatches (s : State) (slot : Nat) (ids : List Nat) : List (List Nat) :=
  let c := (s.slot slot).contexts
  if s.batMode slot = 1 then divide c ids
  else (List.range c).map fun k => (ids.filter fun i => (s.seq i).place == k).take 1

/-- Some bucket of every section covers micro-batches (R50, R418). -/
def State.fits (s : State) (slot : Nat) (ms : List (List Nat)) : Bool :=
  let p := s.slot slot
  p.sections.all fun e => (p.bucketFor e.1 ((ms.filter (· ≠ [])).map (s.microSizes slot))).isSome

/-- The sequences of a program slot that are in its batch, in joining order. -/
def State.batch (s : State) (slot : Nat) : List Nat :=
  (sortBy (fun a b => decide (a.1 ≤ b.1))
    ((s.net.seqs.filter fun e => e.2.slot == slot && e.2.state == .batched).map fun e => (e.2.joined, e.1))).map (·.2)

/-- The most sequences that a batch holds (R418, R419). -/
def State.maxSeq (s : State) (slot : Nat) : Nat :=
  let m := min 256 (s.fd (Reg.BAT_CTRL_MAX_SEQ slot))
  if s.batMode slot = 1 then m else min m (s.slot slot).contexts

/-- A gated sequence may join once an instant of GATE_ANGLE has passed since it became complete, and the time base has locked (R419). -/
def State.gatePassed (s : State) (q : Seq) : Bool :=
  match q.gateAngle with
  | none => true
  | some a => decide (deadlineInstant q.readyAt a 0 ≤ s.now) && s.on Reg.TB_STATUS_FIRST_LOCK

/-- A sequence is ready to join (R419). -/
def State.joinable (s : State) (q : Seq) : Bool := q.state == .ready && s.gatePassed q

/-- Those ready to join a slot, in the order of R419 and R422: urgent ones, displaced ones, then the others, each in the order in which they
became ready. -/
def State.joinOrder (s : State) (slot : Nat) : List Nat :=
  let mine := s.net.seqs.filter fun e => e.2.slot == slot
  let sorted (l : Table Seq) : List Nat := (sortBy (fun a b => decide (a.1 ≤ b.1)) (l.map fun e => (e.2.readyAt, e.1))).map (·.2)
  sorted (mine.filter fun e => s.joinable e.2 && e.2.urgent) ++ sorted (mine.filter fun e => e.2.state == .displaced) ++
    sorted (mine.filter fun e => s.joinable e.2 && ! e.2.urgent)

/-- A sequence joins, at the lowest free context in mode 0, if the batch then fits a bucket; else it waits for a later boundary. -/
def State.joinIf (s : State) (slot id : Nat) : State :=
  let now := s.batch slot
  let free := ((List.range 8).find? fun k => ! now.any fun i => (s.seq i).place == k).getD 0
  let t := s.setSeq id { s.seq id with state := .batched, joined := s.net.joins, place := free }
  let t := { t with net := { t.net with joins := t.net.joins + 1 } }
  if t.fits slot (t.microBatches slot (now ++ [id])) then t else s

/-- The sequence that an urgent one displaces (R422): the most recently joined one that is not urgent and has started. -/
def State.victim (s : State) (slot : Nat) : Option Nat :=
  (s.batch slot).reverse.find? fun i => ! (s.seq i).urgent && (s.seq i).startAt.isSome && (s.seq i).state == .batched

/-- A sequence alone in its micro-batch. -/
def State.alone (s : State) (slot id : Nat) : Bool := s.fits slot [[id]]

/-- One sequence at a step boundary: one that no bucket covers even alone ends with detail SHAPE; a full batch lets only an urgent one in,
which displaces another (R418, R419, R422). -/
def State.joinOne (s : State) (slot id : Nat) : State :=
  if ! s.alone slot id then s.endSeq id 3 5
  else if (s.batch slot).length < s.maxSeq slot then s.joinIf slot id
  else if (s.seq id).urgent && decide (0 < s.maxSeq slot) then
    match s.victim slot with
    | some v => (s.setSeq v { s.seq v with state := .displaced }).joinIf slot id
    | none => s
  else s

/-! ### The choice of the program instance (R421, R474 to R476) -/

/-- A slot may be stepped: registered, not being evicted, and past STEP_ADMIT where its image is released in stages (R538). -/
def State.steppable (s : State) (slot : Nat) : Bool :=
  let p := s.slot slot
  p.phase == 2 && ! p.evicting && p.released.contains 2

/-- The slots that have a sequence for the next step: in the batch, displaced, or ready to join. -/
def State.workSlots (s : State) : List Nat :=
  ((s.net.seqs.filter fun e => (e.2.state == .batched || e.2.state == .displaced || s.joinable e.2) && s.steppable e.2.slot).map
    fun e => e.2.slot).dedup

/-- The sequence of a list with the earliest time of readiness, ties to the lowest slot. -/
def oldest (l : Table Seq) : Option (Nat × Seq) :=
  l.foldl (fun b e => match b with
    | none => some e
    | some x => if e.2.readyAt < x.2.readyAt ∨ (e.2.readyAt = x.2.readyAt ∧ e.2.slot < x.2.slot) then some e else some x) none

/-- The program instance that R421 chooses among slots. -/
def State.chooseSlot (s : State) (slots : List Nat) : Option Nat :=
  let mine := s.net.seqs.filter fun e => slots.contains e.2.slot
  let urgent := oldest (mine.filter fun e => s.joinable e.2 && e.2.urgent)
  let again := s.net.current.bind fun c =>
    if slots.contains c.1 ∧ c.2 < s.fd (Reg.BAT_QUANTUM_STEPS c.1) then some c.1 else none
  let longest := oldest (mine.filter fun e => e.2.state == .batched || e.2.state == .displaced || s.joinable e.2)
  (urgent.map fun e => e.2.slot).orElse fun _ => again.orElse fun _ => longest.map fun e => e.2.slot

/-- The gate of an instance is met, or not armed (R474). -/
def State.gateMet (s : State) (i : Nat) : Bool :=
  ! s.on (Reg.XCH_GATE_CTRL_EN i) ||
    decide (s.rg64 (Reg.XCH_GATE_BASE_LO i) % 2 ^ 48 + s.fd (Reg.XCH_GATE_STEPS_COUNT i) * s.fd (Reg.XCH_GATE_CTRL_PER_STEP i) ≤
      s.pc (s.fd (Reg.XCH_GATE_CTRL_COUNTER i)))

/-- The wait at a gate ends, and is counted in µs (R476). -/
def State.gateEnd (s : State) (i : Nat) : State :=
  match s.net.gateFrom.find? fun e => e.1 == i with
  | none => s
  | some e =>
    { s with net := { s.net with gateFrom := tdel s.net.gateFrom i } }.incN (Reg.XCH_GATE_WAIT_US i) ((s.clk - e.2) / 2 ^ 24)

/-- The wait at a gate begins. -/
def State.gateBegin (s : State) (i : Nat) : State :=
  if thas s.net.gateFrom i then s else { s with net := { s.net with gateFrom := tput s.net.gateFrom i s.clk } }

/-- A committed angle-event entry START_STEP gates the step barrier (R421, R315). -/
def State.stepGated (s : State) : Bool :=
  (List.range 512).any fun e => let w := s.rg (Reg.AE_WORD e 0); bit w 31 && bits w 30 27 == 3

/-- No step begins: before READY, in Rest or on the way to or from it (R596, R598), during a gap of the power controller (R587), during a
shutdown (R625), after a thermal trip (R593), and in a failed package (R566). -/
def State.stepsHeld (s : State) : Bool :=
  ! s.on Reg.GS_STATUS_READY || s.on Reg.GS_STATUS_SHUTTING_DOWN || s.on Reg.FH_SUMMARY_FAILED || s.power.gap || s.power.trip ||
    decide (2 ≤ s.fd Reg.PWR_STATUS_STATE)

/-! ### The start of a step -/

/-- Pages that a step's start writes to: the journal's header, and the first words of the output areas of sequences that start (R528, R558). -/
def State.startRanges (s : State) (slot : Nat) (ids : List Nat) : List (Nat × Nat) :=
  ((s.slot slot).staging, 64) :: (ids.filter fun i => (s.seq i).startAt.isNone).map fun i => ((s.seq i).outAddr, 8)

/-- A sequence's first step (R528, R423): words 0 and 1 of its output area are 0, its run time starts, and its slot becomes the home of its
session (R420). -/
def State.startSeq (s : State) (id : Nat) : State :=
  let q := s.seq id
  if q.startAt.isSome then s
  else
    let t := (s.wrWords q.outAddr [0, 0]).setSeq id { q with startAt := some s.now }
    match q.session with
    | some (n, _) => t.setSes n { t.ses n with home := some q.slot }
    | none => t

/-- Pre-emptions at a step boundary (R422): sequences that have run a step, have not left, and are not in the step. -/
def State.countPreempt (s : State) (ids : List Nat) : State :=
  s.each (s.net.seqs.filter fun e => e.2.state ≠ .gone && decide (0 < e.2.stepsRun) && ! ids.contains e.1) fun t e =>
    t.setSeq e.1 { t.seq e.1 with preempt := (t.seq e.1).preempt + 1 }

/-- Begins a step of a slot with the sequences of its batch (R421, R314, R478): its number and attempt follow the last ones. A refusal of a
remote advance ends the run of the section instead (R302). `again` restarts a step without an abandoned run (R349). -/
def State.beginStep (s : State) (slot : Nat) (again : Bool) : State :=
  let ids := s.batch slot
  if s.links.refused.any fun e => e.1 == slot then
    let t := s.each ids fun u i => u.endSeq i 3 10
    { t with links := { t.links with refused := t.links.refused.filter fun e => e.1 ≠ slot } }
  else
    let p := s.slot slot
    let t := s.cond (! again) fun u => u.countPreempt ids
    let t := t.each ids fun u i => u.startSeq i
    let number := if again then s.net.stepCount else s.net.stepCount + 1
    let attempt := s.net.attemptNo + 1
    let x : StepSt := ⟨slot, p.inst, s.gen p.inst, number, t.microBatches slot ids, p.firstSect, attempt, 0, [], [], false, false, false, false,
      [], 0, []⟩
    let run := match s.net.current with
      | some c => if c.1 = slot then (if again then c.2 else c.2 + 1) else 1
      | none => 1
    let t := { t with
      net := { t.net with step := some x, restart := none, current := some (slot, run), stepCount := number, attemptNo := attempt }
      links := { t.links with pref := if t.on (Reg.XCH_SLOT_EN slot) then some (t.fd (Reg.XCH_SLOT_PREF slot)) else none } }
    t.putJournalHeader x

/-- The sequences of a step that restarts rejoin it (R349): nothing else joins, since a restart is no step boundary. -/
def State.rejoin (s : State) (slot : Nat) : State :=
  let ids := sortBy (fun a b => decide (a.1 ≤ b.1))
    ((s.net.seqs.filter fun e => e.2.slot == slot && e.2.state == .displaced).map fun e => (e.2.joined, e.1))
  s.each (ids.map (·.2)) fun t id => t.setSeq id { t.seq id with state := .batched }

/-- Makes a step of a slot begin, once the pages it first writes are zeroed (R496). -/
def State.tryStep (s : State) (slot : Nat) (again : Bool) : State :=
  let ids := s.batch slot
  if ids.isEmpty then s
  else
    let rs := s.startRanges slot ids
    if rs.all fun r => s.rangeReady r.1 r.2 then s.beginStep slot again
    else s.each rs fun t r => if t.rangeReady r.1 r.2 then t else t.demand r.1 r.2

/-- STEP_BARRIER_RELEASE (R314, R421, R474, R476): with no step in progress, the chosen program instance's next step begins. -/
def execStepBarrierRelease (s : State) : Out :=
  .next (if s.net.step.isSome || s.stepsHeld then s
    else match s.net.restart with
      | some slot => if s.steppable slot then (s.rejoin slot).tryStep slot true else { s with net := { s.net with restart := none } }
      | none =>
        if s.stepGated && ! s.net.gateStep then s
        else
          let all := s.workSlots
          match s.chooseSlot (all.filter fun n => s.gateMet (s.slot n).inst) with
          | none => match s.chooseSlot all with
            | some n => s.gateBegin (s.slot n).inst
            | none => s
          | some slot =>
            let t := s.gateEnd (s.slot slot).inst
            let t := t.each (t.joinOrder slot) fun u id => u.joinOne slot id
            let u := t.tryStep slot false
            if u.net.step.isSome && t.stepGated then { u with net := { u.net with gateStep := false } } else u)

/-! ### The statistics block (R486, R487) -/

/-- Reads an IEEE 754 binary64 pattern, and rounds a value to one, to nearest with ties to even. -/
def decode64 (p : Nat) : FV :=
  let mant := p % 2 ^ 52
  let e : Nat := p / 2 ^ 52 % 2 ^ 11
  let neg := p / 2 ^ 63 % 2 == 1
  if e = 2047 then (if mant = 0 then .inf neg else .nan)
  else if e = 0 then .fin neg mant (-1074) else .fin neg (2 ^ 52 + mant) (-1075 + (e : Int))

def encode64 (v : FV) : Nat :=
  match v with
  | .nan => 0x7FF8000000000000
  | .inf n => b2n n * 2 ^ 63 + 0x7FF0000000000000
  | .fin n m e =>
    let q := quantum 52 (-1074) m e
    let p := if m = 0 then 0 else (q + 1074).toNat * 2 ^ 52 + roundAt m e q none
    b2n n * 2 ^ 63 + min p 0x7FF0000000000000

/-- Adds an FP32 value to a binary64 sum in a pair of registers, correctly rounded. -/
def State.addStat (s : State) (off : Nat) (w : Word) : State :=
  s.wrg64 off (encode64 ((decode64 (s.rg64 off)).add (val32 w)))

/-- One record of the array of R486. -/
def State.statRecord (s : State) (i a : Nat) (final : Bool) : State :=
  let sqIn := s.rdW a
  let sqOut := s.rdW (a + 4)
  if isNan32 sqIn || isInf32 sqIn || isNan32 sqOut || isInf32 sqOut then s.inc (Reg.STAT_BAD i)
  else
    let t := s.addStat (Reg.STAT_PIECE_SQ_LO i) sqIn
    if final then t.addStat (Reg.STAT_TOTAL_SQ_LO i) sqOut else t

/-- The base of an instance's record array. -/
def State.statBase (s : State) (i : Nat) : Nat := s.fd (Reg.STAT_BASE_LO_ADDR i) * 16 + s.fd (Reg.STAT_BASE_HI_ADDR i) * 2 ^ 32

/-- The statistics work of a commit of a slot for instance i (R487). -/
def State.statWork (s : State) (slot i : Nat) : State :=
  if s.on (Reg.STAT_CTRL_EN i) && s.fd (Reg.STAT_CTRL_SLOT i) == slot then
    let q := s.fd (Reg.STAT_SHAPE_PIECES i)
    let n := s.fd (Reg.STAT_SHAPE_SLICES i) * q
    (s.each (List.range n) fun t k => t.statRecord i (t.statBase i + 16 * k) (k % q == q - 1)).inc (Reg.STAT_STEPS i)
  else s

/-! ### Broadcasts that a commit starts (R482) -/

/-- The source range of an instance's broadcast writer. -/
def State.bcSrc (s : State) (i : Nat) : Nat := s.fd (Reg.XCH_BC_SRC_LO_ADDR i) * 64 + s.fd (Reg.XCH_BC_SRC_HI_ADDR i) * 2 ^ 32

/-- Starts a broadcast, or refuses it: while BUSY, and for a range outside every window of the instance. -/
def State.castStart (s : State) (i : Nat) (commit : Bool) : State :=
  let a := s.bcSrc i
  let n := (s.rg (Reg.XCH_BC_BYTES i)).toNat
  if thas s.links.casts i || ! s.inWindow i a n then s.setF (Reg.XCH_BC_STATUS_REFUSED i) 1
  else { s with links := { s.links with casts := tput s.links.casts i ⟨s.fd (Reg.XCH_BC_CTRL_GROUP i), a, n, commit⟩ } }.setF
    (Reg.XCH_BC_CTRL_BUSY i) 1

/-- The instances whose writers start at a commit of a slot. -/
def State.castsOn (s : State) (slot : Nat) : List Nat :=
  (List.range 64).filter fun i => s.on (Reg.XCH_BC_CTRL_ON_COMMIT i) && s.fd (Reg.XCH_BC_CTRL_SLOT i) == slot

/-! ### The commit (R560) -/

/-- A write of the array to DRAM has not taken effect yet, or an RSTORE is not answered (R560, step 2). -/
def State.writesOpen (s : State) : Bool :=
  (s.mem.waiting.any fun w => w.write && stopKind w.requester == 0) ||
    s.pendingUse fun u => match u with | .rstore .. => true | _ => false

/-- Every cluster has arrived for the last section, and nothing holds the commit (R560, R538). -/
def State.commitReady (s : State) (x : StepSt) : Bool :=
  let p := s.slot x.slot
  decide (512 ≤ x.arrived.length) && (p.nextSect x.sect).isNone && ! x.replaying && ! x.replayDue && ! s.writesOpen &&
    p.released.contains 1 && p.released.contains 3

/-- Sends one REMOTE advance (R302): a COUNTER_ADD that carries the fence, on high priority (log entry 61); the commit waits for it. -/
def State.sendAdvance (s : State) (x : StepSt) (a : StagedAdvance) (pkg : Nat) : State :=
  let r : FlReq :=
    { id := 0, dest := pkg, order := 0, typ := 3, prio := true, fence := true, addr := 0, argLo := a.inc, argHi := a.counter, data := []
      inst := x.inst, gen := x.gen, number := x.number, attempt := x.attempt
      use := .advance a.cluster a.ctx x.slot x.sect, epoch := 0, route := 0, port := 0, later := false }
  let id := s.links.nextId
  let t := s.accept r
  match t.net.step with
  | some y =>
    if (t.links.tracked ++ t.links.egress ++ t.links.idle).any fun q => q.id == id then
      t.setStep (some { y with remoteWait := y.remoteWait ++ [id] })
    else t
  | none => t

/-- A staged advance takes effect (R300). -/
def State.applyAdvance (s : State) (x : StepSt) (a : StagedAdvance) : State :=
  match a.pkg with
  | none => s.advancePc a.counter a.inc (ctxNode a.cluster a.ctx).toNat
  | some pkg => s.sendAdvance x a pkg

/-- The commit point (R560, steps 3 and 4): the journal header is marked, the gate's steps count, and staged advances apply. -/
def State.commitPoint (s : State) (x : StepSt) : State :=
  let y := { x with committed := true, staged := [] }
  let t := (s.setStep (some y)).putJournalHeader y
  let t := if t.on (Reg.XCH_GATE_CTRL_EN x.inst) then t.inc (Reg.XCH_GATE_STEPS x.inst) else t
  t.each x.staged fun u a => u.applyAdvance y a

/-- The commit work of other chapters (R560, step 5): statistics and broadcasts. -/
def State.commitWork (s : State) (x : StepSt) : State :=
  let t := s.each (List.range 64) fun u i => u.statWork x.slot i
  let t := t.each (t.castsOn x.slot) fun u i => u.castStart i true
  match t.net.step with
  | some y => t.setStep (some { y with worked := true })
  | none => t

/-- Pages that are to be zeroed before any further use, after a close of session n (R413). -/
def State.zeroLater (s : State) (n : Nat) (pages : List Nat) : State :=
  let key := 64 + n
  if pages.isEmpty then s
  else { s with mem := { s.mem with instZero := tput s.mem.instZero key ((tget [] s.mem.instZero key ++ pages).dedup) } }

/-- The 2 MiB pages of a range, and those of a sequence's areas. -/
def pagesOf (a len : Nat) : List Nat := (List.range (ceilDiv (a % 2 ^ 21 + len) (2 ^ 21))).map (a / 2 ^ 21 + ·)
def State.seqPages (s : State) (q : Seq) : List Nat := pagesOf q.inAddr (s.slot q.slot).inBytes ++ pagesOf q.outAddr (s.slot q.slot).outBytes

/-- A sequence whose session has closed leaves without a reply, and its pages are zeroed (R413). -/
def State.leaveQuietly (s : State) (id : Nat) : State :=
  let q := s.seq id
  ((s.setSeq id { q with state := .gone }).account q.inst (s.seqTimes q).1 q.preempt).zeroLater ((q.session.map (·.1)).getD 0) (s.seqPages q)

/-- A sequence after a committed step (R419, R528): it leaves when its steps are done, when the program has set the leave flag, or when its
session has closed; a reply longer than the output area ends it with detail EXTENT. -/
def State.stepDone (s : State) (id outBytes : Nat) : State :=
  let q := { s.seq id with stepsRun := (s.seq id).stepsRun + 1, stepNo := ((s.seq id).stepNo + 1) % 2 ^ 32 }
  if q.state == .gone then s
  else
    let t := s.setSeq id q
    if q.state == .leaving then t.leaveQuietly id
    else if decide (q.maxSteps ≤ q.stepsRun) || bit (t.rdW q.outAddr) 0 then
      (if outBytes - 64 < (t.rdW (q.outAddr + 4)).toNat then t.endSeq id 3 6 else t.endSeq id 0 0)
    else t

/-- The end of a committed step (R560, steps 5 and 6): replies and completions of sequences that leave; then the next release may come. -/
def State.commitEnd (s : State) (x : StepSt) : State :=
  ((s.each x.seqIds fun t id => t.stepDone id (t.slot x.slot).outBytes).setStep none).powerBoundary

/-- STEP_COMMIT (R560): takes the commit as far as it goes: the commit point, then, once every REMOTE advance is answered, the commit work, then,
once every broadcast of the commit is injected, the end of the step. -/
def execStepCommit (s : State) : Out :=
  .next (match s.net.step with
    | none => s
    | some x =>
      let t := if ! x.committed && s.commitReady x then s.commitPoint x else s
      let t := match t.net.step with
        | some y =>
          if y.committed && ! y.worked && y.remoteWait.isEmpty && (t.castsOn y.slot).all fun i => ! thas t.links.casts i then t.commitWork y
          else t
        | none => t
      match t.net.step with
      | some y => if y.worked && ! t.links.casts.any fun e => e.2.commit then t.commitEnd y else t
      | none => t)

/-! ### Replay (R561, R562) -/

/-- STEP_REPLAY (R561, steps 1 and 2): issue stops, the attempt number advances, episodes end, and writes of the old attempt are dropped. A
step that has been replayed 16 times fails the package (R562). While a replay has not restarted the step, further incidents join it. -/
def execStepReplay (s : State) : Out :=
  .next (match s.net.step with
    | none => s
    | some x =>
      if ! x.replayDue || x.committed then s
      else if x.replaying then s.setStep (some { x with replayDue := false })
      else if 16 ≤ x.attempts then s.packageFailed 2 (hubStop 8) 0
      else
        let n := s.net.attemptNo + 1
        let t := (s.stopClusters).endEpisodes
        let t := { t with
          clusters := t.clusters.map fun (e : Nat × ClusterSt) => (e.1, { e.2 with attempt := n, heldUpd := [], arrived := false, switch := none })
          mem := { t.mem with waiting := t.mem.waiting.filter fun w => ! (w.write && stopKind w.requester == 0) }
          links := { t.links with egress := t.links.egress.filter fun r => match r.use with | .advance .. => true | _ => false }
          net := { t.net with attemptNo := n } }
        t.setStep (some { x with attempt := n, attempts := x.attempts + 1, replayDue := false, replaying := true, staged := [], arrived := [] }))

/-- The repairs of the open incidents that ordered the replay have ended (R561, step 3), and the first section's planes are RESIDENT. -/
def State.repairsDone (s : State) (x : StepSt) : Bool :=
  (s.repair.collectors.all fun e => e.2.slots.all fun i => i.2.state ≠ 1 || ! s.repairing i.2) &&
    s.sectionResident x.slot (s.slot x.slot).firstSect

/-- The replay restarts the step (R561, steps 4 and 5): every sequence counts it, and the incidents' replays have ended. -/
def State.restartStep (s : State) (x : StepSt) : State :=
  let t := s.each x.seqIds fun u id => u.setSeq id { u.seq id with replay := (u.seq id).replay + 1 }
  let y := { x with sect := (t.slot x.slot).firstSect, released := [], arrived := [], replaying := false, journal := 0, staged := [] }
  let t := (t.inc Reg.FH_REPLAYS).setStep (some y)
  { t with repair := { t.repair with collectors := t.repair.collectors.map fun (c : Nat × Collector) =>
      (c.1, { c.2 with slots := c.2.slots.map fun (i : Nat × Incident) => (i.1, { i.2 with state := 2 }) }) } }.putJournalHeader y

/-- REPLAY_RESTART (R561): the journal is rolled back and emptied, and the step restarts from its first section. An undo record that fails its
check is lost data, which abandons the run (R494, R564). -/
def execReplayRestart (s : State) : Out :=
  .next (match s.net.step with
    | none => s
    | some x =>
      if ! x.replaying || ! s.repairsDone x then s
      else
        let t := s.rollback
        if t.rg Reg.FH_CPL_MISMATCH ≠ s.rg Reg.FH_CPL_MISMATCH then (t.each x.seqIds fun u id => u.endSeq id 2 0).setStep none
        else t.restartStep x)

end Sys2Proof.Machine
end

