-- ==== Sys2Proof/Machine/Ports.lean ====
section
/-! DEFINITION. The ports of the Flarid links (R427 to R432, R443, R449, R454, R455, R462, R463, R465, R470): training and retraining, link
blocks and replays, lanes, limiters, and what becomes of packets when a port goes down. -/

namespace Sys2Proof.Machine

/-! ### Packets that a port cannot carry (R462, R463, R465) -/

/-- Records a dropped branch (R462, R463). -/
def State.partialRecord (s : State) (port group pkg : Nat) : State :=
  ((((s.inc Reg.FL_PARTIAL).setF Reg.FL_PARTIAL_LAST_PORT port).setF Reg.FL_PARTIAL_LAST_GROUP group).setF Reg.FL_PARTIAL_LAST_PKG pkg).flEvent
    Reg.FL_EVENTS_PARTIAL_DELIVERY

/-- The TAG that the configuration engine's multicast packets carry; those of a broadcast writer carry its instance (log entry 62). -/
def engineTag : Nat := 64

/-- Passes a partial delivery to the engine that sent the packet (R463, R483, R534). -/
def State.partialEngine (s : State) (tag port pkg : Nat) : State :=
  if tag < 64 then
    ((s.setF (Reg.XCH_BC_STATUS_PARTIAL tag) 1).setF (Reg.XCH_BC_STATUS_PORT tag) port).setF (Reg.XCH_BC_STATUS_PKG tag) pkg
  else if tag = engineTag then s.setF Reg.CE_MC_TX_PARTIAL 1
  else s

/-- A branch of a multicast packet is dropped at a port: recorded here, and told to the packet's source. -/
def State.dropBranch (s : State) (q : Nat) (p : FlPacket) : State :=
  let me := s.srcId
  let t := s.partialRecord q p.group me
  if p.src = me then t.partialEngine (p.o 6).toNat q me
  else t.sendOwn p.src (2 ^ 28 + q * 2 ^ 24 + me) p.group (bits (p.o 5) 15 0) (p.o 6).toNat

/-- A unicast packet meets a port that is DOWN or DISABLED (R465): the head of a request returns to its source, and a reply is dropped. -/
def State.turnBack (s : State) (p : FlPacket) : State :=
  if p.isReply then s else s.answer (flReply p s.srcId 10 7 true p.op [])

/-- The route of a tracked request has failed (R465): it is marked, and the request is sent again at once. -/
def State.routeLost (s : State) (r : FlReq) : State :=
  let t := s.markFailed r.dest r.route
  let u := t.cond (t.reachable r.dest) fun v => v.inc Reg.FL_RESENDS
  (u.resend r).refresh

/-- A packet that waits at a port that goes off: a branch is dropped, a request of this package fails over, a transit request is returned. -/
def State.displaced (s : State) (q : Nat) (p : FlPacket) : State :=
  if p.mcast then s.dropBranch q p
  else if p.src = s.srcId ∧ p.hop = 0 then
    match s.links.tracked.find? fun r => r.id == p.reqId with
    | some r => if p.isReply then s else s.routeLost r
    | none => s
  else s.turnBack p

/-! ### States of a port (Table 13.1) -/

/-- FL_STATUS.STATE changes. -/
def State.setPortState (s : State) (p st : Nat) : State := s.setF (Reg.FL_STATUS_STATE p) st

/-- The lanes of a port that have been retired, and the lanes it then runs on (R431). -/
def State.lanesLost (s : State) (p : Nat) : Nat := ((List.range 5).filter fun l => (s.fd (Reg.FL_STATUS_FAILED p)).testBit l).length
def State.laneWidth (s : State) (p : Nat) : Nat := if s.lanesLost p ≤ 1 then 4 else 2

/-- A port stops carrying traffic: its replay buffer is discarded, and its waiting packets are disposed of. The rate of its limiters, its
cache and its lanes' history stay. -/
def State.portStops (s : State) (p st : Nat) : State :=
  let x := s.port p
  let t := (s.setPortState p st).setF (Reg.FL_STATUS_LANES p) 0
  let t := t.setPort p { noPort with dead := x.dead, cache := x.cache }
  (t.each x.waiting fun u w => u.displaced p w).refresh

/-- A port enters DOWN (R430, R468): counted, announced, and its peer is suspected with reason 0. -/
def State.portDown (s : State) (p : Nat) : State :=
  let peer := s.fd (Reg.FL_STATUS_PEER_PKG p)
  let t := ((s.inc (Reg.FL_DOWNS p)).portStops p 4).flEvent Reg.FL_EVENTS_LINK_DOWN
  (t.suspect peer (hubStop 4) fun u => u.sendOwn (u.fd Reg.FL_REPORT_DST_PKG) (2 * 2 ^ 28 + peer) 0 (hubStop 4) 0).summary

/-- A port that is UP enters RETRAINING (R430). Routes through it are then not usable (R437). -/
def State.retrain (s : State) (p : Nat) : State :=
  if s.portState p = 2 then ((s.setPortState p 3).setPort p { s.port p with rxBad := 0 }).refresh else s

/-- A write of FL_CTRL (R428, R430): EN set starts the training of a DISABLED port, EN clear disables it, and a write of 1 to RETRAIN starts a
retraining. A port whose third lane failed stays DOWN (R431). -/
def State.flCtrlWrite (s : State) (p : Nat) (v : Word) : State :=
  let t := s.plain (Reg.FL_CTRL p) v
  let t := if (t.port p).dead then t
    else if ! bit v 31 then (if t.portState p = 0 then t else (t.portStops p 0).summary)
    else if t.portState p = 0 then t.setPortState p 1
    else t
  t.cond (bit v 30) fun u => u.retrain p

/-- FL_PORT_ENABLE (R428). -/
def execFlPortEnable (p : Fin 16) (v : Word) (s : State) : Out := .next (s.hostWrite (Reg.FL_CTRL p) fun t => t.flCtrlWrite p v)

/-- RETRAIN (R430). -/
def execRetrain (p : Fin 16) (v : Word) (s : State) : Out := .next (s.hostWrite (Reg.FL_CTRL p) fun t => t.flCtrlWrite p v)

/-- Failure marks of routes through a port clear when it comes UP (R437). -/
def State.clearMarks (s : State) (p : Nat) : State :=
  { s with links := { s.links with routes := s.links.routes.map fun (e : Nat × RouteEnt) =>
    (e.1, { e.2 with failed := e.2.failed.mapIdx fun r f => f && nib (e.2.routes.getD r noRoute).bits 0 != p }) } }

/-- The limiters of a port start again (R455). -/
def State.limiterStart (s : State) (p : Nat) : State :=
  (s.each (List.range 4) fun t v => t.setF (Reg.FL_RATE_RATE p v) 128).setPort p
    { s.port p with marked := [false, false, false, false], ended := [false, false, false, false] }

/-- The blocks of a port from one number on are sent again (R429). -/
def State.replayFrom (s : State) (p b : Nat) : State :=
  s.each (List.range ((s.port p).blocks - b)) fun t k => t.emit (.link p 2 ((b + k) % 4096))

/-- LINK_TRAINED (R428, R430, R437, R455): training or retraining ends and the port is UP. After a training both ends start afresh; after a
retraining the blocks from the last acknowledged one are sent again. -/
def execLinkTrained (p : Fin 16) (peerPort : BitVec 4) (peerPkg : BitVec 14) (s : State) : Out :=
  let st := s.portState p
  .next (if (st ≠ 1 ∧ st ≠ 3) ∨ (s.port p).dead then s
    else
      let t := ((s.setPortState p 2).setF (Reg.FL_STATUS_LANES p) (s.laneWidth p)).setF (Reg.FL_STATUS_PEER_PORT p) peerPort.toNat
      let t := ((t.setF (Reg.FL_STATUS_PEER_PKG p) peerPkg.toNat).limiterStart p).clearMarks p
      let t := if st = 3 then (t.inc (Reg.FL_RETRAINS p)).replayFrom p (t.port p).acked else t
      ((t.drain p).refresh).summary)

/-- TRAINING_RETRY (R428, R430): a DOWN port trains again while EN is set; a failed training is tried again. -/
def execTrainingRetry (p : Fin 16) (s : State) : Out :=
  .next (if s.portState p = 4 ∧ s.on (Reg.FL_CTRL_EN p) ∧ ! (s.port p).dead then s.setPortState p 1 else s)

/-- The blocks that an acknowledgement newly covers (R429): numbers count modulo 4,096, and it covers all blocks up to the one it names
(log entry 63). -/
def PortSt.ackTo (x : PortSt) (ack : Nat) : Nat :=
  let n := x.acked + (ack + 1 + 4096 - x.acked % 4096) % 4096
  if n ≤ x.blocks then n else x.acked

/-- LINK_BLOCK_RECEIVE (R427, R429, R430, R447): a block whose CRC fails is asked for again, and the 8th failure of one block in a row starts
a retraining; the block expected is acknowledged, and its acknowledgement and credits are taken; any other good block follows a bad one and
will come again. -/
def execLinkBlockReceive (p : Fin 16) (seq ack : BitVec 12) (credits : List Nat) (crcOk : Bool) (s : State) : Out :=
  let x := s.port p
  .next (if s.portState p ≠ 2 then s
    else if ! crcOk then
      let t := (s.setPort p { x with rxBad := x.rxBad + 1 }).emit (.link p 1 (x.rxNext % 4096))
      t.cond (decide (8 ≤ x.rxBad + 1)) fun u => u.retrain p
    else if seq.toNat ≠ x.rxNext % 4096 then s
    else
      let y := { x with
        rxNext := x.rxNext + 1
        rxBad := 0
        acked := x.ackTo ack.toNat
        credits := x.credits.mapIdx fun v c => min 512 (c + credits.getD v 0) }
      ((s.setPort p y).emit (.link p 0 seq.toNat)).drain p)

/-- REPLAY_REQUEST (R429): the bad block and every block after it are sent again, in order. -/
def execReplayRequest (p : Fin 16) (block : BitVec 12) (s : State) : Out :=
  let x := s.port p
  let b := x.acked + (block.toNat + 4096 - x.acked % 4096) % 4096
  .next (if s.portState p ≠ 2 ∨ x.blocks ≤ b then s else (s.inc (Reg.FL_REPLAYS p)).replayFrom p b)

/-- BLOCK_LOCK_LOSS (R430). -/
def execBlockLockLoss (p : Fin 16) (s : State) : Out := .next (s.retrain p)

/-- RETRAIN_TIMEOUT (R430): 40 µs after it entered RETRAINING the port is not UP. -/
def execRetrainTimeout (p : Fin 16) (s : State) : Out := .next (if s.portState p = 3 then s.portDown p else s)

/-- LANE_RETIRE (R431): a lane is retired in a retraining of its port. The first is replaced by the spare, lane 4; the second leaves two lanes;
the third ends the port until cold reset. -/
def execLaneRetire (p : Fin 16) (lane : Fin 5) (s : State) : Out :=
  let f := s.fd (Reg.FL_STATUS_FAILED p)
  .next (if f.testBit lane || s.portState p == 0 || (s.port p).dead then s
    else
      let t := (s.setF (Reg.FL_STATUS_FAILED p) (f + 2 ^ lane.val)).report (portStop p) 12 lane true
      let n := t.lanesLost p
      if n = 1 then ((t.setF (Reg.FL_STATUS_SPARE_USED p) (b2n (lane ≠ 4)))).retrain p
      else if n = 2 then
        let t := (t.setF (Reg.FL_STATUS_SPARE_USED p) (b2n (t.on (Reg.FL_STATUS_SPARE_USED p) && lane ≠ 4))).flEvent Reg.FL_EVENTS_LANE_LOST
        ((if t.portState p = 2 then t.setF (Reg.FL_STATUS_LANES p) 2 else t).retrain p).summary
      else
        let t := t.setPort p { t.port p with dead := true }
        if t.portState p = 4 then t else t.portDown p)

/-- FL_WAIT_TIMEOUT (R443): the k-th head that waits at a port is dropped after 500 µs, not counting time in RETRAINING. A multicast branch
is never dropped for want of credit (R462). -/
def execFlWaitTimeout (p : Fin 16) (k : Nat) (s : State) : Out :=
  let x := s.port p
  .next (match x.waiting[k]? with
    | some w =>
      if s.portState p = 3 ∨ w.mcast then s
      else ((s.setPort p { x with waiting := x.waiting.eraseIdx k }).inc (Reg.FL_WAIT_DROPS p)).drain p
    | none => s)

/-! ### Limiters (R454, R455) -/

/-- LIMITER_WINDOW (R454): the end of a window of 10 µs. Until a marked window has ended, R rises under R455 alone. -/
def execLimiterWindow (p : Fin 16) (v : Fin 4) (s : State) : Out :=
  let x := s.port p
  let r := s.fd (Reg.FL_RATE_RATE p v)
  .next (if x.marked.getD v false then
      (s.setF (Reg.FL_RATE_RATE p v) (max 2 (7 * r / 8))).setPort p { x with marked := x.marked.set v false, ended := x.ended.set v true }
    else if x.ended.getD v false then s.setF (Reg.FL_RATE_RATE p v) (min 256 (r + 4))
    else s)

/-- LIMITER_RAMP (R455): a µs before the first marked window has ended. -/
def execLimiterRamp (p : Fin 16) (v : Fin 4) (s : State) : Out :=
  .next (if (s.port p).ended.getD v false || s.portState p == 4 || s.portState p == 0 then s
    else s.setF (Reg.FL_RATE_RATE p v) (min 256 (s.fd (Reg.FL_RATE_RATE p v) + 2)))

/-! ### Keys and the source identifier (R470, R471, R659) -/

/-- The staging copy of a register that carries its complement (R659): it resets to the register's reset value. -/
def State.stagedAt (s : State) (off : Nat) : Word := tget (regReset off) s.links.staged off
/-- A write to such a register is staged. -/
def State.stageWrite (s : State) (off : Nat) (v : Word) : State :=
  let m := regMasks off
  { s with links := { s.links with staged := tput s.links.staged off (plainWrite (s.stagedAt off) v m.1 m.2) } }

/-- A write to the complement of a key register commits it, or is refused (R470). -/
def State.keyWrite (s : State) (off offN : Nat) (v : Word) : State :=
  if v = ~~~(s.stagedAt off) then (s.wrg off (s.stagedAt off)).wrg offN v else s.hostMismatch 0

/-- FL_KEY_COMMIT (R470). -/
def execFlKeyCommit (p k : Fin 16) (v : Word) (s : State) : Out :=
  .next (s.hostWrite (Reg.FL_KEY_N p k) fun t => t.keyWrite (Reg.FL_KEY p k) (Reg.FL_KEY_N p k) v)

/-- INST_KEY_COMMIT (R471). -/
def execInstKeyCommit (i : Fin 64) (v : Word) (s : State) : Out :=
  .next (s.hostWrite (Reg.FL_INST_KEY_N i) fun t => t.keyWrite (Reg.FL_INST_KEY i) (Reg.FL_INST_KEY_N i) v)

/-- A write of FL_SRC_ID: only with matching halves (R659), and only while every port is DISABLED (R471). -/
def State.srcIdWrite (s : State) (v : Word) : State :=
  if bits v 29 16 + bits v 13 0 ≠ 16383 then s.hostMismatch 0
  else if (List.range 16).all fun p => s.portState p == 0 then s.plain Reg.FL_SRC_ID v
  else s

/-- FL_SRC_ID_WRITE (R471). -/
def execFlSrcIdWrite (v : Word) (s : State) : Out := .next (s.hostWrite Reg.FL_SRC_ID fun t => t.srcIdWrite v)

end Sys2Proof.Machine
end

