-- ==== Sys2Proof/Machine/Packets.lean ====
section
/-! DEFINITION. Flarid packets (R432, R435, R438, R444 to R446, R450 to R468): the arrival of a head, delivery of requests, replies at their source,
timeouts and resends, the tables, and multicast. -/

namespace Sys2Proof

/-- The packet with the port it arrived at in its route (R438). -/
def FlPacket.arrivedAt (p : FlPacket) (q : Nat) : FlPacket :=
  if p.mcast ∨ p.hop = 0 then p else p.withRoute (setNib p.route (p.hop - 1) q)

/-- The key of the duplicate table (R458). -/
def FlPacket.dupKey (p : FlPacket) : Nat := 2 ^ 32 * p.src + p.reqId

end Sys2Proof

namespace Sys2Proof.Machine

/-! ### The arrival of a head -/

/-- A NACK of reason PKEY returns by the port that the rejected packet came in by; it is not held to the key that it answers for
(log entry 64). -/
def State.nackPkey (s : State) (p : FlPacket) : State :=
  let r := flReply p s.srcId 6 1 p.prio (flReplyOp p 0 0) []
  let q := nib r.route 0
  if s.portOff q then s else s.depart q r

/-- A partition reject of a packet that has come in: dropped and counted; a unicast request is answered (R450). -/
def State.rejectKey (s : State) (q : Nat) (p : FlPacket) : State :=
  let t := s.partReject q
  if p.isReply || p.mcast then t else t.nackPkey p

/-- An epoch e is later than f (R445). -/
def laterEpoch (e f : Nat) : Bool := let d := (e + 256 - f) % 256; decide (1 ≤ d) && decide (d ≤ 127)

/-- The epoch check of a request (R445): the state with the kept epoch, and whether the request is stale. -/
def State.epochCheck (s : State) (p : FlPacket) : State × Bool :=
  match s.links.epochIn.find? fun e => e.1 == p.src with
  | some e =>
    if laterEpoch e.2 p.epoch then (s, true)
    else if laterEpoch p.epoch e.2 then ({ s with links := { s.links with epochIn := tput s.links.epochIn p.src p.epoch } }, false)
    else (s, false)
  | none => ({ s with links := { s.links with epochIn := tput s.links.epochIn p.src p.epoch } }, false)

/-- A unicast packet has reached the end of its route: it is delivered, or dropped as misrouted, truncated or stale, or answered ASLEEP
(R432, R438, R445, R449). The command of its type then acts on it. -/
def State.deliver (s : State) (q : Nat) (p : FlPacket) : State :=
  if p.dst ≠ s.srcId then s.inc Reg.FL_MISROUTED
  else if p.truncated then s.inc (Reg.FL_TRUNCATED q)
  else if p.isReply then s.emit (.flDelivered q p)
  else
    let e := s.epochCheck p
    if e.2 then e.1.inc Reg.FL_STALE_EPOCH
    else if s.fd Reg.PWR_STATUS_STATE = 3 then (e.1.nack p 6).wakeTrigger
    else e.1.emit (.flDelivered q p)

/-- A unicast packet goes on by the port of its next nibble (R438, R450, R465). -/
def State.forward (s : State) (p : FlPacket) : State :=
  let d := nib p.route p.hop
  if s.portOff d then s.turnBack p
  else if (s.keyEntry d p.pkey).isNone then s.rejectKey d p
  else s.depart d p

/-- FLARID_HEAD_ARRIVE (R435, R438, R450): complements, then the key, then delivery or forwarding. The lane that a mismatch is reported of is
a free value. -/
def execFlaridHeadArrive (q : Fin 16) (p : FlPacket) (s : State) : Out :=
  .next (if s.portState q ≠ 2 ∧ s.portState q ≠ 3 then s
    else if ! p.good then
      let f := s.free
      f.2.cplMismatch (some (Reg.FL_CPL_DISCARD q)) (portStop q) 12 (f.1.toNat % 5)
    else
      let p := p.arrivedAt q
      if (s.keyEntry q p.pkey).isNone then s.rejectKey q p
      else if p.mcast then s.emit (.flDelivered q p)
      else if p.hop = p.hops then s.deliver q p
      else s.forward p)

/-! ### Requests at their destination (R451, R458, Table 13.5) -/

/-- The instance that the arrival port's entry names, where it admits delivery (R451). -/
def State.target (s : State) (q : Nat) (p : FlPacket) : Option Nat :=
  match s.keyEntry q p.pkey with
  | some k => if s.on (Reg.FL_KEY_DELIVER q k) then some (s.fd (Reg.FL_KEY_INSTANCE q k)) else none
  | none => none

/-- A range lies within one enabled window of an instance with REMOTE set (R396, R451). -/
def State.inRemoteWindow (s : State) (i a len : Nat) : Bool :=
  (List.range 8).any fun w => s.on (Reg.WIN_BASE_EN i w) && s.on (Reg.WIN_BASE_REMOTE i w) &&
    decide (s.fd (Reg.WIN_BASE_BASE i w) * 2 ^ 21 ≤ a) &&
    decide (a + len ≤ (s.fd (Reg.WIN_BASE_BASE i w) + s.fd (Reg.WIN_SIZE_SIZE i w)) * 2 ^ 21)

/-- A request that came in while the module sleeps or wakes waits until it runs (R598). -/
def State.asleep (s : State) : Bool := decide (3 ≤ s.fd Reg.PWR_STATUS_STATE)

/-- The reason that refuses an access of n bytes at an address, if one does. -/
def State.accessReason (s : State) (q : Nat) (p : FlPacket) (a n : Nat) : Option Nat :=
  match s.target q p with
  | none => some 1
  | some i =>
    if s.on (Reg.INST_STATUS_IN_RESET i) then some 4
    else if ! s.inRemoteWindow i a n then some 2
    else none

/-- READ (Table 13.4): a length that Table 13.3 does not allow is refused as a window is (log entry 65). -/
def execRead (q : Fin 16) (p : FlPacket) (s : State) : Out :=
  let n := (p.o 3).toNat
  .next (if s.asleep then s
    else match s.accessReason q p p.addr n with
      | some r => s.nack p r
      | none =>
        if n % 64 ≠ 0 ∨ n = 0 ∨ 4096 < n then s.nack p 2
        else if ! s.rangeReady p.addr n then s.demand p.addr n
        else s.answer (flReply p s.srcId 4 0 p.prio (flReplyOp p 0 0) (s.rdBytes p.addr n)))

/-- WRITE (Table 13.4). -/
def execWrite (q : Fin 16) (p : FlPacket) (s : State) : Out :=
  .next (if s.asleep then s
    else match s.accessReason q p p.addr p.data.length with
      | some r => s.nack p r
      | none =>
        if ! s.rangeReady p.addr p.data.length then s.demand p.addr p.data.length
        else
          let t := s.hubWrite p.addr p.data
          t.answer (flReply p t.srcId 5 0 p.prio (flReplyOp p 0 0) []))

/-- A non-idempotent request (R458): a hit is answered with the stored reply by the new copy's path; a full table refuses with BUSY. `f` gives
the state after the effect, the reply's type, reason and old value. -/
def State.once (s : State) (p : FlPacket) (f : State → State × Nat × Nat × Nat) : State :=
  match s.links.dup.find? fun e => e.1 == p.dupKey with
  | some e =>
    (s.inc Reg.FL_DUP_SUPPRESSED).answer (flReply p s.srcId e.2.typ e.2.status p.prio e.2.op [])
  | none =>
    if 65536 ≤ s.links.dup.length then (s.inc Reg.FL_DUP_FULL).nack p 5
    else
      let (t, typ, status, old) := f s
      let r := flReply p t.srcId typ status p.prio (flReplyOp p (old % 2 ^ 32) (old / 2 ^ 32)) []
      { t with links := { t.links with dup := tput t.links.dup p.dupKey r } }.answer r

/-- ATOMIC_ADD (R434, R458): the 64-bit operand is added modulo 2^64 to the aligned 8 bytes at ADDR, and the ACK carries the old value. -/
def execAtomicAdd (q : Fin 16) (p : FlPacket) (s : State) : Out :=
  let a := p.addr / 8 * 8
  .next (if s.asleep then s
    else if (s.accessReason q p a 8).isNone && ! s.rangeReady a 8 then s.demand a 8
    else s.once p fun s =>
      match s.accessReason q p a 8 with
      | some r => (s, 6, r, 0)
      | none =>
        let old := leVal (s.rdBytes a 8)
        (s.hubWrite a (leBytes 8 (old + (p.o 3).toNat + 2 ^ 32 * (p.o 4).toNat)), 5, 0, old))

/-- COUNTER_ADD (R302, R458): the advance applies at once; the record of a traced counter's last signaller holds the node code of the hub's
Flarid add, of which Table 9.7 states no value (log entry 2). -/
def execCounterAdd (q : Fin 16) (p : FlPacket) (s : State) : Out :=
  let c := bits (p.o 4) 11 0
  .next (if s.asleep then s
    else s.once p fun s =>
      match s.target q p with
      | none => (s, 6, 1, 0)
      | some i =>
        if s.on (Reg.INST_STATUS_IN_RESET i) then (s, 6, 4, 0)
        else if ! s.pcOwned c i then (s, 6, 3, 0)
        else ((s.free.2).advancePc c (p.o 3).toNat s.free.1.toNat, 5, 0, 0))

/-! ### Replies at the source (R456, R457, R465) -/

/-- An ECHO marks the window of the limiter that sent the request (R454). -/
def State.takeEcho (s : State) (r : FlReq) (p : FlPacket) : State :=
  if p.echo then s.setPort r.port { s.port r.port with marked := (s.port r.port).marked.set (b2n r.prio) true } else s

/-- A reply is for a tracked request, or it is late (R457). -/
def State.flReplyTo (s : State) (p : FlPacket) (f : State → FlReq → State) : State :=
  match s.trackedReq p.reqId p.src with
  | some r => f (s.takeEcho r p) r
  | none => s.inc Reg.FL_LATE_REPLIES

/-- READ_DATA: the data goes to its place in the scratchpad; data of a stale generation or an earlier attempt is discarded (R452, R561). -/
def execReadData (p : FlPacket) (s : State) : Out :=
  .next (s.flReplyTo p fun s r =>
    let t := match r.use with
      | .rload n _ _ _ sp => if s.reqLive r then s.upCl n fun c => c.wrN sp p.data else s
      | _ => s
    (t.settle r.id).untrack r)

/-- FL_ACK. -/
def execFlAck (p : FlPacket) (s : State) : Out :=
  .next (s.flReplyTo p fun s r => (s.settle r.id).untrack r)

/-- NACK (Table 13.5): reasons 1 to 4 refuse the request; BUSY and ASLEEP await a resend; a reserved reason is no answer, and the request times
out (log entry 66). -/
def execNack (p : FlPacket) (s : State) : Out :=
  .next ((s.inc Reg.FL_NACKS).flReplyTo p fun s r =>
    if 1 ≤ p.status ∧ p.status ≤ 4 then ((s.refuse r).settle r.id).untrack r
    else if p.status = 5 ∨ p.status = 6 then
      { s with links := { s.links with tracked := s.links.tracked.map fun x => if x.id = r.id then { x with later := true } else x } }
    else s)

/-- NACK_RESEND: the time after a BUSY or ASLEEP answer is over. -/
def execNackResend (id : Word) (s : State) : Out :=
  .next (match s.links.tracked.find? fun r => r.id == id.toNat && r.later with
    | some r => s.resend r
    | none => s)

/-- RETURN (R465): the route is marked failed and the request is sent again at once. A RETURN of an attempt before the last counts as late. -/
def execFlReturn (p : FlPacket) (s : State) : Out :=
  .next (match s.links.tracked.find? fun r => r.id == p.reqId && r.epoch == p.epoch && ! r.later with
    | some r => s.routeLost r
    | none => s.inc Reg.FL_LATE_REPLIES)

/-- REQUEST_TIMEOUT (R456): no reply within 200 µs of injection. -/
def execRequestTimeout (id : Word) (s : State) : Out :=
  .next (match s.links.tracked.find? fun r => r.id == id.toNat && ! r.later with
    | none => s
    | some r =>
      let t := s.inc Reg.FL_TIMEOUTS
      if r.epoch = tget 0 t.links.epochOut r.dest then t.routeLost r
      else (t.cond (t.reachable r.dest) fun v => v.inc Reg.FL_RESENDS).resend r)

/-- FENCED_INJECT (R459). -/
def execFencedInject (id : Word) (s : State) : Out :=
  .next (match s.links.egress.find? fun r => r.id == id.toNat && r.fence with
    | some r =>
      if s.earlier r || decide (16384 ≤ s.links.tracked.length) then s
      else { s with links := { s.links with egress := s.links.egress.erase r } }.inject r false
    | none => s)

/-- NOTICE (R463, R468): a partial delivery is recorded and passed to the engine that sent the packet; a suspect report goes to the package
collector. -/
def execNotice (p : FlPacket) (s : State) : Out :=
  let w := p.o 3
  let pkg := bits w 13 0
  .next (match bits w 31 28 with
    | 1 => (s.partialRecord (bits w 27 24) (bits (p.o 4) 11 0) pkg).partialEngine (p.o 6).toNat (bits w 27 24) pkg
    | 2 => s.report (hubStop 4) 13 pkg true
    | _ => s)

/-! ### Marks, epochs, the duplicate table and route caches -/

/-- ROUTE_MARK_EXPIRE (R437). -/
def execRouteMarkExpire (dest : BitVec 14) (r : Fin 4) (s : State) : Out :=
  let e := s.routeEnt dest.toNat
  .next (if e.failed.getD r false then (s.setRouteEnt dest.toNat { e with failed := e.failed.set r false }).refresh else s)

/-- EPOCH_EXPIRE (R445). -/
def execEpochExpire (src : BitVec 14) (s : State) : Out :=
  .next { s with links := { s.links with epochIn := tdel s.links.epochIn src.toNat } }

/-- DUP_ENTRY_EXPIRE (R458). -/
def execDupEntryExpire (src : BitVec 14) (id : Word) (s : State) : Out :=
  .next { s with links := { s.links with dup := tdel s.links.dup (2 ^ 32 * src.toNat + id.toNat) } }

/-- ROUTE_CACHE_EXPIRE (R441). -/
def execRouteCacheExpire (p : Fin 16) (dest : BitVec 14) (s : State) : Out :=
  let x := s.port p
  .next (s.setPort p { x with cache := x.cache.erase dest.toNat })

/-! ### The table windows (R436, R461, R471) -/

/-- The selected route entry is loaded into its window (R471). -/
def State.rtRead (s : State) : State :=
  let e := s.routeEnt (s.fd Reg.FL_RT_SEL_DEST)
  let f := ((List.range 4).map fun r => if e.failed.getD r false then 2 ^ r else 0).sum
  let t := ((s.setF Reg.FL_RT_MODE_VALID (b2n e.valid)).setF Reg.FL_RT_MODE_SPREAD (b2n e.spread)).setF Reg.FL_RT_MODE_FAILED f
  let t := t.each (List.range 4) fun u r =>
    let x := e.routes.getD r noRoute
    let u := (u.setF (Reg.FL_RT_CTRL_VALID r) (b2n x.valid)).setF (Reg.FL_RT_CTRL_HOPS r) x.hops
    (((u.wrg (Reg.FL_RT_LO r) (lo32 x.bits)).wrg (Reg.FL_RT_HI r) (hi32 x.bits)).wrg (Reg.FL_RT_LO_N r) (~~~(lo32 x.bits))).wrg
      (Reg.FL_RT_HI_N r) (~~~(hi32 x.bits))
  t.setF Reg.FL_RT_STATUS_RESULT 0

/-- The route in the window, its complements, and its field checks (R436); a route that is not valid is not checked for its hops. -/
def State.rtRoute (s : State) (r : Nat) : Route :=
  ⟨s.on (Reg.FL_RT_CTRL_VALID r), s.fd (Reg.FL_RT_CTRL_HOPS r), s.rg64 (Reg.FL_RT_LO r)⟩
def State.rtCpl (s : State) (r : Nat) : Bool :=
  s.rg (Reg.FL_RT_LO_N r) == ~~~(s.rg (Reg.FL_RT_LO r)) && s.rg (Reg.FL_RT_HI_N r) == ~~~(s.rg (Reg.FL_RT_HI r))
def Route.ok (x : Route) : Bool := ! x.valid || (decide (1 ≤ x.hops) && decide (x.hops ≤ 16) && decide (x.bits < 16 ^ x.hops))

/-- The window is written to the selected entry (R436, R441): its marks clear and every cache drops it. -/
def State.rtWrite (s : State) : State :=
  let d := s.fd Reg.FL_RT_SEL_DEST
  if ! (List.range 4).all fun r => s.rtCpl r then (s.setF Reg.FL_RT_STATUS_RESULT 1).hostMismatch 0
  else if ! (List.range 4).all fun r => (s.rtRoute r).ok then s.setF Reg.FL_RT_STATUS_RESULT 2
  else
    let e : RouteEnt :=
      ⟨s.on Reg.FL_RT_MODE_VALID, s.on Reg.FL_RT_MODE_SPREAD, (List.range 4).map s.rtRoute, [false, false, false, false], 0⟩
    let t := s.setRouteEnt d e
    let t := { t with links := { t.links with ports := t.links.ports.map fun (x : Nat × PortSt) => (x.1, { x.2 with cache := x.2.cache.erase d }) } }
    (t.setF Reg.FL_RT_STATUS_RESULT 0).refresh

/-- RT_READ, RT_WRITE (R471). -/
def execRtRead (s : State) : Out := .next (s.hostWrite Reg.FL_RT_CMD fun t => t.rtRead)
def execRtWrite (s : State) : Out := .next (s.hostWrite Reg.FL_RT_CMD fun t => t.rtWrite)

/-- The selected group's entry is loaded into its window. -/
def State.mcRead (s : State) : State :=
  let w := tget (0 : Word) s.links.groups (s.fd Reg.FL_MC_SEL_GROUP)
  ((s.wrg Reg.FL_MC_ENTRY w).wrg Reg.FL_MC_ENTRY_N (~~~w)).setF Reg.FL_MC_STATUS_RESULT 0
/-- The window is written to the selected group's entry after its complement check. -/
def State.mcWrite (s : State) : State :=
  let w := s.rg Reg.FL_MC_ENTRY
  if s.rg Reg.FL_MC_ENTRY_N ≠ ~~~w then (s.setF Reg.FL_MC_STATUS_RESULT 1).hostMismatch 0
  else { s with links := { s.links with groups := tput s.links.groups (s.fd Reg.FL_MC_SEL_GROUP) w } }.setF Reg.FL_MC_STATUS_RESULT 0

/-- MC_READ, MC_WRITE (R471). -/
def execMcRead (s : State) : Out := .next (s.hostWrite Reg.FL_MC_CMD fun t => t.mcRead)
def execMcWrite (s : State) : Out := .next (s.hostWrite Reg.FL_MC_CMD fun t => t.mcWrite)

/-! ### Multicast (R459, R461 to R463) -/

/-- A copy leaves by a port of the group: sent or waiting where the port may carry it, dropped where it is off (R462), rejected where its key
is not admitted (R450). -/
def State.branch (s : State) (p : FlPacket) (q : Nat) : State :=
  if s.portOff q then s.dropBranch q p
  else if (s.keyEntry q p.pkey).isNone then s.partReject q
  else s.depart q p

/-- The committed entry of a packet's group, where it is in use. -/
def State.groupEntry (s : State) (p : FlPacket) : Option Word :=
  (some (tget (0 : Word) s.links.groups p.group)).filter fun w => bit w 31

/-- Replicates a multicast packet to the ports of its group but for the arrival port (R461, R462). A packet with FENCE, and a copy whose HOP would
reach 16, are not sent. -/
def State.replicate (s : State) (arrival : Option Nat) (p : FlPacket) : State :=
  match s.groupEntry p with
  | none => s
  | some w =>
    let ps := (List.range 16).filter fun q => bit w q && some q ≠ arrival
    if ps.isEmpty then s
    else if bit (p.h 0) 25 || decide (15 ≤ p.hop) then s.inc Reg.FL_MC_REFUSED
    else s.each ps fun t q => t.branch p q

/-- A multicast packet is to be delivered here: its group has LOCAL. -/
def State.mcLocal (s : State) (p : FlPacket) : Bool :=
  match s.groupEntry p with
  | some w => bit w 16
  | none => false

/-- An arrival of a group whose data has been written is counted (R484). -/
def State.mcCount (s : State) (g i : Nat) : State :=
  if ! s.on (Reg.XCH_MCC_EN g) then s
  else
    let c := s.fd (Reg.XCH_MCC_COUNTER g)
    if s.pcOwned c i then (s.free.2).advancePc c 1 s.free.1.toNat else s.inc Reg.FL_MC_REFUSED

/-- The local delivery of a MCAST_WRITE (R449, R451, R463, R483, R484). -/
def State.mcDeliver (s : State) (q : Nat) (p : FlPacket) : State :=
  if p.truncated then s.inc (Reg.FL_TRUNCATED q)
  else if s.fd Reg.PWR_STATUS_STATE = 3 then (s.inc Reg.FL_MC_REFUSED).wakeTrigger
  else match s.target q p with
    | none => s.inc Reg.FL_MC_REFUSED
    | some i =>
      if s.on (Reg.INST_STATUS_IN_RESET i) || ! s.inRemoteWindow i p.addr p.data.length then s.inc Reg.FL_MC_REFUSED
      else (s.hubWrite p.addr p.data).mcCount p.group i

/-- MCAST_WRITE: replicated and delivered. While a page that it would write is not zeroed it waits as a whole (R496). -/
def execMcastWrite (q : Fin 16) (p : FlPacket) (s : State) : Out :=
  .next (if s.mcLocal p && ! p.truncated && s.fd Reg.PWR_STATUS_STATE ≠ 3 && (s.accessReason q p p.addr p.data.length).isNone &&
      ! s.rangeReady p.addr p.data.length then s.demand p.addr p.data.length
    else
      let t := s.replicate (some q.val) p
      if s.mcLocal p then t.mcDeliver q p else t)

end Sys2Proof.Machine
end

