-- ==== Sys2Proof/Machine/Exchange.lean ====
section
/-! DEFINITION. Work across packages (chapter 14): the step gate, the broadcast writer and the statistics block. -/

namespace Sys2Proof.Machine

/-- A run of an instance is in progress. -/
def State.instRuns (s : State) (i : Nat) : Bool := s.net.seqs.any fun e => e.2.inst == i && e.2.state ≠ .gone

/-- A write of XCH_GATE_CTRL (R474, R475): one that sets EN arms the gate, or is refused; clearing EN releases a held step. PER_STEP 0 in a write
that clears EN keeps the old value (R656). -/
def State.gateWrite (s : State) (i : Nat) (v : Word) : State :=
  let c := bits v 27 16
  if bit v 31 then
    if ! s.pcOwned c i || bits v 15 0 == 0 || s.instRuns i then s.setF (Reg.XCH_GATE_CTRL_REFUSED i) 1
    else
      let t := s.plain (Reg.XCH_GATE_CTRL i) v
      (t.wrg64 (Reg.XCH_GATE_BASE_LO i) (t.pc c)).wrg (Reg.XCH_GATE_STEPS i) 0
  else
    let v := if bits v 15 0 = 0 then setBits v 15 0 (s.fd (Reg.XCH_GATE_CTRL_PER_STEP i)) else v
    (s.plain (Reg.XCH_GATE_CTRL i) v).gateEnd i

/-- GATE_ARM (R474). -/
def execGateArm (i : Fin 64) (v : Word) (s : State) : Out := .next (s.hostWrite (Reg.XCH_GATE_CTRL i) fun t => t.gateWrite i v)

/-- A write of XCH_BC_CTRL (R482): a 1 to GO starts one broadcast, provided ON_COMMIT is clear. -/
def State.castWrite (s : State) (i : Nat) (v : Word) : State :=
  let t := s.plain (Reg.XCH_BC_CTRL i) v
  if bit v 31 && ! t.on (Reg.XCH_BC_CTRL_ON_COMMIT i) then t.castStart i false else t

/-- BROADCAST_GO (R482). -/
def execBroadcastGo (i : Fin 64) (v : Word) (s : State) : Out := .next (s.hostWrite (Reg.XCH_BC_CTRL i) fun t => t.castWrite i v)

/-- A MCAST_WRITE of a broadcast (R482, Table 13.2): request-low, from the configuration engine's side of the hub, TAG its instance. -/
def State.castPacket (s : State) (i group a n : Nat) : FlPacket :=
  ⟨flHeader (flWord0 7 false false false true false false 0 0 n) 0 s.srcId group (s.fd (Reg.FL_INST_KEY_KEY i)),
    flOp s.links.nextId 0 0 a 0 0 (hubStop 4) i, s.rdBytes a n⟩

/-- Injects the packets of a broadcast, 4,096 bytes each but the last. -/
def State.castSend (s : State) (i group a : Nat) : Nat → Nat → State
  | _, 0 => s
  | n, f + 1 =>
    if n = 0 then s
    else
      let p := s.castPacket i group a (min 4096 n)
      let t := { s with links := { s.links with nextId := (s.links.nextId + 1) % 2 ^ 32 } }
      (t.replicate none p).castSend i group (a + 4096) (n - 4096) f

/-- BROADCAST_DONE (R483): the last packet is injected. An instance without a valid key sends nothing (R452). -/
def execBroadcastDone (i : Fin 64) (s : State) : Out :=
  .next (match s.links.casts.find? fun e => e.1 == i.val with
    | none => s
    | some e =>
      let x := e.2
      if ! s.rangeReady x.addr x.bytes then s.demand x.addr x.bytes
      else
        let t := if s.on (Reg.FL_INST_KEY_VALID i) then s.castSend i x.group x.addr x.bytes (ceilDiv x.bytes 4096) else s
        let t := { t with links := { t.links with casts := tdel t.links.casts i.val } }
        (t.setF (Reg.XCH_BC_CTRL_BUSY i) 0).setF (Reg.XCH_BC_STATUS_DONE i) 1)

/-- The statistics block starts again at 0 (R488). -/
def State.statClear (s : State) (i : Nat) : State :=
  (((s.wrg (Reg.STAT_STEPS i) 0).wrg (Reg.STAT_BAD i) 0).wrg64 (Reg.STAT_PIECE_SQ_LO i) 0).wrg64 (Reg.STAT_TOTAL_SQ_LO i) 0

/-- A write of STAT_CTRL (R488). -/
def State.statWrite (s : State) (i : Nat) (v : Word) : State :=
  let n := s.fd (Reg.STAT_SHAPE_SLICES i) * s.fd (Reg.STAT_SHAPE_PIECES i)
  if bit v 31 && (! s.inWindow i (s.statBase i) (16 * n) || decide (16384 < n)) then s.setF (Reg.STAT_CTRL_REFUSED i) 1
  else
    let t := s.plain (Reg.STAT_CTRL i) v
    if bit v 30 then t.statClear i else t

/-- STAT_ARM, STAT_CLEAR (R488). -/
def execStatArm (i : Fin 64) (v : Word) (s : State) : Out := .next (s.hostWrite (Reg.STAT_CTRL i) fun t => t.statWrite i v)
def execStatClear (i : Fin 64) (v : Word) (s : State) : Out := .next (s.hostWrite (Reg.STAT_CTRL i) fun t => t.statWrite i v)

end Sys2Proof.Machine
end

