-- ==== Sys2Proof/Machine/PlaneCheck.lean ====
section
/-! DEFINITION. The load checks of the configuration engine (R53 and the rules that extend it: R52, R68, R71, R79, R100, R121, R133, R147,
R167, R226, R231, R238, R239, R242, R243, R245, R247, R253, R257, R270, R289, R291, R310, R526, R662). A plane is checked as its words
say it; `key` of a plane names its place in the image (see ProgSlot). -/

namespace Sys2Proof.Machine

/-! ### Reading a plane -/

/-- Bits [hi:lo] of a number. -/
def nbits (v hi lo : Nat) : Nat := v / 2 ^ lo % 2 ^ (hi + 1 - lo)

/-- A plane of an image, from its key and its words. -/
def imagePlane (key : Nat) (ws : Table Word) : Plane := { noPlane with sect := key / 65536, lc := key / 8 % 512, key := key, words := ws }

/-- Slot word i, its class and a field of it (Tables 2.1, 2.3). -/
def Plane.sw (p : Plane) (i : Nat) : Nat := (p.w (0x40 + 8 * i)).toNat + 2 ^ 32 * (p.w (0x44 + 8 * i)).toNat
def Plane.cls (p : Plane) (i : Nat) : Nat := nbits (p.sw i) 63 60
def Plane.sf (p : Plane) (i hi lo : Nat) : Nat := nbits (p.sw i) hi lo
def Plane.unit (p : Plane) (i : Nat) : Nat := p.sf i 54 52

/-- The slots of a class. -/
def Plane.slotsOf (p : Plane) (cls : Nat) : List Nat := (List.range p.slotWords).filter fun i => p.cls i == cls

def Plane.streamCount (p : Plane) : Nat := p.f 4 13 9
def Plane.counterCount (p : Plane) : Nat := p.f 4 6 0
def Plane.epilogues (p : Plane) : Nat := p.f 8 27 23

/-- Words of a plane are zero. -/
def Plane.zero (p : Plane) (off n : Nat) : Bool := (List.range n).all fun k => p.w (off + 4 * k) == 0#32

/-- A byte range lies within the plane's scratchpad range (R52). -/
def Plane.within (p : Plane) (a n : Nat) : Bool := decide (p.scratchBase ≤ a) && decide (a + n ≤ p.scratchTop)

/-- Ranges as base and size do not meet. -/
def apart (a an b bn : Nat) : Bool := decide (a + an ≤ b) || decide (b + bn ≤ a)

/-- A number lies in a range. -/
def between (lo v hi : Nat) : Bool := decide (lo ≤ v) && decide (v ≤ hi)

/-! ### The header (R52, R53, R133) -/

def Plane.headerOk (p : Plane) : Bool :=
  p.f 0 3 3 == 0 && between 1 p.contexts 4 && between 1 p.slotWords 4096 && decide (p.loopTables ≤ 16) && decide (p.streamCount ≤ 16) &&
    p.f 4 8 7 == 0 && decide (p.counterCount ≤ 64) && decide (p.epilogues ≤ 16) && p.f 8 31 28 == 0 && p.f 12 31 23 == 0 &&
    p.zero 0x10 12 && decide (p.scratchBase < p.scratchTop) && decide (p.scratchTop ≤ 0x600000) &&
    ((List.range p.contexts).all fun c => p.accMask c ≠ 0) && p.zero 0x9F40 48 &&
    p.zero (0x8040 + 256 * p.loopTables) (64 * (16 - p.loopTables)) && p.zero (0x9040 + 64 * p.streamCount) (16 * (16 - p.streamCount)) &&
    p.zero (0x9640 + 16 * p.counterCount) (4 * (64 - p.counterCount)) && p.zero (0x9A40 + 64 * p.epilogues) (16 * (16 - p.epilogues))

/-! ### The operands that a plane's operations use (R162, Table 4.2) -/

/-- An operand that a slot uses: loop table, operand, format, and whether it lies in a bank. -/
structure OpUse where
  lt : Nat
  op : Nat
  fmt : Nat
  bank : Bool
  deriving DecidableEq, Repr

/-- Integer formats, and floating ones (Table 3.1). -/
def vecInt (f : Nat) : Bool := f == 4 || f == 5 || f == 8
def vecFloat (f : Nat) : Bool := decide (f ≤ 3) || f == 6 || f == 7

/-- A vector operation is defined (Table 5.3). -/
def vopDefined (v : Nat) : Bool :=
  decide (v ≤ 6) || between 8 v 0xB || between 0x10 v 0x13 || between 0x18 v 0x1E || between 0x20 v 0x21 || between 0x28 v 0x29

def Plane.matUses (p : Plane) (i : Nat) : List OpUse :=
  if p.sf i 47 45 = 0 then [⟨p.sf i 44 41, 1, p.sf i 36 33, false⟩] else [⟨p.sf i 44 41, 0, p.sf i 40 37, false⟩]

def Plane.vecUses (p : Plane) (i : Nat) : List OpUse :=
  let t := p.sf i 41 38
  let v := p.sf i 47 42
  let src (o f c : Nat) : OpUse := ⟨t, o, f, c == 1 || c == 2⟩
  [src 0 (p.sf i 37 34) (p.sf i 25 24), src 3 (p.sf i 29 26) (p.sf i 21 20)] ++
    (if vopTakesB v && p.sf i 23 22 ≠ 3 then [src 1 (p.sf i 33 30) (p.sf i 23 22)] else []) ++
    (if p.sf i 19 19 = 1 ∨ v = 0x13 then [⟨t, 2, 4, false⟩] else if 0x28 ≤ v then [⟨t, 2, 8, false⟩] else [])

def Plane.uses (p : Plane) : List OpUse := (p.slotsOf 1).flatMap p.matUses ++ (p.slotsOf 2).flatMap p.vecUses

/-- Loop tables that a MATRIX slot names. -/
def Plane.matTables (p : Plane) : List Nat := ((p.slotsOf 1).map fun i => p.sf i 44 41).dedup

/-! ### Loop tables (Tables 7.1 to 7.3, 7.6; R231, R234, R236, R242, R243) -/

/-- A level is in use as a tile level of a table (R224). -/
def Plane.tileLevel (p : Plane) (t l : Nat) : Bool :=
  decide (t < p.loopTables) && decide (l < p.levels t) && decide (p.elems t ≤ p.order t l)

def Plane.ltHeaderOk (p : Plane) (t : Nat) : Bool :=
  let d (k : Nat) := p.ddim t k
  between 1 (p.levels t) 6 && decide (p.elems t ≤ p.levels t) && p.lt t 0 17 0 == 0 && p.lt t 2 31 16 == 0 && p.lt t 3 7 0 == 0 &&
    p.lt t 4 31 24 == 0 && p.zero (0x8040 + 256 * t + 20) 3 && p.zero (0x8040 + 256 * t + 240) 4 && d 0 ≠ 6 && d 1 ≠ 6 &&
    (d 0 ≠ d 1 || d 0 == 7) &&
    (List.range 6).all fun l => decide (l < p.levels t) || p.zero (0x8040 + 256 * t + 32 + 24 * l) 6

def Plane.levelsOk (p : Plane) (t : Nat) : Bool :=
  let ls := List.range (p.levels t)
  (ls.all fun o => (ls.filter fun l => p.order t l == o).length == 1) &&
    (ls.all fun l => p.lt t (9 + 6 * l) 24 16 == 0 && p.dim t l ≠ 6 &&
      if p.dyn t l then p.lt t (8 + 6 * l) 31 0 == 0 && decide (1 ≤ p.weight t l) && (p.dynDim t l).isSome
      else decide (1 ≤ p.lt t (8 + 6 * l) 31 0)) &&
    ([0, 1].all fun k => decide ((ls.filter fun l => p.dyn t l && p.dynDim t l == some k).length ≤ 1))

/-- The record of an operand, for the uses that slots make of it. An extent belongs to a scratchpad operand: a bank operand's is ignored
(R229), and one that no slot uses is held to it. -/
def Plane.operandOk (p : Plane) (us : List OpUse) (t o : Nat) : Bool :=
  if ! p.inUse t o then p.zero (0x8040 + 256 * t + 176 + 16 * o) 4
  else
    let mine := us.filter fun u => u.lt == t && u.op == o
    let banked := ! mine.isEmpty && mine.all fun u => u.bank
    let matrixOut := o == 3 && p.matTables.contains t
    p.lt t (44 + 4 * o) 28 23 == 0 && p.lt t (45 + 4 * o) 31 23 == 0 && p.lt t (47 + 4 * o) 31 23 == 0 && p.scMode t o ≠ 3 &&
      (if p.scMode t o = 2 then decide (1 ≤ p.scPitch t o) else p.scPitch t o == 0) &&
      (p.scMode t o ≠ 0 || p.scaleBase t o == 0) &&
      (mine.all fun u => (u.fmt == 6) == decide (p.scMode t o ≠ 0)) &&
      (mine.all fun u => ! u.bank || p.base t o / 2 ^ 14 == 0) &&
      (banked || (decide (p.extLo t o < p.extHi t o) && decide (p.scratchBase ≤ p.extLo t o) && decide (p.extHi t o ≤ p.scratchTop) &&
        (if matrixOut then p.base t o == 0 else decide (p.extLo t o ≤ p.base t o) && decide (p.base t o < p.extHi t o))))

/-- The rule of R231 for a table that a MATRIX slot names, and the zero fields of R233. -/
def Plane.matTableOk (p : Plane) (t : Nat) : Bool :=
  let k := p.levelAt t 0
  let r := p.levelAt t 1
  p.elems t == 2 && ! p.dyn t k && ! p.dyn t r && p.stride t k 0 == 1 && p.stride t r 1 == 0 && p.stride t k 3 == 0 && p.stride t r 3 == 0

/-- An enabled halo binding of a table: its dimension, and its lower and upper endpoints where it has them (Table 7.1). -/
def Plane.haloBinding (p : Plane) (t b : Nat) : Option (Nat × Option Nat × Option Nat) :=
  let w := p.lt t 3 31 0 / (if b = 0 then 2 ^ 20 else 2 ^ 8)
  if w.testBit 11 then
    some (nbits w 10 8, if w.testBit 7 then some (nbits w 6 4) else none, if w.testBit 3 then some (nbits w 2 0) else none)
  else none

/-- The halo endpoints of a table. -/
def Plane.haloEps (p : Plane) (t : Nat) : List Nat :=
  [0, 1].flatMap fun b => match p.haloBinding t b with
    | some (_, lo, hi) => lo.toList ++ hi.toList
    | none => []

/-- R242 and R243: halo widths and bindings agree, the unit level carries the width, and no slab exceeds 16 KiB. -/
def Plane.haloOk (p : Plane) (us : List OpUse) (b t : Nat) : Bool :=
  let wide := (List.range 6).filter fun d => p.haloWidth t d ≠ 0
  let binds := [0, 1].filterMap fun k => p.haloBinding t k
  let op := p.lt t 0 19 18
  let width := fmtWidth (((us.filter fun u => u.lt == t && u.op == op).map fun u => u.fmt).headD 7)
  decide (wide.length ≤ 2) && (wide.all fun d => binds.any fun x => x.1 == d) && (binds.all fun x => wide.contains x.1) &&
    (binds.isEmpty || p.inUse t op) &&
    binds.all fun x =>
      let d := x.1
      let units := (List.range (p.levels t)).filter fun l => decide (p.order t l < p.elems t) && p.dim t l == d
      units.length == 1 && units.all fun l =>
        p.weight t l == 1 && decide (p.haloWidth t d ≤ p.bound b t l) &&
          (let others := ((List.range (p.levels t)).filter fun m => decide (p.order t m < p.elems t) && m ≠ l).map fun m => p.bound b t m
           decide (ceilDiv (p.haloWidth t d * others.prod * width) 8 ≤ 16384))

def Plane.loopTableOk (p : Plane) (us : List OpUse) (b t : Nat) : Bool :=
  p.ltHeaderOk t && p.levelsOk t && decide (p.positions b t ≤ 2 ^ 31) && ((List.range 4).all fun o => p.operandOk us t o) &&
    (! p.matTables.contains t || p.matTableOk t) && p.haloOk us b t

/-- The bucket table (R238, R239): entries below BUCKETS rise and differ, the others and the reserved words are zero. -/
def Plane.bucketsOk (p : Plane) (nb : Nat) : Bool :=
  let z (b : Nat) := (p.bucketSize b 0, p.bucketSize b 1)
  ((List.range 8).all fun b => p.zero (0x9E40 + 32 * b + 8) 6 && (decide (b < nb) || z b == (0, 0))) &&
    ((List.range nb).all fun b => ((z b).1 == 0) == ((z 0).1 == 0) && ((z b).2 == 0) == ((z 0).2 == 0)) &&
    ((List.range (nb - 1)).all fun b => decide ((z b).1 ≤ (z (b + 1)).1) && decide ((z b).2 ≤ (z (b + 1)).2) && z b ≠ z (b + 1))

/-! ### Epilogue descriptors (Table 4.5, R147) -/

def Plane.epilogueOk (p : Plane) (e : Nat) : Bool :=
  let act := p.ed e 0 27 24
  let fmt := p.ed e 0 31 28
  let scale := p.ed e 0 17 17 == 1
  let bias := p.ed e 0 16 16 == 1
  let idx := p.ed e 0 15 15 == 1
  let base (k : Nat) (used : Bool) : Bool :=
    let a := p.ed e k 22 0
    if used then a % 64 == 0 && p.within a 1 else a == 0
  decide (fmt ≤ 8) && decide (act ≤ 8) && (if act = 3 then decide (1 ≤ p.ed e 0 23 20) else p.ed e 0 23 20 == 0) &&
    decide (p.ed e 0 19 18 ≤ 1) && p.ed e 0 14 8 == 0 && between 1 (p.ed e 0 7 0) 128 &&
    ((List.range 8).all fun k => p.ed e (k + 1) 31 23 == 0) && p.zero (0x9A40 + 64 * e + 40) 6 &&
    base 1 true && base 3 scale && base 4 bias && base 5 (act == 8) && base 6 (fmt == 6) && base 7 idx &&
    p.ed e 2 22 0 % 64 == 0 && decide (16 * fmtWidth fmt ≤ p.ed e 2 22 0) &&
    (if idx then p.ed e 8 22 0 % 64 == 0 && decide (512 ≤ p.ed e 8 22 0) else p.ed e 8 22 0 == 0) &&
    (p.ed e 0 19 18 == 1 || p.ed e 9 31 0 == 0)

/-! ### Stream descriptors (Tables 8.1, 8.2; R255, R257, R526) -/

/-- A counter binding that is in use (R289). -/
def Plane.bound? (p : Plane) (b : Nat) : Bool := decide (b < p.counterCount) && p.cb b 0 31 31 == 1

def Plane.descOk (p : Plane) (b d : Nat) : Bool :=
  let kind := p.sd d 0 31 29
  let dyn := p.sd d 0 25 24
  let n := p.sBlocks b d
  let rows := (p.sd d 1 15 0 - 1) * p.sd d 9 16 0 + p.sd d 0 8 0
  let places := if p.sd d 0 23 20 = 0 then n else p.sd d 0 23 20
  decide (kind ≤ 4) && dyn ≠ 3 && decide (p.sd d 0 23 20 ≤ 8) && p.sd d 0 19 9 == 0 && between 1 (p.sd d 0 8 0) 256 &&
    p.sd d 1 31 16 == 0 && decide (1 ≤ p.sd d 1 15 0) && p.sd d 3 31 16 == 0 &&
    (if dyn = 0 then decide (1 ≤ p.sd d 2 31 0) && p.sd d 3 15 0 == 0 else p.sd d 2 31 0 == 0 && decide (1 ≤ p.sd d 3 15 0)) &&
    p.sd d 4 5 0 == 0 && p.sd d 5 31 8 == 0 && p.sd d 8 31 23 == 0 && p.sd d 8 5 0 == 0 && p.sd d 9 31 17 == 0 && p.sd d 10 31 17 == 0 &&
    p.sd d 11 15 14 == 0 && p.sd d 12 30 30 == 0 && p.sd d 12 23 0 == 0 && p.zero (0x9040 + 64 * d + 52) 3 &&
    (p.sd d 0 28 28 == 0 || (p.sd d 0 23 20 == 0 && (kind == 0 || kind == 3))) &&
    (decide (kind < 3) || p.sd d 5 7 7 == 0) &&
    (p.sd d 12 31 31 == 0 || p.bound? (p.sd d 12 29 24)) &&
    (if kind = 2 then decide (64 * p.sd d 0 8 0 * p.sd d 1 15 0 ≤ 16384)
     else
      (p.sd d 0 23 20 == 0 || decide (rows ≤ p.sd d 10 16 0)) &&
        (places == 0 || p.within (p.sd d 8 22 0) (64 * ((places - 1) * p.sd d 10 16 0 + rows))))

/-! ### Channel bindings (Table 8.8, R269, R270) -/

/-- A send or receive endpoint has a valid binding. -/
def Plane.sendBound (p : Plane) (i : Nat) : Bool := p.sb i 31 31 == 1
def Plane.recvBound (p : Plane) (j : Nat) : Bool := p.rb j 0 31 31 == 1

/-- A receive endpoint that a halo binding names. -/
def Plane.isHalo (p : Plane) (j : Nat) : Bool := (List.range p.loopTables).any fun t => (p.haloEps t).contains j

def Plane.bindingsOk (p : Plane) : Bool :=
  ((List.range 8).all fun i =>
    if p.sendBound i then p.sb i 9 0 == 0 && between 1 (p.sb i 14 11) 8 && p.zero (0x9440 + 32 * i + 4) 7 else p.zero (0x9440 + 32 * i) 8) &&
  (List.range 8).all fun j =>
    if p.recvBound j then
      p.rb j 0 11 0 == 0 && p.zero (0x9540 + 32 * j + 12) 5 && p.rb j 1 31 23 == 0 && p.rb j 2 31 15 == 0 &&
        decide (1 ≤ p.bpc j) && decide (p.bpc j * p.contexts ≤ 8) && (p.rb j 0 29 29 == 0 || p.rb j 0 28 17 == 0) &&
        (if p.isHalo j then p.rb j 1 22 0 == 0 && p.rb j 2 14 0 == 0
         else
          p.rb j 1 5 0 == 0 && p.rb j 2 5 0 == 0 && between 64 (p.rb j 2 14 0) 16384 &&
            p.within (p.rb j 1 22 0) (p.bpc j * p.contexts * p.rb j 2 14 0))
    else p.zero (0x9540 + 32 * j) 8

/-- Halo endpoints are bound, and each is named once among all the plane's loop tables (R245). -/
def Plane.halosOk (p : Plane) : Bool :=
  let eps := (List.range p.loopTables).flatMap p.haloEps
  eps.all p.recvBound && eps.dedup.length == eps.length

/-! ### Counter bindings (Table 9.2, R289, R291) -/

/-- The counters that an OWN or MIRROR binding names. -/
def Plane.ctrs (p : Plane) (b : Nat) : List Nat :=
  (List.range (if p.cb b 0 28 28 = 1 then p.contexts else 1)).map (p.cb b 0 11 0 + ·)

/-- One counter binding; `owned` tells the package counters of the loading instance. -/
def Plane.counterOk (p : Plane) (owned : Nat → Bool) (b : Nat) : Bool :=
  if p.cb b 0 31 31 = 0 then p.zero (0x9640 + 16 * b) 4
  else
    let kind := p.cb b 0 30 29
    let role := p.cb b 0 26 25
    let per := p.cb b 0 28 28
    p.cb b 0 14 12 == 0 && role ≠ 3 && p.cb b 3 30 0 == 0 &&
      (if role = 0 then p.cb b 0 18 15 == 0
       else kind == 0 && decide (1 ≤ p.cb b 0 18 15) && p.bound? (p.cb b 0 24 19) && p.cb (p.cb b 0 24 19) 0 30 29 == 1) &&
      match kind with
      | 0 => (p.ctrs b).all (fun i => decide (i < 64)) &&
          (p.cb b 1 31 31 == 0 || decide (p.cb b 1 21 16 + (p.ctrs b).length ≤ 64))
      | 1 => (p.ctrs b).all (fun i => decide (i < 64)) && p.cb b 1 31 0 == 0
      | 2 => per == 0 && p.cb b 1 31 6 == 0 && owned (p.cb b 0 11 0)
      | _ => per == 0 && p.cb b 1 31 14 == 0

/-! ### Slots -/

/-- A MATRIX slot (R133, R100, R121, R147, R231). -/
def Plane.matrixSlotOk (p : Plane) (i : Nat) : Bool :=
  let mop := p.sf i 47 45
  let t := p.sf i 44 41
  let a := p.sf i 40 37
  let w := p.sf i 36 33
  let dim (v : Nat) : Nat := if v = 0 then 128 else v
  let bk := p.lt t (8 + 6 * p.levelAt t 0) 31 0
  let br := p.lt t (8 + 6 * p.levelAt t 1) 31 0
  decide (mop ≤ 3) && p.sf i 10 0 == 0 && decide (t < p.loopTables) && decide (w ≤ 6) && decide (a ≤ 6) &&
    (if mop = 0 then a == 0 && p.sf i 32 19 == 0 && between 1 bk 128 && between 1 br 128 && p.inUse t 1
     else vecInt a == vecInt w && bk == dim (p.sf i 25 19) && br == dim (p.sf i 32 26) && p.inUse t 0) &&
    (if p.sf i 15 15 = 1 then decide (p.sf i 14 11 < p.epilogues) && (mop ≠ 1 || p.ed (p.sf i 14 11) 0 15 15 == 0) else p.sf i 14 11 == 0) &&
    (decide (mop < 2) || (List.range p.contexts).all fun c => p.accMask c == 3)

/-- Formats that Table 5.3 allows. -/
def vecFmts (v a b d : Nat) : Bool :=
  let both (f : Nat → Bool) : Bool := f a && (f b || ! vopTakesB v)
  let word (f : Nat) : Bool := f == 7 || f == 8
  decide (a ≤ 8) && decide (b ≤ 8) && decide (d ≤ 8) && d ≠ 6 &&
  if v = 0 then true
  else if v ≤ 6 ∨ v = 0x11 ∨ v = 0x12 then both vecInt && vecInt d
  else if v ≤ 0xB ∨ v = 0x13 then word a && a == b && a == d
  else if v = 0x10 then both vecInt && d == 4
  else if v = 0x1A then both vecFloat && d == 4
  else if v ≤ 0x20 then both vecFloat && vecFloat d
  else if v = 0x21 then a ≠ 6 && vecInt b
  else word a && word b && word d

/-- A VECTOR slot with its EXT word (R165 to R168, R177, R187). `n` is the number of positions of its loop table. -/
def Plane.vectorSlotOk (p : Plane) (b i : Nat) : Bool :=
  let v := p.sf i 47 42
  let t := p.sf i 41 38
  let sub := p.sf (i + 1) 59 56
  let aux := p.sf (i + 1) 54 32
  let sa := p.sf i 25 24
  let sb := p.sf i 23 22
  let dst := p.sf i 21 20
  let word (f : Nat) : Bool := f == 7 || f == 8
  let sumsq := p.sf i 18 18 == 1
  p.unit i == 0 && p.sf i 16 0 == 0 && p.sf (i + 1) 55 55 == 0 && vopDefined v && decide (t < p.loopTables) &&
    sa ≠ 3 && dst ≠ 3 && (sb ≠ 3 || vopTakesB v) && vecFmts v (p.sf i 37 34) (p.sf i 33 30) (p.sf i 29 26) &&
    (sa == 0 || word (p.sf i 37 34)) && (sb == 0 || ! vopTakesB v || word (p.sf i 33 30)) && (dst == 0 || word (p.sf i 29 26)) &&
    (if v = 0x10 then decide (sub ≤ 7) else if v = 0x1A then decide (sub ≤ 9) && sub ≠ 6 && sub ≠ 7
     else if v = 0x20 then decide (sub ≤ 3) else sub == 0) &&
    (p.sf i 19 19 == 0 || (v ≠ 0x13 && v ≠ 0x21 && decide (v < 0x28))) &&
    (! sumsq || ((v == 0x18 || v == 0x19 || v == 0) && decide (p.positions b t ≤ 2 ^ 22))) &&
    (if v = 0x20 ∧ sub = 0 then aux % 64 == 0 && p.within aux 1040 else if sumsq then aux % 16 == 0 && p.within aux 16 else aux == 0) &&
    (v ≠ 0x21 || sa == 0) && (decide (v < 0x28) || (sa == 1 && dst == 1)) &&
    (p.vecUses i).all fun u => p.inUse t u.op

/-- SEND (Table 8.9a, R270): the endpoint and, in halo form, the halo binding are in use; the tile lies in the plane's range. -/
def Plane.sendSlotOk (p : Plane) (i : Nat) : Bool :=
  p.sendBound (p.unit i) &&
  if p.sf i 47 47 = 1 then
    p.sf i 40 0 == 0 && decide (p.sf i 46 43 < p.loopTables) && (p.haloBinding (p.sf i 46 43) (p.sf i 42 42)).isSome
  else p.sf i 15 0 == 0 && p.sf i 29 24 == 0 && p.within (p.sf i 46 24) (64 * (p.sf i 23 16 + 1))

/-- LOOP (R226). -/
def Plane.loopSlotOk (p : Plane) (i : Nat) : Bool :=
  let l := p.unit i
  let ts := (List.range p.loopTables).filter fun t => p.tileLevel t l
  let spec (t : Nat) : Bool × Nat × Nat × Nat :=
    if p.dyn t l then (true, 0, p.dim t l, p.weight t l) else (false, p.lt t (8 + 6 * l) 31 0, 0, 0)
  decide (l ≤ 5) && p.sf i 35 0 == 0 && ! ts.isEmpty && (ts.all fun t => spec t == spec (ts.headD 0)) &&
    decide (p.sf i 47 36 < p.slotWords) && p.cls (p.sf i 47 36) ≠ 14

/-- PRED (R662). -/
def Plane.predSlotOk (p : Plane) (i : Nat) : Bool :=
  let src := p.sf i 44 43
  p.unit i == 0 && p.sf i 47 45 ≠ 0 && p.sf i 31 23 == 0 && (src == 0 || p.sf i 42 42 == 0) && (src == 1 || p.sf i 41 35 == 0) &&
    (src == 2 || p.sf i 34 32 == 0) && (src == 3 || p.sf i 22 0 == 0) &&
    match src with
    | 0 => true
    | 1 => p.tileLevel (p.sf i 41 38) (p.sf i 37 35)
    | 2 => p.recvBound (p.sf i 34 32)
    | _ => p.within (p.sf i 22 0) 1

/-- One slot word (R53, R54). An EXT word stands behind a VECTOR slot alone. -/
def Plane.slotOk (p : Plane) (b i : Nat) : Bool :=
  let ok := p.sf i 51 48 == 0
  match p.cls i with
  | 0 => ok && p.sf i 47 0 == 0
  | 1 => ok && p.matrixSlotOk i
  | 2 => ok && decide (i + 1 < p.slotWords) && p.cls (i + 1) == 14 && p.vectorSlotOk b i
  | 3 => ok && p.sf i 41 0 == 0 && decide (p.sf i 45 42 < p.streamCount) && (p.sf i 47 46 ≠ 0 || decide (p.unit i ≤ 3))
  | 4 => ok && p.sendSlotOk i
  | 5 => ok && p.sf i 44 0 == 0 && p.recvBound (p.unit i)
  | 6 => ok && p.sf i 47 0 == 0 && p.recvBound (p.unit i)
  | 7 => ok && p.sf i 41 16 == 0 && p.sf i 15 0 ≠ 0 && p.bound? (p.sf i 47 42)
  | 8 => ok && p.sf i 34 32 == 0 && p.bound? (p.sf i 47 42) && p.cb (p.sf i 47 42) 0 30 29 ≠ 3 &&
      (if p.sf i 35 35 = 1 then p.bound? (p.sf i 41 36) else p.sf i 41 36 == 0)
  | 9 => ok && p.loopSlotOk i
  | 10 => ok && p.predSlotOk i
  | 11 => ok && p.sf i 43 0 == 0 && p.sf i 47 44 ≠ 15
  | 12 => ok && p.sf i 47 0 == 0
  | 13 => ok && p.sf i 47 0 == 0
  | 14 => decide (0 < i) && p.cls (i - 1) == 2
  | _ => false

/-- The engines on which a plane starts a descriptor (R253). -/
def Plane.engines (p : Plane) (d : Nat) : List Nat :=
  (((p.slotsOf 3).filter fun i => p.sf i 47 46 == 0 && p.sf i 45 42 == d).map fun i => p.unit i).dedup

/-- The checks that one plane's words alone decide, for the bucket count of its section. -/
def Plane.selfOk (p : Plane) (nb : Nat) (owned : Nat → Bool) : Bool :=
  let b := nb - 1
  let us := p.uses
  p.headerOk && p.bucketsOk nb && ((List.range p.loopTables).all fun t => p.loopTableOk us b t) && ((List.range p.epilogues).all p.epilogueOk) &&
    ((List.range p.streamCount).all fun d => p.descOk b d && decide ((p.engines d).length ≤ 1)) && p.bindingsOk && p.halosOk &&
    ((List.range p.counterCount).all (p.counterOk owned)) && (List.range p.slotWords).all fun i => p.slotOk b i

/-! ### Checks over the planes of a section -/

/-- No element of a list meets a later one. -/
def pairwiseOk {α : Type} (ok : α → α → Bool) : List α → Bool
  | [] => true
  | x :: xs => xs.all (ok x) && pairwiseOk ok xs

/-- Endpoint numbers that two planes bind (R68, R71). -/
def Plane.epsApart (x y : Plane) : Bool :=
  (List.range 8).all fun i => ! (x.sendBound i && y.sendBound i) && ! (x.recvBound i && y.recvBound i)

/-- The counters that a plane names as OWN, and those it names as MIRROR or LOCAL. -/
def Plane.owns (p : Plane) : List Nat :=
  ((List.range p.counterCount).filter fun b => p.bound? b && p.cb b 0 30 29 == 0).flatMap p.ctrs
def Plane.mirrors (p : Plane) : List Nat :=
  (List.range p.counterCount).flatMap fun b =>
    if p.bound? b && p.cb b 0 30 29 == 1 then p.ctrs b else if p.bound? b && p.cb b 0 30 29 == 2 then [p.cb b 1 5 0] else []

/-- The instance slots of an engine that a plane needs (R253). -/
def Plane.engineNeed (p : Plane) (e : Nat) : Nat :=
  ((List.range p.streamCount).filter fun d => (p.engines d).contains e).length * p.contexts

/-- The planes that one cluster holds together: those of a stage, or of a fold variant (R53, R68, R71, R253, R291). -/
def stageOk (ps : List Plane) : Bool :=
  let ring := if ps.any Plane.variant then ps else ps.filter Plane.foldEn
  pairwiseOk (fun x y => apart x.scratchBase (x.scratchTop - x.scratchBase) y.scratchBase (y.scratchTop - y.scratchBase)) ps &&
    pairwiseOk Plane.epsApart ring &&
    (ps.all fun x => ! x.foldEn || ps.any fun y => y.foldEn && y.place == x.foldNext) &&
    ((List.range 4).all fun e => decide ((ps.map fun x => x.engineNeed e).sum ≤ 32)) &&
    (let ms := ps.flatMap Plane.mirrors; (ps.flatMap Plane.owns).all fun i => ! ms.contains i)

/-- The bindings with UPD_EN that feed mirror counter i of a logical cluster, as plane and binding. -/
def feeders (all : List Plane) (sect lc i : Nat) (near : Plane) : List (Plane × Nat) :=
  (all.filter fun x => x.sect == sect && (! x.variant || x.stage == near.stage)).flatMap fun x =>
    ((List.range x.counterCount).filter fun b => x.bound? b && x.cb b 0 30 29 == 0 && x.cb b 1 31 31 == 1 && x.cb b 1 30 22 == lc &&
      between (x.cb b 1 21 16) i (x.cb b 1 21 16 + (x.ctrs b).length - 1)).map fun b => (x, b)

/-- The feeders of a MIRROR binding. A plane of a fold variant serves both clusters of its pair; planes of the unfolded stages of a pair are
not counted for its variant. -/
def mirrorFeeders (all : List Plane) (p : Plane) (i : Nat) : List (Plane × Nat) :=
  (p.serves.flatMap fun lc => feeders all p.sect lc i p).filter fun x => ! p.variant || x.1.stage == p.stage || ! p.serves.contains x.1.lc

/-- MIRROR bindings of a plane (R291): each is fed, in all its counters, by exactly one OWN binding, and PER_CTX and the first counter
agree. -/
def Plane.mirrorsFed (all : List Plane) (p : Plane) : Bool :=
  (List.range p.counterCount).all fun b => ! p.bound? b || p.cb b 0 30 29 ≠ 1 ||
    (p.ctrs b).all fun i => match mirrorFeeders all p i with
      | [(x, k)] => (x.cb k 0 28 28 == 0 || (p.cb b 0 28 28 == 1 && p.cb b 0 11 0 == x.cb k 1 21 16)) &&
          (p.ctrs b).all fun j => (mirrorFeeders all p j).all fun y => y.1.key == x.key && y.2 == k
      | _ => false

/-- Every update goes to a MIRROR binding of its section at the cluster it names. -/
def Plane.updatesLand (all : List Plane) (p : Plane) : Bool :=
  (List.range p.counterCount).all fun b => ! (p.bound? b && p.cb b 0 30 29 == 0 && p.cb b 1 31 31 == 1) ||
    (List.range (p.ctrs b).length).all fun c => all.any fun y =>
      y.sect == p.sect && y.serves.contains (p.cb b 1 30 22) && (! y.variant || y.stage == p.stage) &&
        (List.range y.counterCount).any fun k => y.bound? k && y.cb k 0 30 29 == 1 && (y.ctrs k).contains (p.cb b 1 21 16 + c)

/-- Pairs (R291, R297): the PEER of a binding with a ROLE is fed by a binding of opposite ROLE with equal DEPTH and PER_CTX, whose own PEER
is fed by this one. -/
def Plane.pairsOk (all : List Plane) (p : Plane) : Bool :=
  (List.range p.counterCount).all fun b => ! p.bound? b || p.cb b 0 26 25 == 0 ||
    match mirrorFeeders all p (p.cb (p.cb b 0 24 19) 0 11 0) with
    | [(x, k)] => x.cb k 0 26 25 == 3 - p.cb b 0 26 25 && x.cb k 0 18 15 == p.cb b 0 18 15 && x.cb k 0 28 28 == p.cb b 0 28 28 &&
        (mirrorFeeders all x (x.cb (x.cb k 0 24 19) 0 11 0)).any fun y => y.1.key == p.key && y.2 == b
    | _ => false

/-! ### Channel pairing (R270, R257) -/

/-- The plane that a logical cluster and a plane index name in a section, seen from a plane: within its own fold variant, or in the unfolded
stages. -/
def planeNamed (all : List Plane) (sect lc index : Nat) (near : Plane) : Option Plane :=
  if near.variant && near.sect == sect && near.serves.contains lc then all.find? fun y => y.stage == near.stage && y.place == index
  else all.find? fun y => y.sect == sect && ! y.variant && y.lc == lc && y.place == index

/-- The longest tile of a plane's plain SENDs on an endpoint, in bytes. -/
def Plane.longestTile (p : Plane) (ep : Nat) : Nat :=
  ((p.slotsOf 4).map fun i => if p.unit i = ep ∧ p.sf i 47 47 = 0 then 64 * (p.sf i 23 16 + 1) else 0).foldl max 0

/-- Send binding i of x and receive binding j of y fit each other, but for the planes they name. -/
def fitting (x : Plane) (i : Nat) (y : Plane) (j : Nat) : Bool :=
  y.recvBound j && y.rb j 0 29 29 == 0 && y.rb j 0 19 17 == i && x.serves.contains (y.rb j 0 28 20) && y.rb j 0 12 12 == x.sb i 10 10 &&
    y.rb j 0 30 30 == x.sb i 30 30 && x.sb i 14 11 == y.bpc j && x.contexts == y.contexts &&
    (y.isHalo j || decide (x.longestTile i ≤ y.rb j 2 14 0))

/-- A section and the one that follows it (R270): NEXT may be set only where the record sets EXIT_CHAIN. -/
def targetSect (p : ProgSlot) (sect : Nat) (next : Bool) : Option Nat :=
  if next then (if p.exitChain sect then p.nextSect sect else none) else some sect

/-- The send bindings of a plane are paired. -/
def Plane.sendsPaired (q : ProgSlot) (all : List Plane) (x : Plane) : Bool :=
  (List.range 8).all fun i => ! x.sendBound i ||
    match targetSect q x.sect (x.sb i 10 10 == 1) with
    | none => false
    | some t => match planeNamed all t (x.sb i 23 15) (x.sb i 29 27) x with
      | some y => fitting x i y (x.sb i 26 24)
      | none => false

/-- A FEED of a plane names an endpoint that it fits (R257). -/
def Plane.feedsOk (all : List Plane) (x : Plane) : Bool :=
  (List.range x.streamCount).all fun d => x.sd d 0 31 29 ≠ 2 ||
    match planeNamed all x.sect (x.sd d 11 24 16) (x.sd d 11 30 28) x with
    | some y =>
      let j := x.sd d 11 27 25
      y.recvBound j && y.rb j 0 29 29 == 1 && y.rb j 0 30 30 == x.sd d 11 31 31 &&
        decide (64 * x.sd d 0 8 0 * x.sd d 1 15 0 ≤ y.rb j 2 14 0)
    | none => false

/-- The receive bindings of a plane have a sender, or a FEED of their section. Of a fold variant, whose planes take the tiles addressed to
either stage of the pair, the plane index that the sender names is not held against it. -/
def Plane.recvsPaired (q : ProgSlot) (all : List Plane) (y : Plane) : Bool :=
  let names (lc index : Nat) : Bool := y.serves.contains lc && (y.variant || index == y.place)
  let near (x : Plane) : Bool := if y.variant then (! x.variant && ! y.serves.contains x.lc) || x.stage == y.stage else ! x.variant
  (List.range 8).all fun j => ! y.recvBound j ||
    if y.rb j 0 29 29 = 1 then
      all.any fun x => x.sect == y.sect && near x && (List.range x.streamCount).any fun d =>
        x.sd d 0 31 29 == 2 && x.sd d 11 27 25 == j && names (x.sd d 11 24 16) (x.sd d 11 30 28)
    else
      let i := y.rb j 0 19 17
      all.any fun x => near x && x.serves.contains (y.rb j 0 28 20) && x.sendBound i && x.sb i 26 24 == j &&
        names (x.sb i 23 15) (x.sb i 29 27) && targetSect q x.sect (x.sb i 10 10 == 1) == some y.sect && fitting x i y j

/-! ### Fused boundaries and package counters (R79, R291) -/

/-- Receive buffers of a plane, as base and size. -/
def Plane.buffers (p : Plane) : List (Nat × Nat) :=
  ((List.range 8).filter fun j => p.recvBound j && ! p.isHalo j).map fun j => (p.rb j 1 22 0, p.bpc j * p.contexts * p.rb j 2 14 0)

/-- On a cluster, the planes of a section and those of the next over a fused boundary: incoming buffers lie outside the outgoing ranges, and
the counters named are disjoint. -/
def fusedOk (x y : Plane) : Bool :=
  (y.buffers.all fun r => apart x.scratchBase (x.scratchTop - x.scratchBase) r.1 r.2) &&
    (x.owns ++ x.mirrors).all fun i => ! (y.owns ++ y.mirrors).contains i

/-- The package counters that the PKG bindings of planes name. -/
def pkgNames (ps : List Plane) : List Nat :=
  ps.flatMap fun p => ((List.range p.counterCount).filter fun b => p.bound? b && p.cb b 0 30 29 == 2).map fun b => p.cb b 0 11 0
def pkgFits (names : List Nat) : Bool := decide (names.length ≤ 16384) && names.dedup.all fun c => decide (names.count c ≤ 64)

/-! ### A whole program (R529, step 5) -/

/-- The planes of a program's image. -/
def ProgSlot.planeList (q : ProgSlot) : List Plane := q.planes.map fun e => imagePlane e.1 e.2

/-- A section record (Table 2.6, R71). -/
def recordOk (r : List Word) : Bool :=
  let w (k : Nat) : Word := r.getD k 0
  let order := foldNibbles (w 1)
  between 1 (bits (w 0) 15 12) 8 && between 1 (bits (w 0) 11 8) 8 && bits (w 0) 7 1 == 0 && order.dedup.length == 8 &&
    (order.all fun q => decide (q < 8)) && bits (w 2) 11 0 == 0 && (w 4).toNat % 16 == 0 && decide (256 ≤ (w 4).toNat) &&
    (w 5).toNat % 512 == 0 && w 6 == 0#32 && w 7 == 0#32

/-- The checks of R53 and those that extend it, over every plane of every section and of every fold variant. -/
def ProgSlot.planesOk (q : ProgSlot) (owned : Nat → Bool) : Bool :=
  let all := q.planeList
  (all.all fun p =>
    let r := (tget [] q.sections p.sect).getD 0 0
    p.selfOk (bits r 15 12) owned && decide (p.place < bits r 11 8) && p.f 0 31 16 == p.sect &&
      (match all.find? fun y => y.sect == p.sect with
        | some y => (List.range 64).all fun k => p.w (0x9E40 + 4 * k) == y.w (0x9E40 + 4 * k)
        | none => true) &&
      p.mirrorsFed all && p.updatesLand all && p.pairsOk all && p.sendsPaired q all && p.feedsOk all && p.recvsPaired q all) &&
  ((all.map Plane.stage).dedup.all fun g => stageOk (all.filter fun p => p.stage == g)) &&
  q.sections.all fun e =>
    let mine := all.filter fun p => p.sect == e.1 && ! p.variant
    match (if q.exitChain e.1 then q.nextSect e.1 else none) with
    | some t =>
      let next := all.filter fun p => p.sect == t && ! p.variant
      pkgFits (pkgNames (mine ++ next)) && mine.all fun x => next.all fun y => x.lc ≠ y.lc || fusedOk x y
    | none => pkgFits (pkgNames mine)

/-- Every section carries a fold variant for every pair of every region (R71). -/
def ProgSlot.foldsThere (q : ProgSlot) : Bool :=
  let all := q.planeList
  q.sections.all fun e => (List.range 256).all fun k => all.any fun p => p.sect == e.1 && p.variant && p.lc == 2 * k

end Sys2Proof.Machine
end

