-- ==== Sys2Proof/Machine/ImageFrames.lean ====
section
/-! DEFINITION. The frames of an image and what they write (R520 to R525, R535): pure operations on the program slot that is being
registered. -/

namespace Sys2Proof.Machine

/-! ### Frames (R521, Table 16.1) -/

/-- A frame: its index in the payload, its 16 header words, and its 448 payload bytes. -/
structure Frame where
  idx : Nat
  words : List Word
  pay : List Byte
  deriving DecidableEq, Repr

/-- The frame that 512 bytes hold. -/
def frameOf (i : Nat) (bs : List Byte) : Frame :=
  ⟨i, (List.range 16).map fun k => BitVec.ofNat 32 (leVal ((bs.drop (4 * k)).take 4)), (bs.drop 64).take 448⟩

def Frame.w (f : Frame) (k : Nat) : Word := f.words.getD k 0
def Frame.typ (f : Frame) : Nat := bits (f.w 0) 31 28
def Frame.target (f : Frame) : Nat := bits (f.w 0) 27 25
def Frame.last (f : Frame) : Bool := bit (f.w 0) 24
def Frame.fold (f : Frame) : Bool := bit (f.w 0) 23
def Frame.pair (f : Frame) : Nat := bits (f.w 0) 22 20
def Frame.plane (f : Frame) : Nat := bits (f.w 0) 19 17
def Frame.lcFirst (f : Frame) : Nat := bits (f.w 2) 31 23
def Frame.lcLast (f : Frame) : Nat := bits (f.w 2) 22 14
def Frame.sect (f : Frame) : Nat := bits (f.w 3) 31 16
def Frame.off (f : Frame) : Nat := (f.w 4).toNat
def Frame.len (f : Frame) : Nat := (f.w 5).toNat
def Frame.ref (f : Frame) : Nat := (f.w 6).toNat
def Frame.applies (f : Frame) (group : Nat) : Bool := (f.w 7).getLsbD group

/-- The complement check of a frame's header (R521). -/
def Frame.whole (f : Frame) : Bool := (List.range 8).all fun k => f.w (8 + k) == ~~~(f.w k)

/-- The lengths of LITERAL and REPEAT frames (Table 16.1). -/
def Frame.lenOk (f : Frame) : Bool :=
  decide (8 ≤ f.len) && decide (f.len ≤ 448) && f.len % 8 == 0 && (f.target ≠ 3 || f.len % 64 == 0)

/-- The rules of R522 and Table 16.1 for a frame of a payload of n frames, whose frame r is `fr r`. -/
def Frame.formOk (f : Frame) (n : Nat) (fr : Nat → Frame) : Bool :=
  decide (f.target ≤ 4) && bits (f.w 0) 16 0 == 0 && (f.fold || f.pair == 0) && (f.w 1).toNat == f.idx && f.last == (f.idx + 1 == n) &&
    bits (f.w 2) 13 0 == 0 && bits (f.w 3) 15 0 == 0 &&
    (! [0, 4].contains f.target || (decide (f.lcFirst ≤ f.lcLast) && f.off % 8 == 0)) &&
    ([0, 2, 4].contains f.target || f.sect == 0) && ([0, 3, 4].contains f.target || f.off == 0) &&
    match f.typ with
    | 0 => f.lenOk && f.ref == 0
    | 1 => f.lenOk && decide (f.ref < f.idx) && (fr f.ref).typ == 0 && decide (f.len ≤ (fr f.ref).len)
    | 2 => true
    | 3 => f.len == 0 && decide (f.idx < f.ref) && decide (f.ref < n)
    | _ => false

/-- The bytes that a LITERAL, REPEAT or FILL frame writes (R522). -/
def Frame.content (f : Frame) (fr : Nat → Frame) : List Byte :=
  match f.typ with
  | 0 => f.pay.take f.len
  | 1 => (fr f.ref).pay.take f.len
  | _ => (List.range f.len).map fun k => (leBytes 4 f.ref).getD (k % 4) 0

/-! ### The program header (R524, R525, Table 16.2) -/

/-- ORDER names each of the four activation stages once (R538). -/
def orderOk (v : Nat) : Bool := ((List.range 4).map fun j => v / 4 ^ j % 4).dedup.length == 4

/-- The header's own rules: its fields, and the image copy, the data region and the staging region apart and within the area. -/
def ProgSlot.headerFits (p : ProgSlot) : Bool :=
  let w (k : Nat) : Word := p.header.getD k 0
  let format := bits (w 0) 31 24
  bits (w 0) 23 16 == 0 && bits (w 0) 15 0 ≠ 0 && (w 1).toNat % 4 == 0 && decide (p.bytes ≤ p.hw 2 * 1024) &&
    p.inBytes % 64 == 0 && p.outBytes % 64 == 0 && decide (64 ≤ p.outBytes) && w 7 == 0#32 && (p.header.drop 11).all (· == 0#32) &&
    bits (w 8) 31 8 == 0 && decide (p.hw 2 * 1024 ≤ p.areaBytes) && (p.stagingBytes == 0 || decide (p.bytes ≤ p.hw 3 * 1024)) &&
    decide (p.hw 3 * 1024 + p.stagingBytes ≤ p.areaBytes) &&
    (if format = 0x24 then w 8 == 0#32 && w 9 == 0#32 && w 10 == 0#32
    else format == 0x12 && orderOk (bits (w 8) 7 0))

/-- Takes frame 0 as the program header: the slot with its header, or the failure of class 3. -/
def ProgSlot.takeHeader (p : ProgSlot) (group n : Nat) (f : Frame) : ProgSlot :=
  let bs := f.pay.take f.len
  let q := { p with header := (List.range 112).map fun k => BitVec.ofNat 32 (leVal ((bs.drop (4 * k)).take 4)) }
  if f.whole && f.formOk n (fun _ => f) && f.typ == 0 && f.target == 1 && ! f.fold && f.applies group && q.headerFits then q
  else { p with fail := 3 }

/-- Sections of the program (Table 16.2). -/
def ProgSlot.sectCount (p : ProgSlot) : Nat := bits (p.header.getD 0 0) 15 0

/-! ### What frames write (R523, R524, R525, R535) -/

/-- Writes bytes into words by word index. -/
def putBytes (ws : Table Word) (a : Nat) : List Byte → Table Word
  | [] => ws
  | b :: bs =>
    putBytes (mput 0 ws (a / 4) (setBits (tget (0 : Word) ws (a / 4)) (8 * (a % 4) + 7) (8 * (a % 4)) b.toNat)) (a + 1) bs

/-- Writes bytes of one plane: within its 40,960 bytes, and no byte twice (R523). -/
def ProgSlot.putPlane (p : ProgSlot) (off : Nat) (bs : List Byte) (key : Nat) : Option ProgSlot :=
  let old := tget [] p.written key
  if off + bs.length ≤ 40960 ∧ old.all fun r => apart off bs.length r.1 r.2 then
    some { p with
      planes := tput p.planes key (putBytes (tget [] p.planes key) off bs)
      written := tput p.written key (old ++ [(off, bs.length)]) }
  else none

/-- Writes bytes of a plane's essential-bit map, 640 bytes (R535). -/
def ProgSlot.putMap (p : ProgSlot) (off : Nat) (bs : List Byte) (key : Nat) : Option ProgSlot :=
  let m := tget (List.replicate 640 0#8) p.essential key
  if off + bs.length ≤ 640 then
    some { p with essential := tput p.essential key (m.take off ++ bs ++ m.drop (off + bs.length)) }
  else none

/-- Runs an update that may fail for each key, in order. -/
def eachKey (f : ProgSlot → Nat → Option ProgSlot) : List Nat → ProgSlot → Option ProgSlot
  | [], p => some p
  | k :: ks, p => (f p k).bind (eachKey f ks)

/-- The logical clusters of a frame's range; of a fold frame the even ones, each the even member of its pair (R523). -/
def Frame.lcs (f : Frame) : Option (List Nat) :=
  let all := (List.range (f.lcLast + 1 - f.lcFirst)).map (f.lcFirst + ·)
  if f.fold then
    let even := all.filter fun l => l % 2 == 0
    if even.all fun l => l % 16 == 2 * f.pair then some even else none
  else some all

/-- The keys of the planes that a frame names. -/
def Frame.keys (f : Frame) : Option (List Nat) := f.lcs.map fun ls => ls.map fun l => planeKey f.sect (b2n f.fold) f.pair l f.plane

/-- A section record (R524). -/
def ProgSlot.putSection (p : ProgSlot) (f : Frame) (bs : List Byte) : Option ProgSlot :=
  let r := (List.range 8).map fun k => BitVec.ofNat 32 (leVal ((bs.drop (4 * k)).take 4))
  if bs.length = 32 ∧ recordOk r ∧ bits (r.getD 0 0) 31 16 = f.sect ∧ f.sect < p.sectCount ∧ ! thas p.sections f.sect then
    some { p with sections := tput p.sections f.sect r }
  else none

/-- A DATA frame's place (R525): in the data region, within the area, and clear of the staging region. -/
def ProgSlot.putData (p : ProgSlot) (a n : Nat) : Option ProgSlot :=
  if p.hw 2 * 1024 ≤ a ∧ a + n ≤ p.areaBytes ∧ (p.stagingBytes = 0 ∨ apart a n (p.hw 3 * 1024) p.stagingBytes) then
    some { p with dataRanges := p.dataRanges ++ [(a, n)] }
  else none

/-- Applies a frame (R522 to R524): the slot, and the bytes written to DRAM with their offset in the area. -/
def ProgSlot.applyFrame (p : ProgSlot) (f : Frame) (fr : Nat → Frame) : Option (ProgSlot × List (Nat × List Byte)) :=
  let bs := f.content fr
  match f.target with
  | 0 => (f.keys.bind fun ks => if f.sect < p.sectCount then eachKey (fun q k => q.putPlane f.off bs k) ks p else none).map fun q => (q, [])
  | 2 => (p.putSection f bs).map fun q => (q, [])
  | 3 => (p.putData (64 * f.off) bs.length).map fun q => (q, [(64 * f.off, bs)])
  | 4 => (f.keys.bind fun ks => eachKey (fun q k => q.putMap f.off bs k) ks p).map fun q => (q, [])
  | _ => none

/-- The walk over a chunk's frames: the slot, the writes to DRAM so far, and the complement mismatches met. -/
structure Walk where
  slot : ProgSlot
  writes : List (Nat × List Byte)
  bad : Nat
  deriving DecidableEq, Repr

/-- The next frame of the payload (R521, R522): once a failure is found, no frame is applied. A header whose complement fails four times is
malformed. Frames of a fold variant that the main sequence meets are malformed (R523). -/
def Walk.next (group n : Nat) (fr : Nat → Frame) (x : Walk) (f : Frame) : Walk :=
  let p := x.slot
  let fails : Walk := { x with slot := { p with fail := 5 } }
  let x : Walk := if f.whole then x else { x with bad := x.bad + 4 }
  if p.fail ≠ 0 then x
  else if ! f.whole then { fails with bad := x.bad }
  else if ! f.formOk n fr then fails
  else if f.idx = 0 ∨ f.idx < p.jumpTo then x
  else if f.fold then fails
  else if ! f.applies group then x
  else if f.typ = 3 then { x with slot := { p with jumpTo := f.ref } }
  else match p.applyFrame f fr with
    | some (q, ws) => { x with slot := q, writes := x.writes ++ ws }
    | none => fails

/-! ### The end of the payload (R523 to R525, R529 step 5) -/

/-- Applies the fold variants of a section from frame i on: consecutive fold frames of the section (R523). -/
def ProgSlot.foldRun (p : ProgSlot) (group sect n : Nat) (fr : Nat → Frame) : Nat → Nat → Option ProgSlot
  | 0, _ => some p
  | k + 1, i =>
    let f := fr i
    if n ≤ i ∨ ! f.fold ∨ f.sect ≠ sect then some p
    else if f.typ = 3 ∨ (f.target ≠ 0 ∧ f.target ≠ 4) then none
    else if ! f.applies group then p.foldRun group sect n fr k (i + 1)
    else match p.applyFrame f fr with
      | some (q, _) => q.foldRun group sect n fr k (i + 1)
      | none => none

/-- Applies the fold variants of every section. -/
def ProgSlot.foldAll (p : ProgSlot) (group n : Nat) (fr : Nat → Frame) : List (Nat × List Word) → Option ProgSlot
  | [] => some p
  | e :: es =>
    let off := (e.2.getD 5 0).toNat
    if off = 0 then p.foldAll group n fr es
    else (p.foldRun group e.1 n fr n (off / 512)).bind fun q => q.foldAll group n fr es

/-- The regions of the program area, as offsets: the image copy, the data written, the staging region, and the spill areas. -/
def ProgSlot.regions (p : ProgSlot) : List (Nat × Nat) :=
  ([(0, p.bytes), (p.hw 3 * 1024, p.stagingBytes)] ++
    p.sections.map fun (e : Nat × List Word) => ((e.2.getD 2 0).toNat + 2 ^ 32 * (e.2.getD 3 0).toNat, (e.2.getD 4 0).toNat * 1024)).filter fun r => r.2 ≠ 0

/-- The regions do not overlap, lie within AREA_KIB (R525), and no data frame wrote into one of the others. -/
def ProgSlot.regionsOk (p : ProgSlot) : Bool :=
  (p.regions.all fun r => decide (r.1 + r.2 ≤ p.areaBytes)) && pairwiseOk (fun a b => apart a.1 a.2 b.1 b.2) p.regions &&
    p.dataRanges.all fun d => p.regions.all fun r => apart d.1 d.2 r.1 r.2

/-- Whether fold variants that exist satisfy the plane checks is part of `planesOk`; those missing are class 6 (R529). The slot after the
checks of step 5, with the class of a failure. -/
def ProgSlot.checkAll (p : ProgSlot) (group n : Nat) (fr : Nat → Frame) (owned : Nat → Bool) : ProgSlot :=
  if p.fail ≠ 0 then p
  else if p.sections.length ≠ p.sectCount then { p with fail := 5 }
  else match p.foldAll group n fr p.sections with
    | none => { p with fail := 5 }
    | some q =>
      if ! q.regionsOk || ! q.planesOk owned then { q with fail := 5 }
      else if ! q.foldsThere then { q with fail := 6 }
      else q

/-- Status and detail of a load that fails in a class of R529 (R373, Table 11.7). -/
def failOutcome (cls : Nat) : Nat × Nat :=
  match cls with
  | 2 => (4, 17)
  | 4 => (4, 13)
  | 6 => (4, 11)
  | _ => (3, 4)

/-- Notes a failure: the lowest class found stays (R529). -/
def ProgSlot.failAs (p : ProgSlot) (cls : Nat) : ProgSlot := { p with fail := if p.fail = 0 then cls else min p.fail cls }

/-- A page of the area is covered by DATA frames in full (R555). -/
def ProgSlot.covered (p : ProgSlot) (a : Nat) : Bool :=
  (List.range 64).all fun k => p.dataRanges.any fun r => inRange (a + 64 * k) r.1 r.2

end Sys2Proof.Machine
end

