-- ==== Sys2Proof/Machine/Sessions.lean ====
section
/-! DEFINITION. Ethernet ports, sessions, and the placement of requests (R399 to R420, R423 to R425). -/

namespace Sys2Proof

def Datagram.h (d : Datagram) (k : Nat) : Word := d.hdr.getD k 0
def Datagram.typ (d : Datagram) : Nat := bits (d.h 0) 27 24
def Datagram.last (d : Datagram) : Bool := bit (d.h 0) 23
def Datagram.ackNow (d : Datagram) : Bool := bit (d.h 0) 22
def Datagram.group (d : Datagram) : Bool := bit (d.h 0) 21
def Datagram.session (d : Datagram) : Nat := bits (d.h 0) 11 0
def Datagram.seq (d : Datagram) : Nat := (d.h 2).toNat
def Datagram.ack (d : Datagram) : Nat := (d.h 3).toNat
def Datagram.reqId (d : Datagram) : Nat := (d.h 5).toNat
def Datagram.frag (d : Datagram) : Nat := bits (d.h 6) 31 16
def Datagram.epoch (d : Datagram) : Nat := bits (d.h 7) 31 24
def Datagram.len (d : Datagram) : Nat := bits (d.h 7) 23 0
/-- The payload that LEN names. -/
def Datagram.body (d : Datagram) : List Byte := d.payload.take d.len
/-- The reserved header fields are zero (Table 12.3). -/
def Datagram.clean (d : Datagram) : Bool := bits (d.h 0) 20 12 == 0 && bits (d.h 6) 15 0 == 0

/-- A received frame's priority (R400). -/
def EthFrame.prio (f : EthFrame) : Nat := if f.tags = 0 then 0 else f.pcp.toNat

/-- The far end that a datagram's addressing names (R408). -/
def EthFrom.peer (f : EthFrom) : Machine.Peer :=
  ⟨f.mac.toNat, f.ip.toNat, f.v6, f.udp.toNat, f.vlan.toNat, f.port, f.sub.toNat⟩

end Sys2Proof

namespace Sys2Proof.Machine

/-! ### Ports and frames (R399 to R406) -/

/-- The key of a sub-port's priority in the tables of pauses and buffers. -/
def prioKey (p sub q : Nat) : Nat := (4 * p + sub) * 8 + q

/-- The MAC address of a sub-port: that of sub-port 0 plus its number. -/
def State.macOf (s : State) (p sub : Nat) : Nat := ((s.rg (Reg.ETH_MAC_LO p)).toNat + 2 ^ 32 * s.fd (Reg.ETH_MAC_HI_MAC p) + sub) % 2 ^ 48

/-- An enabled address entry of a sub-port has an address and a VLAN, 0 for untagged (R401). -/
def State.ownAddr (s : State) (p sub : Nat) (v6 : Bool) (ip vlan : Nat) : Bool :=
  (List.range 8).any fun k => s.on (Reg.ETH_ADDR_VALID p k) && s.fd (Reg.ETH_ADDR_SUB p k) == sub &&
    s.on (Reg.ETH_ADDR_V6 p k) == v6 && s.fd (Reg.ETH_ADDR_VLAN p k) == vlan &&
    ((List.range (if v6 then 4 else 1)).map fun q => (s.rg (Reg.ETH_ADDR_WORD p k q)).toNat * 2 ^ (32 * q)).sum == ip

/-- The two PTP multicast addresses of Table 12.2. -/
def ptpMacs : List Nat := [0x011B19000000, 0x0180C200000E]

/-- A frame is addressed to the sub-port (R400), by what it carries. -/
def State.macOk (s : State) (p sub : Nat) (f : EthFrame) : Bool :=
  let own := f.dst.toNat == s.macOf p sub
  match f.kind with
  | .arp => own || f.dst.toNat == 2 ^ 48 - 1
  | .ptp => own || ptpMacs.contains f.dst.toNat
  | .pfc => true
  | .globalPause => true
  | _ => own

/-- A frame dropped by a port. -/
def State.ethDrop (s : State) (p : Nat) : State := s.inc (Reg.ETH_RX_DROPPED p)

/-- Sends a PFC frame for a priority, and keeps whether a pause is out (R405). -/
def State.sendPause (s : State) (p sub q quanta : Nat) : State :=
  let t := s.emit (.eth p sub (.pause q quanta))
  { t with net := { t.net with pfcSent := tput t.net.pfcSent (prioKey p sub q) (decide (quanta ≠ 0)) } }

/-- A priority's receive buffer has a fill (R405): above 768 KiB with TX_EN a pause is sent; at 512 KiB or below it ends. -/
def State.rxLevel (s : State) (p sub q fill : Nat) : State :=
  let t := { s with net := { s.net with rxFill := tput s.net.rxFill (prioKey p sub q) fill } }
  let out := tget false t.net.pfcSent (prioKey p sub q)
  if (s.fd (Reg.ETH_PFC_TX_EN p)).testBit q && decide (786432 < fill) && ! out then t.sendPause p sub q 65535
  else if out && decide (fill ≤ 524288) then t.sendPause p sub q 0
  else t

/-- The header checks of R407 on a datagram that a sub-port accepted. -/
def State.headerIn (s : State) (p sub : Nat) (d : Datagram) : State :=
  if d.hdr.length ≠ 8 then s.ethDrop p
  else if d.h 1 ≠ ~~~(d.h 0) then s.cplMismatch (some Reg.SES_CPL_DISCARD) (hubStop 1) 16 (4 * p + sub)
  else if bits (d.h 0) 31 28 ≠ 1 ∨ 11 ≤ d.typ ∨ d.payload.length < d.len then s.ethDrop p
  else s.emit (.ethDelivered p sub d)

/-- ETH_FRAME_RECEIVE (R400 to R402, R405 to R407). `fill` is what the buffer of the frame's priority holds when it arrives. An accepted PFC, ARP
or PTP frame is acted on by its own command. -/
def execEthFrameReceive (p : Fin 4) (sub : BitVec 2) (f : EthFrame) (fill : Nat) (s : State) : Out :=
  let b := sub.toNat
  .next (if ! (s.fd (Reg.ETH_STATUS_LINK_UP p)).testBit b then s
    else if decide (2 ≤ f.tags) || decide (9216 < f.bytes) || ! f.fcsOk || ! s.macOk p b f then s.ethDrop p
    else match f.kind with
      | .globalPause => s.inc (Reg.ETH_GPAUSE_DROPPED p)
      | .pfc => s
      | .arp => s
      | .other => s.ethDrop p
      | .ptp =>
        if f.tags ≠ 0 then s.ethDrop p
        else if p.val ≠ s.time.ptpPort ∨ b ≠ 0 then s.inc (Reg.ETH_PTP_DROPPED p)
        else s
      | .udp d v6 ip extras fragment ok zero =>
        if extras || fragment || ! s.ownAddr p b v6 ip.toNat (if f.tags = 0 then 0 else f.vlan.toNat) || (zero && v6) ||
            (! zero && ! ok) then s.ethDrop p
        else if 1048576 < fill + f.bytes then (s.rxLevel p b f.prio fill).ethDrop p
        else (s.rxLevel p b f.prio (fill + f.bytes)).headerIn p b d)

/-- Group replies that hold are taken further after a change of pauses or links (R417). -/
def State.groupsAgain (s : State) : State :=
  let gs := s.net.groups
  { s with net := { s.net with groups := [] } }.each gs fun t r => t.groupStep r

/-- Sets or ends the pause of a priority; ETH_PAUSED shows it. -/
def State.setPause (s : State) (p sub q quanta : Nat) : State :=
  let key := prioKey p sub q
  let t := { s with net := { s.net with paused := if quanta = 0 then tdel s.net.paused key else tput s.net.paused key quanta } }
  t.setF ⟨Reg.ETH_PAUSED p, 8 * sub + q, 8 * sub + q⟩ (b2n (quanta ≠ 0))

/-- PFC_RECEIVE (R403): each priority that the frame enables and RX_EN admits takes its quanta. -/
def execPfcReceive (p : Fin 4) (sub : BitVec 2) (en : BitVec 8) (quanta : List (BitVec 16)) (s : State) : Out :=
  let t := s.inc (Reg.ETH_PFC_RX p)
  .next (t.each ((List.range 8).filter fun q => bit en q && (s.fd (Reg.ETH_PFC_RX_EN p)).testBit q) fun u q =>
    u.setPause p sub.toNat q (quanta.getD q 0).toNat).groupsAgain

/-- PAUSE_EXPIRE (R403). -/
def execPauseExpire (p : Fin 4) (sub : BitVec 2) (q : Fin 8) (s : State) : Out := .next (s.setPause p sub.toNat q 0).groupsAgain

/-- PFC_REPEAT (R405): half a pause time after the last pause frame, with the buffer's fill. -/
def execPfcRepeat (p : Fin 4) (sub : BitVec 2) (q : Fin 8) (fill : Nat) (s : State) : Out :=
  .next (if ! tget false s.net.pfcSent (prioKey p sub.toNat q) then s
    else if fill ≤ 524288 then s.rxLevel p sub.toNat q fill
    else (s.rxLevel p sub.toNat q fill).sendPause p sub.toNat q 65535)

/-- ARP_REQUEST (R401): an ARP request or neighbour solicitation for an own address entry is answered. -/
def execArpRequest (p : Fin 4) (sub : BitVec 2) (v6 : Bool) (ip : BitVec 128) (vlan : BitVec 12) (s : State) : Out :=
  .next (if s.ownAddr p sub.toNat v6 ip.toNat vlan.toNat && (s.fd (Reg.ETH_STATUS_LINK_UP p)).testBit sub.toNat then
      s.emit (.eth p sub.toNat (.neighbour ip.toNat)) else s)

/-- Sub-ports of a mode (Table 12.1). -/
def subPorts (mode : Nat) : Nat := if mode = 0 then 1 else if mode = 1 then 2 else 4

/-- ETH_LINK_UP (R399): an enabled sub-port of the port's mode comes up with FEC locked. -/
def execEthLinkUp (p : Fin 4) (sub : BitVec 2) (s : State) : Out :=
  let b := sub.toNat
  .next (if (s.fd (Reg.ETH_CTRL_SUB_EN p)).testBit b && decide (b < subPorts (s.fd (Reg.ETH_CTRL_MODE p))) then
      (s.setF ⟨Reg.ETH_STATUS p, 28 + b, 28 + b⟩ 1).setF ⟨Reg.ETH_STATUS p, 24 + b, 24 + b⟩ 1 else s)

/-- An Ethernet sub-port goes down (R417). -/
def State.ethDown (s : State) (p b : Nat) (fec : Bool) : State :=
  ((s.setF ⟨Reg.ETH_STATUS p, 28 + b, 28 + b⟩ 0).setF ⟨Reg.ETH_STATUS p, 24 + b, 24 + b⟩ (b2n fec)).groupsAgain

/-- ETH_LINK_DOWN (R417): group destinations on the sub-port are dropped. -/
def execEthLinkDown (p : Fin 4) (sub : BitVec 2) (fecLock : Bool) (s : State) : Out := .next (s.ethDown p sub.toNat fecLock)

/-! ### Sessions in (R408 to R415) -/

/-- An ERROR to the source of a datagram (R415). -/
def State.errTo (s : State) (f : EthFrom) (session reqId epoch code : Nat) : State :=
  let h := sesHeader 8 false false session 0 0 0 reqId 0 epoch 4
  (((s.emit (.datagram f.port f.sub.toNat f.mac.toNat f.ip.toNat f.udp.toNat f.vlan.toNat ⟨h, leBytes 4 code⟩)).inc
    Reg.SES_REFUSED)).irq 5

/-- Sessions and rings are admitted: the module is ready and not shutting down (R613, R625). -/
def State.admits (s : State) : Bool := s.on Reg.GS_STATUS_READY && ! s.on Reg.GS_STATUS_SHUTTING_DOWN

/-- The listener of a UDP port (R408): the lowest one. -/
def State.listenerAt (s : State) (udp : Nat) : Option Nat :=
  (List.range 64).find? fun l => s.on (Reg.LSN_CTRL_VALID l) && s.fd (Reg.LSN_PORT_UDP l) == udp

/-- OPEN (R408). A datagram to a port without a listener, or with an owner in reset, is dropped. In Rest it starts the wake and waits (R597). -/
def execSesOpen (f : EthFrom) (d : Datagram) (s : State) : Out :=
  .next (match s.listenerAt f.dstUdp.toNat with
    | none => s
    | some l =>
      let i := s.fd (Reg.LSN_CTRL_OWNER l)
      if ! s.admits || d.group || s.on (Reg.INST_STATUS_IN_RESET i) then s
      else if s.asleep then s.wakeTrigger
      else if ! d.clean || d.session ≠ 0 then s.errTo f d.session d.reqId d.epoch 6
      else match (List.range 4096).find? fun n => ! (s.ses n).opened with
        | none => s.errTo f 0 d.reqId 0 2
        | some n =>
          let x := { noSession with
            opened := true, owner := i, listener := l, epoch := ((s.ses n).epoch + 1) % 256, peer := f.peer }
          (s.setSes n x).sesSend n 1 false 0 d.reqId 0 [])

/-- Modulo 2^32, a number lies at most n above another. -/
def within32 (a b n : Nat) : Bool := decide ((a + 2 ^ 32 - b) % 2 ^ 32 ≤ n)

/-- A datagram's ACK and SACK are taken (R409, R412): replies whose last fragment is covered are kept no longer. -/
def Session.takeAck (x : Session) (d : Datagram) : Session :=
  let y := if within32 d.ack x.clientAck (x.txSeq - x.clientAck) then
      { x with clientAck := x.clientAck + (d.ack + 2 ^ 32 - x.clientAck % 2 ^ 32) % 2 ^ 32, clientSack := (d.h 4).toNat } else x
  { y with requests := y.requests.filter fun r => match r.reply with
    | some fs => decide (y.clientAck < r.replySeq + fs.length - 1)
    | none => true }

/-- The checks that every datagram of a session passes (R408, R415): an open session, its epoch and its recorded source, and zero reserved
fields. It restarts the idle time (R414), and its acknowledgements are taken. -/
def State.sesIn (s : State) (f : EthFrom) (d : Datagram) (g : State → Nat → State) : State :=
  let n := d.session
  let x := s.ses n
  if ! s.admits || d.group then s
  else if ! x.opened || x.epoch ≠ d.epoch || x.peer ≠ f.peer then s.errTo f n d.reqId d.epoch 1
  else if ! d.clean then s.sesError n d.reqId 6
  else g (s.setSes n (x.takeAck d)) n

/-- Sends an ACK (R409). -/
def State.sesAck (s : State) (n : Nat) : State := s.sesSend n 3 false 0 0 0 []

/-- Moves ACK over what has been received (R409): bit j of the map stands for ACK + 1 + j. -/
def ackOver : Nat → Nat → Nat → Nat × Nat
  | 0, a, m => (a, m)
  | f + 1, a, m => if m % 2 = 1 then ackOver f (a + 1) (m / 2) else (a, m)

/-- A client SEQ has been received before (R410): at or below ACK, within the half of the number space below it, or marked. -/
def Session.dup (x : Session) (seq : Nat) : Bool :=
  let k := (seq + 2 ^ 32 - x.ack % 2 ^ 32) % 2 ^ 32
  k == 0 || decide (2 ^ 31 ≤ k) || (decide (2 ≤ k) && x.sack.testBit (k - 2))

/-- Accepts a SEQ of the window (R409). -/
def Session.accept (x : Session) (seq : Nat) : Session :=
  let k := (seq + 2 ^ 32 - x.ack % 2 ^ 32) % 2 ^ 32
  let r := ackOver 4097 x.ack (2 * x.sack ||| 2 ^ (k - 1))
  { x with ack := r.1, sack := r.2 / 2, unacked := x.unacked + 1 }

/-- Resends the fragments of a kept reply that the client's ACK and SACK do not cover, under their sequence numbers (R412). -/
def State.resendFrags (s : State) (n reqId replySeq total : Nat) : Nat → List (List Byte) → State
  | _, [] => s
  | k, f :: fs =>
    let x := s.ses n
    let q := replySeq + k
    let covered := decide (q ≤ x.clientAck) || (decide (x.clientAck + 2 ≤ q) && decide (q < x.clientAck + 34) &&
      x.clientSack.testBit (q - x.clientAck - 2))
    let t := if covered then s else s.sesSend n 4 (k + 1 == total) q reqId k f
    t.resendFrags n reqId replySeq total (k + 1) fs

/-- Resends the reply of a request, where one is kept. -/
def State.resendReply (s : State) (n reqId : Nat) : State :=
  match (s.ses n).requests.find? fun r => r.reqId == reqId with
  | some r => match r.reply with
    | some fs => s.resendFrags n reqId r.replySeq fs.length 0 fs
    | none => s
  | none => s

/-- Takes a datagram that takes a SEQ (R409, R410): a duplicate is counted and answered at once, one outside the window is dropped. Then `g`
acts on it, and it is acknowledged at once where it asks for that or is the 16th. -/
def State.sequenced (s : State) (n : Nat) (d : Datagram) (g : State → State) : State :=
  let x := s.ses n
  let k := (d.seq + 2 ^ 32 - x.ack % 2 ^ 32) % 2 ^ 32
  if x.dup d.seq then
    let t := (s.inc Reg.SES_DUP_DROPPED).sesAck n
    if d.typ = 2 ∧ d.last then t.resendReply n d.reqId else t
  else if 4096 < k then s.inc Reg.SES_WINDOW_DROPPED
  else
    let t := g (s.setSes n (x.accept d.seq))
    let y := t.ses n
    if y.opened && decide (0 < y.unacked) && (d.ackNow || decide (16 ≤ y.unacked)) then t.sesAck n else t

/-! ### Pages of sessions (R411, R413) -/

/-- First page and number of pages of a session's window. -/
def State.sesWindow (s : State) (n : Nat) : Nat × Nat :=
  let x := s.ses n
  let w := s.fd (Reg.LSN_CTRL_WIN x.listener)
  if s.on (Reg.WIN_BASE_EN x.owner w) then (s.fd (Reg.WIN_BASE_BASE x.owner w), s.fd (Reg.WIN_SIZE_SIZE x.owner w)) else (0, 0)

/-- Pages that session n may not take: those of other sessions, and those of the areas of sequences in progress. -/
def State.pagesTaken (s : State) (n : Nat) : List Nat :=
  (s.net.sessions.filter fun e => e.1 ≠ n && e.2.opened).flatMap (fun e => e.2.pages) ++
    (s.net.seqs.filter fun e => e.2.session.isSome && e.2.state ≠ .gone).flatMap fun e => s.seqPages e.2

/-- Pages promised to requests of sessions of the same window that are not yet complete. -/
def Request.total (r : Request) : Nat := (r.record 3).toNat
def State.pagesPromised (s : State) (n : Nat) : Nat :=
  ((s.net.sessions.filter fun e => e.2.opened && s.sesWindow e.1 == s.sesWindow n).flatMap fun e =>
    (e.2.requests.filter fun r => thas r.frags 0 && ! r.complete).map fun r => ceilDiv r.total (2 ^ 21)).sum

/-- The window of a session can hold a request of some bytes. -/
def State.sesRoom (s : State) (n bytes : Nat) : Bool :=
  let w := s.sesWindow n
  let taken := (s.pagesTaken n).dedup.filter fun p => decide (w.1 ≤ p) && decide (p < w.1 + w.2)
  decide (taken.length + s.pagesPromised n + ceilDiv bytes (2 ^ 21) ≤ w.2)

/-- The lowest run of free pages of a session's window. -/
def State.pageRun (s : State) (n need : Nat) (avoid : List Nat) : Option Nat :=
  let w := s.sesWindow n
  let taken := s.pagesTaken n ++ avoid
  ((List.range (w.2 + 1 - need)).map (w.1 + ·)).find? fun b => (List.range need).all fun k => ! taken.contains (b + k)

/-! ### Placement (R420, R527) -/

/-- Program instances that serve a session's model (R420). -/
def State.candidates (s : State) (n : Nat) : List Nat :=
  let x := s.ses n
  (List.range 1024).filter fun m => s.on (Reg.BAT_CTRL_VALID m) && (s.slot m).phase == 2 && ! (s.slot m).evicting &&
    (s.slot m).inst == x.owner && s.fd (Reg.BAT_CTRL_MODEL_ID m) == s.fd (Reg.LSN_MODEL_MODEL_ID x.listener)

/-- Sequences of a slot in its batch or waiting. -/
def State.slotLoad (s : State) (m : Nat) : Nat := (s.net.seqs.filter fun e => e.2.slot == m && e.2.state ≠ .gone).length

/-- The least-loaded slot of a list, the lowest among equals. -/
def State.leastLoaded (s : State) : List Nat → Option Nat
  | [] => none
  | m :: ms => match s.leastLoaded ms with
    | none => some m
    | some k => some (if s.slotLoad m ≤ s.slotLoad k then m else k)

/-- The program instance that takes a request (R420). -/
def State.placeIn (s : State) (n : Nat) : Option Nat :=
  let c := s.candidates n
  let hot := c.filter fun m => s.sectionResident m (s.slot m).firstSect
  match (s.ses n).home with
  | some h => if hot.contains h then some h else if hot.isEmpty then s.leastLoaded c else s.leastLoaded hot
  | none => if hot.isEmpty then s.leastLoaded c else s.leastLoaded hot

/-- The bytes of a complete request, in order. -/
def Request.bytes (r : Request) : List Byte := r.frags.flatMap fun e => e.2

/-- Drops a request and refuses it with an ERROR. -/
def State.refuseReq (s : State) (n reqId code : Nat) : State := (s.dropRequest n reqId).sesError n reqId code

/-- The areas of a request in a slot: input and output addresses. -/
def State.areas (s : State) (n m : Nat) : Option (Nat × Nat) :=
  match s.pageRun n (ceilDiv (s.slot m).inBytes (2 ^ 21)) [] with
  | none => none
  | some a =>
    let ia := pagesOf (a * 2 ^ 21) (s.slot m).inBytes
    (s.pageRun n (ceilDiv (s.slot m).outBytes (2 ^ 21)) ia).map fun b => (a * 2 ^ 21, b * 2 ^ 21)

/-- Makes a complete request a sequence of a slot with its areas (R411, R419, R527). -/
def State.makeSeq (s : State) (n : Nat) (r : Request) (m ia oa : Nat) : State :=
  let x := s.ses n
  let inB := (s.slot m).inBytes
  let data := r.bytes.drop 32
  let dl := bit (r.record 0) 29
  let q : Seq := { noSeq with
    session := some (n, r.reqId), slot := m, inst := x.owner, state := .ready, readyAt := s.now, order := s.net.nextSeq
    maxSteps := bits (r.record 0) 15 0, urgent := bit (r.record 0) 30
    gateAngle := if bit (r.record 0) 31 then some (bits (r.record 2) 23 0) else none
    size0 := (r.record 4).toNat, size1 := (r.record 5).toNat, inAddr := ia, outAddr := oa
    deadline := if dl then some (deadlineInstant s.now (bits (r.record 1) 23 0) (bits (r.record 0) 27 20), bit (r.record 0) 28) else none }
  let t := s.hubWrite ia (data ++ List.replicate (inB - data.length) 0#8)
  let pages := (x.pages ++ pagesOf ia inB ++ pagesOf oa (s.slot m).outBytes).dedup
  let t := t.setSes n { x with
    pages := pages, requests := x.requests.map fun y => if y.reqId = r.reqId then { y with seqId := some s.net.nextSeq } else y }
  { t.setSeq s.net.nextSeq q with net := { (t.setSeq s.net.nextSeq q).net with nextSeq := s.net.nextSeq + 1 } }

/-- The request that has just become complete and is not placed. -/
def State.unplaced (s : State) (n reqId : Nat) : Option Request :=
  (s.ses n).requests.find? fun r => r.reqId == reqId && r.complete && r.seqId.isNone && r.reply.isNone

/-- Places a complete request (R420), or refuses it: no program instance, more bytes than its input area holds, or no pages. -/
def State.place (s : State) (n : Nat) (r : Request) : State :=
  match s.placeIn n with
  | none => s.refuseReq n r.reqId 5
  | some m =>
    if s.on Reg.FH_SUMMARY_FAILED then s.refuseReq n r.reqId 5
    else if (s.slot m).inBytes < (r.bytes.drop 32).length then s.refuseReq n r.reqId 3
    else match s.areas n m with
      | none => s.refuseReq n r.reqId 2
      | some (ia, oa) => s.makeSeq n r m ia oa

/-! ### Requests (R411) -/

/-- Fields of a request record that must be zero, and its step limit (Table 12.5). -/
def recordClean (r : Request) : Bool :=
  bits (r.record 0) 19 16 == 0 && bits (r.record 1) 31 24 == 0 && bits (r.record 2) 31 24 == 0 && bits (r.record 6) 30 8 == 0 &&
    r.record 7 == 0 && bits (r.record 0) 15 0 ≠ 0

/-- A request names a reply group only of its session's owner (R416). -/
def State.groupOwned (s : State) (n : Nat) (r : Request) : Bool :=
  ! bit (r.record 6) 31 || (s.on (Reg.GRP_VALID (bits (r.record 6) 7 0)) && s.fd (Reg.GRP_OWNER (bits (r.record 6) 7 0)) == (s.ses n).owner)

/-- What refuses a request whose record has arrived (R411, R415, R416): its ERROR code. -/
def State.recordError (s : State) (n : Nat) (r : Request) : Option Nat :=
  let limit := min (s.fd (Reg.LSN_MAXREQ_BYTES (s.ses n).listener)) (16 * 2 ^ 20)
  if ! recordClean r || ! s.groupOwned n r then some 6
  else if limit < r.total then some 3
  else if ! s.sesRoom n r.total then some 2
  else none

/-- A fragment joins its request; the request may be refused, or become complete (R411). -/
def State.fragIn (s : State) (n : Nat) (d : Datagram) (r : Request) (fresh : Bool) : State :=
  let r' := { r with
    frags := tput r.frags d.frag d.body
    lastFrag := if d.last then some d.frag else r.lastFrag }
  let r' := { r' with complete := match r'.lastFrag with
    | some l => (List.range (l + 1)).all fun k => thas r'.frags k
    | none => false }
  let x := s.ses n
  let t := s.setSes n { x with requests := if fresh then x.requests ++ [r'] else x.requests.map fun y => if y.reqId = r.reqId then r' else y }
  let limit := min (s.fd (Reg.LSN_MAXREQ_BYTES x.listener)) (16 * 2 ^ 20)
  match if d.frag = 0 then s.recordError n r' else none with
  | some e => t.refuseReq n r.reqId e
  | none => if limit < r'.bytes.length then t.refuseReq n r.reqId 3 else t

/-- A REQ fragment that was accepted (R411): of a request in hand, or of the next one. A fragment of a request that is past is dropped; another
REQ_ID is out of order. -/
def State.reqIn (s : State) (n : Nat) (d : Datagram) : State :=
  let x := s.ses n
  match x.requests.find? fun r => r.reqId == d.reqId with
  | some r => if r.complete then s else s.fragIn n d r false
  | none =>
    if d.reqId ≤ x.lastReq then s
    else if d.reqId ≠ x.lastReq + 1 then s.sesError n d.reqId 6
    else
      let t := s.setSes n { x with lastReq := d.reqId }
      if 4 ≤ (x.requests.filter fun r => r.reply.isNone).length then t.sesError n d.reqId 4
      else t.fragIn n d ⟨d.reqId, [], none, false, none, none, 0⟩ true

/-- The DRAM that a placement would write: its pages must be zeroed first (R496, R413). -/
def State.placeRanges (s : State) (n : Nat) (r : Request) : List (Nat × Nat) :=
  match s.placeIn n with
  | none => []
  | some m => match s.areas n m with
    | none => []
    | some (ia, _) => if (s.slot m).inBytes < (r.bytes.drop 32).length then [] else [(ia, (s.slot m).inBytes)]

/-- REQ (R407 to R411, R420). In Rest it starts the wake and waits. While a page that its input would go to is not zeroed, it waits as a whole. -/
def execReq (f : EthFrom) (d : Datagram) (s : State) : Out :=
  .next (if s.asleep then s.wakeTrigger
    else
      let t := s.sesIn f d fun u n => u.sequenced n d fun v => v.reqIn n d
      match t.unplaced d.session d.reqId with
      | none => t
      | some r =>
        let rs := t.placeRanges d.session r
        if rs.all fun p => t.rangeReady p.1 p.2 then t.place d.session r
        else s.each rs fun u p => u.demand p.1 p.2)

/-- ACK (R409). -/
def execAck (f : EthFrom) (d : Datagram) (s : State) : Out := .next (s.sesIn f d fun t _ => t)

/-- KEEPALIVE (R414). -/
def execKeepalive (f : EthFrom) (d : Datagram) (s : State) : Out := .next (s.sesIn f d fun t _ => t)

/-- POLL (R412): a kept reply's uncovered fragments are sent again; otherwise the answer is an ACK. -/
def execPoll (f : EthFrom) (d : Datagram) (s : State) : Out :=
  .next (if s.asleep then s.wakeTrigger
    else s.sesIn f d fun t n =>
      if (t.ses n).requests.any fun r => r.reqId == d.reqId && r.reply.isSome then t.resendReply n d.reqId else t.sesAck n)

/-! ### Close (R413, R414) -/

/-- One sequence of a session that closes: one that runs leaves at the next step boundary, any other leaves now. -/
def State.closeSeq (s : State) (id : Nat) : State :=
  let q := s.seq id
  if s.net.step.any fun x => x.seqIds.contains id then s.setSeq id { q with state := .leaving }
  else if q.startAt.isSome then s.leaveQuietly id
  else s.setSeq id { q with state := .gone }

/-- Closes a session (R413): its requests go, and its pages are zeroed before any other use; those of a sequence that still runs follow it. -/
def State.closeSession (s : State) (n : Nat) : State :=
  let x := s.ses n
  let t := s.each (s.net.seqs.filter fun e => e.2.state ≠ .gone && (e.2.session.map (·.1)) == some n) fun u e => u.closeSeq e.1
  let kept := (t.net.seqs.filter fun e => e.2.state == .leaving && (e.2.session.map (·.1)) == some n).flatMap fun e => t.seqPages e.2
  let t := t.zeroLater n (x.pages.filter fun p => ! kept.contains p)
  { t.setSes n { noSession with epoch := x.epoch } with
    net := { (t.setSes n { noSession with epoch := x.epoch }).net with
      groups := t.net.groups.map fun r => if r.session = n then { r with session := 4096 } else r } }

/-- CLOSE (R413): CLOSE_ACK carries the session's totals. -/
def execClose (f : EthFrom) (d : Datagram) (s : State) : Out :=
  .next (if s.asleep then s.wakeTrigger
    else s.sesIn f d fun t n => t.sequenced n d fun u =>
      let x := u.ses n
      (u.sesSend n 7 false 0 d.reqId 0 (leBytes 8 x.qwait ++ leBytes 8 x.preempt)).closeSession n)

/-- SESSION_ACK_TIMER (R409). -/
def execSessionAckTimer (n : Fin 4096) (s : State) : Out :=
  .next (if (s.ses n).opened && decide (0 < (s.ses n).unacked) then s.sesAck n else s)

/-- SESSION_AGE_OUT (R414): IDLE_MS has passed since the session's last datagram, and it holds no request not yet replied to. -/
def execSessionAgeOut (n : Fin 4096) (s : State) : Out :=
  let x := s.ses n
  .next (if x.opened && x.requests.all fun r => r.reply.isSome then (s.irq 5).closeSession n else s)

/-- GROUP_HOLD_EXPIRE (R417): a destination still paused 1 ms after its hold began is dropped. -/
def execGroupHoldExpire (n : Fin 4096) (reqId : Word) (dest : Fin 64) (s : State) : Out :=
  .next (match s.net.groups.find? fun r => r.session == n.val && r.reqId == reqId.toNat with
    | none => s
    | some r =>
      if r.dests.any fun d => d.dest == dest.val && d.heldFrom.isSome && d.outcome == 0 then
        let r' := { r with dests := r.dests.map fun d => if d.dest = dest.val then { d with outcome := 2 } else d }
        let t := { s with net := { s.net with groups := s.net.groups.erase r } }.inc Reg.GRP_HELD_DROPPED
        if r'.dests.all fun d => d.outcome ≠ 0 then t.groupReport r'
        else { t with net := { t.net with groups := t.net.groups ++ [r'] } }
      else s)

/-- The accounting totals of an instance start again at 0 (R423). -/
def State.accClear (s : State) (i : Nat) : State :=
  ((s.wrg64 (Reg.ACC_QWAIT_LO i) 0).wrg64 (Reg.ACC_PREEMPT_LO i) 0).wrg64 (Reg.ACC_DONE_LO i) 0

/-- ACC_CLEAR (R423). -/
def execAccClear (i : Fin 64) (v : Word) (s : State) : Out :=
  .next (s.hostWrite (Reg.ACC_CLEAR i) fun t => if bit v 0 then t.accClear i else t)

end Sys2Proof.Machine
end

