-- ==== Sys2Proof/Machine/Images.lean ====
section
/-! DEFINITION. The configuration engine (chapter 16): registration of images, planes written into clusters, EVICT, multicast of images,
scrubbing, autostart. -/

namespace Sys2Proof.Machine

/-! ### The outcome of a load (R529, R534, R539, R541) -/

/-- The multicast receiver ends (R534): its outcome is recorded, the counter of its owner advances where enabled, and EN clears. -/
def State.rxEnd (s : State) (result detail : Nat) : State :=
  let t := ((s.setF Reg.CE_MC_RX_STATUS_DONE 1).setF Reg.CE_MC_RX_STATUS_RESULT result).setF Reg.CE_MC_RX_STATUS_DETAIL detail
  let o := s.fd Reg.CE_MC_RX_CTRL_OWNER
  let c := s.fd Reg.CE_MC_RX_CNT_COUNTER
  let t := t.cond (s.on Reg.CE_MC_RX_CNT_EN && s.pcOwned c o) fun u => u.advancePc c 1 (hostNode o)
  t.setF Reg.CE_MC_RX_CTRL_EN 0

/-- LOAD_ERR sets for the contents of an image (R539), and CE_FAILS advances. -/
def State.loadErr (s : State) : State := ((s.setF Reg.CE_STATUS_LOAD_ERR 1).inc Reg.CE_FAILS).drivePins

/-- Tells the outcome of a load to what ordered it: a descriptor, the multicast receiver, or an autostart record. -/
def State.tellLoad (s : State) (p : ProgSlot) (status detail : Nat) : State :=
  match p.origin with
  | 0 => match p.desc with
    | some id => s.endDesc id status detail
    | none => s
  | 1 => s.rxEnd (if status = 0 then 0 else if detail = 14 ∨ detail = 16 then 4 else 1) detail
  | k + 2 =>
    ((s.setF (Reg.CE_AUTO_STATUS_DONE k) 1).setF (Reg.CE_AUTO_STATUS_STATUS k) status).setF (Reg.CE_AUTO_STATUS_DETAIL k) detail

/-- A load fails with a status and detail (R539). -/
def State.loadFailed (s : State) (n : Nat) (p : ProgSlot) (status detail : Nat) : State :=
  let t := (s.setF Reg.CE_STATUS_LAST_DETAIL detail).setF Reg.CE_STATUS_LAST_SLOT n
  let slotState := detail == 14 || detail == 16
  let t := t.cond ([4, 11, 17].contains detail || decide (2 ≤ p.origin) || (p.origin == 1 && ! slotState)) State.loadErr
  t.tellLoad p status detail

/-- The outcome of a load that has ended and is past its last stage and its preload (R537, R538). -/
def State.loadDone (s : State) (n : Nat) : State :=
  let p := s.slot n
  if p.phase = 2 ∧ ¬ p.told ∧ p.released.length = 4 ∧ (¬ p.preload ∨ p.preloaded) then
    (s.setSlot n { p with told := true }).tellLoad p 0 0
  else s

/-- The preload ends when the first section's planes are RESIDENT (Table 11.5). -/
def State.tryPreload (s : State) (n : Nat) : State :=
  let p := s.slot n
  if p.phase = 2 ∧ p.preload ∧ ¬ p.preloaded ∧ p.released.contains 0 ∧ s.sectionResident n p.firstSect then
    (s.setSlot n { p with preloaded := true }).loadDone n
  else s

/-! ### The claim and the header (R373, R513, R520, R529 steps 1 and 2) -/

/-- The slot claim: the detail that refuses it. A load admitted earlier that names the slot has claimed it (R529). -/
def State.claim (s : State) (n inst : Nat) (order : Option Nat) : Option Nat :=
  if (s.slot n).phase ≠ 0 then some (if (s.slot n).inst ≠ inst then 14 else 16)
  else match order with
    | none => none
    | some k => (s.host.descs.find? fun e => e.2.opcode == 6 && e.2.state == .admitted && bits (e.2.w 4) 31 22 == n && decide (e.2.order < k)).map
        fun e => if e.2.inst ≠ inst then 14 else 16

/-- What refuses a load from the store (R513): the entry's kind and state, then its ownership. -/
def State.entryRefuses (s : State) (e inst : Nat) : Option Nat :=
  let x := s.lib e
  if x.kind ≠ 0 ∨ x.state ≠ 1 then some 15 else if x.owner ≠ inst ∧ ¬ x.isShared then some 14 else none

/-- A store maintenance command runs, for which a load from the store waits (R373, R531). -/
def State.storeMaint (s : State) : Bool := s.on Reg.MAINT_STATUS_BUSY && [1, 2, 4].contains (s.fd Reg.MAINT_STATUS_CMD)

/-- Sends bytes of the entry of a load to the multicast group of an armed sender, in MCAST_FRAME packets of at most 4 KiB (R534). -/
def State.imageSend (s : State) (i off : Nat) : Nat → List Byte → State
  | 0, _ => s
  | f + 1, bs =>
    if bs.isEmpty then s
    else
      let part := bs.take 4096
      let p : FlPacket := ⟨flHeader (flWord0 8 false false false true false false 0 0 part.length) 0 s.srcId (s.fd Reg.CE_MC_TX_GROUP)
          (s.fd (Reg.FL_INST_KEY_KEY i)), flOp s.links.nextId 0 0 off 0 0 (hubStop 4) engineTag, part⟩
      let t := { s with links := { s.links with nextId := (s.links.nextId + 1) % 2 ^ 32 } }
      (t.replicate none p).imageSend i (off + 4096) f (bs.drop 4096)
def State.txImage (s : State) (n i off : Nat) (bs : List Byte) : State :=
  if s.on Reg.CE_MC_TX_EN && s.fd Reg.CE_MC_TX_SLOT == n && s.on (Reg.FL_INST_KEY_VALID i) then s.imageSend i off (ceilDiv bs.length 4096) bs
  else s

/-- Opens an image with its header and hash list (R520): a header that does not describe an image ends the load with AUTH; else its
registration is in progress. `limit` is the image length that the load gives. -/
def State.openImage (s : State) (n : Nat) (p : ProgSlot) (h : List Word) (limit : Option Nat) : State :=
  let len := headerBytes h
  let off := payloadOffset h
  if ! headerOk h || bits (h.getD 0 0) 31 28 ≠ 0 || (limit.any fun l => decide (l < off + len)) then s.loadFailed n p 4 17
  else
    let q := { p with
      phase := 1, gen := s.gen p.inst, bytes := len, payOff := off, keySlot := bits (h.getD 0 0) 26 24
      fail := if len % 512 ≠ 0 ∨ 2 ^ 32 < len then 5 else 0 }
    let t := (s.setSlot n q).setF Reg.CE_STATUS_BUSY 1
    let t := { t with images := { t.images with active := some n } }
    let t := if p.source = 2 then t.libUse p.image else t
    t.txImage n p.inst 0 ((wordBytes h).take off)

/-- A multicast image is being registered. -/
def State.rxLoading (s : State) : Bool := s.images.slots.any fun e => e.2.origin == 1 && ! e.2.told

/-- How far the ranges received cover the entry from its start. -/
def reach : Nat → List (Nat × Nat) → Nat → Nat
  | 0, _, r => r
  | f + 1, l, r => reach f l (l.foldl (fun m x => if x.1 ≤ m then max m (x.1 + x.2) else m) r)
def State.rxReach (s : State) : Nat := reach s.images.rxHave.length s.images.rxHave 0
def State.rxAddr (s : State) : Nat := s.fd Reg.CE_MC_RX_ADDR_LO_ADDR * 4096 + s.fd Reg.CE_MC_RX_ADDR_HI_ADDR * 2 ^ 32
def State.rxBase (s : State) : Nat := s.fd Reg.CE_MC_RX_BASE_LO_ADDR * 4096 + s.fd Reg.CE_MC_RX_BASE_HI_ADDR * 2 ^ 32

/-- The receiver holds every byte of the entry: its header tells how many there are. -/
def State.rxComplete (s : State) : Bool :=
  let h := s.rdWords s.rxAddr 64
  decide (256 ≤ s.rxReach) && (! headerOk h || decide (payloadOffset h + headerBytes h ≤ s.rxReach))

/-- The receiver registers the image that it holds, once the engine is free (R534). -/
def State.rxTry (s : State) : State :=
  if ! s.on Reg.CE_MC_RX_CTRL_EN || s.rxLoading || s.images.active.isSome || ! s.rxComplete then s
  else
    let n := s.fd Reg.CE_MC_RX_CTRL_SLOT
    let o := s.fd Reg.CE_MC_RX_CTRL_OWNER
    let p := { noSlot with
      inst := o, origin := 1, source := 1, image := s.rxAddr, dramBase := s.rxBase, preload := s.on Reg.CE_MC_RX_CTRL_PRELOAD }
    match s.claim n o none with
    | some d => s.loadFailed n p 4 d
    | none => s.openImage n p (s.rdWords s.rxAddr (payloadOffset (s.rdWords s.rxAddr 64) / 4)) none

/-- LOAD_PROGRAM (R373, R529): the claim, then for a load from the store its entry; while the engine is busy, or the store under maintenance,
the load waits. `head` is the header and hash list that host memory holds, for SOURCE 0. -/
def execLoadProgram (ring : Fin 4096) (pos : Word) (head : List Word) (s : State) : Out :=
  .next (s.work ring pos 6 fun s id d =>
    let n := bits (d.w 4) 31 22
    let src := bits (d.w 4) 21 20
    let image := if src = 0 then d.hostAddr 5 else if src = 1 then d.dram 5 else bits (d.w 5) 11 0
    let len := (d.w 7).toNat
    let p := { noSlot with
      inst := d.inst, desc := some id, source := src, image := image, dramBase := d.dram 8, preload := bit (d.w 4) 19 }
    match s.claim n d.inst (some d.order) with
    | some c => s.loadFailed n p 4 c
    | none =>
      if s.images.active.isSome || (src == 2 && s.storeMaint) then s
      else if src = 1 ∧ ! s.inWindow d.inst image len then s.loadFailed n p 4 13
      else if src = 1 ∧ ! s.rangeReady image len then s.demand image len
      else match (if src = 2 then s.entryRefuses image d.inst else none) with
        | some c => s.loadFailed n p 4 c
        | none =>
          let h := if src = 0 then head else if src = 1 then s.rdWords image (payloadOffset (s.rdWords image 64) / 4) else (s.lib image).head
          let t := s.setDesc id { d with state := .running, start := some s.now }
          t.openImage n p h (if src = 2 then none else some len))

/-! ### Chunks, the signature and the final check (R529) -/

/-- The engine is free again: BUSY clears, and a use of a library entry ends. -/
def State.engineFree (s : State) (p : ProgSlot) : State :=
  let t := { s with images := { s.images with active := none } }.setF Reg.CE_STATUS_BUSY 0
  if p.source = 2 then t.libRelease p.image else t

/-- The final check passes (R529 step 6, R537): the program is registered; a native image is active as a whole. -/
def State.finalCheck (s : State) (n : Nat) : State :=
  let p := s.slot n
  let native := bits (p.header.getD 0 0) 31 24 == 0x24
  let t := (s.setSlot n { p with phase := 2, released := if native then [0, 1, 2, 3] else [] }).inc Reg.CE_LOADS
  (((t.engineFree p).tryPreload n).loadDone n).rxTry

/-- Once every chunk and the signature have been checked, the load ends with its one outcome (R529). -/
def State.tryFinal (s : State) (n : Nat) : State :=
  let p := s.slot n
  if ! p.sigDone || decide (p.chunksRead < ceilDiv p.bytes (2 ^ 20)) then s
  else if p.fail = 0 then s.finalCheck n
  else
    let t := { s with images := { s.images with slots := tdel s.images.slots n } }.engineFree p
    (t.loadFailed n p (failOutcome p.fail).1 (failOutcome p.fail).2).rxTry

/-- SIGNATURE_CHECK_DONE (R529 step 2, R508): it passes only by a key slot that holds a key. -/
def execSignatureCheckDone (ok : Bool) (s : State) : Out :=
  .next (match s.images.active with
    | none => s
    | some n =>
      let p := s.slot n
      if p.sigDone then s
      else
        let q := { p with sigDone := true }
        (s.setSlot n (if ok && (s.key p.keySlot).valid then q else q.failAs 2)).tryFinal n)

/-- The bytes of the next chunk of an image (R520): from host memory they come with the command. -/
def State.chunkBytes (s : State) (p : ProgSlot) (data : List Byte) : Option (List Byte) :=
  let len := min (2 ^ 20) (p.bytes - p.chunksRead * 2 ^ 20)
  match p.source with
  | 0 => if data.length = len then some data else none
  | 1 => some (s.rdBytes (p.image + p.payOff + p.chunksRead * 2 ^ 20) len)
  | _ => some ((List.range len).map fun j => tget 0#8 (s.lib p.image).payload (p.chunksRead * 2 ^ 20 + j))

/-- A frame's complement mismatch, counted for the path that the image comes by (R521, R564). -/
def State.frameMismatch (s : State) (p : ProgSlot) : Nat → State
  | 0 => s
  | k + 1 =>
    let t := match p.source with
      | 0 => s.cplMismatch none (hubStop 0) 15 p.inst
      | 1 =>
        let a := p.image + p.payOff + p.chunksRead * 2 ^ 20
        s.cplMismatch none (dramStop (stackOf a)) 10 (a % (96 * 2 ^ 30) / 8192)
      | _ => s.cplMismatch none (hubStop 3) 14 p.image
    t.frameMismatch p k

/-- Frame i of an image: of the chunk in hand, or of the image copy. -/
def State.imageFrame (s : State) (p : ProgSlot) (k : Nat) (bs : List Byte) (i : Nat) : Frame :=
  if i / 2048 = k then frameOf i ((bs.drop (512 * (i % 2048))).take 512) else frameOf i (s.rdBytes (p.dramBase + 512 * i) 512)

/-- What a chunk does to the slot, what it writes, and the complement mismatches (R529 steps 3 and 4): nothing is applied of a chunk whose digest
fails, and nothing is written before frame 0 and the window of the area have passed. -/
def State.walkChunk (s : State) (p : ProgSlot) (bs : List Byte) (ok : Bool) : Walk :=
  let k := p.chunksRead
  let n := p.bytes / 512
  let group := s.fd Reg.CE_GROUP_GROUP
  let fr := s.imageFrame p k bs
  let q := { p with chunksRead := k + 1 }
  if ! ok then ⟨q.failAs 2, [], 0⟩
  else
    let q := if k = 0 ∧ q.fail = 0 then q.takeHeader group n (fr 0) else q
    let q := if k = 0 ∧ q.fail = 0 ∧ (q.dramBase % 4096 ≠ 0 ∨ ! s.inWindow q.inst q.dramBase q.areaBytes) then { q with fail := 4 } else q
    let first := if q.fail = 0 then [(k * 2 ^ 20, bs)] else []
    ((List.range (bs.length / 512)).map fun j => fr (2048 * k + j)).foldl (Walk.next group n fr) ⟨q, first, 0⟩

/-- Tags pages IMAGE with the slot (R555). -/
def State.tagImage (s : State) (n : Nat) (pages : List Nat) : State :=
  { s with mem := { s.mem with tags := pages.foldl (fun g p => tput g p (1 + n)) s.mem.tags } }

/-- Writes what a chunk writes: the image copy with its pages tagged, and the data (R529, R555). -/
def State.writeImage (s : State) (n : Nat) (p : ProgSlot) (k : Nat) (ws : List (Nat × List Byte)) : State :=
  let t := s.each ws fun u w => u.hubWrite (p.dramBase + w.1) w.2
  match ws with
  | [] => t
  | w :: _ => t.tagImage n ((List.range (ceilDiv w.2.length 4096)).map fun j => (p.dramBase + k * 2 ^ 20) / 4096 + j)

/-- IMAGE_CHUNK_READ (R529 steps 3 to 6): the next chunk of the image being registered. A page that it would read or write and that is not
zeroed is demanded first, and the chunk comes again (R496). `transient` tells the complement mismatches that a re-read cured (R521). -/
def execImageChunkRead (data : List Byte) (digestOk : Bool) (transient : Nat) (pages : PageReads) (s : State) : Out :=
  .next (match s.images.active with
    | none => s
    | some n =>
      let p := s.slot n
      let k := p.chunksRead
      let from0 := p.image + p.payOff + k * 2 ^ 20
      if ceilDiv p.bytes (2 ^ 20) ≤ k then s
      else if p.source = 1 ∧ ! s.rangeReady from0 (min (2 ^ 20) (p.bytes - k * 2 ^ 20)) then
        s.demand from0 (min (2 ^ 20) (p.bytes - k * 2 ^ 20))
      else match s.chunkBytes p data with
        | none => s
        | some bs =>
          let damaged := p.source == 2 && (s.lib p.image).damaged.contains k
          let ok := digestOk && ! damaged
          let x := s.walkChunk p bs ok
          let wait := x.writes.filter fun w => ! s.rangeReady (p.dramBase + w.1) w.2.length
          if wait ≠ [] then s.each wait fun u w => u.demand (p.dramBase + w.1) w.2.length
          else
            let t := if p.source = 2 then s.countPages pages else s
            let t := (t.txImage n p.inst (p.payOff + k * 2 ^ 20) bs).frameMismatch p (transient + x.bad)
            let t := if p.source = 2 ∧ ¬ ok then t.damage p.image k else t
            let t := t.writeImage n p k x.writes
            if k + 1 < ceilDiv p.bytes (2 ^ 20) then t.setSlot n x.slot
            else
              let q := x.slot.checkAll (s.fd Reg.CE_GROUP_GROUP) (p.bytes / 512) (t.imageFrame x.slot (2 ^ 40) []) fun c => t.pcOwned c p.inst
              let whole := (q.dataRanges.flatMap fun r => (List.range (ceilDiv r.2 4096 + 1)).map fun j => (r.1 / 4096 + j) * 4096).dedup
              let t := t.tagImage n ((whole.filter q.covered).map fun a => (q.dramBase + a) / 4096)
              (t.setSlot n q).tryFinal n)

/-- ACTIVATION_STAGE_RELEASE (R538): the next stage of ORDER is released; after the last, and any preload, the load completes. -/
def execActivationStageRelease (slot : Fin 1024) (s : State) : Out :=
  let p := s.slot slot
  let j := p.released.length
  .next (if p.phase = 2 ∧ j < 4 then
    ((s.setSlot slot { p with released := p.released ++ [bits (p.header.getD 8 0) (2 * j + 1) (2 * j)] }).tryPreload slot).loadDone slot
  else s)

/-! ### Host reads that time out (R385) -/

/-- A registration ends without an image to check: its slot is free again. -/
def State.dropLoad (s : State) (n : Nat) : State :=
  { s with images := { s.images with slots := tdel s.images.slots n } }.engineFree (s.slot n)

/-- The data of a descriptor did not come: it completes with HOST_TIMEOUT; a load that was being registered ends with it. -/
def State.dataTimeout (s : State) (id : Nat) : State :=
  match s.images.active.filter fun n => (s.slot n).desc == some id with
  | some n => ((s.dropLoad n).loadFailed n (s.slot n) 4 19).rxTry
  | none => s.endDesc id 4 19

/-- The fetch of a descriptor did not come: it completes with HOST_TIMEOUT. Its control word and its cookie, which were never read, are free
values (log entry 81). -/
def State.fetchTimeout (s : State) (r : Nat) : State :=
  let w (k : Nat) : Word := Config.freeWord (s.freeCount + k)
  { s with freeCount := s.freeCount + 3 }.takeFetched r ([w 0, ~~~(w 0), w 1, w 2] ++ List.replicate 12 0) 19

/-- HOST_READ_TIMEOUT (R385): reported through AER and counted; a retry-safe read is reissued under a new tag at most 3 times, any
other ends its descriptor with HOST_TIMEOUT. The tag is quarantined from now (R386). -/
def execHostReadTimeout (tag newTag : Fin 16384) (s : State) : Out :=
  .next (match s.host.reads.find? fun e => e.1 == tag.val with
    | none => s
    | some (_, x) =>
      let t := (((s.inc Reg.HL_TIMEOUTS).irq 3).emit (.aerTimeout tag)).quarantineTag tag
      let reads := tdel t.host.reads tag
      let u := { t with host := { t.host with reads := reads } }
      if x.safe && decide (x.tries < 3) && ! thas t.host.quarantine newTag && ! thas reads newTag then
        { t with host := { t.host with reads := tput reads newTag { x with tries := x.tries + 1 } } }.emit (.hostRead x.inst newTag)
      else match x.use with
        | .data id => u.dataTimeout id
        | .fetch r => u.fetchTimeout r)

/-! ### Planes into clusters (R76, R77, R291, R532) -/

/-- A plane may be evicted for a load of a section of a slot (R77): RESIDENT, not of that section, and not of the next scheduled one. -/
def State.evictable (s : State) (slot sect : Nat) (x : Plane) : Bool :=
  x.st == 2 && ! (x.slot == slot && x.sect == sect) &&
    match s.net.step with
    | some y =>
      let p := s.slot y.slot
      ! (x.slot == y.slot && (x.sect == y.sect || p.nextSect y.sect == some x.sect || (p.chain 64 y.sect).contains x.sect))
    | none => true

/-- The least recently used of some planes. -/
def oldestPlane (l : List (Nat × Plane)) : Option Nat :=
  (l.foldl (fun b e => match b with
    | none => some e
    | some x => if e.2.used < x.2.used then some e else some x) none).map (·.1)

/-- The physical plane that a new plane takes on a cluster: a FREE one, else the evictable one used least recently. -/
def State.planeSpace (s : State) (n slot sect : Nat) : Option Nat :=
  let c := s.cl n
  match (List.range 8).find? fun p => (c.plane p).st == 0 with
  | some p => some p
  | none => oldestPlane (((List.range 8).map fun p => (p, c.plane p)).filter fun e => s.evictable slot sect e.2)

/-- A physical plane is emptied: its contexts, endpoints and streams go with it. -/
def ClusterSt.clearPlane (c : ClusterSt) (p : Nat) : ClusterSt :=
  { c with
    planes := tdel c.planes p
    ctxs := c.ctxs.filter fun e => e.1 / 4 ≠ p
    sends := c.sends.filter fun e => e.1 / 32 ≠ p
    recvs := c.recvs.filter fun e => e.1 / 32 ≠ p
    streams := c.streams.filter fun e => e.1 / 64 ≠ p }

/-- Package counters that the RESIDENT and ACTIVE planes of the package name. -/
def State.pkgAll (s : State) : List Nat := pkgNames (s.clusters.flatMap fun e => (e.2.planes.map (·.2)).filter fun x => x.st == 2 || x.st == 3)

/-- Evicts least recently used planes until the limits of PKG bindings would hold with more names (R291); none where only an ACTIVE plane is
left to go. -/
def State.pkgRoom (s : State) (slot sect : Nat) (new : List Nat) : Nat → Option State
  | 0 => if pkgFits (s.pkgAll ++ new) then some s else none
  | f + 1 =>
    if pkgFits (s.pkgAll ++ new) then some s
    else
      let l := s.clusters.flatMap fun e => (e.2.planes.filter fun x => s.evictable slot sect x.2).map fun x => (8 * e.1 + x.1, x.2)
      match oldestPlane l with
      | none => none
      | some k => (s.upCl (k / 8) fun c => c.clearPlane (k % 8)).pkgRoom slot sect new f

/-- The planes of a section that a cluster is to hold (R523, R72): those of its logical cluster, or of the fold variant of its pair. -/
def State.planesFor (s : State) (n slot sect : Nat) : Table (Table Word) :=
  let lcs := s.lcsOf n
  let p := s.slot slot
  p.planes.filter fun e => e.1 / 65536 == sect &&
    match lcs with
    | [] => false
    | [l] => e.1 / 32768 % 2 == 0 && e.1 / 8 % 512 == l
    | l :: _ => e.1 / 32768 % 2 == 1 && e.1 / 8 % 512 == l / 2 * 2

/-- Writes one plane into a cluster: it becomes RESIDENT with the words of the image (R532), its written bytes are counted, and the mirrors of
its PKG bindings are sent their values (R301). -/
def State.putPlane (s : State) (n slot : Nat) (p : Nat) (e : Nat × Table Word) : State :=
  let q := s.slot slot
  let x : Plane := ⟨2, slot, q.inst, q.gen, e.1 / 65536, e.1 / 8 % 512, (s.cl n).useStamp s.clk, e.1, e.2⟩
  let t := s.upCl n fun c => (c.clearPlane p).setPlane p x
  let t := t.inc64 Reg.CE_PLANE_BYTES_LO (((tget [] q.written e.1).map (·.2)).sum)
  t.each (pkgNames [x]) fun u i => u.emit (.counterUpdate i (u.pc i))

/-- Writes the planes still missing, each in a physical plane of its own; none when one finds no place. -/
def State.putPlanes (s : State) (n slot sect : Nat) : Table (Table Word) → Option State
  | [] => some s
  | e :: es =>
    if (List.range 8).any fun p => let x := (s.cl n).plane p; x.st ≠ 0 && x.slot == slot && x.key == e.1 then s.putPlanes n slot sect es
    else match s.planeSpace n slot sect with
      | none => none
      | some p => (s.putPlane n slot p e).putPlanes n slot sect es

/-- A load with PRELOAD finds no plane (R76, R532): the frame is refused and counted, and the load ends with FRAME_REFUSED; the registration
stands (log entry 71). -/
def State.preloadRefused (s : State) (slot sect : Nat) : State :=
  let p := s.slot slot
  if p.preload ∧ ¬ p.preloaded ∧ ¬ p.told ∧ sect = p.firstSect then
    ((s.inc Reg.CE_FRAMES_REFUSED).setSlot slot { p with preloaded := true, told := true }).loadFailed slot p 4 12
  else s

/-- PLANE_LOAD_DONE (R532): a section's planes have been written into a cluster. -/
def execPlaneLoadDone (n : Fin 576) (slot : Fin 1024) (sect : BitVec 16) (s : State) : Out :=
  let p := s.slot slot
  let need := s.planesFor n slot sect.toNat
  .next (if p.phase ≠ 2 ∨ p.evicting ∨ ¬ p.released.contains 0 ∨ s.isFenced n ∨ need = [] ∨ 3 ≤ s.fd Reg.PWR_STATUS_STATE then s
    else
      let new := pkgNames (need.map fun e => imagePlane e.1 e.2)
      match s.pkgRoom slot sect.toNat new 4608 with
      | none => s
      | some t => match t.putPlanes n slot sect.toNat need with
        | none => s.preloadRefused slot sect.toNat
        | some u => (u.tryPreload slot).tryBoundary)

/-! ### EVICT (R374) -/

/-- An earlier RUN of a slot has not completed. -/
def State.runsBefore (s : State) (n order : Nat) : Bool :=
  s.host.descs.any fun e => e.2.opcode == 1 && bits (e.2.w 4) 31 22 == n && e.2.state ≠ .fetched && decide (e.2.order < order)

/-- Zeroes a range of DRAM (R91). -/
def State.zeroRange (s : State) (a len : Nat) : State := { s with dram := s.dram.filter fun e => ! inRange e.1 a len }

/-- The planes of a slot become FREE and its spill areas are zeroed. -/
def State.dropPlanes (s : State) (n : Nat) : State :=
  let t := { s with clusters := s.clusters.map fun (e : Nat × ClusterSt) =>
    (e.1, ((List.range 8).filter fun p => (e.2.plane p).st ≠ 0 && (e.2.plane p).slot == n).foldl ClusterSt.clearPlane e.2) }
  t.each ((s.slot n).sections.map fun (e : Nat × List Word) => (s.slot n).spill e.1) fun u r => u.zeroRange r.1 r.2

/-- A slot is freed: requests of sessions that were placed in it are refused with NO_PROGRAM (R415, R540), and its batching record is no longer VALID
(R425). -/
def State.freeSlot (s : State) (n : Nat) : State :=
  let t := s.each (s.net.seqs.filter fun e => e.2.slot == n && e.2.session.isSome) fun u e => u.failSeq e.1
  { t with images := { t.images with slots := tdel t.images.slots n } }.setF (Reg.BAT_CTRL_VALID n) 0

/-- EVICT (R374): it waits for the RUNs admitted before it and for the step in progress of its program; a slot that is registering is waited
for (R530). -/
def execEvict (ring : Fin 4096) (pos : Word) (s : State) : Out :=
  .next (s.work ring pos 7 fun s id d =>
    let n := bits (d.w 4) 31 22
    let p := s.slot n
    if p.phase = 0 then s.endDesc id 4 15
    else if p.inst ≠ d.inst then s.endDesc id 4 14
    else if p.phase = 1 ∨ s.runsBefore n d.order then s
    else if s.net.step.any fun x => x.slot == n then s.setSlot n { p with evicting := true }
    else
      let t := s.dropPlanes n
      let t := if bit (d.w 4) 21 then t.freeSlot n else t.setSlot n { p with evicting := false }
      t.endDesc id 0 0)

/-! ### Multicast of images (R534, R542) -/

/-- A write of CE_MC_TX: one to an armed sender that does not clear EN is ignored. -/
def State.txWrite (s : State) (v : Word) : State := if s.on Reg.CE_MC_TX_EN && bit v 31 then s else s.plain Reg.CE_MC_TX v

/-- MC_TX_ARM (R542). -/
def execMcTxArm (v : Word) (s : State) : Out := .next (s.hostWrite Reg.CE_MC_TX fun t => t.txWrite v)

/-- A write of CE_MC_RX_CTRL: an arming with RX_ADDR or RX_BASE outside the owner's windows is refused with RESULT 4. -/
def State.rxWrite (s : State) (v : Word) : State :=
  if s.on Reg.CE_MC_RX_CTRL_EN && bit v 31 then s
  else
    let t := s.plain Reg.CE_MC_RX_CTRL v
    if ! bit v 31 then t
    else
      let o := t.fd Reg.CE_MC_RX_CTRL_OWNER
      if ! t.inWindow o t.rxAddr 1 || ! t.inWindow o t.rxBase 1 then
        (t.setF Reg.CE_MC_RX_CTRL_EN 0).setF Reg.CE_MC_RX_STATUS_RESULT 4
      else { t.wrg Reg.CE_MC_RX_BYTES 0 with images := { (t.wrg Reg.CE_MC_RX_BYTES 0).images with rxHave := [], rxSeen := false } }

/-- MC_RX_ARM (R542). -/
def execMcRxArm (v : Word) (s : State) : Out := .next (s.hostWrite Reg.CE_MC_RX_CTRL fun t => t.rxWrite v)

/-- MC_RX_TIMEOUT (R534, R539): 10 ms after a packet, with bytes missing, the receiver ends INCOMPLETE. -/
def execMcRxTimeout (s : State) : Out :=
  .next (if s.on Reg.CE_MC_RX_CTRL_EN && s.images.rxSeen && ! s.rxComplete && ! s.rxLoading then s.loadErr.rxEnd 3 0 else s)

/-- Whether the armed receiver takes a packet: its group, a key entry that names OWNER, and OWNER's windows. -/
def State.rxTakes (s : State) (q : Nat) (p : FlPacket) : Bool :=
  let o := s.fd Reg.CE_MC_RX_CTRL_OWNER
  s.on Reg.CE_MC_RX_CTRL_EN && s.fd Reg.CE_MC_RX_CTRL_GROUP == p.group && s.target q p == some o && ! s.on (Reg.INST_STATUS_IN_RESET o) &&
    s.inWindow o (s.rxAddr + p.addr) p.data.length && ! s.rxLoading

/-- The local delivery of an MCAST_FRAME (R449, R463, R534). -/
def State.rxDeliver (s : State) (q : Nat) (p : FlPacket) : State :=
  if p.truncated then s.inc (Reg.FL_TRUNCATED q)
  else if s.fd Reg.PWR_STATUS_STATE = 3 then (s.inc Reg.FL_MC_REFUSED).wakeTrigger
  else if ! s.rxTakes q p then s.inc Reg.FL_MC_REFUSED
  else
    let t := (s.hubWrite (s.rxAddr + p.addr) p.data).incN Reg.CE_MC_RX_BYTES p.data.length
    { t with images := { t.images with rxHave := t.images.rxHave ++ [(p.addr, p.data.length)], rxSeen := true } }.rxTry

/-- MCAST_FRAME (R534): replicated, and written by an armed receiver. While a page that it would write is not zeroed it waits as a whole. -/
def execMcastFrame (q : Fin 16) (p : FlPacket) (s : State) : Out :=
  .next (if s.mcLocal p && ! p.truncated && s.fd Reg.PWR_STATUS_STATE ≠ 3 && s.rxTakes q p && ! s.rangeReady (s.rxAddr + p.addr) p.data.length then
      s.demand (s.rxAddr + p.addr) p.data.length
    else
      let t := s.replicate (some q.val) p
      if s.mcLocal p then t.rxDeliver q p else t)

/-! ### Scrubbing (R535, R536) -/

/-- Whether a 64-bit word of a plane is essential (R535). -/
def State.essentialWord (s : State) (x : Plane) (word : Nat) : Bool :=
  match (s.slot x.slot).essential.find? fun e => e.1 == x.key with
  | none => true
  | some e => (e.2.getD (word / 8) 0).getLsbD (word % 8)

/-- PLANE_SCRUB (Table 16.4): what the scrubber finds at a 64-bit word of a plane that is RESIDENT, ACTIVE or RETIRING. -/
def execPlaneScrub (n : Fin 576) (p : Fin 8) (word : Fin 5120) (ecc : Ecc) (s : State) : Out :=
  let x := (s.cl n).plane p
  .next (if x.st < 2 ∨ s.isFenced n then s
    else match ecc with
      | .clean => s
      | .corrected => s.inc Reg.CE_SCRUB_CORR
      | .uncorrectable =>
        if x.st = 2 ∨ ¬ s.essentialWord x word then (s.rewritePlane n p).inc Reg.CE_SCRUB_REPAIR
        else (s.inc Reg.CE_SCRUB_FAULT).report (clusterStop n) 4 (p.val * 2 ^ 21 + word.val) false)

/-! ### Autostart (R541) -/

/-- The next autostart record of the library table that is VALID and not yet processed. -/
def State.nextAuto (s : State) : Option Nat :=
  (List.range 8).find? fun k => bit ((tget [] s.store.autos k).getD 0 0) 31 && ! s.on (Reg.CE_AUTO_STATUS_DONE k)

/-- AUTOSTART (R541): after set-up has been restored, the engine loads the next record from the store. -/
def execAutostart (s : State) : Out :=
  .next (if ! s.on Reg.GS_STATUS_SETUP_RESTORED || s.images.active.isSome || s.storeMaint then s
    else match s.nextAuto with
      | none => s
      | some k =>
        if s.images.slots.any fun e => e.2.origin == k + 2 && ! e.2.told then s
        else
          let r := tget [] s.store.autos k
          let w := r.getD 0 0
          let n := bits w 9 0
          let o := bits w 29 24
          let e := bits w 23 12
          let p := { noSlot with
            inst := o, origin := k + 2, source := 2, image := e, preload := bit w 30
            dramBase := bits (r.getD 1 0) 31 12 * 4096 + bits (r.getD 2 0) 7 0 * 2 ^ 32 }
          match (s.claim n o none).orElse fun _ => s.entryRefuses e o with
          | some d => s.loadFailed n p 4 d
          | none => s.openImage n p (s.lib e).head none)

/-- A write of CE_AUTO_COMMIT (R542): GO commits the eight records to the library table, but for an entry write in progress. -/
def State.autoCommit (s : State) (v : Word) : State :=
  let t := s.plain Reg.CE_AUTO_COMMIT v
  if ! bit v 31 then t
  else if t.store.writing.isSome then t.setF Reg.CE_AUTO_COMMIT_REFUSED 1
  else
    let recs := (List.range 8).map fun k => (k, [t.rg (Reg.CE_AUTO_CTRL k), t.rg (Reg.CE_AUTO_BASE_LO k), t.rg (Reg.CE_AUTO_BASE_HI k)])
    { t with store := { t.store with autos := recs, version := t.store.version + 1 } }

/-- CE_AUTO_COMMIT (R541). -/
def execCeAutoCommit (v : Word) (s : State) : Out := .next (s.hostWrite Reg.CE_AUTO_COMMIT fun t => t.autoCommit v)

end Sys2Proof.Machine
end

