-- ==== Sys2Proof/Machine/TimeBase.lean ====
section
/-! DEFINITION. The time base (R328 to R337, R351): references, lock, holdover, relock, outputs. Phase errors are in units of 0.25 ns. -/

namespace Sys2Proof.Machine

def State.setTime (s : State) (t : TimeSt) : State := { s with time := t }
def State.tbState (s : State) : Nat := s.fd Reg.TB_STATUS_STATE

/-- A bit of TB_EVENTS sets, with IRQ_STATUS.TIME (R353, R397). -/
def State.timeEvent (s : State) (x : Fld) : State := (s.setF x 1).irq 1

/-- Steps the time (R337). -/
def State.stepTime (s : State) (turn angle : Nat) : State :=
  if s.time.turn = turn ∧ s.time.angle = angle then s
  else (s.setTime { s.time with turn := turn, angle := angle }).timeEvent Reg.TB_EVENTS_STEPPED

/-- The time base locks (R332, R333, R336): at first lock the time is set to the reference; a relock that waits for lock ends OK. -/
def State.lockTime (s : State) (set : Option (Nat × Nat)) : State :=
  let t := match set with
    | some (turn, angle) => if s.on Reg.TB_STATUS_FIRST_LOCK then s else s.stepTime turn angle
    | none => s
  let t := t.cond (! t.on Reg.TB_STATUS_FIRST_LOCK) fun u => u.setTime { u.time with lockAt := u.now }
  let t := ((t.setF Reg.TB_STATUS_STATE 2).setF Reg.TB_STATUS_FIRST_LOCK 1).timeEvent Reg.TB_EVENTS_LOCK_GAINED
  if t.time.relocking then (t.setTime { t.time with relocking := false }).maintResult 0 else t

/-- A comparison with a valid reference (R332, R336). `set` is the reference's own time, where it tells one. -/
def State.compare (s : State) (err : Int) (set : Option (Nat × Nat)) : State :=
  let small := decide (err.natAbs ≤ 16)
  let t := (s.wrg Reg.TB_PHASE_ERR (BitVec.ofInt 32 err)).setF Reg.TB_STATUS_REF_VALID 1
  let good := if small then t.time.good + 1 else 0
  let t := t.setTime { t.time with good := good, goodSince := if t.time.good = 0 then t.clk else t.time.goodSince }
  let st := t.tbState
  if st = 3 then
    if small then t.lockTime none
    else t.cond (decide (4000 < err.natAbs)) fun u => u.timeEvent Reg.TB_EVENTS_RELOCK_NEEDED
  else if st = 2 then (if small then t else t.setF Reg.TB_STATUS_STATE 1)
  else
    let t := t.cond (st == 0) fun u => u.setF Reg.TB_STATUS_STATE 1
    if decide (4 ≤ good) && decide (t.time.goodSince + us 100000 ≤ t.clk) then t.lockTime set else t

/-- A pulse is valid (R329): within 1 µs of the predicted boundary, or, while the time base is not locked, spaced from the last one within 100 ppm
of the period, in ns. -/
def State.pulseValid (s : State) (err : Int) (spacing period : Nat) : Bool :=
  decide (err.natAbs ≤ 4000) || (s.tbState ≠ 2 && decide ((spacing : Int) * 10000 - period * 10000 ≤ period) &&
    decide ((period : Int) * 10000 - spacing * 10000 ≤ period))

/-- FRAME_PULSE (R328, R329): an edge of TB_FRAME_IN against the predicted turn boundary, its spacing in ns, and whether TB_REF_IN holds its
frequency. -/
def execFramePulse (err : Int) (spacing : Nat) (refIn : Bool) (s : State) : Out :=
  .next (
    let s := s.cond (s.time.refSel ≠ 0) fun t => t.setF Reg.TB_STATUS_REF_IN_OK (b2n refIn)
    if s.time.source = 1 ∧ (s.time.refSel = 0 ∨ refIn) ∧ s.pulseValid err spacing (1000 * s.time.turnUs) then s.compare err none else s)

/-- PPS_PULSE (R328). -/
def execPpsPulse (err : Int) (spacing : Nat) (s : State) : Out :=
  .next (if s.time.source = 3 ∧ s.pulseValid err spacing (10 ^ 9) then s.compare err none else s)

/-- PTP_SYNC (R330, R332): a comparison at each Sync; the other messages serve the protocol and show nothing of their own. The turn count and
angle are those of the PTP time. -/
def execPtpSync (msg : PtpMsg) (err : Int) (turns : Nat) (angle : BitVec 24) (s : State) : Out :=
  .next (match msg with
    | .sync => if s.time.source = 2 then s.compare err (some (turns % 2 ^ 32, angle.toNat)) else s
    | .followUp | .delayResp | .announce => s)

/-- REFERENCE_LOSS (R334): the cause must fit the reference in use. -/
def execReferenceLoss (why : LossCause) (s : State) : Out :=
  let fits := match why with
    | .pulses => s.time.source == 1 || s.time.source == 3
    | .syncs => s.time.source == 2
    | .refIn => s.time.refSel ≠ 0
  .next (if ! fits then s
    else
      let t := match why with
        | .refIn => s.setF Reg.TB_STATUS_REF_IN_OK 0
        | _ => s
      let t := ((t.setF Reg.TB_STATUS_REF_VALID 0).timeEvent Reg.TB_EVENTS_LOCK_LOST).setTime { t.time with good := 0 }
      if ! t.on Reg.TB_STATUS_FIRST_LOCK then t.setF Reg.TB_STATUS_STATE 1
      else if t.tbState = 3 then t
      else ((t.setF Reg.TB_STATUS_STATE 3).wrg Reg.TB_HOLDOVER_S 0).setTime { t.time with holdFrom := t.clk })

/-- DELAY_REQ_SEND (R406): the slave clock asks for its delay, on the PTP port alone. -/
def execDelayReqSend (s : State) : Out := .next (if s.time.source = 2 then s.emit (.eth s.time.ptpPort 0 .delayReq) else s)

/-- Applies the staged fields of R329. -/
def State.applyStaged (s : State) : State :=
  s.setTime { s.time with
    source := s.fd Reg.TB_CTRL_SOURCE, ptpPort := s.fd Reg.TB_CTRL_PTP_PORT, refSel := s.fd Reg.TB_CTRL_REF_SEL
    turnUs := s.fd Reg.TB_TURN_US_TURN_US, offset := (s.rg Reg.TB_OFFSET).toNat }

/-- The staged fields hold SOURCE 3 with a turn that does not divide a second (R329). -/
def State.badStaged (s : State) : Bool := s.fd Reg.TB_CTRL_SOURCE == 3 && 1000000 % s.fd Reg.TB_TURN_US_TURN_US ≠ 0

/-- TIME_RELOCK (R336): `valid` tells whether the staged reference is valid, and `turns` and `angle` its time, to which the time steps; only PTP
tells a turn count. -/
def execTimeRelock (turns : BitVec 32) (angle : BitVec 24) (valid : Bool) (s : State) : Out :=
  .next (s.hostWrite Reg.MAINT_CMD fun s =>
    let t := s.maintBegin 6
    if t.badStaged then t.maintResult 2
    else
      let t := t.applyStaged
      let t := t.setTime { t.time with relocking := true, good := 0 }
      if t.time.source = 0 then (t.setF Reg.TB_STATUS_STATE 0).setF Reg.TB_STATUS_REF_VALID 0
      else
        let t := (t.setF Reg.TB_STATUS_STATE 4).setF Reg.TB_STATUS_REF_VALID (b2n valid)
        if valid then t.stepTime (if t.time.source = 2 then turns.toNat else t.time.turn) angle.toNat else t)

/-- TB_OUTPUT_PULSE (R351, R352): an edge of an enabled output, once the time base has locked. TB_FRAME_OUT is held while the management
controller is reset. -/
def execTbOutputPulse (pps : Bool) (s : State) : Out :=
  .next (if ! s.on Reg.TB_STATUS_FIRST_LOCK || s.time.source == 0 || s.pins.ioOff then s
    else if pps then s.cond (s.on Reg.TB_OUT_CTRL_PPS_OUT_EN) fun t => t.emit (.pulse true)
    else s.cond (s.on Reg.TB_OUT_CTRL_FRAME_OUT_EN && ! s.mgmt.controllerReset) fun t => t.emit (.pulse false))

/-- The time goes on by 1 au: the angle advances and wraps with the turn (R331), elapsed time by TURN_US · 2^-24 µs, and the seconds of a holdover
count (R335). -/
def State.tick (s : State) : State :=
  let x := s.time
  let wrap := decide (2 ^ 24 ≤ x.angle + 1)
  let t := s.setTime { x with
    clk := x.clk + x.turnUs, angle := if wrap then 0 else x.angle + 1, turn := if wrap then (x.turn + 1) % 2 ^ 32 else x.turn }
  t.cond (t.tbState == 3) fun u => u.wrg Reg.TB_HOLDOVER_S (BitVec.ofNat 32 ((u.clk - u.time.holdFrom) / us (10 ^ 6)))

end Sys2Proof.Machine
end

