-- ==== Sys2Proof/Machine/Views.lean ====
section
/-! DEFINITION. Reading BAR0 (R652 to R657): the registers that show state kept elsewhere, the latches of R657, and the read itself. A figure
that counts cycles, which the model does not, reads as a free value (log entry 2). -/

namespace Sys2Proof.Machine

/-- A register word from its fields' values and low bits. -/
def pack (l : List (Nat × Nat)) : Word := BitVec.ofNat 32 ((l.map fun e => e.1 * 2 ^ e.2).sum)

/-! ### Cluster debug windows (Table 21.3) -/

/-- A context's byte of CTX_STATE (Table 2.13); kind 7 is a READY context whose bank R64 holds. -/
def ClusterSt.ctxByte (c : ClusterSt) (k : Nat) : Nat :=
  let x := c.ctx k
  match x.st with
  | .free => 0
  | .ready => 1 + (if c.bankHeld k then 7 * 32 else 0)
  | .running => 2
  | .done => 4
  | .waiting => 3 + 32 * (match x.wait with
    | .none => 0
    | .recv _ _ => 1
    | .credit _ => 2
    | .stream _ _ => 3
    | .counter _ _ _ _ => 4
    | .barrier _ => 5
    | .board _ _ | .entry => 6)

/-- The context that SEQ_STATUS shows: the running one, or the one that waits in place. -/
def State.seqStatus (s : State) (n : Nat) : Word :=
  let c := s.cl n
  let k := c.cur.getD 0
  pack [(k / 4, 29), (k % 4, 27), (if c.cur.isSome then (c.ctx k).slotPtr % 4096 else 0, 12), (s.seqState n, 8)]

/-- MXU_STATUS (Table 4.9). A tile is valid in the shadow register until an operation swaps it in. -/
def ClusterSt.mxuStatus (c : ClusterSt) : Word :=
  let active := if c.sel then c.tile1 else c.tile0
  let shadow := if c.sel then c.tile0 else c.tile1
  pack [(b2n c.mxuFault, 31), (b2n c.loading.isSome, 30), (b2n (! c.arrays.isEmpty), 29), (b2n c.epiRun.isSome, 28),
    (c.bank1.user, 26), (c.bank0.user, 24), (b2n (shadow.loaded && shadow.complete), 23), (active.fmt, 19), (shadow.fmt, 15)]

/-- The one ACTIVE plane of a cluster; with several, the manual does not say which one the channel registers show. -/
def ClusterSt.soleActive (c : ClusterSt) : Option (Option Nat) :=
  match (List.range 8).filter fun p => (c.plane p).st == 3 with
  | [] => some none
  | [p] => some (some p)
  | _ => none

/-- CH_SEND_i and CH_RECV_j for a plane. -/
def ClusterSt.chSend (c : ClusterSt) (p i : Nat) : Word :=
  pack ((List.range 4).map fun k => (min 15 (c.sendEp (32 * p + 4 * i + k)).credits, 16 + 4 * k))
def ClusterSt.chRecv (c : ClusterSt) (p j : Nat) : Word :=
  let tiles (k : Nat) := (c.recvEp (32 * p + 4 * j + k)).tiles
  let spilled := ((List.range 4).map fun k => ((tiles k).filter fun t => t.spilledAt.isSome).length).sum
  pack (((List.range 4).map fun k => (min 15 (tiles k).length, 16 + 4 * k)) ++ [(min 8 spilled, 12)])

/-- A value that the manual leaves open. -/
def State.openWord (s : State) : Word × State := s.free

/-- The context that LOOP_SEL selects. -/
def State.loopSel (s : State) (n : Nat) : Ctx := (s.cl n).ctx (4 * s.fd (Reg.LOOP_SEL_PLANE n) + s.fd (Reg.LOOP_SEL_CTX n))

/-- A register of a debug window, by its offset in the window (R92, R160, R221, R250, R284, R324). -/
def State.windowView (s : State) (n w : Nat) : Word × State :=
  let c := s.cl n
  let off := 0x400000 + 0x4000 * n + w
  if w = 0x0 then (s.seqStatus n, s)
  else if w = 0x4 then (pack ((List.range 8).map fun p => ((c.plane p).st, 4 * p)), s)
  else if 0x10 ≤ w ∧ w < 0x30 ∧ w % 4 = 0 then (pack ((List.range 4).map fun k => (c.ctxByte ((w - 0x10) + k), 8 * k)), s)
  else if w = 0x48 ∨ w = 0x4C ∨ w = 0x630 then s.openWord
  else if w = 0x200 then (c.mxuStatus, s)
  else if w = 0x308 then (pack [(b2n c.sumsq.isSome, 30), (b2n (c.bank1.user == 3), 23), (b2n (c.bank0.user == 3), 22)], s)
  else if w = 0x400 then
    (pack [(b2n c.zeroing, 31), (b2n c.migrating.isSome, 30), (c.used false, 20), (c.used true, 16)], s)
  else if w = 0x504 then (pack [(b2n c.bucket.isSome, 31), (c.bkt, 0)], s)
  else if w = 0x508 then (BitVec.ofNat 32 (s.loopSel n).size0, s)
  else if w = 0x50C then (BitVec.ofNat 32 (s.loopSel n).size1, s)
  else if 0x510 ≤ w ∧ w < 0x528 ∧ w % 4 = 0 then (BitVec.ofNat 32 ((s.loopSel n).idx.getD ((w - 0x510) / 4) 0), s)
  else if 0x600 ≤ w ∧ w < 0x610 ∧ w % 4 = 0 then
    let mine := c.streams.filter fun e => e.2.engine == (w - 0x600) / 4 && e.2.started && decide (e.2.p < e.2.b)
    if mine.any fun e => ! e.2.flying.isEmpty then
      let f := s.openWord
      (pack [(mine.length, 26), (bits f.1 31 0 % 33, 20)], f.2)
    else (pack [(mine.length, 26)], s)
  else if 0x700 ≤ w ∧ w < 0x740 ∧ w % 4 = 0 then
    match c.soleActive with
    | some none => (0, s)
    | some (some p) => (if w < 0x720 then c.chSend p ((w - 0x700) / 4) else c.chRecv p ((w - 0x720) / 4), s)
    | none => let f := s.openWord; (f.1 &&& (if w < 0x720 then 0xFFFF0000#32 else 0xFFFFF000#32), f.2)
  else if w = 0xA1C then (pack [(b2n c.lending.isSome, 31)], s)
  else (s.rg off, s)

/-! ### Views of the hub -/

/-- IC_INFO, IC_DETAIL and IC_REPORTS of the slot that IC_SEL selects (Table 17.7). -/
def State.incidentView (s : State) (w : Nat) : Word :=
  match (s.collector (s.fd Reg.IC_SEL_COLLECTOR)).slots.find? fun e => e.1 == s.fd Reg.IC_SEL_SLOT with
  | none => 0
  | some (_, i) =>
    if w = 0 then
      pack [(1, 31), (if s.repairing i then 0 else if s.replayPending i then 1 else 2, 28), (i.action, 24), (i.report.unit, 16), (i.report.stop, 0)]
    else if w = 1 then pack [(i.report.detail, 0)] else BitVec.ofNat 32 i.reports

/-- The session registers that SES_SEL selects (Table 12.9), by word from SES_INFO. -/
def State.sessionView (s : State) (w : Nat) : Word :=
  let x := s.ses (s.fd Reg.SES_SEL_SESSION)
  match w with
  | 0 => pack [(b2n x.opened, 31), (x.owner, 25), (x.listener, 19), (x.epoch % 256, 11),
      (min 7 (x.requests.filter fun r => r.reply.isNone).length, 8)]
  | 1 => match x.home with
    | some n => pack [(1, 31), (n, 0)]
    | none => 0
  | 2 => lo32 x.qwait
  | 3 => hi32 x.qwait
  | 4 => lo32 x.preempt
  | _ => hi32 x.preempt

/-- The library registers that LIB_SEL selects (Table 15.10), by word from LIB_INFO. -/
def State.libView (s : State) (w : Nat) : Word :=
  let x := s.lib (s.fd Reg.LIB_SEL_ENTRY)
  match w with
  | 0 => pack [(x.state, 30), (x.kind, 28), (b2n x.isShared, 27), (x.owner, 21), (x.keySlot, 18), (x.model, 0)]
  | 1 => BitVec.ofNat 32 x.version
  | 2 => pack [(x.chunks, 0)]
  | _ => pack [((s.store.lib.filter fun e => e.2.state == 1 || e.2.state == 2).length, 0)]

/-- CL_FMAX and CL_NOW of the cluster that CL_SEL selects (Table 18.7). -/
def State.clockView (s : State) (now : Bool) : Word :=
  let n := s.fd Reg.CL_SEL_PCLUSTER
  if ! now then pack [(fusedMax n, 16), (s.fmax n, 0)]
  else
    let f := tget 0 s.power.granted n
    let st := if s.isFenced n then 4 else if 3 ≤ s.fd Reg.PWR_STATUS_STATE then 3
      else if (s.cl n).lending.isSome then 1 else if s.floored then 2 else 0
    pack [(f, 16), (st, 0)]

/-- BAT_s_LOAD (Table 12.9). -/
def State.loadView (s : State) (n : Nat) : Word :=
  let mine (p : SeqState → Bool) := (s.net.seqs.filter fun e => e.2.slot == n && p e.2.state).length
  pack [(mine fun x => x == .batched, 16), (mine fun x => x == .ready || x == .displaced, 0)]

/-- A register of BAR0 as a read finds it, and the state with the free values taken. -/
def State.view (s : State) (off : Nat) : Word × State :=
  if 0x400000 ≤ off ∧ off < 0xD00000 then
    if 3 ≤ s.fd Reg.PWR_STATUS_STATE then (0, s) else s.windowView ((off - 0x400000) / 0x4000) ((off - 0x400000) % 0x4000)
  else if off = Reg.TB_NOW_TURN then (BitVec.ofNat 32 s.time.turn, s)
  else if off = Reg.TB_NOW_ANGLE then (BitVec.ofNat 32 s.time.angle, s)
  else if off = Reg.IC_INFO then (s.incidentView 0, s)
  else if off = Reg.IC_DETAIL then (s.incidentView 1, s)
  else if off = Reg.IC_REPORTS then (s.incidentView 2, s)
  else if off = Reg.SES_ACTIVE then (pack [((s.net.sessions.filter fun e => e.2.opened).length, 0)], s)
  else if Reg.SES_INFO ≤ off ∧ off ≤ Reg.SES_PREEMPT_HI ∧ off % 4 = 0 then (s.sessionView ((off - Reg.SES_INFO) / 4), s)
  else if Reg.LIB_INFO ≤ off ∧ off ≤ Reg.LIB_COUNT ∧ off % 4 = 0 then (s.libView ((off - Reg.LIB_INFO) / 4), s)
  else if off = Reg.CL_FMAX then (s.clockView false, s)
  else if off = Reg.CL_NOW then (s.clockView true, s)
  else if off = Reg.KEY_CTRL then
    let k := s.key (s.fd Reg.KEY_SEL_SLOT)
    (setBits (setBits (s.rg off) 31 31 (b2n k.valid)) 30 30 (b2n k.locked), s)
  else if Reg.KEY_DATA 0 ≤ off ∧ off < Reg.KEY_DATA 24 ∧ off % 4 = 0 then
    ((s.key (s.fd Reg.KEY_SEL_SLOT)).key.getD ((off - Reg.KEY_DATA 0) / 4) 0, s)
  else if Reg.BAT_LOAD 0 ≤ off ∧ off < Reg.BAT_LOAD 1024 ∧ (off - Reg.BAT_LOAD 0) % 16 = 0 then (s.loadView ((off - Reg.BAT_LOAD 0) / 16), s)
  else if Reg.RM_SLOW_FOLD 0 ≤ off ∧ off < Reg.RM_SLOW_FOLD 32 ∧ (off - Reg.RM_SLOW_FOLD 0) % 0x80 = 0 then
    if s.fd (Reg.RM_STATUS_FOLDED ((off - Reg.RM_SLOW_FOLD 0) / 0x80)) = 0 then (0, s) else s.openWord
  else (s.rg off, s)

/-! ### Latches (R657) -/

/-- The _LO registers, as base, stride and number: repeated blocks with the places in them, and single registers. Each has its _HI register four
bytes above. -/
def loBlocks : List (Nat × Nat × Nat × List Nat) :=
  [(0x400000, 0x4000, 576, [0x40, 0x48, 0x210, 0x220, 0x320, 0x538, 0x614, 0x620, 0x628, 0x748] ++ (List.range 64).map fun c => 0x800 + 8 * c),
   (0x90000, 0x10, 4096, [0]), (0x40000, 0x40, 4096, [0x4, 0xC]), (0x100000, 0x200, 4, [0x10]), (0x180000, 0x20, 16384, [0x18]),
   (0x80000, 0x400, 64, [0x10, 0x100, 0x108, 0x110, 0x184, 0x1C4, 0x208, 0x218, 0x220, 0x244]), (0x210410, 32, 4, [0x4, 0xC]),
   (0xA0300, 0x10, 8, [0x4])]
def loSingles : List Nat := [0x4, 0x30400, 0x30804, 0x3080C, 0x10084C, 0x100854, 0xB0204, 0xB1104, 0xA0018, 0xA0204, 0xA020C]

/-- A read of the register at an offset latches the one four bytes above. -/
def setsLatch (off : Nat) : Bool :=
  off == Reg.TB_NOW_TURN || loSingles.contains off ||
    loBlocks.any fun b => decide (b.1 ≤ off) && decide (off < b.1 + b.2.1 * b.2.2.1) && b.2.2.2.contains ((off - b.1) % b.2.1)

/-- The key of a requester's latch on a register. -/
def latchKey (mc : Bool) (off : Nat) : Nat := 2 * off + b2n mc

/-- A read of 4 bytes (R657): the requester's latch is consumed where there is one; a read of a _LO register latches its _HI register. -/
def State.read4 (s : State) (mc : Bool) (off : Nat) : Word × State :=
  let k := latchKey mc off
  let v := if thas s.host.latches k then (tget 0 s.host.latches k, s) else s.view off
  let t := { v.2 with host := { v.2.host with latches := tdel v.2.host.latches k } }
  if setsLatch off then
    let h := t.view (off + 4)
    (v.1, { h.2 with host := { h.2.host with latches := tput h.2.host.latches (latchKey mc (off + 4)) h.1 } })
  else (v.1, t)

/-- The registers that an access of some bytes touches, lowest first. -/
def touched (off size : Nat) : List Nat :=
  (List.range ((off % 4 + size + 3) / 4)).map fun k => off / 4 * 4 + 4 * k

/-- A read of 8 aligned bytes (R654, R657): both registers as of one instant, with no latch left. -/
def State.read8 (s : State) (mc : Bool) (off : Nat) : State :=
  let a := s.view off
  let b := a.2.view (off + 4)
  let t := { b.2 with host := { b.2.host with latches := tdel (tdel b.2.host.latches (latchKey mc off)) (latchKey mc (off + 4)) } }
  (t.emit (.regRead mc off a.1)).emit (.regRead mc (off + 4) b.1)

/-- What recovery serves (R615): the identity block. -/
def State.readServed (s : State) (off : Nat) : Bool := ! s.on Reg.GS_STATUS_RECOVERY || decide (off < 0x100)

/-- A read of a register that shows nothing of itself: SP_DBG_DATA is read by the command SP_DBG_READ. -/
def dbgData (off : Nat) : Bool := decide (0x400000 ≤ off) && decide (off < 0xD00000) && off % 0x4000 == 0x434

/-- LATCHED_READ (R654, R657): a read of BAR0 by the host or by the management controller. It answers with the registers that it touches. -/
def execLatchedRead (mc : Bool) (off : BitVec 24) (size : Nat) (s : State) : Out :=
  let a := off.toNat
  .next (if ! s.readServed a || dbgData (a / 4 * 4) then s
    else if size = 8 ∧ a % 8 = 0 then s.read8 mc a
    else s.each (touched a size) fun t r =>
      let v := t.read4 mc r
      v.2.emit (.regRead mc r v.1))

end Sys2Proof.Machine
end

