-- ==== Sys2Proof/Machine/Angle.lean ====
section
/-! DEFINITION. Angle events and deadlines (R338 to R350): the table's commits, the firings of Table 10.4, and run deadlines. -/

namespace Sys2Proof.Machine

/-! ### Entries (R338 to R340) -/

/-- The words of a committed entry. -/
def State.aeWords (s : State) (e : Nat) : List Word := (List.range 4).map fun w => s.rg (Reg.AE_WORD e w)

/-- Fields of an entry's words (Table 10.3). -/
def aeValid (ws : List Word) : Bool := bit (ws.getD 0 0) 31
def aeAction (ws : List Word) : Nat := bits (ws.getD 0 0) 30 27
def aeOneshot (ws : List Word) : Bool := bit (ws.getD 0 0) 26
def aeOwner (ws : List Word) : Nat := bits (ws.getD 0 0) 25 20
def aeAngle (ws : List Word) : Nat := bits (ws.getD 1 0) 23 0
def aeMod (ws : List Word) : Nat := bits (ws.getD 2 0) 31 16
def aePhase (ws : List Word) : Nat := bits (ws.getD 2 0) 15 0
def aeArg (ws : List Word) : Word := ws.getD 3 0

/-- The time of a turn and an angle, and whether one time lies at or before another, as the turn count wraps (R331). -/
def timeMod : Nat := 2 ^ 56
def le56 (a b : Nat) : Bool := decide ((b + timeMod - a % timeMod) % timeMod < 2 ^ 55)

/-- The latest ideal time of an entry's words at or before now (R338, R343). -/
def State.idealTime (s : State) (ws : List Word) : Nat :=
  let base := if aeAngle ws ≤ s.time.angle then s.time.turn else (s.time.turn + 2 ^ 32 - 1) % 2 ^ 32
  let back (b : Nat) : Nat := b - (b - aePhase ws) % max 1 (aeMod ws)
  (if aePhase ws ≤ base then back base else back (2 ^ 32 - 1)) * 2 ^ 24 + aeAngle ws

/-- 2 µs in au. -/
def State.commitLead (s : State) : Nat := ceilDiv (2 * 2 ^ 24) s.time.turnUs

/-- The words that govern an entry's firing now, its ideal time, and whether they are the committed ones: a firing whose ideal time is earlier
than 2 µs after the commit follows the previous contents (R339). -/
def State.governs (s : State) (e : Nat) : List Word × Nat × Bool :=
  let ws := s.aeWords e
  match s.time.previous.find? fun x => x.1 == e with
  | none => (ws, s.idealTime ws, true)
  | some (_, at0, old) =>
    if le56 (at0 + s.commitLead) (s.idealTime ws) then (ws, s.idealTime ws, true) else (old, s.idealTime old, false)

/-- Some committed DEADLINE entry names a package counter. -/
def State.watched (s : State) (c : Nat) : Bool :=
  (List.range 512).any fun e => aeValid (s.aeWords e) && aeAction (s.aeWords e) == 5 && bits (aeArg (s.aeWords e)) 11 0 == c

/-- A package counter's watch value goes when no committed entry names it (R346). -/
def State.pruneWatches (s : State) : State := s.setTime { s.time with watch := s.time.watch.filter fun x => s.watched x.1 }

/-- VALID of an entry clears. -/
def State.clearEntry (s : State) (e : Nat) : State :=
  ((s.setF ⟨Reg.AE_WORD e 0, 31, 31⟩ 0).setF ⟨Reg.AE_WORD e 4, 31, 31⟩ 1).pruneWatches

/-- The bits of ARG that an action defines (Table 10.4). -/
def argMask (action : Nat) : Nat :=
  match action with
  | 1 | 2 | 3 => 0xFFF
  | 4 => 0xFFFFFFFF
  | 5 => 0xFF800FFF
  | 6 => 0xC00001FF
  | 7 => 0xFFFF
  | _ => 0

/-- A field of a staged entry is invalid (R339): an undefined action, a reserved bit set, a phase not below the modulus, or an argument outside
the values of Table 10.4. -/
def aeInvalid (ws : List Word) : Bool :=
  let a := aeAction ws
  let arg := aeArg ws
  a == 0 || decide (8 ≤ a) || bits (ws.getD 0 0) 19 0 ≠ 0 || bits (ws.getD 1 0) 31 24 ≠ 0 || decide (aeMod ws ≤ aePhase ws) ||
    (arg &&& ~~~(BitVec.ofNat 32 (argMask a))) ≠ 0 || (a == 4 && bits arg 19 16 == 15) || (a == 5 && bits arg 30 23 == 0) ||
    (a == 6 && (bits arg 31 30 == 3 || (bits arg 31 30 == 2 && (decide (bits arg 8 0 < 120) || decide (300 < bits arg 8 0)))))

/-- ARG names something that OWNER does not own, or the action is the device's own (R339). A section belongs to the instance that has it
registered. -/
def State.aeNotOwned (s : State) (ws : List Word) : Bool :=
  let o := aeOwner ws
  let arg := aeArg ws
  let ring (r : Nat) : Bool := s.fd (Reg.RC_CTRL_OWNER r) ≠ o
  match aeAction ws with
  | 1 | 2 | 3 => ring (bits arg 11 0)
  | 4 => ring (bits arg 31 20) || ! s.images.slots.any fun p => p.2.phase == 2 && p.2.inst == o && thas p.2.sections (bits arg 15 0)
  | 5 => ! s.pcOwned (bits arg 11 0) o
  | _ => o ≠ 0

/-- The staging copy of a word of an entry (R659). -/
def State.aeStaged (s : State) (e w : Nat) : Word := tget (regReset (Reg.AE_WORD e w)) s.time.staged (8 * e + w)

/-- A write of words 0 to 6 goes to the staging copy (R339). -/
def State.aeStage (s : State) (e w : Nat) (v : Word) : State := s.setTime { s.time with staged := tput s.time.staged (8 * e + w) v }

/-- A write of word 7 commits the staged copy, or is refused (R339). -/
def State.aeCommit (s : State) (e : Nat) (w7 : Word) : State :=
  let s := s.aeStage e 7 w7
  let ws := (List.range 4).map (s.aeStaged e)
  let t := s.setF Reg.AE_COMMIT_ENTRY e
  if (List.range 4).any fun w => s.aeStaged e (w + 4) ≠ ~~~(s.aeStaged e w) then
    (((t.setF Reg.AE_COMMIT_RESULT 1).inc Reg.AE_DISCARD).hostMismatch 0)
  else if aeInvalid ws then t.setF Reg.AE_COMMIT_RESULT 2
  else if s.aeNotOwned ws then t.setF Reg.AE_COMMIT_RESULT 3
  else
    let t := t.setTime { t.time with previous := tput t.time.previous e (s.now, s.aeWords e) }
    let t := t.each (List.range 8) fun u w => u.wrg (Reg.AE_WORD e w) (s.aeStaged e w)
    (t.setF Reg.AE_COMMIT_RESULT 0).pruneWatches

/-- AE_COMMIT (R339). -/
def execAeCommit (e : Fin 512) (w7 : Word) (s : State) : Out := .next (s.hostWrite (Reg.AE_WORD e 7) fun t => t.aeCommit e w7)

/-! ### Firings (R337, R340, R343, R344) -/

/-- Other entries whose firings lie within 16 ns of an ideal time (R343). -/
def State.crowd (s : State) (e ideal : Nat) : Nat :=
  let near (t : Nat) : Bool :=
    let d := min ((t + timeMod - ideal) % timeMod) ((ideal + timeMod - t) % timeMod)
    decide (d * s.time.turnUs * 1000 ≤ 16 * 2 ^ 24)
  ((s.time.fired.filter fun x => x.1 ≠ e && x.2.any near).map (·.1)).length

/-- An ideal time of an entry has fired; firings of the other half of the time's range are forgotten. -/
def State.markFired (s : State) (e ideal : Nat) : State :=
  s.setTime { s.time with fired := tput s.time.fired e (ideal :: (tget [] s.time.fired e).filter fun t => le56 t s.now) }

/-- An action's effect: the state after it, and whether it acted. -/
abbrev Act := State → List Word → Nat → State × Bool

/-- Runs an action, and counts a firing that acted. -/
def State.act (s : State) (f : Act) (ws : List Word) (ideal : Nat) : State :=
  let r := f s ws ideal
  if r.2 then r.1.inc Reg.AE_FIRED else r.1

/-- A firing of entry e with an action of Table 10.4: the entry must be due and not have fired at its ideal time. `bad` tells which stored copies
fail their check; `late` that the firing is made at a step of the time. In Rest the first four actions wait for the wake. -/
def State.fire (s : State) (e action : Nat) (fits : List Word → Bool) (bad : BitVec 2) (late : Bool) (f : Act) : State :=
  let g := s.governs e
  let ws := g.1
  let ideal := g.2.1
  if ! s.on Reg.TB_STATUS_FIRST_LOCK || s.tbState == 0 || s.on Reg.GS_STATUS_SHUTTING_DOWN || ! aeValid ws || aeAction ws ≠ action || ! fits ws ||
      le56 ideal s.time.lockAt || (tget [] s.time.fired e).contains ideal then s
  else if bad = 3 then ((s.clearEntry e).inc Reg.AE_DISCARD).hostMismatch 0
  else
    let t := s.cond (decide (4 ≤ s.crowd e ideal)) fun u => u.inc Reg.AE_CROWDED
    let t := t.markFired e ideal
    let hold := decide (action ≤ 4) && decide (2 ≤ t.fd Reg.PWR_STATUS_STATE)
    let t := t.cond (late || hold) fun u => u.inc Reg.AE_LATE
    let t := if hold then (t.setPower { t.power with held := t.power.held ++ [(e, ws)] }).wakeTrigger else t.act f ws ideal
    if aeOneshot ws then
      (if g.2.2 then t.clearEntry e
       else t.setTime { t.time with previous := tput t.time.previous e (((tget (0, []) t.time.previous e).1), ws.set 0 (setBits (ws.getD 0 0) 31 31 0)) })
    else t

/-- START_RUN (R344): the ring's oldest awaiting descriptor is admitted; without one nothing happens, and AE_IDLE advances. -/
def actStartRun : Act := fun s ws _ =>
  let r := bits (aeArg ws) 11 0
  match s.nextDesc r with
  | some id =>
    if s.fd (Reg.RC_CTRL_OWNER r) == aeOwner ws && s.on (Reg.RC_CTRL_SQ_EN r) && (s.desc id).awaits && ! s.ringHeld r &&
        s.cqRoom (s.fd (Reg.RC_SQ_LINK_CQ r)) && s.deadlineRoom (s.desc id) && ! s.admitHeld then (s.admitOne id, true)
    else (s.inc Reg.AE_IDLE, false)
  | none => (s.inc Reg.AE_IDLE, false)

/-- RING (R365): the staged tail is applied if it is ahead, and ignored otherwise. -/
def actRing : Act := fun s ws _ =>
  let r := bits (aeArg ws) 11 0
  match (s.ring r).stagedTail with
  | some n =>
    let t := BitVec.ofNat 32 n
    let tail := s.rg (Reg.RC_SQ_TAIL r)
    if s.fd (Reg.RC_CTRL_OWNER r) == aeOwner ws && s.on (Reg.RC_CTRL_SQ_EN r) && t ≠ tail &&
        tailOk t tail (s.rg (Reg.RC_SQ_HEAD r)) (s.fd (Reg.RC_CTRL_SQ_LOG2 r)) then (s.newTail r t, true)
    else (s, false)
  | none => (s, false)

/-- A firing that its barrier already holds latched is missed (R344). -/
def State.missed (s : State) (e : Nat) : State := (s.inc Reg.AE_MISSED).setF Reg.AE_LAST_MISS_ENTRY e

/-- START_STEP (R315): the step barrier's node latches the firing. -/
def actStartStep (e : Nat) : Act := fun s _ _ =>
  if s.net.gateStep then (s.missed e, false) else ({ s with net := { s.net with gateStep := true } }, true)

/-- BARRIER (R315): the node of the named barrier latches the firing. -/
def actBarrier (e : Nat) : Act := fun s ws _ =>
  let k := barKey (bits (aeArg ws) 15 0) (bits (aeArg ws) 19 16)
  let b := s.bar k
  if b.latched then (s.missed e, false) else (s.setBar k { b with latched := true }, true)

/-- A deadline miss of an instance (R346, R348): the event, its bit of INST_EVENTS, and DL_MISSES. -/
def State.deadlineMiss (s : State) (i : Nat) : State :=
  let sect := match s.net.step with
    | some x => if x.inst = i then x.sect else 0
    | none => 0
  ((s.postOpen 6 none (some (i, sect))).instEvent i 1).inc Reg.DL_MISSES

/-- The section in progress holds a PKG binding of a counter, in an ACTIVE plane. -/
def State.sectionBinds (s : State) (x : StepSt) (c : Nat) : Bool :=
  s.clusters.any fun e => (List.range 8).any fun p =>
    let y := e.2.plane p
    y.st == 3 && y.slot == x.slot && y.sect == x.sect && (List.range (y.f 4 6 0)).any fun b =>
      y.cb b 0 31 31 == 1 && y.cb b 0 30 29 == 2 && y.cb b 0 11 0 == c

/-- The run of an instance in progress on the section that binds a counter is abandoned by a DEADLINE entry (R346, R349): every sequence of the
step. -/
def State.abandonRun (s : State) (i c : Nat) : State :=
  match s.net.step with
  | none => s
  | some x =>
    if x.inst ≠ i || x.committed || ! s.sectionBinds x c then s
    else
      let t := ((s.stopClusters).endEpisodes).rollback
      (t.each x.seqIds fun u id => (u.endSeq id 2 2).inc Reg.DL_ABANDONS).setStep none

/-- DEADLINE (R346): the counter is compared with its watch value, which then takes the counter's value. -/
def actDeadline : Act := fun s ws ideal =>
  let c := bits (aeArg ws) 11 0
  let o := aeOwner ws
  if ! s.pcOwned c o then (s, false)
  else
    let v := s.pc c
    let old := s.time.watch.find? fun x => x.1 == c
    let w : Watch := match old with
      | none => ⟨v, ideal, 0, false⟩
      | some (_, w) => if w.ideal = ideal then { w with value := v } else ⟨v, ideal, w.value, true⟩
    let t := s.setTime { s.time with watch := tput s.time.watch c w }
    if w.checks && decide (v < w.before + bits (aeArg ws) 30 23) then
      ((t.deadlineMiss o).cond (bit (aeArg ws) 31) fun u => u.abandonRun o c, true)
    else (t, true)

/-- POWER (Table 10.4): the wake trigger, the request to enter Rest, and the new cap, which is in its range. -/
def actWake : Act := fun s _ _ => (s.wakeTrigger, true)
def actRest : Act := fun s _ _ => (s.restRequest false, true)
def actCap : Act := fun s ws _ => (s.setF Reg.PWR_CTRL_CAP_W (bits (aeArg ws) 8 0), true)

/-- The registers of a sample set, in the order of Table 17.8 and R602. -/
def sampleSet (k : Nat) : List Nat :=
  match k with
  | 0 => [Reg.FH_SUMMARY, Reg.FH_REPLAYS, Reg.FH_INCIDENTS, Reg.FH_COALESCED, Reg.FH_CPL_MISMATCH, Reg.FH_EVT_HEAD]
  | 1 => (List.range 32).flatMap fun g => [Reg.RM_STATUS g, Reg.RM_SLOW_FOLD g]
  | 2 => ((List.range 8).flatMap fun st => [Reg.DRAM_STATUS st, Reg.DRAM_UNCORR st, Reg.DRAM_ROWS_SPARED st]) ++
      [Reg.ST_FREE_BLOCKS, Reg.ST_BAD_BLOCKS, Reg.ST_WEAR, Reg.ST_OVERDUE, Reg.ST_UNCORR]
  | 3 => (List.range 16).flatMap fun p => [Reg.FL_STATUS p, Reg.FL_DOWNS p, Reg.FL_REPLAYS p]
  | 4 => [Reg.PWR_STATUS, Reg.PWR_NOW, Reg.PWR_LIMIT, Reg.PWR_FREQ, Reg.PWR_DEBT, Reg.TH_HOT] ++ (List.range 5).map Reg.TH_DIE ++
      [Reg.VR_ALERTS, Reg.DROOP_EVENTS, Reg.THROTTLE_MS, Reg.IDLE_GAPS, Reg.FAN_STATUS]
  | _ => []

/-- The snapshot page of a set (R569). -/
def samplePage (k : Nat) : Nat := 0x38000 + 0x400 * k

/-- Samples a set: its registers from +0x10, the turn and the angle of the firing, and SEQ last. -/
def State.sample (s : State) (seq ideal k : Nat) : State :=
  let t := s.each ((sampleSet k).mapIdx fun i r => (i, r)) fun u e =>
    let v := u.view e.2
    v.2.wrg (samplePage k + 0x10 + 4 * e.1) v.1
  ((t.wrg (samplePage k + 4) (BitVec.ofNat 32 (ideal / 2 ^ 24))).wrg (samplePage k + 8) (BitVec.ofNat 32 (ideal % 2 ^ 24))).wrg
    (samplePage k) (BitVec.ofNat 32 seq)

/-- TELEMETRY (R569): each set that the mask names; SEQ advances with each sample. -/
def actTelemetry : Act := fun s ws ideal =>
  (s.each ((List.range 5).filter fun k => bit (aeArg ws) k) fun t k =>
    let n := t.repair.sampleSeq + 1
    { t with repair := { t.repair with sampleSeq := n } }.sample n ideal k, true)

/-- The OP of a POWER entry. -/
def opIs (k : Nat) (ws : List Word) : Bool := bits (aeArg ws) 31 30 == k

/-- START_RUN, RING, START_STEP, BARRIER, DEADLINE, POWER and TELEMETRY firings (Table 10.4). -/
def execStartRun (e : Fin 512) (bad : BitVec 2) (late : Bool) (s : State) : Out := .next (s.fire e 1 (fun _ => true) bad late actStartRun)
def execRingFire (e : Fin 512) (bad : BitVec 2) (late : Bool) (s : State) : Out := .next (s.fire e 2 (fun _ => true) bad late actRing)
def execStartStep (e : Fin 512) (bad : BitVec 2) (late : Bool) (s : State) : Out := .next (s.fire e 3 (fun _ => true) bad late (actStartStep e))
def execAeBarrier (e : Fin 512) (bad : BitVec 2) (late : Bool) (s : State) : Out := .next (s.fire e 4 (fun _ => true) bad late (actBarrier e))
def execDeadline (e : Fin 512) (bad : BitVec 2) (late : Bool) (s : State) : Out := .next (s.fire e 5 (fun _ => true) bad late actDeadline)
def execPowerWake (e : Fin 512) (bad : BitVec 2) (late : Bool) (s : State) : Out := .next (s.fire e 6 (opIs 0) bad late actWake)
def execPowerEnterRest (e : Fin 512) (bad : BitVec 2) (late : Bool) (s : State) : Out := .next (s.fire e 6 (opIs 1) bad late actRest)
def execPowerSetCap (e : Fin 512) (bad : BitVec 2) (late : Bool) (s : State) : Out := .next (s.fire e 6 (opIs 2) bad late actCap)
def execTelemetry (e : Fin 512) (bad : BitVec 2) (late : Bool) (s : State) : Out := .next (s.fire e 7 (fun _ => true) bad late actTelemetry)

/-! ### The wake ends (R598, R344) -/

/-- An action that waited for the wake, by its entry and words. -/
def State.heldAct (s : State) (x : Nat × List Word) : State :=
  let run (f : Act) : State := s.act f x.2 0
  match aeAction x.2 with
  | 1 => run actStartRun
  | 2 => run actRing
  | 3 => run (actStartStep x.1)
  | _ => run (actBarrier x.1)

/-- WAKE_DONE (R598): the module runs again, and the firings that waited act. -/
def execWakeDone (s : State) : Out :=
  .next (if s.fd Reg.PWR_STATUS_STATE ≠ 4 then s
    else
      let t := ((s.setF Reg.PWR_STATUS_STATE 1).powerEvent Reg.PWR_EVENTS_WOKE).regrant
      let l := t.power.held
      (t.setPower { t.power with held := [] }).each l State.heldAct)

/-! ### Run deadlines (R347 to R350) -/

/-- A sequence's last step has committed: it leaves with the step in progress, which stands past its commit point. -/
def State.lastCommitted (s : State) (id : Nat) : Bool :=
  let q := s.seq id
  s.net.step.any fun x => x.committed && x.seqIds.contains id &&
    (decide (q.maxSteps ≤ q.stepsRun + 1) || bit (s.rdW q.outAddr) 0)

/-- A deadline instant of a sequence is reached (R348 to R350): on time, flagged, or abandoned; one that has not started ends without
starting. -/
def State.seqDeadline (s : State) (id : Nat) (abandon : Bool) : State :=
  let q := s.seq id
  if q.state == .gone || s.lastCommitted id then s
  else if abandon then s.abandonSeq id 1
  else
    let t := s.deadlineMiss q.inst
    if q.startAt.isNone then t.endSeq id 1 1 else t.setSeq id { t.seq id with late := true }

/-- A deadline of a descriptor whose sequence is not made yet: it ends without starting (R350). -/
def State.descDeadline (s : State) (id : Nat) (abandon : Bool) : State :=
  if (s.desc id).state ≠ .admitted then s
  else if abandon then (s.endDesc id 2 1).inc Reg.DL_ABANDONS
  else (s.deadlineMiss (s.desc id).inst).endDesc id 1 1

/-- The deadline instant of a RUN or of a request is reached (R347); before first lock none is evaluated (R333). -/
def execRunDeadline (src : RunSrc) (s : State) : Out :=
  .next (if ! s.on Reg.TB_STATUS_FIRST_LOCK then s
    else match src with
    | .desc ring pos => match s.findDesc ring pos.toNat with
      | none => s
      | some id => match s.host.deadlines.find? fun d => d.desc == id && le56 d.instant s.now with
        | none => s
        | some d =>
          let t := { s with host := { s.host with deadlines := s.host.deadlines.filter fun x => x.desc ≠ id } }
          match t.net.seqs.find? fun e => e.2.desc == some id && e.2.state ≠ .gone with
          | some (q, _) => t.seqDeadline q d.abandon
          | none => t.descDeadline id d.abandon
    | .req session reqId => match s.net.seqs.find? fun e => e.2.session == some (session.val, reqId.toNat) && e.2.state ≠ .gone with
      | none => s
      | some (q, x) => match x.deadline with
        | some (at0, abandon) =>
          if le56 at0 s.now then (s.setSeq q { x with deadline := none }).seqDeadline q abandon else s
        | none => s)

end Sys2Proof.Machine
end

