-- ==== Sys2Proof/Machine/Resets.lean ====
section
/-! DEFINITION. The reset of an instance (R387 to R391), and what other chapters say that it clears (R309, R316, R341, R413, R423, R475, R483,
R488, R515, R530, R562, Table 6.6). -/

namespace Sys2Proof.Machine

/-! ### The array (R388, R390, Table 6.6) -/

/-- What the zeroing engine is asked for on a cluster: the ranges of every plane of the instance, which hold their receive buffers, and the banks
and counters where one of them is ACTIVE or RETIRING (Table 6.6). -/
def ClusterSt.resetZero (c : ClusterSt) (i : Nat) : Option ZeroReq :=
  let mine := c.planes.filter fun e => e.2.st ≠ 0 && e.2.inst == i
  let full := mine.any fun e => e.2.st == 3 || e.2.st == 4
  if mine.isEmpty then none else some ⟨mine.map fun e => (e.2.scratchBase, e.2.scratchTop), full, full, some i⟩

/-- The planes of the instance become FREE (R390). Where one was ACTIVE or RETIRING, what its units still ran ends with it: all that it could
write is zeroed. -/
def ClusterSt.resetPlanes (c : ClusterSt) (i : Nat) : ClusterSt :=
  let mine := (List.range 8).filter fun p => (c.plane p).st ≠ 0 && (c.plane p).inst == i
  let full := mine.any fun p => (c.plane p).st == 3 || (c.plane p).st == 4
  let cur := c.cur.filter fun k => ! mine.contains (k / 4)
  let d := mine.foldl ClusterSt.clearPlane c
  let d : ClusterSt := { d with
    cur := cur
    switching := d.switching.filter fun k => ! mine.contains (k / 4)
    switch := d.switch.filter fun w => w.inst ≠ i }
  if full then { d with
    loaderQ := none
    arrayQ := none
    vecQ := none
    loading := none
    tile0 := noTile
    tile1 := noTile
    bank0 := { d.bank0 with user := 0, closed := false, kPos := 0 }
    bank1 := { d.bank1 with user := 0, closed := false, kPos := 0 }
    arrays := []
    epiQ := []
    epiRun := none
    sumsq := none
    board := []
    bucket := none
    arrived := false }
  else d

/-- The planes of an instance on one cluster: zeroing is requested, a fenced cluster apart (R220), and they become FREE; lending stops. -/
def State.resetCluster (s : State) (i n : Nat) : State :=
  let c := s.cl n
  match c.resetZero i with
  | none => s
  | some z =>
    let t := s.stopLend n
    t.upCl n fun d => { d.resetPlanes i with zero := if t.isFenced n then d.zero else d.zero ++ [z] }

/-- The step in progress stops if it serves the instance (R388, R562): the journal is rolled back, and the episodes of its barriers end (R316). Runs
of other instances in it restart without the others, with one pre-emption each (R349). -/
def State.resetStep (s : State) (i : Nat) : State :=
  match s.net.step with
  | none => s
  | some x =>
    let others := x.seqIds.filter fun id => (s.seq id).inst ≠ i
    if x.inst ≠ i && others.length = x.seqIds.length then s
    else
      let t := (s.stopClusters).endEpisodes
      let t := if x.committed then t else t.rollback
      let t := (t.each others fun u k => u.setSeq k { u.seq k with preempt := (u.seq k).preempt + 1, state := .displaced }).setStep none
      if others.isEmpty || x.inst = i then t else { t with net := { t.net with restart := some x.slot } }

/-- The sequences of the instance end without completion or reply. -/
def State.resetSeqs (s : State) (i : Nat) : State :=
  s.each (s.net.seqs.filter fun e => e.2.inst == i && e.2.state ≠ .gone) fun t e => t.setSeq e.1 { t.seq e.1 with state := .gone }

/-! ### The host link (R388, R389) -/

/-- The enables of the instance's ring contexts clear; what they had fetched or reserved goes. -/
def State.resetRings (s : State) (i : Nat) : State :=
  let mine := (s.host.rings.filter fun e => s.fd (Reg.RC_CTRL_OWNER e.1) == i).map (·.1)
  let t := s.each mine fun u r => (u.setF (Reg.RC_CTRL_SQ_EN r) 0).setF (Reg.RC_CTRL_CQ_EN r) 0
  let t := t.each mine fun u r =>
    u.setRing r { u.ring r with stagedTail := none, failures := 0, bells := [], reserved := 0, sinceIrq := 0, coalFrom := none }
  let t := t.each (t.host.descs.filter fun e => e.2.inst == i && e.2.state == .running && e.2.opcode == 5) fun u e =>
    u.traceEnd (bits (e.2.w 4) 11 0) (BitVec.ofNat 32 (hostNode i), e.2.w 5)
  let gone := (t.host.descs.filter fun e => mine.contains e.2.ring || e.2.inst == i).map (·.1)
  let u := { t with host := { t.host with
    descs := t.host.descs.filter fun e => ! gone.contains e.1
    deadlines := t.host.deadlines.filter fun d => ! gone.contains d.desc } }
  -- a host read of the old generation is retired at once
  let tags := (u.host.reads.filter fun e => e.2.inst == i).map (·.1)
  let u := u.each tags State.quarantineTag
  { u with host := { u.host with reads := u.host.reads.filter fun e => ! tags.contains e.1 } }

/-! ### Programs (R390, R530) -/

/-- One program slot of the instance: a load in registration or in an unfinished staged activation ends without completion; the planes and the spill areas
go, and the slot is unregistered. The multicast receiver whose load ends is no longer armed; an autostart record stays processed, with a status that
the manual does not give. -/
def State.resetSlot (s : State) (n : Nat) : State :=
  let p := s.slot n
  let t := if s.images.active = some n then s.engineFree p else s
  let t := if p.told then t
    else match p.origin with
      | 0 => t
      | 1 => t.setF Reg.CE_MC_RX_CTRL_EN 0
      | k + 2 =>
        let f := t.free
        ((f.2.setF (Reg.CE_AUTO_STATUS_DONE k) 1).setF (Reg.CE_AUTO_STATUS_STATUS k) (bits f.1 3 0)).setF (Reg.CE_AUTO_STATUS_DETAIL k) (bits f.1 15 4)
  let t := t.dropPlanes n
  { t with images := { t.images with slots := tdel t.images.slots n } }.setF (Reg.BAT_CTRL_VALID n) 0

/-- Every slot that the instance holds. -/
def State.resetSlots (s : State) (i : Nat) : State :=
  s.each ((s.images.slots.filter fun e => e.2.inst == i).map (·.1)) State.resetSlot

/-! ### The instance's engines across packages, counters and entries -/

/-- Requests of the instance on the Flarid links are old-generation transfers and go (R389); packets of this package that wait at a port for them go with
them. -/
def State.resetLinks (s : State) (i : Nat) : State :=
  let l := s.links
  let ids := ((l.egress ++ l.tracked ++ l.idle).filter fun r => r.inst == i).map (·.id)
  let keep (p : FlPacket) : Bool := ! (p.src == s.srcId && ! p.isReply && ! p.mcast && ids.contains p.reqId)
  { s with links := { l with
    ports := l.ports.map fun (e : Nat × PortSt) => (e.1, { e.2 with waiting := e.2.waiting.filter keep })
    egress := l.egress.filter fun r => r.inst ≠ i
    tracked := l.tracked.filter fun r => r.inst ≠ i
    idle := l.idle.filter fun r => r.inst ≠ i
    casts := tdel l.casts i } }

/-- The step gate, the statistics block, the broadcast writer, the fetch queue and the accounting totals of the instance (R475, R488, R483, R515, R423). -/
def State.resetUnits (s : State) (i : Nat) : State :=
  let t := ((s.setF (Reg.XCH_GATE_CTRL_EN i) 0).wrg64 (Reg.XCH_GATE_BASE_LO i) 0).wrg (Reg.XCH_GATE_STEPS i) 0
  let t := { t with net := { t.net with gateFrom := tdel t.net.gateFrom i } }
  let t := (t.setF (Reg.STAT_CTRL_EN i) 0).statClear i
  let t := t.setF (Reg.XCH_BC_CTRL_BUSY i) 0
  let t := (t.setF (Reg.STF_CTRL_EN i) 0)
  let t := { t with store := { t.store with fetch := tdel t.store.fetch i } }
  t.accClear i

/-- Package counters that the instance owns restart at 0, with their notify and interrupt state cleared (R309); mirrors are sent the value (R301).
Their watch values go (R346). -/
def State.resetCounters (s : State) (i : Nat) : State :=
  let mine := (List.range 4096).filter fun c => s.pcOwned c i
  let t := s.each mine fun u c =>
    ((((u.setPc c 0).setF (Reg.PC_CTRL_NOTIFY_EN c) 0).setF (Reg.PC_CTRL_IRQ_ARM c) 0).emit (.counterUpdate c 0))
  t.setTime { t.time with watch := t.time.watch.filter fun e => ! mine.contains e.1 }

/-- VALID of every angle-event entry of the instance clears, in the contents in force and in those that still govern (R341, R339). -/
def State.resetEntries (s : State) (i : Nat) : State :=
  let mine := (List.range 512).filter fun e => aeValid (s.aeWords e) && aeOwner (s.aeWords e) == i
  let t := s.each mine State.clearEntry
  (t.setTime { t.time with previous := t.time.previous.filter fun e => aeOwner e.2.2 ≠ i }).pruneWatches

/-- Sessions that the instance owns close (R413). -/
def State.resetSessions (s : State) (i : Nat) : State :=
  s.each ((s.net.sessions.filter fun e => e.2.opened && e.2.owner == i).map (·.1)) State.closeSession

/-- Angle-event firings held for a wake that act for the instance are dropped with its entries; accesses that wait at a DRAM controller are of the old
generation. -/
def State.resetHeld (s : State) (i : Nat) : State :=
  { s with
    power := { s.power with held := s.power.held.filter fun e => aeOwner e.2 ≠ i }
    mem := { s.mem with waiting := s.mem.waiting.filter fun w => w.inst ≠ i } }

/-! ### INST_RESET and RESET_DONE -/

/-- The reset of instance i is requested; a request during its reset merges with it (R387). -/
def State.instReset (s : State) (i : Nat) : State :=
  if s.on (Reg.INST_STATUS_IN_RESET i) then s
  else
    let t := (s.resetStep i).resetSeqs i
    let t := (t.setF (Reg.INST_STATUS_GENERATION i) ((t.gen i + 1) % 256)).setF (Reg.INST_STATUS_IN_RESET i) 1
    let t := ((t.resetRings i).resetSessions i).resetEntries i
    let t := t.each ((t.clusters.map (·.1))) fun u n => u.resetCluster i n
    let t := ((t.resetSlots i).resetLinks i).resetUnits i
    (t.resetCounters i).resetHeld i

/-- The instances that a cause resets (R387). -/
def resetTargets : ResetCause → List Nat
  | .flr i => [i]
  | .register i => [i]
  | .pfFlr => List.range 64
  | .vfEnableClear => (List.range 63).map (· + 1)

/-- INST_RESET (R387 to R390). -/
def execInstReset (why : ResetCause) (s : State) : Out :=
  .next (match why with
    | .register i => s.hostWrite (Reg.INST_CTRL i) fun t => t.instReset i
    | _ => s.each (resetTargets why) State.instReset)

/-- Nothing of the instance's reset is left: its zeroing has ended, and no read of the old generation is at a controller (R390). -/
def State.resetOver (s : State) (i : Nat) : Bool :=
  (s.clusters.all fun e => e.2.zero.all fun z => z.reset ≠ some i) &&
    s.mem.ctl.all fun e => e.2.reads.all fun m => m.requesters.all fun r => r.2.1 ≠ i || r.2.2 == s.gen i

/-- The pages of the instance's enabled windows. -/
def State.windowPages (s : State) (i : Nat) : List Nat :=
  (List.range 8).flatMap fun w =>
    if s.on (Reg.WIN_BASE_EN i w) then (List.range (s.fd (Reg.WIN_SIZE_SIZE i w))).map (s.fd (Reg.WIN_BASE_BASE i w) + ·) else []

/-- RESET_DONE (R390, R391): the reset ends; then every window of the instance is to be zeroed, DRAM_ZEROING set meanwhile. -/
def execResetDone (i : Fin 64) (s : State) : Out :=
  .next (if ! s.on (Reg.INST_STATUS_IN_RESET i) || ! s.resetOver i then s
    else
      let t := ((s.setF (Reg.INST_STATUS_IN_RESET i) 0).setF (Reg.INST_STATUS_RESET_DONE i) 1).instEvent i 0
      let ps := t.windowPages i
      if ps.isEmpty then t
      else { t with mem := { t.mem with instZero := tput t.mem.instZero i ps } }.setF (Reg.INST_STATUS_DRAM_ZEROING i) 1)

end Sys2Proof.Machine
end

