-- ==== Sys2Proof/Machine/ColdReset.lean ====
section
/-! DEFINITION. Cold reset and boot (R603 to R613, R615, R626, R643), and maintenance commands 3 and 5 (R568, R616). -/

namespace Sys2Proof.Machine

def State.setMgmt (s : State) (m : MgmtSt) : State := { s with mgmt := m }

/-! ### The cold reset (R607, Table 19.2) -/

/-- What a controller keeps of its DRAM stack: spared rows, retired pages, and the pseudo-channel that the spare has replaced (Table 19.3). -/
def State.keepCtl (s : State) (st : Nat) : DramCtl :=
  let c := s.ctl st
  { noCtl with
    spared := c.spared
    retired := c.retired
    pcRows := c.pcRows
    pcPages := c.pcPages
    sparePc := if s.on (Reg.DRAM_STATUS_SPARE_PC st) then some (s.fd (Reg.DRAM_STATUS_PC_FOR st)) else c.sparePc }

/-- The spare-bank maps of the health record (R567): those in use. -/
def State.keepSpares (s : State) : Table Word :=
  ((List.range 576).filter fun n => s.on (Reg.SP_BANK_MAP_USED n)).foldl (fun t n => tput t n (s.rg (Reg.SP_BANK_MAP n))) s.repair.spareMaps

/-- Management after a cold reset: firmware, boot-select, fuses and the set-up record are kept, and the levels of the pins. -/
def MgmtSt.cold (m : MgmtSt) : MgmtSt :=
  { m with updating := none, saving := none, restore := none, recovery := [], controllerReset := false, hubDead := false, coldDue := none
           restartCount := false }

/-- A cold reset (Table 19.2): every register takes its reset value but GS_RESET_CAUSE, where the bit of the cause sets; the store's contents, the
firmware, the health, ageing and set-up records, the fuses and what is physical are kept. DRAM is unzeroed, and outputs are released. -/
def State.coldReset (s : State) (cause : Option Nat) : State :=
  let c := s.rg Reg.GS_RESET_CAUSE ||| (match cause with
    | some k => BitVec.ofNat 32 (2 ^ k)
    | none => 0)
  let t : State := { State.reset with
    pending := s.pending
    freeCount := s.freeCount
    outbox := s.outbox
    regs := []
    mem := { MemReset with ctl := (List.range 8).map fun st => (st, s.keepCtl st) }
    store := { StoreReset with
      lib := s.store.lib.map fun (e : Nat × LibEntry) => (e.1, { e.2 with uses := 0 })
      blocks := s.store.blocks
      keys := s.store.keys
      version := s.store.version
      seqNo := s.store.seqNo
      autos := s.store.autos }
    repair := { RepairReset with fenceCount := s.repair.fenceCount, retired := s.repair.retired, spareMaps := s.keepSpares }
    power := { PowerReset with falls := s.power.falls }
    mgmt := s.mgmt.cold
    pins := { PinReset with tapInstr := s.pins.tapInstr, boundary := s.pins.boundary, refLost := s.pins.refLost, ioOff := s.pins.ioOff }
    bridges := s.bridges }
  -- entries that were DELETING have no use left
  (t.each ((t.store.lib.filter fun e => e.2.state == 3).map (·.1)) State.libSettle).wrg Reg.GS_RESET_CAUSE c

/-- A shutdown is under way and has not completed (R625). -/
def State.inShutdown (s : State) : Bool := s.on Reg.GS_STATUS_SHUTTING_DOWN && ! s.on Reg.GS_STATUS_SHUTDOWN_DONE

/-- A cold reset for a cause of GS_RESET_CAUSE; during a shutdown, which runs to completion (R625), it follows at its end (Table 19.9). -/
def State.coldCause (s : State) (k : Nat) : State :=
  if s.inShutdown then s.setMgmt { s.mgmt with coldDue := some k } else s.coldReset (some k)

/-- COLD_RESET (R605): COLD_RESET_N is asserted, or the module powers on. -/
def execColdReset (powerOn : Bool) (s : State) : Out :=
  let t := s.setMgmt { s.mgmt with inColdReset := true }
  .next (if powerOn then { t.setMgmt { t.mgmt with brownout := [], warn := false } with pins := { t.pins with refLost := [], ioOff := false } }.coldReset (some 0)
    else t.coldCause 1)

/-- COLD_RESET_N_DEASSERT (R605): the module boots, with every rail and reference clock good; the TAP resets (R647). -/
def execColdResetNDeassert (s : State) : Out :=
  .next (if ! s.mgmt.inColdReset then s
    else
      let t := s.setMgmt { s.mgmt with inColdReset := false }
      { t with pins := { t.pins with tapInstr := 2, tapTakes := false, refLost := [], ioOff := false } })

/-- The module is in cold reset: the pin is asserted and the reset has begun, or a supply or REFCLK_SYS is out. -/
def State.inCold (s : State) : Bool := (s.mgmt.inColdReset && s.mgmt.coldDue.isNone) || ! s.mgmt.brownout.isEmpty

/-- Boot is in progress (R610); a power warning stops it (Table 19.9), and the hub watchdog's state ends it (R624). -/
def State.booting (s : State) : Bool :=
  ! s.on Reg.GS_STATUS_READY && ! s.on Reg.GS_STATUS_RECOVERY && ! s.on Reg.GS_STATUS_SHUTTING_DOWN && ! s.inCold && ! s.mgmt.hubDead

/-! ### Boot (R609 to R612, R615) -/

/-- The ROM enters recovery (R615), with the cause of GS_BOOT. -/
def State.enterRecovery (s : State) (cause : Nat) : State :=
  (((s.setF Reg.GS_STATUS_RECOVERY 1).setF Reg.GS_BOOT_FAILED 1).setF Reg.GS_BOOT_CAUSE cause).alert 1

/-- Stage 0 ends (R611): the identity record is shown when a copy of it checks. -/
def State.bootRom (s : State) : State :=
  let t := s.setF Reg.GS_STATUS_STAGE 1
  if s.mgmt.identityGood then t.wrg64 Reg.GS_SERIAL_LO s.mgmt.serial else t

/-- The firmware copy of a number, and whether boot accepts it (R609). -/
def MgmtSt.firmware (m : MgmtSt) (k : Nat) : Firmware := if k = 0 then m.copyA else m.copyB
def MgmtSt.accepts (m : MgmtSt) (k : Nat) : Bool := (m.firmware k).good && decide (m.minSvn ≤ (m.firmware k).svn)

/-- The copy that boot tries first: after a watchdog stop the other one (R612), else the pending one, else the one that the record names. -/
def MgmtSt.firstCopy (m : MgmtSt) : Nat := if 0 < m.stops then 1 - m.copy else m.pendingCopy.getD m.select

/-- Stage 1 ends (R609, R611): a copy is accepted, or the module enters recovery. A pending copy that is not accepted is dropped (R616). -/
def State.bootFirmware (s : State) : State :=
  let m := s.mgmt
  let a := m.firstCopy
  match [a, 1 - a].find? m.accepts with
  | none => (s.setMgmt { m with pendingCopy := none }).enterRecovery 1
  | some k =>
    let f := m.firmware k
    let t := s.setMgmt { m with copy := k, pendingCopy := if m.pendingCopy = some k then some k else none }
    let t := ((t.setF Reg.GS_STATUS_FW_COPY k).setF Reg.GS_STATUS_FALLBACK (b2n (k ≠ a))).setF Reg.GS_STATUS_STAGE 2
    let t := ((t.setF Reg.GS_FW_VERSION_SVN f.svn).setF Reg.GS_FW_VERSION_BUILD f.build).wrg Reg.MG_IANA (BitVec.ofNat 32 m.iana)
    if m.identityGood then
      t.each (List.range 4) fun u p =>
        let v := (m.mac + 4 * p) % 2 ^ 48
        (u.wrg (Reg.ETH_MAC_LO p) (lo32 v)).setF (Reg.ETH_MAC_HI_MAC p) (v / 2 ^ 32)
    else t.alert 4

/-- The clusters that do not return to service (R567, R216): those that fail their test, with more than one fence, retired before, or with two banks
to replace. -/
def State.bootRetired (s : State) (clusters : List Nat) (banks : List (Nat × Nat)) : List Nat :=
  (List.range 576).filter fun n => clusters.contains n || decide (1 < tget 0 s.repair.fenceCount n) || s.repair.retired.contains n ||
    decide (1 < ((banks.filter fun b => b.1 == n).map (·.2) ++ (if thas s.repair.spareMaps n then [bits (tget 0 s.repair.spareMaps n) 30 26] else [])).dedup.length)

/-- Stage 2 ends: spare banks mapped (R215), repair maps rebuilt from the shipment binding (R567), scratchpads zeroed (Table 6.6); a path beyond
repair fails the package (R45). -/
def State.bootSelfTest (s : State) (clusters : List Nat) (banks : List (Nat × Nat)) (paths : Bool) : State :=
  let out := s.bootRetired clusters banks
  let t := { s with repair := { s.repair with retired := out } }
  let t := t.each t.repair.spareMaps fun u e => u.wrg (Reg.SP_BANK_MAP e.1) e.2
  let t := t.each (banks.filter fun b => ! out.contains b.1) fun u b => u.mapSpare b.1 b.2
  let t := t.each out fun u n =>
    let f := Reg.RM_STATUS_WORKING (n / 18)
    u.setF f (u.fd f &&& (2 ^ 18 - 1 - 2 ^ (n % 18)))
  let t := t.each ((List.range 32).filter fun g => out.any fun n => n / 18 == g) fun u g => (u.rewriteMap g (regionStop g)).1
  let t := { t with clusters := [] }.summary
  let t := if paths then t.packageFailed 3 (hubStop 0) 0 else t
  t.regrant.setF Reg.GS_STATUS_STAGE 3

/-- Stage 3 ends: the stacks that trained are up; spare pseudo-channels and retired pages are restored. Two dead stacks of a die fail the package
(R45). -/
def State.bootDram (s : State) (dead : List Nat) : State :=
  let t := s.each (List.range 8) fun u st =>
    let c := u.ctl st
    let u := (u.setF (Reg.DRAM_STATUS_UP st) (b2n (! dead.contains st))).setF (Reg.DRAM_STATUS_RETIRED st) c.retired.length
    match c.sparePc with
    | some pc => (u.setF (Reg.DRAM_STATUS_SPARE_PC st) 1).setF (Reg.DRAM_STATUS_PC_FOR st) pc
    | none => u
  let t := match (List.range 4).find? fun d => dead.contains (2 * d) && dead.contains (2 * d + 1) with
    | some d => t.packageFailed 4 (dramStop (2 * d)) 11
    | none => t
  t.setF Reg.GS_STATUS_STAGE 4

/-- A half-erased block that the scan finds (R503): its chunks are damaged where the table maps it; its erase takes the count of its INTENT record,
or else the wear record plus 64. -/
def State.halfErased (s : State) (b : Nat) (count : Option Nat) : State :=
  let x := s.block b
  let t := if x.cls = 1 then s.each ((List.range chunksPerBlock).filter fun k => decide (x.chunk + k < (s.lib x.entry).chunks)) fun u k =>
      u.damage x.entry (x.chunk + k) else s
  t.setBlock b { x with cls := 3, pe := count.getD (x.pe + 64) }

/-- The store scan ends (R502): half-erased blocks are counted, and they and orphans are erased in the background. -/
def State.bootStore (s : State) (half : List (Nat × Option Nat)) (pages : PageReads) : State :=
  let found := half.filter fun e => decide (e.1 < blockCount) && (s.block e.1).cls ≠ 4
  let t := (s.countPages pages).each found fun u e => u.halfErased e.1 e.2
  let t := { t with store := { t.store with
    ready := true, erasing := (t.store.blocks.filter fun (e : Nat × StoreBlock) => e.2.cls == 2 || e.2.cls == 3).map fun (e : Nat × StoreBlock) => e.1 } }
  ((t.wrg Reg.ST_HALF_ERASED (BitVec.ofNat 32 found.length)).setF Reg.ST_STATUS_READY 1).storeCounts

/-- A pending copy that reaches READY becomes the running copy, and may raise the fused minimum (R616). -/
def MgmtSt.settle (m : MgmtSt) : MgmtSt :=
  match m.pendingCopy with
  | none => { m with stops := 0 }
  | some k =>
    let f := m.firmware k
    let up := decide (m.minSvn < f.svn) && decide (m.svnRaises < 64)
    { m with stops := 0, pendingCopy := none, select := k
             minSvn := if up then f.svn else m.minSvn, svnRaises := if up then m.svnRaises + 1 else m.svnRaises }

/-- Stage 4 ends (R612): READY. A package that failed at boot shows so; the time taken is a free value. A module without a set-up record has restored
it (R614). -/
def State.bootReady (s : State) : State :=
  let f := s.free
  let t := ((f.2.setF Reg.GS_STATUS_STAGE 5).setF Reg.GS_STATUS_READY 1).setF Reg.GS_BOOT_BOOT_MS (bits f.1 15 0)
  let t := if t.on Reg.FH_SUMMARY_FAILED then (t.setF Reg.GS_BOOT_FAILED 1).setF Reg.GS_BOOT_CAUSE 3 else t
  let t := (t.setMgmt t.mgmt.settle).setF Reg.GS_SETUP_VALID (b2n t.mgmt.setup.isSome)
  (if t.mgmt.setup.isSome then t else t.setF Reg.GS_STATUS_SETUP_RESTORED 1).alert 5

/-- BOOT_STAGE_END (R610): the stage in progress ends with what it found; another stage's finding is not of this stage. -/
def execBootStageEnd (f : BootFact) (s : State) : Out :=
  .next (if ! s.booting then s
    else match s.fd Reg.GS_STATUS_STAGE, f with
      | 0, .rom => s.bootRom
      | 1, .firmware => s.bootFirmware
      | 2, .selfTest c b p => s.bootSelfTest c b p
      | 3, .dram d => s.bootDram d
      | 4, .store h p => (s.bootStore h p).bootReady
      | _, _ => s)

/-- BOOT_WATCHDOG (R612): a cold reset that takes the other copy; the second stop in succession puts the module in recovery. A pending copy that is
stopped is dropped (R616). -/
def execBootWatchdog (s : State) : Out :=
  .next (if ! s.booting || s.fd Reg.GS_STATUS_STAGE == 0 then s
    else
      let t := s.coldReset none
      let m : MgmtSt := { t.mgmt with pendingCopy := none }
      if 0 < m.stops then (t.setMgmt { m with stops := 0 }).bootRom.enterRecovery 2
      else t.setMgmt { m with stops := m.stops + 1 })

/-! ### Supplies and clocks (R606, R643) -/

/-- An internal cold reset, which holds until its cause has ended (R606). -/
def State.brownoutReset (s : State) (c : Supply) : State :=
  let t := s.coldReset (some 4)
  t.setMgmt { t.mgmt with brownout := if t.mgmt.brownout.contains c then t.mgmt.brownout else t.mgmt.brownout ++ [c] }

/-- RAIL_FAULT (R606): watched while COLD_RESET_N is deasserted. The core rails are guarded by VR_ALERT_N alone; without VDD_IO_1V8 every output is
released (R639). -/
def execRailFault (r : Rail) (s : State) : Out :=
  .next (if s.mgmt.inColdReset then s
    else match r with
      | .aon => s.brownoutReset .aon
      | .hub => s.brownoutReset .hub
      | .core _ => s
      | .io => { s with pins := { s.pins with ioOff := true } }.packageFailed 6 (hubStop 9) 0
      | _ => s.packageFailed 6 (hubStop 9) 0)

/-- BROWNOUT_END (R606): the supply or clock has been good for 10 ms; with the last of them the reset ends, and boot runs. -/
def execBrownoutEnd (c : Supply) (s : State) : Out :=
  let t := s.setMgmt { s.mgmt with brownout := s.mgmt.brownout.filter (· ≠ c) }
  .next (match c with
    | .refclk => { t with pins := { t.pins with refLost := t.pins.refLost.filter (· ≠ .sys) } }
    | _ => t)

/-- The host link is down: HL_STATUS shows nothing. -/
def State.hostLinkDown (s : State) : State := s.wrg Reg.HL_STATUS 0

/-- REFCLK_LOSS (R643). -/
def execRefclkLoss (c : RefClk) (s : State) : Out :=
  let t := { s with pins := { s.pins with refLost := if s.pins.refLost.contains c then s.pins.refLost else s.pins.refLost ++ [c] } }
  .next (match c with
    | .sys => if s.mgmt.inColdReset then t else t.brownoutReset .refclk
    | .eth => t.each (List.range 16) fun u k => u.ethDown (k / 4) (k % 4) false
    | .flarid d => t.each (List.range 4) fun u k =>
        let p := 4 * d.val + k
        if [1, 2, 3].contains (u.portState p) then (u.retrain p).portDown p else u
    | .pcie => t.hostLinkDown)

/-! ### The host reset and the host link (R607, R608, R613) -/

/-- HOST_RESET (R607): PERST_N asserts; the link goes down, and every instance is reset. During boot it holds only the host link, and in cold reset it
has no effect (R608). -/
def execHostReset (s : State) : Out :=
  let t := s.setMgmt { s.mgmt with perst := true }
  .next (if s.inCold then t
    else if ! s.on Reg.GS_STATUS_READY then t.hostLinkDown
    else (t.hostLinkDown).each (List.range 64) State.instReset)

/-- PERST_N_DEASSERT (R613): the link trains once stage 0 has ended, and comes up with a rate, width and FLIT mode. -/
def execPerstNDeassert (rate : BitVec 2) (flit : Bool) (width : BitVec 5) (s : State) : Out :=
  let t := s.setMgmt { s.mgmt with perst := false }
  .next (if s.inCold || s.fd Reg.GS_STATUS_STAGE == 0 || s.pins.refLost.contains .pcie then t
    else (((t.setF Reg.HL_STATUS_RATE rate.toNat).setF Reg.HL_STATUS_FLIT (b2n flit)).setF Reg.HL_STATUS_WIDTH width.toNat).setF Reg.HL_STATUS_UP 1)

/-! ### The controller's reset and the hub watchdog (R622 to R624) -/

/-- The management controller is reset: counted; FAN_PWM at 100 %, and the other outputs hold (Table 19.6). -/
def State.controllerResetNow (s : State) : State :=
  if s.inCold then s
  else ((s.setMgmt { s.mgmt with controllerReset := true }).inc Reg.MG_RESETS).driveFan

/-- CONTROLLER_RESET, CONTROLLER_WATCHDOG (R622). -/
def execControllerReset (s : State) : Out := .next s.controllerResetNow
def execControllerWatchdog (s : State) : Out := .next s.controllerResetNow

/-- CONTROLLER_RESET_DONE (R622, Table 19.6): the outputs follow their sources again. -/
def execControllerResetDone (s : State) : Out :=
  .next (if s.mgmt.controllerReset then ((s.setMgmt { s.mgmt with controllerReset := false }).drivePins).driveFan else s)

/-- HUB_WATCHDOG (R624): not armed in boot stages 0 and 1, in cold reset, nor during a shutdown. -/
def execHubWatchdog (s : State) : Out :=
  .next (if s.inCold || s.on Reg.GS_STATUS_SHUTTING_DOWN || decide (s.fd Reg.GS_STATUS_STAGE ≤ 1) then s
    else
      let t := (s.setMgmt { s.mgmt with hubDead := true }).setF Reg.GS_RESET_CAUSE_HUB_DEAD 1
      { t.driveFan with pins := { t.driveFan.pins with alertN := true } })

/-! ### GS_RESET (R629) -/

/-- The effect of a reset code whose complement holds; another code does nothing. -/
def State.resetCode (s : State) (code : Nat) : State :=
  if code = 0x0C01 then s.coldCause 3
  else if code = 0x0C02 then s.controllerResetNow
  else s

/-- A write of GS_RESET: halves that are not complements are ignored and counted. -/
def State.gsReset (s : State) (v : Word) : State :=
  if bits v 31 16 + bits v 15 0 = 65535 then s.resetCode (bits v 15 0) else s.hostMismatch 0

/-- GS_RESET_COLD, GS_RESET_CONTROLLER (R629). -/
def execGsResetCold (v : Word) (s : State) : Out := .next (s.hostWrite Reg.GS_RESET fun t => t.gsReset v)
def execGsResetController (v : Word) (s : State) : Out := .next (s.hostWrite Reg.GS_RESET fun t => t.gsReset v)

/-! ### Maintenance commands 3 and 5 (R568, R616) -/

/-- REPAIR_SCAN (R568): spare clusters, fenced clusters and unused spare banks are tested. A spare that fails clears its WORKING bit, and RESULT is
FAILED when a spare fails. -/
def execRepairScan (badClusters badBanks : List Nat) (s : State) : Out :=
  .next (s.hostWrite Reg.MAINT_CMD fun s =>
    let t := s.maintBegin 3
    let bound := (List.range 512).map s.physOf
    let spares := (List.range 576).filter fun n => s.works (n / 18) (n % 18) && ! bound.contains n
    let tested := spares ++ s.repair.fenced
    let failed := spares.filter badClusters.contains
    let t := t.each failed fun u n =>
      let f := Reg.RM_STATUS_WORKING (n / 18)
      (u.setF f (u.fd f &&& (2 ^ 18 - 1 - 2 ^ (n % 18)))).mapStatus (n / 18)
    let t := if failed.isEmpty then t else t.summary
    let banks := badBanks.any fun n => decide (n < 576) && ! s.spareUsed n
    let t := ((t.setF Reg.FH_SCAN_VALID 1).setF Reg.FH_SCAN_TESTED tested.length).setF Reg.FH_SCAN_PASSED
      (tested.filter fun n => ! badClusters.contains n).length
    t.maintResult (b2n (! failed.isEmpty || banks)))

/-- FIRMWARE_UPDATE (R616): `sigOk`, `svn` and `build` are those of the image at the host address. The copy not running is written as the command
ends. -/
def execFirmwareUpdate (sigOk : Bool) (svn build : BitVec 16) (s : State) : Out :=
  .next (s.hostWrite Reg.MAINT_CMD fun s =>
    let t := s.maintBegin 5
    if 2 ^ 24 < (s.rg (Reg.MAINT_ARG 2)).toNat then t.maintResult 2
    else if ! sigOk || decide (svn.toNat < s.mgmt.minSvn) then t.maintResult 1
    else (t.setMgmt { t.mgmt with updating := some ⟨true, svn.toNat, build.toNat⟩ }).maintResult 0)

end Sys2Proof.Machine
end

