-- ==== Sys2Proof/Machine/RegWrite.lean ====
section
/-! DEFINITION. Writes of BAR0 (R652, R654 to R659): the order of the checks, and the condition and effect of each register of chapter 21 that
is not plain storage; the set-up record (R614). -/

namespace Sys2Proof.Machine

/-! ### Fields out of range (R656) -/

/-- A field of a write keeps its old value unless its new one is allowed. -/
def keep (old v : Word) (hi lo : Nat) (ok : Bool) : Word := if ok then v else setBits v hi lo (bits old hi lo)

/-- The place of an offset among registers of one kind: base, stride, number. -/
def at? (off base stride n : Nat) : Option Nat :=
  if base ≤ off ∧ off < base + stride * n ∧ (off - base) % stride = 0 then some ((off - base) / stride) else none

/-! ### The set-up record (R614, Table 19.4) -/

/-- A register's writable bits, as a write that restores them. -/
def State.snap (s : State) (offs : List Nat) : SetupRecord := offs.map fun o => (o, s.rg o &&& BitVec.ofNat 32 (regMasks o).1)

/-- The registers of a unit, where one of them differs from its reset value. -/
def State.snapIf (s : State) (offs : List Nat) : SetupRecord := if offs.any fun o => s.rg o ≠ regReset o then s.snap offs else []

/-- A committed angle-event entry. -/
def State.snapEntry (s : State) (e : Nat) : SetupRecord :=
  let offs := (List.range 8).map (Reg.AE_WORD e)
  if offs.any fun o => s.rg o ≠ regReset o then offs.map fun o => (o, s.rg o) else []

/-- A committed key and its complement, which commits it. -/
def State.snapKey (s : State) (off offN : Nat) : SetupRecord := if s.rg off = regReset off then [] else [(off, s.rg off), (offN, s.rg offN)]

/-- A route table entry, written through its window. -/
def snapRoute (d : Nat) (x : RouteEnt) : SetupRecord :=
  [(Reg.FL_RT_SEL, BitVec.ofNat 32 d), (Reg.FL_RT_MODE, BitVec.ofNat 32 (b2n x.valid * 2 ^ 31 + b2n x.spread * 2 ^ 30))] ++
  ((List.range 4).flatMap fun r =>
    let y := x.routes.getD r noRoute
    [(Reg.FL_RT_CTRL r, BitVec.ofNat 32 (b2n y.valid * 2 ^ 31 + y.hops * 2 ^ 16)), (Reg.FL_RT_LO r, lo32 y.bits), (Reg.FL_RT_HI r, hi32 y.bits),
      (Reg.FL_RT_LO_N r, ~~~(lo32 y.bits)), (Reg.FL_RT_HI_N r, ~~~(hi32 y.bits))]) ++
  [(Reg.FL_RT_CMD, 2)]

/-- A group table entry, written through its window. -/
def snapGroup (g : Nat) (w : Word) : SetupRecord :=
  [(Reg.FL_MC_SEL, BitVec.ofNat 32 g), (Reg.FL_MC_ENTRY, w), (Reg.FL_MC_ENTRY_N, ~~~w), (Reg.FL_MC_CMD, 2)]

/-- The snapshot of Table 19.4 in its order, the batching records last. A register whose change another's enable forbids comes before that enable. -/
def State.snapshot (s : State) : SetupRecord :=
  s.snap [Reg.MG_ALERT_EN, Reg.MG_SMBUS, Reg.MG_PMBUS, Reg.TB_CTRL, Reg.TB_TURN_US, Reg.TB_OFFSET, Reg.TB_OUT_CTRL] ++
  ((List.range 512).flatMap s.snapEntry) ++
  s.snap [Reg.PWR_CTRL, Reg.TH_WARN, Reg.FAN_CTRL, Reg.BW_SPLIT] ++
  ((List.range 512).flatMap fun k => s.snapIf [Reg.WIN_SIZE (k / 8) (k % 8), Reg.WIN_BASE (k / 8) (k % 8)]) ++
  (((List.range 4096).filter fun c => s.on (Reg.PC_CTRL_OWNED c)).map fun c => (Reg.PC_CTRL c, s.rg (Reg.PC_CTRL c) &&& 0x1FC00000)) ++
  s.snap [Reg.CE_GROUP, Reg.FL_SRC_ID] ++
  (((List.range 16).filter fun p => s.on (Reg.FL_CTRL_EN p)).map fun p => (Reg.FL_CTRL p, 0x80000000)) ++
  ((List.range 256).flatMap fun k => s.snapKey (Reg.FL_KEY (k / 16) (k % 16)) (Reg.FL_KEY_N (k / 16) (k % 16))) ++
  ((List.range 64).flatMap fun i => s.snapKey (Reg.FL_INST_KEY i) (Reg.FL_INST_KEY_N i)) ++
  s.snap [Reg.FL_REPORT_DST] ++
  (s.links.routes.flatMap fun e => snapRoute e.1 e.2) ++ (s.links.groups.flatMap fun e => snapGroup e.1 e.2) ++
  ((List.range 4).flatMap fun p => s.snap [Reg.ETH_CTRL p, Reg.ETH_PFC p, Reg.ETH_MAC_LO p, Reg.ETH_MAC_HI p] ++
    (List.range 8).flatMap fun k => s.snapIf (((List.range 4).map (Reg.ETH_ADDR_WORD p k)) ++ [Reg.ETH_ADDR p k])) ++
  s.snap [Reg.SES_CTRL] ++
  ((List.range 64).flatMap fun l => s.snapIf [Reg.LSN_PORT l, Reg.LSN_MODEL l, Reg.LSN_MAXREQ l, Reg.LSN_CTRL l]) ++
  ((List.range 256).flatMap fun g => ((List.range 64).flatMap fun d => s.snapIf ((List.range 8).map fun w => Reg.GRP_DST g d + 4 * w)) ++
    s.snapIf [Reg.GRP g]) ++
  (List.range 1024).flatMap fun k => s.snapIf [Reg.BAT_QUANTUM k, Reg.BAT_CTRL k]

/-- A register of a batching record. -/
def isBatch (off : Nat) : Bool := decide (Reg.BAT_CTRL 0 ≤ off) && decide (off < Reg.BAT_CTRL 1024)

/-- A write of GS_SETUP (R614): SAVE takes the snapshot; while SAVING is set it is refused with RESULT 2. -/
def State.setupWrite (s : State) (v : Word) : State :=
  if ! bit v 31 then s
  else if s.on Reg.GS_SETUP_SAVING then s.setF Reg.GS_SETUP_RESULT 2
  else (s.setMgmt { s.mgmt with saving := some s.snapshot }).setF Reg.GS_SETUP_SAVING 1

/-! ### The registers of each block -/

/-- A cluster's debug window (Tables 2.11 to 9.11); in Rest it ignores writes (R595). -/
def State.writeWindow (s : State) (off : Nat) (v : Word) : State :=
  let n := (off - 0x400000) / 0x4000
  if 3 ≤ s.fd Reg.PWR_STATUS_STATE then s
  else if off = Reg.SEQ_DEBUG n then s.seqDebugWrite n (bit v 0) (bit v 1)
  else if off = Reg.SP_DBG_DATA n then s.dbgWrite n v
  else s.plain off v

/-- Ports, routes, groups and keys of the Flarid links (chapter 13). -/
def State.writeFlarid (s : State) (off : Nat) (v : Word) : State :=
  let p := (off - 0x200000) / 0x1000
  match at? off (Reg.FL_INST_KEY 0) 8 64, at? off (Reg.FL_INST_KEY_N 0) 8 64 with
  | some _, _ => s.stageWrite off v
  | _, some i => s.keyWrite (Reg.FL_INST_KEY i) (Reg.FL_INST_KEY_N i) v
  | _, _ =>
    if off = Reg.FL_SRC_ID then s.srcIdWrite v
    else if off = Reg.FL_RT_CMD then (if bits v 1 0 = 1 then s.rtRead else if bits v 1 0 = 2 then s.rtWrite else s)
    else if off = Reg.FL_MC_CMD then (if bits v 1 0 = 1 then s.mcRead else if bits v 1 0 = 2 then s.mcWrite else s)
    else if 16 ≤ p then s.plain off v
    else match at? off (Reg.FL_KEY p 0) 8 16, at? off (Reg.FL_KEY_N p 0) 8 16 with
      | some _, _ => s.stageWrite off v
      | _, some k => s.keyWrite (Reg.FL_KEY p k) (Reg.FL_KEY_N p k) v
      | _, _ => if off = Reg.FL_CTRL p then s.flCtrlWrite p v else s.plain off v

/-- A register of a unit with a VALID bit may change only while VALID is clear (R425); `ctrl` holds VALID. A write that only clears VALID is taken. -/
def State.whileInvalid (s : State) (ctrl off : Nat) (v : Word) (f : State → State) : State :=
  let m := BitVec.ofNat 32 (regMasks off).1
  if bit (s.rg ctrl) 31 ∧ ¬ (off = ctrl ∧ setBits (v &&& m) 31 31 0 = setBits (s.rg ctrl &&& m) 31 31 0) then s else f s

/-- A batching record's control word (R425, R418): MAX_SEQ out of range keeps its value; VALID stays clear without a registered program, or with a
MAX_SEQ that breaks R418. -/
def State.batWrite (s : State) (k : Nat) (v : Word) : State :=
  let v := keep (s.rg (Reg.BAT_CTRL k)) v 29 21 (decide (1 ≤ bits v 29 21) && decide (bits v 29 21 ≤ 256))
  let fits := (s.slot k).phase == 2 && (bit v 30 || decide (bits v 29 21 ≤ (s.slot k).contexts))
  s.plain (Reg.BAT_CTRL k) (if fits then v else setBits v 31 31 0)

/-- A port's ETH_CTRL (R424): a change of MODE while a sub-port is enabled makes the write ignored; MODE 3 is reserved. A sub-port that is disabled
has no link. -/
def State.ethCtrlWrite (s : State) (p : Nat) (v : Word) : State :=
  let v := keep (s.rg (Reg.ETH_CTRL p)) v 31 30 (bits v 31 30 ≠ 3)
  if bits v 31 30 ≠ s.fd (Reg.ETH_CTRL_MODE p) ∧ s.fd (Reg.ETH_CTRL_SUB_EN p) ≠ 0 then s
  else
    let t := s.plain (Reg.ETH_CTRL p) v
    t.each ((List.range 4).filter fun b => ! bit v (26 + b) && (t.fd (Reg.ETH_STATUS_LINK_UP p)).testBit b) fun u b => u.ethDown p b false

/-- Ethernet ports, sessions, listeners, batching records and reply groups (chapter 12). -/
def State.writeEth (s : State) (off : Nat) (v : Word) : State :=
  if Reg.GRP_DST 0 0 ≤ off then s.whileInvalid (Reg.GRP ((off - Reg.GRP_DST 0 0) / 2048)) off v fun t => t.plain off v
  else match at? off (Reg.GRP 0) 4 256 with
    | some g => s.whileInvalid (Reg.GRP g) off v fun t => t.plain off (keep (t.rg off) v 6 0 (decide (bits v 6 0 ≤ 64)))
    | none =>
      if isBatch off then
        let k := (off - Reg.BAT_CTRL 0) / 16
        s.whileInvalid (Reg.BAT_CTRL k) off v fun t =>
          if off = Reg.BAT_CTRL k then t.batWrite k v
          else if off = Reg.BAT_QUANTUM k then t.plain off (keep (t.rg off) v 15 0 (bits v 15 0 ≠ 0))
          else t
      else if Reg.LSN_CTRL 0 ≤ off ∧ off < Reg.LSN_CTRL 64 then
        let l := (off - Reg.LSN_CTRL 0) / 16
        s.whileInvalid (Reg.LSN_CTRL l) off v fun t =>
          t.plain off (if off = Reg.LSN_MAXREQ l then keep (t.rg off) v 24 0 (decide (64 ≤ bits v 24 0) && decide (bits v 24 0 ≤ 2 ^ 24)) else v)
      else if off = Reg.SES_CTRL then s.plain off (keep (s.rg off) v 31 16 (decide (100 ≤ bits v 31 16)))
      else match at? off (Reg.ETH_CTRL 0) 0x200 4 with
        | some p => s.ethCtrlWrite p v
        | none => s.plain off v

/-- KEY_CTRL (R508): a commit, then a lock; REFUSED clears first, as set wins. -/
def State.keyCtrlWrite (s : State) (v : Word) : State :=
  let t := s.cond (bit v 28) fun u => u.setF Reg.KEY_CTRL_REFUSED 0
  (t.cond (bit v 29) State.keyCommit).cond (bit v 30) State.keyLock

/-- STW_CTRL: whether the signature and the digests check is a free value, as the command ENTRY_WRITE has it for an operand. -/
def State.stwRegWrite (s : State) (v : Word) : State :=
  let f := s.free
  f.2.stwWrite v (bit f.1 0) (bit f.1 1)

/-- DRAM and store (chapter 15). -/
def State.writeStore (s : State) (off : Nat) (v : Word) : State :=
  if off = Reg.BW_SPLIT then s.bwSplitWrite v
  else if off = Reg.STW_CTRL then s.stwRegWrite v
  else if off = Reg.LIB_DELETE then s.libDeleteWrite v
  else if off = Reg.KEY_CTRL then s.keyCtrlWrite v
  else match at? off (Reg.KEY_DATA 0) 4 24 with
    | some w => { s with store := { s.store with keyStage := tput s.store.keyStage w v } }
    | none => s.plain off v

/-- The configuration engine (chapter 16). -/
def State.writeCe (s : State) (off : Nat) (v : Word) : State :=
  if off = Reg.CE_STATUS then (s.plain off v).drivePins
  else if off = Reg.CE_MC_TX then s.txWrite v
  else if off = Reg.CE_MC_RX_CTRL then s.rxWrite v
  else if off = Reg.CE_AUTO_COMMIT then s.autoCommit v
  else s.plain off v

/-- Package counters (Table 9.9): an armed interrupt whose target is already passed fires (R660). -/
def State.writePc (s : State) (off : Nat) (v : Word) : State :=
  let i := (off - 0x90000) / 16
  if off = Reg.PC_CTRL i then s.pcCtrlWrite i v
  else if off = Reg.PC_IRQ_AT i then (s.plain off v).pcIrq i
  else s.plain off v

/-- A length in units of 64 bytes in range (Table 14.2). -/
def bcBytesOk (v : Word) : Bool := v ≠ 0 && bits v 5 0 == 0

/-- A dimension of the statistics array in range (Table 14.4). -/
def shapeOk (n : Nat) : Bool := decide (1 ≤ n) && decide (n ≤ 16384)

/-- Instance i's set-up (Tables 11.12, 12.10, 14.2, 14.4, 15.7). -/
def State.writeInstOf (s : State) (i off : Nat) (v : Word) : State :=
  match at? off (Reg.WIN_BASE i 0) 8 8, at? off (Reg.WIN_SIZE i 0) 8 8 with
  | some w, _ => s.windowWrite i w false v
  | _, some w => s.windowWrite i w true v
  | _, _ =>
    if off = Reg.INST_CTRL i then
      (s.plain off (keep (s.rg off) v 10 0 (vectorOk i (bits v 10 0)))).cond (bit v 31) fun t => t.instReset i
    else if off = Reg.ACC_CLEAR i then s.cond (bit v 0) fun t => t.accClear i
    else if off = Reg.XCH_GATE_CTRL i then s.gateWrite i v
    else if off = Reg.XCH_BC_CTRL i then s.castWrite i v
    else if off = Reg.XCH_BC_BYTES i then (if bcBytesOk v then s.plain off v else s)
    else if off = Reg.STAT_CTRL i then s.statWrite i v
    else if off = Reg.STAT_SHAPE i then
      s.plain off (keep (s.rg off) (keep (s.rg off) v 31 16 (shapeOk (bits v 31 16))) 15 0 (shapeOk (bits v 15 0)))
    else if off = Reg.STF_CTRL i then s.fetchArm i v
    else s.plain off v

/-- The instances' registers, of which instance i's begin at 0x80000 + 0x400·i. -/
def State.writeInst (s : State) (off : Nat) (v : Word) : State := s.writeInstOf ((off - 0x80000) / 0x400) off v

/-- Fault and health, setting by hand (R326, R570): the registers of a setting are ignored while BUSY; a cluster or counter that does not exist keeps
the old number. -/
def State.writeHealth (s : State) (off : Nat) (v : Word) : State :=
  if Reg.CNT_SET_TARGET ≤ off ∧ off ≤ Reg.CNT_SET_GO then
    if s.on Reg.CNT_SET_STATUS_BUSY then s
    else if off = Reg.CNT_SET_GO then s.cond (bit v 0) State.cntSet
    else if off = Reg.CNT_SET_TARGET then
      let old := s.rg off
      let v := keep old v 21 12 (bit v 31 || decide (bits v 21 12 < 576))
      s.plain off (keep old v 11 0 (bit v 31 || decide (bits v 11 0 < 64)))
    else s.plain off v
  else if off = Reg.IC_SEL then s.plain off (keep (s.rg off) v 10 5 (decide (bits v 10 5 ≤ 32)))
  else s.plain off v

/-- Power, clocks and heat (R574, R583, R596, R600, R601). -/
def State.writePower (s : State) (off : Nat) (v : Word) : State :=
  if off = Reg.PWR_CTRL then s.powerWrite v
  else if off = Reg.PWR_REST then s.restWrite v
  else if off = Reg.TH_WARN then
    if 960 ≤ bits v 15 0 ∧ bits v 15 0 ≤ 1600 then (s.plain off v).driveFan else s
  else if off = Reg.FAN_CTRL then
    if bits v 31 24 ≤ 100 ∧ bits v 23 16 < bits v 15 8 then (s.plain off v).driveFan else s
  else if off = Reg.CL_SEL then s.plain off (keep (s.rg off) v 9 0 (decide (bits v 9 0 < 576)))
  else s.plain off v

/-- Time base and angle events (R329, R339). -/
def State.writeTime (s : State) (off : Nat) (v : Word) : State :=
  match at? off (Reg.AE_WORD 0 0) 4 4096 with
  | some k => if k % 8 = 7 then s.aeCommit (k / 8) v else s.aeStage (k / 8) (k % 8) v
  | none =>
    let old := s.rg off
    if off = Reg.TB_CTRL then
      s.plain off (keep old (keep old v 31 29 (decide (bits v 31 29 ≤ 3))) 7 0 (decide (24 ≤ bits v 7 0) && decide (bits v 7 0 ≤ 43)))
    else if off = Reg.TB_TURN_US then
      s.plain off (keep old v 19 0 (decide (1000 ≤ bits v 19 0) && decide (bits v 19 0 ≤ 1000000)))
    else s.plain off v

/-- Identity, management, host link, interrupts and maintenance (R393, R394, R397, R629). A write of a defined maintenance command is that command of
the table; an undefined one is refused with RESULT 2. -/
def State.writeHub (s : State) (off : Nat) (v : Word) : State :=
  if off = Reg.MAINT_CMD then
    if 1 ≤ bits v 7 0 ∧ bits v 7 0 ≤ 6 then s else s.setF Reg.MAINT_STATUS_RESULT 2
  else if off = Reg.GS_RESET then s.gsReset v
  else if off = Reg.GS_SETUP then s.setupWrite v
  else if off = Reg.MG_ALERT ∨ off = Reg.MG_ALERT_EN then (s.plain off v).drivePins
  else if off = Reg.HL_CPL_TIMEOUT then s.plain off (keep (s.rg off) v 15 0 (decide (50 ≤ bits v 15 0) && decide (bits v 15 0 ≤ 64000)))
  else if off = Reg.HL_BAR4_BASE then s.plain off (keep (s.rg off) v 8 0 (decide (bits v 8 0 ≤ 320)))
  else s.plain off v

/-! ### A write (R654, R658) -/

/-- A write of a register that has passed checks 1 to 3: the register's own condition and effect (Table 21.12). -/
def State.regWrite (s : State) (off : Nat) (v : Word) (vfEnabled : Bool) : State :=
  if 0xD00000 ≤ off then s
  else if 0x400000 ≤ off then s.writeWindow off v
  else if 0x230000 ≤ off then s.plain off v
  else if 0x200000 ≤ off then s.writeFlarid off v
  else if 0x100000 ≤ off then s.writeEth off v
  else if 0xB0000 ≤ off then s.writeStore off v
  else if 0xA0000 ≤ off then s.writeCe off v
  else if 0x90000 ≤ off then s.writePc off v
  else if 0x80000 ≤ off then s.writeInst off v
  else if 0x40000 ≤ off then s.rcWrite ((off - 0x40000) / 64) (off % 64 / 4) v vfEnabled
  else if 0x30000 ≤ off then s.writeHealth off v
  else if 0x20000 ≤ off then s.writePower off v
  else if 0x10000 ≤ off then s.writeTime off v
  else s.writeHub off v

/-- Check 1 of Table 21.11: 4 bytes aligned to 4, or 8 bytes aligned to 8 (R654). -/
def sizeOk (off size : Nat) : Bool := (size == 4 && off % 4 == 0) || (size == 8 && off % 8 == 0)

/-- A BAR0 write (R654, R658): a write of 8 bytes acts on two registers, the lower first. SAVE before READY also shows RESULT 2 (R614). -/
def State.barWrite (s : State) (off size : Nat) (v : BitVec 64) (vfEnabled : Bool) : State :=
  if ! sizeOk off size then s.rejectWrite off
  else if ! s.writeAllowed off then
    let save := off = Reg.GS_SETUP ∧ bit v 31 ∧ ¬ s.on Reg.GS_STATUS_READY
    if save then (s.rejectWrite off).setF Reg.GS_SETUP_RESULT 2 else s.rejectWrite off
  else
    let t := s.regWrite off (v.extractLsb' 0 32) vfEnabled
    if size = 8 then t.regWrite (off + 4) (v.extractLsb' 32 32) vfEnabled else t

/-- REGISTER_WRITE (R652 to R659). -/
def execRegisterWrite (off : BitVec 24) (size : Nat) (v : BitVec 64) (vfEnabled : Bool) (s : State) : Out :=
  .next (s.barWrite off.toNat size v vfEnabled)

/-- Whether a write took, by what its register then holds: its writable bits, the committed word of an entry or key, or a window's RESULT. -/
def State.took (s : State) (off : Nat) (v : Word) : Bool :=
  let m := BitVec.ofNat 32 (regMasks off).1
  let staged := (at? off (Reg.FL_INST_KEY 0) 8 64).isSome ||
    ((List.range 16).any fun p => (at? off (Reg.FL_KEY p 0) 8 16).isSome) || (at? off (Reg.KEY_DATA 0) 4 24).isSome
  if off = Reg.FL_RT_CMD then s.fd Reg.FL_RT_STATUS_RESULT == 0
  else if off = Reg.FL_MC_CMD then s.fd Reg.FL_MC_STATUS_RESULT == 0
  else match at? off (Reg.AE_WORD 0 0) 4 4096 with
    | some k => k % 8 ≠ 7 || s.rg off == v
    | none => staged || (s.rg off &&& m) == (v &&& m)

end Sys2Proof.Machine
end

