-- ==== Sys2Proof/Machine/Management.lean ====
section
/-! DEFINITION. The set-up record (R614), the management bus (R617 to R619), and the shutdown (R625 to R628). -/

namespace Sys2Proof.Machine

/-! ### Saving and restoring the set-up record (R614) -/

/-- SETUP_SAVE: a write of GS_SETUP. -/
def execSetupSave (v : Word) (s : State) : Out := .next (s.barWrite Reg.GS_SETUP 4 (v.setWidth 64) false)

/-- SETUP_SAVE_DONE: the snapshot is stored as the next version, or its storing failed. -/
def execSetupSaveDone (ok : Bool) (s : State) : Out :=
  .next (match s.mgmt.saving with
    | none => s
    | some r =>
      let t := s.setF Reg.GS_SETUP_SAVING 0
      if ok then
        let n := (s.mgmt.setupVersion + 1) % 2 ^ 16
        let t := t.setMgmt { t.mgmt with saving := none, setup := some r, setupVersion := n }
        ((t.setF Reg.GS_SETUP_RESULT 1).setF Reg.GS_SETUP_VALID 1).setF Reg.GS_SETUP_VERSION n
      else (t.setMgmt { t.mgmt with saving := none }).setF Reg.GS_SETUP_RESULT 2)

/-- One restore: a set-up write, refused as one would be; a refused write advances REJECTED_WRITES. -/
def State.restoreOne (s : State) (e : Nat × Word) : State :=
  if ! s.writeAllowed e.1 then s.rejectWrite e.1
  else
    let t := s.regWrite e.1 e.2 false
    if t.took e.1 e.2 then t else t.inc Reg.REJECTED_WRITES

/-- The time-base fields take effect at once (R614); SOURCE 3 with a turn that R329 excludes leaves the time base without a reference. -/
def State.restoreTime (s : State) : State :=
  let t := s.applyStaged
  if t.badStaged then t.setTime { t.time with source := 0 } else t

/-- A load of an autostart record is under way. -/
def State.autoLoading (s : State) : Bool := s.images.slots.any fun (e : Nat × ProgSlot) => decide (2 ≤ e.2.origin) && ! e.2.told

/-- SETUP_RESTORE: after READY, all but the batching records, the time base, and SETUP_RESTORED; the batching records once the last autostart record
has been processed. -/
def execSetupRestore (s : State) : Out :=
  .next (if ! s.on Reg.GS_STATUS_READY || s.mgmt.controllerReset || s.inCold then s
    else if ! s.on Reg.GS_STATUS_SETUP_RESTORED then
      match s.mgmt.setup with
      | none => s.setF Reg.GS_STATUS_SETUP_RESTORED 1
      | some r =>
        let t := (s.each (r.filter fun e => ! isBatch e.1) State.restoreOne).restoreTime
        let t := t.setMgmt { t.mgmt with restore := some (r.filter fun e => isBatch e.1) }
        (t.setF Reg.GS_SETUP_VERSION t.mgmt.setupVersion).setF Reg.GS_STATUS_SETUP_RESTORED 1
    else match s.mgmt.restore with
      | none => s
      | some r =>
        if s.nextAuto.isSome || s.autoLoading then s
        else
          let t := s.each r State.restoreOne
          t.setMgmt { t.mgmt with restore := none })

/-! ### The management bus (R617, R618) -/

/-- The controller serves a transaction: it carries PEC, and neither the controller nor the module is in reset; boot has reached the firmware, or the
ROM is in recovery (R615, R617). -/
def State.mctpServes (s : State) (pecOk : Bool) : Bool :=
  pecOk && ! s.inCold && ! s.mgmt.controllerReset &&
    (decide (2 ≤ s.fd Reg.GS_STATUS_STAGE) || s.on Reg.GS_STATUS_RECOVERY)

/-- An answer to an MCTP control command, and to a vendor command of Table 19.5. -/
def State.controlReply (s : State) (cmd status : Nat) (data : List Byte) : State := s.emit (.mctp cmd status data)
def State.vendorReply (s : State) (cmd status : Nat) (data : List Byte) : State := s.emit (.mctp (0x7F00 + cmd) status data)

/-- The answer to a command that is not served in this state: a status other than OK, which is a free value of 1 to 3. -/
def State.vendorUnserved (s : State) (cmd : Nat) : State :=
  let f := s.free
  f.2.vendorReply cmd (f.1.toNat % 3 + 1) []

/-- A vendor command that recovery does not serve. -/
def State.vendorRun (s : State) (pecOk : Bool) (cmd : Nat) (f : State → State) : State :=
  if ! s.mctpServes pecOk then s
  else if s.on Reg.GS_STATUS_RECOVERY then s.vendorUnserved cmd
  else f s

/-- SET_ENDPOINT_ID: the null and the broadcast identifier are no endpoint's (log entry 100). -/
def execSetEndpointId (pecOk : Bool) (eid : BitVec 8) (s : State) : Out :=
  .next (if ! s.mctpServes pecOk then s
    else if eid = 0#8 ∨ eid = 0xFF#8 then s.controlReply 1 2 []
    else (s.setF Reg.MG_SMBUS_EID eid.toNat).controlReply 1 0 [eid])

/-- GET_ENDPOINT_ID. -/
def execGetEndpointId (pecOk : Bool) (s : State) : Out :=
  .next (if s.mctpServes pecOk then s.controlReply 2 0 [BitVec.ofNat 8 (s.fd Reg.MG_SMBUS_EID)] else s)

/-- GET_MCTP_VERSION_SUPPORT: which versions the manual does not say; they are free values. -/
def execGetMctpVersionSupport (pecOk : Bool) (typ : BitVec 8) (s : State) : Out :=
  .next (if ! s.mctpServes pecOk then s
    else if typ ≠ 0#8 ∧ typ ≠ 0x7F#8 ∧ typ ≠ 0xFF#8 then s.controlReply 4 0x80 []
    else
      let f := s.free
      f.2.controlReply 4 0 (leBytes 4 f.1.toNat))

/-- GET_MESSAGE_TYPE_SUPPORT: MCTP control and the vendor's messages by enterprise number, and no other type. -/
def execGetMessageTypeSupport (pecOk : Bool) (s : State) : Out :=
  .next (if s.mctpServes pecOk then s.controlReply 5 0 [0x00, 0x7F] else s)

/-- GET_VENDOR_DEFINED_MESSAGE_SUPPORT: one set, that of the enterprise number in MG_IANA. -/
def execGetVendorDefinedMessageSupport (pecOk : Bool) (sel : BitVec 8) (s : State) : Out :=
  .next (if ! s.mctpServes pecOk then s
    else if sel = 0#8 then s.controlReply 6 0 (leBytes 4 (s.rg Reg.MG_IANA).toNat)
    else s.controlReply 6 2 [])

/-- READ_REG: recovery serves the identity block only. An offset that is no register of BAR0 is INVALID. -/
def execReadReg (pecOk : Bool) (off : Word) (s : State) : Out :=
  let a := off.toNat
  .next (if ! s.mctpServes pecOk then s
    else if ! s.readServed a then s.vendorUnserved 1
    else if 2 ^ 24 ≤ a ∨ a % 4 ≠ 0 then s.vendorReply 1 2 []
    else
      let v := s.read4 true a
      v.2.vendorReply 1 0 (leBytes 4 v.1.toNat))

/-- WRITE_REG: under every rule of BAR0 writes; a refusal answers NOT_READY before READY, and REFUSED else. -/
def execWriteReg (pecOk : Bool) (off v : Word) (vfEnabled : Bool) (s : State) : Out :=
  let a := off.toNat
  .next (s.vendorRun pecOk 2 fun s =>
    let t := s.barWrite a 4 (v.setWidth 64) vfEnabled
    let status := if 2 ^ 24 ≤ a ∨ a % 4 ≠ 0 then 2
      else if ! s.on Reg.GS_STATUS_READY then 3
      else if ! s.writeAllowed a then 1
      else b2n (! t.took a v)
    t.vendorReply 2 status [])

/-- READ_PAGE: 256 bytes of a snapshot page (R569). -/
def execReadPage (pecOk : Bool) (k part : BitVec 8) (s : State) : Out :=
  .next (s.vendorRun pecOk 3 fun s =>
    if 16 ≤ k.toNat ∨ 4 ≤ part.toNat then s.vendorReply 3 2 []
    else s.vendorReply 3 0 (wordBytes ((List.range 64).map fun w => s.rg (samplePage k.toNat + 256 * part.toNat + 4 * w))))

/-- READ_EVENT: the 32-byte record of event n (R571), or INVALID when it is overwritten or not yet posted. -/
def execReadEvent (pecOk : Bool) (n : Word) (s : State) : Out :=
  let e := n.toNat % 256
  .next (s.vendorRun pecOk 4 fun s =>
    let d := (s.rg Reg.FH_EVT_HEAD - n).toNat
    if 1 ≤ d ∧ d ≤ 256 ∧ s.rg (Reg.EVT_SEQ e) = n then
      s.vendorReply 4 0 (wordBytes ((List.range 8).map fun w => s.rg (Reg.EVT_CAUSE e + 4 * w)))
    else s.vendorReply 4 2 [])

/-- RESET: the status is sent before the reset; recovery serves the cold code only. A code whose complement does not hold, or an undefined one, is
INVALID; the former is counted, as one of GS_RESET is (R629). -/
def execMctpReset (pecOk : Bool) (code codeN : BitVec 16) (s : State) : Out :=
  .next (if ! s.mctpServes pecOk then s
    else if s.on Reg.GS_STATUS_RECOVERY && code ≠ 0x0C01#16 then s.vendorUnserved 5
    else if codeN ≠ ~~~code then (s.vendorReply 5 2 []).hostMismatch 0
    else if code = 0x0C01#16 ∨ code = 0x0C02#16 then (s.vendorReply 5 0 []).resetCode code.toNat
    else s.vendorReply 5 2 [])

/-- RECOVERY_WRITE: only in recovery; up to 224 bytes, within the 16 MiB of an image. -/
def execRecoveryWrite (pecOk : Bool) (off : Word) (data : List Byte) (s : State) : Out :=
  .next (if ! s.mctpServes pecOk then s
    else if ! s.on Reg.GS_STATUS_RECOVERY then s.vendorUnserved 6
    else if 224 < data.length ∨ 2 ^ 24 < off.toNat + data.length then s.vendorReply 6 2 []
    else
      let b := (data.mapIdx fun k v => (off.toNat + k, v)).foldl (fun t (e : Nat × Byte) => tput t e.1 e.2) s.mgmt.recovery
      (s.setMgmt { s.mgmt with recovery := b }).vendorReply 6 0 [])

/-- RECOVERY_COMMIT: the image is checked under R609 (`sigOk`, `svn` and `build` are those of the bytes written) and written over both copies; on OK a
cold reset follows. A failed check gives REFUSED. -/
def execRecoveryCommit (pecOk : Bool) (len : Word) (sigOk : Bool) (svn build : BitVec 16) (s : State) : Out :=
  .next (if ! s.mctpServes pecOk then s
    else if ! s.on Reg.GS_STATUS_RECOVERY then s.vendorUnserved 7
    else if ! sigOk || decide (svn.toNat < s.mgmt.minSvn) || decide (2 ^ 24 < len.toNat) then s.vendorReply 7 1 []
    else
      let f : Firmware := ⟨true, svn.toNat, build.toNat⟩
      let t := s.setMgmt { s.mgmt with copyA := f, copyB := f }
      (t.vendorReply 7 0 []).coldCause 3)

/-! ### PMBus (R619) -/

/-- PMBUS_POLL: the input monitor, or the core regulator of a die; a fault bit or a transaction that fails is counted. During a controller reset the
bus is idle (Table 19.6). The reading itself is that of the power command that uses it (R575). -/
def execPmbusPoll (die : Option (Fin 4)) (ok fault : Bool) (s : State) : Out :=
  .next (if s.mgmt.controllerReset || s.inCold then s
    else
      let a := match die with
        | none => s.fd Reg.MG_PMBUS_IN_ADDR
        | some d => s.fd Reg.MG_PMBUS_VR_BASE + d
      let t := s.emit (.pmbus a)
      if ! ok || (die.isSome && fault) then (t.inc Reg.MG_PMBUS_ERR).alert 4 else t)

/-! ### Shutdown (R625 to R628) -/

/-- The step in progress stops as in steps 1 to 3 of R349, with no commit and no completion. -/
def State.stopRuns (s : State) : State :=
  match s.net.step with
  | none => s
  | some x =>
    let t := (s.stopClusters).endEpisodes
    (t.cond (! x.committed) State.rollback).setStep none

/-- SHUTDOWN (R625): PWR_WARN_N has been asserted for 2 µs. One that is under way goes on; an assertion during the restart's count restarts that. -/
def execShutdown (s : State) : Out :=
  let t := s.setMgmt { s.mgmt with warn := true, restartCount := false }
  .next (if s.inCold || s.on Reg.GS_STATUS_SHUTTING_DOWN then t
    else ((t.setF Reg.GS_STATUS_SHUTTING_DOWN 1).alert 2).stopRuns.regrant)

/-- SHUTDOWN_DONE (R625, Table 19.7): the store is idle, an entry write ends ABORTED and a firmware update INCOMPLETE, and outputs are disabled. A cold
reset that has waited follows (Table 19.9); else the 20 ms of R627 count once PWR_WARN_N is deasserted. -/
def execShutdownDone (s : State) : Out :=
  .next (if ! s.inShutdown then s
    else
      let t := s.cond s.store.writing.isSome fun u => u.stwEnd 5
      let t := t.cond (t.on Reg.MAINT_STATUS_BUSY && t.fd Reg.MAINT_STATUS_CMD == 5) fun u =>
        (u.setMgmt { u.mgmt with updating := none }).maintEnd 3
      let t := t.setF Reg.GS_STATUS_SHUTDOWN_DONE 1
      match t.mgmt.coldDue with
      | some k => t.coldReset (some k)
      | none => t.setMgmt { t.mgmt with restartCount := ! t.mgmt.warn })

/-- PWR_WARN_DEASSERT (R627): after SHUTDOWN_DONE the 20 ms count from here. -/
def execPwrWarnDeassert (s : State) : Out :=
  .next (s.setMgmt { s.mgmt with warn := false, restartCount := s.on Reg.GS_STATUS_SHUTDOWN_DONE })

/-- SHUTDOWN_RESTART (R627): 20 ms have been counted. -/
def execShutdownRestart (s : State) : Out := .next (if s.mgmt.restartCount then s.coldReset (some 2) else s)

/-! ### Time between commands -/

/-- What passes while no command waits: 1 au, but in a cold reset, which holds the time base. -/
def State.idle (s : State) : State := if s.inCold then s else s.tick

end Sys2Proof.Machine
end

