-- ==== Sys2Proof/Machine/Pins.lean ====
section
/-! DEFINITION. The test access port (R646, R647). -/

namespace Sys2Proof.Machine

/-- IDCODE (R646). -/
def idcodeWord : Word := 0x10024BA7

/-- Loads an instruction that takes the pins only while COLD_RESET_N is asserted (R647). -/
def State.tapLoad (s : State) (opcode : Nat) (takes : Bool) : State :=
  { s with pins := { s.pins with tapInstr := opcode, tapTakes := takes && s.mgmt.inColdReset } }

/-- The boundary register is shifted: its captured contents leave at TDO, and what was shifted in stands in it. -/
def State.tapShift (s : State) (captured shifted : Word) : State :=
  { s with pins := { s.pins with boundary := shifted.toNat } }.emit (.tdo captured)

/-- An instruction on the boundary register that takes the pins, or acts as BYPASS, which passes TDI to TDO and leaves the register. -/
def State.tapTest (s : State) (opcode : Nat) (captured shifted : Word) : State :=
  let t := s.tapLoad opcode true
  if t.pins.tapTakes then t.tapShift captured shifted else t

/-- TAP_RESET (R647): IDCODE is selected, and the pins are the device's. -/
def execTapReset (s : State) : Out := .next (s.tapLoad 2 false)

/-- EXTEST, EXTEST_PULSE, EXTEST_TRAIN (R647). -/
def execExtest (captured shifted : Word) (s : State) : Out := .next (s.tapTest 0 captured shifted)
def execExtestPulse (captured shifted : Word) (s : State) : Out := .next (s.tapTest 5 captured shifted)
def execExtestTrain (captured shifted : Word) (s : State) : Out := .next (s.tapTest 6 captured shifted)

/-- SAMPLE_PRELOAD (R647): at all times, without disturbing the pins. -/
def execSamplePreload (captured shifted : Word) (s : State) : Out := .next ((s.tapLoad 1 false).tapShift captured shifted)

/-- IDCODE (R646): the identification register leaves at TDO. -/
def execIdcode (s : State) : Out := .next ((s.tapLoad 2 false).emit (.tdo idcodeWord))

/-- CLAMP and HIGHZ (R647). -/
def execClamp (s : State) : Out := .next (s.tapLoad 3 true)
def execHighz (s : State) : Out := .next (s.tapLoad 4 true)

/-- BYPASS (R646): 0xFF, or an opcode that Table 20.8 does not list. -/
def execBypass (opcode : BitVec 8) (s : State) : Out := .next (if opcode.toNat ≤ 6 then s else s.tapLoad opcode.toNat false)

end Sys2Proof.Machine
end

