-- ==== Sys2Proof/Machine/Dispatch.lean ====
section
/-! DEFINITION. One arm per command of the opcode table, each one call of the command's meaning. -/

namespace Sys2Proof.Machine

def exec (i : Instr) (s : State) : Host.Outcome State Fault Refusal :=
  match i with
  | .registerWrite off size v vfEnabled => Sys2Proof.Machine.execRegisterWrite off size v vfEnabled s
  | .latchedRead mc off size => Sys2Proof.Machine.execLatchedRead mc off size s
  | .ageIncrement k => Sys2Proof.Machine.execAgeIncrement k s
  | .meshPacketArrive p => Sys2Proof.Machine.execMeshPacketArrive p s
  | .dramReadArrive st req inst gen addr => Sys2Proof.Machine.execDramReadArrive st req inst gen addr s
  | .dramWriteArrive st src inst gen attempt addr data => Sys2Proof.Machine.execDramWriteArrive st src inst gen attempt addr data s
  | .mergeWindowExpire st line => Sys2Proof.Machine.execMergeWindowExpire st line s
  | .dramReadComplete st k ecc row pc retries use again => Sys2Proof.Machine.execDramReadComplete st k ecc row pc retries use again s
  | .pseudoChannelMigrateDone st => Sys2Proof.Machine.execPseudoChannelMigrateDone st s
  | .bridgeGroupFail bridge link group => Sys2Proof.Machine.execBridgeGroupFail bridge link group s
  | .nop n x => Sys2Proof.Machine.execNop n x s
  | .loadw n x lt fmtW swap => Sys2Proof.Machine.execLoadw n x lt fmtW swap s
  | .mma n x a => Sys2Proof.Machine.execMma n x a s
  | .max n x a => Sys2Proof.Machine.execMax n x a s
  | .min n x a => Sys2Proof.Machine.execMin n x a s
  | .matrixOpStart n loader fault ecc conf => Sys2Proof.Machine.execMatrixOpStart n loader fault ecc conf s
  | .tileComplete n => Sys2Proof.Machine.execTileComplete n s
  | .arrayBankRelease n => Sys2Proof.Machine.execArrayBankRelease n s
  | .epilogueStart n ecc conf acc => Sys2Proof.Machine.execEpilogueStart n ecc conf acc s
  | .epilogueDone n => Sys2Proof.Machine.execEpilogueDone n s
  | .mxuInject n v => Sys2Proof.Machine.execMxuInject n v s
  | .vecCopy n x v => Sys2Proof.Machine.execVecCopy n x v s
  | .vecIadd n x v => Sys2Proof.Machine.execVecIadd n x v s
  | .vecIsub n x v => Sys2Proof.Machine.execVecIsub n x v s
  | .vecImul n x v => Sys2Proof.Machine.execVecImul n x v s
  | .vecShl n x v => Sys2Proof.Machine.execVecShl n x v s
  | .vecShrl n x v => Sys2Proof.Machine.execVecShrl n x v s
  | .vecShra n x v => Sys2Proof.Machine.execVecShra n x v s
  | .vecAnd n x v => Sys2Proof.Machine.execVecAnd n x v s
  | .vecOr n x v => Sys2Proof.Machine.execVecOr n x v s
  | .vecXor n x v => Sys2Proof.Machine.execVecXor n x v s
  | .vecAndn n x v => Sys2Proof.Machine.execVecAndn n x v s
  | .vecIcmp n x v => Sys2Proof.Machine.execVecIcmp n x v s
  | .vecImax n x v => Sys2Proof.Machine.execVecImax n x v s
  | .vecImin n x v => Sys2Proof.Machine.execVecImin n x v s
  | .vecSel n x v => Sys2Proof.Machine.execVecSel n x v s
  | .vecFadd n x v => Sys2Proof.Machine.execVecFadd n x v s
  | .vecFsub n x v => Sys2Proof.Machine.execVecFsub n x v s
  | .vecFcmp n x v => Sys2Proof.Machine.execVecFcmp n x v s
  | .vecFmax n x v => Sys2Proof.Machine.execVecFmax n x v s
  | .vecFmin n x v => Sys2Proof.Machine.execVecFmin n x v s
  | .vecFmul n x v => Sys2Proof.Machine.execVecFmul n x v s
  | .vecFdiv n x v => Sys2Proof.Machine.execVecFdiv n x v s
  | .vecLut n x v => Sys2Proof.Machine.execVecLut n x v s
  | .vecGather n x v => Sys2Proof.Machine.execVecGather n x v s
  | .vecPmax n x v => Sys2Proof.Machine.execVecPmax n x v s
  | .vecPmin n x v => Sys2Proof.Machine.execVecPmin n x v s
  | .vectorOpStart n ecc conf => Sys2Proof.Machine.execVectorOpStart n ecc conf s
  | .sumsqRecordWrite n => Sys2Proof.Machine.execSumsqRecordWrite n s
  | .elasticAccess n addr data => Sys2Proof.Machine.execElasticAccess n addr data s
  | .patrolScrub n ecc => Sys2Proof.Machine.execPatrolScrub n ecc s
  | .spareBankCopyDone n => Sys2Proof.Machine.execSpareBankCopyDone n s
  | .zeroingRequest n => Sys2Proof.Machine.execZeroingRequest n s
  | .zeroingDone n => Sys2Proof.Machine.execZeroingDone n s
  | .spDbgRead mc n ecc => Sys2Proof.Machine.execSpDbgRead mc n ecc s
  | .spDbgReadTimeout mc n => Sys2Proof.Machine.execSpDbgReadTimeout mc n s
  | .spDbgWrite n v => Sys2Proof.Machine.execSpDbgWrite n v s
  | .loop n x l target => Sys2Proof.Machine.execLoop n x l target s
  | .pred n x pbit src ecc => Sys2Proof.Machine.execPred n x pbit src ecc s
  | .streamStart n x engine desc => Sys2Proof.Machine.execStreamStart n x engine desc s
  | .streamWait n x desc => Sys2Proof.Machine.execStreamWait n x desc s
  | .streamWaitAll n x desc => Sys2Proof.Machine.execStreamWaitAll n x desc s
  | .streamAdvance n x desc => Sys2Proof.Machine.execStreamAdvance n x desc s
  | .streamBlockStart n p c desc => Sys2Proof.Machine.execStreamBlockStart n p c desc s
  | .streamBlockComplete n p c desc block => Sys2Proof.Machine.execStreamBlockComplete n p c desc block s
  | .bwSplitWrite v => Sys2Proof.Machine.execBwSplitWrite v s
  | .bwPresetAdopt st => Sys2Proof.Machine.execBwPresetAdopt st s
  | .send n x ep addr linesM1 => Sys2Proof.Machine.execSend n x ep addr linesM1 s
  | .sendHalo n x ep lt bindB upper => Sys2Proof.Machine.execSendHalo n x ep lt bindB upper s
  | .recv n x ep pbit => Sys2Proof.Machine.execRecv n x ep pbit s
  | .release n x ep => Sys2Proof.Machine.execRelease n x ep s
  | .tilePacketArrive n k => Sys2Proof.Machine.execTilePacketArrive n k s
  | .creditArrive n p ep c feed bad src srcEp => Sys2Proof.Machine.execCreditArrive n p ep c feed bad src srcEp s
  | .takeNotice n p ep c bad src srcEp => Sys2Proof.Machine.execTakeNotice n p ep c bad src srcEp s
  | .contextSwitch n => Sys2Proof.Machine.execContextSwitch n s
  | .planeSwitch n => Sys2Proof.Machine.execPlaneSwitch n s
  | .yield n x => Sys2Proof.Machine.execYield n x s
  | .endSlot n x => Sys2Proof.Machine.execEndSlot n x s
  | .deadlockWindowExpire g => Sys2Proof.Machine.execDeadlockWindowExpire g s
  | .seqHalt n halt => Sys2Proof.Machine.execSeqHalt n halt s
  | .seqStep n => Sys2Proof.Machine.execSeqStep n s
  | .csig n x b inc => Sys2Proof.Machine.execCsig n x b inc s
  | .cwait n x b ref rel offset => Sys2Proof.Machine.execCwait n x b ref rel offset s
  | .mirrorUpdate n k v bad step attempt inst gen src => Sys2Proof.Machine.execMirrorUpdate n k v bad step attempt inst gen src s
  | .pkgMirrorUpdate n k v bad inst gen => Sys2Proof.Machine.execPkgMirrorUpdate n k v bad inst gen s
  | .counterSignal inst c bytes v => Sys2Proof.Machine.execCounterSignal inst c bytes v s
  | .pcCtrlWrite c v => Sys2Proof.Machine.execPcCtrlWrite c v s
  | .cntSetGo => Sys2Proof.Machine.execCntSetGo s
  | .barrier n x bid => Sys2Proof.Machine.execBarrier n x bid s
  | .barrierRelease sect bid => Sys2Proof.Machine.execBarrierRelease sect bid s
  | .barrierReleaseArrive n bid attempt inst gen => Sys2Proof.Machine.execBarrierReleaseArrive n bid attempt inst gen s
  | .stepBarrierRelease => Sys2Proof.Machine.execStepBarrierRelease s
  | .stepReleaseArrive n => Sys2Proof.Machine.execStepReleaseArrive n s
  | .lendStart n => Sys2Proof.Machine.execLendStart n s
  | .traceNotice n p c k starts => Sys2Proof.Machine.execTraceNotice n p c k starts s
  | .framePulse err spacing refIn => Sys2Proof.Machine.execFramePulse err spacing refIn s
  | .ppsPulse err spacing => Sys2Proof.Machine.execPpsPulse err spacing s
  | .ptpSync msg err turns angle => Sys2Proof.Machine.execPtpSync msg err turns angle s
  | .referenceLoss why => Sys2Proof.Machine.execReferenceLoss why s
  | .delayReqSend => Sys2Proof.Machine.execDelayReqSend s
  | .timeRelock turns angle valid => Sys2Proof.Machine.execTimeRelock turns angle valid s
  | .aeCommit e w7 => Sys2Proof.Machine.execAeCommit e w7 s
  | .startRun e bad late => Sys2Proof.Machine.execStartRun e bad late s
  | .ringFire e bad late => Sys2Proof.Machine.execRingFire e bad late s
  | .startStep e bad late => Sys2Proof.Machine.execStartStep e bad late s
  | .aeBarrier e bad late => Sys2Proof.Machine.execAeBarrier e bad late s
  | .deadline e bad late => Sys2Proof.Machine.execDeadline e bad late s
  | .powerWake e bad late => Sys2Proof.Machine.execPowerWake e bad late s
  | .powerEnterRest e bad late => Sys2Proof.Machine.execPowerEnterRest e bad late s
  | .powerSetCap e bad late => Sys2Proof.Machine.execPowerSetCap e bad late s
  | .telemetry e bad late => Sys2Proof.Machine.execTelemetry e bad late s
  | .runDeadline src => Sys2Proof.Machine.execRunDeadline src s
  | .tbOutputPulse pps => Sys2Proof.Machine.execTbOutputPulse pps s
  | .sqDoorbell inst loc bytes v => Sys2Proof.Machine.execSqDoorbell inst loc bytes v s
  | .cqDoorbell inst loc bytes v => Sys2Proof.Machine.execCqDoorbell inst loc bytes v s
  | .stagedTailWrite inst loc bytes v => Sys2Proof.Machine.execStagedTailWrite inst loc bytes v s
  | .descriptorFetch ring words => Sys2Proof.Machine.execDescriptorFetch ring words s
  | .descriptorAdmit ring => Sys2Proof.Machine.execDescriptorAdmit ring s
  | .run ring pos => Sys2Proof.Machine.execRun ring pos s
  | .copyIn ring pos data => Sys2Proof.Machine.execCopyIn ring pos data s
  | .copyOut ring pos => Sys2Proof.Machine.execCopyOut ring pos s
  | .signal ring pos => Sys2Proof.Machine.execSignal ring pos s
  | .wait ring pos => Sys2Proof.Machine.execWait ring pos s
  | .waitTimeout ring pos => Sys2Proof.Machine.execWaitTimeout ring pos s
  | .loadProgram ring pos head => Sys2Proof.Machine.execLoadProgram ring pos head s
  | .evict ring pos => Sys2Proof.Machine.execEvict ring pos s
  | .fence ring pos => Sys2Proof.Machine.execFence ring pos s
  | .descriptorComplete ring pos => Sys2Proof.Machine.execDescriptorComplete ring pos s
  | .coalTimer ring => Sys2Proof.Machine.execCoalTimer ring s
  | .hostReadTimeout tag newTag => Sys2Proof.Machine.execHostReadTimeout tag newTag s
  | .lateCompletion tag => Sys2Proof.Machine.execLateCompletion tag s
  | .tagQuarantineExpire tag => Sys2Proof.Machine.execTagQuarantineExpire tag s
  | .bar4Access write off len data uncorrectable => Sys2Proof.Machine.execBar4Access write off len data uncorrectable s
  | .ringContextWrite ring word v vfEnabled => Sys2Proof.Machine.execRingContextWrite ring word v vfEnabled s
  | .windowWrite inst w size v => Sys2Proof.Machine.execWindowWrite inst w size v s
  | .instReset why => Sys2Proof.Machine.execInstReset why s
  | .resetDone inst => Sys2Proof.Machine.execResetDone inst s
  | .dramPageZeroed => Sys2Proof.Machine.execDramPageZeroed s
  | .storeErase failing => Sys2Proof.Machine.execStoreErase failing s
  | .storeFormat failing => Sys2Proof.Machine.execStoreFormat failing s
  | .repairScan badClusters badBanks => Sys2Proof.Machine.execRepairScan badClusters badBanks s
  | .imageVerify sigOk badChunks pages => Sys2Proof.Machine.execImageVerify sigOk badChunks pages s
  | .firmwareUpdate sigOk svn build => Sys2Proof.Machine.execFirmwareUpdate sigOk svn build s
  | .maintDone => Sys2Proof.Machine.execMaintDone s
  | .ethFrameReceive p sub f fill => Sys2Proof.Machine.execEthFrameReceive p sub f fill s
  | .pfcReceive p sub en quanta => Sys2Proof.Machine.execPfcReceive p sub en quanta s
  | .pauseExpire p sub q => Sys2Proof.Machine.execPauseExpire p sub q s
  | .pfcRepeat p sub q fill => Sys2Proof.Machine.execPfcRepeat p sub q fill s
  | .arpRequest p sub v6 ip vlan => Sys2Proof.Machine.execArpRequest p sub v6 ip vlan s
  | .sesOpen f d => Sys2Proof.Machine.execSesOpen f d s
  | .req f d => Sys2Proof.Machine.execReq f d s
  | .ack f d => Sys2Proof.Machine.execAck f d s
  | .poll f d => Sys2Proof.Machine.execPoll f d s
  | .close f d => Sys2Proof.Machine.execClose f d s
  | .keepalive f d => Sys2Proof.Machine.execKeepalive f d s
  | .sessionAckTimer n => Sys2Proof.Machine.execSessionAckTimer n s
  | .sessionAgeOut n => Sys2Proof.Machine.execSessionAgeOut n s
  | .groupHoldExpire n reqId dest => Sys2Proof.Machine.execGroupHoldExpire n reqId dest s
  | .accClear inst v => Sys2Proof.Machine.execAccClear inst v s
  | .flPortEnable p v => Sys2Proof.Machine.execFlPortEnable p v s
  | .linkTrained p peerPort peerPkg => Sys2Proof.Machine.execLinkTrained p peerPort peerPkg s
  | .trainingRetry p => Sys2Proof.Machine.execTrainingRetry p s
  | .linkBlockReceive p seq ack credits crcOk => Sys2Proof.Machine.execLinkBlockReceive p seq ack credits crcOk s
  | .replayRequest p block => Sys2Proof.Machine.execReplayRequest p block s
  | .blockLockLoss p => Sys2Proof.Machine.execBlockLockLoss p s
  | .retrain p v => Sys2Proof.Machine.execRetrain p v s
  | .retrainTimeout p => Sys2Proof.Machine.execRetrainTimeout p s
  | .laneRetire p lane => Sys2Proof.Machine.execLaneRetire p lane s
  | .flaridHeadArrive q p => Sys2Proof.Machine.execFlaridHeadArrive q p s
  | .read q p => Sys2Proof.Machine.execRead q p s
  | .write q p => Sys2Proof.Machine.execWrite q p s
  | .atomicAdd q p => Sys2Proof.Machine.execAtomicAdd q p s
  | .counterAdd q p => Sys2Proof.Machine.execCounterAdd q p s
  | .readData p => Sys2Proof.Machine.execReadData p s
  | .flAck p => Sys2Proof.Machine.execFlAck p s
  | .nack p => Sys2Proof.Machine.execNack p s
  | .nackResend id => Sys2Proof.Machine.execNackResend id s
  | .mcastWrite q p => Sys2Proof.Machine.execMcastWrite q p s
  | .mcastFrame q p => Sys2Proof.Machine.execMcastFrame q p s
  | .notice p => Sys2Proof.Machine.execNotice p s
  | .flReturn p => Sys2Proof.Machine.execFlReturn p s
  | .flWaitTimeout p k => Sys2Proof.Machine.execFlWaitTimeout p k s
  | .requestTimeout id => Sys2Proof.Machine.execRequestTimeout id s
  | .routeMarkExpire dest r => Sys2Proof.Machine.execRouteMarkExpire dest r s
  | .epochExpire src => Sys2Proof.Machine.execEpochExpire src s
  | .dupEntryExpire src id => Sys2Proof.Machine.execDupEntryExpire src id s
  | .routeCacheExpire p dest => Sys2Proof.Machine.execRouteCacheExpire p dest s
  | .fencedInject id => Sys2Proof.Machine.execFencedInject id s
  | .limiterWindow p v => Sys2Proof.Machine.execLimiterWindow p v s
  | .limiterRamp p v => Sys2Proof.Machine.execLimiterRamp p v s
  | .rtRead => Sys2Proof.Machine.execRtRead s
  | .rtWrite => Sys2Proof.Machine.execRtWrite s
  | .mcRead => Sys2Proof.Machine.execMcRead s
  | .mcWrite => Sys2Proof.Machine.execMcWrite s
  | .flKeyCommit p k v => Sys2Proof.Machine.execFlKeyCommit p k v s
  | .instKeyCommit inst v => Sys2Proof.Machine.execInstKeyCommit inst v s
  | .flSrcIdWrite v => Sys2Proof.Machine.execFlSrcIdWrite v s
  | .gateArm inst v => Sys2Proof.Machine.execGateArm inst v s
  | .broadcastGo inst v => Sys2Proof.Machine.execBroadcastGo inst v s
  | .broadcastDone inst => Sys2Proof.Machine.execBroadcastDone inst s
  | .statArm inst v => Sys2Proof.Machine.execStatArm inst v s
  | .statClear inst v => Sys2Proof.Machine.execStatClear inst v s
  | .blockEraseDone block intentOk blankFails erasedOk => Sys2Proof.Machine.execBlockEraseDone block intentOk blankFails erasedOk s
  | .refreshDue block retire pages => Sys2Proof.Machine.execRefreshDue block retire pages s
  | .entryWrite v sigOk digestsOk => Sys2Proof.Machine.execEntryWrite v sigOk digestsOk s
  | .entryWriteDone aborted => Sys2Proof.Machine.execEntryWriteDone aborted s
  | .libDelete v => Sys2Proof.Machine.execLibDelete v s
  | .keyCommit => Sys2Proof.Machine.execKeyCommit s
  | .keyLock => Sys2Proof.Machine.execKeyLock s
  | .fetchArm inst v => Sys2Proof.Machine.execFetchArm inst v s
  | .fetchComplete inst sigOk badChunk pages => Sys2Proof.Machine.execFetchComplete inst sigOk badChunk pages s
  | .signatureCheckDone ok => Sys2Proof.Machine.execSignatureCheckDone ok s
  | .activationStageRelease slot => Sys2Proof.Machine.execActivationStageRelease slot s
  | .planeLoadDone n slot sect => Sys2Proof.Machine.execPlaneLoadDone n slot sect s
  | .mcRxArm v => Sys2Proof.Machine.execMcRxArm v s
  | .mcTxArm v => Sys2Proof.Machine.execMcTxArm v s
  | .mcRxTimeout => Sys2Proof.Machine.execMcRxTimeout s
  | .planeScrub n p word ecc => Sys2Proof.Machine.execPlaneScrub n p word ecc s
  | .autostart => Sys2Proof.Machine.execAutostart s
  | .ceAutoCommit v => Sys2Proof.Machine.execCeAutoCommit v s
  | .faultReport stop unit detail byCount beyond restored => Sys2Proof.Machine.execFaultReport stop unit detail byCount beyond restored s
  | .incidentClose c k => Sys2Proof.Machine.execIncidentClose c k s
  | .stepReplay => Sys2Proof.Machine.execStepReplay s
  | .replayRestart => Sys2Proof.Machine.execReplayRestart s
  | .stepCommit => Sys2Proof.Machine.execStepCommit s
  | .powerControlPeriod draw others cmds => Sys2Proof.Machine.execPowerControlPeriod draw others cmds s
  | .startupEnd => Sys2Proof.Machine.execStartupEnd s
  | .ageingCheck n low => Sys2Proof.Machine.execAgeingCheck n low s
  | .gapEnd => Sys2Proof.Machine.execGapEnd s
  | .droop g => Sys2Proof.Machine.execDroop g s
  | .vrAlert => Sys2Proof.Machine.execVrAlert s
  | .floorEnd => Sys2Proof.Machine.execFloorEnd s
  | .thermalSample temps => Sys2Proof.Machine.execThermalSample temps s
  | .throttleStep => Sys2Proof.Machine.execThrottleStep s
  | .pwrCtrlWrite v => Sys2Proof.Machine.execPwrCtrlWrite v s
  | .restEnter v => Sys2Proof.Machine.execRestEnter v s
  | .restEntered => Sys2Proof.Machine.execRestEntered s
  | .wake host => Sys2Proof.Machine.execWake host s
  | .wakeDone => Sys2Proof.Machine.execWakeDone s
  | .coldReset powerOn => Sys2Proof.Machine.execColdReset powerOn s
  | .bootStageEnd f => Sys2Proof.Machine.execBootStageEnd f s
  | .bootWatchdog => Sys2Proof.Machine.execBootWatchdog s
  | .railFault r => Sys2Proof.Machine.execRailFault r s
  | .refclkLoss c => Sys2Proof.Machine.execRefclkLoss c s
  | .hostReset => Sys2Proof.Machine.execHostReset s
  | .controllerReset => Sys2Proof.Machine.execControllerReset s
  | .controllerWatchdog => Sys2Proof.Machine.execControllerWatchdog s
  | .hubWatchdog => Sys2Proof.Machine.execHubWatchdog s
  | .gsResetCold v => Sys2Proof.Machine.execGsResetCold v s
  | .gsResetController v => Sys2Proof.Machine.execGsResetController v s
  | .setupSave v => Sys2Proof.Machine.execSetupSave v s
  | .setupSaveDone ok => Sys2Proof.Machine.execSetupSaveDone ok s
  | .setupRestore => Sys2Proof.Machine.execSetupRestore s
  | .setEndpointId pecOk eid => Sys2Proof.Machine.execSetEndpointId pecOk eid s
  | .getEndpointId pecOk => Sys2Proof.Machine.execGetEndpointId pecOk s
  | .getMctpVersionSupport pecOk typ => Sys2Proof.Machine.execGetMctpVersionSupport pecOk typ s
  | .getMessageTypeSupport pecOk => Sys2Proof.Machine.execGetMessageTypeSupport pecOk s
  | .getVendorDefinedMessageSupport pecOk sel => Sys2Proof.Machine.execGetVendorDefinedMessageSupport pecOk sel s
  | .readReg pecOk off => Sys2Proof.Machine.execReadReg pecOk off s
  | .writeReg pecOk off v vfEnabled => Sys2Proof.Machine.execWriteReg pecOk off v vfEnabled s
  | .readPage pecOk k part => Sys2Proof.Machine.execReadPage pecOk k part s
  | .readEvent pecOk n => Sys2Proof.Machine.execReadEvent pecOk n s
  | .mctpReset pecOk code codeN => Sys2Proof.Machine.execMctpReset pecOk code codeN s
  | .recoveryWrite pecOk off data => Sys2Proof.Machine.execRecoveryWrite pecOk off data s
  | .recoveryCommit pecOk len sigOk svn build => Sys2Proof.Machine.execRecoveryCommit pecOk len sigOk svn build s
  | .pmbusPoll die ok fault => Sys2Proof.Machine.execPmbusPoll die ok fault s
  | .shutdown => Sys2Proof.Machine.execShutdown s
  | .shutdownDone => Sys2Proof.Machine.execShutdownDone s
  | .shutdownRestart => Sys2Proof.Machine.execShutdownRestart s
  | .tapReset => Sys2Proof.Machine.execTapReset s
  | .extest captured shifted => Sys2Proof.Machine.execExtest captured shifted s
  | .samplePreload captured shifted => Sys2Proof.Machine.execSamplePreload captured shifted s
  | .idcode => Sys2Proof.Machine.execIdcode s
  | .clamp => Sys2Proof.Machine.execClamp s
  | .highz => Sys2Proof.Machine.execHighz s
  | .extestPulse captured shifted => Sys2Proof.Machine.execExtestPulse captured shifted s
  | .extestTrain captured shifted => Sys2Proof.Machine.execExtestTrain captured shifted s
  | .bypass opcode => Sys2Proof.Machine.execBypass opcode s
  | .coldResetNDeassert => Sys2Proof.Machine.execColdResetNDeassert s
  | .brownoutEnd c => Sys2Proof.Machine.execBrownoutEnd c s
  | .perstNDeassert rate flit width => Sys2Proof.Machine.execPerstNDeassert rate flit width s
  | .controllerResetDone => Sys2Proof.Machine.execControllerResetDone s
  | .vrAlertDeassert => Sys2Proof.Machine.execVrAlertDeassert s
  | .pwrWarnDeassert => Sys2Proof.Machine.execPwrWarnDeassert s
  | .droopEnd g => Sys2Proof.Machine.execDroopEnd g s
  | .ethLinkUp p sub => Sys2Proof.Machine.execEthLinkUp p sub s
  | .ethLinkDown p sub fecLock => Sys2Proof.Machine.execEthLinkDown p sub fecLock s
  | .imageChunkRead data digestOk transient pages => Sys2Proof.Machine.execImageChunkRead data digestOk transient pages s
  | .pageRetirementDone st => Sys2Proof.Machine.execPageRetirementDone st s
  | .rowSwapDone st => Sys2Proof.Machine.execRowSwapDone st s

end Sys2Proof.Machine
end

