-- ==== Sys2Proof/Safety.lean ====
section
/-! DEFINITION. What claims about every step are stated in: runs, memory in its one form, and what a command keeps. -/

namespace Sys2Proof.Machine

/-- A step that answers a next state. -/
def Goes (s t : State) : Prop := step s = .next t

/-- DRAM in its one form: addresses strictly rising, no zero byte listed, and none at or above 384 GiB (R489). -/
def State.dramWf (s : State) : Bool := twf 0#8 s.dram && s.dram.all fun e => decide (e.1 < dramSize)

/-- The set-up registers in their one form: offsets strictly rising, and none listed with its reset value. -/
def State.regsWf (s : State) : Bool := keysFrom 0 s.regs && s.regs.all fun e => decide (e.2 ≠ regReset e.1)

/-- Memory and registers are in their one form. -/
abbrev State.Wf (s : State) : Prop := s.dramWf = true ∧ s.regsWf = true

/-- What no command may do: touch the queue of waiting commands, take back what the device has sent, reuse a free value, or leave memory or registers
out of their one form. -/
def Keeps (s t : State) : Prop :=
  t.pending = s.pending ∧ (s.Wf → t.Wf) ∧ s.outbox <+: t.outbox ∧ s.freeCount ≤ t.freeCount

/-! ### What a command does -/

/-- A command answers a next state, and the state holds a property. -/
def After (c : Instr) (s : State) (P : State → Prop) : Prop := ∃ t, exec c s = .next t ∧ P t

/-- A command has no effect at all. -/
def Passes (c : Instr) (s : State) : Prop := exec c s = .next s

/-- Context k of cluster n issues the slot, with its predicate on or off (R55, R57, R92): it runs, issue is not stopped, the cluster is
not fenced, and HALT is clear or a single step is due. -/
abbrev State.issues (s : State) (n k : Nat) (x : SlotCtl) (on : Bool) : Prop :=
  (s.cl n).running = some k ∧ (s.cl n).stopped = false ∧ s.isFenced n = false ∧
    (s.on (Reg.SEQ_DEBUG_HALT n) = false ∨ (s.cl n).stepOne = true) ∧ predOn ((s.cl n).ctx k) x = on

/-- Nothing but cluster n differs. -/
def OnlyCl (s t : State) (n : Nat) : Prop := t = { s with clusters := t.clusters } ∧ ∀ m, m ≠ n → t.cl m = s.cl m

/-- Context k becomes y, and every other context of the cluster stays. -/
def CtxSet (c d : ClusterSt) (k : Nat) (y : Ctx) : Prop := d.ctx k = y ∧ ∀ j, j ≠ k → d.ctx j = c.ctx j

/-- A slot's whole effect is on its context, which becomes y; a single step that was due is done. -/
def Moved (s t : State) (n k : Nat) (y : Ctx) : Prop :=
  OnlyCl s t n ∧ t.cl n = { s.cl n with stepOne := false, ctxs := (t.cl n).ctxs } ∧ CtxSet (s.cl n) (t.cl n) k y

/-- The slot after a one-word slot, and after a two-word slot. -/
def Ctx.next (y : Ctx) : Ctx := { y with slotPtr := y.slotPtr + 1 }
def Ctx.next2 (y : Ctx) : Ctx := { y with slotPtr := y.slotPtr + 2 }

/-- No write that the scoreboard holds, or that is queued, meets the lines that a slot reads (R210, R211). -/
abbrev ClusterSt.mayRead (c : ClusterSt) (rs : List (Nat × Nat)) : Prop := c.held rs = false ∧ c.behindStream rs = none

/-- No context of the cluster waits. -/
abbrev ClusterSt.quiet (c : ClusterSt) : Prop := ∀ k, k < 32 → (c.ctx k).st ≠ .waiting

/-- Nothing but the registers at these offsets differs. -/
def OnlyRegs (s t : State) (offs : List Nat) : Prop := t = { s with regs := t.regs } ∧ ∀ off, off ∉ offs → t.rg off = s.rg off

/-- The registers at all but these offsets read as before. -/
def RegsBut (s t : State) (offs : List Nat) : Prop := ∀ off, off ∉ offs → t.rg off = s.rg off

/-- No byte of DRAM differs. -/
def SameDram (s t : State) : Prop := ∀ a, t.rdB a = s.rdB a

/-- A BAR0 write is let through: READY is set and no maintenance command is running (R613, R393). -/
abbrev State.open (s : State) : Prop := s.on Reg.GS_STATUS_READY = true ∧ s.on Reg.MAINT_STATUS_BUSY = false

/-- The power state lets the array and DRAM work (R595). -/
abbrev State.awake (s : State) : Prop := s.fd Reg.PWR_STATUS_STATE < 3

/-- No cluster and no byte of DRAM differs. -/
abbrev SameArray (s t : State) : Prop := t.clusters = s.clusters ∧ t.dram = s.dram

/-- The device has not finished a shutdown, so that it sends what it has to send (Table 19.7). -/
abbrev State.sends (s : State) : Prop := s.on Reg.GS_STATUS_SHUTDOWN_DONE = false

/-- BAR2 writes of an instance act (R388, R613). -/
abbrev State.bellsOpen (s : State) (i : Nat) : Prop := s.on (Reg.INST_STATUS_IN_RESET i) = false ∧ s.on Reg.GS_STATUS_READY = true

/-- The descriptor at a ring position is admitted, and of this opcode. -/
abbrev State.hasWork (s : State) (ring : Nat) (pos : Word) (op id : Nat) (d : Desc) : Prop :=
  s.findDesc ring pos.toNat = some id ∧ s.desc id = d ∧ d.state = .admitted ∧ d.opcode = op

/-- A descriptor has ended with a status and a detail; its words, owner and position stay, and so does every other descriptor. -/
def EndedDesc (s t : State) (id status detail : Nat) : Prop :=
  (t.desc id).state = .ended ∧ (t.desc id).status = status ∧ (t.desc id).detail = detail ∧ (t.desc id).words = (s.desc id).words ∧
    (t.desc id).ring = (s.desc id).ring ∧ (t.desc id).pos = (s.desc id).pos ∧ (t.desc id).inst = (s.desc id).inst ∧
    ∀ j, j ≠ id → t.desc j = s.desc j

/-- Only the host link's own state differs. -/
abbrev OnlyHost (s t : State) : Prop := t = { s with host := t.host }

/-- Entry e of the angle-event table is due with its committed words, at an ideal time at which it has not fired (R333, R337 to R340). -/
abbrev State.due (s : State) (e action : Nat) (ws : List Word) (ideal : Nat) : Prop :=
  s.on Reg.TB_STATUS_FIRST_LOCK = true ∧ s.tbState ≠ 0 ∧ s.on Reg.GS_STATUS_SHUTTING_DOWN = false ∧ s.governs e = (ws, ideal, true) ∧
    aeValid ws = true ∧ aeAction ws = action ∧ le56 ideal s.time.lockAt = false ∧ (tget [] s.time.fired e).contains ideal = false

/-- Every physical cluster has the frequency that the state grants it (R576). -/
abbrev State.grantsHold (t : State) : Prop := ∀ n, n < 576 → tget 0 t.power.granted n = t.grant n

/-- A cold reset for a cause has run (Table 19.2), with no entry of the library being deleted: what is volatile is at reset, what is kept stays, and
every register but GS_RESET_CAUSE has its reset value. -/
def ColdFrom (s t : State) (cause : Nat) : Prop :=
  t.clusters = [] ∧ t.dram = [] ∧ t.mesh = [] ∧ t.host = State.reset.host ∧ t.net = State.reset.net ∧ t.time = State.reset.time ∧
    t.images = State.reset.images ∧ t.links = State.reset.links ∧ t.power = { State.reset.power with falls := s.power.falls } ∧
    t.repair.fenceCount = s.repair.fenceCount ∧ t.repair.retired = s.repair.retired ∧ t.repair.fenced = [] ∧
    t.store.blocks = s.store.blocks ∧ t.store.keys = s.store.keys ∧ t.store.autos = s.store.autos ∧ (∀ e, t.lib e = { s.lib e with uses := 0 }) ∧
    t.mgmt.setup = s.mgmt.setup ∧ t.mgmt.minSvn = s.mgmt.minSvn ∧ t.mgmt.controllerReset = false ∧ t.mgmt.hubDead = false ∧
    t.outbox = s.outbox ∧ t.pending = s.pending ∧ t.rg Reg.GS_RESET_CAUSE = s.rg Reg.GS_RESET_CAUSE ||| BitVec.ofNat 32 (2 ^ cause) ∧
    ∀ off, off ≠ Reg.GS_RESET_CAUSE → t.rg off = regReset off

/-- No entry of the library is being deleted. -/
abbrev State.noneDeleting (s : State) : Prop := ∀ e ∈ s.store.lib, e.2.state ≠ 3

/-- Every cluster in service is clocked at the floor of 300 MHz (R590). -/
abbrev State.atFloor (s t : State) : Prop :=
  ∀ n, n < 576 → tget 0 t.power.granted n = if s.isFenced n || s.power.trip || s.fd Reg.PWR_STATUS_STATE == 3 then 0 else 300

end Sys2Proof.Machine
end

