-- ==== Sys2Proof/Certificates/Slice0/Obligations.lean ====
section
/-! DEFINITION. The statements for the provers: for every command, where it completes and with what effect; what every command and every step keeps. -/

section

open Sys2Proof Sys2Proof.Machine

/-- A step runs the command at the front of the queue. For every command c, state s and queue q: a step of s with c in front of q answers what
exec answers for c on s with the queue q. (95_what_each_step_holds.md, 00_scope.md) -/
def Obligations.StepRunsFrontCommand : Prop :=
  ∀ (c : Instr) (q : List Instr) (s : State), step { s with pending := c :: q } = exec c { s with pending := q }

/-- With no command waiting, one angle unit of time passes, and nothing else changes (the model's choice, log entry 6). For every state whose
queue is empty a step answers a next state. While a cold reset holds the time base the state is as before. Else the elapsed time advances by
TURN_US, the angle by 1, wrapping to 0 at 2^24 with the turn count advanced, and besides the time base nothing differs but TB_HOLDOVER_S,
which counts seconds in holdover (R331, R335 give the pace; that it passes on an empty queue is the model's choice). (10_angle_time.md, 19_reset_and_management.md) -/
def Obligations.EmptyQueueLetsTimePass : Prop :=
  ∀ s : State, s.pending = [] → ∃ t, step s = .next t ∧
    (s.inCold = true → t = s) ∧
    (s.inCold = false →
      t.time = { s.time with
        clk := s.time.clk + s.time.turnUs
        angle := if 2 ^ 24 ≤ s.time.angle + 1 then 0 else s.time.angle + 1
        turn := if 2 ^ 24 ≤ s.time.angle + 1 then (s.time.turn + 1) % 2 ^ 32 else s.time.turn } ∧
      t = { s with time := t.time, regs := t.regs } ∧ RegsBut s t [Reg.TB_HOLDOVER_S])

/-- The table gives no command any bits, so no word spells a command. For every length and word, decodeTableWord answers none, and withFetchWord
leaves every state as it is (the model's reading of the opcode table, whose rows have no fields). (00_scope.md) -/
def Obligations.NoWordSpellsACommand : Prop :=
  ∀ (nbits w : Nat) (s : State), decodeTableWord nbits w = none ∧ s.withFetchWord nbits w = s

/-- No command touches the queue, takes back what was sent, reuses a free value, or leaves DRAM or registers out of their one form. For every
command c and states s, t with exec c s = next t: the queue is as before; if DRAM and registers were in their one form (addresses strictly
rising, nothing listed that equals its default, no DRAM byte at or above 384 GiB) they still are; what was sent before is a first part of
what is sent after; the count of free values drawn does not fall. (15_dram_and_store.md, 21_setup_registers.md, 20_package_and_pins.md) -/
def Obligations.EveryCommandKeepsWhatNoCommandTouches : Prop :=
  ∀ (c : Instr) (s t : State), exec c s = .next t → Keeps s t

/-- Every step keeps DRAM and registers in their one form, from every state that has them so. For all states s and t with step s = next t: if in
s no DRAM byte at or above 384 GiB is held, DRAM lists addresses in rising order with no zero byte, and the register map lists offsets in
rising order with no reset value, the same holds of t. (15_dram_and_store.md, 21_setup_registers.md) -/
def Obligations.EveryStepKeepsMemoryForm : Prop :=
  ∀ s t : State, Goes s t → s.Wf → t.Wf

/-- The state after reset has DRAM and registers in their one form. State.reset meets the invariant that every step keeps. (15_dram_and_store.md, 19_reset_and_management.md) -/
def Obligations.ResetHasMemoryForm : Prop :=
  State.reset.Wf

/-- What a cold reset at power-on leaves: registers at their reset values, GS_RESET_CAUSE with POWER_ON, memories and queues empty, time at 0.
In State.reset every register but GS_RESET_CAUSE holds the reset value of the register table and GS_RESET_CAUSE holds bit POWER_ON alone;
READY and BUSY are clear; every DRAM byte reads 0 and no page is zeroed; no cluster holds a plane or context and every scratchpad byte is 0;
turn count and angle are 0; FAN_PWM is at 100 %, the TAP holds IDCODE and the outputs ALERT_N, LOAD_ERR_N and THERM_TRIP_N are not asserted;
no command waits. (Values that the manual does not state are the model's, log entries 4 and 5; DRAM bytes read as 0 since no access is
served before its page is zeroed.) (19_reset_and_management.md, 10_angle_time.md, 20_package_and_pins.md, 21_setup_registers.md) -/
def Obligations.ResetLeavesTheTableValues : Prop :=
  (∀ off, off ≠ 0x18 → State.reset.rg off = regReset off) ∧ State.reset.rg 0x18 = 1#32 ∧
  State.reset.on Reg.GS_STATUS_READY = false ∧ State.reset.on Reg.MAINT_STATUS_BUSY = false ∧
  (∀ a, State.reset.rdB a = 0#8) ∧ (∀ p, State.reset.pageZeroed p = false) ∧
  (∀ n, State.reset.cl n = noCluster) ∧ (∀ n a, (State.reset.cl n).rd a = 0#8) ∧
  State.reset.now = 0 ∧ State.reset.pins.fanPwm = 100 ∧ State.reset.pins.tapInstr = 2 ∧ State.reset.pins.alertN = false ∧
  State.reset.pins.loadErrN = false ∧ State.reset.pins.thermTripN = false ∧ State.reset.pending = []

/-- Every command completes: from every state it answers a next state, never a fault or a refusal. For every command c of the table and every
state s there is a t with exec c s = next t; so does every step. (95_what_each_step_holds.md, 00_scope.md) -/
def Obligations.NoCommandStops : Prop :=
  (∀ (c : Instr) (s : State), ∃ t, exec c s = .next t) ∧ ∀ s : State, ∃ t, Goes s t

/-- A DRAM byte below 384 GiB reads what was last written there, no address at or above reaches storage, and bit 12 selects the stack of the
die. For every state, addresses a and b and byte v: after v is written at a below 384 GiB, a reads v, and every other address reads as
before; a write at or above 384 GiB changes nothing; a run of bytes written from a up reads back byte by byte and leaves every byte outside
it. For each die d of the four and address a from 96 GiB·d to 96 GiB·(d+1) − 1: the stack that serves a is 2d when bit 12 of a is 0 and 2d +
1 when it is 1; so the addresses of one 4 KiB page have one stack, and the next page of the die has the other. (R489) -/
def Obligations.DramAddressesReachTheStackThatR489Says : Prop :=
  (∀ (s : State) (a : Nat) (v : Byte), a < 384 * 2 ^ 30 → (s.wrB a v).rdB a = v) ∧
  (∀ (s : State) (a b : Nat) (v : Byte), b ≠ a → (s.wrB a v).rdB b = s.rdB b) ∧
  (∀ (s : State) (a : Nat) (v : Byte), 384 * 2 ^ 30 ≤ a → s.wrB a v = s) ∧
  (∀ (s : State) (a : Nat) (l : List Byte) (k : Nat), k < l.length → a + k < 384 * 2 ^ 30 → (s.wrBytes a l).rdB (a + k) = l.getD k 0#8) ∧
  (∀ (s : State) (a b : Nat) (l : List Byte), b < a ∨ a + l.length ≤ b → (s.wrBytes a l).rdB b = s.rdB b) ∧
  (∀ d a : Nat, d < 4 → 96 * 2 ^ 30 * d ≤ a → a < 96 * 2 ^ 30 * (d + 1) → stackOf a = if a.testBit 12 then 2 * d + 1 else 2 * d) ∧
  (∀ d a b : Nat, d < 4 → 96 * 2 ^ 30 * d ≤ a → a < 96 * 2 ^ 30 * (d + 1) → a / 4096 = b / 4096 → stackOf a = stackOf b) ∧
  (∀ d a : Nat, d < 4 → 96 * 2 ^ 30 * d ≤ a → a + 4096 < 96 * 2 ^ 30 * (d + 1) → stackOf (a + 4096) ≠ stackOf a)

/-- NOP, LOOP, PRED, YIELD and END complete: each moves its context, or gives up the sequencer, and nothing else of the package changes. When
context k of cluster n issues the slot: NOP moves the slot pointer by 1. LOOP with its predicate on adds 1 to the index of its level and
jumps to its target while the index is below the bound of the table that uses the level as a tile level, else sets the index to 0 and moves
on; with the predicate off it moves on. PRED with its predicate on writes the predicate bit that it names with the value of its source and
moves on (a write of P0 has no effect); with the predicate off it moves on; its scratchpad source is read when no pending write meets the
line and the word is good. YIELD, whatever its predicate: with a ready context on a later plane of the FOLD_NEXT ring, k becomes READY and
the switch to the first such context begins; with none, k runs on. END makes k DONE whatever its predicate. No other context, cluster,
register, byte of DRAM or output changes, but for BAR_STATUS of the cluster at END, where an arrival at a barrier shows. Where the rules
leave a reading open, the model's is taken: log entries 13, 14. (02_sections_and_planes.md, 07_loop_tables.md, 09_counters_and_barriers.md) -/
def Obligations.ControlSlotsMoveTheirContextOrGiveUpTheSequencer : Prop :=
  (∀ (s : State) (n : Fin 576) (k : Nat) (x : SlotCtl) (on : Bool), s.issues n k x on →
    After (.nop n x) s fun t => Moved s t n k ((s.cl n).ctx k).next) ∧
  (∀ (s : State) (n : Fin 576) (k : Nat) (x : SlotCtl) (l : Fin 6) (target : BitVec 12), s.issues n k x true →
    let c := s.cl n
    let y := c.ctx k
    let p := c.plane (k / 4)
    let i := y.idx.getD l 0 + 1
    After (.loop n x l target) s fun t => Moved s t n k
      (if i < p.bound c.bkt (p.tileTable l) l then { y with idx := y.idx.set l i, slotPtr := target.toNat }
        else { y with idx := y.idx.set l 0, slotPtr := y.slotPtr + 1 })) ∧
  (∀ (s : State) (n : Fin 576) (k : Nat) (x : SlotCtl) (l : Fin 6) (target : BitVec 12), s.issues n k x false →
    After (.loop n x l target) s fun t => Moved s t n k ((s.cl n).ctx k).next) ∧
  (∀ (s : State) (n : Fin 576) (k : Nat) (x : SlotCtl) (on : Bool) (b : Fin 8) (src : PredSrc), s.issues n k x on →
    (∀ a, src = .byte a → (s.cl n).mayRead [lineRange a.toNat (a.toNat + 1)]) →
    let c := s.cl n
    let y := c.ctx k
    After (.pred n x b src .clean) s fun t => Moved s t n k
      { y with slotPtr := y.slotPtr + 1
               preds := if on ∧ b ≠ 0 then setBits y.preds b b (b2n (c.predValue k src)) else y.preds }) ∧
  (∀ (s : State) (n : Fin 576) (k : Nat) (x : SlotCtl) (on : Bool), s.issues n k x on →
    let c := s.cl n
    let p := k / 4
    let ring := if (c.plane p).foldEn then c.ring p 8 (c.nextFold p) else []
    let target := ring.findSome? fun q => ((List.range 4).map (4 * q + ·)).find? c.canRun
    After (.yield n x) s fun t => OnlyCl s t n ∧
      match target with
      | some j => t.cl n = { c with stepOne := false, ctxs := (t.cl n).ctxs, last := k, cur := none, switching := some j } ∧
          CtxSet c (t.cl n) k { (c.ctx k).next with st := .ready }
      | none => Moved s t n k (c.ctx k).next) ∧
  (∀ (s : State) (n : Fin 576) (k : Nat) (x : SlotCtl) (on : Bool), s.issues n k x on →
    After (.endSlot n x) s fun t => CtxSet (s.cl n) (t.cl n) k { (s.cl n).ctx k with st := .done } ∧ SameDram s t ∧ t.outbox = s.outbox ∧
      RegsBut s t [Reg.BAR_STATUS n])

/-- LOADW, MMA, MAX, MIN and the 26 VECTOR slots issue: the operation enters its unit's queue and the context moves on; a full queue holds
issue. When context k of cluster n issues LOADW with the loader's queue empty and no pending write on operand 1's extent, or MMA, MAX or MIN
with the array's queue empty and no pending write on operand 0's extent: the queue of that port holds the operation of the slot's fields
(MROWS and KLEN of 0 taken as 128, the tile indices those at issue, the predicate kept), the slot pointer moves by 1, and nothing else of
the package changes. When it issues a VECTOR slot with the unit's queue empty and no pending write on the lines that the operation reads:
the queue holds the operation of the slot's and EXT word's fields with the VOP code of Table 5.3, the slot pointer moves by 2, and nothing
else of the package changes. A full queue holds issue. Where the rules leave a reading open, the model's is taken: log entries 14. (04_matrix_units.md, 05_vector_units.md, 06_scratchpad.md) -/
def Obligations.MatrixAndVectorSlotsQueueTheirOperation : Prop :=
  (∀ (s : State) (n : Fin 576) (k : Nat) (x : SlotCtl) (on : Bool) (lt : Fin 16) (f : BitVec 4) (swap : Bool), s.issues n k x on →
    let c := s.cl n
    let p := c.plane (k / 4)
    c.loaderQ = none → c.mayRead [lineRange (p.extLo lt 1) (p.extHi lt 1)] →
    After (.loadw n x lt f swap) s fun t => OnlyCl s t n ∧ CtxSet c (t.cl n) k (c.ctx k).next ∧
      t.cl n = { c with
        stepOne := false, ctxs := (t.cl n).ctxs, issued := c.issued + 1
        loaderQ := some (matOpOf (MatArg.mk lt 0 f 0 0 false false swap false 0) 0 k on c) }) ∧
  (∀ (s : State) (n : Fin 576) (k : Nat) (x : SlotCtl) (on : Bool) (a : MatArg), s.issues n k x on →
    let c := s.cl n
    let p := c.plane (k / 4)
    c.arrayQ = none → c.mayRead [lineRange (p.extLo a.lt 0) (p.extHi a.lt 0)] →
    let queues (i : Instr) (mop : Nat) : Prop := After i s fun t => OnlyCl s t n ∧ CtxSet c (t.cl n) k (c.ctx k).next ∧
      t.cl n = { c with
        stepOne := false, ctxs := (t.cl n).ctxs, issued := c.issued + 1, arrayQ := some (matOpOf a mop k on c) }
    queues (.mma n x a) 1 ∧ queues (.max n x a) 2 ∧ queues (.min n x a) 3) ∧
  (∀ (s : State) (n : Fin 576) (k : Nat) (x : SlotCtl) (on : Bool) (a : MatArg), s.issues n k x on → (s.cl n).arrayQ.isSome = true →
    let holds (i : Instr) : Prop := After i s fun t => OnlyCl s t n ∧ t.cl n = { s.cl n with stepOne := false }
    holds (.mma n x a) ∧ holds (.max n x a) ∧ holds (.min n x a)) ∧
  (let slots : List ((Fin 576 → SlotCtl → VecArg → Instr) × Nat) :=
    [(.vecCopy, 0x00), (.vecIadd, 0x01), (.vecIsub, 0x02), (.vecImul, 0x03), (.vecShl, 0x04), (.vecShrl, 0x05), (.vecShra, 0x06), (.vecAnd, 0x08),
      (.vecOr, 0x09), (.vecXor, 0x0A), (.vecAndn, 0x0B), (.vecIcmp, 0x10), (.vecImax, 0x11), (.vecImin, 0x12), (.vecSel, 0x13), (.vecFadd, 0x18),
      (.vecFsub, 0x19), (.vecFcmp, 0x1A), (.vecFmax, 0x1B), (.vecFmin, 0x1C), (.vecFmul, 0x1D), (.vecFdiv, 0x1E), (.vecLut, 0x20),
      (.vecGather, 0x21), (.vecPmax, 0x28), (.vecPmin, 0x29)]
  ∀ e ∈ slots, ∀ (s : State) (n : Fin 576) (k : Nat) (x : SlotCtl) (on : Bool) (v : VecArg), s.issues n k x on →
    let c := s.cl n
    let o := vecOpOf v e.2 k on c
    (c.vecQ = none → c.mayRead ((c.plane (k / 4)).vecReads o) →
      After (e.1 n x v) s fun t => OnlyCl s t n ∧ CtxSet c (t.cl n) k (c.ctx k).next2 ∧
        t.cl n = { c with stepOne := false, ctxs := (t.cl n).ctxs, issued := c.issued + 1, vecQ := some o }) ∧
    (c.vecQ.isSome = true → After (e.1 n x v) s fun t => OnlyCl s t n ∧ t.cl n = { c with stepOne := false }))

/-- MATRIX_OP_START of an MMA whose vectors can be read leaves in every element of its bank the sum of the row's products, and changes no other
element. When the array's queue of cluster n holds an MMA whose predicate is on, its holds are met, the cluster is not fenced, the tile it
uses (the shadow one when SWAP is set) is loaded in its FMT_W, its bank is not closed to a continuation, no vector leaves its extent, and no
error shows: after the command element (i, j) of its bank, for each row i below MROWS and column j, is the value of the sum of row i's
products with column j of the tile, added to the element before when CONT is set and to 0 else. Elements of other rows, the other bank,
scratchpad, DRAM and the other clusters are as before, and the operation awaits its bank's release. Where the rules leave a reading open,
the model's is taken: log entries 10. (04_matrix_units.md, 03_arithmetic.md) -/
def Obligations.MmaGivesEveryColumnItsSum : Prop :=
  ∀ (s : State) (n : Fin 576) (o : MatOp),
    let c := s.cl n
    let p := c.plane o.plane
    let y := { c.ctx (4 * o.plane + o.ctx) with idx := o.idx }
    let tile := if o.swap then c.shadow else c.active
    let b := p.opBank o
    let act (i : Nat) := (c.readAct p o y i).1
    let old (i j : Nat) : Word := tget 0 (c.bank b).data (128 * i + j)
    c.arrayQ = some o → o.on = true → o.mop = 1 → c.arrayMayStart o = true → s.isFenced n = false →
    tile.loaded = true → tile.fmt = o.fmtW → (o.cont = true → (c.bank b).closed = false) → b < 2 →
    (∀ i, i < o.rows → (c.readAct p o y i).2 = none) →
    After (.matrixOpStart n false .none .clean none) s fun t =>
      (∀ i j, i < o.rows → j < 128 → tget 0 ((t.cl n).bank b).data (128 * i + j) =
        ((mmaRow tile o.fmtA (act i) fun j => if o.cont then old i j else 0).map (·.value)).getD j 0) ∧
      (∀ i j, o.rows ≤ i → j < 128 → tget 0 ((t.cl n).bank b).data (128 * i + j) = old i j) ∧
      (t.cl n).bank (1 - b) = c.bank (1 - b) ∧ (t.cl n).sp = c.sp ∧ (t.cl n).arrayQ = none ∧
      (t.cl n).arrays = c.arrays ++ [⟨o, p.opBanks o, o.epi, []⟩] ∧ SameDram s t ∧ ∀ m, m ≠ n.val → t.cl m = s.cl m

/-- The matrix unit's other steps: a weight load starts and completes, a bank is released, an epilogue starts and ends, an injection is armed.
For cluster n: a queued LOADW whose holds are met and whose rows lie in their extent starts, and the shadow register takes the tile that its
rows hold; one that is predicated off takes the loader and reads nothing. At TILE_COMPLETE the tile in the shadow register that this LOADW
loaded is complete. After the check of its last row and without a fault, the oldest array operation leaves the list, and each bank that no
later one holds goes to the epilogue where EPI is set, else becomes free. A waiting epilogue with scoreboard room whose rows meet no extent
fault starts and writes its rows. At EPILOGUE_DONE its banks are free and its scoreboard entries retire. MXU_INJECT outside Rest writes its
register by access types when writes are let through. Where the rules leave a reading open, the model's is taken: log entries 2, 12. (04_matrix_units.md, 21_setup_registers.md) -/
def Obligations.MatrixUnitTakesItsOperationsOn : Prop :=
  (∀ (s : State) (n : Fin 576) (o : MatOp) (tile : WTile) (m : Nat),
    let c := s.cl n
    let p := c.plane o.plane
    let y := { c.ctx (4 * o.plane + o.ctx) with idx := o.idx }
    c.loaderQ = some o → c.loadMayStart o = true → s.isFenced n = false → o.on = true →
    c.loadRows p c.bkt o y (p.bound c.bkt o.lt (p.levelAt o.lt 0)) 0 (⟨o.fmtW, true, false, [], [], o.order⟩, 0, none) = (tile, m, none) →
    After (.matrixOpStart n true .none .clean none) s fun t =>
      (t.cl n).shadow = tile ∧ (t.cl n).active = c.active ∧ (t.cl n).loading = some o ∧ (t.cl n).loaderQ = none ∧ (t.cl n).sp = c.sp ∧
      RegsBut s t [Reg.MASKED_LO n, Reg.MASKED_LO n + 4] ∧ SameDram s t ∧ ∀ m, m ≠ n.val → t.cl m = s.cl m) ∧
  (∀ (s : State) (n : Fin 576) (o : MatOp) (ecc : SpEcc) (conf : Option Conflict), (s.cl n).loaderQ = some o → (s.cl n).loadMayStart o = true →
    s.isFenced n = false → o.on = false →
    exec (.matrixOpStart n true .none ecc conf) s = .next (s.setCl n { s.cl n with loaderQ := none, loading := some o })) ∧
  (∀ (s : State) (n : Fin 576) (o : MatOp), (s.cl n).loading = some o → o.on = true → (s.cl n).shadow.order = o.order → (s.cl n).shadow.loaded = true →
    After (.tileComplete n) s fun t => OnlyCl s t n ∧ (t.cl n).loading = none ∧ (t.cl n).shadow = { (s.cl n).shadow with complete := true } ∧
      (t.cl n).active = (s.cl n).active) ∧
  (∀ (s : State) (n : Fin 576) (r : ArrayRun) (rs : List ArrayRun), (s.cl n).arrays = r :: rs → (s.cl n).mxuFault = false →
    After (.arrayBankRelease n) s fun t => OnlyCl s t n ∧ (t.cl n).arrays = rs ∧
      (t.cl n).epiQ = (if r.epi then (s.cl n).epiQ ++ [r] else (s.cl n).epiQ) ∧
      (∀ b ∈ r.banks, (rs.any (·.banks.contains b)) = false → b < 2 → ((t.cl n).bank b).user = if r.epi then 2 else 0) ∧
      ((t.cl n).bank 0).data = ((s.cl n).bank 0).data ∧ ((t.cl n).bank 1).data = ((s.cl n).bank 1).data) ∧
  (∀ (s : State) (n : Fin 576) (r : ArrayRun) (rest : List ArrayRun),
    let c := s.cl n
    let o := r.op
    let p := c.plane o.plane
    let x := c.enter false (p.epiRanges o)
    let seed := srSeed (p.w (0x9A40 + 64 * o.epiIdx + 36)) p.lc o.ctx (c.ctx (4 * o.plane + o.ctx)).number
    let z := (s.setCl n { x.1 with epiQ := rest, epiRun := some { r with entries := x.2 } }).epiRows n o (c.preamble p o.epiIdx) (p.opBank o) o.rows 0 seed
    c.epiRun = none → c.epiQ = r :: rest → c.used false + (p.epiRanges o).length ≤ 8 → s.isFenced n = false → c.mxuFault = false → z.2 = none →
    After (.epilogueStart n .clean none .none) s fun t => t = z.1 ∧ (t.cl n).epiRun = some { r with entries := x.2 } ∧ (t.cl n).epiQ = rest ∧
      (t.cl n).bank0 = c.bank0 ∧ (t.cl n).bank1 = c.bank1 ∧ SameDram s t ∧ RegsBut s t [Reg.ARITH_FLAGS n, Reg.ARITH_EVENTS n]) ∧
  (∀ (s : State) (n : Fin 576) (r : ArrayRun), (s.cl n).epiRun = some r →
    After (.epilogueDone n) s fun t => OnlyCl s t n ∧ (t.cl n).epiRun = none ∧ (t.cl n).board = (s.cl n).board.filter (fun e => ! r.entries.contains e.id) ∧
      (∀ b ∈ r.banks, b < 2 → ((t.cl n).bank b).user ≠ 2) ∧ (t.cl n).sp = (s.cl n).sp ∧
      ((t.cl n).bank 0).data = ((s.cl n).bank 0).data ∧ ((t.cl n).bank 1).data = ((s.cl n).bank 1).data) ∧
  (∀ (s : State) (n : Fin 576) (v : Word), s.open → s.awake → exec (.mxuInject n v) s = .next (s.plain (Reg.MXU_INJECT n) v))

/-- VECTOR_OP_START of one beat reads every lane before it writes any, and SUMSQ_RECORD_WRITE writes its record. When the vector unit's queue of
cluster n holds an operation whose predicate is on and whose holds are met, the cluster is not fenced and no error shows: if it has at most
64 positions, SUMSQ is clear and no lane that counts meets a fault, then after the command the cluster holds, in lane order, what its active
lanes give from the values before the operation, the unit's queue is empty and no byte of DRAM differs. With the predicate off nothing is
read or written. SUMSQ_RECORD_WRITE, with no context waiting, writes the four words of the record at AUX, retires its scoreboard entry and
frees the unit. Where the rules leave a reading open, the model's is taken: log entries 12. (05_vector_units.md, 06_scratchpad.md) -/
def Obligations.VectorUnitRunsABeat : Prop :=
  (∀ (s : State) (n : Fin 576) (o : VecOp),
    let c := { s.cl n with vecQ := none }
    let p := c.plane o.plane
    let y := { c.ctx (4 * o.plane + o.ctx) with idx := o.idx }
    let total := p.positions c.bkt o.lt
    let lanes := (List.range total).map (c.lane p o y)
    let t0 := if o.vop = 0x20 ∧ o.sub = 0 then c.words o.aux 260 else []
    let x := c.enter false (p.vecRanges o)
    let writes := (lanes.filter (·.active)).flatMap fun l => (c.runLane c p o t0 l).writes
    (s.cl n).vecQ = some o → (s.cl n).vecMayStart o = true → s.isFenced n = false → o.on = true → o.sumsq = false → 0 < total → total ≤ 64 →
    (∀ l ∈ lanes, (l.active || l.maskFault) = true → l.faults = []) →
    After (.vectorOpStart n .clean none) s fun t => t.cl n = (writes.foldl (fun d w => d.wrLoc o.fmtD w) x.1).retire x.2 ∧ SameDram s t ∧
      t.outbox = s.outbox ∧ ∀ m, m ≠ n.val → t.cl m = s.cl m) ∧
  (∀ (s : State) (n : Fin 576) (o : VecOp) (ecc : SpEcc) (conf : Option Conflict), (s.cl n).vecQ = some o → (s.cl n).vecMayStart o = true →
    s.isFenced n = false → o.on = false → o.sumsq = false → exec (.vectorOpStart n ecc conf) s = .next (s.setCl n { s.cl n with vecQ := none })) ∧
  (∀ (s : State) (n : Fin 576) (r : SumsqRec), (s.cl n).sumsq = some r → r.on = true → (∀ k, k < 32 → ((s.cl n).ctx k).st ≠ .waiting) →
    After (.sumsqRecordWrite n) s fun t => t.cl n = (({ s.cl n with sumsq := none } : ClusterSt).retire r.entries).wrN r.addr (wordBytes r.words) ∧
      SameDram s t ∧ RegsBut s t [Reg.VEC_FLAGS n, Reg.VEC_EVENTS n] ∧ ∀ m, m ≠ n.val → t.cl m = s.cl m)

/-- IADD, ISUB and IMUL form the exact result: saturated with VSAT when SAT is set, its low 32 bits when SAT is clear; a narrower FMT_D
saturates in either case. For each operation o with VOP 0x01, 0x02 or 0x03 and lanes a and b, let e be the exact sum, difference or product
of their signed values. With SAT set the lane is e, or the nearer of -2^31 and 2^31 - 1 with VSAT when e lies outside them; with SAT clear
it is the low 32 bits of e with no flag. Then conversion to INT8 or INT4 gives the lane's value, or the nearer limit of that format with
VSAT. (R169) -/
def Obligations.IntegerLanesGiveTheExactResult : Prop :=
  (∀ (o : VecOp) (t : List Word) (a b : Word) (sel : Bool) (e : Int),
    (o.vop = 0x01 ∧ e = a.toInt + b.toInt) ∨ (o.vop = 0x02 ∧ e = a.toInt - b.toInt) ∨ (o.vop = 0x03 ∧ e = a.toInt * b.toInt) →
    (o.sat = true → -2 ^ 31 ≤ e → e ≤ 2 ^ 31 - 1 → (laneFn o t a b sel).1.toInt = e ∧ (laneFn o t a b sel).2 = 0) ∧
    (o.sat = true → 2 ^ 31 - 1 < e → (laneFn o t a b sel).1.toInt = 2 ^ 31 - 1 ∧ (laneFn o t a b sel).2 = 4) ∧
    (o.sat = true → e < -2 ^ 31 → (laneFn o t a b sel).1.toInt = -2 ^ 31 ∧ (laneFn o t a b sel).2 = 4) ∧
    (o.sat = false → laneFn o t a b sel = (BitVec.ofInt 32 e, 0))) ∧
  (∀ (f : Nat) (w : Word), f = 4 ∨ f = 5 →
    let hi : Int := 2 ^ (fmtWidth f - 1) - 1
    let lo : Int := -2 ^ (fmtWidth f - 1)
    (lo ≤ w.toInt → w.toInt ≤ hi → narrow true f w = (ofSigned (fmtWidth f) w.toInt, 0)) ∧
    (hi < w.toInt → narrow true f w = (ofSigned (fmtWidth f) hi, 4)) ∧ (w.toInt < lo → narrow true f w = (ofSigned (fmtWidth f) lo, 4)))

/-- SHL, SHRL and SHRA at every unsigned amount, with SHL saturating when SAT is set. For lanes a and b, b read as an unsigned amount: SHRL
gives a shifted right with zeros, 0 for amounts of 32 and more. SHRA gives the floor of a / 2^b, so 0 or -1 by the sign of a for amounts of
32 and more. SHL with SAT clear gives the low 32 bits of a·2^b, 0 for amounts of 32 and more; with SAT set it gives a·2^b, or the nearer
INT32 limit with VSAT when a·2^b lies outside the INT32 range, which every nonzero a does for amounts of 32 and more. (R170) -/
def Obligations.ShiftLanesTakeEveryAmount : Prop :=
  ∀ (o : VecOp) (t : List Word) (a b : Word) (sel : Bool),
    let e : Int := a.toInt * 2 ^ b.toNat
    let r := laneFn o t a b sel
    (o.vop = 0x05 → r = (a >>> b.toNat, 0) ∧ (32 ≤ b.toNat → r.1 = 0)) ∧
    (o.vop = 0x06 → r.1.toInt = a.toInt / 2 ^ b.toNat ∧ r.2 = 0 ∧ (32 ≤ b.toNat → r.1 = if a.toInt < 0 then 0xFFFFFFFF#32 else 0)) ∧
    (o.vop = 0x04 → o.sat = false → r = (BitVec.ofInt 32 e, 0) ∧ (32 ≤ b.toNat → r.1 = 0)) ∧
    (o.vop = 0x04 → o.sat = true → -2 ^ 31 ≤ e → e ≤ 2 ^ 31 - 1 → r.1.toInt = e ∧ r.2 = 0) ∧
    (o.vop = 0x04 → o.sat = true → 2 ^ 31 - 1 < e → r.1.toInt = 2 ^ 31 - 1 ∧ r.2 = 4) ∧
    (o.vop = 0x04 → o.sat = true → e < -2 ^ 31 → r.1.toInt = -2 ^ 31 ∧ r.2 = 4) ∧
    (o.vop = 0x04 → o.sat = true → 32 ≤ b.toNat → a ≠ 0 → r.2 = 4)

/-- AND, OR, XOR, ANDN and SEL act on the 32-bit patterns and set no flag, whatever the format. For every operation o of VOP 0x08 to 0x0B or
0x13, whatever its formats, an active lane writes one place, the destination's, with the AND, OR, XOR, AND NOT of the 32-bit patterns of a
and b, or with the pattern that bit 0 of the select byte selects, and sets no flag. (R171) -/
def Obligations.LogicLanesKeepPatterns : Prop :=
  ∀ (c g : ClusterSt) (p : Plane) (o : VecOp) (t : List Word) (l : Lane),
    let a := (widen o.fmtA (c.rdLoc 0 o.fmtA l.a)).1
    let b := (widen o.fmtB (c.rdLoc o.imm o.fmtB l.b)).1
    let sel := (c.rdLoc 0 4 l.two).1 % 2 = 1
    let gives (w : Word) : Prop := c.runLane g p o t l = ⟨[(l.d, w.toNat)], 0, 0, 0⟩
    (o.vop = 0x08 → gives (a &&& b)) ∧ (o.vop = 0x09 → gives (a ||| b)) ∧ (o.vop = 0x0A → gives (a ^^^ b)) ∧
    (o.vop = 0x0B → gives (a &&& ~~~b)) ∧ (o.vop = 0x13 → gives (if sel then a else b))

/-- Elastic accesses, the scrubber, the spare bank, zeroing and the debug path of a scratchpad. For cluster n: an elastic write leaves the bytes
from its address up as its data (below the end of storage) and every other byte; the scrubber counts each corrected word and changes no
byte; a finished spare-bank copy is marked to switch; a zeroing request is served while fewer than four clusters of the region are; when
zeroing ends, every byte of the request's ranges reads 0, every other byte stays, and, as the request names them, the banks hold zeros and
the cluster counters are 0. A debug read answers the word at the address of SP_DBG_ADDR and advances the address under AUTOINC; its timeout
answers 0 and sets RD_LATE; a debug write outside Rest writes the word while the cluster is idle, fenced or halted, else sets REFUSED and
changes no byte. Where the rules leave a reading open, the model's is taken: log entries 2, 35, 43, 96. (06_scratchpad.md, 01_six_levels.md, 17_repair.md) -/
def Obligations.ScratchpadServesItsRequesters : Prop :=
  (∀ (s : State) (n : Fin 576) (a : BitVec 23) (data : List Byte), s.isFenced n = false →
    After (.elasticAccess n a data) s fun t => OnlyCl s t n ∧
      (∀ k, k < data.length → a.toNat + k < 0x600000 → (t.cl n).rd (a.toNat + k) = data.getD k 0#8) ∧
      (∀ b, b < a.toNat ∨ a.toNat + data.length ≤ b → (t.cl n).rd b = (s.cl n).rd b)) ∧
  (∀ (s : State) (n : Fin 576) (l : List (BitVec 23)), s.isFenced n = false → s.fd Reg.PWR_STATUS_STATE ≠ 3 →
    After (.patrolScrub n (.corrected l)) s fun t => t.rg (Reg.SP_ECC_CORR n) = s.rg (Reg.SP_ECC_CORR n) + BitVec.ofNat 32 l.length ∧
      (t.cl n).sp = (s.cl n).sp ∧ (t.cl n).ctxs = (s.cl n).ctxs ∧ RegsBut s t [Reg.SP_ECC_CORR n] ∧ SameDram s t ∧ ∀ m, m ≠ n.val → t.cl m = s.cl m) ∧
  (∀ (s : State) (n : Fin 576) (b : Nat) (d : Bool), (s.cl n).migrating = some (b, d) →
    exec (.spareBankCopyDone n) s = .next (s.setCl n { s.cl n with migrating := some (b, true) })) ∧
  (∀ (s : State) (n : Fin 576), (s.cl n).zero ≠ [] → (s.cl n).zeroing = false → s.isFenced n = false → s.zeroingIn (n.val / 18) < 4 →
    exec (.zeroingRequest n) s = .next (s.setCl n { s.cl n with zeroing := true })) ∧
  (∀ (s : State) (n : Fin 576) (z : ZeroReq) (zs : List ZeroReq), (s.cl n).zeroing = true → (s.cl n).zero = z :: zs →
    After (.zeroingDone n) s fun t => (t.cl n).zero = zs ∧ (t.cl n).zeroing = false ∧
      (∀ a, (∃ r ∈ z.ranges, r.1 ≤ a ∧ a < r.2) → (t.cl n).rd a = 0#8) ∧
      (∀ a, (∀ r ∈ z.ranges, a < r.1 ∨ r.2 ≤ a) → (t.cl n).rd a = (s.cl n).rd a) ∧
      (z.banks = true → ∀ b i, tget (0 : Word) ((t.cl n).bank b).data i = 0) ∧ (z.counters = true → ∀ i, i < 64 → t.cc n i = 0) ∧
      SameDram s t ∧ ∀ m, m ≠ n.val → t.cl m = s.cl m) ∧
  (∀ (s : State) (mc : Bool) (n : Fin 576), s.dbgAddr n < 0x600000 →
    After (.spDbgRead mc n .clean) s fun t => t.outbox = s.outbox ++ [.regRead mc (Reg.SP_DBG_DATA n) ((s.cl n).rdW (s.dbgAddr n))] ∧
      t.fd (Reg.SP_DBG_ADDR_WORD_ADDR n) =
        (s.fd (Reg.SP_DBG_ADDR_WORD_ADDR n) + if s.on (Reg.SP_DBG_ADDR_AUTOINC n) then 1 else 0) % 2 ^ 21 ∧
      t.clusters = s.clusters ∧ t.dram = s.dram ∧ RegsBut s t [Reg.SP_DBG_ADDR n]) ∧
  (∀ (s : State) (mc : Bool) (n : Fin 576),
    After (.spDbgReadTimeout mc n) s fun t => t.outbox = s.outbox ++ [.regRead mc (Reg.SP_DBG_DATA n) 0] ∧
      t.on (Reg.SP_DBG_ADDR_RD_LATE n) = true ∧ t.fd (Reg.SP_DBG_ADDR_WORD_ADDR n) = s.fd (Reg.SP_DBG_ADDR_WORD_ADDR n) ∧
      t.clusters = s.clusters ∧ t.dram = s.dram ∧ RegsBut s t [Reg.SP_DBG_ADDR n]) ∧
  (∀ (s : State) (n : Fin 576) (v : Word), s.open → s.awake → s.dbgAddr n < 0x600000 →
    After (.spDbgWrite n v) s fun t => RegsBut s t [Reg.SP_DBG_ADDR n] ∧ SameDram s t ∧ (∀ m, m ≠ n.val → t.cl m = s.cl m) ∧
      if s.seqState n = 0 ∨ s.seqState n = 5 ∨ s.seqState n = 6 then t.cl n = (s.cl n).wrW (s.dbgAddr n) v
      else t.cl n = s.cl n ∧ t.on (Reg.SP_DBG_ADDR_REFUSED n) = true)

/-- A context switch makes the chosen context run, a plane switch makes the incoming planes ACTIVE, and SEQ_DEBUG halts and steps. For cluster
n, neither stopped nor fenced: at the end of a context switch the chosen READY context runs and SWITCHES advances. A plane switch whose
conditions of Table 2.7 hold: where the incoming program belongs to another instance, the zeroing engine is asked first and the switch
waits; else every incoming plane is ACTIVE, every outgoing one RESIDENT, the scoreboard is empty and the switch is over. A section whose planes
are ACTIVE already starts without a change of planes, and a switch whose conditions do not hold waits. SEQ_HALT and
SEQ_STEP outside Rest write HALT, and let one slot issue while HALT is set. Where the rules leave a reading open, the model's is taken: log
entries 14, 23, 96. (02_sections_and_planes.md, 06_scratchpad.md) -/
def Obligations.SwitchesAndDebugControls : Prop :=
  (∀ (s : State) (n : Fin 576) (k : Nat),
    let c := s.cl n
    c.switching = some k → c.stopped = false → s.isFenced n = false → (c.ctx k).st = .ready →
    After (.contextSwitch n) s fun t => CtxSet c (t.cl n) k { c.ctx k with st := .running, accLive := false } ∧
      t.cl n = { c with ctxs := (t.cl n).ctxs, cur := some k, switching := none } ∧
      t.rg64 (Reg.SWITCHES_LO n) = (s.rg64 (Reg.SWITCHES_LO n) + 1) % 2 ^ 64 ∧ RegsBut s t [Reg.SWITCHES_LO n, Reg.SWITCHES_LO n + 4] ∧
      SameDram s t ∧ t.outbox = s.outbox ∧ ∀ m, m ≠ n.val → t.cl m = s.cl m) ∧
  (∀ (s : State) (n : Fin 576) (w : PlaneSwitch) (x : StepSt),
    let c := s.cl n
    c.switch = some w → s.net.step = some x → s.switchReady n w = true → c.planesOf w.slot w.sect [3] = [] → c.otherOwner w = true →
    w.zeroing = false →
    exec (.planeSwitch n) s = .next (s.setCl n { c with
      zero := c.zero ++ [⟨(c.planesOf w.slot w.sect [2]).map fun p => ((c.plane p).scratchBase, (c.plane p).scratchTop), true, true, none⟩]
      switch := some { w with zeroing := true } })) ∧
  (∀ (s : State) (n : Fin 576) (w : PlaneSwitch) (x : StepSt),
    let c := s.cl n
    c.switch = some w → s.net.step = some x → s.switchReady n w = true → c.planesOf w.slot w.sect [3] = [] →
    (c.otherOwner w = false ∨ w.zeroing = true) →
    After (.planeSwitch n) s fun t => (t.cl n).switch = none ∧ (t.cl n).board = [] ∧
      (∀ p, p ∈ c.planesOf w.slot w.sect [2] → ((t.cl n).plane p).st = 3) ∧
      (∀ p, p ∈ c.outgoing → ((t.cl n).plane p).st = 2)) ∧
  (∀ (s : State) (n : Fin 576) (w : PlaneSwitch) (x : StepSt),
    let c := s.cl n
    c.switch = some w → s.net.step = some x → s.switchReady n w = true → c.planesOf w.slot w.sect [3] ≠ [] →
    After (.planeSwitch n) s fun t => (t.cl n).switch = none ∧ ∀ p, p < 8 → ((t.cl n).plane p).st = (c.plane p).st) ∧
  (∀ (s : State) (n : Fin 576) (w : PlaneSwitch), (s.cl n).switch = some w → s.switchReady n w = false → Passes (.planeSwitch n) s) ∧
  (∀ (s : State) (n : Fin 576) (halt : Bool), s.open → s.awake →
    After (.seqHalt n halt) s fun t => t.on (Reg.SEQ_DEBUG_HALT n) = halt ∧ RegsBut s t [Reg.SEQ_DEBUG n] ∧
      t.cl n = { s.cl n with stepOne := (s.cl n).stepOne && halt } ∧ SameDram s t ∧ ∀ m, m ≠ n.val → t.cl m = s.cl m) ∧
  (∀ (s : State) (n : Fin 576), s.open → s.awake → s.on (Reg.SEQ_DEBUG_HALT n) = true →
    After (.seqStep n) s fun t => t.on (Reg.SEQ_DEBUG_HALT n) = true ∧ t.cl n = { s.cl n with stepOne := true } ∧
      SameDram s t ∧ ∀ m, m ≠ n.val → t.cl m = s.cl m)

/-- CSIG adds to its counter or stages the advance, CWAIT waits for its condition, and a mirror takes a larger value. When context k of cluster
n issues CSIG on an OWN binding, no pair of the cluster drifts at the new value, the sum does not pass 2^48 - 1 and no context waits: the
counter holds the old value plus INC with this cluster as its source, the mirror update leaves where the binding names a peer, and the
context moves on; nothing else differs. On a PKG or REMOTE binding the advance is staged for the commit of the step. Predicated off, the
context only moves on. CWAIT moves on when its condition holds or its predicate is off, else the context waits. A current update of a
mirror, or of a package mirror, that is larger than the mirror's value replaces it with its source. Where the rules leave a reading open,
the model's is taken: log entries 2, 13. (09_counters_and_barriers.md) -/
def Obligations.ClusterCountersAdvanceAndAreWaitedFor : Prop :=
  (∀ (s : State) (n : Fin 576) (k : Nat) (x : SlotCtl) (b : Fin 64) (inc : BitVec 16), s.issues n k x true →
    let c := s.cl n
    let p := c.plane (k / 4)
    let i := p.counter b (k % 4)
    let v := s.cc n i + inc.toNat
    p.cb b 0 30 29 = 0 → v ≤ counterMax → i < 64 → (∀ e ∈ c.pairs, (s.setCc n i v (clusterStop n)).pairDrift n e = none) → c.quiet →
    After (.csig n x b inc) s fun t => t.cc n i = v ∧ t.fd (Reg.CC_HI_LAST_SRC n i) = clusterStop n ∧
      CtxSet c (t.cl n) k (c.ctx k).next ∧ t.cl n = { c with stepOne := false, ctxs := (t.cl n).ctxs } ∧ (∀ m, m ≠ n.val → t.cl m = s.cl m) ∧
      t.outbox = s.outbox ++ (if p.cb b 1 31 31 = 1 then
        [.mirrorUpdate (p.cb b 1 30 22) (p.cb b 1 21 16 + if p.cb b 0 28 28 = 1 then k % 4 else 0) v] else []) ∧
      RegsBut s t [Reg.CC_LO n i, Reg.CC_HI n i] ∧ SameDram s t) ∧
  (∀ (s : State) (n : Fin 576) (k : Nat) (x : SlotCtl) (b : Fin 64) (inc : BitVec 16) (y : StepSt), s.issues n k x true →
    let c := s.cl n
    let p := c.plane (k / 4)
    2 ≤ p.cb b 0 30 29 → s.net.step = some y →
    After (.csig n x b inc) s fun t => CtxSet c (t.cl n) k (c.ctx k).next ∧ t.regs = s.regs ∧ t.dram = s.dram ∧ t.outbox = s.outbox ∧
      t.net.step = some { y with staged := y.staged ++
        [⟨n, k, if p.cb b 0 30 29 = 3 then some (p.cb b 1 13 0) else none, p.cb b 0 11 0, inc.toNat⟩] }) ∧
  (∀ (s : State) (n : Fin 576) (k : Nat) (x : SlotCtl) (b : Fin 64) (inc : BitVec 16), s.issues n k x false →
    After (.csig n x b inc) s fun t => Moved s t n k ((s.cl n).ctx k).next) ∧
  (∀ (s : State) (n : Fin 576) (k : Nat) (x : SlotCtl) (on : Bool) (b ref : Fin 64) (rel : Bool) (off : BitVec 32), s.issues n k x on →
    (on = false ∨ s.counterMet n k b ref rel off.toNat = true) →
    After (.cwait n x b ref rel off) s fun t => Moved s t n k ((s.cl n).ctx k).next) ∧
  (∀ (s : State) (n : Fin 576) (k : Nat) (x : SlotCtl) (b ref : Fin 64) (rel : Bool) (off : BitVec 32), s.issues n k x true →
    s.counterMet n k b ref rel off.toNat = false →
    After (.cwait n x b ref rel off) s fun t => OnlyCl s t n ∧ CtxSet (s.cl n) (t.cl n) k
      { (s.cl n).ctx k with st := .waiting, wait := .counter b ref rel off.toNat, accLive := x.accLive }) ∧
  (∀ (s : State) (n : Fin 576) (k : Fin 64) (v : BitVec 48) (step attempt : BitVec 8) (inst : Fin 64) (gen : BitVec 8) (src : BitVec 16),
    let c := s.cl n
    s.isFenced n = false → gen.toNat = s.gen inst → step.toNat = c.step % 256 → attempt.toNat = c.attempt % 256 →
    (∀ x, s.net.step = some x → x.released.contains n.val = true) → s.cc n k < v.toNat →
    (∀ e ∈ c.pairs, (s.setCc n k v.toNat src.toNat).pairDrift n e = none) → c.quiet →
    After (.mirrorUpdate n k v false step attempt inst gen src) s fun t => t.cc n k = v.toNat ∧ t.fd (Reg.CC_HI_LAST_SRC n k) = src.toNat ∧
      t.clusters = s.clusters ∧ t.outbox = s.outbox ∧ RegsBut s t [Reg.CC_LO n k, Reg.CC_HI n k] ∧ SameDram s t) ∧
  (∀ (s : State) (n : Fin 576) (k : Fin 64) (v : BitVec 48) (inst : Fin 64) (gen : BitVec 8),
    let c := s.cl n
    s.isFenced n = false → gen.toNat = s.gen inst → s.cc n k < v.toNat →
    (∀ e ∈ c.pairs, (s.setCc n k v.toNat (hubStop 6)).pairDrift n e = none) → c.quiet →
    After (.pkgMirrorUpdate n k v false inst gen) s fun t => t.cc n k = v.toNat ∧ t.clusters = s.clusters ∧ t.outbox = s.outbox ∧
      RegsBut s t [Reg.CC_LO n k, Reg.CC_HI n k] ∧ SameDram s t)

/-- PC_CTRL and the setting by hand take effect when writes are let through; lending starts and traced waits are recorded. With writes let
through: a PC_CTRL write that changes neither OWNED nor OWNER, names a vector in range and leaves no due interrupt takes effect by access
types alone; one that changes them with no plane bound restarts the counter at 0, and with a bound plane is refused and counted. A setting
by hand of a cluster counter with a matching complement, to a larger value, of a counter not locked, on a cluster not fenced, without drift
and with no context waiting, stores the value with RESULT 0 and DONE. A cluster with nothing to issue and no unit busy starts to lend. A
traced wait is recorded at its counter. Where the rules leave a reading open, the model's is taken: log entries 2, 18, 19. (09_counters_and_barriers.md, 21_setup_registers.md) -/
def Obligations.CountersAreSetByHandAndIdleClustersLend : Prop :=
  (∀ (s : State) (c : Fin 4096) (v : Word),
    let old := s.rg (Reg.PC_CTRL c)
    let new := plainWrite old v (regMasks (Reg.PC_CTRL c)).1 (regMasks (Reg.PC_CTRL c)).2
    s.open → bits old 28 22 = bits v 28 22 → bits v 10 0 < (if bits v 27 22 = 0 then 2048 else 32) →
    (s.plain (Reg.PC_CTRL c) v).on (Reg.PC_CTRL_IRQ_ARM c) = false →
    After (.pcCtrlWrite c v) s fun t => OnlyRegs s t [Reg.PC_CTRL c] ∧ t.rg (Reg.PC_CTRL c) = new) ∧
  (∀ (s : State) (c : Fin 4096) (v : Word), s.open → bits (s.rg (Reg.PC_CTRL c)) 28 22 ≠ bits v 28 22 → s.pkgBound c = false →
    bits v 10 0 < (if bits v 27 22 = 0 then 2048 else 32) →
    After (.pcCtrlWrite c v) s fun t => t.pc c = 0 ∧ t.clusters = s.clusters ∧ SameDram s t) ∧
  (∀ (s : State) (c : Fin 4096) (v : Word), s.open → bits (s.rg (Reg.PC_CTRL c)) 28 22 ≠ bits v 28 22 → s.pkgBound c = true →
    exec (.pcCtrlWrite c v) s = .next (s.inc Reg.PC_CTRL_REFUSED)) ∧
  (∀ (s : State),
    let v := (s.rg Reg.CNT_SET_VAL_LO).toNat + 2 ^ 32 * s.fd Reg.CNT_SET_VAL_HI_VALUE
    let n := s.fd Reg.CNT_SET_TARGET_PCLUSTER
    let i := s.fd Reg.CNT_SET_TARGET_INDEX
    s.open → s.rg Reg.CNT_SET_VAL_N_LO = ~~~(s.rg Reg.CNT_SET_VAL_LO) → s.fd Reg.CNT_SET_VAL_N_HI_VALUE_N = 65535 - s.fd Reg.CNT_SET_VAL_HI_VALUE →
    s.on Reg.CNT_SET_TARGET_PKG = false → n < 576 → i < 64 → s.isFenced n = false → (s.cl n).counterLocked i = false → s.cc n i < v →
    (∀ e ∈ (s.cl n).pairs, (s.setCc n i v (s.fd (Reg.CC_HI_LAST_SRC n i))).pairDrift n e = none) → (s.cl n).quiet →
    After .cntSetGo s fun t => t.cc n i = v ∧ t.on Reg.CNT_SET_STATUS_DONE = true ∧ t.fd Reg.CNT_SET_STATUS_RESULT = 0 ∧ t.clusters = s.clusters ∧
      SameDram s t ∧ RegsBut s t [Reg.CC_LO n i, Reg.CC_HI n i, Reg.CNT_SET_STATUS]) ∧
  (∀ (s : State) (n : Fin 576),
    let c := s.cl n
    c.lending = none → s.isFenced n = false → s.on (Reg.SEQ_DEBUG_HALT n) = false → s.on Reg.PWR_CTRL_MODE = false → c.running = none →
    c.switching = none → c.unitsIdle = true →
    exec (.lendStart n) s = .next ((s.setCl n { c with lending := some s.clk }).inc (Reg.LEND_EVENTS n))) ∧
  (∀ (s : State) (n : Fin 576) (p : Fin 8) (c : Fin 4) (k : Fin 256),
    let j := 4 * p.val + c.val
    let l := tget [] s.host.waiters k.val ++ [(ctxNode n j, s.waitGoal n j)]
    After (.traceNotice n p c k true) s fun t => tget [] t.host.waiters k.val = l ∧ t.fd (Reg.TR_WAITERS_COUNT k) = min l.length 255 ∧
      t.clusters = s.clusters ∧ SameDram s t ∧ RegsBut s t [Reg.TR_WAITERS k, Reg.TR_FIRST k, Reg.TR_TARGET k])

/-- BARRIER waits whatever its predicate; the node releases once all have arrived, a gated one once a firing is latched; the release lets the
waiting contexts go on. When context k of cluster n issues BARRIER, its predicate on or off, k waits at the barrier, no other context
changes, and no byte of DRAM. When every participant has arrived, and for a gated barrier a firing is latched, the node releases the episode
to all of them and consumes the firing. The release of the step's attempt and a current generation that reaches a cluster, which is not
stopped, makes each of its contexts that wait there READY or running one slot on, and clears BAR_STATUS.WAITING; contexts that do not wait
there stay. Where the rules leave a reading open, the model's is taken: log entries 13, 23, 24. (09_counters_and_barriers.md, 10_angle_time.md) -/
def Obligations.BarriersGatherAndRelease : Prop :=
  (∀ (s : State) (n : Fin 576) (k : Nat) (x : SlotCtl) (on : Bool) (bid : Fin 15), s.issues n k x on →
    After (.barrier n x bid) s fun t => CtxSet (s.cl n) (t.cl n) k
        { (s.cl n).ctx k with st := .waiting, wait := .barrier bid, accLive := x.accLive } ∧
      SameDram s t ∧ t.outbox = s.outbox ∧ RegsBut s t [Reg.BAR_STATUS n] ∧ ∀ m, m ≠ n.val → t.cl m = s.cl m) ∧
  (∀ (s : State) (x : StepSt) (sect : BitVec 16) (bid : Fin 15),
    let k := barKey sect.toNat bid
    let ps := s.participants x.slot sect.toNat bid
    s.net.step = some x → ps ≠ [] → (∀ l ∈ ps, (s.bar k).arrived.contains l = true) →
    (s.barrierGated sect.toNat bid = true → (s.bar k).latched = true) →
    exec (.barrierRelease sect bid) s =
      .next (s.setBar k ⟨[], ps, x.attempt, if s.barrierGated sect.toNat bid then false else (s.bar k).latched⟩)) ∧
  (∀ (s : State) (x : StepSt) (n : Fin 576) (bid : Fin 15) (attempt : BitVec 8) (inst : Fin 64) (gen : BitVec 8),
    let c := s.cl n
    let sect := (c.activePlane.map fun p => (c.plane p).sect).getD x.sect
    s.net.step = some x → (∃ l ∈ s.lcsOf n, (s.bar (barKey sect bid)).releasing.contains l = true) →
    attempt.toNat = x.attempt % 256 → inst.val = x.inst → gen.toNat = s.gen inst → c.stopped = false →
    After (.barrierReleaseArrive n bid attempt inst gen) s fun t => t.fd (Reg.BAR_STATUS_WAITING n) = 0 ∧ SameDram s t ∧
      (∀ k, k < 32 → (c.ctx k).st = .waiting → (c.ctx k).wait = .barrier bid →
        (((t.cl n).ctx k).st = .ready ∨ ((t.cl n).ctx k).st = .running) ∧ ((t.cl n).ctx k).slotPtr = (c.ctx k).slotPtr + 1) ∧
      (∀ k, k < 32 → ((c.ctx k).st ≠ .waiting ∨ (c.ctx k).wait ≠ .barrier bid) → (t.cl n).ctx k = c.ctx k) ∧
      (∀ l ∈ s.lcsOf n, (t.bar (barKey sect bid)).releasing.contains l = false))

/-- SEND takes a credit and sends a tile, RECV takes the oldest untaken one or waits, RELEASE frees it; tiles, credits and take notices that
arrive are taken in. When context k of cluster n issues SEND with a credit and no pending write on its lines: the endpoint has one credit
less and the next sequence number, the tile of those bytes leaves (a null tile when predicated off), CH_TILES_SENT advances and the context
moves on; with no credit the context waits. SEND in halo form sends its slab likewise when it lies in the extent. RECV, whatever its
predicate, takes the tile whose turn it is: the endpoint's count advances, the context moves on, and it knows whether the tile held data;
with none it waits. RELEASE of a taken tile with none spilled frees it and returns a credit. A fresh packet for an ACTIVE plane of a cluster
where no context waits, whose endpoint is no halo and whose buffer is free, puts its bytes in the buffer. A credit below the endpoint's
CREDITS, or below a FEED's limit, is added; a take notice that is due is counted. Where the rules leave a reading open, the model's is
taken: log entries 13, 44, 45. (08_streams_and_channels.md, 07_loop_tables.md) -/
def Obligations.ChannelsMoveTilesAndCredits : Prop :=
  (∀ (s : State) (n : Fin 576) (k : Nat) (x : SlotCtl) (on : Bool) (ep : Fin 8) (addr : BitVec 23) (m : BitVec 8), s.issues n k x on →
    let c := s.cl n
    let p := c.plane (k / 4)
    let e := c.sendEp (epKey k ep)
    let len := 64 * (m.toNat + 1)
    e.credits ≠ 0 → (on = true → c.mayRead [lineRange addr.toNat (addr.toNat + len)]) →
    After (.send n x ep addr m) s fun t => (t.cl n).sendEp (epKey k ep) =
        { e with credits := e.credits - 1, seq := e.seq + 1, takeSent := e.takeSent + b2n ((s.slot p.slot).exitChain p.sect) } ∧
      CtxSet c (t.cl n) k (c.ctx k).next ∧ (t.cl n).sp = c.sp ∧ (∀ j, j ≠ n.val → t.cl j = s.cl j) ∧ SameDram s t ∧
      (∃ dst, t.outbox = s.outbox ++ [.tile (p.sb ep 23 15) (p.sb ep 26 24) dst (k % 4) e.seq (! on) ((s.slot p.slot).exitChain p.sect) []
        (if on then c.rdN addr.toNat len else [])]) ∧ RegsBut s t [Reg.CH_TILES_SENT_LO n, Reg.CH_TILES_SENT_LO n + 4]) ∧
  (∀ (s : State) (n : Fin 576) (k : Nat) (x : SlotCtl) (on : Bool) (ep : Fin 8) (addr : BitVec 23) (m : BitVec 8), s.issues n k x on →
    ((s.cl n).sendEp (epKey k ep)).credits = 0 →
    After (.send n x ep addr m) s fun t => OnlyCl s t n ∧ CtxSet (s.cl n) (t.cl n) k
      { (s.cl n).ctx k with st := .waiting, wait := .credit ep, accLive := x.accLive }) ∧
  (∀ (s : State) (n : Fin 576) (k : Nat) (x : SlotCtl) (ep : Fin 8) (lt : Fin 16) (bindB upper : Bool) (f : Nat) (elems : List Nat),
    s.issues n k x true →
    let c := s.cl n
    let p := c.plane (k / 4)
    let e := c.sendEp (epKey k ep)
    let sl := p.slab c.bkt lt (b2n bindB) false upper
    let lines := (List.range sl.total).map fun i => let a := (p.slabAddr c.bkt lt (fmtWidth f) sl (c.ctx k).idx i).1.toNat / 64; (a, a)
    e.credits ≠ 0 → p.operandFmt lt sl.op = some f → c.mayRead lines → c.readSlab k lt f sl = (elems, none) →
    After (.sendHalo n x ep lt bindB upper) s fun t => (t.cl n).sendEp (epKey k ep) =
        { e with credits := e.credits - 1, seq := e.seq + 1, takeSent := e.takeSent + b2n ((s.slot p.slot).exitChain p.sect) } ∧
      CtxSet c (t.cl n) k (c.ctx k).next ∧ SameDram s t ∧
      ∃ dst, t.outbox = s.outbox ++ [.tile (p.sb ep 23 15) (p.sb ep 26 24) dst (k % 4) e.seq false ((s.slot p.slot).exitChain p.sect)
        (c.ctx k).idx (packElems (fmtWidth f) elems)]) ∧
  (∀ (s : State) (n : Fin 576) (k : Nat) (x : SlotCtl) (on : Bool) (ep pbit : Fin 8) (d : Tile), s.issues n k x on →
    ((s.cl n).recvEp (epKey k ep)).next = some d →
    After (.recv n x ep pbit) s fun t => ((t.cl n).recvEp (epKey k ep)).q = ((s.cl n).recvEp (epKey k ep)).q + 1 ∧
      ((t.cl n).ctx k).slotPtr = ((s.cl n).ctx k).slotPtr + 1 ∧ tget false ((t.cl n).ctx k).tiles ep = ! d.isNull ∧
      (∀ j, j ≠ k → (t.cl n).ctx j = (s.cl n).ctx j) ∧ SameDram s t ∧ t.regs = s.regs ∧ ∀ m, m ≠ n.val → t.cl m = s.cl m) ∧
  (∀ (s : State) (n : Fin 576) (k : Nat) (x : SlotCtl) (on : Bool) (ep pbit : Fin 8), s.issues n k x on →
    ((s.cl n).recvEp (epKey k ep)).next = none →
    After (.recv n x ep pbit) s fun t => OnlyCl s t n ∧ CtxSet (s.cl n) (t.cl n) k
      { (s.cl n).ctx k with st := .waiting, wait := .recv ep pbit, accLive := x.accLive }) ∧
  (∀ (s : State) (n : Fin 576) (k : Nat) (x : SlotCtl) (on : Bool) (ep : Fin 8) (d : Tile), s.issues n k x on →
    let r := (s.cl n).recvEp (epKey k ep)
    r.tiles.find? (·.taken) = some d → (∀ y ∈ r.tiles, y.spilledAt = none) →
    After (.release n x ep) s fun t => ((t.cl n).recvEp (epKey k ep)) = { r with tiles := r.tiles.filter fun y => y.seq ≠ d.seq } ∧
      CtxSet (s.cl n) (t.cl n) k ((s.cl n).ctx k).next ∧ (t.cl n).sp = (s.cl n).sp ∧ t.dram = s.dram ∧ t.regs = s.regs ∧
      (∃ lc e, t.outbox = s.outbox ++ [.credit lc e (k % 4)]) ∧ ∀ m, m ≠ n.val → t.cl m = s.cl m) ∧
  (∀ (s : State) (n : Fin 576) (q : TilePkt),
    let c := s.cl n
    let k := 4 * q.plane.val + q.ctx.val
    let p := c.plane q.plane
    let r := c.recvEp (epKey k q.ep)
    let a := p.bufAddr q.ep q.ctx q.seq + 1024 * q.index
    s.isFenced n = false → q.gen.toNat = s.gen q.inst → q.attempt.toNat = c.attempt % 256 → p.st = 3 → p.haloOf q.ep = none → q.isNull = false →
    r.occupied (p.bpc q.ep) q.seq = false → (∀ y ∈ r.tiles, y.seq = q.seq → q.index.val ∉ y.got ∧ y.taken = false ∧ y.held = []) → c.quiet →
    After (.tilePacketArrive n q) s fun t =>
      (∀ i, i < q.data.length → a + i < 0x600000 → (t.cl n).rd (a + i) = q.data.getD i 0#8) ∧
      (∀ b, b < a ∨ a + q.data.length ≤ b → (t.cl n).rd b = c.rd b) ∧
      (∃ y ∈ ((t.cl n).recvEp (epKey k q.ep)).tiles, y.seq = q.seq ∧ q.index.val ∈ y.got) ∧
      (t.cl n).ctxs = c.ctxs ∧ t.regs = s.regs ∧ t.dram = s.dram ∧ ∀ m, m ≠ n.val → t.cl m = s.cl m) ∧
  (∀ (s : State) (n : Fin 576) (p ep : Fin 8) (c : Fin 4) (src : BitVec 16) (srcEp : Fin 8),
    let d := s.cl n
    let k := 4 * p.val + c.val
    let e := d.sendEp (epKey k ep)
    s.isFenced n = false → e.credits < (d.plane p).sb ep 14 11 → d.quiet →
    exec (.creditArrive n p ep c none false src srcEp) s = .next (s.setCl n (d.setSend (epKey k ep) { e with credits := e.credits + 1 }))) ∧
  (∀ (s : State) (n : Fin 576) (p ep : Fin 8) (c : Fin 4) (f : Fin 16) (src : BitVec 16) (srcEp : Fin 8),
    let d := s.cl n
    let k := 4 * p.val + c.val
    let y := d.strm (strmKey k f)
    let limit := s.feedLimit (d.plane p) f
    s.isFenced n = false → y.credits.getD limit < limit →
    exec (.creditArrive n p ep c (some f) false src srcEp) s =
      .next (s.setCl n (d.setStrm (strmKey k f) { y with credits := some (y.credits.getD limit + 1) }))) ∧
  (∀ (s : State) (n : Fin 576) (p ep : Fin 8) (c : Fin 4) (src : BitVec 16) (srcEp : Fin 8),
    let d := s.cl n
    let k := 4 * p.val + c.val
    let e := d.sendEp (epKey k ep)
    s.isFenced n = false → e.takeGot < e.takeSent →
    exec (.takeNotice n p ep c false src srcEp) s = .next (s.setCl n (d.setSend (epKey k ep) { e with takeGot := e.takeGot + 1 })))

/-- START begins a transfer, WAIT, WAIT_ALL and ADVANCE move its counts or wait, and the engine starts and completes blocks. When context k of
cluster n issues on a stream: START with every earlier block passed and no scoreboard entry asked begins the transfer of the descriptor's
blocks with P, T and A at 0 (a store once no pending write meets its lines) and moves on; with the predicate off START, WAIT and ADVANCE
only move on. WAIT within B takes the next tile position when P has passed it, else waits. WAIT_ALL moves on when P is B, else waits.
ADVANCE within its limit adds 1 to A. The engine starts the next block of a started load, store or FEED whose gate allows it, whose cluster
is not fenced and whose lines lie in their area and windows. A started load whose pages are zeroed completes: its lines hold the DRAM bytes.
A presets' adoption takes the die's field of BW_SPLIT; with writes let through and no run in progress a BW_SPLIT write without a reserved
code takes effect, and during a run it is refused. Where the rules leave a reading open, the model's is taken: log entries 2, 8, 66. (08_streams_and_channels.md, 16_images_and_start.md, 15_dram_and_store.md) -/
def Obligations.StreamsStartAndPassTheirBlocks : Prop :=
  (∀ (s : State) (n : Fin 576) (k : Nat) (x : SlotCtl) (engine : Fin 4) (d : Fin 16), s.issues n k x true →
    let c := s.cl n
    let p := c.plane (k / 4)
    let y := c.strm (strmKey k d)
    let b := p.sBlocks c.bkt d
    y.b ≤ y.p → p.sd d 0 28 28 ≠ 1 → (p.sKind d = 1 ∨ p.sKind d = 4 → c.mayRead [p.sRange d b]) →
    After (.streamStart n x engine d) s fun t => OnlyCl s t n ∧ CtxSet c (t.cl n) k (c.ctx k).next ∧ (t.cl n).sp = c.sp ∧
      (t.cl n).strm (strmKey k d) = { noStrm with
        b := b, started := true, engine := engine, slot := (c.ctx k).slotPtr, credits := y.credits, seq := y.seq }) ∧
  (∀ (s : State) (n : Fin 576) (k : Nat) (x : SlotCtl) (engine : Fin 4) (d : Fin 16), s.issues n k x false →
    let moves (i : Instr) : Prop := After i s fun t => Moved s t n k ((s.cl n).ctx k).next
    moves (.streamStart n x engine d) ∧ moves (.streamWait n x d) ∧ moves (.streamWaitAll n x d) ∧ moves (.streamAdvance n x d)) ∧
  (∀ (s : State) (n : Fin 576) (k : Nat) (x : SlotCtl) (d : Fin 16), s.issues n k x true →
    let c := s.cl n
    let y := c.strm (strmKey k d)
    y.t ≠ y.b → y.t + 1 ≤ y.p →
    After (.streamWait n x d) s fun t => OnlyCl s t n ∧ CtxSet c (t.cl n) k (c.ctx k).next ∧
      t.cl n = { c with stepOne := false, ctxs := (t.cl n).ctxs, streams := tput c.streams (strmKey k d) { y with t := y.t + 1 } }) ∧
  (∀ (s : State) (n : Fin 576) (k : Nat) (x : SlotCtl) (d : Fin 16), s.issues n k x true →
    let y := (s.cl n).strm (strmKey k d)
    let waits (all : Bool) (i : Instr) : Prop := After i s fun t => OnlyCl s t n ∧ CtxSet (s.cl n) (t.cl n) k
      { (s.cl n).ctx k with st := .waiting, wait := .stream d all, accLive := x.accLive }
    (y.t ≠ y.b → y.p < y.t + 1 → waits false (.streamWait n x d)) ∧ (y.p ≠ y.b → waits true (.streamWaitAll n x d)) ∧
      (y.p = y.b → After (.streamWaitAll n x d) s fun t => Moved s t n k ((s.cl n).ctx k).next)) ∧
  (∀ (s : State) (n : Fin 576) (k : Nat) (x : SlotCtl) (d : Fin 16), s.issues n k x true →
    let c := s.cl n
    let p := c.plane (k / 4)
    let y := c.strm (strmKey k d)
    p.sSlots d ≠ 0 → p.sKind d ≠ 2 → y.a + 1 ≤ (if p.sKind d = 0 ∨ p.sKind d = 3 then y.t else y.b) →
    After (.streamAdvance n x d) s fun t => OnlyCl s t n ∧ CtxSet c (t.cl n) k (c.ctx k).next ∧
      t.cl n = { c with stepOne := false, ctxs := (t.cl n).ctxs, streams := tput c.streams (strmKey k d) { y with a := y.a + 1 } }) ∧
  (∀ (s : State) (n : Fin 576) (p : Fin 8) (c : Fin 4) (d : Fin 16) (x : StepSt) (b : BlockBase),
    let k := 4 * p.val + c.val
    let pl := (s.cl n).plane p
    let y := (s.cl n).strm (strmKey k d)
    s.net.step = some x → pl.slot = x.slot → s.isFenced n = false → y.started = true → y.faulted = false → y.next < y.b →
    s.blockGate pl d y = true → s.blockBase x pl c d y.next = some b → pl.sKind d < 2 → (∀ l ∈ pl.sBlockLines d b y.next, s.lineOk pl.inst b l.1 = true) →
    exec (.streamBlockStart n p c d) s =
      .next (s.setCl n ((s.cl n).setStrm (strmKey k d) { y with next := y.next + 1, flying := y.flying ++ [y.next] }))) ∧
  (∀ (s : State) (n : Fin 576) (p : Fin 8) (c : Fin 4) (d : Fin 16) (block : Nat) (x : StepSt) (b : BlockBase) (a : Int) (q : Nat),
    let k := 4 * p.val + c.val
    let pl := (s.cl n).plane p
    let y := (s.cl n).strm (strmKey k d)
    s.net.step = some x → y.flying.contains block = true → s.isFenced n = false → pl.sKind d = 0 → s.blockBase x pl c d block = some b →
    pl.sBlockLines d b block = [(a, q)] → s.rangeReady a.toNat 64 = true → (pl.sd d 12 31 31 = 0) → (s.cl n).quiet →
    After (.streamBlockComplete n p c d block) s fun t =>
      (∀ i, i < 64 → q + i < 0x600000 → (t.cl n).rd (q + i) = s.rdB (a.toNat + i)) ∧
      (∀ i, i < q ∨ q + 64 ≤ i → (t.cl n).rd i = (s.cl n).rd i) ∧ ((t.cl n).strm (strmKey k d)).flying = y.flying.erase block ∧
      SameDram s t ∧ t.outbox = s.outbox ∧ RegsBut s t [Reg.STR_BYTES_IN_LO n, Reg.STR_BYTES_IN_LO n + 4] ∧ ∀ m, m ≠ n.val → t.cl m = s.cl m) ∧
  (∀ (s : State) (st : Fin 8), exec (.bwPresetAdopt st) s =
    .next (s.setCtl st { s.ctl st with preset := bits (s.rg Reg.BW_SPLIT) (2 * (st.val / 2) + 1) (2 * (st.val / 2)) })) ∧
  (∀ (s : State) (v : Word), s.open →
    (s.runInProgress = false → (∀ d, d < 4 → bits v (2 * d + 1) (2 * d) ≠ 3) → exec (.bwSplitWrite v) s = .next (s.plain Reg.BW_SPLIT v)) ∧
    (s.runInProgress = true → After (.bwSplitWrite v) s fun t => OnlyRegs s t [Reg.BW_SPLIT] ∧ t.on Reg.BW_SPLIT_REFUSED = true ∧
      ∀ d, d < 4 → bits (t.rg Reg.BW_SPLIT) (2 * d + 1) (2 * d) = bits (s.rg Reg.BW_SPLIT) (2 * d + 1) (2 * d)))

/-- A write of a plain register sets its RW bits and clears its W1C bits; a refused write is only counted; 8 bytes are two writes, the lower
first. With READY set and no maintenance command running, a 4-byte write of a register without a condition of its own changes that register
alone: each RW bit takes the bit written, each W1C bit written 1 clears, every other bit stays. A write of another size or alignment, a
write before READY (SAVE of GS_SETUP apart), and a write while BUSY outside the MSI-X table have no effect but REJECTED_WRITES + 1 and the
offset in REJECTED_LAST. A write of 8 bytes has the effect of a write of its low word and then one of its high word at the offset plus 4. An
offset at or above 0xD00000 takes no write. Where the rules leave a reading open, the model's is taken: log entries 17. (21_setup_registers.md, 01_six_levels.md, 11_host_rings.md, 19_reset_and_management.md) -/
def Obligations.RegisterWritesFollowTheirAccessTypes : Prop :=
  (∀ (s : State) (v : BitVec 64) (vf : Bool) (off : Nat),
    off ∈ [Reg.TB_OFFSET, Reg.TB_OUT_CTRL, Reg.IRQ_MAP 3, Reg.IRQ_STATUS, Reg.INST_EVENTS 63, Reg.XCH_BC_SRC_LO 5, Reg.FL_MC_SEL, Reg.FL_REPORT_DST,
      Reg.SES_SEL] → s.open →
    After (.registerWrite (BitVec.ofNat 24 off) 4 v vf) s fun t => OnlyRegs s t [off] ∧ ∀ k, k < 32 →
      (t.rg off).getLsbD k = ((if (regMasks off).1.testBit k then v.getLsbD k else (s.rg off).getLsbD k) &&
        ! ((regMasks off).2.testBit k && v.getLsbD k))) ∧
  (∀ (s : State) (off : BitVec 24) (size : Nat) (v : BitVec 64) (vf : Bool),
    (sizeOk off.toNat size = false ∨ (s.on Reg.GS_STATUS_READY = false ∧ off.toNat ≠ Reg.GS_SETUP) ∨
      (s.on Reg.GS_STATUS_READY = true ∧ s.on Reg.MAINT_STATUS_BUSY = true ∧ (off.toNat < 0x300000 ∨ 0x308100 ≤ off.toNat))) →
    After (.registerWrite off size v vf) s fun t => OnlyRegs s t [Reg.REJECTED_WRITES, Reg.REJECTED_LAST] ∧
      t.rg Reg.REJECTED_WRITES = s.rg Reg.REJECTED_WRITES + 1 ∧ t.fd Reg.REJECTED_LAST_OFFSET = off.toNat) ∧
  (∀ (s t u : State) (off : BitVec 24) (v : BitVec 64) (vf : Bool), off.toNat % 8 = 0 → s.open → t.open →
    exec (.registerWrite off 4 v vf) s = .next t → exec (.registerWrite (off + 4) 4 (v >>> 32) vf) t = .next u →
    exec (.registerWrite off 8 v vf) s = .next u) ∧
  (∀ (s : State) (off : BitVec 24) (v : BitVec 64) (vf : Bool), 0xD00000 ≤ off.toNat → off.toNat % 4 = 0 → s.open →
    Passes (.registerWrite off 4 v vf) s)

/-- A register read answers its value, or the requester's latched value; a read of a _LO register or TB_NOW_TURN latches the partner. A 4-byte
read of an aligned offset that recovery does not refuse, other than SP_DBG_DATA: with a latch held for the requester it answers the latched
value and the latch is gone; with none it answers what the register shows. A read of a _LO register, or of TB_NOW_TURN, leaves the partner's
latch set for that requester; for TB_NOW_TURN the latch holds the angle of the same instant. A read of 8 aligned bytes answers both
registers and leaves neither latched. No register and no byte of DRAM changes. Recovery answers only the identity block. Where the rules
leave a reading open, the model's is taken: log entries 2, 16. (21_setup_registers.md) -/
def Obligations.ReadsAnswerAndLatchTheirPartners : Prop :=
  (∀ (s : State) (mc : Bool) (off : BitVec 24), s.readServed off.toNat = true → dbgData off.toNat = false → off.toNat % 4 = 0 →
    After (.latchedRead mc off 4) s fun t =>
      t = { s with outbox := t.outbox, freeCount := t.freeCount, host := { s.host with latches := t.host.latches } } ∧
      t.outbox = s.outbox ++ [.regRead mc off.toNat (if thas s.host.latches (latchKey mc off.toNat)
        then tget 0 s.host.latches (latchKey mc off.toNat) else (s.view off.toNat).1)] ∧
      (setsLatch off.toNat = false → thas t.host.latches (latchKey mc off.toNat) = false) ∧
      (setsLatch off.toNat = true → thas t.host.latches (latchKey mc (off.toNat + 4)) = true)) ∧
  (∀ (s : State) (mc : Bool), s.readServed Reg.TB_NOW_TURN = true → thas s.host.latches (latchKey mc Reg.TB_NOW_TURN) = false →
    After (.latchedRead mc (BitVec.ofNat 24 Reg.TB_NOW_TURN) 4) s fun t =>
      t.outbox = s.outbox ++ [.regRead mc Reg.TB_NOW_TURN (BitVec.ofNat 32 s.time.turn)] ∧
      tget 0 t.host.latches (latchKey mc Reg.TB_NOW_ANGLE) = BitVec.ofNat 32 s.time.angle) ∧
  (∀ (s : State) (mc : Bool) (off : BitVec 24), s.readServed off.toNat = true → dbgData off.toNat = false → off.toNat % 8 = 0 →
    After (.latchedRead mc off 8) s fun t =>
      t = { s with outbox := t.outbox, freeCount := t.freeCount, host := { s.host with latches := t.host.latches } } ∧
      t.outbox = s.outbox ++ [.regRead mc off.toNat (s.view off.toNat).1, .regRead mc (off.toNat + 4) ((s.view off.toNat).2.view (off.toNat + 4)).1] ∧
      thas t.host.latches (latchKey mc off.toNat) = false ∧ thas t.host.latches (latchKey mc (off.toNat + 4)) = false) ∧
  (∀ (s : State) (mc : Bool) (off : BitVec 24) (size : Nat), s.on Reg.GS_STATUS_RECOVERY = true → 0x100 ≤ off.toNat →
    Passes (.latchedRead mc off size) s)

/-- AGE advances and saturates, a packet is delivered or dropped at a fenced cluster, and a failed wire group gives way to the spare. AGE of the
k-th packet in the mesh advances by 1, at most to 4,095, and no other packet changes. A packet for a fenced cluster leaves the mesh and is
counted in its region; every other packet leaves it as delivered; nothing else differs. A wire group that fails on a link of a bridge is
held as failed with the spare in use, and a report of UNIT 9 sets out; one that has failed already changes nothing. Where the rules leave a
reading open, the model's is taken: log entries 49. (01_six_levels.md) -/
def Obligations.MeshAndBridgesCarryPackets : Prop :=
  (∀ (s : State) (k : Nat), After (.ageIncrement k) s fun t => t = { s with mesh := t.mesh } ∧ t.mesh.length = s.mesh.length ∧
    ∀ j p, s.mesh[j]? = some p → t.mesh[j]? = some (if j = k then { p with age := if p.age = 4095#12 then 4095#12 else p.age + 1 } else p)) ∧
  (∀ (s : State) (p : MeshPkt), (stopKind p.dst.toNat ≠ 0 ∨ s.isFenced (stopCluster p.dst.toNat) = false) →
    After (.meshPacketArrive p) s fun t => t = { s with mesh := s.mesh.erase p, outbox := s.outbox ++ [.delivered p] }) ∧
  (∀ (s : State) (p : MeshPkt), stopKind p.dst.toNat = 0 → s.isFenced (stopCluster p.dst.toNat) = true →
    After (.meshPacketArrive p) s fun t => t = { s with mesh := s.mesh.erase p, meshDropped := t.meshDropped } ∧
      ∀ g, tget 0 t.meshDropped g = tget 0 s.meshDropped g + b2n (g == stopRegion p.dst.toNat)) ∧
  (∀ (s : State) (b : Fin 8) (l : Fin 2) (g : BitVec 8), (tget noBridge s.bridges (2 * b.val + l.val)).failed.contains g.toNat = false →
    After (.bridgeGroupFail b l g) s fun t => (tget noBridge t.bridges (2 * b.val + l.val)).failed.contains g.toNat = true ∧
      (tget noBridge t.bridges (2 * b.val + l.val)).spareUsed = true ∧
      (∀ k, k ≠ 2 * b.val + l.val → tget noBridge t.bridges k = tget noBridge s.bridges k) ∧
      (∃ stop, t.repair.inFlight = s.repair.inFlight ++ [⟨stop, 9, g.toNat, true⟩]) ∧
      t = { s with bridges := t.bridges, repair := { s.repair with inFlight := t.repair.inFlight } }) ∧
  (∀ (s : State) (b : Fin 8) (l : Fin 2) (g : BitVec 8), (tget noBridge s.bridges (2 * b.val + l.val)).failed.contains g.toNat = true →
    Passes (.bridgeGroupFail b l g) s)

/-- A fresh write changes its bytes, closes its lines' merge entries and is acknowledged; a read joins or opens an entry and is answered. On
zeroed pages that are not being copied: a write of a current generation that belongs to no step leaves each byte it covers as its data and
every other byte of DRAM; no read of a line it touches takes further joiners; its page has no backing tag; it is acknowledged. A stale write
changes nothing. A read of a line with an open entry joins it; with none, its line is held, as it reads at arrival, with the requester. A
read of an address without storage changes nothing; one of an unzeroed page waits and demands the page. A merge window's end stops joining.
A read that completes clean answers each requester whose generation still stands, and counts link retries. Where the rules leave a reading
open, the model's is taken: log entries 8, 34. (01_six_levels.md, 15_dram_and_store.md, 17_repair.md, 11_host_rings.md) -/
def Obligations.DramServesReadsAndWrites : Prop :=
  (∀ (s : State) (st : Fin 8) (src : BitVec 16) (i : Fin 64) (gen : BitVec 8) (addr : BitVec 40) (data : List Byte),
    let a := addr.toNat
    gen.toNat = s.gen i → a < dramSize → s.rangeReady a data.length = true → s.held st a = false →
    After (.dramWriteArrive st src i gen none addr data) s fun t =>
      (∀ k, k < data.length → a + k < dramSize → t.rdB (a + k) = data.getD k 0#8) ∧
      (∀ b, b < a ∨ a + data.length ≤ b → t.rdB b = s.rdB b) ∧ (∀ e ∈ (t.ctl st).reads, e.line = a / 64 → data ≠ [] → e.joinable = false) ∧
      tget 0 t.mem.tags (a / 4096) = 0 ∧ t.outbox = s.outbox ++ [.dramAck src.toNat a] ∧ t.regs = s.regs ∧ t.clusters = s.clusters) ∧
  (∀ (s : State) (st : Fin 8) (src : BitVec 16) (i : Fin 64) (gen : BitVec 8) (at? : Option (BitVec 8)) (addr : BitVec 40) (data : List Byte),
    gen.toNat ≠ s.gen i → Passes (.dramWriteArrive st src i gen at? addr data) s) ∧
  (∀ (s : State) (st : Fin 8) (req : BitVec 16) (i : Fin 64) (gen : BitVec 8) (addr : BitVec 40),
    let a := addr.toNat
    a < dramSize → s.rangeReady (a / 64 * 64) 64 = true → s.held st a = false →
    After (.dramReadArrive st req i gen addr) s fun t => t = { s with mem := { s.mem with ctl := t.mem.ctl } } ∧
      (∀ k, k ≠ st.val → t.ctl k = s.ctl k) ∧
      ∃ e ∈ (t.ctl st).reads, e.line = a / 64 ∧ (req.toNat, i.val, gen.toNat) ∈ e.requesters ∧
        ((∀ y ∈ (s.ctl st).reads, y.line = a / 64 → y.joinable = false) → e.data = s.rdBytes (a / 64 * 64) 64 ∧
          (t.ctl st).reads = (s.ctl st).reads ++ [e])) ∧
  (∀ (s : State) (st : Fin 8) (req : BitVec 16) (i : Fin 64) (gen : BitVec 8) (addr : BitVec 40), dramSize ≤ addr.toNat →
    Passes (.dramReadArrive st req i gen addr) s) ∧
  (∀ (s : State) (st : Fin 8) (req : BitVec 16) (i : Fin 64) (gen : BitVec 8) (addr : BitVec 40),
    addr.toNat < dramSize → s.pageZeroed (addr.toNat / 2 ^ 21) = false →
    After (.dramReadArrive st req i gen addr) s fun t => t.mem.waiting = s.mem.waiting ++ [⟨req.toNat, i, gen.toNat, addr.toNat, false, []⟩] ∧
      addr.toNat / 2 ^ 21 ∈ t.mem.demand ∧ t = { s with mem := { s.mem with waiting := t.mem.waiting, demand := t.mem.demand } }) ∧
  (∀ (s : State) (st : Fin 8) (line : BitVec 34), After (.mergeWindowExpire st line) s fun t =>
    (∀ e ∈ (t.ctl st).reads, e.line = line.toNat → e.joinable = false) ∧ (t.ctl st).reads.map (·.requesters) = (s.ctl st).reads.map (·.requesters) ∧
      t = { s with mem := { s.mem with ctl := t.mem.ctl } } ∧ ∀ k, k ≠ st.val → t.ctl k = s.ctl k) ∧
  (∀ (s : State) (st : Fin 8) (k row pc retries : Nat) (use : ReadUse) (again : Bool) (e : MergeEntry), (s.ctl st).reads[k]? = some e →
    After (.dramReadComplete st k .clean row pc retries use again) s fun t =>
      t.outbox = s.outbox ++ ((e.requesters.filter fun r => s.gen r.2.1 == r.2.2).map fun r => .dramReply r.1 e.line e.data) ∧
      (t.ctl st).reads = (s.ctl st).reads.eraseIdx k ∧ t.dram = s.dram ∧ OnlyRegs { s with mem := t.mem, outbox := t.outbox } t [Reg.DRAM_LINK_RETRY st] ∧
      t.rg (Reg.DRAM_LINK_RETRY st) = s.rg (Reg.DRAM_LINK_RETRY st) + BitVec.ofNat 32 retries)

/-- Retirement, row sparing and pseudo-channel migration end with their counts, and a page that is zeroed holds zeros. When a page's copy ends,
the page is retired, DRAM_STATUS.RETIRED shows the number of retired pages of the stack, and no page is being copied. When a row swap ends,
the row is spared and DRAM_s_ROWS_SPARED advances. When a migration ends, MIGRATING clears and SPARE_PC sets. With none under way each has
no effect. When the zeroing engine ends a page: with no access waiting, every byte of the page reads 0, every other byte of DRAM stays, the
page counts as zeroed, is demanded no more, and no instance's list holds it. With no page left, BUSY clears. Where the rules leave a reading
open, the model's is taken: log entries 33. (15_dram_and_store.md, 11_host_rings.md) -/
def Obligations.DramRepairsAndZeroing : Prop :=
  (∀ (s : State) (st : Fin 8) (p : Nat), (s.ctl st).copying = some p → (s.ctl st).retired.length + 1 < 2 ^ 15 → s.mem.waiting = [] →
    After (.pageRetirementDone st) s fun t => (t.ctl st).retired = (s.ctl st).retired ++ [p] ∧ (t.ctl st).copying = none ∧
      t.fd (Reg.DRAM_STATUS_RETIRED st) = (s.ctl st).retired.length + 1 ∧ t.clusters = s.clusters ∧ t.dram = s.dram ∧ t.outbox = s.outbox ∧
      RegsBut s t [Reg.DRAM_STATUS st] ∧ ∀ k, k ≠ st.val → t.ctl k = s.ctl k) ∧
  (∀ (s : State) (st : Fin 8), (s.ctl st).copying = none → Passes (.pageRetirementDone st) s) ∧
  (∀ (s : State) (st : Fin 8) (r : Nat), (s.ctl st).swapping = some r → s.mem.waiting = [] →
    After (.rowSwapDone st) s fun t => (t.ctl st).spared = (s.ctl st).spared ++ [r] ∧ (t.ctl st).swapping = none ∧
      t.rg (Reg.DRAM_ROWS_SPARED st) = s.rg (Reg.DRAM_ROWS_SPARED st) + 1 ∧ t.clusters = s.clusters ∧ t.dram = s.dram ∧ t.outbox = s.outbox ∧
      RegsBut s t [Reg.DRAM_STATUS st, Reg.DRAM_ROWS_SPARED st] ∧ ∀ k, k ≠ st.val → t.ctl k = s.ctl k) ∧
  (∀ (s : State) (st : Fin 8), (s.ctl st).swapping = none → Passes (.rowSwapDone st) s) ∧
  (∀ (s : State) (st : Fin 8), s.on (Reg.DRAM_STATUS_MIGRATING st) = true →
    After (.pseudoChannelMigrateDone st) s fun t => t.on (Reg.DRAM_STATUS_MIGRATING st) = false ∧ t.on (Reg.DRAM_STATUS_SPARE_PC st) = true ∧
      t.fd (Reg.DRAM_STATUS_RETIRED st) = s.fd (Reg.DRAM_STATUS_RETIRED st) ∧ OnlyRegs s t [Reg.DRAM_STATUS st]) ∧
  (∀ (s : State) (st : Fin 8), s.on (Reg.DRAM_STATUS_MIGRATING st) = false → Passes (.pseudoChannelMigrateDone st) s) ∧
  (∀ (s : State) (p : Nat), (s.mem.zeroBusy = some p ∨ (s.mem.zeroBusy = none ∧ s.nextZero = some p)) → s.mem.waiting = [] →
    After .dramPageZeroed s fun t => (∀ a, p * 2 ^ 21 ≤ a → a < (p + 1) * 2 ^ 21 → t.rdB a = 0#8) ∧
      (∀ a, a < p * 2 ^ 21 ∨ (p + 1) * 2 ^ 21 ≤ a → t.rdB a = s.rdB a) ∧ t.pageZeroed p = true ∧ p ∉ t.mem.demand ∧
      (∀ e ∈ t.mem.instZero, p ∉ e.2) ∧ t.clusters = s.clusters ∧ t.outbox = s.outbox ∧
      RegsBut s t (Reg.ZERO_STATUS :: (List.range 64).map Reg.INST_STATUS)) ∧
  (∀ (s : State), s.mem.zeroBusy = none → s.nextZero = none →
    After .dramPageZeroed s fun t => t.on Reg.ZERO_STATUS_BUSY = false ∧ OnlyRegs s t [Reg.ZERO_STATUS])

/-- An armed interrupt whose counter reaches IRQ_AT fires once, after the notify record of that value; an arm that is already reached fires at
once. When an instance signals a package counter it owns with INC > 0, the counter holds min(value + INC, 2^48 - 1), and the device sends
the value to the counter's mirrors. With IRQ_ARM set and VALUE[31:0] - IRQ_AT, as a signed 32-bit value, 0 or more, IRQ_ARM clears and the
vector VECTOR of the owning instance is raised, last, after the notify record if one is due; with it below 0, or IRQ_ARM clear, no vector is
raised and IRQ_ARM stays. The host rearms by writing IRQ_AT and then setting IRQ_ARM: a write of IRQ_AT with IRQ_ARM clear stores it and
raises nothing; a write of PC_CTRL that sets IRQ_ARM with ownership unchanged raises the vector at once when the target is reached, and
IRQ_ARM is clear afterwards, and leaves it armed when not. (R306) -/
def Obligations.PackageCountersFireTheirInterrupts : Prop :=
  (∀ (s : State) (i : Fin 64) (c : Fin 4096) (v : BitVec 64),
    let new := min (s.pc c + (v.extractLsb' 0 32).toNat) (2 ^ 48 - 1)
    let reached := decide (0 ≤ (lo32 new - s.rg (Reg.PC_IRQ_AT c)).toInt)
    let w := [lo32 new, hi32 new]
    s.bellsOpen i → s.sends → bellOk 8 v = true → v.extractLsb' 0 32 ≠ 0 → s.pcOwned c i = true →
    After (.counterSignal i c 8 v) s fun t => t.pc c = new ∧
      t.on (Reg.PC_CTRL_IRQ_ARM c) = (s.on (Reg.PC_CTRL_IRQ_ARM c) && ! reached) ∧
      t.outbox = s.outbox ++ [.counterUpdate c new] ++
        (if s.on (Reg.PC_CTRL_NOTIFY_EN c) && s.on (Reg.NOTIFY_LO_VALID i) then
          [.hostWrite i (s.fd (Reg.NOTIFY_LO_ADDR i) * 2 ^ 16 + (s.rg (Reg.NOTIFY_HI i)).toNat * 2 ^ 32 + 16 * c.val) (w ++ w.map (~~~ ·))] else []) ++
        (if s.on (Reg.PC_CTRL_IRQ_ARM c) && reached then [.msix i (s.fd (Reg.PC_CTRL_VECTOR c))] else []) ∧
      SameArray s t) ∧
  (∀ (s : State) (c : Fin 4096) (v : BitVec 64) (vf : Bool), s.open → s.on (Reg.PC_CTRL_IRQ_ARM c) = false →
    After (.registerWrite (BitVec.ofNat 24 (Reg.PC_IRQ_AT c)) 4 v vf) s fun t =>
      t.rg (Reg.PC_IRQ_AT c) = v.extractLsb' 0 32 ∧ OnlyRegs s t [Reg.PC_IRQ_AT c]) ∧
  (∀ (s : State) (c : Fin 4096) (v : Word),
    let reached := decide (0 ≤ (s.rg (Reg.PC_VALUE_LO c) - s.rg (Reg.PC_IRQ_AT c)).toInt)
    s.open → s.sends → bits (s.rg (Reg.PC_CTRL c)) 28 22 = bits v 28 22 → bits v 10 0 < (if bits v 27 22 = 0 then 2048 else 32) →
    (s.plain (Reg.PC_CTRL c) v).on (Reg.PC_CTRL_IRQ_ARM c) = true →
    After (.pcCtrlWrite c v) s fun t => t.on (Reg.PC_CTRL_IRQ_ARM c) = ! reached ∧ t.pc c = s.pc c ∧
      t.outbox = s.outbox ++ (if reached then [.msix (bits v 27 22) (bits v 10 0)] else []))

/-- SIGNAL adds to a package counter; WAIT is met when the counter is at least its 48-bit target. A SIGNAL descriptor of an instance that owns
the counter adds INC to it, as COUNTER_SIGNAL does, and ends OK. A WAIT on an owned counter that holds at least TARGET ends OK; below TARGET
it stays running, and it ends OK when an advance, by a SIGNAL or by COUNTER_SIGNAL, makes the counter at least TARGET, and not before. (R304) -/
def Obligations.SignalAndWaitDescriptorsActOnPackageCounters : Prop :=
  (∀ (s : State) (r : Fin 4096) (pos : Word) (id : Nat) (d : Desc), s.hasWork r pos 4 id d →
    let c := bits (d.w 4) 11 0
    s.pcOwned c d.inst = true →
    After (.signal r pos) s fun t => t.pc c = min (s.pc c + (d.w 5).toNat) (2 ^ 48 - 1) ∧ (t.desc id).state = .ended ∧ (t.desc id).status = 0 ∧
      (∀ j, (s.desc j).waitsOn c = true → thas s.host.descs j = true → j ≠ id →
        ((t.desc j).state = .ended ↔ waitTarget (s.desc j) ≤ t.pc c) ∧ (t.desc j).status = (s.desc j).status) ∧ SameArray s t) ∧
  (∀ (s : State) (i : Fin 64) (c : Fin 4096) (v : BitVec 64) (j : Nat), s.bellsOpen i → bellOk 8 v = true → v.extractLsb' 0 32 ≠ 0 →
    s.pcOwned c i = true → (s.desc j).waitsOn c = true → thas s.host.descs j = true →
    After (.counterSignal i c 8 v) s fun t => ((t.desc j).state = .ended ↔ waitTarget (s.desc j) ≤ t.pc c) ∧ (t.desc j).status = (s.desc j).status) ∧
  (∀ (s : State) (r : Fin 4096) (pos : Word) (id : Nat) (d : Desc), s.hasWork r pos 5 id d →
    let c := bits (d.w 4) 11 0
    s.pcOwned c d.inst = true → waitTarget d ≤ s.pc c →
    After (.wait r pos) s fun t => EndedDesc s t id 0 0 ∧ OnlyHost s t) ∧
  (∀ (s : State) (r : Fin 4096) (pos : Word) (id : Nat) (d : Desc), s.hasWork r pos 5 id d →
    let c := bits (d.w 4) 11 0
    s.pcOwned c d.inst = true → s.pc c < waitTarget d →
    After (.wait r pos) s fun t => (t.desc id).waitsOn c = true ∧ (t.desc id).words = d.words ∧ (∀ j, j ≠ id → t.desc j = s.desc j) ∧
      SameArray s t ∧ t.outbox = s.outbox ∧ t.pc c = s.pc c)

/-- A doorbell in range moves its ring's tail or head, a staged tail is kept, and one out of range, mismatched or of an instance in reset is
counted. For an instance not in reset with READY set, and an 8-byte write whose halves are complements: a submission doorbell with a tail in
range becomes SQ_TAIL; an equal tail, or one for no enabled ring, has no effect; one out of range changes no position, counts in
RC_DB_DISCARD, and sets SQ_ERR with code 1. A staged tail in range is kept and changes no register. A completion head at most the
completions written becomes CQ_HEAD, and one beyond sets SQ_ERR with code 2. COUNTER_SIGNAL with INC 0 has no effect, and of a counter not
owned counts in PC_SIG_REFUSED. A write of another size, or with a mismatch, advances FH_CPL_MISMATCH and moves nothing. In reset each write
is counted in INST_DISCARDS alone, before READY in HL_DB_DISCARD alone. Where the rules leave a reading open, the model's is taken: log
entries 40. (11_host_rings.md, 09_counters_and_barriers.md) -/
def Obligations.DoorbellsMoveTheirPositions : Prop :=
  (∀ (s : State) (i loc : Fin 64) (v : BitVec 64) (r : Fin 4096), s.bellsOpen i → bellOk 8 v = true → s.ringAt true i loc = some r.val →
    let t0 := v.extractLsb' 0 32
    (tailOk t0 (s.rg (Reg.RC_SQ_TAIL r)) (s.rg (Reg.RC_SQ_HEAD r)) (s.fd (Reg.RC_CTRL_SQ_LOG2 r)) = true →
      (After (.sqDoorbell i loc 8 v) s fun t => t.rg (Reg.RC_SQ_TAIL r) = t0 ∧ RegsBut s t [Reg.RC_SQ_TAIL r, Reg.PWR_STATUS] ∧ SameArray s t) ∧
      (t0 = s.rg (Reg.RC_SQ_TAIL r) → Passes (.sqDoorbell i loc 8 v) s) ∧
      After (.stagedTailWrite i loc 8 v) s fun t => (t.ring r).stagedTail = some t0.toNat ∧ OnlyHost s t ∧ ∀ k, k ≠ r.val → t.ring k = s.ring k) ∧
    (tailOk t0 (s.rg (Reg.RC_SQ_TAIL r)) (s.rg (Reg.RC_SQ_HEAD r)) (s.fd (Reg.RC_CTRL_SQ_LOG2 r)) = false →
      ∀ c ∈ [Instr.sqDoorbell i loc 8 v, .stagedTailWrite i loc 8 v],
      After c s fun t => t.rg (Reg.RC_DB_DISCARD r) = s.rg (Reg.RC_DB_DISCARD r) + 1 ∧ t.on (Reg.RC_STATUS_SQ_ERR r) = true ∧
        t.fd (Reg.RC_STATUS_ERR_CODE r) = 1 ∧ t.host = s.host ∧ SameArray s t ∧
        RegsBut s t [Reg.RC_DB_DISCARD r, Reg.RC_STATUS r, Reg.INST_EVENTS i, Reg.IRQ_STATUS])) ∧
  (∀ (s : State) (i loc : Fin 64) (v : BitVec 64), s.bellsOpen i → bellOk 8 v = true → s.ringAt true i loc = none →
    Passes (.sqDoorbell i loc 8 v) s ∧ Passes (.stagedTailWrite i loc 8 v) s) ∧
  (∀ (s : State) (i loc : Fin 64) (v : BitVec 64) (r : Fin 4096), s.bellsOpen i → bellOk 8 v = true → s.ringAt false i loc = some r.val →
    let h := v.extractLsb' 0 32
    let ok := (h - s.rg (Reg.RC_CQ_HEAD r)).toNat ≤ (s.rg (Reg.RC_CQ_WRITTEN r) - s.rg (Reg.RC_CQ_HEAD r)).toNat
    (ok → After (.cqDoorbell i loc 8 v) s fun t => t.rg (Reg.RC_CQ_HEAD r) = h ∧ t.host = s.host ∧ SameArray s t ∧ t.outbox = s.outbox ∧
      RegsBut s t [Reg.RC_CQ_HEAD r, Reg.RC_STATUS r, Reg.PWR_STATUS]) ∧
    (¬ ok → After (.cqDoorbell i loc 8 v) s fun t => t.rg (Reg.RC_CQ_HEAD r) = s.rg (Reg.RC_CQ_HEAD r) ∧ t.on (Reg.RC_STATUS_SQ_ERR r) = true ∧
      t.fd (Reg.RC_STATUS_ERR_CODE r) = 2 ∧ t.host = s.host ∧ SameArray s t)) ∧
  (∀ (s : State) (i : Fin 64) (c : Fin 4096) (v : BitVec 64), s.bellsOpen i → bellOk 8 v = true →
    (v.extractLsb' 0 32 = 0 → Passes (.counterSignal i c 8 v) s) ∧
    (v.extractLsb' 0 32 ≠ 0 → s.pcOwned c i = false → exec (.counterSignal i c 8 v) s = .next (s.inc Reg.PC_SIG_REFUSED))) ∧
  (∀ (s : State) (i loc : Fin 64) (c : Fin 4096) (n : Nat) (v : BitVec 64),
    ∀ x ∈ [Instr.sqDoorbell i loc n v, .cqDoorbell i loc n v, .stagedTailWrite i loc n v, .counterSignal i c n v],
    (s.bellsOpen i → bellOk n v = false → After x s fun t => t.rg Reg.FH_CPL_MISMATCH = s.rg Reg.FH_CPL_MISMATCH + 1 ∧ t.host = s.host ∧
      SameArray s t ∧ RegsBut s t [Reg.FH_CPL_MISMATCH, Reg.HL_DB_DISCARD, Reg.PC_SIG_DISCARD, Reg.IRQ_STATUS]) ∧
    (s.on (Reg.INST_STATUS_IN_RESET i) = true → exec x s = .next (s.inc (Reg.INST_DISCARDS i))) ∧
    (s.on (Reg.INST_STATUS_IN_RESET i) = false → s.on Reg.GS_STATUS_READY = false → exec x s = .next (s.inc Reg.HL_DB_DISCARD)))

/-- A fetched descriptor that checks is in flight at the next position, and a granted ring's next descriptor is admitted at HEAD. A fetch at the
next position below the tail of an enabled ring: words that pass the checks of R368 are in flight there as fetched under the ring's owner
and its generation, and the next position is one further; words that fail count a failure and leave the position, and the fourth failure
puts them in flight rejected with BAD_DESC. With no position to fetch there is no effect. When the arbiter's turn grants an active ring and
nothing holds admission, HEAD advances, the descriptor is admitted (or ends, where its checks rejected it), and one completion is reserved.
An instance of the same ring gets no second grant in a round, and nothing is admitted while admission is held. Where the rules leave a
reading open, the model's is taken: log entries 41, 80. (11_host_rings.md, 19_reset_and_management.md) -/
def Obligations.DescriptorsAreFetchedAndAdmitted : Prop :=
  (∀ (s : State) (r : Fin 4096) (ws : List Word),
    let x := s.ring r
    s.on (Reg.RC_CTRL_SQ_EN r) = true → (s.rg (Reg.RC_SQ_TAIL r)).toNat ≠ x.fetchPos →
    (descOk ws x.fetchPos = true ∨ x.failures = 3) →
    After (.descriptorFetch r ws) s fun t => (t.desc s.host.nextDesc).ring = r ∧ (t.desc s.host.nextDesc).pos = x.fetchPos ∧
      (t.desc s.host.nextDesc).words = ws ∧ (t.desc s.host.nextDesc).state = .fetched ∧
      (t.desc s.host.nextDesc).inst = s.fd (Reg.RC_CTRL_OWNER r) ∧ (t.desc s.host.nextDesc).gen = s.gen (s.fd (Reg.RC_CTRL_OWNER r)) ∧
      ((t.desc s.host.nextDesc).status = if descOk ws x.fetchPos then 0 else 4) ∧ ((t.desc s.host.nextDesc).detail = if descOk ws x.fetchPos then 0 else 18) ∧
      (t.ring r).fetchPos = (x.fetchPos + 1) % 2 ^ 32 ∧ (t.ring r).failures = 0 ∧ (∀ j, j ≠ s.host.nextDesc → t.desc j = s.desc j) ∧
      SameArray s t ∧ RegsBut s t [Reg.FH_CPL_MISMATCH]) ∧
  (∀ (s : State) (r : Fin 4096) (ws : List Word),
    let x := s.ring r
    s.on (Reg.RC_CTRL_SQ_EN r) = true → (s.rg (Reg.RC_SQ_TAIL r)).toNat ≠ x.fetchPos → descOk ws x.fetchPos = false → x.failures < 3 →
    After (.descriptorFetch r ws) s fun t => (t.ring r).failures = x.failures + 1 ∧ (t.ring r).fetchPos = x.fetchPos ∧ t.host.descs = s.host.descs ∧
      SameArray s t ∧ RegsBut s t [Reg.FH_CPL_MISMATCH]) ∧
  (∀ (s : State) (r : Fin 4096) (ws : List Word), (s.rg (Reg.RC_SQ_TAIL r)).toNat = (s.ring r).fetchPos → Passes (.descriptorFetch r ws) s) ∧
  (∀ (s : State) (r : Fin 4096) (id : Nat) (d : Desc), s.ringActive r = true → s.admitHeld = false → s.nextDesc r = some id → s.desc id = d →
    (s.host.grants.contains r.val = true ∨ ((∀ k ∈ s.host.grants, s.ringActive k = false) ∧ thas s.host.rings r = true)) → d.ring = r →
    After (.descriptorAdmit r) s fun t => t.rg (Reg.RC_SQ_HEAD r) = s.rg (Reg.RC_SQ_HEAD r) + 1 ∧
      ((t.desc id).state = if d.status = 0 then .admitted else .ended) ∧ (t.desc id).words = d.words ∧ (t.desc id).status = d.status ∧
      (∀ j, j ≠ id → t.desc j = s.desc j) ∧ (t.ring (s.fd (Reg.RC_SQ_LINK_CQ r))).reserved = (s.ring (s.fd (Reg.RC_SQ_LINK_CQ r))).reserved + 1 ∧
      SameArray s t ∧ RegsBut s t [Reg.RC_SQ_HEAD r, Reg.RC_STATUS (s.fd (Reg.RC_SQ_LINK_CQ r))]) ∧
  (∀ (s : State) (r : Fin 4096), s.admitHeld = true → Passes (.descriptorAdmit r) s) ∧
  (∀ (s : State) (r k : Fin 4096), k.val ∈ s.host.grants → s.ringActive k = true → s.host.grants.contains r.val = false → Passes (.descriptorAdmit r) s)

/-- RUN makes a sequence ready, copies move their bytes, a FENCE ends once its turn has come, and what the owner may not use is rejected. For an
admitted descriptor at a ring position: RUN of a registered slot of its owner, with both areas in one window each and the package not
failed, makes a ready sequence of the slot with the descriptor's steps, sizes and areas, and the descriptor runs; an empty slot, another
owner's slot and an area outside the windows reject it with NO_PROGRAM, NOT_OWNED and WINDOW. COPY_IN to zeroed pages in a window leaves the
bytes of its range as the data and every other byte; COPY_OUT sends the bytes of its range; both end OK; outside the windows both are
rejected. A SIGNAL or WAIT on a counter not owned is rejected. A WAIT that still runs when its timeout comes ends LATE with WAIT_TIMEOUT. A
FENCE ends once no earlier descriptor of its scope is in flight, and waits before. Where the rules leave a reading open, the model's is
taken: log entries 8, 41. (11_host_rings.md, 12_sessions.md) -/
def Obligations.DescriptorsDoTheirWork : Prop :=
  (∀ (s : State) (r : Fin 4096) (pos : Word) (id : Nat) (d : Desc), s.hasWork r pos 1 id d →
    let n := bits (d.w 4) 31 22
    let p := s.slot n
    s.on Reg.FH_SUMMARY_FAILED = false →
    (p.phase = 2 → s.evictBefore n d.order = false → p.inst = d.inst → s.inWindow d.inst (d.dram 10) p.inBytes = true →
      s.inWindow d.inst (d.dram 12) p.outBytes = true →
      After (.run r pos) s fun t => t.seq s.net.nextSeq = { noSeq with
          desc := some id, slot := n, inst := d.inst, state := .ready, readyAt := d.rung, order := s.net.nextSeq
          stepNo := (d.w 6).toNat, maxSteps := bits (d.w 7) 15 0, size0 := (d.w 8).toNat, size1 := (d.w 9).toNat
          inAddr := d.dram 10, outAddr := d.dram 12 } ∧
        t.desc id = { d with state := .running } ∧ (∀ j, j ≠ id → t.desc j = s.desc j) ∧ (∀ j, j ≠ s.net.nextSeq → t.seq j = s.seq j) ∧
        t = { s with host := { s.host with descs := t.host.descs }, net := { s.net with seqs := t.net.seqs, nextSeq := s.net.nextSeq + 1 } }) ∧
    ((p.phase ≠ 2 ∨ s.evictBefore n d.order = true) → After (.run r pos) s fun t => EndedDesc s t id 4 15 ∧ OnlyHost s t) ∧
    (p.phase = 2 → s.evictBefore n d.order = false → p.inst ≠ d.inst → After (.run r pos) s fun t => EndedDesc s t id 4 14 ∧ OnlyHost s t) ∧
    (p.phase = 2 → s.evictBefore n d.order = false → p.inst = d.inst →
      (s.inWindow d.inst (d.dram 10) p.inBytes = false ∨ s.inWindow d.inst (d.dram 12) p.outBytes = false) →
      After (.run r pos) s fun t => EndedDesc s t id 4 13 ∧ OnlyHost s t)) ∧
  (∀ (s : State) (r : Fin 4096) (pos : Word) (data : List Byte) (id : Nat) (d : Desc), s.hasWork r pos 2 id d →
    let a := d.dram 6
    let n := (d.w 8).toNat
    (s.inWindow d.inst a n = true → s.rangeReady a n = true → data.length = n → a + n ≤ dramSize →
      After (.copyIn r pos data) s fun t => EndedDesc s t id 0 0 ∧ (∀ k, k < n → t.rdB (a + k) = data.getD k 0#8) ∧
        (∀ b, b < a ∨ a + n ≤ b → t.rdB b = s.rdB b) ∧ t.regs = s.regs ∧ t.clusters = s.clusters ∧ t.outbox = s.outbox) ∧
    (s.inWindow d.inst a n = false → After (.copyIn r pos data) s fun t => EndedDesc s t id 4 13 ∧ OnlyHost s t)) ∧
  (∀ (s : State) (r : Fin 4096) (pos : Word) (id : Nat) (d : Desc), s.hasWork r pos 3 id d →
    let a := d.dram 6
    let n := (d.w 8).toNat
    (s.inWindow d.inst a n = true → s.rangeReady a n = true → s.sends →
      After (.copyOut r pos) s fun t => EndedDesc s t id 0 0 ∧ t.outbox = s.outbox ++ [.hostBytes d.inst (d.hostAddr 4) (s.rdBytes a n)] ∧
        t = { s with host := t.host, outbox := t.outbox }) ∧
    (s.inWindow d.inst a n = false → After (.copyOut r pos) s fun t => EndedDesc s t id 4 13 ∧ OnlyHost s t)) ∧
  (∀ (s : State) (r : Fin 4096) (pos : Word) (id : Nat) (d : Desc), s.pcOwned (bits (d.w 4) 11 0) d.inst = false →
    (s.hasWork r pos 4 id d → After (.signal r pos) s fun t => EndedDesc s t id 4 14 ∧ OnlyHost s t) ∧
    (s.hasWork r pos 5 id d → After (.wait r pos) s fun t => EndedDesc s t id 4 14 ∧ OnlyHost s t)) ∧
  (∀ (s : State) (r : Fin 4096) (pos : Word) (id : Nat), s.findDesc r pos.toNat = some id → (s.desc id).state = .running → (s.desc id).opcode = 5 →
    (s.desc id).w 7 ≠ 0 →
    After (.waitTimeout r pos) s fun t => EndedDesc s t id 1 3 ∧ SameArray s t ∧ t.outbox = s.outbox) ∧
  (∀ (s : State) (r : Fin 4096) (pos : Word) (id : Nat) (d : Desc), s.hasWork r pos 8 id d →
    let earlier := s.host.descs.any fun e => e.2.state ≠ .fetched && decide (e.2.order < d.order) &&
      (if bit (d.w 4) 0 then e.2.inst == d.inst else e.2.ring == d.ring)
    (earlier = false → After (.fence r pos) s fun t => EndedDesc s t id 0 0 ∧ OnlyHost s t) ∧ (earlier = true → Passes (.fence r pos) s))

/-- A descriptor that has ended is written to its completion ring and leaves; coalesced vectors come; timed-out reads are counted and their tags
quarantined. DESCRIPTOR_COMPLETE of an ended descriptor without a post-signal: unless it ended OK with the quiet bit, the completion entry
of Table 11.6 is written at the ring's next place and CQ_WRITTEN advances; with the quiet bit nothing is written; in either case the
descriptor is in flight no longer and its reservation ends. The coalescing time's end raises the vector of a completion ring that has an
uninterrupted completion, and has no effect otherwise. A host read that times out and is safe to repeat is reported, counted in HL_TIMEOUTS
and issued again under the new tag, and the old tag is quarantined. A completion for a quarantined tag is counted, and one for another tag
has no effect; a quarantine that runs out frees the tag. Where the rules leave a reading open, the model's is taken: log entries 9, 80, 81. (11_host_rings.md) -/
def Obligations.CompletionsAreWrittenAndHostReadsTimeOut : Prop :=
  (∀ (s : State) (r : Fin 4096) (pos : Word) (id : Nat) (d : Desc), s.findDesc r pos.toNat = some id → s.desc id = d → d.state = .ended →
    bit (d.w 15) 31 = false → s.sends →
    let c := s.fd (Reg.RC_SQ_LINK_CQ d.ring)
    let quiet := bit (d.w 0) 26 && d.status == 0
    let addr := s.fd (Reg.RC_CQ_BASE_LO_ADDR c) * 4096 + (s.rg (Reg.RC_CQ_BASE_HI c)).toNat * 2 ^ 32 +
      32 * ((s.rg (Reg.RC_CQ_WRITTEN c)).toNat % 2 ^ s.fd (Reg.RC_CTRL_CQ_LOG2 c))
    After (.descriptorComplete r pos) s fun t => thas t.host.descs id = false ∧ (∀ j, j ≠ id → t.desc j = s.desc j) ∧
      (t.ring c).reserved = (s.ring c).reserved - 1 ∧ SameArray s t ∧
      (quiet = true → t.outbox = s.outbox ∧ t.rg (Reg.RC_CQ_WRITTEN c) = s.rg (Reg.RC_CQ_WRITTEN c)) ∧
      (quiet = false → t.rg (Reg.RC_CQ_WRITTEN c) = s.rg (Reg.RC_CQ_WRITTEN c) + 1 ∧
        ∃ more, t.outbox = s.outbox ++ .hostWrite d.inst addr (completion s d c) :: more ∧
          (more = [] ∨ more = [.msix (s.fd (Reg.RC_CTRL_OWNER c)) (s.fd (Reg.RC_CQ_IRQ_VECTOR c))]))) ∧
  (∀ (s : State) (c : Fin 4096), s.on (Reg.RC_CQ_IRQ_IRQ_EN c) = true → s.fd (Reg.RC_CQ_IRQ_COAL_US c) ≠ 0 → (s.ring c).coalFrom.isSome = true →
    s.sends →
    After (.coalTimer c) s fun t => t.outbox = s.outbox ++ [.msix (s.fd (Reg.RC_CTRL_OWNER c)) (s.fd (Reg.RC_CQ_IRQ_VECTOR c))] ∧
      t.ring c = { s.ring c with sinceIrq := 0, coalFrom := none } ∧ t = { s with outbox := t.outbox, host := { s.host with rings := t.host.rings } }) ∧
  (∀ (s : State) (c : Fin 4096), (s.ring c).coalFrom = none → Passes (.coalTimer c) s) ∧
  (∀ (s : State) (tag new : Fin 16384) (x : HostRead), s.host.reads.find? (fun e => e.1 == tag.val) = some (tag.val, x) → x.safe = true → x.tries < 3 →
    tag ≠ new → thas s.host.quarantine new = false → thas s.host.reads new = false →
    After (.hostReadTimeout tag new) s fun t => t.rg Reg.HL_TIMEOUTS = s.rg Reg.HL_TIMEOUTS + 1 ∧ thas t.host.quarantine tag = true ∧
      thas t.host.reads tag = false ∧ tget (⟨.data 0, 0, false, 0, 0⟩ : HostRead) t.host.reads new = { x with tries := x.tries + 1 } ∧
      t.host.descs = s.host.descs ∧ SameArray s t ∧ RegsBut s t [Reg.HL_TIMEOUTS, Reg.IRQ_STATUS, Reg.HL_QUARANTINED] ∧
      .aerTimeout tag ∈ t.outbox ∧ .hostRead x.inst new ∈ t.outbox) ∧
  (∀ (s : State) (tag : Fin 16384), thas s.host.quarantine tag = true →
    After (.lateCompletion tag) s fun t => t.rg Reg.HL_LATE_CPL = s.rg Reg.HL_LATE_CPL + 1 ∧ RegsBut s t [Reg.HL_LATE_CPL, Reg.IRQ_STATUS] ∧
      t = { s with regs := t.regs, outbox := t.outbox }) ∧
  (∀ (s : State) (tag : Fin 16384), thas s.host.quarantine tag = false → Passes (.lateCompletion tag) s) ∧
  (∀ (s : State) (tag : Fin 16384),
    After (.tagQuarantineExpire tag) s fun t => thas t.host.quarantine tag = false ∧ RegsBut s t [Reg.HL_QUARANTINED] ∧ SameArray s t ∧
      ∀ k, k ≠ tag.val → thas t.host.quarantine k = thas s.host.quarantine k)

/-- BAR4 reads and writes reach DRAM below its top, ring contexts and windows change as written where R361 and R396 let them. With READY set, a
BAR4 write of zeroed pages below 384 GiB leaves the bytes of its range as the data and every other byte; a read answers the bytes; a read or
write beyond is answered with ones, or dropped, and counted in HL_BAR4_DROPPED, as is one before READY. With writes let through: a ring
context word other than word 0 that R361 does not refuse takes effect by access types; a refused write, of word 0 too, changes no word of
the context but sets CFG_REFUSED and the owner's event; a write of word 0 that enables a submission ring sets HEAD and TAIL to 0. A window
register of an instance with nothing in progress, with the window disabled, in storage and clear of other instances' windows, takes effect
by access types; clearing EN of an enabled window clears it alone; otherwise WIN_REFUSED sets and no window changes. Where the rules leave a
reading open, the model's is taken: log entries 35, 42. (11_host_rings.md, 19_reset_and_management.md) -/
def Obligations.Bar4AndRingSetUpAndWindows : Prop :=
  (∀ (s : State) (off : BitVec 36) (len : Nat) (data : List Byte) (unc : Bool),
    let a := s.fd Reg.HL_BAR4_BASE_BASE_GIB * 2 ^ 30 + off.toNat
    (s.on Reg.GS_STATUS_READY = true → a + data.length ≤ dramSize → s.rangeReady a data.length = true →
      After (.bar4Access true off len data unc) s fun t => (∀ k, k < data.length → t.rdB (a + k) = data.getD k 0#8) ∧
        (∀ b, b < a ∨ a + data.length ≤ b → t.rdB b = s.rdB b) ∧ t.clusters = s.clusters ∧ t.outbox = s.outbox ∧ RegsBut s t [Reg.PWR_STATUS]) ∧
    (s.on Reg.GS_STATUS_READY = true → a + len ≤ dramSize → s.rangeReady a len = true →
      After (.bar4Access false off len data false) s fun t => t.outbox = s.outbox ++ [.bar4Read (s.rdBytes a len) false] ∧ SameArray s t ∧
        RegsBut s t [Reg.PWR_STATUS]) ∧
    ((s.on Reg.GS_STATUS_READY = false ∨ dramSize < a + len) →
      After (.bar4Access false off len data unc) s fun t => t.outbox = s.outbox ++ [.bar4Read (List.replicate len 0xFF#8) false] ∧ SameArray s t ∧
        t.rg Reg.HL_BAR4_DROPPED = s.rg Reg.HL_BAR4_DROPPED + 1) ∧
    ((s.on Reg.GS_STATUS_READY = false ∨ dramSize < a + data.length) →
      After (.bar4Access true off len data unc) s fun t => t.outbox = s.outbox ∧ SameArray s t ∧
        t.rg Reg.HL_BAR4_DROPPED = s.rg Reg.HL_BAR4_DROPPED + 1)) ∧
  (∀ (s : State) (r : Fin 4096) (w : Fin 16) (v : Word) (vf : Bool), s.open → w ≠ 0 →
    let off := Reg.RC_CTRL r + 4 * w.val
    (s.rcWordRefused r w v = false →
      After (.ringContextWrite r w v vf) s fun t => OnlyRegs s t [off] ∧ t.rg off = plainWrite (s.rg off) v (regMasks off).1 (regMasks off).2) ∧
    (s.rcWordRefused r w v = true →
      After (.ringContextWrite r w v vf) s fun t => t.on (Reg.RC_STATUS_CFG_REFUSED r) = true ∧ t.host = s.host ∧ SameArray s t ∧
        RegsBut s t [Reg.RC_STATUS r, Reg.INST_EVENTS (s.fd (Reg.RC_CTRL_OWNER r))])) ∧
  (∀ (s : State) (r : Fin 4096) (v : Word) (vf : Bool), s.open →
    (s.rcCtrlRefused r v vf = true →
      After (.ringContextWrite r 0 v vf) s fun t => t.on (Reg.RC_STATUS_CFG_REFUSED r) = true ∧ t.host = s.host ∧ SameArray s t ∧
        RegsBut s t [Reg.RC_STATUS r, Reg.INST_EVENTS (s.fd (Reg.RC_CTRL_OWNER r))]) ∧
    (s.rcCtrlRefused r v vf = false → bit v 31 = true → s.on (Reg.RC_CTRL_SQ_EN r) = false →
      After (.ringContextWrite r 0 v vf) s fun t => t.on (Reg.RC_CTRL_SQ_EN r) = true ∧ t.rg (Reg.RC_SQ_HEAD r) = 0 ∧ t.rg (Reg.RC_SQ_TAIL r) = 0 ∧
        (t.ring r).fetchPos = 0 ∧ SameArray s t ∧ t.outbox = s.outbox)) ∧
  (∀ (s : State) (i : Fin 64) (w : Fin 8) (size : Bool) (v : Word), s.open →
    let off := if size then Reg.WIN_SIZE i w else Reg.WIN_BASE i w
    let nb := if size then s.fd (Reg.WIN_BASE_BASE i w) else bits v 18 0
    let ns := if size then bits v 18 0 else s.fd (Reg.WIN_SIZE_SIZE i w)
    (s.instBusy i = false → s.on (Reg.WIN_BASE_EN i w) = false → nb + ns ≤ dramSize / 2 ^ 21 → s.windowClash i nb ns = false →
      After (.windowWrite i w size v) s fun t => OnlyRegs s t [off] ∧ t.rg off = plainWrite (s.rg off) v (regMasks off).1 (regMasks off).2) ∧
    (s.instBusy i = false → s.on (Reg.WIN_BASE_EN i w) = true → size = false → bit v 31 = false → nb + ns ≤ dramSize / 2 ^ 21 →
      After (.windowWrite i w size v) s fun t => OnlyRegs s t [Reg.WIN_BASE i w] ∧ t.on (Reg.WIN_BASE_EN i w) = false ∧
        t.fd (Reg.WIN_BASE_BASE i w) = s.fd (Reg.WIN_BASE_BASE i w)) ∧
    ((s.instBusy i = true ∨ (s.on (Reg.WIN_BASE_EN i w) = true ∧ (size = true ∨ bit v 31 = true)) ∨ dramSize / 2 ^ 21 < nb + ns) →
      After (.windowWrite i w size v) s fun t => t.on (Reg.INST_STATUS_WIN_REFUSED i) = true ∧ OnlyRegs s t [Reg.INST_STATUS i]))

/-- A valid comparison keeps or gains lock by the size of its error, a loss of the reference ends in holdover, and a relock steps the time. A
comparison with the selected reference (a valid TB_FRAME_IN or TB_PPS_IN edge, or a PTP Sync) shows its error in TB_PHASE_ERR and sets
REF_VALID. Locked, it stays LOCKED with an error of at most 4 ns and falls to ACQUIRING beyond; in HOLDOVER a small error locks again;
unlocked, the fourth or later small error at least 100 ms after the first locks, and FIRST_LOCK sets; else the state is ACQUIRING. Messages
and edges of a reference that is not selected have no effect. A loss of the reference in use, after first lock, enters HOLDOVER with
TB_HOLDOVER_S 0, before first lock ACQUIRING. A Delay_Req leaves by the PTP port alone. TIME_RELOCK adopts the staged fields, RELOCKING, and
steps the time to a valid PTP reference; a turn that does not divide a second is INVALID. Enabled output pulses leave once locked. Where the
rules leave a reading open, the model's is taken: log entries 84. (10_angle_time.md, 12_sessions.md) -/
def Obligations.TimeBaseFollowsItsReference : Prop :=
  (∀ (s : State) (c : Instr) (err : Int) (sp turns : Nat) (angle : BitVec 24) (refIn : Bool),
    let small := decide (err.natAbs ≤ 16)
    ((c = .framePulse err sp refIn ∧ s.time.source = 1 ∧ (s.time.refSel = 0 ∨ refIn = true) ∧ s.pulseValid err sp (1000 * s.time.turnUs) = true) ∨
      (c = .ppsPulse err sp ∧ s.time.source = 3 ∧ s.pulseValid err sp (10 ^ 9) = true) ∨ (c = .ptpSync .sync err turns angle ∧ s.time.source = 2)) →
    After c s fun t => t.rg Reg.TB_PHASE_ERR = BitVec.ofInt 32 err ∧ t.on Reg.TB_STATUS_REF_VALID = true ∧ SameArray s t ∧
      (s.tbState = 2 → t.tbState = if small then 2 else 1) ∧ (s.tbState = 3 → t.tbState = if small then 2 else 3) ∧
      (s.tbState ≤ 1 → (small = false ∨ s.time.good < 3) → t.tbState = 1) ∧
      (s.tbState ≤ 1 → small = true → 3 ≤ s.time.good → s.time.goodSince + us 100000 ≤ s.clk → t.tbState = 2 ∧ t.on Reg.TB_STATUS_FIRST_LOCK = true) ∧
      RegsBut s t [Reg.TB_STATUS, Reg.TB_PHASE_ERR, Reg.TB_EVENTS, Reg.IRQ_STATUS]) ∧
  (∀ (s : State) (msg : PtpMsg) (err : Int) (sp turns : Nat) (angle : BitVec 24) (refIn : Bool),
    (s.time.source ≠ 1 → s.time.refSel = 0 → Passes (.framePulse err sp refIn) s) ∧ (s.time.source ≠ 3 → Passes (.ppsPulse err sp) s) ∧
    ((s.time.source ≠ 2 ∨ msg ≠ .sync) → Passes (.ptpSync msg err turns angle) s)) ∧
  (∀ (s : State) (why : LossCause),
    let fits := (why = .pulses ∧ (s.time.source = 1 ∨ s.time.source = 3)) ∨ (why = .syncs ∧ s.time.source = 2) ∨ (why = .refIn ∧ s.time.refSel ≠ 0)
    (¬ fits → Passes (.referenceLoss why) s) ∧
    (fits → After (.referenceLoss why) s fun t => t.on Reg.TB_STATUS_REF_VALID = false ∧ t.on Reg.TB_EVENTS_LOCK_LOST = true ∧
      (s.on Reg.TB_STATUS_FIRST_LOCK = false → t.tbState = 1) ∧ (s.on Reg.TB_STATUS_FIRST_LOCK = true → t.tbState = 3) ∧
      (s.on Reg.TB_STATUS_FIRST_LOCK = true → s.tbState ≠ 3 → t.rg Reg.TB_HOLDOVER_S = 0) ∧ SameArray s t ∧
      RegsBut s t [Reg.TB_STATUS, Reg.TB_EVENTS, Reg.TB_HOLDOVER_S, Reg.IRQ_STATUS])) ∧
  (∀ (s : State), s.sends → (s.time.source = 2 → exec .delayReqSend s = .next { s with outbox := s.outbox ++ [.eth s.time.ptpPort 0 .delayReq] }) ∧
    (s.time.source ≠ 2 → Passes .delayReqSend s)) ∧
  (∀ (s : State) (turns : BitVec 32) (angle : BitVec 24) (valid : Bool), s.open →
    After (.timeRelock turns angle valid) s fun t => t.on Reg.MAINT_STATUS_BUSY = true ∧ SameArray s t ∧
      (s.badStaged = true → t.host.maintWait = some 2 ∧ t.time = s.time) ∧
      (s.badStaged = false → t.time.source = s.fd Reg.TB_CTRL_SOURCE ∧ t.time.turnUs = s.fd Reg.TB_TURN_US_TURN_US ∧
        t.time.refSel = s.fd Reg.TB_CTRL_REF_SEL ∧ t.time.relocking = true ∧
        t.tbState = (if s.fd Reg.TB_CTRL_SOURCE = 0 then 0 else 4) ∧
        (s.fd Reg.TB_CTRL_SOURCE = 2 → valid = true → t.time.turn = turns.toNat ∧ t.time.angle = angle.toNat))) ∧
  (∀ (s : State) (pps : Bool), s.on Reg.TB_STATUS_FIRST_LOCK = true → s.time.source ≠ 0 → s.pins.ioOff = false → s.mgmt.controllerReset = false →
    exec (.tbOutputPulse pps) s = .next (if s.on (if pps then Reg.TB_OUT_CTRL_PPS_OUT_EN else Reg.TB_OUT_CTRL_FRAME_OUT_EN)
      then { s with outbox := s.outbox ++ [.pulse pps] } else s)) ∧
  (∀ (s : State) (pps : Bool), s.on Reg.TB_STATUS_FIRST_LOCK = false → Passes (.tbOutputPulse pps) s)

/-- A commit of an entry is taken whole or refused by its code, and a due entry fires once per ideal time. With writes let through, word 7 of an
angle-event entry commits the staged words: where each complement word matches, the fields are valid and the owner owns what it names, the
entry holds them and RESULT is 0; a mismatch is RESULT 1, an invalid field 2, an argument not owned 3, and in these the entry stays. A due
entry, stored without damage, of any action but DEADLINE: after its firing its ideal time counts as fired, and with ONESHOT its VALID bit is
clear. Both copies damaged: VALID clears, AE_DISCARD advances, and no action is taken. Before first lock, and at an ideal time that has
fired, no firing has an effect. In Rest the first four actions wait for the wake. Where the rules leave a reading open, the model's is
taken: log entries 82. (10_angle_time.md) -/
def Obligations.AngleEventsCommitAndFireOnce : Prop :=
  (∀ (s : State) (e : Fin 512) (w7 : Word), s.open →
    let x := s.aeStage e 7 w7
    let ws := (List.range 4).map (x.aeStaged e)
    let paired := (List.range 4).all fun w => x.aeStaged e (w + 4) == ~~~(x.aeStaged e w)
    After (.aeCommit e w7) s fun t => t.fd Reg.AE_COMMIT_ENTRY = e ∧ SameArray s t ∧ t.outbox = s.outbox ∧
      (paired = true → aeInvalid ws = false → x.aeNotOwned ws = false → t.fd Reg.AE_COMMIT_RESULT = 0 ∧ t.aeWords e = ws ∧
        ∀ f, f ≠ e.val → t.aeWords f = s.aeWords f) ∧
      ((paired = false ∨ aeInvalid ws = true ∨ x.aeNotOwned ws = true) → (∀ f, t.aeWords f = s.aeWords f) ∧
        t.fd Reg.AE_COMMIT_RESULT = if paired = false then 1 else if aeInvalid ws then 2 else 3)) ∧
  (∀ (s : State) (e : Fin 512) (bad : BitVec 2) (late : Bool) (ws : List Word) (ideal : Nat),
    ∀ x ∈ [(Instr.startRun e bad late, 1, true), (.ringFire e bad late, 2, true), (.startStep e bad late, 3, true), (.aeBarrier e bad late, 4, true),
      (.powerWake e bad late, 6, opIs 0 ws), (.powerEnterRest e bad late, 6, opIs 1 ws), (.powerSetCap e bad late, 6, opIs 2 ws),
      (.telemetry e bad late, 7, true)], s.due e x.2.1 ws ideal → x.2.2 = true →
    (bad ≠ 3 → After x.1 s fun t => ideal ∈ tget [] t.time.fired e ∧ (aeOneshot ws = true → bit (t.rg (Reg.AE_WORD e 0)) 31 = false) ∧
      (2 ≤ s.fd Reg.PWR_STATUS_STATE → x.2.1 ≤ 4 → t.power.held = s.power.held ++ [(e.val, ws)] ∧ t.rg Reg.AE_FIRED = s.rg Reg.AE_FIRED))) ∧
  (∀ (s : State) (e : Fin 512) (late : Bool) (ws : List Word) (ideal : Nat),
    ∀ x ∈ [(Instr.startRun e 3 late, 1, true), (.ringFire e 3 late, 2, true), (.startStep e 3 late, 3, true), (.aeBarrier e 3 late, 4, true),
      (.deadline e 3 late, 5, true), (.powerWake e 3 late, 6, opIs 0 ws), (.powerEnterRest e 3 late, 6, opIs 1 ws),
      (.powerSetCap e 3 late, 6, opIs 2 ws), (.telemetry e 3 late, 7, true)], s.due e x.2.1 ws ideal → x.2.2 = true →
    After x.1 s fun t => bit (t.rg (Reg.AE_WORD e 0)) 31 = false ∧ t.rg Reg.AE_DISCARD = s.rg Reg.AE_DISCARD + 1 ∧ SameArray s t ∧
      t.host = s.host ∧ t.net = s.net ∧ t.power = s.power ∧ t.outbox = s.outbox) ∧
  (∀ (s : State) (e : Fin 512) (bad : BitVec 2) (late : Bool),
    (s.on Reg.TB_STATUS_FIRST_LOCK = false ∨ (tget [] s.time.fired e).contains (s.governs e).2.1 = true) →
    ∀ c ∈ [Instr.startRun e bad late, .ringFire e bad late, .startStep e bad late, .aeBarrier e bad late, .deadline e bad late,
      .powerWake e bad late, .powerEnterRest e bad late, .powerSetCap e bad late, .telemetry e bad late], Passes c s)

/-- What each action of an angle event does: START_RUN, RING, START_STEP, BARRIER, DEADLINE, POWER and TELEMETRY. Entry e is due and not
damaged, and the module is not in or near Rest. START_RUN admits the ring's awaiting descriptor, or, without one, advances AE_IDLE; RING
applies a staged tail in range; START_STEP and BARRIER latch their firing, or, where one is latched, advance AE_MISSED and record the entry;
DEADLINE records its counter's value, and one that has advanced less than its minimum since the last firing counts in DL_MISSES and sets the
owner's event bit; POWER requests Rest or sets the cap; its wake leaves a module that runs as it is; TELEMETRY samples the sets that its
mask names. Each firing that acts advances AE_FIRED. Where the rules leave a reading open, the model's is taken: log entries 24, 25, 82. (10_angle_time.md, 17_repair.md, 18_power.md, 11_host_rings.md) -/
def Obligations.FiringsTakeTheirActions : Prop :=
  ∀ (s : State) (e : Fin 512) (bad : BitVec 2) (late : Bool) (ws : List Word) (ideal : Nat), bad ≠ 3 → s.fd Reg.PWR_STATUS_STATE < 2 →
    let r := bits (aeArg ws) 11 0
    let fired (t : State) : Prop := t.rg Reg.AE_FIRED = s.rg Reg.AE_FIRED + 1
    (∀ id, s.due e 1 ws ideal → s.nextDesc r = some id → s.fd (Reg.RC_CTRL_OWNER r) = aeOwner ws → s.on (Reg.RC_CTRL_SQ_EN r) = true →
      (s.desc id).awaits = true → s.ringHeld r = false → s.cqRoom (s.fd (Reg.RC_SQ_LINK_CQ r)) = true → s.deadlineRoom (s.desc id) = true →
      s.admitHeld = false →
      After (.startRun e bad late) s fun t => (t.desc id).state = .admitted ∧ (t.desc id).words = (s.desc id).words ∧ fired t ∧ SameArray s t) ∧
    (s.due e 1 ws ideal → s.nextDesc r = none → After (.startRun e bad late) s fun t => t.rg Reg.AE_IDLE = s.rg Reg.AE_IDLE + 1 ∧
      t.rg Reg.AE_FIRED = s.rg Reg.AE_FIRED ∧ t.host = s.host ∧ SameArray s t) ∧
    (∀ n, s.due e 2 ws ideal → (s.ring r).stagedTail = some n → s.fd (Reg.RC_CTRL_OWNER r) = aeOwner ws → s.on (Reg.RC_CTRL_SQ_EN r) = true →
      BitVec.ofNat 32 n ≠ s.rg (Reg.RC_SQ_TAIL r) →
      tailOk (BitVec.ofNat 32 n) (s.rg (Reg.RC_SQ_TAIL r)) (s.rg (Reg.RC_SQ_HEAD r)) (s.fd (Reg.RC_CTRL_SQ_LOG2 r)) = true →
      After (.ringFire e bad late) s fun t => t.rg (Reg.RC_SQ_TAIL r) = BitVec.ofNat 32 n ∧ fired t ∧ SameArray s t) ∧
    (s.due e 3 ws ideal → (s.net.gateStep = false → After (.startStep e bad late) s fun t => t.net.gateStep = true ∧ fired t ∧ SameArray s t ∧
        t = { s with regs := t.regs, time := t.time, net := { s.net with gateStep := true } }) ∧
      (s.net.gateStep = true → After (.startStep e bad late) s fun t => t.rg Reg.AE_MISSED = s.rg Reg.AE_MISSED + 1 ∧
        t.fd Reg.AE_LAST_MISS_ENTRY = e ∧ t.net = s.net ∧ SameArray s t)) ∧
    (s.due e 4 ws ideal →
      let k := barKey (bits (aeArg ws) 15 0) (bits (aeArg ws) 19 16)
      ((s.bar k).latched = false → After (.aeBarrier e bad late) s fun t => t.bar k = { s.bar k with latched := true } ∧ fired t ∧
        t = { s with regs := t.regs, time := t.time, barriers := t.barriers } ∧ ∀ j, j ≠ k → t.bar j = s.bar j) ∧
      ((s.bar k).latched = true → After (.aeBarrier e bad late) s fun t => t.rg Reg.AE_MISSED = s.rg Reg.AE_MISSED + 1 ∧ t.barriers = s.barriers)) ∧
    (s.due e 5 ws ideal → s.pcOwned r (aeOwner ws) = true → s.time.watch.find? (fun x => x.1 == r) = none → aeOneshot ws = false →
      After (.deadline e bad late) s fun t => s.pc r = t.pc r ∧ (∃ w, t.time.watch.find? (fun x => x.1 == r) = some (r, w) ∧ w.value = s.pc r) ∧
        fired t ∧ t.outbox = s.outbox ∧ SameArray s t) ∧
    (∀ w, s.due e 5 ws ideal → s.pcOwned r (aeOwner ws) = true → s.time.watch.find? (fun x => x.1 == r) = some (r, w) → w.ideal ≠ ideal →
      s.pc r < w.value + bits (aeArg ws) 30 23 → bit (aeArg ws) 31 = false →
      After (.deadline e bad late) s fun t => t.rg Reg.DL_MISSES = s.rg Reg.DL_MISSES + 1 ∧ bit (t.rg (Reg.INST_EVENTS (aeOwner ws))) 1 = true ∧
        fired t ∧ SameArray s t) ∧
    (s.due e 6 ws ideal → (opIs 0 ws = true → After (.powerWake e bad late) s fun t => t.fd Reg.PWR_STATUS_STATE = s.fd Reg.PWR_STATUS_STATE ∧ fired t ∧
        t = { s with regs := t.regs, time := t.time }) ∧
      (opIs 1 ws = true → s.restBusy = false → After (.powerEnterRest e bad late) s fun t => t.fd Reg.PWR_STATUS_STATE = 2 ∧ fired t ∧ SameArray s t) ∧
      (opIs 2 ws = true → After (.powerSetCap e bad late) s fun t => t.fd Reg.PWR_CTRL_CAP_W = bits (aeArg ws) 8 0 ∧
        t.fd Reg.PWR_CTRL_MODE = s.fd Reg.PWR_CTRL_MODE ∧ fired t ∧ SameArray s t)) ∧
    (s.due e 7 ws ideal → After (.telemetry e bad late) s fun t => fired t ∧ SameArray s t ∧
      t.repair.sampleSeq = s.repair.sampleSeq + ((List.range 5).filter fun k => bit (aeArg ws) k).length ∧
      (bit (aeArg ws) 0 = true → t.rg (samplePage 0 + 0x10) = s.rg Reg.FH_SUMMARY ∧ t.rg (samplePage 0) = BitVec.ofNat 32 (s.repair.sampleSeq + 1) ∧
        t.rg (samplePage 0 + 4) = BitVec.ofNat 32 (ideal / 2 ^ 24) ∧ t.rg (samplePage 0 + 8) = BitVec.ofNat 32 (ideal % 2 ^ 24)))

/-- A run deadline that is reached marks a started sequence late, ends one that has not started, and abandons where the flag says so. After
first lock, when the instant of a run's deadline has come and its sequence is in flight with its last step not committed: without the
abandon flag, a sequence that has started is marked late and runs on, and one that has not started ends LATE with detail DEADLINE, its
descriptor ended; each counts one deadline miss. With the abandon flag and no step in progress the sequence ends ABANDONED with detail
DEADLINE and DL_ABANDONS advances. A request's deadline acts likewise. Before first lock, and before the instant, nothing happens. Where the
rules leave a reading open, the model's is taken: log entries 22, 83. (10_angle_time.md) -/
def Obligations.DeadlinesEndWhatIsLate : Prop :=
  (∀ (s : State) (ring : Fin 4096) (pos : Word) (id q : Nat) (d : RunDeadline) (x : Seq), s.on Reg.TB_STATUS_FIRST_LOCK = true →
    s.findDesc ring pos.toNat = some id → s.host.deadlines.find? (fun d => d.desc == id && le56 d.instant s.now) = some d →
    s.net.seqs.find? (fun e => e.2.desc == some id && e.2.state ≠ .gone) = some (q, x) → s.seq q = x → x.inst < 64 →
    (d.abandon = false → s.lastCommitted q = false → x.startAt.isSome = true →
      After (.runDeadline (.desc ring pos)) s fun t => t.seq q = { x with late := true } ∧ t.rg Reg.DL_MISSES = s.rg Reg.DL_MISSES + 1 ∧
        (∀ j, j ≠ q → t.seq j = s.seq j) ∧ t.host.descs = s.host.descs ∧ SameArray s t) ∧
    (d.abandon = false → s.lastCommitted q = false → x.startAt = none →
      After (.runDeadline (.desc ring pos)) s fun t => (t.seq q).state = .gone ∧ EndedDesc s t id 1 1 ∧ t.rg Reg.DL_MISSES = s.rg Reg.DL_MISSES + 1 ∧
        (∀ j, j ≠ q → t.seq j = s.seq j) ∧ SameArray s t) ∧
    (d.abandon = true → s.lastCommitted q = false → s.net.step = none →
      After (.runDeadline (.desc ring pos)) s fun t => (t.seq q).state = .gone ∧ EndedDesc s t id 2 1 ∧
        t.rg Reg.DL_ABANDONS = s.rg Reg.DL_ABANDONS + 1 ∧ (∀ j, j ≠ q → t.seq j = s.seq j) ∧ SameArray s t)) ∧
  (∀ (s : State) (n : Fin 4096) (reqId : Word) (q at0 : Nat) (x : Seq), s.on Reg.TB_STATUS_FIRST_LOCK = true →
    s.net.seqs.find? (fun e => e.2.session == some (n.val, reqId.toNat) && e.2.state ≠ .gone) = some (q, x) → x.deadline = some (at0, false) →
    le56 at0 s.now = true → (s.setSeq q { x with deadline := none }).lastCommitted q = false → x.startAt.isSome = true → x.inst < 64 →
    After (.runDeadline (.req n reqId)) s fun t => t.seq q = { x with deadline := none, late := true } ∧
      t.rg Reg.DL_MISSES = s.rg Reg.DL_MISSES + 1 ∧ (∀ j, j ≠ q → t.seq j = s.seq j) ∧ SameArray s t) ∧
  (∀ (s : State) (src : RunSrc), s.on Reg.TB_STATUS_FIRST_LOCK = false → Passes (.runDeadline src) s) ∧
  (∀ (s : State) (ring : Fin 4096) (pos : Word), s.on Reg.TB_STATUS_FIRST_LOCK = true →
    (∀ d ∈ s.host.deadlines, le56 d.instant s.now = false) → Passes (.runDeadline (.desc ring pos)) s)

/-- The step barrier begins the chosen slot's step, its release reaches clusters, and a step commits once or is replayed. With no step in
progress and nothing holding steps, no START_STEP gate and no restart due: when the chosen slot has a batch after its sequences have joined,
its pages are zeroed and no remote advance was refused, its next step begins under the next step and attempt numbers, in the program's first
section. While a step is in progress, or steps are held, nothing begins. The release that reaches a cluster without ACTIVE planes of the
section, or one whose section may not start yet, gives it the step's numbers, lets it issue, and orders the plane switch. A step not ready to commit stays; once its commit work is
done and no broadcast of it is under way, it ends. A replay that is due stops the clusters, and the step runs on under the next attempt
number; when the repairs are done it restarts from the first section with FH_REPLAYS + 1. Where the rules leave a reading open, the model's
is taken: log entries 20, 23, 55, 61. (17_repair.md, 12_sessions.md, 09_counters_and_barriers.md, 14_many_packages.md) -/
def Obligations.StepsBeginReplayAndCommit : Prop :=
  (∀ (s : State) (slot : Nat), s.net.step = none → s.stepsHeld = false → s.net.restart = none → s.stepGated = false →
    s.chooseSlot (s.workSlots.filter fun n => s.gateMet (s.slot n).inst) = some slot →
    let u := s.gateEnd (s.slot slot).inst
    let u := u.each (u.joinOrder slot) fun u id => u.joinOne slot id
    u.batch slot ≠ [] → (∀ r ∈ u.startRanges slot (u.batch slot), u.rangeReady r.1 r.2 = true) → (∀ e ∈ u.links.refused, e.1 ≠ slot) →
    After .stepBarrierRelease s fun t => ∃ x, t.net.step = some x ∧ x.slot = slot ∧ x.number = u.net.stepCount + 1 ∧ x.attempt = u.net.attemptNo + 1 ∧
      x.sect = (u.slot slot).firstSect ∧ x.released = [] ∧ x.arrived = [] ∧ x.committed = false ∧ x.journal = 0 ∧ t.net.stepCount = x.number ∧
      t.net.attemptNo = x.attempt) ∧
  (∀ (s : State), (s.net.step.isSome = true ∨ s.stepsHeld = true) → Passes .stepBarrierRelease s) ∧
  (∀ (s : State) (n : Fin 576) (x : StepSt), s.net.step = some x → x.released.contains n.val = false → x.replaying = false → s.isFenced n = false →
    (s.cl n).mxuFault = false → ((s.cl n).planesOf x.slot x.sect [3] = [] ∨ s.startable x.slot x.sect = false) →
    After (.stepReleaseArrive n) s fun t => t.net.step = some { x with released := x.released ++ [n.val] } ∧ (t.cl n).step = x.number ∧
      (t.cl n).attempt = x.attempt ∧ (t.cl n).stopped = false ∧ (t.cl n).arrived = false ∧ (t.cl n).heldUpd = [] ∧
      (t.cl n).switch = some ⟨x.slot, x.sect, x.inst, false, false⟩ ∧ SameDram s t ∧ ∀ m, m ≠ n.val → t.cl m = s.cl m) ∧
  (∀ (s : State) (n : Fin 576), s.net.step = none → Passes (.stepReleaseArrive n) s) ∧
  (∀ (s : State), (s.net.step = none ∨ ∃ x, s.net.step = some x ∧ x.committed = false ∧ x.worked = false ∧ s.commitReady x = false) →
    Passes .stepCommit s) ∧
  (∀ (s : State) (x : StepSt), s.net.step = some x → x.committed = true → x.worked = true → (∀ e ∈ s.links.casts, e.2.commit = false) →
    After .stepCommit s fun t => t.net.step = none) ∧
  (∀ (s : State) (x : StepSt), s.net.step = some x → x.committed = false → s.commitReady x = true → x.staged = [] → x.worked = false →
    x.remoteWait ≠ [] → After .stepCommit s fun t => ∃ y, t.net.step = some y ∧ y.committed = true ∧ y.worked = false ∧ y.staged = []) ∧
  (∀ (s : State) (x : StepSt), s.net.step = some x → x.replayDue = true → x.committed = false → x.replaying = false → x.attempts < 16 →
    After .stepReplay s fun t => t.net.step = some { x with
        attempt := s.net.attemptNo + 1, attempts := x.attempts + 1, replayDue := false, replaying := true, staged := [], arrived := [] } ∧
      t.net.attemptNo = s.net.attemptNo + 1 ∧ (∀ e ∈ t.clusters, e.2.attempt = s.net.attemptNo + 1 ∧ e.2.arrived = false) ∧
      (∀ e ∈ t.barriers, e.2.arrived = []) ∧ t.regs = s.regs ∧ t.dram = s.dram ∧ t.outbox = s.outbox) ∧
  (∀ (s : State) (x : StepSt), s.net.step = some x → (x.replayDue = false ∨ x.committed = true) → Passes .stepReplay s) ∧
  (∀ (s : State) (x : StepSt), s.net.step = some x → x.replaying = true → s.repairsDone x = true →
    s.rollback.rg Reg.FH_CPL_MISMATCH = s.rg Reg.FH_CPL_MISMATCH →
    After .replayRestart s fun t => t.rg Reg.FH_REPLAYS = s.rollback.rg Reg.FH_REPLAYS + 1 ∧
      ∃ y, t.net.step = some y ∧ y.replaying = false ∧ y.released = [] ∧ y.arrived = [] ∧ y.journal = 0 ∧ y.attempt = x.attempt ∧ y.number = x.number) ∧
  (∀ (s : State) (x : StepSt), s.net.step = some x → (x.replaying = false ∨ s.repairsDone x = false) → Passes .replayRestart s)

/-- A reset of an instance takes its generation on and its work away; maintenance commands hold BUSY and end with their result. An FLR or
register reset of an instance not in reset: IN_RESET sets, its generation advances by 1 modulo 256, no descriptor, request on the links or
waiting access of it is left, and no other instance's generation changes; a request for instances all in reset changes nothing. When nothing
of a reset is left, IN_RESET clears, RESET_DONE and the owner's event set, and its windows are to be zeroed. ACC_CLEAR sets the totals to 0.
With writes let through each maintenance command sets BUSY and its CMD: STORE_ERASE beyond block 131,071 is INVALID and erases nothing, and
else frees or retires free and orphan blocks of its range alone; STORE_FORMAT empties library and keys; REPAIR_SCAN counts what it tested;
IMAGE_VERIFY of an empty entry is INVALID, of a sound one OK; FIRMWARE_UPDATE takes a signed image not below the minimum version. MAINT_DONE
ends the command with its result. Where the rules leave a reading open, the model's is taken: log entries 48, 88, 97. (11_host_rings.md, 15_dram_and_store.md, 17_repair.md, 19_reset_and_management.md, 12_sessions.md) -/
def Obligations.InstanceResetsAndMaintenanceCommands : Prop :=
  (∀ (s : State) (i : Fin 64) (why : ResetCause), s.on (Reg.INST_STATUS_IN_RESET i) = false → (why = .flr i ∨ (why = .register i ∧ s.open)) →
    After (.instReset why) s fun t => t.on (Reg.INST_STATUS_IN_RESET i) = true ∧ t.gen i = (s.gen i + 1) % 256 ∧
      (∀ j, j < 64 → j ≠ i.val → t.gen j = s.gen j) ∧ (∀ e ∈ t.host.descs, e.2.inst ≠ i.val) ∧
      (∀ r ∈ t.links.egress ++ t.links.tracked ++ t.links.idle, r.inst ≠ i.val) ∧ (∀ w ∈ t.mem.waiting, w.inst ≠ i.val)) ∧
  (∀ (s : State) (why : ResetCause), s.open → (∀ i ∈ resetTargets why, s.on (Reg.INST_STATUS_IN_RESET i) = true) → Passes (.instReset why) s) ∧
  (∀ (s : State) (i : Fin 64), s.on (Reg.INST_STATUS_IN_RESET i) = true → s.resetOver i = true →
    After (.resetDone i) s fun t => t.on (Reg.INST_STATUS_IN_RESET i) = false ∧ t.on (Reg.INST_STATUS_RESET_DONE i) = true ∧ t.gen i = s.gen i ∧
      t.on (Reg.INST_EVENTS_RESET_DONE i) = true ∧ t.on (Reg.INST_STATUS_DRAM_ZEROING i) = (s.on (Reg.INST_STATUS_DRAM_ZEROING i) || ! (s.windowPages i).isEmpty) ∧
      (s.windowPages i ≠ [] → tget [] t.mem.instZero i = s.windowPages i) ∧ SameArray s t ∧ RegsBut s t [Reg.INST_STATUS i, Reg.INST_EVENTS i]) ∧
  (∀ (s : State) (i : Fin 64), s.on (Reg.INST_STATUS_IN_RESET i) = false → Passes (.resetDone i) s) ∧
  (∀ (s : State) (i : Fin 64) (v : Word), s.open →
    (bit v 0 = true → After (.accClear i v) s fun t => t.rg64 (Reg.ACC_QWAIT_LO i) = 0 ∧ t.rg64 (Reg.ACC_PREEMPT_LO i) = 0 ∧
      t.rg64 (Reg.ACC_DONE_LO i) = 0 ∧ OnlyRegs s t [Reg.ACC_QWAIT_LO i, Reg.ACC_QWAIT_LO i + 4, Reg.ACC_PREEMPT_LO i, Reg.ACC_PREEMPT_LO i + 4,
        Reg.ACC_DONE_LO i, Reg.ACC_DONE_LO i + 4]) ∧
    (bit v 0 = false → Passes (.accClear i v) s)) ∧
  (∀ (s : State) (failing : List Nat), s.open →
    let first := (s.rg (Reg.MAINT_ARG 0)).toNat
    let n := (s.rg (Reg.MAINT_ARG 1)).toNat
    (blockCount < first + n → After (.storeErase failing) s fun t => t.on Reg.MAINT_STATUS_BUSY = true ∧ t.fd Reg.MAINT_STATUS_CMD = 1 ∧
      t.host.maintWait = some 2 ∧ t.store = s.store ∧ RegsBut s t [Reg.MAINT_STATUS]) ∧
    (first + n ≤ blockCount → s.store.writing = none → After (.storeErase failing) s fun t => t.on Reg.MAINT_STATUS_BUSY = true ∧
      t.fd Reg.MAINT_STATUS_CMD = 1 ∧ t.store.lib = s.store.lib ∧ SameArray s t ∧
      (∀ b, b < first ∨ first + n ≤ b ∨ (s.block b).cls = 1 ∨ (s.block b).cls = 4 → t.block b = s.block b) ∧
      (∀ b, first ≤ b → b < first + n → (s.block b).cls ≠ 1 → (s.block b).cls ≠ 4 →
        (t.block b).cls = (if failing.contains b then 4 else 0) ∧ (t.block b).pe = (s.block b).pe + 1))) ∧
  (∀ (s : State) (failing : List Nat), s.open → s.store.writing = none →
    After (.storeFormat failing) s fun t => t.on Reg.MAINT_STATUS_BUSY = true ∧ t.fd Reg.MAINT_STATUS_CMD = 2 ∧ t.host.maintWait = some 0 ∧
      t.store.lib = [] ∧ t.store.keys = [] ∧ SameArray s t ∧ ∀ b, (s.block b).cls = 4 → t.block b = s.block b) ∧
  (∀ (s : State) (badClusters badBanks : List Nat), s.open →
    After (.repairScan badClusters badBanks) s fun t => t.on Reg.MAINT_STATUS_BUSY = true ∧ t.fd Reg.MAINT_STATUS_CMD = 3 ∧
      t.on Reg.FH_SCAN_VALID = true ∧ (badClusters = [] → badBanks = [] → t.host.maintWait = some 0) ∧ SameArray s t) ∧
  (∀ (s : State) (sigOk : Bool) (bad : List Nat) (pages : PageReads), s.open →
    let e := (s.rg (Reg.MAINT_ARG 0)).toNat
    (4096 ≤ e ∨ (s.lib e).state = 0 → After (.imageVerify sigOk bad pages) s fun t => t.host.maintWait = some 2 ∧ t.store = s.store ∧
      t.on Reg.MAINT_STATUS_BUSY = true) ∧
    (e < 4096 → (s.lib e).state ≠ 0 → sigOk = true → bad = [] → (s.lib e).damaged = [] →
      After (.imageVerify sigOk bad pages) s fun t => t.host.maintWait = some 0 ∧ t.store = s.store ∧ t.on Reg.MAINT_STATUS_BUSY = true ∧
        t.fd Reg.MAINT_STATUS_CMD = 4 ∧ SameArray s t ∧ RegsBut s t [Reg.MAINT_STATUS, Reg.ST_CORR, Reg.ST_UNCORR])) ∧
  (∀ (s : State) (sigOk : Bool) (svn build : BitVec 16), s.open →
    let good := decide ((s.rg (Reg.MAINT_ARG 2)).toNat ≤ 2 ^ 24) && sigOk && decide (s.mgmt.minSvn ≤ svn.toNat)
    After (.firmwareUpdate sigOk svn build) s fun t => t.on Reg.MAINT_STATUS_BUSY = true ∧ t.fd Reg.MAINT_STATUS_CMD = 5 ∧
      (good = true → t.host.maintWait = some 0 ∧ t.mgmt = { s.mgmt with updating := some ⟨true, svn.toNat, build.toNat⟩ }) ∧
      (good = false → (t.host.maintWait = some 1 ∨ t.host.maintWait = some 2) ∧ t.mgmt = s.mgmt) ∧ SameArray s t ∧ RegsBut s t [Reg.MAINT_STATUS]) ∧
  (∀ (s : State) (r : Nat), r < 4 → s.on Reg.MAINT_STATUS_BUSY = true → s.host.maintWait = some r →
    After .maintDone s fun t => t.on Reg.MAINT_STATUS_BUSY = false ∧ t.on Reg.MAINT_STATUS_DONE = true ∧ t.fd Reg.MAINT_STATUS_RESULT = r ∧
      t.host.maintWait = none ∧ t.mgmt = s.mgmt.takeUpdate ∧ SameArray s t ∧ RegsBut s t [Reg.MAINT_STATUS, Reg.IRQ_STATUS]) ∧
  (∀ (s : State), s.on Reg.MAINT_STATUS_BUSY = false → Passes .maintDone s)

/-- Entries are written, deleted and fetched, keys committed and locked, and blocks erased and refreshed, each as its rule says or refused. An
erased block is free with its erase count advanced, or retired where a record or check failed. A refresh of a data block puts its entry and
chunk in a free block and leaves the old one an orphan or retired. An entry write that fails a check of step 1 ends at once with its RESULT;
one that passes is in progress, and ends with RESULT OK and the entry VALID, with its failure, or ABORTED. A deletion of an empty entry sets
REFUSED; of an entry without uses removes it. A key commit stores the staged words in an unlocked slot; a lock needs a valid key. Arming a
fetch queue needs both counters owned, LOG2 in range and the ring in a window; a taken record's STATUS is written, the next record follows
and the counter DONE advances by 1. Where the rules leave a reading open, the model's is taken: log entries 30, 31, 32. (15_dram_and_store.md) -/
def Obligations.StoreKeepsEntriesKeysAndBlocks : Prop :=
  (∀ (s : State) (b : Fin 131072) (intentOk erasedOk : Bool) (fails : Nat),
    (s.store.erasing.contains b.val = true → After (.blockEraseDone b intentOk fails erasedOk) s fun t => (t.block b).pe = (s.block b).pe + 1 ∧
      ((t.block b).cls = if intentOk && erasedOk && decide (fails < 2) then 0 else 4) ∧ (∀ c, c ≠ b.val → t.block c = s.block c) ∧
      t.store.erasing = s.store.erasing.erase b.val ∧ SameArray s t ∧ RegsBut s t [Reg.ST_FREE_BLOCKS, Reg.ST_BAD_BLOCKS, Reg.ST_WEAR]) ∧
    (s.store.erasing.contains b.val = false → Passes (.blockEraseDone b intentOk fails erasedOk) s)) ∧
  (∀ (s : State) (b : Fin 131072) (retire : Bool) (pages : PageReads) (c : Nat), (s.block b).cls = 1 → s.freeFrom (s.store.blocks.length + 1) 0 = some c →
    After (.refreshDue b retire pages) s fun t => (t.block c).cls = 1 ∧ (t.block c).entry = (s.block b).entry ∧ (t.block c).chunk = (s.block b).chunk ∧
      (t.block c).reads = 0 ∧ (t.block b).cls = (if retire then 4 else 2) ∧ (∀ k, k ≠ b.val → k ≠ c → t.block k = s.block k) ∧
      t.rg Reg.ST_REFRESHED = s.rg Reg.ST_REFRESHED + 1 ∧ t.store.lib = s.store.lib ∧ SameArray s t) ∧
  (∀ (s : State) (b : Fin 131072) (retire : Bool) (pages : PageReads), (s.block b).cls ≠ 1 → Passes (.refreshDue b retire pages) s) ∧
  (∀ (s : State) (v : Word) (sigOk digestsOk : Bool), s.open → bit v 31 = true → s.store.writing = none →
    let t0 := s.plain Reg.STW_CTRL v
    let e := t0.fd Reg.STW_CTRL_ENTRY
    let r := t0.entryCheck e (t0.fd Reg.STW_CTRL_OWNER) sigOk digestsOk
    After (.entryWrite v sigOk digestsOk) s fun t => SameArray s t ∧ t.store.lib = s.store.lib ∧ RegsBut s t [Reg.STW_CTRL, Reg.ST_STATUS] ∧
      (r.2 = true → t.on Reg.STW_CTRL_DONE = true ∧ t.on Reg.STW_CTRL_BUSY = false ∧ t.fd Reg.STW_CTRL_RESULT = r.1 ∧ t.store = s.store) ∧
      (r.2 = false → t.on Reg.STW_CTRL_BUSY = true ∧ t.store = { s.store with writing := some (e, r.1) })) ∧
  (∀ (s : State) (e r : Nat) (aborted : Bool), s.store.writing = some (e, r) → r < 6 → s.on Reg.MAINT_STATUS_BUSY = false →
    After (.entryWriteDone aborted) s fun t => t.store.writing = none ∧ t.on Reg.STW_CTRL_DONE = true ∧ t.on Reg.STW_CTRL_BUSY = false ∧
      t.fd Reg.STW_CTRL_RESULT = (if aborted then 5 else r) ∧ SameArray s t ∧
      ((aborted = true ∨ r ≠ 0) → t.store.lib = s.store.lib) ∧ (aborted = false → r = 0 → (t.lib e).state = 1 ∧ ∀ k, k ≠ e → t.lib k = s.lib k)) ∧
  (∀ (s : State) (aborted : Bool), s.store.writing = none → Passes (.entryWriteDone aborted) s) ∧
  (∀ (s : State) (v : Word), s.open → bit v 31 = true →
    let e := (s.plain Reg.LIB_DELETE v).fd Reg.LIB_DELETE_ENTRY
    (((s.lib e).state = 0 ∨ (s.lib e).state = 3) → After (.libDelete v) s fun t => t.on Reg.LIB_DELETE_REFUSED = true ∧ t.store = s.store ∧
      OnlyRegs s t [Reg.LIB_DELETE]) ∧
    ((s.lib e).state ≠ 0 → (s.lib e).state ≠ 3 → After (.libDelete v) s fun t => (t.lib e).state = (if (s.lib e).uses = 0 then 0 else 3) ∧
      (∀ k, k ≠ e → t.lib k = s.lib k) ∧ SameArray s t)) ∧
  (∀ (s : State), s.open →
    let k := s.fd Reg.KEY_SEL_SLOT
    ((s.key k).locked = true → After .keyCommit s fun t => t.on Reg.KEY_CTRL_REFUSED = true ∧ OnlyRegs s t [Reg.KEY_CTRL]) ∧
    ((s.key k).locked = false → After .keyCommit s fun t => t.key k = ⟨true, false, (List.range 24).map fun w => tget 0 s.store.keyStage w⟩ ∧
      (∀ j, j ≠ k → t.key j = s.key j) ∧ t.regs = s.regs ∧ t.store.lib = s.store.lib) ∧
    ((s.key k).valid = false → After .keyLock s fun t => t.on Reg.KEY_CTRL_REFUSED = true ∧ OnlyRegs s t [Reg.KEY_CTRL]) ∧
    ((s.key k).valid = true → After .keyLock s fun t => t.key k = { s.key k with locked := true } ∧ (∀ j, j ≠ k → t.key j = s.key j) ∧
      t.regs = s.regs ∧ t.store.lib = s.store.lib)) ∧
  (∀ (s : State) (i : Fin 64) (v : Word), s.open → bit v 31 = true →
    let ok := s.pcOwned (bits v 23 12) i && s.pcOwned (bits v 11 0) i && decide (4 ≤ bits v 29 26) && decide (bits v 29 26 ≤ 15) &&
      s.inWindow i (s.stfBase i) (32 * 2 ^ bits v 29 26)
    (ok = true → After (.fetchArm i v) s fun t => t.on (Reg.STF_CTRL_EN i) = true ∧ t.rg (Reg.STF_TAKEN i) = 0 ∧
      tget ⟨0, 0⟩ t.store.fetch i = ⟨s.pc (bits v 23 12), 0⟩ ∧ SameArray s t ∧ RegsBut s t [Reg.STF_CTRL i, Reg.STF_TAKEN i]) ∧
    (ok = false → After (.fetchArm i v) s fun t => t.on (Reg.STF_CTRL_REFUSED i) = true ∧ t.on (Reg.STF_CTRL_EN i) = s.on (Reg.STF_CTRL_EN i) ∧
      OnlyRegs s t [Reg.STF_CTRL i])) ∧
  (∀ (s : State) (i : Fin 64) (sigOk : Bool) (bad : Option Nat) (pages : PageReads),
    let q := tget ⟨0, 0⟩ s.store.fetch i
    let a := s.stfBase i + 32 * (q.next % 2 ^ s.fd (Reg.STF_CTRL_LOG2 i))
    let r := s.fetchStatus i (s.rdWords a 8) sigOk bad
    s.on (Reg.STF_CTRL_EN i) = true → q.base + q.next + 1 ≤ s.pc (s.fd (Reg.STF_CTRL_REQ i)) → a + 20 < dramSize →
    After (.fetchComplete i sigOk bad pages) s fun t => t.rdB (a + 20) = BitVec.ofNat 8 r.1 ∧
      tget ⟨0, 0⟩ t.store.fetch i = { q with next := q.next + 1 } ∧ t.clusters = s.clusters ∧
      t.pc (s.fd (Reg.STF_CTRL_DONE i)) = min (s.pc (s.fd (Reg.STF_CTRL_DONE i)) + 1) (2 ^ 48 - 1)) ∧
  (∀ (s : State) (i : Fin 64) (sigOk : Bool) (bad : Option Nat) (pages : PageReads), s.on (Reg.STF_CTRL_EN i) = false →
    After (.fetchComplete i sigOk bad pages) s fun t => OnlyRegs s t [Reg.ST_CORR, Reg.ST_UNCORR])

/-- A frame is delivered, dropped or counted by the order of its checks; pauses, links and neighbour answers follow their rules. On a sub-port
whose link is up, a frame with two tags, above 9,216 bytes, with a bad FCS or for another address is counted in ETH_RX_DROPPED and has no
other effect; a global pause frame is counted in ETH_GPAUSE_DROPPED and has no other effect; a datagram for an own address whose header
checks is delivered while its buffer is not near full, and one whose header word 1 is not the complement of word 0 is counted as a mismatch
and not delivered. On a link that is down every frame is lost. With no group reply held: PFC sets and ends the pauses that it names and
RX_EN admits, and a pause that expires ends. A pause that is out is repeated while the buffer is above 512 KiB and ended at or below. An ARP
request for an own address is answered. An enabled sub-port of the mode comes up; one goes down. Where the rules leave a reading open, the
model's is taken: log entries 85. (12_sessions.md) -/
def Obligations.EthernetPortsTakeFramesAndPauses : Prop :=
  (∀ (s : State) (p : Fin 4) (sub : BitVec 2) (f : EthFrame) (fill : Nat),
    let up := (s.fd (Reg.ETH_STATUS_LINK_UP p)).testBit sub.toNat
    let plain := decide (f.tags < 2) && decide (f.bytes ≤ 9216) && f.fcsOk && s.macOk p sub.toNat f
    (up = false → Passes (.ethFrameReceive p sub f fill) s) ∧
    (up = true → plain = false → exec (.ethFrameReceive p sub f fill) s = .next (s.inc (Reg.ETH_RX_DROPPED p))) ∧
    (up = true → plain = true → f.kind = .globalPause → exec (.ethFrameReceive p sub f fill) s = .next (s.inc (Reg.ETH_GPAUSE_DROPPED p))) ∧
    (∀ d ip, up = true → plain = true → f.kind = .udp d false ip false false true false → d.hdr.length = 8 →
      s.ownAddr p sub.toNat false ip.toNat (if f.tags = 0 then 0 else f.vlan.toNat) = true → fill + f.bytes ≤ 524288 →
      tget false s.net.pfcSent (prioKey p sub.toNat f.prio) = false →
      (d.h 1 = ~~~(d.h 0) → bits (d.h 0) 31 28 = 1 → d.typ < 11 → d.len ≤ d.payload.length →
        After (.ethFrameReceive p sub f fill) s fun t => t.outbox = s.outbox ++ [.ethDelivered p sub.toNat d] ∧ t.regs = s.regs ∧
          t = { s with outbox := t.outbox, net := { s.net with rxFill := t.net.rxFill } }) ∧
      (d.h 1 ≠ ~~~(d.h 0) → After (.ethFrameReceive p sub f fill) s fun t => t.outbox = s.outbox ∧ SameArray s t ∧
        t.rg Reg.SES_CPL_DISCARD = s.rg Reg.SES_CPL_DISCARD + 1 ∧ t.rg Reg.FH_CPL_MISMATCH = s.rg Reg.FH_CPL_MISMATCH + 1 ∧
        RegsBut s t [Reg.SES_CPL_DISCARD, Reg.FH_CPL_MISMATCH]))) ∧
  (∀ (s : State) (p : Fin 4) (sub : BitVec 2) (en : BitVec 8) (quanta : List (BitVec 16)), s.net.groups = [] →
    After (.pfcReceive p sub en quanta) s fun t => t.rg (Reg.ETH_PFC_RX p) = s.rg (Reg.ETH_PFC_RX p) + 1 ∧
      (∀ q, q < 8 → tget 0 t.net.paused (prioKey p sub.toNat q) = if bit en q && (s.fd (Reg.ETH_PFC_RX_EN p)).testBit q
        then (quanta.getD q 0).toNat else tget 0 s.net.paused (prioKey p sub.toNat q)) ∧
      t.outbox = s.outbox ∧ SameArray s t ∧ RegsBut s t [Reg.ETH_PFC_RX p, Reg.ETH_PAUSED p]) ∧
  (∀ (s : State) (p : Fin 4) (sub : BitVec 2) (q : Fin 8), s.net.groups = [] →
    After (.pauseExpire p sub q) s fun t => tget 0 t.net.paused (prioKey p sub.toNat q) = 0 ∧
      (t.fd (Reg.ETH_PAUSED_PAUSED p)).testBit (8 * sub.toNat + q.val) = false ∧
      (∀ k, k ≠ prioKey p sub.toNat q → tget 0 t.net.paused k = tget 0 s.net.paused k) ∧ t.outbox = s.outbox ∧ SameArray s t ∧
      RegsBut s t [Reg.ETH_PAUSED p]) ∧
  (∀ (s : State) (p : Fin 4) (sub : BitVec 2) (q : Fin 8) (fill : Nat), s.sends →
    (tget false s.net.pfcSent (prioKey p sub.toNat q) = false → Passes (.pfcRepeat p sub q fill) s) ∧
    (tget false s.net.pfcSent (prioKey p sub.toNat q) = true →
      After (.pfcRepeat p sub q fill) s fun t => t.outbox = s.outbox ++ [.eth p sub.toNat (.pause q (if fill ≤ 524288 then 0 else 65535))] ∧
        tget false t.net.pfcSent (prioKey p sub.toNat q) = decide (524288 < fill) ∧ tget 0 t.net.rxFill (prioKey p sub.toNat q) = fill ∧
        t = { s with outbox := t.outbox, net := { s.net with pfcSent := t.net.pfcSent, rxFill := t.net.rxFill } })) ∧
  (∀ (s : State) (p : Fin 4) (sub : BitVec 2) (v6 : Bool) (ip : BitVec 128) (vlan : BitVec 12), s.sends →
    exec (.arpRequest p sub v6 ip vlan) s = .next (if s.ownAddr p sub.toNat v6 ip.toNat vlan.toNat && (s.fd (Reg.ETH_STATUS_LINK_UP p)).testBit sub.toNat
      then { s with outbox := s.outbox ++ [.eth p sub.toNat (.neighbour ip.toNat)] } else s)) ∧
  (∀ (s : State) (p : Fin 4) (sub : BitVec 2),
    let usable := (s.fd (Reg.ETH_CTRL_SUB_EN p)).testBit sub.toNat && decide (sub.toNat < subPorts (s.fd (Reg.ETH_CTRL_MODE p)))
    (usable = true → After (.ethLinkUp p sub) s fun t => OnlyRegs s t [Reg.ETH_STATUS p] ∧ ∀ b, b < 4 →
      (t.fd (Reg.ETH_STATUS_LINK_UP p)).testBit b = ((s.fd (Reg.ETH_STATUS_LINK_UP p)).testBit b || b == sub.toNat)) ∧
    (usable = false → Passes (.ethLinkUp p sub) s)) ∧
  (∀ (s : State) (p : Fin 4) (sub : BitVec 2) (fec : Bool), s.net.groups = [] →
    After (.ethLinkDown p sub fec) s fun t => OnlyRegs { s with net := t.net } t [Reg.ETH_STATUS p] ∧ t.outbox = s.outbox ∧ ∀ b, b < 4 →
      (t.fd (Reg.ETH_STATUS_LINK_UP p)).testBit b = ((s.fd (Reg.ETH_STATUS_LINK_UP p)).testBit b && ! (b == sub.toNat)))

/-- OPEN makes the lowest free session, a session's datagrams are taken in order or answered, and CLOSE and ageing end it. With the module
ready, awake and not shutting down: OPEN to a listener's port makes the lowest unused session open for its owner and source under its next
epoch, and answers it; with none free it is refused with code 2; to a port without a listener it has no effect. A datagram with another
epoch or source, or for a session not open, changes no session and is answered with an ERROR. ACK and KEEPALIVE take the acknowledgement
alone. A new fragment of the next request that is neither its first nor its last joins a request that is not complete. POLL of a request
without a kept reply is answered by an ACK. CLOSE of a session without sequences answers CLOSE_ACK and leaves it closed, its epoch kept. The
ACK timer sends what is owed; ageing closes a session all of whose requests are answered. A held destination of a group reply that expires
is counted and dropped. Where the rules leave a reading open, the model's is taken: log entries 21, 85. (12_sessions.md, 18_power.md) -/
def Obligations.SessionsOpenAnswerAndClose : Prop :=
  (∀ (s : State) (f : EthFrom) (d : Datagram), s.listenerAt f.dstUdp.toNat = none → Passes (.sesOpen f d) s) ∧
  (∀ (s : State) (f : EthFrom) (d : Datagram) (l : Nat), s.listenerAt f.dstUdp.toNat = some l → s.admits = true → s.asleep = false → s.sends →
    let i := s.fd (Reg.LSN_CTRL_OWNER l)
    s.on (Reg.INST_STATUS_IN_RESET i) = false → d.group = false → d.clean = true → d.session = 0 →
    (∀ n, (List.range 4096).find? (fun n => ! (s.ses n).opened) = some n →
      let e := ((s.ses n).epoch + 1) % 256
      After (.sesOpen f d) s fun t => t.ses n = { noSession with opened := true, owner := i, listener := l, epoch := e, peer := f.peer } ∧
        t.outbox = s.outbox ++ [.datagram f.port f.sub.toNat f.mac.toNat f.ip.toNat f.udp.toNat f.vlan.toNat
          ⟨sesHeader 1 false false n 0 0 0 d.reqId 0 e 0, []⟩] ∧
        (∀ m, m ≠ n → t.ses m = s.ses m) ∧ t = { s with outbox := t.outbox, net := { s.net with sessions := t.net.sessions } }) ∧
    ((∀ n, n < 4096 → (s.ses n).opened = true) → After (.sesOpen f d) s fun t => t.net = s.net ∧ t.rg Reg.SES_REFUSED = s.rg Reg.SES_REFUSED + 1 ∧
      SameArray s t ∧ RegsBut s t [Reg.SES_REFUSED, Reg.IRQ_STATUS])) ∧
  (∀ (s : State) (f : EthFrom) (d : Datagram), s.admits = true → s.asleep = false → d.group = false →
    ((s.ses d.session).opened = false ∨ (s.ses d.session).epoch ≠ d.epoch ∨ (s.ses d.session).peer ≠ f.peer) →
    (∀ r ∈ (s.ses d.session).requests, r.complete = false) →
    ∀ c ∈ [Instr.req f d, .ack f d, .poll f d, .close f d, .keepalive f d],
    After c s fun t => t.net = s.net ∧ t.rg Reg.SES_REFUSED = s.rg Reg.SES_REFUSED + 1 ∧ SameArray s t ∧ RegsBut s t [Reg.SES_REFUSED, Reg.IRQ_STATUS]) ∧
  (∀ (s : State) (f : EthFrom) (d : Datagram), s.admits = true → d.group = false → d.clean = true → s.asleep = false → s.sends →
    let n := d.session
    let x := (s.ses n).takeAck d
    let k := (d.seq + 2 ^ 32 - x.ack % 2 ^ 32) % 2 ^ 32
    (s.ses n).opened = true → (s.ses n).epoch = d.epoch → (s.ses n).peer = f.peer →
    exec (.ack f d) s = .next (s.setSes n x) ∧ exec (.keepalive f d) s = .next (s.setSes n x) ∧
    ((∀ r ∈ x.requests, r.reqId ≠ d.reqId ∨ r.reply = none) → After (.poll f d) s fun t =>
      t.outbox = s.outbox ++ [.datagram x.peer.port x.peer.sub x.peer.mac x.peer.ip x.peer.udp x.peer.vlan
        ⟨sesHeader 3 false false n 0 x.ack x.sack 0 0 x.epoch 0, []⟩] ∧ t.ses n = { x with unacked := 0 } ∧ t.regs = s.regs ∧ SameArray s t ∧
      ∀ m, m ≠ n → t.ses m = s.ses m) ∧
    (x.dup d.seq = false → k ≤ 4096 → (∀ r ∈ x.requests, r.reqId ≠ d.reqId) → d.reqId = x.lastReq + 1 →
      (x.requests.filter fun r => r.reply.isNone).length < 4 → d.frag ≠ 0 → d.last = false →
      d.body.length ≤ min (s.fd (Reg.LSN_MAXREQ_BYTES x.listener)) (16 * 2 ^ 20) →
      After (.req f d) s fun t => (∃ r ∈ (t.ses n).requests, r.reqId = d.reqId ∧ r.complete = false ∧ tget [] r.frags d.frag = d.body) ∧
        (t.ses n).lastReq = d.reqId ∧ t.net.seqs = s.net.seqs ∧ t.regs = s.regs ∧ SameArray s t ∧ ∀ m, m ≠ n → t.ses m = s.ses m) ∧
    (x.dup d.seq = true → d.typ ≠ 2 → After (.close f d) s fun t => t.rg Reg.SES_DUP_DROPPED = s.rg Reg.SES_DUP_DROPPED + 1 ∧
      (t.ses n).opened = true ∧ SameArray s t) ∧
    (x.dup d.seq = false → k ≤ 4096 → (∀ e ∈ s.net.seqs, e.2.session.map (·.1) ≠ some n) →
      After (.close f d) s fun t => t.ses n = { noSession with epoch := x.epoch } ∧ t.net.seqs = s.net.seqs ∧ t.regs = s.regs ∧ SameArray s t ∧
        (∀ m, m ≠ n → t.ses m = s.ses m) ∧ ∃ y : Session, t.outbox = s.outbox ++ [.datagram x.peer.port x.peer.sub x.peer.mac x.peer.ip x.peer.udp
          x.peer.vlan ⟨sesHeader 7 false false n 0 y.ack y.sack d.reqId 0 x.epoch 16, leBytes 8 x.qwait ++ leBytes 8 x.preempt⟩])) ∧
  (∀ (s : State) (n : Fin 4096),
    let x := s.ses n
    (x.opened = true → 0 < x.unacked → s.sends → After (.sessionAckTimer n) s fun t => t.ses n = { x with unacked := 0 } ∧
      t.outbox = s.outbox ++ [.datagram x.peer.port x.peer.sub x.peer.mac x.peer.ip x.peer.udp x.peer.vlan
        ⟨sesHeader 3 false false n 0 x.ack x.sack 0 0 x.epoch 0, []⟩] ∧ t = { s with outbox := t.outbox, net := { s.net with sessions := t.net.sessions } }) ∧
    ((x.opened = false ∨ x.unacked = 0) → Passes (.sessionAckTimer n) s) ∧
    (x.opened = true → (∀ r ∈ x.requests, r.reply.isSome = true) → (∀ e ∈ s.net.seqs, e.2.session.map (·.1) ≠ some n.val) →
      After (.sessionAgeOut n) s fun t => t.ses n = { noSession with epoch := x.epoch } ∧ t.on Reg.IRQ_STATUS_SESSION = true ∧
        RegsBut s t [Reg.IRQ_STATUS] ∧ SameArray s t ∧ ∀ m, m ≠ n.val → t.ses m = s.ses m) ∧
    ((x.opened = false ∨ ∃ r ∈ x.requests, r.reply = none) → Passes (.sessionAgeOut n) s)) ∧
  (∀ (s : State) (n : Fin 4096) (reqId : Word) (dest : Fin 64) (r : GroupReply) (y : GroupDest),
    s.net.groups.find? (fun r => r.session == n.val && r.reqId == reqId.toNat) = some r → y ∈ r.dests → y.dest = dest.val → y.heldFrom.isSome = true →
    y.outcome = 0 → (∃ z ∈ r.dests, z.dest ≠ dest.val ∧ z.outcome = 0) →
    After (.groupHoldExpire n reqId dest) s fun t => t.rg Reg.GRP_HELD_DROPPED = s.rg Reg.GRP_HELD_DROPPED + 1 ∧ OnlyRegs { s with net := t.net } t
        [Reg.GRP_HELD_DROPPED] ∧ t.net.groups = s.net.groups.erase r ++
        [{ r with dests := r.dests.map fun d => if d.dest = dest.val then { d with outcome := 2 } else d }]) ∧
  (∀ (s : State) (n : Fin 4096) (reqId : Word) (dest : Fin 64), s.net.groups = [] → Passes (.groupHoldExpire n reqId dest) s)

/-- Ports train, retrain and go down; blocks are acknowledged or asked for again; lanes retire; limiters follow their windows. For a port whose
third lane has not failed: EN set trains a DISABLED port, a link that has trained is UP with its peer recorded and its limiters restarted, a
DOWN port with EN trains again. A block that fails its CRC is asked for again and its run of failures counted; the block expected, with
nothing waiting, is acknowledged and its acknowledgement and credits taken; another block has no effect. A replay request in the buffer
sends again that block and those after it. A loss of block lock, and RETRAIN, make an UP port retrain; a port that is still RETRAINING at
the timeout is counted down. A lane retired for the first time is reported, the spare lane serving. A head that waits too long is dropped
and counted, a multicast branch never. A marked window lowers the rate by an eighth, to at least 2; once one has ended, an unmarked one
raises it by 4; before, each ramp raises it by 2, to at most 256. Where the rules leave a reading open, the model's is taken: log entries
63, 68. (13_flarid_links.md) -/
def Obligations.FlaridPortsTrainAndCarryBlocks : Prop :=
  (∀ (s : State) (p : Fin 16) (v : Word), s.open → (s.port p).dead = false → bit v 30 = false →
    (bit v 31 = true → ∀ c ∈ [Instr.flPortEnable p v, .retrain p v], After c s fun t => t.portState p = (if s.portState p = 0 then 1 else s.portState p) ∧
      t.on (Reg.FL_CTRL_EN p) = true ∧ OnlyRegs s t [Reg.FL_CTRL p, Reg.FL_STATUS p]) ∧
    (bit v 31 = false → s.portState p = 0 → After (.flPortEnable p v) s fun t => t.portState p = 0 ∧ t.on (Reg.FL_CTRL_EN p) = false ∧
      OnlyRegs s t [Reg.FL_CTRL p])) ∧
  (∀ (s : State) (p : Fin 16) (v : Word), s.open → (s.port p).dead = false → bit v 31 = true → bit v 30 = true → s.portState p = 2 →
    After (.retrain p v) s fun t => ∃ u : State, t = u.refresh ∧ u.portState p = 3 ∧ RegsBut s u [Reg.FL_CTRL p, Reg.FL_STATUS p] ∧ SameArray s u) ∧
  (∀ (s : State) (p : Fin 16) (peerPort : BitVec 4) (pkg : BitVec 14), (s.portState p = 1 ∨ s.portState p = 3) → (s.port p).dead = false →
    After (.linkTrained p peerPort pkg) s fun t => ∃ u : State, t = ((u.drain p).refresh).summary ∧ u.portState p = 2 ∧
      u.fd (Reg.FL_STATUS_PEER_PORT p) = peerPort.toNat ∧ u.fd (Reg.FL_STATUS_PEER_PKG p) = pkg.toNat ∧
      u.fd (Reg.FL_STATUS_LANES p) = s.laneWidth p ∧ (∀ v, v < 4 → u.fd (Reg.FL_RATE_RATE p v) = 128) ∧
      u.rg (Reg.FL_RETRAINS p) = s.rg (Reg.FL_RETRAINS p) + (if s.portState p = 3 then 1 else 0) ∧ SameArray s u) ∧
  (∀ (s : State) (p : Fin 16) (a : BitVec 4) (b : BitVec 14), s.portState p ≠ 1 → s.portState p ≠ 3 → Passes (.linkTrained p a b) s) ∧
  (∀ (s : State) (p : Fin 16),
    (s.portState p = 4 → s.on (Reg.FL_CTRL_EN p) = true → (s.port p).dead = false →
      After (.trainingRetry p) s fun t => t.portState p = 1 ∧ OnlyRegs s t [Reg.FL_STATUS p]) ∧
    ((s.portState p ≠ 4 ∨ s.on (Reg.FL_CTRL_EN p) = false ∨ (s.port p).dead = true) → Passes (.trainingRetry p) s)) ∧
  (∀ (s : State) (p : Fin 16) (seq ack : BitVec 12) (credits : List Nat), s.sends →
    let x := s.port p
    (s.portState p ≠ 2 → ∀ ok, Passes (.linkBlockReceive p seq ack credits ok) s) ∧
    (s.portState p = 2 → x.rxBad < 7 → After (.linkBlockReceive p seq ack credits false) s fun t => t.port p = { x with rxBad := x.rxBad + 1 } ∧
      t.outbox = s.outbox ++ [.link p 1 (x.rxNext % 4096)] ∧ t = { s with outbox := t.outbox, links := { s.links with ports := t.links.ports } }) ∧
    (s.portState p = 2 → seq.toNat = x.rxNext % 4096 → x.waiting = [] → After (.linkBlockReceive p seq ack credits true) s fun t =>
      t.port p = { x with
        rxNext := x.rxNext + 1, rxBad := 0, acked := x.ackTo ack.toNat
        credits := x.credits.mapIdx fun v c => min 512 (c + credits.getD v 0) } ∧
      t.outbox = s.outbox ++ [.link p 0 seq.toNat] ∧ (∀ q, q ≠ p.val → t.port q = s.port q) ∧
      t = { s with outbox := t.outbox, links := { s.links with ports := t.links.ports } }) ∧
    (s.portState p = 2 → seq.toNat ≠ x.rxNext % 4096 → Passes (.linkBlockReceive p seq ack credits true) s)) ∧
  (∀ (s : State) (p : Fin 16) (block : BitVec 12), s.sends →
    let x := s.port p
    let b := x.acked + (block.toNat + 4096 - x.acked % 4096) % 4096
    (s.portState p = 2 → b < x.blocks → After (.replayRequest p block) s fun t => t.rg (Reg.FL_REPLAYS p) = s.rg (Reg.FL_REPLAYS p) + 1 ∧
      t.outbox = s.outbox ++ (List.range (x.blocks - b)).map (fun k => .link p 2 ((b + k) % 4096)) ∧
      OnlyRegs { s with outbox := t.outbox } t [Reg.FL_REPLAYS p]) ∧
    ((s.portState p ≠ 2 ∨ x.blocks ≤ b) → Passes (.replayRequest p block) s)) ∧
  (∀ (s : State) (p : Fin 16), (s.portState p = 2 → After (.blockLockLoss p) s fun t => ∃ u : State, t = u.refresh ∧ u.portState p = 3 ∧
      RegsBut s u [Reg.FL_STATUS p] ∧ SameArray s u) ∧ (s.portState p ≠ 2 → Passes (.blockLockLoss p) s)) ∧
  (∀ (s : State) (p : Fin 16), (s.portState p = 3 → exec (.retrainTimeout p) s = .next (s.portDown p)) ∧
    (s.portState p ≠ 3 → Passes (.retrainTimeout p) s)) ∧
  (∀ (s : State) (p : Fin 16) (lane : Fin 5), (s.fd (Reg.FL_STATUS_FAILED p) = 0 → s.portState p ≠ 0 → (s.port p).dead = false →
      After (.laneRetire p lane) s fun t => ∃ u : State, t = u.retrain p ∧ u.fd (Reg.FL_STATUS_FAILED p) = 2 ^ lane.val ∧
        u.fd (Reg.FL_STATUS_SPARE_USED p) = b2n (lane ≠ 4) ∧ u.repair.inFlight = s.repair.inFlight ++ [⟨portStop p, 12, lane, true⟩] ∧ SameArray s u) ∧
    ((s.fd (Reg.FL_STATUS_FAILED p)).testBit lane = true → Passes (.laneRetire p lane) s)) ∧
  (∀ (s : State) (p : Fin 16) (k : Nat), (∀ w, (s.port p).waiting[k]? = some w → w.mcast = false → s.portState p ≠ 3 →
      After (.flWaitTimeout p k) s fun t => ∃ u : State, t = u.drain p ∧ u.port p = { s.port p with waiting := (s.port p).waiting.eraseIdx k } ∧
        u.rg (Reg.FL_WAIT_DROPS p) = s.rg (Reg.FL_WAIT_DROPS p) + 1) ∧
    (∀ w, (s.port p).waiting[k]? = some w → w.mcast = true → Passes (.flWaitTimeout p k) s)) ∧
  (∀ (s : State) (p : Fin 16) (v : Fin 4),
    let x := s.port p
    let r := s.fd (Reg.FL_RATE_RATE p v)
    (x.marked.getD v false = true → x.marked.length = 4 → x.ended.length = 4 → r ≤ 256 → After (.limiterWindow p v) s fun t =>
      t.fd (Reg.FL_RATE_RATE p v) = max 2 (7 * r / 8) ∧ (t.port p).marked.getD v false = false ∧ (t.port p).ended.getD v false = true ∧
      RegsBut s t [Reg.FL_RATE p v] ∧ ∀ q, q ≠ p.val → t.port q = s.port q) ∧
    (x.marked.getD v false = false → x.ended.getD v false = true → After (.limiterWindow p v) s fun t =>
      t.fd (Reg.FL_RATE_RATE p v) = min 256 (r + 4) ∧ OnlyRegs s t [Reg.FL_RATE p v]) ∧
    (x.marked.getD v false = false → x.ended.getD v false = false → Passes (.limiterWindow p v) s) ∧
    (x.ended.getD v false = false → s.portState p ≠ 4 → s.portState p ≠ 0 → After (.limiterRamp p v) s fun t =>
      t.fd (Reg.FL_RATE_RATE p v) = min 256 (r + 2) ∧ OnlyRegs s t [Reg.FL_RATE p v]) ∧
    (x.ended.getD v false = true → Passes (.limiterRamp p v) s))

/-- A head is checked, delivered or passed on; a request has its effect once and is answered; multicast writes land and are counted. On a port
that is UP or RETRAINING: a head whose complements fail is counted and has no other effect on links; one with a key the port admits that has
reached its end is delivered where it is a reply for this package, counted as misrouted for another, and passed on by its next port
otherwise; a multicast one is delivered. While the module sleeps or wakes, requests wait. A READ of a remote window is answered with the
bytes, a WRITE leaves its bytes there; where the arrival port's key delivers to no instance each is refused with reason 1. ATOMIC_ADD adds
modulo 2^64 to its 8 bytes, and COUNTER_ADD advances an owned counter; a copy of one already served changes no byte and is answered again. A
multicast write for this package leaves its bytes; one for no group in use has no effect; a multicast frame without an armed receiver is
counted refused. A NOTICE of KIND 2 is reported. Where the rules leave a reading open, the model's is taken: log entries 2, 64, 65, 67, 69. (13_flarid_links.md, 14_many_packages.md, 18_power.md) -/
def Obligations.FlaridPacketsAreDeliveredAndAnswered : Prop :=
  (∀ (s : State) (q : Fin 16) (p : FlPacket),
    let p' := p.arrivedAt q
    (s.portState q ≠ 2 → s.portState q ≠ 3 → Passes (.flaridHeadArrive q p) s) ∧
    ((s.portState q = 2 ∨ s.portState q = 3) → p.good = false → After (.flaridHeadArrive q p) s fun t => t.links = s.links ∧ t.outbox = s.outbox ∧
      SameArray s t ∧ t.rg (Reg.FL_CPL_DISCARD q) = s.rg (Reg.FL_CPL_DISCARD q) + 1 ∧ t.rg Reg.FH_CPL_MISMATCH = s.rg Reg.FH_CPL_MISMATCH + 1 ∧
      RegsBut s t [Reg.FL_CPL_DISCARD q, Reg.FH_CPL_MISMATCH]) ∧
    ((s.portState q = 2 ∨ s.portState q = 3) → p.good = true → (s.keyEntry q p'.pkey).isSome = true →
      (p'.mcast = true → After (.flaridHeadArrive q p) s fun t => t = { s with outbox := s.outbox ++ [.flDelivered q p'] }) ∧
      (p'.mcast = false → p'.hop = p'.hops → p'.dst ≠ s.srcId → exec (.flaridHeadArrive q p) s = .next (s.inc Reg.FL_MISROUTED)) ∧
      (p'.mcast = false → p'.hop = p'.hops → p'.dst = s.srcId → p'.truncated = false → p'.isReply = true →
        After (.flaridHeadArrive q p) s fun t => t = { s with outbox := s.outbox ++ [.flDelivered q p'] }) ∧
      (p'.mcast = false → p'.hop ≠ p'.hops → s.portOff (nib p'.route p'.hop) = false → (s.keyEntry (nib p'.route p'.hop) p'.pkey).isSome = true →
        exec (.flaridHeadArrive q p) s = .next (s.depart (nib p'.route p'.hop) p')))) ∧
  (∀ (s : State) (q : Fin 16) (p : FlPacket), s.asleep = true →
    Passes (.read q p) s ∧ Passes (.write q p) s ∧ Passes (.atomicAdd q p) s ∧ Passes (.counterAdd q p) s) ∧
  (∀ (s : State) (q : Fin 16) (p : FlPacket), s.asleep = false → s.target q p = none →
    exec (.read q p) s = .next (s.nack p 1) ∧ exec (.write q p) s = .next (s.nack p 1)) ∧
  (∀ (s : State) (q : Fin 16) (p : FlPacket), s.asleep = false →
    let n := (p.o 3).toNat
    s.accessReason q p p.addr n = none → n % 64 = 0 → 0 < n → n ≤ 4096 → s.rangeReady p.addr n = true →
    exec (.read q p) s = .next (s.answer (flReply p s.srcId 4 0 p.prio (flReplyOp p 0 0) (s.rdBytes p.addr n)))) ∧
  (∀ (s : State) (q : Fin 16) (p : FlPacket), s.asleep = false → s.accessReason q p p.addr p.data.length = none →
    s.rangeReady p.addr p.data.length = true → p.addr + p.data.length ≤ dramSize →
    After (.write q p) s fun t => (∀ k, k < p.data.length → t.rdB (p.addr + k) = p.data.getD k 0#8) ∧
      (∀ b, b < p.addr ∨ p.addr + p.data.length ≤ b → t.rdB b = s.rdB b) ∧ t.clusters = s.clusters ∧ t.host = s.host ∧ t.net = s.net) ∧
  (∀ (s : State) (q : Fin 16) (p : FlPacket), s.asleep = false →
    let a := p.addr / 8 * 8
    let old := leVal (s.rdBytes a 8)
    (s.accessReason q p a 8 = none → s.rangeReady a 8 = true → s.links.dup.find? (fun e => e.1 == p.dupKey) = none → s.links.dup.length < 65536 →
      a + 8 ≤ dramSize → After (.atomicAdd q p) s fun t =>
        leVal (t.rdBytes a 8) = (old + (p.o 3).toNat + 2 ^ 32 * (p.o 4).toNat) % 2 ^ 64 ∧ (∀ b, b < a ∨ a + 8 ≤ b → t.rdB b = s.rdB b) ∧
        thas t.links.dup p.dupKey = true ∧ t.clusters = s.clusters ∧ t.host = s.host) ∧
    (∀ i, s.target q p = some i → s.on (Reg.INST_STATUS_IN_RESET i) = false → s.pcOwned (bits (p.o 4) 11 0) i = true →
      s.links.dup.find? (fun e => e.1 == p.dupKey) = none → s.links.dup.length < 65536 →
      After (.counterAdd q p) s fun t => t.pc (bits (p.o 4) 11 0) = min (s.pc (bits (p.o 4) 11 0) + (p.o 3).toNat) (2 ^ 48 - 1) ∧
        thas t.links.dup p.dupKey = true ∧ SameArray s t) ∧
    (∀ e, s.links.dup.find? (fun e => e.1 == p.dupKey) = some e → ((s.accessReason q p a 8).isSome = true ∨ s.rangeReady a 8 = true) →
      ∀ c ∈ [Instr.atomicAdd q p, .counterAdd q p], After c s fun t => t.dram = s.dram ∧ t.clusters = s.clusters ∧ t.host = s.host ∧
        t.links.dup = s.links.dup ∧ t.rg Reg.FL_DUP_SUPPRESSED = s.rg Reg.FL_DUP_SUPPRESSED + 1 ∧ ∀ j, j < 4096 → t.pc j = s.pc j)) ∧
  (∀ (s : State) (q : Fin 16) (p : FlPacket), s.groupEntry p = none → Passes (.mcastWrite q p) s ∧ Passes (.mcastFrame q p) s) ∧
  (∀ (s : State) (q : Fin 16) (p : FlPacket) (w : Word), s.groupEntry p = some w → bit w 16 = true →
    (List.range 16).filter (fun k => bit w k && some k ≠ some q.val) = [] → p.truncated = false → s.fd Reg.PWR_STATUS_STATE ≠ 3 →
    (s.accessReason q p p.addr p.data.length = none → s.rangeReady p.addr p.data.length = true → p.addr + p.data.length ≤ dramSize →
      After (.mcastWrite q p) s fun t => (∀ k, k < p.data.length → t.rdB (p.addr + k) = p.data.getD k 0#8) ∧
        (∀ b, b < p.addr ∨ p.addr + p.data.length ≤ b → t.rdB b = s.rdB b) ∧ t.clusters = s.clusters) ∧
    (s.rxTakes q p = false → exec (.mcastFrame q p) s = .next (s.inc Reg.FL_MC_REFUSED)) ∧
    (s.rxTakes q p = true → s.rangeReady (s.rxAddr + p.addr) p.data.length = true → s.rxAddr + p.addr + p.data.length ≤ dramSize →
      After (.mcastFrame q p) s fun t => ∃ u : State, t = u.rxTry ∧ u.images.rxHave = s.images.rxHave ++ [(p.addr, p.data.length)] ∧
        (∀ k, k < p.data.length → u.rdB (s.rxAddr + p.addr + k) = p.data.getD k 0#8) ∧
        (∀ b, b < s.rxAddr + p.addr ∨ s.rxAddr + p.addr + p.data.length ≤ b → u.rdB b = s.rdB b) ∧ u.clusters = s.clusters)) ∧
  (∀ (s : State) (p : FlPacket), (bits (p.o 3) 31 28 = 2 → After (.notice p) s fun t =>
      t.repair.inFlight = s.repair.inFlight ++ [⟨hubStop 4, 13, bits (p.o 3) 13 0, true⟩] ∧ t = { s with repair := { s.repair with inFlight := t.repair.inFlight } }) ∧
    (bits (p.o 3) 31 28 = 1 → After (.notice p) s fun t => t.rg Reg.FL_PARTIAL = s.rg Reg.FL_PARTIAL + 1 ∧ SameArray s t) ∧
    (bits (p.o 3) 31 28 ≠ 1 → bits (p.o 3) 31 28 ≠ 2 → Passes (.notice p) s))

/-- A reply settles its request or is late, timeouts fail over, tables and keys are committed with their complements or refused. A reply that
names no tracked request counts in FL_LATE_REPLIES and has no other effect but a NACK's count. With nothing waiting at the egress, READ_DATA
for a live RLOAD leaves its bytes in the scratchpad, and it and an ACK take their request out of the tracker; BUSY and ASLEEP mark it to be
sent again. A resend, a RETURN and a timeout of a tracked request make it go by another route; without one they have no effect, or the
RETURN is late. An expiring mark, epoch, duplicate entry or cache entry goes alone. A fenced request waits while an earlier one to its
destination is open. Table reads load the window from the entry; writes store it where the complements match and the routes are in range,
else RESULT 1 or 2. A key commits when its complement matches the staged word, else it stays and the mismatch is counted; FL_SRC_ID changes
only while all ports are DISABLED. Where the rules leave a reading open, the model's is taken: log entries 66, 67, 69. (13_flarid_links.md) -/
def Obligations.RequestsRepliesAndTablesOfTheLinks : Prop :=
  (∀ (s : State) (p : FlPacket), s.trackedReq p.reqId p.src = none →
    exec (.readData p) s = .next (s.inc Reg.FL_LATE_REPLIES) ∧ exec (.flAck p) s = .next (s.inc Reg.FL_LATE_REPLIES) ∧
    exec (.nack p) s = .next ((s.inc Reg.FL_NACKS).inc Reg.FL_LATE_REPLIES)) ∧
  (∀ (s : State) (p : FlPacket) (r : FlReq), s.trackedReq p.reqId p.src = some r → s.links.egress = [] → p.echo = false →
    (After (.flAck p) s fun t => (∀ x ∈ t.links.tracked, x.id ≠ r.id) ∧ (∀ x ∈ s.links.tracked, x.id ≠ r.id → x ∈ t.links.tracked) ∧ SameArray s t ∧
      t.regs = s.regs ∧ t.outbox = s.outbox) ∧
    (∀ n k desc block sp, r.use = .rload n k desc block sp → s.reqLive r = true → sp + p.data.length ≤ 0x600000 →
      After (.readData p) s fun t => (∀ j, j < p.data.length → (t.cl n).rd (sp + j) = p.data.getD j 0#8) ∧
        (∀ b, b < sp ∨ sp + p.data.length ≤ b → (t.cl n).rd b = (s.cl n).rd b) ∧ (∀ m, m ≠ n → t.cl m = s.cl m) ∧ SameDram s t ∧
        (∀ x ∈ t.links.tracked, x.id ≠ r.id)) ∧
    ((p.status = 5 ∨ p.status = 6) → After (.nack p) s fun t => t.rg Reg.FL_NACKS = s.rg Reg.FL_NACKS + 1 ∧
      t.links.tracked = (s.links.tracked.map fun x => if x.id = r.id then { x with later := true } else x) ∧ OnlyRegs { s with links := t.links } t [Reg.FL_NACKS])) ∧
  (∀ (s : State) (id : Word), (∀ r, s.links.tracked.find? (fun r => r.id == id.toNat && r.later) = some r → exec (.nackResend id) s = .next (s.resend r)) ∧
    ((∀ r ∈ s.links.tracked, r.id ≠ id.toNat ∨ r.later = false) → Passes (.nackResend id) s) ∧
    ((∀ r ∈ s.links.tracked, r.id ≠ id.toNat) → Passes (.requestTimeout id) s) ∧
    (∀ r, s.links.tracked.find? (fun r => r.id == id.toNat && ! r.later) = some r → r.epoch = tget 0 s.links.epochOut r.dest →
      exec (.requestTimeout id) s = .next ((s.inc Reg.FL_TIMEOUTS).routeLost r)) ∧
    (∀ r, s.links.egress.find? (fun r => r.id == id.toNat && r.fence) = some r →
      (s.earlier r = true → Passes (.fencedInject id) s) ∧
      (s.earlier r = false → s.links.tracked.length < 16384 →
        exec (.fencedInject id) s = .next ({ s with links := { s.links with egress := s.links.egress.erase r } }.inject r false)))) ∧
  (∀ (s : State) (p : FlPacket), (∀ r, s.links.tracked.find? (fun r => r.id == p.reqId && r.epoch == p.epoch && ! r.later) = some r →
      exec (.flReturn p) s = .next (s.routeLost r)) ∧
    ((∀ r ∈ s.links.tracked, r.id ≠ p.reqId) → exec (.flReturn p) s = .next (s.inc Reg.FL_LATE_REPLIES))) ∧
  (∀ (s : State) (dest : BitVec 14) (r : Fin 4) (id : Word) (p : Fin 16),
    ((s.routeEnt dest.toNat).failed.getD r false = true → After (.routeMarkExpire dest r) s fun t => ∃ u : State, t = u.refresh ∧
      u.routeEnt dest.toNat = { s.routeEnt dest.toNat with failed := (s.routeEnt dest.toNat).failed.set r false } ∧
      (∀ d, d ≠ dest.toNat → u.routeEnt d = s.routeEnt d) ∧ u.regs = s.regs) ∧
    ((s.routeEnt dest.toNat).failed.getD r false = false → Passes (.routeMarkExpire dest r) s) ∧
    (After (.epochExpire dest) s fun t => thas t.links.epochIn dest.toNat = false ∧ (∀ k, k ≠ dest.toNat → tget 0 t.links.epochIn k = tget 0 s.links.epochIn k) ∧
      t = { s with links := { s.links with epochIn := t.links.epochIn } }) ∧
    (After (.dupEntryExpire dest id) s fun t => thas t.links.dup (2 ^ 32 * dest.toNat + id.toNat) = false ∧
      (∀ k, k ≠ 2 ^ 32 * dest.toNat + id.toNat → thas t.links.dup k = thas s.links.dup k) ∧ t = { s with links := { s.links with dup := t.links.dup } }) ∧
    (After (.routeCacheExpire p dest) s fun t => t.port p = { s.port p with cache := (s.port p).cache.erase dest.toNat } ∧
      (∀ q, q ≠ p.val → t.port q = s.port q) ∧ t = { s with links := { s.links with ports := t.links.ports } })) ∧
  (∀ (s : State), s.open →
    let d := s.fd Reg.FL_RT_SEL_DEST
    let g := s.fd Reg.FL_MC_SEL_GROUP
    let e := s.routeEnt d
    let paired := (List.range 4).all fun r => s.rtCpl r
    let ok := (List.range 4).all fun r => (s.rtRoute r).ok
    (After .rtRead s fun t => t.links = s.links ∧ t.on Reg.FL_RT_MODE_VALID = e.valid ∧ t.on Reg.FL_RT_MODE_SPREAD = e.spread ∧
      t.fd Reg.FL_RT_STATUS_RESULT = 0 ∧ (∀ r, r < 4 → t.on (Reg.FL_RT_CTRL_VALID r) = (e.routes.getD r noRoute).valid ∧ t.rtCpl r = true ∧
        t.rg (Reg.FL_RT_LO r) = lo32 (e.routes.getD r noRoute).bits ∧ t.rg (Reg.FL_RT_HI r) = hi32 (e.routes.getD r noRoute).bits) ∧ SameArray s t) ∧
    (paired = true → ok = true → After .rtWrite s fun t => ∃ u : State, t = u.refresh ∧ u.routeEnt d =
        ⟨s.on Reg.FL_RT_MODE_VALID, s.on Reg.FL_RT_MODE_SPREAD, (List.range 4).map s.rtRoute, [false, false, false, false], 0⟩ ∧
      (∀ k, k ≠ d → u.routeEnt k = s.routeEnt k) ∧ u.fd Reg.FL_RT_STATUS_RESULT = 0 ∧ RegsBut s u [Reg.FL_RT_STATUS]) ∧
    ((paired = false ∨ ok = false) → After .rtWrite s fun t => t.links = s.links ∧ t.fd Reg.FL_RT_STATUS_RESULT = (if paired then 2 else 1) ∧ SameArray s t) ∧
    (After .mcRead s fun t => t.rg Reg.FL_MC_ENTRY = tget (0 : Word) s.links.groups g ∧ t.rg Reg.FL_MC_ENTRY_N = ~~~(tget (0 : Word) s.links.groups g) ∧
      t.fd Reg.FL_MC_STATUS_RESULT = 0 ∧ OnlyRegs s t [Reg.FL_MC_ENTRY, Reg.FL_MC_ENTRY_N, Reg.FL_MC_STATUS]) ∧
    (s.rg Reg.FL_MC_ENTRY_N = ~~~(s.rg Reg.FL_MC_ENTRY) → After .mcWrite s fun t => tget (0 : Word) t.links.groups g = s.rg Reg.FL_MC_ENTRY ∧
      (∀ k, k ≠ g → tget (0 : Word) t.links.groups k = tget (0 : Word) s.links.groups k) ∧ t.fd Reg.FL_MC_STATUS_RESULT = 0 ∧ RegsBut s t [Reg.FL_MC_STATUS]) ∧
    (s.rg Reg.FL_MC_ENTRY_N ≠ ~~~(s.rg Reg.FL_MC_ENTRY) → After .mcWrite s fun t => t.links = s.links ∧ t.fd Reg.FL_MC_STATUS_RESULT = 1 ∧
      t.rg Reg.FH_CPL_MISMATCH = s.rg Reg.FH_CPL_MISMATCH + 1)) ∧
  (∀ (s : State) (p k : Fin 16) (i : Fin 64) (v : Word), s.open →
    ∀ x ∈ [(Instr.flKeyCommit p k v, Reg.FL_KEY p k, Reg.FL_KEY_N p k), (.instKeyCommit i v, Reg.FL_INST_KEY i, Reg.FL_INST_KEY_N i)],
    (v = ~~~(s.stagedAt x.2.1) → After x.1 s fun t => t.rg x.2.1 = s.stagedAt x.2.1 ∧ t.rg x.2.2 = v ∧ OnlyRegs s t [x.2.1, x.2.2]) ∧
    (v ≠ ~~~(s.stagedAt x.2.1) → After x.1 s fun t => t.rg Reg.FH_CPL_MISMATCH = s.rg Reg.FH_CPL_MISMATCH + 1 ∧ RegsBut s t [Reg.FH_CPL_MISMATCH] ∧
      t.links = s.links ∧ SameArray s t)) ∧
  (∀ (s : State) (v : Word), s.open →
    (bits v 29 16 + bits v 13 0 = 16383 → (∀ p, p < 16 → s.portState p = 0) → After (.flSrcIdWrite v) s fun t => t.srcId = bits v 13 0 ∧
      OnlyRegs s t [Reg.FL_SRC_ID]) ∧
    (bits v 29 16 + bits v 13 0 = 16383 → (∃ p, p < 16 ∧ s.portState p ≠ 0) → Passes (.flSrcIdWrite v) s))

/-- An instance arms its step gate, starts a broadcast and arms its statistics block, each only where its rule lets it. With writes let through,
a write of XCH_GATE_CTRL that sets EN arms the gate where the instance owns the counter, PER_STEP is not 0 and no run of it is in progress:
EN is set, the base is the counter's value, STEPS is 0 and nothing else changes; elsewhere only REFUSED sets. One that clears EN leaves no
step of the instance held, and PER_STEP 0 keeps its old value. A write of XCH_BC_CTRL with GO and without ON_COMMIT starts one broadcast of
the source range, or sets REFUSED where one is under way or the range is outside every window; without GO it starts none. BROADCAST_DONE
with a ready source ends it with BUSY clear and DONE set, and sends nothing without a valid key; without a broadcast it has no effect. A
write of STAT_CTRL that sets EN is refused where the block's array is outside every window or longer than 16,384 slices; else it takes, and
one with CLEAR sets the four totals to 0. Where the rules leave a reading open, the model's is taken: log entries 24, 55, 62. (14_many_packages.md) -/
def Obligations.GatesBroadcastsAndStatisticsAreArmed : Prop :=
  (∀ (s : State) (i : Fin 64) (v : Word), s.open → bit v 31 = true →
    let c := bits v 27 16
    (s.pcOwned c i = true → bits v 15 0 ≠ 0 → s.instRuns i = false →
      After (.gateArm i v) s fun t => t.on (Reg.XCH_GATE_CTRL_EN i) = true ∧ t.fd (Reg.XCH_GATE_CTRL_COUNTER i) = c ∧
        t.fd (Reg.XCH_GATE_CTRL_PER_STEP i) = bits v 15 0 ∧ t.rg64 (Reg.XCH_GATE_BASE_LO i) = s.pc c ∧ t.rg (Reg.XCH_GATE_STEPS i) = 0 ∧
        OnlyRegs s t [Reg.XCH_GATE_CTRL i, Reg.XCH_GATE_BASE_LO i, Reg.XCH_GATE_BASE_HI i, Reg.XCH_GATE_STEPS i]) ∧
    (s.pcOwned c i = false ∨ bits v 15 0 = 0 ∨ s.instRuns i = true →
      After (.gateArm i v) s fun t => t.on (Reg.XCH_GATE_CTRL_REFUSED i) = true ∧ t.on (Reg.XCH_GATE_CTRL_EN i) = s.on (Reg.XCH_GATE_CTRL_EN i) ∧
        OnlyRegs s t [Reg.XCH_GATE_CTRL i])) ∧
  (∀ (s : State) (i : Fin 64) (v : Word), s.open → bit v 31 = false →
    After (.gateArm i v) s fun t => t.on (Reg.XCH_GATE_CTRL_EN i) = false ∧ thas t.net.gateFrom i = false ∧
      t.fd (Reg.XCH_GATE_CTRL_PER_STEP i) = (if bits v 15 0 = 0 then s.fd (Reg.XCH_GATE_CTRL_PER_STEP i) else bits v 15 0) ∧
      SameArray s t ∧ RegsBut s t [Reg.XCH_GATE_CTRL i, Reg.XCH_GATE_WAIT_US i]) ∧
  (∀ (s : State) (i : Fin 64) (v : Word), s.open → bit v 31 = true → bit v 29 = false →
    let n := (s.rg (Reg.XCH_BC_BYTES i)).toNat
    (thas s.links.casts i = false → s.inWindow i (s.bcSrc i) n = true →
      After (.broadcastGo i v) s fun t => t.on (Reg.XCH_BC_CTRL_BUSY i) = true ∧
        t.links = { s.links with casts := tput s.links.casts i ⟨bits v 27 16, s.bcSrc i, n, false⟩ } ∧ SameArray s t ∧
        RegsBut s t [Reg.XCH_BC_CTRL i]) ∧
    (thas s.links.casts i = true ∨ s.inWindow i (s.bcSrc i) n = false →
      After (.broadcastGo i v) s fun t => t.on (Reg.XCH_BC_STATUS_REFUSED i) = true ∧ OnlyRegs s t [Reg.XCH_BC_CTRL i, Reg.XCH_BC_STATUS i])) ∧
  (∀ (s : State) (i : Fin 64) (v : Word), s.open → (bit v 31 = false ∨ bit v 29 = true) →
    After (.broadcastGo i v) s fun t => OnlyRegs s t [Reg.XCH_BC_CTRL i]) ∧
  (∀ (s : State) (i : Fin 64) (e : Nat × Cast), s.links.casts.find? (fun e => e.1 == i.val) = some e → s.rangeReady e.2.addr e.2.bytes = true →
    After (.broadcastDone i) s fun t => t.on (Reg.XCH_BC_CTRL_BUSY i) = false ∧ t.on (Reg.XCH_BC_STATUS_DONE i) = true ∧
      thas t.links.casts i = false ∧ SameArray s t ∧
      (s.on (Reg.FL_INST_KEY_VALID i) = false → t.outbox = s.outbox ∧ t.links = { s.links with casts := tdel s.links.casts i })) ∧
  (∀ (s : State) (i : Fin 64), thas s.links.casts i = false → Passes (.broadcastDone i) s) ∧
  (∀ (s : State) (i : Fin 64) (v : Word), s.open →
    let n := s.fd (Reg.STAT_SHAPE_SLICES i) * s.fd (Reg.STAT_SHAPE_PIECES i)
    (bit v 31 = true → (s.inWindow i (s.statBase i) (16 * n) = false ∨ 16384 < n) →
      After (.statArm i v) s fun t => t.on (Reg.STAT_CTRL_REFUSED i) = true ∧ t.on (Reg.STAT_CTRL_EN i) = s.on (Reg.STAT_CTRL_EN i) ∧
        OnlyRegs s t [Reg.STAT_CTRL i]) ∧
    (bit v 31 = true → s.inWindow i (s.statBase i) (16 * n) = true → n ≤ 16384 →
      After (.statArm i v) s fun t => t.on (Reg.STAT_CTRL_EN i) = true ∧ t.fd (Reg.STAT_CTRL_SLOT i) = bits v 9 0 ∧
        OnlyRegs s t [Reg.STAT_CTRL i, Reg.STAT_STEPS i, Reg.STAT_BAD i, Reg.STAT_PIECE_SQ_LO i, Reg.STAT_PIECE_SQ_HI i, Reg.STAT_TOTAL_SQ_LO i,
          Reg.STAT_TOTAL_SQ_HI i]) ∧
    (bit v 31 = false → bit v 30 = true →
      After (.statClear i v) s fun t => t.rg (Reg.STAT_STEPS i) = 0 ∧ t.rg (Reg.STAT_BAD i) = 0 ∧ t.rg64 (Reg.STAT_PIECE_SQ_LO i) = 0 ∧
        t.rg64 (Reg.STAT_TOTAL_SQ_LO i) = 0 ∧ t.on (Reg.STAT_CTRL_EN i) = false ∧
        OnlyRegs s t [Reg.STAT_CTRL i, Reg.STAT_STEPS i, Reg.STAT_BAD i, Reg.STAT_PIECE_SQ_LO i, Reg.STAT_PIECE_SQ_HI i, Reg.STAT_TOTAL_SQ_LO i,
          Reg.STAT_TOTAL_SQ_HI i]) ∧
    (bit v 31 = false → bit v 30 = false → After (.statClear i v) s fun t => t.on (Reg.STAT_CTRL_EN i) = false ∧ OnlyRegs s t [Reg.STAT_CTRL i]))

/-- A fault report merges into its open incident, opens one and repairs, waits or is lost; incidents close; a blocked region is suspected or
spilled. A report, not of what is beyond repair, whose suspect has an open incident is counted there and as coalesced, and nothing else
changes; one about a fenced cluster is counted as coalesced. With a slot free it opens an incident in the lowest and FH_INCIDENTS advances
by 1: a fault of a cluster's logic fences it and clears its WORKING bit; a bank found by count is copied to the unused spare; a path's fault
orders the replay of an uncommitted step. With no slot free it joins the queue, and a full queue loses and counts it. A report of UNIT 17
beyond repair fails the package with cause 5, and no step is in progress. An incident whose repair and replay have ended leaves its slot;
one that has not stays. A deadlock window of a blocked region without a spill candidate, with a wait that nothing excuses, takes the wait
graph and posts one event; with a candidate and room in the spill area, the region spills and its window starts again. Where the rules leave
a reading open, the model's is taken: log entries 53, 54, 60. (17_repair.md, 02_sections_and_planes.md, 09_counters_and_barriers.md) -/
def Obligations.FaultReportsOpenMergeAndCloseIncidents : Prop :=
  (∀ (s : State) (stop : BitVec 16) (unit : BitVec 8) (detail : BitVec 24) (byCount restored : Bool),
    let r : Report := ⟨stop.toNat, unit.toNat, detail.toNat, byCount⟩
    let c := collectorOf r.stop
    let x := s.collector c
    r.unit ≠ 9 → r.unit ≠ 11 →
    (∀ k i, x.find r = some (k, i) → After (.faultReport stop unit detail byCount false restored) s fun t =>
      t.collector c = { x with slots := tput x.slots k { i with reports := i.reports + 1 } } ∧ t.rg (Reg.FC_COALESCED c) = s.rg (Reg.FC_COALESCED c) + 1 ∧
        t.rg Reg.FH_COALESCED = s.rg Reg.FH_COALESCED + 1 ∧ SameArray s t ∧ RegsBut s t [Reg.FC_STATUS c, Reg.FC_COALESCED c, Reg.FH_COALESCED]) ∧
    (∀ n, x.find r = none → stopUnit r.stop = some n → s.isFenced n = true → After (.faultReport stop unit detail byCount false restored) s fun t =>
      t.collector c = x ∧ SameArray s t ∧ OnlyRegs { s with repair := t.repair } t [Reg.FC_COALESCED c, Reg.FH_COALESCED]) ∧
    (∀ k, x.find r = none → (∀ n, stopUnit r.stop = some n → s.isFenced n = false) → x.freeSlot = some k →
      After (.faultReport stop unit detail byCount false restored) s fun t =>
        (∃ i, tget i (t.collector c).slots k = i ∧ thas (t.collector c).slots k = true ∧ i.report = r ∧ i.opened = s.clk) ∧
        (t.collector c).queue = x.queue ∧ t.rg Reg.FH_INCIDENTS = s.rg Reg.FH_INCIDENTS + 1 ∧
        (∀ n, r.unit = 1 → stopUnit r.stop = some n → t.isFenced n = true ∧ t.works (n / 18) (n % 18) = false) ∧
        (∀ n, r.unit = 3 → byCount = true → r.detail ≤ 31 → stopUnit r.stop = some n → s.spareUsed n = false →
          (t.cl n).migrating = some (r.detail, false) ∧ t.repair.fenced = s.repair.fenced ∧ t.net.step = s.net.step) ∧
        (∀ y, r.unit = 8 → byCount = false → s.net.step = some y → y.committed = false → t.net.step = some { y with replayDue := true })) ∧
    (x.find r = none → (∀ n, stopUnit r.stop = some n → s.isFenced n = false) → x.freeSlot = none →
      After (.faultReport stop unit detail byCount false restored) s fun t =>
        (t.collector c).slots = x.slots ∧ SameArray s t ∧ RegsBut s t [Reg.FC_STATUS c, Reg.FH_LOST] ∧
        (x.queue.length < 1024 → (t.collector c).queue = x.queue ++ [r] ∧ t.rg Reg.FH_LOST = s.rg Reg.FH_LOST) ∧
        (1024 ≤ x.queue.length → (t.collector c).queue = x.queue ∧ (t.collector c).lost = true ∧ t.rg Reg.FH_LOST = s.rg Reg.FH_LOST + 1))) ∧
  (∀ (s : State) (stop : BitVec 16) (detail : BitVec 24) (byCount restored : Bool), s.on Reg.FH_SUMMARY_FAILED = false →
    After (.faultReport stop 17#8 detail byCount true restored) s fun t => t.on Reg.FH_SUMMARY_FAILED = true ∧ t.fd Reg.FH_SUMMARY_CAUSE = 5 ∧
      t.net.step = none) ∧
  (∀ (s : State) (c : Fin 33) (k : Fin 32) (e : Nat × Incident), let x := s.collector c
    x.slots.find? (fun e => e.1 == k.val) = some e →
    (s.repairing e.2 = true ∨ s.replayPending e.2 = true → Passes (.incidentClose c k) s) ∧
    (s.repairing e.2 = false → s.replayPending e.2 = false → x.queue = [] → x.lost = false →
      After (.incidentClose c k) s fun t => t.collector c = { x with slots := tdel x.slots k } ∧ SameArray s t ∧ RegsBut s t [Reg.FC_STATUS c])) ∧
  (∀ (s : State) (c : Fin 33) (k : Fin 32), thas (s.collector c).slots k = false → Passes (.incidentClose c k) s) ∧
  (∀ (s : State) (g : Fin 32), (s.net.step = none ∨ s.regionBlocked g = false ∨ (s.regionWaits g).all (fun e => s.atGate e.1 e.2) = true) →
    Passes (.deadlockWindowExpire g) s) ∧
  (∀ (s : State) (g : Fin 32) (y : StepSt), s.net.step = some y → s.regionBlocked g = true → (s.regionWaits g).all (fun e => s.atGate e.1 e.2) = false →
    let t0 : State := { s with net := { s.net with expired := g.val :: s.net.expired.filter (· ≠ g.val) } }
    (t0.spillCandidate g = none → (s.regionWaits g).all (fun e => t0.excused e.1 e.2) = false →
      After (.deadlockWindowExpire g) s fun t => t.net.expired.contains g.val = true ∧ t.on Reg.WG_STATUS_VALID = true ∧ SameArray s t ∧
        t.rg Reg.FH_EVT_HEAD = s.rg Reg.FH_EVT_HEAD + 1) ∧
    (t0.spillCandidate g = none → (s.regionWaits g).all (fun e => t0.excused e.1 e.2) = true →
      exec (.deadlockWindowExpire g) s = .next t0) ∧
    (∀ n p ep c, t0.spillCandidate g = some (n, p, ep, c) →
      let r := (s.cl n).recvEp (epKey (4 * p + c) ep)
      let tiles := r.tiles.filter fun y => y.spilledAt.isNone
      let move := if ((s.cl n).plane p).bpc ep = 1 then tiles else tiles.drop 1
      move.length ≤ (t0.spillFree y.slot (t0.sectOf n)).length → tget 0 (s.net.lastSpill.map fun e => (e.1, e.2 + 1)) g ≠ 1024 * n + epKey (4 * p + c) ep + 1 →
      After (.deadlockWindowExpire g) s fun t => t.net.expired.contains g.val = false ∧ t.net.step = s.net.step ∧
        t.rg (Reg.CH_SPILLS n) = s.rg (Reg.CH_SPILLS n) + BitVec.ofNat 32 move.length ∧ RegsBut s t [Reg.CH_SPILLS n] ∧
        ∀ m, m ≠ n → t.cl m = s.cl m))

/-- A load claims its slot, opens and checks its image chunk by chunk and registers it or fails once; autostart loads records; EVICT frees
planes and slots. A LOAD_PROGRAM whose slot is held ends with status 4 and NOT_OWNED or IN_USE and changes no slot; behind a busy engine it
waits; one whose header describes an image within its length makes the engine busy with the slot registering, and one whose header does not
ends with AUTH and sets LOAD_ERR. A chunk whose digest fails is written nowhere and the load keeps its failure; one that passes writes
exactly what its frames say, once every page is zeroed; without a load, or after the last chunk, nothing happens. The signature passes only
with a valid key; when all is checked the slot is registered and CE_LOADS advances, or it is free again and its descriptor ends with the
outcome of the failure. A released stage joins those released; after the fourth the descriptor completes. Autostart waits for set-up, and
its next record opens its image or is DONE with its detail and LOAD_ERR. EVICT of a free slot ends with NO_PROGRAM, of another's with
NOT_OWNED, waits for earlier RUNs, and else leaves no plane of the slot and completes. Where the rules leave a reading open, the model's is
taken: log entries 71, 72, 73, 75. (16_images_and_start.md, 11_host_rings.md, 15_dram_and_store.md) -/
def Obligations.ImagesAreClaimedCheckedRegisteredAndEvicted : Prop :=
  (∀ (s : State) (ring : Fin 4096) (pos : Word) (id : Nat) (d : Desc) (head : List Word), s.hasWork ring pos 6 id d →
    let n := bits (d.w 4) 31 22
    let src := bits (d.w 4) 21 20
    let image := if src = 0 then d.hostAddr 5 else if src = 1 then d.dram 5 else bits (d.w 5) 11 0
    let h := if src = 0 then head else if src = 1 then s.rdWords image (payloadOffset (s.rdWords image 64) / 4) else (s.lib image).head
    (∀ c, s.claim n d.inst (some d.order) = some c → After (.loadProgram ring pos head) s fun t => EndedDesc s t id 4 c ∧ (c = 14 ∨ c = 16) ∧
      t.images = s.images ∧ SameArray s t ∧ t.fd Reg.CE_STATUS_LAST_DETAIL = c ∧ t.fd Reg.CE_STATUS_LAST_SLOT = n ∧ RegsBut s t [Reg.CE_STATUS]) ∧
    (s.claim n d.inst (some d.order) = none → s.images.active.isSome = true → Passes (.loadProgram ring pos head) s) ∧
    (s.claim n d.inst (some d.order) = none → s.images.active = none → src ≤ 2 →
      (src = 1 → s.inWindow d.inst image (d.w 7).toNat = true ∧ s.rangeReady image (d.w 7).toNat = true) →
      (src = 2 → s.storeMaint = false ∧ s.entryRefuses image d.inst = none) →
      let good := headerOk h && bits (h.getD 0 0) 31 28 == 0 && (src == 2 || decide (payloadOffset h + headerBytes h ≤ (d.w 7).toNat))
      (good = true → After (.loadProgram ring pos head) s fun t => t.images.active = some n ∧ t.on Reg.CE_STATUS_BUSY = true ∧ (t.slot n).phase = 1 ∧
        (t.slot n).inst = d.inst ∧ (t.slot n).desc = some id ∧ (t.slot n).bytes = headerBytes h ∧ (t.slot n).chunksRead = 0 ∧
        (t.desc id).state = .running ∧ (∀ m, m ≠ n → t.slot m = s.slot m) ∧ SameArray s t) ∧
      (good = false → After (.loadProgram ring pos head) s fun t => EndedDesc s t id 4 17 ∧
        t.images = s.images ∧ t.on Reg.CE_STATUS_LOAD_ERR = true ∧ t.rg Reg.CE_FAILS = s.rg Reg.CE_FAILS + 1 ∧ SameArray s t)) ∧
    (s.claim n d.inst (some d.order) = none → s.images.active = none → src = 1 → s.inWindow d.inst image (d.w 7).toNat = false →
      After (.loadProgram ring pos head) s fun t => EndedDesc s t id 4 13 ∧ t.images = s.images ∧ SameArray s t ∧ RegsBut s t [Reg.CE_STATUS]) ∧
    (∀ c, s.claim n d.inst (some d.order) = none → s.images.active = none → src = 2 → s.storeMaint = false → s.entryRefuses image d.inst = some c →
      After (.loadProgram ring pos head) s fun t => EndedDesc s t id 4 c ∧ t.images = s.images ∧ SameArray s t ∧ RegsBut s t [Reg.CE_STATUS])) ∧
  (∀ (s : State) (data : List Byte) (digestOk : Bool) (transient : Nat) (pages : PageReads),
    (s.images.active = none → Passes (.imageChunkRead data digestOk transient pages) s) ∧
    (∀ n, s.images.active = some n →
      let p := s.slot n
      let k := p.chunksRead
      let a := p.image + p.payOff + k * 2 ^ 20
      let ok := digestOk && ! (p.source == 2 && (s.lib p.image).damaged.contains k)
      (ceilDiv p.bytes (2 ^ 20) ≤ k → Passes (.imageChunkRead data digestOk transient pages) s) ∧
      (∀ bs, k + 1 < ceilDiv p.bytes (2 ^ 20) → (p.source = 1 → s.rangeReady a (2 ^ 20) = true) → s.chunkBytes p data = some bs →
        let x := s.walkChunk p bs ok
        (ok = false → After (.imageChunkRead data digestOk transient pages) s fun t =>
          t.slot n = { p with chunksRead := k + 1, fail := if p.fail = 0 then 2 else min p.fail 2 } ∧ t.images.active = some n ∧ SameArray s t) ∧
        ((x.writes.all fun w => s.rangeReady (p.dramBase + w.1) w.2.length) = true → After (.imageChunkRead data digestOk transient pages) s fun t =>
          t.slot n = x.slot ∧ t.images.active = some n ∧ t.clusters = s.clusters ∧
            t.dram = (s.each x.writes fun u w => u.hubWrite (p.dramBase + w.1) w.2).dram) ∧
        ((x.writes.all fun w => s.rangeReady (p.dramBase + w.1) w.2.length) = false → After (.imageChunkRead data digestOk transient pages) s fun t =>
          t.images = s.images ∧ t.regs = s.regs ∧ SameArray s t)))) ∧
  (∀ (s : State) (ok : Bool),
    (s.images.active = none → Passes (.signatureCheckDone ok) s) ∧
    (∀ n, s.images.active = some n →
      let p := s.slot n
      let good := ok && (s.key p.keySlot).valid
      let f := if good then p.fail else if p.fail = 0 then 2 else min p.fail 2
      (p.sigDone = true → Passes (.signatureCheckDone ok) s) ∧
      (p.sigDone = false → p.chunksRead < ceilDiv p.bytes (2 ^ 20) →
        exec (.signatureCheckDone ok) s = .next (s.setSlot n { p with sigDone := true, fail := f })) ∧
      (p.sigDone = false → ceilDiv p.bytes (2 ^ 20) ≤ p.chunksRead →
        (f = 0 → After (.signatureCheckDone ok) s fun t => (t.slot n).phase = 2 ∧ t.rg Reg.CE_LOADS = s.rg Reg.CE_LOADS + 1) ∧
        (f ≠ 0 → n < 1024 → s.on Reg.CE_MC_RX_CTRL_EN = false → After (.signatureCheckDone ok) s fun t => (t.slot n).phase = 0 ∧ t.images.active = none ∧
          t.on Reg.CE_STATUS_BUSY = false ∧ t.fd Reg.CE_STATUS_LAST_SLOT = n ∧ t.fd Reg.CE_STATUS_LAST_DETAIL = (failOutcome f).2 ∧
          t.rg Reg.CE_LOADS = s.rg Reg.CE_LOADS ∧
          ∀ id, p.origin = 0 → p.desc = some id → (t.desc id).state = .ended ∧ (t.desc id).status = (failOutcome f).1 ∧
            (t.desc id).detail = (failOutcome f).2)))) ∧
  (∀ (s : State) (n : Fin 1024), let p := s.slot n
    ((p.phase ≠ 2 ∨ 4 ≤ p.released.length) → Passes (.activationStageRelease n) s) ∧
    (p.phase = 2 → p.released.length < 4 → After (.activationStageRelease n) s fun t =>
      (t.slot n).released = p.released ++ [bits (p.header.getD 8 0) (2 * p.released.length + 1) (2 * p.released.length)] ∧ (t.slot n).phase = 2 ∧
      (∀ m, m ≠ n.val → t.slot m = s.slot m) ∧
      (∀ id, p.released.length = 3 → p.preload = false → p.told = false → p.origin = 0 → p.desc = some id → EndedDesc s t id 0 0 ∧ (t.slot n).told = true))) ∧
  (∀ (s : State), (s.on Reg.GS_STATUS_SETUP_RESTORED = false ∨ s.images.active.isSome = true ∨ s.storeMaint = true ∨ s.nextAuto = none) →
    Passes .autostart s) ∧
  (∀ (s : State) (k : Nat), s.on Reg.GS_STATUS_SETUP_RESTORED = true → s.images.active = none → s.storeMaint = false → s.nextAuto = some k →
    (s.images.slots.any fun e => e.2.origin == k + 2 && ! e.2.told) = false →
    let w := (tget [] s.store.autos k).getD 0 0
    let h := (s.lib (bits w 23 12)).head
    (∀ c, ((s.claim (bits w 9 0) (bits w 29 24) none).orElse fun _ => s.entryRefuses (bits w 23 12) (bits w 29 24)) = some c →
      After .autostart s fun t => t.on (Reg.CE_AUTO_STATUS_DONE k) = true ∧ t.fd (Reg.CE_AUTO_STATUS_STATUS k) = 4 ∧
        t.fd (Reg.CE_AUTO_STATUS_DETAIL k) = c ∧ t.on Reg.CE_STATUS_LOAD_ERR = true ∧ t.images = s.images ∧ SameArray s t) ∧
    (s.claim (bits w 9 0) (bits w 29 24) none = none → s.entryRefuses (bits w 23 12) (bits w 29 24) = none → headerOk h = true →
      bits (h.getD 0 0) 31 28 = 0 → After .autostart s fun t => t.images.active = some (bits w 9 0) ∧ (t.slot (bits w 9 0)).phase = 1 ∧
        (t.slot (bits w 9 0)).origin = k + 2 ∧ t.on Reg.CE_STATUS_BUSY = true ∧ SameArray s t)) ∧
  (∀ (s : State) (ring : Fin 4096) (pos : Word) (id : Nat) (d : Desc), s.hasWork ring pos 7 id d →
    let n := bits (d.w 4) 31 22
    let p := s.slot n
    (p.phase = 0 → After (.evict ring pos) s fun t => EndedDesc s t id 4 15 ∧ t.images = s.images ∧ t.regs = s.regs ∧ SameArray s t) ∧
    (p.phase ≠ 0 → p.inst ≠ d.inst → After (.evict ring pos) s fun t => EndedDesc s t id 4 14 ∧ t.images = s.images ∧ t.regs = s.regs ∧ SameArray s t) ∧
    (p.phase ≠ 0 → p.inst = d.inst → (p.phase = 1 ∨ s.runsBefore n d.order = true) → Passes (.evict ring pos) s) ∧
    (p.phase ≠ 0 → p.phase ≠ 1 → p.inst = d.inst → s.runsBefore n d.order = false → (s.net.step.any fun x => x.slot == n) = true →
      exec (.evict ring pos) s = .next (s.setSlot n { p with evicting := true })) ∧
    (p.phase ≠ 0 → p.phase ≠ 1 → p.inst = d.inst → s.runsBefore n d.order = false → (s.net.step.any fun x => x.slot == n) = false →
      After (.evict ring pos) s fun t => (t.desc id).state = .ended ∧ (t.desc id).status = 0 ∧ (t.desc id).detail = 0 ∧
        (∀ m q, q < 8 → ((t.cl m).plane q).st ≠ 0 → ((t.cl m).plane q).slot ≠ n) ∧ (∀ m, m ≠ n → t.slot m = s.slot m) ∧
        (bit (d.w 4) 21 = true → (t.slot n).phase = 0 ∧ t.on (Reg.BAT_CTRL_VALID n) = false) ∧
        (bit (d.w 4) 21 = false → t.slot n = { p with evicting := false })))

/-- A plane of a section is written into a free physical plane; scrubbing corrects, rewrites or reports; multicast arming, timeout and autostart
commit. A section's only plane for a cluster is written into its lowest FREE physical plane, RESIDENT with the words of the image, and no
other plane changes; where no physical plane can take it nothing happens, but a load with PRELOAD is refused with FRAME_REFUSED. A
registered slot is needed, a cluster in service, and the array out of Rest. A corrected plane word is counted; an uncorrectable one in a
RESIDENT plane or an inessential word is rewritten from the image copy, any other is reported. A write that arms an armed multicast sender
or receiver again is ignored; one to a disarmed sender takes; a receiver whose addresses are in no window of the owner is refused with
RESULT 4, and one that is armed starts with nothing received. A receiver in want of bytes ends INCOMPLETE with LOAD_ERR. A commit of the
autostart records stores all eight, or is refused during an entry write. Where the rules leave a reading open, the model's is taken: log
entries 70, 71, 74. (16_images_and_start.md, 02_sections_and_planes.md, 15_dram_and_store.md) -/
def Obligations.PlanesAreWrittenScrubbedAndMulticast : Prop :=
  (∀ (s : State) (n : Fin 576) (slot : Fin 1024) (sect : BitVec 16), let p := s.slot slot
    ((p.phase ≠ 2 ∨ p.evicting = true ∨ p.released.contains 0 = false ∨ s.isFenced n = true ∨ s.planesFor n slot sect.toNat = [] ∨
      3 ≤ s.fd Reg.PWR_STATUS_STATE) → Passes (.planeLoadDone n slot sect) s) ∧
    (∀ e : Nat × Table Word, p.phase = 2 → p.evicting = false → p.released.contains 0 = true → s.isFenced n = false → s.awake →
      s.planesFor n slot sect.toNat = [e] → pkgFits (s.pkgAll ++ pkgNames [imagePlane e.1 e.2]) = true →
      (∀ q, q < 8 → ((s.cl n).plane q).st ≠ 0 → ((s.cl n).plane q).slot = slot.val → ((s.cl n).plane q).key ≠ e.1) →
      (∀ q, (List.range 8).find? (fun q => ((s.cl n).plane q).st == 0) = some q → p.preload = false → s.net.step = none →
        After (.planeLoadDone n slot sect) s fun t =>
          (∃ stamp, (t.cl n).plane q = ⟨2, slot, p.inst, p.gen, e.1 / 65536, e.1 / 8 % 512, stamp, e.1, e.2⟩) ∧
          (∀ j, j ≠ q → (t.cl n).plane j = (s.cl n).plane j) ∧ (∀ m, m ≠ n.val → t.cl m = s.cl m) ∧ SameDram s t ∧ t.images = s.images ∧
          t.rg64 Reg.CE_PLANE_BYTES_LO = (s.rg64 Reg.CE_PLANE_BYTES_LO + ((tget [] p.written e.1).map (·.2)).sum) % 2 ^ 64 ∧
          RegsBut s t [Reg.CE_PLANE_BYTES_LO, Reg.CE_PLANE_BYTES_LO + 4]) ∧
      (s.planeSpace n slot sect.toNat = none → p.preload = false → Passes (.planeLoadDone n slot sect) s) ∧
      (∀ id, s.planeSpace n slot sect.toNat = none → p.preload = true → p.preloaded = false → p.told = false → sect.toNat = p.firstSect →
        p.origin = 0 → p.desc = some id → After (.planeLoadDone n slot sect) s fun t => EndedDesc s t id 4 12 ∧
          t.rg Reg.CE_FRAMES_REFUSED = s.rg Reg.CE_FRAMES_REFUSED + 1 ∧ SameArray s t ∧ (t.slot slot).phase = 2 ∧
          RegsBut s t [Reg.CE_FRAMES_REFUSED, Reg.CE_STATUS]))) ∧
  (∀ (s : State) (n : Fin 576) (p : Fin 8) (word : Fin 5120), let x := (s.cl n).plane p
    (∀ ecc, x.st < 2 ∨ s.isFenced n = true → Passes (.planeScrub n p word ecc) s) ∧ Passes (.planeScrub n p word .clean) s ∧
    (2 ≤ x.st → s.isFenced n = false →
      exec (.planeScrub n p word .corrected) s = .next (s.inc Reg.CE_SCRUB_CORR) ∧
      (x.st = 2 ∨ s.essentialWord x word = false → After (.planeScrub n p word .uncorrectable) s fun t =>
        (t.cl n).plane p = { x with words := tget x.words (s.slot x.slot).planes x.key } ∧ (∀ q, q ≠ p.val → (t.cl n).plane q = (s.cl n).plane q) ∧
        (∀ m, m ≠ n.val → t.cl m = s.cl m) ∧ t.rg Reg.CE_SCRUB_REPAIR = s.rg Reg.CE_SCRUB_REPAIR + 1 ∧ RegsBut s t [Reg.CE_SCRUB_REPAIR] ∧
        t.dram = s.dram ∧ t.repair = s.repair) ∧
      (x.st ≠ 2 → s.essentialWord x word = true → After (.planeScrub n p word .uncorrectable) s fun t =>
        t.repair.inFlight = s.repair.inFlight ++ [⟨clusterStop n, 4, p.val * 2 ^ 21 + word.val, false⟩] ∧
        t.rg Reg.CE_SCRUB_FAULT = s.rg Reg.CE_SCRUB_FAULT + 1 ∧ RegsBut s t [Reg.CE_SCRUB_FAULT] ∧ SameArray s t))) ∧
  (∀ (s : State) (v : Word), s.open →
    (s.on Reg.CE_MC_TX_EN = true → bit v 31 = true → Passes (.mcTxArm v) s) ∧
    (s.on Reg.CE_MC_TX_EN = false ∨ bit v 31 = false → After (.mcTxArm v) s fun t => t.on Reg.CE_MC_TX_EN = bit v 31 ∧
      t.fd Reg.CE_MC_TX_GROUP = bits v 27 16 ∧ t.fd Reg.CE_MC_TX_SLOT = bits v 9 0 ∧ OnlyRegs s t [Reg.CE_MC_TX]) ∧
    (s.on Reg.CE_MC_RX_CTRL_EN = true → bit v 31 = true → Passes (.mcRxArm v) s) ∧
    (bit v 31 = false → After (.mcRxArm v) s fun t => t.on Reg.CE_MC_RX_CTRL_EN = false ∧ OnlyRegs s t [Reg.CE_MC_RX_CTRL]) ∧
    (s.on Reg.CE_MC_RX_CTRL_EN = false → bit v 31 = true →
      let ok := s.inWindow (bits v 29 24) s.rxAddr 1 && s.inWindow (bits v 29 24) s.rxBase 1
      (ok = false → After (.mcRxArm v) s fun t => t.on Reg.CE_MC_RX_CTRL_EN = false ∧ t.fd Reg.CE_MC_RX_STATUS_RESULT = 4 ∧
        OnlyRegs s t [Reg.CE_MC_RX_CTRL, Reg.CE_MC_RX_STATUS]) ∧
      (ok = true → After (.mcRxArm v) s fun t => t.on Reg.CE_MC_RX_CTRL_EN = true ∧ t.fd Reg.CE_MC_RX_CTRL_OWNER = bits v 29 24 ∧
        t.fd Reg.CE_MC_RX_CTRL_GROUP = bits v 23 12 ∧ t.fd Reg.CE_MC_RX_CTRL_SLOT = bits v 9 0 ∧ t.rg Reg.CE_MC_RX_BYTES = 0 ∧
        t.images = { s.images with rxHave := [], rxSeen := false } ∧ SameArray s t ∧ RegsBut s t [Reg.CE_MC_RX_CTRL, Reg.CE_MC_RX_BYTES])) ∧
    (bit v 31 = false → After (.ceAutoCommit v) s fun t => t.store = s.store ∧ OnlyRegs s t [Reg.CE_AUTO_COMMIT]) ∧
    (bit v 31 = true → s.store.writing.isSome = true → After (.ceAutoCommit v) s fun t => t.on Reg.CE_AUTO_COMMIT_REFUSED = true ∧
      OnlyRegs s t [Reg.CE_AUTO_COMMIT]) ∧
    (bit v 31 = true → s.store.writing = none → After (.ceAutoCommit v) s fun t =>
      (∀ k, k < 8 → tget [] t.store.autos k = [s.rg (Reg.CE_AUTO_CTRL k), s.rg (Reg.CE_AUTO_BASE_LO k), s.rg (Reg.CE_AUTO_BASE_HI k)]) ∧
      t.store.version = s.store.version + 1 ∧ t.store.lib = s.store.lib ∧ SameArray s t ∧ RegsBut s t [Reg.CE_AUTO_COMMIT])) ∧
  (∀ (s : State), (s.on Reg.CE_MC_RX_CTRL_EN = false ∨ s.images.rxSeen = false ∨ s.rxComplete = true ∨ s.rxLoading = true → Passes .mcRxTimeout s) ∧
    (s.on Reg.CE_MC_RX_CTRL_EN = true → s.images.rxSeen = true → s.rxComplete = false → s.rxLoading = false →
      After .mcRxTimeout s fun t => t.on Reg.CE_MC_RX_CTRL_EN = false ∧ t.on Reg.CE_MC_RX_STATUS_DONE = true ∧ t.fd Reg.CE_MC_RX_STATUS_RESULT = 3 ∧
        t.on Reg.CE_STATUS_LOAD_ERR = true ∧ t.rg Reg.CE_FAILS = s.rg Reg.CE_FAILS + 1 ∧ t.images = s.images ∧ SameArray s t))

/-- Control periods, start-up, ageing, gaps, droop and VR_ALERT_N act on budgets, frequencies, debt and counts as their rules say. A control
period whose budgets fit the effective cap gives each region its command, but one whose complement fails, which is counted and keeps the
old; grants follow, and the draw enters the means and the energy; commands that do not fit have no effect, and in Rest or after a trip only
the draw counts. STARTUP_END takes STARTING to RUNNING. A low ageing margin lowers the cluster's maximum by one step, and below 1,200 MHz
reports it. GAP_END forms the debt of the gap, sets P_IDLE and counts. DROOP stretches a region once. VR_ALERT_N takes every working cluster
to 300 MHz, counts, and shows FLOOR until FLOOR_END after its deassertion. A write of PWR_CTRL with a cap out of 120 to 300 W, or with a
change of MODE during a run, changes nothing but REFUSED; another takes, and a change of MODE starts the debt at 0. Where the rules leave a
reading open, the model's is taken: log entries 90, 91, 92, 94. (18_power.md) -/
def Obligations.PowerFrequenciesAndAlertsFollowTheirRules : Prop :=
  (∀ (s : State) (draw others : Nat) (cmds : List (Nat × Nat × Bool)),
    (s.fd Reg.PWR_STATUS_STATE < 2 → s.power.trip = false → (cmds.length ≠ 32 ∨ s.effectiveCap < others + (cmds.map fun c => c.1).sum) →
      Passes (.powerControlPeriod draw others cmds) s) ∧
    (s.fd Reg.PWR_STATUS_STATE < 2 → s.power.trip = false → cmds.length = 32 → others + (cmds.map fun c => c.1).sum ≤ s.effectiveCap →
      After (.powerControlPeriod draw others cmds) s fun t =>
        (∀ g c, cmds[g]? = some c → tget (0, 0) t.power.budgets g = if c.2.2 then tget (0, 0) s.power.budgets g else (c.1, c.2.1)) ∧
        t.rg Reg.PWR_CMD_DISCARD = s.rg Reg.PWR_CMD_DISCARD + BitVec.ofNat 32 (cmds.filter fun c => c.2.2).length ∧ t.grantsHold ∧
        t.power.energy = s.power.energy + draw ∧ t.power.periods = s.power.periods + 1 ∧ t.power.draws = (draw :: s.power.draws).take 1000 ∧
        t.fd Reg.PWR_NOW_DECIWATTS = meanOf t.power.draws % 2 ^ 16 ∧ SameArray s t) ∧
    (2 ≤ s.fd Reg.PWR_STATUS_STATE ∨ s.power.trip = true → After (.powerControlPeriod draw others cmds) s fun t =>
      t.power.budgets = s.power.budgets ∧ t.power.granted = s.power.granted ∧ t.power.energy = s.power.energy + draw ∧
        t.power.draws = (draw :: s.power.draws).take 1000 ∧ SameArray s t ∧
        RegsBut s t [Reg.PWR_NOW, Reg.PWR_LIMIT, Reg.PWR_FREQ, Reg.CAP_MS])) ∧
  (∀ (s : State),
    (s.fd Reg.PWR_STATUS_STATE = 0 → After .startupEnd s fun t => t.fd Reg.PWR_STATUS_STATE = 1 ∧ t.grantsHold ∧ SameArray s t ∧
      RegsBut s t [Reg.PWR_STATUS, Reg.PWR_FREQ]) ∧
    (s.fd Reg.PWR_STATUS_STATE ≠ 0 → Passes .startupEnd s)) ∧
  (∀ (s : State) (n : Fin 576) (low : Bool),
    (low = false ∨ s.isFenced n = true → Passes (.ageingCheck n low) s) ∧
    (low = true → s.isFenced n = false → After (.ageingCheck n low) s fun t =>
      tget 0 t.power.falls n = tget 0 s.power.falls n + 1 ∧ (∀ m, m ≠ n.val → tget 0 t.power.falls m = tget 0 s.power.falls m) ∧
        t.on Reg.PWR_EVENTS_AGEING_STEP = true ∧ t.grantsHold ∧ SameArray s t ∧
        t.repair = { s.repair with inFlight := s.repair.inFlight ++ if t.fmax n < 1200 then [⟨clusterStop n, 0, 0, false⟩] else [] })) ∧
  (∀ (s : State), (s.power.gap = false → Passes .gapEnd s) ∧
    (s.power.gap = true → let d := s.power.debt + s.power.energy - s.effectiveCap * s.power.periods
      After .gapEnd s fun t => t.power = { s.power with gap := false, debt := d, energy := 0, periods := 0 } ∧ t.rg Reg.PWR_DEBT = BitVec.ofNat 32 (d / 10) ∧
        t.rg Reg.IDLE_GAPS = s.rg Reg.IDLE_GAPS + 1 ∧
        (s.power.periods ≠ 0 → t.fd Reg.PWR_P_IDLE_DECIWATTS = s.power.energy / s.power.periods % 2 ^ 16) ∧
        (s.power.periods = 0 → t.fd Reg.PWR_P_IDLE_DECIWATTS = s.fd Reg.PWR_P_IDLE_DECIWATTS) ∧ SameArray s t ∧
        RegsBut s t [Reg.PWR_DEBT, Reg.IDLE_GAPS, Reg.PWR_P_IDLE])) ∧
  (∀ (s : State) (g : Fin 32),
    (s.power.stretch.contains g.val = true → Passes (.droop g) s) ∧
    (s.power.stretch.contains g.val = false → After (.droop g) s fun t => t.power = { s.power with stretch := s.power.stretch ++ [g.val] } ∧
      t.rg Reg.DROOP_EVENTS = s.rg Reg.DROOP_EVENTS + 1 ∧ OnlyRegs { s with power := t.power } t [Reg.DROOP_EVENTS]) ∧
    exec (.droopEnd g) s = .next { s with power := { s.power with stretch := s.power.stretch.erase g.val } }) ∧
  (∀ (s : State),
    (s.power.alert = true → Passes .vrAlert s) ∧
    (s.power.alert = false → After .vrAlert s fun t => t.power.alert = true ∧ t.on Reg.PWR_STATUS_FLOOR = true ∧
      t.rg Reg.VR_ALERTS = s.rg Reg.VR_ALERTS + 1 ∧ t.on Reg.PWR_EVENTS_VR_ALERT = true ∧ SameArray s t ∧ s.atFloor t) ∧
    (s.power.alert = true → exec .vrAlertDeassert s = .next { s with power := { s.power with alert := false, floorCount := true } }) ∧
    (s.power.alert = false → Passes .vrAlertDeassert s) ∧
    (s.power.floorCount = true → s.power.alert = false → After .floorEnd s fun t => t.on Reg.PWR_STATUS_FLOOR = false ∧ t.power.floorCount = false ∧
      t.grantsHold ∧ SameArray s t ∧ RegsBut s t [Reg.PWR_STATUS, Reg.PWR_FREQ]) ∧
    (s.power.floorCount = false ∨ s.power.alert = true → Passes .floorEnd s)) ∧
  (∀ (s : State) (v : Word), s.open → let change := bit v 30 ≠ s.on Reg.PWR_CTRL_MODE
    (bits v 8 0 < 120 ∨ 300 < bits v 8 0 ∨ (change ∧ s.anyRun = true) → After (.pwrCtrlWrite v) s fun t => t.on Reg.PWR_CTRL_REFUSED = true ∧
      t.on Reg.PWR_CTRL_MODE = s.on Reg.PWR_CTRL_MODE ∧ t.on Reg.PWR_CTRL_GUARD = s.on Reg.PWR_CTRL_GUARD ∧
      t.fd Reg.PWR_CTRL_CAP_W = s.fd Reg.PWR_CTRL_CAP_W ∧ OnlyRegs s t [Reg.PWR_CTRL]) ∧
    (120 ≤ bits v 8 0 → bits v 8 0 ≤ 300 → ¬ change → After (.pwrCtrlWrite v) s fun t => t.on Reg.PWR_CTRL_MODE = bit v 30 ∧
      t.on Reg.PWR_CTRL_GUARD = bit v 29 ∧ t.fd Reg.PWR_CTRL_CAP_W = bits v 8 0 ∧ OnlyRegs s t [Reg.PWR_CTRL]) ∧
    (120 ≤ bits v 8 0 → bits v 8 0 ≤ 300 → change → s.anyRun = false → After (.pwrCtrlWrite v) s fun t => t.on Reg.PWR_CTRL_MODE = bit v 30 ∧
      t.on Reg.PWR_CTRL_GUARD = bit v 29 ∧ t.fd Reg.PWR_CTRL_CAP_W = bits v 8 0 ∧ t.power.debt = 0 ∧ t.power.energy = 0 ∧ t.power.byFreq = false ∧
      t.grantsHold ∧ SameDram s t ∧ (bit v 30 = true → t.rg Reg.PWR_DEBT = 0 ∧ t.fd Reg.PWR_P_IDLE_DECIWATTS = 1200)))

/-- A temperature sample sets the readings, the limits, the trip and the fan; the throttle steps; Rest is requested, entered and left. A sample
of the five dies shows each die's temperature and the hottest; from 100 °C the module throttles, from 110 °C every cluster is at the floor
until 105 °C, and from 115 °C it trips, every cluster stopped; the fan has the duty of its line. While throttling each ms counts, and the
limit falls by 3 W from 100 °C, rises by 3 W up to 97 °C, and else stays. A write of PWR_REST that requests Rest is refused while the device
is busy, answers with RESULT 3 beside a wake, and else starts the entry; in Rest or on the way there it has no effect. At its end STATE is
3, the entry is counted and no cluster is clocked, and a trigger that came meanwhile starts the wake. A wake trigger in Rest starts the
wake, during entry it is held, else it has no effect; the wake's end runs the module, and then the held firings act. Where the rules leave a
reading open, the model's is taken: log entries 93, 94. (18_power.md) -/
def Obligations.HeatFansAndRestFollowTheirRules : Prop :=
  (∀ (s : State) (temps : List (List Int)), temps.length ≠ 5 → Passes (.thermalSample temps) s) ∧
  (∀ (s : State) (temps : List (List Int)), temps.length = 5 →
    let dies := temps.mapIdx fun d ts => dieTemp (if d = 4 then 2 else 8) ts
    let h := (hottest 0 dies).2
    After (.thermalSample temps) s fun t => t.hot = h ∧ t.fd Reg.TH_HOT_DIE = (hottest 0 dies).1 ∧
      (∀ d x, dies[d]? = some x → toSigned 16 (t.fd (Reg.TH_DIE_TEMP d)) = x.2 ∧ (x.1 < 32 → t.fd (Reg.TH_DIE_GOOD d) = x.1)) ∧
      t.on Reg.PWR_STATUS_THROTTLE = (decide (1600 ≤ h) || s.on Reg.PWR_STATUS_THROTTLE) ∧
      (1600 ≤ h → s.on Reg.PWR_STATUS_THROTTLE = false → t.power.thermLimit = s.fd Reg.PWR_NOW_DECIWATTS) ∧
      (1760 ≤ h → t.on Reg.PWR_STATUS_HOT_FLOOR = true) ∧ (h ≤ 1680 → t.on Reg.PWR_STATUS_HOT_FLOOR = false) ∧
      (1680 < h → h < 1760 → t.on Reg.PWR_STATUS_HOT_FLOOR = s.on Reg.PWR_STATUS_HOT_FLOOR) ∧
      t.power.trip = (decide (1840 ≤ h) || s.power.trip) ∧
      (1840 ≤ h → s.power.trip = false → t.pins.thermTripN = true ∧ t.on Reg.PWR_STATUS_TRIPPED = true ∧
        ∀ n, n < 576 → tget 0 t.power.granted n = 0) ∧
      ((s.fd Reg.TH_WARN_TEMP : Int) ≤ h → s.hot < s.fd Reg.TH_WARN_TEMP → t.on Reg.PWR_EVENTS_THERM_WARN = true) ∧
      (s.mgmt.controllerReset = false → s.mgmt.hubDead = false → t.pins.fanPwm = t.fanDuty) ∧ SameArray s t) ∧
  (∀ (s : State), (s.on Reg.PWR_STATUS_THROTTLE = false → Passes .throttleStep s) ∧
    (s.on Reg.PWR_STATUS_THROTTLE = true → After .throttleStep s fun t => t.rg Reg.THROTTLE_MS = s.rg Reg.THROTTLE_MS + 1 ∧ SameArray s t ∧
      RegsBut s t [Reg.THROTTLE_MS, Reg.PWR_STATUS] ∧
      (1600 ≤ s.hot → t.power = { s.power with thermLimit := s.power.thermLimit - 30, broken := true } ∧ t.on Reg.PWR_STATUS_THROTTLE = true) ∧
      (1552 < s.hot → s.hot < 1600 → t.power = s.power ∧ t.on Reg.PWR_STATUS_THROTTLE = true) ∧
      (s.hot ≤ 1552 → t.power = { s.power with thermLimit := s.power.thermLimit + 30 } ∧
        t.on Reg.PWR_STATUS_THROTTLE = decide (s.power.thermLimit + 30 ≤ 10 * s.fd Reg.PWR_CTRL_CAP_W)))) ∧
  (∀ (s : State) (v : Word), s.open →
    (bit v 31 = true → 2 ≤ s.fd Reg.PWR_STATUS_STATE → Passes (.restEnter v) s) ∧
    (bit v 31 = true → s.fd Reg.PWR_STATUS_STATE < 2 →
      (s.restBusy = true → After (.restEnter v) s fun t => t.fd Reg.PWR_REST_RESULT = 2 ∧ t.on Reg.PWR_EVENTS_REST_REFUSED = true ∧
        t.power = s.power ∧ SameArray s t ∧ RegsBut s t [Reg.PWR_REST, Reg.PWR_EVENTS, Reg.IRQ_STATUS]) ∧
      (s.restBusy = false → bit v 30 = true → After (.restEnter v) s fun t => t.fd Reg.PWR_REST_RESULT = 3 ∧ OnlyRegs s t [Reg.PWR_REST]) ∧
      (s.restBusy = false → bit v 30 = false → After (.restEnter v) s fun t => t.fd Reg.PWR_STATUS_STATE = 2 ∧ t.power = { s.power with trigger := false } ∧
        SameArray s t ∧ RegsBut s t [Reg.PWR_STATUS])) ∧
    (bit v 31 = false → bit v 30 = false → Passes (.restEnter v) s) ∧
    (bit v 31 = false → bit v 30 = true → exec (.restEnter v) s = exec (.wake true) s)) ∧
  (∀ (s : State),
    (s.fd Reg.PWR_STATUS_STATE ≠ 2 → Passes .restEntered s) ∧
    (s.fd Reg.PWR_STATUS_STATE = 2 → After .restEntered s fun t => t.fd Reg.PWR_STATUS_STATE = (if s.power.trigger then 4 else 3) ∧
      t.fd Reg.PWR_REST_RESULT = 1 ∧ t.rg Reg.REST_ENTRIES = s.rg Reg.REST_ENTRIES + 1 ∧ t.on Reg.PWR_EVENTS_REST_ENTERED = true ∧
      t.power.trigger = false ∧ (∀ n, n < 576 → tget 0 t.power.granted n = 0) ∧ SameArray s t)) ∧
  (∀ (s : State) (host : Bool), (host = true → s.open) →
    (s.fd Reg.PWR_STATUS_STATE = 3 → After (.wake host) s fun t => t.fd Reg.PWR_STATUS_STATE = 4 ∧ OnlyRegs s t [Reg.PWR_STATUS]) ∧
    (s.fd Reg.PWR_STATUS_STATE = 2 → exec (.wake host) s = .next { s with power := { s.power with trigger := true } }) ∧
    (s.fd Reg.PWR_STATUS_STATE ≠ 2 → s.fd Reg.PWR_STATUS_STATE ≠ 3 → Passes (.wake host) s)) ∧
  (∀ (s : State), (s.fd Reg.PWR_STATUS_STATE ≠ 4 → Passes .wakeDone s) ∧
    (s.fd Reg.PWR_STATUS_STATE = 4 → ∃ u : State, exec .wakeDone s = .next (u.each s.power.held State.heldAct) ∧ u.fd Reg.PWR_STATUS_STATE = 1 ∧
      u.on Reg.PWR_EVENTS_WOKE = true ∧ u.grantsHold ∧ u.power.held = [] ∧ SameArray s u ∧
      RegsBut s u [Reg.PWR_STATUS, Reg.PWR_EVENTS, Reg.IRQ_STATUS, Reg.PWR_FREQ]))

/-- A write of TH_WARN out of its range, or of FAN_CTRL with T_HIGH not above T_LOW or MIN_DUTY above 100, is ignored. A BAR0 write of four
bytes that is let through, to TH_WARN with a temperature outside 60 to 100 °C, or to FAN_CTRL with T_HIGH not above T_LOW or MIN_DUTY above
100, leaves the whole state as it was. The management controller's write does the same and only answers. (R601) -/
def Obligations.HeatSettingsOutOfRangeAreIgnored : Prop :=
  (∀ (s : State) (v : Word) (vf : Bool), s.open → (bits v 15 0 < 960 ∨ 1600 < bits v 15 0) →
    Passes (.registerWrite (BitVec.ofNat 24 Reg.TH_WARN) 4 (v.setWidth 64) vf) s) ∧
  (∀ (s : State) (v : Word) (vf : Bool), s.open → (bits v 15 8 ≤ bits v 23 16 ∨ 100 < bits v 31 24) →
    Passes (.registerWrite (BitVec.ofNat 24 Reg.FAN_CTRL) 4 (v.setWidth 64) vf) s) ∧
  (∀ (s : State) (off v : Word) (vf : Bool), s.open → s.mctpServes true = true → s.on Reg.GS_STATUS_RECOVERY = false →
    ((off.toNat = Reg.TH_WARN ∧ (bits v 15 0 < 960 ∨ 1600 < bits v 15 0)) ∨
      (off.toNat = Reg.FAN_CTRL ∧ (bits v 15 8 ≤ bits v 23 16 ∨ 100 < bits v 31 24))) →
    ∃ status, exec (.writeReg true off v vf) s = .next (s.vendorReply 2 status []))

/-- Cold resets, rail faults, clock losses, the host's reset, the controller's and the hub watchdog act as their rules say. A cold reset, with
no library entry being deleted, sets its bit of GS_RESET_CAUSE, takes every other register to its reset value, empties the volatile parts
and keeps store, health and ageing records, firmware fuses and set-up record: at power-on, at COLD_RESET_N, at GS_RESET's cold code, at a
brownout of an always-on or hub rail and at loss of REFCLK_SYS; during a shutdown the pin and the code wait for its end. Another rail's
fault fails the package with cause 6, a core rail's does nothing. Loss of an Ethernet clock takes every sub-port down, of a Flarid clock the
die's ports, of the PCIe clock the host link. PERST_N takes the link down and resets every instance once READY; its deassertion brings the
link up. A controller reset is counted with the fan at 100 %. GS_RESET with halves that are not complements is counted and reported, with
another code ignored. Where the rules leave a reading open, the model's is taken: log entries 87, 88. (19_reset_and_management.md, 20_package_and_pins.md) -/
def Obligations.ColdResetsKeepWhatTheirTableKeeps : Prop :=
  (∀ (s : State), s.noneDeleting → After (.coldReset true) s fun t => ColdFrom s t 0 ∧ t.mgmt.inColdReset = true ∧ t.mgmt.brownout = [] ∧
    t.mgmt.copyA = s.mgmt.copyA ∧ t.mgmt.copyB = s.mgmt.copyB) ∧
  (∀ (s : State), s.noneDeleting → s.inShutdown = false → After (.coldReset false) s fun t => ColdFrom s t 1 ∧ t.mgmt.inColdReset = true ∧
    t.mgmt.copyA = s.mgmt.copyA ∧ t.mgmt.copyB = s.mgmt.copyB) ∧
  (∀ (s : State), s.inShutdown = true →
    exec (.coldReset false) s = .next { s with mgmt := { s.mgmt with inColdReset := true, coldDue := some 1 } }) ∧
  (∀ (s : State), (s.mgmt.inColdReset = false → Passes .coldResetNDeassert s) ∧
    (s.mgmt.inColdReset = true → exec .coldResetNDeassert s = .next { s with
      mgmt := { s.mgmt with inColdReset := false }
      pins := { s.pins with tapInstr := 2, tapTakes := false, refLost := [], ioOff := false } })) ∧
  (∀ (s : State) (v : Word), s.open →
    (bits v 31 16 + bits v 15 0 ≠ 65535 → ∀ c ∈ [Instr.gsResetCold v, .gsResetController v], After c s fun t =>
      t.rg Reg.FH_CPL_MISMATCH = s.rg Reg.FH_CPL_MISMATCH + 1 ∧ t = { s with regs := t.regs, repair := t.repair } ∧
        t.repair = { s.repair with inFlight := s.repair.inFlight ++ [⟨hubStop 0, 15, 0, false⟩] } ∧ RegsBut s t [Reg.FH_CPL_MISMATCH]) ∧
    (bits v 31 16 + bits v 15 0 = 65535 → bits v 15 0 ≠ 0x0C01 → bits v 15 0 ≠ 0x0C02 →
      ∀ c ∈ [Instr.gsResetCold v, .gsResetController v], Passes c s) ∧
    (s.noneDeleting → s.inShutdown = false → After (.gsResetCold 0xF3FE0C01#32) s fun t => ColdFrom s t 3) ∧
    (s.inShutdown = true → exec (.gsResetCold 0xF3FE0C01#32) s = .next { s with mgmt := { s.mgmt with coldDue := some 3 } }) ∧
    (s.inCold = false → exec (.gsResetController 0xF3FD0C02#32) s = exec .controllerReset s)) ∧
  (∀ (s : State), exec .controllerWatchdog s = exec .controllerReset s ∧ (s.inCold = true → Passes .controllerReset s) ∧
    (s.inCold = false → After .controllerReset s fun t => t.mgmt = { s.mgmt with controllerReset := true } ∧ t.rg Reg.MG_RESETS = s.rg Reg.MG_RESETS + 1 ∧
      t.pins = { s.pins with fanPwm := 100 } ∧ t.fd Reg.FAN_STATUS_DUTY = 100 ∧ SameArray s t ∧ RegsBut s t [Reg.MG_RESETS, Reg.FAN_STATUS]) ∧
    (s.mgmt.controllerReset = false → Passes .controllerResetDone s) ∧
    (s.mgmt.controllerReset = true → s.mgmt.hubDead = false → After .controllerResetDone s fun t => t.mgmt = { s.mgmt with controllerReset := false } ∧
      t.pins.fanPwm = t.fanDuty ∧ t.pins.alertN = decide ((s.rg Reg.MG_ALERT &&& s.rg Reg.MG_ALERT_EN) ≠ 0#32) ∧ SameArray s t ∧
      RegsBut s t [Reg.FAN_STATUS]) ∧
    ((s.inCold = true ∨ s.on Reg.GS_STATUS_SHUTTING_DOWN = true ∨ s.fd Reg.GS_STATUS_STAGE ≤ 1) → Passes .hubWatchdog s) ∧
    (s.inCold = false → s.on Reg.GS_STATUS_SHUTTING_DOWN = false → 1 < s.fd Reg.GS_STATUS_STAGE → After .hubWatchdog s fun t => t.mgmt.hubDead = true ∧
      t.on Reg.GS_RESET_CAUSE_HUB_DEAD = true ∧ t.pins.alertN = true ∧ t.pins.fanPwm = 100 ∧ SameArray s t ∧
      RegsBut s t [Reg.GS_RESET_CAUSE, Reg.FAN_STATUS])) ∧
  (∀ (s : State) (r : Rail), s.mgmt.inColdReset = true → Passes (.railFault r) s) ∧
  (∀ (s : State), s.mgmt.inColdReset = false →
    (s.noneDeleting → After (.railFault .aon) s fun t => ColdFrom s t 4 ∧ t.mgmt.brownout.contains .aon = true) ∧
    (s.noneDeleting → After (.railFault .hub) s fun t => ColdFrom s t 4 ∧ t.mgmt.brownout.contains .hub = true) ∧
    (s.noneDeleting → After (.refclkLoss .sys) s fun t => ColdFrom s t 4 ∧ t.mgmt.brownout.contains .refclk = true) ∧
    (∀ d, Passes (.railFault (.core d)) s) ∧
    (∀ r ∈ [Rail.io, .vppDram, .vccNand, .serdes, .dram, .nand], s.on Reg.FH_SUMMARY_FAILED = false → After (.railFault r) s fun t =>
      t.on Reg.FH_SUMMARY_FAILED = true ∧ t.fd Reg.FH_SUMMARY_CAUSE = 6 ∧ t.net.step = none ∧ t.pins.ioOff = (s.pins.ioOff || decide (r = .io)))) ∧
  (∀ (s : State) (c : Supply), After (.brownoutEnd c) s fun t => t.mgmt = { s.mgmt with brownout := s.mgmt.brownout.filter (· ≠ c) } ∧
    t.regs = s.regs ∧ SameArray s t) ∧
  (∀ (s : State),
    After (.refclkLoss .eth) s (fun t => t.pins.refLost.contains .eth = true ∧
      ∀ p b, p < 4 → b < 4 → t.fd ⟨Reg.ETH_STATUS p, 28 + b, 28 + b⟩ = 0) ∧
    (∀ d : Fin 4, After (.refclkLoss (.flarid d)) s fun t => ∀ k, k < 4 →
      t.portState (4 * d + k) = if [1, 2, 3].contains (s.portState (4 * d + k)) then 4 else s.portState (4 * d + k)) ∧
    After (.refclkLoss .pcie) s (fun t => t.rg Reg.HL_STATUS = 0 ∧ t.pins.refLost.contains .pcie = true ∧ SameArray s t ∧ RegsBut s t [Reg.HL_STATUS])) ∧
  (∀ (s : State),
    (s.inCold = true → exec .hostReset s = .next { s with mgmt := { s.mgmt with perst := true } }) ∧
    (s.inCold = false → s.on Reg.GS_STATUS_READY = false → After .hostReset s fun t => t.rg Reg.HL_STATUS = 0 ∧ t.mgmt = { s.mgmt with perst := true } ∧
      SameArray s t ∧ RegsBut s t [Reg.HL_STATUS]) ∧
    (s.inCold = false → s.on Reg.GS_STATUS_READY = true → After .hostReset s fun t => t.rg Reg.HL_STATUS = 0 ∧
      ∀ i, i < 64 → t.on (Reg.INST_STATUS_IN_RESET i) = true)) ∧
  (∀ (s : State) (rate : BitVec 2) (flit : Bool) (width : BitVec 5),
    let held := s.inCold || s.fd Reg.GS_STATUS_STAGE == 0 || s.pins.refLost.contains .pcie
    (held = true → exec (.perstNDeassert rate flit width) s = .next { s with mgmt := { s.mgmt with perst := false } }) ∧
    (held = false → After (.perstNDeassert rate flit width) s fun t => t.on Reg.HL_STATUS_UP = true ∧ t.fd Reg.HL_STATUS_RATE = rate.toNat ∧
      t.on Reg.HL_STATUS_FLIT = flit ∧ t.fd Reg.HL_STATUS_WIDTH = width.toNat ∧ t.mgmt = { s.mgmt with perst := false } ∧ SameArray s t ∧
      RegsBut s t [Reg.HL_STATUS]))

/-- The boot ends its stages in order with what they found, up to READY; a stage's failure or a second watchdog stop puts the module in
recovery. The end of a stage that is not in progress, or while the module does not boot, has no effect. The ROM's stage ends with the serial
number of a good identity record; the firmware's with the copy that is accepted, its numbers and FALLBACK where it is not the first tried,
or in recovery with cause 1; the self-test's with the failing clusters out of service, no contents left in the array, and the package failed
where a path is beyond repair; the DRAM's with the stacks that trained, and the package failed where both of a die did not; the store's with
READY in stage 5, the store ready and one free value read. A watchdog stop in stage 0 or out of boot has no effect; the first resets the
module, the second in succession puts it in recovery with cause 2. Where the rules leave a reading open, the model's is taken: log entries
2, 87. (19_reset_and_management.md, 17_repair.md, 15_dram_and_store.md) -/
def Obligations.BootPassesItsStagesToReady : Prop :=
  (∀ (s : State) (f : BootFact), s.booting = false → Passes (.bootStageEnd f) s) ∧
  (∀ (s : State), s.booting = true →
    (∀ f, s.fd Reg.GS_STATUS_STAGE = 0 → f ≠ .rom → Passes (.bootStageEnd f) s) ∧
    (∀ f, s.fd Reg.GS_STATUS_STAGE = 1 → f ≠ .firmware → Passes (.bootStageEnd f) s) ∧
    (∀ f, 5 ≤ s.fd Reg.GS_STATUS_STAGE → Passes (.bootStageEnd f) s) ∧
    (s.fd Reg.GS_STATUS_STAGE = 0 → After (.bootStageEnd .rom) s fun t => t.fd Reg.GS_STATUS_STAGE = 1 ∧
      (s.mgmt.identityGood = true → t.rg64 Reg.GS_SERIAL_LO = s.mgmt.serial % 2 ^ 64) ∧
      OnlyRegs s t [Reg.GS_STATUS, Reg.GS_SERIAL_LO, Reg.GS_SERIAL_HI]) ∧
    (s.fd Reg.GS_STATUS_STAGE = 1 → let a := s.mgmt.firstCopy
      ([a, 1 - a].find? s.mgmt.accepts = none → After (.bootStageEnd .firmware) s fun t => t.on Reg.GS_STATUS_RECOVERY = true ∧
        t.on Reg.GS_BOOT_FAILED = true ∧ t.fd Reg.GS_BOOT_CAUSE = 1 ∧ t.fd Reg.GS_STATUS_STAGE = 1 ∧ t.mgmt = { s.mgmt with pendingCopy := none } ∧
        SameArray s t) ∧
      (∀ k, k < 2 → [a, 1 - a].find? s.mgmt.accepts = some k → After (.bootStageEnd .firmware) s fun t => t.fd Reg.GS_STATUS_STAGE = 2 ∧
        t.fd Reg.GS_STATUS_FW_COPY = k ∧ t.on Reg.GS_STATUS_FALLBACK = decide (k ≠ a) ∧ t.mgmt.copy = k ∧
        t.fd Reg.GS_FW_VERSION_SVN = (s.mgmt.firmware k).svn % 2 ^ 16 ∧ t.fd Reg.GS_FW_VERSION_BUILD = (s.mgmt.firmware k).build % 2 ^ 16 ∧
        t.on Reg.GS_STATUS_RECOVERY = false ∧ SameArray s t)) ∧
    (∀ clusters banks paths, s.fd Reg.GS_STATUS_STAGE = 2 → After (.bootStageEnd (.selfTest clusters banks paths)) s fun t =>
      t.fd Reg.GS_STATUS_STAGE = 3 ∧ t.clusters = [] ∧ t.repair.retired = s.bootRetired clusters banks ∧
      (∀ n, n < 576 → n ∈ clusters → t.works (n / 18) (n % 18) = false) ∧ (paths = true → t.on Reg.FH_SUMMARY_FAILED = true) ∧
      (s.net.step = none → t.dram = s.dram)) ∧
    (∀ dead : List Nat, s.fd Reg.GS_STATUS_STAGE = 3 → After (.bootStageEnd (.dram dead)) s fun t => t.fd Reg.GS_STATUS_STAGE = 4 ∧
      (∀ st, st < 8 → t.on (Reg.DRAM_STATUS_UP st) = ! dead.contains st) ∧
      (∀ d, d < 4 → 2 * d ∈ dead → 2 * d + 1 ∈ dead → t.on Reg.FH_SUMMARY_FAILED = true)) ∧
    (∀ half pages, s.fd Reg.GS_STATUS_STAGE = 4 → After (.bootStageEnd (.store half pages)) s fun t => t.fd Reg.GS_STATUS_STAGE = 5 ∧
      t.on Reg.GS_STATUS_READY = true ∧ t.on Reg.ST_STATUS_READY = true ∧ t.store.ready = true ∧ t.freeCount = s.freeCount + 1 ∧
      t.fd Reg.GS_BOOT_BOOT_MS = bits (Config.freeWord s.freeCount) 15 0 ∧ (s.mgmt.setup = none → t.on Reg.GS_STATUS_SETUP_RESTORED = true) ∧
      t.mgmt.stops = 0 ∧ SameArray s t)) ∧
  (∀ (s : State), (s.booting = false ∨ s.fd Reg.GS_STATUS_STAGE = 0 → Passes .bootWatchdog s) ∧
    (s.booting = true → s.fd Reg.GS_STATUS_STAGE ≠ 0 → After .bootWatchdog s fun t => t.clusters = [] ∧ t.dram = [] ∧ t.mgmt.pendingCopy = none ∧
      t.mgmt.stops = (if s.mgmt.stops = 0 then 1 else 0) ∧ t.on Reg.GS_STATUS_RECOVERY = decide (s.mgmt.stops ≠ 0) ∧
      (s.mgmt.stops ≠ 0 → t.on Reg.GS_BOOT_FAILED = true ∧ t.fd Reg.GS_BOOT_CAUSE = 2)))

/-- The set-up record is saved and restored, and a power warning shuts the module down, ends what is under way and restarts it. A write of
GS_SETUP with SAVE takes the snapshot and sets SAVING; while one is being stored it is refused with RESULT 2, as before READY, where it is
also a rejected write; without SAVE it has no effect. Stored, the record is the next version with RESULT 1; a failure gives RESULT 2 and
keeps the old. A restore waits for READY; without a record it only sets SETUP_RESTORED; with one its registers but the batching records are
written and the time base takes them, and the batching records follow once no autostart record or load is left. A power warning sets
SHUTTING_DOWN, takes every cluster to the floor and leaves no step in progress; one under way goes on. Its end sets SHUTDOWN_DONE, ends an
entry write ABORTED and a firmware update INCOMPLETE, and a cold reset that waited follows; else the restart counts once the warning is
gone, and then resets the module with its cause. Where the rules leave a reading open, the model's is taken: log entries 88, 89. (19_reset_and_management.md, 18_power.md) -/
def Obligations.SetUpIsSavedAndRestoredAndShutdownsRunToTheirEnd : Prop :=
  (∀ (s : State) (v : Word),
    (s.open → bit v 31 = false → Passes (.setupSave v) s) ∧
    (s.open → bit v 31 = true → s.on Reg.GS_SETUP_SAVING = true → After (.setupSave v) s fun t => t.fd Reg.GS_SETUP_RESULT = 2 ∧
      OnlyRegs s t [Reg.GS_SETUP]) ∧
    (s.open → bit v 31 = true → s.on Reg.GS_SETUP_SAVING = false → After (.setupSave v) s fun t => t.on Reg.GS_SETUP_SAVING = true ∧
      t.mgmt = { s.mgmt with saving := some s.snapshot } ∧ SameArray s t ∧ RegsBut s t [Reg.GS_SETUP]) ∧
    (s.on Reg.GS_STATUS_READY = false → bit v 31 = true → After (.setupSave v) s fun t => t.fd Reg.GS_SETUP_RESULT = 2 ∧
      t.rg Reg.REJECTED_WRITES = s.rg Reg.REJECTED_WRITES + 1 ∧ OnlyRegs s t [Reg.GS_SETUP, Reg.REJECTED_WRITES, Reg.REJECTED_LAST])) ∧
  (∀ (s : State) (ok : Bool), s.mgmt.saving = none → Passes (.setupSaveDone ok) s) ∧
  (∀ (s : State) (r : SetupRecord), s.mgmt.saving = some r →
    After (.setupSaveDone true) s (fun t => t.on Reg.GS_SETUP_SAVING = false ∧ t.fd Reg.GS_SETUP_RESULT = 1 ∧ t.on Reg.GS_SETUP_VALID = true ∧
      t.fd Reg.GS_SETUP_VERSION = (s.mgmt.setupVersion + 1) % 2 ^ 16 ∧
      t.mgmt = { s.mgmt with saving := none, setup := some r, setupVersion := (s.mgmt.setupVersion + 1) % 2 ^ 16 } ∧ RegsBut s t [Reg.GS_SETUP]) ∧
    After (.setupSaveDone false) s (fun t => t.on Reg.GS_SETUP_SAVING = false ∧ t.fd Reg.GS_SETUP_RESULT = 2 ∧
      t.mgmt = { s.mgmt with saving := none } ∧ RegsBut s t [Reg.GS_SETUP])) ∧
  (∀ (s : State),
    (s.on Reg.GS_STATUS_READY = false ∨ s.mgmt.controllerReset = true ∨ s.inCold = true → Passes .setupRestore s) ∧
    (s.on Reg.GS_STATUS_READY = true → s.mgmt.controllerReset = false → s.inCold = false →
      (s.on Reg.GS_STATUS_SETUP_RESTORED = false → s.mgmt.setup = none → After .setupRestore s fun t =>
        t.on Reg.GS_STATUS_SETUP_RESTORED = true ∧ OnlyRegs s t [Reg.GS_STATUS]) ∧
      (∀ r, s.on Reg.GS_STATUS_SETUP_RESTORED = false → s.mgmt.setup = some r →
        let u := (s.each (r.filter fun e => ! isBatch e.1) State.restoreOne).restoreTime
        After .setupRestore s fun t => t.on Reg.GS_STATUS_SETUP_RESTORED = true ∧ t.mgmt = { u.mgmt with restore := some (r.filter fun e => isBatch e.1) } ∧
          t.time = u.time ∧ SameArray u t ∧ RegsBut u t [Reg.GS_STATUS, Reg.GS_SETUP]) ∧
      (s.on Reg.GS_STATUS_SETUP_RESTORED = true → (s.mgmt.restore = none ∨ s.nextAuto.isSome = true ∨ s.autoLoading = true) →
        Passes .setupRestore s) ∧
      (∀ r, s.on Reg.GS_STATUS_SETUP_RESTORED = true → s.mgmt.restore = some r → s.nextAuto = none → s.autoLoading = false →
        After .setupRestore s fun t => t.mgmt.restore = none ∧ t.regs = (s.each r State.restoreOne).regs))) ∧
  (∀ (s : State),
    (s.inCold = true ∨ s.on Reg.GS_STATUS_SHUTTING_DOWN = true →
      exec .shutdown s = .next { s with mgmt := { s.mgmt with warn := true, restartCount := false } }) ∧
    (s.inCold = false → s.on Reg.GS_STATUS_SHUTTING_DOWN = false → After .shutdown s fun t => t.on Reg.GS_STATUS_SHUTTING_DOWN = true ∧
      t.mgmt = { s.mgmt with warn := true, restartCount := false } ∧ t.net.step = none ∧ s.atFloor t ∧
      t.fd ⟨Reg.MG_ALERT, 2, 2⟩ = 1)) ∧
  (∀ (s : State), (s.inShutdown = false → Passes .shutdownDone s) ∧
    (s.inShutdown = true → s.mgmt.coldDue = none → After .shutdownDone s fun t => t.on Reg.GS_STATUS_SHUTDOWN_DONE = true ∧
      t.mgmt.restartCount = ! s.mgmt.warn ∧ t.store.writing = none ∧ SameArray s t ∧
      (s.store.writing.isSome = true → t.fd Reg.STW_CTRL_RESULT = 5 ∧ t.on Reg.STW_CTRL_DONE = true) ∧
      (s.on Reg.MAINT_STATUS_BUSY = true → s.fd Reg.MAINT_STATUS_CMD = 5 → t.on Reg.MAINT_STATUS_BUSY = false ∧
        t.fd Reg.MAINT_STATUS_RESULT = 3 ∧ t.mgmt.updating = none ∧ t.mgmt.copyA = s.mgmt.copyA ∧ t.mgmt.copyB = s.mgmt.copyB)) ∧
    (∀ k, s.inShutdown = true → s.mgmt.coldDue = some k → After .shutdownDone s fun t => t.clusters = [] ∧ t.dram = [] ∧ t.mgmt.coldDue = none ∧
      t.rg Reg.GS_RESET_CAUSE = s.rg Reg.GS_RESET_CAUSE ||| BitVec.ofNat 32 (2 ^ k)) ∧
    exec .pwrWarnDeassert s = .next { s with mgmt := { s.mgmt with warn := false, restartCount := s.on Reg.GS_STATUS_SHUTDOWN_DONE } } ∧
    (s.mgmt.restartCount = false → Passes .shutdownRestart s) ∧
    (s.mgmt.restartCount = true → s.noneDeleting → After .shutdownRestart s fun t => ColdFrom s t 2))

/-- Each management command is answered as its table says, in service and in recovery, or not at all without PEC or in reset; PMBus is polled. A
command that the controller does not serve has no effect. An endpoint identifier other than 0x00 and 0xFF is taken (the refusal of those two
is the model's, log entry 100), and is read back; message types, and the vendor's enterprise number, are told. A register read answers the
register's four bytes, and of an offset that is no register INVALID. Recovery answers with a status other than OK, and without any other
effect, what it does not serve: reads beyond the identity block, writes, pages and events; outside recovery so are recovery's own commands.
A page answers 256 bytes of its snapshot, an event its 32 bytes while it is held, else INVALID. RESET with halves that are not complements
is INVALID and counted; with a code it answers first, then the reset runs. In recovery, image bytes are stored; a commit that fails its
check is REFUSED, one that passes replaces both copies and a cold reset follows. A PMBus poll that fails or shows a fault is counted and
alerts. Where the rules leave a reading open, the model's is taken: log entries 2, 100, 101. (19_reset_and_management.md, 17_repair.md, 21_setup_registers.md) -/
def Obligations.TheManagementBusAnswersItsCommands : Prop :=
  (∀ (s : State) (pec : Bool), s.mctpServes pec = false → ∀ (eid typ sel k part : BitVec 8) (off v n len : Word) (vf sig : Bool)
    (code codeN svn build : BitVec 16) (data : List Byte),
    ∀ c ∈ [Instr.setEndpointId pec eid, .getEndpointId pec, .getMctpVersionSupport pec typ, .getMessageTypeSupport pec,
      .getVendorDefinedMessageSupport pec sel, .readReg pec off, .writeReg pec off v vf, .readPage pec k part, .readEvent pec n,
      .mctpReset pec code codeN, .recoveryWrite pec off data, .recoveryCommit pec len sig svn build], Passes c s) ∧
  (∀ (s : State) (pec : Bool), s.mctpServes pec = true →
    (∀ eid : BitVec 8, (eid = 0#8 ∨ eid = 0xFF#8 → exec (.setEndpointId pec eid) s = .next (s.emit (.mctp 1 2 []))) ∧
      (eid ≠ 0#8 → eid ≠ 0xFF#8 → After (.setEndpointId pec eid) s fun t => t.fd Reg.MG_SMBUS_EID = eid.toNat ∧
        t.outbox = s.outbox ++ [.mctp 1 0 [eid]] ∧ OnlyRegs { s with outbox := t.outbox } t [Reg.MG_SMBUS])) ∧
    exec (.getEndpointId pec) s = .next (s.emit (.mctp 2 0 [BitVec.ofNat 8 (s.fd Reg.MG_SMBUS_EID)])) ∧
    (∀ typ : BitVec 8, (typ = 0#8 ∨ typ = 0x7F#8 ∨ typ = 0xFF#8 → ∃ w : Word,
        exec (.getMctpVersionSupport pec typ) s = .next (({ s with freeCount := s.freeCount + 1 }).emit (.mctp 4 0 (leBytes 4 w.toNat)))) ∧
      (typ ≠ 0#8 → typ ≠ 0x7F#8 → typ ≠ 0xFF#8 → exec (.getMctpVersionSupport pec typ) s = .next (s.emit (.mctp 4 0x80 [])))) ∧
    exec (.getMessageTypeSupport pec) s = .next (s.emit (.mctp 5 0 [0x00, 0x7F])) ∧
    exec (.getVendorDefinedMessageSupport pec 0#8) s = .next (s.emit (.mctp 6 0 (leBytes 4 (s.rg Reg.MG_IANA).toNat))) ∧
    (∀ sel : BitVec 8, sel ≠ 0#8 → exec (.getVendorDefinedMessageSupport pec sel) s = .next (s.emit (.mctp 6 2 []))) ∧
    (∀ off : Word, s.readServed off.toNat = true →
      (off.toNat < 2 ^ 24 → off.toNat % 4 = 0 → After (.readReg pec off) s fun t =>
        t.outbox = (s.read4 true off.toNat).2.outbox ++ [.mctp 0x7F01 0 (leBytes 4 (s.read4 true off.toNat).1.toNat)] ∧ t.regs = (s.read4 true off.toNat).2.regs) ∧
      (2 ^ 24 ≤ off.toNat ∨ off.toNat % 4 ≠ 0 → exec (.readReg pec off) s = .next (s.emit (.mctp 0x7F01 2 [])))) ∧
    (s.on Reg.GS_STATUS_RECOVERY = true → ∀ (k part : BitVec 8) (off v n : Word) (vf : Bool),
      ∀ c ∈ [(Instr.writeReg pec off v vf, 2), (.readPage pec k part, 3), (.readEvent pec n, 4)] ++ (if s.readServed off.toNat then [] else [(.readReg pec off, 1)]),
        ∃ st, 1 ≤ st ∧ st ≤ 3 ∧ exec c.1 s = .next (({ s with freeCount := s.freeCount + 1 }).emit (.mctp (0x7F00 + c.2) st []))) ∧
    (s.on Reg.GS_STATUS_RECOVERY = false → ∀ (off len : Word) (data : List Byte) (sig : Bool) (svn build : BitVec 16),
      ∀ c ∈ [(Instr.recoveryWrite pec off data, 6), (.recoveryCommit pec len sig svn build, 7)],
        ∃ st, 1 ≤ st ∧ st ≤ 3 ∧ exec c.1 s = .next (({ s with freeCount := s.freeCount + 1 }).emit (.mctp (0x7F00 + c.2) st []))) ∧
    (s.on Reg.GS_STATUS_RECOVERY = false → ∀ k part : BitVec 8,
      (16 ≤ k.toNat ∨ 4 ≤ part.toNat → exec (.readPage pec k part) s = .next (s.emit (.mctp 0x7F03 2 []))) ∧
      (k.toNat < 16 → part.toNat < 4 → exec (.readPage pec k part) s = .next (s.emit (.mctp 0x7F03 0
        (wordBytes ((List.range 64).map fun w => s.rg (samplePage k.toNat + 256 * part.toNat + 4 * w))))))) ∧
    (s.on Reg.GS_STATUS_RECOVERY = false → ∀ n : Word, let held := (s.rg Reg.FH_EVT_HEAD - n).toNat
      (1 ≤ held → held ≤ 256 → s.rg (Reg.EVT_SEQ (n.toNat % 256)) = n → exec (.readEvent pec n) s = .next (s.emit (.mctp 0x7F04 0
        (wordBytes ((List.range 8).map fun w => s.rg (Reg.EVT_CAUSE (n.toNat % 256) + 4 * w)))))) ∧
      (held = 0 ∨ 256 < held ∨ s.rg (Reg.EVT_SEQ (n.toNat % 256)) ≠ n → exec (.readEvent pec n) s = .next (s.emit (.mctp 0x7F04 2 [])))) ∧
    (s.on Reg.GS_STATUS_RECOVERY = false → ∀ code codeN : BitVec 16,
      (codeN ≠ ~~~code → After (.mctpReset pec code codeN) s fun t => t.rg Reg.FH_CPL_MISMATCH = s.rg Reg.FH_CPL_MISMATCH + 1 ∧
        t.outbox = s.outbox ++ [.mctp 0x7F05 2 []] ∧ SameArray s t ∧ RegsBut s t [Reg.FH_CPL_MISMATCH]) ∧
      (codeN = ~~~code → code ≠ 0x0C01#16 → code ≠ 0x0C02#16 → exec (.mctpReset pec code codeN) s = .next (s.emit (.mctp 0x7F05 2 []))) ∧
      (codeN = ~~~code → code = 0x0C01#16 ∨ code = 0x0C02#16 →
        exec (.mctpReset pec code codeN) s = .next ((s.emit (.mctp 0x7F05 0 [])).resetCode code.toNat))) ∧
    (s.on Reg.GS_STATUS_RECOVERY = true → ∀ (off : Word) (data : List Byte),
      (224 < data.length ∨ 2 ^ 24 < off.toNat + data.length → exec (.recoveryWrite pec off data) s = .next (s.emit (.mctp 0x7F06 2 []))) ∧
      (data.length ≤ 224 → off.toNat + data.length ≤ 2 ^ 24 → After (.recoveryWrite pec off data) s fun t =>
        (∀ j b, data[j]? = some b → tget 0#8 t.mgmt.recovery (off.toNat + j) = b) ∧
        (∀ a, a < off.toNat ∨ off.toNat + data.length ≤ a → tget 0#8 t.mgmt.recovery a = tget 0#8 s.mgmt.recovery a) ∧
        t.outbox = s.outbox ++ [.mctp 0x7F06 0 []] ∧ t.regs = s.regs ∧ SameArray s t)) ∧
    (s.on Reg.GS_STATUS_RECOVERY = true → ∀ (len : Word) (sig : Bool) (svn build : BitVec 16),
      let good := sig && decide (s.mgmt.minSvn ≤ svn.toNat) && decide (len.toNat ≤ 2 ^ 24)
      (good = false → exec (.recoveryCommit pec len sig svn build) s = .next (s.emit (.mctp 0x7F07 1 []))) ∧
      (good = true → s.inShutdown = false → After (.recoveryCommit pec len sig svn build) s fun t =>
        t.mgmt.copyA = ⟨true, svn.toNat, build.toNat⟩ ∧ t.mgmt.copyB = ⟨true, svn.toNat, build.toNat⟩ ∧ t.outbox = s.outbox ++ [.mctp 0x7F07 0 []] ∧
        t.clusters = [] ∧ t.rg Reg.GS_RESET_CAUSE = s.rg Reg.GS_RESET_CAUSE ||| 8#32))) ∧
  (∀ (s : State) (die : Option (Fin 4)) (ok fault : Bool),
    let a := match die with
      | none => s.fd Reg.MG_PMBUS_IN_ADDR
      | some d => s.fd Reg.MG_PMBUS_VR_BASE + d.val
    (s.mgmt.controllerReset = true ∨ s.inCold = true → Passes (.pmbusPoll die ok fault) s) ∧
    (s.mgmt.controllerReset = false → s.inCold = false →
      (ok = true → (die = none ∨ fault = false) → exec (.pmbusPoll die ok fault) s = .next (s.emit (.pmbus a))) ∧
      (ok = false ∨ (die ≠ none ∧ fault = true) → After (.pmbusPoll die ok fault) s fun t => t.rg Reg.MG_PMBUS_ERR = s.rg Reg.MG_PMBUS_ERR + 1 ∧
        t.fd ⟨Reg.MG_ALERT, 4, 4⟩ = 1 ∧ t.outbox = s.outbox ++ [.pmbus a] ∧ SameArray s t ∧ RegsBut s t [Reg.MG_PMBUS_ERR, Reg.MG_ALERT])))

/-- The test access port loads its instructions; those on the boundary register take the pins only while COLD_RESET_N is asserted. A TAP reset
selects IDCODE and gives the pins to the device. EXTEST, EXTEST_PULSE and EXTEST_TRAIN, while COLD_RESET_N is asserted, take the pins, shift
the captured word out and leave the shifted word in the boundary register; else they act as BYPASS, and pass nothing of the register.
SAMPLE_PRELOAD shifts at any time without taking the pins. IDCODE sends the identification word. CLAMP and HIGHZ take the pins only while
COLD_RESET_N is asserted. An opcode that the table does not list, or 0xFF, selects BYPASS; a listed one is no BYPASS. Nothing but the port's
own state and TDO changes. Where the rules leave a reading open, the model's is taken: log entries 102. (20_package_and_pins.md) -/
def Obligations.TheTestPortTakesItsInstructions : Prop :=
  (∀ (s : State), exec .tapReset s = .next { s with pins := { s.pins with tapInstr := 2, tapTakes := false } } ∧
    exec .idcode s = .next { s with pins := { s.pins with tapInstr := 2, tapTakes := false }, outbox := s.outbox ++ [.tdo 0x10024BA7#32] } ∧
    exec .clamp s = .next { s with pins := { s.pins with tapInstr := 3, tapTakes := s.mgmt.inColdReset } } ∧
    exec .highz s = .next { s with pins := { s.pins with tapInstr := 4, tapTakes := s.mgmt.inColdReset } }) ∧
  (∀ (s : State) (captured shifted : Word),
    exec (.samplePreload captured shifted) s = .next { s with
      pins := { s.pins with tapInstr := 1, tapTakes := false, boundary := shifted.toNat }, outbox := s.outbox ++ [.tdo captured] } ∧
    ∀ c ∈ [(Instr.extest captured shifted, 0), (.extestPulse captured shifted, 5), (.extestTrain captured shifted, 6)],
      (s.mgmt.inColdReset = true → exec c.1 s = .next { s with
        pins := { s.pins with tapInstr := c.2, tapTakes := true, boundary := shifted.toNat }, outbox := s.outbox ++ [.tdo captured] }) ∧
      (s.mgmt.inColdReset = false → exec c.1 s = .next { s with pins := { s.pins with tapInstr := c.2, tapTakes := false } })) ∧
  (∀ (s : State) (opcode : BitVec 8),
    (opcode.toNat ≤ 6 → Passes (.bypass opcode) s) ∧
    (6 < opcode.toNat → exec (.bypass opcode) s = .next { s with pins := { s.pins with tapInstr := opcode.toNat, tapTakes := false } }))

end
end

