-- ==== Sys2Proof/Laws/Table.lean ====
section
/-! SUPPORT. Laws of the tables that are sparse by key: reading after writing, and the canonical form. -/

namespace Sys2Proof

section
variable {α : Type}

theorem keysFrom_mono {t : Table α} {a b : Nat} (h : keysFrom b t = true) (hab : a ≤ b) : keysFrom a t = true := by
  cases t with
  | nil => rfl
  | cons e t =>
    simp only [keysFrom, Bool.and_eq_true, decide_eq_true_eq] at h ⊢
    exact ⟨by omega, h.2⟩

/-- A key below all keys of a table is not listed. -/
theorem tget_below {d : α} {t : Table α} {b k : Nat} (h : keysFrom b t = true) (hk : k < b) : tget d t k = d := by
  induction t generalizing b with
  | nil => rfl
  | cons e t ih =>
    simp only [keysFrom, Bool.and_eq_true, decide_eq_true_eq] at h
    simp only [tget]
    rw [if_neg (by omega)]
    exact ih h.2 (by omega)

theorem keysFrom_tput {t : Table α} {b k : Nat} {v : α} (h : keysFrom b t = true) (hk : b ≤ k) : keysFrom b (tput t k v) = true := by
  induction t generalizing b with
  | nil => simpa [tput, keysFrom] using hk
  | cons e t ih =>
    simp only [keysFrom, Bool.and_eq_true, decide_eq_true_eq] at h
    simp only [tput]
    split
    · simp only [keysFrom, Bool.and_eq_true, decide_eq_true_eq]
      exact ⟨hk, by omega, h.2⟩
    · split
      · subst_vars
        simp only [keysFrom, Bool.and_eq_true, decide_eq_true_eq]
        exact ⟨hk, h.2⟩
      · simp only [keysFrom, Bool.and_eq_true, decide_eq_true_eq]
        exact ⟨h.1, ih h.2 (by omega)⟩

theorem keysFrom_tdel {t : Table α} {b k : Nat} (h : keysFrom b t = true) : keysFrom b (tdel t k) = true := by
  induction t generalizing b with
  | nil => rfl
  | cons e t ih =>
    simp only [keysFrom, Bool.and_eq_true, decide_eq_true_eq] at h
    simp only [tdel]
    split
    · exact keysFrom_mono (ih h.2) (by omega)
    · simp only [keysFrom, Bool.and_eq_true, decide_eq_true_eq]
      exact ⟨h.1, ih h.2⟩

theorem keysFrom_filter {t : Table α} {b : Nat} (p : Nat × α → Bool) (h : keysFrom b t = true) : keysFrom b (t.filter p) = true := by
  induction t generalizing b with
  | nil => rfl
  | cons e t ih =>
    simp only [keysFrom, Bool.and_eq_true, decide_eq_true_eq] at h
    rw [List.filter_cons]
    split
    · simp only [keysFrom, Bool.and_eq_true, decide_eq_true_eq]
      exact ⟨h.1, ih h.2⟩
    · exact keysFrom_mono (ih h.2) (by omega)

/-- A key that is put reads as what was put; others read as before. -/
@[simp] theorem tget_tput (d : α) (t : Table α) (k j : Nat) (v : α) : tget d (tput t k v) j = if j = k then v else tget d t j := by
  induction t with
  | nil => simp only [tput, tget, eq_comm]
  | cons e t ih =>
    simp only [tput]
    split
    · simp only [tget, eq_comm]
    · split
      · subst_vars
        simp only [tget, eq_comm]
        split <;> rfl
      · simp only [tget, ih]
        split
        · rw [if_neg (by omega)]
        · rfl

/-- A key taken out reads as the default; others read as before. -/
@[simp] theorem tget_tdel (d : α) (t : Table α) (k j : Nat) : tget d (tdel t k) j = if j = k then d else tget d t j := by
  induction t with
  | nil => simp [tdel, tget]
  | cons e t ih =>
    simp only [tdel]
    split
    · subst_vars
      simp only [ih, tget, eq_comm]
      split <;> rfl
    · simp only [tget, ih]
      split
      · rw [if_neg (by omega)]
      · rfl

/-- A cell that is written reads as what was written; others read as before. -/
@[simp] theorem tget_mput [DecidableEq α] (d : α) (t : Table α) (k j : Nat) (v : α) :
    tget d (mput d t k v) j = if j = k then v else tget d t j := by
  unfold mput
  split
  · subst_vars
    exact tget_tdel _ t k j
  · exact tget_tput d t k j v

theorem tput_all {t : Table α} {k : Nat} {v : α} {p : Nat × α → Bool} (h : t.all p = true) (hv : p (k, v) = true) :
    (tput t k v).all p = true := by
  induction t with
  | nil => simpa [tput] using hv
  | cons e t ih =>
    simp only [List.all_cons, Bool.and_eq_true] at h
    simp only [tput]
    split
    · simp [hv, h.1, h.2]
    · split
      · simp [hv, h.2]
      · simp [h.1, ih h.2]

theorem tdel_all {t : Table α} {k : Nat} {p : Nat × α → Bool} (h : t.all p = true) : (tdel t k).all p = true := by
  induction t with
  | nil => rfl
  | cons e t ih =>
    simp only [List.all_cons, Bool.and_eq_true] at h
    simp only [tdel]
    split
    · exact ih h.2
    · simp [h.1, ih h.2]

theorem filter_all {t : List α} {p q : α → Bool} (h : t.all p = true) : (t.filter q).all p = true := by
  simp only [List.all_eq_true, List.mem_filter] at h ⊢
  exact fun x hx => h x hx.1

end

end Sys2Proof
end

