-- ==== Sys2Proof/Laws/Keeps.lean ====
section
/-! SUPPORT. Every operation and every command keeps what `Keeps` says: the relation, and the operations that touch memory, registers, outputs and free
values. -/

namespace Sys2Proof.Machine

/-- An outcome that is a next state which keeps what `Keeps` says. -/
def KeepsOut (a : State) (o : Out) : Prop := ∃ t, o = .next t ∧ Keeps a t

theorem keeps_refl (s : State) : Keeps s s := ⟨rfl, id, List.prefix_refl _, Nat.le_refl _⟩

theorem keeps_trans {a b c : State} (h : Keeps a b) (k : Keeps b c) : Keeps a c :=
  ⟨k.1.trans h.1, fun w => k.2.1 (h.2.1 w), h.2.2.1.trans k.2.2.1, h.2.2.2.trans k.2.2.2⟩

theorem keepsOut_next {a t : State} (h : Keeps a t) : KeepsOut a (.next t) := ⟨t, rfl, h⟩

/-- A change of other fields is none to what `Keeps` says. -/
theorem keeps_mk {a t : State} {cl mem time host net bar store images repair links power mgmt pins mesh md br} :
    Keeps a ⟨t.pending, t.freeCount, t.outbox, t.regs, cl, t.dram, mem, time, host, net, bar, store, images, repair, links, power, mgmt, pins, mesh,
      md, br⟩ ↔ Keeps a t := Iff.rfl

/-- A write of a register keeps the registers in their one form. -/
theorem State.wrg_keeps {a s : State} (h : Keeps a s) (off : Nat) (v : Word) : Keeps a (s.wrg off v) := by
  refine ⟨h.1, fun w => ⟨(h.2.1 w).1, ?_⟩, h.2.2⟩
  have k := (h.2.1 w).2
  simp only [State.regsWf, Bool.and_eq_true] at k
  simp only [State.regsWf, State.wrg, mput, Bool.and_eq_true]
  split
  · exact ⟨keysFrom_tdel k.1, tdel_all k.2⟩
  · exact ⟨keysFrom_tput k.1 (Nat.zero_le _), tput_all k.2 (by simpa using ‹_›)⟩

/-- A write of a byte keeps DRAM in its one form. -/
theorem State.wrB_keeps {a s : State} (h : Keeps a s) (addr : Nat) (v : Byte) : Keeps a (s.wrB addr v) := by
  unfold State.wrB
  split
  · refine ⟨h.1, fun w => ⟨?_, (h.2.1 w).2⟩, h.2.2⟩
    have k := (h.2.1 w).1
    simp only [State.dramWf, twf, Bool.and_eq_true] at k
    simp only [State.dramWf, twf, mput, Bool.and_eq_true]
    split
    · exact ⟨⟨keysFrom_tdel k.1.1, tdel_all k.1.2⟩, tdel_all k.2⟩
    · exact ⟨⟨keysFrom_tput k.1.1 (Nat.zero_le _), tput_all k.1.2 (by simpa using ‹_›)⟩, tput_all k.2 (by simpa using ‹_›)⟩
  · exact h

/-- Zeroing of bytes keeps DRAM in its one form. -/
theorem keeps_filter {a s : State} (h : Keeps a s) (p : Nat × Byte → Bool) : Keeps a { s with dram := s.dram.filter p } := by
  refine ⟨h.1, fun w => ⟨?_, (h.2.1 w).2⟩, h.2.2⟩
  have k := (h.2.1 w).1
  simp only [State.dramWf, twf, Bool.and_eq_true] at k
  simp only [State.dramWf, twf, Bool.and_eq_true]
  exact ⟨⟨keysFrom_filter p k.1.1, filter_all k.1.2⟩, filter_all k.2⟩

/-- What is sent is added after what was sent. -/
theorem State.emit_keeps {a s : State} (h : Keeps a s) (o : Output) : Keeps a (s.emit o) := by
  unfold State.emit
  split
  · exact h
  · exact ⟨h.1, h.2.1, h.2.2.1.trans (List.prefix_append _ _), h.2.2.2⟩

/-- A free value is used once. -/
theorem State.free_keeps {a s : State} (h : Keeps a s) : Keeps a s.free.2 :=
  ⟨h.1, h.2.1, h.2.2.1, h.2.2.2.trans (Nat.le_succ _)⟩

theorem keeps_ite {a t u : State} {c : Prop} [Decidable c] (ht : Keeps a t) (hu : Keeps a u) : Keeps a (if c then t else u) := by
  split
  · exact ht
  · exact hu

theorem keeps_ite_fst {a : State} {β : Type} {x y : State × β} {c : Prop} [Decidable c] (hx : Keeps a x.1) (hy : Keeps a y.1) :
    Keeps a (if c then x else y).1 := by
  split
  · exact hx
  · exact hy

theorem keeps_ite_snd {a : State} {β : Type} {x y : β × State} {c : Prop} [Decidable c] (hx : Keeps a x.2) (hy : Keeps a y.2) :
    Keeps a (if c then x else y).2 := by
  split
  · exact hx
  · exact hy

theorem State.each_keeps {α : Type} {a s : State} (h : Keeps a s) (l : List α) (f : State → α → State) (hf : ∀ u x, Keeps u (f u x)) :
    Keeps a (s.each l f) := by
  unfold State.each
  induction l generalizing s with
  | nil => exact h
  | cons x l ih => exact ih (keeps_trans h (hf s x))

theorem State.wrBytes_keeps {a s : State} (h : Keeps a s) (addr : Nat) (bs : List Byte) : Keeps a (s.wrBytes addr bs) := by
  induction bs generalizing s addr with
  | nil => exact h
  | cons b bs ih => exact ih (State.wrB_keeps h addr b) (addr + 1)

theorem State.wrWords_keeps {a s : State} (h : Keeps a s) (addr : Nat) (ws : List Word) : Keeps a (s.wrWords addr ws) := by
  induction ws generalizing s addr with
  | nil => exact h
  | cons w ws ih => exact ih (State.wrBytes_keeps h addr _) (addr + 4)

end Sys2Proof.Machine
end

