-- ==== Sys2Proof/Laws/KeepsOps.lean ====
section
/-! SUPPORT. The operations and commands of Machine/Ops.lean leave the queue as it is, and keep memory and registers in their one form. -/

set_option linter.unusedTactic false
set_option linter.unreachableTactic false
set_option linter.unusedSimpArgs false

namespace Sys2Proof.Machine

theorem State.setF_keeps {σ s : State} (h : Keeps σ s) (x : Fld) (n : Nat) :
    Keeps σ (State.setF s x n) := by
  unfold State.setF
  with_reducible (repeat' (first | exact h | assumption | apply State.wrg_keeps | exact keeps_refl _ | apply keepsOut_next | apply keeps_ite | apply keeps_ite_fst | apply keeps_ite_snd | split | intro _ | simp only [keeps_mk] | dsimp only))

theorem State.incN_keeps {σ s : State} (h : Keeps σ s) (off : Nat) (n : Nat) :
    Keeps σ (State.incN s off n) := by
  unfold State.incN
  with_reducible (repeat' (first | exact h | assumption | apply State.wrg_keeps | exact keeps_refl _ | apply keepsOut_next | apply keeps_ite | apply keeps_ite_fst | apply keeps_ite_snd | split | intro _ | simp only [keeps_mk] | dsimp only))

theorem State.inc_keeps {σ s : State} (h : Keeps σ s) (off : Nat) :
    Keeps σ (State.inc s off) := by
  unfold State.inc
  with_reducible (repeat' (first | exact h | assumption | apply State.incN_keeps | exact keeps_refl _ | apply keepsOut_next | apply keeps_ite | apply keeps_ite_fst | apply keeps_ite_snd | split | intro _ | simp only [keeps_mk] | dsimp only))

theorem State.wrg64_keeps {σ s : State} (h : Keeps σ s) (off : Nat) (n : Nat) :
    Keeps σ (State.wrg64 s off n) := by
  unfold State.wrg64
  with_reducible (repeat' (first | exact h | assumption | apply State.wrg_keeps | exact keeps_refl _ | apply keepsOut_next | apply keeps_ite | apply keeps_ite_fst | apply keeps_ite_snd | split | intro _ | simp only [keeps_mk] | dsimp only))

theorem State.inc64_keeps {σ s : State} (h : Keeps σ s) (off : Nat) (n : Nat) :
    Keeps σ (State.inc64 s off n) := by
  unfold State.inc64
  with_reducible (repeat' (first | exact h | assumption | apply State.wrg64_keeps | exact keeps_refl _ | apply keepsOut_next | apply keeps_ite | apply keeps_ite_fst | apply keeps_ite_snd | split | intro _ | simp only [keeps_mk] | dsimp only))

theorem State.cond_keeps {σ s : State} (h : Keeps σ s) (c : Bool) (f : State → State) (hf : ∀ u0, Keeps u0 (f u0)) :
    Keeps σ (State.cond s c f) := by
  unfold State.cond
  with_reducible (repeat' (first | exact h | assumption | refine keeps_trans ?_ (hf _) | exact keeps_refl _ | apply keepsOut_next | apply keeps_ite | apply keeps_ite_fst | apply keeps_ite_snd | split | intro _ | simp only [keeps_mk] | dsimp only))

theorem State.msix_keeps {σ s : State} (h : Keeps σ s) (inst : Nat) (vector : Nat) :
    Keeps σ (State.msix s inst vector) := by
  unfold State.msix
  with_reducible (repeat' (first | exact h | assumption | apply State.emit_keeps | exact keeps_refl _ | apply keepsOut_next | apply keeps_ite | apply keeps_ite_fst | apply keeps_ite_snd | split | intro _ | simp only [keeps_mk] | dsimp only))

theorem State.irq_keeps {σ s : State} (h : Keeps σ s) (k : Nat) :
    Keeps σ (State.irq s k) := by
  unfold State.irq
  with_reducible (repeat' (first | exact h | assumption | apply State.setF_keeps | apply State.msix_keeps | exact keeps_refl _ | apply keepsOut_next | apply keeps_ite | apply keeps_ite_fst | apply keeps_ite_snd | split | intro _ | simp only [keeps_mk] | dsimp only))

theorem State.instEvent_keeps {σ s : State} (h : Keeps σ s) (i : Nat) (k : Nat) :
    Keeps σ (State.instEvent s i k) := by
  unfold State.instEvent
  with_reducible (repeat' (first | exact h | assumption | apply State.setF_keeps | apply State.msix_keeps | exact keeps_refl _ | apply keepsOut_next | apply keeps_ite | apply keeps_ite_fst | apply keeps_ite_snd | split | intro _ | simp only [keeps_mk] | dsimp only))

theorem State.drivePins_keeps {σ s : State} (h : Keeps σ s) :
    Keeps σ (State.drivePins s) := by
  unfold State.drivePins
  with_reducible (repeat' (first | exact h | assumption | exact keeps_refl _ | apply keepsOut_next | apply keeps_ite | apply keeps_ite_fst | apply keeps_ite_snd | split | intro _ | simp only [keeps_mk] | dsimp only))

theorem State.alert_keeps {σ s : State} (h : Keeps σ s) (k : Nat) :
    Keeps σ (State.alert s k) := by
  unfold State.alert
  with_reducible (repeat' (first | exact h | assumption | apply State.drivePins_keeps | apply State.setF_keeps | exact keeps_refl _ | apply keepsOut_next | apply keeps_ite | apply keeps_ite_fst | apply keeps_ite_snd | split | intro _ | simp only [keeps_mk] | dsimp only))

theorem State.post_keeps {σ s : State} (h : Keeps σ s) (cls : Nat) (unit : Nat) (stop : Nat) (action : Nat) (detail : Nat) (owner : Option (Nat × Nat)) (lc : Option Nat) :
    Keeps σ (State.post s cls unit stop action detail owner lc) := by
  unfold State.post
  with_reducible (repeat' (first | exact h | assumption | apply State.wrg_keeps | apply State.alert_keeps | apply State.irq_keeps | apply State.inc_keeps | exact keeps_refl _ | apply keepsOut_next | apply keeps_ite | apply keeps_ite_fst | apply keeps_ite_snd | split | intro _ | simp only [keeps_mk] | dsimp only))

theorem State.postOpen_keeps {σ s : State} (h : Keeps σ s) (cls : Nat) (stop : Option Nat) (owner : Option (Nat × Nat)) :
    Keeps σ (State.postOpen s cls stop owner) := by
  unfold State.postOpen
  with_reducible (repeat' (first | exact h | assumption | apply State.free_keeps | apply State.post_keeps | exact keeps_refl _ | apply keepsOut_next | apply keeps_ite | apply keeps_ite_fst | apply keeps_ite_snd | split | intro _ | simp only [keeps_mk] | dsimp only))

theorem State.report_keeps {σ s : State} (h : Keeps σ s) (stop : Nat) (unit : Nat) (detail : Nat) (byCount : Bool) :
    Keeps σ (State.report s stop unit detail byCount) := by
  unfold State.report
  with_reducible (repeat' (first | exact h | assumption | exact keeps_refl _ | apply keepsOut_next | apply keeps_ite | apply keeps_ite_fst | apply keeps_ite_snd | split | intro _ | simp only [keeps_mk] | dsimp only))

theorem State.cplMismatch_keeps {σ s : State} (h : Keeps σ s) (count : Option Nat) (stop : Nat) (unit : Nat) (detail : Nat) :
    Keeps σ (State.cplMismatch s count stop unit detail) := by
  unfold State.cplMismatch
  with_reducible (repeat' (first | exact h | assumption | apply State.inc_keeps | apply State.report_keeps | exact keeps_refl _ | apply keepsOut_next | apply keeps_ite | apply keeps_ite_fst | apply keeps_ite_snd | split | intro _ | simp only [keeps_mk] | dsimp only))

theorem State.hostMismatch_keeps {σ s : State} (h : Keeps σ s) (inst : Nat) :
    Keeps σ (State.hostMismatch s inst) := by
  unfold State.hostMismatch
  with_reducible (repeat' (first | exact h | assumption | apply State.cplMismatch_keeps | exact keeps_refl _ | apply keepsOut_next | apply keeps_ite | apply keeps_ite_fst | apply keeps_ite_snd | split | intro _ | simp only [keeps_mk] | dsimp only))

theorem State.demand_keeps {σ s : State} (h : Keeps σ s) (a : Nat) (len : Nat) :
    Keeps σ (State.demand s a len) := by
  unfold State.demand
  with_reducible (repeat' (first | exact h | assumption | exact keeps_refl _ | apply keepsOut_next | apply keeps_ite | apply keeps_ite_fst | apply keeps_ite_snd | split | intro _ | simp only [keeps_mk] | dsimp only))

theorem State.setPc_keeps {σ s : State} (h : Keeps σ s) (i : Nat) (v : Nat) :
    Keeps σ (State.setPc s i v) := by
  unfold State.setPc
  with_reducible (repeat' (first | exact h | assumption | apply State.setF_keeps | apply State.wrg_keeps | exact keeps_refl _ | apply keepsOut_next | apply keeps_ite | apply keeps_ite_fst | apply keeps_ite_snd | split | intro _ | simp only [keeps_mk] | dsimp only))

theorem State.notify_keeps {σ s : State} (h : Keeps σ s) (i : Nat) :
    Keeps σ (State.notify s i) := by
  unfold State.notify
  with_reducible (repeat' (first | exact h | assumption | apply State.emit_keeps | exact keeps_refl _ | apply keepsOut_next | apply keeps_ite | apply keeps_ite_fst | apply keeps_ite_snd | split | intro _ | simp only [keeps_mk] | dsimp only))

theorem State.pcIrq_keeps {σ s : State} (h : Keeps σ s) (i : Nat) :
    Keeps σ (State.pcIrq s i) := by
  unfold State.pcIrq
  with_reducible (repeat' (first | exact h | assumption | apply State.msix_keeps | apply State.setF_keeps | exact keeps_refl _ | apply keepsOut_next | apply keeps_ite | apply keeps_ite_fst | apply keeps_ite_snd | split | intro _ | simp only [keeps_mk] | dsimp only))

theorem State.traceShow_keeps {σ s : State} (h : Keeps σ s) (i : Nat) (l : List (Word × Word)) :
    Keeps σ (State.traceShow s i l) := by
  unfold State.traceShow
  with_reducible (repeat' (first | exact h | assumption | apply State.setF_keeps | apply State.wrg_keeps | exact keeps_refl _ | apply keepsOut_next | apply keeps_ite | apply keeps_ite_fst | apply keeps_ite_snd | split | intro _ | simp only [keeps_mk] | dsimp only))

theorem State.traceStart_keeps {σ s : State} (h : Keeps σ s) (i : Nat) (w : Word × Word) :
    Keeps σ (State.traceStart s i w) := by
  unfold State.traceStart
  with_reducible (repeat' (first | exact h | assumption | apply State.traceShow_keeps | exact keeps_refl _ | apply keepsOut_next | apply keeps_ite | apply keeps_ite_fst | apply keeps_ite_snd | split | intro _ | simp only [keeps_mk] | dsimp only))

theorem State.traceEnd_keeps {σ s : State} (h : Keeps σ s) (i : Nat) (w : Word × Word) :
    Keeps σ (State.traceEnd s i w) := by
  unfold State.traceEnd
  with_reducible (repeat' (first | exact h | assumption | apply State.traceShow_keeps | exact keeps_refl _ | apply keepsOut_next | apply keeps_ite | apply keeps_ite_fst | apply keeps_ite_snd | split | intro _ | simp only [keeps_mk] | dsimp only))

theorem State.wakeWaits_keeps {σ s : State} (h : Keeps σ s) (i : Nat) :
    Keeps σ (State.wakeWaits s i) := by
  unfold State.wakeWaits
  with_reducible (repeat' (first | exact h | assumption | apply State.each_keeps | apply State.traceEnd_keeps | exact keeps_refl _ | apply keepsOut_next | apply keeps_ite | apply keeps_ite_fst | apply keeps_ite_snd | split | intro _ | simp only [keeps_mk] | dsimp only))

theorem State.takeFetches_keeps {σ s : State} (h : Keeps σ s) (i : Nat) :
    Keeps σ (State.takeFetches s i) := by
  unfold State.takeFetches
  with_reducible (repeat' (first | exact h | assumption | apply State.each_keeps | apply State.wrg_keeps | exact keeps_refl _ | apply keepsOut_next | apply keeps_ite | apply keeps_ite_fst | apply keeps_ite_snd | split | intro _ | simp only [keeps_mk] | dsimp only))

theorem State.pcChanged_keeps {σ s : State} (h : Keeps σ s) (i : Nat) (v : Nat) (node : Nat) :
    Keeps σ (State.pcChanged s i v node) := by
  unfold State.pcChanged
  with_reducible (repeat' (first | exact h | assumption | apply State.emit_keeps | apply State.setPc_keeps | apply State.wrg_keeps | apply State.pcIrq_keeps | apply State.notify_keeps | apply State.takeFetches_keeps | apply State.wakeWaits_keeps | exact keeps_refl _ | apply keepsOut_next | apply keeps_ite | apply keeps_ite_fst | apply keeps_ite_snd | split | intro _ | simp only [keeps_mk] | dsimp only))

theorem State.advancePc_keeps {σ s : State} (h : Keeps σ s) (i : Nat) (inc : Nat) (node : Nat) :
    Keeps σ (State.advancePc s i inc node) := by
  unfold State.advancePc
  with_reducible (repeat' (first | exact h | assumption | apply State.pcChanged_keeps | exact keeps_refl _ | apply keepsOut_next | apply keeps_ite | apply keeps_ite_fst | apply keeps_ite_snd | split | intro _ | simp only [keeps_mk] | dsimp only))

theorem State.rejectWrite_keeps {σ s : State} (h : Keeps σ s) (off : Nat) :
    Keeps σ (State.rejectWrite s off) := by
  unfold State.rejectWrite
  with_reducible (repeat' (first | exact h | assumption | apply State.setF_keeps | apply State.inc_keeps | exact keeps_refl _ | apply keepsOut_next | apply keeps_ite | apply keeps_ite_fst | apply keeps_ite_snd | split | intro _ | simp only [keeps_mk] | dsimp only))

theorem State.hostWrite_keeps {σ s : State} (h : Keeps σ s) (off : Nat) (f : State → State) (hf : ∀ u0, Keeps u0 (f u0)) :
    Keeps σ (State.hostWrite s off f) := by
  unfold State.hostWrite
  with_reducible (repeat' (first | exact h | assumption | refine keeps_trans ?_ (hf _) | apply State.rejectWrite_keeps | exact keeps_refl _ | apply keepsOut_next | apply keeps_ite | apply keeps_ite_fst | apply keeps_ite_snd | split | intro _ | simp only [keeps_mk] | dsimp only))

theorem State.plain_keeps {σ s : State} (h : Keeps σ s) (off : Nat) (v : Word) :
    Keeps σ (State.plain s off v) := by
  unfold State.plain
  with_reducible (repeat' (first | exact h | assumption | apply State.wrg_keeps | exact keeps_refl _ | apply keepsOut_next | apply keeps_ite | apply keeps_ite_fst | apply keeps_ite_snd | split | intro _ | simp only [keeps_mk] | dsimp only))

end Sys2Proof.Machine
end

