-- ==== Sys2Proof/Laws/KeepsClusterOps.lean ====
section
/-! SUPPORT. The operations and commands of Machine/ClusterOps.lean leave the queue as it is, and keep memory and registers in their one form. -/

set_option linter.unusedTactic false
set_option linter.unreachableTactic false
set_option linter.unusedSimpArgs false

namespace Sys2Proof.Machine

theorem State.setCl_keeps {σ s : State} (h : Keeps σ s) (n : Nat) (c : ClusterSt) :
    Keeps σ (State.setCl s n c) := by
  unfold State.setCl
  with_reducible (repeat' (first | exact h | assumption | exact keeps_refl _ | apply keepsOut_next | apply keeps_ite | apply keeps_ite_fst | apply keeps_ite_snd | split | intro _ | simp only [keeps_mk] | dsimp only))

theorem State.upCl_keeps {σ s : State} (h : Keeps σ s) (n : Nat) (f : ClusterSt → ClusterSt) :
    Keeps σ (State.upCl s n f) := by
  unfold State.upCl
  with_reducible (repeat' (first | exact h | assumption | apply State.setCl_keeps | exact keeps_refl _ | apply keepsOut_next | apply keeps_ite | apply keeps_ite_fst | apply keeps_ite_snd | split | intro _ | simp only [keeps_mk] | dsimp only))

theorem State.stopLend_keeps {σ s : State} (h : Keeps σ s) (n : Nat) :
    Keeps σ (State.stopLend s n) := by
  unfold State.stopLend
  with_reducible (repeat' (first | exact h | assumption | apply State.incN_keeps | apply State.upCl_keeps | exact keeps_refl _ | apply keepsOut_next | apply keeps_ite | apply keeps_ite_fst | apply keeps_ite_snd | split | intro _ | simp only [keeps_mk] | dsimp only))

theorem State.ready_keeps {σ s : State} (h : Keeps σ s) (n : Nat) (k : Nat) :
    Keeps σ (State.ready s n k) := by
  unfold State.ready
  with_reducible (repeat' (first | exact h | assumption | apply State.stopLend_keeps | apply State.upCl_keeps | exact keeps_refl _ | apply keepsOut_next | apply keeps_ite | apply keeps_ite_fst | apply keeps_ite_snd | split | intro _ | simp only [keeps_mk] | dsimp only))

theorem State.activity_keeps {σ s : State} (h : Keeps σ s) (n : Nat) (delivery : Bool) :
    Keeps σ (State.activity s n delivery) := by
  unfold State.activity
  with_reducible (repeat' (first | exact h | assumption | exact keeps_refl _ | apply keepsOut_next | apply keeps_ite | apply keeps_ite_fst | apply keeps_ite_snd | split | intro _ | simp only [keeps_mk] | dsimp only))

theorem State.setCc_keeps {σ s : State} (h : Keeps σ s) (n : Nat) (i : Nat) (v : Nat) (src : Nat) :
    Keeps σ (State.setCc s n i v src) := by
  unfold State.setCc
  with_reducible (repeat' (first | exact h | assumption | apply State.wrg_keeps | exact keeps_refl _ | apply keepsOut_next | apply keeps_ite | apply keeps_ite_fst | apply keeps_ite_snd | split | intro _ | simp only [keeps_mk] | dsimp only))

theorem State.takeTile_keeps {σ s : State} (h : Keeps σ s) (n : Nat) (k : Nat) (ep : Nat) (pbit : Nat) :
    Keeps σ (State.takeTile s n k ep pbit) := by
  unfold State.takeTile
  with_reducible (repeat' (first | exact h | assumption | apply State.setCl_keeps | apply State.emit_keeps | exact keeps_refl _ | apply keepsOut_next | apply keeps_ite | apply keeps_ite_fst | apply keeps_ite_snd | split | intro _ | simp only [keeps_mk] | dsimp only))

theorem State.finishWait_keeps {σ s : State} (h : Keeps σ s) (n : Nat) (k : Nat) :
    Keeps σ (State.finishWait s n k) := by
  unfold State.finishWait
  with_reducible (repeat' (first | exact h | assumption | apply State.upCl_keeps | apply State.takeTile_keeps | exact keeps_refl _ | apply keepsOut_next | apply keeps_ite | apply keeps_ite_fst | apply keeps_ite_snd | split | intro _ | simp only [keeps_mk] | dsimp only))

theorem State.wake_keeps {σ s : State} (h : Keeps σ s) (n : Nat) :
    Keeps σ (State.wake s n) := by
  unfold State.wake
  with_reducible (repeat' (first | exact h | assumption | apply State.each_keeps | apply State.ready_keeps | apply State.finishWait_keeps | exact keeps_refl _ | apply keepsOut_next | apply keeps_ite | apply keeps_ite_fst | apply keeps_ite_snd | split | intro _ | simp only [keeps_mk] | dsimp only))

end Sys2Proof.Machine
end

