-- ==== Sys2Proof/Laws/KeepsRuns.lean ====
section
/-! SUPPORT. The operations and commands of Machine/Runs.lean leave the queue as it is, and keep memory and registers in their one form. -/

set_option linter.unusedTactic false
set_option linter.unreachableTactic false
set_option linter.unusedSimpArgs false

namespace Sys2Proof.Machine

theorem State.setDesc_keeps {σ s : State} (h : Keeps σ s) (id : Nat) (d : Desc) :
    Keeps σ (State.setDesc s id d) := by
  unfold State.setDesc
  with_reducible (repeat' (first | exact h | assumption | exact keeps_refl _ | apply keepsOut_next | apply keeps_ite | apply keeps_ite_fst | apply keeps_ite_snd | split | intro _ | simp only [keeps_mk] | dsimp only))

theorem State.setRing_keeps {σ s : State} (h : Keeps σ s) (r : Nat) (x : RingSt) :
    Keeps σ (State.setRing s r x) := by
  unfold State.setRing
  with_reducible (repeat' (first | exact h | assumption | exact keeps_refl _ | apply keepsOut_next | apply keeps_ite | apply keeps_ite_fst | apply keeps_ite_snd | split | intro _ | simp only [keeps_mk] | dsimp only))

theorem State.setSes_keeps {σ s : State} (h : Keeps σ s) (n : Nat) (x : Session) :
    Keeps σ (State.setSes s n x) := by
  unfold State.setSes
  with_reducible (repeat' (first | exact h | assumption | exact keeps_refl _ | apply keepsOut_next | apply keeps_ite | apply keeps_ite_fst | apply keeps_ite_snd | split | intro _ | simp only [keeps_mk] | dsimp only))

theorem State.setSeq_keeps {σ s : State} (h : Keeps σ s) (id : Nat) (q : Seq) :
    Keeps σ (State.setSeq s id q) := by
  unfold State.setSeq
  with_reducible (repeat' (first | exact h | assumption | exact keeps_refl _ | apply keepsOut_next | apply keeps_ite | apply keeps_ite_fst | apply keeps_ite_snd | split | intro _ | simp only [keeps_mk] | dsimp only))

theorem State.setSlot_keeps {σ s : State} (h : Keeps σ s) (n : Nat) (p : ProgSlot) :
    Keeps σ (State.setSlot s n p) := by
  unfold State.setSlot
  with_reducible (repeat' (first | exact h | assumption | exact keeps_refl _ | apply keepsOut_next | apply keeps_ite | apply keeps_ite_fst | apply keeps_ite_snd | split | intro _ | simp only [keeps_mk] | dsimp only))

theorem State.setStep_keeps {σ s : State} (h : Keeps σ s) (x : Option StepSt) :
    Keeps σ (State.setStep s x) := by
  unfold State.setStep
  with_reducible (repeat' (first | exact h | assumption | exact keeps_refl _ | apply keepsOut_next | apply keeps_ite | apply keeps_ite_fst | apply keeps_ite_snd | split | intro _ | simp only [keeps_mk] | dsimp only))

theorem State.putJournalHeader_keeps {σ s : State} (h : Keeps σ s) (x : StepSt) :
    Keeps σ (State.putJournalHeader s x) := by
  unfold State.putJournalHeader
  with_reducible (repeat' (first | exact h | assumption | apply State.wrWords_keeps | exact keeps_refl _ | apply keepsOut_next | apply keeps_ite | apply keeps_ite_fst | apply keeps_ite_snd | split | intro _ | simp only [keeps_mk] | dsimp only))

theorem State.journalLine_keeps {σ s : State} (h : Keeps σ s) (a : Nat) :
    Keeps σ (State.journalLine s a) := by
  unfold State.journalLine
  with_reducible (repeat' (first | exact h | assumption | apply State.wrBytes_keeps | apply State.setStep_keeps | apply State.putJournalHeader_keeps | exact keeps_refl _ | apply keepsOut_next | apply keeps_ite | apply keeps_ite_fst | apply keeps_ite_snd | split | intro _ | simp only [keeps_mk] | dsimp only))

theorem State.lostRecord_keeps {σ s : State} (h : Keeps σ s) (i : Nat) (a : Nat) :
    Keeps σ (State.lostRecord s i a) := by
  unfold State.lostRecord
  with_reducible (repeat' (first | exact h | assumption | apply State.setF_keeps | apply State.wrg_keeps | apply State.post_keeps | exact keeps_refl _ | apply keepsOut_next | apply keeps_ite | apply keeps_ite_fst | apply keeps_ite_snd | split | intro _ | simp only [keeps_mk] | dsimp only))

theorem State.undo_keeps {σ s : State} (h : Keeps σ s) (inst : Nat) (base : Nat) (k : Nat) :
    Keeps σ (State.undo s inst base k) := by
  unfold State.undo
  with_reducible (repeat' (first | exact h | assumption | apply State.wrBytes_keeps | apply State.lostRecord_keeps | apply State.cplMismatch_keeps | exact keeps_refl _ | apply keepsOut_next | apply keeps_ite | apply keeps_ite_fst | apply keeps_ite_snd | split | intro _ | simp only [keeps_mk] | dsimp only))

theorem State.undoAll_keeps {σ s : State} (h : Keeps σ s) (inst : Nat) (base : Nat) (z0 : Nat) :
    Keeps σ (State.undoAll s inst base z0) := by
  induction z0 generalizing inst base s with
  | zero =>
    unfold State.undoAll
    with_reducible (repeat' (first | exact h | assumption | apply ih | apply State.undo_keeps | exact keeps_refl _ | apply keepsOut_next | apply keeps_ite | apply keeps_ite_fst | apply keeps_ite_snd | split | intro _ | simp only [keeps_mk] | dsimp only))
  | succ f ih =>
    unfold State.undoAll
    with_reducible (repeat' (first | exact h | assumption | apply ih | apply State.undo_keeps | exact keeps_refl _ | apply keepsOut_next | apply keeps_ite | apply keeps_ite_fst | apply keeps_ite_snd | split | intro _ | simp only [keeps_mk] | dsimp only))

theorem State.rollback_keeps {σ s : State} (h : Keeps σ s) :
    Keeps σ (State.rollback s) := by
  unfold State.rollback
  with_reducible (repeat' (first | exact h | assumption | apply State.undoAll_keeps | apply State.setStep_keeps | apply State.putJournalHeader_keeps | exact keeps_refl _ | apply keepsOut_next | apply keeps_ite | apply keeps_ite_fst | apply keeps_ite_snd | split | intro _ | simp only [keeps_mk] | dsimp only))

theorem State.sesSend_keeps {σ s : State} (h : Keeps σ s) (n : Nat) (typ : Nat) (last : Bool) (seq : Nat) (reqId : Nat) (frag : Nat) (payload : List Byte) :
    Keeps σ (State.sesSend s n typ last seq reqId frag payload) := by
  unfold State.sesSend
  with_reducible (repeat' (first | exact h | assumption | apply State.emit_keeps | apply State.setSes_keeps | exact keeps_refl _ | apply keepsOut_next | apply keeps_ite | apply keeps_ite_fst | apply keeps_ite_snd | split | intro _ | simp only [keeps_mk] | dsimp only))

theorem State.sendFrags_keeps {σ s : State} (h : Keeps σ s) (n : Nat) (reqId : Nat) (total : Nat) (z0 : Nat) (z1 : List (List Byte)) :
    Keeps σ (State.sendFrags s n reqId total z0 z1) := by
  induction z1 generalizing n reqId total z0 s with
  | nil =>
    unfold State.sendFrags
    with_reducible (repeat' (first | exact h | assumption | apply ih | apply State.sesSend_keeps | apply State.setSes_keeps | exact keeps_refl _ | apply keepsOut_next | apply keeps_ite | apply keeps_ite_fst | apply keeps_ite_snd | split | intro _ | simp only [keeps_mk] | dsimp only))
  | cons x l ih =>
    unfold State.sendFrags
    with_reducible (repeat' (first | exact h | assumption | apply ih | apply State.sesSend_keeps | apply State.setSes_keeps | exact keeps_refl _ | apply keepsOut_next | apply keeps_ite | apply keeps_ite_fst | apply keeps_ite_snd | split | intro _ | simp only [keeps_mk] | dsimp only))

theorem State.reply_keeps {σ s : State} (h : Keeps σ s) (n : Nat) (reqId : Nat) (bytes : List Byte) :
    Keeps σ (State.reply s n reqId bytes) := by
  unfold State.reply
  with_reducible (repeat' (first | exact h | assumption | apply State.sendFrags_keeps | apply State.setSes_keeps | exact keeps_refl _ | apply keepsOut_next | apply keeps_ite | apply keeps_ite_fst | apply keeps_ite_snd | split | intro _ | simp only [keeps_mk] | dsimp only))

theorem State.groupSend_keeps {σ s : State} (h : Keeps σ s) (g : Nat) (d : Nat) (reqId : Nat) (total : Nat) (z0 : Nat) (z1 : List (List Byte)) :
    Keeps σ (State.groupSend s g d reqId total z0 z1) := by
  induction z1 generalizing g d reqId total z0 s with
  | nil =>
    unfold State.groupSend
    with_reducible (repeat' (first | exact h | assumption | apply ih | apply State.emit_keeps | exact keeps_refl _ | apply keepsOut_next | apply keeps_ite | apply keeps_ite_fst | apply keeps_ite_snd | split | intro _ | simp only [keeps_mk] | dsimp only))
  | cons x l ih =>
    unfold State.groupSend
    with_reducible (repeat' (first | exact h | assumption | apply ih | apply State.emit_keeps | exact keeps_refl _ | apply keepsOut_next | apply keeps_ite | apply keeps_ite_fst | apply keeps_ite_snd | split | intro _ | simp only [keeps_mk] | dsimp only))

theorem State.groupDest_keeps {σ s : State} (h : Keeps σ s) (g : Nat) (reqId : Nat) (fs : List (List Byte)) (d : GroupDest) :
    Keeps σ (State.groupDest s g reqId fs d).1 := by
  unfold State.groupDest
  with_reducible (repeat' (first | exact h | assumption | apply State.inc_keeps | apply State.groupSend_keeps | exact keeps_refl _ | apply keepsOut_next | apply keeps_ite | apply keeps_ite_fst | apply keeps_ite_snd | split | intro _ | simp only [keeps_mk] | dsimp only))

theorem State.groupDests_keeps {σ s : State} (h : Keeps σ s) (g : Nat) (reqId : Nat) (fs : List (List Byte)) (z0 : List GroupDest) :
    Keeps σ (State.groupDests s g reqId fs z0).1 := by
  induction z0 generalizing g reqId fs s with
  | nil =>
    unfold State.groupDests
    with_reducible (repeat' (first | exact h | assumption | apply ih | apply State.groupDest_keeps | exact keeps_refl _ | apply keepsOut_next | apply keeps_ite | apply keeps_ite_fst | apply keeps_ite_snd | split | intro _ | simp only [keeps_mk] | dsimp only))
  | cons x l ih =>
    unfold State.groupDests
    with_reducible (repeat' (first | exact h | assumption | apply ih | apply State.groupDest_keeps | exact keeps_refl _ | apply keepsOut_next | apply keeps_ite | apply keeps_ite_fst | apply keeps_ite_snd | split | intro _ | simp only [keeps_mk] | dsimp only))

theorem State.groupReport_keeps {σ s : State} (h : Keeps σ s) (r : GroupReply) :
    Keeps σ (State.groupReport s r) := by
  unfold State.groupReport
  with_reducible (repeat' (first | exact h | assumption | apply State.sesSend_keeps | apply State.setSes_keeps | apply State.cond_keeps | apply State.irq_keeps | exact keeps_refl _ | apply keepsOut_next | apply keeps_ite | apply keeps_ite_fst | apply keeps_ite_snd | split | intro _ | simp only [keeps_mk] | dsimp only))

theorem State.groupStep_keeps {σ s : State} (h : Keeps σ s) (r : GroupReply) :
    Keeps σ (State.groupStep s r) := by
  unfold State.groupStep
  with_reducible (repeat' (first | exact h | assumption | apply State.groupDests_keeps | apply State.groupReport_keeps | exact keeps_refl _ | apply keepsOut_next | apply keeps_ite | apply keeps_ite_fst | apply keeps_ite_snd | split | intro _ | simp only [keeps_mk] | dsimp only))

theorem State.account_keeps {σ s : State} (h : Keeps σ s) (i : Nat) (qwait : Nat) (preempt : Nat) :
    Keeps σ (State.account s i qwait preempt) := by
  unfold State.account
  with_reducible (repeat' (first | exact h | assumption | apply State.inc64_keeps | exact keeps_refl _ | apply keepsOut_next | apply keeps_ite | apply keeps_ite_fst | apply keeps_ite_snd | split | intro _ | simp only [keeps_mk] | dsimp only))

theorem State.endSeq_keeps {σ s : State} (h : Keeps σ s) (id : Nat) (status : Nat) (detail : Nat) :
    Keeps σ (State.endSeq s id status detail) := by
  unfold State.endSeq
  with_reducible (repeat' (first | exact h | assumption | apply State.account_keeps | apply State.setSeq_keeps | apply State.setDesc_keeps | apply State.setSes_keeps | apply State.cond_keeps | apply State.inc_keeps | apply State.reply_keeps | apply State.groupStep_keeps | exact keeps_refl _ | apply keepsOut_next | apply keeps_ite | apply keeps_ite_fst | apply keeps_ite_snd | split | intro _ | simp only [keeps_mk] | dsimp only))

theorem State.stopClusters_keeps {σ s : State} (h : Keeps σ s) :
    Keeps σ (State.stopClusters s) := by
  unfold State.stopClusters
  with_reducible (repeat' (first | exact h | assumption | exact keeps_refl _ | apply keepsOut_next | apply keeps_ite | apply keeps_ite_fst | apply keeps_ite_snd | split | intro _ | simp only [keeps_mk] | dsimp only))

theorem State.endEpisodes_keeps {σ s : State} (h : Keeps σ s) :
    Keeps σ (State.endEpisodes s) := by
  unfold State.endEpisodes
  with_reducible (repeat' (first | exact h | assumption | exact keeps_refl _ | apply keepsOut_next | apply keeps_ite | apply keeps_ite_fst | apply keeps_ite_snd | split | intro _ | simp only [keeps_mk] | dsimp only))

theorem State.programError_keeps {σ s : State} (h : Keeps σ s) (detail : Nat) :
    Keeps σ (State.programError s detail) := by
  unfold State.programError
  with_reducible (repeat' (first | exact h | assumption | apply State.rollback_keeps | apply State.endEpisodes_keeps | apply State.stopClusters_keeps | apply State.setStep_keeps | apply State.each_keeps | apply State.endSeq_keeps | exact keeps_refl _ | apply keepsOut_next | apply keeps_ite | apply keeps_ite_fst | apply keeps_ite_snd | split | intro _ | simp only [keeps_mk] | dsimp only))

theorem State.abandonSeq_keeps {σ s : State} (h : Keeps σ s) (id : Nat) (detail : Nat) :
    Keeps σ (State.abandonSeq s id detail) := by
  unfold State.abandonSeq
  with_reducible (repeat' (first | exact h | assumption | apply State.inc_keeps | apply State.endSeq_keeps | apply State.rollback_keeps | apply State.endEpisodes_keeps | apply State.stopClusters_keeps | apply State.setStep_keeps | apply State.each_keeps | apply State.setSeq_keeps | exact keeps_refl _ | apply keepsOut_next | apply keeps_ite | apply keeps_ite_fst | apply keeps_ite_snd | split | intro _ | simp only [keeps_mk] | dsimp only))

theorem State.dataLost_keeps {σ s : State} (h : Keeps σ s) (i : Nat) (a : Nat) :
    Keeps σ (State.dataLost s i a) := by
  unfold State.dataLost
  with_reducible (repeat' (first | exact h | assumption | apply State.lostRecord_keeps | apply State.each_keeps | apply State.abandonSeq_keeps | exact keeps_refl _ | apply keepsOut_next | apply keeps_ite | apply keeps_ite_fst | apply keeps_ite_snd | split | intro _ | simp only [keeps_mk] | dsimp only))

end Sys2Proof.Machine
end

