-- ==== Sys2Proof/Laws/KeepsSequencer.lean ====
section
/-! SUPPORT. The operations and commands of Machine/Sequencer.lean leave the queue as it is, and keep memory and registers in their one form. -/

set_option linter.unusedTactic false
set_option linter.unreachableTactic false
set_option linter.unusedSimpArgs false

namespace Sys2Proof.Machine

theorem State.clusterEvent_keeps {σ s : State} (h : Keeps σ s) (n : Nat) (cls : Nat) (unit : Nat) (action : Nat) (detail : Nat) :
    Keeps σ (State.clusterEvent s n cls unit action detail) := by
  unfold State.clusterEvent
  with_reducible (repeat' (first | exact h | assumption | apply State.post_keeps | apply State.instEvent_keeps | exact keeps_refl _ | apply keepsOut_next | apply keeps_ite | apply keeps_ite_fst | apply keeps_ite_snd | split | intro _ | simp only [keeps_mk] | dsimp only))

theorem State.extentFault_keeps {σ s : State} (h : Keeps σ s) (n : Nat) :
    Keeps σ (State.extentFault s n) := by
  unfold State.extentFault
  with_reducible (repeat' (first | exact h | assumption | apply State.inc_keeps | apply State.programError_keeps | apply State.cond_keeps | apply State.clusterEvent_keeps | exact keeps_refl _ | apply keepsOut_next | apply keeps_ite | apply keeps_ite_fst | apply keeps_ite_snd | split | intro _ | simp only [keeps_mk] | dsimp only))

theorem State.loopFault_keeps {σ s : State} (h : Keeps σ s) (n : Nat) (source : Nat) (lt : Nat) (op : Nat) (k : Nat) (slot : Nat) (addr : Int) (pos : Nat) :
    Keeps σ (State.loopFault s n source lt op k slot addr pos) := by
  unfold State.loopFault
  with_reducible (repeat' (first | exact h | assumption | apply State.cond_keeps | apply State.setF_keeps | apply State.wrg_keeps | apply State.extentFault_keeps | exact keeps_refl _ | apply keepsOut_next | apply keeps_ite | apply keeps_ite_fst | apply keeps_ite_snd | split | intro _ | simp only [keeps_mk] | dsimp only))

theorem State.flowError_keeps {σ s : State} (h : Keeps σ s) :
    Keeps σ (State.flowError s) := by
  unfold State.flowError
  with_reducible (repeat' (first | exact h | assumption | apply State.programError_keeps | exact keeps_refl _ | apply keepsOut_next | apply keeps_ite | apply keeps_ite_fst | apply keeps_ite_snd | split | intro _ | simp only [keeps_mk] | dsimp only))

theorem State.strFault_keeps {σ s : State} (h : Keeps σ s) (n : Nat) (kind : Nat) (k : Nat) (desc : Nat) (slot : Nat) (pkg : Nat) (addr : Option Nat) (block : Option Nat) :
    Keeps σ (State.strFault s n kind k desc slot pkg addr block) := by
  unfold State.strFault
  with_reducible (repeat' (first | exact h | assumption | apply State.cond_keeps | apply State.setF_keeps | apply State.free_keeps | apply State.wrg_keeps | exact keeps_refl _ | apply keepsOut_next | apply keeps_ite | apply keeps_ite_fst | apply keeps_ite_snd | split | intro _ | simp only [keeps_mk] | dsimp only))

theorem State.spCorrected_keeps {σ s : State} (h : Keeps σ s) (n : Nat) (addrs : List (BitVec 23)) :
    Keeps σ (State.spCorrected s n addrs) := by
  unfold State.spCorrected
  with_reducible (repeat' (first | exact h | assumption | apply State.each_keeps | apply State.inc_keeps | apply State.upCl_keeps | apply State.report_keeps | exact keeps_refl _ | apply keepsOut_next | apply keeps_ite | apply keeps_ite_fst | apply keeps_ite_snd | split | intro _ | simp only [keeps_mk] | dsimp only))

theorem State.spEcc_keeps {σ s : State} (h : Keeps σ s) (n : Nat) (e : SpEcc) :
    Keeps σ (State.spEcc s n e).1 := by
  unfold State.spEcc
  with_reducible (repeat' (first | exact h | assumption | apply State.spCorrected_keeps | apply State.cond_keeps | apply State.setF_keeps | apply State.report_keeps | apply State.upCl_keeps | exact keeps_refl _ | apply keepsOut_next | apply keeps_ite | apply keeps_ite_fst | apply keeps_ite_snd | split | intro _ | simp only [keeps_mk] | dsimp only))

theorem State.conflict_keeps {σ s : State} (h : Keeps σ s) (n : Nat) (k : Nat) (slot : Nat) (x : Option Conflict) :
    Keeps σ (State.conflict s n k slot x).1 := by
  unfold State.conflict
  with_reducible (repeat' (first | exact h | assumption | apply State.cond_keeps | apply State.setF_keeps | apply State.wrg_keeps | apply State.clusterEvent_keeps | apply State.upCl_keeps | apply State.incN_keeps | apply State.programError_keeps | exact keeps_refl _ | apply keepsOut_next | apply keeps_ite | apply keeps_ite_fst | apply keeps_ite_snd | split | intro _ | simp only [keeps_mk] | dsimp only))

theorem State.issue_keeps {σ s : State} (h : Keeps σ s) (n : Nat) (x : SlotCtl) (f : Nat → Bool → State → State) (hf : ∀ u0 u1 u2, Keeps u2 (f u0 u1 u2)) :
    KeepsOut σ (State.issue s n x f) := by
  unfold State.issue
  with_reducible (repeat' (first | exact h | assumption | refine keeps_trans ?_ (hf _ _ _) | apply State.upCl_keeps | exact keeps_refl _ | apply keepsOut_next | apply keeps_ite | apply keeps_ite_fst | apply keeps_ite_snd | split | intro _ | simp only [keeps_mk] | dsimp only))

theorem State.pass_keeps {σ s : State} (h : Keeps σ s) (n : Nat) (k : Nat) :
    Keeps σ (State.pass s n k) := by
  unfold State.pass
  with_reducible (repeat' (first | exact h | assumption | apply State.upCl_keeps | exact keeps_refl _ | apply keepsOut_next | apply keeps_ite | apply keeps_ite_fst | apply keeps_ite_snd | split | intro _ | simp only [keeps_mk] | dsimp only))

theorem State.waitAt_keeps {σ s : State} (h : Keeps σ s) (n : Nat) (k : Nat) (w : Wait) (x : SlotCtl) :
    Keeps σ (State.waitAt s n k w x) := by
  unfold State.waitAt
  with_reducible (repeat' (first | exact h | assumption | apply State.upCl_keeps | exact keeps_refl _ | apply keepsOut_next | apply keeps_ite | apply keeps_ite_fst | apply keeps_ite_snd | split | intro _ | simp only [keeps_mk] | dsimp only))

theorem State.readSlot_keeps {σ s : State} (h : Keeps σ s) (n : Nat) (k : Nat) (x : SlotCtl) (rs : List (Nat × Nat)) (f : State → State) (hf : ∀ u0, Keeps u0 (f u0)) :
    Keeps σ (State.readSlot s n k x rs f) := by
  unfold State.readSlot
  with_reducible (repeat' (first | exact h | assumption | refine keeps_trans ?_ (hf _) | apply State.waitAt_keeps | exact keeps_refl _ | apply keepsOut_next | apply keeps_ite | apply keeps_ite_fst | apply keeps_ite_snd | split | intro _ | simp only [keeps_mk] | dsimp only))

theorem execNop_keeps {σ s : State} (h : Keeps σ s) (n : Fin 576) (x : SlotCtl) :
    KeepsOut σ (execNop n x s) := by
  unfold execNop
  with_reducible (repeat' (first | exact h | assumption | apply State.issue_keeps | apply State.pass_keeps | exact keeps_refl _ | apply keepsOut_next | apply keeps_ite | apply keeps_ite_fst | apply keeps_ite_snd | split | intro _ | simp only [keeps_mk] | dsimp only))

theorem execLoop_keeps {σ s : State} (h : Keeps σ s) (n : Fin 576) (x : SlotCtl) (l : Fin 6) (target : BitVec 12) :
    KeepsOut σ (execLoop n x l target s) := by
  unfold execLoop
  with_reducible (repeat' (first | exact h | assumption | apply State.issue_keeps | apply State.pass_keeps | apply State.upCl_keeps | exact keeps_refl _ | apply keepsOut_next | apply keeps_ite | apply keeps_ite_fst | apply keeps_ite_snd | split | intro _ | simp only [keeps_mk] | dsimp only))

theorem execPred_keeps {σ s : State} (h : Keeps σ s) (n : Fin 576) (x : SlotCtl) (pbit : Fin 8) (src : PredSrc) (ecc : SpEcc) :
    KeepsOut σ (execPred n x pbit src ecc s) := by
  unfold execPred
  with_reducible (repeat' (first | exact h | assumption | apply State.issue_keeps | apply State.pass_keeps | apply State.upCl_keeps | apply State.readSlot_keeps | apply State.spEcc_keeps | exact keeps_refl _ | apply keepsOut_next | apply keeps_ite | apply keeps_ite_fst | apply keeps_ite_snd | split | intro _ | simp only [keeps_mk] | dsimp only))

theorem State.bind1_keeps {σ s : State} (h : Keeps σ s) (n : Nat) (k : Nat) (i : Nat) (ids : List Nat) (slot : Nat) (keep : Bool) :
    Keeps σ (State.bind1 s n k i ids slot keep) := by
  unfold State.bind1
  with_reducible (repeat' (first | exact h | assumption | apply State.upCl_keeps | exact keeps_refl _ | apply keepsOut_next | apply keeps_ite | apply keeps_ite_fst | apply keeps_ite_snd | split | intro _ | simp only [keeps_mk] | dsimp only))

theorem State.bindCtx_keeps {σ s : State} (h : Keeps σ s) (n : Nat) (k : Nat) (ids : List Nat) (slot : Nat) (keep : Bool) :
    Keeps σ (State.bindCtx s n k ids slot keep) := by
  unfold State.bindCtx
  with_reducible (repeat' (first | exact h | assumption | apply State.upCl_keeps | apply State.incN_keeps | apply State.flowError_keeps | apply State.cond_keeps | apply State.setF_keeps | apply State.strFault_keeps | apply State.bind1_keeps | exact keeps_refl _ | apply keepsOut_next | apply keeps_ite | apply keeps_ite_fst | apply keeps_ite_snd | split | intro _ | simp only [keeps_mk] | dsimp only))

end Sys2Proof.Machine
end

