-- ==== Sys2Proof/Laws/KeepsContexts.lean ====
section
/-! SUPPORT. The operations and commands of Machine/Contexts.lean leave the queue as it is, and keep memory and registers in their one form. -/

set_option linter.unusedTactic false
set_option linter.unreachableTactic false
set_option linter.unusedSimpArgs false

namespace Sys2Proof.Machine

theorem State.tryBoundary_keeps {σ s : State} (h : Keeps σ s) :
    Keeps σ (State.tryBoundary s) := by
  unfold State.tryBoundary
  with_reducible (repeat' (first | exact h | assumption | apply State.setStep_keeps | exact keeps_refl _ | apply keepsOut_next | apply keeps_ite | apply keeps_ite_fst | apply keeps_ite_snd | split | intro _ | simp only [keeps_mk] | dsimp only))

theorem State.clusterEnds_keeps {σ s : State} (h : Keeps σ s) (n : Nat) :
    Keeps σ (State.clusterEnds s n) := by
  unfold State.clusterEnds
  with_reducible (repeat' (first | exact h | assumption | apply State.upCl_keeps | apply State.setStep_keeps | apply State.tryBoundary_keeps | exact keeps_refl _ | apply keepsOut_next | apply keeps_ite | apply keeps_ite_fst | apply keeps_ite_snd | split | intro _ | simp only [keeps_mk] | dsimp only))

theorem State.setBar_keeps {σ s : State} (h : Keeps σ s) (k : Nat) (b : BarrierSt) :
    Keeps σ (State.setBar s k b) := by
  unfold State.setBar
  with_reducible (repeat' (first | exact h | assumption | exact keeps_refl _ | apply keepsOut_next | apply keeps_ite | apply keeps_ite_fst | apply keeps_ite_snd | split | intro _ | simp only [keeps_mk] | dsimp only))

theorem State.barrierArrive_keeps {σ s : State} (h : Keeps σ s) (n : Nat) :
    Keeps σ (State.barrierArrive s n) := by
  unfold State.barrierArrive
  with_reducible (repeat' (first | exact h | assumption | apply State.each_keeps | apply State.setBar_keeps | apply State.setF_keeps | exact keeps_refl _ | apply keepsOut_next | apply keeps_ite | apply keeps_ite_fst | apply keeps_ite_snd | split | intro _ | simp only [keeps_mk] | dsimp only))

theorem execBarrier_keeps {σ s : State} (h : Keeps σ s) (n : Fin 576) (x : SlotCtl) (bid : Fin 15) :
    KeepsOut σ (execBarrier n x bid s) := by
  unfold execBarrier
  with_reducible (repeat' (first | exact h | assumption | apply State.issue_keeps | apply State.barrierArrive_keeps | apply State.waitAt_keeps | exact keeps_refl _ | apply keepsOut_next | apply keeps_ite | apply keeps_ite_fst | apply keeps_ite_snd | split | intro _ | simp only [keeps_mk] | dsimp only))

theorem execBarrierRelease_keeps {σ s : State} (h : Keeps σ s) (sect : BitVec 16) (bid : Fin 15) :
    KeepsOut σ (execBarrierRelease sect bid s) := by
  unfold execBarrierRelease
  with_reducible (repeat' (first | exact h | assumption | apply State.setBar_keeps | exact keeps_refl _ | apply keepsOut_next | apply keeps_ite | apply keeps_ite_fst | apply keeps_ite_snd | split | intro _ | simp only [keeps_mk] | dsimp only))

theorem execBarrierReleaseArrive_keeps {σ s : State} (h : Keeps σ s) (n : Fin 576) (bid : Fin 15) (attempt : BitVec 8) (i : Fin 64) (gen : BitVec 8) :
    KeepsOut σ (execBarrierReleaseArrive n bid attempt i gen s) := by
  unfold execBarrierReleaseArrive
  with_reducible (repeat' (first | exact h | assumption | apply State.setBar_keeps | apply State.setF_keeps | apply State.each_keeps | apply State.ready_keeps | apply State.upCl_keeps | exact keeps_refl _ | apply keepsOut_next | apply keeps_ite | apply keeps_ite_fst | apply keeps_ite_snd | split | intro _ | simp only [keeps_mk] | dsimp only))

theorem execYield_keeps {σ s : State} (h : Keeps σ s) (n : Fin 576) (x : SlotCtl) :
    KeepsOut σ (execYield n x s) := by
  unfold execYield
  with_reducible (repeat' (first | exact h | assumption | apply State.issue_keeps | apply State.upCl_keeps | exact keeps_refl _ | apply keepsOut_next | apply keeps_ite | apply keeps_ite_fst | apply keeps_ite_snd | split | intro _ | simp only [keeps_mk] | dsimp only))

theorem execEndSlot_keeps {σ s : State} (h : Keeps σ s) (n : Fin 576) (x : SlotCtl) :
    KeepsOut σ (execEndSlot n x s) := by
  unfold execEndSlot
  with_reducible (repeat' (first | exact h | assumption | apply State.issue_keeps | apply State.upCl_keeps | apply State.clusterEnds_keeps | apply State.barrierArrive_keeps | exact keeps_refl _ | apply keepsOut_next | apply keeps_ite | apply keeps_ite_fst | apply keeps_ite_snd | split | intro _ | simp only [keeps_mk] | dsimp only))

theorem execContextSwitch_keeps {σ s : State} (h : Keeps σ s) (n : Fin 576) :
    KeepsOut σ (execContextSwitch n s) := by
  unfold execContextSwitch
  with_reducible (repeat' (first | exact h | assumption | apply State.upCl_keeps | apply State.inc64_keeps | exact keeps_refl _ | apply keepsOut_next | apply keeps_ite | apply keeps_ite_fst | apply keeps_ite_snd | split | intro _ | simp only [keeps_mk] | dsimp only))

theorem State.bindPlanes_keeps {σ s : State} (h : Keeps σ s) (n : Nat) (planes : List Nat) (x : StepSt) (keep : Bool) :
    Keeps σ (State.bindPlanes s n planes x keep) := by
  unfold State.bindPlanes
  with_reducible (repeat' (first | exact h | assumption | apply State.each_keeps | apply State.bindCtx_keeps | apply State.upCl_keeps | exact keeps_refl _ | apply keepsOut_next | apply keeps_ite | apply keeps_ite_fst | apply keeps_ite_snd | split | intro _ | simp only [keeps_mk] | dsimp only))

theorem State.startActive_keeps {σ s : State} (h : Keeps σ s) (n : Nat) (act : List Nat) (x : StepSt) :
    Keeps σ (State.startActive s n act x) := by
  unfold State.startActive
  with_reducible (repeat' (first | exact h | assumption | apply State.stopLend_keeps | apply State.upCl_keeps | apply State.bindPlanes_keeps | exact keeps_refl _ | apply keepsOut_next | apply keeps_ite | apply keeps_ite_fst | apply keeps_ite_snd | split | intro _ | simp only [keeps_mk] | dsimp only))

theorem execPlaneSwitch_keeps {σ s : State} (h : Keeps σ s) (n : Fin 576) :
    KeepsOut σ (execPlaneSwitch n s) := by
  unfold execPlaneSwitch
  with_reducible (repeat' (first | exact h | assumption | apply State.upCl_keeps | apply State.cond_keeps | apply State.wrg_keeps | apply State.inc64_keeps | apply State.startActive_keeps | apply State.bindPlanes_keeps | exact keeps_refl _ | apply keepsOut_next | apply keeps_ite | apply keeps_ite_fst | apply keeps_ite_snd | split | intro _ | simp only [keeps_mk] | dsimp only))

theorem State.bankSwitch_keeps {σ s : State} (h : Keeps σ s) (n : Nat) :
    Keeps σ (State.bankSwitch s n) := by
  unfold State.bankSwitch
  with_reducible (repeat' (first | exact h | assumption | apply State.upCl_keeps | apply State.setF_keeps | exact keeps_refl _ | apply keepsOut_next | apply keeps_ite | apply keeps_ite_fst | apply keeps_ite_snd | split | intro _ | simp only [keeps_mk] | dsimp only))

theorem State.restartCounters_keeps {σ s : State} (h : Keeps σ s) (n : Nat) (slot : Nat) :
    Keeps σ (State.restartCounters s n slot) := by
  unfold State.restartCounters
  with_reducible (repeat' (first | exact h | assumption | apply State.each_keeps | apply State.setCc_keeps | exact keeps_refl _ | apply keepsOut_next | apply keeps_ite | apply keeps_ite_fst | apply keeps_ite_snd | split | intro _ | simp only [keeps_mk] | dsimp only))

theorem execStepReleaseArrive_keeps {σ s : State} (h : Keeps σ s) (n : Fin 576) :
    KeepsOut σ (execStepReleaseArrive n s) := by
  unfold execStepReleaseArrive
  with_reducible (repeat' (first | exact h | assumption | apply State.restartCounters_keeps | apply State.setStep_keeps | apply State.each_keeps | apply State.setCc_keeps | apply State.bankSwitch_keeps | apply State.upCl_keeps | apply State.startActive_keeps | apply State.bindPlanes_keeps | apply State.stopLend_keeps | exact keeps_refl _ | apply keepsOut_next | apply keeps_ite | apply keeps_ite_fst | apply keeps_ite_snd | split | intro _ | simp only [keeps_mk] | dsimp only))

theorem State.seqDebugWrite_keeps {σ s : State} (h : Keeps σ s) (n : Nat) (halt : Bool) (step : Bool) :
    Keeps σ (State.seqDebugWrite s n halt step) := by
  unfold State.seqDebugWrite
  with_reducible (repeat' (first | exact h | assumption | apply State.upCl_keeps | apply State.setF_keeps | exact keeps_refl _ | apply keepsOut_next | apply keeps_ite | apply keeps_ite_fst | apply keeps_ite_snd | split | intro _ | simp only [keeps_mk] | dsimp only))

theorem execSeqHalt_keeps {σ s : State} (h : Keeps σ s) (n : Fin 576) (halt : Bool) :
    KeepsOut σ (execSeqHalt n halt s) := by
  unfold execSeqHalt
  with_reducible (repeat' (first | exact h | assumption | apply State.hostWrite_keeps | apply State.seqDebugWrite_keeps | exact keeps_refl _ | apply keepsOut_next | apply keeps_ite | apply keeps_ite_fst | apply keeps_ite_snd | split | intro _ | simp only [keeps_mk] | dsimp only))

theorem execSeqStep_keeps {σ s : State} (h : Keeps σ s) (n : Fin 576) :
    KeepsOut σ (execSeqStep n s) := by
  unfold execSeqStep
  with_reducible (repeat' (first | exact h | assumption | apply State.hostWrite_keeps | apply State.seqDebugWrite_keeps | exact keeps_refl _ | apply keepsOut_next | apply keeps_ite | apply keeps_ite_fst | apply keeps_ite_snd | split | intro _ | simp only [keeps_mk] | dsimp only))

end Sys2Proof.Machine
end

