-- ==== Sys2Proof/Laws/KeepsMatrix.lean ====
section
/-! SUPPORT. The operations and commands of Machine/Matrix.lean leave the queue as it is, and keep memory and registers in their one form. -/

set_option linter.unusedTactic false
set_option linter.unreachableTactic false
set_option linter.unusedSimpArgs false

namespace Sys2Proof.Machine

theorem State.matSlot_keeps {σ s : State} (h : Keeps σ s) (n : Nat) (x : SlotCtl) (loader : Bool) (mk : Nat → Bool → ClusterSt → MatOp) :
    KeepsOut σ (State.matSlot s n x loader mk) := by
  unfold State.matSlot
  with_reducible (repeat' (first | exact h | assumption | apply State.issue_keeps | apply State.readSlot_keeps | apply State.upCl_keeps | exact keeps_refl _ | apply keepsOut_next | apply keeps_ite | apply keeps_ite_fst | apply keeps_ite_snd | split | intro _ | simp only [keeps_mk] | dsimp only))

theorem execLoadw_keeps {σ s : State} (h : Keeps σ s) (n : Fin 576) (x : SlotCtl) (lt : Fin 16) (fmtW : BitVec 4) (swap : Bool) :
    KeepsOut σ (execLoadw n x lt fmtW swap s) := by
  unfold execLoadw
  with_reducible (repeat' (first | exact h | assumption | apply State.matSlot_keeps | exact keeps_refl _ | apply keepsOut_next | apply keeps_ite | apply keeps_ite_fst | apply keeps_ite_snd | split | intro _ | simp only [keeps_mk] | dsimp only))

theorem execMma_keeps {σ s : State} (h : Keeps σ s) (n : Fin 576) (x : SlotCtl) (a : MatArg) :
    KeepsOut σ (execMma n x a s) := by
  unfold execMma
  with_reducible (repeat' (first | exact h | assumption | apply State.matSlot_keeps | exact keeps_refl _ | apply keepsOut_next | apply keeps_ite | apply keeps_ite_fst | apply keeps_ite_snd | split | intro _ | simp only [keeps_mk] | dsimp only))

theorem execMax_keeps {σ s : State} (h : Keeps σ s) (n : Fin 576) (x : SlotCtl) (a : MatArg) :
    KeepsOut σ (execMax n x a s) := by
  unfold execMax
  with_reducible (repeat' (first | exact h | assumption | apply State.matSlot_keeps | exact keeps_refl _ | apply keepsOut_next | apply keeps_ite | apply keeps_ite_fst | apply keeps_ite_snd | split | intro _ | simp only [keeps_mk] | dsimp only))

theorem execMin_keeps {σ s : State} (h : Keeps σ s) (n : Fin 576) (x : SlotCtl) (a : MatArg) :
    KeepsOut σ (execMin n x a s) := by
  unfold execMin
  with_reducible (repeat' (first | exact h | assumption | apply State.matSlot_keeps | exact keeps_refl _ | apply keepsOut_next | apply keeps_ite | apply keeps_ite_fst | apply keeps_ite_snd | split | intro _ | simp only [keeps_mk] | dsimp only))

theorem State.startLoad_keeps {σ s : State} (h : Keeps σ s) (n : Nat) (o : MatOp) :
    Keeps σ (State.startLoad s n o) := by
  unfold State.startLoad
  with_reducible (repeat' (first | exact h | assumption | apply State.upCl_keeps | apply State.inc64_keeps | apply State.loopFault_keeps | exact keeps_refl _ | apply keepsOut_next | apply keeps_ite | apply keeps_ite_fst | apply keeps_ite_snd | split | intro _ | simp only [keeps_mk] | dsimp only))

theorem execTileComplete_keeps {σ s : State} (h : Keeps σ s) (n : Fin 576) :
    KeepsOut σ (execTileComplete n s) := by
  unfold execTileComplete
  with_reducible (repeat' (first | exact h | assumption | apply State.upCl_keeps | exact keeps_refl _ | apply keepsOut_next | apply keeps_ite | apply keeps_ite_fst | apply keeps_ite_snd | split | intro _ | simp only [keeps_mk] | dsimp only))

theorem State.arithFlags_keeps {σ s : State} (h : Keeps σ s) (n : Nat) (ctx : Nat) (f : Nat) :
    Keeps σ (State.arithFlags s n ctx f) := by
  unfold State.arithFlags
  with_reducible (repeat' (first | exact h | assumption | apply State.incN_keeps | apply State.wrg_keeps | exact keeps_refl _ | apply keepsOut_next | apply keeps_ite | apply keeps_ite_fst | apply keeps_ite_snd | split | intro _ | simp only [keeps_mk] | dsimp only))

theorem State.arrayRows_keeps {σ s : State} (h : Keeps σ s) (n : Nat) (o : MatOp) (bank : Nat) (other : Nat) (k0 : Nat) (z0 : Nat) (z1 : Nat) (z2 : List RowCheck) :
    Keeps σ (State.arrayRows s n o bank other k0 z0 z1 z2).1 := by
  induction z0 generalizing n o bank other k0 z1 z2 s with
  | zero =>
    unfold State.arrayRows
    with_reducible (repeat' (first | exact h | assumption | apply ih | apply State.inc64_keeps | apply State.arithFlags_keeps | apply State.upCl_keeps | exact keeps_refl _ | apply keepsOut_next | apply keeps_ite | apply keeps_ite_fst | apply keeps_ite_snd | split | intro _ | simp only [keeps_mk] | dsimp only))
  | succ f ih =>
    unfold State.arrayRows
    with_reducible (repeat' (first | exact h | assumption | apply ih | apply State.inc64_keeps | apply State.arithFlags_keeps | apply State.upCl_keeps | exact keeps_refl _ | apply keepsOut_next | apply keeps_ite | apply keeps_ite_fst | apply keeps_ite_snd | split | intro _ | simp only [keeps_mk] | dsimp only))

theorem State.mxuRecord_keeps {σ s : State} (h : Keeps σ s) (n : Nat) (o : MatOp) (inj : Bool) (kind : Nat) (row : Nat) (loc : Option Nat) (resid : Word) :
    Keeps σ (State.mxuRecord s n o inj kind row loc resid) := by
  unfold State.mxuRecord
  with_reducible (repeat' (first | exact h | assumption | apply State.inc_keeps | apply State.wrg_keeps | exact keeps_refl _ | apply keepsOut_next | apply keeps_ite | apply keeps_ite_fst | apply keeps_ite_snd | split | intro _ | simp only [keeps_mk] | dsimp only))

theorem State.mxuFail_keeps {σ s : State} (h : Keeps σ s) (n : Nat) (o : MatOp) (kind : Nat) (row : Nat) (loc : Option Nat) (resid : Word) :
    Keeps σ (State.mxuFail s n o kind row loc resid) := by
  unfold State.mxuFail
  with_reducible (repeat' (first | exact h | assumption | apply State.upCl_keeps | apply State.report_keeps | apply State.mxuRecord_keeps | exact keeps_refl _ | apply keepsOut_next | apply keeps_ite | apply keeps_ite_fst | apply keeps_ite_snd | split | intro _ | simp only [keeps_mk] | dsimp only))

theorem State.checkRows_keeps {σ s : State} (h : Keeps σ s) (n : Nat) (o : MatOp) (fault : MatFault) (z0 : Nat) (z1 : List RowCheck) :
    Keeps σ (State.checkRows s n o fault z0 z1) := by
  induction z1 generalizing n o fault z0 s with
  | nil =>
    unfold State.checkRows
    with_reducible (repeat' (first | exact h | assumption | apply ih | apply State.inc64_keeps | apply State.inc_keeps | apply State.setF_keeps | apply State.mxuFail_keeps | apply State.free_keeps | apply State.mxuRecord_keeps | exact keeps_refl _ | apply keepsOut_next | apply keeps_ite | apply keeps_ite_fst | apply keeps_ite_snd | split | intro _ | simp only [keeps_mk] | dsimp only))
  | cons x l ih =>
    unfold State.checkRows
    with_reducible (repeat' (first | exact h | assumption | apply ih | apply State.inc64_keeps | apply State.inc_keeps | apply State.setF_keeps | apply State.mxuFail_keeps | apply State.free_keeps | apply State.mxuRecord_keeps | exact keeps_refl _ | apply keepsOut_next | apply keeps_ite | apply keeps_ite_fst | apply keeps_ite_snd | split | intro _ | simp only [keeps_mk] | dsimp only))

theorem State.runArray_keeps {σ s : State} (h : Keeps σ s) (n : Nat) (o : MatOp) (fault : MatFault) :
    Keeps σ (State.runArray s n o fault) := by
  unfold State.runArray
  with_reducible (repeat' (first | exact h | assumption | apply State.flowError_keeps | apply State.setCl_keeps | apply State.arrayRows_keeps | apply State.inc64_keeps | apply State.checkRows_keeps | apply State.incN_keeps | apply State.mxuFail_keeps | apply State.upCl_keeps | apply State.loopFault_keeps | exact keeps_refl _ | apply keepsOut_next | apply keeps_ite | apply keeps_ite_fst | apply keeps_ite_snd | split | intro _ | simp only [keeps_mk] | dsimp only))

theorem execMatrixOpStart_keeps {σ s : State} (h : Keeps σ s) (n : Fin 576) (loader : Bool) (fault : MatFault) (ecc : SpEcc) (conf : Option Conflict) :
    KeepsOut σ (execMatrixOpStart n loader fault ecc conf s) := by
  unfold execMatrixOpStart
  with_reducible (repeat' (first | exact h | assumption | apply State.spEcc_keeps | apply State.upCl_keeps | apply State.conflict_keeps | apply State.startLoad_keeps | apply State.runArray_keeps | exact keeps_refl _ | apply keepsOut_next | apply keeps_ite | apply keeps_ite_fst | apply keeps_ite_snd | split | intro _ | simp only [keeps_mk] | dsimp only))

theorem execArrayBankRelease_keeps {σ s : State} (h : Keeps σ s) (n : Fin 576) :
    KeepsOut σ (execArrayBankRelease n s) := by
  unfold execArrayBankRelease
  with_reducible (repeat' (first | exact h | assumption | apply State.upCl_keeps | exact keeps_refl _ | apply keepsOut_next | apply keeps_ite | apply keeps_ite_fst | apply keeps_ite_snd | split | intro _ | simp only [keeps_mk] | dsimp only))

theorem State.epiRow_keeps {σ s : State} (h : Keeps σ s) (n : Nat) (o : MatOp) (pre : Preamble) (b : Nat) (j : Nat) (rs : List (Option Nat)) :
    Keeps σ (State.epiRow s n o pre b j rs).1 := by
  unfold State.epiRow
  with_reducible (repeat' (first | exact h | assumption | apply State.arithFlags_keeps | apply State.setCl_keeps | exact keeps_refl _ | apply keepsOut_next | apply keeps_ite | apply keeps_ite_fst | apply keeps_ite_snd | split | intro _ | simp only [keeps_mk] | dsimp only))

theorem State.epiRows_keeps {σ s : State} (h : Keeps σ s) (n : Nat) (o : MatOp) (pre : Preamble) (b : Nat) (z0 : Nat) (z1 : Nat) (z2 : Word) :
    Keeps σ (State.epiRows s n o pre b z0 z1 z2).1 := by
  induction z0 generalizing n o pre b z1 z2 s with
  | zero =>
    unfold State.epiRows
    with_reducible (repeat' (first | exact h | assumption | apply ih | apply State.epiRow_keeps | exact keeps_refl _ | apply keepsOut_next | apply keeps_ite | apply keeps_ite_fst | apply keeps_ite_snd | split | intro _ | simp only [keeps_mk] | dsimp only))
  | succ f ih =>
    unfold State.epiRows
    with_reducible (repeat' (first | exact h | assumption | apply ih | apply State.epiRow_keeps | exact keeps_refl _ | apply keepsOut_next | apply keeps_ite | apply keeps_ite_fst | apply keeps_ite_snd | split | intro _ | simp only [keeps_mk] | dsimp only))

theorem execEpilogueStart_keeps {σ s : State} (h : Keeps σ s) (n : Fin 576) (ecc : SpEcc) (conf : Option Conflict) (acc : MatFault) :
    KeepsOut σ (execEpilogueStart n ecc conf acc s) := by
  unfold execEpilogueStart
  with_reducible (repeat' (first | exact h | assumption | apply State.mxuFail_keeps | apply State.incN_keeps | apply State.spEcc_keeps | apply State.upCl_keeps | apply State.conflict_keeps | apply State.epiRows_keeps | apply State.loopFault_keeps | exact keeps_refl _ | apply keepsOut_next | apply keeps_ite | apply keeps_ite_fst | apply keeps_ite_snd | split | intro _ | simp only [keeps_mk] | dsimp only))

theorem execEpilogueDone_keeps {σ s : State} (h : Keeps σ s) (n : Fin 576) :
    KeepsOut σ (execEpilogueDone n s) := by
  unfold execEpilogueDone
  with_reducible (repeat' (first | exact h | assumption | apply State.upCl_keeps | exact keeps_refl _ | apply keepsOut_next | apply keeps_ite | apply keeps_ite_fst | apply keeps_ite_snd | split | intro _ | simp only [keeps_mk] | dsimp only))

theorem execMxuInject_keeps {σ s : State} (h : Keeps σ s) (n : Fin 576) (v : Word) :
    KeepsOut σ (execMxuInject n v s) := by
  unfold execMxuInject
  with_reducible (repeat' (first | exact h | assumption | apply State.hostWrite_keeps | apply State.plain_keeps | exact keeps_refl _ | apply keepsOut_next | apply keeps_ite | apply keeps_ite_fst | apply keeps_ite_snd | split | intro _ | simp only [keeps_mk] | dsimp only))

end Sys2Proof.Machine
end

