-- ==== Sys2Proof/Laws/KeepsVector.lean ====
section
/-! SUPPORT. The operations and commands of Machine/Vector.lean leave the queue as it is, and keep memory and registers in their one form. -/

set_option linter.unusedTactic false
set_option linter.unreachableTactic false
set_option linter.unusedSimpArgs false

namespace Sys2Proof.Machine

theorem State.vecSlot_keeps {σ s : State} (h : Keeps σ s) (n : Nat) (x : SlotCtl) (v : VecArg) (vop : Nat) :
    KeepsOut σ (State.vecSlot s n x v vop) := by
  unfold State.vecSlot
  with_reducible (repeat' (first | exact h | assumption | apply State.issue_keeps | apply State.readSlot_keeps | apply State.upCl_keeps | exact keeps_refl _ | apply keepsOut_next | apply keeps_ite | apply keeps_ite_fst | apply keeps_ite_snd | split | intro _ | simp only [keeps_mk] | dsimp only))

theorem execVecCopy_keeps {σ s : State} (h : Keeps σ s) (n : Fin 576) (x : SlotCtl) (v : VecArg) :
    KeepsOut σ (execVecCopy n x v s) := by
  unfold execVecCopy
  with_reducible (repeat' (first | exact h | assumption | apply State.vecSlot_keeps | exact keeps_refl _ | apply keepsOut_next | apply keeps_ite | apply keeps_ite_fst | apply keeps_ite_snd | split | intro _ | simp only [keeps_mk] | dsimp only))

theorem execVecIadd_keeps {σ s : State} (h : Keeps σ s) (n : Fin 576) (x : SlotCtl) (v : VecArg) :
    KeepsOut σ (execVecIadd n x v s) := by
  unfold execVecIadd
  with_reducible (repeat' (first | exact h | assumption | apply State.vecSlot_keeps | exact keeps_refl _ | apply keepsOut_next | apply keeps_ite | apply keeps_ite_fst | apply keeps_ite_snd | split | intro _ | simp only [keeps_mk] | dsimp only))

theorem execVecIsub_keeps {σ s : State} (h : Keeps σ s) (n : Fin 576) (x : SlotCtl) (v : VecArg) :
    KeepsOut σ (execVecIsub n x v s) := by
  unfold execVecIsub
  with_reducible (repeat' (first | exact h | assumption | apply State.vecSlot_keeps | exact keeps_refl _ | apply keepsOut_next | apply keeps_ite | apply keeps_ite_fst | apply keeps_ite_snd | split | intro _ | simp only [keeps_mk] | dsimp only))

theorem execVecImul_keeps {σ s : State} (h : Keeps σ s) (n : Fin 576) (x : SlotCtl) (v : VecArg) :
    KeepsOut σ (execVecImul n x v s) := by
  unfold execVecImul
  with_reducible (repeat' (first | exact h | assumption | apply State.vecSlot_keeps | exact keeps_refl _ | apply keepsOut_next | apply keeps_ite | apply keeps_ite_fst | apply keeps_ite_snd | split | intro _ | simp only [keeps_mk] | dsimp only))

theorem execVecShl_keeps {σ s : State} (h : Keeps σ s) (n : Fin 576) (x : SlotCtl) (v : VecArg) :
    KeepsOut σ (execVecShl n x v s) := by
  unfold execVecShl
  with_reducible (repeat' (first | exact h | assumption | apply State.vecSlot_keeps | exact keeps_refl _ | apply keepsOut_next | apply keeps_ite | apply keeps_ite_fst | apply keeps_ite_snd | split | intro _ | simp only [keeps_mk] | dsimp only))

theorem execVecShrl_keeps {σ s : State} (h : Keeps σ s) (n : Fin 576) (x : SlotCtl) (v : VecArg) :
    KeepsOut σ (execVecShrl n x v s) := by
  unfold execVecShrl
  with_reducible (repeat' (first | exact h | assumption | apply State.vecSlot_keeps | exact keeps_refl _ | apply keepsOut_next | apply keeps_ite | apply keeps_ite_fst | apply keeps_ite_snd | split | intro _ | simp only [keeps_mk] | dsimp only))

theorem execVecShra_keeps {σ s : State} (h : Keeps σ s) (n : Fin 576) (x : SlotCtl) (v : VecArg) :
    KeepsOut σ (execVecShra n x v s) := by
  unfold execVecShra
  with_reducible (repeat' (first | exact h | assumption | apply State.vecSlot_keeps | exact keeps_refl _ | apply keepsOut_next | apply keeps_ite | apply keeps_ite_fst | apply keeps_ite_snd | split | intro _ | simp only [keeps_mk] | dsimp only))

theorem execVecAnd_keeps {σ s : State} (h : Keeps σ s) (n : Fin 576) (x : SlotCtl) (v : VecArg) :
    KeepsOut σ (execVecAnd n x v s) := by
  unfold execVecAnd
  with_reducible (repeat' (first | exact h | assumption | apply State.vecSlot_keeps | exact keeps_refl _ | apply keepsOut_next | apply keeps_ite | apply keeps_ite_fst | apply keeps_ite_snd | split | intro _ | simp only [keeps_mk] | dsimp only))

theorem execVecOr_keeps {σ s : State} (h : Keeps σ s) (n : Fin 576) (x : SlotCtl) (v : VecArg) :
    KeepsOut σ (execVecOr n x v s) := by
  unfold execVecOr
  with_reducible (repeat' (first | exact h | assumption | apply State.vecSlot_keeps | exact keeps_refl _ | apply keepsOut_next | apply keeps_ite | apply keeps_ite_fst | apply keeps_ite_snd | split | intro _ | simp only [keeps_mk] | dsimp only))

theorem execVecXor_keeps {σ s : State} (h : Keeps σ s) (n : Fin 576) (x : SlotCtl) (v : VecArg) :
    KeepsOut σ (execVecXor n x v s) := by
  unfold execVecXor
  with_reducible (repeat' (first | exact h | assumption | apply State.vecSlot_keeps | exact keeps_refl _ | apply keepsOut_next | apply keeps_ite | apply keeps_ite_fst | apply keeps_ite_snd | split | intro _ | simp only [keeps_mk] | dsimp only))

theorem execVecAndn_keeps {σ s : State} (h : Keeps σ s) (n : Fin 576) (x : SlotCtl) (v : VecArg) :
    KeepsOut σ (execVecAndn n x v s) := by
  unfold execVecAndn
  with_reducible (repeat' (first | exact h | assumption | apply State.vecSlot_keeps | exact keeps_refl _ | apply keepsOut_next | apply keeps_ite | apply keeps_ite_fst | apply keeps_ite_snd | split | intro _ | simp only [keeps_mk] | dsimp only))

theorem execVecIcmp_keeps {σ s : State} (h : Keeps σ s) (n : Fin 576) (x : SlotCtl) (v : VecArg) :
    KeepsOut σ (execVecIcmp n x v s) := by
  unfold execVecIcmp
  with_reducible (repeat' (first | exact h | assumption | apply State.vecSlot_keeps | exact keeps_refl _ | apply keepsOut_next | apply keeps_ite | apply keeps_ite_fst | apply keeps_ite_snd | split | intro _ | simp only [keeps_mk] | dsimp only))

theorem execVecImax_keeps {σ s : State} (h : Keeps σ s) (n : Fin 576) (x : SlotCtl) (v : VecArg) :
    KeepsOut σ (execVecImax n x v s) := by
  unfold execVecImax
  with_reducible (repeat' (first | exact h | assumption | apply State.vecSlot_keeps | exact keeps_refl _ | apply keepsOut_next | apply keeps_ite | apply keeps_ite_fst | apply keeps_ite_snd | split | intro _ | simp only [keeps_mk] | dsimp only))

theorem execVecImin_keeps {σ s : State} (h : Keeps σ s) (n : Fin 576) (x : SlotCtl) (v : VecArg) :
    KeepsOut σ (execVecImin n x v s) := by
  unfold execVecImin
  with_reducible (repeat' (first | exact h | assumption | apply State.vecSlot_keeps | exact keeps_refl _ | apply keepsOut_next | apply keeps_ite | apply keeps_ite_fst | apply keeps_ite_snd | split | intro _ | simp only [keeps_mk] | dsimp only))

theorem execVecSel_keeps {σ s : State} (h : Keeps σ s) (n : Fin 576) (x : SlotCtl) (v : VecArg) :
    KeepsOut σ (execVecSel n x v s) := by
  unfold execVecSel
  with_reducible (repeat' (first | exact h | assumption | apply State.vecSlot_keeps | exact keeps_refl _ | apply keepsOut_next | apply keeps_ite | apply keeps_ite_fst | apply keeps_ite_snd | split | intro _ | simp only [keeps_mk] | dsimp only))

theorem execVecFadd_keeps {σ s : State} (h : Keeps σ s) (n : Fin 576) (x : SlotCtl) (v : VecArg) :
    KeepsOut σ (execVecFadd n x v s) := by
  unfold execVecFadd
  with_reducible (repeat' (first | exact h | assumption | apply State.vecSlot_keeps | exact keeps_refl _ | apply keepsOut_next | apply keeps_ite | apply keeps_ite_fst | apply keeps_ite_snd | split | intro _ | simp only [keeps_mk] | dsimp only))

theorem execVecFsub_keeps {σ s : State} (h : Keeps σ s) (n : Fin 576) (x : SlotCtl) (v : VecArg) :
    KeepsOut σ (execVecFsub n x v s) := by
  unfold execVecFsub
  with_reducible (repeat' (first | exact h | assumption | apply State.vecSlot_keeps | exact keeps_refl _ | apply keepsOut_next | apply keeps_ite | apply keeps_ite_fst | apply keeps_ite_snd | split | intro _ | simp only [keeps_mk] | dsimp only))

theorem execVecFcmp_keeps {σ s : State} (h : Keeps σ s) (n : Fin 576) (x : SlotCtl) (v : VecArg) :
    KeepsOut σ (execVecFcmp n x v s) := by
  unfold execVecFcmp
  with_reducible (repeat' (first | exact h | assumption | apply State.vecSlot_keeps | exact keeps_refl _ | apply keepsOut_next | apply keeps_ite | apply keeps_ite_fst | apply keeps_ite_snd | split | intro _ | simp only [keeps_mk] | dsimp only))

theorem execVecFmax_keeps {σ s : State} (h : Keeps σ s) (n : Fin 576) (x : SlotCtl) (v : VecArg) :
    KeepsOut σ (execVecFmax n x v s) := by
  unfold execVecFmax
  with_reducible (repeat' (first | exact h | assumption | apply State.vecSlot_keeps | exact keeps_refl _ | apply keepsOut_next | apply keeps_ite | apply keeps_ite_fst | apply keeps_ite_snd | split | intro _ | simp only [keeps_mk] | dsimp only))

theorem execVecFmin_keeps {σ s : State} (h : Keeps σ s) (n : Fin 576) (x : SlotCtl) (v : VecArg) :
    KeepsOut σ (execVecFmin n x v s) := by
  unfold execVecFmin
  with_reducible (repeat' (first | exact h | assumption | apply State.vecSlot_keeps | exact keeps_refl _ | apply keepsOut_next | apply keeps_ite | apply keeps_ite_fst | apply keeps_ite_snd | split | intro _ | simp only [keeps_mk] | dsimp only))

theorem execVecFmul_keeps {σ s : State} (h : Keeps σ s) (n : Fin 576) (x : SlotCtl) (v : VecArg) :
    KeepsOut σ (execVecFmul n x v s) := by
  unfold execVecFmul
  with_reducible (repeat' (first | exact h | assumption | apply State.vecSlot_keeps | exact keeps_refl _ | apply keepsOut_next | apply keeps_ite | apply keeps_ite_fst | apply keeps_ite_snd | split | intro _ | simp only [keeps_mk] | dsimp only))

theorem execVecFdiv_keeps {σ s : State} (h : Keeps σ s) (n : Fin 576) (x : SlotCtl) (v : VecArg) :
    KeepsOut σ (execVecFdiv n x v s) := by
  unfold execVecFdiv
  with_reducible (repeat' (first | exact h | assumption | apply State.vecSlot_keeps | exact keeps_refl _ | apply keepsOut_next | apply keeps_ite | apply keeps_ite_fst | apply keeps_ite_snd | split | intro _ | simp only [keeps_mk] | dsimp only))

theorem execVecLut_keeps {σ s : State} (h : Keeps σ s) (n : Fin 576) (x : SlotCtl) (v : VecArg) :
    KeepsOut σ (execVecLut n x v s) := by
  unfold execVecLut
  with_reducible (repeat' (first | exact h | assumption | apply State.vecSlot_keeps | exact keeps_refl _ | apply keepsOut_next | apply keeps_ite | apply keeps_ite_fst | apply keeps_ite_snd | split | intro _ | simp only [keeps_mk] | dsimp only))

theorem execVecGather_keeps {σ s : State} (h : Keeps σ s) (n : Fin 576) (x : SlotCtl) (v : VecArg) :
    KeepsOut σ (execVecGather n x v s) := by
  unfold execVecGather
  with_reducible (repeat' (first | exact h | assumption | apply State.vecSlot_keeps | exact keeps_refl _ | apply keepsOut_next | apply keeps_ite | apply keeps_ite_fst | apply keeps_ite_snd | split | intro _ | simp only [keeps_mk] | dsimp only))

theorem execVecPmax_keeps {σ s : State} (h : Keeps σ s) (n : Fin 576) (x : SlotCtl) (v : VecArg) :
    KeepsOut σ (execVecPmax n x v s) := by
  unfold execVecPmax
  with_reducible (repeat' (first | exact h | assumption | apply State.vecSlot_keeps | exact keeps_refl _ | apply keepsOut_next | apply keeps_ite | apply keeps_ite_fst | apply keeps_ite_snd | split | intro _ | simp only [keeps_mk] | dsimp only))

theorem execVecPmin_keeps {σ s : State} (h : Keeps σ s) (n : Fin 576) (x : SlotCtl) (v : VecArg) :
    KeepsOut σ (execVecPmin n x v s) := by
  unfold execVecPmin
  with_reducible (repeat' (first | exact h | assumption | apply State.vecSlot_keeps | exact keeps_refl _ | apply keepsOut_next | apply keeps_ite | apply keeps_ite_fst | apply keeps_ite_snd | split | intro _ | simp only [keeps_mk] | dsimp only))

theorem State.vecFlags_keeps {σ s : State} (h : Keeps σ s) (n : Nat) (ctx : Nat) (f : Nat) :
    Keeps σ (State.vecFlags s n ctx f) := by
  unfold State.vecFlags
  with_reducible (repeat' (first | exact h | assumption | apply State.incN_keeps | apply State.wrg_keeps | exact keeps_refl _ | apply keepsOut_next | apply keeps_ite | apply keeps_ite_fst | apply keeps_ite_snd | split | intro _ | simp only [keeps_mk] | dsimp only))

theorem State.vecFault_keeps {σ s : State} (h : Keeps σ s) (n : Nat) (o : VecOp) (kind : Nat) (lane : Nat) (a : Option Int) (elem : Nat) :
    Keeps σ (State.vecFault s n o kind lane a elem) := by
  unfold State.vecFault
  with_reducible (repeat' (first | exact h | assumption | apply State.cond_keeps | apply State.free_keeps | apply State.wrg_keeps | apply State.extentFault_keeps | exact keeps_refl _ | apply keepsOut_next | apply keeps_ite | apply keeps_ite_fst | apply keeps_ite_snd | split | intro _ | simp only [keeps_mk] | dsimp only))
theorem VecRun.beat_keeps {σ : State} {r : VecRun} (h : Keeps σ r.s) (n : Nat) (o : VecOp) (t : List Word) (total j : Nat) :
    Keeps σ (r.beat n o t total j).s := by
  unfold VecRun.beat
  dsimp only
  split
  · exact State.upCl_keeps h _ _
  · exact State.inc64_keeps (State.vecFlags_keeps (State.incN_keeps (State.inc64_keeps (State.upCl_keeps h _ _) _ _) _ _) _ _ _) _ _

theorem VecRun.land_keeps {σ : State} {r : VecRun} (h : Keeps σ r.s) (n : Nat) (o : VecOp) : Keeps σ (r.land n o).s := by
  unfold VecRun.land
  exact State.upCl_keeps h _ _

theorem VecRun.beats_keeps {σ : State} {r : VecRun} (h : Keeps σ r.s) (n : Nat) (o : VecOp) (t : List Word) (total f j : Nat) :
    Keeps σ (r.beats n o t total f j).s := by
  induction f generalizing r j with
  | zero =>
    unfold VecRun.beats
    exact VecRun.land_keeps h n o
  | succ f ih =>
    unfold VecRun.beats
    dsimp only
    split
    · exact VecRun.land_keeps (VecRun.beat_keeps h n o t total j) n o
    · exact ih (VecRun.beat_keeps h n o t total j) _

theorem State.runVec_keeps {σ s : State} (h : Keeps σ s) (n : Nat) (o : VecOp) :
    Keeps σ (State.runVec s n o) := by
  unfold State.runVec
  dsimp only
  have k := VecRun.beats_keeps (r := ⟨s.setCl n ((s.cl n).enter false (((s.cl n).plane o.plane).vecRanges o)).1, [], List.replicate 64 0,
    List.replicate 64 0, 0, false, false, none⟩) (State.setCl_keeps h n _) n o
    (if o.vop = 32 ∧ o.sub = 0 then (s.cl n).words o.aux 260 else []) (((s.cl n).plane o.plane).positions (s.cl n).bkt o.lt)
    (ceilDiv (((s.cl n).plane o.plane).positions (s.cl n).bkt o.lt) 64) 0
  split
  · exact State.vecFault_keeps (State.upCl_keeps k _ _) _ _ _ _ _ _
  · split
    · exact State.upCl_keeps k _ _
    · exact State.upCl_keeps k _ _

theorem execVectorOpStart_keeps {σ s : State} (h : Keeps σ s) (n : Fin 576) (ecc : SpEcc) (conf : Option Conflict) :
    KeepsOut σ (execVectorOpStart n ecc conf s) := by
  unfold execVectorOpStart
  with_reducible (repeat' (first | exact h | assumption | apply State.upCl_keeps | apply State.spEcc_keeps | apply State.conflict_keeps | apply State.runVec_keeps | exact keeps_refl _ | apply keepsOut_next | apply keeps_ite | apply keeps_ite_fst | apply keeps_ite_snd | split | intro _ | simp only [keeps_mk] | dsimp only))

theorem execSumsqRecordWrite_keeps {σ s : State} (h : Keeps σ s) (n : Fin 576) :
    KeepsOut σ (execSumsqRecordWrite n s) := by
  unfold execSumsqRecordWrite
  with_reducible (repeat' (first | exact h | assumption | apply State.upCl_keeps | apply State.wake_keeps | apply State.vecFlags_keeps | exact keeps_refl _ | apply keepsOut_next | apply keeps_ite | apply keeps_ite_fst | apply keeps_ite_snd | split | intro _ | simp only [keeps_mk] | dsimp only))

end Sys2Proof.Machine
end

