-- ==== Sys2Proof/Laws/KeepsScratchpad.lean ====
section
/-! SUPPORT. The operations and commands of Machine/Scratchpad.lean leave the queue as it is, and keep memory and registers in their one form. -/

set_option linter.unusedTactic false
set_option linter.unreachableTactic false
set_option linter.unusedSimpArgs false

namespace Sys2Proof.Machine

theorem execElasticAccess_keeps {σ s : State} (h : Keeps σ s) (n : Fin 576) (addr : BitVec 23) (data : List Byte) :
    KeepsOut σ (execElasticAccess n addr data s) := by
  unfold execElasticAccess
  with_reducible (repeat' (first | exact h | assumption | apply State.upCl_keeps | exact keeps_refl _ | apply keepsOut_next | apply keeps_ite | apply keeps_ite_fst | apply keeps_ite_snd | split | intro _ | simp only [keeps_mk] | dsimp only))

theorem execPatrolScrub_keeps {σ s : State} (h : Keeps σ s) (n : Fin 576) (ecc : SpEcc) :
    KeepsOut σ (execPatrolScrub n ecc s) := by
  unfold execPatrolScrub
  with_reducible (repeat' (first | exact h | assumption | apply State.spEcc_keeps | apply State.upCl_keeps | exact keeps_refl _ | apply keepsOut_next | apply keeps_ite | apply keeps_ite_fst | apply keeps_ite_snd | split | intro _ | simp only [keeps_mk] | dsimp only))

theorem execSpareBankCopyDone_keeps {σ s : State} (h : Keeps σ s) (n : Fin 576) :
    KeepsOut σ (execSpareBankCopyDone n s) := by
  unfold execSpareBankCopyDone
  with_reducible (repeat' (first | exact h | assumption | apply State.upCl_keeps | exact keeps_refl _ | apply keepsOut_next | apply keeps_ite | apply keeps_ite_fst | apply keeps_ite_snd | split | intro _ | simp only [keeps_mk] | dsimp only))

theorem execZeroingRequest_keeps {σ s : State} (h : Keeps σ s) (n : Fin 576) :
    KeepsOut σ (execZeroingRequest n s) := by
  unfold execZeroingRequest
  with_reducible (repeat' (first | exact h | assumption | apply State.upCl_keeps | exact keeps_refl _ | apply keepsOut_next | apply keeps_ite | apply keeps_ite_fst | apply keeps_ite_snd | split | intro _ | simp only [keeps_mk] | dsimp only))

theorem execZeroingDone_keeps {σ s : State} (h : Keeps σ s) (n : Fin 576) :
    KeepsOut σ (execZeroingDone n s) := by
  unfold execZeroingDone
  with_reducible (repeat' (first | exact h | assumption | apply State.upCl_keeps | apply State.each_keeps | apply State.setCc_keeps | exact keeps_refl _ | apply keepsOut_next | apply keeps_ite | apply keeps_ite_fst | apply keeps_ite_snd | split | intro _ | simp only [keeps_mk] | dsimp only))

theorem State.dbgAdvance_keeps {σ s : State} (h : Keeps σ s) (n : Nat) :
    Keeps σ (State.dbgAdvance s n) := by
  unfold State.dbgAdvance
  with_reducible (repeat' (first | exact h | assumption | apply State.setF_keeps | exact keeps_refl _ | apply keepsOut_next | apply keeps_ite | apply keeps_ite_fst | apply keeps_ite_snd | split | intro _ | simp only [keeps_mk] | dsimp only))

theorem execSpDbgRead_keeps {σ s : State} (h : Keeps σ s) (mc : Bool) (n : Fin 576) (ecc : SpEcc) :
    KeepsOut σ (execSpDbgRead mc n ecc s) := by
  unfold execSpDbgRead
  with_reducible (repeat' (first | exact h | assumption | apply State.dbgAdvance_keeps | apply State.emit_keeps | apply State.spEcc_keeps | apply State.free_keeps | exact keeps_refl _ | apply keepsOut_next | apply keeps_ite | apply keeps_ite_fst | apply keeps_ite_snd | split | intro _ | simp only [keeps_mk] | dsimp only))

theorem execSpDbgReadTimeout_keeps {σ s : State} (h : Keeps σ s) (mc : Bool) (n : Fin 576) :
    KeepsOut σ (execSpDbgReadTimeout mc n s) := by
  unfold execSpDbgReadTimeout
  with_reducible (repeat' (first | exact h | assumption | apply State.setF_keeps | apply State.emit_keeps | exact keeps_refl _ | apply keepsOut_next | apply keeps_ite | apply keeps_ite_fst | apply keeps_ite_snd | split | intro _ | simp only [keeps_mk] | dsimp only))

theorem State.dbgWrite_keeps {σ s : State} (h : Keeps σ s) (n : Nat) (v : Word) :
    Keeps σ (State.dbgWrite s n v) := by
  unfold State.dbgWrite
  with_reducible (repeat' (first | exact h | assumption | apply State.dbgAdvance_keeps | apply State.upCl_keeps | apply State.setF_keeps | exact keeps_refl _ | apply keepsOut_next | apply keeps_ite | apply keeps_ite_fst | apply keeps_ite_snd | split | intro _ | simp only [keeps_mk] | dsimp only))

theorem execSpDbgWrite_keeps {σ s : State} (h : Keeps σ s) (n : Fin 576) (v : Word) :
    KeepsOut σ (execSpDbgWrite n v s) := by
  unfold execSpDbgWrite
  with_reducible (repeat' (first | exact h | assumption | apply State.hostWrite_keeps | apply State.dbgWrite_keeps | exact keeps_refl _ | apply keepsOut_next | apply keeps_ite | apply keeps_ite_fst | apply keeps_ite_snd | split | intro _ | simp only [keeps_mk] | dsimp only))

end Sys2Proof.Machine
end

