-- ==== Sys2Proof/Laws/KeepsCounters.lean ====
section
/-! SUPPORT. The operations and commands of Machine/Counters.lean leave the queue as it is, and keep memory and registers in their one form. -/

set_option linter.unusedTactic false
set_option linter.unreachableTactic false
set_option linter.unusedSimpArgs false

namespace Sys2Proof.Machine

theorem State.countDrift_keeps {σ s : State} (h : Keeps σ s) (n : Nat) (kind : Nat) (ctr : Nat) (k : Nat) (slot : Nat) (own : Nat) (peer : Option Nat) :
    Keeps σ (State.countDrift s n kind ctr k slot own peer) := by
  unfold State.countDrift
  with_reducible (repeat' (first | exact h | assumption | apply State.cond_keeps | apply State.free_keeps | apply State.wrg_keeps | apply State.inc_keeps | apply State.clusterEvent_keeps | apply State.upCl_keeps | apply State.programError_keeps | exact keeps_refl _ | apply keepsOut_next | apply keeps_ite | apply keeps_ite_fst | apply keeps_ite_snd | split | intro _ | simp only [keeps_mk] | dsimp only))

theorem State.checkPairs_keeps {σ s : State} (h : Keeps σ s) (n : Nat) (i : Nat) (slot : Nat) :
    Keeps σ (State.checkPairs s n i slot) := by
  unfold State.checkPairs
  with_reducible (repeat' (first | exact h | assumption | apply State.countDrift_keeps | exact keeps_refl _ | apply keepsOut_next | apply keeps_ite | apply keeps_ite_fst | apply keeps_ite_snd | split | intro _ | simp only [keeps_mk] | dsimp only))

theorem State.advanceBinding_keeps {σ s : State} (h : Keeps σ s) (n : Nat) (k : Nat) (b : Nat) (inc : Nat) (slot : Nat) :
    Keeps σ (State.advanceBinding s n k b inc slot) := by
  unfold State.advanceBinding
  with_reducible (repeat' (first | exact h | assumption | apply State.activity_keeps | apply State.setCc_keeps | apply State.emit_keeps | apply State.countDrift_keeps | apply State.wake_keeps | apply State.checkPairs_keeps | apply State.flowError_keeps | apply State.setStep_keeps | exact keeps_refl _ | apply keepsOut_next | apply keeps_ite | apply keeps_ite_fst | apply keeps_ite_snd | split | intro _ | simp only [keeps_mk] | dsimp only))

theorem execCsig_keeps {σ s : State} (h : Keeps σ s) (n : Fin 576) (x : SlotCtl) (b : Fin 64) (inc : BitVec 16) :
    KeepsOut σ (execCsig n x b inc s) := by
  unfold execCsig
  with_reducible (repeat' (first | exact h | assumption | apply State.issue_keeps | apply State.pass_keeps | apply State.advanceBinding_keeps | exact keeps_refl _ | apply keepsOut_next | apply keeps_ite | apply keeps_ite_fst | apply keeps_ite_snd | split | intro _ | simp only [keeps_mk] | dsimp only))

theorem execCwait_keeps {σ s : State} (h : Keeps σ s) (n : Fin 576) (x : SlotCtl) (b : Fin 64) (ref : Fin 64) (rel : Bool) (offset : BitVec 32) :
    KeepsOut σ (execCwait n x b ref rel offset s) := by
  unfold execCwait
  with_reducible (repeat' (first | exact h | assumption | apply State.issue_keeps | apply State.pass_keeps | apply State.waitAt_keeps | exact keeps_refl _ | apply keepsOut_next | apply keeps_ite | apply keeps_ite_fst | apply keeps_ite_snd | split | intro _ | simp only [keeps_mk] | dsimp only))

theorem State.mirrorTake_keeps {σ s : State} (h : Keeps σ s) (n : Nat) (i : Nat) (v : Nat) (src : Nat) :
    Keeps σ (State.mirrorTake s n i v src) := by
  unfold State.mirrorTake
  with_reducible (repeat' (first | exact h | assumption | apply State.wake_keeps | apply State.checkPairs_keeps | apply State.activity_keeps | apply State.setCc_keeps | exact keeps_refl _ | apply keepsOut_next | apply keeps_ite | apply keeps_ite_fst | apply keeps_ite_snd | split | intro _ | simp only [keeps_mk] | dsimp only))

theorem State.updateMismatch_keeps {σ s : State} (h : Keeps σ s) (n : Nat) (stop : Nat) :
    Keeps σ (State.updateMismatch s n stop) := by
  unfold State.updateMismatch
  with_reducible (repeat' (first | exact h | assumption | apply State.cplMismatch_keeps | exact keeps_refl _ | apply keepsOut_next | apply keeps_ite | apply keeps_ite_fst | apply keeps_ite_snd | split | intro _ | simp only [keeps_mk] | dsimp only))

theorem execMirrorUpdate_keeps {σ s : State} (h : Keeps σ s) (n : Fin 576) (k : Fin 64) (v : BitVec 48) (bad : Bool) (step : BitVec 8) (attempt : BitVec 8) (i : Fin 64) (gen : BitVec 8) (src : BitVec 16) :
    KeepsOut σ (execMirrorUpdate n k v bad step attempt i gen src s) := by
  unfold execMirrorUpdate
  with_reducible (repeat' (first | exact h | assumption | apply State.updateMismatch_keeps | apply State.inc_keeps | apply State.upCl_keeps | apply State.mirrorTake_keeps | exact keeps_refl _ | apply keepsOut_next | apply keeps_ite | apply keeps_ite_fst | apply keeps_ite_snd | split | intro _ | simp only [keeps_mk] | dsimp only))

theorem execPkgMirrorUpdate_keeps {σ s : State} (h : Keeps σ s) (n : Fin 576) (k : Fin 64) (v : BitVec 48) (bad : Bool) (i : Fin 64) (gen : BitVec 8) :
    KeepsOut σ (execPkgMirrorUpdate n k v bad i gen s) := by
  unfold execPkgMirrorUpdate
  with_reducible (repeat' (first | exact h | assumption | apply State.updateMismatch_keeps | apply State.inc_keeps | apply State.mirrorTake_keeps | exact keeps_refl _ | apply keepsOut_next | apply keeps_ite | apply keeps_ite_fst | apply keeps_ite_snd | split | intro _ | simp only [keeps_mk] | dsimp only))

theorem State.pcCtrlWrite_keeps {σ s : State} (h : Keeps σ s) (i : Nat) (v : Word) :
    Keeps σ (State.pcCtrlWrite s i v) := by
  unfold State.pcCtrlWrite
  with_reducible (repeat' (first | exact h | assumption | apply State.inc_keeps | apply State.plain_keeps | apply State.pcIrq_keeps | apply State.setPc_keeps | exact keeps_refl _ | apply keepsOut_next | apply keeps_ite | apply keeps_ite_fst | apply keeps_ite_snd | split | intro _ | simp only [keeps_mk] | dsimp only))

theorem execPcCtrlWrite_keeps {σ s : State} (h : Keeps σ s) (c : Fin 4096) (v : Word) :
    KeepsOut σ (execPcCtrlWrite c v s) := by
  unfold execPcCtrlWrite
  with_reducible (repeat' (first | exact h | assumption | apply State.hostWrite_keeps | apply State.pcCtrlWrite_keeps | exact keeps_refl _ | apply keepsOut_next | apply keeps_ite | apply keeps_ite_fst | apply keeps_ite_snd | split | intro _ | simp only [keeps_mk] | dsimp only))

theorem State.setDone_keeps {σ s : State} (h : Keeps σ s) (result : Nat) :
    Keeps σ (State.setDone s result) := by
  unfold State.setDone
  with_reducible (repeat' (first | exact h | assumption | apply State.setF_keeps | exact keeps_refl _ | apply keepsOut_next | apply keeps_ite | apply keeps_ite_fst | apply keeps_ite_snd | split | intro _ | simp only [keeps_mk] | dsimp only))

theorem State.cntSet_keeps {σ s : State} (h : Keeps σ s) :
    Keeps σ (State.cntSet s) := by
  unfold State.cntSet
  with_reducible (repeat' (first | exact h | assumption | apply State.setDone_keeps | apply State.hostMismatch_keeps | apply State.pcChanged_keeps | apply State.free_keeps | apply State.checkPairs_keeps | apply State.setCc_keeps | apply State.wake_keeps | exact keeps_refl _ | apply keepsOut_next | apply keeps_ite | apply keeps_ite_fst | apply keeps_ite_snd | split | intro _ | simp only [keeps_mk] | dsimp only))

theorem execCntSetGo_keeps {σ s : State} (h : Keeps σ s) :
    KeepsOut σ (execCntSetGo s) := by
  unfold execCntSetGo
  with_reducible (repeat' (first | exact h | assumption | apply State.hostWrite_keeps | apply State.cntSet_keeps | exact keeps_refl _ | apply keepsOut_next | apply keeps_ite | apply keeps_ite_fst | apply keeps_ite_snd | split | intro _ | simp only [keeps_mk] | dsimp only))

theorem execTraceNotice_keeps {σ s : State} (h : Keeps σ s) (n : Fin 576) (p : Fin 8) (c : Fin 4) (k : Fin 256) (starts : Bool) :
    KeepsOut σ (execTraceNotice n p c k starts s) := by
  unfold execTraceNotice
  with_reducible (repeat' (first | exact h | assumption | apply State.traceStart_keeps | apply State.traceEnd_keeps | exact keeps_refl _ | apply keepsOut_next | apply keeps_ite | apply keeps_ite_fst | apply keeps_ite_snd | split | intro _ | simp only [keeps_mk] | dsimp only))

theorem execLendStart_keeps {σ s : State} (h : Keeps σ s) (n : Fin 576) :
    KeepsOut σ (execLendStart n s) := by
  unfold execLendStart
  with_reducible (repeat' (first | exact h | assumption | apply State.inc_keeps | apply State.upCl_keeps | exact keeps_refl _ | apply keepsOut_next | apply keeps_ite | apply keeps_ite_fst | apply keeps_ite_snd | split | intro _ | simp only [keeps_mk] | dsimp only))

end Sys2Proof.Machine
end

