-- ==== Sys2Proof/Laws/KeepsChannels.lean ====
section
/-! SUPPORT. The operations and commands of Machine/Channels.lean leave the queue as it is, and keep memory and registers in their one form. -/

set_option linter.unusedTactic false
set_option linter.unreachableTactic false
set_option linter.unusedSimpArgs false

namespace Sys2Proof.Machine

theorem State.sendTile_keeps {σ s : State} (h : Keeps σ s) (n : Nat) (k : Nat) (ep : Nat) (isNull : Bool) (halo : List Nat) (data : List Byte) :
    Keeps σ (State.sendTile s n k ep isNull halo data) := by
  unfold State.sendTile
  with_reducible (repeat' (first | exact h | assumption | apply State.upCl_keeps | apply State.emit_keeps | apply State.inc64_keeps | exact keeps_refl _ | apply keepsOut_next | apply keeps_ite | apply keeps_ite_fst | apply keeps_ite_snd | split | intro _ | simp only [keeps_mk] | dsimp only))

theorem State.sendSlot_keeps {σ s : State} (h : Keeps σ s) (n : Nat) (x : SlotCtl) (ep : Nat) (f : Nat → Bool → State → State) (hf : ∀ u0 u1 u2, Keeps u2 (f u0 u1 u2)) :
    KeepsOut σ (State.sendSlot s n x ep f) := by
  unfold State.sendSlot
  with_reducible (repeat' (first | exact h | assumption | refine keeps_trans ?_ (hf _ _ _) | apply State.issue_keeps | apply State.waitAt_keeps | exact keeps_refl _ | apply keepsOut_next | apply keeps_ite | apply keeps_ite_fst | apply keeps_ite_snd | split | intro _ | simp only [keeps_mk] | dsimp only))

theorem execSend_keeps {σ s : State} (h : Keeps σ s) (n : Fin 576) (x : SlotCtl) (ep : Fin 8) (addr : BitVec 23) (linesM1 : BitVec 8) :
    KeepsOut σ (execSend n x ep addr linesM1 s) := by
  unfold execSend
  with_reducible (repeat' (first | exact h | assumption | apply State.sendSlot_keeps | apply State.sendTile_keeps | apply State.readSlot_keeps | exact keeps_refl _ | apply keepsOut_next | apply keeps_ite | apply keeps_ite_fst | apply keeps_ite_snd | split | intro _ | simp only [keeps_mk] | dsimp only))

theorem State.haloFmt_keeps {σ s : State} (h : Keeps σ s) (n : Nat) (k : Nat) (t : Nat) (op : Nat) :
    Keeps σ (State.haloFmt s n k t op).2 := by
  unfold State.haloFmt
  with_reducible (repeat' (first | exact h | assumption | apply State.free_keeps | exact keeps_refl _ | apply keepsOut_next | apply keeps_ite | apply keeps_ite_fst | apply keeps_ite_snd | split | intro _ | simp only [keeps_mk] | dsimp only))

theorem execSendHalo_keeps {σ s : State} (h : Keeps σ s) (n : Fin 576) (x : SlotCtl) (ep : Fin 8) (lt : Fin 16) (bindB : Bool) (upper : Bool) :
    KeepsOut σ (execSendHalo n x ep lt bindB upper s) := by
  unfold execSendHalo
  with_reducible (repeat' (first | exact h | assumption | apply State.sendSlot_keeps | apply State.sendTile_keeps | apply State.haloFmt_keeps | apply State.readSlot_keeps | apply State.loopFault_keeps | apply State.inc64_keeps | exact keeps_refl _ | apply keepsOut_next | apply keeps_ite | apply keeps_ite_fst | apply keeps_ite_snd | split | intro _ | simp only [keeps_mk] | dsimp only))

theorem execRecv_keeps {σ s : State} (h : Keeps σ s) (n : Fin 576) (x : SlotCtl) (ep : Fin 8) (pbit : Fin 8) :
    KeepsOut σ (execRecv n x ep pbit s) := by
  unfold execRecv
  with_reducible (repeat' (first | exact h | assumption | apply State.issue_keeps | apply State.pass_keeps | apply State.takeTile_keeps | apply State.waitAt_keeps | exact keeps_refl _ | apply keepsOut_next | apply keeps_ite | apply keeps_ite_fst | apply keeps_ite_snd | split | intro _ | simp only [keeps_mk] | dsimp only))

theorem State.restoreTile_keeps {σ s : State} (h : Keeps σ s) (n : Nat) (k : Nat) (ep : Nat) :
    Keeps σ (State.restoreTile s n k ep) := by
  unfold State.restoreTile
  with_reducible (repeat' (first | exact h | assumption | apply State.upCl_keeps | exact keeps_refl _ | apply keepsOut_next | apply keeps_ite | apply keeps_ite_fst | apply keeps_ite_snd | split | intro _ | simp only [keeps_mk] | dsimp only))

theorem execRelease_keeps {σ s : State} (h : Keeps σ s) (n : Fin 576) (x : SlotCtl) (ep : Fin 8) :
    KeepsOut σ (execRelease n x ep s) := by
  unfold execRelease
  with_reducible (repeat' (first | exact h | assumption | apply State.issue_keeps | apply State.flowError_keeps | apply State.cond_keeps | apply State.wrg_keeps | apply State.upCl_keeps | apply State.wake_keeps | apply State.restoreTile_keeps | apply State.emit_keeps | exact keeps_refl _ | apply keepsOut_next | apply keeps_ite | apply keeps_ite_fst | apply keeps_ite_snd | split | intro _ | simp only [keeps_mk] | dsimp only))

theorem State.fillMargin_keeps {σ s : State} (h : Keeps σ s) (n : Nat) (k : Nat) (ep : Nat) (h : Nat × Nat × Bool) (t : Tile) :
    Keeps σ (State.fillMargin s n k ep h t) := by
  unfold State.fillMargin
  with_reducible (repeat' (first | exact h | assumption | apply State.haloFmt_keeps | apply State.free_keeps | apply State.loopFault_keeps | apply State.inc64_keeps | apply State.setCl_keeps | exact keeps_refl _ | apply keepsOut_next | apply keeps_ite | apply keeps_ite_fst | apply keeps_ite_snd | split | intro _ | simp only [keeps_mk] | dsimp only))

theorem State.takePacket_keeps {σ s : State} (h : Keeps σ s) (n : Nat) (q : TilePkt) :
    Keeps σ (State.takePacket s n q) := by
  unfold State.takePacket
  with_reducible (repeat' (first | exact h | assumption | apply State.upCl_keeps | apply State.activity_keeps | apply State.fillMargin_keeps | apply State.wake_keeps | exact keeps_refl _ | apply keepsOut_next | apply keeps_ite | apply keeps_ite_fst | apply keeps_ite_snd | split | intro _ | simp only [keeps_mk] | dsimp only))

theorem execTilePacketArrive_keeps {σ s : State} (h : Keeps σ s) (n : Fin 576) (k : TilePkt) :
    KeepsOut σ (execTilePacketArrive n k s) := by
  unfold execTilePacketArrive
  with_reducible (repeat' (first | exact h | assumption | apply State.takePacket_keeps | apply State.inc_keeps | apply State.flowError_keeps | apply State.cond_keeps | apply State.wrg_keeps | exact keeps_refl _ | apply keepsOut_next | apply keeps_ite | apply keeps_ite_fst | apply keeps_ite_snd | split | intro _ | simp only [keeps_mk] | dsimp only))

theorem State.creditExcess_keeps {σ s : State} (h : Keeps σ s) (n : Nat) (src : BitVec 16) (srcEp : Nat) :
    Keeps σ (State.creditExcess s n src srcEp) := by
  unfold State.creditExcess
  with_reducible (repeat' (first | exact h | assumption | apply State.report_keeps | apply State.inc_keeps | exact keeps_refl _ | apply keepsOut_next | apply keeps_ite | apply keeps_ite_fst | apply keeps_ite_snd | split | intro _ | simp only [keeps_mk] | dsimp only))

theorem execCreditArrive_keeps {σ s : State} (h : Keeps σ s) (n : Fin 576) (p : Fin 8) (ep : Fin 8) (c : Fin 4) (feed : Option (Fin 16)) (bad : Bool) (src : BitVec 16) (srcEp : Fin 8) :
    KeepsOut σ (execCreditArrive n p ep c feed bad src srcEp s) := by
  unfold execCreditArrive
  with_reducible (repeat' (first | exact h | assumption | apply State.cplMismatch_keeps | apply State.creditExcess_keeps | apply State.upCl_keeps | apply State.wake_keeps | exact keeps_refl _ | apply keepsOut_next | apply keeps_ite | apply keeps_ite_fst | apply keeps_ite_snd | split | intro _ | simp only [keeps_mk] | dsimp only))

theorem execTakeNotice_keeps {σ s : State} (h : Keeps σ s) (n : Fin 576) (p : Fin 8) (ep : Fin 8) (c : Fin 4) (bad : Bool) (src : BitVec 16) (srcEp : Fin 8) :
    KeepsOut σ (execTakeNotice n p ep c bad src srcEp s) := by
  unfold execTakeNotice
  with_reducible (repeat' (first | exact h | assumption | apply State.cplMismatch_keeps | apply State.creditExcess_keeps | apply State.upCl_keeps | exact keeps_refl _ | apply keepsOut_next | apply keeps_ite | apply keeps_ite_fst | apply keeps_ite_snd | split | intro _ | simp only [keeps_mk] | dsimp only))

end Sys2Proof.Machine
end

