-- ==== Sys2Proof/Laws/KeepsDram.lean ====
section
/-! SUPPORT. The operations and commands of Machine/Dram.lean leave the queue as it is, and keep memory and registers in their one form. -/

set_option linter.unusedTactic false
set_option linter.unreachableTactic false
set_option linter.unusedSimpArgs false

namespace Sys2Proof.Machine

theorem State.setCtl_keeps {σ s : State} (h : Keeps σ s) (st : Nat) (c : DramCtl) :
    Keeps σ (State.setCtl s st c) := by
  unfold State.setCtl
  with_reducible (repeat' (first | exact h | assumption | exact keeps_refl _ | apply keepsOut_next | apply keeps_ite | apply keeps_ite_fst | apply keeps_ite_snd | split | intro _ | simp only [keeps_mk] | dsimp only))

theorem State.readArrive_keeps {σ s : State} (h : Keeps σ s) (st : Nat) (src : Nat) (i : Nat) (gen : Nat) (a : Nat) :
    Keeps σ (State.readArrive s st src i gen a) := by
  unfold State.readArrive
  with_reducible (repeat' (first | exact h | assumption | apply State.setCtl_keeps | exact keeps_refl _ | apply keepsOut_next | apply keeps_ite | apply keeps_ite_fst | apply keeps_ite_snd | split | intro _ | simp only [keeps_mk] | dsimp only))

theorem State.writeTake_keeps {σ s : State} (h : Keeps σ s) (st : Nat) (src : Nat) (a : Nat) (data : List Byte) :
    Keeps σ (State.writeTake s st src a data) := by
  unfold State.writeTake
  with_reducible (repeat' (first | exact h | assumption | apply State.setCtl_keeps | apply State.emit_keeps | apply State.wrBytes_keeps | exact keeps_refl _ | apply keepsOut_next | apply keeps_ite | apply keeps_ite_fst | apply keeps_ite_snd | split | intro _ | simp only [keeps_mk] | dsimp only))

theorem State.hubWrite_keeps {σ s : State} (h : Keeps σ s) (a : Nat) (data : List Byte) :
    Keeps σ (State.hubWrite s a data) := by
  unfold State.hubWrite
  with_reducible (repeat' (first | exact h | assumption | apply State.wrBytes_keeps | exact keeps_refl _ | apply keepsOut_next | apply keeps_ite | apply keeps_ite_fst | apply keeps_ite_snd | split | intro _ | simp only [keeps_mk] | dsimp only))

theorem execAgeIncrement_keeps {σ s : State} (h : Keeps σ s) (k : Nat) :
    KeepsOut σ (execAgeIncrement k s) := by
  unfold execAgeIncrement
  with_reducible (repeat' (first | exact h | assumption | exact keeps_refl _ | apply keepsOut_next | apply keeps_ite | apply keeps_ite_fst | apply keeps_ite_snd | split | intro _ | simp only [keeps_mk] | dsimp only))

theorem execMeshPacketArrive_keeps {σ s : State} (h : Keeps σ s) (p : MeshPkt) :
    KeepsOut σ (execMeshPacketArrive p s) := by
  unfold execMeshPacketArrive
  with_reducible (repeat' (first | exact h | assumption | apply State.emit_keeps | exact keeps_refl _ | apply keepsOut_next | apply keeps_ite | apply keeps_ite_fst | apply keeps_ite_snd | split | intro _ | simp only [keeps_mk] | dsimp only))

theorem execDramReadArrive_keeps {σ s : State} (h : Keeps σ s) (st : Fin 8) (req : BitVec 16) (i : Fin 64) (gen : BitVec 8) (addr : BitVec 40) :
    KeepsOut σ (execDramReadArrive st req i gen addr s) := by
  unfold execDramReadArrive
  with_reducible (repeat' (first | exact h | assumption | apply State.demand_keeps | apply State.readArrive_keeps | exact keeps_refl _ | apply keepsOut_next | apply keeps_ite | apply keeps_ite_fst | apply keeps_ite_snd | split | intro _ | simp only [keeps_mk] | dsimp only))

theorem execDramWriteArrive_keeps {σ s : State} (h : Keeps σ s) (st : Fin 8) (src : BitVec 16) (i : Fin 64) (gen : BitVec 8) (attempt : Option (BitVec 8)) (addr : BitVec 40) (data : List Byte) :
    KeepsOut σ (execDramWriteArrive st src i gen attempt addr data s) := by
  unfold execDramWriteArrive
  with_reducible (repeat' (first | exact h | assumption | apply State.demand_keeps | apply State.writeTake_keeps | apply State.journalLine_keeps | apply State.programError_keeps | exact keeps_refl _ | apply keepsOut_next | apply keeps_ite | apply keeps_ite_fst | apply keeps_ite_snd | split | intro _ | simp only [keeps_mk] | dsimp only))

theorem execMergeWindowExpire_keeps {σ s : State} (h : Keeps σ s) (st : Fin 8) (line : BitVec 34) :
    KeepsOut σ (execMergeWindowExpire st line s) := by
  unfold execMergeWindowExpire
  with_reducible (repeat' (first | exact h | assumption | apply State.setCtl_keeps | exact keeps_refl _ | apply keepsOut_next | apply keeps_ite | apply keeps_ite_fst | apply keeps_ite_snd | split | intro _ | simp only [keeps_mk] | dsimp only))

theorem State.retirePage_keeps {σ s : State} (h : Keeps σ s) (st : Nat) (page : Nat) :
    Keeps σ (State.retirePage s st page) := by
  unfold State.retirePage
  with_reducible (repeat' (first | exact h | assumption | apply State.report_keeps | apply State.setCtl_keeps | exact keeps_refl _ | apply keepsOut_next | apply keeps_ite | apply keeps_ite_fst | apply keeps_ite_snd | split | intro _ | simp only [keeps_mk] | dsimp only))

theorem State.spareRow_keeps {σ s : State} (h : Keeps σ s) (st : Nat) (row : Nat) :
    Keeps σ (State.spareRow s st row) := by
  unfold State.spareRow
  with_reducible (repeat' (first | exact h | assumption | apply State.setCtl_keeps | exact keeps_refl _ | apply keepsOut_next | apply keeps_ite | apply keeps_ite_fst | apply keeps_ite_snd | split | intro _ | simp only [keeps_mk] | dsimp only))

theorem State.correctedAt_keeps {σ s : State} (h : Keeps σ s) (st : Nat) (row : Nat) (page : Nat) :
    Keeps σ (State.correctedAt s st row page) := by
  unfold State.correctedAt
  with_reducible (repeat' (first | exact h | assumption | apply State.inc_keeps | apply State.setCtl_keeps | apply State.retirePage_keeps | apply State.spareRow_keeps | exact keeps_refl _ | apply keepsOut_next | apply keeps_ite | apply keeps_ite_fst | apply keeps_ite_snd | split | intro _ | simp only [keeps_mk] | dsimp only))

theorem State.replyRead_keeps {σ s : State} (h : Keeps σ s) (e : MergeEntry) :
    Keeps σ (State.replyRead s e) := by
  unfold State.replyRead
  with_reducible (repeat' (first | exact h | assumption | apply State.each_keeps | apply State.emit_keeps | exact keeps_refl _ | apply keepsOut_next | apply keeps_ite | apply keeps_ite_fst | apply keeps_ite_snd | split | intro _ | simp only [keeps_mk] | dsimp only))

theorem State.uncorrectable_keeps {σ s : State} (h : Keeps σ s) (st : Nat) (k : Nat) (e : MergeEntry) (use : ReadUse) (again : Bool) :
    Keeps σ (State.uncorrectable s st k e use again) := by
  unfold State.uncorrectable
  with_reducible (repeat' (first | exact h | assumption | apply State.retirePage_keeps | apply State.inc_keeps | apply State.setCtl_keeps | apply State.dataLost_keeps | apply State.report_keeps | apply State.emit_keeps | exact keeps_refl _ | apply keepsOut_next | apply keeps_ite | apply keeps_ite_fst | apply keeps_ite_snd | split | intro _ | simp only [keeps_mk] | dsimp only))

theorem execDramReadComplete_keeps {σ s : State} (h : Keeps σ s) (st : Fin 8) (k : Nat) (ecc : Ecc) (row : Nat) (pc : Nat) (retries : Nat) (use : ReadUse) (again : Bool) :
    KeepsOut σ (execDramReadComplete st k ecc row pc retries use again s) := by
  unfold execDramReadComplete
  with_reducible (repeat' (first | exact h | assumption | apply State.incN_keeps | apply State.setCtl_keeps | apply State.replyRead_keeps | apply State.correctedAt_keeps | apply State.uncorrectable_keeps | exact keeps_refl _ | apply keepsOut_next | apply keeps_ite | apply keeps_ite_fst | apply keeps_ite_snd | split | intro _ | simp only [keeps_mk] | dsimp only))

theorem State.serveWaiting_keeps {σ s : State} (h : Keeps σ s) :
    Keeps σ (State.serveWaiting s) := by
  unfold State.serveWaiting
  with_reducible (repeat' (first | exact h | assumption | apply State.each_keeps | apply State.writeTake_keeps | apply State.readArrive_keeps | exact keeps_refl _ | apply keepsOut_next | apply keeps_ite | apply keeps_ite_fst | apply keeps_ite_snd | split | intro _ | simp only [keeps_mk] | dsimp only))

theorem State.checkPseudoChannel_keeps {σ s : State} (h : Keeps σ s) (st : Nat) (pc : Nat) (n : Nat) (limit : Nat) :
    Keeps σ (State.checkPseudoChannel s st pc n limit) := by
  unfold State.checkPseudoChannel
  with_reducible (repeat' (first | exact h | assumption | apply State.report_keeps | apply State.setF_keeps | exact keeps_refl _ | apply keepsOut_next | apply keeps_ite | apply keeps_ite_fst | apply keeps_ite_snd | split | intro _ | simp only [keeps_mk] | dsimp only))

theorem execPseudoChannelMigrateDone_keeps {σ s : State} (h : Keeps σ s) (st : Fin 8) :
    KeepsOut σ (execPseudoChannelMigrateDone st s) := by
  unfold execPseudoChannelMigrateDone
  with_reducible (repeat' (first | exact h | assumption | apply State.setF_keeps | exact keeps_refl _ | apply keepsOut_next | apply keeps_ite | apply keeps_ite_fst | apply keeps_ite_snd | split | intro _ | simp only [keeps_mk] | dsimp only))

theorem execPageRetirementDone_keeps {σ s : State} (h : Keeps σ s) (st : Fin 8) :
    KeepsOut σ (execPageRetirementDone st s) := by
  unfold execPageRetirementDone
  with_reducible (repeat' (first | exact h | assumption | apply State.setF_keeps | apply State.setCtl_keeps | apply State.serveWaiting_keeps | apply State.checkPseudoChannel_keeps | exact keeps_refl _ | apply keepsOut_next | apply keeps_ite | apply keeps_ite_fst | apply keeps_ite_snd | split | intro _ | simp only [keeps_mk] | dsimp only))

theorem execRowSwapDone_keeps {σ s : State} (h : Keeps σ s) (st : Fin 8) :
    KeepsOut σ (execRowSwapDone st s) := by
  unfold execRowSwapDone
  with_reducible (repeat' (first | exact h | assumption | apply State.inc_keeps | apply State.setCtl_keeps | apply State.serveWaiting_keeps | apply State.checkPseudoChannel_keeps | exact keeps_refl _ | apply keepsOut_next | apply keeps_ite | apply keeps_ite_fst | apply keeps_ite_snd | split | intro _ | simp only [keeps_mk] | dsimp only))

theorem execBridgeGroupFail_keeps {σ s : State} (h : Keeps σ s) (bridge : Fin 8) (link : Fin 2) (group : BitVec 8) :
    KeepsOut σ (execBridgeGroupFail bridge link group s) := by
  unfold execBridgeGroupFail
  with_reducible (repeat' (first | exact h | assumption | apply State.report_keeps | exact keeps_refl _ | apply keepsOut_next | apply keeps_ite | apply keeps_ite_fst | apply keeps_ite_snd | split | intro _ | simp only [keeps_mk] | dsimp only))

theorem State.zeroPage_keeps {σ s : State} (h : Keeps σ s) (p : Nat) :
    Keeps σ (State.zeroPage s p) := by
  exact keeps_filter h _

theorem execDramPageZeroed_keeps {σ s : State} (h : Keeps σ s) :
    KeepsOut σ (execDramPageZeroed s) := by
  unfold execDramPageZeroed
  with_reducible (repeat' (first | exact h | assumption | apply State.setF_keeps | apply State.zeroPage_keeps | apply State.each_keeps | apply State.serveWaiting_keeps | exact keeps_refl _ | apply keepsOut_next | apply keeps_ite | apply keeps_ite_fst | apply keeps_ite_snd | split | intro _ | simp only [keeps_mk] | dsimp only))

end Sys2Proof.Machine
end

