-- ==== Sys2Proof/Laws/KeepsStore.lean ====
section
/-! SUPPORT. The operations and commands of Machine/Store.lean leave the queue as it is, and keep memory and registers in their one form. -/

set_option linter.unusedTactic false
set_option linter.unreachableTactic false
set_option linter.unusedSimpArgs false

namespace Sys2Proof.Machine

theorem State.setLib_keeps {σ s : State} (h : Keeps σ s) (e : Nat) (x : LibEntry) :
    Keeps σ (State.setLib s e x) := by
  unfold State.setLib
  with_reducible (repeat' (first | exact h | assumption | exact keeps_refl _ | apply keepsOut_next | apply keeps_ite | apply keeps_ite_fst | apply keeps_ite_snd | split | intro _ | simp only [keeps_mk] | dsimp only))

theorem State.setBlock_keeps {σ s : State} (h : Keeps σ s) (b : Nat) (x : StoreBlock) :
    Keeps σ (State.setBlock s b x) := by
  unfold State.setBlock
  with_reducible (repeat' (first | exact h | assumption | exact keeps_refl _ | apply keepsOut_next | apply keeps_ite | apply keeps_ite_fst | apply keeps_ite_snd | split | intro _ | simp only [keeps_mk] | dsimp only))

theorem State.storeCounts_keeps {σ s : State} (h : Keeps σ s) :
    Keeps σ (State.storeCounts s) := by
  unfold State.storeCounts
  with_reducible (repeat' (first | exact h | assumption | apply State.wrg_keeps | apply State.setF_keeps | exact keeps_refl _ | apply keepsOut_next | apply keeps_ite | apply keeps_ite_fst | apply keeps_ite_snd | split | intro _ | simp only [keeps_mk] | dsimp only))

theorem State.placeEntry_keeps {σ s : State} (h : Keeps σ s) (e : Nat) (z0 : Nat) (z1 : Nat) :
    Keeps σ (State.placeEntry s e z0 z1) := by
  induction z0 generalizing e z1 s with
  | zero =>
    unfold State.placeEntry
    with_reducible (repeat' (first | exact h | assumption | apply ih | apply State.setBlock_keeps | exact keeps_refl _ | apply keepsOut_next | apply keeps_ite | apply keeps_ite_fst | apply keeps_ite_snd | split | intro _ | simp only [keeps_mk] | dsimp only))
  | succ f ih =>
    unfold State.placeEntry
    with_reducible (repeat' (first | exact h | assumption | apply ih | apply State.setBlock_keeps | exact keeps_refl _ | apply keepsOut_next | apply keeps_ite | apply keeps_ite_fst | apply keeps_ite_snd | split | intro _ | simp only [keeps_mk] | dsimp only))

theorem State.eraseBlocks_keeps {σ s : State} (h : Keeps σ s) (e : Nat) :
    Keeps σ (State.eraseBlocks s e) := by
  unfold State.eraseBlocks
  with_reducible (repeat' (first | exact h | assumption | apply State.each_keeps | apply State.setBlock_keeps | exact keeps_refl _ | apply keepsOut_next | apply keeps_ite | apply keeps_ite_fst | apply keeps_ite_snd | split | intro _ | simp only [keeps_mk] | dsimp only))

theorem State.libSettle_keeps {σ s : State} (h : Keeps σ s) (e : Nat) :
    Keeps σ (State.libSettle s e) := by
  unfold State.libSettle
  with_reducible (repeat' (first | exact h | assumption | apply State.setLib_keeps | apply State.eraseBlocks_keeps | exact keeps_refl _ | apply keepsOut_next | apply keeps_ite | apply keeps_ite_fst | apply keeps_ite_snd | split | intro _ | simp only [keeps_mk] | dsimp only))

theorem State.libUse_keeps {σ s : State} (h : Keeps σ s) (e : Nat) :
    Keeps σ (State.libUse s e) := by
  unfold State.libUse
  with_reducible (repeat' (first | exact h | assumption | apply State.setLib_keeps | exact keeps_refl _ | apply keepsOut_next | apply keeps_ite | apply keeps_ite_fst | apply keeps_ite_snd | split | intro _ | simp only [keeps_mk] | dsimp only))

theorem State.libRelease_keeps {σ s : State} (h : Keeps σ s) (e : Nat) :
    Keeps σ (State.libRelease s e) := by
  unfold State.libRelease
  with_reducible (repeat' (first | exact h | assumption | apply State.libSettle_keeps | apply State.setLib_keeps | exact keeps_refl _ | apply keepsOut_next | apply keeps_ite | apply keeps_ite_fst | apply keeps_ite_snd | split | intro _ | simp only [keeps_mk] | dsimp only))

theorem State.damage_keeps {σ s : State} (h : Keeps σ s) (e : Nat) (c : Nat) :
    Keeps σ (State.damage s e c) := by
  unfold State.damage
  with_reducible (repeat' (first | exact h | assumption | apply State.setLib_keeps | apply State.report_keeps | apply State.post_keeps | exact keeps_refl _ | apply keepsOut_next | apply keeps_ite | apply keeps_ite_fst | apply keeps_ite_snd | split | intro _ | simp only [keeps_mk] | dsimp only))

theorem State.maintBegin_keeps {σ s : State} (h : Keeps σ s) (cmd : Nat) :
    Keeps σ (State.maintBegin s cmd) := by
  unfold State.maintBegin
  with_reducible (repeat' (first | exact h | assumption | apply State.setF_keeps | exact keeps_refl _ | apply keepsOut_next | apply keeps_ite | apply keeps_ite_fst | apply keeps_ite_snd | split | intro _ | simp only [keeps_mk] | dsimp only))

theorem State.maintResult_keeps {σ s : State} (h : Keeps σ s) (r : Nat) :
    Keeps σ (State.maintResult s r) := by
  unfold State.maintResult
  with_reducible (repeat' (first | exact h | assumption | exact keeps_refl _ | apply keepsOut_next | apply keeps_ite | apply keeps_ite_fst | apply keeps_ite_snd | split | intro _ | simp only [keeps_mk] | dsimp only))

theorem State.maintEnd_keeps {σ s : State} (h : Keeps σ s) (r : Nat) :
    Keeps σ (State.maintEnd s r) := by
  unfold State.maintEnd
  with_reducible (repeat' (first | exact h | assumption | apply State.setF_keeps | apply State.irq_keeps | exact keeps_refl _ | apply keepsOut_next | apply keeps_ite | apply keeps_ite_fst | apply keeps_ite_snd | split | intro _ | simp only [keeps_mk] | dsimp only))

theorem State.eraseNow_keeps {σ s : State} (h : Keeps σ s) (failing : List Nat) (b : Nat) :
    Keeps σ (State.eraseNow s failing b) := by
  unfold State.eraseNow
  with_reducible (repeat' (first | exact h | assumption | apply State.setBlock_keeps | exact keeps_refl _ | apply keepsOut_next | apply keeps_ite | apply keeps_ite_fst | apply keeps_ite_snd | split | intro _ | simp only [keeps_mk] | dsimp only))

theorem State.storeEraseWork_keeps {σ s : State} (h : Keeps σ s) (failing : List Nat) (first : Nat) (n : Nat) :
    Keeps σ (State.storeEraseWork s failing first n) := by
  unfold State.storeEraseWork
  with_reducible (repeat' (first | exact h | assumption | apply State.each_keeps | apply State.eraseNow_keeps | apply State.maintResult_keeps | apply State.storeCounts_keeps | exact keeps_refl _ | apply keepsOut_next | apply keeps_ite | apply keeps_ite_fst | apply keeps_ite_snd | split | intro _ | simp only [keeps_mk] | dsimp only))

theorem State.storeFormatWork_keeps {σ s : State} (h : Keeps σ s) (failing : List Nat) :
    Keeps σ (State.storeFormatWork s failing) := by
  unfold State.storeFormatWork
  with_reducible (repeat' (first | exact h | assumption | apply State.each_keeps | apply State.eraseNow_keeps | apply State.maintResult_keeps | apply State.storeCounts_keeps | exact keeps_refl _ | apply keepsOut_next | apply keeps_ite | apply keeps_ite_fst | apply keeps_ite_snd | split | intro _ | simp only [keeps_mk] | dsimp only))

theorem execStoreErase_keeps {σ s : State} (h : Keeps σ s) (failing : List Nat) :
    KeepsOut σ (execStoreErase failing s) := by
  unfold execStoreErase
  with_reducible (repeat' (first | exact h | assumption | apply State.hostWrite_keeps | apply State.maintBegin_keeps | apply State.maintResult_keeps | apply State.storeEraseWork_keeps | exact keeps_refl _ | apply keepsOut_next | apply keeps_ite | apply keeps_ite_fst | apply keeps_ite_snd | split | intro _ | simp only [keeps_mk] | dsimp only))

theorem execStoreFormat_keeps {σ s : State} (h : Keeps σ s) (failing : List Nat) :
    KeepsOut σ (execStoreFormat failing s) := by
  unfold execStoreFormat
  with_reducible (repeat' (first | exact h | assumption | apply State.hostWrite_keeps | apply State.maintBegin_keeps | apply State.storeFormatWork_keeps | exact keeps_refl _ | apply keepsOut_next | apply keeps_ite | apply keeps_ite_fst | apply keeps_ite_snd | split | intro _ | simp only [keeps_mk] | dsimp only))

theorem State.countPages_keeps {σ s : State} (h : Keeps σ s) (p : PageReads) :
    Keeps σ (State.countPages s p) := by
  unfold State.countPages
  with_reducible (repeat' (first | exact h | assumption | apply State.incN_keeps | exact keeps_refl _ | apply keepsOut_next | apply keeps_ite | apply keeps_ite_fst | apply keeps_ite_snd | split | intro _ | simp only [keeps_mk] | dsimp only))

theorem execImageVerify_keeps {σ s : State} (h : Keeps σ s) (sigOk : Bool) (badChunks : List Nat) (pages : PageReads) :
    KeepsOut σ (execImageVerify sigOk badChunks pages s) := by
  unfold execImageVerify
  with_reducible (repeat' (first | exact h | assumption | apply State.hostWrite_keeps | apply State.countPages_keeps | apply State.maintBegin_keeps | apply State.maintResult_keeps | apply State.damage_keeps | apply State.each_keeps | exact keeps_refl _ | apply keepsOut_next | apply keeps_ite | apply keeps_ite_fst | apply keeps_ite_snd | split | intro _ | simp only [keeps_mk] | dsimp only))

theorem execMaintDone_keeps {σ s : State} (h : Keeps σ s) :
    KeepsOut σ (execMaintDone s) := by
  unfold execMaintDone
  with_reducible (repeat' (first | exact h | assumption | apply State.maintEnd_keeps | exact keeps_refl _ | apply keepsOut_next | apply keeps_ite | apply keeps_ite_fst | apply keeps_ite_snd | split | intro _ | simp only [keeps_mk] | dsimp only))

theorem execBlockEraseDone_keeps {σ s : State} (h : Keeps σ s) (block : Fin 131072) (intentOk : Bool) (blankFails : Nat) (erasedOk : Bool) :
    KeepsOut σ (execBlockEraseDone block intentOk blankFails erasedOk s) := by
  unfold execBlockEraseDone
  with_reducible (repeat' (first | exact h | assumption | apply State.eraseNow_keeps | apply State.storeCounts_keeps | exact keeps_refl _ | apply keepsOut_next | apply keeps_ite | apply keeps_ite_fst | apply keeps_ite_snd | split | intro _ | simp only [keeps_mk] | dsimp only))

theorem execRefreshDue_keeps {σ s : State} (h : Keeps σ s) (block : Fin 131072) (retire : Bool) (pages : PageReads) :
    KeepsOut σ (execRefreshDue block retire pages s) := by
  unfold execRefreshDue
  with_reducible (repeat' (first | exact h | assumption | apply State.countPages_keeps | apply State.inc_keeps | apply State.setBlock_keeps | apply State.storeCounts_keeps | exact keeps_refl _ | apply keepsOut_next | apply keeps_ite | apply keeps_ite_fst | apply keeps_ite_snd | split | intro _ | simp only [keeps_mk] | dsimp only))

theorem State.stwEnd_keeps {σ s : State} (h : Keeps σ s) (r : Nat) :
    Keeps σ (State.stwEnd s r) := by
  unfold State.stwEnd
  with_reducible (repeat' (first | exact h | assumption | apply State.setF_keeps | exact keeps_refl _ | apply keepsOut_next | apply keeps_ite | apply keeps_ite_fst | apply keeps_ite_snd | split | intro _ | simp only [keeps_mk] | dsimp only))

theorem State.stwWrite_keeps {σ s : State} (h : Keeps σ s) (v : Word) (sigOk : Bool) (digestsOk : Bool) :
    Keeps σ (State.stwWrite s v sigOk digestsOk) := by
  unfold State.stwWrite
  with_reducible (repeat' (first | exact h | assumption | apply State.plain_keeps | apply State.stwEnd_keeps | apply State.setF_keeps | exact keeps_refl _ | apply keepsOut_next | apply keeps_ite | apply keeps_ite_fst | apply keeps_ite_snd | split | intro _ | simp only [keeps_mk] | dsimp only))

theorem execEntryWrite_keeps {σ s : State} (h : Keeps σ s) (v : Word) (sigOk : Bool) (digestsOk : Bool) :
    KeepsOut σ (execEntryWrite v sigOk digestsOk s) := by
  unfold execEntryWrite
  with_reducible (repeat' (first | exact h | assumption | apply State.hostWrite_keeps | apply State.stwWrite_keeps | exact keeps_refl _ | apply keepsOut_next | apply keeps_ite | apply keeps_ite_fst | apply keeps_ite_snd | split | intro _ | simp only [keeps_mk] | dsimp only))

theorem State.commitEntry_keeps {σ s : State} (h : Keeps σ s) (e : Nat) :
    Keeps σ (State.commitEntry s e) := by
  unfold State.commitEntry
  with_reducible (repeat' (first | exact h | assumption | apply State.placeEntry_keeps | apply State.setLib_keeps | apply State.storeCounts_keeps | exact keeps_refl _ | apply keepsOut_next | apply keeps_ite | apply keeps_ite_fst | apply keeps_ite_snd | split | intro _ | simp only [keeps_mk] | dsimp only))

theorem State.maintResume_keeps {σ s : State} (h : Keeps σ s) :
    Keeps σ (State.maintResume s) := by
  unfold State.maintResume
  with_reducible (repeat' (first | exact h | assumption | apply State.storeEraseWork_keeps | apply State.storeFormatWork_keeps | exact keeps_refl _ | apply keepsOut_next | apply keeps_ite | apply keeps_ite_fst | apply keeps_ite_snd | split | intro _ | simp only [keeps_mk] | dsimp only))

theorem execEntryWriteDone_keeps {σ s : State} (h : Keeps σ s) (aborted : Bool) :
    KeepsOut σ (execEntryWriteDone aborted s) := by
  unfold execEntryWriteDone
  with_reducible (repeat' (first | exact h | assumption | apply State.maintResume_keeps | apply State.stwEnd_keeps | apply State.commitEntry_keeps | exact keeps_refl _ | apply keepsOut_next | apply keeps_ite | apply keeps_ite_fst | apply keeps_ite_snd | split | intro _ | simp only [keeps_mk] | dsimp only))

theorem State.libDeleteWrite_keeps {σ s : State} (h : Keeps σ s) (v : Word) :
    Keeps σ (State.libDeleteWrite s v) := by
  unfold State.libDeleteWrite
  with_reducible (repeat' (first | exact h | assumption | apply State.plain_keeps | apply State.setF_keeps | apply State.storeCounts_keeps | apply State.libSettle_keeps | apply State.setLib_keeps | exact keeps_refl _ | apply keepsOut_next | apply keeps_ite | apply keeps_ite_fst | apply keeps_ite_snd | split | intro _ | simp only [keeps_mk] | dsimp only))

theorem execLibDelete_keeps {σ s : State} (h : Keeps σ s) (v : Word) :
    KeepsOut σ (execLibDelete v s) := by
  unfold execLibDelete
  with_reducible (repeat' (first | exact h | assumption | apply State.hostWrite_keeps | apply State.libDeleteWrite_keeps | exact keeps_refl _ | apply keepsOut_next | apply keeps_ite | apply keeps_ite_fst | apply keeps_ite_snd | split | intro _ | simp only [keeps_mk] | dsimp only))

theorem State.keyCommit_keeps {σ s : State} (h : Keeps σ s) :
    Keeps σ (State.keyCommit s) := by
  unfold State.keyCommit
  with_reducible (repeat' (first | exact h | assumption | apply State.setF_keeps | exact keeps_refl _ | apply keepsOut_next | apply keeps_ite | apply keeps_ite_fst | apply keeps_ite_snd | split | intro _ | simp only [keeps_mk] | dsimp only))

theorem State.keyLock_keeps {σ s : State} (h : Keeps σ s) :
    Keeps σ (State.keyLock s) := by
  unfold State.keyLock
  with_reducible (repeat' (first | exact h | assumption | apply State.setF_keeps | exact keeps_refl _ | apply keepsOut_next | apply keeps_ite | apply keeps_ite_fst | apply keeps_ite_snd | split | intro _ | simp only [keeps_mk] | dsimp only))

theorem execKeyCommit_keeps {σ s : State} (h : Keeps σ s) :
    KeepsOut σ (execKeyCommit s) := by
  unfold execKeyCommit
  with_reducible (repeat' (first | exact h | assumption | apply State.hostWrite_keeps | apply State.keyCommit_keeps | exact keeps_refl _ | apply keepsOut_next | apply keeps_ite | apply keeps_ite_fst | apply keeps_ite_snd | split | intro _ | simp only [keeps_mk] | dsimp only))

theorem execKeyLock_keeps {σ s : State} (h : Keeps σ s) :
    KeepsOut σ (execKeyLock s) := by
  unfold execKeyLock
  with_reducible (repeat' (first | exact h | assumption | apply State.hostWrite_keeps | apply State.keyLock_keeps | exact keeps_refl _ | apply keepsOut_next | apply keeps_ite | apply keeps_ite_fst | apply keeps_ite_snd | split | intro _ | simp only [keeps_mk] | dsimp only))

theorem State.fetchArm_keeps {σ s : State} (h : Keeps σ s) (i : Nat) (v : Word) :
    Keeps σ (State.fetchArm s i v) := by
  unfold State.fetchArm
  with_reducible (repeat' (first | exact h | assumption | apply State.wrg_keeps | apply State.plain_keeps | apply State.setF_keeps | exact keeps_refl _ | apply keepsOut_next | apply keeps_ite | apply keeps_ite_fst | apply keeps_ite_snd | split | intro _ | simp only [keeps_mk] | dsimp only))

theorem execFetchArm_keeps {σ s : State} (h : Keeps σ s) (i : Fin 64) (v : Word) :
    KeepsOut σ (execFetchArm i v s) := by
  unfold execFetchArm
  with_reducible (repeat' (first | exact h | assumption | apply State.hostWrite_keeps | apply State.fetchArm_keeps | exact keeps_refl _ | apply keepsOut_next | apply keeps_ite | apply keeps_ite_fst | apply keeps_ite_snd | split | intro _ | simp only [keeps_mk] | dsimp only))

theorem State.fetchChunks_keeps {σ s : State} (h : Keeps σ s) (e : Nat) (first : Nat) (dst : Nat) (z0 : Nat) :
    Keeps σ (State.fetchChunks s e first dst z0) := by
  induction z0 generalizing e first dst s with
  | zero =>
    unfold State.fetchChunks
    with_reducible (repeat' (first | exact h | assumption | apply ih | apply State.wrBytes_keeps | exact keeps_refl _ | apply keepsOut_next | apply keeps_ite | apply keeps_ite_fst | apply keeps_ite_snd | split | intro _ | simp only [keeps_mk] | dsimp only))
  | succ f ih =>
    unfold State.fetchChunks
    with_reducible (repeat' (first | exact h | assumption | apply ih | apply State.wrBytes_keeps | exact keeps_refl _ | apply keepsOut_next | apply keeps_ite | apply keeps_ite_fst | apply keeps_ite_snd | split | intro _ | simp only [keeps_mk] | dsimp only))

theorem execFetchComplete_keeps {σ s : State} (h : Keeps σ s) (i : Fin 64) (sigOk : Bool) (badChunk : Option Nat) (pages : PageReads) :
    KeepsOut σ (execFetchComplete i sigOk badChunk pages s) := by
  unfold execFetchComplete
  with_reducible (repeat' (first | exact h | assumption | apply State.countPages_keeps | apply State.fetchChunks_keeps | apply State.damage_keeps | apply State.cplMismatch_keeps | apply State.wrBytes_keeps | apply State.inc_keeps | apply State.advancePc_keeps | exact keeps_refl _ | apply keepsOut_next | apply keeps_ite | apply keeps_ite_fst | apply keeps_ite_snd | split | intro _ | simp only [keeps_mk] | dsimp only))

end Sys2Proof.Machine
end

