-- ==== Sys2Proof/Laws/KeepsRings.lean ====
section
/-! SUPPORT. The operations and commands of Machine/Rings.lean leave the queue as it is, and keep memory and registers in their one form. -/

set_option linter.unusedTactic false
set_option linter.unreachableTactic false
set_option linter.unusedSimpArgs false

namespace Sys2Proof.Machine

theorem State.wakeTrigger_keeps {σ s : State} (h : Keeps σ s) :
    Keeps σ (State.wakeTrigger s) := by
  unfold State.wakeTrigger
  with_reducible (repeat' (first | exact h | assumption | apply State.setF_keeps | exact keeps_refl _ | apply keepsOut_next | apply keeps_ite | apply keeps_ite_fst | apply keeps_ite_snd | split | intro _ | simp only [keeps_mk] | dsimp only))

theorem State.bar2_keeps {σ s : State} (h : Keeps σ s) (i : Nat) (f : State → State) (hf : ∀ u0, Keeps u0 (f u0)) :
    Keeps σ (State.bar2 s i f) := by
  unfold State.bar2
  with_reducible (repeat' (first | exact h | assumption | refine keeps_trans ?_ (hf _) | apply State.inc_keeps | exact keeps_refl _ | apply keepsOut_next | apply keeps_ite | apply keeps_ite_fst | apply keeps_ite_snd | split | intro _ | simp only [keeps_mk] | dsimp only))

theorem State.badBell_keeps {σ s : State} (h : Keeps σ s) (i : Nat) :
    Keeps σ (State.badBell s i) := by
  unfold State.badBell
  with_reducible (repeat' (first | exact h | assumption | apply State.irq_keeps | apply State.cplMismatch_keeps | exact keeps_refl _ | apply keepsOut_next | apply keeps_ite | apply keeps_ite_fst | apply keeps_ite_snd | split | intro _ | simp only [keeps_mk] | dsimp only))

theorem State.rangeError_keeps {σ s : State} (h : Keeps σ s) (r : Nat) (i : Nat) (code : Nat) :
    Keeps σ (State.rangeError s r i code) := by
  unfold State.rangeError
  with_reducible (repeat' (first | exact h | assumption | apply State.irq_keeps | apply State.instEvent_keeps | apply State.setF_keeps | apply State.inc_keeps | exact keeps_refl _ | apply keepsOut_next | apply keeps_ite | apply keeps_ite_fst | apply keeps_ite_snd | split | intro _ | simp only [keeps_mk] | dsimp only))

theorem State.issueRead_keeps {σ s : State} (h : Keeps σ s) (use : ReadOf) (inst : Nat) (safe : Bool) :
    Keeps σ (State.issueRead s use inst safe) := by
  unfold State.issueRead
  with_reducible (repeat' (first | exact h | assumption | apply State.emit_keeps | exact keeps_refl _ | apply keepsOut_next | apply keeps_ite | apply keeps_ite_fst | apply keeps_ite_snd | split | intro _ | simp only [keeps_mk] | dsimp only))

theorem State.endRead_keeps {σ s : State} (h : Keeps σ s) (use : ReadOf) :
    Keeps σ (State.endRead s use) := by
  unfold State.endRead
  with_reducible (repeat' (first | exact h | assumption | exact keeps_refl _ | apply keepsOut_next | apply keeps_ite | apply keeps_ite_fst | apply keeps_ite_snd | split | intro _ | simp only [keeps_mk] | dsimp only))

theorem State.issueFetch_keeps {σ s : State} (h : Keeps σ s) (r : Nat) :
    Keeps σ (State.issueFetch s r) := by
  unfold State.issueFetch
  with_reducible (repeat' (first | exact h | assumption | apply State.issueRead_keeps | exact keeps_refl _ | apply keepsOut_next | apply keeps_ite | apply keeps_ite_fst | apply keeps_ite_snd | split | intro _ | simp only [keeps_mk] | dsimp only))

theorem State.newTail_keeps {σ s : State} (h : Keeps σ s) (r : Nat) (t : Word) :
    Keeps σ (State.newTail s r t) := by
  unfold State.newTail
  with_reducible (repeat' (first | exact h | assumption | apply State.wakeTrigger_keeps | apply State.issueFetch_keeps | apply State.setRing_keeps | apply State.wrg_keeps | exact keeps_refl _ | apply keepsOut_next | apply keeps_ite | apply keeps_ite_fst | apply keeps_ite_snd | split | intro _ | simp only [keeps_mk] | dsimp only))

theorem State.sqBell_keeps {σ s : State} (h : Keeps σ s) (i : Nat) (loc : Nat) (bytes : Nat) (v : BitVec 64) (f : State → Nat → Word → State) (hf : ∀ u0 u1 u2, Keeps u0 (f u0 u1 u2)) :
    Keeps σ (State.sqBell s i loc bytes v f) := by
  unfold State.sqBell
  with_reducible (repeat' (first | exact h | assumption | refine keeps_trans ?_ (hf _ _ _) | apply State.bar2_keeps | apply State.badBell_keeps | apply State.rangeError_keeps | exact keeps_refl _ | apply keepsOut_next | apply keeps_ite | apply keeps_ite_fst | apply keeps_ite_snd | split | intro _ | simp only [keeps_mk] | dsimp only))

theorem execSqDoorbell_keeps {σ s : State} (h : Keeps σ s) (i : Fin 64) (loc : Fin 64) (bytes : Nat) (v : BitVec 64) :
    KeepsOut σ (execSqDoorbell i loc bytes v s) := by
  unfold execSqDoorbell
  with_reducible (repeat' (first | exact h | assumption | apply State.sqBell_keeps | apply State.newTail_keeps | exact keeps_refl _ | apply keepsOut_next | apply keeps_ite | apply keeps_ite_fst | apply keeps_ite_snd | split | intro _ | simp only [keeps_mk] | dsimp only))

theorem execStagedTailWrite_keeps {σ s : State} (h : Keeps σ s) (i : Fin 64) (loc : Fin 64) (bytes : Nat) (v : BitVec 64) :
    KeepsOut σ (execStagedTailWrite i loc bytes v s) := by
  unfold execStagedTailWrite
  with_reducible (repeat' (first | exact h | assumption | apply State.sqBell_keeps | apply State.setRing_keeps | exact keeps_refl _ | apply keepsOut_next | apply keeps_ite | apply keeps_ite_fst | apply keeps_ite_snd | split | intro _ | simp only [keeps_mk] | dsimp only))

theorem State.showRoom_keeps {σ s : State} (h : Keeps σ s) (c : Nat) :
    Keeps σ (State.showRoom s c) := by
  unfold State.showRoom
  with_reducible (repeat' (first | exact h | assumption | apply State.setF_keeps | exact keeps_refl _ | apply keepsOut_next | apply keeps_ite | apply keeps_ite_fst | apply keeps_ite_snd | split | intro _ | simp only [keeps_mk] | dsimp only))

theorem execCqDoorbell_keeps {σ s : State} (h : Keeps σ s) (i : Fin 64) (loc : Fin 64) (bytes : Nat) (v : BitVec 64) :
    KeepsOut σ (execCqDoorbell i loc bytes v s) := by
  unfold execCqDoorbell
  with_reducible (repeat' (first | exact h | assumption | apply State.bar2_keeps | apply State.badBell_keeps | apply State.wakeTrigger_keeps | apply State.showRoom_keeps | apply State.wrg_keeps | apply State.rangeError_keeps | exact keeps_refl _ | apply keepsOut_next | apply keeps_ite | apply keeps_ite_fst | apply keeps_ite_snd | split | intro _ | simp only [keeps_mk] | dsimp only))

theorem State.takeFetched_keeps {σ s : State} (h : Keeps σ s) (r : Nat) (ws : List Word) (reject : Nat) :
    Keeps σ (State.takeFetched s r ws reject) := by
  unfold State.takeFetched
  with_reducible (repeat' (first | exact h | assumption | apply State.setDesc_keeps | apply State.issueFetch_keeps | apply State.endRead_keeps | apply State.setRing_keeps | exact keeps_refl _ | apply keepsOut_next | apply keeps_ite | apply keeps_ite_fst | apply keeps_ite_snd | split | intro _ | simp only [keeps_mk] | dsimp only))

theorem execDescriptorFetch_keeps {σ s : State} (h : Keeps σ s) (ring : Fin 4096) (words : List Word) :
    KeepsOut σ (execDescriptorFetch ring words s) := by
  unfold execDescriptorFetch
  with_reducible (repeat' (first | exact h | assumption | apply State.takeFetched_keeps | apply State.cplMismatch_keeps | apply State.issueFetch_keeps | apply State.endRead_keeps | apply State.setRing_keeps | exact keeps_refl _ | apply keepsOut_next | apply keeps_ite | apply keeps_ite_fst | apply keeps_ite_snd | split | intro _ | simp only [keeps_mk] | dsimp only))

theorem State.admit_keeps {σ s : State} (h : Keeps σ s) (id : Nat) :
    Keeps σ (State.admitOne s id) := by
  unfold State.admitOne
  with_reducible (repeat' (first | exact h | assumption | apply State.setDesc_keeps | apply State.showRoom_keeps | apply State.setRing_keeps | apply State.inc_keeps | apply State.issueRead_keeps | exact keeps_refl _ | apply keepsOut_next | apply keeps_ite | apply keeps_ite_fst | apply keeps_ite_snd | split | intro _ | simp only [keeps_mk] | dsimp only))

theorem execDescriptorAdmit_keeps {σ s : State} (h : Keeps σ s) (ring : Fin 4096) :
    KeepsOut σ (execDescriptorAdmit ring s) := by
  unfold execDescriptorAdmit
  with_reducible (repeat' (first | exact h | assumption | apply State.admit_keeps | exact keeps_refl _ | apply keepsOut_next | apply keeps_ite | apply keeps_ite_fst | apply keeps_ite_snd | split | intro _ | simp only [keeps_mk] | dsimp only))

theorem State.work_keeps {σ s : State} (h : Keeps σ s) (ring : Nat) (pos : Word) (op : Nat) (f : State → Nat → Desc → State) (hf : ∀ u0 u1 u2, Keeps u0 (f u0 u1 u2)) :
    Keeps σ (State.work s ring pos op f) := by
  unfold State.work
  with_reducible (repeat' (first | exact h | assumption | refine keeps_trans ?_ (hf _ _ _) | exact keeps_refl _ | apply keepsOut_next | apply keeps_ite | apply keeps_ite_fst | apply keeps_ite_snd | split | intro _ | simp only [keeps_mk] | dsimp only))

theorem State.endDesc_keeps {σ s : State} (h : Keeps σ s) (id : Nat) (status : Nat) (detail : Nat) :
    Keeps σ (State.endDesc s id status detail) := by
  unfold State.endDesc
  with_reducible (repeat' (first | exact h | assumption | apply State.setDesc_keeps | apply State.endRead_keeps | exact keeps_refl _ | apply keepsOut_next | apply keeps_ite | apply keeps_ite_fst | apply keeps_ite_snd | split | intro _ | simp only [keeps_mk] | dsimp only))

theorem execRun_keeps {σ s : State} (h : Keeps σ s) (ring : Fin 4096) (pos : Word) :
    KeepsOut σ (execRun ring pos s) := by
  unfold execRun
  with_reducible (repeat' (first | exact h | assumption | apply State.work_keeps | apply State.endDesc_keeps | apply State.setDesc_keeps | apply State.setSeq_keeps | exact keeps_refl _ | apply keepsOut_next | apply keeps_ite | apply keeps_ite_fst | apply keeps_ite_snd | split | intro _ | simp only [keeps_mk] | dsimp only))

theorem execCopyIn_keeps {σ s : State} (h : Keeps σ s) (ring : Fin 4096) (pos : Word) (data : List Byte) :
    KeepsOut σ (execCopyIn ring pos data s) := by
  unfold execCopyIn
  with_reducible (repeat' (first | exact h | assumption | apply State.work_keeps | apply State.endDesc_keeps | apply State.demand_keeps | apply State.hubWrite_keeps | exact keeps_refl _ | apply keepsOut_next | apply keeps_ite | apply keeps_ite_fst | apply keeps_ite_snd | split | intro _ | simp only [keeps_mk] | dsimp only))

theorem execCopyOut_keeps {σ s : State} (h : Keeps σ s) (ring : Fin 4096) (pos : Word) :
    KeepsOut σ (execCopyOut ring pos s) := by
  unfold execCopyOut
  with_reducible (repeat' (first | exact h | assumption | apply State.work_keeps | apply State.endDesc_keeps | apply State.demand_keeps | apply State.emit_keeps | exact keeps_refl _ | apply keepsOut_next | apply keeps_ite | apply keeps_ite_fst | apply keeps_ite_snd | split | intro _ | simp only [keeps_mk] | dsimp only))

theorem execSignal_keeps {σ s : State} (h : Keeps σ s) (ring : Fin 4096) (pos : Word) :
    KeepsOut σ (execSignal ring pos s) := by
  unfold execSignal
  with_reducible (repeat' (first | exact h | assumption | apply State.work_keeps | apply State.endDesc_keeps | apply State.advancePc_keeps | exact keeps_refl _ | apply keepsOut_next | apply keeps_ite | apply keeps_ite_fst | apply keeps_ite_snd | split | intro _ | simp only [keeps_mk] | dsimp only))

theorem execWait_keeps {σ s : State} (h : Keeps σ s) (ring : Fin 4096) (pos : Word) :
    KeepsOut σ (execWait ring pos s) := by
  unfold execWait
  with_reducible (repeat' (first | exact h | assumption | apply State.work_keeps | apply State.endDesc_keeps | apply State.setDesc_keeps | apply State.traceStart_keeps | exact keeps_refl _ | apply keepsOut_next | apply keeps_ite | apply keeps_ite_fst | apply keeps_ite_snd | split | intro _ | simp only [keeps_mk] | dsimp only))

theorem execWaitTimeout_keeps {σ s : State} (h : Keeps σ s) (ring : Fin 4096) (pos : Word) :
    KeepsOut σ (execWaitTimeout ring pos s) := by
  unfold execWaitTimeout
  with_reducible (repeat' (first | exact h | assumption | apply State.endDesc_keeps | apply State.traceEnd_keeps | exact keeps_refl _ | apply keepsOut_next | apply keeps_ite | apply keeps_ite_fst | apply keeps_ite_snd | split | intro _ | simp only [keeps_mk] | dsimp only))

theorem execFence_keeps {σ s : State} (h : Keeps σ s) (ring : Fin 4096) (pos : Word) :
    KeepsOut σ (execFence ring pos s) := by
  unfold execFence
  with_reducible (repeat' (first | exact h | assumption | apply State.work_keeps | apply State.endDesc_keeps | exact keeps_refl _ | apply keepsOut_next | apply keeps_ite | apply keeps_ite_fst | apply keeps_ite_snd | split | intro _ | simp only [keeps_mk] | dsimp only))

theorem State.cqIrq_keeps {σ s : State} (h : Keeps σ s) (c : Nat) :
    Keeps σ (State.cqIrq s c) := by
  unfold State.cqIrq
  with_reducible (repeat' (first | exact h | assumption | apply State.setRing_keeps | apply State.msix_keeps | exact keeps_refl _ | apply keepsOut_next | apply keeps_ite | apply keeps_ite_fst | apply keeps_ite_snd | split | intro _ | simp only [keeps_mk] | dsimp only))

theorem State.coalesce_keeps {σ s : State} (h : Keeps σ s) (c : Nat) (irqBit : Bool) :
    Keeps σ (State.coalesce s c irqBit) := by
  unfold State.coalesce
  with_reducible (repeat' (first | exact h | assumption | apply State.setRing_keeps | apply State.cqIrq_keeps | exact keeps_refl _ | apply keepsOut_next | apply keeps_ite | apply keeps_ite_fst | apply keeps_ite_snd | split | intro _ | simp only [keeps_mk] | dsimp only))

theorem State.postSignal_keeps {σ s : State} (h : Keeps σ s) (id : Nat) :
    Keeps σ (State.postSignal s id) := by
  unfold State.postSignal
  with_reducible (repeat' (first | exact h | assumption | apply State.advancePc_keeps | apply State.setDesc_keeps | exact keeps_refl _ | apply keepsOut_next | apply keeps_ite | apply keeps_ite_fst | apply keeps_ite_snd | split | intro _ | simp only [keeps_mk] | dsimp only))

theorem State.complete_keeps {σ s : State} (h : Keeps σ s) (id : Nat) :
    Keeps σ (State.complete s id) := by
  unfold State.complete
  with_reducible (repeat' (first | exact h | assumption | apply State.postSignal_keeps | apply State.coalesce_keeps | apply State.inc_keeps | apply State.emit_keeps | apply State.setRing_keeps | apply State.showRoom_keeps | exact keeps_refl _ | apply keepsOut_next | apply keeps_ite | apply keeps_ite_fst | apply keeps_ite_snd | split | intro _ | simp only [keeps_mk] | dsimp only))

theorem execDescriptorComplete_keeps {σ s : State} (h : Keeps σ s) (ring : Fin 4096) (pos : Word) :
    KeepsOut σ (execDescriptorComplete ring pos s) := by
  unfold execDescriptorComplete
  with_reducible (repeat' (first | exact h | assumption | apply State.complete_keeps | exact keeps_refl _ | apply keepsOut_next | apply keeps_ite | apply keeps_ite_fst | apply keeps_ite_snd | split | intro _ | simp only [keeps_mk] | dsimp only))

theorem execCoalTimer_keeps {σ s : State} (h : Keeps σ s) (ring : Fin 4096) :
    KeepsOut σ (execCoalTimer ring s) := by
  unfold execCoalTimer
  with_reducible (repeat' (first | exact h | assumption | apply State.cqIrq_keeps | exact keeps_refl _ | apply keepsOut_next | apply keeps_ite | apply keeps_ite_fst | apply keeps_ite_snd | split | intro _ | simp only [keeps_mk] | dsimp only))

theorem State.quarantineTag_keeps {σ s : State} (h : Keeps σ s) (tag : Nat) :
    Keeps σ (State.quarantineTag s tag) := by
  unfold State.quarantineTag
  with_reducible (repeat' (first | exact h | assumption | apply State.setF_keeps | exact keeps_refl _ | apply keepsOut_next | apply keeps_ite | apply keeps_ite_fst | apply keeps_ite_snd | split | intro _ | simp only [keeps_mk] | dsimp only))

theorem execLateCompletion_keeps {σ s : State} (h : Keeps σ s) (tag : Fin 16384) :
    KeepsOut σ (execLateCompletion tag s) := by
  unfold execLateCompletion
  with_reducible (repeat' (first | exact h | assumption | apply State.irq_keeps | apply State.inc_keeps | exact keeps_refl _ | apply keepsOut_next | apply keeps_ite | apply keeps_ite_fst | apply keeps_ite_snd | split | intro _ | simp only [keeps_mk] | dsimp only))

theorem execTagQuarantineExpire_keeps {σ s : State} (h : Keeps σ s) (tag : Fin 16384) :
    KeepsOut σ (execTagQuarantineExpire tag s) := by
  unfold execTagQuarantineExpire
  with_reducible (repeat' (first | exact h | assumption | apply State.setF_keeps | exact keeps_refl _ | apply keepsOut_next | apply keeps_ite | apply keeps_ite_fst | apply keeps_ite_snd | split | intro _ | simp only [keeps_mk] | dsimp only))

theorem execBar4Access_keeps {σ s : State} (h : Keeps σ s) (write : Bool) (off : BitVec 36) (len : Nat) (data : List Byte) (uncorrectable : Bool) :
    KeepsOut σ (execBar4Access write off len data uncorrectable s) := by
  unfold execBar4Access
  with_reducible (repeat' (first | exact h | assumption | apply State.inc_keeps | apply State.emit_keeps | apply State.wakeTrigger_keeps | apply State.demand_keeps | apply State.wrBytes_keeps | exact keeps_refl _ | apply keepsOut_next | apply keeps_ite | apply keeps_ite_fst | apply keeps_ite_snd | split | intro _ | simp only [keeps_mk] | dsimp only))

theorem execCounterSignal_keeps {σ s : State} (h : Keeps σ s) (i : Fin 64) (c : Fin 4096) (bytes : Nat) (v : BitVec 64) :
    KeepsOut σ (execCounterSignal i c bytes v s) := by
  unfold execCounterSignal
  with_reducible (repeat' (first | exact h | assumption | apply State.bar2_keeps | apply State.cplMismatch_keeps | apply State.inc_keeps | apply State.advancePc_keeps | exact keeps_refl _ | apply keepsOut_next | apply keeps_ite | apply keeps_ite_fst | apply keeps_ite_snd | split | intro _ | simp only [keeps_mk] | dsimp only))

theorem State.ringStart_keeps {σ s : State} (h : Keeps σ s) (r : Nat) (sq : Bool) (cq : Bool) :
    Keeps σ (State.ringStart s r sq cq) := by
  unfold State.ringStart
  with_reducible (repeat' (first | exact h | assumption | apply State.wrg_keeps | apply State.setRing_keeps | exact keeps_refl _ | apply keepsOut_next | apply keeps_ite | apply keeps_ite_fst | apply keeps_ite_snd | split | intro _ | simp only [keeps_mk] | dsimp only))

theorem State.rcWrite_keeps {σ s : State} (h : Keeps σ s) (r : Nat) (word : Nat) (v : Word) (vfEnabled : Bool) :
    Keeps σ (State.rcWrite s r word v vfEnabled) := by
  unfold State.rcWrite
  with_reducible (repeat' (first | exact h | assumption | apply State.instEvent_keeps | apply State.setF_keeps | apply State.ringStart_keeps | apply State.plain_keeps | apply State.endRead_keeps | exact keeps_refl _ | apply keepsOut_next | apply keeps_ite | apply keeps_ite_fst | apply keeps_ite_snd | split | intro _ | simp only [keeps_mk] | dsimp only))

theorem execRingContextWrite_keeps {σ s : State} (h : Keeps σ s) (ring : Fin 4096) (word : Fin 16) (v : Word) (vfEnabled : Bool) :
    KeepsOut σ (execRingContextWrite ring word v vfEnabled s) := by
  unfold execRingContextWrite
  with_reducible (repeat' (first | exact h | assumption | apply State.hostWrite_keeps | apply State.rcWrite_keeps | exact keeps_refl _ | apply keepsOut_next | apply keeps_ite | apply keeps_ite_fst | apply keeps_ite_snd | split | intro _ | simp only [keeps_mk] | dsimp only))

theorem State.windowWrite_keeps {σ s : State} (h : Keeps σ s) (i : Nat) (w : Nat) (size : Bool) (v : Word) :
    Keeps σ (State.windowWrite s i w size v) := by
  unfold State.windowWrite
  with_reducible (repeat' (first | exact h | assumption | apply State.setF_keeps | apply State.plain_keeps | exact keeps_refl _ | apply keepsOut_next | apply keeps_ite | apply keeps_ite_fst | apply keeps_ite_snd | split | intro _ | simp only [keeps_mk] | dsimp only))

theorem execWindowWrite_keeps {σ s : State} (h : Keeps σ s) (i : Fin 64) (w : Fin 8) (size : Bool) (v : Word) :
    KeepsOut σ (execWindowWrite i w size v s) := by
  unfold execWindowWrite
  with_reducible (repeat' (first | exact h | assumption | apply State.hostWrite_keeps | apply State.windowWrite_keeps | exact keeps_refl _ | apply keepsOut_next | apply keeps_ite | apply keeps_ite_fst | apply keeps_ite_snd | split | intro _ | simp only [keeps_mk] | dsimp only))

end Sys2Proof.Machine
end

