-- ==== Sys2Proof/Laws/KeepsFlarid.lean ====
section
/-! SUPPORT. The operations and commands of Machine/Flarid.lean leave the queue as it is, and keep memory and registers in their one form. -/

set_option linter.unusedTactic false
set_option linter.unreachableTactic false
set_option linter.unusedSimpArgs false

namespace Sys2Proof.Machine

theorem State.setPort_keeps {σ s : State} (h : Keeps σ s) (p : Nat) (x : PortSt) :
    Keeps σ (State.setPort s p x) := by
  unfold State.setPort
  with_reducible (repeat' (first | exact h | assumption | exact keeps_refl _ | apply keepsOut_next | apply keeps_ite | apply keeps_ite_fst | apply keeps_ite_snd | split | intro _ | simp only [keeps_mk] | dsimp only))

theorem State.flEvent_keeps {σ s : State} (h : Keeps σ s) (x : Fld) :
    Keeps σ (State.flEvent s x) := by
  unfold State.flEvent
  with_reducible (repeat' (first | exact h | assumption | apply State.irq_keeps | apply State.setF_keeps | exact keeps_refl _ | apply keepsOut_next | apply keeps_ite | apply keeps_ite_fst | apply keeps_ite_snd | split | intro _ | simp only [keeps_mk] | dsimp only))

theorem State.limit10_keeps {σ s : State} (h : Keeps σ s) (key : Nat) (f : State → State) (hf : ∀ u0, Keeps u0 (f u0)) :
    Keeps σ (State.limit10 s key f) := by
  unfold State.limit10
  with_reducible (repeat' (first | exact h | assumption | refine keeps_trans ?_ (hf _) | exact keeps_refl _ | apply keepsOut_next | apply keeps_ite | apply keeps_ite_fst | apply keeps_ite_snd | split | intro _ | simp only [keeps_mk] | dsimp only))

theorem State.launch_keeps {σ s : State} (h : Keeps σ s) (q : Nat) (p : FlPacket) :
    Keeps σ (State.launch s q p) := by
  unfold State.launch
  with_reducible (repeat' (first | exact h | assumption | apply State.setPort_keeps | apply State.emit_keeps | apply State.cond_keeps | apply State.inc_keeps | exact keeps_refl _ | apply keepsOut_next | apply keeps_ite | apply keeps_ite_fst | apply keeps_ite_snd | split | intro _ | simp only [keeps_mk] | dsimp only))

theorem State.depart_keeps {σ s : State} (h : Keeps σ s) (q : Nat) (p : FlPacket) :
    Keeps σ (State.depart s q p) := by
  unfold State.depart
  with_reducible (repeat' (first | exact h | assumption | apply State.launch_keeps | apply State.setPort_keeps | exact keeps_refl _ | apply keepsOut_next | apply keeps_ite | apply keeps_ite_fst | apply keeps_ite_snd | split | intro _ | simp only [keeps_mk] | dsimp only))

theorem State.drainVc_keeps {σ s : State} (h : Keeps σ s) (q : Nat) (v : Nat) (z0 : Nat) :
    Keeps σ (State.drainVc s q v z0) := by
  induction z0 generalizing q v s with
  | zero =>
    unfold State.drainVc
    with_reducible (repeat' (first | exact h | assumption | apply ih | apply State.setPort_keeps | apply State.launch_keeps | exact keeps_refl _ | apply keepsOut_next | apply keeps_ite | apply keeps_ite_fst | apply keeps_ite_snd | split | intro _ | simp only [keeps_mk] | dsimp only))
  | succ f ih =>
    unfold State.drainVc
    with_reducible (repeat' (first | exact h | assumption | apply ih | apply State.setPort_keeps | apply State.launch_keeps | exact keeps_refl _ | apply keepsOut_next | apply keeps_ite | apply keeps_ite_fst | apply keeps_ite_snd | split | intro _ | simp only [keeps_mk] | dsimp only))

theorem State.drain_keeps {σ s : State} (h : Keeps σ s) (q : Nat) :
    Keeps σ (State.drain s q) := by
  unfold State.drain
  with_reducible (repeat' (first | exact h | assumption | apply State.each_keeps | apply State.drainVc_keeps | exact keeps_refl _ | apply keepsOut_next | apply keeps_ite | apply keeps_ite_fst | apply keeps_ite_snd | split | intro _ | simp only [keeps_mk] | dsimp only))

theorem State.partReject_keeps {σ s : State} (h : Keeps σ s) (q : Nat) :
    Keeps σ (State.partReject s q) := by
  unfold State.partReject
  with_reducible (repeat' (first | exact h | assumption | apply State.limit10_keeps | apply State.inc_keeps | apply State.postOpen_keeps | exact keeps_refl _ | apply keepsOut_next | apply keeps_ite | apply keeps_ite_fst | apply keeps_ite_snd | split | intro _ | simp only [keeps_mk] | dsimp only))

theorem State.answer_keeps {σ s : State} (h : Keeps σ s) (r : FlPacket) :
    Keeps σ (State.answer s r) := by
  unfold State.answer
  with_reducible (repeat' (first | exact h | assumption | apply State.partReject_keeps | apply State.depart_keeps | exact keeps_refl _ | apply keepsOut_next | apply keeps_ite | apply keeps_ite_fst | apply keeps_ite_snd | split | intro _ | simp only [keeps_mk] | dsimp only))

theorem State.nack_keeps {σ s : State} (h : Keeps σ s) (p : FlPacket) (reason : Nat) :
    Keeps σ (State.nack s p reason) := by
  unfold State.nack
  with_reducible (repeat' (first | exact h | assumption | apply State.answer_keeps | exact keeps_refl _ | apply keepsOut_next | apply keeps_ite | apply keeps_ite_fst | apply keeps_ite_snd | split | intro _ | simp only [keeps_mk] | dsimp only))

theorem State.setRouteEnt_keeps {σ s : State} (h : Keeps σ s) (d : Nat) (e : RouteEnt) :
    Keeps σ (State.setRouteEnt s d e) := by
  unfold State.setRouteEnt
  with_reducible (repeat' (first | exact h | assumption | exact keeps_refl _ | apply keepsOut_next | apply keeps_ite | apply keeps_ite_fst | apply keeps_ite_snd | split | intro _ | simp only [keeps_mk] | dsimp only))

theorem State.suspect_keeps {σ s : State} (h : Keeps σ s) (pkg : Nat) (stop : Nat) (send : State → State) (hsend : ∀ u0, Keeps u0 (send u0)) :
    Keeps σ (State.suspect s pkg stop send) := by
  unfold State.suspect
  with_reducible (repeat' (first | exact h | assumption | refine keeps_trans ?_ (hsend _) | apply State.post_keeps | apply State.report_keeps | apply State.limit10_keeps | exact keeps_refl _ | apply keepsOut_next | apply keeps_ite | apply keeps_ite_fst | apply keeps_ite_snd | split | intro _ | simp only [keeps_mk] | dsimp only))

theorem State.sendOwn_keeps {σ s : State} (h : Keeps σ s) (dst : Nat) (argLo : Nat) (argHi : Nat) (origin : Nat) (tag : Nat) :
    Keeps σ (State.sendOwn s dst argLo argHi origin tag) := by
  unfold State.sendOwn
  with_reducible (repeat' (first | exact h | assumption | apply State.answer_keeps | exact keeps_refl _ | apply keepsOut_next | apply keeps_ite | apply keeps_ite_fst | apply keeps_ite_snd | split | intro _ | simp only [keeps_mk] | dsimp only))

theorem State.refreshDigest_keeps {σ s : State} (h : Keeps σ s) :
    Keeps σ (State.refreshDigest s) := by
  unfold State.refreshDigest
  with_reducible (repeat' (first | exact h | assumption | apply State.each_keeps | apply State.wrg_keeps | apply State.setF_keeps | apply State.inc_keeps | apply State.limit10_keeps | apply State.flEvent_keeps | apply State.post_keeps | apply State.suspect_keeps | apply State.sendOwn_keeps | exact keeps_refl _ | apply keepsOut_next | apply keeps_ite | apply keeps_ite_fst | apply keeps_ite_snd | split | intro _ | simp only [keeps_mk] | dsimp only))

theorem State.markFailed_keeps {σ s : State} (h : Keeps σ s) (d : Nat) (r : Nat) :
    Keeps σ (State.markFailed s d r) := by
  unfold State.markFailed
  with_reducible (repeat' (first | exact h | assumption | apply State.setRouteEnt_keeps | apply State.flEvent_keeps | exact keeps_refl _ | apply keepsOut_next | apply keeps_ite | apply keeps_ite_fst | apply keeps_ite_snd | split | intro _ | simp only [keeps_mk] | dsimp only))

theorem State.refuse_keeps {σ s : State} (h : Keeps σ s) (r : FlReq) :
    Keeps σ (State.refuse s r) := by
  unfold State.refuse
  with_reducible (repeat' (first | exact h | assumption | apply State.programError_keeps | apply State.strFault_keeps | apply State.free_keeps | exact keeps_refl _ | apply keepsOut_next | apply keeps_ite | apply keeps_ite_fst | apply keeps_ite_snd | split | intro _ | simp only [keeps_mk] | dsimp only))

theorem State.settle_keeps {σ s : State} (h : Keeps σ s) (id : Nat) :
    Keeps σ (State.settle s id) := by
  unfold State.settle
  with_reducible (repeat' (first | exact h | assumption | apply State.setStep_keeps | exact keeps_refl _ | apply keepsOut_next | apply keeps_ite | apply keeps_ite_fst | apply keeps_ite_snd | split | intro _ | simp only [keeps_mk] | dsimp only))

theorem State.inject_keeps {σ s : State} (h : Keeps σ s) (r : FlReq) (resend : Bool) :
    Keeps σ (State.inject s r resend) := by
  unfold State.inject
  with_reducible (repeat' (first | exact h | assumption | apply State.inc_keeps | apply State.setRouteEnt_keeps | apply State.setPort_keeps | apply State.settle_keeps | apply State.refuse_keeps | apply State.partReject_keeps | apply State.depart_keeps | exact keeps_refl _ | apply keepsOut_next | apply keeps_ite | apply keeps_ite_fst | apply keeps_ite_snd | split | intro _ | simp only [keeps_mk] | dsimp only))

theorem State.accept_keeps {σ s : State} (h : Keeps σ s) (r : FlReq) :
    Keeps σ (State.accept s r) := by
  unfold State.accept
  with_reducible (repeat' (first | exact h | assumption | apply State.refuse_keeps | apply State.inject_keeps | exact keeps_refl _ | apply keepsOut_next | apply keeps_ite | apply keeps_ite_fst | apply keeps_ite_snd | split | intro _ | simp only [keeps_mk] | dsimp only))

theorem State.dropTracked_keeps {σ s : State} (h : Keeps σ s) (id : Nat) :
    Keeps σ (State.dropTracked s id) := by
  unfold State.dropTracked
  with_reducible (repeat' (first | exact h | assumption | exact keeps_refl _ | apply keepsOut_next | apply keeps_ite | apply keeps_ite_fst | apply keeps_ite_snd | split | intro _ | simp only [keeps_mk] | dsimp only))

theorem State.pump_keeps {σ s : State} (h : Keeps σ s) :
    Keeps σ (State.pump s) := by
  unfold State.pump
  with_reducible (repeat' (first | exact h | assumption | apply State.inject_keeps | exact keeps_refl _ | apply keepsOut_next | apply keeps_ite | apply keeps_ite_fst | apply keeps_ite_snd | split | intro _ | simp only [keeps_mk] | dsimp only))

theorem State.untrack_keeps {σ s : State} (h : Keeps σ s) (r : FlReq) :
    Keeps σ (State.untrack s r) := by
  unfold State.untrack
  with_reducible (repeat' (first | exact h | assumption | apply State.pump_keeps | apply State.dropTracked_keeps | exact keeps_refl _ | apply keepsOut_next | apply keeps_ite | apply keeps_ite_fst | apply keeps_ite_snd | split | intro _ | simp only [keeps_mk] | dsimp only))

theorem State.resend_keeps {σ s : State} (h : Keeps σ s) (r : FlReq) :
    Keeps σ (State.resend s r) := by
  unfold State.resend
  with_reducible (repeat' (first | exact h | assumption | apply State.pump_keeps | apply State.inject_keeps | apply State.dropTracked_keeps | exact keeps_refl _ | apply keepsOut_next | apply keeps_ite | apply keeps_ite_fst | apply keeps_ite_snd | split | intro _ | simp only [keeps_mk] | dsimp only))

theorem State.reviveIdle_keeps {σ s : State} (h : Keeps σ s) :
    Keeps σ (State.reviveIdle s) := by
  unfold State.reviveIdle
  with_reducible (repeat' (first | exact h | assumption | apply State.each_keeps | apply State.setStep_keeps | apply State.accept_keeps | exact keeps_refl _ | apply keepsOut_next | apply keeps_ite | apply keeps_ite_fst | apply keeps_ite_snd | split | intro _ | simp only [keeps_mk] | dsimp only))

theorem State.refresh_keeps {σ s : State} (h : Keeps σ s) :
    Keeps σ (State.refresh s) := by
  unfold State.refresh
  with_reducible (repeat' (first | exact h | assumption | apply State.reviveIdle_keeps | apply State.refreshDigest_keeps | exact keeps_refl _ | apply keepsOut_next | apply keeps_ite | apply keeps_ite_fst | apply keeps_ite_snd | split | intro _ | simp only [keeps_mk] | dsimp only))

end Sys2Proof.Machine
end

