-- ==== Sys2Proof/Laws/KeepsStreams.lean ====
section
/-! SUPPORT. The operations and commands of Machine/Streams.lean leave the queue as it is, and keep memory and registers in their one form. -/

set_option linter.unusedTactic false
set_option linter.unreachableTactic false
set_option linter.unusedSimpArgs false

namespace Sys2Proof.Machine

theorem State.streamError_keeps {σ s : State} (h : Keeps σ s) (n : Nat) (k : Nat) (d : Nat) :
    Keeps σ (State.streamError s n k d) := by
  unfold State.streamError
  with_reducible (repeat' (first | exact h | assumption | apply State.flowError_keeps | apply State.strFault_keeps | exact keeps_refl _ | apply keepsOut_next | apply keeps_ite | apply keeps_ite_fst | apply keeps_ite_snd | split | intro _ | simp only [keeps_mk] | dsimp only))

theorem State.strmBegin_keeps {σ s : State} (h : Keeps σ s) (n : Nat) (k : Nat) (d : Nat) (engine : Nat) (b : Nat) (entry : Option Nat) :
    Keeps σ (State.strmBegin s n k d engine b entry) := by
  unfold State.strmBegin
  with_reducible (repeat' (first | exact h | assumption | apply State.upCl_keeps | exact keeps_refl _ | apply keepsOut_next | apply keeps_ite | apply keeps_ite_fst | apply keeps_ite_snd | split | intro _ | simp only [keeps_mk] | dsimp only))

theorem execStreamStart_keeps {σ s : State} (h : Keeps σ s) (n : Fin 576) (x : SlotCtl) (engine : Fin 4) (desc : Fin 16) :
    KeepsOut σ (execStreamStart n x engine desc s) := by
  unfold execStreamStart
  with_reducible (repeat' (first | exact h | assumption | apply State.issue_keeps | apply State.pass_keeps | apply State.streamError_keeps | apply State.waitAt_keeps | apply State.strmBegin_keeps | apply State.setCl_keeps | apply State.readSlot_keeps | exact keeps_refl _ | apply keepsOut_next | apply keeps_ite | apply keeps_ite_fst | apply keeps_ite_snd | split | intro _ | simp only [keeps_mk] | dsimp only))

theorem execStreamWait_keeps {σ s : State} (h : Keeps σ s) (n : Fin 576) (x : SlotCtl) (desc : Fin 16) :
    KeepsOut σ (execStreamWait n x desc s) := by
  unfold execStreamWait
  with_reducible (repeat' (first | exact h | assumption | apply State.issue_keeps | apply State.pass_keeps | apply State.streamError_keeps | apply State.upCl_keeps | apply State.waitAt_keeps | exact keeps_refl _ | apply keepsOut_next | apply keeps_ite | apply keeps_ite_fst | apply keeps_ite_snd | split | intro _ | simp only [keeps_mk] | dsimp only))

theorem execStreamWaitAll_keeps {σ s : State} (h : Keeps σ s) (n : Fin 576) (x : SlotCtl) (desc : Fin 16) :
    KeepsOut σ (execStreamWaitAll n x desc s) := by
  unfold execStreamWaitAll
  with_reducible (repeat' (first | exact h | assumption | apply State.issue_keeps | apply State.pass_keeps | apply State.waitAt_keeps | exact keeps_refl _ | apply keepsOut_next | apply keeps_ite | apply keeps_ite_fst | apply keeps_ite_snd | split | intro _ | simp only [keeps_mk] | dsimp only))

theorem execStreamAdvance_keeps {σ s : State} (h : Keeps σ s) (n : Fin 576) (x : SlotCtl) (desc : Fin 16) :
    KeepsOut σ (execStreamAdvance n x desc s) := by
  unfold execStreamAdvance
  with_reducible (repeat' (first | exact h | assumption | apply State.issue_keeps | apply State.pass_keeps | apply State.streamError_keeps | apply State.upCl_keeps | exact keeps_refl _ | apply keepsOut_next | apply keeps_ite | apply keeps_ite_fst | apply keeps_ite_snd | split | intro _ | simp only [keeps_mk] | dsimp only))

theorem State.freePick_keeps {σ s : State} (h : Keeps σ s) {α : Type} (z0 : List α) :
    Keeps σ (State.freePick s z0).2 := by
  induction z0 generalizing s with
  | nil =>
    unfold State.freePick
    with_reducible (repeat' (first | exact h | assumption | apply ih | apply State.free_keeps | exact keeps_refl _ | apply keepsOut_next | apply keeps_ite | apply keeps_ite_fst | apply keeps_ite_snd | split | intro _ | simp only [keeps_mk] | dsimp only))
  | cons x l ih =>
    unfold State.freePick
    with_reducible (repeat' (first | exact h | assumption | apply ih | apply State.free_keeps | exact keeps_refl _ | apply keepsOut_next | apply keeps_ite | apply keeps_ite_fst | apply keeps_ite_snd | split | intro _ | simp only [keeps_mk] | dsimp only))

theorem State.stepWrite_keeps {σ s : State} (h : Keeps σ s) (n : Nat) (a : Nat) (data : List Byte) :
    Keeps σ (State.stepWrite s n a data) := by
  unfold State.stepWrite
  with_reducible (repeat' (first | exact h | assumption | apply State.writeTake_keeps | apply State.journalLine_keeps | apply State.programError_keeps | exact keeps_refl _ | apply keepsOut_next | apply keeps_ite | apply keeps_ite_fst | apply keeps_ite_snd | split | intro _ | simp only [keeps_mk] | dsimp only))

theorem State.moveLines_keeps {σ s : State} (h : Keeps σ s) (n : Nat) (out : Bool) (z0 : List (Int × Nat)) :
    Keeps σ (State.moveLines s n out z0) := by
  induction z0 generalizing n out s with
  | nil =>
    unfold State.moveLines
    with_reducible (repeat' (first | exact h | assumption | apply ih | apply State.stepWrite_keeps | apply State.upCl_keeps | exact keeps_refl _ | apply keepsOut_next | apply keeps_ite | apply keeps_ite_fst | apply keeps_ite_snd | split | intro _ | simp only [keeps_mk] | dsimp only))
  | cons x l ih =>
    unfold State.moveLines
    with_reducible (repeat' (first | exact h | assumption | apply ih | apply State.stepWrite_keeps | apply State.upCl_keeps | exact keeps_refl _ | apply keepsOut_next | apply keeps_ite | apply keeps_ite_fst | apply keeps_ite_snd | split | intro _ | simp only [keeps_mk] | dsimp only))

theorem State.remoteBlock_keeps {σ s : State} (h : Keeps σ s) (n : Nat) (k : Nat) (d : Nat) (block : Nat) (last : Bool) (x : StepSt) (z0 : List (Int × Nat × Nat)) :
    Keeps σ (State.remoteBlock s n k d block last x z0) := by
  induction z0 generalizing n k d block last x s with
  | nil =>
    unfold State.remoteBlock
    with_reducible (repeat' (first | exact h | assumption | apply ih | apply State.accept_keeps | exact keeps_refl _ | apply keepsOut_next | apply keeps_ite | apply keeps_ite_fst | apply keeps_ite_snd | split | intro _ | simp only [keeps_mk] | dsimp only))
  | cons x l ih =>
    unfold State.remoteBlock
    with_reducible (repeat' (first | exact h | assumption | apply ih | apply State.accept_keeps | exact keeps_refl _ | apply keepsOut_next | apply keeps_ite | apply keeps_ite_fst | apply keeps_ite_snd | split | intro _ | simp only [keeps_mk] | dsimp only))

theorem State.streamExtent_keeps {σ s : State} (h : Keeps σ s) (n : Nat) (k : Nat) (d : Nat) (block : Nat) (lines : List (Int × Nat)) (bad : List (Int × Nat)) :
    Keeps σ (State.streamExtent s n k d block lines bad) := by
  unfold State.streamExtent
  with_reducible (repeat' (first | exact h | assumption | apply State.freePick_keeps | apply State.moveLines_keeps | apply State.free_keeps | apply State.upCl_keeps | apply State.extentFault_keeps | apply State.strFault_keeps | exact keeps_refl _ | apply keepsOut_next | apply keeps_ite | apply keeps_ite_fst | apply keeps_ite_snd | split | intro _ | simp only [keeps_mk] | dsimp only))

theorem State.passBlocks_keeps {σ s : State} (h : Keeps σ s) (n : Nat) (k : Nat) (d : Nat) (z0 : Nat) :
    Keeps σ (State.passBlocks s n k d z0) := by
  induction z0 generalizing n k d s with
  | zero =>
    unfold State.passBlocks
    with_reducible (repeat' (first | exact h | assumption | apply ih | apply State.upCl_keeps | apply State.advanceBinding_keeps | exact keeps_refl _ | apply keepsOut_next | apply keeps_ite | apply keeps_ite_fst | apply keeps_ite_snd | split | intro _ | simp only [keeps_mk] | dsimp only))
  | succ f ih =>
    unfold State.passBlocks
    with_reducible (repeat' (first | exact h | assumption | apply ih | apply State.upCl_keeps | apply State.advanceBinding_keeps | exact keeps_refl _ | apply keepsOut_next | apply keeps_ite | apply keeps_ite_fst | apply keeps_ite_snd | split | intro _ | simp only [keeps_mk] | dsimp only))

theorem State.blockDone_keeps {σ s : State} (h : Keeps σ s) (n : Nat) (k : Nat) (d : Nat) (block : Nat) :
    Keeps σ (State.blockDone s n k d block) := by
  unfold State.blockDone
  with_reducible (repeat' (first | exact h | assumption | apply State.upCl_keeps | apply State.passBlocks_keeps | apply State.wake_keeps | exact keeps_refl _ | apply keepsOut_next | apply keeps_ite | apply keeps_ite_fst | apply keeps_ite_snd | split | intro _ | simp only [keeps_mk] | dsimp only))

theorem execStreamBlockStart_keeps {σ s : State} (h : Keeps σ s) (n : Fin 576) (p : Fin 8) (c : Fin 4) (desc : Fin 16) :
    KeepsOut σ (execStreamBlockStart n p c desc s) := by
  unfold execStreamBlockStart
  with_reducible (repeat' (first | exact h | assumption | apply State.blockDone_keeps | apply State.upCl_keeps | apply State.remoteBlock_keeps | apply State.inc64_keeps | apply State.streamExtent_keeps | exact keeps_refl _ | apply keepsOut_next | apply keeps_ite | apply keeps_ite_fst | apply keeps_ite_snd | split | intro _ | simp only [keeps_mk] | dsimp only))

theorem execStreamBlockComplete_keeps {σ s : State} (h : Keeps σ s) (n : Fin 576) (p : Fin 8) (c : Fin 4) (desc : Fin 16) (block : Nat) :
    KeepsOut σ (execStreamBlockComplete n p c desc block s) := by
  unfold execStreamBlockComplete
  with_reducible (repeat' (first | exact h | assumption | apply State.each_keeps | apply State.demand_keeps | apply State.blockDone_keeps | apply State.inc64_keeps | apply State.moveLines_keeps | apply State.emit_keeps | apply State.upCl_keeps | exact keeps_refl _ | apply keepsOut_next | apply keeps_ite | apply keeps_ite_fst | apply keeps_ite_snd | split | intro _ | simp only [keeps_mk] | dsimp only))

theorem State.bwSplitWrite_keeps {σ s : State} (h : Keeps σ s) (v : Word) :
    Keeps σ (State.bwSplitWrite s v) := by
  unfold State.bwSplitWrite
  with_reducible (repeat' (first | exact h | assumption | apply State.setF_keeps | apply State.plain_keeps | exact keeps_refl _ | apply keepsOut_next | apply keeps_ite | apply keeps_ite_fst | apply keeps_ite_snd | split | intro _ | simp only [keeps_mk] | dsimp only))

theorem execBwSplitWrite_keeps {σ s : State} (h : Keeps σ s) (v : Word) :
    KeepsOut σ (execBwSplitWrite v s) := by
  unfold execBwSplitWrite
  with_reducible (repeat' (first | exact h | assumption | apply State.hostWrite_keeps | apply State.bwSplitWrite_keeps | exact keeps_refl _ | apply keepsOut_next | apply keeps_ite | apply keeps_ite_fst | apply keeps_ite_snd | split | intro _ | simp only [keeps_mk] | dsimp only))

theorem execBwPresetAdopt_keeps {σ s : State} (h : Keeps σ s) (st : Fin 8) :
    KeepsOut σ (execBwPresetAdopt st s) := by
  unfold execBwPresetAdopt
  with_reducible (repeat' (first | exact h | assumption | apply State.setCtl_keeps | exact keeps_refl _ | apply keepsOut_next | apply keeps_ite | apply keeps_ite_fst | apply keeps_ite_snd | split | intro _ | simp only [keeps_mk] | dsimp only))

end Sys2Proof.Machine
end

