-- ==== Sys2Proof/Laws/KeepsDeadlock.lean ====
section
/-! SUPPORT. The operations and commands of Machine/Deadlock.lean leave the queue as it is, and keep memory and registers in their one form. -/

set_option linter.unusedTactic false
set_option linter.unreachableTactic false
set_option linter.unusedSimpArgs false

namespace Sys2Proof.Machine

theorem State.spillTiles_keeps {σ s : State} (h : Keeps σ s) (n : Nat) (k : Nat) (ep : Nat) (z0 : List Tile) (z1 : List Nat) :
    Keeps σ (State.spillTiles s n k ep z0 z1) := by
  induction z0 generalizing s z1 with
  | nil =>
    unfold State.spillTiles
    exact h
  | cons t ts ih =>
    cases z1 with
    | nil =>
      unfold State.spillTiles
      exact h
    | cons a as =>
      unfold State.spillTiles
      exact ih (State.inc_keeps (State.emit_keeps (State.upCl_keeps (State.wrBytes_keeps h _ _) _ _) _) _) as

theorem State.waitGraph_keeps {σ s : State} (h : Keeps σ s) (g : Nat) :
    Keeps σ (State.waitGraph s g) := by
  unfold State.waitGraph
  with_reducible (repeat' (first | exact h | assumption | apply State.each_keeps | apply State.wrg_keeps | apply State.setF_keeps | exact keeps_refl _ | apply keepsOut_next | apply keeps_ite | apply keeps_ite_fst | apply keeps_ite_snd | split | intro _ | simp only [keeps_mk] | dsimp only))

theorem State.suspectDeadlock_keeps {σ s : State} (h : Keeps σ s) (g : Nat) :
    Keeps σ (State.suspectDeadlock s g) := by
  unfold State.suspectDeadlock
  with_reducible (repeat' (first | exact h | assumption | apply State.clusterEvent_keeps | apply State.waitGraph_keeps | exact keeps_refl _ | apply keepsOut_next | apply keeps_ite | apply keeps_ite_fst | apply keeps_ite_snd | split | intro _ | simp only [keeps_mk] | dsimp only))

theorem execDeadlockWindowExpire_keeps {σ s : State} (h : Keeps σ s) (g : Fin 32) :
    KeepsOut σ (execDeadlockWindowExpire g s) := by
  unfold execDeadlockWindowExpire
  with_reducible (repeat' (first | exact h | assumption | apply State.suspectDeadlock_keeps | apply State.spillTiles_keeps | exact keeps_refl _ | apply keepsOut_next | apply keeps_ite | apply keeps_ite_fst | apply keeps_ite_snd | split | intro _ | simp only [keeps_mk] | dsimp only))

end Sys2Proof.Machine
end

