-- ==== Sys2Proof/Laws/KeepsRepair.lean ====
section
/-! SUPPORT. The operations and commands of Machine/Repair.lean leave the queue as it is, and keep memory and registers in their one form. -/

set_option linter.unusedTactic false
set_option linter.unreachableTactic false
set_option linter.unusedSimpArgs false

namespace Sys2Proof.Machine

theorem State.sesError_keeps {σ s : State} (h : Keeps σ s) (n : Nat) (reqId : Nat) (code : Nat) :
    Keeps σ (State.sesError s n reqId code) := by
  unfold State.sesError
  with_reducible (repeat' (first | exact h | assumption | apply State.irq_keeps | apply State.inc_keeps | apply State.sesSend_keeps | exact keeps_refl _ | apply keepsOut_next | apply keeps_ite | apply keeps_ite_fst | apply keeps_ite_snd | split | intro _ | simp only [keeps_mk] | dsimp only))

theorem State.dropRequest_keeps {σ s : State} (h : Keeps σ s) (n : Nat) (reqId : Nat) :
    Keeps σ (State.dropRequest s n reqId) := by
  unfold State.dropRequest
  with_reducible (repeat' (first | exact h | assumption | apply State.setSes_keeps | exact keeps_refl _ | apply keepsOut_next | apply keeps_ite | apply keeps_ite_fst | apply keeps_ite_snd | split | intro _ | simp only [keeps_mk] | dsimp only))

theorem State.failSeq_keeps {σ s : State} (h : Keeps σ s) (id : Nat) :
    Keeps σ (State.failSeq s id) := by
  unfold State.failSeq
  with_reducible (repeat' (first | exact h | assumption | apply State.dropRequest_keeps | apply State.sesError_keeps | apply State.setSeq_keeps | apply State.endSeq_keeps | exact keeps_refl _ | apply keepsOut_next | apply keeps_ite | apply keeps_ite_fst | apply keeps_ite_snd | split | intro _ | simp only [keeps_mk] | dsimp only))

theorem State.failRuns_keeps {σ s : State} (h : Keeps σ s) :
    Keeps σ (State.failRuns s) := by
  unfold State.failRuns
  with_reducible (repeat' (first | exact h | assumption | apply State.endEpisodes_keeps | apply State.stopClusters_keeps | apply State.rollback_keeps | apply State.each_keeps | apply State.failSeq_keeps | apply State.endDesc_keeps | apply State.dropRequest_keeps | apply State.sesError_keeps | apply State.setStep_keeps | exact keeps_refl _ | apply keepsOut_next | apply keeps_ite | apply keeps_ite_fst | apply keeps_ite_snd | split | intro _ | simp only [keeps_mk] | dsimp only))

theorem State.packageFailed_keeps {σ s : State} (h : Keeps σ s) (cause : Nat) (stop : Nat) (unit : Nat) :
    Keeps σ (State.packageFailed s cause stop unit) := by
  unfold State.packageFailed
  with_reducible (repeat' (first | exact h | assumption | apply State.failRuns_keeps | apply State.alert_keeps | apply State.post_keeps | apply State.setF_keeps | exact keeps_refl _ | apply keepsOut_next | apply keeps_ite | apply keeps_ite_fst | apply keeps_ite_snd | split | intro _ | simp only [keeps_mk] | dsimp only))

theorem State.dropMesh_keeps {σ s : State} (h : Keeps σ s) (ns : List Nat) :
    Keeps σ (State.dropMesh s ns) := by
  unfold State.dropMesh
  with_reducible (repeat' (first | exact h | assumption | exact keeps_refl _ | apply keepsOut_next | apply keeps_ite | apply keeps_ite_fst | apply keeps_ite_snd | split | intro _ | simp only [keeps_mk] | dsimp only))

theorem State.summary_keeps {σ s : State} (h : Keeps σ s) :
    Keeps σ (State.summary s) := by
  unfold State.summary
  with_reducible (repeat' (first | exact h | assumption | apply State.setF_keeps | apply State.postOpen_keeps | exact keeps_refl _ | apply keepsOut_next | apply keeps_ite | apply keeps_ite_fst | apply keeps_ite_snd | split | intro _ | simp only [keeps_mk] | dsimp only))

theorem State.mapStatus_keeps {σ s : State} (h : Keeps σ s) (g : Nat) :
    Keeps σ (State.mapStatus s g) := by
  unfold State.mapStatus
  with_reducible (repeat' (first | exact h | assumption | apply State.setF_keeps | exact keeps_refl _ | apply keepsOut_next | apply keeps_ite | apply keeps_ite_fst | apply keeps_ite_snd | split | intro _ | simp only [keeps_mk] | dsimp only))

theorem State.rewriteMap_keeps {σ s : State} (h : Keeps σ s) (g : Nat) (stop : Nat) :
    Keeps σ (State.rewriteMap s g stop).1 := by
  unfold State.rewriteMap
  with_reducible (repeat' (first | exact h | assumption | apply State.packageFailed_keeps | apply State.each_keeps | apply State.wrg_keeps | apply State.upCl_keeps | apply State.dropMesh_keeps | apply State.summary_keeps | apply State.mapStatus_keeps | apply State.post_keeps | exact keeps_refl _ | apply keepsOut_next | apply keeps_ite | apply keeps_ite_fst | apply keeps_ite_snd | split | intro _ | simp only [keeps_mk] | dsimp only))

theorem State.fenceCluster_keeps {σ s : State} (h : Keeps σ s) (n : Nat) :
    Keeps σ (State.fenceCluster s n).1 := by
  unfold State.fenceCluster
  with_reducible (repeat' (first | exact h | assumption | apply State.upCl_keeps | apply State.stopLend_keeps | apply State.setF_keeps | apply State.rewriteMap_keeps | apply State.inc_keeps | exact keeps_refl _ | apply keepsOut_next | apply keeps_ite | apply keeps_ite_fst | apply keeps_ite_snd | split | intro _ | simp only [keeps_mk] | dsimp only))

theorem State.mapSpare_keeps {σ s : State} (h : Keeps σ s) (n : Nat) (b : Nat) :
    Keeps σ (State.mapSpare s n b) := by
  unfold State.mapSpare
  with_reducible (repeat' (first | exact h | assumption | apply State.setF_keeps | apply State.upCl_keeps | exact keeps_refl _ | apply keepsOut_next | apply keeps_ite | apply keeps_ite_fst | apply keeps_ite_snd | split | intro _ | simp only [keeps_mk] | dsimp only))

theorem State.rewritePlane_keeps {σ s : State} (h : Keeps σ s) (n : Nat) (p : Nat) :
    Keeps σ (State.rewritePlane s n p) := by
  unfold State.rewritePlane
  with_reducible (repeat' (first | exact h | assumption | apply State.upCl_keeps | exact keeps_refl _ | apply keepsOut_next | apply keeps_ite | apply keeps_ite_fst | apply keeps_ite_snd | split | intro _ | simp only [keeps_mk] | dsimp only))

theorem State.fenceAction_keeps {σ s : State} (h : Keeps σ s) (n : Nat) :
    Keeps σ (State.fenceAction s n).1 := by
  unfold State.fenceAction
  with_reducible (repeat' (first | exact h | assumption | apply State.fenceCluster_keeps | exact keeps_refl _ | apply keepsOut_next | apply keeps_ite | apply keeps_ite_fst | apply keeps_ite_snd | split | intro _ | simp only [keeps_mk] | dsimp only))

theorem State.restorePage_keeps {σ s : State} (h : Keeps σ s) (st : Nat) (p : Nat) (restored : Bool) :
    Keeps σ (State.restorePage s st p restored) := by
  unfold State.restorePage
  with_reducible (repeat' (first | exact h | assumption | apply State.dataLost_keeps | exact keeps_refl _ | apply keepsOut_next | apply keeps_ite | apply keeps_ite_fst | apply keeps_ite_snd | split | intro _ | simp only [keeps_mk] | dsimp only))

theorem State.repairFor_keeps {σ s : State} (h : Keeps σ s) (r : Report) (restored : Bool) :
    Keeps σ (State.repairFor s r restored).1 := by
  unfold State.repairFor
  with_reducible (repeat' (first | exact h | assumption | apply State.fenceAction_keeps | apply State.upCl_keeps | apply State.mapSpare_keeps | apply State.rewritePlane_keeps | apply State.restorePage_keeps | exact keeps_refl _ | apply keepsOut_next | apply keeps_ite | apply keeps_ite_fst | apply keeps_ite_snd | split | intro _ | simp only [keeps_mk] | dsimp only))

theorem State.setCollector_keeps {σ s : State} (h : Keeps σ s) (c : Nat) (x : Collector) :
    Keeps σ (State.setCollector s c x) := by
  unfold State.setCollector
  with_reducible (repeat' (first | exact h | assumption | apply State.setF_keeps | exact keeps_refl _ | apply keepsOut_next | apply keeps_ite | apply keeps_ite_fst | apply keeps_ite_snd | split | intro _ | simp only [keeps_mk] | dsimp only))

theorem State.coalesced_keeps {σ s : State} (h : Keeps σ s) (c : Nat) :
    Keeps σ (State.coalesced s c) := by
  unfold State.coalesced
  with_reducible (repeat' (first | exact h | assumption | apply State.inc_keeps | exact keeps_refl _ | apply keepsOut_next | apply keeps_ite | apply keeps_ite_fst | apply keeps_ite_snd | split | intro _ | simp only [keeps_mk] | dsimp only))

theorem State.orderReplay_keeps {σ s : State} (h : Keeps σ s) :
    Keeps σ (State.orderReplay s) := by
  unfold State.orderReplay
  with_reducible (repeat' (first | exact h | assumption | apply State.setStep_keeps | exact keeps_refl _ | apply keepsOut_next | apply keeps_ite | apply keeps_ite_fst | apply keeps_ite_snd | split | intro _ | simp only [keeps_mk] | dsimp only))

theorem State.openIncident_keeps {σ s : State} (h : Keeps σ s) (c : Nat) (k : Nat) (r : Report) (restored : Bool) :
    Keeps σ (State.openIncident s c k r restored) := by
  unfold State.openIncident
  with_reducible (repeat' (first | exact h | assumption | apply State.repairFor_keeps | apply State.setCollector_keeps | apply State.post_keeps | apply State.inc_keeps | apply State.orderReplay_keeps | exact keeps_refl _ | apply keepsOut_next | apply keeps_ite | apply keeps_ite_fst | apply keeps_ite_snd | split | intro _ | simp only [keeps_mk] | dsimp only))

theorem State.takeReport_keeps {σ s : State} (h : Keeps σ s) (r : Report) (restored : Bool) :
    Keeps σ (State.takeReport s r restored) := by
  unfold State.takeReport
  with_reducible (repeat' (first | exact h | assumption | apply State.coalesced_keeps | apply State.setCollector_keeps | apply State.openIncident_keeps | apply State.inc_keeps | exact keeps_refl _ | apply keepsOut_next | apply keeps_ite | apply keeps_ite_fst | apply keeps_ite_snd | split | intro _ | simp only [keeps_mk] | dsimp only))

theorem execFaultReport_keeps {σ s : State} (h : Keeps σ s) (stop : BitVec 16) (unit : BitVec 8) (detail : BitVec 24) (byCount : Bool) (beyond : Bool) (restored : Bool) :
    KeepsOut σ (execFaultReport stop unit detail byCount beyond restored s) := by
  unfold execFaultReport
  with_reducible (repeat' (first | exact h | assumption | apply State.takeReport_keeps | apply State.packageFailed_keeps | exact keeps_refl _ | apply keepsOut_next | apply keeps_ite | apply keeps_ite_fst | apply keeps_ite_snd | split | intro _ | simp only [keeps_mk] | dsimp only))

theorem State.serveQueue_keeps {σ s : State} (h : Keeps σ s) (c : Nat) :
    Keeps σ (State.serveQueue s c) := by
  unfold State.serveQueue
  with_reducible (repeat' (first | exact h | assumption | apply State.free_keeps | apply State.openIncident_keeps | apply State.setCollector_keeps | apply State.takeReport_keeps | exact keeps_refl _ | apply keepsOut_next | apply keeps_ite | apply keeps_ite_fst | apply keeps_ite_snd | split | intro _ | simp only [keeps_mk] | dsimp only))

theorem State.serveQueues_keeps {σ s : State} (h : Keeps σ s) (c : Nat) (z0 : Nat) :
    Keeps σ (State.serveQueues s c z0) := by
  induction z0 generalizing c s with
  | zero =>
    unfold State.serveQueues
    with_reducible (repeat' (first | exact h | assumption | apply ih | apply State.serveQueue_keeps | exact keeps_refl _ | apply keepsOut_next | apply keeps_ite | apply keeps_ite_fst | apply keeps_ite_snd | split | intro _ | simp only [keeps_mk] | dsimp only))
  | succ f ih =>
    unfold State.serveQueues
    with_reducible (repeat' (first | exact h | assumption | apply ih | apply State.serveQueue_keeps | exact keeps_refl _ | apply keepsOut_next | apply keeps_ite | apply keeps_ite_fst | apply keeps_ite_snd | split | intro _ | simp only [keeps_mk] | dsimp only))

theorem execIncidentClose_keeps {σ s : State} (h : Keeps σ s) (c : Fin 33) (k : Fin 32) :
    KeepsOut σ (execIncidentClose c k s) := by
  unfold execIncidentClose
  with_reducible (repeat' (first | exact h | assumption | apply State.serveQueues_keeps | apply State.setCollector_keeps | exact keeps_refl _ | apply keepsOut_next | apply keeps_ite | apply keeps_ite_fst | apply keeps_ite_snd | split | intro _ | simp only [keeps_mk] | dsimp only))

end Sys2Proof.Machine
end

