-- ==== Sys2Proof/Laws/KeepsPower.lean ====
section
/-! SUPPORT. The operations and commands of Machine/Power.lean leave the queue as it is, and keep memory and registers in their one form. -/

set_option linter.unusedTactic false
set_option linter.unreachableTactic false
set_option linter.unusedSimpArgs false

namespace Sys2Proof.Machine

theorem State.setPower_keeps {σ s : State} (h : Keeps σ s) (p : PowerSt) :
    Keeps σ (State.setPower s p) := by
  unfold State.setPower
  with_reducible (repeat' (first | exact h | assumption | exact keeps_refl _ | apply keepsOut_next | apply keeps_ite | apply keeps_ite_fst | apply keeps_ite_snd | split | intro _ | simp only [keeps_mk] | dsimp only))

theorem State.powerEvent_keeps {σ s : State} (h : Keeps σ s) (x : Fld) :
    Keeps σ (State.powerEvent s x) := by
  unfold State.powerEvent
  with_reducible (repeat' (first | exact h | assumption | apply State.irq_keeps | apply State.setF_keeps | exact keeps_refl _ | apply keepsOut_next | apply keeps_ite | apply keeps_ite_fst | apply keeps_ite_snd | split | intro _ | simp only [keeps_mk] | dsimp only))

theorem State.regrant_keeps {σ s : State} (h : Keeps σ s) :
    Keeps σ (State.regrant s) := by
  unfold State.regrant
  with_reducible (repeat' (first | exact h | assumption | apply State.setPower_keeps | apply State.setF_keeps | apply State.each_keeps | apply State.free_keeps | apply State.emit_keeps | exact keeps_refl _ | apply keepsOut_next | apply keeps_ite | apply keeps_ite_fst | apply keeps_ite_snd | split | intro _ | simp only [keeps_mk] | dsimp only))

theorem State.showPower_keeps {σ s : State} (h : Keeps σ s) (draw : Nat) :
    Keeps σ (State.showPower s draw) := by
  unfold State.showPower
  with_reducible (repeat' (first | exact h | assumption | apply State.setPower_keeps | apply State.setF_keeps | apply State.cond_keeps | apply State.inc_keeps | exact keeps_refl _ | apply keepsOut_next | apply keeps_ite | apply keeps_ite_fst | apply keeps_ite_snd | split | intro _ | simp only [keeps_mk] | dsimp only))

theorem State.takeBudget_keeps {σ s : State} (h : Keeps σ s) (g : Nat) (b : Nat × Nat) (bad : Bool) :
    Keeps σ (State.takeBudget s g b bad) := by
  unfold State.takeBudget
  with_reducible (repeat' (first | exact h | assumption | apply State.cplMismatch_keeps | apply State.setPower_keeps | exact keeps_refl _ | apply keepsOut_next | apply keeps_ite | apply keeps_ite_fst | apply keeps_ite_snd | split | intro _ | simp only [keeps_mk] | dsimp only))

theorem execPowerControlPeriod_keeps {σ s : State} (h : Keeps σ s) (draw : Nat) (others : Nat) (cmds : List (Nat × Nat × Bool)) :
    KeepsOut σ (execPowerControlPeriod draw others cmds s) := by
  unfold execPowerControlPeriod
  with_reducible (repeat' (first | exact h | assumption | apply State.showPower_keeps | apply State.each_keeps | apply State.takeBudget_keeps | apply State.regrant_keeps | exact keeps_refl _ | apply keepsOut_next | apply keeps_ite | apply keeps_ite_fst | apply keeps_ite_snd | split | intro _ | simp only [keeps_mk] | dsimp only))

theorem execStartupEnd_keeps {σ s : State} (h : Keeps σ s) :
    KeepsOut σ (execStartupEnd s) := by
  unfold execStartupEnd
  with_reducible (repeat' (first | exact h | assumption | apply State.regrant_keeps | apply State.setF_keeps | exact keeps_refl _ | apply keepsOut_next | apply keeps_ite | apply keeps_ite_fst | apply keeps_ite_snd | split | intro _ | simp only [keeps_mk] | dsimp only))

theorem execAgeingCheck_keeps {σ s : State} (h : Keeps σ s) (n : Fin 576) (low : Bool) :
    KeepsOut σ (execAgeingCheck n low s) := by
  unfold execAgeingCheck
  with_reducible (repeat' (first | exact h | assumption | apply State.powerEvent_keeps | apply State.setPower_keeps | apply State.regrant_keeps | apply State.cond_keeps | apply State.report_keeps | exact keeps_refl _ | apply keepsOut_next | apply keeps_ite | apply keeps_ite_fst | apply keeps_ite_snd | split | intro _ | simp only [keeps_mk] | dsimp only))

theorem State.powerWrite_keeps {σ s : State} (h : Keeps σ s) (v : Word) :
    Keeps σ (State.powerWrite s v) := by
  unfold State.powerWrite
  with_reducible (repeat' (first | exact h | assumption | apply State.cond_keeps | apply State.setF_keeps | apply State.setPower_keeps | apply State.wrg_keeps | apply State.regrant_keeps | apply State.each_keeps | apply State.stopLend_keeps | exact keeps_refl _ | apply keepsOut_next | apply keeps_ite | apply keeps_ite_fst | apply keeps_ite_snd | split | intro _ | simp only [keeps_mk] | dsimp only))

theorem execPwrCtrlWrite_keeps {σ s : State} (h : Keeps σ s) (v : Word) :
    KeepsOut σ (execPwrCtrlWrite v s) := by
  unfold execPwrCtrlWrite
  with_reducible (repeat' (first | exact h | assumption | apply State.hostWrite_keeps | apply State.powerWrite_keeps | exact keeps_refl _ | apply keepsOut_next | apply keeps_ite | apply keeps_ite_fst | apply keeps_ite_snd | split | intro _ | simp only [keeps_mk] | dsimp only))

theorem State.formDebt_keeps {σ s : State} (h : Keeps σ s) :
    Keeps σ (State.formDebt s) := by
  unfold State.formDebt
  with_reducible (repeat' (first | exact h | assumption | apply State.wrg_keeps | apply State.setPower_keeps | exact keeps_refl _ | apply keepsOut_next | apply keeps_ite | apply keeps_ite_fst | apply keeps_ite_snd | split | intro _ | simp only [keeps_mk] | dsimp only))

theorem State.powerBoundary_keeps {σ s : State} (h : Keeps σ s) :
    Keeps σ (State.powerBoundary s) := by
  unfold State.powerBoundary
  with_reducible (repeat' (first | exact h | assumption | apply State.setPower_keeps | apply State.cond_keeps | apply State.powerEvent_keeps | apply State.inc_keeps | apply State.regrant_keeps | apply State.wrg_keeps | apply State.formDebt_keeps | exact keeps_refl _ | apply keepsOut_next | apply keeps_ite | apply keeps_ite_fst | apply keeps_ite_snd | split | intro _ | simp only [keeps_mk] | dsimp only))

theorem execGapEnd_keeps {σ s : State} (h : Keeps σ s) :
    KeepsOut σ (execGapEnd s) := by
  unfold execGapEnd
  with_reducible (repeat' (first | exact h | assumption | apply State.inc_keeps | apply State.setF_keeps | apply State.formDebt_keeps | apply State.setPower_keeps | exact keeps_refl _ | apply keepsOut_next | apply keeps_ite | apply keeps_ite_fst | apply keeps_ite_snd | split | intro _ | simp only [keeps_mk] | dsimp only))

theorem execDroop_keeps {σ s : State} (h : Keeps σ s) (g : Fin 32) :
    KeepsOut σ (execDroop g s) := by
  unfold execDroop
  with_reducible (repeat' (first | exact h | assumption | apply State.inc_keeps | apply State.setPower_keeps | exact keeps_refl _ | apply keepsOut_next | apply keeps_ite | apply keeps_ite_fst | apply keeps_ite_snd | split | intro _ | simp only [keeps_mk] | dsimp only))

theorem execDroopEnd_keeps {σ s : State} (h : Keeps σ s) (g : Fin 32) :
    KeepsOut σ (execDroopEnd g s) := by
  unfold execDroopEnd
  with_reducible (repeat' (first | exact h | assumption | apply State.setPower_keeps | exact keeps_refl _ | apply keepsOut_next | apply keeps_ite | apply keeps_ite_fst | apply keeps_ite_snd | split | intro _ | simp only [keeps_mk] | dsimp only))

theorem execVrAlert_keeps {σ s : State} (h : Keeps σ s) :
    KeepsOut σ (execVrAlert s) := by
  unfold execVrAlert
  with_reducible (repeat' (first | exact h | assumption | apply State.powerEvent_keeps | apply State.inc_keeps | apply State.setF_keeps | apply State.regrant_keeps | apply State.setPower_keeps | exact keeps_refl _ | apply keepsOut_next | apply keeps_ite | apply keeps_ite_fst | apply keeps_ite_snd | split | intro _ | simp only [keeps_mk] | dsimp only))

theorem execVrAlertDeassert_keeps {σ s : State} (h : Keeps σ s) :
    KeepsOut σ (execVrAlertDeassert s) := by
  unfold execVrAlertDeassert
  with_reducible (repeat' (first | exact h | assumption | apply State.setPower_keeps | exact keeps_refl _ | apply keepsOut_next | apply keeps_ite | apply keeps_ite_fst | apply keeps_ite_snd | split | intro _ | simp only [keeps_mk] | dsimp only))

theorem execFloorEnd_keeps {σ s : State} (h : Keeps σ s) :
    KeepsOut σ (execFloorEnd s) := by
  unfold execFloorEnd
  with_reducible (repeat' (first | exact h | assumption | apply State.regrant_keeps | apply State.setPower_keeps | apply State.setF_keeps | exact keeps_refl _ | apply keepsOut_next | apply keeps_ite | apply keeps_ite_fst | apply keeps_ite_snd | split | intro _ | simp only [keeps_mk] | dsimp only))

theorem State.driveFan_keeps {σ s : State} (h : Keeps σ s) :
    Keeps σ (State.driveFan s) := by
  unfold State.driveFan
  with_reducible (repeat' (first | exact h | assumption | apply State.setF_keeps | exact keeps_refl _ | apply keepsOut_next | apply keeps_ite | apply keeps_ite_fst | apply keeps_ite_snd | split | intro _ | simp only [keeps_mk] | dsimp only))

theorem State.thermTrip_keeps {σ s : State} (h : Keeps σ s) :
    Keeps σ (State.thermTrip s) := by
  unfold State.thermTrip
  with_reducible (repeat' (first | exact h | assumption | apply State.powerEvent_keeps | apply State.setF_keeps | apply State.regrant_keeps | apply State.setPower_keeps | exact keeps_refl _ | apply keepsOut_next | apply keeps_ite | apply keeps_ite_fst | apply keeps_ite_snd | split | intro _ | simp only [keeps_mk] | dsimp only))

theorem State.thermActs_keeps {σ s : State} (h : Keeps σ s) (before : Int) :
    Keeps σ (State.thermActs s before) := by
  unfold State.thermActs
  with_reducible (repeat' (first | exact h | assumption | apply State.cond_keeps | apply State.alert_keeps | apply State.powerEvent_keeps | apply State.setPower_keeps | apply State.setF_keeps | apply State.regrant_keeps | apply State.thermTrip_keeps | exact keeps_refl _ | apply keepsOut_next | apply keeps_ite | apply keeps_ite_fst | apply keeps_ite_snd | split | intro _ | simp only [keeps_mk] | dsimp only))

theorem execThermalSample_keeps {σ s : State} (h : Keeps σ s) (temps : List (List Int)) :
    KeepsOut σ (execThermalSample temps s) := by
  unfold execThermalSample
  with_reducible (repeat' (first | exact h | assumption | apply State.each_keeps | apply State.setF_keeps | apply State.driveFan_keeps | apply State.thermActs_keeps | exact keeps_refl _ | apply keepsOut_next | apply keeps_ite | apply keeps_ite_fst | apply keeps_ite_snd | split | intro _ | simp only [keeps_mk] | dsimp only))

theorem execThrottleStep_keeps {σ s : State} (h : Keeps σ s) :
    KeepsOut σ (execThrottleStep s) := by
  unfold execThrottleStep
  with_reducible (repeat' (first | exact h | assumption | apply State.inc_keeps | apply State.setPower_keeps | apply State.cond_keeps | apply State.setF_keeps | exact keeps_refl _ | apply keepsOut_next | apply keeps_ite | apply keeps_ite_fst | apply keeps_ite_snd | split | intro _ | simp only [keeps_mk] | dsimp only))

theorem State.restRequest_keeps {σ s : State} (h : Keeps σ s) (woken : Bool) :
    Keeps σ (State.restRequest s woken) := by
  unfold State.restRequest
  with_reducible (repeat' (first | exact h | assumption | apply State.setF_keeps | apply State.powerEvent_keeps | apply State.setPower_keeps | exact keeps_refl _ | apply keepsOut_next | apply keeps_ite | apply keeps_ite_fst | apply keeps_ite_snd | split | intro _ | simp only [keeps_mk] | dsimp only))

theorem State.restWrite_keeps {σ s : State} (h : Keeps σ s) (v : Word) :
    Keeps σ (State.restWrite s v) := by
  unfold State.restWrite
  with_reducible (repeat' (first | exact h | assumption | apply State.restRequest_keeps | apply State.cond_keeps | apply State.wakeTrigger_keeps | exact keeps_refl _ | apply keepsOut_next | apply keeps_ite | apply keeps_ite_fst | apply keeps_ite_snd | split | intro _ | simp only [keeps_mk] | dsimp only))

theorem execRestEnter_keeps {σ s : State} (h : Keeps σ s) (v : Word) :
    KeepsOut σ (execRestEnter v s) := by
  unfold execRestEnter
  with_reducible (repeat' (first | exact h | assumption | apply State.hostWrite_keeps | apply State.restWrite_keeps | exact keeps_refl _ | apply keepsOut_next | apply keeps_ite | apply keeps_ite_fst | apply keeps_ite_snd | split | intro _ | simp only [keeps_mk] | dsimp only))

theorem execRestEntered_keeps {σ s : State} (h : Keeps σ s) :
    KeepsOut σ (execRestEntered s) := by
  unfold execRestEntered
  with_reducible (repeat' (first | exact h | assumption | apply State.inc_keeps | apply State.setF_keeps | apply State.regrant_keeps | apply State.powerEvent_keeps | apply State.wakeTrigger_keeps | apply State.setPower_keeps | exact keeps_refl _ | apply keepsOut_next | apply keeps_ite | apply keeps_ite_fst | apply keeps_ite_snd | split | intro _ | simp only [keeps_mk] | dsimp only))

theorem execWake_keeps {σ s : State} (h : Keeps σ s) (host : Bool) :
    KeepsOut σ (execWake host s) := by
  unfold execWake
  with_reducible (repeat' (first | exact h | assumption | apply State.hostWrite_keeps | apply State.wakeTrigger_keeps | exact keeps_refl _ | apply keepsOut_next | apply keeps_ite | apply keeps_ite_fst | apply keeps_ite_snd | split | intro _ | simp only [keeps_mk] | dsimp only))

end Sys2Proof.Machine
end

