-- ==== Sys2Proof/Laws/KeepsSteps.lean ====
section
/-! SUPPORT. The operations and commands of Machine/Steps.lean leave the queue as it is, and keep memory and registers in their one form. -/

set_option linter.unusedTactic false
set_option linter.unreachableTactic false
set_option linter.unusedSimpArgs false

namespace Sys2Proof.Machine

theorem State.joinIf_keeps {σ s : State} (h : Keeps σ s) (slot : Nat) (id : Nat) :
    Keeps σ (State.joinIf s slot id) := by
  unfold State.joinIf
  with_reducible (repeat' (first | exact h | assumption | apply State.setSeq_keeps | exact keeps_refl _ | apply keepsOut_next | apply keeps_ite | apply keeps_ite_fst | apply keeps_ite_snd | split | intro _ | simp only [keeps_mk] | dsimp only))

theorem State.joinOne_keeps {σ s : State} (h : Keeps σ s) (slot : Nat) (id : Nat) :
    Keeps σ (State.joinOne s slot id) := by
  unfold State.joinOne
  with_reducible (repeat' (first | exact h | assumption | apply State.endSeq_keeps | apply State.joinIf_keeps | apply State.setSeq_keeps | exact keeps_refl _ | apply keepsOut_next | apply keeps_ite | apply keeps_ite_fst | apply keeps_ite_snd | split | intro _ | simp only [keeps_mk] | dsimp only))

theorem State.gateEnd_keeps {σ s : State} (h : Keeps σ s) (i : Nat) :
    Keeps σ (State.gateEnd s i) := by
  unfold State.gateEnd
  with_reducible (repeat' (first | exact h | assumption | apply State.incN_keeps | exact keeps_refl _ | apply keepsOut_next | apply keeps_ite | apply keeps_ite_fst | apply keeps_ite_snd | split | intro _ | simp only [keeps_mk] | dsimp only))

theorem State.gateBegin_keeps {σ s : State} (h : Keeps σ s) (i : Nat) :
    Keeps σ (State.gateBegin s i) := by
  unfold State.gateBegin
  with_reducible (repeat' (first | exact h | assumption | exact keeps_refl _ | apply keepsOut_next | apply keeps_ite | apply keeps_ite_fst | apply keeps_ite_snd | split | intro _ | simp only [keeps_mk] | dsimp only))

theorem State.startSeq_keeps {σ s : State} (h : Keeps σ s) (id : Nat) :
    Keeps σ (State.startSeq s id) := by
  unfold State.startSeq
  with_reducible (repeat' (first | exact h | assumption | apply State.setSeq_keeps | apply State.wrWords_keeps | apply State.setSes_keeps | exact keeps_refl _ | apply keepsOut_next | apply keeps_ite | apply keeps_ite_fst | apply keeps_ite_snd | split | intro _ | simp only [keeps_mk] | dsimp only))

theorem State.countPreempt_keeps {σ s : State} (h : Keeps σ s) (ids : List Nat) :
    Keeps σ (State.countPreempt s ids) := by
  unfold State.countPreempt
  with_reducible (repeat' (first | exact h | assumption | apply State.each_keeps | apply State.setSeq_keeps | exact keeps_refl _ | apply keepsOut_next | apply keeps_ite | apply keeps_ite_fst | apply keeps_ite_snd | split | intro _ | simp only [keeps_mk] | dsimp only))

theorem State.beginStep_keeps {σ s : State} (h : Keeps σ s) (slot : Nat) (again : Bool) :
    Keeps σ (State.beginStep s slot again) := by
  unfold State.beginStep
  with_reducible (repeat' (first | exact h | assumption | apply State.each_keeps | apply State.endSeq_keeps | apply State.cond_keeps | apply State.countPreempt_keeps | apply State.startSeq_keeps | apply State.putJournalHeader_keeps | exact keeps_refl _ | apply keepsOut_next | apply keeps_ite | apply keeps_ite_fst | apply keeps_ite_snd | split | intro _ | simp only [keeps_mk] | dsimp only))

theorem State.rejoin_keeps {σ s : State} (h : Keeps σ s) (slot : Nat) :
    Keeps σ (State.rejoin s slot) := by
  unfold State.rejoin
  with_reducible (repeat' (first | exact h | assumption | apply State.each_keeps | apply State.setSeq_keeps | exact keeps_refl _ | apply keepsOut_next | apply keeps_ite | apply keeps_ite_fst | apply keeps_ite_snd | split | intro _ | simp only [keeps_mk] | dsimp only))

theorem State.tryStep_keeps {σ s : State} (h : Keeps σ s) (slot : Nat) (again : Bool) :
    Keeps σ (State.tryStep s slot again) := by
  unfold State.tryStep
  with_reducible (repeat' (first | exact h | assumption | apply State.beginStep_keeps | apply State.each_keeps | apply State.demand_keeps | exact keeps_refl _ | apply keepsOut_next | apply keeps_ite | apply keeps_ite_fst | apply keeps_ite_snd | split | intro _ | simp only [keeps_mk] | dsimp only))

theorem execStepBarrierRelease_keeps {σ s : State} (h : Keeps σ s) :
    KeepsOut σ (execStepBarrierRelease s) := by
  unfold execStepBarrierRelease
  with_reducible (repeat' (first | exact h | assumption | apply State.tryStep_keeps | apply State.rejoin_keeps | apply State.gateBegin_keeps | apply State.gateEnd_keeps | apply State.each_keeps | apply State.joinOne_keeps | exact keeps_refl _ | apply keepsOut_next | apply keeps_ite | apply keeps_ite_fst | apply keeps_ite_snd | split | intro _ | simp only [keeps_mk] | dsimp only))

theorem State.addStat_keeps {σ s : State} (h : Keeps σ s) (off : Nat) (w : Word) :
    Keeps σ (State.addStat s off w) := by
  unfold State.addStat
  with_reducible (repeat' (first | exact h | assumption | apply State.wrg64_keeps | exact keeps_refl _ | apply keepsOut_next | apply keeps_ite | apply keeps_ite_fst | apply keeps_ite_snd | split | intro _ | simp only [keeps_mk] | dsimp only))

theorem State.statRecord_keeps {σ s : State} (h : Keeps σ s) (i : Nat) (a : Nat) (final : Bool) :
    Keeps σ (State.statRecord s i a final) := by
  unfold State.statRecord
  with_reducible (repeat' (first | exact h | assumption | apply State.inc_keeps | apply State.addStat_keeps | exact keeps_refl _ | apply keepsOut_next | apply keeps_ite | apply keeps_ite_fst | apply keeps_ite_snd | split | intro _ | simp only [keeps_mk] | dsimp only))

theorem State.statWork_keeps {σ s : State} (h : Keeps σ s) (slot : Nat) (i : Nat) :
    Keeps σ (State.statWork s slot i) := by
  unfold State.statWork
  with_reducible (repeat' (first | exact h | assumption | apply State.inc_keeps | apply State.each_keeps | apply State.statRecord_keeps | exact keeps_refl _ | apply keepsOut_next | apply keeps_ite | apply keeps_ite_fst | apply keeps_ite_snd | split | intro _ | simp only [keeps_mk] | dsimp only))

theorem State.castStart_keeps {σ s : State} (h : Keeps σ s) (i : Nat) (commit : Bool) :
    Keeps σ (State.castStart s i commit) := by
  unfold State.castStart
  with_reducible (repeat' (first | exact h | assumption | apply State.setF_keeps | exact keeps_refl _ | apply keepsOut_next | apply keeps_ite | apply keeps_ite_fst | apply keeps_ite_snd | split | intro _ | simp only [keeps_mk] | dsimp only))

theorem State.sendAdvance_keeps {σ s : State} (h : Keeps σ s) (x : StepSt) (a : StagedAdvance) (pkg : Nat) :
    Keeps σ (State.sendAdvance s x a pkg) := by
  unfold State.sendAdvance
  with_reducible (repeat' (first | exact h | assumption | apply State.accept_keeps | apply State.setStep_keeps | exact keeps_refl _ | apply keepsOut_next | apply keeps_ite | apply keeps_ite_fst | apply keeps_ite_snd | split | intro _ | simp only [keeps_mk] | dsimp only))

theorem State.applyAdvance_keeps {σ s : State} (h : Keeps σ s) (x : StepSt) (a : StagedAdvance) :
    Keeps σ (State.applyAdvance s x a) := by
  unfold State.applyAdvance
  with_reducible (repeat' (first | exact h | assumption | apply State.advancePc_keeps | apply State.sendAdvance_keeps | exact keeps_refl _ | apply keepsOut_next | apply keeps_ite | apply keeps_ite_fst | apply keeps_ite_snd | split | intro _ | simp only [keeps_mk] | dsimp only))

theorem State.commitPoint_keeps {σ s : State} (h : Keeps σ s) (x : StepSt) :
    Keeps σ (State.commitPoint s x) := by
  unfold State.commitPoint
  with_reducible (repeat' (first | exact h | assumption | apply State.putJournalHeader_keeps | apply State.setStep_keeps | apply State.inc_keeps | apply State.each_keeps | apply State.applyAdvance_keeps | exact keeps_refl _ | apply keepsOut_next | apply keeps_ite | apply keeps_ite_fst | apply keeps_ite_snd | split | intro _ | simp only [keeps_mk] | dsimp only))

theorem State.commitWork_keeps {σ s : State} (h : Keeps σ s) (x : StepSt) :
    Keeps σ (State.commitWork s x) := by
  unfold State.commitWork
  with_reducible (repeat' (first | exact h | assumption | apply State.each_keeps | apply State.statWork_keeps | apply State.castStart_keeps | apply State.setStep_keeps | exact keeps_refl _ | apply keepsOut_next | apply keeps_ite | apply keeps_ite_fst | apply keeps_ite_snd | split | intro _ | simp only [keeps_mk] | dsimp only))

theorem State.zeroLater_keeps {σ s : State} (h : Keeps σ s) (n : Nat) (pages : List Nat) :
    Keeps σ (State.zeroLater s n pages) := by
  unfold State.zeroLater
  with_reducible (repeat' (first | exact h | assumption | exact keeps_refl _ | apply keepsOut_next | apply keeps_ite | apply keeps_ite_fst | apply keeps_ite_snd | split | intro _ | simp only [keeps_mk] | dsimp only))

theorem State.leaveQuietly_keeps {σ s : State} (h : Keeps σ s) (id : Nat) :
    Keeps σ (State.leaveQuietly s id) := by
  unfold State.leaveQuietly
  with_reducible (repeat' (first | exact h | assumption | apply State.zeroLater_keeps | apply State.account_keeps | apply State.setSeq_keeps | exact keeps_refl _ | apply keepsOut_next | apply keeps_ite | apply keeps_ite_fst | apply keeps_ite_snd | split | intro _ | simp only [keeps_mk] | dsimp only))

theorem State.stepDone_keeps {σ s : State} (h : Keeps σ s) (id : Nat) (outBytes : Nat) :
    Keeps σ (State.stepDone s id outBytes) := by
  unfold State.stepDone
  with_reducible (repeat' (first | exact h | assumption | apply State.setSeq_keeps | apply State.leaveQuietly_keeps | apply State.endSeq_keeps | exact keeps_refl _ | apply keepsOut_next | apply keeps_ite | apply keeps_ite_fst | apply keeps_ite_snd | split | intro _ | simp only [keeps_mk] | dsimp only))

theorem State.commitEnd_keeps {σ s : State} (h : Keeps σ s) (x : StepSt) :
    Keeps σ (State.commitEnd s x) := by
  unfold State.commitEnd
  with_reducible (repeat' (first | exact h | assumption | apply State.powerBoundary_keeps | apply State.setStep_keeps | apply State.each_keeps | apply State.stepDone_keeps | exact keeps_refl _ | apply keepsOut_next | apply keeps_ite | apply keeps_ite_fst | apply keeps_ite_snd | split | intro _ | simp only [keeps_mk] | dsimp only))

theorem execStepCommit_keeps {σ s : State} (h : Keeps σ s) :
    KeepsOut σ (execStepCommit s) := by
  unfold execStepCommit
  with_reducible (repeat' (first | exact h | assumption | apply State.commitPoint_keeps | apply State.commitWork_keeps | apply State.commitEnd_keeps | exact keeps_refl _ | apply keepsOut_next | apply keeps_ite | apply keeps_ite_fst | apply keeps_ite_snd | split | intro _ | simp only [keeps_mk] | dsimp only))

theorem execStepReplay_keeps {σ s : State} (h : Keeps σ s) :
    KeepsOut σ (execStepReplay s) := by
  unfold execStepReplay
  with_reducible (repeat' (first | exact h | assumption | apply State.setStep_keeps | apply State.packageFailed_keeps | apply State.endEpisodes_keeps | apply State.stopClusters_keeps | exact keeps_refl _ | apply keepsOut_next | apply keeps_ite | apply keeps_ite_fst | apply keeps_ite_snd | split | intro _ | simp only [keeps_mk] | dsimp only))

theorem State.restartStep_keeps {σ s : State} (h : Keeps σ s) (x : StepSt) :
    Keeps σ (State.restartStep s x) := by
  unfold State.restartStep
  with_reducible (repeat' (first | exact h | assumption | apply State.each_keeps | apply State.setSeq_keeps | apply State.setStep_keeps | apply State.inc_keeps | apply State.putJournalHeader_keeps | exact keeps_refl _ | apply keepsOut_next | apply keeps_ite | apply keeps_ite_fst | apply keeps_ite_snd | split | intro _ | simp only [keeps_mk] | dsimp only))

theorem execReplayRestart_keeps {σ s : State} (h : Keeps σ s) :
    KeepsOut σ (execReplayRestart s) := by
  unfold execReplayRestart
  with_reducible (repeat' (first | exact h | assumption | apply State.rollback_keeps | apply State.setStep_keeps | apply State.each_keeps | apply State.endSeq_keeps | apply State.restartStep_keeps | exact keeps_refl _ | apply keepsOut_next | apply keeps_ite | apply keeps_ite_fst | apply keeps_ite_snd | split | intro _ | simp only [keeps_mk] | dsimp only))

end Sys2Proof.Machine
end

