-- ==== Sys2Proof/Laws/KeepsPorts.lean ====
section
/-! SUPPORT. The operations and commands of Machine/Ports.lean leave the queue as it is, and keep memory and registers in their one form. -/

set_option linter.unusedTactic false
set_option linter.unreachableTactic false
set_option linter.unusedSimpArgs false

namespace Sys2Proof.Machine

theorem State.partialRecord_keeps {σ s : State} (h : Keeps σ s) (port : Nat) (group : Nat) (pkg : Nat) :
    Keeps σ (State.partialRecord s port group pkg) := by
  unfold State.partialRecord
  with_reducible (repeat' (first | exact h | assumption | apply State.flEvent_keeps | apply State.setF_keeps | apply State.inc_keeps | exact keeps_refl _ | apply keepsOut_next | apply keeps_ite | apply keeps_ite_fst | apply keeps_ite_snd | split | intro _ | simp only [keeps_mk] | dsimp only))

theorem State.partialEngine_keeps {σ s : State} (h : Keeps σ s) (tag : Nat) (port : Nat) (pkg : Nat) :
    Keeps σ (State.partialEngine s tag port pkg) := by
  unfold State.partialEngine
  with_reducible (repeat' (first | exact h | assumption | apply State.setF_keeps | exact keeps_refl _ | apply keepsOut_next | apply keeps_ite | apply keeps_ite_fst | apply keeps_ite_snd | split | intro _ | simp only [keeps_mk] | dsimp only))

theorem State.dropBranch_keeps {σ s : State} (h : Keeps σ s) (q : Nat) (p : FlPacket) :
    Keeps σ (State.dropBranch s q p) := by
  unfold State.dropBranch
  with_reducible (repeat' (first | exact h | assumption | apply State.partialRecord_keeps | apply State.partialEngine_keeps | apply State.sendOwn_keeps | exact keeps_refl _ | apply keepsOut_next | apply keeps_ite | apply keeps_ite_fst | apply keeps_ite_snd | split | intro _ | simp only [keeps_mk] | dsimp only))

theorem State.turnBack_keeps {σ s : State} (h : Keeps σ s) (p : FlPacket) :
    Keeps σ (State.turnBack s p) := by
  unfold State.turnBack
  with_reducible (repeat' (first | exact h | assumption | apply State.answer_keeps | exact keeps_refl _ | apply keepsOut_next | apply keeps_ite | apply keeps_ite_fst | apply keeps_ite_snd | split | intro _ | simp only [keeps_mk] | dsimp only))

theorem State.routeLost_keeps {σ s : State} (h : Keeps σ s) (r : FlReq) :
    Keeps σ (State.routeLost s r) := by
  unfold State.routeLost
  with_reducible (repeat' (first | exact h | assumption | apply State.markFailed_keeps | apply State.cond_keeps | apply State.inc_keeps | apply State.refresh_keeps | apply State.resend_keeps | exact keeps_refl _ | apply keepsOut_next | apply keeps_ite | apply keeps_ite_fst | apply keeps_ite_snd | split | intro _ | simp only [keeps_mk] | dsimp only))

theorem State.displaced_keeps {σ s : State} (h : Keeps σ s) (q : Nat) (p : FlPacket) :
    Keeps σ (State.displaced s q p) := by
  unfold State.displaced
  with_reducible (repeat' (first | exact h | assumption | apply State.dropBranch_keeps | apply State.routeLost_keeps | apply State.turnBack_keeps | exact keeps_refl _ | apply keepsOut_next | apply keeps_ite | apply keeps_ite_fst | apply keeps_ite_snd | split | intro _ | simp only [keeps_mk] | dsimp only))

theorem State.setPortState_keeps {σ s : State} (h : Keeps σ s) (p : Nat) (st : Nat) :
    Keeps σ (State.setPortState s p st) := by
  unfold State.setPortState
  with_reducible (repeat' (first | exact h | assumption | apply State.setF_keeps | exact keeps_refl _ | apply keepsOut_next | apply keeps_ite | apply keeps_ite_fst | apply keeps_ite_snd | split | intro _ | simp only [keeps_mk] | dsimp only))

theorem State.portStops_keeps {σ s : State} (h : Keeps σ s) (p : Nat) (st : Nat) :
    Keeps σ (State.portStops s p st) := by
  unfold State.portStops
  with_reducible (repeat' (first | exact h | assumption | apply State.setF_keeps | apply State.setPortState_keeps | apply State.setPort_keeps | apply State.refresh_keeps | apply State.each_keeps | apply State.displaced_keeps | exact keeps_refl _ | apply keepsOut_next | apply keeps_ite | apply keeps_ite_fst | apply keeps_ite_snd | split | intro _ | simp only [keeps_mk] | dsimp only))

theorem State.portDown_keeps {σ s : State} (h : Keeps σ s) (p : Nat) :
    Keeps σ (State.portDown s p) := by
  unfold State.portDown
  with_reducible (repeat' (first | exact h | assumption | apply State.flEvent_keeps | apply State.portStops_keeps | apply State.inc_keeps | apply State.summary_keeps | apply State.suspect_keeps | apply State.sendOwn_keeps | exact keeps_refl _ | apply keepsOut_next | apply keeps_ite | apply keeps_ite_fst | apply keeps_ite_snd | split | intro _ | simp only [keeps_mk] | dsimp only))

theorem State.retrain_keeps {σ s : State} (h : Keeps σ s) (p : Nat) :
    Keeps σ (State.retrain s p) := by
  unfold State.retrain
  with_reducible (repeat' (first | exact h | assumption | apply State.refresh_keeps | apply State.setPort_keeps | apply State.setPortState_keeps | exact keeps_refl _ | apply keepsOut_next | apply keeps_ite | apply keeps_ite_fst | apply keeps_ite_snd | split | intro _ | simp only [keeps_mk] | dsimp only))

theorem State.flCtrlWrite_keeps {σ s : State} (h : Keeps σ s) (p : Nat) (v : Word) :
    Keeps σ (State.flCtrlWrite s p v) := by
  unfold State.flCtrlWrite
  with_reducible (repeat' (first | exact h | assumption | apply State.plain_keeps | apply State.summary_keeps | apply State.portStops_keeps | apply State.setPortState_keeps | apply State.cond_keeps | apply State.retrain_keeps | exact keeps_refl _ | apply keepsOut_next | apply keeps_ite | apply keeps_ite_fst | apply keeps_ite_snd | split | intro _ | simp only [keeps_mk] | dsimp only))

theorem execFlPortEnable_keeps {σ s : State} (h : Keeps σ s) (p : Fin 16) (v : Word) :
    KeepsOut σ (execFlPortEnable p v s) := by
  unfold execFlPortEnable
  with_reducible (repeat' (first | exact h | assumption | apply State.hostWrite_keeps | apply State.flCtrlWrite_keeps | exact keeps_refl _ | apply keepsOut_next | apply keeps_ite | apply keeps_ite_fst | apply keeps_ite_snd | split | intro _ | simp only [keeps_mk] | dsimp only))

theorem execRetrain_keeps {σ s : State} (h : Keeps σ s) (p : Fin 16) (v : Word) :
    KeepsOut σ (execRetrain p v s) := by
  unfold execRetrain
  with_reducible (repeat' (first | exact h | assumption | apply State.hostWrite_keeps | apply State.flCtrlWrite_keeps | exact keeps_refl _ | apply keepsOut_next | apply keeps_ite | apply keeps_ite_fst | apply keeps_ite_snd | split | intro _ | simp only [keeps_mk] | dsimp only))

theorem State.clearMarks_keeps {σ s : State} (h : Keeps σ s) (p : Nat) :
    Keeps σ (State.clearMarks s p) := by
  unfold State.clearMarks
  with_reducible (repeat' (first | exact h | assumption | exact keeps_refl _ | apply keepsOut_next | apply keeps_ite | apply keeps_ite_fst | apply keeps_ite_snd | split | intro _ | simp only [keeps_mk] | dsimp only))

theorem State.limiterStart_keeps {σ s : State} (h : Keeps σ s) (p : Nat) :
    Keeps σ (State.limiterStart s p) := by
  unfold State.limiterStart
  with_reducible (repeat' (first | exact h | assumption | apply State.setPort_keeps | apply State.each_keeps | apply State.setF_keeps | exact keeps_refl _ | apply keepsOut_next | apply keeps_ite | apply keeps_ite_fst | apply keeps_ite_snd | split | intro _ | simp only [keeps_mk] | dsimp only))

theorem State.replayFrom_keeps {σ s : State} (h : Keeps σ s) (p : Nat) (b : Nat) :
    Keeps σ (State.replayFrom s p b) := by
  unfold State.replayFrom
  with_reducible (repeat' (first | exact h | assumption | apply State.each_keeps | apply State.emit_keeps | exact keeps_refl _ | apply keepsOut_next | apply keeps_ite | apply keeps_ite_fst | apply keeps_ite_snd | split | intro _ | simp only [keeps_mk] | dsimp only))

theorem execLinkTrained_keeps {σ s : State} (h : Keeps σ s) (p : Fin 16) (peerPort : BitVec 4) (peerPkg : BitVec 14) :
    KeepsOut σ (execLinkTrained p peerPort peerPkg s) := by
  unfold execLinkTrained
  with_reducible (repeat' (first | exact h | assumption | apply State.setF_keeps | apply State.setPortState_keeps | apply State.clearMarks_keeps | apply State.limiterStart_keeps | apply State.replayFrom_keeps | apply State.inc_keeps | apply State.summary_keeps | apply State.refresh_keeps | apply State.drain_keeps | exact keeps_refl _ | apply keepsOut_next | apply keeps_ite | apply keeps_ite_fst | apply keeps_ite_snd | split | intro _ | simp only [keeps_mk] | dsimp only))

theorem execTrainingRetry_keeps {σ s : State} (h : Keeps σ s) (p : Fin 16) :
    KeepsOut σ (execTrainingRetry p s) := by
  unfold execTrainingRetry
  with_reducible (repeat' (first | exact h | assumption | apply State.setPortState_keeps | exact keeps_refl _ | apply keepsOut_next | apply keeps_ite | apply keeps_ite_fst | apply keeps_ite_snd | split | intro _ | simp only [keeps_mk] | dsimp only))

theorem execLinkBlockReceive_keeps {σ s : State} (h : Keeps σ s) (p : Fin 16) (seq : BitVec 12) (ack : BitVec 12) (credits : List Nat) (crcOk : Bool) :
    KeepsOut σ (execLinkBlockReceive p seq ack credits crcOk s) := by
  unfold execLinkBlockReceive
  with_reducible (repeat' (first | exact h | assumption | apply State.emit_keeps | apply State.setPort_keeps | apply State.cond_keeps | apply State.retrain_keeps | apply State.drain_keeps | exact keeps_refl _ | apply keepsOut_next | apply keeps_ite | apply keeps_ite_fst | apply keeps_ite_snd | split | intro _ | simp only [keeps_mk] | dsimp only))

theorem execReplayRequest_keeps {σ s : State} (h : Keeps σ s) (p : Fin 16) (block : BitVec 12) :
    KeepsOut σ (execReplayRequest p block s) := by
  unfold execReplayRequest
  with_reducible (repeat' (first | exact h | assumption | apply State.replayFrom_keeps | apply State.inc_keeps | exact keeps_refl _ | apply keepsOut_next | apply keeps_ite | apply keeps_ite_fst | apply keeps_ite_snd | split | intro _ | simp only [keeps_mk] | dsimp only))

theorem execBlockLockLoss_keeps {σ s : State} (h : Keeps σ s) (p : Fin 16) :
    KeepsOut σ (execBlockLockLoss p s) := by
  unfold execBlockLockLoss
  with_reducible (repeat' (first | exact h | assumption | apply State.retrain_keeps | exact keeps_refl _ | apply keepsOut_next | apply keeps_ite | apply keeps_ite_fst | apply keeps_ite_snd | split | intro _ | simp only [keeps_mk] | dsimp only))

theorem execRetrainTimeout_keeps {σ s : State} (h : Keeps σ s) (p : Fin 16) :
    KeepsOut σ (execRetrainTimeout p s) := by
  unfold execRetrainTimeout
  with_reducible (repeat' (first | exact h | assumption | apply State.portDown_keeps | exact keeps_refl _ | apply keepsOut_next | apply keeps_ite | apply keeps_ite_fst | apply keeps_ite_snd | split | intro _ | simp only [keeps_mk] | dsimp only))

theorem execLaneRetire_keeps {σ s : State} (h : Keeps σ s) (p : Fin 16) (lane : Fin 5) :
    KeepsOut σ (execLaneRetire p lane s) := by
  unfold execLaneRetire
  with_reducible (repeat' (first | exact h | assumption | apply State.report_keeps | apply State.setF_keeps | apply State.retrain_keeps | apply State.flEvent_keeps | apply State.summary_keeps | apply State.setPort_keeps | apply State.portDown_keeps | exact keeps_refl _ | apply keepsOut_next | apply keeps_ite | apply keeps_ite_fst | apply keeps_ite_snd | split | intro _ | simp only [keeps_mk] | dsimp only))

theorem execFlWaitTimeout_keeps {σ s : State} (h : Keeps σ s) (p : Fin 16) (k : Nat) :
    KeepsOut σ (execFlWaitTimeout p k s) := by
  unfold execFlWaitTimeout
  with_reducible (repeat' (first | exact h | assumption | apply State.drain_keeps | apply State.inc_keeps | apply State.setPort_keeps | exact keeps_refl _ | apply keepsOut_next | apply keeps_ite | apply keeps_ite_fst | apply keeps_ite_snd | split | intro _ | simp only [keeps_mk] | dsimp only))

theorem execLimiterWindow_keeps {σ s : State} (h : Keeps σ s) (p : Fin 16) (v : Fin 4) :
    KeepsOut σ (execLimiterWindow p v s) := by
  unfold execLimiterWindow
  with_reducible (repeat' (first | exact h | assumption | apply State.setPort_keeps | apply State.setF_keeps | exact keeps_refl _ | apply keepsOut_next | apply keeps_ite | apply keeps_ite_fst | apply keeps_ite_snd | split | intro _ | simp only [keeps_mk] | dsimp only))

theorem execLimiterRamp_keeps {σ s : State} (h : Keeps σ s) (p : Fin 16) (v : Fin 4) :
    KeepsOut σ (execLimiterRamp p v s) := by
  unfold execLimiterRamp
  with_reducible (repeat' (first | exact h | assumption | apply State.setF_keeps | exact keeps_refl _ | apply keepsOut_next | apply keeps_ite | apply keeps_ite_fst | apply keeps_ite_snd | split | intro _ | simp only [keeps_mk] | dsimp only))

theorem State.stageWrite_keeps {σ s : State} (h : Keeps σ s) (off : Nat) (v : Word) :
    Keeps σ (State.stageWrite s off v) := by
  unfold State.stageWrite
  with_reducible (repeat' (first | exact h | assumption | exact keeps_refl _ | apply keepsOut_next | apply keeps_ite | apply keeps_ite_fst | apply keeps_ite_snd | split | intro _ | simp only [keeps_mk] | dsimp only))

theorem State.keyWrite_keeps {σ s : State} (h : Keeps σ s) (off : Nat) (offN : Nat) (v : Word) :
    Keeps σ (State.keyWrite s off offN v) := by
  unfold State.keyWrite
  with_reducible (repeat' (first | exact h | assumption | apply State.wrg_keeps | apply State.hostMismatch_keeps | exact keeps_refl _ | apply keepsOut_next | apply keeps_ite | apply keeps_ite_fst | apply keeps_ite_snd | split | intro _ | simp only [keeps_mk] | dsimp only))

theorem execFlKeyCommit_keeps {σ s : State} (h : Keeps σ s) (p : Fin 16) (k : Fin 16) (v : Word) :
    KeepsOut σ (execFlKeyCommit p k v s) := by
  unfold execFlKeyCommit
  with_reducible (repeat' (first | exact h | assumption | apply State.hostWrite_keeps | apply State.keyWrite_keeps | exact keeps_refl _ | apply keepsOut_next | apply keeps_ite | apply keeps_ite_fst | apply keeps_ite_snd | split | intro _ | simp only [keeps_mk] | dsimp only))

theorem execInstKeyCommit_keeps {σ s : State} (h : Keeps σ s) (i : Fin 64) (v : Word) :
    KeepsOut σ (execInstKeyCommit i v s) := by
  unfold execInstKeyCommit
  with_reducible (repeat' (first | exact h | assumption | apply State.hostWrite_keeps | apply State.keyWrite_keeps | exact keeps_refl _ | apply keepsOut_next | apply keeps_ite | apply keeps_ite_fst | apply keeps_ite_snd | split | intro _ | simp only [keeps_mk] | dsimp only))

theorem State.srcIdWrite_keeps {σ s : State} (h : Keeps σ s) (v : Word) :
    Keeps σ (State.srcIdWrite s v) := by
  unfold State.srcIdWrite
  with_reducible (repeat' (first | exact h | assumption | apply State.hostMismatch_keeps | apply State.plain_keeps | exact keeps_refl _ | apply keepsOut_next | apply keeps_ite | apply keeps_ite_fst | apply keeps_ite_snd | split | intro _ | simp only [keeps_mk] | dsimp only))

theorem execFlSrcIdWrite_keeps {σ s : State} (h : Keeps σ s) (v : Word) :
    KeepsOut σ (execFlSrcIdWrite v s) := by
  unfold execFlSrcIdWrite
  with_reducible (repeat' (first | exact h | assumption | apply State.hostWrite_keeps | apply State.srcIdWrite_keeps | exact keeps_refl _ | apply keepsOut_next | apply keeps_ite | apply keeps_ite_fst | apply keeps_ite_snd | split | intro _ | simp only [keeps_mk] | dsimp only))

end Sys2Proof.Machine
end

