-- ==== Sys2Proof/Laws/KeepsPackets.lean ====
section
/-! SUPPORT. The operations and commands of Machine/Packets.lean leave the queue as it is, and keep memory and registers in their one form. -/

set_option linter.unusedTactic false
set_option linter.unreachableTactic false
set_option linter.unusedSimpArgs false

namespace Sys2Proof.Machine

theorem State.nackPkey_keeps {σ s : State} (h : Keeps σ s) (p : FlPacket) :
    Keeps σ (State.nackPkey s p) := by
  unfold State.nackPkey
  with_reducible (repeat' (first | exact h | assumption | apply State.depart_keeps | exact keeps_refl _ | apply keepsOut_next | apply keeps_ite | apply keeps_ite_fst | apply keeps_ite_snd | split | intro _ | simp only [keeps_mk] | dsimp only))

theorem State.rejectKey_keeps {σ s : State} (h : Keeps σ s) (q : Nat) (p : FlPacket) :
    Keeps σ (State.rejectKey s q p) := by
  unfold State.rejectKey
  with_reducible (repeat' (first | exact h | assumption | apply State.partReject_keeps | apply State.nackPkey_keeps | exact keeps_refl _ | apply keepsOut_next | apply keeps_ite | apply keeps_ite_fst | apply keeps_ite_snd | split | intro _ | simp only [keeps_mk] | dsimp only))

theorem State.epochCheck_keeps {σ s : State} (h : Keeps σ s) (p : FlPacket) :
    Keeps σ (State.epochCheck s p).1 := by
  unfold State.epochCheck
  with_reducible (repeat' (first | exact h | assumption | exact keeps_refl _ | apply keepsOut_next | apply keeps_ite | apply keeps_ite_fst | apply keeps_ite_snd | split | intro _ | simp only [keeps_mk] | dsimp only))

theorem State.deliver_keeps {σ s : State} (h : Keeps σ s) (q : Nat) (p : FlPacket) :
    Keeps σ (State.deliver s q p) := by
  unfold State.deliver
  with_reducible (repeat' (first | exact h | assumption | apply State.inc_keeps | apply State.emit_keeps | apply State.epochCheck_keeps | apply State.wakeTrigger_keeps | apply State.nack_keeps | exact keeps_refl _ | apply keepsOut_next | apply keeps_ite | apply keeps_ite_fst | apply keeps_ite_snd | split | intro _ | simp only [keeps_mk] | dsimp only))

theorem State.forward_keeps {σ s : State} (h : Keeps σ s) (p : FlPacket) :
    Keeps σ (State.forward s p) := by
  unfold State.forward
  with_reducible (repeat' (first | exact h | assumption | apply State.turnBack_keeps | apply State.rejectKey_keeps | apply State.depart_keeps | exact keeps_refl _ | apply keepsOut_next | apply keeps_ite | apply keeps_ite_fst | apply keeps_ite_snd | split | intro _ | simp only [keeps_mk] | dsimp only))

theorem execFlaridHeadArrive_keeps {σ s : State} (h : Keeps σ s) (q : Fin 16) (p : FlPacket) :
    KeepsOut σ (execFlaridHeadArrive q p s) := by
  unfold execFlaridHeadArrive
  with_reducible (repeat' (first | exact h | assumption | apply State.free_keeps | apply State.cplMismatch_keeps | apply State.rejectKey_keeps | apply State.emit_keeps | apply State.deliver_keeps | apply State.forward_keeps | exact keeps_refl _ | apply keepsOut_next | apply keeps_ite | apply keeps_ite_fst | apply keeps_ite_snd | split | intro _ | simp only [keeps_mk] | dsimp only))

theorem execRead_keeps {σ s : State} (h : Keeps σ s) (q : Fin 16) (p : FlPacket) :
    KeepsOut σ (execRead q p s) := by
  unfold execRead
  with_reducible (repeat' (first | exact h | assumption | apply State.nack_keeps | apply State.demand_keeps | apply State.answer_keeps | exact keeps_refl _ | apply keepsOut_next | apply keeps_ite | apply keeps_ite_fst | apply keeps_ite_snd | split | intro _ | simp only [keeps_mk] | dsimp only))

theorem execWrite_keeps {σ s : State} (h : Keeps σ s) (q : Fin 16) (p : FlPacket) :
    KeepsOut σ (execWrite q p s) := by
  unfold execWrite
  with_reducible (repeat' (first | exact h | assumption | apply State.nack_keeps | apply State.demand_keeps | apply State.hubWrite_keeps | apply State.answer_keeps | exact keeps_refl _ | apply keepsOut_next | apply keeps_ite | apply keeps_ite_fst | apply keeps_ite_snd | split | intro _ | simp only [keeps_mk] | dsimp only))

theorem State.once_keeps {σ s : State} (h : Keeps σ s) (p : FlPacket) (f : State → State × Nat × Nat × Nat) (hf : ∀ u0, Keeps u0 (f u0).1) :
    Keeps σ (State.once s p f) := by
  unfold State.once
  with_reducible (repeat' (first | exact h | assumption | refine keeps_trans ?_ (hf _) | apply State.answer_keeps | apply State.inc_keeps | apply State.nack_keeps | exact keeps_refl _ | apply keepsOut_next | apply keeps_ite | apply keeps_ite_fst | apply keeps_ite_snd | split | intro _ | simp only [keeps_mk] | dsimp only))

theorem execAtomicAdd_keeps {σ s : State} (h : Keeps σ s) (q : Fin 16) (p : FlPacket) :
    KeepsOut σ (execAtomicAdd q p s) := by
  unfold execAtomicAdd
  with_reducible (repeat' (first | exact h | assumption | apply State.demand_keeps | apply State.once_keeps | apply State.hubWrite_keeps | exact keeps_refl _ | apply keepsOut_next | apply keeps_ite | apply keeps_ite_fst | apply keeps_ite_snd | split | intro _ | simp only [keeps_mk] | dsimp only))

theorem execCounterAdd_keeps {σ s : State} (h : Keeps σ s) (q : Fin 16) (p : FlPacket) :
    KeepsOut σ (execCounterAdd q p s) := by
  unfold execCounterAdd
  with_reducible (repeat' (first | exact h | assumption | apply State.once_keeps | apply State.advancePc_keeps | apply State.free_keeps | exact keeps_refl _ | apply keepsOut_next | apply keeps_ite | apply keeps_ite_fst | apply keeps_ite_snd | split | intro _ | simp only [keeps_mk] | dsimp only))

theorem State.takeEcho_keeps {σ s : State} (h : Keeps σ s) (r : FlReq) (p : FlPacket) :
    Keeps σ (State.takeEcho s r p) := by
  unfold State.takeEcho
  with_reducible (repeat' (first | exact h | assumption | apply State.setPort_keeps | exact keeps_refl _ | apply keepsOut_next | apply keeps_ite | apply keeps_ite_fst | apply keeps_ite_snd | split | intro _ | simp only [keeps_mk] | dsimp only))

theorem State.flReplyTo_keeps {σ s : State} (h : Keeps σ s) (p : FlPacket) (f : State → FlReq → State) (hf : ∀ u0 u1, Keeps u0 (f u0 u1)) :
    Keeps σ (State.flReplyTo s p f) := by
  unfold State.flReplyTo
  with_reducible (repeat' (first | exact h | assumption | refine keeps_trans ?_ (hf _ _) | apply State.takeEcho_keeps | apply State.inc_keeps | exact keeps_refl _ | apply keepsOut_next | apply keeps_ite | apply keeps_ite_fst | apply keeps_ite_snd | split | intro _ | simp only [keeps_mk] | dsimp only))

theorem execReadData_keeps {σ s : State} (h : Keeps σ s) (p : FlPacket) :
    KeepsOut σ (execReadData p s) := by
  unfold execReadData
  with_reducible (repeat' (first | exact h | assumption | apply State.flReplyTo_keeps | apply State.upCl_keeps | apply State.untrack_keeps | apply State.settle_keeps | exact keeps_refl _ | apply keepsOut_next | apply keeps_ite | apply keeps_ite_fst | apply keeps_ite_snd | split | intro _ | simp only [keeps_mk] | dsimp only))

theorem execFlAck_keeps {σ s : State} (h : Keeps σ s) (p : FlPacket) :
    KeepsOut σ (execFlAck p s) := by
  unfold execFlAck
  with_reducible (repeat' (first | exact h | assumption | apply State.flReplyTo_keeps | apply State.untrack_keeps | apply State.settle_keeps | exact keeps_refl _ | apply keepsOut_next | apply keeps_ite | apply keeps_ite_fst | apply keeps_ite_snd | split | intro _ | simp only [keeps_mk] | dsimp only))

theorem execNack_keeps {σ s : State} (h : Keeps σ s) (p : FlPacket) :
    KeepsOut σ (execNack p s) := by
  unfold execNack
  with_reducible (repeat' (first | exact h | assumption | apply State.flReplyTo_keeps | apply State.inc_keeps | apply State.untrack_keeps | apply State.settle_keeps | apply State.refuse_keeps | exact keeps_refl _ | apply keepsOut_next | apply keeps_ite | apply keeps_ite_fst | apply keeps_ite_snd | split | intro _ | simp only [keeps_mk] | dsimp only))

theorem execNackResend_keeps {σ s : State} (h : Keeps σ s) (id : Word) :
    KeepsOut σ (execNackResend id s) := by
  unfold execNackResend
  with_reducible (repeat' (first | exact h | assumption | apply State.resend_keeps | exact keeps_refl _ | apply keepsOut_next | apply keeps_ite | apply keeps_ite_fst | apply keeps_ite_snd | split | intro _ | simp only [keeps_mk] | dsimp only))

theorem execFlReturn_keeps {σ s : State} (h : Keeps σ s) (p : FlPacket) :
    KeepsOut σ (execFlReturn p s) := by
  unfold execFlReturn
  with_reducible (repeat' (first | exact h | assumption | apply State.routeLost_keeps | apply State.inc_keeps | exact keeps_refl _ | apply keepsOut_next | apply keeps_ite | apply keeps_ite_fst | apply keeps_ite_snd | split | intro _ | simp only [keeps_mk] | dsimp only))

theorem execRequestTimeout_keeps {σ s : State} (h : Keeps σ s) (id : Word) :
    KeepsOut σ (execRequestTimeout id s) := by
  unfold execRequestTimeout
  with_reducible (repeat' (first | exact h | assumption | apply State.inc_keeps | apply State.routeLost_keeps | apply State.resend_keeps | apply State.cond_keeps | exact keeps_refl _ | apply keepsOut_next | apply keeps_ite | apply keeps_ite_fst | apply keeps_ite_snd | split | intro _ | simp only [keeps_mk] | dsimp only))

theorem execFencedInject_keeps {σ s : State} (h : Keeps σ s) (id : Word) :
    KeepsOut σ (execFencedInject id s) := by
  unfold execFencedInject
  with_reducible (repeat' (first | exact h | assumption | apply State.inject_keeps | exact keeps_refl _ | apply keepsOut_next | apply keeps_ite | apply keeps_ite_fst | apply keeps_ite_snd | split | intro _ | simp only [keeps_mk] | dsimp only))

theorem execNotice_keeps {σ s : State} (h : Keeps σ s) (p : FlPacket) :
    KeepsOut σ (execNotice p s) := by
  unfold execNotice
  with_reducible (repeat' (first | exact h | assumption | apply State.partialEngine_keeps | apply State.partialRecord_keeps | apply State.report_keeps | exact keeps_refl _ | apply keepsOut_next | apply keeps_ite | apply keeps_ite_fst | apply keeps_ite_snd | split | intro _ | simp only [keeps_mk] | dsimp only))

theorem execRouteMarkExpire_keeps {σ s : State} (h : Keeps σ s) (dest : BitVec 14) (r : Fin 4) :
    KeepsOut σ (execRouteMarkExpire dest r s) := by
  unfold execRouteMarkExpire
  with_reducible (repeat' (first | exact h | assumption | apply State.refresh_keeps | apply State.setRouteEnt_keeps | exact keeps_refl _ | apply keepsOut_next | apply keeps_ite | apply keeps_ite_fst | apply keeps_ite_snd | split | intro _ | simp only [keeps_mk] | dsimp only))

theorem execEpochExpire_keeps {σ s : State} (h : Keeps σ s) (src : BitVec 14) :
    KeepsOut σ (execEpochExpire src s) := by
  unfold execEpochExpire
  with_reducible (repeat' (first | exact h | assumption | exact keeps_refl _ | apply keepsOut_next | apply keeps_ite | apply keeps_ite_fst | apply keeps_ite_snd | split | intro _ | simp only [keeps_mk] | dsimp only))

theorem execDupEntryExpire_keeps {σ s : State} (h : Keeps σ s) (src : BitVec 14) (id : Word) :
    KeepsOut σ (execDupEntryExpire src id s) := by
  unfold execDupEntryExpire
  with_reducible (repeat' (first | exact h | assumption | exact keeps_refl _ | apply keepsOut_next | apply keeps_ite | apply keeps_ite_fst | apply keeps_ite_snd | split | intro _ | simp only [keeps_mk] | dsimp only))

theorem execRouteCacheExpire_keeps {σ s : State} (h : Keeps σ s) (p : Fin 16) (dest : BitVec 14) :
    KeepsOut σ (execRouteCacheExpire p dest s) := by
  unfold execRouteCacheExpire
  with_reducible (repeat' (first | exact h | assumption | apply State.setPort_keeps | exact keeps_refl _ | apply keepsOut_next | apply keeps_ite | apply keeps_ite_fst | apply keeps_ite_snd | split | intro _ | simp only [keeps_mk] | dsimp only))

theorem State.rtRead_keeps {σ s : State} (h : Keeps σ s) :
    Keeps σ (State.rtRead s) := by
  unfold State.rtRead
  with_reducible (repeat' (first | exact h | assumption | apply State.setF_keeps | apply State.each_keeps | apply State.wrg_keeps | exact keeps_refl _ | apply keepsOut_next | apply keeps_ite | apply keeps_ite_fst | apply keeps_ite_snd | split | intro _ | simp only [keeps_mk] | dsimp only))

theorem State.rtWrite_keeps {σ s : State} (h : Keeps σ s) :
    Keeps σ (State.rtWrite s) := by
  unfold State.rtWrite
  with_reducible (repeat' (first | exact h | assumption | apply State.hostMismatch_keeps | apply State.setF_keeps | apply State.setRouteEnt_keeps | apply State.refresh_keeps | exact keeps_refl _ | apply keepsOut_next | apply keeps_ite | apply keeps_ite_fst | apply keeps_ite_snd | split | intro _ | simp only [keeps_mk] | dsimp only))

theorem execRtRead_keeps {σ s : State} (h : Keeps σ s) :
    KeepsOut σ (execRtRead s) := by
  unfold execRtRead
  with_reducible (repeat' (first | exact h | assumption | apply State.hostWrite_keeps | apply State.rtRead_keeps | exact keeps_refl _ | apply keepsOut_next | apply keeps_ite | apply keeps_ite_fst | apply keeps_ite_snd | split | intro _ | simp only [keeps_mk] | dsimp only))

theorem execRtWrite_keeps {σ s : State} (h : Keeps σ s) :
    KeepsOut σ (execRtWrite s) := by
  unfold execRtWrite
  with_reducible (repeat' (first | exact h | assumption | apply State.hostWrite_keeps | apply State.rtWrite_keeps | exact keeps_refl _ | apply keepsOut_next | apply keeps_ite | apply keeps_ite_fst | apply keeps_ite_snd | split | intro _ | simp only [keeps_mk] | dsimp only))

theorem State.mcRead_keeps {σ s : State} (h : Keeps σ s) :
    Keeps σ (State.mcRead s) := by
  unfold State.mcRead
  with_reducible (repeat' (first | exact h | assumption | apply State.setF_keeps | apply State.wrg_keeps | exact keeps_refl _ | apply keepsOut_next | apply keeps_ite | apply keeps_ite_fst | apply keeps_ite_snd | split | intro _ | simp only [keeps_mk] | dsimp only))

theorem State.mcWrite_keeps {σ s : State} (h : Keeps σ s) :
    Keeps σ (State.mcWrite s) := by
  unfold State.mcWrite
  with_reducible (repeat' (first | exact h | assumption | apply State.hostMismatch_keeps | apply State.setF_keeps | exact keeps_refl _ | apply keepsOut_next | apply keeps_ite | apply keeps_ite_fst | apply keeps_ite_snd | split | intro _ | simp only [keeps_mk] | dsimp only))

theorem execMcRead_keeps {σ s : State} (h : Keeps σ s) :
    KeepsOut σ (execMcRead s) := by
  unfold execMcRead
  with_reducible (repeat' (first | exact h | assumption | apply State.hostWrite_keeps | apply State.mcRead_keeps | exact keeps_refl _ | apply keepsOut_next | apply keeps_ite | apply keeps_ite_fst | apply keeps_ite_snd | split | intro _ | simp only [keeps_mk] | dsimp only))

theorem execMcWrite_keeps {σ s : State} (h : Keeps σ s) :
    KeepsOut σ (execMcWrite s) := by
  unfold execMcWrite
  with_reducible (repeat' (first | exact h | assumption | apply State.hostWrite_keeps | apply State.mcWrite_keeps | exact keeps_refl _ | apply keepsOut_next | apply keeps_ite | apply keeps_ite_fst | apply keeps_ite_snd | split | intro _ | simp only [keeps_mk] | dsimp only))

theorem State.branch_keeps {σ s : State} (h : Keeps σ s) (p : FlPacket) (q : Nat) :
    Keeps σ (State.branch s p q) := by
  unfold State.branch
  with_reducible (repeat' (first | exact h | assumption | apply State.dropBranch_keeps | apply State.partReject_keeps | apply State.depart_keeps | exact keeps_refl _ | apply keepsOut_next | apply keeps_ite | apply keeps_ite_fst | apply keeps_ite_snd | split | intro _ | simp only [keeps_mk] | dsimp only))

theorem State.replicate_keeps {σ s : State} (h : Keeps σ s) (arrival : Option Nat) (p : FlPacket) :
    Keeps σ (State.replicate s arrival p) := by
  unfold State.replicate
  with_reducible (repeat' (first | exact h | assumption | apply State.inc_keeps | apply State.each_keeps | apply State.branch_keeps | exact keeps_refl _ | apply keepsOut_next | apply keeps_ite | apply keeps_ite_fst | apply keeps_ite_snd | split | intro _ | simp only [keeps_mk] | dsimp only))

theorem State.mcCount_keeps {σ s : State} (h : Keeps σ s) (g : Nat) (i : Nat) :
    Keeps σ (State.mcCount s g i) := by
  unfold State.mcCount
  with_reducible (repeat' (first | exact h | assumption | apply State.advancePc_keeps | apply State.free_keeps | apply State.inc_keeps | exact keeps_refl _ | apply keepsOut_next | apply keeps_ite | apply keeps_ite_fst | apply keeps_ite_snd | split | intro _ | simp only [keeps_mk] | dsimp only))

theorem State.mcDeliver_keeps {σ s : State} (h : Keeps σ s) (q : Nat) (p : FlPacket) :
    Keeps σ (State.mcDeliver s q p) := by
  unfold State.mcDeliver
  with_reducible (repeat' (first | exact h | assumption | apply State.inc_keeps | apply State.wakeTrigger_keeps | apply State.mcCount_keeps | apply State.hubWrite_keeps | exact keeps_refl _ | apply keepsOut_next | apply keeps_ite | apply keeps_ite_fst | apply keeps_ite_snd | split | intro _ | simp only [keeps_mk] | dsimp only))

theorem execMcastWrite_keeps {σ s : State} (h : Keeps σ s) (q : Fin 16) (p : FlPacket) :
    KeepsOut σ (execMcastWrite q p s) := by
  unfold execMcastWrite
  with_reducible (repeat' (first | exact h | assumption | apply State.demand_keeps | apply State.replicate_keeps | apply State.mcDeliver_keeps | exact keeps_refl _ | apply keepsOut_next | apply keeps_ite | apply keeps_ite_fst | apply keeps_ite_snd | split | intro _ | simp only [keeps_mk] | dsimp only))

end Sys2Proof.Machine
end

