-- ==== Sys2Proof/Laws/KeepsExchange.lean ====
section
/-! SUPPORT. The operations and commands of Machine/Exchange.lean leave the queue as it is, and keep memory and registers in their one form. -/

set_option linter.unusedTactic false
set_option linter.unreachableTactic false
set_option linter.unusedSimpArgs false

namespace Sys2Proof.Machine

theorem State.gateWrite_keeps {σ s : State} (h : Keeps σ s) (i : Nat) (v : Word) :
    Keeps σ (State.gateWrite s i v) := by
  unfold State.gateWrite
  with_reducible (repeat' (first | exact h | assumption | apply State.setF_keeps | apply State.plain_keeps | apply State.wrg_keeps | apply State.wrg64_keeps | apply State.gateEnd_keeps | exact keeps_refl _ | apply keepsOut_next | apply keeps_ite | apply keeps_ite_fst | apply keeps_ite_snd | split | intro _ | simp only [keeps_mk] | dsimp only))

theorem execGateArm_keeps {σ s : State} (h : Keeps σ s) (i : Fin 64) (v : Word) :
    KeepsOut σ (execGateArm i v s) := by
  unfold execGateArm
  with_reducible (repeat' (first | exact h | assumption | apply State.hostWrite_keeps | apply State.gateWrite_keeps | exact keeps_refl _ | apply keepsOut_next | apply keeps_ite | apply keeps_ite_fst | apply keeps_ite_snd | split | intro _ | simp only [keeps_mk] | dsimp only))

theorem State.castWrite_keeps {σ s : State} (h : Keeps σ s) (i : Nat) (v : Word) :
    Keeps σ (State.castWrite s i v) := by
  unfold State.castWrite
  with_reducible (repeat' (first | exact h | assumption | apply State.plain_keeps | apply State.castStart_keeps | exact keeps_refl _ | apply keepsOut_next | apply keeps_ite | apply keeps_ite_fst | apply keeps_ite_snd | split | intro _ | simp only [keeps_mk] | dsimp only))

theorem execBroadcastGo_keeps {σ s : State} (h : Keeps σ s) (i : Fin 64) (v : Word) :
    KeepsOut σ (execBroadcastGo i v s) := by
  unfold execBroadcastGo
  with_reducible (repeat' (first | exact h | assumption | apply State.hostWrite_keeps | apply State.castWrite_keeps | exact keeps_refl _ | apply keepsOut_next | apply keeps_ite | apply keeps_ite_fst | apply keeps_ite_snd | split | intro _ | simp only [keeps_mk] | dsimp only))

theorem State.castSend_keeps {σ s : State} (h : Keeps σ s) (i : Nat) (group : Nat) (a : Nat) (z0 : Nat) (z1 : Nat) :
    Keeps σ (State.castSend s i group a z0 z1) := by
  induction z1 generalizing i group a z0 s with
  | zero =>
    unfold State.castSend
    with_reducible (repeat' (first | exact h | assumption | apply ih | apply State.replicate_keeps | exact keeps_refl _ | apply keepsOut_next | apply keeps_ite | apply keeps_ite_fst | apply keeps_ite_snd | split | intro _ | simp only [keeps_mk] | dsimp only))
  | succ f ih =>
    unfold State.castSend
    with_reducible (repeat' (first | exact h | assumption | apply ih | apply State.replicate_keeps | exact keeps_refl _ | apply keepsOut_next | apply keeps_ite | apply keeps_ite_fst | apply keeps_ite_snd | split | intro _ | simp only [keeps_mk] | dsimp only))

theorem execBroadcastDone_keeps {σ s : State} (h : Keeps σ s) (i : Fin 64) :
    KeepsOut σ (execBroadcastDone i s) := by
  unfold execBroadcastDone
  with_reducible (repeat' (first | exact h | assumption | apply State.demand_keeps | apply State.castSend_keeps | apply State.setF_keeps | exact keeps_refl _ | apply keepsOut_next | apply keeps_ite | apply keeps_ite_fst | apply keeps_ite_snd | split | intro _ | simp only [keeps_mk] | dsimp only))

theorem State.statClear_keeps {σ s : State} (h : Keeps σ s) (i : Nat) :
    Keeps σ (State.statClear s i) := by
  unfold State.statClear
  with_reducible (repeat' (first | exact h | assumption | apply State.wrg64_keeps | apply State.wrg_keeps | exact keeps_refl _ | apply keepsOut_next | apply keeps_ite | apply keeps_ite_fst | apply keeps_ite_snd | split | intro _ | simp only [keeps_mk] | dsimp only))

theorem State.statWrite_keeps {σ s : State} (h : Keeps σ s) (i : Nat) (v : Word) :
    Keeps σ (State.statWrite s i v) := by
  unfold State.statWrite
  with_reducible (repeat' (first | exact h | assumption | apply State.setF_keeps | apply State.plain_keeps | apply State.statClear_keeps | exact keeps_refl _ | apply keepsOut_next | apply keeps_ite | apply keeps_ite_fst | apply keeps_ite_snd | split | intro _ | simp only [keeps_mk] | dsimp only))

theorem execStatArm_keeps {σ s : State} (h : Keeps σ s) (i : Fin 64) (v : Word) :
    KeepsOut σ (execStatArm i v s) := by
  unfold execStatArm
  with_reducible (repeat' (first | exact h | assumption | apply State.hostWrite_keeps | apply State.statWrite_keeps | exact keeps_refl _ | apply keepsOut_next | apply keeps_ite | apply keeps_ite_fst | apply keeps_ite_snd | split | intro _ | simp only [keeps_mk] | dsimp only))

theorem execStatClear_keeps {σ s : State} (h : Keeps σ s) (i : Fin 64) (v : Word) :
    KeepsOut σ (execStatClear i v s) := by
  unfold execStatClear
  with_reducible (repeat' (first | exact h | assumption | apply State.hostWrite_keeps | apply State.statWrite_keeps | exact keeps_refl _ | apply keepsOut_next | apply keeps_ite | apply keeps_ite_fst | apply keeps_ite_snd | split | intro _ | simp only [keeps_mk] | dsimp only))

end Sys2Proof.Machine
end

