-- ==== Sys2Proof/Laws/KeepsSessions.lean ====
section
/-! SUPPORT. The operations and commands of Machine/Sessions.lean leave the queue as it is, and keep memory and registers in their one form. -/

set_option linter.unusedTactic false
set_option linter.unreachableTactic false
set_option linter.unusedSimpArgs false

namespace Sys2Proof.Machine

theorem State.ethDrop_keeps {σ s : State} (h : Keeps σ s) (p : Nat) :
    Keeps σ (State.ethDrop s p) := by
  unfold State.ethDrop
  with_reducible (repeat' (first | exact h | assumption | apply State.inc_keeps | exact keeps_refl _ | apply keepsOut_next | apply keeps_ite | apply keeps_ite_fst | apply keeps_ite_snd | split | intro _ | simp only [keeps_mk] | dsimp only))

theorem State.sendPause_keeps {σ s : State} (h : Keeps σ s) (p : Nat) (sub : Nat) (q : Nat) (quanta : Nat) :
    Keeps σ (State.sendPause s p sub q quanta) := by
  unfold State.sendPause
  with_reducible (repeat' (first | exact h | assumption | apply State.emit_keeps | exact keeps_refl _ | apply keepsOut_next | apply keeps_ite | apply keeps_ite_fst | apply keeps_ite_snd | split | intro _ | simp only [keeps_mk] | dsimp only))

theorem State.rxLevel_keeps {σ s : State} (h : Keeps σ s) (p : Nat) (sub : Nat) (q : Nat) (fill : Nat) :
    Keeps σ (State.rxLevel s p sub q fill) := by
  unfold State.rxLevel
  with_reducible (repeat' (first | exact h | assumption | apply State.sendPause_keeps | exact keeps_refl _ | apply keepsOut_next | apply keeps_ite | apply keeps_ite_fst | apply keeps_ite_snd | split | intro _ | simp only [keeps_mk] | dsimp only))

theorem State.headerIn_keeps {σ s : State} (h : Keeps σ s) (p : Nat) (sub : Nat) (d : Datagram) :
    Keeps σ (State.headerIn s p sub d) := by
  unfold State.headerIn
  with_reducible (repeat' (first | exact h | assumption | apply State.ethDrop_keeps | apply State.cplMismatch_keeps | apply State.emit_keeps | exact keeps_refl _ | apply keepsOut_next | apply keeps_ite | apply keeps_ite_fst | apply keeps_ite_snd | split | intro _ | simp only [keeps_mk] | dsimp only))

theorem execEthFrameReceive_keeps {σ s : State} (h : Keeps σ s) (p : Fin 4) (sub : BitVec 2) (f : EthFrame) (fill : Nat) :
    KeepsOut σ (execEthFrameReceive p sub f fill s) := by
  unfold execEthFrameReceive
  with_reducible (repeat' (first | exact h | assumption | apply State.ethDrop_keeps | apply State.inc_keeps | apply State.rxLevel_keeps | apply State.headerIn_keeps | exact keeps_refl _ | apply keepsOut_next | apply keeps_ite | apply keeps_ite_fst | apply keeps_ite_snd | split | intro _ | simp only [keeps_mk] | dsimp only))

theorem State.groupsAgain_keeps {σ s : State} (h : Keeps σ s) :
    Keeps σ (State.groupsAgain s) := by
  unfold State.groupsAgain
  with_reducible (repeat' (first | exact h | assumption | apply State.each_keeps | apply State.groupStep_keeps | exact keeps_refl _ | apply keepsOut_next | apply keeps_ite | apply keeps_ite_fst | apply keeps_ite_snd | split | intro _ | simp only [keeps_mk] | dsimp only))

theorem State.setPause_keeps {σ s : State} (h : Keeps σ s) (p : Nat) (sub : Nat) (q : Nat) (quanta : Nat) :
    Keeps σ (State.setPause s p sub q quanta) := by
  unfold State.setPause
  with_reducible (repeat' (first | exact h | assumption | apply State.setF_keeps | exact keeps_refl _ | apply keepsOut_next | apply keeps_ite | apply keeps_ite_fst | apply keeps_ite_snd | split | intro _ | simp only [keeps_mk] | dsimp only))

theorem execPfcReceive_keeps {σ s : State} (h : Keeps σ s) (p : Fin 4) (sub : BitVec 2) (en : BitVec 8) (quanta : List (BitVec 16)) :
    KeepsOut σ (execPfcReceive p sub en quanta s) := by
  unfold execPfcReceive
  with_reducible (repeat' (first | exact h | assumption | apply State.inc_keeps | apply State.groupsAgain_keeps | apply State.each_keeps | apply State.setPause_keeps | exact keeps_refl _ | apply keepsOut_next | apply keeps_ite | apply keeps_ite_fst | apply keeps_ite_snd | split | intro _ | simp only [keeps_mk] | dsimp only))

theorem execPauseExpire_keeps {σ s : State} (h : Keeps σ s) (p : Fin 4) (sub : BitVec 2) (q : Fin 8) :
    KeepsOut σ (execPauseExpire p sub q s) := by
  unfold execPauseExpire
  with_reducible (repeat' (first | exact h | assumption | apply State.groupsAgain_keeps | apply State.setPause_keeps | exact keeps_refl _ | apply keepsOut_next | apply keeps_ite | apply keeps_ite_fst | apply keeps_ite_snd | split | intro _ | simp only [keeps_mk] | dsimp only))

theorem execPfcRepeat_keeps {σ s : State} (h : Keeps σ s) (p : Fin 4) (sub : BitVec 2) (q : Fin 8) (fill : Nat) :
    KeepsOut σ (execPfcRepeat p sub q fill s) := by
  unfold execPfcRepeat
  with_reducible (repeat' (first | exact h | assumption | apply State.rxLevel_keeps | apply State.sendPause_keeps | exact keeps_refl _ | apply keepsOut_next | apply keeps_ite | apply keeps_ite_fst | apply keeps_ite_snd | split | intro _ | simp only [keeps_mk] | dsimp only))

theorem execArpRequest_keeps {σ s : State} (h : Keeps σ s) (p : Fin 4) (sub : BitVec 2) (v6 : Bool) (ip : BitVec 128) (vlan : BitVec 12) :
    KeepsOut σ (execArpRequest p sub v6 ip vlan s) := by
  unfold execArpRequest
  with_reducible (repeat' (first | exact h | assumption | apply State.emit_keeps | exact keeps_refl _ | apply keepsOut_next | apply keeps_ite | apply keeps_ite_fst | apply keeps_ite_snd | split | intro _ | simp only [keeps_mk] | dsimp only))

theorem execEthLinkUp_keeps {σ s : State} (h : Keeps σ s) (p : Fin 4) (sub : BitVec 2) :
    KeepsOut σ (execEthLinkUp p sub s) := by
  unfold execEthLinkUp
  with_reducible (repeat' (first | exact h | assumption | apply State.setF_keeps | exact keeps_refl _ | apply keepsOut_next | apply keeps_ite | apply keeps_ite_fst | apply keeps_ite_snd | split | intro _ | simp only [keeps_mk] | dsimp only))

theorem State.ethDown_keeps {σ s : State} (h : Keeps σ s) (p : Nat) (b : Nat) (fec : Bool) :
    Keeps σ (State.ethDown s p b fec) := by
  unfold State.ethDown
  with_reducible (repeat' (first | exact h | assumption | apply State.groupsAgain_keeps | apply State.setF_keeps | exact keeps_refl _ | apply keepsOut_next | apply keeps_ite | apply keeps_ite_fst | apply keeps_ite_snd | split | intro _ | simp only [keeps_mk] | dsimp only))

theorem execEthLinkDown_keeps {σ s : State} (h : Keeps σ s) (p : Fin 4) (sub : BitVec 2) (fecLock : Bool) :
    KeepsOut σ (execEthLinkDown p sub fecLock s) := by
  unfold execEthLinkDown
  with_reducible (repeat' (first | exact h | assumption | apply State.ethDown_keeps | exact keeps_refl _ | apply keepsOut_next | apply keeps_ite | apply keeps_ite_fst | apply keeps_ite_snd | split | intro _ | simp only [keeps_mk] | dsimp only))

theorem State.errTo_keeps {σ s : State} (h : Keeps σ s) (f : EthFrom) (session : Nat) (reqId : Nat) (epoch : Nat) (code : Nat) :
    Keeps σ (State.errTo s f session reqId epoch code) := by
  unfold State.errTo
  with_reducible (repeat' (first | exact h | assumption | apply State.irq_keeps | apply State.inc_keeps | apply State.emit_keeps | exact keeps_refl _ | apply keepsOut_next | apply keeps_ite | apply keeps_ite_fst | apply keeps_ite_snd | split | intro _ | simp only [keeps_mk] | dsimp only))

theorem execSesOpen_keeps {σ s : State} (h : Keeps σ s) (f : EthFrom) (d : Datagram) :
    KeepsOut σ (execSesOpen f d s) := by
  unfold execSesOpen
  with_reducible (repeat' (first | exact h | assumption | apply State.wakeTrigger_keeps | apply State.errTo_keeps | apply State.sesSend_keeps | apply State.setSes_keeps | exact keeps_refl _ | apply keepsOut_next | apply keeps_ite | apply keeps_ite_fst | apply keeps_ite_snd | split | intro _ | simp only [keeps_mk] | dsimp only))

theorem State.sesIn_keeps {σ s : State} (h : Keeps σ s) (f : EthFrom) (d : Datagram) (g : State → Nat → State) (hg : ∀ u0 u1, Keeps u0 (g u0 u1)) :
    Keeps σ (State.sesIn s f d g) := by
  unfold State.sesIn
  with_reducible (repeat' (first | exact h | assumption | refine keeps_trans ?_ (hg _ _) | apply State.errTo_keeps | apply State.sesError_keeps | apply State.setSes_keeps | exact keeps_refl _ | apply keepsOut_next | apply keeps_ite | apply keeps_ite_fst | apply keeps_ite_snd | split | intro _ | simp only [keeps_mk] | dsimp only))

theorem State.sesAck_keeps {σ s : State} (h : Keeps σ s) (n : Nat) :
    Keeps σ (State.sesAck s n) := by
  unfold State.sesAck
  with_reducible (repeat' (first | exact h | assumption | apply State.sesSend_keeps | exact keeps_refl _ | apply keepsOut_next | apply keeps_ite | apply keeps_ite_fst | apply keeps_ite_snd | split | intro _ | simp only [keeps_mk] | dsimp only))

theorem State.resendFrags_keeps {σ s : State} (h : Keeps σ s) (n : Nat) (reqId : Nat) (replySeq : Nat) (total : Nat) (z0 : Nat) (z1 : List (List Byte)) :
    Keeps σ (State.resendFrags s n reqId replySeq total z0 z1) := by
  induction z1 generalizing n reqId replySeq total z0 s with
  | nil =>
    unfold State.resendFrags
    with_reducible (repeat' (first | exact h | assumption | apply ih | apply State.sesSend_keeps | exact keeps_refl _ | apply keepsOut_next | apply keeps_ite | apply keeps_ite_fst | apply keeps_ite_snd | split | intro _ | simp only [keeps_mk] | dsimp only))
  | cons x l ih =>
    unfold State.resendFrags
    with_reducible (repeat' (first | exact h | assumption | apply ih | apply State.sesSend_keeps | exact keeps_refl _ | apply keepsOut_next | apply keeps_ite | apply keeps_ite_fst | apply keeps_ite_snd | split | intro _ | simp only [keeps_mk] | dsimp only))

theorem State.resendReply_keeps {σ s : State} (h : Keeps σ s) (n : Nat) (reqId : Nat) :
    Keeps σ (State.resendReply s n reqId) := by
  unfold State.resendReply
  with_reducible (repeat' (first | exact h | assumption | apply State.resendFrags_keeps | exact keeps_refl _ | apply keepsOut_next | apply keeps_ite | apply keeps_ite_fst | apply keeps_ite_snd | split | intro _ | simp only [keeps_mk] | dsimp only))

theorem State.sequenced_keeps {σ s : State} (h : Keeps σ s) (n : Nat) (d : Datagram) (g : State → State) (hg : ∀ u0, Keeps u0 (g u0)) :
    Keeps σ (State.sequenced s n d g) := by
  unfold State.sequenced
  with_reducible (repeat' (first | exact h | assumption | refine keeps_trans ?_ (hg _) | apply State.sesAck_keeps | apply State.inc_keeps | apply State.resendReply_keeps | apply State.setSes_keeps | exact keeps_refl _ | apply keepsOut_next | apply keeps_ite | apply keeps_ite_fst | apply keeps_ite_snd | split | intro _ | simp only [keeps_mk] | dsimp only))

theorem State.refuseReq_keeps {σ s : State} (h : Keeps σ s) (n : Nat) (reqId : Nat) (code : Nat) :
    Keeps σ (State.refuseReq s n reqId code) := by
  unfold State.refuseReq
  with_reducible (repeat' (first | exact h | assumption | apply State.sesError_keeps | apply State.dropRequest_keeps | exact keeps_refl _ | apply keepsOut_next | apply keeps_ite | apply keeps_ite_fst | apply keeps_ite_snd | split | intro _ | simp only [keeps_mk] | dsimp only))

theorem State.makeSeq_keeps {σ s : State} (h : Keeps σ s) (n : Nat) (r : Request) (m : Nat) (ia : Nat) (oa : Nat) :
    Keeps σ (State.makeSeq s n r m ia oa) := by
  unfold State.makeSeq
  with_reducible (repeat' (first | exact h | assumption | apply State.hubWrite_keeps | apply State.setSes_keeps | apply State.setSeq_keeps | exact keeps_refl _ | apply keepsOut_next | apply keeps_ite | apply keeps_ite_fst | apply keeps_ite_snd | split | intro _ | simp only [keeps_mk] | dsimp only))

theorem State.place_keeps {σ s : State} (h : Keeps σ s) (n : Nat) (r : Request) :
    Keeps σ (State.place s n r) := by
  unfold State.place
  with_reducible (repeat' (first | exact h | assumption | apply State.refuseReq_keeps | apply State.makeSeq_keeps | exact keeps_refl _ | apply keepsOut_next | apply keeps_ite | apply keeps_ite_fst | apply keeps_ite_snd | split | intro _ | simp only [keeps_mk] | dsimp only))

theorem State.fragIn_keeps {σ s : State} (h : Keeps σ s) (n : Nat) (d : Datagram) (r : Request) (fresh : Bool) :
    Keeps σ (State.fragIn s n d r fresh) := by
  unfold State.fragIn
  with_reducible (repeat' (first | exact h | assumption | apply State.setSes_keeps | apply State.refuseReq_keeps | exact keeps_refl _ | apply keepsOut_next | apply keeps_ite | apply keeps_ite_fst | apply keeps_ite_snd | split | intro _ | simp only [keeps_mk] | dsimp only))

theorem State.reqIn_keeps {σ s : State} (h : Keeps σ s) (n : Nat) (d : Datagram) :
    Keeps σ (State.reqIn s n d) := by
  unfold State.reqIn
  with_reducible (repeat' (first | exact h | assumption | apply State.fragIn_keeps | apply State.sesError_keeps | apply State.setSes_keeps | exact keeps_refl _ | apply keepsOut_next | apply keeps_ite | apply keeps_ite_fst | apply keeps_ite_snd | split | intro _ | simp only [keeps_mk] | dsimp only))

theorem execReq_keeps {σ s : State} (h : Keeps σ s) (f : EthFrom) (d : Datagram) :
    KeepsOut σ (execReq f d s) := by
  unfold execReq
  with_reducible (repeat' (first | exact h | assumption | apply State.wakeTrigger_keeps | apply State.sesIn_keeps | apply State.sequenced_keeps | apply State.reqIn_keeps | apply State.place_keeps | apply State.each_keeps | apply State.demand_keeps | exact keeps_refl _ | apply keepsOut_next | apply keeps_ite | apply keeps_ite_fst | apply keeps_ite_snd | split | intro _ | simp only [keeps_mk] | dsimp only))

theorem execAck_keeps {σ s : State} (h : Keeps σ s) (f : EthFrom) (d : Datagram) :
    KeepsOut σ (execAck f d s) := by
  unfold execAck
  with_reducible (repeat' (first | exact h | assumption | apply State.sesIn_keeps | exact keeps_refl _ | apply keepsOut_next | apply keeps_ite | apply keeps_ite_fst | apply keeps_ite_snd | split | intro _ | simp only [keeps_mk] | dsimp only))

theorem execKeepalive_keeps {σ s : State} (h : Keeps σ s) (f : EthFrom) (d : Datagram) :
    KeepsOut σ (execKeepalive f d s) := by
  unfold execKeepalive
  with_reducible (repeat' (first | exact h | assumption | apply State.sesIn_keeps | exact keeps_refl _ | apply keepsOut_next | apply keeps_ite | apply keeps_ite_fst | apply keeps_ite_snd | split | intro _ | simp only [keeps_mk] | dsimp only))

theorem execPoll_keeps {σ s : State} (h : Keeps σ s) (f : EthFrom) (d : Datagram) :
    KeepsOut σ (execPoll f d s) := by
  unfold execPoll
  with_reducible (repeat' (first | exact h | assumption | apply State.wakeTrigger_keeps | apply State.sesIn_keeps | apply State.resendReply_keeps | apply State.sesAck_keeps | exact keeps_refl _ | apply keepsOut_next | apply keeps_ite | apply keeps_ite_fst | apply keeps_ite_snd | split | intro _ | simp only [keeps_mk] | dsimp only))

theorem State.closeSeq_keeps {σ s : State} (h : Keeps σ s) (id : Nat) :
    Keeps σ (State.closeSeq s id) := by
  unfold State.closeSeq
  with_reducible (repeat' (first | exact h | assumption | apply State.setSeq_keeps | apply State.leaveQuietly_keeps | exact keeps_refl _ | apply keepsOut_next | apply keeps_ite | apply keeps_ite_fst | apply keeps_ite_snd | split | intro _ | simp only [keeps_mk] | dsimp only))

theorem State.closeSession_keeps {σ s : State} (h : Keeps σ s) (n : Nat) :
    Keeps σ (State.closeSession s n) := by
  unfold State.closeSession
  with_reducible (repeat' (first | exact h | assumption | apply State.each_keeps | apply State.closeSeq_keeps | apply State.zeroLater_keeps | apply State.setSes_keeps | exact keeps_refl _ | apply keepsOut_next | apply keeps_ite | apply keeps_ite_fst | apply keeps_ite_snd | split | intro _ | simp only [keeps_mk] | dsimp only))

theorem execClose_keeps {σ s : State} (h : Keeps σ s) (f : EthFrom) (d : Datagram) :
    KeepsOut σ (execClose f d s) := by
  unfold execClose
  with_reducible (repeat' (first | exact h | assumption | apply State.wakeTrigger_keeps | apply State.sesIn_keeps | apply State.sequenced_keeps | apply State.closeSession_keeps | apply State.sesSend_keeps | exact keeps_refl _ | apply keepsOut_next | apply keeps_ite | apply keeps_ite_fst | apply keeps_ite_snd | split | intro _ | simp only [keeps_mk] | dsimp only))

theorem execSessionAckTimer_keeps {σ s : State} (h : Keeps σ s) (n : Fin 4096) :
    KeepsOut σ (execSessionAckTimer n s) := by
  unfold execSessionAckTimer
  with_reducible (repeat' (first | exact h | assumption | apply State.sesAck_keeps | exact keeps_refl _ | apply keepsOut_next | apply keeps_ite | apply keeps_ite_fst | apply keeps_ite_snd | split | intro _ | simp only [keeps_mk] | dsimp only))

theorem execSessionAgeOut_keeps {σ s : State} (h : Keeps σ s) (n : Fin 4096) :
    KeepsOut σ (execSessionAgeOut n s) := by
  unfold execSessionAgeOut
  with_reducible (repeat' (first | exact h | assumption | apply State.closeSession_keeps | apply State.irq_keeps | exact keeps_refl _ | apply keepsOut_next | apply keeps_ite | apply keeps_ite_fst | apply keeps_ite_snd | split | intro _ | simp only [keeps_mk] | dsimp only))

theorem execGroupHoldExpire_keeps {σ s : State} (h : Keeps σ s) (n : Fin 4096) (reqId : Word) (dest : Fin 64) :
    KeepsOut σ (execGroupHoldExpire n reqId dest s) := by
  unfold execGroupHoldExpire
  with_reducible (repeat' (first | exact h | assumption | apply State.inc_keeps | apply State.groupReport_keeps | exact keeps_refl _ | apply keepsOut_next | apply keeps_ite | apply keeps_ite_fst | apply keeps_ite_snd | split | intro _ | simp only [keeps_mk] | dsimp only))

theorem State.accClear_keeps {σ s : State} (h : Keeps σ s) (i : Nat) :
    Keeps σ (State.accClear s i) := by
  unfold State.accClear
  with_reducible (repeat' (first | exact h | assumption | apply State.wrg64_keeps | exact keeps_refl _ | apply keepsOut_next | apply keeps_ite | apply keeps_ite_fst | apply keeps_ite_snd | split | intro _ | simp only [keeps_mk] | dsimp only))

theorem execAccClear_keeps {σ s : State} (h : Keeps σ s) (i : Fin 64) (v : Word) :
    KeepsOut σ (execAccClear i v s) := by
  unfold execAccClear
  with_reducible (repeat' (first | exact h | assumption | apply State.hostWrite_keeps | apply State.accClear_keeps | exact keeps_refl _ | apply keepsOut_next | apply keeps_ite | apply keeps_ite_fst | apply keeps_ite_snd | split | intro _ | simp only [keeps_mk] | dsimp only))

end Sys2Proof.Machine
end

