-- ==== Sys2Proof/Laws/KeepsImages.lean ====
section
/-! SUPPORT. The operations and commands of Machine/Images.lean leave the queue as it is, and keep memory and registers in their one form. -/

set_option linter.unusedTactic false
set_option linter.unreachableTactic false
set_option linter.unusedSimpArgs false

namespace Sys2Proof.Machine

theorem State.rxEnd_keeps {σ s : State} (h : Keeps σ s) (result : Nat) (detail : Nat) :
    Keeps σ (State.rxEnd s result detail) := by
  unfold State.rxEnd
  with_reducible (repeat' (first | exact h | assumption | apply State.setF_keeps | apply State.cond_keeps | apply State.advancePc_keeps | exact keeps_refl _ | apply keepsOut_next | apply keeps_ite | apply keeps_ite_fst | apply keeps_ite_snd | split | intro _ | simp only [keeps_mk] | dsimp only))

theorem State.loadErr_keeps {σ s : State} (h : Keeps σ s) :
    Keeps σ (State.loadErr s) := by
  unfold State.loadErr
  with_reducible (repeat' (first | exact h | assumption | apply State.drivePins_keeps | apply State.inc_keeps | apply State.setF_keeps | exact keeps_refl _ | apply keepsOut_next | apply keeps_ite | apply keeps_ite_fst | apply keeps_ite_snd | split | intro _ | simp only [keeps_mk] | dsimp only))

theorem State.tellLoad_keeps {σ s : State} (h : Keeps σ s) (p : ProgSlot) (status : Nat) (detail : Nat) :
    Keeps σ (State.tellLoad s p status detail) := by
  unfold State.tellLoad
  with_reducible (repeat' (first | exact h | assumption | apply State.endDesc_keeps | apply State.rxEnd_keeps | apply State.setF_keeps | exact keeps_refl _ | apply keepsOut_next | apply keeps_ite | apply keeps_ite_fst | apply keeps_ite_snd | split | intro _ | simp only [keeps_mk] | dsimp only))

theorem State.loadFailed_keeps {σ s : State} (h : Keeps σ s) (n : Nat) (p : ProgSlot) (status : Nat) (detail : Nat) :
    Keeps σ (State.loadFailed s n p status detail) := by
  unfold State.loadFailed
  with_reducible (repeat' (first | exact h | assumption | apply State.setF_keeps | apply State.cond_keeps | apply State.loadErr_keeps | apply State.tellLoad_keeps | exact keeps_refl _ | apply keepsOut_next | apply keeps_ite | apply keeps_ite_fst | apply keeps_ite_snd | split | intro _ | simp only [keeps_mk] | dsimp only))

theorem State.loadDone_keeps {σ s : State} (h : Keeps σ s) (n : Nat) :
    Keeps σ (State.loadDone s n) := by
  unfold State.loadDone
  with_reducible (repeat' (first | exact h | assumption | apply State.tellLoad_keeps | apply State.setSlot_keeps | exact keeps_refl _ | apply keepsOut_next | apply keeps_ite | apply keeps_ite_fst | apply keeps_ite_snd | split | intro _ | simp only [keeps_mk] | dsimp only))

theorem State.tryPreload_keeps {σ s : State} (h : Keeps σ s) (n : Nat) :
    Keeps σ (State.tryPreload s n) := by
  unfold State.tryPreload
  with_reducible (repeat' (first | exact h | assumption | apply State.loadDone_keeps | apply State.setSlot_keeps | exact keeps_refl _ | apply keepsOut_next | apply keeps_ite | apply keeps_ite_fst | apply keeps_ite_snd | split | intro _ | simp only [keeps_mk] | dsimp only))

theorem State.imageSend_keeps {σ s : State} (h : Keeps σ s) (i : Nat) (off : Nat) (z0 : Nat) (z1 : List Byte) :
    Keeps σ (State.imageSend s i off z0 z1) := by
  induction z0 generalizing i off z1 s with
  | zero =>
    unfold State.imageSend
    with_reducible (repeat' (first | exact h | assumption | apply ih | apply State.replicate_keeps | exact keeps_refl _ | apply keepsOut_next | apply keeps_ite | apply keeps_ite_fst | apply keeps_ite_snd | split | intro _ | simp only [keeps_mk] | dsimp only))
  | succ f ih =>
    unfold State.imageSend
    with_reducible (repeat' (first | exact h | assumption | apply ih | apply State.replicate_keeps | exact keeps_refl _ | apply keepsOut_next | apply keeps_ite | apply keeps_ite_fst | apply keeps_ite_snd | split | intro _ | simp only [keeps_mk] | dsimp only))

theorem State.txImage_keeps {σ s : State} (h : Keeps σ s) (n : Nat) (i : Nat) (off : Nat) (bs : List Byte) :
    Keeps σ (State.txImage s n i off bs) := by
  unfold State.txImage
  with_reducible (repeat' (first | exact h | assumption | apply State.imageSend_keeps | exact keeps_refl _ | apply keepsOut_next | apply keeps_ite | apply keeps_ite_fst | apply keeps_ite_snd | split | intro _ | simp only [keeps_mk] | dsimp only))

theorem State.openImage_keeps {σ s : State} (h : Keeps σ s) (n : Nat) (p : ProgSlot) (h : List Word) (limit : Option Nat) :
    Keeps σ (State.openImage s n p h limit) := by
  unfold State.openImage
  with_reducible (repeat' (first | exact h | assumption | apply State.loadFailed_keeps | apply State.setF_keeps | apply State.setSlot_keeps | apply State.libUse_keeps | apply State.txImage_keeps | exact keeps_refl _ | apply keepsOut_next | apply keeps_ite | apply keeps_ite_fst | apply keeps_ite_snd | split | intro _ | simp only [keeps_mk] | dsimp only))

theorem State.rxTry_keeps {σ s : State} (h : Keeps σ s) :
    Keeps σ (State.rxTry s) := by
  unfold State.rxTry
  with_reducible (repeat' (first | exact h | assumption | apply State.loadFailed_keeps | apply State.openImage_keeps | exact keeps_refl _ | apply keepsOut_next | apply keeps_ite | apply keeps_ite_fst | apply keeps_ite_snd | split | intro _ | simp only [keeps_mk] | dsimp only))

theorem execLoadProgram_keeps {σ s : State} (h : Keeps σ s) (ring : Fin 4096) (pos : Word) (head : List Word) :
    KeepsOut σ (execLoadProgram ring pos head s) := by
  unfold execLoadProgram
  with_reducible (repeat' (first | exact h | assumption | apply State.work_keeps | apply State.loadFailed_keeps | apply State.demand_keeps | apply State.setDesc_keeps | apply State.openImage_keeps | exact keeps_refl _ | apply keepsOut_next | apply keeps_ite | apply keeps_ite_fst | apply keeps_ite_snd | split | intro _ | simp only [keeps_mk] | dsimp only))

theorem State.engineFree_keeps {σ s : State} (h : Keeps σ s) (p : ProgSlot) :
    Keeps σ (State.engineFree s p) := by
  unfold State.engineFree
  with_reducible (repeat' (first | exact h | assumption | apply State.setF_keeps | apply State.libRelease_keeps | exact keeps_refl _ | apply keepsOut_next | apply keeps_ite | apply keeps_ite_fst | apply keeps_ite_snd | split | intro _ | simp only [keeps_mk] | dsimp only))

theorem State.finalCheck_keeps {σ s : State} (h : Keeps σ s) (n : Nat) :
    Keeps σ (State.finalCheck s n) := by
  unfold State.finalCheck
  with_reducible (repeat' (first | exact h | assumption | apply State.inc_keeps | apply State.setSlot_keeps | apply State.rxTry_keeps | apply State.loadDone_keeps | apply State.tryPreload_keeps | apply State.engineFree_keeps | exact keeps_refl _ | apply keepsOut_next | apply keeps_ite | apply keeps_ite_fst | apply keeps_ite_snd | split | intro _ | simp only [keeps_mk] | dsimp only))

theorem State.tryFinal_keeps {σ s : State} (h : Keeps σ s) (n : Nat) :
    Keeps σ (State.tryFinal s n) := by
  unfold State.tryFinal
  with_reducible (repeat' (first | exact h | assumption | apply State.finalCheck_keeps | apply State.engineFree_keeps | apply State.rxTry_keeps | apply State.loadFailed_keeps | exact keeps_refl _ | apply keepsOut_next | apply keeps_ite | apply keeps_ite_fst | apply keeps_ite_snd | split | intro _ | simp only [keeps_mk] | dsimp only))

theorem execSignatureCheckDone_keeps {σ s : State} (h : Keeps σ s) (ok : Bool) :
    KeepsOut σ (execSignatureCheckDone ok s) := by
  unfold execSignatureCheckDone
  with_reducible (repeat' (first | exact h | assumption | apply State.tryFinal_keeps | apply State.setSlot_keeps | exact keeps_refl _ | apply keepsOut_next | apply keeps_ite | apply keeps_ite_fst | apply keeps_ite_snd | split | intro _ | simp only [keeps_mk] | dsimp only))

theorem State.frameMismatch_keeps {σ s : State} (h : Keeps σ s) (p : ProgSlot) (z0 : Nat) :
    Keeps σ (State.frameMismatch s p z0) := by
  induction z0 generalizing p s with
  | zero =>
    unfold State.frameMismatch
    with_reducible (repeat' (first | exact h | assumption | apply ih | apply State.cplMismatch_keeps | exact keeps_refl _ | apply keepsOut_next | apply keeps_ite | apply keeps_ite_fst | apply keeps_ite_snd | split | intro _ | simp only [keeps_mk] | dsimp only))
  | succ f ih =>
    unfold State.frameMismatch
    with_reducible (repeat' (first | exact h | assumption | apply ih | apply State.cplMismatch_keeps | exact keeps_refl _ | apply keepsOut_next | apply keeps_ite | apply keeps_ite_fst | apply keeps_ite_snd | split | intro _ | simp only [keeps_mk] | dsimp only))

theorem State.tagImage_keeps {σ s : State} (h : Keeps σ s) (n : Nat) (pages : List Nat) :
    Keeps σ (State.tagImage s n pages) := by
  unfold State.tagImage
  with_reducible (repeat' (first | exact h | assumption | exact keeps_refl _ | apply keepsOut_next | apply keeps_ite | apply keeps_ite_fst | apply keeps_ite_snd | split | intro _ | simp only [keeps_mk] | dsimp only))

theorem State.writeImage_keeps {σ s : State} (h : Keeps σ s) (n : Nat) (p : ProgSlot) (k : Nat) (ws : List (Nat × List Byte)) :
    Keeps σ (State.writeImage s n p k ws) := by
  unfold State.writeImage
  with_reducible (repeat' (first | exact h | assumption | apply State.each_keeps | apply State.hubWrite_keeps | apply State.tagImage_keeps | exact keeps_refl _ | apply keepsOut_next | apply keeps_ite | apply keeps_ite_fst | apply keeps_ite_snd | split | intro _ | simp only [keeps_mk] | dsimp only))

theorem execImageChunkRead_keeps {σ s : State} (h : Keeps σ s) (data : List Byte) (digestOk : Bool) (transient : Nat) (pages : PageReads) :
    KeepsOut σ (execImageChunkRead data digestOk transient pages s) := by
  unfold execImageChunkRead
  with_reducible (repeat' (first | exact h | assumption | apply State.demand_keeps | apply State.each_keeps | apply State.countPages_keeps | apply State.frameMismatch_keeps | apply State.txImage_keeps | apply State.damage_keeps | apply State.writeImage_keeps | apply State.setSlot_keeps | apply State.tagImage_keeps | apply State.tryFinal_keeps | exact keeps_refl _ | apply keepsOut_next | apply keeps_ite | apply keeps_ite_fst | apply keeps_ite_snd | split | intro _ | simp only [keeps_mk] | dsimp only))

theorem execActivationStageRelease_keeps {σ s : State} (h : Keeps σ s) (slot : Fin 1024) :
    KeepsOut σ (execActivationStageRelease slot s) := by
  unfold execActivationStageRelease
  with_reducible (repeat' (first | exact h | assumption | apply State.loadDone_keeps | apply State.tryPreload_keeps | apply State.setSlot_keeps | exact keeps_refl _ | apply keepsOut_next | apply keeps_ite | apply keeps_ite_fst | apply keeps_ite_snd | split | intro _ | simp only [keeps_mk] | dsimp only))

theorem State.dropLoad_keeps {σ s : State} (h : Keeps σ s) (n : Nat) :
    Keeps σ (State.dropLoad s n) := by
  unfold State.dropLoad
  with_reducible (repeat' (first | exact h | assumption | apply State.engineFree_keeps | exact keeps_refl _ | apply keepsOut_next | apply keeps_ite | apply keeps_ite_fst | apply keeps_ite_snd | split | intro _ | simp only [keeps_mk] | dsimp only))

theorem State.dataTimeout_keeps {σ s : State} (h : Keeps σ s) (id : Nat) :
    Keeps σ (State.dataTimeout s id) := by
  unfold State.dataTimeout
  with_reducible (repeat' (first | exact h | assumption | apply State.rxTry_keeps | apply State.loadFailed_keeps | apply State.dropLoad_keeps | apply State.endDesc_keeps | exact keeps_refl _ | apply keepsOut_next | apply keeps_ite | apply keeps_ite_fst | apply keeps_ite_snd | split | intro _ | simp only [keeps_mk] | dsimp only))

theorem State.fetchTimeout_keeps {σ s : State} (h : Keeps σ s) (r : Nat) :
    Keeps σ (State.fetchTimeout s r) := by
  unfold State.fetchTimeout
  refine State.takeFetched_keeps (s := { s with freeCount := s.freeCount + 3 }) ⟨h.1, h.2.1, h.2.2.1, ?_⟩ _ _ _
  exact h.2.2.2.trans (Nat.le_add_right _ _)

theorem execHostReadTimeout_keeps {σ s : State} (h : Keeps σ s) (tag : Fin 16384) (newTag : Fin 16384) :
    KeepsOut σ (execHostReadTimeout tag newTag s) := by
  unfold execHostReadTimeout
  with_reducible (repeat' (first | exact h | assumption | apply State.quarantineTag_keeps | apply State.emit_keeps | apply State.irq_keeps | apply State.inc_keeps | apply State.dataTimeout_keeps | apply State.fetchTimeout_keeps | exact keeps_refl _ | apply keepsOut_next | apply keeps_ite | apply keeps_ite_fst | apply keeps_ite_snd | split | intro _ | simp only [keeps_mk] | dsimp only))

theorem State.pkgRoom_keeps {σ s : State} (h : Keeps σ s) (slot : Nat) (sect : Nat) (new : List Nat) (z0 : Nat) :
    ∀ t, (State.pkgRoom s slot sect new z0) = some t → Keeps σ t := by
  induction z0 generalizing s with
  | zero =>
    intro t ht
    unfold State.pkgRoom at ht
    split at ht
    · cases ht
      exact h
    · cases ht
  | succ f ih =>
    intro t ht
    unfold State.pkgRoom at ht
    split at ht
    · cases ht
      exact h
    · dsimp only at ht
      split at ht
      · cases ht
      · exact ih (State.upCl_keeps h _ _) t ht

theorem State.putPlane_keeps {σ s : State} (h : Keeps σ s) (n : Nat) (slot : Nat) (p : Nat) (e : Nat × Table Word) :
    Keeps σ (State.putPlane s n slot p e) := by
  unfold State.putPlane
  with_reducible (repeat' (first | exact h | assumption | apply State.upCl_keeps | apply State.inc64_keeps | apply State.each_keeps | apply State.emit_keeps | exact keeps_refl _ | apply keepsOut_next | apply keeps_ite | apply keeps_ite_fst | apply keeps_ite_snd | split | intro _ | simp only [keeps_mk] | dsimp only))

theorem State.putPlanes_keeps {σ s : State} (h : Keeps σ s) (n : Nat) (slot : Nat) (sect : Nat) (z0 : Table (Table Word)) :
    ∀ t, (State.putPlanes s n slot sect z0) = some t → Keeps σ t := by
  induction z0 generalizing s with
  | nil =>
    intro t ht
    cases ht
    exact h
  | cons e es ih =>
    intro t ht
    unfold State.putPlanes at ht
    split at ht
    · exact ih h t ht
    · split at ht
      · cases ht
      · exact ih (State.putPlane_keeps h _ _ _ _) t ht

theorem State.preloadRefused_keeps {σ s : State} (h : Keeps σ s) (slot : Nat) (sect : Nat) :
    Keeps σ (State.preloadRefused s slot sect) := by
  unfold State.preloadRefused
  with_reducible (repeat' (first | exact h | assumption | apply State.loadFailed_keeps | apply State.setSlot_keeps | apply State.inc_keeps | exact keeps_refl _ | apply keepsOut_next | apply keeps_ite | apply keeps_ite_fst | apply keeps_ite_snd | split | intro _ | simp only [keeps_mk] | dsimp only))

theorem execPlaneLoadDone_keeps {σ s : State} (h : Keeps σ s) (n : Fin 576) (slot : Fin 1024) (sect : BitVec 16) :
    KeepsOut σ (execPlaneLoadDone n slot sect s) := by
  unfold execPlaneLoadDone
  apply keepsOut_next
  dsimp only
  split
  · exact h
  · split
    · exact h
    · rename_i t ht
      have kt := State.pkgRoom_keeps h _ _ _ _ t ht
      split
      · exact State.preloadRefused_keeps h _ _
      · rename_i u hu
        exact State.tryBoundary_keeps (State.tryPreload_keeps (State.putPlanes_keeps kt _ _ _ _ u hu) _)

theorem State.zeroRange_keeps {σ s : State} (h : Keeps σ s) (a : Nat) (len : Nat) :
    Keeps σ (State.zeroRange s a len) := by
  exact keeps_filter h _

theorem State.dropPlanes_keeps {σ s : State} (h : Keeps σ s) (n : Nat) :
    Keeps σ (State.dropPlanes s n) := by
  unfold State.dropPlanes
  with_reducible (repeat' (first | exact h | assumption | apply State.each_keeps | apply State.zeroRange_keeps | exact keeps_refl _ | apply keepsOut_next | apply keeps_ite | apply keeps_ite_fst | apply keeps_ite_snd | split | intro _ | simp only [keeps_mk] | dsimp only))

theorem State.freeSlot_keeps {σ s : State} (h : Keeps σ s) (n : Nat) :
    Keeps σ (State.freeSlot s n) := by
  unfold State.freeSlot
  with_reducible (repeat' (first | exact h | assumption | apply State.each_keeps | apply State.failSeq_keeps | apply State.setF_keeps | exact keeps_refl _ | apply keepsOut_next | apply keeps_ite | apply keeps_ite_fst | apply keeps_ite_snd | split | intro _ | simp only [keeps_mk] | dsimp only))

theorem execEvict_keeps {σ s : State} (h : Keeps σ s) (ring : Fin 4096) (pos : Word) :
    KeepsOut σ (execEvict ring pos s) := by
  unfold execEvict
  with_reducible (repeat' (first | exact h | assumption | apply State.work_keeps | apply State.endDesc_keeps | apply State.setSlot_keeps | apply State.dropPlanes_keeps | apply State.freeSlot_keeps | exact keeps_refl _ | apply keepsOut_next | apply keeps_ite | apply keeps_ite_fst | apply keeps_ite_snd | split | intro _ | simp only [keeps_mk] | dsimp only))

theorem State.txWrite_keeps {σ s : State} (h : Keeps σ s) (v : Word) :
    Keeps σ (State.txWrite s v) := by
  unfold State.txWrite
  with_reducible (repeat' (first | exact h | assumption | apply State.plain_keeps | exact keeps_refl _ | apply keepsOut_next | apply keeps_ite | apply keeps_ite_fst | apply keeps_ite_snd | split | intro _ | simp only [keeps_mk] | dsimp only))

theorem execMcTxArm_keeps {σ s : State} (h : Keeps σ s) (v : Word) :
    KeepsOut σ (execMcTxArm v s) := by
  unfold execMcTxArm
  with_reducible (repeat' (first | exact h | assumption | apply State.hostWrite_keeps | apply State.txWrite_keeps | exact keeps_refl _ | apply keepsOut_next | apply keeps_ite | apply keeps_ite_fst | apply keeps_ite_snd | split | intro _ | simp only [keeps_mk] | dsimp only))

theorem State.rxWrite_keeps {σ s : State} (h : Keeps σ s) (v : Word) :
    Keeps σ (State.rxWrite s v) := by
  unfold State.rxWrite
  with_reducible (repeat' (first | exact h | assumption | apply State.plain_keeps | apply State.setF_keeps | apply State.wrg_keeps | exact keeps_refl _ | apply keepsOut_next | apply keeps_ite | apply keeps_ite_fst | apply keeps_ite_snd | split | intro _ | simp only [keeps_mk] | dsimp only))

theorem execMcRxArm_keeps {σ s : State} (h : Keeps σ s) (v : Word) :
    KeepsOut σ (execMcRxArm v s) := by
  unfold execMcRxArm
  with_reducible (repeat' (first | exact h | assumption | apply State.hostWrite_keeps | apply State.rxWrite_keeps | exact keeps_refl _ | apply keepsOut_next | apply keeps_ite | apply keeps_ite_fst | apply keeps_ite_snd | split | intro _ | simp only [keeps_mk] | dsimp only))

theorem execMcRxTimeout_keeps {σ s : State} (h : Keeps σ s) :
    KeepsOut σ (execMcRxTimeout s) := by
  unfold execMcRxTimeout
  with_reducible (repeat' (first | exact h | assumption | apply State.rxEnd_keeps | apply State.loadErr_keeps | exact keeps_refl _ | apply keepsOut_next | apply keeps_ite | apply keeps_ite_fst | apply keeps_ite_snd | split | intro _ | simp only [keeps_mk] | dsimp only))

theorem State.rxDeliver_keeps {σ s : State} (h : Keeps σ s) (q : Nat) (p : FlPacket) :
    Keeps σ (State.rxDeliver s q p) := by
  unfold State.rxDeliver
  with_reducible (repeat' (first | exact h | assumption | apply State.inc_keeps | apply State.wakeTrigger_keeps | apply State.incN_keeps | apply State.hubWrite_keeps | apply State.rxTry_keeps | exact keeps_refl _ | apply keepsOut_next | apply keeps_ite | apply keeps_ite_fst | apply keeps_ite_snd | split | intro _ | simp only [keeps_mk] | dsimp only))

theorem execMcastFrame_keeps {σ s : State} (h : Keeps σ s) (q : Fin 16) (p : FlPacket) :
    KeepsOut σ (execMcastFrame q p s) := by
  unfold execMcastFrame
  with_reducible (repeat' (first | exact h | assumption | apply State.demand_keeps | apply State.replicate_keeps | apply State.rxDeliver_keeps | exact keeps_refl _ | apply keepsOut_next | apply keeps_ite | apply keeps_ite_fst | apply keeps_ite_snd | split | intro _ | simp only [keeps_mk] | dsimp only))

theorem execPlaneScrub_keeps {σ s : State} (h : Keeps σ s) (n : Fin 576) (p : Fin 8) (word : Fin 5120) (ecc : Ecc) :
    KeepsOut σ (execPlaneScrub n p word ecc s) := by
  unfold execPlaneScrub
  with_reducible (repeat' (first | exact h | assumption | apply State.inc_keeps | apply State.rewritePlane_keeps | apply State.report_keeps | exact keeps_refl _ | apply keepsOut_next | apply keeps_ite | apply keeps_ite_fst | apply keeps_ite_snd | split | intro _ | simp only [keeps_mk] | dsimp only))

theorem execAutostart_keeps {σ s : State} (h : Keeps σ s) :
    KeepsOut σ (execAutostart s) := by
  unfold execAutostart
  with_reducible (repeat' (first | exact h | assumption | apply State.loadFailed_keeps | apply State.openImage_keeps | exact keeps_refl _ | apply keepsOut_next | apply keeps_ite | apply keeps_ite_fst | apply keeps_ite_snd | split | intro _ | simp only [keeps_mk] | dsimp only))

theorem State.autoCommit_keeps {σ s : State} (h : Keeps σ s) (v : Word) :
    Keeps σ (State.autoCommit s v) := by
  unfold State.autoCommit
  with_reducible (repeat' (first | exact h | assumption | apply State.plain_keeps | apply State.setF_keeps | exact keeps_refl _ | apply keepsOut_next | apply keeps_ite | apply keeps_ite_fst | apply keeps_ite_snd | split | intro _ | simp only [keeps_mk] | dsimp only))

theorem execCeAutoCommit_keeps {σ s : State} (h : Keeps σ s) (v : Word) :
    KeepsOut σ (execCeAutoCommit v s) := by
  unfold execCeAutoCommit
  with_reducible (repeat' (first | exact h | assumption | apply State.hostWrite_keeps | apply State.autoCommit_keeps | exact keeps_refl _ | apply keepsOut_next | apply keeps_ite | apply keeps_ite_fst | apply keeps_ite_snd | split | intro _ | simp only [keeps_mk] | dsimp only))

end Sys2Proof.Machine
end

