-- ==== Sys2Proof/Laws/KeepsTimeBase.lean ====
section
/-! SUPPORT. The operations and commands of Machine/TimeBase.lean leave the queue as it is, and keep memory and registers in their one form. -/

set_option linter.unusedTactic false
set_option linter.unreachableTactic false
set_option linter.unusedSimpArgs false

namespace Sys2Proof.Machine

theorem State.setTime_keeps {σ s : State} (h : Keeps σ s) (t : TimeSt) :
    Keeps σ (State.setTime s t) := by
  unfold State.setTime
  with_reducible (repeat' (first | exact h | assumption | exact keeps_refl _ | apply keepsOut_next | apply keeps_ite | apply keeps_ite_fst | apply keeps_ite_snd | split | intro _ | simp only [keeps_mk] | dsimp only))

theorem State.timeEvent_keeps {σ s : State} (h : Keeps σ s) (x : Fld) :
    Keeps σ (State.timeEvent s x) := by
  unfold State.timeEvent
  with_reducible (repeat' (first | exact h | assumption | apply State.irq_keeps | apply State.setF_keeps | exact keeps_refl _ | apply keepsOut_next | apply keeps_ite | apply keeps_ite_fst | apply keeps_ite_snd | split | intro _ | simp only [keeps_mk] | dsimp only))

theorem State.stepTime_keeps {σ s : State} (h : Keeps σ s) (turn : Nat) (angle : Nat) :
    Keeps σ (State.stepTime s turn angle) := by
  unfold State.stepTime
  with_reducible (repeat' (first | exact h | assumption | apply State.timeEvent_keeps | apply State.setTime_keeps | exact keeps_refl _ | apply keepsOut_next | apply keeps_ite | apply keeps_ite_fst | apply keeps_ite_snd | split | intro _ | simp only [keeps_mk] | dsimp only))

theorem State.lockTime_keeps {σ s : State} (h : Keeps σ s) (set : Option (Nat × Nat)) :
    Keeps σ (State.lockTime s set) := by
  unfold State.lockTime
  with_reducible (repeat' (first | exact h | assumption | apply State.stepTime_keeps | apply State.cond_keeps | apply State.setTime_keeps | apply State.timeEvent_keeps | apply State.setF_keeps | apply State.maintResult_keeps | exact keeps_refl _ | apply keepsOut_next | apply keeps_ite | apply keeps_ite_fst | apply keeps_ite_snd | split | intro _ | simp only [keeps_mk] | dsimp only))

theorem State.compare_keeps {σ s : State} (h : Keeps σ s) (err : Int) (set : Option (Nat × Nat)) :
    Keeps σ (State.compare s err set) := by
  unfold State.compare
  with_reducible (repeat' (first | exact h | assumption | apply State.setF_keeps | apply State.wrg_keeps | apply State.setTime_keeps | apply State.lockTime_keeps | apply State.cond_keeps | apply State.timeEvent_keeps | exact keeps_refl _ | apply keepsOut_next | apply keeps_ite | apply keeps_ite_fst | apply keeps_ite_snd | split | intro _ | simp only [keeps_mk] | dsimp only))

theorem execFramePulse_keeps {σ s : State} (h : Keeps σ s) (err : Int) (spacing : Nat) (refIn : Bool) :
    KeepsOut σ (execFramePulse err spacing refIn s) := by
  unfold execFramePulse
  with_reducible (repeat' (first | exact h | assumption | apply State.cond_keeps | apply State.setF_keeps | apply State.compare_keeps | exact keeps_refl _ | apply keepsOut_next | apply keeps_ite | apply keeps_ite_fst | apply keeps_ite_snd | split | intro _ | simp only [keeps_mk] | dsimp only))

theorem execPpsPulse_keeps {σ s : State} (h : Keeps σ s) (err : Int) (spacing : Nat) :
    KeepsOut σ (execPpsPulse err spacing s) := by
  unfold execPpsPulse
  with_reducible (repeat' (first | exact h | assumption | apply State.compare_keeps | exact keeps_refl _ | apply keepsOut_next | apply keeps_ite | apply keeps_ite_fst | apply keeps_ite_snd | split | intro _ | simp only [keeps_mk] | dsimp only))

theorem execPtpSync_keeps {σ s : State} (h : Keeps σ s) (msg : PtpMsg) (err : Int) (turns : Nat) (angle : BitVec 24) :
    KeepsOut σ (execPtpSync msg err turns angle s) := by
  unfold execPtpSync
  with_reducible (repeat' (first | exact h | assumption | apply State.compare_keeps | exact keeps_refl _ | apply keepsOut_next | apply keeps_ite | apply keeps_ite_fst | apply keeps_ite_snd | split | intro _ | simp only [keeps_mk] | dsimp only))

theorem execReferenceLoss_keeps {σ s : State} (h : Keeps σ s) (why : LossCause) :
    KeepsOut σ (execReferenceLoss why s) := by
  unfold execReferenceLoss
  with_reducible (repeat' (first | exact h | assumption | apply State.setF_keeps | apply State.setTime_keeps | apply State.timeEvent_keeps | apply State.wrg_keeps | exact keeps_refl _ | apply keepsOut_next | apply keeps_ite | apply keeps_ite_fst | apply keeps_ite_snd | split | intro _ | simp only [keeps_mk] | dsimp only))

theorem execDelayReqSend_keeps {σ s : State} (h : Keeps σ s) :
    KeepsOut σ (execDelayReqSend s) := by
  unfold execDelayReqSend
  with_reducible (repeat' (first | exact h | assumption | apply State.emit_keeps | exact keeps_refl _ | apply keepsOut_next | apply keeps_ite | apply keeps_ite_fst | apply keeps_ite_snd | split | intro _ | simp only [keeps_mk] | dsimp only))

theorem State.applyStaged_keeps {σ s : State} (h : Keeps σ s) :
    Keeps σ (State.applyStaged s) := by
  unfold State.applyStaged
  with_reducible (repeat' (first | exact h | assumption | apply State.setTime_keeps | exact keeps_refl _ | apply keepsOut_next | apply keeps_ite | apply keeps_ite_fst | apply keeps_ite_snd | split | intro _ | simp only [keeps_mk] | dsimp only))

theorem execTimeRelock_keeps {σ s : State} (h : Keeps σ s) (turns : BitVec 32) (angle : BitVec 24) (valid : Bool) :
    KeepsOut σ (execTimeRelock turns angle valid s) := by
  unfold execTimeRelock
  with_reducible (repeat' (first | exact h | assumption | apply State.hostWrite_keeps | apply State.maintBegin_keeps | apply State.maintResult_keeps | apply State.applyStaged_keeps | apply State.setTime_keeps | apply State.setF_keeps | apply State.stepTime_keeps | exact keeps_refl _ | apply keepsOut_next | apply keeps_ite | apply keeps_ite_fst | apply keeps_ite_snd | split | intro _ | simp only [keeps_mk] | dsimp only))

theorem execTbOutputPulse_keeps {σ s : State} (h : Keeps σ s) (pps : Bool) :
    KeepsOut σ (execTbOutputPulse pps s) := by
  unfold execTbOutputPulse
  with_reducible (repeat' (first | exact h | assumption | apply State.cond_keeps | apply State.emit_keeps | exact keeps_refl _ | apply keepsOut_next | apply keeps_ite | apply keeps_ite_fst | apply keeps_ite_snd | split | intro _ | simp only [keeps_mk] | dsimp only))

theorem State.tick_keeps {σ s : State} (h : Keeps σ s) :
    Keeps σ (State.tick s) := by
  unfold State.tick
  with_reducible (repeat' (first | exact h | assumption | apply State.setTime_keeps | apply State.cond_keeps | apply State.wrg_keeps | exact keeps_refl _ | apply keepsOut_next | apply keeps_ite | apply keeps_ite_fst | apply keeps_ite_snd | split | intro _ | simp only [keeps_mk] | dsimp only))

end Sys2Proof.Machine
end

