-- ==== Sys2Proof/Laws/KeepsViews.lean ====
section
/-! SUPPORT. The operations and commands of Machine/Views.lean leave the queue as it is, and keep memory and registers in their one form. -/

set_option linter.unusedTactic false
set_option linter.unreachableTactic false
set_option linter.unusedSimpArgs false

namespace Sys2Proof.Machine

theorem State.openWord_keeps {σ s : State} (h : Keeps σ s) :
    Keeps σ (State.openWord s).2 := by
  unfold State.openWord
  with_reducible (repeat' (first | exact h | assumption | apply State.free_keeps | exact keeps_refl _ | apply keepsOut_next | apply keeps_ite | apply keeps_ite_fst | apply keeps_ite_snd | split | intro _ | simp only [keeps_mk] | dsimp only))

theorem State.windowView_keeps {σ s : State} (h : Keeps σ s) (n : Nat) (w : Nat) :
    Keeps σ (State.windowView s n w).2 := by
  unfold State.windowView
  with_reducible (repeat' (first | exact h | assumption | apply State.openWord_keeps | exact keeps_refl _ | apply keepsOut_next | apply keeps_ite | apply keeps_ite_fst | apply keeps_ite_snd | split | intro _ | simp only [keeps_mk] | dsimp only))

theorem State.view_keeps {σ s : State} (h : Keeps σ s) (off : Nat) :
    Keeps σ (State.view s off).2 := by
  unfold State.view
  with_reducible (repeat' (first | exact h | assumption | apply State.windowView_keeps | apply State.openWord_keeps | exact keeps_refl _ | apply keepsOut_next | apply keeps_ite | apply keeps_ite_fst | apply keeps_ite_snd | split | intro _ | simp only [keeps_mk] | dsimp only))

theorem State.read4_keeps {σ s : State} (h : Keeps σ s) (mc : Bool) (off : Nat) :
    Keeps σ (State.read4 s mc off).2 := by
  unfold State.read4
  with_reducible (repeat' (first | exact h | assumption | apply State.view_keeps | exact keeps_refl _ | apply keepsOut_next | apply keeps_ite | apply keeps_ite_fst | apply keeps_ite_snd | split | intro _ | simp only [keeps_mk] | dsimp only))

theorem State.read8_keeps {σ s : State} (h : Keeps σ s) (mc : Bool) (off : Nat) :
    Keeps σ (State.read8 s mc off) := by
  unfold State.read8
  with_reducible (repeat' (first | exact h | assumption | apply State.view_keeps | apply State.emit_keeps | exact keeps_refl _ | apply keepsOut_next | apply keeps_ite | apply keeps_ite_fst | apply keeps_ite_snd | split | intro _ | simp only [keeps_mk] | dsimp only))

theorem execLatchedRead_keeps {σ s : State} (h : Keeps σ s) (mc : Bool) (off : BitVec 24) (size : Nat) :
    KeepsOut σ (execLatchedRead mc off size s) := by
  unfold execLatchedRead
  with_reducible (repeat' (first | exact h | assumption | apply State.read8_keeps | apply State.each_keeps | apply State.read4_keeps | apply State.emit_keeps | exact keeps_refl _ | apply keepsOut_next | apply keeps_ite | apply keeps_ite_fst | apply keeps_ite_snd | split | intro _ | simp only [keeps_mk] | dsimp only))

end Sys2Proof.Machine
end

