-- ==== Sys2Proof/Laws/KeepsAngle.lean ====
section
/-! SUPPORT. The operations and commands of Machine/Angle.lean leave the queue as it is, and keep memory and registers in their one form. -/

set_option linter.unusedTactic false
set_option linter.unreachableTactic false
set_option linter.unusedSimpArgs false

namespace Sys2Proof.Machine

theorem State.pruneWatches_keeps {σ s : State} (h : Keeps σ s) :
    Keeps σ (State.pruneWatches s) := by
  unfold State.pruneWatches
  with_reducible (repeat' (first | exact h | assumption | apply State.setTime_keeps | exact keeps_refl _ | apply keepsOut_next | apply keeps_ite | apply keeps_ite_fst | apply keeps_ite_snd | split | intro _ | simp only [keeps_mk] | dsimp only))

theorem State.clearEntry_keeps {σ s : State} (h : Keeps σ s) (e : Nat) :
    Keeps σ (State.clearEntry s e) := by
  unfold State.clearEntry
  with_reducible (repeat' (first | exact h | assumption | apply State.pruneWatches_keeps | apply State.setF_keeps | exact keeps_refl _ | apply keepsOut_next | apply keeps_ite | apply keeps_ite_fst | apply keeps_ite_snd | split | intro _ | simp only [keeps_mk] | dsimp only))

theorem State.aeStage_keeps {σ s : State} (h : Keeps σ s) (e : Nat) (w : Nat) (v : Word) :
    Keeps σ (State.aeStage s e w v) := by
  unfold State.aeStage
  with_reducible (repeat' (first | exact h | assumption | apply State.setTime_keeps | exact keeps_refl _ | apply keepsOut_next | apply keeps_ite | apply keeps_ite_fst | apply keeps_ite_snd | split | intro _ | simp only [keeps_mk] | dsimp only))

theorem State.aeCommit_keeps {σ s : State} (h : Keeps σ s) (e : Nat) (w7 : Word) :
    Keeps σ (State.aeCommit s e w7) := by
  unfold State.aeCommit
  with_reducible (repeat' (first | exact h | assumption | apply State.aeStage_keeps | apply State.setF_keeps | apply State.hostMismatch_keeps | apply State.inc_keeps | apply State.setTime_keeps | apply State.each_keeps | apply State.wrg_keeps | apply State.pruneWatches_keeps | exact keeps_refl _ | apply keepsOut_next | apply keeps_ite | apply keeps_ite_fst | apply keeps_ite_snd | split | intro _ | simp only [keeps_mk] | dsimp only))

theorem execAeCommit_keeps {σ s : State} (h : Keeps σ s) (e : Fin 512) (w7 : Word) :
    KeepsOut σ (execAeCommit e w7 s) := by
  unfold execAeCommit
  with_reducible (repeat' (first | exact h | assumption | apply State.hostWrite_keeps | apply State.aeCommit_keeps | exact keeps_refl _ | apply keepsOut_next | apply keeps_ite | apply keeps_ite_fst | apply keeps_ite_snd | split | intro _ | simp only [keeps_mk] | dsimp only))

theorem State.markFired_keeps {σ s : State} (h : Keeps σ s) (e : Nat) (ideal : Nat) :
    Keeps σ (State.markFired s e ideal) := by
  unfold State.markFired
  with_reducible (repeat' (first | exact h | assumption | apply State.setTime_keeps | exact keeps_refl _ | apply keepsOut_next | apply keeps_ite | apply keeps_ite_fst | apply keeps_ite_snd | split | intro _ | simp only [keeps_mk] | dsimp only))

theorem State.act_keeps {σ s : State} (h : Keeps σ s) (f : Act) (ws : List Word) (ideal : Nat) (hf : ∀ u ws k, Keeps u (f u ws k).1) :
    Keeps σ (State.act s f ws ideal) := by
  unfold State.act
  with_reducible (repeat' (first | exact h | assumption | refine keeps_trans ?_ (hf _ _ _) | apply State.inc_keeps | exact keeps_refl _ | apply keepsOut_next | apply keeps_ite | apply keeps_ite_fst | apply keeps_ite_snd | split | intro _ | simp only [keeps_mk] | dsimp only))

theorem State.fire_keeps {σ s : State} (h : Keeps σ s) (e : Nat) (action : Nat) (fits : List Word → Bool) (bad : BitVec 2) (late : Bool) (f : Act) (hf : ∀ u ws k, Keeps u (f u ws k).1) :
    Keeps σ (State.fire s e action fits bad late f) := by
  unfold State.fire
  with_reducible (repeat' (first | exact h | assumption | refine keeps_trans ?_ (hf _ _ _) | apply State.hostMismatch_keeps | apply State.inc_keeps | apply State.clearEntry_keeps | apply State.cond_keeps | apply State.markFired_keeps | apply State.wakeTrigger_keeps | apply State.setPower_keeps | apply State.act_keeps | apply State.setTime_keeps | exact keeps_refl _ | apply keepsOut_next | apply keeps_ite | apply keeps_ite_fst | apply keeps_ite_snd | split | intro _ | simp only [keeps_mk] | dsimp only))

theorem actStartRun_keeps {σ s : State} (h : Keeps σ s) (ws : List Word) (kk : Nat) :
    Keeps σ (actStartRun s ws kk).1 := by
  unfold actStartRun
  with_reducible (repeat' (first | exact h | assumption | apply State.admit_keeps | apply State.inc_keeps | exact keeps_refl _ | apply keepsOut_next | apply keeps_ite | apply keeps_ite_fst | apply keeps_ite_snd | split | intro _ | simp only [keeps_mk] | dsimp only))

theorem actRing_keeps {σ s : State} (h : Keeps σ s) (ws : List Word) (kk : Nat) :
    Keeps σ (actRing s ws kk).1 := by
  unfold actRing
  with_reducible (repeat' (first | exact h | assumption | apply State.newTail_keeps | exact keeps_refl _ | apply keepsOut_next | apply keeps_ite | apply keeps_ite_fst | apply keeps_ite_snd | split | intro _ | simp only [keeps_mk] | dsimp only))

theorem State.missed_keeps {σ s : State} (h : Keeps σ s) (e : Nat) :
    Keeps σ (State.missed s e) := by
  unfold State.missed
  with_reducible (repeat' (first | exact h | assumption | apply State.setF_keeps | apply State.inc_keeps | exact keeps_refl _ | apply keepsOut_next | apply keeps_ite | apply keeps_ite_fst | apply keeps_ite_snd | split | intro _ | simp only [keeps_mk] | dsimp only))

theorem actStartStep_keeps {σ s : State} (h : Keeps σ s) (e : Nat) (ws : List Word) (kk : Nat) :
    Keeps σ (actStartStep e s ws kk).1 := by
  unfold actStartStep
  with_reducible (repeat' (first | exact h | assumption | apply State.missed_keeps | exact keeps_refl _ | apply keepsOut_next | apply keeps_ite | apply keeps_ite_fst | apply keeps_ite_snd | split | intro _ | simp only [keeps_mk] | dsimp only))

theorem actBarrier_keeps {σ s : State} (h : Keeps σ s) (e : Nat) (ws : List Word) (kk : Nat) :
    Keeps σ (actBarrier e s ws kk).1 := by
  unfold actBarrier
  with_reducible (repeat' (first | exact h | assumption | apply State.missed_keeps | apply State.setBar_keeps | exact keeps_refl _ | apply keepsOut_next | apply keeps_ite | apply keeps_ite_fst | apply keeps_ite_snd | split | intro _ | simp only [keeps_mk] | dsimp only))

theorem State.deadlineMiss_keeps {σ s : State} (h : Keeps σ s) (i : Nat) :
    Keeps σ (State.deadlineMiss s i) := by
  unfold State.deadlineMiss
  with_reducible (repeat' (first | exact h | assumption | apply State.inc_keeps | apply State.instEvent_keeps | apply State.postOpen_keeps | exact keeps_refl _ | apply keepsOut_next | apply keeps_ite | apply keeps_ite_fst | apply keeps_ite_snd | split | intro _ | simp only [keeps_mk] | dsimp only))

theorem State.abandonRun_keeps {σ s : State} (h : Keeps σ s) (i : Nat) (c : Nat) :
    Keeps σ (State.abandonRun s i c) := by
  unfold State.abandonRun
  with_reducible (repeat' (first | exact h | assumption | apply State.rollback_keeps | apply State.endEpisodes_keeps | apply State.stopClusters_keeps | apply State.setStep_keeps | apply State.each_keeps | apply State.inc_keeps | apply State.endSeq_keeps | exact keeps_refl _ | apply keepsOut_next | apply keeps_ite | apply keeps_ite_fst | apply keeps_ite_snd | split | intro _ | simp only [keeps_mk] | dsimp only))

theorem actDeadline_keeps {σ s : State} (h : Keeps σ s) (ws : List Word) (kk : Nat) :
    Keeps σ (actDeadline s ws kk).1 := by
  unfold actDeadline
  with_reducible (repeat' (first | exact h | assumption | apply State.setTime_keeps | apply State.cond_keeps | apply State.deadlineMiss_keeps | apply State.abandonRun_keeps | exact keeps_refl _ | apply keepsOut_next | apply keeps_ite | apply keeps_ite_fst | apply keeps_ite_snd | split | intro _ | simp only [keeps_mk] | dsimp only))

theorem actWake_keeps {σ s : State} (h : Keeps σ s) (ws : List Word) (kk : Nat) :
    Keeps σ (actWake s ws kk).1 := by
  unfold actWake
  with_reducible (repeat' (first | exact h | assumption | apply State.wakeTrigger_keeps | exact keeps_refl _ | apply keepsOut_next | apply keeps_ite | apply keeps_ite_fst | apply keeps_ite_snd | split | intro _ | simp only [keeps_mk] | dsimp only))

theorem actRest_keeps {σ s : State} (h : Keeps σ s) (ws : List Word) (kk : Nat) :
    Keeps σ (actRest s ws kk).1 := by
  unfold actRest
  with_reducible (repeat' (first | exact h | assumption | apply State.restRequest_keeps | exact keeps_refl _ | apply keepsOut_next | apply keeps_ite | apply keeps_ite_fst | apply keeps_ite_snd | split | intro _ | simp only [keeps_mk] | dsimp only))

theorem actCap_keeps {σ s : State} (h : Keeps σ s) (ws : List Word) (kk : Nat) :
    Keeps σ (actCap s ws kk).1 := by
  unfold actCap
  with_reducible (repeat' (first | exact h | assumption | apply State.setF_keeps | exact keeps_refl _ | apply keepsOut_next | apply keeps_ite | apply keeps_ite_fst | apply keeps_ite_snd | split | intro _ | simp only [keeps_mk] | dsimp only))

theorem State.sample_keeps {σ s : State} (h : Keeps σ s) (seq : Nat) (ideal : Nat) (k : Nat) :
    Keeps σ (State.sample s seq ideal k) := by
  unfold State.sample
  with_reducible (repeat' (first | exact h | assumption | apply State.each_keeps | apply State.view_keeps | apply State.wrg_keeps | exact keeps_refl _ | apply keepsOut_next | apply keeps_ite | apply keeps_ite_fst | apply keeps_ite_snd | split | intro _ | simp only [keeps_mk] | dsimp only))

theorem actTelemetry_keeps {σ s : State} (h : Keeps σ s) (ws : List Word) (kk : Nat) :
    Keeps σ (actTelemetry s ws kk).1 := by
  unfold actTelemetry
  with_reducible (repeat' (first | exact h | assumption | apply State.each_keeps | apply State.sample_keeps | exact keeps_refl _ | apply keepsOut_next | apply keeps_ite | apply keeps_ite_fst | apply keeps_ite_snd | split | intro _ | simp only [keeps_mk] | dsimp only))

theorem execStartRun_keeps {σ s : State} (h : Keeps σ s) (e : Fin 512) (bad : BitVec 2) (late : Bool) :
    KeepsOut σ (execStartRun e bad late s) := by
  unfold execStartRun
  with_reducible (repeat' (first | exact h | assumption | apply State.fire_keeps | apply actStartRun_keeps | exact keeps_refl _ | apply keepsOut_next | apply keeps_ite | apply keeps_ite_fst | apply keeps_ite_snd | split | intro _ | simp only [keeps_mk] | dsimp only))

theorem execRingFire_keeps {σ s : State} (h : Keeps σ s) (e : Fin 512) (bad : BitVec 2) (late : Bool) :
    KeepsOut σ (execRingFire e bad late s) := by
  unfold execRingFire
  with_reducible (repeat' (first | exact h | assumption | apply State.fire_keeps | apply actRing_keeps | exact keeps_refl _ | apply keepsOut_next | apply keeps_ite | apply keeps_ite_fst | apply keeps_ite_snd | split | intro _ | simp only [keeps_mk] | dsimp only))

theorem execStartStep_keeps {σ s : State} (h : Keeps σ s) (e : Fin 512) (bad : BitVec 2) (late : Bool) :
    KeepsOut σ (execStartStep e bad late s) := by
  unfold execStartStep
  with_reducible (repeat' (first | exact h | assumption | apply State.fire_keeps | apply actStartStep_keeps | exact keeps_refl _ | apply keepsOut_next | apply keeps_ite | apply keeps_ite_fst | apply keeps_ite_snd | split | intro _ | simp only [keeps_mk] | dsimp only))

theorem execAeBarrier_keeps {σ s : State} (h : Keeps σ s) (e : Fin 512) (bad : BitVec 2) (late : Bool) :
    KeepsOut σ (execAeBarrier e bad late s) := by
  unfold execAeBarrier
  with_reducible (repeat' (first | exact h | assumption | apply State.fire_keeps | apply actBarrier_keeps | exact keeps_refl _ | apply keepsOut_next | apply keeps_ite | apply keeps_ite_fst | apply keeps_ite_snd | split | intro _ | simp only [keeps_mk] | dsimp only))

theorem execDeadline_keeps {σ s : State} (h : Keeps σ s) (e : Fin 512) (bad : BitVec 2) (late : Bool) :
    KeepsOut σ (execDeadline e bad late s) := by
  unfold execDeadline
  with_reducible (repeat' (first | exact h | assumption | apply State.fire_keeps | apply actDeadline_keeps | exact keeps_refl _ | apply keepsOut_next | apply keeps_ite | apply keeps_ite_fst | apply keeps_ite_snd | split | intro _ | simp only [keeps_mk] | dsimp only))

theorem execPowerWake_keeps {σ s : State} (h : Keeps σ s) (e : Fin 512) (bad : BitVec 2) (late : Bool) :
    KeepsOut σ (execPowerWake e bad late s) := by
  unfold execPowerWake
  with_reducible (repeat' (first | exact h | assumption | apply State.fire_keeps | apply actWake_keeps | exact keeps_refl _ | apply keepsOut_next | apply keeps_ite | apply keeps_ite_fst | apply keeps_ite_snd | split | intro _ | simp only [keeps_mk] | dsimp only))

theorem execPowerEnterRest_keeps {σ s : State} (h : Keeps σ s) (e : Fin 512) (bad : BitVec 2) (late : Bool) :
    KeepsOut σ (execPowerEnterRest e bad late s) := by
  unfold execPowerEnterRest
  with_reducible (repeat' (first | exact h | assumption | apply State.fire_keeps | apply actRest_keeps | exact keeps_refl _ | apply keepsOut_next | apply keeps_ite | apply keeps_ite_fst | apply keeps_ite_snd | split | intro _ | simp only [keeps_mk] | dsimp only))

theorem execPowerSetCap_keeps {σ s : State} (h : Keeps σ s) (e : Fin 512) (bad : BitVec 2) (late : Bool) :
    KeepsOut σ (execPowerSetCap e bad late s) := by
  unfold execPowerSetCap
  with_reducible (repeat' (first | exact h | assumption | apply State.fire_keeps | apply actCap_keeps | exact keeps_refl _ | apply keepsOut_next | apply keeps_ite | apply keeps_ite_fst | apply keeps_ite_snd | split | intro _ | simp only [keeps_mk] | dsimp only))

theorem execTelemetry_keeps {σ s : State} (h : Keeps σ s) (e : Fin 512) (bad : BitVec 2) (late : Bool) :
    KeepsOut σ (execTelemetry e bad late s) := by
  unfold execTelemetry
  with_reducible (repeat' (first | exact h | assumption | apply State.fire_keeps | apply actTelemetry_keeps | exact keeps_refl _ | apply keepsOut_next | apply keeps_ite | apply keeps_ite_fst | apply keeps_ite_snd | split | intro _ | simp only [keeps_mk] | dsimp only))

theorem State.heldAct_keeps {σ s : State} (h : Keeps σ s) (x : Nat × List Word) :
    Keeps σ (State.heldAct s x) := by
  unfold State.heldAct
  with_reducible (repeat' (first | exact h | assumption | apply State.act_keeps | apply actStartRun_keeps | apply actRing_keeps | apply actStartStep_keeps | apply actBarrier_keeps | exact keeps_refl _ | apply keepsOut_next | apply keeps_ite | apply keeps_ite_fst | apply keeps_ite_snd | split | intro _ | simp only [keeps_mk] | dsimp only))

theorem execWakeDone_keeps {σ s : State} (h : Keeps σ s) :
    KeepsOut σ (execWakeDone s) := by
  unfold execWakeDone
  with_reducible (repeat' (first | exact h | assumption | apply State.regrant_keeps | apply State.powerEvent_keeps | apply State.setF_keeps | apply State.each_keeps | apply State.setPower_keeps | apply State.heldAct_keeps | exact keeps_refl _ | apply keepsOut_next | apply keeps_ite | apply keeps_ite_fst | apply keeps_ite_snd | split | intro _ | simp only [keeps_mk] | dsimp only))

theorem State.seqDeadline_keeps {σ s : State} (h : Keeps σ s) (id : Nat) (abandon : Bool) :
    Keeps σ (State.seqDeadline s id abandon) := by
  unfold State.seqDeadline
  with_reducible (repeat' (first | exact h | assumption | apply State.abandonSeq_keeps | apply State.deadlineMiss_keeps | apply State.endSeq_keeps | apply State.setSeq_keeps | exact keeps_refl _ | apply keepsOut_next | apply keeps_ite | apply keeps_ite_fst | apply keeps_ite_snd | split | intro _ | simp only [keeps_mk] | dsimp only))

theorem State.descDeadline_keeps {σ s : State} (h : Keeps σ s) (id : Nat) (abandon : Bool) :
    Keeps σ (State.descDeadline s id abandon) := by
  unfold State.descDeadline
  with_reducible (repeat' (first | exact h | assumption | apply State.inc_keeps | apply State.endDesc_keeps | apply State.deadlineMiss_keeps | exact keeps_refl _ | apply keepsOut_next | apply keeps_ite | apply keeps_ite_fst | apply keeps_ite_snd | split | intro _ | simp only [keeps_mk] | dsimp only))

theorem execRunDeadline_keeps {σ s : State} (h : Keeps σ s) (src : RunSrc) :
    KeepsOut σ (execRunDeadline src s) := by
  unfold execRunDeadline
  with_reducible (repeat' (first | exact h | assumption | apply State.seqDeadline_keeps | apply State.descDeadline_keeps | apply State.setSeq_keeps | exact keeps_refl _ | apply keepsOut_next | apply keeps_ite | apply keeps_ite_fst | apply keeps_ite_snd | split | intro _ | simp only [keeps_mk] | dsimp only))

end Sys2Proof.Machine
end

