-- ==== Sys2Proof/Laws/KeepsResets.lean ====
section
/-! SUPPORT. The operations and commands of Machine/Resets.lean leave the queue as it is, and keep memory and registers in their one form. -/

set_option linter.unusedTactic false
set_option linter.unreachableTactic false
set_option linter.unusedSimpArgs false

namespace Sys2Proof.Machine

theorem State.resetCluster_keeps {σ s : State} (h : Keeps σ s) (i : Nat) (n : Nat) :
    Keeps σ (State.resetCluster s i n) := by
  unfold State.resetCluster
  with_reducible (repeat' (first | exact h | assumption | apply State.stopLend_keeps | apply State.upCl_keeps | exact keeps_refl _ | apply keepsOut_next | apply keeps_ite | apply keeps_ite_fst | apply keeps_ite_snd | split | intro _ | simp only [keeps_mk] | dsimp only))

theorem State.resetStep_keeps {σ s : State} (h : Keeps σ s) (i : Nat) :
    Keeps σ (State.resetStep s i) := by
  unfold State.resetStep
  with_reducible (repeat' (first | exact h | assumption | apply State.endEpisodes_keeps | apply State.stopClusters_keeps | apply State.rollback_keeps | apply State.setStep_keeps | apply State.each_keeps | apply State.setSeq_keeps | exact keeps_refl _ | apply keepsOut_next | apply keeps_ite | apply keeps_ite_fst | apply keeps_ite_snd | split | intro _ | simp only [keeps_mk] | dsimp only))

theorem State.resetSeqs_keeps {σ s : State} (h : Keeps σ s) (i : Nat) :
    Keeps σ (State.resetSeqs s i) := by
  unfold State.resetSeqs
  with_reducible (repeat' (first | exact h | assumption | apply State.each_keeps | apply State.setSeq_keeps | exact keeps_refl _ | apply keepsOut_next | apply keeps_ite | apply keeps_ite_fst | apply keeps_ite_snd | split | intro _ | simp only [keeps_mk] | dsimp only))

theorem State.resetRings_keeps {σ s : State} (h : Keeps σ s) (i : Nat) :
    Keeps σ (State.resetRings s i) := by
  unfold State.resetRings
  with_reducible (repeat' (first | exact h | assumption | apply State.each_keeps | apply State.setF_keeps | apply State.setRing_keeps | apply State.traceEnd_keeps | apply State.quarantineTag_keeps | exact keeps_refl _ | apply keepsOut_next | apply keeps_ite | apply keeps_ite_fst | apply keeps_ite_snd | split | intro _ | simp only [keeps_mk] | dsimp only))

theorem State.resetSlot_keeps {σ s : State} (h : Keeps σ s) (n : Nat) :
    Keeps σ (State.resetSlot s n) := by
  unfold State.resetSlot
  with_reducible (repeat' (first | exact h | assumption | apply State.engineFree_keeps | apply State.setF_keeps | apply State.free_keeps | apply State.dropPlanes_keeps | exact keeps_refl _ | apply keepsOut_next | apply keeps_ite | apply keeps_ite_fst | apply keeps_ite_snd | split | intro _ | simp only [keeps_mk] | dsimp only))

theorem State.resetSlots_keeps {σ s : State} (h : Keeps σ s) (i : Nat) :
    Keeps σ (State.resetSlots s i) := by
  unfold State.resetSlots
  with_reducible (repeat' (first | exact h | assumption | apply State.each_keeps | apply State.resetSlot_keeps | exact keeps_refl _ | apply keepsOut_next | apply keeps_ite | apply keeps_ite_fst | apply keeps_ite_snd | split | intro _ | simp only [keeps_mk] | dsimp only))

theorem State.resetLinks_keeps {σ s : State} (h : Keeps σ s) (i : Nat) :
    Keeps σ (State.resetLinks s i) := by
  unfold State.resetLinks
  with_reducible (repeat' (first | exact h | assumption | exact keeps_refl _ | apply keepsOut_next | apply keeps_ite | apply keeps_ite_fst | apply keeps_ite_snd | split | intro _ | simp only [keeps_mk] | dsimp only))

theorem State.resetUnits_keeps {σ s : State} (h : Keeps σ s) (i : Nat) :
    Keeps σ (State.resetUnits s i) := by
  unfold State.resetUnits
  with_reducible (repeat' (first | exact h | assumption | apply State.wrg_keeps | apply State.wrg64_keeps | apply State.setF_keeps | apply State.statClear_keeps | apply State.accClear_keeps | exact keeps_refl _ | apply keepsOut_next | apply keeps_ite | apply keeps_ite_fst | apply keeps_ite_snd | split | intro _ | simp only [keeps_mk] | dsimp only))

theorem State.resetCounters_keeps {σ s : State} (h : Keeps σ s) (i : Nat) :
    Keeps σ (State.resetCounters s i) := by
  unfold State.resetCounters
  with_reducible (repeat' (first | exact h | assumption | apply State.each_keeps | apply State.emit_keeps | apply State.setF_keeps | apply State.setPc_keeps | apply State.setTime_keeps | exact keeps_refl _ | apply keepsOut_next | apply keeps_ite | apply keeps_ite_fst | apply keeps_ite_snd | split | intro _ | simp only [keeps_mk] | dsimp only))

theorem State.resetEntries_keeps {σ s : State} (h : Keeps σ s) (i : Nat) :
    Keeps σ (State.resetEntries s i) := by
  unfold State.resetEntries
  with_reducible (repeat' (first | exact h | assumption | apply State.each_keeps | apply State.clearEntry_keeps | apply State.pruneWatches_keeps | apply State.setTime_keeps | exact keeps_refl _ | apply keepsOut_next | apply keeps_ite | apply keeps_ite_fst | apply keeps_ite_snd | split | intro _ | simp only [keeps_mk] | dsimp only))

theorem State.resetSessions_keeps {σ s : State} (h : Keeps σ s) (i : Nat) :
    Keeps σ (State.resetSessions s i) := by
  unfold State.resetSessions
  with_reducible (repeat' (first | exact h | assumption | apply State.each_keeps | apply State.closeSession_keeps | exact keeps_refl _ | apply keepsOut_next | apply keeps_ite | apply keeps_ite_fst | apply keeps_ite_snd | split | intro _ | simp only [keeps_mk] | dsimp only))

theorem State.resetHeld_keeps {σ s : State} (h : Keeps σ s) (i : Nat) :
    Keeps σ (State.resetHeld s i) := by
  unfold State.resetHeld
  with_reducible (repeat' (first | exact h | assumption | exact keeps_refl _ | apply keepsOut_next | apply keeps_ite | apply keeps_ite_fst | apply keeps_ite_snd | split | intro _ | simp only [keeps_mk] | dsimp only))

theorem State.instReset_keeps {σ s : State} (h : Keeps σ s) (i : Nat) :
    Keeps σ (State.instReset s i) := by
  unfold State.instReset
  with_reducible (repeat' (first | exact h | assumption | apply State.resetSeqs_keeps | apply State.resetStep_keeps | apply State.setF_keeps | apply State.resetEntries_keeps | apply State.resetSessions_keeps | apply State.resetRings_keeps | apply State.each_keeps | apply State.resetCluster_keeps | apply State.resetUnits_keeps | apply State.resetLinks_keeps | apply State.resetSlots_keeps | apply State.resetHeld_keeps | apply State.resetCounters_keeps | exact keeps_refl _ | apply keepsOut_next | apply keeps_ite | apply keeps_ite_fst | apply keeps_ite_snd | split | intro _ | simp only [keeps_mk] | dsimp only))

theorem execInstReset_keeps {σ s : State} (h : Keeps σ s) (why : ResetCause) :
    KeepsOut σ (execInstReset why s) := by
  unfold execInstReset
  with_reducible (repeat' (first | exact h | assumption | apply State.hostWrite_keeps | apply State.instReset_keeps | apply State.each_keeps | exact keeps_refl _ | apply keepsOut_next | apply keeps_ite | apply keeps_ite_fst | apply keeps_ite_snd | split | intro _ | simp only [keeps_mk] | dsimp only))

theorem execResetDone_keeps {σ s : State} (h : Keeps σ s) (i : Fin 64) :
    KeepsOut σ (execResetDone i s) := by
  unfold execResetDone
  with_reducible (repeat' (first | exact h | assumption | apply State.instEvent_keeps | apply State.setF_keeps | exact keeps_refl _ | apply keepsOut_next | apply keeps_ite | apply keeps_ite_fst | apply keeps_ite_snd | split | intro _ | simp only [keeps_mk] | dsimp only))

end Sys2Proof.Machine
end

