-- ==== Sys2Proof/Laws/KeepsColdReset.lean ====
section
/-! SUPPORT. The operations and commands of Machine/ColdReset.lean leave the queue as it is, and keep memory and registers in their one form. -/

set_option linter.unusedTactic false
set_option linter.unreachableTactic false
set_option linter.unusedSimpArgs false

namespace Sys2Proof.Machine

theorem State.setMgmt_keeps {σ s : State} (h : Keeps σ s) (m : MgmtSt) :
    Keeps σ (State.setMgmt s m) := by
  unfold State.setMgmt
  with_reducible (repeat' (first | exact h | assumption | exact keeps_refl _ | apply keepsOut_next | apply keeps_ite | apply keeps_ite_fst | apply keeps_ite_snd | split | intro _ | simp only [keeps_mk] | dsimp only))

theorem State.coldReset_keeps {σ s : State} (h : Keeps σ s) (cause : Option Nat) :
    Keeps σ (State.coldReset s cause) := by
  unfold State.coldReset
  apply State.wrg_keeps
  apply State.each_keeps
  · exact ⟨h.1, fun _ => ⟨rfl, rfl⟩, h.2.2⟩
  · intro u x
    exact State.libSettle_keeps (keeps_refl u) x

theorem State.coldCause_keeps {σ s : State} (h : Keeps σ s) (k : Nat) :
    Keeps σ (State.coldCause s k) := by
  unfold State.coldCause
  with_reducible (repeat' (first | exact h | assumption | apply State.setMgmt_keeps | apply State.coldReset_keeps | exact keeps_refl _ | apply keepsOut_next | apply keeps_ite | apply keeps_ite_fst | apply keeps_ite_snd | split | intro _ | simp only [keeps_mk] | dsimp only))

theorem execColdReset_keeps {σ s : State} (h : Keeps σ s) (powerOn : Bool) :
    KeepsOut σ (execColdReset powerOn s) := by
  unfold execColdReset
  with_reducible (repeat' (first | exact h | assumption | apply State.setMgmt_keeps | apply State.coldReset_keeps | apply State.coldCause_keeps | exact keeps_refl _ | apply keepsOut_next | apply keeps_ite | apply keeps_ite_fst | apply keeps_ite_snd | split | intro _ | simp only [keeps_mk] | dsimp only))

theorem execColdResetNDeassert_keeps {σ s : State} (h : Keeps σ s) :
    KeepsOut σ (execColdResetNDeassert s) := by
  unfold execColdResetNDeassert
  with_reducible (repeat' (first | exact h | assumption | apply State.setMgmt_keeps | exact keeps_refl _ | apply keepsOut_next | apply keeps_ite | apply keeps_ite_fst | apply keeps_ite_snd | split | intro _ | simp only [keeps_mk] | dsimp only))

theorem State.enterRecovery_keeps {σ s : State} (h : Keeps σ s) (cause : Nat) :
    Keeps σ (State.enterRecovery s cause) := by
  unfold State.enterRecovery
  with_reducible (repeat' (first | exact h | assumption | apply State.alert_keeps | apply State.setF_keeps | exact keeps_refl _ | apply keepsOut_next | apply keeps_ite | apply keeps_ite_fst | apply keeps_ite_snd | split | intro _ | simp only [keeps_mk] | dsimp only))

theorem State.bootRom_keeps {σ s : State} (h : Keeps σ s) :
    Keeps σ (State.bootRom s) := by
  unfold State.bootRom
  with_reducible (repeat' (first | exact h | assumption | apply State.setF_keeps | apply State.wrg64_keeps | exact keeps_refl _ | apply keepsOut_next | apply keeps_ite | apply keeps_ite_fst | apply keeps_ite_snd | split | intro _ | simp only [keeps_mk] | dsimp only))

theorem State.bootFirmware_keeps {σ s : State} (h : Keeps σ s) :
    Keeps σ (State.bootFirmware s) := by
  unfold State.bootFirmware
  with_reducible (repeat' (first | exact h | assumption | apply State.enterRecovery_keeps | apply State.setMgmt_keeps | apply State.setF_keeps | apply State.wrg_keeps | apply State.each_keeps | apply State.alert_keeps | exact keeps_refl _ | apply keepsOut_next | apply keeps_ite | apply keeps_ite_fst | apply keeps_ite_snd | split | intro _ | simp only [keeps_mk] | dsimp only))

theorem State.bootSelfTest_keeps {σ s : State} (h : Keeps σ s) (clusters : List Nat) (banks : List (Nat × Nat)) (paths : Bool) :
    Keeps σ (State.bootSelfTest s clusters banks paths) := by
  unfold State.bootSelfTest
  with_reducible (repeat' (first | exact h | assumption | apply State.each_keeps | apply State.wrg_keeps | apply State.mapSpare_keeps | apply State.setF_keeps | apply State.rewriteMap_keeps | apply State.summary_keeps | apply State.packageFailed_keeps | apply State.regrant_keeps | exact keeps_refl _ | apply keepsOut_next | apply keeps_ite | apply keeps_ite_fst | apply keeps_ite_snd | split | intro _ | simp only [keeps_mk] | dsimp only))

theorem State.bootDram_keeps {σ s : State} (h : Keeps σ s) (dead : List Nat) :
    Keeps σ (State.bootDram s dead) := by
  unfold State.bootDram
  with_reducible (repeat' (first | exact h | assumption | apply State.each_keeps | apply State.setF_keeps | apply State.packageFailed_keeps | exact keeps_refl _ | apply keepsOut_next | apply keeps_ite | apply keeps_ite_fst | apply keeps_ite_snd | split | intro _ | simp only [keeps_mk] | dsimp only))

theorem State.halfErased_keeps {σ s : State} (h : Keeps σ s) (b : Nat) (count : Option Nat) :
    Keeps σ (State.halfErased s b count) := by
  unfold State.halfErased
  with_reducible (repeat' (first | exact h | assumption | apply State.each_keeps | apply State.damage_keeps | apply State.setBlock_keeps | exact keeps_refl _ | apply keepsOut_next | apply keeps_ite | apply keeps_ite_fst | apply keeps_ite_snd | split | intro _ | simp only [keeps_mk] | dsimp only))

theorem State.bootStore_keeps {σ s : State} (h : Keeps σ s) (half : List (Nat × Option Nat)) (pages : PageReads) :
    Keeps σ (State.bootStore s half pages) := by
  unfold State.bootStore
  with_reducible (repeat' (first | exact h | assumption | apply State.each_keeps | apply State.countPages_keeps | apply State.halfErased_keeps | apply State.storeCounts_keeps | apply State.setF_keeps | apply State.wrg_keeps | exact keeps_refl _ | apply keepsOut_next | apply keeps_ite | apply keeps_ite_fst | apply keeps_ite_snd | split | intro _ | simp only [keeps_mk] | dsimp only))

theorem State.bootReady_keeps {σ s : State} (h : Keeps σ s) :
    Keeps σ (State.bootReady s) := by
  unfold State.bootReady
  with_reducible (repeat' (first | exact h | assumption | apply State.free_keeps | apply State.setF_keeps | apply State.setMgmt_keeps | apply State.alert_keeps | exact keeps_refl _ | apply keepsOut_next | apply keeps_ite | apply keeps_ite_fst | apply keeps_ite_snd | split | intro _ | simp only [keeps_mk] | dsimp only))

theorem execBootStageEnd_keeps {σ s : State} (h : Keeps σ s) (f : BootFact) :
    KeepsOut σ (execBootStageEnd f s) := by
  unfold execBootStageEnd
  with_reducible (repeat' (first | exact h | assumption | apply State.bootRom_keeps | apply State.bootFirmware_keeps | apply State.bootSelfTest_keeps | apply State.bootDram_keeps | apply State.bootReady_keeps | apply State.bootStore_keeps | exact keeps_refl _ | apply keepsOut_next | apply keeps_ite | apply keeps_ite_fst | apply keeps_ite_snd | split | intro _ | simp only [keeps_mk] | dsimp only))

theorem execBootWatchdog_keeps {σ s : State} (h : Keeps σ s) :
    KeepsOut σ (execBootWatchdog s) := by
  unfold execBootWatchdog
  with_reducible (repeat' (first | exact h | assumption | apply State.coldReset_keeps | apply State.enterRecovery_keeps | apply State.bootRom_keeps | apply State.setMgmt_keeps | exact keeps_refl _ | apply keepsOut_next | apply keeps_ite | apply keeps_ite_fst | apply keeps_ite_snd | split | intro _ | simp only [keeps_mk] | dsimp only))

theorem State.brownoutReset_keeps {σ s : State} (h : Keeps σ s) (c : Supply) :
    Keeps σ (State.brownoutReset s c) := by
  unfold State.brownoutReset
  with_reducible (repeat' (first | exact h | assumption | apply State.coldReset_keeps | apply State.setMgmt_keeps | exact keeps_refl _ | apply keepsOut_next | apply keeps_ite | apply keeps_ite_fst | apply keeps_ite_snd | split | intro _ | simp only [keeps_mk] | dsimp only))

theorem execRailFault_keeps {σ s : State} (h : Keeps σ s) (r : Rail) :
    KeepsOut σ (execRailFault r s) := by
  unfold execRailFault
  with_reducible (repeat' (first | exact h | assumption | apply State.brownoutReset_keeps | apply State.packageFailed_keeps | exact keeps_refl _ | apply keepsOut_next | apply keeps_ite | apply keeps_ite_fst | apply keeps_ite_snd | split | intro _ | simp only [keeps_mk] | dsimp only))

theorem execBrownoutEnd_keeps {σ s : State} (h : Keeps σ s) (c : Supply) :
    KeepsOut σ (execBrownoutEnd c s) := by
  unfold execBrownoutEnd
  with_reducible (repeat' (first | exact h | assumption | apply State.setMgmt_keeps | exact keeps_refl _ | apply keepsOut_next | apply keeps_ite | apply keeps_ite_fst | apply keeps_ite_snd | split | intro _ | simp only [keeps_mk] | dsimp only))

theorem State.hostLinkDown_keeps {σ s : State} (h : Keeps σ s) :
    Keeps σ (State.hostLinkDown s) := by
  unfold State.hostLinkDown
  with_reducible (repeat' (first | exact h | assumption | apply State.wrg_keeps | exact keeps_refl _ | apply keepsOut_next | apply keeps_ite | apply keeps_ite_fst | apply keeps_ite_snd | split | intro _ | simp only [keeps_mk] | dsimp only))

theorem execRefclkLoss_keeps {σ s : State} (h : Keeps σ s) (c : RefClk) :
    KeepsOut σ (execRefclkLoss c s) := by
  unfold execRefclkLoss
  with_reducible (repeat' (first | exact h | assumption | apply State.brownoutReset_keeps | apply State.each_keeps | apply State.ethDown_keeps | apply State.portDown_keeps | apply State.retrain_keeps | apply State.hostLinkDown_keeps | exact keeps_refl _ | apply keepsOut_next | apply keeps_ite | apply keeps_ite_fst | apply keeps_ite_snd | split | intro _ | simp only [keeps_mk] | dsimp only))

theorem execHostReset_keeps {σ s : State} (h : Keeps σ s) :
    KeepsOut σ (execHostReset s) := by
  unfold execHostReset
  with_reducible (repeat' (first | exact h | assumption | apply State.setMgmt_keeps | apply State.hostLinkDown_keeps | apply State.each_keeps | apply State.instReset_keeps | exact keeps_refl _ | apply keepsOut_next | apply keeps_ite | apply keeps_ite_fst | apply keeps_ite_snd | split | intro _ | simp only [keeps_mk] | dsimp only))

theorem execPerstNDeassert_keeps {σ s : State} (h : Keeps σ s) (rate : BitVec 2) (flit : Bool) (width : BitVec 5) :
    KeepsOut σ (execPerstNDeassert rate flit width s) := by
  unfold execPerstNDeassert
  with_reducible (repeat' (first | exact h | assumption | apply State.setMgmt_keeps | apply State.setF_keeps | exact keeps_refl _ | apply keepsOut_next | apply keeps_ite | apply keeps_ite_fst | apply keeps_ite_snd | split | intro _ | simp only [keeps_mk] | dsimp only))

theorem State.controllerResetNow_keeps {σ s : State} (h : Keeps σ s) :
    Keeps σ (State.controllerResetNow s) := by
  unfold State.controllerResetNow
  with_reducible (repeat' (first | exact h | assumption | apply State.driveFan_keeps | apply State.inc_keeps | apply State.setMgmt_keeps | exact keeps_refl _ | apply keepsOut_next | apply keeps_ite | apply keeps_ite_fst | apply keeps_ite_snd | split | intro _ | simp only [keeps_mk] | dsimp only))

theorem execControllerReset_keeps {σ s : State} (h : Keeps σ s) :
    KeepsOut σ (execControllerReset s) := by
  unfold execControllerReset
  with_reducible (repeat' (first | exact h | assumption | apply State.controllerResetNow_keeps | exact keeps_refl _ | apply keepsOut_next | apply keeps_ite | apply keeps_ite_fst | apply keeps_ite_snd | split | intro _ | simp only [keeps_mk] | dsimp only))

theorem execControllerWatchdog_keeps {σ s : State} (h : Keeps σ s) :
    KeepsOut σ (execControllerWatchdog s) := by
  unfold execControllerWatchdog
  with_reducible (repeat' (first | exact h | assumption | apply State.controllerResetNow_keeps | exact keeps_refl _ | apply keepsOut_next | apply keeps_ite | apply keeps_ite_fst | apply keeps_ite_snd | split | intro _ | simp only [keeps_mk] | dsimp only))

theorem execControllerResetDone_keeps {σ s : State} (h : Keeps σ s) :
    KeepsOut σ (execControllerResetDone s) := by
  unfold execControllerResetDone
  with_reducible (repeat' (first | exact h | assumption | apply State.driveFan_keeps | apply State.drivePins_keeps | apply State.setMgmt_keeps | exact keeps_refl _ | apply keepsOut_next | apply keeps_ite | apply keeps_ite_fst | apply keeps_ite_snd | split | intro _ | simp only [keeps_mk] | dsimp only))

theorem execHubWatchdog_keeps {σ s : State} (h : Keeps σ s) :
    KeepsOut σ (execHubWatchdog s) := by
  unfold execHubWatchdog
  with_reducible (repeat' (first | exact h | assumption | apply State.setF_keeps | apply State.setMgmt_keeps | apply State.driveFan_keeps | exact keeps_refl _ | apply keepsOut_next | apply keeps_ite | apply keeps_ite_fst | apply keeps_ite_snd | split | intro _ | simp only [keeps_mk] | dsimp only))

theorem State.resetCode_keeps {σ s : State} (h : Keeps σ s) (code : Nat) :
    Keeps σ (State.resetCode s code) := by
  unfold State.resetCode
  with_reducible (repeat' (first | exact h | assumption | apply State.coldCause_keeps | apply State.controllerResetNow_keeps | exact keeps_refl _ | apply keepsOut_next | apply keeps_ite | apply keeps_ite_fst | apply keeps_ite_snd | split | intro _ | simp only [keeps_mk] | dsimp only))

theorem State.gsReset_keeps {σ s : State} (h : Keeps σ s) (v : Word) :
    Keeps σ (State.gsReset s v) := by
  unfold State.gsReset
  with_reducible (repeat' (first | exact h | assumption | apply State.resetCode_keeps | apply State.hostMismatch_keeps | exact keeps_refl _ | apply keepsOut_next | apply keeps_ite | apply keeps_ite_fst | apply keeps_ite_snd | split | intro _ | simp only [keeps_mk] | dsimp only))

theorem execGsResetCold_keeps {σ s : State} (h : Keeps σ s) (v : Word) :
    KeepsOut σ (execGsResetCold v s) := by
  unfold execGsResetCold
  with_reducible (repeat' (first | exact h | assumption | apply State.hostWrite_keeps | apply State.gsReset_keeps | exact keeps_refl _ | apply keepsOut_next | apply keeps_ite | apply keeps_ite_fst | apply keeps_ite_snd | split | intro _ | simp only [keeps_mk] | dsimp only))

theorem execGsResetController_keeps {σ s : State} (h : Keeps σ s) (v : Word) :
    KeepsOut σ (execGsResetController v s) := by
  unfold execGsResetController
  with_reducible (repeat' (first | exact h | assumption | apply State.hostWrite_keeps | apply State.gsReset_keeps | exact keeps_refl _ | apply keepsOut_next | apply keeps_ite | apply keeps_ite_fst | apply keeps_ite_snd | split | intro _ | simp only [keeps_mk] | dsimp only))

theorem execRepairScan_keeps {σ s : State} (h : Keeps σ s) (badClusters : List Nat) (badBanks : List Nat) :
    KeepsOut σ (execRepairScan badClusters badBanks s) := by
  unfold execRepairScan
  with_reducible (repeat' (first | exact h | assumption | apply State.hostWrite_keeps | apply State.maintBegin_keeps | apply State.each_keeps | apply State.mapStatus_keeps | apply State.setF_keeps | apply State.summary_keeps | apply State.maintResult_keeps | exact keeps_refl _ | apply keepsOut_next | apply keeps_ite | apply keeps_ite_fst | apply keeps_ite_snd | split | intro _ | simp only [keeps_mk] | dsimp only))

theorem execFirmwareUpdate_keeps {σ s : State} (h : Keeps σ s) (sigOk : Bool) (svn : BitVec 16) (build : BitVec 16) :
    KeepsOut σ (execFirmwareUpdate sigOk svn build s) := by
  unfold execFirmwareUpdate
  with_reducible (repeat' (first | exact h | assumption | apply State.hostWrite_keeps | apply State.maintBegin_keeps | apply State.maintResult_keeps | apply State.setMgmt_keeps | exact keeps_refl _ | apply keepsOut_next | apply keeps_ite | apply keeps_ite_fst | apply keeps_ite_snd | split | intro _ | simp only [keeps_mk] | dsimp only))

end Sys2Proof.Machine
end

