-- ==== Sys2Proof/Laws/KeepsRegWrite.lean ====
section
/-! SUPPORT. The operations and commands of Machine/RegWrite.lean leave the queue as it is, and keep memory and registers in their one form. -/

set_option linter.unusedTactic false
set_option linter.unreachableTactic false
set_option linter.unusedSimpArgs false

namespace Sys2Proof.Machine

theorem State.setupWrite_keeps {σ s : State} (h : Keeps σ s) (v : Word) :
    Keeps σ (State.setupWrite s v) := by
  unfold State.setupWrite
  with_reducible (repeat' (first | exact h | assumption | apply State.setF_keeps | apply State.setMgmt_keeps | exact keeps_refl _ | apply keepsOut_next | apply keeps_ite | apply keeps_ite_fst | apply keeps_ite_snd | split | intro _ | simp only [keeps_mk] | dsimp only))

theorem State.writeWindow_keeps {σ s : State} (h : Keeps σ s) (off : Nat) (v : Word) :
    Keeps σ (State.writeWindow s off v) := by
  unfold State.writeWindow
  with_reducible (repeat' (first | exact h | assumption | apply State.seqDebugWrite_keeps | apply State.dbgWrite_keeps | apply State.plain_keeps | exact keeps_refl _ | apply keepsOut_next | apply keeps_ite | apply keeps_ite_fst | apply keeps_ite_snd | split | intro _ | simp only [keeps_mk] | dsimp only))

theorem State.writeFlarid_keeps {σ s : State} (h : Keeps σ s) (off : Nat) (v : Word) :
    Keeps σ (State.writeFlarid s off v) := by
  unfold State.writeFlarid
  with_reducible (repeat' (first | exact h | assumption | apply State.stageWrite_keeps | apply State.keyWrite_keeps | apply State.srcIdWrite_keeps | apply State.rtRead_keeps | apply State.rtWrite_keeps | apply State.mcRead_keeps | apply State.mcWrite_keeps | apply State.plain_keeps | apply State.flCtrlWrite_keeps | exact keeps_refl _ | apply keepsOut_next | apply keeps_ite | apply keeps_ite_fst | apply keeps_ite_snd | split | intro _ | simp only [keeps_mk] | dsimp only))

theorem State.whileInvalid_keeps {σ s : State} (h : Keeps σ s) (ctrl : Nat) (off : Nat) (v : Word) (f : State → State) (hf : ∀ u0, Keeps u0 (f u0)) :
    Keeps σ (State.whileInvalid s ctrl off v f) := by
  unfold State.whileInvalid
  with_reducible (repeat' (first | exact h | assumption | refine keeps_trans ?_ (hf _) | exact keeps_refl _ | apply keepsOut_next | apply keeps_ite | apply keeps_ite_fst | apply keeps_ite_snd | split | intro _ | simp only [keeps_mk] | dsimp only))

theorem State.batWrite_keeps {σ s : State} (h : Keeps σ s) (k : Nat) (v : Word) :
    Keeps σ (State.batWrite s k v) := by
  unfold State.batWrite
  with_reducible (repeat' (first | exact h | assumption | apply State.plain_keeps | exact keeps_refl _ | apply keepsOut_next | apply keeps_ite | apply keeps_ite_fst | apply keeps_ite_snd | split | intro _ | simp only [keeps_mk] | dsimp only))

theorem State.ethCtrlWrite_keeps {σ s : State} (h : Keeps σ s) (p : Nat) (v : Word) :
    Keeps σ (State.ethCtrlWrite s p v) := by
  unfold State.ethCtrlWrite
  with_reducible (repeat' (first | exact h | assumption | apply State.plain_keeps | apply State.each_keeps | apply State.ethDown_keeps | exact keeps_refl _ | apply keepsOut_next | apply keeps_ite | apply keeps_ite_fst | apply keeps_ite_snd | split | intro _ | simp only [keeps_mk] | dsimp only))

theorem State.writeEth_keeps {σ s : State} (h : Keeps σ s) (off : Nat) (v : Word) :
    Keeps σ (State.writeEth s off v) := by
  unfold State.writeEth
  with_reducible (repeat' (first | exact h | assumption | apply State.whileInvalid_keeps | apply State.plain_keeps | apply State.batWrite_keeps | apply State.ethCtrlWrite_keeps | exact keeps_refl _ | apply keepsOut_next | apply keeps_ite | apply keeps_ite_fst | apply keeps_ite_snd | split | intro _ | simp only [keeps_mk] | dsimp only))

theorem State.keyCtrlWrite_keeps {σ s : State} (h : Keeps σ s) (v : Word) :
    Keeps σ (State.keyCtrlWrite s v) := by
  unfold State.keyCtrlWrite
  with_reducible (repeat' (first | exact h | assumption | apply State.cond_keeps | apply State.setF_keeps | apply State.keyCommit_keeps | apply State.keyLock_keeps | exact keeps_refl _ | apply keepsOut_next | apply keeps_ite | apply keeps_ite_fst | apply keeps_ite_snd | split | intro _ | simp only [keeps_mk] | dsimp only))

theorem State.stwRegWrite_keeps {σ s : State} (h : Keeps σ s) (v : Word) :
    Keeps σ (State.stwRegWrite s v) := by
  unfold State.stwRegWrite
  with_reducible (repeat' (first | exact h | assumption | apply State.free_keeps | apply State.stwWrite_keeps | exact keeps_refl _ | apply keepsOut_next | apply keeps_ite | apply keeps_ite_fst | apply keeps_ite_snd | split | intro _ | simp only [keeps_mk] | dsimp only))

theorem State.writeStore_keeps {σ s : State} (h : Keeps σ s) (off : Nat) (v : Word) :
    Keeps σ (State.writeStore s off v) := by
  unfold State.writeStore
  with_reducible (repeat' (first | exact h | assumption | apply State.bwSplitWrite_keeps | apply State.stwRegWrite_keeps | apply State.libDeleteWrite_keeps | apply State.keyCtrlWrite_keeps | apply State.plain_keeps | exact keeps_refl _ | apply keepsOut_next | apply keeps_ite | apply keeps_ite_fst | apply keeps_ite_snd | split | intro _ | simp only [keeps_mk] | dsimp only))

theorem State.writeCe_keeps {σ s : State} (h : Keeps σ s) (off : Nat) (v : Word) :
    Keeps σ (State.writeCe s off v) := by
  unfold State.writeCe
  with_reducible (repeat' (first | exact h | assumption | apply State.drivePins_keeps | apply State.plain_keeps | apply State.txWrite_keeps | apply State.rxWrite_keeps | apply State.autoCommit_keeps | exact keeps_refl _ | apply keepsOut_next | apply keeps_ite | apply keeps_ite_fst | apply keeps_ite_snd | split | intro _ | simp only [keeps_mk] | dsimp only))

theorem State.writePc_keeps {σ s : State} (h : Keeps σ s) (off : Nat) (v : Word) :
    Keeps σ (State.writePc s off v) := by
  unfold State.writePc
  with_reducible (repeat' (first | exact h | assumption | apply State.pcCtrlWrite_keeps | apply State.pcIrq_keeps | apply State.plain_keeps | exact keeps_refl _ | apply keepsOut_next | apply keeps_ite | apply keeps_ite_fst | apply keeps_ite_snd | split | intro _ | simp only [keeps_mk] | dsimp only))

theorem State.writeInstOf_keeps {σ s : State} (h : Keeps σ s) (i : Nat) (off : Nat) (v : Word) :
    Keeps σ (State.writeInstOf s i off v) := by
  unfold State.writeInstOf
  split
  · exact State.windowWrite_keeps h _ _ _ _
  · exact State.windowWrite_keeps h _ _ _ _
  · refine keeps_ite ?_ (keeps_ite ?_ (keeps_ite ?_ (keeps_ite ?_ (keeps_ite ?_ (keeps_ite ?_ (keeps_ite ?_ (keeps_ite ?_ ?_)))))))
    · exact State.cond_keeps (State.plain_keeps h _ _) _ _ fun u => State.instReset_keeps (keeps_refl u) _
    · exact State.cond_keeps h _ _ fun u => State.accClear_keeps (keeps_refl u) _
    · exact State.gateWrite_keeps h _ _
    · exact State.castWrite_keeps h _ _
    · exact keeps_ite (State.plain_keeps h _ _) h
    · exact State.statWrite_keeps h _ _
    · exact State.plain_keeps h _ _
    · exact State.fetchArm_keeps h _ _
    · exact State.plain_keeps h _ _

theorem State.writeInst_keeps {σ s : State} (h : Keeps σ s) (off : Nat) (v : Word) :
    Keeps σ (State.writeInst s off v) := by
  unfold State.writeInst
  with_reducible (repeat' (first | exact h | assumption | apply State.writeInstOf_keeps | exact keeps_refl _ | apply keepsOut_next | apply keeps_ite | apply keeps_ite_fst | apply keeps_ite_snd | split | intro _ | simp only [keeps_mk] | dsimp only))

theorem State.writeHealth_keeps {σ s : State} (h : Keeps σ s) (off : Nat) (v : Word) :
    Keeps σ (State.writeHealth s off v) := by
  unfold State.writeHealth
  with_reducible (repeat' (first | exact h | assumption | apply State.cond_keeps | apply State.cntSet_keeps | apply State.plain_keeps | exact keeps_refl _ | apply keepsOut_next | apply keeps_ite | apply keeps_ite_fst | apply keeps_ite_snd | split | intro _ | simp only [keeps_mk] | dsimp only))

theorem State.writePower_keeps {σ s : State} (h : Keeps σ s) (off : Nat) (v : Word) :
    Keeps σ (State.writePower s off v) := by
  unfold State.writePower
  with_reducible (repeat' (first | exact h | assumption | apply State.powerWrite_keeps | apply State.restWrite_keeps | apply State.driveFan_keeps | apply State.plain_keeps | exact keeps_refl _ | apply keepsOut_next | apply keeps_ite | apply keeps_ite_fst | apply keeps_ite_snd | split | intro _ | simp only [keeps_mk] | dsimp only))

theorem State.writeTime_keeps {σ s : State} (h : Keeps σ s) (off : Nat) (v : Word) :
    Keeps σ (State.writeTime s off v) := by
  unfold State.writeTime
  with_reducible (repeat' (first | exact h | assumption | apply State.aeCommit_keeps | apply State.aeStage_keeps | apply State.plain_keeps | exact keeps_refl _ | apply keepsOut_next | apply keeps_ite | apply keeps_ite_fst | apply keeps_ite_snd | split | intro _ | simp only [keeps_mk] | dsimp only))

theorem State.writeHub_keeps {σ s : State} (h : Keeps σ s) (off : Nat) (v : Word) :
    Keeps σ (State.writeHub s off v) := by
  unfold State.writeHub
  with_reducible (repeat' (first | exact h | assumption | apply State.setF_keeps | apply State.gsReset_keeps | apply State.setupWrite_keeps | apply State.drivePins_keeps | apply State.plain_keeps | exact keeps_refl _ | apply keepsOut_next | apply keeps_ite | apply keeps_ite_fst | apply keeps_ite_snd | split | intro _ | simp only [keeps_mk] | dsimp only))

theorem State.regWrite_keeps {σ s : State} (h : Keeps σ s) (off : Nat) (v : Word) (vfEnabled : Bool) :
    Keeps σ (State.regWrite s off v vfEnabled) := by
  unfold State.regWrite
  with_reducible (repeat' (first | exact h | assumption | apply State.writeWindow_keeps | apply State.plain_keeps | apply State.writeFlarid_keeps | apply State.writeEth_keeps | apply State.writeStore_keeps | apply State.writeCe_keeps | apply State.writePc_keeps | apply State.writeInst_keeps | apply State.rcWrite_keeps | apply State.writeHealth_keeps | apply State.writePower_keeps | apply State.writeTime_keeps | apply State.writeHub_keeps | exact keeps_refl _ | apply keepsOut_next | apply keeps_ite | apply keeps_ite_fst | apply keeps_ite_snd | split | intro _ | simp only [keeps_mk] | dsimp only))

theorem State.barWrite_keeps {σ s : State} (h : Keeps σ s) (off : Nat) (size : Nat) (v : BitVec 64) (vfEnabled : Bool) :
    Keeps σ (State.barWrite s off size v vfEnabled) := by
  unfold State.barWrite
  with_reducible (repeat' (first | exact h | assumption | apply State.rejectWrite_keeps | apply State.setF_keeps | apply State.regWrite_keeps | exact keeps_refl _ | apply keepsOut_next | apply keeps_ite | apply keeps_ite_fst | apply keeps_ite_snd | split | intro _ | simp only [keeps_mk] | dsimp only))

theorem execRegisterWrite_keeps {σ s : State} (h : Keeps σ s) (off : BitVec 24) (size : Nat) (v : BitVec 64) (vfEnabled : Bool) :
    KeepsOut σ (execRegisterWrite off size v vfEnabled s) := by
  unfold execRegisterWrite
  with_reducible (repeat' (first | exact h | assumption | apply State.barWrite_keeps | exact keeps_refl _ | apply keepsOut_next | apply keeps_ite | apply keeps_ite_fst | apply keeps_ite_snd | split | intro _ | simp only [keeps_mk] | dsimp only))

end Sys2Proof.Machine
end

