-- ==== Sys2Proof/Laws/KeepsManagement.lean ====
section
/-! SUPPORT. The operations and commands of Machine/Management.lean leave the queue as it is, and keep memory and registers in their one form. -/

set_option linter.unusedTactic false
set_option linter.unreachableTactic false
set_option linter.unusedSimpArgs false

namespace Sys2Proof.Machine

theorem execSetupSave_keeps {σ s : State} (h : Keeps σ s) (v : Word) :
    KeepsOut σ (execSetupSave v s) := by
  unfold execSetupSave
  with_reducible (repeat' (first | exact h | assumption | apply State.barWrite_keeps | exact keeps_refl _ | apply keepsOut_next | apply keeps_ite | apply keeps_ite_fst | apply keeps_ite_snd | split | intro _ | simp only [keeps_mk] | dsimp only))

theorem execSetupSaveDone_keeps {σ s : State} (h : Keeps σ s) (ok : Bool) :
    KeepsOut σ (execSetupSaveDone ok s) := by
  unfold execSetupSaveDone
  with_reducible (repeat' (first | exact h | assumption | apply State.setF_keeps | apply State.setMgmt_keeps | exact keeps_refl _ | apply keepsOut_next | apply keeps_ite | apply keeps_ite_fst | apply keeps_ite_snd | split | intro _ | simp only [keeps_mk] | dsimp only))

theorem State.restoreOne_keeps {σ s : State} (h : Keeps σ s) (e : Nat × Word) :
    Keeps σ (State.restoreOne s e) := by
  unfold State.restoreOne
  with_reducible (repeat' (first | exact h | assumption | apply State.rejectWrite_keeps | apply State.regWrite_keeps | apply State.inc_keeps | exact keeps_refl _ | apply keepsOut_next | apply keeps_ite | apply keeps_ite_fst | apply keeps_ite_snd | split | intro _ | simp only [keeps_mk] | dsimp only))

theorem State.restoreTime_keeps {σ s : State} (h : Keeps σ s) :
    Keeps σ (State.restoreTime s) := by
  unfold State.restoreTime
  with_reducible (repeat' (first | exact h | assumption | apply State.applyStaged_keeps | apply State.setTime_keeps | exact keeps_refl _ | apply keepsOut_next | apply keeps_ite | apply keeps_ite_fst | apply keeps_ite_snd | split | intro _ | simp only [keeps_mk] | dsimp only))

theorem execSetupRestore_keeps {σ s : State} (h : Keeps σ s) :
    KeepsOut σ (execSetupRestore s) := by
  unfold execSetupRestore
  with_reducible (repeat' (first | exact h | assumption | apply State.setF_keeps | apply State.restoreTime_keeps | apply State.each_keeps | apply State.restoreOne_keeps | apply State.setMgmt_keeps | exact keeps_refl _ | apply keepsOut_next | apply keeps_ite | apply keeps_ite_fst | apply keeps_ite_snd | split | intro _ | simp only [keeps_mk] | dsimp only))

theorem State.controlReply_keeps {σ s : State} (h : Keeps σ s) (cmd : Nat) (status : Nat) (data : List Byte) :
    Keeps σ (State.controlReply s cmd status data) := by
  unfold State.controlReply
  with_reducible (repeat' (first | exact h | assumption | apply State.emit_keeps | exact keeps_refl _ | apply keepsOut_next | apply keeps_ite | apply keeps_ite_fst | apply keeps_ite_snd | split | intro _ | simp only [keeps_mk] | dsimp only))

theorem State.vendorReply_keeps {σ s : State} (h : Keeps σ s) (cmd : Nat) (status : Nat) (data : List Byte) :
    Keeps σ (State.vendorReply s cmd status data) := by
  unfold State.vendorReply
  with_reducible (repeat' (first | exact h | assumption | apply State.emit_keeps | exact keeps_refl _ | apply keepsOut_next | apply keeps_ite | apply keeps_ite_fst | apply keeps_ite_snd | split | intro _ | simp only [keeps_mk] | dsimp only))

theorem State.vendorUnserved_keeps {σ s : State} (h : Keeps σ s) (cmd : Nat) :
    Keeps σ (State.vendorUnserved s cmd) := by
  unfold State.vendorUnserved
  with_reducible (repeat' (first | exact h | assumption | apply State.free_keeps | apply State.vendorReply_keeps | exact keeps_refl _ | apply keepsOut_next | apply keeps_ite | apply keeps_ite_fst | apply keeps_ite_snd | split | intro _ | simp only [keeps_mk] | dsimp only))

theorem State.vendorRun_keeps {σ s : State} (h : Keeps σ s) (pecOk : Bool) (cmd : Nat) (f : State → State) (hf : ∀ u0, Keeps u0 (f u0)) :
    Keeps σ (State.vendorRun s pecOk cmd f) := by
  unfold State.vendorRun
  with_reducible (repeat' (first | exact h | assumption | refine keeps_trans ?_ (hf _) | apply State.vendorUnserved_keeps | exact keeps_refl _ | apply keepsOut_next | apply keeps_ite | apply keeps_ite_fst | apply keeps_ite_snd | split | intro _ | simp only [keeps_mk] | dsimp only))

theorem execSetEndpointId_keeps {σ s : State} (h : Keeps σ s) (pecOk : Bool) (eid : BitVec 8) :
    KeepsOut σ (execSetEndpointId pecOk eid s) := by
  unfold execSetEndpointId
  with_reducible (repeat' (first | exact h | assumption | apply State.controlReply_keeps | apply State.setF_keeps | exact keeps_refl _ | apply keepsOut_next | apply keeps_ite | apply keeps_ite_fst | apply keeps_ite_snd | split | intro _ | simp only [keeps_mk] | dsimp only))

theorem execGetEndpointId_keeps {σ s : State} (h : Keeps σ s) (pecOk : Bool) :
    KeepsOut σ (execGetEndpointId pecOk s) := by
  unfold execGetEndpointId
  with_reducible (repeat' (first | exact h | assumption | apply State.controlReply_keeps | exact keeps_refl _ | apply keepsOut_next | apply keeps_ite | apply keeps_ite_fst | apply keeps_ite_snd | split | intro _ | simp only [keeps_mk] | dsimp only))

theorem execGetMctpVersionSupport_keeps {σ s : State} (h : Keeps σ s) (pecOk : Bool) (typ : BitVec 8) :
    KeepsOut σ (execGetMctpVersionSupport pecOk typ s) := by
  unfold execGetMctpVersionSupport
  with_reducible (repeat' (first | exact h | assumption | apply State.controlReply_keeps | apply State.free_keeps | exact keeps_refl _ | apply keepsOut_next | apply keeps_ite | apply keeps_ite_fst | apply keeps_ite_snd | split | intro _ | simp only [keeps_mk] | dsimp only))

theorem execGetMessageTypeSupport_keeps {σ s : State} (h : Keeps σ s) (pecOk : Bool) :
    KeepsOut σ (execGetMessageTypeSupport pecOk s) := by
  unfold execGetMessageTypeSupport
  with_reducible (repeat' (first | exact h | assumption | apply State.controlReply_keeps | exact keeps_refl _ | apply keepsOut_next | apply keeps_ite | apply keeps_ite_fst | apply keeps_ite_snd | split | intro _ | simp only [keeps_mk] | dsimp only))

theorem execGetVendorDefinedMessageSupport_keeps {σ s : State} (h : Keeps σ s) (pecOk : Bool) (sel : BitVec 8) :
    KeepsOut σ (execGetVendorDefinedMessageSupport pecOk sel s) := by
  unfold execGetVendorDefinedMessageSupport
  with_reducible (repeat' (first | exact h | assumption | apply State.controlReply_keeps | exact keeps_refl _ | apply keepsOut_next | apply keeps_ite | apply keeps_ite_fst | apply keeps_ite_snd | split | intro _ | simp only [keeps_mk] | dsimp only))

theorem execReadReg_keeps {σ s : State} (h : Keeps σ s) (pecOk : Bool) (off : Word) :
    KeepsOut σ (execReadReg pecOk off s) := by
  unfold execReadReg
  with_reducible (repeat' (first | exact h | assumption | apply State.vendorUnserved_keeps | apply State.vendorReply_keeps | apply State.read4_keeps | exact keeps_refl _ | apply keepsOut_next | apply keeps_ite | apply keeps_ite_fst | apply keeps_ite_snd | split | intro _ | simp only [keeps_mk] | dsimp only))

theorem execWriteReg_keeps {σ s : State} (h : Keeps σ s) (pecOk : Bool) (off : Word) (v : Word) (vfEnabled : Bool) :
    KeepsOut σ (execWriteReg pecOk off v vfEnabled s) := by
  unfold execWriteReg
  with_reducible (repeat' (first | exact h | assumption | apply State.vendorRun_keeps | apply State.barWrite_keeps | apply State.vendorReply_keeps | exact keeps_refl _ | apply keepsOut_next | apply keeps_ite | apply keeps_ite_fst | apply keeps_ite_snd | split | intro _ | simp only [keeps_mk] | dsimp only))

theorem execReadPage_keeps {σ s : State} (h : Keeps σ s) (pecOk : Bool) (k : BitVec 8) (part : BitVec 8) :
    KeepsOut σ (execReadPage pecOk k part s) := by
  unfold execReadPage
  with_reducible (repeat' (first | exact h | assumption | apply State.vendorRun_keeps | apply State.vendorReply_keeps | exact keeps_refl _ | apply keepsOut_next | apply keeps_ite | apply keeps_ite_fst | apply keeps_ite_snd | split | intro _ | simp only [keeps_mk] | dsimp only))

theorem execReadEvent_keeps {σ s : State} (h : Keeps σ s) (pecOk : Bool) (n : Word) :
    KeepsOut σ (execReadEvent pecOk n s) := by
  unfold execReadEvent
  with_reducible (repeat' (first | exact h | assumption | apply State.vendorRun_keeps | apply State.vendorReply_keeps | exact keeps_refl _ | apply keepsOut_next | apply keeps_ite | apply keeps_ite_fst | apply keeps_ite_snd | split | intro _ | simp only [keeps_mk] | dsimp only))

theorem execMctpReset_keeps {σ s : State} (h : Keeps σ s) (pecOk : Bool) (code : BitVec 16) (codeN : BitVec 16) :
    KeepsOut σ (execMctpReset pecOk code codeN s) := by
  unfold execMctpReset
  with_reducible (repeat' (first | exact h | assumption | apply State.vendorUnserved_keeps | apply State.hostMismatch_keeps | apply State.vendorReply_keeps | apply State.resetCode_keeps | exact keeps_refl _ | apply keepsOut_next | apply keeps_ite | apply keeps_ite_fst | apply keeps_ite_snd | split | intro _ | simp only [keeps_mk] | dsimp only))

theorem execRecoveryWrite_keeps {σ s : State} (h : Keeps σ s) (pecOk : Bool) (off : Word) (data : List Byte) :
    KeepsOut σ (execRecoveryWrite pecOk off data s) := by
  unfold execRecoveryWrite
  with_reducible (repeat' (first | exact h | assumption | apply State.vendorUnserved_keeps | apply State.vendorReply_keeps | apply State.setMgmt_keeps | exact keeps_refl _ | apply keepsOut_next | apply keeps_ite | apply keeps_ite_fst | apply keeps_ite_snd | split | intro _ | simp only [keeps_mk] | dsimp only))

theorem execRecoveryCommit_keeps {σ s : State} (h : Keeps σ s) (pecOk : Bool) (len : Word) (sigOk : Bool) (svn : BitVec 16) (build : BitVec 16) :
    KeepsOut σ (execRecoveryCommit pecOk len sigOk svn build s) := by
  unfold execRecoveryCommit
  with_reducible (repeat' (first | exact h | assumption | apply State.vendorUnserved_keeps | apply State.vendorReply_keeps | apply State.setMgmt_keeps | apply State.coldCause_keeps | exact keeps_refl _ | apply keepsOut_next | apply keeps_ite | apply keeps_ite_fst | apply keeps_ite_snd | split | intro _ | simp only [keeps_mk] | dsimp only))

theorem execPmbusPoll_keeps {σ s : State} (h : Keeps σ s) (die : Option (Fin 4)) (ok : Bool) (fault : Bool) :
    KeepsOut σ (execPmbusPoll die ok fault s) := by
  unfold execPmbusPoll
  with_reducible (repeat' (first | exact h | assumption | apply State.emit_keeps | apply State.alert_keeps | apply State.inc_keeps | exact keeps_refl _ | apply keepsOut_next | apply keeps_ite | apply keeps_ite_fst | apply keeps_ite_snd | split | intro _ | simp only [keeps_mk] | dsimp only))

theorem State.stopRuns_keeps {σ s : State} (h : Keeps σ s) :
    Keeps σ (State.stopRuns s) := by
  unfold State.stopRuns
  with_reducible (repeat' (first | exact h | assumption | apply State.endEpisodes_keeps | apply State.stopClusters_keeps | apply State.setStep_keeps | apply State.cond_keeps | apply State.rollback_keeps | exact keeps_refl _ | apply keepsOut_next | apply keeps_ite | apply keeps_ite_fst | apply keeps_ite_snd | split | intro _ | simp only [keeps_mk] | dsimp only))

theorem execShutdown_keeps {σ s : State} (h : Keeps σ s) :
    KeepsOut σ (execShutdown s) := by
  unfold execShutdown
  with_reducible (repeat' (first | exact h | assumption | apply State.setMgmt_keeps | apply State.regrant_keeps | apply State.stopRuns_keeps | apply State.alert_keeps | apply State.setF_keeps | exact keeps_refl _ | apply keepsOut_next | apply keeps_ite | apply keeps_ite_fst | apply keeps_ite_snd | split | intro _ | simp only [keeps_mk] | dsimp only))

theorem execShutdownDone_keeps {σ s : State} (h : Keeps σ s) :
    KeepsOut σ (execShutdownDone s) := by
  unfold execShutdownDone
  with_reducible (repeat' (first | exact h | assumption | apply State.cond_keeps | apply State.stwEnd_keeps | apply State.maintEnd_keeps | apply State.setMgmt_keeps | apply State.setF_keeps | apply State.coldReset_keeps | exact keeps_refl _ | apply keepsOut_next | apply keeps_ite | apply keeps_ite_fst | apply keeps_ite_snd | split | intro _ | simp only [keeps_mk] | dsimp only))

theorem execPwrWarnDeassert_keeps {σ s : State} (h : Keeps σ s) :
    KeepsOut σ (execPwrWarnDeassert s) := by
  unfold execPwrWarnDeassert
  with_reducible (repeat' (first | exact h | assumption | apply State.setMgmt_keeps | exact keeps_refl _ | apply keepsOut_next | apply keeps_ite | apply keeps_ite_fst | apply keeps_ite_snd | split | intro _ | simp only [keeps_mk] | dsimp only))

theorem execShutdownRestart_keeps {σ s : State} (h : Keeps σ s) :
    KeepsOut σ (execShutdownRestart s) := by
  unfold execShutdownRestart
  with_reducible (repeat' (first | exact h | assumption | apply State.coldReset_keeps | exact keeps_refl _ | apply keepsOut_next | apply keeps_ite | apply keeps_ite_fst | apply keeps_ite_snd | split | intro _ | simp only [keeps_mk] | dsimp only))

theorem State.idle_keeps {σ s : State} (h : Keeps σ s) :
    Keeps σ (State.idle s) := by
  unfold State.idle
  with_reducible (repeat' (first | exact h | assumption | apply State.tick_keeps | exact keeps_refl _ | apply keepsOut_next | apply keeps_ite | apply keeps_ite_fst | apply keeps_ite_snd | split | intro _ | simp only [keeps_mk] | dsimp only))

end Sys2Proof.Machine
end

