-- ==== Sys2Proof/Laws/KeepsPins.lean ====
section
/-! SUPPORT. The operations and commands of Machine/Pins.lean leave the queue as it is, and keep memory and registers in their one form. -/

set_option linter.unusedTactic false
set_option linter.unreachableTactic false
set_option linter.unusedSimpArgs false

namespace Sys2Proof.Machine

theorem State.tapLoad_keeps {σ s : State} (h : Keeps σ s) (opcode : Nat) (takes : Bool) :
    Keeps σ (State.tapLoad s opcode takes) := by
  unfold State.tapLoad
  with_reducible (repeat' (first | exact h | assumption | exact keeps_refl _ | apply keepsOut_next | apply keeps_ite | apply keeps_ite_fst | apply keeps_ite_snd | split | intro _ | simp only [keeps_mk] | dsimp only))

theorem State.tapShift_keeps {σ s : State} (h : Keeps σ s) (captured : Word) (shifted : Word) :
    Keeps σ (State.tapShift s captured shifted) := by
  unfold State.tapShift
  with_reducible (repeat' (first | exact h | assumption | apply State.emit_keeps | exact keeps_refl _ | apply keepsOut_next | apply keeps_ite | apply keeps_ite_fst | apply keeps_ite_snd | split | intro _ | simp only [keeps_mk] | dsimp only))

theorem State.tapTest_keeps {σ s : State} (h : Keeps σ s) (opcode : Nat) (captured : Word) (shifted : Word) :
    Keeps σ (State.tapTest s opcode captured shifted) := by
  unfold State.tapTest
  with_reducible (repeat' (first | exact h | assumption | apply State.tapLoad_keeps | apply State.tapShift_keeps | exact keeps_refl _ | apply keepsOut_next | apply keeps_ite | apply keeps_ite_fst | apply keeps_ite_snd | split | intro _ | simp only [keeps_mk] | dsimp only))

theorem execTapReset_keeps {σ s : State} (h : Keeps σ s) :
    KeepsOut σ (execTapReset s) := by
  unfold execTapReset
  with_reducible (repeat' (first | exact h | assumption | apply State.tapLoad_keeps | exact keeps_refl _ | apply keepsOut_next | apply keeps_ite | apply keeps_ite_fst | apply keeps_ite_snd | split | intro _ | simp only [keeps_mk] | dsimp only))

theorem execExtest_keeps {σ s : State} (h : Keeps σ s) (captured : Word) (shifted : Word) :
    KeepsOut σ (execExtest captured shifted s) := by
  unfold execExtest
  with_reducible (repeat' (first | exact h | assumption | apply State.tapTest_keeps | exact keeps_refl _ | apply keepsOut_next | apply keeps_ite | apply keeps_ite_fst | apply keeps_ite_snd | split | intro _ | simp only [keeps_mk] | dsimp only))

theorem execExtestPulse_keeps {σ s : State} (h : Keeps σ s) (captured : Word) (shifted : Word) :
    KeepsOut σ (execExtestPulse captured shifted s) := by
  unfold execExtestPulse
  with_reducible (repeat' (first | exact h | assumption | apply State.tapTest_keeps | exact keeps_refl _ | apply keepsOut_next | apply keeps_ite | apply keeps_ite_fst | apply keeps_ite_snd | split | intro _ | simp only [keeps_mk] | dsimp only))

theorem execExtestTrain_keeps {σ s : State} (h : Keeps σ s) (captured : Word) (shifted : Word) :
    KeepsOut σ (execExtestTrain captured shifted s) := by
  unfold execExtestTrain
  with_reducible (repeat' (first | exact h | assumption | apply State.tapTest_keeps | exact keeps_refl _ | apply keepsOut_next | apply keeps_ite | apply keeps_ite_fst | apply keeps_ite_snd | split | intro _ | simp only [keeps_mk] | dsimp only))

theorem execSamplePreload_keeps {σ s : State} (h : Keeps σ s) (captured : Word) (shifted : Word) :
    KeepsOut σ (execSamplePreload captured shifted s) := by
  unfold execSamplePreload
  with_reducible (repeat' (first | exact h | assumption | apply State.tapShift_keeps | apply State.tapLoad_keeps | exact keeps_refl _ | apply keepsOut_next | apply keeps_ite | apply keeps_ite_fst | apply keeps_ite_snd | split | intro _ | simp only [keeps_mk] | dsimp only))

theorem execIdcode_keeps {σ s : State} (h : Keeps σ s) :
    KeepsOut σ (execIdcode s) := by
  unfold execIdcode
  with_reducible (repeat' (first | exact h | assumption | apply State.emit_keeps | apply State.tapLoad_keeps | exact keeps_refl _ | apply keepsOut_next | apply keeps_ite | apply keeps_ite_fst | apply keeps_ite_snd | split | intro _ | simp only [keeps_mk] | dsimp only))

theorem execClamp_keeps {σ s : State} (h : Keeps σ s) :
    KeepsOut σ (execClamp s) := by
  unfold execClamp
  with_reducible (repeat' (first | exact h | assumption | apply State.tapLoad_keeps | exact keeps_refl _ | apply keepsOut_next | apply keeps_ite | apply keeps_ite_fst | apply keeps_ite_snd | split | intro _ | simp only [keeps_mk] | dsimp only))

theorem execHighz_keeps {σ s : State} (h : Keeps σ s) :
    KeepsOut σ (execHighz s) := by
  unfold execHighz
  with_reducible (repeat' (first | exact h | assumption | apply State.tapLoad_keeps | exact keeps_refl _ | apply keepsOut_next | apply keeps_ite | apply keeps_ite_fst | apply keeps_ite_snd | split | intro _ | simp only [keeps_mk] | dsimp only))

theorem execBypass_keeps {σ s : State} (h : Keeps σ s) (opcode : BitVec 8) :
    KeepsOut σ (execBypass opcode s) := by
  unfold execBypass
  with_reducible (repeat' (first | exact h | assumption | apply State.tapLoad_keeps | exact keeps_refl _ | apply keepsOut_next | apply keeps_ite | apply keeps_ite_fst | apply keeps_ite_snd | split | intro _ | simp only [keeps_mk] | dsimp only))

end Sys2Proof.Machine
end

