-- ==== Sys2Proof/Laws/State.lean ====
section
/-! SUPPORT. One lemma per field and named update of the state, and what registers, clusters and DRAM read after an update. -/

namespace Sys2Proof.Machine

section

variable (s : State)

/-! ### Fields that an update leaves -/

@[simp] theorem State.wrg_pending (off : Nat) (v : Word) : (s.wrg off v).pending = s.pending := rfl
@[simp] theorem State.wrg_freeCount (off : Nat) (v : Word) : (s.wrg off v).freeCount = s.freeCount := rfl
@[simp] theorem State.wrg_outbox (off : Nat) (v : Word) : (s.wrg off v).outbox = s.outbox := rfl
@[simp] theorem State.wrg_clusters (off : Nat) (v : Word) : (s.wrg off v).clusters = s.clusters := rfl
@[simp] theorem State.wrg_dram (off : Nat) (v : Word) : (s.wrg off v).dram = s.dram := rfl
@[simp] theorem State.wrg_mem (off : Nat) (v : Word) : (s.wrg off v).mem = s.mem := rfl
@[simp] theorem State.wrg_time (off : Nat) (v : Word) : (s.wrg off v).time = s.time := rfl
@[simp] theorem State.wrg_host (off : Nat) (v : Word) : (s.wrg off v).host = s.host := rfl
@[simp] theorem State.wrg_net (off : Nat) (v : Word) : (s.wrg off v).net = s.net := rfl
@[simp] theorem State.wrg_barriers (off : Nat) (v : Word) : (s.wrg off v).barriers = s.barriers := rfl
@[simp] theorem State.wrg_store (off : Nat) (v : Word) : (s.wrg off v).store = s.store := rfl
@[simp] theorem State.wrg_images (off : Nat) (v : Word) : (s.wrg off v).images = s.images := rfl
@[simp] theorem State.wrg_repair (off : Nat) (v : Word) : (s.wrg off v).repair = s.repair := rfl
@[simp] theorem State.wrg_links (off : Nat) (v : Word) : (s.wrg off v).links = s.links := rfl
@[simp] theorem State.wrg_power (off : Nat) (v : Word) : (s.wrg off v).power = s.power := rfl
@[simp] theorem State.wrg_mgmt (off : Nat) (v : Word) : (s.wrg off v).mgmt = s.mgmt := rfl
@[simp] theorem State.wrg_pins (off : Nat) (v : Word) : (s.wrg off v).pins = s.pins := rfl
@[simp] theorem State.wrg_mesh (off : Nat) (v : Word) : (s.wrg off v).mesh = s.mesh := rfl
@[simp] theorem State.wrg_meshDropped (off : Nat) (v : Word) : (s.wrg off v).meshDropped = s.meshDropped := rfl
@[simp] theorem State.wrg_bridges (off : Nat) (v : Word) : (s.wrg off v).bridges = s.bridges := rfl
@[simp] theorem State.wrg_cl (off : Nat) (v : Word) (m : Nat) : (s.wrg off v).cl m = s.cl m := by simp only [State.cl, State.wrg_clusters]
@[simp] theorem State.wrg_rdB (off : Nat) (v : Word) (a : Nat) : (s.wrg off v).rdB a = s.rdB a := by simp only [State.rdB, State.wrg_dram]

@[simp] theorem State.setF_pending (x : Fld) (k : Nat) : (s.setF x k).pending = s.pending := rfl
@[simp] theorem State.setF_freeCount (x : Fld) (k : Nat) : (s.setF x k).freeCount = s.freeCount := rfl
@[simp] theorem State.setF_outbox (x : Fld) (k : Nat) : (s.setF x k).outbox = s.outbox := rfl
@[simp] theorem State.setF_clusters (x : Fld) (k : Nat) : (s.setF x k).clusters = s.clusters := rfl
@[simp] theorem State.setF_dram (x : Fld) (k : Nat) : (s.setF x k).dram = s.dram := rfl
@[simp] theorem State.setF_mem (x : Fld) (k : Nat) : (s.setF x k).mem = s.mem := rfl
@[simp] theorem State.setF_time (x : Fld) (k : Nat) : (s.setF x k).time = s.time := rfl
@[simp] theorem State.setF_host (x : Fld) (k : Nat) : (s.setF x k).host = s.host := rfl
@[simp] theorem State.setF_net (x : Fld) (k : Nat) : (s.setF x k).net = s.net := rfl
@[simp] theorem State.setF_barriers (x : Fld) (k : Nat) : (s.setF x k).barriers = s.barriers := rfl
@[simp] theorem State.setF_store (x : Fld) (k : Nat) : (s.setF x k).store = s.store := rfl
@[simp] theorem State.setF_images (x : Fld) (k : Nat) : (s.setF x k).images = s.images := rfl
@[simp] theorem State.setF_repair (x : Fld) (k : Nat) : (s.setF x k).repair = s.repair := rfl
@[simp] theorem State.setF_links (x : Fld) (k : Nat) : (s.setF x k).links = s.links := rfl
@[simp] theorem State.setF_power (x : Fld) (k : Nat) : (s.setF x k).power = s.power := rfl
@[simp] theorem State.setF_mgmt (x : Fld) (k : Nat) : (s.setF x k).mgmt = s.mgmt := rfl
@[simp] theorem State.setF_pins (x : Fld) (k : Nat) : (s.setF x k).pins = s.pins := rfl
@[simp] theorem State.setF_mesh (x : Fld) (k : Nat) : (s.setF x k).mesh = s.mesh := rfl
@[simp] theorem State.setF_meshDropped (x : Fld) (k : Nat) : (s.setF x k).meshDropped = s.meshDropped := rfl
@[simp] theorem State.setF_bridges (x : Fld) (k : Nat) : (s.setF x k).bridges = s.bridges := rfl
@[simp] theorem State.setF_cl (x : Fld) (k : Nat) (m : Nat) : (s.setF x k).cl m = s.cl m := by simp only [State.cl, State.setF_clusters]
@[simp] theorem State.setF_rdB (x : Fld) (k : Nat) (a : Nat) : (s.setF x k).rdB a = s.rdB a := by simp only [State.rdB, State.setF_dram]

@[simp] theorem State.incN_pending (off k : Nat) : (s.incN off k).pending = s.pending := rfl
@[simp] theorem State.incN_freeCount (off k : Nat) : (s.incN off k).freeCount = s.freeCount := rfl
@[simp] theorem State.incN_outbox (off k : Nat) : (s.incN off k).outbox = s.outbox := rfl
@[simp] theorem State.incN_clusters (off k : Nat) : (s.incN off k).clusters = s.clusters := rfl
@[simp] theorem State.incN_dram (off k : Nat) : (s.incN off k).dram = s.dram := rfl
@[simp] theorem State.incN_mem (off k : Nat) : (s.incN off k).mem = s.mem := rfl
@[simp] theorem State.incN_time (off k : Nat) : (s.incN off k).time = s.time := rfl
@[simp] theorem State.incN_host (off k : Nat) : (s.incN off k).host = s.host := rfl
@[simp] theorem State.incN_net (off k : Nat) : (s.incN off k).net = s.net := rfl
@[simp] theorem State.incN_barriers (off k : Nat) : (s.incN off k).barriers = s.barriers := rfl
@[simp] theorem State.incN_store (off k : Nat) : (s.incN off k).store = s.store := rfl
@[simp] theorem State.incN_images (off k : Nat) : (s.incN off k).images = s.images := rfl
@[simp] theorem State.incN_repair (off k : Nat) : (s.incN off k).repair = s.repair := rfl
@[simp] theorem State.incN_links (off k : Nat) : (s.incN off k).links = s.links := rfl
@[simp] theorem State.incN_power (off k : Nat) : (s.incN off k).power = s.power := rfl
@[simp] theorem State.incN_mgmt (off k : Nat) : (s.incN off k).mgmt = s.mgmt := rfl
@[simp] theorem State.incN_pins (off k : Nat) : (s.incN off k).pins = s.pins := rfl
@[simp] theorem State.incN_mesh (off k : Nat) : (s.incN off k).mesh = s.mesh := rfl
@[simp] theorem State.incN_meshDropped (off k : Nat) : (s.incN off k).meshDropped = s.meshDropped := rfl
@[simp] theorem State.incN_bridges (off k : Nat) : (s.incN off k).bridges = s.bridges := rfl
@[simp] theorem State.incN_cl (off k : Nat) (m : Nat) : (s.incN off k).cl m = s.cl m := by simp only [State.cl, State.incN_clusters]
@[simp] theorem State.incN_rdB (off k : Nat) (a : Nat) : (s.incN off k).rdB a = s.rdB a := by simp only [State.rdB, State.incN_dram]

@[simp] theorem State.inc_pending (off : Nat) : (s.inc off).pending = s.pending := rfl
@[simp] theorem State.inc_freeCount (off : Nat) : (s.inc off).freeCount = s.freeCount := rfl
@[simp] theorem State.inc_outbox (off : Nat) : (s.inc off).outbox = s.outbox := rfl
@[simp] theorem State.inc_clusters (off : Nat) : (s.inc off).clusters = s.clusters := rfl
@[simp] theorem State.inc_dram (off : Nat) : (s.inc off).dram = s.dram := rfl
@[simp] theorem State.inc_mem (off : Nat) : (s.inc off).mem = s.mem := rfl
@[simp] theorem State.inc_time (off : Nat) : (s.inc off).time = s.time := rfl
@[simp] theorem State.inc_host (off : Nat) : (s.inc off).host = s.host := rfl
@[simp] theorem State.inc_net (off : Nat) : (s.inc off).net = s.net := rfl
@[simp] theorem State.inc_barriers (off : Nat) : (s.inc off).barriers = s.barriers := rfl
@[simp] theorem State.inc_store (off : Nat) : (s.inc off).store = s.store := rfl
@[simp] theorem State.inc_images (off : Nat) : (s.inc off).images = s.images := rfl
@[simp] theorem State.inc_repair (off : Nat) : (s.inc off).repair = s.repair := rfl
@[simp] theorem State.inc_links (off : Nat) : (s.inc off).links = s.links := rfl
@[simp] theorem State.inc_power (off : Nat) : (s.inc off).power = s.power := rfl
@[simp] theorem State.inc_mgmt (off : Nat) : (s.inc off).mgmt = s.mgmt := rfl
@[simp] theorem State.inc_pins (off : Nat) : (s.inc off).pins = s.pins := rfl
@[simp] theorem State.inc_mesh (off : Nat) : (s.inc off).mesh = s.mesh := rfl
@[simp] theorem State.inc_meshDropped (off : Nat) : (s.inc off).meshDropped = s.meshDropped := rfl
@[simp] theorem State.inc_bridges (off : Nat) : (s.inc off).bridges = s.bridges := rfl
@[simp] theorem State.inc_cl (off : Nat) (m : Nat) : (s.inc off).cl m = s.cl m := by simp only [State.cl, State.inc_clusters]
@[simp] theorem State.inc_rdB (off : Nat) (a : Nat) : (s.inc off).rdB a = s.rdB a := by simp only [State.rdB, State.inc_dram]

@[simp] theorem State.wrg64_pending (off k : Nat) : (s.wrg64 off k).pending = s.pending := rfl
@[simp] theorem State.wrg64_freeCount (off k : Nat) : (s.wrg64 off k).freeCount = s.freeCount := rfl
@[simp] theorem State.wrg64_outbox (off k : Nat) : (s.wrg64 off k).outbox = s.outbox := rfl
@[simp] theorem State.wrg64_clusters (off k : Nat) : (s.wrg64 off k).clusters = s.clusters := rfl
@[simp] theorem State.wrg64_dram (off k : Nat) : (s.wrg64 off k).dram = s.dram := rfl
@[simp] theorem State.wrg64_mem (off k : Nat) : (s.wrg64 off k).mem = s.mem := rfl
@[simp] theorem State.wrg64_time (off k : Nat) : (s.wrg64 off k).time = s.time := rfl
@[simp] theorem State.wrg64_host (off k : Nat) : (s.wrg64 off k).host = s.host := rfl
@[simp] theorem State.wrg64_net (off k : Nat) : (s.wrg64 off k).net = s.net := rfl
@[simp] theorem State.wrg64_barriers (off k : Nat) : (s.wrg64 off k).barriers = s.barriers := rfl
@[simp] theorem State.wrg64_store (off k : Nat) : (s.wrg64 off k).store = s.store := rfl
@[simp] theorem State.wrg64_images (off k : Nat) : (s.wrg64 off k).images = s.images := rfl
@[simp] theorem State.wrg64_repair (off k : Nat) : (s.wrg64 off k).repair = s.repair := rfl
@[simp] theorem State.wrg64_links (off k : Nat) : (s.wrg64 off k).links = s.links := rfl
@[simp] theorem State.wrg64_power (off k : Nat) : (s.wrg64 off k).power = s.power := rfl
@[simp] theorem State.wrg64_mgmt (off k : Nat) : (s.wrg64 off k).mgmt = s.mgmt := rfl
@[simp] theorem State.wrg64_pins (off k : Nat) : (s.wrg64 off k).pins = s.pins := rfl
@[simp] theorem State.wrg64_mesh (off k : Nat) : (s.wrg64 off k).mesh = s.mesh := rfl
@[simp] theorem State.wrg64_meshDropped (off k : Nat) : (s.wrg64 off k).meshDropped = s.meshDropped := rfl
@[simp] theorem State.wrg64_bridges (off k : Nat) : (s.wrg64 off k).bridges = s.bridges := rfl
@[simp] theorem State.wrg64_cl (off k : Nat) (m : Nat) : (s.wrg64 off k).cl m = s.cl m := by simp only [State.cl, State.wrg64_clusters]
@[simp] theorem State.wrg64_rdB (off k : Nat) (a : Nat) : (s.wrg64 off k).rdB a = s.rdB a := by simp only [State.rdB, State.wrg64_dram]

@[simp] theorem State.inc64_pending (off k : Nat) : (s.inc64 off k).pending = s.pending := rfl
@[simp] theorem State.inc64_freeCount (off k : Nat) : (s.inc64 off k).freeCount = s.freeCount := rfl
@[simp] theorem State.inc64_outbox (off k : Nat) : (s.inc64 off k).outbox = s.outbox := rfl
@[simp] theorem State.inc64_clusters (off k : Nat) : (s.inc64 off k).clusters = s.clusters := rfl
@[simp] theorem State.inc64_dram (off k : Nat) : (s.inc64 off k).dram = s.dram := rfl
@[simp] theorem State.inc64_mem (off k : Nat) : (s.inc64 off k).mem = s.mem := rfl
@[simp] theorem State.inc64_time (off k : Nat) : (s.inc64 off k).time = s.time := rfl
@[simp] theorem State.inc64_host (off k : Nat) : (s.inc64 off k).host = s.host := rfl
@[simp] theorem State.inc64_net (off k : Nat) : (s.inc64 off k).net = s.net := rfl
@[simp] theorem State.inc64_barriers (off k : Nat) : (s.inc64 off k).barriers = s.barriers := rfl
@[simp] theorem State.inc64_store (off k : Nat) : (s.inc64 off k).store = s.store := rfl
@[simp] theorem State.inc64_images (off k : Nat) : (s.inc64 off k).images = s.images := rfl
@[simp] theorem State.inc64_repair (off k : Nat) : (s.inc64 off k).repair = s.repair := rfl
@[simp] theorem State.inc64_links (off k : Nat) : (s.inc64 off k).links = s.links := rfl
@[simp] theorem State.inc64_power (off k : Nat) : (s.inc64 off k).power = s.power := rfl
@[simp] theorem State.inc64_mgmt (off k : Nat) : (s.inc64 off k).mgmt = s.mgmt := rfl
@[simp] theorem State.inc64_pins (off k : Nat) : (s.inc64 off k).pins = s.pins := rfl
@[simp] theorem State.inc64_mesh (off k : Nat) : (s.inc64 off k).mesh = s.mesh := rfl
@[simp] theorem State.inc64_meshDropped (off k : Nat) : (s.inc64 off k).meshDropped = s.meshDropped := rfl
@[simp] theorem State.inc64_bridges (off k : Nat) : (s.inc64 off k).bridges = s.bridges := rfl
@[simp] theorem State.inc64_cl (off k : Nat) (m : Nat) : (s.inc64 off k).cl m = s.cl m := by simp only [State.cl, State.inc64_clusters]
@[simp] theorem State.inc64_rdB (off k : Nat) (a : Nat) : (s.inc64 off k).rdB a = s.rdB a := by simp only [State.rdB, State.inc64_dram]

@[simp] theorem State.setPc_pending (i v : Nat) : (s.setPc i v).pending = s.pending := rfl
@[simp] theorem State.setPc_freeCount (i v : Nat) : (s.setPc i v).freeCount = s.freeCount := rfl
@[simp] theorem State.setPc_outbox (i v : Nat) : (s.setPc i v).outbox = s.outbox := rfl
@[simp] theorem State.setPc_clusters (i v : Nat) : (s.setPc i v).clusters = s.clusters := rfl
@[simp] theorem State.setPc_dram (i v : Nat) : (s.setPc i v).dram = s.dram := rfl
@[simp] theorem State.setPc_mem (i v : Nat) : (s.setPc i v).mem = s.mem := rfl
@[simp] theorem State.setPc_time (i v : Nat) : (s.setPc i v).time = s.time := rfl
@[simp] theorem State.setPc_host (i v : Nat) : (s.setPc i v).host = s.host := rfl
@[simp] theorem State.setPc_net (i v : Nat) : (s.setPc i v).net = s.net := rfl
@[simp] theorem State.setPc_barriers (i v : Nat) : (s.setPc i v).barriers = s.barriers := rfl
@[simp] theorem State.setPc_store (i v : Nat) : (s.setPc i v).store = s.store := rfl
@[simp] theorem State.setPc_images (i v : Nat) : (s.setPc i v).images = s.images := rfl
@[simp] theorem State.setPc_repair (i v : Nat) : (s.setPc i v).repair = s.repair := rfl
@[simp] theorem State.setPc_links (i v : Nat) : (s.setPc i v).links = s.links := rfl
@[simp] theorem State.setPc_power (i v : Nat) : (s.setPc i v).power = s.power := rfl
@[simp] theorem State.setPc_mgmt (i v : Nat) : (s.setPc i v).mgmt = s.mgmt := rfl
@[simp] theorem State.setPc_pins (i v : Nat) : (s.setPc i v).pins = s.pins := rfl
@[simp] theorem State.setPc_mesh (i v : Nat) : (s.setPc i v).mesh = s.mesh := rfl
@[simp] theorem State.setPc_meshDropped (i v : Nat) : (s.setPc i v).meshDropped = s.meshDropped := rfl
@[simp] theorem State.setPc_bridges (i v : Nat) : (s.setPc i v).bridges = s.bridges := rfl
@[simp] theorem State.setPc_cl (i v : Nat) (m : Nat) : (s.setPc i v).cl m = s.cl m := by simp only [State.cl, State.setPc_clusters]
@[simp] theorem State.setPc_rdB (i v : Nat) (a : Nat) : (s.setPc i v).rdB a = s.rdB a := by simp only [State.rdB, State.setPc_dram]

@[simp] theorem State.setCc_pending (n i v src : Nat) : (s.setCc n i v src).pending = s.pending := by rw [State.setCc, State.wrg_pending, State.wrg_pending]
@[simp] theorem State.setCc_freeCount (n i v src : Nat) : (s.setCc n i v src).freeCount = s.freeCount := by rw [State.setCc, State.wrg_freeCount, State.wrg_freeCount]
@[simp] theorem State.setCc_outbox (n i v src : Nat) : (s.setCc n i v src).outbox = s.outbox := by rw [State.setCc, State.wrg_outbox, State.wrg_outbox]
@[simp] theorem State.setCc_clusters (n i v src : Nat) : (s.setCc n i v src).clusters = s.clusters := by rw [State.setCc, State.wrg_clusters, State.wrg_clusters]
@[simp] theorem State.setCc_dram (n i v src : Nat) : (s.setCc n i v src).dram = s.dram := by rw [State.setCc, State.wrg_dram, State.wrg_dram]
@[simp] theorem State.setCc_mem (n i v src : Nat) : (s.setCc n i v src).mem = s.mem := by rw [State.setCc, State.wrg_mem, State.wrg_mem]
@[simp] theorem State.setCc_time (n i v src : Nat) : (s.setCc n i v src).time = s.time := by rw [State.setCc, State.wrg_time, State.wrg_time]
@[simp] theorem State.setCc_host (n i v src : Nat) : (s.setCc n i v src).host = s.host := by rw [State.setCc, State.wrg_host, State.wrg_host]
@[simp] theorem State.setCc_net (n i v src : Nat) : (s.setCc n i v src).net = s.net := by rw [State.setCc, State.wrg_net, State.wrg_net]
@[simp] theorem State.setCc_barriers (n i v src : Nat) : (s.setCc n i v src).barriers = s.barriers := by rw [State.setCc, State.wrg_barriers, State.wrg_barriers]
@[simp] theorem State.setCc_store (n i v src : Nat) : (s.setCc n i v src).store = s.store := by rw [State.setCc, State.wrg_store, State.wrg_store]
@[simp] theorem State.setCc_images (n i v src : Nat) : (s.setCc n i v src).images = s.images := by rw [State.setCc, State.wrg_images, State.wrg_images]
@[simp] theorem State.setCc_repair (n i v src : Nat) : (s.setCc n i v src).repair = s.repair := by rw [State.setCc, State.wrg_repair, State.wrg_repair]
@[simp] theorem State.setCc_links (n i v src : Nat) : (s.setCc n i v src).links = s.links := by rw [State.setCc, State.wrg_links, State.wrg_links]
@[simp] theorem State.setCc_power (n i v src : Nat) : (s.setCc n i v src).power = s.power := by rw [State.setCc, State.wrg_power, State.wrg_power]
@[simp] theorem State.setCc_mgmt (n i v src : Nat) : (s.setCc n i v src).mgmt = s.mgmt := by rw [State.setCc, State.wrg_mgmt, State.wrg_mgmt]
@[simp] theorem State.setCc_pins (n i v src : Nat) : (s.setCc n i v src).pins = s.pins := by rw [State.setCc, State.wrg_pins, State.wrg_pins]
@[simp] theorem State.setCc_mesh (n i v src : Nat) : (s.setCc n i v src).mesh = s.mesh := by rw [State.setCc, State.wrg_mesh, State.wrg_mesh]
@[simp] theorem State.setCc_meshDropped (n i v src : Nat) : (s.setCc n i v src).meshDropped = s.meshDropped := by rw [State.setCc, State.wrg_meshDropped, State.wrg_meshDropped]
@[simp] theorem State.setCc_bridges (n i v src : Nat) : (s.setCc n i v src).bridges = s.bridges := by rw [State.setCc, State.wrg_bridges, State.wrg_bridges]
@[simp] theorem State.setCc_cl (n i v src : Nat) (m : Nat) : (s.setCc n i v src).cl m = s.cl m := by simp only [State.cl, State.setCc_clusters]
@[simp] theorem State.setCc_rdB (n i v src : Nat) (a : Nat) : (s.setCc n i v src).rdB a = s.rdB a := by simp only [State.rdB, State.setCc_dram]

@[simp] theorem State.plain_pending (off : Nat) (v : Word) : (s.plain off v).pending = s.pending := rfl
@[simp] theorem State.plain_freeCount (off : Nat) (v : Word) : (s.plain off v).freeCount = s.freeCount := rfl
@[simp] theorem State.plain_outbox (off : Nat) (v : Word) : (s.plain off v).outbox = s.outbox := rfl
@[simp] theorem State.plain_clusters (off : Nat) (v : Word) : (s.plain off v).clusters = s.clusters := rfl
@[simp] theorem State.plain_dram (off : Nat) (v : Word) : (s.plain off v).dram = s.dram := rfl
@[simp] theorem State.plain_mem (off : Nat) (v : Word) : (s.plain off v).mem = s.mem := rfl
@[simp] theorem State.plain_time (off : Nat) (v : Word) : (s.plain off v).time = s.time := rfl
@[simp] theorem State.plain_host (off : Nat) (v : Word) : (s.plain off v).host = s.host := rfl
@[simp] theorem State.plain_net (off : Nat) (v : Word) : (s.plain off v).net = s.net := rfl
@[simp] theorem State.plain_barriers (off : Nat) (v : Word) : (s.plain off v).barriers = s.barriers := rfl
@[simp] theorem State.plain_store (off : Nat) (v : Word) : (s.plain off v).store = s.store := rfl
@[simp] theorem State.plain_images (off : Nat) (v : Word) : (s.plain off v).images = s.images := rfl
@[simp] theorem State.plain_repair (off : Nat) (v : Word) : (s.plain off v).repair = s.repair := rfl
@[simp] theorem State.plain_links (off : Nat) (v : Word) : (s.plain off v).links = s.links := rfl
@[simp] theorem State.plain_power (off : Nat) (v : Word) : (s.plain off v).power = s.power := rfl
@[simp] theorem State.plain_mgmt (off : Nat) (v : Word) : (s.plain off v).mgmt = s.mgmt := rfl
@[simp] theorem State.plain_pins (off : Nat) (v : Word) : (s.plain off v).pins = s.pins := rfl
@[simp] theorem State.plain_mesh (off : Nat) (v : Word) : (s.plain off v).mesh = s.mesh := rfl
@[simp] theorem State.plain_meshDropped (off : Nat) (v : Word) : (s.plain off v).meshDropped = s.meshDropped := rfl
@[simp] theorem State.plain_bridges (off : Nat) (v : Word) : (s.plain off v).bridges = s.bridges := rfl
@[simp] theorem State.plain_cl (off : Nat) (v : Word) (m : Nat) : (s.plain off v).cl m = s.cl m := by simp only [State.cl, State.plain_clusters]
@[simp] theorem State.plain_rdB (off : Nat) (v : Word) (a : Nat) : (s.plain off v).rdB a = s.rdB a := by simp only [State.rdB, State.plain_dram]

@[simp] theorem State.setCl_pending (n : Nat) (c : ClusterSt) : (s.setCl n c).pending = s.pending := rfl
@[simp] theorem State.setCl_freeCount (n : Nat) (c : ClusterSt) : (s.setCl n c).freeCount = s.freeCount := rfl
@[simp] theorem State.setCl_outbox (n : Nat) (c : ClusterSt) : (s.setCl n c).outbox = s.outbox := rfl
@[simp] theorem State.setCl_regs (n : Nat) (c : ClusterSt) : (s.setCl n c).regs = s.regs := rfl
@[simp] theorem State.setCl_dram (n : Nat) (c : ClusterSt) : (s.setCl n c).dram = s.dram := rfl
@[simp] theorem State.setCl_mem (n : Nat) (c : ClusterSt) : (s.setCl n c).mem = s.mem := rfl
@[simp] theorem State.setCl_time (n : Nat) (c : ClusterSt) : (s.setCl n c).time = s.time := rfl
@[simp] theorem State.setCl_host (n : Nat) (c : ClusterSt) : (s.setCl n c).host = s.host := rfl
@[simp] theorem State.setCl_net (n : Nat) (c : ClusterSt) : (s.setCl n c).net = s.net := rfl
@[simp] theorem State.setCl_barriers (n : Nat) (c : ClusterSt) : (s.setCl n c).barriers = s.barriers := rfl
@[simp] theorem State.setCl_store (n : Nat) (c : ClusterSt) : (s.setCl n c).store = s.store := rfl
@[simp] theorem State.setCl_images (n : Nat) (c : ClusterSt) : (s.setCl n c).images = s.images := rfl
@[simp] theorem State.setCl_repair (n : Nat) (c : ClusterSt) : (s.setCl n c).repair = s.repair := rfl
@[simp] theorem State.setCl_links (n : Nat) (c : ClusterSt) : (s.setCl n c).links = s.links := rfl
@[simp] theorem State.setCl_power (n : Nat) (c : ClusterSt) : (s.setCl n c).power = s.power := rfl
@[simp] theorem State.setCl_mgmt (n : Nat) (c : ClusterSt) : (s.setCl n c).mgmt = s.mgmt := rfl
@[simp] theorem State.setCl_pins (n : Nat) (c : ClusterSt) : (s.setCl n c).pins = s.pins := rfl
@[simp] theorem State.setCl_mesh (n : Nat) (c : ClusterSt) : (s.setCl n c).mesh = s.mesh := rfl
@[simp] theorem State.setCl_meshDropped (n : Nat) (c : ClusterSt) : (s.setCl n c).meshDropped = s.meshDropped := rfl
@[simp] theorem State.setCl_bridges (n : Nat) (c : ClusterSt) : (s.setCl n c).bridges = s.bridges := rfl
@[simp] theorem State.setCl_rg (n : Nat) (c : ClusterSt) (o : Nat) : (s.setCl n c).rg o = s.rg o := by simp only [State.rg, State.setCl_regs]
@[simp] theorem State.setCl_fd (n : Nat) (c : ClusterSt) (xf : Fld) : (s.setCl n c).fd xf = s.fd xf := by simp only [State.fd, State.setCl_rg]
@[simp] theorem State.setCl_on (n : Nat) (c : ClusterSt) (xf : Fld) : (s.setCl n c).on xf = s.on xf := by simp only [State.on, State.setCl_fd]
@[simp] theorem State.setCl_rdB (n : Nat) (c : ClusterSt) (a : Nat) : (s.setCl n c).rdB a = s.rdB a := by simp only [State.rdB, State.setCl_dram]

@[simp] theorem State.upCl_pending (n : Nat) (f : ClusterSt → ClusterSt) : (s.upCl n f).pending = s.pending := rfl
@[simp] theorem State.upCl_freeCount (n : Nat) (f : ClusterSt → ClusterSt) : (s.upCl n f).freeCount = s.freeCount := rfl
@[simp] theorem State.upCl_outbox (n : Nat) (f : ClusterSt → ClusterSt) : (s.upCl n f).outbox = s.outbox := rfl
@[simp] theorem State.upCl_regs (n : Nat) (f : ClusterSt → ClusterSt) : (s.upCl n f).regs = s.regs := rfl
@[simp] theorem State.upCl_dram (n : Nat) (f : ClusterSt → ClusterSt) : (s.upCl n f).dram = s.dram := rfl
@[simp] theorem State.upCl_mem (n : Nat) (f : ClusterSt → ClusterSt) : (s.upCl n f).mem = s.mem := rfl
@[simp] theorem State.upCl_time (n : Nat) (f : ClusterSt → ClusterSt) : (s.upCl n f).time = s.time := rfl
@[simp] theorem State.upCl_host (n : Nat) (f : ClusterSt → ClusterSt) : (s.upCl n f).host = s.host := rfl
@[simp] theorem State.upCl_net (n : Nat) (f : ClusterSt → ClusterSt) : (s.upCl n f).net = s.net := rfl
@[simp] theorem State.upCl_barriers (n : Nat) (f : ClusterSt → ClusterSt) : (s.upCl n f).barriers = s.barriers := rfl
@[simp] theorem State.upCl_store (n : Nat) (f : ClusterSt → ClusterSt) : (s.upCl n f).store = s.store := rfl
@[simp] theorem State.upCl_images (n : Nat) (f : ClusterSt → ClusterSt) : (s.upCl n f).images = s.images := rfl
@[simp] theorem State.upCl_repair (n : Nat) (f : ClusterSt → ClusterSt) : (s.upCl n f).repair = s.repair := rfl
@[simp] theorem State.upCl_links (n : Nat) (f : ClusterSt → ClusterSt) : (s.upCl n f).links = s.links := rfl
@[simp] theorem State.upCl_power (n : Nat) (f : ClusterSt → ClusterSt) : (s.upCl n f).power = s.power := rfl
@[simp] theorem State.upCl_mgmt (n : Nat) (f : ClusterSt → ClusterSt) : (s.upCl n f).mgmt = s.mgmt := rfl
@[simp] theorem State.upCl_pins (n : Nat) (f : ClusterSt → ClusterSt) : (s.upCl n f).pins = s.pins := rfl
@[simp] theorem State.upCl_mesh (n : Nat) (f : ClusterSt → ClusterSt) : (s.upCl n f).mesh = s.mesh := rfl
@[simp] theorem State.upCl_meshDropped (n : Nat) (f : ClusterSt → ClusterSt) : (s.upCl n f).meshDropped = s.meshDropped := rfl
@[simp] theorem State.upCl_bridges (n : Nat) (f : ClusterSt → ClusterSt) : (s.upCl n f).bridges = s.bridges := rfl
@[simp] theorem State.upCl_rg (n : Nat) (f : ClusterSt → ClusterSt) (o : Nat) : (s.upCl n f).rg o = s.rg o := by simp only [State.rg, State.upCl_regs]
@[simp] theorem State.upCl_fd (n : Nat) (f : ClusterSt → ClusterSt) (xf : Fld) : (s.upCl n f).fd xf = s.fd xf := by simp only [State.fd, State.upCl_rg]
@[simp] theorem State.upCl_on (n : Nat) (f : ClusterSt → ClusterSt) (xf : Fld) : (s.upCl n f).on xf = s.on xf := by simp only [State.on, State.upCl_fd]
@[simp] theorem State.upCl_rdB (n : Nat) (f : ClusterSt → ClusterSt) (a : Nat) : (s.upCl n f).rdB a = s.rdB a := by simp only [State.rdB, State.upCl_dram]

@[simp] theorem State.report_pending (stop unit detail : Nat) (b : Bool) : (s.report stop unit detail b).pending = s.pending := rfl
@[simp] theorem State.report_freeCount (stop unit detail : Nat) (b : Bool) : (s.report stop unit detail b).freeCount = s.freeCount := rfl
@[simp] theorem State.report_outbox (stop unit detail : Nat) (b : Bool) : (s.report stop unit detail b).outbox = s.outbox := rfl
@[simp] theorem State.report_regs (stop unit detail : Nat) (b : Bool) : (s.report stop unit detail b).regs = s.regs := rfl
@[simp] theorem State.report_clusters (stop unit detail : Nat) (b : Bool) : (s.report stop unit detail b).clusters = s.clusters := rfl
@[simp] theorem State.report_dram (stop unit detail : Nat) (b : Bool) : (s.report stop unit detail b).dram = s.dram := rfl
@[simp] theorem State.report_mem (stop unit detail : Nat) (b : Bool) : (s.report stop unit detail b).mem = s.mem := rfl
@[simp] theorem State.report_time (stop unit detail : Nat) (b : Bool) : (s.report stop unit detail b).time = s.time := rfl
@[simp] theorem State.report_host (stop unit detail : Nat) (b : Bool) : (s.report stop unit detail b).host = s.host := rfl
@[simp] theorem State.report_net (stop unit detail : Nat) (b : Bool) : (s.report stop unit detail b).net = s.net := rfl
@[simp] theorem State.report_barriers (stop unit detail : Nat) (b : Bool) : (s.report stop unit detail b).barriers = s.barriers := rfl
@[simp] theorem State.report_store (stop unit detail : Nat) (b : Bool) : (s.report stop unit detail b).store = s.store := rfl
@[simp] theorem State.report_images (stop unit detail : Nat) (b : Bool) : (s.report stop unit detail b).images = s.images := rfl
@[simp] theorem State.report_links (stop unit detail : Nat) (b : Bool) : (s.report stop unit detail b).links = s.links := rfl
@[simp] theorem State.report_power (stop unit detail : Nat) (b : Bool) : (s.report stop unit detail b).power = s.power := rfl
@[simp] theorem State.report_mgmt (stop unit detail : Nat) (b : Bool) : (s.report stop unit detail b).mgmt = s.mgmt := rfl
@[simp] theorem State.report_pins (stop unit detail : Nat) (b : Bool) : (s.report stop unit detail b).pins = s.pins := rfl
@[simp] theorem State.report_mesh (stop unit detail : Nat) (b : Bool) : (s.report stop unit detail b).mesh = s.mesh := rfl
@[simp] theorem State.report_meshDropped (stop unit detail : Nat) (b : Bool) : (s.report stop unit detail b).meshDropped = s.meshDropped := rfl
@[simp] theorem State.report_bridges (stop unit detail : Nat) (b : Bool) : (s.report stop unit detail b).bridges = s.bridges := rfl
@[simp] theorem State.report_rg (stop unit detail : Nat) (b : Bool) (o : Nat) : (s.report stop unit detail b).rg o = s.rg o := by simp only [State.rg, State.report_regs]
@[simp] theorem State.report_fd (stop unit detail : Nat) (b : Bool) (xf : Fld) : (s.report stop unit detail b).fd xf = s.fd xf := by simp only [State.fd, State.report_rg]
@[simp] theorem State.report_on (stop unit detail : Nat) (b : Bool) (xf : Fld) : (s.report stop unit detail b).on xf = s.on xf := by simp only [State.on, State.report_fd]
@[simp] theorem State.report_cl (stop unit detail : Nat) (b : Bool) (m : Nat) : (s.report stop unit detail b).cl m = s.cl m := by simp only [State.cl, State.report_clusters]
@[simp] theorem State.report_rdB (stop unit detail : Nat) (b : Bool) (a : Nat) : (s.report stop unit detail b).rdB a = s.rdB a := by simp only [State.rdB, State.report_dram]

@[simp] theorem State.setCtl_pending (k : Nat) (x : DramCtl) : (s.setCtl k x).pending = s.pending := rfl
@[simp] theorem State.setCtl_freeCount (k : Nat) (x : DramCtl) : (s.setCtl k x).freeCount = s.freeCount := rfl
@[simp] theorem State.setCtl_outbox (k : Nat) (x : DramCtl) : (s.setCtl k x).outbox = s.outbox := rfl
@[simp] theorem State.setCtl_regs (k : Nat) (x : DramCtl) : (s.setCtl k x).regs = s.regs := rfl
@[simp] theorem State.setCtl_clusters (k : Nat) (x : DramCtl) : (s.setCtl k x).clusters = s.clusters := rfl
@[simp] theorem State.setCtl_dram (k : Nat) (x : DramCtl) : (s.setCtl k x).dram = s.dram := rfl
@[simp] theorem State.setCtl_time (k : Nat) (x : DramCtl) : (s.setCtl k x).time = s.time := rfl
@[simp] theorem State.setCtl_host (k : Nat) (x : DramCtl) : (s.setCtl k x).host = s.host := rfl
@[simp] theorem State.setCtl_net (k : Nat) (x : DramCtl) : (s.setCtl k x).net = s.net := rfl
@[simp] theorem State.setCtl_barriers (k : Nat) (x : DramCtl) : (s.setCtl k x).barriers = s.barriers := rfl
@[simp] theorem State.setCtl_store (k : Nat) (x : DramCtl) : (s.setCtl k x).store = s.store := rfl
@[simp] theorem State.setCtl_images (k : Nat) (x : DramCtl) : (s.setCtl k x).images = s.images := rfl
@[simp] theorem State.setCtl_repair (k : Nat) (x : DramCtl) : (s.setCtl k x).repair = s.repair := rfl
@[simp] theorem State.setCtl_links (k : Nat) (x : DramCtl) : (s.setCtl k x).links = s.links := rfl
@[simp] theorem State.setCtl_power (k : Nat) (x : DramCtl) : (s.setCtl k x).power = s.power := rfl
@[simp] theorem State.setCtl_mgmt (k : Nat) (x : DramCtl) : (s.setCtl k x).mgmt = s.mgmt := rfl
@[simp] theorem State.setCtl_pins (k : Nat) (x : DramCtl) : (s.setCtl k x).pins = s.pins := rfl
@[simp] theorem State.setCtl_mesh (k : Nat) (x : DramCtl) : (s.setCtl k x).mesh = s.mesh := rfl
@[simp] theorem State.setCtl_meshDropped (k : Nat) (x : DramCtl) : (s.setCtl k x).meshDropped = s.meshDropped := rfl
@[simp] theorem State.setCtl_bridges (k : Nat) (x : DramCtl) : (s.setCtl k x).bridges = s.bridges := rfl
@[simp] theorem State.setCtl_rg (k : Nat) (x : DramCtl) (o : Nat) : (s.setCtl k x).rg o = s.rg o := by simp only [State.rg, State.setCtl_regs]
@[simp] theorem State.setCtl_fd (k : Nat) (x : DramCtl) (xf : Fld) : (s.setCtl k x).fd xf = s.fd xf := by simp only [State.fd, State.setCtl_rg]
@[simp] theorem State.setCtl_on (k : Nat) (x : DramCtl) (xf : Fld) : (s.setCtl k x).on xf = s.on xf := by simp only [State.on, State.setCtl_fd]
@[simp] theorem State.setCtl_cl (k : Nat) (x : DramCtl) (m : Nat) : (s.setCtl k x).cl m = s.cl m := by simp only [State.cl, State.setCtl_clusters]
@[simp] theorem State.setCtl_rdB (k : Nat) (x : DramCtl) (a : Nat) : (s.setCtl k x).rdB a = s.rdB a := by simp only [State.rdB, State.setCtl_dram]

@[simp] theorem State.setBar_pending (k : Nat) (x : BarrierSt) : (s.setBar k x).pending = s.pending := rfl
@[simp] theorem State.setBar_freeCount (k : Nat) (x : BarrierSt) : (s.setBar k x).freeCount = s.freeCount := rfl
@[simp] theorem State.setBar_outbox (k : Nat) (x : BarrierSt) : (s.setBar k x).outbox = s.outbox := rfl
@[simp] theorem State.setBar_regs (k : Nat) (x : BarrierSt) : (s.setBar k x).regs = s.regs := rfl
@[simp] theorem State.setBar_clusters (k : Nat) (x : BarrierSt) : (s.setBar k x).clusters = s.clusters := rfl
@[simp] theorem State.setBar_dram (k : Nat) (x : BarrierSt) : (s.setBar k x).dram = s.dram := rfl
@[simp] theorem State.setBar_mem (k : Nat) (x : BarrierSt) : (s.setBar k x).mem = s.mem := rfl
@[simp] theorem State.setBar_time (k : Nat) (x : BarrierSt) : (s.setBar k x).time = s.time := rfl
@[simp] theorem State.setBar_host (k : Nat) (x : BarrierSt) : (s.setBar k x).host = s.host := rfl
@[simp] theorem State.setBar_net (k : Nat) (x : BarrierSt) : (s.setBar k x).net = s.net := rfl
@[simp] theorem State.setBar_store (k : Nat) (x : BarrierSt) : (s.setBar k x).store = s.store := rfl
@[simp] theorem State.setBar_images (k : Nat) (x : BarrierSt) : (s.setBar k x).images = s.images := rfl
@[simp] theorem State.setBar_repair (k : Nat) (x : BarrierSt) : (s.setBar k x).repair = s.repair := rfl
@[simp] theorem State.setBar_links (k : Nat) (x : BarrierSt) : (s.setBar k x).links = s.links := rfl
@[simp] theorem State.setBar_power (k : Nat) (x : BarrierSt) : (s.setBar k x).power = s.power := rfl
@[simp] theorem State.setBar_mgmt (k : Nat) (x : BarrierSt) : (s.setBar k x).mgmt = s.mgmt := rfl
@[simp] theorem State.setBar_pins (k : Nat) (x : BarrierSt) : (s.setBar k x).pins = s.pins := rfl
@[simp] theorem State.setBar_mesh (k : Nat) (x : BarrierSt) : (s.setBar k x).mesh = s.mesh := rfl
@[simp] theorem State.setBar_meshDropped (k : Nat) (x : BarrierSt) : (s.setBar k x).meshDropped = s.meshDropped := rfl
@[simp] theorem State.setBar_bridges (k : Nat) (x : BarrierSt) : (s.setBar k x).bridges = s.bridges := rfl
@[simp] theorem State.setBar_rg (k : Nat) (x : BarrierSt) (o : Nat) : (s.setBar k x).rg o = s.rg o := by simp only [State.rg, State.setBar_regs]
@[simp] theorem State.setBar_fd (k : Nat) (x : BarrierSt) (xf : Fld) : (s.setBar k x).fd xf = s.fd xf := by simp only [State.fd, State.setBar_rg]
@[simp] theorem State.setBar_on (k : Nat) (x : BarrierSt) (xf : Fld) : (s.setBar k x).on xf = s.on xf := by simp only [State.on, State.setBar_fd]
@[simp] theorem State.setBar_cl (k : Nat) (x : BarrierSt) (m : Nat) : (s.setBar k x).cl m = s.cl m := by simp only [State.cl, State.setBar_clusters]
@[simp] theorem State.setBar_rdB (k : Nat) (x : BarrierSt) (a : Nat) : (s.setBar k x).rdB a = s.rdB a := by simp only [State.rdB, State.setBar_dram]

@[simp] theorem State.setDesc_pending (k : Nat) (x : Desc) : (s.setDesc k x).pending = s.pending := rfl
@[simp] theorem State.setDesc_freeCount (k : Nat) (x : Desc) : (s.setDesc k x).freeCount = s.freeCount := rfl
@[simp] theorem State.setDesc_outbox (k : Nat) (x : Desc) : (s.setDesc k x).outbox = s.outbox := rfl
@[simp] theorem State.setDesc_regs (k : Nat) (x : Desc) : (s.setDesc k x).regs = s.regs := rfl
@[simp] theorem State.setDesc_clusters (k : Nat) (x : Desc) : (s.setDesc k x).clusters = s.clusters := rfl
@[simp] theorem State.setDesc_dram (k : Nat) (x : Desc) : (s.setDesc k x).dram = s.dram := rfl
@[simp] theorem State.setDesc_mem (k : Nat) (x : Desc) : (s.setDesc k x).mem = s.mem := rfl
@[simp] theorem State.setDesc_time (k : Nat) (x : Desc) : (s.setDesc k x).time = s.time := rfl
@[simp] theorem State.setDesc_net (k : Nat) (x : Desc) : (s.setDesc k x).net = s.net := rfl
@[simp] theorem State.setDesc_barriers (k : Nat) (x : Desc) : (s.setDesc k x).barriers = s.barriers := rfl
@[simp] theorem State.setDesc_store (k : Nat) (x : Desc) : (s.setDesc k x).store = s.store := rfl
@[simp] theorem State.setDesc_images (k : Nat) (x : Desc) : (s.setDesc k x).images = s.images := rfl
@[simp] theorem State.setDesc_repair (k : Nat) (x : Desc) : (s.setDesc k x).repair = s.repair := rfl
@[simp] theorem State.setDesc_links (k : Nat) (x : Desc) : (s.setDesc k x).links = s.links := rfl
@[simp] theorem State.setDesc_power (k : Nat) (x : Desc) : (s.setDesc k x).power = s.power := rfl
@[simp] theorem State.setDesc_mgmt (k : Nat) (x : Desc) : (s.setDesc k x).mgmt = s.mgmt := rfl
@[simp] theorem State.setDesc_pins (k : Nat) (x : Desc) : (s.setDesc k x).pins = s.pins := rfl
@[simp] theorem State.setDesc_mesh (k : Nat) (x : Desc) : (s.setDesc k x).mesh = s.mesh := rfl
@[simp] theorem State.setDesc_meshDropped (k : Nat) (x : Desc) : (s.setDesc k x).meshDropped = s.meshDropped := rfl
@[simp] theorem State.setDesc_bridges (k : Nat) (x : Desc) : (s.setDesc k x).bridges = s.bridges := rfl
@[simp] theorem State.setDesc_rg (k : Nat) (x : Desc) (o : Nat) : (s.setDesc k x).rg o = s.rg o := by simp only [State.rg, State.setDesc_regs]
@[simp] theorem State.setDesc_fd (k : Nat) (x : Desc) (xf : Fld) : (s.setDesc k x).fd xf = s.fd xf := by simp only [State.fd, State.setDesc_rg]
@[simp] theorem State.setDesc_on (k : Nat) (x : Desc) (xf : Fld) : (s.setDesc k x).on xf = s.on xf := by simp only [State.on, State.setDesc_fd]
@[simp] theorem State.setDesc_cl (k : Nat) (x : Desc) (m : Nat) : (s.setDesc k x).cl m = s.cl m := by simp only [State.cl, State.setDesc_clusters]
@[simp] theorem State.setDesc_rdB (k : Nat) (x : Desc) (a : Nat) : (s.setDesc k x).rdB a = s.rdB a := by simp only [State.rdB, State.setDesc_dram]

@[simp] theorem State.setRing_pending (k : Nat) (x : RingSt) : (s.setRing k x).pending = s.pending := rfl
@[simp] theorem State.setRing_freeCount (k : Nat) (x : RingSt) : (s.setRing k x).freeCount = s.freeCount := rfl
@[simp] theorem State.setRing_outbox (k : Nat) (x : RingSt) : (s.setRing k x).outbox = s.outbox := rfl
@[simp] theorem State.setRing_regs (k : Nat) (x : RingSt) : (s.setRing k x).regs = s.regs := rfl
@[simp] theorem State.setRing_clusters (k : Nat) (x : RingSt) : (s.setRing k x).clusters = s.clusters := rfl
@[simp] theorem State.setRing_dram (k : Nat) (x : RingSt) : (s.setRing k x).dram = s.dram := rfl
@[simp] theorem State.setRing_mem (k : Nat) (x : RingSt) : (s.setRing k x).mem = s.mem := rfl
@[simp] theorem State.setRing_time (k : Nat) (x : RingSt) : (s.setRing k x).time = s.time := rfl
@[simp] theorem State.setRing_net (k : Nat) (x : RingSt) : (s.setRing k x).net = s.net := rfl
@[simp] theorem State.setRing_barriers (k : Nat) (x : RingSt) : (s.setRing k x).barriers = s.barriers := rfl
@[simp] theorem State.setRing_store (k : Nat) (x : RingSt) : (s.setRing k x).store = s.store := rfl
@[simp] theorem State.setRing_images (k : Nat) (x : RingSt) : (s.setRing k x).images = s.images := rfl
@[simp] theorem State.setRing_repair (k : Nat) (x : RingSt) : (s.setRing k x).repair = s.repair := rfl
@[simp] theorem State.setRing_links (k : Nat) (x : RingSt) : (s.setRing k x).links = s.links := rfl
@[simp] theorem State.setRing_power (k : Nat) (x : RingSt) : (s.setRing k x).power = s.power := rfl
@[simp] theorem State.setRing_mgmt (k : Nat) (x : RingSt) : (s.setRing k x).mgmt = s.mgmt := rfl
@[simp] theorem State.setRing_pins (k : Nat) (x : RingSt) : (s.setRing k x).pins = s.pins := rfl
@[simp] theorem State.setRing_mesh (k : Nat) (x : RingSt) : (s.setRing k x).mesh = s.mesh := rfl
@[simp] theorem State.setRing_meshDropped (k : Nat) (x : RingSt) : (s.setRing k x).meshDropped = s.meshDropped := rfl
@[simp] theorem State.setRing_bridges (k : Nat) (x : RingSt) : (s.setRing k x).bridges = s.bridges := rfl
@[simp] theorem State.setRing_rg (k : Nat) (x : RingSt) (o : Nat) : (s.setRing k x).rg o = s.rg o := by simp only [State.rg, State.setRing_regs]
@[simp] theorem State.setRing_fd (k : Nat) (x : RingSt) (xf : Fld) : (s.setRing k x).fd xf = s.fd xf := by simp only [State.fd, State.setRing_rg]
@[simp] theorem State.setRing_on (k : Nat) (x : RingSt) (xf : Fld) : (s.setRing k x).on xf = s.on xf := by simp only [State.on, State.setRing_fd]
@[simp] theorem State.setRing_cl (k : Nat) (x : RingSt) (m : Nat) : (s.setRing k x).cl m = s.cl m := by simp only [State.cl, State.setRing_clusters]
@[simp] theorem State.setRing_rdB (k : Nat) (x : RingSt) (a : Nat) : (s.setRing k x).rdB a = s.rdB a := by simp only [State.rdB, State.setRing_dram]

@[simp] theorem State.setSes_pending (k : Nat) (x : Session) : (s.setSes k x).pending = s.pending := rfl
@[simp] theorem State.setSes_freeCount (k : Nat) (x : Session) : (s.setSes k x).freeCount = s.freeCount := rfl
@[simp] theorem State.setSes_outbox (k : Nat) (x : Session) : (s.setSes k x).outbox = s.outbox := rfl
@[simp] theorem State.setSes_regs (k : Nat) (x : Session) : (s.setSes k x).regs = s.regs := rfl
@[simp] theorem State.setSes_clusters (k : Nat) (x : Session) : (s.setSes k x).clusters = s.clusters := rfl
@[simp] theorem State.setSes_dram (k : Nat) (x : Session) : (s.setSes k x).dram = s.dram := rfl
@[simp] theorem State.setSes_mem (k : Nat) (x : Session) : (s.setSes k x).mem = s.mem := rfl
@[simp] theorem State.setSes_time (k : Nat) (x : Session) : (s.setSes k x).time = s.time := rfl
@[simp] theorem State.setSes_host (k : Nat) (x : Session) : (s.setSes k x).host = s.host := rfl
@[simp] theorem State.setSes_barriers (k : Nat) (x : Session) : (s.setSes k x).barriers = s.barriers := rfl
@[simp] theorem State.setSes_store (k : Nat) (x : Session) : (s.setSes k x).store = s.store := rfl
@[simp] theorem State.setSes_images (k : Nat) (x : Session) : (s.setSes k x).images = s.images := rfl
@[simp] theorem State.setSes_repair (k : Nat) (x : Session) : (s.setSes k x).repair = s.repair := rfl
@[simp] theorem State.setSes_links (k : Nat) (x : Session) : (s.setSes k x).links = s.links := rfl
@[simp] theorem State.setSes_power (k : Nat) (x : Session) : (s.setSes k x).power = s.power := rfl
@[simp] theorem State.setSes_mgmt (k : Nat) (x : Session) : (s.setSes k x).mgmt = s.mgmt := rfl
@[simp] theorem State.setSes_pins (k : Nat) (x : Session) : (s.setSes k x).pins = s.pins := rfl
@[simp] theorem State.setSes_mesh (k : Nat) (x : Session) : (s.setSes k x).mesh = s.mesh := rfl
@[simp] theorem State.setSes_meshDropped (k : Nat) (x : Session) : (s.setSes k x).meshDropped = s.meshDropped := rfl
@[simp] theorem State.setSes_bridges (k : Nat) (x : Session) : (s.setSes k x).bridges = s.bridges := rfl
@[simp] theorem State.setSes_rg (k : Nat) (x : Session) (o : Nat) : (s.setSes k x).rg o = s.rg o := by simp only [State.rg, State.setSes_regs]
@[simp] theorem State.setSes_fd (k : Nat) (x : Session) (xf : Fld) : (s.setSes k x).fd xf = s.fd xf := by simp only [State.fd, State.setSes_rg]
@[simp] theorem State.setSes_on (k : Nat) (x : Session) (xf : Fld) : (s.setSes k x).on xf = s.on xf := by simp only [State.on, State.setSes_fd]
@[simp] theorem State.setSes_cl (k : Nat) (x : Session) (m : Nat) : (s.setSes k x).cl m = s.cl m := by simp only [State.cl, State.setSes_clusters]
@[simp] theorem State.setSes_rdB (k : Nat) (x : Session) (a : Nat) : (s.setSes k x).rdB a = s.rdB a := by simp only [State.rdB, State.setSes_dram]

@[simp] theorem State.setSeq_pending (k : Nat) (x : Seq) : (s.setSeq k x).pending = s.pending := rfl
@[simp] theorem State.setSeq_freeCount (k : Nat) (x : Seq) : (s.setSeq k x).freeCount = s.freeCount := rfl
@[simp] theorem State.setSeq_outbox (k : Nat) (x : Seq) : (s.setSeq k x).outbox = s.outbox := rfl
@[simp] theorem State.setSeq_regs (k : Nat) (x : Seq) : (s.setSeq k x).regs = s.regs := rfl
@[simp] theorem State.setSeq_clusters (k : Nat) (x : Seq) : (s.setSeq k x).clusters = s.clusters := rfl
@[simp] theorem State.setSeq_dram (k : Nat) (x : Seq) : (s.setSeq k x).dram = s.dram := rfl
@[simp] theorem State.setSeq_mem (k : Nat) (x : Seq) : (s.setSeq k x).mem = s.mem := rfl
@[simp] theorem State.setSeq_time (k : Nat) (x : Seq) : (s.setSeq k x).time = s.time := rfl
@[simp] theorem State.setSeq_host (k : Nat) (x : Seq) : (s.setSeq k x).host = s.host := rfl
@[simp] theorem State.setSeq_barriers (k : Nat) (x : Seq) : (s.setSeq k x).barriers = s.barriers := rfl
@[simp] theorem State.setSeq_store (k : Nat) (x : Seq) : (s.setSeq k x).store = s.store := rfl
@[simp] theorem State.setSeq_images (k : Nat) (x : Seq) : (s.setSeq k x).images = s.images := rfl
@[simp] theorem State.setSeq_repair (k : Nat) (x : Seq) : (s.setSeq k x).repair = s.repair := rfl
@[simp] theorem State.setSeq_links (k : Nat) (x : Seq) : (s.setSeq k x).links = s.links := rfl
@[simp] theorem State.setSeq_power (k : Nat) (x : Seq) : (s.setSeq k x).power = s.power := rfl
@[simp] theorem State.setSeq_mgmt (k : Nat) (x : Seq) : (s.setSeq k x).mgmt = s.mgmt := rfl
@[simp] theorem State.setSeq_pins (k : Nat) (x : Seq) : (s.setSeq k x).pins = s.pins := rfl
@[simp] theorem State.setSeq_mesh (k : Nat) (x : Seq) : (s.setSeq k x).mesh = s.mesh := rfl
@[simp] theorem State.setSeq_meshDropped (k : Nat) (x : Seq) : (s.setSeq k x).meshDropped = s.meshDropped := rfl
@[simp] theorem State.setSeq_bridges (k : Nat) (x : Seq) : (s.setSeq k x).bridges = s.bridges := rfl
@[simp] theorem State.setSeq_rg (k : Nat) (x : Seq) (o : Nat) : (s.setSeq k x).rg o = s.rg o := by simp only [State.rg, State.setSeq_regs]
@[simp] theorem State.setSeq_fd (k : Nat) (x : Seq) (xf : Fld) : (s.setSeq k x).fd xf = s.fd xf := by simp only [State.fd, State.setSeq_rg]
@[simp] theorem State.setSeq_on (k : Nat) (x : Seq) (xf : Fld) : (s.setSeq k x).on xf = s.on xf := by simp only [State.on, State.setSeq_fd]
@[simp] theorem State.setSeq_cl (k : Nat) (x : Seq) (m : Nat) : (s.setSeq k x).cl m = s.cl m := by simp only [State.cl, State.setSeq_clusters]
@[simp] theorem State.setSeq_rdB (k : Nat) (x : Seq) (a : Nat) : (s.setSeq k x).rdB a = s.rdB a := by simp only [State.rdB, State.setSeq_dram]

@[simp] theorem State.setStep_pending (x : Option StepSt) : (s.setStep x).pending = s.pending := rfl
@[simp] theorem State.setStep_freeCount (x : Option StepSt) : (s.setStep x).freeCount = s.freeCount := rfl
@[simp] theorem State.setStep_outbox (x : Option StepSt) : (s.setStep x).outbox = s.outbox := rfl
@[simp] theorem State.setStep_regs (x : Option StepSt) : (s.setStep x).regs = s.regs := rfl
@[simp] theorem State.setStep_clusters (x : Option StepSt) : (s.setStep x).clusters = s.clusters := rfl
@[simp] theorem State.setStep_dram (x : Option StepSt) : (s.setStep x).dram = s.dram := rfl
@[simp] theorem State.setStep_mem (x : Option StepSt) : (s.setStep x).mem = s.mem := rfl
@[simp] theorem State.setStep_time (x : Option StepSt) : (s.setStep x).time = s.time := rfl
@[simp] theorem State.setStep_host (x : Option StepSt) : (s.setStep x).host = s.host := rfl
@[simp] theorem State.setStep_barriers (x : Option StepSt) : (s.setStep x).barriers = s.barriers := rfl
@[simp] theorem State.setStep_store (x : Option StepSt) : (s.setStep x).store = s.store := rfl
@[simp] theorem State.setStep_images (x : Option StepSt) : (s.setStep x).images = s.images := rfl
@[simp] theorem State.setStep_repair (x : Option StepSt) : (s.setStep x).repair = s.repair := rfl
@[simp] theorem State.setStep_links (x : Option StepSt) : (s.setStep x).links = s.links := rfl
@[simp] theorem State.setStep_power (x : Option StepSt) : (s.setStep x).power = s.power := rfl
@[simp] theorem State.setStep_mgmt (x : Option StepSt) : (s.setStep x).mgmt = s.mgmt := rfl
@[simp] theorem State.setStep_pins (x : Option StepSt) : (s.setStep x).pins = s.pins := rfl
@[simp] theorem State.setStep_mesh (x : Option StepSt) : (s.setStep x).mesh = s.mesh := rfl
@[simp] theorem State.setStep_meshDropped (x : Option StepSt) : (s.setStep x).meshDropped = s.meshDropped := rfl
@[simp] theorem State.setStep_bridges (x : Option StepSt) : (s.setStep x).bridges = s.bridges := rfl
@[simp] theorem State.setStep_rg (x : Option StepSt) (o : Nat) : (s.setStep x).rg o = s.rg o := by simp only [State.rg, State.setStep_regs]
@[simp] theorem State.setStep_fd (x : Option StepSt) (xf : Fld) : (s.setStep x).fd xf = s.fd xf := by simp only [State.fd, State.setStep_rg]
@[simp] theorem State.setStep_on (x : Option StepSt) (xf : Fld) : (s.setStep x).on xf = s.on xf := by simp only [State.on, State.setStep_fd]
@[simp] theorem State.setStep_cl (x : Option StepSt) (m : Nat) : (s.setStep x).cl m = s.cl m := by simp only [State.cl, State.setStep_clusters]
@[simp] theorem State.setStep_rdB (x : Option StepSt) (a : Nat) : (s.setStep x).rdB a = s.rdB a := by simp only [State.rdB, State.setStep_dram]

@[simp] theorem State.setSlot_pending (k : Nat) (x : ProgSlot) : (s.setSlot k x).pending = s.pending := rfl
@[simp] theorem State.setSlot_freeCount (k : Nat) (x : ProgSlot) : (s.setSlot k x).freeCount = s.freeCount := rfl
@[simp] theorem State.setSlot_outbox (k : Nat) (x : ProgSlot) : (s.setSlot k x).outbox = s.outbox := rfl
@[simp] theorem State.setSlot_regs (k : Nat) (x : ProgSlot) : (s.setSlot k x).regs = s.regs := rfl
@[simp] theorem State.setSlot_clusters (k : Nat) (x : ProgSlot) : (s.setSlot k x).clusters = s.clusters := rfl
@[simp] theorem State.setSlot_dram (k : Nat) (x : ProgSlot) : (s.setSlot k x).dram = s.dram := rfl
@[simp] theorem State.setSlot_mem (k : Nat) (x : ProgSlot) : (s.setSlot k x).mem = s.mem := rfl
@[simp] theorem State.setSlot_time (k : Nat) (x : ProgSlot) : (s.setSlot k x).time = s.time := rfl
@[simp] theorem State.setSlot_host (k : Nat) (x : ProgSlot) : (s.setSlot k x).host = s.host := rfl
@[simp] theorem State.setSlot_net (k : Nat) (x : ProgSlot) : (s.setSlot k x).net = s.net := rfl
@[simp] theorem State.setSlot_barriers (k : Nat) (x : ProgSlot) : (s.setSlot k x).barriers = s.barriers := rfl
@[simp] theorem State.setSlot_store (k : Nat) (x : ProgSlot) : (s.setSlot k x).store = s.store := rfl
@[simp] theorem State.setSlot_repair (k : Nat) (x : ProgSlot) : (s.setSlot k x).repair = s.repair := rfl
@[simp] theorem State.setSlot_links (k : Nat) (x : ProgSlot) : (s.setSlot k x).links = s.links := rfl
@[simp] theorem State.setSlot_power (k : Nat) (x : ProgSlot) : (s.setSlot k x).power = s.power := rfl
@[simp] theorem State.setSlot_mgmt (k : Nat) (x : ProgSlot) : (s.setSlot k x).mgmt = s.mgmt := rfl
@[simp] theorem State.setSlot_pins (k : Nat) (x : ProgSlot) : (s.setSlot k x).pins = s.pins := rfl
@[simp] theorem State.setSlot_mesh (k : Nat) (x : ProgSlot) : (s.setSlot k x).mesh = s.mesh := rfl
@[simp] theorem State.setSlot_meshDropped (k : Nat) (x : ProgSlot) : (s.setSlot k x).meshDropped = s.meshDropped := rfl
@[simp] theorem State.setSlot_bridges (k : Nat) (x : ProgSlot) : (s.setSlot k x).bridges = s.bridges := rfl
@[simp] theorem State.setSlot_rg (k : Nat) (x : ProgSlot) (o : Nat) : (s.setSlot k x).rg o = s.rg o := by simp only [State.rg, State.setSlot_regs]
@[simp] theorem State.setSlot_fd (k : Nat) (x : ProgSlot) (xf : Fld) : (s.setSlot k x).fd xf = s.fd xf := by simp only [State.fd, State.setSlot_rg]
@[simp] theorem State.setSlot_on (k : Nat) (x : ProgSlot) (xf : Fld) : (s.setSlot k x).on xf = s.on xf := by simp only [State.on, State.setSlot_fd]
@[simp] theorem State.setSlot_cl (k : Nat) (x : ProgSlot) (m : Nat) : (s.setSlot k x).cl m = s.cl m := by simp only [State.cl, State.setSlot_clusters]
@[simp] theorem State.setSlot_rdB (k : Nat) (x : ProgSlot) (a : Nat) : (s.setSlot k x).rdB a = s.rdB a := by simp only [State.rdB, State.setSlot_dram]

@[simp] theorem State.setTime_pending (x : TimeSt) : (s.setTime x).pending = s.pending := rfl
@[simp] theorem State.setTime_freeCount (x : TimeSt) : (s.setTime x).freeCount = s.freeCount := rfl
@[simp] theorem State.setTime_outbox (x : TimeSt) : (s.setTime x).outbox = s.outbox := rfl
@[simp] theorem State.setTime_regs (x : TimeSt) : (s.setTime x).regs = s.regs := rfl
@[simp] theorem State.setTime_clusters (x : TimeSt) : (s.setTime x).clusters = s.clusters := rfl
@[simp] theorem State.setTime_dram (x : TimeSt) : (s.setTime x).dram = s.dram := rfl
@[simp] theorem State.setTime_mem (x : TimeSt) : (s.setTime x).mem = s.mem := rfl
@[simp] theorem State.setTime_host (x : TimeSt) : (s.setTime x).host = s.host := rfl
@[simp] theorem State.setTime_net (x : TimeSt) : (s.setTime x).net = s.net := rfl
@[simp] theorem State.setTime_barriers (x : TimeSt) : (s.setTime x).barriers = s.barriers := rfl
@[simp] theorem State.setTime_store (x : TimeSt) : (s.setTime x).store = s.store := rfl
@[simp] theorem State.setTime_images (x : TimeSt) : (s.setTime x).images = s.images := rfl
@[simp] theorem State.setTime_repair (x : TimeSt) : (s.setTime x).repair = s.repair := rfl
@[simp] theorem State.setTime_links (x : TimeSt) : (s.setTime x).links = s.links := rfl
@[simp] theorem State.setTime_power (x : TimeSt) : (s.setTime x).power = s.power := rfl
@[simp] theorem State.setTime_mgmt (x : TimeSt) : (s.setTime x).mgmt = s.mgmt := rfl
@[simp] theorem State.setTime_pins (x : TimeSt) : (s.setTime x).pins = s.pins := rfl
@[simp] theorem State.setTime_mesh (x : TimeSt) : (s.setTime x).mesh = s.mesh := rfl
@[simp] theorem State.setTime_meshDropped (x : TimeSt) : (s.setTime x).meshDropped = s.meshDropped := rfl
@[simp] theorem State.setTime_bridges (x : TimeSt) : (s.setTime x).bridges = s.bridges := rfl
@[simp] theorem State.setTime_rg (x : TimeSt) (o : Nat) : (s.setTime x).rg o = s.rg o := by simp only [State.rg, State.setTime_regs]
@[simp] theorem State.setTime_fd (x : TimeSt) (xf : Fld) : (s.setTime x).fd xf = s.fd xf := by simp only [State.fd, State.setTime_rg]
@[simp] theorem State.setTime_on (x : TimeSt) (xf : Fld) : (s.setTime x).on xf = s.on xf := by simp only [State.on, State.setTime_fd]
@[simp] theorem State.setTime_cl (x : TimeSt) (m : Nat) : (s.setTime x).cl m = s.cl m := by simp only [State.cl, State.setTime_clusters]
@[simp] theorem State.setTime_rdB (x : TimeSt) (a : Nat) : (s.setTime x).rdB a = s.rdB a := by simp only [State.rdB, State.setTime_dram]

@[simp] theorem State.setPower_pending (x : PowerSt) : (s.setPower x).pending = s.pending := rfl
@[simp] theorem State.setPower_freeCount (x : PowerSt) : (s.setPower x).freeCount = s.freeCount := rfl
@[simp] theorem State.setPower_outbox (x : PowerSt) : (s.setPower x).outbox = s.outbox := rfl
@[simp] theorem State.setPower_regs (x : PowerSt) : (s.setPower x).regs = s.regs := rfl
@[simp] theorem State.setPower_clusters (x : PowerSt) : (s.setPower x).clusters = s.clusters := rfl
@[simp] theorem State.setPower_dram (x : PowerSt) : (s.setPower x).dram = s.dram := rfl
@[simp] theorem State.setPower_mem (x : PowerSt) : (s.setPower x).mem = s.mem := rfl
@[simp] theorem State.setPower_time (x : PowerSt) : (s.setPower x).time = s.time := rfl
@[simp] theorem State.setPower_host (x : PowerSt) : (s.setPower x).host = s.host := rfl
@[simp] theorem State.setPower_net (x : PowerSt) : (s.setPower x).net = s.net := rfl
@[simp] theorem State.setPower_barriers (x : PowerSt) : (s.setPower x).barriers = s.barriers := rfl
@[simp] theorem State.setPower_store (x : PowerSt) : (s.setPower x).store = s.store := rfl
@[simp] theorem State.setPower_images (x : PowerSt) : (s.setPower x).images = s.images := rfl
@[simp] theorem State.setPower_repair (x : PowerSt) : (s.setPower x).repair = s.repair := rfl
@[simp] theorem State.setPower_links (x : PowerSt) : (s.setPower x).links = s.links := rfl
@[simp] theorem State.setPower_mgmt (x : PowerSt) : (s.setPower x).mgmt = s.mgmt := rfl
@[simp] theorem State.setPower_pins (x : PowerSt) : (s.setPower x).pins = s.pins := rfl
@[simp] theorem State.setPower_mesh (x : PowerSt) : (s.setPower x).mesh = s.mesh := rfl
@[simp] theorem State.setPower_meshDropped (x : PowerSt) : (s.setPower x).meshDropped = s.meshDropped := rfl
@[simp] theorem State.setPower_bridges (x : PowerSt) : (s.setPower x).bridges = s.bridges := rfl
@[simp] theorem State.setPower_rg (x : PowerSt) (o : Nat) : (s.setPower x).rg o = s.rg o := by simp only [State.rg, State.setPower_regs]
@[simp] theorem State.setPower_fd (x : PowerSt) (xf : Fld) : (s.setPower x).fd xf = s.fd xf := by simp only [State.fd, State.setPower_rg]
@[simp] theorem State.setPower_on (x : PowerSt) (xf : Fld) : (s.setPower x).on xf = s.on xf := by simp only [State.on, State.setPower_fd]
@[simp] theorem State.setPower_cl (x : PowerSt) (m : Nat) : (s.setPower x).cl m = s.cl m := by simp only [State.cl, State.setPower_clusters]
@[simp] theorem State.setPower_rdB (x : PowerSt) (a : Nat) : (s.setPower x).rdB a = s.rdB a := by simp only [State.rdB, State.setPower_dram]

@[simp] theorem State.setMgmt_pending (x : MgmtSt) : (s.setMgmt x).pending = s.pending := rfl
@[simp] theorem State.setMgmt_freeCount (x : MgmtSt) : (s.setMgmt x).freeCount = s.freeCount := rfl
@[simp] theorem State.setMgmt_outbox (x : MgmtSt) : (s.setMgmt x).outbox = s.outbox := rfl
@[simp] theorem State.setMgmt_regs (x : MgmtSt) : (s.setMgmt x).regs = s.regs := rfl
@[simp] theorem State.setMgmt_clusters (x : MgmtSt) : (s.setMgmt x).clusters = s.clusters := rfl
@[simp] theorem State.setMgmt_dram (x : MgmtSt) : (s.setMgmt x).dram = s.dram := rfl
@[simp] theorem State.setMgmt_mem (x : MgmtSt) : (s.setMgmt x).mem = s.mem := rfl
@[simp] theorem State.setMgmt_time (x : MgmtSt) : (s.setMgmt x).time = s.time := rfl
@[simp] theorem State.setMgmt_host (x : MgmtSt) : (s.setMgmt x).host = s.host := rfl
@[simp] theorem State.setMgmt_net (x : MgmtSt) : (s.setMgmt x).net = s.net := rfl
@[simp] theorem State.setMgmt_barriers (x : MgmtSt) : (s.setMgmt x).barriers = s.barriers := rfl
@[simp] theorem State.setMgmt_store (x : MgmtSt) : (s.setMgmt x).store = s.store := rfl
@[simp] theorem State.setMgmt_images (x : MgmtSt) : (s.setMgmt x).images = s.images := rfl
@[simp] theorem State.setMgmt_repair (x : MgmtSt) : (s.setMgmt x).repair = s.repair := rfl
@[simp] theorem State.setMgmt_links (x : MgmtSt) : (s.setMgmt x).links = s.links := rfl
@[simp] theorem State.setMgmt_power (x : MgmtSt) : (s.setMgmt x).power = s.power := rfl
@[simp] theorem State.setMgmt_pins (x : MgmtSt) : (s.setMgmt x).pins = s.pins := rfl
@[simp] theorem State.setMgmt_mesh (x : MgmtSt) : (s.setMgmt x).mesh = s.mesh := rfl
@[simp] theorem State.setMgmt_meshDropped (x : MgmtSt) : (s.setMgmt x).meshDropped = s.meshDropped := rfl
@[simp] theorem State.setMgmt_bridges (x : MgmtSt) : (s.setMgmt x).bridges = s.bridges := rfl
@[simp] theorem State.setMgmt_rg (x : MgmtSt) (o : Nat) : (s.setMgmt x).rg o = s.rg o := by simp only [State.rg, State.setMgmt_regs]
@[simp] theorem State.setMgmt_fd (x : MgmtSt) (xf : Fld) : (s.setMgmt x).fd xf = s.fd xf := by simp only [State.fd, State.setMgmt_rg]
@[simp] theorem State.setMgmt_on (x : MgmtSt) (xf : Fld) : (s.setMgmt x).on xf = s.on xf := by simp only [State.on, State.setMgmt_fd]
@[simp] theorem State.setMgmt_cl (x : MgmtSt) (m : Nat) : (s.setMgmt x).cl m = s.cl m := by simp only [State.cl, State.setMgmt_clusters]
@[simp] theorem State.setMgmt_rdB (x : MgmtSt) (a : Nat) : (s.setMgmt x).rdB a = s.rdB a := by simp only [State.rdB, State.setMgmt_dram]

@[simp] theorem State.setPort_pending (k : Nat) (x : PortSt) : (s.setPort k x).pending = s.pending := rfl
@[simp] theorem State.setPort_freeCount (k : Nat) (x : PortSt) : (s.setPort k x).freeCount = s.freeCount := rfl
@[simp] theorem State.setPort_outbox (k : Nat) (x : PortSt) : (s.setPort k x).outbox = s.outbox := rfl
@[simp] theorem State.setPort_regs (k : Nat) (x : PortSt) : (s.setPort k x).regs = s.regs := rfl
@[simp] theorem State.setPort_clusters (k : Nat) (x : PortSt) : (s.setPort k x).clusters = s.clusters := rfl
@[simp] theorem State.setPort_dram (k : Nat) (x : PortSt) : (s.setPort k x).dram = s.dram := rfl
@[simp] theorem State.setPort_mem (k : Nat) (x : PortSt) : (s.setPort k x).mem = s.mem := rfl
@[simp] theorem State.setPort_time (k : Nat) (x : PortSt) : (s.setPort k x).time = s.time := rfl
@[simp] theorem State.setPort_host (k : Nat) (x : PortSt) : (s.setPort k x).host = s.host := rfl
@[simp] theorem State.setPort_net (k : Nat) (x : PortSt) : (s.setPort k x).net = s.net := rfl
@[simp] theorem State.setPort_barriers (k : Nat) (x : PortSt) : (s.setPort k x).barriers = s.barriers := rfl
@[simp] theorem State.setPort_store (k : Nat) (x : PortSt) : (s.setPort k x).store = s.store := rfl
@[simp] theorem State.setPort_images (k : Nat) (x : PortSt) : (s.setPort k x).images = s.images := rfl
@[simp] theorem State.setPort_repair (k : Nat) (x : PortSt) : (s.setPort k x).repair = s.repair := rfl
@[simp] theorem State.setPort_power (k : Nat) (x : PortSt) : (s.setPort k x).power = s.power := rfl
@[simp] theorem State.setPort_mgmt (k : Nat) (x : PortSt) : (s.setPort k x).mgmt = s.mgmt := rfl
@[simp] theorem State.setPort_pins (k : Nat) (x : PortSt) : (s.setPort k x).pins = s.pins := rfl
@[simp] theorem State.setPort_mesh (k : Nat) (x : PortSt) : (s.setPort k x).mesh = s.mesh := rfl
@[simp] theorem State.setPort_meshDropped (k : Nat) (x : PortSt) : (s.setPort k x).meshDropped = s.meshDropped := rfl
@[simp] theorem State.setPort_bridges (k : Nat) (x : PortSt) : (s.setPort k x).bridges = s.bridges := rfl
@[simp] theorem State.setPort_rg (k : Nat) (x : PortSt) (o : Nat) : (s.setPort k x).rg o = s.rg o := by simp only [State.rg, State.setPort_regs]
@[simp] theorem State.setPort_fd (k : Nat) (x : PortSt) (xf : Fld) : (s.setPort k x).fd xf = s.fd xf := by simp only [State.fd, State.setPort_rg]
@[simp] theorem State.setPort_on (k : Nat) (x : PortSt) (xf : Fld) : (s.setPort k x).on xf = s.on xf := by simp only [State.on, State.setPort_fd]
@[simp] theorem State.setPort_cl (k : Nat) (x : PortSt) (m : Nat) : (s.setPort k x).cl m = s.cl m := by simp only [State.cl, State.setPort_clusters]
@[simp] theorem State.setPort_rdB (k : Nat) (x : PortSt) (a : Nat) : (s.setPort k x).rdB a = s.rdB a := by simp only [State.rdB, State.setPort_dram]

@[simp] theorem State.setRouteEnt_pending (k : Nat) (x : RouteEnt) : (s.setRouteEnt k x).pending = s.pending := rfl
@[simp] theorem State.setRouteEnt_freeCount (k : Nat) (x : RouteEnt) : (s.setRouteEnt k x).freeCount = s.freeCount := rfl
@[simp] theorem State.setRouteEnt_outbox (k : Nat) (x : RouteEnt) : (s.setRouteEnt k x).outbox = s.outbox := rfl
@[simp] theorem State.setRouteEnt_regs (k : Nat) (x : RouteEnt) : (s.setRouteEnt k x).regs = s.regs := rfl
@[simp] theorem State.setRouteEnt_clusters (k : Nat) (x : RouteEnt) : (s.setRouteEnt k x).clusters = s.clusters := rfl
@[simp] theorem State.setRouteEnt_dram (k : Nat) (x : RouteEnt) : (s.setRouteEnt k x).dram = s.dram := rfl
@[simp] theorem State.setRouteEnt_mem (k : Nat) (x : RouteEnt) : (s.setRouteEnt k x).mem = s.mem := rfl
@[simp] theorem State.setRouteEnt_time (k : Nat) (x : RouteEnt) : (s.setRouteEnt k x).time = s.time := rfl
@[simp] theorem State.setRouteEnt_host (k : Nat) (x : RouteEnt) : (s.setRouteEnt k x).host = s.host := rfl
@[simp] theorem State.setRouteEnt_net (k : Nat) (x : RouteEnt) : (s.setRouteEnt k x).net = s.net := rfl
@[simp] theorem State.setRouteEnt_barriers (k : Nat) (x : RouteEnt) : (s.setRouteEnt k x).barriers = s.barriers := rfl
@[simp] theorem State.setRouteEnt_store (k : Nat) (x : RouteEnt) : (s.setRouteEnt k x).store = s.store := rfl
@[simp] theorem State.setRouteEnt_images (k : Nat) (x : RouteEnt) : (s.setRouteEnt k x).images = s.images := rfl
@[simp] theorem State.setRouteEnt_repair (k : Nat) (x : RouteEnt) : (s.setRouteEnt k x).repair = s.repair := rfl
@[simp] theorem State.setRouteEnt_power (k : Nat) (x : RouteEnt) : (s.setRouteEnt k x).power = s.power := rfl
@[simp] theorem State.setRouteEnt_mgmt (k : Nat) (x : RouteEnt) : (s.setRouteEnt k x).mgmt = s.mgmt := rfl
@[simp] theorem State.setRouteEnt_pins (k : Nat) (x : RouteEnt) : (s.setRouteEnt k x).pins = s.pins := rfl
@[simp] theorem State.setRouteEnt_mesh (k : Nat) (x : RouteEnt) : (s.setRouteEnt k x).mesh = s.mesh := rfl
@[simp] theorem State.setRouteEnt_meshDropped (k : Nat) (x : RouteEnt) : (s.setRouteEnt k x).meshDropped = s.meshDropped := rfl
@[simp] theorem State.setRouteEnt_bridges (k : Nat) (x : RouteEnt) : (s.setRouteEnt k x).bridges = s.bridges := rfl
@[simp] theorem State.setRouteEnt_rg (k : Nat) (x : RouteEnt) (o : Nat) : (s.setRouteEnt k x).rg o = s.rg o := by simp only [State.rg, State.setRouteEnt_regs]
@[simp] theorem State.setRouteEnt_fd (k : Nat) (x : RouteEnt) (xf : Fld) : (s.setRouteEnt k x).fd xf = s.fd xf := by simp only [State.fd, State.setRouteEnt_rg]
@[simp] theorem State.setRouteEnt_on (k : Nat) (x : RouteEnt) (xf : Fld) : (s.setRouteEnt k x).on xf = s.on xf := by simp only [State.on, State.setRouteEnt_fd]
@[simp] theorem State.setRouteEnt_cl (k : Nat) (x : RouteEnt) (m : Nat) : (s.setRouteEnt k x).cl m = s.cl m := by simp only [State.cl, State.setRouteEnt_clusters]
@[simp] theorem State.setRouteEnt_rdB (k : Nat) (x : RouteEnt) (a : Nat) : (s.setRouteEnt k x).rdB a = s.rdB a := by simp only [State.rdB, State.setRouteEnt_dram]

@[simp] theorem State.setLib_pending (k : Nat) (x : LibEntry) : (s.setLib k x).pending = s.pending := rfl
@[simp] theorem State.setLib_freeCount (k : Nat) (x : LibEntry) : (s.setLib k x).freeCount = s.freeCount := rfl
@[simp] theorem State.setLib_outbox (k : Nat) (x : LibEntry) : (s.setLib k x).outbox = s.outbox := rfl
@[simp] theorem State.setLib_regs (k : Nat) (x : LibEntry) : (s.setLib k x).regs = s.regs := rfl
@[simp] theorem State.setLib_clusters (k : Nat) (x : LibEntry) : (s.setLib k x).clusters = s.clusters := rfl
@[simp] theorem State.setLib_dram (k : Nat) (x : LibEntry) : (s.setLib k x).dram = s.dram := rfl
@[simp] theorem State.setLib_mem (k : Nat) (x : LibEntry) : (s.setLib k x).mem = s.mem := rfl
@[simp] theorem State.setLib_time (k : Nat) (x : LibEntry) : (s.setLib k x).time = s.time := rfl
@[simp] theorem State.setLib_host (k : Nat) (x : LibEntry) : (s.setLib k x).host = s.host := rfl
@[simp] theorem State.setLib_net (k : Nat) (x : LibEntry) : (s.setLib k x).net = s.net := rfl
@[simp] theorem State.setLib_barriers (k : Nat) (x : LibEntry) : (s.setLib k x).barriers = s.barriers := rfl
@[simp] theorem State.setLib_images (k : Nat) (x : LibEntry) : (s.setLib k x).images = s.images := rfl
@[simp] theorem State.setLib_repair (k : Nat) (x : LibEntry) : (s.setLib k x).repair = s.repair := rfl
@[simp] theorem State.setLib_links (k : Nat) (x : LibEntry) : (s.setLib k x).links = s.links := rfl
@[simp] theorem State.setLib_power (k : Nat) (x : LibEntry) : (s.setLib k x).power = s.power := rfl
@[simp] theorem State.setLib_mgmt (k : Nat) (x : LibEntry) : (s.setLib k x).mgmt = s.mgmt := rfl
@[simp] theorem State.setLib_pins (k : Nat) (x : LibEntry) : (s.setLib k x).pins = s.pins := rfl
@[simp] theorem State.setLib_mesh (k : Nat) (x : LibEntry) : (s.setLib k x).mesh = s.mesh := rfl
@[simp] theorem State.setLib_meshDropped (k : Nat) (x : LibEntry) : (s.setLib k x).meshDropped = s.meshDropped := rfl
@[simp] theorem State.setLib_bridges (k : Nat) (x : LibEntry) : (s.setLib k x).bridges = s.bridges := rfl
@[simp] theorem State.setLib_rg (k : Nat) (x : LibEntry) (o : Nat) : (s.setLib k x).rg o = s.rg o := by simp only [State.rg, State.setLib_regs]
@[simp] theorem State.setLib_fd (k : Nat) (x : LibEntry) (xf : Fld) : (s.setLib k x).fd xf = s.fd xf := by simp only [State.fd, State.setLib_rg]
@[simp] theorem State.setLib_on (k : Nat) (x : LibEntry) (xf : Fld) : (s.setLib k x).on xf = s.on xf := by simp only [State.on, State.setLib_fd]
@[simp] theorem State.setLib_cl (k : Nat) (x : LibEntry) (m : Nat) : (s.setLib k x).cl m = s.cl m := by simp only [State.cl, State.setLib_clusters]
@[simp] theorem State.setLib_rdB (k : Nat) (x : LibEntry) (a : Nat) : (s.setLib k x).rdB a = s.rdB a := by simp only [State.rdB, State.setLib_dram]

@[simp] theorem State.setBlock_pending (k : Nat) (x : StoreBlock) : (s.setBlock k x).pending = s.pending := rfl
@[simp] theorem State.setBlock_freeCount (k : Nat) (x : StoreBlock) : (s.setBlock k x).freeCount = s.freeCount := rfl
@[simp] theorem State.setBlock_outbox (k : Nat) (x : StoreBlock) : (s.setBlock k x).outbox = s.outbox := rfl
@[simp] theorem State.setBlock_regs (k : Nat) (x : StoreBlock) : (s.setBlock k x).regs = s.regs := rfl
@[simp] theorem State.setBlock_clusters (k : Nat) (x : StoreBlock) : (s.setBlock k x).clusters = s.clusters := rfl
@[simp] theorem State.setBlock_dram (k : Nat) (x : StoreBlock) : (s.setBlock k x).dram = s.dram := rfl
@[simp] theorem State.setBlock_mem (k : Nat) (x : StoreBlock) : (s.setBlock k x).mem = s.mem := rfl
@[simp] theorem State.setBlock_time (k : Nat) (x : StoreBlock) : (s.setBlock k x).time = s.time := rfl
@[simp] theorem State.setBlock_host (k : Nat) (x : StoreBlock) : (s.setBlock k x).host = s.host := rfl
@[simp] theorem State.setBlock_net (k : Nat) (x : StoreBlock) : (s.setBlock k x).net = s.net := rfl
@[simp] theorem State.setBlock_barriers (k : Nat) (x : StoreBlock) : (s.setBlock k x).barriers = s.barriers := rfl
@[simp] theorem State.setBlock_images (k : Nat) (x : StoreBlock) : (s.setBlock k x).images = s.images := rfl
@[simp] theorem State.setBlock_repair (k : Nat) (x : StoreBlock) : (s.setBlock k x).repair = s.repair := rfl
@[simp] theorem State.setBlock_links (k : Nat) (x : StoreBlock) : (s.setBlock k x).links = s.links := rfl
@[simp] theorem State.setBlock_power (k : Nat) (x : StoreBlock) : (s.setBlock k x).power = s.power := rfl
@[simp] theorem State.setBlock_mgmt (k : Nat) (x : StoreBlock) : (s.setBlock k x).mgmt = s.mgmt := rfl
@[simp] theorem State.setBlock_pins (k : Nat) (x : StoreBlock) : (s.setBlock k x).pins = s.pins := rfl
@[simp] theorem State.setBlock_mesh (k : Nat) (x : StoreBlock) : (s.setBlock k x).mesh = s.mesh := rfl
@[simp] theorem State.setBlock_meshDropped (k : Nat) (x : StoreBlock) : (s.setBlock k x).meshDropped = s.meshDropped := rfl
@[simp] theorem State.setBlock_bridges (k : Nat) (x : StoreBlock) : (s.setBlock k x).bridges = s.bridges := rfl
@[simp] theorem State.setBlock_rg (k : Nat) (x : StoreBlock) (o : Nat) : (s.setBlock k x).rg o = s.rg o := by simp only [State.rg, State.setBlock_regs]
@[simp] theorem State.setBlock_fd (k : Nat) (x : StoreBlock) (xf : Fld) : (s.setBlock k x).fd xf = s.fd xf := by simp only [State.fd, State.setBlock_rg]
@[simp] theorem State.setBlock_on (k : Nat) (x : StoreBlock) (xf : Fld) : (s.setBlock k x).on xf = s.on xf := by simp only [State.on, State.setBlock_fd]
@[simp] theorem State.setBlock_cl (k : Nat) (x : StoreBlock) (m : Nat) : (s.setBlock k x).cl m = s.cl m := by simp only [State.cl, State.setBlock_clusters]
@[simp] theorem State.setBlock_rdB (k : Nat) (x : StoreBlock) (a : Nat) : (s.setBlock k x).rdB a = s.rdB a := by simp only [State.rdB, State.setBlock_dram]

@[simp] theorem State.emit_pending (x : Output) : (s.emit x).pending = s.pending := by unfold State.emit; split <;> rfl
@[simp] theorem State.free_pending : s.free.2.pending = s.pending := rfl
@[simp] theorem State.wrB_pending (a : Nat) (v : Byte) : (s.wrB a v).pending = s.pending := by unfold State.wrB; split <;> rfl
@[simp] theorem State.emit_freeCount (x : Output) : (s.emit x).freeCount = s.freeCount := by unfold State.emit; split <;> rfl
@[simp] theorem State.wrB_freeCount (a : Nat) (v : Byte) : (s.wrB a v).freeCount = s.freeCount := by unfold State.wrB; split <;> rfl
@[simp] theorem State.free_outbox : s.free.2.outbox = s.outbox := rfl
@[simp] theorem State.wrB_outbox (a : Nat) (v : Byte) : (s.wrB a v).outbox = s.outbox := by unfold State.wrB; split <;> rfl
@[simp] theorem State.emit_regs (x : Output) : (s.emit x).regs = s.regs := by unfold State.emit; split <;> rfl
@[simp] theorem State.free_regs : s.free.2.regs = s.regs := rfl
@[simp] theorem State.wrB_regs (a : Nat) (v : Byte) : (s.wrB a v).regs = s.regs := by unfold State.wrB; split <;> rfl
@[simp] theorem State.emit_clusters (x : Output) : (s.emit x).clusters = s.clusters := by unfold State.emit; split <;> rfl
@[simp] theorem State.free_clusters : s.free.2.clusters = s.clusters := rfl
@[simp] theorem State.wrB_clusters (a : Nat) (v : Byte) : (s.wrB a v).clusters = s.clusters := by unfold State.wrB; split <;> rfl
@[simp] theorem State.emit_dram (x : Output) : (s.emit x).dram = s.dram := by unfold State.emit; split <;> rfl
@[simp] theorem State.free_dram : s.free.2.dram = s.dram := rfl
@[simp] theorem State.emit_mem (x : Output) : (s.emit x).mem = s.mem := by unfold State.emit; split <;> rfl
@[simp] theorem State.free_mem : s.free.2.mem = s.mem := rfl
@[simp] theorem State.wrB_mem (a : Nat) (v : Byte) : (s.wrB a v).mem = s.mem := by unfold State.wrB; split <;> rfl
@[simp] theorem State.emit_time (x : Output) : (s.emit x).time = s.time := by unfold State.emit; split <;> rfl
@[simp] theorem State.free_time : s.free.2.time = s.time := rfl
@[simp] theorem State.wrB_time (a : Nat) (v : Byte) : (s.wrB a v).time = s.time := by unfold State.wrB; split <;> rfl
@[simp] theorem State.emit_host (x : Output) : (s.emit x).host = s.host := by unfold State.emit; split <;> rfl
@[simp] theorem State.free_host : s.free.2.host = s.host := rfl
@[simp] theorem State.wrB_host (a : Nat) (v : Byte) : (s.wrB a v).host = s.host := by unfold State.wrB; split <;> rfl
@[simp] theorem State.emit_net (x : Output) : (s.emit x).net = s.net := by unfold State.emit; split <;> rfl
@[simp] theorem State.free_net : s.free.2.net = s.net := rfl
@[simp] theorem State.wrB_net (a : Nat) (v : Byte) : (s.wrB a v).net = s.net := by unfold State.wrB; split <;> rfl
@[simp] theorem State.emit_barriers (x : Output) : (s.emit x).barriers = s.barriers := by unfold State.emit; split <;> rfl
@[simp] theorem State.free_barriers : s.free.2.barriers = s.barriers := rfl
@[simp] theorem State.wrB_barriers (a : Nat) (v : Byte) : (s.wrB a v).barriers = s.barriers := by unfold State.wrB; split <;> rfl
@[simp] theorem State.emit_store (x : Output) : (s.emit x).store = s.store := by unfold State.emit; split <;> rfl
@[simp] theorem State.free_store : s.free.2.store = s.store := rfl
@[simp] theorem State.wrB_store (a : Nat) (v : Byte) : (s.wrB a v).store = s.store := by unfold State.wrB; split <;> rfl
@[simp] theorem State.emit_images (x : Output) : (s.emit x).images = s.images := by unfold State.emit; split <;> rfl
@[simp] theorem State.free_images : s.free.2.images = s.images := rfl
@[simp] theorem State.wrB_images (a : Nat) (v : Byte) : (s.wrB a v).images = s.images := by unfold State.wrB; split <;> rfl
@[simp] theorem State.emit_repair (x : Output) : (s.emit x).repair = s.repair := by unfold State.emit; split <;> rfl
@[simp] theorem State.free_repair : s.free.2.repair = s.repair := rfl
@[simp] theorem State.wrB_repair (a : Nat) (v : Byte) : (s.wrB a v).repair = s.repair := by unfold State.wrB; split <;> rfl
@[simp] theorem State.emit_links (x : Output) : (s.emit x).links = s.links := by unfold State.emit; split <;> rfl
@[simp] theorem State.free_links : s.free.2.links = s.links := rfl
@[simp] theorem State.wrB_links (a : Nat) (v : Byte) : (s.wrB a v).links = s.links := by unfold State.wrB; split <;> rfl
@[simp] theorem State.emit_power (x : Output) : (s.emit x).power = s.power := by unfold State.emit; split <;> rfl
@[simp] theorem State.free_power : s.free.2.power = s.power := rfl
@[simp] theorem State.wrB_power (a : Nat) (v : Byte) : (s.wrB a v).power = s.power := by unfold State.wrB; split <;> rfl
@[simp] theorem State.emit_mgmt (x : Output) : (s.emit x).mgmt = s.mgmt := by unfold State.emit; split <;> rfl
@[simp] theorem State.free_mgmt : s.free.2.mgmt = s.mgmt := rfl
@[simp] theorem State.wrB_mgmt (a : Nat) (v : Byte) : (s.wrB a v).mgmt = s.mgmt := by unfold State.wrB; split <;> rfl
@[simp] theorem State.emit_pins (x : Output) : (s.emit x).pins = s.pins := by unfold State.emit; split <;> rfl
@[simp] theorem State.free_pins : s.free.2.pins = s.pins := rfl
@[simp] theorem State.wrB_pins (a : Nat) (v : Byte) : (s.wrB a v).pins = s.pins := by unfold State.wrB; split <;> rfl
@[simp] theorem State.emit_mesh (x : Output) : (s.emit x).mesh = s.mesh := by unfold State.emit; split <;> rfl
@[simp] theorem State.free_mesh : s.free.2.mesh = s.mesh := rfl
@[simp] theorem State.wrB_mesh (a : Nat) (v : Byte) : (s.wrB a v).mesh = s.mesh := by unfold State.wrB; split <;> rfl
@[simp] theorem State.emit_meshDropped (x : Output) : (s.emit x).meshDropped = s.meshDropped := by unfold State.emit; split <;> rfl
@[simp] theorem State.free_meshDropped : s.free.2.meshDropped = s.meshDropped := rfl
@[simp] theorem State.wrB_meshDropped (a : Nat) (v : Byte) : (s.wrB a v).meshDropped = s.meshDropped := by unfold State.wrB; split <;> rfl
@[simp] theorem State.emit_bridges (x : Output) : (s.emit x).bridges = s.bridges := by unfold State.emit; split <;> rfl
@[simp] theorem State.free_bridges : s.free.2.bridges = s.bridges := rfl
@[simp] theorem State.wrB_bridges (a : Nat) (v : Byte) : (s.wrB a v).bridges = s.bridges := by unfold State.wrB; split <;> rfl
@[simp] theorem State.emit_rg (x : Output) (o : Nat) : (s.emit x).rg o = s.rg o := by simp [State.rg]
@[simp] theorem State.emit_cl (x : Output) (m : Nat) : (s.emit x).cl m = s.cl m := by simp [State.cl]
@[simp] theorem State.emit_rdB (x : Output) (a : Nat) : (s.emit x).rdB a = s.rdB a := by simp [State.rdB]
@[simp] theorem State.free_rg (o : Nat) : s.free.2.rg o = s.rg o := by simp only [State.rg, State.free_regs]
@[simp] theorem State.free_cl (m : Nat) : s.free.2.cl m = s.cl m := by simp only [State.cl, State.free_clusters]

/-! ### What an update writes -/

@[simp] theorem State.setTime_time (x : TimeSt) : (s.setTime x).time = x := rfl
@[simp] theorem State.setPower_power (x : PowerSt) : (s.setPower x).power = x := rfl
@[simp] theorem State.setMgmt_mgmt (x : MgmtSt) : (s.setMgmt x).mgmt = x := rfl
@[simp] theorem State.setStep_step (x : Option StepSt) : (s.setStep x).net.step = x := rfl

/-- A register reads what was last written to it, and every other as before. -/
theorem State.rg_wrg (o off : Nat) (v : Word) : (s.wrg off v).rg o = if o = off then v else s.rg o := by
  unfold State.rg State.wrg
  by_cases h : o = off
  · subst h; simp
  · simp only [if_neg h]
    unfold mput
    split
    · rw [tget_tdel]; simp [h]
    · rw [tget_tput]; simp [h]

theorem State.rg_setF (o : Nat) (x : Fld) (k : Nat) :
    (s.setF x k).rg o = if o = x.off then setBits (s.rg x.off) x.hi x.lo k else s.rg o := s.rg_wrg o x.off _

theorem State.rg_incN (o off k : Nat) : (s.incN off k).rg o = if o = off then s.rg off + BitVec.ofNat 32 k else s.rg o := s.rg_wrg o off _

/-- A cluster reads what was last stored for it, and every other as before. -/
theorem State.cl_setCl (m n : Nat) (c : ClusterSt) : (s.setCl n c).cl m = if m = n then c else s.cl m := by
  simp [State.cl, State.setCl]

theorem State.cl_upCl (m n : Nat) (f : ClusterSt → ClusterSt) : (s.upCl n f).cl m = if m = n then f (s.cl n) else s.cl m :=
  s.cl_setCl m n _

@[simp] theorem State.cl_setCl_same (n : Nat) (c : ClusterSt) : (s.setCl n c).cl n = c := by simp [State.cl_setCl]
@[simp] theorem State.cl_upCl_same (n : Nat) (f : ClusterSt → ClusterSt) : (s.upCl n f).cl n = f (s.cl n) := by simp [State.cl_upCl]

/-- A byte of DRAM reads what was last written there (R489). -/
theorem State.rdB_wrB (a b : Nat) (v : Byte) : (s.wrB a v).rdB b = if b = a ∧ a < dramSize then v else s.rdB b := by
  unfold State.wrB State.rdB
  split <;> rename_i h
  · simp only [tget_mput, h, and_true]
  · simp [h]

theorem OnlyCl.setCl (n : Nat) (c : ClusterSt) : OnlyCl s (s.setCl n c) n :=
  ⟨rfl, fun m h => by simp [State.cl_setCl, h]⟩

theorem CtxSet.setCtx (c : ClusterSt) (k : Nat) (y : Ctx) : CtxSet c (c.setCtx k y) k y :=
  ⟨by simp [ClusterSt.ctx, ClusterSt.setCtx], fun j h => by simp [ClusterSt.ctx, ClusterSt.setCtx, h]⟩

/-- A slot that issues has its own effect on the state in which a due single step is done. -/
theorem State.issue_of_issues {s : State} {n k : Nat} {x : SlotCtl} {on : Bool} (h : s.issues n k x on) (f : Nat → Bool → State → State) :
    s.issue n x f = .next (f k on (s.upCl n fun c => { c with stepOne := false })) := by
  obtain ⟨h1, h2, h3, h4, h5⟩ := h
  unfold State.issue
  simp only [h1, h2, h3, h5]
  rcases h4 with h4 | h4 <;> simp [h4]

/-- A slot that reads scratchpad has its effect when no pending write meets its lines. -/
theorem State.readSlot_of_mayRead {s : State} {n : Nat} {rs : List (Nat × Nat)} (h : (s.cl n).mayRead rs) (k : Nat) (x : SlotCtl)
    (f : State → State) : s.readSlot n k x rs f = f s := by
  unfold State.readSlot
  simp only [h.1, h.2]
  rfl

end

end Sys2Proof.Machine
end

