-- ==== Sys2Proof/WellFormed.lean ====
section
/-! DEFINITION. Which commands the outside world can form: the bounds of operands that their types do not give. The machine answers the others
too; no command's meaning rests on them. -/

namespace Sys2Proof

/-- A list of unit numbers names each at most once, and only units that exist. -/
def unitsOk (n : Nat) (l : List Nat) : Bool := l.all (fun k => decide (k < n)) && decide l.Nodup

/-- A packet's header and operation block have 8 words each (Tables 13.2 and 13.3), and its payload at most 4,096 bytes (R433). -/
def FlPacket.wellFormed (p : FlPacket) : Bool :=
  decide (p.hdr.length = 8) && decide (p.op.length = 8) && decide (p.data.length ≤ 4096)

/-- A datagram's header has the 8 words of Table 12.3, and a frame has at most 9,216 bytes (R400). -/
def Datagram.wellFormed (d : Datagram) : Bool := decide (d.hdr.length = 8) && decide (d.payload.length ≤ 9216)

/-- A frame's datagram, where it carries one. -/
def FrameKind.wellFormed : FrameKind → Bool
  | .udp d .. => d.wellFormed
  | _ => true

/-- A packet of a tile carries 1 to 1,024 bytes, and its number is within their count; a NULL tile carries none (R274). -/
def TilePkt.wellFormed (k : TilePkt) : Bool := decide (k.data.length ≤ 1024) && decide (k.index.val < k.total) && (! k.isNull || k.data.isEmpty)

/-- What a boot stage finds names units that exist. -/
def BootFact.wellFormed : BootFact → Bool
  | .selfTest c b _ => unitsOk 576 c && b.all fun x => decide (x.1 < 576) && decide (x.2 < 32)
  | .dram d => unitsOk 8 d
  | .store h _ => unitsOk 131072 (h.map fun x => x.1)
  | _ => true

/-- The check of a command's operands. Constructors whose operands are bounded by their types have none to check. -/
def Instr.wellFormed : Instr → Bool
  | .dramWriteArrive _ _ _ _ _ addr data => decide (data.length ≤ 64 - addr.toNat % 64)
  | .elasticAccess _ _ data => decide (data.length ≤ 64)
  | .tilePacketArrive _ k => k.wellFormed
  | .counterSignal _ _ bytes _ | .sqDoorbell _ _ bytes _ | .cqDoorbell _ _ bytes _ | .stagedTailWrite _ _ bytes _ => decide (1 ≤ bytes) && decide (bytes ≤ 8)
  | .descriptorFetch _ words => decide (words.length = 16)
  | .bar4Access w _ len data _ => if w then decide (data.length = len) else data.isEmpty
  | .storeErase failing | .storeFormat failing => unitsOk 131072 failing
  | .repairScan c b => unitsOk 576 c && unitsOk 576 b
  | .ethFrameReceive _ _ f _ => f.kind.wellFormed
  | .pfcReceive _ _ _ quanta => decide (quanta.length = 8)
  | .sesOpen _ d | .req _ d | .ack _ d | .poll _ d | .close _ d | .keepalive _ d => d.wellFormed
  | .linkBlockReceive _ _ _ credits _ => decide (credits.length = 4)
  | .flaridHeadArrive _ p | .read _ p | .write _ p | .atomicAdd _ p | .counterAdd _ p | .mcastWrite _ p | .mcastFrame _ p => p.wellFormed
  | .readData p | .flAck p | .nack p | .notice p | .flReturn p => p.wellFormed
  | .powerControlPeriod _ _ cmds => decide (cmds.length = 32)
  | .thermalSample temps => decide (temps.length = 5)
  | .bootStageEnd f => f.wellFormed
  | .recoveryWrite _ _ data => decide (data.length ≤ 224)
  | _ => true

end Sys2Proof
end

