-- ==== Sys2Proof/Tests/Slice0.lean ====
section
/-! SUPPORT. Tests: operands that WellFormed refuses; examples of the spec; and, for every statement with hypotheses, states and operands that meet the
hypotheses of each of its clauses. -/

namespace Sys2Proof.Tests

set_option Elab.async false

open Sys2Proof Sys2Proof.Machine

/-! ### Small states -/

/-- The module is ready. -/
def up : State := State.reset.setF Reg.GS_STATUS_READY 1

/-- The state after a command. -/
def after (c : Instr) (s : State) : State := match exec c s with
  | .next t => t
  | _ => s

/-- A plane that is ACTIVE, with words by byte offset. -/
def actPlane (ws : List (Nat × Word)) : Plane := { noPlane with st := 3, words := ws.foldl (fun t e => tput t (e.1 / 4) e.2) [] }

/-- A cluster that runs context 0 of an ACTIVE plane 0. -/
def runCl (ws : List (Nat × Word)) : ClusterSt :=
  { noCluster with planes := [(0, actPlane ws)], ctxs := [(0, { noCtx with st := .running })], cur := some 0 }

/-- A slot without a predicate, and one whose predicate bit 1 is clear. -/
def always : SlotCtl := ⟨0, false, false⟩
def never : SlotCtl := ⟨1, false, false⟩

/-- Cluster 575 runs such a context. -/
def s0 : State := up.setCl 575 (runCl [])

/-! ### Steps, slots and units of a cluster -/

theorem witness_EmptyQueueLetsTimePass : up.pending = [] ∧ up.inCold = false ∧ (after (.coldReset false) up).pending = [] ∧
    (after (.coldReset false) up).inCold = true := by decide +kernel

theorem witness_EveryCommandKeepsWhatNoCommandTouches : exec (.nop 0 always) up = .next up := rfl

theorem witness_EveryStepKeepsMemoryForm : Goes up up.tick ∧ up.Wf := ⟨rfl, by decide +kernel⟩

theorem witness_DramAddressesReachTheStackThatR489Says :
    0xFFFFFFFFFF < 384 * 2 ^ 32 ∧ (0 : Nat) ≠ 4096 ∧ 384 * 2 ^ 30 ≤ (384 * 2 ^ 30 : Nat) ∧ 1 < [0x12#8, 0x34#8].length ∧
    96 * 2 ^ 30 * 3 ≤ (96 * 2 ^ 30 * 3 + 4095 : Nat) ∧ 96 * 2 ^ 30 * 3 + 4095 + 4096 < (96 * 2 ^ 30 * 4 : Nat) := by decide

theorem witness_ControlSlotsMoveTheirContextOrGiveUpTheSequencer : s0.issues 575 0 always true ∧ s0.issues 575 0 never false ∧
    (s0.cl 575).mayRead [lineRange 0x7FFFFF (0x7FFFFF + 1)] := by decide +kernel

/-- A queue that is full. -/
def someMat (o : MatArg) : MatOp := matOpOf o 1 0 true noCluster
def anArg : MatArg := ⟨0, 4, 4, 1, 1, false, false, false, false, 0⟩
def aVec : VecArg := ⟨0, 4, 4, 4, 0, 0, 0, false, false, false, 0, 0, 0⟩
def s1 : State := up.setCl 575 { runCl [] with arrayQ := some (someMat anArg), vecQ := some (vecOpOf aVec 1 0 true noCluster) }

theorem witness_MatrixAndVectorSlotsQueueTheirOperation :
    s0.issues 575 0 always true ∧ (s0.cl 575).loaderQ = none ∧ (s0.cl 575).arrayQ = none ∧ (s0.cl 575).vecQ = none ∧
    (let c := s0.cl 575
     let p := c.plane 0
     c.mayRead [lineRange (p.extLo 15 1) (p.extHi 15 1)] ∧ c.mayRead [lineRange (p.extLo 15 0) (p.extHi 15 0)] ∧
       c.mayRead (p.vecReads (vecOpOf aVec 0x29 0 true c))) ∧
    s1.issues 575 0 always true ∧ (s1.cl 575).arrayQ.isSome = true ∧ (s1.cl 575).vecQ.isSome = true := by decide +kernel

/-- A cluster with an MMA of one row and one k on a loaded tile, and a LOADW, with operand extents of 4 KiB. -/
def mmaPlane : List (Nat × Word) := [(0x8040, 0x03F00000#32), (0x80F8, 0x1000#32), (0x8108, 0x1000#32), (0x8118, 0x1000#32), (0x8128, 0x1000#32)]
def mmaOp : MatOp := someMat anArg
def oneTile : WTile := ⟨4, true, true, [(0, 3)], [], 7⟩
def mmaCl : ClusterSt := { runCl mmaPlane with arrayQ := some mmaOp, tile0 := oneTile, sp := [(0, 5#8)] }
def s2 : State := up.setCl 0 mmaCl

theorem witness_MmaGivesEveryColumnItsSum :
    (s2.cl 0).arrayQ = some mmaOp ∧ mmaOp.on = true ∧ mmaOp.mop = 1 ∧ mmaCl.arrayMayStart mmaOp = true ∧ s2.isFenced 0 = false ∧
    mmaCl.active.loaded = true ∧ mmaCl.active.fmt = mmaOp.fmtW ∧ (mmaCl.bank ((mmaCl.plane 0).opBank mmaOp)).closed = false ∧
    (mmaCl.plane 0).opBank mmaOp < 2 ∧
    (∀ i, i < mmaOp.rows → (mmaCl.readAct (mmaCl.plane 0) mmaOp { mmaCl.ctx 0 with idx := mmaOp.idx } i).2 = none) := by decide +kernel

/-- 3 times 5 in INT8 is 15 (R113, R118). -/
theorem test_mma : tget 0 ((after (.matrixOpStart 0 false .none .clean none) s2).cl 0).bank1.data 0 = 15#32 := by decide +kernel

def loadCl (on : Bool) : ClusterSt := { runCl mmaPlane with loaderQ := some { mmaOp with mop := 0, on := on } }
def restCl : ClusterSt :=
  { runCl mmaPlane with
    loading := some { mmaOp with mop := 0, order := 7 }, tile1 := oneTile, arrays := [⟨mmaOp, [1], true, []⟩], epiQ := [⟨mmaOp, [1], true, []⟩] }
def epiCl : ClusterSt := { runCl mmaPlane with epiRun := some ⟨mmaOp, [1], true, []⟩ }

theorem witness_MatrixUnitTakesItsOperationsOn :
    (let c := loadCl true
     c.loadMayStart { mmaOp with mop := 0 } = true ∧ (up.setCl 575 c).isFenced 575 = false ∧
       (c.loadRows (c.plane 0) c.bkt { mmaOp with mop := 0 } { c.ctx 0 with idx := mmaOp.idx } ((c.plane 0).bound c.bkt 0 ((c.plane 0).levelAt 0 0)) 0
         (⟨4, true, false, [], [], 0⟩, 0, none)).2.2 = none) ∧
    (loadCl false).loaderQ = some { mmaOp with mop := 0, on := false } ∧ (loadCl false).loadMayStart { mmaOp with mop := 0, on := false } = true ∧
    restCl.loading = some { mmaOp with mop := 0, order := 7 } ∧ restCl.shadow.order = 7 ∧ restCl.shadow.loaded = true ∧
    restCl.arrays = [⟨mmaOp, [1], true, []⟩] ∧ restCl.mxuFault = false ∧
    restCl.epiRun = none ∧ restCl.epiQ = [⟨mmaOp, [1], true, []⟩] ∧ restCl.used false + ((restCl.plane 0).epiRanges mmaOp).length ≤ 8 ∧
    (let x := restCl.enter false ((restCl.plane 0).epiRanges mmaOp)
     let seed := srSeed ((restCl.plane 0).w (0x9A40 + 36)) 0 0 0
     ((up.setCl 0 { x.1 with epiQ := [], epiRun := some ⟨mmaOp, [1], true, x.2⟩ }).epiRows 0 mmaOp (restCl.preamble (restCl.plane 0) 0) 1 1 0 seed).2 = none) ∧
    epiCl.epiRun = some ⟨mmaOp, [1], true, []⟩ ∧ up.open ∧ up.awake := by decide +kernel

def vecOp (on : Bool) : VecOp := { vecOpOf aVec 1 0 on noCluster with srcA := 3, srcB := 3 }
def vecCl (on : Bool) : ClusterSt := { runCl mmaPlane with vecQ := some (vecOp on) }
def sumCl : ClusterSt := { runCl [] with sumsq := some ⟨true, 0x7FFFF0, [1, 2, 3, 4], 0, 0, []⟩, cur := none, ctxs := [] }

theorem witness_VectorUnitRunsABeat :
    (vecCl true).vecMayStart (vecOp true) = true ∧ (up.setCl 575 (vecCl true)).isFenced 575 = false ∧
    (let c := { vecCl true with vecQ := none }
     let p := c.plane 0
     let y := { c.ctx 0 with idx := (vecOp true).idx }
     p.positions c.bkt 0 = 1 ∧ ((List.range 1).map (c.lane p (vecOp true) y)).all fun l => l.active && l.faults.isEmpty) ∧
    (vecCl false).vecMayStart (vecOp false) = true ∧ (vecOp false).on = false ∧ (vecOp false).sumsq = false ∧
    sumCl.sumsq = some ⟨true, 0x7FFFF0, [1, 2, 3, 4], 0, 0, []⟩ ∧ (∀ k, k < 32 → (sumCl.ctx k).st ≠ .waiting) := by decide +kernel

theorem witness_IntegerLanesGiveTheExactResult :
    (0x7FFFFFFF#32).toInt + (0#32).toInt ≤ 2 ^ 31 - 1 ∧ 2 ^ 31 - 1 < (0x7FFFFFFF#32).toInt + (1#32).toInt ∧
    (0x80000000#32).toInt - (1#32).toInt < -2 ^ 31 ∧ -2 ^ 31 ≤ (0x80000000#32).toInt * (1#32).toInt ∧
    (127#32).toInt ≤ 2 ^ 7 - 1 ∧ 2 ^ 7 - 1 < (128#32).toInt ∧ (0xFFFFFFF7#32).toInt < -2 ^ 3 := by decide

theorem witness_ShiftLanesTakeEveryAmount :
    32 ≤ (32#32).toNat ∧ (0x40000000#32).toInt * 2 ^ (1#32).toNat > 2 ^ 31 - 1 ∧ (0x80000000#32).toInt * 2 ^ (1#32).toNat < -2 ^ 31 ∧
    -2 ^ 31 ≤ (0xC0000000#32).toInt * 2 ^ (1#32).toNat ∧ (0x3FFFFFFF#32).toInt * 2 ^ (1#32).toNat ≤ 2 ^ 31 - 1 := by decide

/-! ### Scratchpad, switches, counters, barriers, channels and streams -/

/-- The state with cluster 575, or with a step in progress. -/
def on575 (c : ClusterSt) : State := up.setCl 575 c
def aStep : StepSt := ⟨0, 0, 0, 0, [], 0, 0, 0, [], [], false, false, false, false, [], 0, []⟩
def inStep (s : State) : State := s.setStep (some aStep)
def busyPwr : State := up.setF Reg.PWR_STATUS_STATE 3

theorem witness_ScratchpadServesItsRequesters :
    up.isFenced 575 = false ∧ (0x5FFFC0#23).toNat + 63 < 0x600000 ∧ up.fd Reg.PWR_STATUS_STATE ≠ 3 ∧
    ((on575 { noCluster with migrating := some (31, false) }).cl 575).migrating = some (31, false) ∧
    (let s := on575 { noCluster with zero := [⟨[(0, 0x600000)], true, true, none⟩] }
     (s.cl 575).zero ≠ [] ∧ (s.cl 575).zeroing = false ∧ s.zeroingIn 31 < 4) ∧
    (let c := (on575 { noCluster with zero := [⟨[(0, 64)], true, true, none⟩], zeroing := true }).cl 575
     c.zeroing = true ∧ c.zero = [⟨[(0, 64)], true, true, none⟩]) ∧
    (up.setF (Reg.SP_DBG_ADDR_WORD_ADDR 575) 0x17FFFF).dbgAddr 575 < 0x600000 ∧ up.open ∧ up.awake ∧ up.seqState 575 = 0 ∧ s0.seqState 575 = 1 := by
  decide +kernel

theorem test_elasticAccess : ((after (.elasticAccess 575 0x5FFFFF#23 [7#8, 9#8]) up).cl 575).rd 0x5FFFFF = 7#8 := by decide +kernel

def swCl : ClusterSt := { noCluster with ctxs := [(5, { noCtx with st := .ready })], switching := some 5 }
def inPlane (st inst sect : Nat) : Plane := { noPlane with st := st, inst := inst, sect := sect }
def psCl (zeroing : Bool) (inst : Nat) : ClusterSt :=
  { noCluster with planes := [(0, inPlane 3 1 1), (1, inPlane 2 inst 2)], switch := some ⟨0, 2, inst, false, zeroing⟩ }

/-- Section 2 of slot 0 is RESIDENT on every cluster, and cluster 575 holds a given state. -/
def everywhere2 (c : ClusterSt) : State :=
  inStep { up with clusters := (List.range 576).map fun n => (n, if n = 575 then c else { noCluster with planes := [(0, inPlane 2 0 2)] }) }

theorem witness_SwitchesAndDebugControls :
    (let s := on575 swCl
     (s.cl 575).switching = some 5 ∧ (s.cl 575).stopped = false ∧ s.isFenced 575 = false ∧ ((s.cl 575).ctx 5).st = .ready) ∧
    up.open ∧ up.awake ∧ (up.setF (Reg.SEQ_DEBUG_HALT 575) 1).on (Reg.SEQ_DEBUG_HALT 575) = true := by decide +kernel

theorem witness_SwitchesAndDebugControls_owner :
    let s := everywhere2 (psCl false 0)
    s.switchReady 575 ⟨0, 2, 0, false, false⟩ = true ∧ (s.cl 575).otherOwner ⟨0, 2, 0, false, false⟩ = true ∧ s.net.step = some aStep ∧
      (s.cl 575).planesOf 0 2 [3] = [] ∧ (s.cl 575).switch = some ⟨0, 2, 0, false, false⟩ := by decide +kernel

theorem witness_SwitchesAndDebugControls_zeroed :
    let s := everywhere2 (psCl true 0)
    s.switchReady 575 ⟨0, 2, 0, false, true⟩ = true ∧ (s.cl 575).switch = some ⟨0, 2, 0, false, true⟩ := by decide +kernel

theorem witness_SwitchesAndDebugControls_same :
    let s := everywhere2 (psCl false 1)
    s.switchReady 575 ⟨0, 2, 1, false, false⟩ = true ∧ (s.cl 575).otherOwner ⟨0, 2, 1, false, false⟩ = false := by decide +kernel

def actCl : ClusterSt := { noCluster with planes := [(0, inPlane 3 0 2)], switch := some ⟨0, 2, 0, false, false⟩ }

theorem witness_SwitchesAndDebugControls_active :
    (everywhere2 actCl).switchReady 575 ⟨0, 2, 0, false, false⟩ = true ∧ actCl.planesOf 0 2 [3] = [0] := by decide +kernel

theorem witness_SwitchesAndDebugControls_waits :
    (inStep (on575 actCl)).switchReady 575 ⟨0, 2, 0, false, false⟩ = false ∧ (inStep (on575 actCl)).startable 0 2 = false := by
  decide +kernel

/-- A plane whose counter binding 0 is of a kind. -/
def bindCl (kind : Word) : ClusterSt := runCl [(4, 1#32), (0x9640, 0x80000000#32 ||| (kind <<< 29) ||| 5#32)]

theorem witness_ClusterCountersAdvanceAndAreWaitedFor :
    (let s := on575 (bindCl 0)
     let p := (s.cl 575).plane 0
     s.issues 575 0 always true ∧ s.issues 575 0 never false ∧ p.cb 0 0 30 29 = 0 ∧ p.counter 0 0 = 5 ∧ s.cc 575 5 + 65535 ≤ counterMax ∧
       (∀ e ∈ (s.cl 575).pairs, (s.setCc 575 5 65535 (clusterStop 575)).pairDrift 575 e = none) ∧ (s.cl 575).quiet) ∧
    (let s := inStep (on575 (bindCl 3))
     s.issues 575 0 always true ∧ 2 ≤ ((s.cl 575).plane 0).cb 0 0 30 29 ∧ s.net.step = some aStep) ∧
    s0.counterMet 575 0 0 0 false 0 = true ∧ s0.counterMet 575 0 0 0 false 0xFFFFFFFF = false ∧
    up.gen 63 = 0 ∧ (up.cl 575).step = 0 ∧ (up.cl 575).attempt = 0 ∧ up.net.step = none ∧ up.cc 575 63 < (0xFFFFFFFFFFFF#48).toNat ∧
    (up.cl 575).pairs = [] ∧ (up.cl 575).quiet := by decide +kernel

theorem test_csig : (after (.csig 575 always 0 65535#16) (on575 (bindCl 0))).cc 575 5 = 65535 := by decide +kernel

def setByHand : State :=
  ((((up.wrg Reg.CNT_SET_VAL_LO 1).wrg Reg.CNT_SET_VAL_N_LO 0xFFFFFFFE#32).setF Reg.CNT_SET_VAL_HI_VALUE 65535).setF Reg.CNT_SET_VAL_N_HI_VALUE_N 0).setF
    Reg.CNT_SET_TARGET_PCLUSTER 575

theorem witness_CountersAreSetByHandAndIdleClustersLend :
    up.open ∧ bits (up.rg (Reg.PC_CTRL 4095)) 28 22 = bits (2047#32) 28 22 ∧ bits (2047#32) 10 0 < 2048 ∧
    (up.plain (Reg.PC_CTRL 4095) 2047#32).on (Reg.PC_CTRL_IRQ_ARM 4095) = false ∧
    bits (up.rg (Reg.PC_CTRL 5)) 28 22 ≠ bits (0x10000000#32) 28 22 ∧ up.pkgBound 5 = false ∧ (on575 (bindCl 2)).pkgBound 5 = true ∧
    (on575 (bindCl 2)).open ∧
    (let s := setByHand
     s.open ∧ s.rg Reg.CNT_SET_VAL_N_LO = ~~~(s.rg Reg.CNT_SET_VAL_LO) ∧ s.fd Reg.CNT_SET_VAL_N_HI_VALUE_N = 65535 - s.fd Reg.CNT_SET_VAL_HI_VALUE ∧
       s.on Reg.CNT_SET_TARGET_PKG = false ∧ s.fd Reg.CNT_SET_TARGET_PCLUSTER = 575 ∧ s.fd Reg.CNT_SET_TARGET_INDEX = 0 ∧
       (s.cl 575).counterLocked 0 = false ∧ s.cc 575 0 < 1 + 2 ^ 32 * 65535 ∧ (s.cl 575).pairs = [] ∧ (s.cl 575).quiet) ∧
    (up.cl 575).lending = none ∧ up.on (Reg.SEQ_DEBUG_HALT 575) = false ∧ up.on Reg.PWR_CTRL_MODE = false ∧ (up.cl 575).running = none ∧
    (up.cl 575).switching = none ∧ (up.cl 575).unitsIdle = true := by decide +kernel

/-- A program whose section 0 has a BARRIER slot naming barrier 14 on logical cluster 511. -/
def barSlot : ProgSlot := { noSlot with phase := 2, planes := [(8 * 511, [(17, 0xB000E000#32)])] }
def barState (gated arrived : Bool) : State :=
  let s := (inStep up).setSlot 0 barSlot
  let s := if gated then (s.wrg (Reg.AE_WORD 7 0) 0xA0000000#32).wrg (Reg.AE_WORD 7 3) 0x000E0000#32 else s
  s.setBar 14 ⟨if arrived then [511] else [], [], 0, gated⟩

theorem witness_BarriersGatherAndRelease :
    s0.issues 575 0 never false ∧
    (let s := barState false true
     s.net.step = some aStep ∧ s.participants 0 0 14 = [511] ∧ (s.bar 14).arrived.contains 511 = true ∧ s.barrierGated 0 14 = false) ∧
    (let s := barState true true
     s.participants 0 0 14 = [511] ∧ (s.bar 14).arrived.contains 511 = true ∧ s.barrierGated 0 14 = true ∧ (s.bar 14).latched = true) ∧
    (let s := (inStep up).setBar 14 ⟨[], [0], 0, false⟩
     s.net.step = some aStep ∧ s.lcsOf 0 = [0] ∧ (s.bar (barKey 0 14)).releasing.contains 0 = true ∧ s.gen 0 = 0 ∧ (s.cl 0).stopped = false) := by
  decide +kernel

def sendCl (credits : Nat) (ws : List (Nat × Word)) : ClusterSt := { runCl ws with sends := [(28, ⟨true, credits, 0, 1, 0⟩)] }
def aTile (q : Nat) (taken : Bool) : Tile := ⟨q, 1, [0], false, false, 0, taken, none, 64, [], []⟩
def recvCl (l : List Tile) : ClusterSt := { runCl [(0x9620, 0x80002000#32)] with recvs := [(28, ⟨l, 0, false⟩)] }
def haloPlane : List (Nat × Word) := [(4, 0x00080000#32), (68, 0x10000080#32)]
def aPkt : TilePkt := ⟨7, 0, 0, 0, 15, 16, false, false, 0, 0, 0, [], [1, 2, 3]⟩

theorem witness_ChannelsMoveTilesAndCredits :
    (let s := on575 (sendCl 1 haloPlane)
     let c := s.cl 575
     s.issues 575 0 always true ∧ s.issues 575 0 never false ∧ (c.sendEp (epKey 0 7)).credits ≠ 0 ∧
       c.mayRead [lineRange 0x5FC000 (0x5FC000 + 64 * 256)] ∧ (c.plane 0).operandFmt 0 ((c.plane 0).slab c.bkt 0 0 false true).op = some 4 ∧
       (c.readSlab 0 0 4 ((c.plane 0).slab c.bkt 0 0 false true)).2 = none ∧ c.mayRead []) ∧
    ((on575 (sendCl 0 [])).cl 575 |>.sendEp (epKey 0 7)).credits = 0 ∧ (on575 (sendCl 0 [])).issues 575 0 always true ∧
    ((on575 (recvCl [aTile 0 false])).cl 575 |>.recvEp (epKey 0 7)).next = some (aTile 0 false) ∧ (on575 (recvCl [aTile 0 false])).issues 575 0 always true ∧
    ((on575 (recvCl [])).cl 575 |>.recvEp (epKey 0 7)).next = none ∧
    (let r := (on575 (recvCl [aTile 0 true])).cl 575 |>.recvEp (epKey 0 7)
     r.tiles.find? (·.taken) = some (aTile 0 true) ∧ ∀ y ∈ r.tiles, y.spilledAt = none) ∧
    (let s := on575 (recvCl [])
     let c := s.cl 575
     s.isFenced 575 = false ∧ aPkt.gen.toNat = s.gen aPkt.inst ∧ aPkt.attempt.toNat = c.attempt % 256 ∧ (c.plane 0).st = 3 ∧ (c.plane 0).haloOf 7 = none ∧
       (c.recvEp (epKey 0 7)).occupied ((c.plane 0).bpc 7) 0 = false ∧ (c.recvEp (epKey 0 7)).tiles = [] ∧ c.quiet) ∧
    (let s := on575 (sendCl 0 [(0x9520, 0x800#32)])
     ((s.cl 575).sendEp (epKey 0 7)).credits < ((s.cl 575).plane 0).sb 7 14 11 ∧ (s.cl 575).quiet ∧
       ((s.cl 575).sendEp (epKey 0 7)).takeGot < ((s.cl 575).sendEp (epKey 0 7)).takeSent) ∧
    (let s := ((up.setCl 0 (runCl [(0x9540, 0xE000#32)])).setCl 1
        { runCl [] with streams := [(60, { noStrm with credits := some 6 })] })
     s.feedLimit ((s.cl 1).plane 0) 15 = 7 ∧ ((s.cl 1).strm (strmKey 0 15)).credits.getD 7 < 7 ∧ s.isFenced 1 = false) := by decide +kernel

/-- A plane with stream descriptor 15: kind, one row of one line, two blocks, from DRAM address 0 to scratchpad address 64. -/
def strPlane (kind : Word) : List (Nat × Word) :=
  [(0x9400, (kind <<< 29) ||| 0x00100001#32), (0x9404, 1#32), (0x9408, 2#32), (0x9420, 64#32)]
def strCl (kind : Word) (y : Strm) : ClusterSt := { runCl (strPlane kind) with streams := [(60, y)] }
def started : Strm := { noStrm with b := 2, started := true }
def window (s : State) : State := ((s.setF (Reg.WIN_BASE_EN 0 7) 1).setF (Reg.WIN_SIZE_SIZE 0 7) 1)
def zeroed (s : State) : State := { s with mem := { s.mem with zeroNext := 1 } }

theorem witness_StreamsStartAndPassTheirBlocks :
    (let s := on575 (strCl 0 noStrm)
     let c := s.cl 575
     s.issues 575 0 always true ∧ s.issues 575 0 never false ∧ (c.strm (strmKey 0 15)).b ≤ (c.strm (strmKey 0 15)).p ∧ (c.plane 0).sd 15 0 28 28 ≠ 1) ∧
    (let c := (on575 (strCl 1 noStrm)).cl 575
     (c.plane 0).sKind 15 = 1 ∧ c.mayRead [(c.plane 0).sRange 15 ((c.plane 0).sBlocks c.bkt 15)]) ∧
    (let y := ((on575 (strCl 0 { started with p := 1 })).cl 575).strm (strmKey 0 15)
     y.t ≠ y.b ∧ y.t + 1 ≤ y.p ∧ y.p ≠ y.b) ∧
    (let y := ((on575 (strCl 0 started)).cl 575).strm (strmKey 0 15)
     y.t ≠ y.b ∧ y.p < y.t + 1 ∧ y.p ≠ y.b) ∧ ((up.cl 575).strm 60).p = ((up.cl 575).strm 60).b ∧
    (let c := (on575 (strCl 0 { started with t := 1, p := 1 })).cl 575
     (c.plane 0).sSlots 15 ≠ 0 ∧ (c.plane 0).sKind 15 ≠ 2 ∧ (c.strm (strmKey 0 15)).a + 1 ≤ (c.strm (strmKey 0 15)).t) ∧
    (let s := zeroed (window (inStep (on575 (strCl 0 started))))
     let pl := (s.cl 575).plane 0
     let y := (s.cl 575).strm (strmKey 0 15)
     s.net.step = some aStep ∧ pl.slot = aStep.slot ∧ y.started = true ∧ y.faulted = false ∧ y.next < y.b ∧ s.blockGate pl 15 y = true ∧
       s.blockBase aStep pl 0 15 0 = some ⟨0, none, true⟩ ∧ pl.sKind 15 < 2 ∧ pl.sBlockLines 15 ⟨0, none, true⟩ 0 = [(0, 64)] ∧
       s.lineOk 0 ⟨0, none, true⟩ 0 = true) ∧
    (let s := zeroed (window (inStep (on575 (strCl 0 { started with next := 1, flying := [0] }))))
     let pl := (s.cl 575).plane 0
     ((s.cl 575).strm (strmKey 0 15)).flying.contains 0 = true ∧ pl.sKind 15 = 0 ∧ s.blockBase aStep pl 0 15 0 = some ⟨0, none, true⟩ ∧
       pl.sBlockLines 15 ⟨0, none, true⟩ 0 = [(0, 64)] ∧ s.rangeReady 0 64 = true ∧ pl.sd 15 12 31 31 = 0 ∧ (s.cl 575).quiet) ∧
    up.open ∧ up.runInProgress = false ∧ (∀ d, d < 4 → bits (0xAA#32) (2 * d + 1) (2 * d) ≠ 3) ∧ (inStep up).runInProgress = true ∧ (inStep up).open := by
  and_intros <;> decide +kernel

/-! ### Registers, the mesh and DRAM -/

theorem witness_RegisterWritesFollowTheirAccessTypes :
    up.open ∧ Reg.SES_SEL < 0xD00000 ∧ sizeOk 0xCFFFFE 4 = false ∧
    (State.reset.on Reg.GS_STATUS_READY = false ∧ (0xCFFFFC#24).toNat ≠ Reg.GS_SETUP) ∧
    (let s := up.setF Reg.MAINT_STATUS_BUSY 1
     s.on Reg.GS_STATUS_READY = true ∧ s.on Reg.MAINT_STATUS_BUSY = true ∧ (0x308100#24).toNat ≥ 0x308100 ∧ (0x2FFFFC#24).toNat < 0x300000) ∧
    (0xFFFFF8#24).toNat % 8 = 0 ∧ 0xD00000 ≤ (0xD00000#24).toNat := by
  decide +kernel

theorem witness_RegisterWritesOfEightBytes :
    let off := BitVec.ofNat 24 Reg.TB_OFFSET
    (after (.registerWrite off 4 0x500000002#64 false) up).open ∧
    exec (.registerWrite off 4 0x500000002#64 false) up = .next (after (.registerWrite off 4 0x500000002#64 false) up) := ⟨by decide +kernel, rfl⟩

theorem witness_ReadsAnswerAndLatchTheirPartners :
    up.readServed 0xFFFFFC = true ∧ dbgData 0xFFFFFC = false ∧ thas up.host.latches (latchKey true 0xFFFFFC) = false ∧
    up.readServed Reg.TB_NOW_TURN = true ∧ setsLatch Reg.TB_NOW_TURN = true ∧
    (after (.latchedRead false (BitVec.ofNat 24 Reg.TB_NOW_TURN) 4) up).host.latches ≠ [] ∧ up.readServed (Reg.PC_VALUE_LO 4095) = true ∧
    setsLatch (Reg.PC_VALUE_LO 4095) = true ∧ Reg.PC_VALUE_LO 4095 % 8 = 0 ∧
    (up.setF Reg.GS_STATUS_RECOVERY 1).on Reg.GS_STATUS_RECOVERY = true := by decide +kernel

def meshPkt (dst : BitVec 16) : MeshPkt := ⟨dst, 0, 0, 4095, 0, 0⟩

theorem witness_MeshAndBridgesCarryPackets :
    stopKind (meshPkt 0x8400#16).dst.toNat ≠ 0 ∧
    (let p := meshPkt (BitVec.ofNat 16 (clusterStop 575))
     stopKind p.dst.toNat = 0 ∧ stopCluster p.dst.toNat = 575 ∧ up.isFenced 575 = false ∧
       ({ up with repair := { up.repair with fenced := [575] } } : State).isFenced 575 = true) ∧
    { up with mesh := [meshPkt 0] }.mesh[0]? = some (meshPkt 0) ∧ (tget noBridge up.bridges 15).failed.contains 255 = false ∧
    (tget noBridge (after (.bridgeGroupFail 7 1 255) up).bridges 15).failed.contains 255 = true := by decide +kernel

theorem test_age : (after (.ageIncrement 0) { up with mesh := [⟨0, 0, 0, 4094, 0, 0⟩] }).mesh = [meshPkt 0] := by decide +kernel

/-- The state with zeroed pages 0 and 196607, the last. -/
def lastPage : State := { zeroed up with mem := { (zeroed up).mem with zeroed := [196607] } }
def withCtl (c : DramCtl) : State := lastPage.setCtl 7 c
def aRead : MergeEntry := ⟨dramSize / 64 - 1, List.replicate 64 0, true, true, 0, [(5, 63, 0)]⟩

theorem witness_DramServesReadsAndWrites :
    (let s := lastPage
     (0#8).toNat = s.gen 63 ∧ dramSize - 1 < dramSize ∧ s.rangeReady (dramSize - 1) 1 = true ∧ s.held 7 (dramSize - 1) = false ∧
       (1#8).toNat ≠ s.gen 63 ∧ s.rangeReady ((dramSize - 1) / 64 * 64) 64 = true ∧ dramSize ≤ (0x6000000000#40).toNat ∧
       s.pageZeroed 196606 = false ∧ s.pageZeroed 1 = false ∧ (s.ctl 7).reads = []) ∧
    ((withCtl { (lastPage.ctl 7) with reads := [aRead] }).ctl 7).reads[0]? = some aRead := by decide +kernel

theorem witness_DramRepairsAndZeroing :
    (let s := withCtl { (lastPage.ctl 7) with copying := some 3, swapping := some 5 }
     (s.ctl 7).copying = some 3 ∧ (s.ctl 7).retired.length + 1 < 2 ^ 15 ∧ s.mem.waiting = [] ∧ (s.ctl 7).swapping = some 5) ∧
    (up.ctl 7).copying = none ∧ (up.ctl 7).swapping = none ∧ (up.setF (Reg.DRAM_STATUS_MIGRATING 7) 1).on (Reg.DRAM_STATUS_MIGRATING 7) = true ∧
    up.on (Reg.DRAM_STATUS_MIGRATING 7) = false ∧
    (let s := { up with mem := { up.mem with zeroBusy := some 196607 } }
     s.mem.zeroBusy = some 196607 ∧ s.mem.waiting = []) ∧ up.nextZero = some 0 ∧
    (let s := { up with mem := { up.mem with zeroNext := 196608 } }
     s.mem.zeroBusy = none ∧ s.nextZero = none) := by decide +kernel

/-! ### Rings, descriptors, completions, BAR4, ring contexts and windows -/

/-- Package counter 4095, owned by instance 63 (or 0), armed at a target. -/
def pcState (v : Nat) (ctrl : Word) (irqAt : Word) : State := ((up.setPc 4095 v).wrg (Reg.PC_CTRL 4095) ctrl).wrg (Reg.PC_IRQ_AT 4095) irqAt

/-- An 8-byte doorbell whose halves are complements. -/
def bell (v : Word) : BitVec 64 := (~~~v) ++ v

theorem witness_PackageCountersFireTheirInterrupts :
    (let s := pcState (2 ^ 48 - 1) 0xDFC007FF#32 0
     s.bellsOpen 63 ∧ s.sends ∧ bellOk 8 (bell 1) = true ∧ (bell 1).extractLsb' 0 32 ≠ 0 ∧ s.pcOwned 4095 63 = true ∧
       s.on (Reg.PC_CTRL_IRQ_ARM 4095) = true) ∧
    up.open ∧ up.sends ∧ up.on (Reg.PC_CTRL_IRQ_ARM 4095) = false ∧
    (let s := pcState 5 0x1FC00000#32 6
     bits (s.rg (Reg.PC_CTRL 4095)) 28 22 = bits (0x5FC0001F#32) 28 22 ∧ bits (0x5FC0001F#32) 10 0 < 32 ∧ bits (0x5FC0001F#32) 27 22 = 63 ∧
       (s.plain (Reg.PC_CTRL 4095) 0x5FC0001F#32).on (Reg.PC_CTRL_IRQ_ARM 4095) = true) := by decide +kernel

theorem test_notify_before_vector :
    (after (.counterSignal 0 4095 8 (bell 1)) (((pcState 2 0xD0000007#32 3).setF (Reg.NOTIFY_LO_VALID 0) 1).setF (Reg.NOTIFY_LO_ADDR 0) 1)).outbox =
      [.counterUpdate 4095 3, .hostWrite 0 0x1FFF0 [3, 0, 0xFFFFFFFC#32, 0xFFFFFFFF#32], .msix 0 7] := by decide +kernel

/-- A descriptor's words; a descriptor in a state; and ring 4095 of instance 0, local 63, of 16 places, that completes into itself. -/
def dw (ws : List (Nat × Word)) : List Word := (List.range 16).map fun k => (ws.find? fun e => e.1 == k).elim 0#32 (·.2)
def aDesc (op : Word) (st : DescState) (ws : List (Nat × Word)) : Desc :=
  { noDesc with ring := 4095, pos := 7, words := dw ((0, op <<< 28) :: ws), state := st, order := 5 }
def ringState (s : State) : State := (s.wrg (Reg.RC_CTRL 4095) 0xC0FC8400#32).wrg (Reg.RC_SQ_LINK 4095) 0xFFF00000#32 |>.setRing 4095 noRing
def withDesc (s : State) (d : Desc) : State := (ringState s).setDesc 3 d
def pc5 : State := pcState 5 0x10000000#32 0

theorem witness_SignalAndWaitDescriptorsActOnPackageCounters :
    (let d := aDesc 4 .admitted [(4, 4095#32), (5, 1#32)]
     let s := (withDesc pc5 d).setDesc 4 (aDesc 5 .running [(4, 4095#32), (5, 6#32)])
     s.hasWork 4095 7 4 3 d ∧ s.pcOwned 4095 0 = true ∧ (s.desc 4).waitsOn 4095 = true ∧ thas s.host.descs 4 = true ∧ s.bellsOpen 0 ∧
       bellOk 8 (bell 1) = true ∧ (bell 1).extractLsb' 0 32 ≠ 0) ∧
    (let d := aDesc 5 .admitted [(4, 4095#32), (5, 5#32)]
     (withDesc pc5 d).hasWork 4095 7 5 3 d ∧ waitTarget d = (withDesc pc5 d).pc 4095) ∧
    (let d := aDesc 5 .admitted [(4, 4095#32), (5, 5#32), (6, 0xFFFF#32)]
     (withDesc pc5 d).hasWork 4095 7 5 3 d ∧ (withDesc pc5 d).pc 4095 < waitTarget d) := by decide +kernel

theorem witness_DoorbellsMoveTheirPositions :
    (let s := (ringState up).wrg (Reg.RC_CQ_WRITTEN 4095) 1
     s.bellsOpen 0 ∧ s.ringAt true 0 63 = some 4095 ∧ s.ringAt false 0 63 = some 4095 ∧ s.ringAt true 0 62 = none ∧ bellOk 8 (bell 16) = true ∧
       tailOk 16 (s.rg (Reg.RC_SQ_TAIL 4095)) (s.rg (Reg.RC_SQ_HEAD 4095)) (s.fd (Reg.RC_CTRL_SQ_LOG2 4095)) = true ∧
       tailOk 0 (s.rg (Reg.RC_SQ_TAIL 4095)) (s.rg (Reg.RC_SQ_HEAD 4095)) (s.fd (Reg.RC_CTRL_SQ_LOG2 4095)) = true ∧
       tailOk 17 (s.rg (Reg.RC_SQ_TAIL 4095)) (s.rg (Reg.RC_SQ_HEAD 4095)) (s.fd (Reg.RC_CTRL_SQ_LOG2 4095)) = false ∧
       (1 - s.rg (Reg.RC_CQ_HEAD 4095)).toNat ≤ (s.rg (Reg.RC_CQ_WRITTEN 4095) - s.rg (Reg.RC_CQ_HEAD 4095)).toNat ∧
       ¬ (2 - s.rg (Reg.RC_CQ_HEAD 4095)).toNat ≤ (s.rg (Reg.RC_CQ_WRITTEN 4095) - s.rg (Reg.RC_CQ_HEAD 4095)).toNat) ∧
    up.pcOwned 4095 0 = false ∧ up.bellsOpen 63 ∧ (bell 0).extractLsb' 0 32 = 0 ∧ bellOk 8 (bell 0) = true ∧ bellOk 8 0 = false ∧ bellOk 4 (bell 1) = false ∧
    (up.setF (Reg.INST_STATUS_IN_RESET 63) 1).on (Reg.INST_STATUS_IN_RESET 63) = true ∧ State.reset.on (Reg.INST_STATUS_IN_RESET 63) = false ∧
    State.reset.on Reg.GS_STATUS_READY = false := by decide +kernel

/-- A FENCE at position 0 of its ring, as fetched words and in flight; and ring 4095 with one tail ahead. -/
def fenceWords : List Word := dw [(0, 0x80000000#32), (1, 0x7FFFFFFF#32)]
def fetched : Desc := { aDesc 8 .fetched [] with pos := 0 }
def tailOne (f : Nat) : State := ((ringState up).wrg (Reg.RC_SQ_TAIL 4095) 1).setRing 4095 { noRing with failures := f }

theorem witness_DescriptorsAreFetchedAndAdmitted :
    (∀ f ∈ [0, 2, 3], (tailOne f).on (Reg.RC_CTRL_SQ_EN 4095) = true ∧ ((tailOne f).rg (Reg.RC_SQ_TAIL 4095)).toNat ≠ ((tailOne f).ring 4095).fetchPos ∧
      ((tailOne f).ring 4095).failures = f) ∧ descOk fenceWords 0 = true ∧ descOk fenceWords 1 = false ∧
    ((ringState up).rg (Reg.RC_SQ_TAIL 4095)).toNat = ((ringState up).ring 4095).fetchPos ∧
    (let s := withDesc up fetched
     s.ringActive 4095 = true ∧ s.admitHeld = false ∧ s.nextDesc 4095 = some 3 ∧ s.desc 3 = fetched ∧ s.host.grants = [] ∧
       thas s.host.rings 4095 = true ∧ fetched.ring = 4095 ∧ fetched.status = 0) ∧
    (withDesc up { fetched with status := 4, detail := 18 }).ringActive 4095 = true ∧ State.reset.admitHeld = true ∧
    (let s := withDesc up fetched
     let s := { s with host := { s.host with grants := [4095] } }
     4095 ∈ s.host.grants ∧ s.ringActive 4095 = true ∧ s.host.grants.contains 4094 = false) := by decide +kernel

/-- Program slot 1023, registered for instance 0, with areas of one page in and out; a RUN of it; a copy at the last line of page 0. -/
def aSlot (inst : Nat) : ProgSlot := { noSlot with phase := 2, inst := inst, header := (List.range 16).map fun k => if k = 5 ∨ k = 6 then 0x200000#32 else 0#32 }
def aRun : Desc := aDesc 1 .admitted [(4, 0xFFC00000#32), (7, 65535#32)]
def aCopy (op : Word) (n : Word) : Desc := aDesc op .admitted [(6, 0x1FFFC0#32), (8, n)]
def runState (inst : Nat) (d : Desc) : State := (withDesc (zeroed (window up)) d).setSlot 1023 (aSlot inst)

theorem witness_DescriptorsDoTheirWork_runs :
    (let s := runState 0 aRun
     s.hasWork 4095 7 1 3 aRun ∧ s.on Reg.FH_SUMMARY_FAILED = false ∧ bits (aRun.w 4) 31 22 = 1023 ∧ (s.slot 1023).phase = 2 ∧
       s.evictBefore 1023 aRun.order = false ∧ (s.slot 1023).inst = aRun.inst ∧ s.inWindow 0 (aRun.dram 10) (s.slot 1023).inBytes = true ∧
       s.inWindow 0 (aRun.dram 12) (s.slot 1023).outBytes = true ∧ (s.slot 1023).inBytes = 0x200000) ∧
    (withDesc up aRun).hasWork 4095 7 1 3 aRun ∧ ((withDesc up aRun).slot 1023).phase ≠ 2 ∧ (runState 63 aRun).hasWork 4095 7 1 3 aRun ∧
    ((runState 63 aRun).slot 1023).inst ≠ aRun.inst ∧
    (let s := (withDesc up aRun).setSlot 1023 (aSlot 0)
     s.hasWork 4095 7 1 3 aRun ∧ s.inWindow 0 (aRun.dram 10) (s.slot 1023).inBytes = false) := by decide +kernel

theorem witness_DescriptorsDoTheirWork_copies :
    (let d := aCopy 2 64
     let s := runState 0 d
     s.hasWork 4095 7 2 3 d ∧ s.inWindow 0 (d.dram 6) 64 = true ∧ s.rangeReady (d.dram 6) 64 = true ∧ (d.w 8).toNat = 64 ∧ d.dram 6 + 64 ≤ dramSize) ∧
    (let d := aCopy 3 64
     let s := runState 0 d
     s.hasWork 4095 7 3 3 d ∧ s.inWindow 0 (d.dram 6) 64 = true ∧ s.rangeReady (d.dram 6) 64 = true ∧ (d.w 8).toNat = 64 ∧ s.sends) ∧
    (let d := aCopy 2 128
     (runState 0 d).hasWork 4095 7 2 3 d ∧ (runState 0 d).inWindow 0 (d.dram 6) 128 = false ∧ (d.w 8).toNat = 128) ∧
    (let d := aCopy 3 128
     (runState 0 d).hasWork 4095 7 3 3 d ∧ (runState 0 d).inWindow 0 (d.dram 6) 128 = false ∧ (d.w 8).toNat = 128) := by decide +kernel

theorem witness_DescriptorsDoTheirWork_waits :
    (let d := aDesc 4 .admitted []
     (withDesc up d).hasWork 4095 7 4 3 d ∧ (withDesc up d).pcOwned 0 0 = false) ∧
    (let d := aDesc 5 .admitted []
     (withDesc up d).hasWork 4095 7 5 3 d ∧ (withDesc up d).pcOwned 0 0 = false) ∧
    (let s := withDesc up (aDesc 5 .running [(7, 1#32)])
     s.findDesc 4095 7 = some 3 ∧ (s.desc 3).state = .running ∧ (s.desc 3).opcode = 5 ∧ (s.desc 3).w 7 ≠ 0) ∧
    (let d := aDesc 8 .admitted [(4, 1#32)]
     let s := (withDesc up d).setDesc 4 { d with ring := 0, pos := 0, order := 6 }
     s.hasWork 4095 7 8 3 d ∧
       (s.host.descs.any fun e => e.2.state ≠ .fetched && decide (e.2.order < d.order) && (if bit (d.w 4) 0 then e.2.inst == d.inst else e.2.ring == d.ring)) = false) ∧
    (let d := aDesc 8 .admitted [(4, 1#32)]
     let s := (withDesc up d).setDesc 4 { d with ring := 0, pos := 0, order := 4 }
     s.hasWork 4095 7 8 3 d ∧
       (s.host.descs.any fun e => e.2.state ≠ .fetched && decide (e.2.order < d.order) && (if bit (d.w 4) 0 then e.2.inst == d.inst else e.2.ring == d.ring)) = true) := by
  decide +kernel

def ended (st : Nat) (w0 : Word) : Desc := { aDesc 8 .ended [] with status := st, words := dw [(0, w0)] }
def cqIrqOn (s : State) : State := s.wrg (Reg.RC_CQ_IRQ 4095) 0x80000001#32
def aHostRead (tries : Nat) : HostRead := ⟨.fetch 4095, tries, true, 0, 0⟩
def readsAt (k tries : Nat) : State := { up with host := { up.host with reads := [(k, aHostRead tries)] } }
def quarAt (k : Nat) : State := { up with host := { up.host with quarantine := [(k, 9)] } }

theorem witness_CompletionsAreWrittenAndHostReadsTimeOut :
    (∀ d ∈ [ended 0 0x84000000#32, ended 4 0x84000000#32, ended 0 0x88000000#32],
      let s := cqIrqOn (withDesc up d)
      s.findDesc 4095 7 = some 3 ∧ s.desc 3 = d ∧ d.state = .ended ∧ bit (d.w 15) 31 = false ∧ s.sends) ∧
    (bit ((ended 0 0x84000000#32).w 0) 26 && (ended 0 0x84000000#32).status == 0) = true ∧
    (bit ((ended 4 0x84000000#32).w 0) 26 && (ended 4 0x84000000#32).status == 0) = false ∧
    (let s := cqIrqOn ((ringState up).setRing 4095 { noRing with coalFrom := some 0 })
     s.on (Reg.RC_CQ_IRQ_IRQ_EN 4095) = true ∧ s.fd (Reg.RC_CQ_IRQ_COAL_US 4095) ≠ 0 ∧ (s.ring 4095).coalFrom.isSome = true ∧ s.sends) ∧
    (up.ring 4095).coalFrom = none ∧
    (let s := readsAt 16383 2
     s.host.reads.find? (fun e => e.1 == 16383) = some (16383, aHostRead 2) ∧ (aHostRead 2).safe = true ∧ (aHostRead 2).tries < 3 ∧
       thas s.host.quarantine 0 = false ∧ thas s.host.reads 0 = false) ∧
    thas (quarAt 16383).host.quarantine 16383 = true ∧ thas up.host.quarantine 16383 = false := by decide +kernel

theorem witness_Bar4AndRingSetUpAndWindows :
    (let s := lastPage.setF Reg.HL_BAR4_BASE_BASE_GIB 383
     let a := s.fd Reg.HL_BAR4_BASE_BASE_GIB * 2 ^ 30 + (0x3FFFFFC0#36).toNat
     s.on Reg.GS_STATUS_READY = true ∧ a + 64 = dramSize ∧ s.rangeReady a 64 = true ∧ dramSize < a + 65) ∧ State.reset.on Reg.GS_STATUS_READY = false ∧
    up.open ∧ up.rcWordRefused 4095 15 5 = false ∧ up.rcWordRefused 4095 6 0x7FF00000#32 = false ∧
    (ringState up).open ∧ (ringState up).rcWordRefused 4095 5 5 = true ∧ up.rcCtrlRefused 4095 0xBFFC8400#32 true = true ∧
    (up.wrg (Reg.RC_SQ_LINK 4095) 0xFFF00000#32).rcCtrlRefused 4095 0xC0FC8400#32 false = false ∧
    (up.wrg (Reg.RC_SQ_LINK 4095) 0xFFF00000#32).on (Reg.RC_CTRL_SQ_EN 4095) = false ∧ (up.wrg (Reg.RC_SQ_LINK 4095) 0xFFF00000#32).open ∧
    up.instBusy 63 = false ∧ up.on (Reg.WIN_BASE_EN 63 7) = false ∧ bits (0x8002FFFF#32) 18 0 + 0 ≤ dramSize / 2 ^ 21 ∧ up.windowClash 63 0x2FFFF 0 = false ∧
    (window up).on (Reg.WIN_BASE_EN 0 7) = true ∧ (window up).instBusy 0 = false ∧ bit (0#32) 31 = false ∧
    (runState 0 aRun).instBusy 0 = true ∧ dramSize / 2 ^ 21 < bits (0x30001#32) 18 0 + 0 := by decide +kernel

/-! ### The time base, angle events, deadlines and steps -/

def withTb (st source : Nat) : State := let s := up.setF Reg.TB_STATUS_STATE st; { s with time := { s.time with source := source } }

theorem witness_TimeBaseFollowsItsReference :
    (∀ st ∈ [0, 1, 2, 3], (withTb st 1).time.source = 1 ∧ (withTb st 1).time.refSel = 0 ∧ (withTb st 1).pulseValid 16 10000000 (1000 * (withTb st 1).time.turnUs) = true ∧
      (withTb st 1).pulseValid (-17) 10000000 (1000 * (withTb st 1).time.turnUs) = true ∧ (withTb st 1).tbState = st) ∧
    (withTb 1 3).time.source = 3 ∧ (withTb 1 3).pulseValid 5000 1000100000 (10 ^ 9) = true ∧ (withTb 3 2).time.source = 2 ∧
    (let s := { withTb 1 1 with time := { (withTb 1 1).time with good := 3, clk := us 100000 } }
     s.tbState = 1 ∧ 3 ≤ s.time.good ∧ s.time.goodSince + us 100000 = s.clk ∧ decide ((16 : Int).natAbs ≤ 16) = true) ∧
    up.time.source ≠ 1 ∧ up.time.refSel = 0 ∧ up.time.source ≠ 3 ∧ up.time.source ≠ 2 ∧
    ((withTb 2 2).setF Reg.TB_STATUS_FIRST_LOCK 1).on Reg.TB_STATUS_FIRST_LOCK = true ∧ (withTb 2 2).tbState ≠ 3 ∧
    (withTb 2 2).on Reg.TB_STATUS_FIRST_LOCK = false ∧ up.sends ∧ up.open ∧ up.badStaged = false ∧
    ((up.setF Reg.TB_CTRL_SOURCE 3).setF Reg.TB_TURN_US_TURN_US 3).badStaged = true ∧ (up.setF Reg.TB_CTRL_SOURCE 2).badStaged = false ∧
    (let s := ((withTb 2 1).setF Reg.TB_STATUS_FIRST_LOCK 1)
     s.on Reg.TB_STATUS_FIRST_LOCK = true ∧ s.time.source ≠ 0 ∧ s.pins.ioOff = false ∧ s.mgmt.controllerReset = false) ∧
    up.on Reg.TB_STATUS_FIRST_LOCK = false := by decide +kernel

/-- A locked module at turn 1, angle 0, and entry 511 with an action at angle 0 of every turn, an owner and an argument. -/
def locked : State :=
  let s := (withTb 2 1).setF Reg.TB_STATUS_FIRST_LOCK 1
  { s with time := { s.time with turn := 1 } }
def aeWs (act : Nat) (oneshot : Bool) (owner : Nat) (arg : Word) : List Word :=
  [BitVec.ofNat 32 (2 ^ 31 + act * 2 ^ 27 + b2n oneshot * 2 ^ 26 + owner * 2 ^ 20), 0#32, 0x10000#32, arg]
def entry (s : State) (ws : List Word) : State := (List.range 4).foldl (fun s w => s.wrg (Reg.AE_WORD 511 w) (ws.getD w 0)) s
def staged (s : State) (ws : List Word) : State :=
  (List.range 7).foldl (fun s w => s.aeStage 511 w (if w < 4 then ws.getD w 0 else ~~~(ws.getD (w - 4) 0))) s

theorem witness_AngleEventsCommitAndFireOnce :
    up.open ∧
    (let ws := aeWs 7 true 0 0x1F#32
     let s := staged up ws
     let x := s.aeStage 511 7 (~~~(0x1F#32))
     s.open ∧ (List.range 4).map (x.aeStaged 511) = ws ∧ ((List.range 4).all fun w => x.aeStaged 511 (w + 4) == ~~~(x.aeStaged 511 w)) = true ∧
       aeInvalid ws = false ∧ x.aeNotOwned ws = false ∧ x.aeNotOwned (aeWs 7 true 63 0) = true ∧ aeInvalid (aeWs 0 true 0 0) = true ∧
       ((List.range 4).all fun w => (s.aeStage 511 7 0).aeStaged 511 (w + 4) == ~~~((s.aeStage 511 7 0).aeStaged 511 w)) = false) ∧
    (∀ a ∈ [1, 2, 3, 4, 5, 7], (entry locked (aeWs a true 0 0)).due 511 a (aeWs a true 0 0) (2 ^ 24)) ∧
    (∀ k ∈ [0, 1, 2], (entry locked (aeWs 6 true 0 (BitVec.ofNat 32 (k * 2 ^ 30)))).due 511 6 (aeWs 6 true 0 (BitVec.ofNat 32 (k * 2 ^ 30))) (2 ^ 24) ∧
      opIs k (aeWs 6 true 0 (BitVec.ofNat 32 (k * 2 ^ 30))) = true) ∧
    up.on Reg.TB_STATUS_FIRST_LOCK = false ∧
    (let s := entry { locked with time := { locked.time with fired := [(511, [2 ^ 24])] } } (aeWs 3 false 0 0)
     (tget [] s.time.fired 511).contains (s.governs 511).2.1 = true) ∧
    2 ≤ (entry (locked.setF Reg.PWR_STATUS_STATE 3) (aeWs 4 true 0 0)).fd Reg.PWR_STATUS_STATE := by
  and_intros <;> decide +kernel

/-- Ring 4095 with a fetched RUN that awaits an angle, and with a staged tail. -/
def awaiting (s : State) : State := (withDesc s { aRun with state := .fetched, pos := 0, words := dw [(0, 0x10000000#32), (4, 0x00200000#32)] })
def aWatch (i : Nat) : Watch := ⟨5, i, 0, false⟩

theorem witness_FiringsTakeTheirActions :
    (let ws := aeWs 1 false 0 4095#32
     let s := awaiting (entry locked ws)
     s.fd Reg.PWR_STATUS_STATE < 2 ∧ s.due 511 1 ws (2 ^ 24) ∧ bits (aeArg ws) 11 0 = 4095 ∧ s.nextDesc 4095 = some 3 ∧
       s.fd (Reg.RC_CTRL_OWNER 4095) = aeOwner ws ∧ s.on (Reg.RC_CTRL_SQ_EN 4095) = true ∧ (s.desc 3).awaits = true ∧ s.ringHeld 4095 = false ∧
       s.cqRoom (s.fd (Reg.RC_SQ_LINK_CQ 4095)) = true ∧ s.deadlineRoom (s.desc 3) = true ∧ s.admitHeld = false) ∧
    (entry locked (aeWs 1 false 0 4095#32)).due 511 1 (aeWs 1 false 0 4095#32) (2 ^ 24) ∧ (entry locked (aeWs 1 false 0 4095#32)).nextDesc 4095 = none ∧
    (let ws := aeWs 2 false 0 4095#32
     let s := (ringState (entry locked ws)).setRing 4095 { noRing with stagedTail := some 16 }
     s.due 511 2 ws (2 ^ 24) ∧ (s.ring 4095).stagedTail = some 16 ∧ s.fd (Reg.RC_CTRL_OWNER 4095) = aeOwner ws ∧ s.on (Reg.RC_CTRL_SQ_EN 4095) = true ∧
       16#32 ≠ s.rg (Reg.RC_SQ_TAIL 4095) ∧
       tailOk 16 (s.rg (Reg.RC_SQ_TAIL 4095)) (s.rg (Reg.RC_SQ_HEAD 4095)) (s.fd (Reg.RC_CTRL_SQ_LOG2 4095)) = true) ∧
    (∀ g ∈ [false, true], let s := entry { locked with net := { locked.net with gateStep := g } } (aeWs 3 false 0 0)
     s.due 511 3 (aeWs 3 false 0 0) (2 ^ 24) ∧ s.net.gateStep = g) ∧
    (∀ l ∈ [false, true], let s := entry (locked.setBar (barKey 65535 14) ⟨[], [], 0, l⟩) (aeWs 4 false 0 0x000EFFFF#32)
     s.due 511 4 (aeWs 4 false 0 0x000EFFFF#32) (2 ^ 24) ∧ (s.bar (barKey (bits (0x000EFFFF#32) 15 0) (bits (0x000EFFFF#32) 19 16))).latched = l) := by
  and_intros <;> decide +kernel

/-- Counter 4095 at 5, owned by instance 63. -/
def owned63 : State := (locked.setPc 4095 5).wrg (Reg.PC_CTRL 4095) 0x1FC00000#32
def atDeadline (w : Table Watch) (ws : List Word) : State := entry { owned63 with time := { owned63.time with watch := w } } ws

theorem witness_FiringsTakeTheirActions_later :
    (let ws := aeWs 5 false 63 0x00800FFF#32
     let s := atDeadline [] ws
     s.due 511 5 ws (2 ^ 24) ∧ s.pcOwned (bits (aeArg ws) 11 0) (aeOwner ws) = true ∧ s.time.watch.find? (fun x => x.1 == 4095) = none ∧ aeOneshot ws = false) ∧
    (let ws := aeWs 5 false 63 0x00800FFF#32
     let s := atDeadline [(4095, aWatch 0)] ws
     s.due 511 5 ws (2 ^ 24) ∧ s.pcOwned 4095 63 = true ∧ s.time.watch.find? (fun x => x.1 == 4095) = some (4095, aWatch 0) ∧ (aWatch 0).ideal ≠ 2 ^ 24 ∧
       s.pc 4095 < (aWatch 0).value + bits (aeArg ws) 30 23 ∧ bit (aeArg ws) 31 = false) ∧
    (∀ k ∈ [0, 1, 2], let ws := aeWs 6 false 0 (BitVec.ofNat 32 (k * 2 ^ 30 + 300))
     (entry locked ws).due 511 6 ws (2 ^ 24) ∧ opIs k ws = true) ∧ locked.restBusy = false ∧
    (entry locked (aeWs 7 false 0 0x1F#32)).due 511 7 (aeWs 7 false 0 0x1F#32) (2 ^ 24) ∧ bit (aeArg (aeWs 7 false 0 0x1F#32)) 0 = true ∧
    (entry locked (aeWs 7 false 0 0x1F#32)).fd Reg.PWR_STATUS_STATE < 2 := by
  and_intros <;> decide +kernel

/-- A RUN in flight, its sequence 9 and its deadline; and a request's sequence. -/
def runSeq (started : Bool) : Seq := { noSeq with desc := some 3, state := .ready, inst := 63, maxSteps := 1, startAt := if started then some 0 else none }
def deadlined (abandon started : Bool) : State :=
  let s := (withDesc locked { aRun with state := .running }).setSeq 9 (runSeq started)
  { s with host := { s.host with deadlines := [⟨3, 2 ^ 24, abandon⟩] } }
def reqSeq : Seq := { noSeq with session := some (4095, 0xFFFFFFFF), state := .ready, inst := 63, maxSteps := 1, startAt := some 0, deadline := some (2 ^ 24, false) }

theorem witness_DeadlinesEndWhatIsLate :
    (∀ a ∈ [false, true], ∀ st ∈ [false, true], let s := deadlined a st
     s.on Reg.TB_STATUS_FIRST_LOCK = true ∧ s.findDesc 4095 7 = some 3 ∧
       s.host.deadlines.find? (fun d => d.desc == 3 && le56 d.instant s.now) = some ⟨3, 2 ^ 24, a⟩ ∧
       s.net.seqs.find? (fun e => e.2.desc == some 3 && e.2.state ≠ .gone) = some (9, runSeq st) ∧ s.seq 9 = runSeq st ∧ (runSeq st).inst < 64 ∧
       s.lastCommitted 9 = false ∧ (runSeq st).startAt.isSome = st ∧ s.net.step = none) ∧
    (let s := locked.setSeq 9 reqSeq
     s.net.seqs.find? (fun e => e.2.session == some (4095, (0xFFFFFFFF#32).toNat) && e.2.state ≠ .gone) = some (9, reqSeq) ∧
       le56 (2 ^ 24) s.now = true ∧ (s.setSeq 9 { reqSeq with deadline := none }).lastCommitted 9 = false ∧ reqSeq.startAt.isSome = true) ∧
    up.on Reg.TB_STATUS_FIRST_LOCK = false ∧ locked.host.deadlines = [] ∧ locked.on Reg.TB_STATUS_FIRST_LOCK = true := by
  and_intros <;> decide +kernel

/-- A registered program slot 1023 with one section, released, and one sequence that waits. -/
def progSlot : ProgSlot := { aSlot 0 with header := (List.range 16).map fun k => if k = 5 ∨ k = 6 then 0x200000#32 else 1#32, sections := [(65535, [0x1000])], planes := [(65536 * 65535, [(0, 1)])], released := [0, 1, 2, 3] }
def waitingSeq : Seq := { noSeq with desc := some 3, slot := 1023, state := .ready, maxSteps := 1, size0 := 1, size1 := 1 }
def ready1 : State := (((zeroed up).setF (Reg.BAT_CTRL_MAX_SEQ 1023) 1).setSlot 1023 progSlot).setSeq 9 waitingSeq

theorem witness_StepsBeginReplayAndCommit :
    (let s := ready1
     let u := s.gateEnd (s.slot 1023).inst
     let u := u.each (u.joinOrder 1023) fun u id => u.joinOne 1023 id
     s.net.step = none ∧ s.stepsHeld = false ∧ s.net.restart = none ∧ s.stepGated = false ∧
       s.chooseSlot (s.workSlots.filter fun n => s.gateMet (s.slot n).inst) = some 1023 ∧ u.batch 1023 = [9] ∧
       (∀ r ∈ u.startRanges 1023 [9], u.rangeReady r.1 r.2 = true) ∧ (∀ e ∈ u.links.refused, e.1 ≠ 1023)) := by
  and_intros <;> decide +kernel

/-- Steps of slot 1023, in section 65535; every cluster with the section resident. -/
def inSlot (x : StepSt) : State := (ready1.setStep (some { x with slot := 1023, sect := 65535 }))
def resident (s : State) : State :=
  { s with clusters := (List.range 576).map fun n => (n, { noCluster with planes := [(0, { inPlane 2 0 65535 with slot := 1023 })] }) }

theorem witness_StepsBeginReplayAndCommit_later :
    (inSlot aStep).net.step.isSome = true ∧ State.reset.stepsHeld = true ∧
    (let s := inSlot aStep
     aStep.released.contains 575 = false ∧ aStep.replaying = false ∧ s.isFenced 575 = false ∧ (s.cl 575).mxuFault = false ∧
       (s.cl 575).planesOf 1023 65535 [3] = []) ∧ up.net.step = none ∧
    (let x := { aStep with slot := 1023, sect := 65535 }
     (inSlot x).net.step = some x ∧ x.committed = false ∧ x.worked = false ∧ (inSlot x).commitReady x = false ∧ x.replayDue = false ∧ x.replaying = false) ∧
    (let x := { aStep with slot := 1023, sect := 65535, committed := true, worked := true }
     (inSlot x).net.step = some x ∧ x.committed = true ∧ x.worked = true ∧ ∀ e ∈ (inSlot x).links.casts, e.2.commit = false) ∧
    (let x := { aStep with slot := 1023, sect := 65535, arrived := List.range 512, remoteWait := [0] }
     (inSlot x).net.step = some x ∧ x.committed = false ∧ (inSlot x).commitReady x = true ∧ x.staged = [] ∧ x.worked = false ∧ x.remoteWait ≠ []) ∧
    (let x := { aStep with slot := 1023, sect := 65535, replayDue := true, attempts := 15 }
     (inSlot x).net.step = some x ∧ x.replayDue = true ∧ x.committed = false ∧ x.replaying = false ∧ x.attempts < 16) := by
  and_intros <;> decide +kernel

theorem witness_StepsBeginReplayAndCommit_restart :
    let x := { aStep with slot := 1023, sect := 65535, replaying := true }
    let s := resident (inSlot x)
    s.net.step = some x ∧ x.replaying = true ∧ s.repairsDone x = true ∧ s.rollback.rg Reg.FH_CPL_MISMATCH = s.rg Reg.FH_CPL_MISMATCH ∧
      (inSlot x).repairsDone x = false := by and_intros <;> decide +kernel

/-! ### Instance reset, maintenance, the store -/

def inReset (s : State) : State := s.setF (Reg.INST_STATUS_IN_RESET 63) 1
def win63 (s : State) : State := ((s.setF (Reg.WIN_BASE_EN 63 7) 1).setF (Reg.WIN_SIZE_SIZE 63 7) 1)
def maintArgs (a b : Word) : State := (up.wrg (Reg.MAINT_ARG 0) a).wrg (Reg.MAINT_ARG 1) b
def aLib : LibEntry := { noEntry with state := 1 }

theorem witness_InstanceResetsAndMaintenanceCommands :
    up.on (Reg.INST_STATUS_IN_RESET 63) = false ∧ up.open ∧
    (∀ i ∈ resetTargets (.register 63), (inReset up).on (Reg.INST_STATUS_IN_RESET i) = true) ∧ (inReset up).open ∧
    (inReset (win63 up)).on (Reg.INST_STATUS_IN_RESET 63) = true ∧ (inReset (win63 up)).resetOver 63 = true ∧ (inReset (win63 up)).windowPages 63 ≠ [] ∧
    bit (1#32) 0 = true ∧ bit (0xFFFFFFFE#32) 0 = false ∧
    (let s := maintArgs 131071 2
     s.open ∧ blockCount < (s.rg (Reg.MAINT_ARG 0)).toNat + (s.rg (Reg.MAINT_ARG 1)).toNat) ∧
    (let s := (maintArgs 131071 1).setBlock 131071 ⟨2, 0, 0, 0, 0⟩
     s.open ∧ (s.rg (Reg.MAINT_ARG 0)).toNat + (s.rg (Reg.MAINT_ARG 1)).toNat = blockCount ∧ s.store.writing = none ∧ (s.block 131071).cls = 2 ∧
       [131071].contains 131071 = true) ∧
    (up.setBlock 131071 ⟨4, 0, 0, 0, 0⟩).open ∧ ((up.setBlock 131071 ⟨4, 0, 0, 0, 0⟩).block 131071).cls = 4 ∧
    4096 ≤ ((maintArgs 4096 0).rg (Reg.MAINT_ARG 0)).toNat ∧ ((maintArgs 4095 0).lib 4095).state = 0 ∧
    (let s := (maintArgs 4095 0).setLib 4095 aLib
     s.open ∧ (s.rg (Reg.MAINT_ARG 0)).toNat < 4096 ∧ (s.lib 4095).state ≠ 0 ∧ (s.lib 4095).damaged = []) ∧
    (let s := up.wrg (Reg.MAINT_ARG 2) 0x1000000#32
     s.open ∧ (s.rg (Reg.MAINT_ARG 2)).toNat = 2 ^ 24 ∧ s.mgmt.minSvn ≤ (0#16).toNat) ∧
    (let s := up.setF Reg.MAINT_STATUS_BUSY 1
     let s := { s with host := { s.host with maintWait := some 3 } }
     s.on Reg.MAINT_STATUS_BUSY = true ∧ s.host.maintWait = some 3) ∧ up.on Reg.MAINT_STATUS_BUSY = false := by
  and_intros <;> decide +kernel

def erasing (b : Nat) : State := { up with store := { up.store with erasing := [b] } }
def writing (r : Nat) : State := { up with store := { up.store with writing := some (4095, r) } }
def libDel : Word := 0x80000FFF#32

theorem witness_StoreKeepsEntriesKeysAndBlocks :
    (erasing 131071).store.erasing.contains 131071 = true ∧ up.store.erasing.contains 131071 = false ∧
    ((up.setBlock 131071 ⟨1, 5, 4095, 3, 9⟩).block 131071).cls = 1 ∧
    (up.setBlock 131071 ⟨1, 5, 4095, 3, 9⟩).freeFrom ((up.setBlock 131071 ⟨1, 5, 4095, 3, 9⟩).store.blocks.length + 1) 0 = some 0 ∧
    (up.block 131071).cls ≠ 1 ∧ up.open ∧ bit (0x80000000#32) 31 = true ∧ up.store.writing = none ∧
    (let t := up.plain Reg.STW_CTRL 0x80000000#32
     (t.entryCheck (t.fd Reg.STW_CTRL_ENTRY) (t.fd Reg.STW_CTRL_OWNER) true true).2 = true) ∧
    (∀ r ∈ [0, 5], (writing r).store.writing = some (4095, r) ∧ (writing r).on Reg.MAINT_STATUS_BUSY = false) ∧
    (let e := (up.plain Reg.LIB_DELETE libDel).fd Reg.LIB_DELETE_ENTRY
     bit libDel 31 = true ∧ (up.lib e).state = 0) ∧
    (∀ u ∈ [0, 1], let s := up.setLib (bits libDel 11 0) { aLib with uses := u }
     let e := (s.plain Reg.LIB_DELETE libDel).fd Reg.LIB_DELETE_ENTRY
     s.open ∧ (s.lib e).state = 1 ∧ (s.lib e).uses = u) := by
  and_intros <;> decide +kernel

def withKey (k : KeySlot) : State := let s := up.setF Reg.KEY_SEL_SLOT 7; { s with store := { s.store with keys := [(7, k)] } }
/-- Instance 63 owns counters 4095 and 0, and has page 0 zeroed in its window. -/
def fetchState : State := ((win63 (zeroed up)).wrg (Reg.PC_CTRL 4095) 0x1FC00000#32).wrg (Reg.PC_CTRL 0) 0x1FC00000#32
def armed : State := (after (.fetchArm 63 0xBCFFF000#32) fetchState).setPc 4095 1

/-- A header for one chunk of 64 bytes at DRAM address 0, for instance 63 under key slot 0. -/
def writable : State :=
  let s := (win63 (zeroed up)).wrWords 0 [0, 0, 64, 0, 1]
  { s with store := { s.store with keys := [(0, ⟨true, false, []⟩)] } }

theorem witness_StoreKeepsEntriesKeysAndBlocks_keys :
    (let t := writable.plain Reg.STW_CTRL 0x83F00FFF#32
     writable.open ∧ writable.store.writing = none ∧ t.entryCheck (t.fd Reg.STW_CTRL_ENTRY) (t.fd Reg.STW_CTRL_OWNER) true true = (0, false) ∧
       t.entryCheck (t.fd Reg.STW_CTRL_ENTRY) (t.fd Reg.STW_CTRL_OWNER) false true = (1, false)) ∧
    (let s := withKey ⟨true, true, []⟩
     s.open ∧ (s.key (s.fd Reg.KEY_SEL_SLOT)).locked = true ∧ (s.key (s.fd Reg.KEY_SEL_SLOT)).valid = true) ∧
    (let s := withKey ⟨false, false, []⟩
     s.open ∧ (s.key (s.fd Reg.KEY_SEL_SLOT)).locked = false ∧ (s.key (s.fd Reg.KEY_SEL_SLOT)).valid = false) ∧
    (let s := fetchState
     let v : Word := 0xBCFFF000#32
     s.open ∧ bit v 31 = true ∧ s.pcOwned (bits v 23 12) 63 = true ∧ s.pcOwned (bits v 11 0) 63 = true ∧ bits v 29 26 = 15 ∧
       s.inWindow 63 (s.stfBase 63) (32 * 2 ^ bits v 29 26) = true ∧ bits v 23 12 = 4095) ∧ up.pcOwned 0 63 = false ∧
    (let s := armed
     let q := tget ⟨0, 0⟩ s.store.fetch 63
     s.on (Reg.STF_CTRL_EN 63) = true ∧ q.base + q.next + 1 ≤ s.pc (s.fd (Reg.STF_CTRL_REQ 63)) ∧
       s.stfBase 63 + 32 * (q.next % 2 ^ s.fd (Reg.STF_CTRL_LOG2 63)) + 20 < dramSize) ∧ up.on (Reg.STF_CTRL_EN 63) = false := by
  and_intros <;> decide +kernel

/-! ### Ethernet and sessions -/

/-- Sub-port 3 of port 3 is up, with one address; and frames for it. -/
def ethUp : State :=
  let s := (up.setF (Reg.ETH_STATUS_LINK_UP 3) 8).setF (Reg.ETH_ADDR_VALID 3 7) 1
  (s.setF (Reg.ETH_ADDR_SUB 3 7) 3).wrg (Reg.ETH_ADDR_WORD 3 7 0) 0x0A000001#32
def okHdr : List Word := [0x1A800000#32, 0xE57FFFFF#32, 0, 0, 0, 0, 0, 4]
def udp (hdr : List Word) : FrameKind := .udp ⟨hdr, [1, 2, 3, 4]⟩ false 0x0A000001 false false true false
def frame (tags bytes : Nat) (fcs : Bool) (k : FrameKind) : EthFrame := ⟨tags, bytes, fcs, BitVec.ofNat 48 (ethUp.macOf 3 3), 0, 0, k⟩
def plainFrame (f : EthFrame) : Bool := decide (f.tags < 2) && decide (f.bytes ≤ 9216) && f.fcsOk && ethUp.macOk 3 3 f

theorem witness_EthernetPortsTakeFramesAndPauses :
    (up.fd (Reg.ETH_STATUS_LINK_UP 3)).testBit 3 = false ∧ (ethUp.fd (Reg.ETH_STATUS_LINK_UP 3)).testBit 3 = true ∧
    plainFrame (frame 2 64 true .other) = false ∧ plainFrame (frame 1 9217 true .other) = false ∧ plainFrame (frame 1 64 false .other) = false ∧
    plainFrame { frame 1 64 true .other with dst := 0 } = false ∧ plainFrame (frame 1 9216 true .globalPause) = true ∧
    (let f := frame 0 9216 true (udp okHdr)
     let d : Datagram := ⟨okHdr, [1, 2, 3, 4]⟩
     plainFrame f = true ∧ d.hdr.length = 8 ∧ ethUp.ownAddr 3 3 false (0x0A000001#128).toNat 0 = true ∧ 515072 + f.bytes ≤ 524288 ∧
       tget false ethUp.net.pfcSent (prioKey 3 3 f.prio) = false ∧ d.h 1 = ~~~(d.h 0) ∧ bits (d.h 0) 31 28 = 1 ∧ d.typ = 10 ∧ d.len ≤ d.payload.length) ∧
    (let d : Datagram := ⟨okHdr.set 1 0, []⟩
     d.hdr.length = 8 ∧ d.h 1 ≠ ~~~(d.h 0)) ∧ up.net.groups = [] ∧ up.sends ∧ tget false up.net.pfcSent 127 = false ∧
    tget false ({ up with net := { up.net with pfcSent := [(127, true)] } } : State).net.pfcSent (prioKey 3 3 7) = true ∧
    (let s := (up.setF (Reg.ETH_CTRL_SUB_EN 3) 15).setF (Reg.ETH_CTRL_MODE 3) 2
     (s.fd (Reg.ETH_CTRL_SUB_EN 3)).testBit 3 = true ∧ 3 < subPorts (s.fd (Reg.ETH_CTRL_MODE 3))) ∧
    (up.fd (Reg.ETH_CTRL_SUB_EN 3)).testBit 3 = false := by and_intros <;> decide +kernel

/-- Listener 63 of instance 63 at UDP port 65535, and a far end. -/
def listening : State := (((up.setF (Reg.LSN_CTRL_VALID 63) 1).setF (Reg.LSN_PORT_UDP 63) 65535).setF (Reg.LSN_CTRL_OWNER 63) 63).wrg (Reg.LSN_MAXREQ 63) 0xFFFFFFFF#32
def farEnd : EthFrom := ⟨3, 3, 0xFFFFFFFFFFFF#48, true, 5, 65535, 4095, 65535⟩
def dgram (typ n seq reqId frag epoch : Nat) : Datagram := ⟨sesHeader typ false false n seq 0 0 reqId frag epoch 4, [1, 2, 3, 4]⟩
def aSession : Session := { noSession with opened := true, owner := 63, listener := 63, epoch := 255, peer := farEnd.peer, unacked := 1 }
def inSession : State := listening.setSes 4095 aSession

/-- Every session is open. -/
def allOpen : State := { listening with net := { listening.net with sessions := (List.range' 0 4096).map fun n => (n, aSession) } }

theorem tget_range' {α : Type} (d v : α) (n b k : Nat) (h : b ≤ k) (h' : k < b + n) : tget d ((List.range' b n).map fun j => (j, v)) k = v := by
  induction n generalizing b with
  | zero => omega
  | succ n ih =>
    simp only [List.range'_succ, List.map_cons, tget]
    split
    · rfl
    · exact ih (b + 1) (by omega) (by omega)

theorem witness_allOpen (n : Nat) (h : n < 4096) : (allOpen.ses n).opened = true := by
  have := tget_range' noSession aSession 4096 0 n (by omega) (by omega)
  simp only [State.ses, allOpen, this]
  rfl

theorem witness_SessionsOpenAnswerAndClose :
    up.listenerAt (65535#16).toNat = none ∧ listening.listenerAt farEnd.dstUdp.toNat = some 63 ∧ listening.admits = true ∧ listening.asleep = false ∧
    listening.sends ∧ listening.fd (Reg.LSN_CTRL_OWNER 63) = 63 ∧ listening.on (Reg.INST_STATUS_IN_RESET 63) = false ∧
    (let d := dgram 0 0 0 9 0 0
     d.group = false ∧ d.clean = true ∧ d.session = 0) ∧ (List.range 4096).find? (fun n => ! (listening.ses n).opened) = some 0 ∧
    allOpen.admits = true ∧ allOpen.listenerAt 65535 = some 63 ∧ allOpen.asleep = false ∧ allOpen.sends ∧
    (inSession.ses 4094).opened = false ∧ (dgram 2 4094 1 1 0 255).session = 4094 ∧ (inSession.ses 4095).epoch ≠ (dgram 2 4095 1 1 0 254).epoch ∧
    (inSession.ses 4095).peer ≠ { farEnd with udp := 0 }.peer ∧ (∀ r ∈ (inSession.ses 4095).requests, r.complete = false) ∧ inSession.admits = true ∧
    inSession.asleep = false := by
  and_intros <;> decide +kernel

def aRequest (reply : Option (List (List Byte))) : Request := ⟨7, [], none, true, none, reply, 0⟩
def aGroup : GroupReply := ⟨63, 4095, 7, [], [⟨62, some 0, 0⟩, ⟨63, some 0, 0⟩]⟩

theorem witness_SessionsOpenAnswerAndClose_later :
    (let s := inSession
     let d := dgram 2 4095 4096 1 65535 255
     let x := (s.ses d.session).takeAck d
     s.admits = true ∧ d.group = false ∧ d.clean = true ∧ s.asleep = false ∧ s.sends ∧ d.session = 4095 ∧ (s.ses 4095).opened = true ∧
       (s.ses 4095).epoch = d.epoch ∧ (s.ses 4095).peer = farEnd.peer ∧ (∀ r ∈ x.requests, r.reqId ≠ d.reqId ∨ r.reply = none) ∧
       x.dup d.seq = false ∧ (d.seq + 2 ^ 32 - x.ack % 2 ^ 32) % 2 ^ 32 = 4096 ∧ (∀ r ∈ x.requests, r.reqId ≠ d.reqId) ∧ d.reqId = x.lastReq + 1 ∧
       (x.requests.filter fun r => r.reply.isNone).length < 4 ∧ d.frag ≠ 0 ∧ d.last = false ∧
       d.body.length ≤ min (s.fd (Reg.LSN_MAXREQ_BYTES x.listener)) (16 * 2 ^ 20) ∧ (∀ e ∈ s.net.seqs, e.2.session.map (·.1) ≠ some 4095)) ∧
    (let d := dgram 6 4095 0 1 0 255
     ((inSession.ses 4095).takeAck d).dup d.seq = true ∧ d.typ ≠ 2) ∧
    (inSession.ses 4095).opened = true ∧ 0 < (inSession.ses 4095).unacked ∧ (inSession.ses 4094).opened = false ∧
    (let s := inSession.setSes 4095 { aSession with requests := [aRequest (some [])] }
     (s.ses 4095).opened = true ∧ (∀ r ∈ (s.ses 4095).requests, r.reply.isSome = true) ∧ (∀ e ∈ s.net.seqs, e.2.session.map (·.1) ≠ some 4095)) ∧
    (let s := inSession.setSes 4095 { aSession with requests := [aRequest none] }
     ∃ r ∈ (s.ses 4095).requests, r.reply = none) ∧
    (let s := { inSession with net := { inSession.net with groups := [aGroup] } }
     s.net.groups.find? (fun r => r.session == 4095 && r.reqId == 7) = some aGroup ∧ (⟨63, some 0, 0⟩ : GroupDest) ∈ aGroup.dests ∧
       (∃ z ∈ aGroup.dests, z.dest ≠ 63 ∧ z.outcome = 0)) ∧ up.net.groups = [] := by
  and_intros <;> decide +kernel

/-! ### Flarid links -/

def portAt (st : Nat) (x : PortSt) : State := (up.setF (Reg.FL_STATUS_STATE 15) st).setPort 15 x
def flPkt (mcast : Bool) : FlPacket := ⟨flHeader (flWord0 1 false false false mcast false false 0 0 0) 0 0 16383 65535, flOp 1 0 0 0 0 0 0 0, []⟩

theorem witness_FlaridPortsTrainAndCarryBlocks :
    (∀ st ∈ [0, 1, 2, 3, 4], (portAt st noPort).open ∧ ((portAt st noPort).port 15).dead = false ∧ (portAt st noPort).portState 15 = st ∧
      (portAt st noPort).fd (Reg.FL_STATUS_FAILED 15) = 0 ∧ (portAt st noPort).sends) ∧
    bit (0x80000000#32) 31 = true ∧ bit (0x80000000#32) 30 = false ∧ bit (0#32) 31 = false ∧ bit (0xC0000000#32) 30 = true ∧
    (let s := (portAt 4 noPort).setF (Reg.FL_CTRL_EN 15) 1
     s.portState 15 = 4 ∧ s.on (Reg.FL_CTRL_EN 15) = true) ∧ (portAt 4 noPort).on (Reg.FL_CTRL_EN 15) = false ∧
    ((portAt 2 { noPort with rxBad := 6 }).port 15).rxBad < 7 ∧
    (let x := ((portAt 2 { noPort with rxNext := 8191 }).port 15)
     (4095#12).toNat = x.rxNext % 4096 ∧ x.waiting = [] ∧ (0#12).toNat ≠ x.rxNext % 4096) ∧
    (let x := (portAt 2 { noPort with acked := 4095, txFlits := 8 * 4097 }).port 15
     x.acked + ((0#12).toNat + 4096 - x.acked % 4096) % 4096 < x.blocks ∧ x.blocks ≤ x.acked + ((1#12).toNat + 4096 - x.acked % 4096) % 4096) ∧
    ((portAt 2 noPort).setF (Reg.FL_STATUS_FAILED 15) 16).fd (Reg.FL_STATUS_FAILED 15) = 16 ∧ Nat.testBit 16 4 = true ∧
    ((portAt 2 { noPort with waiting := [flPkt false] }).port 15).waiting[0]? = some (flPkt false) ∧ (flPkt false).mcast = false ∧
    ((portAt 2 { noPort with waiting := [flPkt true] }).port 15).waiting[0]? = some (flPkt true) ∧ (flPkt true).mcast = true ∧
    (let x := (portAt 2 { noPort with marked := [false, false, false, true] }).port 15
     x.marked.getD 3 false = true ∧ x.marked.length = 4 ∧ x.ended.length = 4) ∧
    (portAt 2 noPort).fd (Reg.FL_RATE_RATE 15 3) ≤ 256 ∧
    (let x := (portAt 2 { noPort with ended := [false, false, false, true] }).port 15
     x.marked.getD 3 false = false ∧ x.ended.getD 3 false = true) ∧
    ((portAt 2 noPort).port 15).marked.getD 3 false = false ∧ ((portAt 2 noPort).port 15).ended.getD 3 false = false := by
  and_intros <;> decide +kernel

/-- Port 15 is UP, its key entry 15 admits key 0xFFFF and delivers to instance 63, whose window of page 0 takes remote accesses; the package is 16383. -/
def flOpen : State :=
  let s := ((win63 (zeroed up)).setF (Reg.WIN_BASE_REMOTE 63 7) 1).setF (Reg.FL_STATUS_STATE 15) 2
  (s.wrg (Reg.FL_KEY 15 15) 0xC03FFFFF#32).setF Reg.FL_SRC_ID_SRC 16383
def req (reply mcast : Bool) (hopsM1 hop dst addr argLo argHi : Nat) (data : List Byte) : FlPacket :=
  ⟨flHeader (flWord0 (if reply then 5 else 0) reply false false mcast false false hopsM1 hop data.length) (2 ^ 64 - 1) 5 dst 65535,
    flOp 0xFFFFFFFF 0 0 addr argLo argHi 0 0, data⟩

theorem witness_FlaridPacketsAreDeliveredAndAnswered :
    up.portState 15 ≠ 2 ∧ up.portState 15 ≠ 3 ∧ flOpen.portState 15 = 2 ∧ (⟨[], [], []⟩ : FlPacket).good = false ∧
    (∀ p ∈ [req false true 0 1 16383 0 0 0 [], req false false 0 1 16382 0 0 0 [], req true false 0 1 16383 0 0 0 [], req false false 15 1 16383 0 0 0 []],
      p.good = true ∧ (flOpen.keyEntry 15 (p.arrivedAt 15).pkey).isSome = true) ∧
    ((req false true 0 1 16383 0 0 0 []).arrivedAt 15).mcast = true ∧
    (let p := (req false false 0 1 16382 0 0 0 []).arrivedAt 15
     p.mcast = false ∧ p.hop = p.hops ∧ p.dst ≠ flOpen.srcId) ∧
    (let p := (req true false 0 1 16383 0 0 0 []).arrivedAt 15
     p.mcast = false ∧ p.hop = p.hops ∧ p.dst = flOpen.srcId ∧ p.truncated = false ∧ p.isReply = true) ∧
    (let p := (req false false 15 1 16383 0 0 0 []).arrivedAt 15
     p.mcast = false ∧ p.hop ≠ p.hops ∧ flOpen.portOff (nib p.route p.hop) = false ∧ (flOpen.keyEntry (nib p.route p.hop) p.pkey).isSome = true) ∧
    (up.setF Reg.PWR_STATUS_STATE 3).asleep = true ∧ flOpen.asleep = false ∧ up.target 15 (req false false 0 1 0 0 0 0 []) = none := by
  and_intros <;> decide +kernel

theorem witness_FlaridPacketsAreDeliveredAndAnswered_requests :
    (let p := req false false 0 1 16383 0x1FF000 4096 0 []
     flOpen.accessReason 15 p p.addr (p.o 3).toNat = none ∧ (p.o 3).toNat % 64 = 0 ∧ 0 < (p.o 3).toNat ∧ (p.o 3).toNat ≤ 4096 ∧
       flOpen.rangeReady p.addr (p.o 3).toNat = true ∧ flOpen.asleep = false) ∧
    (let p := req false false 0 1 16383 0x1FFFFE 0 0 [1, 2]
     flOpen.accessReason 15 p p.addr p.data.length = none ∧ flOpen.rangeReady p.addr p.data.length = true ∧ p.addr + p.data.length ≤ dramSize) ∧
    (let p := req false false 0 1 16383 0x1FFFFF 0xFFFFFFFF 0xFFFFFFFF []
     flOpen.accessReason 15 p (p.addr / 8 * 8) 8 = none ∧ flOpen.rangeReady (p.addr / 8 * 8) 8 = true ∧
       flOpen.links.dup.find? (fun e => e.1 == p.dupKey) = none ∧ flOpen.links.dup.length < 65536 ∧ p.addr / 8 * 8 + 8 ≤ dramSize) ∧
    (let s := flOpen.wrg (Reg.PC_CTRL 4095) 0x1FC00000#32
     let p := req false false 0 1 16383 0 0xFFFFFFFF 4095 []
     s.asleep = false ∧ s.target 15 p = some 63 ∧ s.on (Reg.INST_STATUS_IN_RESET 63) = false ∧ s.pcOwned (bits (p.o 4) 11 0) 63 = true ∧
       s.links.dup.find? (fun e => e.1 == p.dupKey) = none ∧ s.links.dup.length < 65536 ∧ bits (p.o 4) 11 0 = 4095) ∧
    (let p := req false false 0 1 16383 0 1 1 []
     let s := { flOpen with links := { flOpen.links with dup := [(p.dupKey, flPkt false)] } }
     s.asleep = false ∧ s.links.dup.find? (fun e => e.1 == p.dupKey) = some (p.dupKey, flPkt false) ∧ s.rangeReady (p.addr / 8 * 8) 8 = true) := by
  and_intros <;> decide +kernel

/-- Group 4095 delivers to this package alone. -/
def grouped (s : State) : State := { s with links := { s.links with groups := [(4095, 0x80018000#32)] } }
def mcPkt (addr : Nat) (data : List Byte) : FlPacket := req false true 0 1 4095 addr 0 0 data
def receiving : State := ((grouped flOpen).setF Reg.CE_MC_RX_CTRL_OWNER 63).setF Reg.CE_MC_RX_CTRL_EN 1 |>.setF Reg.CE_MC_RX_CTRL_GROUP 4095
def noticeOf (kind : Nat) : FlPacket := ⟨[], flOp 0 0 0 0 (kind * 2 ^ 28 + 16383) 0 0 0, []⟩

theorem witness_FlaridPacketsAreDeliveredAndAnswered_multicast :
    flOpen.groupEntry (mcPkt 0 []) = none ∧
    (let s := grouped flOpen
     let p := mcPkt 0x1FFFFE [1, 2]
     s.groupEntry p = some 0x80018000#32 ∧ bit (0x80018000#32) 16 = true ∧
       (List.range 16).filter (fun k => bit (0x80018000#32) k && some k ≠ some 15) = [] ∧ p.truncated = false ∧ s.fd Reg.PWR_STATUS_STATE ≠ 3 ∧
       s.accessReason 15 p p.addr p.data.length = none ∧ s.rangeReady p.addr p.data.length = true ∧ p.addr + p.data.length ≤ dramSize ∧
       s.rxTakes 15 p = false) ∧
    (let p := mcPkt 0x1FFFFE [1, 2]
     receiving.groupEntry p = some 0x80018000#32 ∧ receiving.fd Reg.PWR_STATUS_STATE ≠ 3 ∧ receiving.rxTakes 15 p = true ∧
       receiving.rangeReady (receiving.rxAddr + p.addr) p.data.length = true ∧ receiving.rxAddr + p.addr + p.data.length ≤ dramSize) ∧
    bits ((noticeOf 2).o 3) 31 28 = 2 ∧ bits ((noticeOf 1).o 3) 31 28 = 1 ∧ bits ((noticeOf 15).o 3) 31 28 = 15 := by
  and_intros <;> decide +kernel

/-- A request of this package, and states that track it or hold it at the egress. -/
def flReq (id order : Nat) (later fence : Bool) : FlReq :=
  ⟨id, 16383, order, 0, false, fence, 0, 64, 0, [], 0, 0, 0, 0, .rload 575 0 15 0 0x5FFFC0, 0, 0, 15, later⟩
def tracking (rs es : List FlReq) : State := { inStep up with links := { up.links with tracked := rs, egress := es } }
def replyTo (id status : Nat) : FlPacket :=
  ⟨flHeader (flWord0 4 true false false false false false 0 1 64) 0 16383 0 0, flOp id 0 status 0 0 0 0 0, List.replicate 64 7⟩

theorem witness_RequestsRepliesAndTablesOfTheLinks :
    up.trackedReq (replyTo 9 0).reqId (replyTo 9 0).src = none ∧
    (let s := tracking [flReq 9 0 false false] []
     let r := flReq 9 0 false false
     s.trackedReq (replyTo 9 0).reqId (replyTo 9 0).src = some r ∧ s.links.egress = [] ∧ (replyTo 9 0).echo = false ∧
       r.use = .rload 575 0 15 0 0x5FFFC0 ∧ s.reqLive r = true ∧ 0x5FFFC0 + (replyTo 9 0).data.length = 0x600000 ∧ (replyTo 9 5).status = 5 ∧
       (replyTo 9 6).status = 6 ∧ s.links.tracked.find? (fun r => r.id == (9#32).toNat && ! r.later) = some r ∧
       r.epoch = tget 0 s.links.epochOut r.dest ∧
       s.links.tracked.find? (fun r => r.id == (replyTo 9 0).reqId && r.epoch == (replyTo 9 0).epoch && ! r.later) = some r) ∧
    (tracking [flReq 0xFFFFFFFF 0 true false] []).links.tracked.find? (fun r => r.id == (0xFFFFFFFF#32).toNat && r.later) = some (flReq 0xFFFFFFFF 0 true false) ∧
    (∀ r ∈ up.links.tracked, r.id ≠ 9) ∧
    (let r := flReq 9 1 false true
     (tracking [] [r]).links.egress.find? (fun r => r.id == 9 && r.fence) = some r ∧ (tracking [] [r]).earlier r = false ∧
       (tracking [] [r]).links.tracked.length < 16384 ∧ (tracking [flReq 8 0 false false] [r]).earlier r = true) ∧
    (let e : RouteEnt := { noRouteEnt with failed := [false, false, false, true] }
     (({ up with links := { up.links with routes := [(16383, e)] } } : State).routeEnt (16383#14).toNat).failed.getD 3 false = true) ∧
    (up.routeEnt (16383#14).toNat).failed.getD 3 false = false := by
  and_intros <;> decide +kernel

def rtWindow (ctrl : Word) : State :=
  let s := (List.range 4).foldl (fun s r => (s.wrg (Reg.FL_RT_LO_N r) 0xFFFFFFFF#32).wrg (Reg.FL_RT_HI_N r) 0xFFFFFFFF#32) up
  s.wrg (Reg.FL_RT_CTRL 3) ctrl

theorem witness_RequestsRepliesAndTablesOfTheLinks_tables :
    (let s := (rtWindow 0).setF (Reg.FL_RT_CTRL_VALID 3) 1 |>.setF (Reg.FL_RT_CTRL_HOPS 3) 16
     s.open ∧ ((List.range 4).all fun r => s.rtCpl r) = true ∧ ((List.range 4).all fun r => (s.rtRoute r).ok) = true ∧ (s.rtRoute 3).valid = true) ∧
    (let s := (rtWindow 0).setF (Reg.FL_RT_CTRL_VALID 3) 1 |>.setF (Reg.FL_RT_CTRL_HOPS 3) 17
     s.open ∧ ((List.range 4).all fun r => s.rtCpl r) = true ∧ ((List.range 4).all fun r => (s.rtRoute r).ok) = false) ∧
    ((List.range 4).all fun r => (up.wrg (Reg.FL_RT_LO_N 3) 1).rtCpl r) = false ∧
    (let s := up.wrg Reg.FL_MC_ENTRY_N 0xFFFFFFFF#32
     s.open ∧ s.rg Reg.FL_MC_ENTRY_N = ~~~(s.rg Reg.FL_MC_ENTRY)) ∧
    (let s := up.wrg Reg.FL_MC_ENTRY_N 0xFFFFFFFE#32
     s.open ∧ s.rg Reg.FL_MC_ENTRY_N ≠ ~~~(s.rg Reg.FL_MC_ENTRY)) ∧
    (let s := up.stageWrite (Reg.FL_KEY 15 15) 0xC03FFFFF#32
     s.open ∧ 0x3FC00000#32 = ~~~(s.stagedAt (Reg.FL_KEY 15 15)) ∧ 0x3FC00001#32 ≠ ~~~(s.stagedAt (Reg.FL_KEY 15 15))) ∧
    (let s := up.stageWrite (Reg.FL_INST_KEY 63) 0x8000FFFF#32
     s.open ∧ 0x7FFF0000#32 = ~~~(s.stagedAt (Reg.FL_INST_KEY 63)) ∧ 0#32 ≠ ~~~(s.stagedAt (Reg.FL_INST_KEY 63))) ∧
    bits (0x00003FFF#32) 29 16 + bits (0x00003FFF#32) 13 0 = 16383 ∧ (∀ p, p < 16 → up.portState p = 0) ∧
    (∃ p, p < 16 ∧ (portAt 4 noPort).portState p ≠ 0) := by
  and_intros <;> decide +kernel

/-! ### Exchange and repair -/

def gateState (v : Word) : State := (up.wrg (Reg.PC_CTRL 4095) 0x1FC00000#32).wrg (Reg.XCH_GATE_CTRL 63) v
def casting : State := { lastPage with links := { up.links with casts := [(63, ⟨4095, dramSize - 64, 64, false⟩)] } }

theorem witness_GatesBroadcastsAndStatisticsAreArmed :
    (let v : Word := 0x8FFFFFFF#32
     (gateState 0).open ∧ bit v 31 = true ∧ (gateState 0).pcOwned (bits v 27 16) 63 = true ∧ bits v 15 0 = 65535 ∧ (gateState 0).instRuns 63 = false ∧
       up.pcOwned (bits v 27 16) 63 = false ∧ bits (0x8FFF0000#32) 15 0 = 0 ∧ (up.setSeq 0 (runSeq false)).instRuns 63 = true) ∧
    (let s := { gateState 0x8FFF0005#32 with net := { up.net with gateFrom := [(63, 0)] } }
     s.open ∧ bit (0#32) 31 = false ∧ bits (0#32) 15 0 = 0) ∧
    (let s := (win63 up).wrg (Reg.XCH_BC_BYTES 63) 0x200000
     s.open ∧ bit (0x8FFF0000#32) 31 = true ∧ bit (0x8FFF0000#32) 29 = false ∧ thas s.links.casts 63 = false ∧
       s.inWindow 63 (s.bcSrc 63) (s.rg (Reg.XCH_BC_BYTES 63)).toNat = true) ∧
    thas casting.links.casts 63 = true ∧ up.inWindow 63 (up.bcSrc 63) 0 = false ∧ bit (0xA0000000#32) 29 = true ∧
    casting.links.casts.find? (fun e => e.1 == 63) = some (63, ⟨4095, dramSize - 64, 64, false⟩) ∧ casting.rangeReady (dramSize - 64) 64 = true ∧
    casting.on (Reg.FL_INST_KEY_VALID 63) = false ∧ thas up.links.casts 63 = false ∧
    (let s := (win63 up).setF (Reg.STAT_SHAPE_SLICES 63) 4096 |>.setF (Reg.STAT_SHAPE_PIECES 63) 4
     s.open ∧ s.fd (Reg.STAT_SHAPE_SLICES 63) * s.fd (Reg.STAT_SHAPE_PIECES 63) = 16384 ∧ s.inWindow 63 (s.statBase 63) (16 * 16384) = true) ∧
    up.inWindow 63 (up.statBase 63) (16 * (up.fd (Reg.STAT_SHAPE_SLICES 63) * up.fd (Reg.STAT_SHAPE_PIECES 63))) = false ∧
    bit (0x40000000#32) 31 = false ∧ bit (0x40000000#32) 30 = true := by
  and_intros <;> decide +kernel

def clusterReport (unit detail : Nat) (byCount : Bool) : Report := ⟨clusterStop 575, unit, detail, byCount⟩
def collecting (x : Collector) : State := { up with repair := { up.repair with collectors := [(31, x)] } }
def anIncident (unit : Nat) (action st : Nat) : Incident := ⟨clusterReport unit 0 true, action, st, 0, 1⟩
def fullSlots : Table Incident := (List.range 32).map fun k => (k, anIncident 3 3 0)

theorem witness_FaultReportsOpenMergeAndCloseIncidents :
    collectorOf (clusterStop 575) = 31 ∧ stopUnit (clusterStop 575) = some 575 ∧ (clusterStop 575 < 65536) ∧
    (let s := collecting ⟨[(0, anIncident 1 1 0)], [], false⟩
     (s.collector 31).find (clusterReport 1 0 true) = some (0, anIncident 1 1 0)) ∧
    (let s := { up with repair := { up.repair with fenced := [575] } }
     (s.collector 31).find (clusterReport 1 0 true) = none ∧ s.isFenced 575 = true) ∧
    (up.collector 31).find (clusterReport 1 0 true) = none ∧ up.isFenced 575 = false ∧ (up.collector 31).freeSlot = some 0 ∧
    up.spareUsed 575 = false ∧ (inStep up).net.step = some aStep ∧ aStep.committed = false ∧
    (∀ q ∈ [[], List.replicate 1024 (clusterReport 9 0 true)], let s := collecting ⟨fullSlots, q, false⟩
     (s.collector 31).find (clusterReport 1 0 true) = none ∧ (s.collector 31).freeSlot = none ∧ (s.collector 31).queue = q) ∧
    up.on Reg.FH_SUMMARY_FAILED = false ∧
    (let i := anIncident 3 3 0
     let s := (collecting ⟨[(31, i)], [], false⟩).setCl 575 { noCluster with migrating := some (0, false) }
     (s.collector 31).slots.find? (fun e => e.1 == 31) = some (31, i) ∧ s.repairing i = true) ∧
    (let i := anIncident 1 6 1
     let s := (collecting ⟨[(31, i)], [], false⟩).setStep (some { aStep with replaying := true })
     (s.collector 31).slots.find? (fun e => e.1 == 31) = some (31, i) ∧ s.replayPending i = true) ∧
    (let i := anIncident 3 3 0
     let s := collecting ⟨[(31, i)], [], false⟩
     s.repairing i = false ∧ s.replayPending i = false ∧ (s.collector 31).queue = [] ∧ (s.collector 31).lost = false) ∧
    thas (up.collector 31).slots 31 = false := by
  and_intros <;> decide +kernel

/-- Region 0 with one active cluster, whose context waits. -/
def waitCl (w : Wait) (ws : List (Nat × Word)) (tiles : List Tile) : ClusterSt :=
  { noCluster with planes := [(0, actPlane ws)], ctxs := [(0, { noCtx with st := .waiting, wait := w })], recvs := [(28, ⟨tiles, 0, false⟩)] }
def blocked (w : Wait) (ws : List (Nat × Word)) (tiles : List Tile) : State := (inStep up).setCl 0 (waitCl w ws tiles)
def expired0 (s : State) : State := { s with net := { s.net with expired := 0 :: s.net.expired.filter (· ≠ 0) } }
def barOf16 (s : State) : State := s.setSlot 0 { barSlot with planes := [(8 * 16, [(17, 0xB000E000#32)])] }

theorem witness_DeadlockWindows :
    up.net.step = none ∧ (inStep up).regionBlocked 0 = false ∧
    (let s := blocked (.recv 7 0) [(0, 1#32)] []
     s.net.step = some aStep ∧ s.regionBlocked 0 = true ∧ (s.regionWaits 0).all (fun e => s.atGate e.1 e.2) = false ∧
       (expired0 s).spillCandidate 0 = none ∧ (s.regionWaits 0).all (fun e => (expired0 s).excused e.1 e.2) = false) ∧
    (let s := barOf16 (blocked (.barrier 14) [(0, 1#32)] [])
     s.net.step = some aStep ∧ s.regionBlocked 0 = true ∧ (s.regionWaits 0).all (fun e => s.atGate e.1 e.2) = false ∧
       (expired0 s).spillCandidate 0 = none ∧ (s.regionWaits 0).all (fun e => (expired0 s).excused e.1 e.2) = true) ∧
    (let s := (blocked (.credit 0) [(0, 1#32), (0x9620, 0x80002000#32)] [aTile 0 false]).setSlot 0 { barSlot with sections := [(0, [0, 0, 0, 0, 16])] }
     let r := (s.cl 0).recvEp (epKey 0 7)
     s.net.step = some aStep ∧ s.regionBlocked 0 = true ∧ (s.regionWaits 0).all (fun e => s.atGate e.1 e.2) = false ∧
       (expired0 s).spillCandidate 0 = some (0, 0, 7, 0) ∧ ((s.cl 0).plane 0).bpc 7 = 1 ∧
       (r.tiles.filter fun y => y.spilledAt.isNone).length ≤ ((expired0 s).spillFree aStep.slot ((expired0 s).sectOf 0)).length ∧
       tget 0 (s.net.lastSpill.map fun e => (e.1, e.2 + 1)) 0 ≠ epKey 0 7 + 1) := by
  and_intros <;> decide +kernel

/-! ### Images and planes -/

/-- A LOAD_PROGRAM into slot 1023 from a source, an EVICT of it; a header of an image of one chunk of 512 bytes. -/
def loadDesc (src : Word) : Desc := aDesc 6 .admitted [(4, 0xFFC00000#32 ||| (src <<< 20)), (5, 0), (7, 832)]
def evictDesc (unreg : Nat) : Desc := aDesc 7 .admitted [(4, BitVec.ofNat 32 (0xFFC00000 + unreg * 2 ^ 21))]
def goodHead : List Word := [0, 0, 512, 0, 1] ++ List.replicate 75 0
def storeEntry : LibEntry := { aLib with isShared := true, head := goodHead }
def active (p : ProgSlot) : State := let s := up.setSlot 1023 p; { s with images := { s.images with active := some 1023 } }

theorem witness_ImagesAreClaimedCheckedRegisteredAndEvicted :
    (let s := (withDesc up (loadDesc 0)).setSlot 1023 (aSlot 63)
     s.hasWork 4095 7 6 3 (loadDesc 0) ∧ s.claim 1023 0 (some 5) = some 14 ∧ bits ((loadDesc 0).w 4) 31 22 = 1023) ∧
    (let s := withDesc up (loadDesc 0)
     s.hasWork 4095 7 6 3 (loadDesc 0) ∧ s.claim 1023 0 (some 5) = none ∧ s.images.active = none ∧ bits ((loadDesc 0).w 4) 21 20 = 0 ∧
       (headerOk goodHead && bits (goodHead.getD 0 0) 31 28 == 0 && decide (payloadOffset goodHead + headerBytes goodHead ≤ ((loadDesc 0).w 7).toNat)) = true ∧
       payloadOffset goodHead + headerBytes goodHead = 832 ∧ headerOk [] = false) ∧
    (let s := withDesc (active noSlot) (loadDesc 0)
     s.hasWork 4095 7 6 3 (loadDesc 0) ∧ s.claim 1023 0 (some 5) = none ∧ s.images.active.isSome = true) ∧
    (let s := (withDesc (zeroed (window up)) (loadDesc 1)).wrWords 0 goodHead
     s.hasWork 4095 7 6 3 (loadDesc 1) ∧ bits ((loadDesc 1).w 4) 21 20 = 1 ∧ s.inWindow 0 0 832 = true ∧ s.rangeReady 0 832 = true ∧
       s.rdWords 0 (payloadOffset (s.rdWords 0 64) / 4) = goodHead) ∧
    (let s := withDesc up (loadDesc 1)
     s.hasWork 4095 7 6 3 (loadDesc 1) ∧ s.claim 1023 0 (some 5) = none ∧ s.images.active = none ∧ s.inWindow 0 0 832 = false) ∧
    (let s := (withDesc up (loadDesc 2)).setLib 0 storeEntry
     s.hasWork 4095 7 6 3 (loadDesc 2) ∧ s.storeMaint = false ∧ s.entryRefuses 0 0 = none ∧ (s.lib 0).head = goodHead) ∧
    (let s := withDesc up (loadDesc 2)
     s.hasWork 4095 7 6 3 (loadDesc 2) ∧ s.storeMaint = false ∧ s.entryRefuses 0 0 = some 15) := by
  and_intros <;> decide +kernel

/-- A slot being registered whose next chunk, the second of three, comes from host memory into an area that is not zeroed. -/
def loading : ProgSlot := { noSlot with phase := 1, bytes := 3 * 2 ^ 20, chunksRead := 1, dramBase := 2 ^ 21 }
def zeros : List Byte := List.replicate (2 ^ 20) 0

theorem zeros_length : zeros.length = 2 ^ 20 := List.length_replicate

theorem walk_next_writes (group n : Nat) (fr : Nat → Frame) (x : Walk) (f : Frame) (w : Nat × List Byte) (h : w ∈ x.writes) :
    w ∈ (Walk.next group n fr x f).writes := by
  unfold Walk.next
  grind

theorem walk_all_writes (group n : Nat) (fr : Nat → Frame) (l : List Frame) (x : Walk) (w : Nat × List Byte) (h : w ∈ x.writes) :
    w ∈ (l.foldl (Walk.next group n fr) x).writes := by
  induction l generalizing x with
  | nil => exact h
  | cons f l ih => exact ih _ (walk_next_writes group n fr x f w h)

theorem chunk_from_host (s : State) (p : ProgSlot) (data : List Byte) (hs : p.source = 0)
    (h : data.length = min (2 ^ 20) (p.bytes - p.chunksRead * 2 ^ 20)) : s.chunkBytes p data = some data := by
  simp only [State.chunkBytes, hs, ← h]
  simp

theorem witness_ImagesAreClaimedCheckedRegisteredAndEvicted_chunks :
    up.images.active = none ∧ (active { loading with chunksRead := 3 }).images.active = some 1023 ∧ ceilDiv loading.bytes (2 ^ 20) ≤ 3 ∧
    (let s := active loading
     s.images.active = some 1023 ∧ s.slot 1023 = loading ∧ loading.chunksRead + 1 < ceilDiv loading.bytes (2 ^ 20) ∧ loading.source ≠ 1 ∧
       s.chunkBytes loading zeros = some zeros ∧ (s.walkChunk loading zeros false).writes = [] ∧
       ((s.walkChunk loading zeros true).writes.all fun w => s.rangeReady (loading.dramBase + w.1) w.2.length) = false) := by
  refine ⟨rfl, rfl, by decide, rfl, rfl, by decide, by decide, ?_, rfl, ?_⟩
  · exact chunk_from_host _ _ _ rfl (by rw [zeros_length]; decide +kernel)
  · have hm : ((2 ^ 20, zeros) : Nat × List Byte) ∈ ((active loading).walkChunk loading zeros true).writes := by
      unfold State.walkChunk
      exact walk_all_writes _ _ _ _ _ _ (by simp [loading, noSlot])
    refine List.all_eq_false.2 ⟨_, hm, ?_⟩
    rw [zeros_length]
    decide +kernel

def keyed (p : ProgSlot) : State := { active p with store := { up.store with keys := [(0, ⟨true, true, []⟩)] } }
def stagedSlot : ProgSlot := { aSlot 0 with header := List.replicate 16 0x1B#32, released := [3, 2, 1], desc := some 3 }

theorem witness_ImagesAreClaimedCheckedRegisteredAndEvicted_ends :
    (keyed loading).images.active = some 1023 ∧ ((keyed loading).key 0).valid = true ∧ loading.sigDone = false ∧
    loading.chunksRead < ceilDiv loading.bytes (2 ^ 20) ∧ (active { loading with sigDone := true }).slot 1023 = { loading with sigDone := true } ∧
    (let p := { loading with chunksRead := 3 }
     ceilDiv p.bytes (2 ^ 20) ≤ p.chunksRead ∧ p.fail = 0 ∧ (keyed p).slot 1023 = p ∧ (keyed p).on Reg.CE_MC_RX_CTRL_EN = false) ∧
    ((active { loading with chunksRead := 3 }).key 0).valid = false ∧ (1023 : Nat) < 1024 ∧
    (up.slot 1023).phase ≠ 2 ∧ stagedSlot.phase = 2 ∧ stagedSlot.released.length = 3 ∧ stagedSlot.preload = false ∧ stagedSlot.told = false ∧
    stagedSlot.origin = 0 ∧ stagedSlot.desc = some 3 := by
  and_intros <;> decide +kernel

/-- Autostart record 7 loads entry 4095 into slot 1023; it alone is VALID. -/
def autos (lib : LibEntry) : State :=
  let s := (up.setF Reg.GS_STATUS_SETUP_RESTORED 1).setLib 4095 lib
  { s with store := { s.store with autos := [(7, [0x80FFF3FF#32, 0, 0])] } }

theorem witness_ImagesAreClaimedCheckedRegisteredAndEvicted_autostart :
    up.on Reg.GS_STATUS_SETUP_RESTORED = false ∧
    (let s := autos storeEntry
     s.on Reg.GS_STATUS_SETUP_RESTORED = true ∧ s.images.active = none ∧ s.storeMaint = false ∧ s.nextAuto = some 7 ∧
       (s.images.slots.any fun e => e.2.origin == 7 + 2 && ! e.2.told) = false ∧ bits (0x80FFF3FF#32) 23 12 = 4095 ∧ bits (0x80FFF3FF#32) 9 0 = 1023 ∧
       s.claim 1023 0 none = none ∧ s.entryRefuses 4095 0 = none ∧ headerOk (s.lib 4095).head = true ∧ bits ((s.lib 4095).head.getD 0 0) 31 28 = 0) ∧
    (let s := autos noEntry
     s.nextAuto = some 7 ∧ ((s.claim 1023 0 none).orElse fun _ => s.entryRefuses 4095 0) = some 15) := by
  and_intros <;> decide +kernel

def evictState (p : ProgSlot) (u : Nat) : State := (withDesc up (evictDesc u)).setSlot 1023 p

theorem witness_ImagesAreClaimedCheckedRegisteredAndEvicted_evict :
    (∀ u ∈ [0, 1], bits ((evictDesc u).w 4) 31 22 = 1023 ∧ (evictState noSlot u).hasWork 4095 7 7 3 (evictDesc u) ∧
      ((evictState noSlot u).slot 1023).phase = 0 ∧ (evictState (aSlot 63) u).hasWork 4095 7 7 3 (evictDesc u) ∧
      ((evictState (aSlot 63) u).slot 1023).phase = 2 ∧ ((evictState (aSlot 63) u).slot 1023).inst = 63 ∧
      (evictState (aSlot 0) u).hasWork 4095 7 7 3 (evictDesc u) ∧ (evictState (aSlot 0) u).runsBefore 1023 5 = false ∧
      ((evictState (aSlot 0) u).net.step.any fun x => x.slot == 1023) = false ∧ ((evictState (aSlot 0) u).slot 1023).inst = (evictDesc u).inst) ∧
    (evictState { aSlot 0 with phase := 1 } 0).hasWork 4095 7 7 3 (evictDesc 0) ∧ ((evictState { aSlot 0 with phase := 1 } 0).slot 1023).phase = 1 ∧
    ((evictState (aSlot 0) 1).setDesc 4 { aRun with ring := 0, pos := 0, order := 4 }).hasWork 4095 7 7 3 (evictDesc 1) ∧
    ((evictState (aSlot 0) 1).setDesc 4 { aRun with ring := 0, pos := 0, order := 4 }).runsBefore 1023 5 = true ∧
    ((evictState (aSlot 0) 1).setStep (some { aStep with slot := 1023 })).hasWork 4095 7 7 3 (evictDesc 1) ∧
    (((evictState (aSlot 0) 1).setStep (some { aStep with slot := 1023 })).net.step.any fun x => x.slot == 1023) = true := by
  and_intros <;> decide +kernel

/-- Slot 1023 with one plane for logical cluster 511, on cluster 573. -/
def planeSlot (preload : Bool) : ProgSlot :=
  { aSlot 0 with planes := [(8 * 511 + 7, [(0, 1)])], sections := [(0, [])], released := [0], preload := preload, desc := some 3 }
def loadState (preload : Bool) (free : Bool) : State :=
  let s := (withDesc up (loadDesc 0)).setSlot 1023 (planeSlot preload)
  if free then s else s.setCl 573 { noCluster with planes := (List.range 8).map fun q => (q, inPlane 3 1 1) }
def scrubbed (st : Nat) : State := on575 { noCluster with planes := [(7, inPlane st 0 0)] }

theorem witness_PlanesAreWrittenScrubbedAndMulticast :
    (up.slot 1023).phase ≠ 2 ∧ up.planesFor 573 1023 0 = [] ∧
    (∀ pre ∈ [false, true], ∀ free ∈ [false, true], let s := loadState pre free
     (s.slot 1023).phase = 2 ∧ (s.slot 1023).evicting = false ∧ (s.slot 1023).released.contains 0 = true ∧ s.isFenced 573 = false ∧ s.awake ∧
       s.planesFor 573 1023 0 = [(8 * 511 + 7, [(0, 1)])] ∧ pkgFits (s.pkgAll ++ pkgNames [imagePlane (8 * 511 + 7) [(0, 1)]]) = true ∧
       (∀ q, q < 8 → ((s.cl 573).plane q).st ≠ 0 → ((s.cl 573).plane q).slot = 1023 → ((s.cl 573).plane q).key ≠ 8 * 511 + 7) ∧
       s.net.step = none ∧ (s.slot 1023).preloaded = false ∧ (s.slot 1023).told = false ∧ (s.slot 1023).firstSect = 0 ∧ (s.slot 1023).origin = 0) ∧
    (List.range 8).find? (fun q => (((loadState false true).cl 573).plane q).st == 0) = some 0 ∧ (loadState false false).planeSpace 573 1023 0 = none ∧
    (loadState true false).planeSpace 573 1023 0 = none := by
  and_intros <;> decide +kernel

def mcRx (en : Nat) : State := up.setF Reg.CE_MC_RX_CTRL_EN en
def rxOpen : State := win63 up

theorem witness_PlanesAreWrittenScrubbedAndMulticast_later :
    ((scrubbed 1).cl 575 |>.plane 7).st < 2 ∧ (∀ st ∈ [2, 3, 4], 2 ≤ ((scrubbed st).cl 575 |>.plane 7).st) ∧ (scrubbed 2).isFenced 575 = false ∧
    (scrubbed 3).essentialWord ((scrubbed 3).cl 575 |>.plane 7) 5119 = true ∧
    (let s := (scrubbed 3).setSlot 0 { noSlot with essential := [(0, List.replicate 640 0)] }
     s.essentialWord (s.cl 575 |>.plane 7) 5119 = false) ∧
    (up.setF Reg.CE_MC_TX_EN 1).on Reg.CE_MC_TX_EN = true ∧ (up.setF Reg.CE_MC_TX_EN 1).open ∧ up.on Reg.CE_MC_TX_EN = false ∧ (mcRx 1).open ∧
    (mcRx 1).on Reg.CE_MC_RX_CTRL_EN = true ∧ up.on Reg.CE_MC_RX_CTRL_EN = false ∧ bit (0xBFFFF3FF#32) 31 = true ∧ bits (0xBFFFF3FF#32) 29 24 = 63 ∧
    (up.inWindow 63 up.rxAddr 1 && up.inWindow 63 up.rxBase 1) = false ∧ (rxOpen.inWindow 63 rxOpen.rxAddr 1 && rxOpen.inWindow 63 rxOpen.rxBase 1) = true ∧
    rxOpen.open ∧ (writing 0).open ∧ (writing 0).store.writing.isSome = true ∧ up.store.writing = none ∧
    (let s := { mcRx 1 with images := { up.images with rxSeen := true } }
     s.on Reg.CE_MC_RX_CTRL_EN = true ∧ s.images.rxSeen = true ∧ s.rxComplete = false ∧ s.rxLoading = false) := by
  and_intros <;> decide +kernel


/-! ### Power and temperature -/

/-- The device in a power state, with a power part and the temperature of its hottest die. -/
def inPower (st : Nat) (f : PowerSt → PowerSt) (hot : Nat) : State :=
  let s := (up.setF Reg.PWR_STATUS_STATE st).setF Reg.TH_HOT_TEMP hot
  { s with power := f s.power }
def budgetCmds (n each : Nat) (bad : Bool) : List (Nat × Nat × Bool) := (List.range n).map fun k => (each, k, bad && k == 31)

theorem witness_PowerFrequenciesAndAlertsFollowTheirRules :
    (∀ st ∈ [0, 1], let s := inPower st id 0
      s.fd Reg.PWR_STATUS_STATE < 2 ∧ s.power.trip = false ∧ s.effectiveCap = 3000 ∧ (budgetCmds 31 1 false).length ≠ 32 ∧
        s.effectiveCap < 100 + ((budgetCmds 32 91 false).map fun c => c.1).sum ∧ (budgetCmds 32 90 true).length = 32 ∧
        100 + ((budgetCmds 32 90 true).map fun c => c.1).sum ≤ s.effectiveCap) ∧
    2 ≤ (inPower 2 id 0).fd Reg.PWR_STATUS_STATE ∧ (inPower 1 (fun p => { p with trip := true }) 0).power.trip = true ∧
    up.fd Reg.PWR_STATUS_STATE = 0 ∧ (inPower 1 id 0).fd Reg.PWR_STATUS_STATE ≠ 0 ∧
    { up with repair := { up.repair with fenced := [575] } }.isFenced 575 = true ∧ up.isFenced 575 = false ∧ up.power.gap = false ∧
    (∀ n ∈ [0, 1], let s := inPower 1 (fun p => { p with gap := true, debt := 1200, energy := 300, periods := n }) 0
      s.power.gap = true ∧ s.power.periods = n) ∧
    ([31] : List Nat).contains 31 = true ∧ up.power.stretch.contains 31 = false ∧ up.power.alert = false ∧ up.power.floorCount = false ∧
    (inPower 1 (fun p => { p with alert := true }) 0).power.alert = true ∧
    (inPower 1 (fun p => { p with floorCount := true }) 0).power.floorCount = true ∧ (inPower 1 (fun p => { p with floorCount := true }) 0).power.alert = false ∧
    up.open ∧ up.on Reg.PWR_CTRL_MODE = false ∧ bits 119#32 8 0 < 120 ∧ 300 < bits 301#32 8 0 ∧ bits 120#32 8 0 = 120 ∧ bits 300#32 8 0 = 300 ∧
    bit 0x40000078#32 30 = true ∧ bit 300#32 30 = false ∧ up.anyRun = false ∧ (up.setSeq 9 { noSeq with state := .ready }).anyRun = true ∧
    (up.setF Reg.PWR_CTRL_MODE 1).on Reg.PWR_CTRL_MODE = true := by
  and_intros <;> decide +kernel

theorem test_droop : (after (.droop 31) up).rg Reg.DROOP_EVENTS = 1#32 := by decide +kernel

def busyWays : List State := [writing 0, up.setF Reg.PWR_CTRL_MODE 1, withDesc up aRun]
def fiveDies (t : Int) : List (List Int) := List.replicate 5 (List.replicate 32 t)

theorem witness_HeatFansAndRestFollowTheirRules :
    (fiveDies 1600).length = 5 ∧
    (∀ t ∈ [(1600 : Int), 1680, 1700, 1760, 1840], (hottest 0 ((fiveDies t).mapIdx fun d ts => dieTemp (if d = 4 then 2 else 8) ts)).2 = t) ∧
    dieTemp 8 [] = (0, 1600) ∧ (inPower 1 id 0).power.trip = false ∧
    up.on Reg.PWR_STATUS_THROTTLE = false ∧ (up.setF Reg.PWR_STATUS_THROTTLE 1).on Reg.PWR_STATUS_THROTTLE = true ∧ up.hot < 960 ∧
    up.fd Reg.TH_WARN_TEMP ≤ 1600 ∧ up.mgmt.controllerReset = false ∧ up.mgmt.hubDead = false ∧
    (∀ h ∈ [1600, 1599, 1553, 1552], let s := (inPower 1 id h).setF Reg.PWR_STATUS_THROTTLE 1
      s.on Reg.PWR_STATUS_THROTTLE = true ∧ s.hot = h) ∧
    bit 0x80000000#32 31 = true ∧ bit 0x80000000#32 30 = false ∧ bit 0xC0000000#32 30 = true ∧ bit 0x40000000#32 31 = false ∧ up.open ∧
    (∀ s ∈ busyWays, s.open ∧ s.restBusy = true ∧ s.fd Reg.PWR_STATUS_STATE < 2) ∧ up.restBusy = false ∧ up.fd Reg.PWR_STATUS_STATE < 2 ∧
    (∀ st ∈ [2, 3, 4], (inPower st id 0).fd Reg.PWR_STATUS_STATE = st ∧ (inPower st id 0).open) ∧
    (inPower 2 (fun p => { p with trigger := true }) 0).power.trigger = true ∧
    (inPower 4 (fun p => { p with held := [(2, [0])] }) 0).power.held = [(2, [0])] := by
  and_intros <;> decide +kernel

theorem witness_HeatSettingsOutOfRangeAreIgnored :
    up.open ∧ bits 959#32 15 0 < 960 ∧ 1600 < bits 1601#32 15 0 ∧ bits 0x00202000#32 15 8 ≤ bits 0x00202000#32 23 16 ∧ 100 < bits 0x65000000#32 31 24 ∧
    (BitVec.ofNat 32 Reg.TH_WARN).toNat = Reg.TH_WARN ∧ (BitVec.ofNat 32 Reg.FAN_CTRL).toNat = Reg.FAN_CTRL ∧
    (up.setF Reg.GS_STATUS_STAGE 5).open ∧ (up.setF Reg.GS_STATUS_STAGE 5).mctpServes true = true ∧
    (up.setF Reg.GS_STATUS_STAGE 5).on Reg.GS_STATUS_RECOVERY = false := by
  and_intros <;> decide +kernel

/-! ### Reset, boot and shutdown -/

def withMgmt (s : State) (f : MgmtSt → MgmtSt) : State := s.setMgmt (f s.mgmt)
/-- A module in a shutdown, in its cold reset, and in a boot stage. -/
def shutting : State := up.setF Reg.GS_STATUS_SHUTTING_DOWN 1
def coldNow : State := withMgmt State.reset fun m => { m with inColdReset := true }
def inBoot (st : Nat) : State := (up.setF Reg.GS_STATUS_READY 0).setF Reg.GS_STATUS_STAGE st

theorem witness_ColdResetsKeepWhatTheirTableKeeps :
    State.reset.noneDeleting ∧ up.noneDeleting ∧ up.inShutdown = false ∧ shutting.inShutdown = true ∧ shutting.open ∧ up.mgmt.inColdReset = false ∧
    coldNow.mgmt.inColdReset = true ∧ coldNow.inCold = true ∧ up.inCold = false ∧ up.open ∧
    bits 0x0C010C01#32 31 16 + bits 0x0C010C01#32 15 0 ≠ 65535 ∧ bits 0xF3FC0C03#32 31 16 + bits 0xF3FC0C03#32 15 0 = 65535 ∧
    bits 0xF3FC0C03#32 15 0 ≠ 0x0C01 ∧ bits 0xF3FC0C03#32 15 0 ≠ 0x0C02 ∧ up.mgmt.controllerReset = false ∧
    (let s := withMgmt up fun m => { m with controllerReset := true }
     s.mgmt.controllerReset = true ∧ s.mgmt.hubDead = false) ∧
    shutting.on Reg.GS_STATUS_SHUTTING_DOWN = true ∧ (inBoot 1).fd Reg.GS_STATUS_STAGE = 1 ∧ (inBoot 2).inCold = false ∧
    (inBoot 2).on Reg.GS_STATUS_SHUTTING_DOWN = false ∧ 1 < (inBoot 2).fd Reg.GS_STATUS_STAGE ∧ up.on Reg.FH_SUMMARY_FAILED = false ∧
    up.on Reg.GS_STATUS_READY = true ∧ (inBoot 4).inCold = false ∧ (inBoot 4).on Reg.GS_STATUS_READY = false ∧
    (coldNow.inCold || coldNow.fd Reg.GS_STATUS_STAGE == 0 || coldNow.pins.refLost.contains .pcie) = true ∧
    ((inBoot 1).inCold || (inBoot 1).fd Reg.GS_STATUS_STAGE == 0 || (inBoot 1).pins.refLost.contains .pcie) = false := by
  and_intros <;> decide +kernel

def twoCopies (a b : Firmware) (stops : Nat) : State := withMgmt (inBoot 1) fun m => { m with copyA := a, copyB := b, stops := stops, minSvn := 7 }

theorem witness_BootPassesItsStagesToReady :
    up.booting = false ∧ shutting.booting = false ∧ (∀ st ∈ List.range 6, (inBoot st).booting = true ∧ (inBoot st).fd Reg.GS_STATUS_STAGE = st) ∧
    BootFact.firmware ≠ .rom ∧ BootFact.dram [] ≠ .firmware ∧ (inBoot 0).mgmt.identityGood = true ∧
    (let s := twoCopies ⟨false, 9, 0⟩ ⟨true, 6, 0⟩ 0
     s.booting = true ∧ s.fd Reg.GS_STATUS_STAGE = 1 ∧ [s.mgmt.firstCopy, 1 - s.mgmt.firstCopy].find? s.mgmt.accepts = none) ∧
    (∀ x ∈ [((⟨true, 7, 65535⟩ : Firmware), (0 : Nat)), (⟨true, 6, 0⟩, 1)], let s := twoCopies x.1 ⟨true, 7, 1⟩ 0
      s.booting = true ∧ s.fd Reg.GS_STATUS_STAGE = 1 ∧ s.mgmt.firstCopy = 0 ∧ [(0 : Nat), 1].find? s.mgmt.accepts = some x.2) ∧
    (twoCopies ⟨true, 7, 0⟩ ⟨true, 7, 1⟩ 1).mgmt.firstCopy = 1 ∧ (inBoot 2).net.step = none ∧ 2 * 3 ∈ [6, 7] ∧ 2 * 3 + 1 ∈ [6, 7] ∧
    (inBoot 4).mgmt.setup = none ∧ (withMgmt (inBoot 4) fun m => { m with stops := 1 }).mgmt.stops ≠ 0 := by
  and_intros <;> decide +kernel

theorem test_stage0 : (after (.bootStageEnd .rom) (inBoot 0)).fd Reg.GS_STATUS_STAGE = 1 := by decide +kernel

def aRecord : SetupRecord := [(Reg.TH_WARN, 960#32)]
def recorded (saving setup restore : Option SetupRecord) (restored : Nat) : State :=
  withMgmt (up.setF Reg.GS_STATUS_SETUP_RESTORED restored) fun m => { m with saving := saving, setup := setup, restore := restore }

theorem witness_SetUpIsSavedAndRestoredAndShutdownsRunToTheirEnd :
    up.open ∧ bit 1#32 31 = false ∧ bit 0x80000000#32 31 = true ∧ (up.setF Reg.GS_SETUP_SAVING 1).open ∧
    (up.setF Reg.GS_SETUP_SAVING 1).on Reg.GS_SETUP_SAVING = true ∧ up.on Reg.GS_SETUP_SAVING = false ∧ (inBoot 4).on Reg.GS_STATUS_READY = false ∧
    up.mgmt.saving = none ∧ (recorded (some aRecord) none none 0).mgmt.saving = some aRecord ∧
    (withMgmt up fun m => { m with controllerReset := true }).mgmt.controllerReset = true ∧ coldNow.inCold = true ∧
    (let s := recorded none none none 0
     s.on Reg.GS_STATUS_READY = true ∧ s.mgmt.controllerReset = false ∧ s.inCold = false ∧ s.on Reg.GS_STATUS_SETUP_RESTORED = false ∧ s.mgmt.setup = none) ∧
    (recorded none (some aRecord) none 0).mgmt.setup = some aRecord ∧
    (let s := recorded none none (some aRecord) 1
     s.on Reg.GS_STATUS_SETUP_RESTORED = true ∧ s.mgmt.restore = some aRecord ∧ s.nextAuto = none ∧ s.autoLoading = false) ∧
    (autos noEntry).nextAuto.isSome = true ∧ (up.setSlot 1023 { loading with origin := 2 }).autoLoading = true ∧
    coldNow.inCold = true ∧ shutting.on Reg.GS_STATUS_SHUTTING_DOWN = true ∧ up.inCold = false ∧ up.on Reg.GS_STATUS_SHUTTING_DOWN = false ∧
    up.inShutdown = false ∧ shutting.inShutdown = true ∧ shutting.mgmt.coldDue = none ∧
    (let s : State := { (shutting.setF Reg.MAINT_STATUS_BUSY 1).setF Reg.MAINT_STATUS_CMD 5 with store := (writing 0).store }
     s.inShutdown = true ∧ s.mgmt.coldDue = none ∧ s.store.writing.isSome = true ∧ s.on Reg.MAINT_STATUS_BUSY = true ∧ s.fd Reg.MAINT_STATUS_CMD = 5) ∧
    (let s := withMgmt shutting fun m => { m with coldDue := some 3 }
     s.inShutdown = true ∧ s.mgmt.coldDue = some 3) ∧
    up.mgmt.restartCount = false ∧ (let s := withMgmt up fun m => { m with restartCount := true }
     s.mgmt.restartCount = true ∧ s.noneDeleting) := by
  and_intros <;> decide +kernel

/-! ### Management bus and test port -/

/-- A module that runs, and one in recovery; with the words of event 7. -/
def managed : State := up.setF Reg.GS_STATUS_STAGE 5
def recovering : State := (inBoot 1).setF Reg.GS_STATUS_RECOVERY 1
def eventHeld : State := (managed.wrg Reg.FH_EVT_HEAD 263).wrg (Reg.EVT_SEQ 7) 7

theorem witness_TheManagementBusAnswersItsCommands :
    managed.mctpServes false = false ∧ coldNow.mctpServes true = false ∧ (inBoot 1).mctpServes true = false ∧ managed.mctpServes true = true ∧
    recovering.mctpServes true = true ∧ recovering.on Reg.GS_STATUS_RECOVERY = true ∧ managed.on Reg.GS_STATUS_RECOVERY = false ∧
    (∀ off ∈ [0, 2 ^ 24 - 4, 2 ^ 24, 0xFF], managed.readServed off = true) ∧ recovering.readServed 0xFC = true ∧ recovering.readServed 0x100 = false ∧
    (15#8).toNat < 16 ∧ (3#8).toNat < 4 ∧
    (let s := eventHeld
     s.mctpServes true = true ∧ s.on Reg.GS_STATUS_RECOVERY = false ∧ (s.rg Reg.FH_EVT_HEAD - 7#32).toNat = 256 ∧
       s.rg (Reg.EVT_SEQ ((7#32).toNat % 256)) = 7#32 ∧ 256 < (s.rg Reg.FH_EVT_HEAD - 6#32).toNat ∧ (s.rg Reg.FH_EVT_HEAD - 263#32).toNat = 0 ∧
       s.rg (Reg.EVT_SEQ ((8#32).toNat % 256)) ≠ 8#32) ∧
    0x0C01#16 ≠ ~~~(0x0C01#16) ∧ 0xF3FE#16 = ~~~(0x0C01#16) ∧ 0xF3FD#16 = ~~~(0x0C02#16) ∧ 0xF3FC#16 = ~~~(0x0C03#16) ∧
    224 < (List.replicate 225 0#8).length ∧ (0xFFFFFF#32).toNat + [1#8].length ≤ 2 ^ 24 ∧ 2 ^ 24 < (0xFFFFFF#32).toNat + [1#8, 2#8].length ∧
    (true && decide (recovering.mgmt.minSvn ≤ (65535#16).toNat) && decide ((0x1000000#32).toNat ≤ 2 ^ 24)) = true ∧
    (true && decide (recovering.mgmt.minSvn ≤ (65535#16).toNat) && decide ((0x1000001#32).toNat ≤ 2 ^ 24)) = false ∧ recovering.inShutdown = false ∧
    managed.mgmt.controllerReset = false ∧ managed.inCold = false ∧ (withMgmt up fun m => { m with controllerReset := true }).mgmt.controllerReset = true := by
  and_intros <;> decide +kernel

theorem witness_TheTestPortTakesItsInstructions :
    coldNow.mgmt.inColdReset = true ∧ up.mgmt.inColdReset = false ∧ (6#8).toNat ≤ 6 ∧ 6 < (7#8).toNat ∧ 6 < (255#8).toNat := by
  and_intros <;> decide +kernel

/-! ### Operands that WellFormed refuses -/

def badPacket : FlPacket := ⟨[], [], []⟩
def badDatagram : Datagram := ⟨[], []⟩
def udpFrame (d : Datagram) : EthFrame := frame 0 100 true (.udp d false 0 false false true false)

theorem test_illFormed :
    (([.dramWriteArrive 0 0 0 0 none 63 [0, 0], .elasticAccess 0 0 (List.replicate 65 0), .counterSignal 0 0 0 0, .counterSignal 0 0 9 0, .sqDoorbell 0 0 9 0,
   .cqDoorbell 0 0 0 0, .stagedTailWrite 0 0 9 0, .descriptorFetch 0 [], .storeErase [131072], .storeErase [5, 5], .storeFormat [131072],
   .repairScan [576] [], .repairScan [] [576], .pfcReceive 0 0 0 [], .powerControlPeriod 0 0 [], .thermalSample [], .bootStageEnd (.selfTest [576] [] false),
   .bootStageEnd (.selfTest [] [(0, 32)] false), .bootStageEnd (.dram [8]), .recoveryWrite true 0 (List.replicate 225 0),
   .tilePacketArrive 0 { aPkt with total := 15 }, .tilePacketArrive 0 { aPkt with isNull := true },
   .tilePacketArrive 0 { aPkt with data := List.replicate 1025 0 }, .bar4Access true 0 2 [0] false, .bar4Access false 0 2 [0, 0] false,
   .ethFrameReceive 0 0 (udpFrame badDatagram) 0, .sesOpen farEnd badDatagram, .req farEnd badDatagram, .ack farEnd badDatagram, .poll farEnd badDatagram,
   .close farEnd badDatagram, .keepalive farEnd badDatagram, .linkBlockReceive 0 0 0 [0, 0, 0] true, .flaridHeadArrive 0 badPacket, .read 0 badPacket,
   .write 0 badPacket, .atomicAdd 0 badPacket, .counterAdd 0 badPacket, .mcastWrite 0 badPacket, .mcastFrame 0 badPacket, .readData badPacket,
   .flAck badPacket, .nack badPacket, .notice badPacket, .flReturn badPacket] : List Instr).all fun c => ! c.wellFormed) = true := by decide +kernel

theorem test_wellFormed :
    ([.dramWriteArrive 0 0 0 0 none 63 [0], .elasticAccess 0 0 [0], .counterSignal 0 0 8 0, .storeErase [131071], .repairScan [575] [575],
      .bootStageEnd (.dram [7]), .bootStageEnd .rom, .recoveryWrite true 0 [0], .autostart,
      .tilePacketArrive 0 aPkt, .bar4Access true 0 1 [0] false, .bar4Access false 0 9 [] false, .ethFrameReceive 0 0 (udpFrame (dgram 1 5 0 0 0 255)) 0,
      .req farEnd (dgram 1 5 0 0 0 255), .linkBlockReceive 0 0 0 [0, 0, 0, 0] true, .write 0 (flPkt false), .flReturn (flPkt true)] : List Instr).all Instr.wellFormed = true := by decide +kernel
end Sys2Proof.Tests
end

/-! Proofs about the integer and logic operations of the vector lanes (05_vector_units.md, R169 to R171). -/

namespace Sys2Proof.Machine

/-! ### Exact integer results: saturated or wrapped (R169)

What `satOrWrap` gives for an exact result in the INT32 range, above it and below it. IADD, ISUB, IMUL and SHL all end in it. -/

theorem satOrWrap_of_inRange {i : Int} (sat : Bool) (hlo : -2 ^ 31 ≤ i) (hhi : i ≤ 2 ^ 31 - 1) : satOrWrap sat i = (BitVec.ofInt 32 i, 0) := by
  cases sat with
  | false => rfl
  | true => simp [satOrWrap, if_neg (show ¬ 2147483647 < i by omega), if_neg (show ¬ i < -2147483648 by omega)]

theorem satOrWrap_of_above {i : Int} (h : 2 ^ 31 - 1 < i) : satOrWrap true i = (0x7FFFFFFF#32, 4) := by
  simp [satOrWrap, if_pos (show 2147483647 < i by omega)]

theorem satOrWrap_of_below {i : Int} (h : i < -2 ^ 31) : satOrWrap true i = (0x80000000#32, 4) := by
  simp [satOrWrap, if_neg (show ¬ 2147483647 < i by omega), if_pos (show i < -2147483648 by omega)]

theorem toInt_ofInt_of_inRange {i : Int} (hlo : -2 ^ 31 ≤ i) (hhi : i ≤ 2 ^ 31 - 1) : (BitVec.ofInt 32 i).toInt = i :=
  BitVec.toInt_ofInt_eq_self (by decide) hlo (by omega)

/-- What R169 asks of the lane `r` that an exact integer result `e` gives. -/
def GivesExact (sat : Bool) (e : Int) (r : LaneVal) : Prop :=
  (sat = true → -2 ^ 31 ≤ e → e ≤ 2 ^ 31 - 1 → r.1.toInt = e ∧ r.2 = 0) ∧
  (sat = true → 2 ^ 31 - 1 < e → r.1.toInt = 2 ^ 31 - 1 ∧ r.2 = 4) ∧
  (sat = true → e < -2 ^ 31 → r.1.toInt = -2 ^ 31 ∧ r.2 = 4) ∧
  (sat = false → r = (BitVec.ofInt 32 e, 0))

theorem satOrWrap_givesExact (sat : Bool) (e : Int) : GivesExact sat e (satOrWrap sat e) := by
  refine ⟨?inRange, ?above, ?below, ?wraps⟩
  case inRange =>
    intro _ hlo hhi
    rw [satOrWrap_of_inRange sat hlo hhi]
    exact ⟨toInt_ofInt_of_inRange hlo hhi, rfl⟩
  case above =>
    rintro rfl h
    rw [satOrWrap_of_above h]
    decide
  case below =>
    rintro rfl h
    rw [satOrWrap_of_below h]
    decide
  case wraps =>
    rintro rfl
    rfl

/-! ### Shifts by every unsigned amount (R170) -/

theorem ofInt_mul_two_pow_eq_zero (i : Int) {n : Nat} (h : 32 ≤ n) : BitVec.ofInt 32 (i * 2 ^ n) = 0 := by
  have hdvd : ((2 ^ 32 : Nat) : Int) ∣ i * 2 ^ n := Dvd.dvd.mul_left (pow_dvd_pow 2 h) i
  apply BitVec.eq_of_toNat_eq
  rw [BitVec.toNat_ofInt, Int.emod_eq_zero_of_dvd hdvd]
  rfl

theorem mul_two_pow_above_of_pos {i : Int} {n : Nat} (h : 32 ≤ n) (hi : 0 < i) : 2 ^ 31 - 1 < i * 2 ^ n := by
  have hpow : (2 : Int) ^ 32 ≤ 2 ^ n := pow_le_pow_right₀ (by decide) h
  nlinarith

theorem mul_two_pow_below_of_neg {i : Int} {n : Nat} (h : 32 ≤ n) (hi : i < 0) : i * 2 ^ n < -2 ^ 31 := by
  have hpow : (2 : Int) ^ 32 ≤ 2 ^ n := pow_le_pow_right₀ (by decide) h
  nlinarith

/-- The two cases of `shiftLeft` are one: the exact a × 2^b, saturated or wrapped, at every amount. -/
theorem shiftLeft_eq_satOrWrap (sat : Bool) (a b : Word) : shiftLeft sat a b = satOrWrap sat (a.toInt * 2 ^ b.toNat) := by
  by_cases hb : b.toNat < 32
  · rw [shiftLeft, if_pos hb]
  · have hb : 32 ≤ b.toNat := by omega
    rw [shiftLeft, if_neg (by omega)]
    cases sat with
    | false =>
      change _ = (BitVec.ofInt 32 _, 0)
      rw [ofInt_mul_two_pow_eq_zero _ hb]
      rfl
    | true =>
      obtain hneg | hzero | hpos := lt_trichotomy a.toInt 0
      · have ha : a ≠ 0 := by rintro rfl; exact absurd hneg (by decide)
        rw [if_pos (by simpa using ha), satOrWrap_of_below (mul_two_pow_below_of_neg hb hneg), satOrWrap_of_below (mul_two_pow_below_of_neg le_rfl hneg)]
      · have ha : a = 0 := BitVec.eq_of_toInt_eq hzero
        rw [if_neg (by simp [ha]), hzero, zero_mul]
        rfl
      · have ha : a ≠ 0 := by rintro rfl; exact absurd hpos (by decide)
        rw [if_pos (by simpa using ha), satOrWrap_of_above (mul_two_pow_above_of_pos hb hpos), satOrWrap_of_above (mul_two_pow_above_of_pos le_rfl hpos)]

/-- SHL of a nonzero lane by 32 or more saturates. -/
theorem shiftLeft_flag_of_large_amount {a b : Word} (hb : 32 ≤ b.toNat) (ha : a ≠ 0) : (shiftLeft true a b).2 = 4 := by
  rw [shiftLeft_eq_satOrWrap]
  have hne : a.toInt ≠ 0 := fun h => ha (BitVec.eq_of_toInt_eq h)
  obtain hneg | hpos := lt_or_gt_of_ne hne
  · rw [satOrWrap_of_below (mul_two_pow_below_of_neg hb hneg)]
  · rw [satOrWrap_of_above (mul_two_pow_above_of_pos hb hpos)]

theorem ediv_two_pow_of_large_amount (a : Word) {n : Nat} (h : 31 ≤ n) : a.toInt / 2 ^ n = if a.toInt < 0 then -1 else 0 := by
  have hpow : (2 : Int) ^ 31 ≤ 2 ^ n := pow_le_pow_right₀ (by decide) h
  have hlo := BitVec.le_toInt a
  have hhi := BitVec.toInt_lt (x := a)
  split
  · exact Int.ediv_eq_neg_one_of_neg_of_le (by omega) (by omega)
  · exact Int.ediv_eq_zero_of_lt (by omega) (by omega)

/-- Cutting the amount of SHRA at 31 changes nothing: from there on only the sign is left. -/
theorem toInt_sshiftRight_min (a : Word) (n : Nat) : (a.sshiftRight (min n 31)).toInt = a.toInt / 2 ^ n := by
  rw [BitVec.toInt_sshiftRight, Int.shiftRight_eq_div_pow]
  obtain hn | hn := le_total n 31
  · rw [min_eq_left hn]
    norm_cast
  · rw [min_eq_right hn, ediv_two_pow_of_large_amount a hn]
    exact_mod_cast ediv_two_pow_of_large_amount a le_rfl

theorem sshiftRight_min_of_large_amount (a : Word) {n : Nat} (h : 32 ≤ n) : a.sshiftRight (min n 31) = if a.toInt < 0 then 0xFFFFFFFF#32 else 0 := by
  apply BitVec.eq_of_toInt_eq
  rw [toInt_sshiftRight_min, ediv_two_pow_of_large_amount a (by omega)]
  split <;> rfl

/-! ### An integer lane on its way to a narrower format (R164) -/

theorem toSigned_toNat (w : Word) : toSigned 32 w.toNat = w.toInt := by
  have := w.isLt
  rw [BitVec.toInt_eq_toNat_cond, toSigned]
  norm_num
  omega

theorem laneFV_int (w : Word) : laneFV true w = .fin (decide (w.toInt < 0)) w.toInt.natAbs 0 := by
  rw [← toSigned_toNat]
  rfl

theorem sign_mul_natAbs (i : Int) : (if decide (i < 0) = true then (-1 : Int) else 1) * (i.natAbs : Int) = i := by
  simp only [decide_eq_true_eq]
  split <;> omega

/-- An integer converted to an integer format: its value, or the nearer limit. -/
theorem convF_of_isIntFmt {f : Nat} (hf : isIntFmt f = true) (i : Int) :
    convF f (.fin (decide (i < 0)) i.natAbs 0) none =
      if 2 ^ (fmtWidth f - 1) - 1 < i then (ofSigned (fmtWidth f) (2 ^ (fmtWidth f - 1) - 1), true)
      else if i < -2 ^ (fmtWidth f - 1) then (ofSigned (fmtWidth f) (-2 ^ (fmtWidth f - 1)), true) else (ofSigned (fmtWidth f) i, false) := by
  have hround : roundAt i.natAbs 0 0 none = i.natAbs := by simp [roundAt]
  simp only [convF, hf, if_true, hround, sign_mul_natAbs]

/-- An integer format takes no flag but VSAT, and that from the conversion. -/
theorem narrow_of_isIntFmt {f : Nat} (hf : isIntFmt f = true) (w : Word) :
    narrow true f w =
      if 2 ^ (fmtWidth f - 1) - 1 < w.toInt then (ofSigned (fmtWidth f) (2 ^ (fmtWidth f - 1) - 1), 4)
      else if w.toInt < -2 ^ (fmtWidth f - 1) then (ofSigned (fmtWidth f) (-2 ^ (fmtWidth f - 1)), 4) else (ofSigned (fmtWidth f) w.toInt, 0) := by
  simp only [narrow, hf, if_true, laneFV_int, convF_of_isIntFmt hf]
  split
  · rfl
  · split <;> rfl

/-! ### What `laneFn` computes for the integer and logic operations (R169 to R171)

One equation per operation. -/

section
variable {o : VecOp} (t : List Word) (a b : Word) (sel : Bool)

theorem laneFn_iadd (h : o.vop = 0x01) : laneFn o t a b sel = satOrWrap o.sat (a.toInt + b.toInt) := by simp only [laneFn, h]
theorem laneFn_isub (h : o.vop = 0x02) : laneFn o t a b sel = satOrWrap o.sat (a.toInt - b.toInt) := by simp only [laneFn, h]
theorem laneFn_imul (h : o.vop = 0x03) : laneFn o t a b sel = satOrWrap o.sat (a.toInt * b.toInt) := by simp only [laneFn, h]
theorem laneFn_shl (h : o.vop = 0x04) : laneFn o t a b sel = shiftLeft o.sat a b := by simp only [laneFn, h]
theorem laneFn_shra (h : o.vop = 0x06) : laneFn o t a b sel = (a.sshiftRight (min b.toNat 31), 0) := by simp only [laneFn, h]
theorem laneFn_and (h : o.vop = 0x08) : laneFn o t a b sel = (a &&& b, 0) := by simp only [laneFn, h]
theorem laneFn_or (h : o.vop = 0x09) : laneFn o t a b sel = (a ||| b, 0) := by simp only [laneFn, h]
theorem laneFn_xor (h : o.vop = 0x0A) : laneFn o t a b sel = (a ^^^ b, 0) := by simp only [laneFn, h]
theorem laneFn_andn (h : o.vop = 0x0B) : laneFn o t a b sel = (a &&& ~~~b, 0) := by simp only [laneFn, h]
theorem laneFn_sel (h : o.vop = 0x13) : laneFn o t a b sel = (if sel then a else b, 0) := by simp only [laneFn, h]

/-- SHRL needs no case for large amounts. -/
theorem laneFn_shrl (h : o.vop = 0x05) : laneFn o t a b sel = (a >>> b.toNat, 0) := by
  simp only [laneFn, h]
  split
  · rfl
  · rw [BitVec.ushiftRight_eq_zero (by omega)]
    rfl

end

/-! ### A lane of a pattern operation (R171) -/

theorem vopRaw_iff (vop : Nat) : vopRaw vop = true ↔ vop = 0x08 ∨ vop = 0x09 ∨ vop = 0x0A ∨ vop = 0x0B ∨ vop = 0x13 := by
  simp only [vopRaw, Bool.or_eq_true, Bool.and_eq_true, decide_eq_true_eq, beq_iff_eq]
  omega

/-- A pattern operation writes its lane's result as it is, whatever the formats, and sets no flag. -/
theorem runLane_of_vopRaw (c g : ClusterSt) (p : Plane) {o : VecOp} (t : List Word) (l : Lane) (h : vopRaw o.vop = true) :
    c.runLane g p o t l = ⟨[(l.d, (laneFn o t (widen o.fmtA (c.rdLoc 0 o.fmtA l.a)).1 (widen o.fmtB (c.rdLoc o.imm o.fmtB l.b)).1
      ((c.rdLoc 0 4 l.two).1 % 2 == 1)).1.toNat)], 0, 0, 0⟩ := by
  have hvop := (vopRaw_iff o.vop).1 h
  have hB : vopTakesB o.vop = true := by
    simp only [vopTakesB, Bool.and_eq_true, decide_eq_true_eq]
    omega
  have hpartial : ¬ (o.vop = 0x28 ∨ o.vop = 0x29) := by omega
  have hgather : o.vop ≠ 0x21 := by omega
  simp only [ClusterSt.runLane, if_neg hpartial, if_neg hgather, hB, h, if_true]

/-! ### The obligations -/

/-- Settles O15: each of the three operations is `satOrWrap` of its exact result, and INT8 and INT4 are integer formats. -/
theorem integerLanesGiveTheExactResult : Obligations.IntegerLanesGiveTheExactResult := by
  unfold Obligations.IntegerLanesGiveTheExactResult
  constructor
  · intro o t a b sel e h
    have hlane : laneFn o t a b sel = satOrWrap o.sat e := by
      obtain ⟨hvop, rfl⟩ | ⟨hvop, rfl⟩ | ⟨hvop, rfl⟩ := h
      · exact laneFn_iadd t a b sel hvop
      · exact laneFn_isub t a b sel hvop
      · exact laneFn_imul t a b sel hvop
    rw [hlane]
    exact satOrWrap_givesExact o.sat e
  · intro f w hf hi lo
    have hint : isIntFmt f = true := by obtain rfl | rfl := hf <;> rfl
    have hlohi : lo ≤ hi := by obtain rfl | rfl := hf <;> decide
    rw [narrow_of_isIntFmt hint]
    refine ⟨fun hl hh => ?_, fun hh => ?_, fun hl => ?_⟩
    · rw [if_neg (not_lt.2 hh), if_neg (not_lt.2 hl)]
    · rw [if_pos hh]
    · rw [if_neg (by omega), if_pos hl]

/-- Settles O16: SHL is `satOrWrap` of a·2^b at every amount; the right shifts lose nothing where the model cuts their amount. -/
theorem shiftLanesTakeEveryAmount : Obligations.ShiftLanesTakeEveryAmount := by
  unfold Obligations.ShiftLanesTakeEveryAmount
  intro o t a b sel e r
  have hshl (h : o.vop = 0x04) : r = shiftLeft o.sat a b := laneFn_shl t a b sel h
  have hexact (h : o.vop = 0x04) : GivesExact o.sat e r := by
    rw [hshl h, shiftLeft_eq_satOrWrap]
    exact satOrWrap_givesExact o.sat e
  refine ⟨?shrl, ?shra, ?wraps, ?inRange, ?above, ?below, ?large⟩
  case shrl =>
    intro h
    have hr : r = (a >>> b.toNat, 0) := laneFn_shrl t a b sel h
    exact ⟨hr, fun hb => by rw [hr]; exact BitVec.ushiftRight_eq_zero hb⟩
  case shra =>
    intro h
    have hr : r = (a.sshiftRight (min b.toNat 31), 0) := laneFn_shra t a b sel h
    rw [hr]
    exact ⟨toInt_sshiftRight_min a b.toNat, rfl, sshiftRight_min_of_large_amount a⟩
  case wraps =>
    intro h hsat
    obtain ⟨-, -, -, hwraps⟩ := hexact h
    exact ⟨hwraps hsat, fun hb => by rw [hwraps hsat]; exact ofInt_mul_two_pow_eq_zero a.toInt hb⟩
  case inRange =>
    intro h
    obtain ⟨hin, -, -, -⟩ := hexact h
    exact hin
  case above =>
    intro h
    obtain ⟨-, habove, -, -⟩ := hexact h
    exact habove
  case below =>
    intro h
    obtain ⟨-, -, hbelow, -⟩ := hexact h
    exact hbelow
  case large =>
    intro h hsat hb ha
    rw [hshl h, hsat]
    exact shiftLeft_flag_of_large_amount hb ha

/-- Settles O17: all five are pattern operations, and each writes what `laneFn` computes. -/
theorem logicLanesKeepPatterns : Obligations.LogicLanesKeepPatterns := by
  unfold Obligations.LogicLanesKeepPatterns
  intro c g p o t l a b sel gives
  have hgives {w : Word} (hraw : vopRaw o.vop = true) (hw : laneFn o t a b ((c.rdLoc 0 4 l.two).1 % 2 == 1) = (w, 0)) : gives w := by
    change c.runLane g p o t l = _
    rw [runLane_of_vopRaw c g p t l hraw, hw]
  refine ⟨fun h => ?and, fun h => ?or, fun h => ?xor, fun h => ?andn, fun h => ?sel⟩
  case and => exact hgives (by rw [h]; rfl) (laneFn_and t a b _ h)
  case or => exact hgives (by rw [h]; rfl) (laneFn_or t a b _ h)
  case xor => exact hgives (by rw [h]; rfl) (laneFn_xor t a b _ h)
  case andn => exact hgives (by rw [h]; rfl) (laneFn_andn t a b _ h)
  case sel => exact hgives (by rw [h]; rfl) (by simpa [sel] using laneFn_sel t a b ((c.rdLoc 0 4 l.two).1 % 2 == 1) h)

end Sys2Proof.Machine

/-! Proofs about package counters: their advance, their notify record and interrupt, and the WAIT descriptors that they meet
(09_counters_and_barriers.md, R303 to R306, R325; 11_host_rings.md, R372). -/

namespace Sys2Proof

/-- A map over the values of a table is read through, where it keeps the default. -/
theorem tget_map_snd {α : Type} {f : α → α} {d : α} (hd : f d = d) (t : Table α) (k : Nat) :
    tget d (t.map fun e => (e.1, f e.2)) k = f (tget d t k) := by
  induction t with
  | nil => exact hd.symm
  | cons e t ih =>
    simp only [List.map_cons, tget]
    split
    · rfl
    · exact ih

end Sys2Proof

namespace Sys2Proof.Machine

/-! ### Fields of a register -/

theorem bits_setBits_same (v : Word) {hi lo : Nat} (h : lo ≤ hi) (hhi : hi < 32) (n : Nat) :
    bits (setBits v hi lo n) hi lo = n % 2 ^ (hi - lo + 1) := by
  have hfield : (setBits v hi lo n).extractLsb' lo (hi - lo + 1) = BitVec.ofNat (hi - lo + 1) n := by
    apply BitVec.eq_of_getLsbD_eq
    intro i hi'
    have hin : lo + i < 32 ∧ i < 32 := by omega
    simp only [setBits, BitVec.getLsbD_extractLsb', BitVec.getLsbD_or, BitVec.getLsbD_and, BitVec.getLsbD_not, BitVec.getLsbD_shiftLeft,
      BitVec.getLsbD_ofNat, Nat.testBit_two_pow_sub_one]
    simp [hi', hin]
  rw [bits, hfield, BitVec.toNat_ofNat]

/-- A field of access RW takes what is written. -/
theorem bits_plainWrite_of_rw (old v : Word) {rw hi lo : Nat}
    (hrw : (BitVec.ofNat 32 rw).extractLsb' lo (hi - lo + 1) = BitVec.allOnes _) : bits (plainWrite old v rw 0) hi lo = bits v hi lo := by
  have hfield : (plainWrite old v rw 0).extractLsb' lo (hi - lo + 1) = v.extractLsb' lo (hi - lo + 1) := by
    apply BitVec.eq_of_getLsbD_eq
    intro i hi'
    have hset : (BitVec.ofNat 32 rw).getLsbD (lo + i) = true := by
      simpa only [BitVec.getLsbD_extractLsb', BitVec.getLsbD_allOnes, hi', decide_true, Bool.true_and] using congrArg (·.getLsbD i) hrw
    have hin := BitVec.lt_of_getLsbD hset
    simp only [plainWrite, BitVec.getLsbD_extractLsb', BitVec.getLsbD_and, BitVec.getLsbD_or, BitVec.getLsbD_not, hset]
    simp [hin]
  rw [bits, hfield, bits]

/-- A register whose bits are all RW holds what was written. -/
theorem plainWrite_all_rw (old v : Word) : plainWrite old v 0xFFFFFFFF 0 = v := by
  have hall : BitVec.ofNat 32 0xFFFFFFFF = BitVec.allOnes 32 := rfl
  rw [plainWrite, hall]
  simp only [BitVec.not_allOnes, BitVec.and_zero, BitVec.zero_or, BitVec.and_allOnes, BitVec.not_zero]

theorem State.fd_congr {s t : State} {x : Fld} (h : t.rg x.off = s.rg x.off) : t.fd x = s.fd x := by
  rw [State.fd, State.fd, h]

theorem State.on_congr {s t : State} {x : Fld} (h : t.rg x.off = s.rg x.off) : t.on x = s.on x := by
  rw [State.on, State.on, State.fd_congr h]

theorem State.rg_wrg_of_ne (s : State) {o off : Nat} (h : o ≠ off) (v : Word) : (s.wrg off v).rg o = s.rg o := by
  rw [State.rg_wrg, if_neg h]

theorem State.rg_setF_of_ne (s : State) {o : Nat} {x : Fld} (h : o ≠ x.off) (n : Nat) : (s.setF x n).rg o = s.rg o :=
  s.rg_wrg_of_ne h _

theorem State.rg_plain (s : State) (o off : Nat) (v : Word) :
    (s.plain off v).rg o = if o = off then plainWrite (s.rg off) v (regMasks off).1 (regMasks off).2 else s.rg o := s.rg_wrg o off _

theorem State.fd_setF_same (s : State) {x : Fld} (h : x.lo ≤ x.hi) (hhi : x.hi < 32) (n : Nat) :
    (s.setF x n).fd x = n % 2 ^ (x.hi - x.lo + 1) := by
  rw [State.fd, State.rg_setF, if_pos rfl, bits_setBits_same _ h hhi]

/-! ### Outputs, and updates of registers one after the other -/

theorem State.emit_of_enabled (s : State) {o : Output} (h : (s.on Reg.GS_STATUS_SHUTDOWN_DONE && o.disabled) = false) :
    s.emit o = { s with outbox := s.outbox ++ [o] } := by
  rw [State.emit, h]
  rfl

theorem State.sends_congr {s t : State} (h : t.rg Reg.GS_STATUS = s.rg Reg.GS_STATUS) : t.sends ↔ s.sends := by
  rw [State.sends, State.sends, State.on_congr (s := s) h]

theorem State.emit_of_sends {s : State} (h : s.sends) (o : Output) : s.emit o = { s with outbox := s.outbox ++ [o] } :=
  s.emit_of_enabled (by rw [h, Bool.false_and])

theorem State.emit_eq (s : State) (o : Output) : s.emit o = { s with outbox := (s.emit o).outbox } := by
  unfold State.emit
  split <;> rfl

theorem OnlyRegs.each {α : Type} {offs : List Nat} (s : State) (l : List α) {f : State → α → State} (hf : ∀ u, ∀ x ∈ l, OnlyRegs u (f u x) offs) :
    OnlyRegs s (s.each l f) offs := by
  unfold State.each
  induction l generalizing s with
  | nil => exact ⟨rfl, fun _ _ => rfl⟩
  | cons x l ih =>
    obtain ⟨hhead, hheadRg⟩ := hf s x (List.mem_cons_self ..)
    obtain ⟨htail, htailRg⟩ := ih (f s x) fun u y hy => hf u y (List.mem_cons_of_mem _ hy)
    exact ⟨by rw [List.foldl_cons, htail, hhead], fun off hoff => (htailRg off hoff).trans (hheadRg off hoff)⟩

/-! ### The value of a package counter -/

theorem State.pc_congr {s t : State} {i : Nat} (hlo : t.rg (Reg.PC_VALUE_LO i) = s.rg (Reg.PC_VALUE_LO i))
    (hhi : t.rg (Reg.PC_VALUE_HI i) = s.rg (Reg.PC_VALUE_HI i)) : t.pc i = s.pc i := by
  rw [State.pc, State.pc, hlo, State.fd_congr hhi]

theorem State.rg_setPc (s : State) (i v : Nat) {off : Nat} (hlo : off ≠ Reg.PC_VALUE_LO i) (hhi : off ≠ Reg.PC_VALUE_HI i) :
    (s.setPc i v).rg off = s.rg off := by
  rw [State.setPc, State.rg_setF_of_ne _ hhi, State.rg_wrg_of_ne _ hlo]

theorem State.rg_setPc_lo (s : State) (i v : Nat) : (s.setPc i v).rg (Reg.PC_VALUE_LO i) = lo32 v := by
  have hne : Reg.PC_VALUE_LO i ≠ Reg.PC_VALUE_HI i := by unfold Reg.PC_VALUE_LO Reg.PC_VALUE_HI; omega
  rw [State.setPc, State.rg_setF_of_ne _ hne, State.rg_wrg, if_pos rfl]

theorem State.pc_setPc (s : State) (i : Nat) {v : Nat} (hv : v < 2 ^ 48) : (s.setPc i v).pc i = v := by
  have hhi : (s.setPc i v).fd (Reg.PC_VALUE_HI_VALUE i) = v / 2 ^ 32 % 2 ^ 16 := by
    rw [State.setPc, State.fd_setF_same _ (Nat.zero_le 15) (show 15 < 32 by decide)]
    exact Nat.mod_mod _ _
  rw [State.pc, State.rg_setPc_lo, hhi, lo32, BitVec.toNat_ofNat]
  omega

/-! ### The records of traced counters (R322) -/

/-- Nothing but the records of traced counters differs: the registers of Table 9.10, and the waiters behind them. -/
def OnlyTrace (s t : State) : Prop :=
  t = { s with regs := t.regs, host := { s.host with waiters := t.host.waiters } } ∧
    ∀ off, off < 0x31000 ∨ 0x32000 ≤ off → t.rg off = s.rg off

theorem OnlyTrace.refl (s : State) : OnlyTrace s s := ⟨rfl, fun _ _ => rfl⟩

theorem OnlyTrace.trans {s t u : State} (hst : OnlyTrace s t) (htu : OnlyTrace t u) : OnlyTrace s u := by
  obtain ⟨ht, htRg⟩ := hst
  obtain ⟨hu, huRg⟩ := htu
  exact ⟨by rw [hu, ht], fun off hoff => (huRg off hoff).trans (htRg off hoff)⟩

theorem OnlyTrace.each {α : Type} (s : State) (l : List α) {f : State → α → State} (hf : ∀ u x, OnlyTrace u (f u x)) : OnlyTrace s (s.each l f) := by
  unfold State.each
  induction l generalizing s with
  | nil => exact .refl s
  | cons x l ih => exact (hf s x).trans (ih (f s x))

theorem State.traceShow_onlyTrace (s : State) {i : Nat} (hi : i < 256) (l : List (Word × Word)) : OnlyTrace s (s.traceShow i l) := by
  refine ⟨rfl, fun off hoff => ?_⟩
  have hcount : off ≠ Reg.TR_WAITERS i := by unfold Reg.TR_WAITERS; omega
  have hfirst : off ≠ Reg.TR_FIRST i := by unfold Reg.TR_FIRST; omega
  have htarget : off ≠ Reg.TR_TARGET i := by unfold Reg.TR_TARGET; omega
  rw [State.traceShow, State.rg_wrg_of_ne _ htarget, State.rg_wrg_of_ne _ hfirst, State.rg_setF_of_ne _ hcount]
  rfl

theorem State.traceStart_onlyTrace (s : State) (i : Nat) (w : Word × Word) : OnlyTrace s (s.traceStart i w) := by
  unfold State.traceStart
  split
  · next hi => exact s.traceShow_onlyTrace hi _
  · exact .refl s

theorem State.traceEnd_onlyTrace (s : State) (i : Nat) (w : Word × Word) : OnlyTrace s (s.traceEnd i w) := by
  unfold State.traceEnd
  split
  · next hi => exact s.traceShow_onlyTrace hi _
  · exact .refl s

/-- The signaller of a traced counter is kept (R322). -/
theorem State.traceLast_onlyTrace (s : State) (i : Nat) (w : Word) : OnlyTrace s (if i < 256 then s.wrg (Reg.TR_LAST i) w else s) := by
  split
  · refine ⟨rfl, fun off hoff => ?_⟩
    have hlast : off ≠ Reg.TR_LAST i := by unfold Reg.TR_LAST; omega
    exact s.rg_wrg_of_ne hlast w
  · exact .refl s

theorem OnlyTrace.pc {s t : State} (h : OnlyTrace s t) (i : Nat) : t.pc i = s.pc i := by
  obtain ⟨-, hrg⟩ := h
  exact State.pc_congr (hrg _ (by unfold Reg.PC_VALUE_LO; omega)) (hrg _ (by unfold Reg.PC_VALUE_HI; omega))

theorem OnlyTrace.sameArray {s t : State} (h : OnlyTrace s t) : SameArray s t := by
  obtain ⟨heq, -⟩ := h
  rw [heq]
  exact ⟨rfl, rfl⟩

theorem OnlyTrace.outbox {s t : State} (h : OnlyTrace s t) : t.outbox = s.outbox := by
  obtain ⟨heq, -⟩ := h
  rw [heq]

theorem OnlyTrace.desc {s t : State} (h : OnlyTrace s t) (j : Nat) : t.desc j = s.desc j := by
  obtain ⟨heq, -⟩ := h
  rw [heq]
  rfl

/-! ### WAIT descriptors and fetch queues that see a new value (R304, R515) -/

/-- A descriptor once counter i holds v: a WAIT on i whose target v meets has ended, any other is as before. -/
def Desc.wake (i v : Nat) (d : Desc) : Desc := if d.waitsOn i && decide (waitTarget d ≤ v) then { d with state := .ended } else d

theorem noDesc_wake (i v : Nat) : noDesc.wake i v = noDesc := rfl

theorem Desc.wake_status (d : Desc) (i v : Nat) : (d.wake i v).status = d.status := by
  unfold Desc.wake
  split <;> rfl

theorem Desc.waitsOn_iff (d : Desc) (i : Nat) : d.waitsOn i = true ↔ d.state = .running ∧ d.opcode = 5 ∧ bits (d.w 4) 11 0 = i := by
  simp only [Desc.waitsOn, Desc.w, Bool.and_eq_true, beq_iff_eq, and_assoc]

theorem Desc.wake_ended_iff {d : Desc} {i : Nat} (h : d.waitsOn i = true) (v : Nat) : (d.wake i v).state = .ended ↔ waitTarget d ≤ v := by
  by_cases hmet : waitTarget d ≤ v
  · simp [Desc.wake, h, hmet]
  · simp [Desc.wake, hmet, ((d.waitsOn_iff i).1 h).1]

/-- Besides the WAITs that the counter's value meets, only records of traced counters change. -/
theorem State.wakeWaits_spec (s : State) (i : Nat) : ∃ u, OnlyTrace s u ∧
    s.wakeWaits i = { u with host := { u.host with descs := s.host.descs.map fun e => (e.1, e.2.wake i (s.pc i)) } } := by
  have hmap (l : Table Desc) : (l.map fun e => if e.2.waitsOn i && decide (waitTarget e.2 ≤ s.pc i) then (e.1, { e.2 with state := .ended }) else e) =
      l.map fun e => (e.1, e.2.wake i (s.pc i)) := by
    refine List.map_congr_left fun e _ => ?_
    unfold Desc.wake
    split <;> rfl
  have htrace := OnlyTrace.each s (s.host.descs.filter fun e => e.2.waitsOn i && decide (waitTarget e.2 ≤ s.pc i))
    (f := fun u e => u.traceEnd i (BitVec.ofNat 32 (hostNode e.2.inst), e.2.words.getD 5 0)) fun u e => u.traceEnd_onlyTrace i _
  refine ⟨_, htrace, ?_⟩
  unfold State.wakeWaits
  obtain ⟨heq, -⟩ := htrace
  dsimp only
  rw [hmap]
  generalize s.each _ _ = u at heq ⊢
  rw [heq]

theorem State.takeFetches_onlyRegs (s : State) (i : Nat) : OnlyRegs s (s.takeFetches i) ((List.range 64).map Reg.STF_TAKEN) := by
  refine OnlyRegs.each s _ fun u k hk => ?_
  split
  · refine ⟨rfl, fun off hoff => ?_⟩
    have hne : off ≠ Reg.STF_TAKEN k := by rintro rfl; exact hoff (List.mem_map_of_mem hk)
    exact u.rg_wrg_of_ne hne _
  · exact ⟨rfl, fun _ _ => rfl⟩

/-! ### A counter's change of value, up to its notify record and interrupt (R301, R304, R322) -/

/-- The state in which mirrors, trace record, WAITs and fetch queues have seen a counter's new value. -/
def State.pcShown (s : State) (i v node : Nat) : State :=
  let t := (s.setPc i v).emit (.counterUpdate i v)
  ((if i < 256 then t.wrg (Reg.TR_LAST i) (BitVec.ofNat 32 node) else t).wakeWaits i).takeFetches i

/-- A register that shows what has seen a counter's value: a trace record, or the records that a fetch queue has taken. -/
def ShowsCounters (off : Nat) : Prop := (0x31000 ≤ off ∧ off < 0x32000) ∨ off ∈ (List.range 64).map Reg.STF_TAKEN

/-- t is s once counter i's new value v has been seen: it is sent to the mirrors, it has ended the WAITs that it meets, and of the registers only its
own and those that show counters differ. -/
structure Shown (s t : State) (i v : Nat) : Prop where
  array : SameArray s t
  outbox : t.outbox = s.outbox ++ [.counterUpdate i v]
  descs : t.host.descs = s.host.descs.map fun e => (e.1, e.2.wake i v)
  rg : ∀ off, ¬ ShowsCounters off → t.rg off = (s.setPc i v).rg off

theorem not_showsCounters {off : Nat} (htrace : off < 0x31000 ∨ 0x32000 ≤ off) (hstf : off < 0x80000 ∨ 0x90000 ≤ off ∨ off % 0x400 ≠ 0x24C) :
    ¬ ShowsCounters off := by
  simp only [ShowsCounters, List.mem_map, List.mem_range, Reg.STF_TAKEN]
  rintro (h | ⟨k, hk, rfl⟩) <;> omega

/-- The registers of Table 9.9a lie above all that show counters. -/
theorem not_showsCounters_pc {off : Nat} (h : 0x90000 ≤ off) : ¬ ShowsCounters off := not_showsCounters (by omega) (by omega)

theorem State.pcShown_shown (s : State) (i : Nat) {v : Nat} (hv : v < 2 ^ 48) (node : Nat) : Shown s (s.pcShown i v node) i v := by
  let t : State := { s.setPc i v with outbox := s.outbox ++ [.counterUpdate i v] }
  let u : State := if i < 256 then t.wrg (Reg.TR_LAST i) (BitVec.ofNat 32 node) else t
  have hemit : (s.setPc i v).emit (.counterUpdate i v) = t := State.emit_of_enabled _ (Bool.and_false _)
  have hlast : OnlyTrace t u := t.traceLast_onlyTrace i (BitVec.ofNat 32 node)
  have hpc : u.pc i = v := (hlast.pc i).trans (s.pc_setPc i hv)
  obtain ⟨w, hwake, hwaits⟩ := u.wakeWaits_spec i
  obtain ⟨hw, hwRg⟩ := hlast.trans hwake
  obtain ⟨hu, -⟩ := hlast
  have hshown : OnlyRegs (u.wakeWaits i) (s.pcShown i v node) ((List.range 64).map Reg.STF_TAKEN) := by
    rw [State.pcShown, hemit]
    exact (u.wakeWaits i).takeFetches_onlyRegs i
  rw [hwaits, hpc, hu] at hshown
  obtain ⟨heq, hrg⟩ := hshown
  refine ⟨⟨?_, ?_⟩, ?_, ?_, fun off hoff => ?_⟩
  · rw [heq, hw]
    rfl
  · rw [heq, hw]
    rfl
  · rw [heq, hw]
  · rw [heq]
    rfl
  · obtain ⟨htrace, hstf⟩ := not_or.1 hoff
    rw [hrg off hstf]
    exact hwRg off (by omega)

theorem Shown.rg_of_ne {s t : State} {i v : Nat} (h : Shown s t i v) {off : Nat} (hoff : ¬ ShowsCounters off) (hlo : off ≠ Reg.PC_VALUE_LO i)
    (hhi : off ≠ Reg.PC_VALUE_HI i) : t.rg off = s.rg off :=
  (h.rg off hoff).trans (s.rg_setPc i v hlo hhi)

theorem Shown.rg_low {s t : State} {i v : Nat} (h : Shown s t i v) {off : Nat} (hoff : off < 0x31000) : t.rg off = s.rg off :=
  h.rg_of_ne (not_showsCounters (by omega) (by omega)) (by unfold Reg.PC_VALUE_LO; omega) (by unfold Reg.PC_VALUE_HI; omega)

theorem Shown.rg_notify {s t : State} {i v : Nat} (h : Shown s t i v) {o : Nat} (ho : o < 64) :
    t.rg (Reg.NOTIFY_LO o) = s.rg (Reg.NOTIFY_LO o) ∧ t.rg (Reg.NOTIFY_HI o) = s.rg (Reg.NOTIFY_HI o) := by
  unfold Reg.NOTIFY_LO Reg.NOTIFY_HI
  constructor <;>
    exact h.rg_of_ne (not_showsCounters (by omega) (by omega)) (by unfold Reg.PC_VALUE_LO; omega) (by unfold Reg.PC_VALUE_HI; omega)

theorem Shown.rg_ctrl {s t : State} {i v : Nat} (h : Shown s t i v) : t.rg (Reg.PC_CTRL i) = s.rg (Reg.PC_CTRL i) := by
  unfold Reg.PC_CTRL
  exact h.rg_of_ne (not_showsCounters_pc (by omega)) (by unfold Reg.PC_VALUE_LO; omega) (by unfold Reg.PC_VALUE_HI; omega)

theorem Shown.rg_irqAt {s t : State} {i v : Nat} (h : Shown s t i v) : t.rg (Reg.PC_IRQ_AT i) = s.rg (Reg.PC_IRQ_AT i) := by
  unfold Reg.PC_IRQ_AT
  exact h.rg_of_ne (not_showsCounters_pc (by omega)) (by unfold Reg.PC_VALUE_LO; omega) (by unfold Reg.PC_VALUE_HI; omega)

theorem Shown.rg_lo {s t : State} {i v : Nat} (h : Shown s t i v) : t.rg (Reg.PC_VALUE_LO i) = lo32 v :=
  (h.rg _ (not_showsCounters_pc (Nat.le_add_right _ _))).trans (s.rg_setPc_lo i v)

theorem Shown.pc {s t : State} {i v : Nat} (h : Shown s t i v) (hv : v < 2 ^ 48) : t.pc i = v := by
  have hlo := h.rg (Reg.PC_VALUE_LO i) (not_showsCounters_pc (Nat.le_add_right _ _))
  have hhi := h.rg (Reg.PC_VALUE_HI i) (not_showsCounters_pc (by unfold Reg.PC_VALUE_HI; omega))
  rw [State.pc_congr hlo hhi, s.pc_setPc i hv]

/-! ### The notify record and the interrupt (R305, R306) -/

/-- The notify record is all that a due notification changes. -/
theorem State.notify_eq (s : State) (i : Nat) : s.notify i = { s with outbox := (s.notify i).outbox } := by
  dsimp only [State.notify]
  split
  · exact s.emit_eq _
  · rfl

theorem State.notify_rg (s : State) (i off : Nat) : (s.notify i).rg off = s.rg off := congrArg (·.rg off) (s.notify_eq i)

/-- The notify record that is due when counter i of owner o comes to hold v: in the notify area of o, the value and its complement. -/
def State.notifyRecord (s : State) (i o v : Nat) : List Output :=
  let w : List Word := [lo32 v, hi32 v]
  if s.on (Reg.PC_CTRL_NOTIFY_EN i) && s.on (Reg.NOTIFY_LO_VALID o) then
    [.hostWrite o (s.fd (Reg.NOTIFY_LO_ADDR o) * 2 ^ 16 + (s.rg (Reg.NOTIFY_HI o)).toNat * 2 ^ 32 + 16 * i) (w ++ w.map (~~~ ·))] else []

theorem State.notifyRecord_congr {s t : State} {i o : Nat} (hctrl : t.rg (Reg.PC_CTRL i) = s.rg (Reg.PC_CTRL i))
    (hlo : t.rg (Reg.NOTIFY_LO o) = s.rg (Reg.NOTIFY_LO o)) (hhi : t.rg (Reg.NOTIFY_HI o) = s.rg (Reg.NOTIFY_HI o)) (v : Nat) :
    t.notifyRecord i o v = s.notifyRecord i o v := by
  have hen : t.on (Reg.PC_CTRL_NOTIFY_EN i) = s.on (Reg.PC_CTRL_NOTIFY_EN i) := State.on_congr hctrl
  have hvalid : t.on (Reg.NOTIFY_LO_VALID o) = s.on (Reg.NOTIFY_LO_VALID o) := State.on_congr hlo
  have haddr : t.fd (Reg.NOTIFY_LO_ADDR o) = s.fd (Reg.NOTIFY_LO_ADDR o) := State.fd_congr hlo
  rw [State.notifyRecord, State.notifyRecord, hen, hvalid, haddr, hhi]

theorem State.notify_outbox {s : State} (hs : s.sends) (i : Nat) :
    (s.notify i).outbox = s.outbox ++ s.notifyRecord i (s.fd (Reg.PC_CTRL_OWNER i)) (s.pc i) := by
  dsimp only [State.notify, State.notifyRecord]
  split
  · rw [State.emit_of_sends hs]
  · rw [List.append_nil]

/-- VALUE[31:0] − IRQ_AT, as a signed value, is 0 or more (R306). -/
def State.pcReached (s : State) (i : Nat) : Bool := decide (0 ≤ (s.rg (Reg.PC_VALUE_LO i) - s.rg (Reg.PC_IRQ_AT i)).toInt)

theorem State.pcIrq_of_due {s : State} {i : Nat} (h : (s.on (Reg.PC_CTRL_IRQ_ARM i) && s.pcReached i) = true) :
    s.pcIrq i = (s.setF (Reg.PC_CTRL_IRQ_ARM i) 0).msix (s.fd (Reg.PC_CTRL_OWNER i)) (s.fd (Reg.PC_CTRL_VECTOR i)) := if_pos h

theorem State.pcIrq_of_not_due {s : State} {i : Nat} (h : ¬ (s.on (Reg.PC_CTRL_IRQ_ARM i) && s.pcReached i) = true) : s.pcIrq i = s := if_neg h

/-- The arm and the vector are all that an interrupt changes. -/
theorem State.pcIrq_eq (s : State) (i : Nat) : s.pcIrq i = { s with regs := (s.pcIrq i).regs, outbox := (s.pcIrq i).outbox } := by
  unfold State.pcIrq
  split
  · rw [State.msix, State.emit_eq]
    rfl
  · rfl

theorem State.pcIrq_rg (s : State) (i : Nat) {off : Nat} (h : off ≠ Reg.PC_CTRL i) : (s.pcIrq i).rg off = s.rg off := by
  unfold State.pcIrq
  split
  · exact (State.emit_rg _ _ off).trans (s.rg_setF_of_ne h 0)
  · rfl

theorem State.pcIrq_pc (s : State) (i : Nat) : (s.pcIrq i).pc i = s.pc i :=
  State.pc_congr (s.pcIrq_rg i (by unfold Reg.PC_VALUE_LO Reg.PC_CTRL; omega)) (s.pcIrq_rg i (by unfold Reg.PC_VALUE_HI Reg.PC_CTRL; omega))

/-- IRQ_ARM clears where the target is reached, and stays where not. -/
theorem State.pcIrq_armed (s : State) (i : Nat) :
    (s.pcIrq i).on (Reg.PC_CTRL_IRQ_ARM i) = (s.on (Reg.PC_CTRL_IRQ_ARM i) && ! s.pcReached i) := by
  by_cases hdue : (s.on (Reg.PC_CTRL_IRQ_ARM i) && s.pcReached i) = true
  · obtain ⟨harm, hreached⟩ := Bool.and_eq_true_iff.1 hdue
    have hclear : (s.setF (Reg.PC_CTRL_IRQ_ARM i) 0).fd (Reg.PC_CTRL_IRQ_ARM i) = 0 := State.fd_setF_same _ (le_refl 30) (show 30 < 32 by decide) 0
    rw [State.pcIrq_of_due hdue, harm, hreached, State.msix, State.on_congr (State.emit_rg _ _ _), State.on, hclear]
    rfl
  · rw [State.pcIrq_of_not_due hdue]
    revert hdue
    cases s.on (Reg.PC_CTRL_IRQ_ARM i) <;> cases s.pcReached i <;> decide

/-- The vector is raised where an armed target is reached. -/
theorem State.pcIrq_outbox {s : State} (hs : s.sends) (i : Nat) :
    (s.pcIrq i).outbox = s.outbox ++
      if s.on (Reg.PC_CTRL_IRQ_ARM i) && s.pcReached i then [.msix (s.fd (Reg.PC_CTRL_OWNER i)) (s.fd (Reg.PC_CTRL_VECTOR i))] else [] := by
  by_cases hdue : (s.on (Reg.PC_CTRL_IRQ_ARM i) && s.pcReached i) = true
  · have hne : Reg.GS_STATUS ≠ Reg.PC_CTRL i := by unfold Reg.GS_STATUS Reg.PC_CTRL; omega
    have hsends : (s.setF (Reg.PC_CTRL_IRQ_ARM i) 0).sends := (State.sends_congr (s.rg_setF_of_ne hne 0)).2 hs
    rw [if_pos hdue, State.pcIrq_of_due hdue, State.msix, State.emit_of_sends hsends]
    rfl
  · rw [if_neg hdue, State.pcIrq_of_not_due hdue, List.append_nil]

/-- The interrupt compares the new value with the IRQ_AT that stood before. -/
theorem Shown.notify_reached {s t : State} {i v : Nat} (h : Shown s t i v) :
    (t.notify i).pcReached i = decide (0 ≤ (lo32 v - s.rg (Reg.PC_IRQ_AT i)).toInt) := by
  rw [State.pcReached, State.notify_rg, State.notify_rg, h.rg_lo, h.rg_irqAt]

/-- Once the mirrors' update is sent, the notify record follows where it is due, then the interrupt where it is due. -/
theorem Shown.outbox_notify_irq {s t : State} {i v : Nat} (h : Shown s t i v) (hv : v < 2 ^ 48) (hs : s.sends) :
    ((t.notify i).pcIrq i).outbox = s.outbox ++ [.counterUpdate i v] ++ s.notifyRecord i (s.fd (Reg.PC_CTRL_OWNER i)) v ++
      (if s.on (Reg.PC_CTRL_IRQ_ARM i) && decide (0 ≤ (lo32 v - s.rg (Reg.PC_IRQ_AT i)).toInt) then
        [.msix (s.fd (Reg.PC_CTRL_OWNER i)) (s.fd (Reg.PC_CTRL_VECTOR i))] else []) := by
  have howner_lt : s.fd (Reg.PC_CTRL_OWNER i) < 64 := ((s.rg (Reg.PC_CTRL i)).extractLsb' 22 6).isLt
  obtain ⟨hlo, hhi⟩ := h.rg_notify howner_lt
  have hsends : t.sends := (State.sends_congr (h.rg_low (by decide))).2 hs
  have hsends' : (t.notify i).sends := (State.sends_congr (t.notify_rg i _)).2 hsends
  have hctrl := (t.notify_rg i _).trans h.rg_ctrl
  have harm : (t.notify i).on (Reg.PC_CTRL_IRQ_ARM i) = s.on (Reg.PC_CTRL_IRQ_ARM i) := State.on_congr hctrl
  have hvector : (t.notify i).fd (Reg.PC_CTRL_VECTOR i) = s.fd (Reg.PC_CTRL_VECTOR i) := State.fd_congr hctrl
  have howner' : (t.notify i).fd (Reg.PC_CTRL_OWNER i) = s.fd (Reg.PC_CTRL_OWNER i) := State.fd_congr hctrl
  have howner : t.fd (Reg.PC_CTRL_OWNER i) = s.fd (Reg.PC_CTRL_OWNER i) := State.fd_congr h.rg_ctrl
  rw [State.pcIrq_outbox hsends', State.notify_outbox hsends, h.notify_reached, harm, hvector, howner', howner, h.pc hv,
    State.notifyRecord_congr h.rg_ctrl hlo hhi, h.outbox]

/-! ### An advance of a package counter (R287, R303) -/

theorem satAdd_lt (a n : Nat) : satAdd 48 a n < 2 ^ 48 := by
  unfold satAdd
  omega

section
variable (s : State) (i inc node : Nat)

theorem State.advancePc_eq : s.advancePc i inc node = ((s.pcShown i (satAdd 48 (s.pc i) inc) node).notify i).pcIrq i := rfl

theorem State.advancePc_sameArray : SameArray s (s.advancePc i inc node) := by
  obtain ⟨hclusters, hdram⟩ := (s.pcShown_shown i (satAdd_lt (s.pc i) inc) node).array
  rw [s.advancePc_eq, State.pcIrq_eq, State.notify_eq]
  exact ⟨hclusters, hdram⟩

theorem State.advancePc_desc (j : Nat) : (s.advancePc i inc node).desc j = (s.desc j).wake i (satAdd 48 (s.pc i) inc) := by
  have hdescs := (s.pcShown_shown i (satAdd_lt (s.pc i) inc) node).descs
  rw [s.advancePc_eq, State.desc, State.pcIrq_eq, State.notify_eq]
  exact (congrArg (tget noDesc · j) hdescs).trans (tget_map_snd (noDesc_wake i _) s.host.descs j)

theorem State.advancePc_pc : (s.advancePc i inc node).pc i = satAdd 48 (s.pc i) inc := by
  have hv := satAdd_lt (s.pc i) inc
  rw [s.advancePc_eq, State.pcIrq_pc, State.pc_congr (State.notify_rg _ _ _) (State.notify_rg _ _ _), (s.pcShown_shown i hv node).pc hv]

theorem State.advancePc_armed : (s.advancePc i inc node).on (Reg.PC_CTRL_IRQ_ARM i) =
    (s.on (Reg.PC_CTRL_IRQ_ARM i) && ! decide (0 ≤ (lo32 (satAdd 48 (s.pc i) inc) - s.rg (Reg.PC_IRQ_AT i)).toInt)) := by
  have hshown := s.pcShown_shown i (satAdd_lt (s.pc i) inc) node
  have hctrl := (State.notify_rg _ i _).trans hshown.rg_ctrl
  rw [s.advancePc_eq, State.pcIrq_armed, hshown.notify_reached, State.on_congr (s := s) hctrl]

end

/-! ### Commands that advance a counter, or write its control registers -/

/-- The signal of the owner, with INC above 0, is an advance (R303). -/
theorem exec_counterSignal {s : State} {i : Fin 64} {c : Fin 4096} {v : BitVec 64} (hbell : s.bellsOpen i) (hok : bellOk 8 v = true)
    (hinc : v.extractLsb' 0 32 ≠ 0) (hown : s.pcOwned c i = true) :
    exec (.counterSignal i c 8 v) s = .next (s.advancePc c (v.extractLsb' 0 32).toNat (hostNode i)) := by
  obtain ⟨hreset, hready⟩ := hbell
  change execCounterSignal i c 8 v s = _
  simp only [execCounterSignal, State.bar2, hreset, hready, hok, hown, if_neg hinc]
  rfl

theorem State.writeAllowed_of_open {s : State} (h : s.open) (off : Nat) : s.writeAllowed off = true := by
  obtain ⟨hready, hbusy⟩ := h
  simp [State.writeAllowed, hready, hbusy]

theorem findReg_cons_of_outside {off base stride count : Nat} (h : ¬ (base ≤ off ∧ off < base + stride * count)) (rows : List RegRow)
    (bs : List RegBlock) : findReg off (⟨base, stride, count, rows⟩ :: bs) = findReg off bs := if_neg h

theorem findReg_cons_of_row {off base stride count : Nat} {rows : List RegRow} {x : RegRow × Nat} (h : base ≤ off ∧ off < base + stride * count)
    (hrow : findRow ((off - base) % stride) rows = some x) (bs : List RegBlock) : findReg off (⟨base, stride, count, rows⟩ :: bs) = some x := by
  rw [findReg, if_pos h, hrow]
  rfl

/-- A package counter's register has the access types of its row (Table 9.9a). -/
theorem regMasks_pc {off : Nat} {r : RegRow} {j : Nat} (hlo : 0x90000 ≤ off) (hhi : off < 0xA0000)
    (hrow : findRow ((off - 0x90000) % 0x10) regRows90000_0 = some (r, j)) : regMasks off = (r.rw, r.w1c) := by
  have hpc : findReg off regBlocks = some (r, j) := by
    rw [regBlocks, findReg_cons_of_outside (by omega)]
    exact findReg_cons_of_row (by omega) hrow _
  rw [regMasks, if_neg (by omega), hpc]

theorem regMasks_pcCtrl (c : Fin 4096) : regMasks (Reg.PC_CTRL c) = (0xFFC007FF, 0) := by
  have hrel : (Reg.PC_CTRL c - 0x90000) % 0x10 = 8 := by unfold Reg.PC_CTRL; omega
  refine regMasks_pc (r := ⟨0x8, 1, 4, 0x0, 0xFFC007FF, 0x0⟩) (j := 0) ?_ ?_ (by rw [hrel]; rfl) <;> unfold Reg.PC_CTRL <;> omega

theorem regMasks_pcIrqAt (c : Fin 4096) : regMasks (Reg.PC_IRQ_AT c) = (0xFFFFFFFF, 0) := by
  have hrel : (Reg.PC_IRQ_AT c - 0x90000) % 0x10 = 12 := by unfold Reg.PC_IRQ_AT; omega
  refine regMasks_pc (r := ⟨0xC, 1, 4, 0x0, 0xFFFFFFFF, 0x0⟩) (j := 0) ?_ ?_ (by rw [hrel]; rfl) <;> unfold Reg.PC_IRQ_AT <;> omega

theorem State.pcCtrlWrite_of_sameOwner {s : State} {i : Nat} {v : Word} (hsame : bits (s.rg (Reg.PC_CTRL i)) 28 22 = bits v 28 22)
    (hvec : bits v 10 0 < if bits v 27 22 = 0 then 2048 else 32) : s.pcCtrlWrite i v = (s.plain (Reg.PC_CTRL i) v).pcIrq i := by
  simp [State.pcCtrlWrite, hsame, hvec]

/-- A write of PC_CTRL that leaves the owner, with a vector in range, takes effect by access types, and an armed target that is reached fires. -/
theorem exec_pcCtrlWrite {s : State} {c : Fin 4096} {v : Word} (hopen : s.open) (hsame : bits (s.rg (Reg.PC_CTRL c)) 28 22 = bits v 28 22)
    (hvec : bits v 10 0 < if bits v 27 22 = 0 then 2048 else 32) :
    exec (.pcCtrlWrite c v) s = .next ((s.plain (Reg.PC_CTRL c) v).pcIrq c) := by
  change execPcCtrlWrite c v s = _
  rw [execPcCtrlWrite, State.hostWrite, if_pos (State.writeAllowed_of_open hopen _), State.pcCtrlWrite_of_sameOwner hsame hvec]

theorem State.regWrite_pc (s : State) {off : Nat} (hlo : 0x90000 ≤ off) (hhi : off < 0xA0000) (v : Word) (vf : Bool) :
    s.regWrite off v vf = s.writePc off v := by
  rw [State.regWrite, if_neg (by omega), if_neg (by omega), if_neg (by omega), if_neg (by omega), if_neg (by omega), if_neg (by omega),
    if_neg (by omega), if_pos hlo]

theorem State.writePc_irqAt (s : State) (i : Nat) (v : Word) : s.writePc (Reg.PC_IRQ_AT i) v = (s.plain (Reg.PC_IRQ_AT i) v).pcIrq i := by
  have hi : (Reg.PC_IRQ_AT i - 0x90000) / 16 = i := by unfold Reg.PC_IRQ_AT; omega
  have hctrl : Reg.PC_IRQ_AT i ≠ Reg.PC_CTRL i := by unfold Reg.PC_IRQ_AT Reg.PC_CTRL; omega
  simp only [State.writePc, hi, if_neg hctrl, if_true]

theorem exec_registerWrite_pcIrqAt {s : State} (hopen : s.open) (c : Fin 4096) (v : BitVec 64) (vf : Bool) :
    exec (.registerWrite (BitVec.ofNat 24 (Reg.PC_IRQ_AT c)) 4 v vf) s =
      .next ((s.plain (Reg.PC_IRQ_AT c) (v.extractLsb' 0 32)).pcIrq c) := by
  have hlo : 0x90000 ≤ Reg.PC_IRQ_AT c := by unfold Reg.PC_IRQ_AT; omega
  have hhi : Reg.PC_IRQ_AT c < 0xA0000 := by unfold Reg.PC_IRQ_AT; omega
  have hoff : (BitVec.ofNat 24 (Reg.PC_IRQ_AT c)).toNat = Reg.PC_IRQ_AT c := by rw [BitVec.toNat_ofNat]; omega
  have hsize : sizeOk (Reg.PC_IRQ_AT c) 4 = true := by
    have : Reg.PC_IRQ_AT c % 4 = 0 := by unfold Reg.PC_IRQ_AT; omega
    simp [sizeOk, this]
  change execRegisterWrite _ 4 v vf s = _
  rw [execRegisterWrite, hoff, State.barWrite, hsize, State.writeAllowed_of_open hopen]
  exact congrArg Host.Outcome.next ((s.regWrite_pc hlo hhi _ vf).trans (s.writePc_irqAt c _))

/-! ### Work of SIGNAL and WAIT descriptors (R304, R372) -/

theorem State.desc_setDesc (s : State) (id : Nat) (d : Desc) (j : Nat) : (s.setDesc id d).desc j = if j = id then d else s.desc j :=
  tget_tput noDesc s.host.descs id j d

theorem State.endDesc_desc_of_ne (s : State) {id j : Nat} (h : j ≠ id) (status detail : Nat) : (s.endDesc id status detail).desc j = s.desc j :=
  (State.desc_setDesc _ id _ j).trans (if_neg h)

theorem State.endDesc_pc (s : State) (id status detail i : Nat) : (s.endDesc id status detail).pc i = s.pc i := rfl

theorem State.endDesc_sameArray (s : State) (id status detail : Nat) : SameArray s (s.endDesc id status detail) := ⟨rfl, rfl⟩

theorem State.endDesc_endedDesc (s : State) (id status detail : Nat) : EndedDesc s (s.endDesc id status detail) id status detail := by
  have hsame : (s.endDesc id status detail).desc id = { s.desc id with
      state := .ended, status := status, detail := detail
      start := if status = 4 then (s.desc id).start else (s.desc id).start.orElse fun _ => some s.now } :=
    (State.desc_setDesc _ id _ id).trans (if_pos rfl)
  unfold EndedDesc
  rw [hsame]
  exact ⟨rfl, rfl, rfl, rfl, rfl, rfl, rfl, fun j hj => s.endDesc_desc_of_ne hj status detail⟩

theorem State.work_of_hasWork {s : State} {r op id : Nat} {pos : Word} {d : Desc} (h : s.hasWork r pos op id d)
    (f : State → Nat → Desc → State) : s.work r pos op f = f s id d := by
  obtain ⟨hfind, rfl, hstate, hop⟩ := h
  simp only [State.work, hfind]
  exact if_pos ⟨hstate, hop⟩

theorem exec_signal {s : State} {r : Fin 4096} {pos : Word} {id : Nat} {d : Desc} (h : s.hasWork r pos 4 id d)
    (hown : s.pcOwned (bits (d.w 4) 11 0) d.inst = true) :
    exec (.signal r pos) s = .next ((s.advancePc (bits (d.w 4) 11 0) (d.w 5).toNat (hostNode d.inst)).endDesc id 0 0) := by
  change execSignal r pos s = _
  rw [execSignal, State.work_of_hasWork h, if_pos hown]

theorem exec_wait_met {s : State} {r : Fin 4096} {pos : Word} {id : Nat} {d : Desc} (h : s.hasWork r pos 5 id d)
    (hown : s.pcOwned (bits (d.w 4) 11 0) d.inst = true) (hmet : waitTarget d ≤ s.pc (bits (d.w 4) 11 0)) :
    exec (.wait r pos) s = .next (s.endDesc id 0 0) := by
  change execWait r pos s = _
  simp only [execWait, State.work_of_hasWork h, hown, if_pos hmet]
  rfl

theorem exec_wait_unmet {s : State} {r : Fin 4096} {pos : Word} {id : Nat} {d : Desc} (h : s.hasWork r pos 5 id d)
    (hown : s.pcOwned (bits (d.w 4) 11 0) d.inst = true) (hunmet : s.pc (bits (d.w 4) 11 0) < waitTarget d) :
    exec (.wait r pos) s = .next ((s.setDesc id { d with state := .running, start := some s.now }).traceStart (bits (d.w 4) 11 0)
      (BitVec.ofNat 32 (hostNode d.inst), d.w 5)) := by
  change execWait r pos s = _
  simp only [execWait, State.work_of_hasWork h, hown, if_neg (Nat.not_le.2 hunmet)]
  rfl

/-- An advance ends a WAIT on the counter where it meets the target, and only there; the status stays OK. -/
theorem State.advancePc_waitsOn {s : State} {i j : Nat} (inc node : Nat) (hwait : (s.desc j).waitsOn i = true) :
    (((s.advancePc i inc node).desc j).state = .ended ↔ waitTarget (s.desc j) ≤ (s.advancePc i inc node).pc i) ∧
      ((s.advancePc i inc node).desc j).status = (s.desc j).status := by
  rw [State.advancePc_desc, State.advancePc_pc]
  exact ⟨Desc.wake_ended_iff hwait _, Desc.wake_status _ _ _⟩

/-! ### The obligations -/

/-- Settles O30: an advance ends in `pcIrq`, as a write of PC_CTRL and of IRQ_AT does, and `pcIrq` says what fires. -/
theorem packageCountersFireTheirInterrupts : Obligations.PackageCountersFireTheirInterrupts := by
  unfold Obligations.PackageCountersFireTheirInterrupts
  refine ⟨?signal, ?irqAt, ?rearm⟩
  case signal =>
    intro s i c v new reached w hbell hsends hok hinc hown
    have howner : s.fd (Reg.PC_CTRL_OWNER c) = i := by
      simp only [State.pcOwned, Bool.and_eq_true, beq_iff_eq] at hown
      exact hown.2
    have hout := (s.pcShown_shown c (satAdd_lt (s.pc c) (v.extractLsb' 0 32).toNat) (hostNode i)).outbox_notify_irq (satAdd_lt _ _) hsends
    rw [howner] at hout
    refine ⟨_, exec_counterSignal hbell hok hinc hown, ?_, ?_, ?_, ?_⟩
    · exact s.advancePc_pc c _ _
    · exact s.advancePc_armed c _ _
    · exact hout
    · exact s.advancePc_sameArray c _ _
  case irqAt =>
    intro s c v vf hopen harm
    have hctrl : Reg.PC_CTRL c ≠ Reg.PC_IRQ_AT c := by unfold Reg.PC_CTRL Reg.PC_IRQ_AT; omega
    let u := s.plain (Reg.PC_IRQ_AT c) (v.extractLsb' 0 32)
    have hquiet : ¬ (u.on (Reg.PC_CTRL_IRQ_ARM c) && u.pcReached c) = true := by
      rw [State.on_congr (s := s) ((s.rg_plain _ _ _).trans (if_neg hctrl)), harm]
      exact Bool.false_ne_true
    refine ⟨_, exec_registerWrite_pcIrqAt hopen c v vf, ?_⟩
    rw [State.pcIrq_of_not_due hquiet]
    refine ⟨?_, rfl, fun off hoff => ?_⟩
    · rw [State.rg_plain, if_pos rfl, regMasks_pcIrqAt, plainWrite_all_rw]
    · rw [State.rg_plain, if_neg (by simpa using hoff)]
  case rearm =>
    intro s c v reached hopen hsends hsame hvec harm
    let u := s.plain (Reg.PC_CTRL c) v
    have hrg {off : Nat} (h : off ≠ Reg.PC_CTRL c) : u.rg off = s.rg off := (s.rg_plain _ _ _).trans (if_neg h)
    have hlo : Reg.PC_VALUE_LO c ≠ Reg.PC_CTRL c := by unfold Reg.PC_VALUE_LO Reg.PC_CTRL; omega
    have hhi : Reg.PC_VALUE_HI c ≠ Reg.PC_CTRL c := by unfold Reg.PC_VALUE_HI Reg.PC_CTRL; omega
    have hat : Reg.PC_IRQ_AT c ≠ Reg.PC_CTRL c := by unfold Reg.PC_IRQ_AT Reg.PC_CTRL; omega
    have hreached : u.pcReached c = reached := by rw [State.pcReached, hrg hlo, hrg hat]
    have hsends' : u.sends := (State.sends_congr (hrg (by unfold Reg.GS_STATUS Reg.PC_CTRL; omega))).2 hsends
    have hctrl : u.rg (Reg.PC_CTRL c) = plainWrite (s.rg (Reg.PC_CTRL c)) v 0xFFC007FF 0 := by
      rw [State.rg_plain, if_pos rfl, regMasks_pcCtrl]
    have howner : u.fd (Reg.PC_CTRL_OWNER c) = bits v 27 22 :=
      (congrArg (bits · 27 22) hctrl).trans (bits_plainWrite_of_rw _ v (by decide))
    have hvector : u.fd (Reg.PC_CTRL_VECTOR c) = bits v 10 0 :=
      (congrArg (bits · 10 0) hctrl).trans (bits_plainWrite_of_rw _ v (by decide))
    refine ⟨_, exec_pcCtrlWrite hopen hsame hvec, ?_, ?_, ?_⟩
    · rw [State.pcIrq_armed, harm, hreached, Bool.true_and]
    · rw [State.pcIrq_pc]
      exact State.pc_congr (hrg hlo) (hrg hhi)
    · rw [State.pcIrq_outbox hsends', harm, hreached, howner, hvector, Bool.true_and]
      rfl

/-- Settles O31: both kinds of signal are the advance of the counter, which ends the WAITs that its new value meets and no other. -/
theorem signalAndWaitDescriptorsActOnPackageCounters : Obligations.SignalAndWaitDescriptorsActOnPackageCounters := by
  unfold Obligations.SignalAndWaitDescriptorsActOnPackageCounters
  refine ⟨?signal, ?counterSignal, ?met, ?unmet⟩
  case signal =>
    intro s r pos id d hwork c hown
    let u := s.advancePc c (d.w 5).toNat (hostNode d.inst)
    obtain ⟨hstate, hstatus, -⟩ := u.endDesc_endedDesc id 0 0
    refine ⟨u.endDesc id 0 0, exec_signal hwork hown, ?_, hstate, hstatus, fun j hwait _ hj => ?_, ?_⟩
    · rw [u.endDesc_pc]
      exact s.advancePc_pc c _ _
    · rw [u.endDesc_desc_of_ne hj, u.endDesc_pc]
      exact State.advancePc_waitsOn _ _ hwait
    · obtain ⟨hclusters, hdram⟩ := u.endDesc_sameArray id 0 0
      obtain ⟨hclusters', hdram'⟩ := s.advancePc_sameArray c (d.w 5).toNat (hostNode d.inst)
      exact ⟨hclusters.trans hclusters', hdram.trans hdram'⟩
  case counterSignal =>
    intro s i c v j hbell hok hinc hown hwait _
    refine ⟨_, exec_counterSignal hbell hok hinc hown, ?_⟩
    exact State.advancePc_waitsOn _ _ hwait
  case met =>
    intro s r pos id d hwork c hown hmet
    refine ⟨_, exec_wait_met hwork hown hmet, ?_, ?_⟩
    · exact s.endDesc_endedDesc id 0 0
    · rfl
  case unmet =>
    intro s r pos id d hwork c hown hunmet
    let y : Desc := { d with state := .running, start := some s.now }
    have hexec := exec_wait_unmet hwork hown hunmet
    obtain ⟨-, -, -, hop⟩ := hwork
    have htrace : OnlyTrace (s.setDesc id y) _ := State.traceStart_onlyTrace _ c (BitVec.ofNat 32 (hostNode d.inst), d.w 5)
    have hdesc (j : Nat) := (htrace.desc j).trans (s.desc_setDesc id y j)
    have hid := (hdesc id).trans (if_pos rfl)
    refine ⟨_, hexec, ?_, ?_, fun j hj => (hdesc j).trans (if_neg hj), htrace.sameArray, htrace.outbox, htrace.pc c⟩
    · rw [hid]
      exact (y.waitsOn_iff c).2 ⟨rfl, hop, rfl⟩
    · rw [hid]

end Sys2Proof.Machine

/-! Proofs about the bytes of device DRAM and the stacks that serve them (15_dram_and_store.md, R489). -/

namespace Sys2Proof.Machine

/-! ### Bytes written and read -/

theorem State.wrB_of_dramSize_le (s : State) {a : Nat} (h : dramSize ≤ a) (v : Byte) : s.wrB a v = s :=
  if_neg (Nat.not_lt.2 h)

/-- After a run of bytes is written, an address of the run that reaches storage reads its byte of the run; every other reads as before. -/
theorem State.rdB_wrBytes (s : State) (a b : Nat) (l : List Byte) :
    (s.wrBytes a l).rdB b = if a ≤ b ∧ b < a + l.length ∧ b < dramSize then l.getD (b - a) 0#8 else s.rdB b := by
  induction l generalizing s a with
  | nil =>
    have hout : ¬ (a ≤ b ∧ b < a + 0 ∧ b < dramSize) := by omega
    exact (if_neg hout).symm
  | cons x l ih =>
    rw [State.wrBytes, ih, State.rdB_wrB, List.length_cons]
    rcases Nat.lt_trichotomy b a with hbelow | rfl | habove
    · rw [if_neg (by omega), if_neg (by omega), if_neg (by omega)]
    · rw [if_neg (by omega), Nat.sub_self, List.getD_cons_zero]
      exact if_congr (by omega) rfl rfl
    · obtain ⟨k, rfl⟩ : ∃ k, b = a + 1 + k := ⟨b - (a + 1), by omega⟩
      rw [if_neg (show ¬ (a + 1 + k = a ∧ a < dramSize) by omega), Nat.add_sub_cancel_left, show a + 1 + k - a = k + 1 by omega,
        List.getD_cons_succ]
      exact if_congr (by omega) rfl rfl

/-! ### The stack that serves an address -/

theorem stackOf_of_die {d a : Nat} (hlo : 96 * 2 ^ 30 * d ≤ a) (hhi : a < 96 * 2 ^ 30 * (d + 1)) : stackOf a = 2 * d + a / 4096 % 2 := by
  have hdie : a / (96 * 2 ^ 30) = d := Nat.div_eq_of_lt_le (by omega) (by omega)
  rw [stackOf, hdie]

/-- A die holds whole pages of 4 KiB, so a page lies in one stack. -/
theorem stackOf_eq_of_page_eq {a b : Nat} (h : a / 4096 = b / 4096) : stackOf a = stackOf b := by
  have hdie (x : Nat) : x / (96 * 2 ^ 30) = x / 4096 / (96 * 2 ^ 18) := (Nat.div_div_eq_div_mul x 4096 (96 * 2 ^ 18)).symm
  rw [stackOf, stackOf, hdie, hdie, h]

/-! ### The obligation -/

/-- Settles O9: what a byte reads is `rdB_wrB` and `rdB_wrBytes`, and the stack of an address follows from its die and page. -/
theorem dramAddressesReachTheStackThatR489Says : Obligations.DramAddressesReachTheStackThatR489Says := by
  unfold Obligations.DramAddressesReachTheStackThatR489Says
  refine ⟨?same, ?other, ?above, ?run, ?outside, ?bit12, ?page, ?nextPage⟩
  case same =>
    intro s a v ha
    rw [State.rdB_wrB, if_pos ⟨rfl, ha⟩]
  case other =>
    intro s a b v hne
    rw [State.rdB_wrB, if_neg fun h => hne h.1]
  case above => exact fun s a v ha => s.wrB_of_dramSize_le ha v
  case run =>
    intro s a l k hk ha
    rw [State.rdB_wrBytes, if_pos ⟨Nat.le_add_right a k, Nat.add_lt_add_left hk a, ha⟩, Nat.add_sub_cancel_left]
  case outside =>
    intro s a b l hout
    rw [State.rdB_wrBytes, if_neg (by omega)]
  case bit12 =>
    intro d a _ hlo hhi
    have hbit : a.testBit 12 = decide (a / 4096 % 2 = 1) := Nat.testBit_eq_decide_div_mod_eq
    rw [stackOf_of_die hlo hhi, hbit]
    rcases Nat.mod_two_eq_zero_or_one (a / 4096) with h | h
    · simp [h]
    · simp [h]
  case page => exact fun d a b _ _ _ hpage => stackOf_eq_of_page_eq hpage
  case nextPage =>
    intro d a _ hlo hnext
    rw [stackOf_of_die (Nat.le_add_right_of_le hlo) hnext, stackOf_of_die hlo (Nat.lt_of_add_right_lt hnext), Nat.add_div_right a (by decide)]
    omega

end Sys2Proof.Machine

/-! Proofs about power and heat: the settings of TH_WARN and FAN_CTRL that are ignored (18_power.md, R601). -/

namespace Sys2Proof.Machine

/-! ### A BAR0 write of four bytes -/

theorem State.barWrite_four_of_open {s : State} (hopen : s.open) {off : Nat} (haligned : off % 4 = 0) (v : Word) (vf : Bool) :
    s.barWrite off 4 (v.setWidth 64) vf = s.regWrite off v vf := by
  have hsize : sizeOk off 4 = true := by simp [sizeOk, haligned]
  rw [State.barWrite, hsize, State.writeAllowed_of_open hopen, BitVec.extractLsb'_setWidth_of_le (by decide),
    BitVec.extractLsb'_eq_self]
  rfl

/-! ### The registers of heat (R601) -/

theorem State.regWrite_power (s : State) {off : Nat} (hlo : 0x20000 ≤ off) (hhi : off < 0x30000) (v : Word) (vf : Bool) :
    s.regWrite off v vf = s.writePower off v := by
  rw [State.regWrite, if_neg (by omega), if_neg (by omega), if_neg (by omega), if_neg (by omega), if_neg (by omega), if_neg (by omega),
    if_neg (by omega), if_neg (by omega), if_neg (by omega), if_neg (by omega), if_neg (by omega), if_pos hlo]

theorem State.writePower_thWarn (s : State) (v : Word) : s.writePower Reg.TH_WARN v =
    if 960 ≤ bits v 15 0 ∧ bits v 15 0 ≤ 1600 then (s.plain Reg.TH_WARN v).driveFan else s := by
  rw [State.writePower, if_neg (by decide), if_neg (by decide), if_pos rfl]

theorem State.writePower_fanCtrl (s : State) (v : Word) : s.writePower Reg.FAN_CTRL v =
    if bits v 31 24 ≤ 100 ∧ bits v 23 16 < bits v 15 8 then (s.plain Reg.FAN_CTRL v).driveFan else s := by
  rw [State.writePower, if_neg (by decide), if_neg (by decide), if_neg (by decide), if_pos rfl]

/-- A setting that R601 excludes: TH_WARN outside 60 to 100 °C (in 1/16 °C), or FAN_CTRL with T_HIGH not above T_LOW or MIN_DUTY above 100. -/
def HeatOutOfRange (off : Nat) (v : Word) : Prop :=
  (off = Reg.TH_WARN ∧ (bits v 15 0 < 960 ∨ 1600 < bits v 15 0)) ∨
    (off = Reg.FAN_CTRL ∧ (bits v 15 8 ≤ bits v 23 16 ∨ 100 < bits v 31 24))

theorem State.writePower_of_heatOutOfRange (s : State) {off : Nat} {v : Word} (h : HeatOutOfRange off v) : s.writePower off v = s := by
  obtain ⟨rfl, hout⟩ | ⟨rfl, hout⟩ := h
  · rw [State.writePower_thWarn, if_neg (by omega)]
  · rw [State.writePower_fanCtrl, if_neg (by omega)]

theorem State.barWrite_of_heatOutOfRange {s : State} (hopen : s.open) {off : Nat} {v : Word} (h : HeatOutOfRange off v) (vf : Bool) :
    s.barWrite off 4 (v.setWidth 64) vf = s := by
  have hoff : off = Reg.TH_WARN ∨ off = Reg.FAN_CTRL := h.imp And.left And.left
  have hplace : 0x20000 ≤ off ∧ off < 0x30000 ∧ off % 4 = 0 := by obtain rfl | rfl := hoff <;> decide
  obtain ⟨hlo, hhi, haligned⟩ := hplace
  rw [State.barWrite_four_of_open hopen haligned, s.regWrite_power hlo hhi, s.writePower_of_heatOutOfRange h]

theorem exec_registerWrite_of_heatOutOfRange {s : State} (hopen : s.open) {off : Nat} (hoff : off < 2 ^ 24) {v : Word} (h : HeatOutOfRange off v)
    (vf : Bool) : Passes (.registerWrite (BitVec.ofNat 24 off) 4 (v.setWidth 64) vf) s := by
  have hnat : (BitVec.ofNat 24 off).toNat = off := by rw [BitVec.toNat_ofNat, Nat.mod_eq_of_lt hoff]
  change execRegisterWrite _ 4 _ vf s = _
  rw [execRegisterWrite, hnat, State.barWrite_of_heatOutOfRange hopen h]

/-! ### The management controller's write (R617, R618) -/

theorem State.vendorRun_of_served {s : State} {pecOk : Bool} (hserves : s.mctpServes pecOk = true) (hrec : s.on Reg.GS_STATUS_RECOVERY = false)
    (cmd : Nat) (f : State → State) : s.vendorRun pecOk cmd f = f s := by
  rw [State.vendorRun, hserves, hrec]
  rfl

/-- A WRITE_REG that is served, of a register write without effect, only answers. -/
theorem exec_writeReg_of_barWrite_eq_self {s : State} {pecOk : Bool} (hserves : s.mctpServes pecOk = true)
    (hrec : s.on Reg.GS_STATUS_RECOVERY = false) {off v : Word} {vf : Bool} (hwrite : s.barWrite off.toNat 4 (v.setWidth 64) vf = s) :
    ∃ status, exec (.writeReg pecOk off v vf) s = .next (s.vendorReply 2 status []) := by
  change ∃ status, execWriteReg pecOk off v vf s = _
  simp only [execWriteReg, State.vendorRun_of_served hserves hrec, hwrite]
  exact ⟨_, rfl⟩

/-! ### The obligation -/

/-- Settles O55: `writePower` leaves the state at both registers' excluded settings, and both ways of writing come to it. -/
theorem heatSettingsOutOfRangeAreIgnored : Obligations.HeatSettingsOutOfRangeAreIgnored := by
  unfold Obligations.HeatSettingsOutOfRangeAreIgnored
  refine ⟨?thWarn, ?fanCtrl, ?management⟩
  case thWarn => exact fun s v vf hopen hout => exec_registerWrite_of_heatOutOfRange hopen (by decide) (.inl ⟨rfl, hout⟩) vf
  case fanCtrl => exact fun s v vf hopen hout => exec_registerWrite_of_heatOutOfRange hopen (by decide) (.inr ⟨rfl, hout⟩) vf
  case management =>
    intro s off v vf hopen hserves hrec hout
    exact exec_writeReg_of_barWrite_eq_self hserves hrec (State.barWrite_of_heatOutOfRange hopen hout vf)

end Sys2Proof.Machine

/-! Every command completes and keeps what no command touches; what a step and the reset state hold (log entries 1 to 3, 8). -/

namespace Sys2Proof.Machine

/-- Every command answers a next state that keeps what `Keeps` says: the table's commands one by one. -/
theorem exec_keeps (s : State) : ∀ c : Instr, KeepsOut s (exec c s)
  | .registerWrite .. => execRegisterWrite_keeps (keeps_refl s) ..
  | .latchedRead .. => execLatchedRead_keeps (keeps_refl s) ..
  | .ageIncrement .. => execAgeIncrement_keeps (keeps_refl s) ..
  | .meshPacketArrive .. => execMeshPacketArrive_keeps (keeps_refl s) ..
  | .dramReadArrive .. => execDramReadArrive_keeps (keeps_refl s) ..
  | .dramWriteArrive .. => execDramWriteArrive_keeps (keeps_refl s) ..
  | .mergeWindowExpire .. => execMergeWindowExpire_keeps (keeps_refl s) ..
  | .dramReadComplete .. => execDramReadComplete_keeps (keeps_refl s) ..
  | .pseudoChannelMigrateDone .. => execPseudoChannelMigrateDone_keeps (keeps_refl s) ..
  | .bridgeGroupFail .. => execBridgeGroupFail_keeps (keeps_refl s) ..
  | .nop .. => execNop_keeps (keeps_refl s) ..
  | .loadw .. => execLoadw_keeps (keeps_refl s) ..
  | .mma .. => execMma_keeps (keeps_refl s) ..
  | .max .. => execMax_keeps (keeps_refl s) ..
  | .min .. => execMin_keeps (keeps_refl s) ..
  | .matrixOpStart .. => execMatrixOpStart_keeps (keeps_refl s) ..
  | .tileComplete .. => execTileComplete_keeps (keeps_refl s) ..
  | .arrayBankRelease .. => execArrayBankRelease_keeps (keeps_refl s) ..
  | .epilogueStart .. => execEpilogueStart_keeps (keeps_refl s) ..
  | .epilogueDone .. => execEpilogueDone_keeps (keeps_refl s) ..
  | .mxuInject .. => execMxuInject_keeps (keeps_refl s) ..
  | .vecCopy .. => execVecCopy_keeps (keeps_refl s) ..
  | .vecIadd .. => execVecIadd_keeps (keeps_refl s) ..
  | .vecIsub .. => execVecIsub_keeps (keeps_refl s) ..
  | .vecImul .. => execVecImul_keeps (keeps_refl s) ..
  | .vecShl .. => execVecShl_keeps (keeps_refl s) ..
  | .vecShrl .. => execVecShrl_keeps (keeps_refl s) ..
  | .vecShra .. => execVecShra_keeps (keeps_refl s) ..
  | .vecAnd .. => execVecAnd_keeps (keeps_refl s) ..
  | .vecOr .. => execVecOr_keeps (keeps_refl s) ..
  | .vecXor .. => execVecXor_keeps (keeps_refl s) ..
  | .vecAndn .. => execVecAndn_keeps (keeps_refl s) ..
  | .vecIcmp .. => execVecIcmp_keeps (keeps_refl s) ..
  | .vecImax .. => execVecImax_keeps (keeps_refl s) ..
  | .vecImin .. => execVecImin_keeps (keeps_refl s) ..
  | .vecSel .. => execVecSel_keeps (keeps_refl s) ..
  | .vecFadd .. => execVecFadd_keeps (keeps_refl s) ..
  | .vecFsub .. => execVecFsub_keeps (keeps_refl s) ..
  | .vecFcmp .. => execVecFcmp_keeps (keeps_refl s) ..
  | .vecFmax .. => execVecFmax_keeps (keeps_refl s) ..
  | .vecFmin .. => execVecFmin_keeps (keeps_refl s) ..
  | .vecFmul .. => execVecFmul_keeps (keeps_refl s) ..
  | .vecFdiv .. => execVecFdiv_keeps (keeps_refl s) ..
  | .vecLut .. => execVecLut_keeps (keeps_refl s) ..
  | .vecGather .. => execVecGather_keeps (keeps_refl s) ..
  | .vecPmax .. => execVecPmax_keeps (keeps_refl s) ..
  | .vecPmin .. => execVecPmin_keeps (keeps_refl s) ..
  | .vectorOpStart .. => execVectorOpStart_keeps (keeps_refl s) ..
  | .sumsqRecordWrite .. => execSumsqRecordWrite_keeps (keeps_refl s) ..
  | .elasticAccess .. => execElasticAccess_keeps (keeps_refl s) ..
  | .patrolScrub .. => execPatrolScrub_keeps (keeps_refl s) ..
  | .spareBankCopyDone .. => execSpareBankCopyDone_keeps (keeps_refl s) ..
  | .zeroingRequest .. => execZeroingRequest_keeps (keeps_refl s) ..
  | .zeroingDone .. => execZeroingDone_keeps (keeps_refl s) ..
  | .spDbgRead .. => execSpDbgRead_keeps (keeps_refl s) ..
  | .spDbgReadTimeout .. => execSpDbgReadTimeout_keeps (keeps_refl s) ..
  | .spDbgWrite .. => execSpDbgWrite_keeps (keeps_refl s) ..
  | .loop .. => execLoop_keeps (keeps_refl s) ..
  | .pred .. => execPred_keeps (keeps_refl s) ..
  | .streamStart .. => execStreamStart_keeps (keeps_refl s) ..
  | .streamWait .. => execStreamWait_keeps (keeps_refl s) ..
  | .streamWaitAll .. => execStreamWaitAll_keeps (keeps_refl s) ..
  | .streamAdvance .. => execStreamAdvance_keeps (keeps_refl s) ..
  | .streamBlockStart .. => execStreamBlockStart_keeps (keeps_refl s) ..
  | .streamBlockComplete .. => execStreamBlockComplete_keeps (keeps_refl s) ..
  | .bwSplitWrite .. => execBwSplitWrite_keeps (keeps_refl s) ..
  | .bwPresetAdopt .. => execBwPresetAdopt_keeps (keeps_refl s) ..
  | .send .. => execSend_keeps (keeps_refl s) ..
  | .sendHalo .. => execSendHalo_keeps (keeps_refl s) ..
  | .recv .. => execRecv_keeps (keeps_refl s) ..
  | .release .. => execRelease_keeps (keeps_refl s) ..
  | .tilePacketArrive .. => execTilePacketArrive_keeps (keeps_refl s) ..
  | .creditArrive .. => execCreditArrive_keeps (keeps_refl s) ..
  | .takeNotice .. => execTakeNotice_keeps (keeps_refl s) ..
  | .contextSwitch .. => execContextSwitch_keeps (keeps_refl s) ..
  | .planeSwitch .. => execPlaneSwitch_keeps (keeps_refl s) ..
  | .yield .. => execYield_keeps (keeps_refl s) ..
  | .endSlot .. => execEndSlot_keeps (keeps_refl s) ..
  | .deadlockWindowExpire .. => execDeadlockWindowExpire_keeps (keeps_refl s) ..
  | .seqHalt .. => execSeqHalt_keeps (keeps_refl s) ..
  | .seqStep .. => execSeqStep_keeps (keeps_refl s) ..
  | .csig .. => execCsig_keeps (keeps_refl s) ..
  | .cwait .. => execCwait_keeps (keeps_refl s) ..
  | .mirrorUpdate .. => execMirrorUpdate_keeps (keeps_refl s) ..
  | .pkgMirrorUpdate .. => execPkgMirrorUpdate_keeps (keeps_refl s) ..
  | .counterSignal .. => execCounterSignal_keeps (keeps_refl s) ..
  | .pcCtrlWrite .. => execPcCtrlWrite_keeps (keeps_refl s) ..
  | .cntSetGo => execCntSetGo_keeps (keeps_refl s)
  | .barrier .. => execBarrier_keeps (keeps_refl s) ..
  | .barrierRelease .. => execBarrierRelease_keeps (keeps_refl s) ..
  | .barrierReleaseArrive .. => execBarrierReleaseArrive_keeps (keeps_refl s) ..
  | .stepBarrierRelease => execStepBarrierRelease_keeps (keeps_refl s)
  | .stepReleaseArrive .. => execStepReleaseArrive_keeps (keeps_refl s) ..
  | .lendStart .. => execLendStart_keeps (keeps_refl s) ..
  | .traceNotice .. => execTraceNotice_keeps (keeps_refl s) ..
  | .framePulse .. => execFramePulse_keeps (keeps_refl s) ..
  | .ppsPulse .. => execPpsPulse_keeps (keeps_refl s) ..
  | .ptpSync .. => execPtpSync_keeps (keeps_refl s) ..
  | .referenceLoss .. => execReferenceLoss_keeps (keeps_refl s) ..
  | .delayReqSend => execDelayReqSend_keeps (keeps_refl s)
  | .timeRelock .. => execTimeRelock_keeps (keeps_refl s) ..
  | .aeCommit .. => execAeCommit_keeps (keeps_refl s) ..
  | .startRun .. => execStartRun_keeps (keeps_refl s) ..
  | .ringFire .. => execRingFire_keeps (keeps_refl s) ..
  | .startStep .. => execStartStep_keeps (keeps_refl s) ..
  | .aeBarrier .. => execAeBarrier_keeps (keeps_refl s) ..
  | .deadline .. => execDeadline_keeps (keeps_refl s) ..
  | .powerWake .. => execPowerWake_keeps (keeps_refl s) ..
  | .powerEnterRest .. => execPowerEnterRest_keeps (keeps_refl s) ..
  | .powerSetCap .. => execPowerSetCap_keeps (keeps_refl s) ..
  | .telemetry .. => execTelemetry_keeps (keeps_refl s) ..
  | .runDeadline .. => execRunDeadline_keeps (keeps_refl s) ..
  | .tbOutputPulse .. => execTbOutputPulse_keeps (keeps_refl s) ..
  | .sqDoorbell .. => execSqDoorbell_keeps (keeps_refl s) ..
  | .cqDoorbell .. => execCqDoorbell_keeps (keeps_refl s) ..
  | .stagedTailWrite .. => execStagedTailWrite_keeps (keeps_refl s) ..
  | .descriptorFetch .. => execDescriptorFetch_keeps (keeps_refl s) ..
  | .descriptorAdmit .. => execDescriptorAdmit_keeps (keeps_refl s) ..
  | .run .. => execRun_keeps (keeps_refl s) ..
  | .copyIn .. => execCopyIn_keeps (keeps_refl s) ..
  | .copyOut .. => execCopyOut_keeps (keeps_refl s) ..
  | .signal .. => execSignal_keeps (keeps_refl s) ..
  | .wait .. => execWait_keeps (keeps_refl s) ..
  | .waitTimeout .. => execWaitTimeout_keeps (keeps_refl s) ..
  | .loadProgram .. => execLoadProgram_keeps (keeps_refl s) ..
  | .evict .. => execEvict_keeps (keeps_refl s) ..
  | .fence .. => execFence_keeps (keeps_refl s) ..
  | .descriptorComplete .. => execDescriptorComplete_keeps (keeps_refl s) ..
  | .coalTimer .. => execCoalTimer_keeps (keeps_refl s) ..
  | .hostReadTimeout .. => execHostReadTimeout_keeps (keeps_refl s) ..
  | .lateCompletion .. => execLateCompletion_keeps (keeps_refl s) ..
  | .tagQuarantineExpire .. => execTagQuarantineExpire_keeps (keeps_refl s) ..
  | .bar4Access .. => execBar4Access_keeps (keeps_refl s) ..
  | .ringContextWrite .. => execRingContextWrite_keeps (keeps_refl s) ..
  | .windowWrite .. => execWindowWrite_keeps (keeps_refl s) ..
  | .instReset .. => execInstReset_keeps (keeps_refl s) ..
  | .resetDone .. => execResetDone_keeps (keeps_refl s) ..
  | .dramPageZeroed => execDramPageZeroed_keeps (keeps_refl s)
  | .storeErase .. => execStoreErase_keeps (keeps_refl s) ..
  | .storeFormat .. => execStoreFormat_keeps (keeps_refl s) ..
  | .repairScan .. => execRepairScan_keeps (keeps_refl s) ..
  | .imageVerify .. => execImageVerify_keeps (keeps_refl s) ..
  | .firmwareUpdate .. => execFirmwareUpdate_keeps (keeps_refl s) ..
  | .maintDone => execMaintDone_keeps (keeps_refl s)
  | .ethFrameReceive .. => execEthFrameReceive_keeps (keeps_refl s) ..
  | .pfcReceive .. => execPfcReceive_keeps (keeps_refl s) ..
  | .pauseExpire .. => execPauseExpire_keeps (keeps_refl s) ..
  | .pfcRepeat .. => execPfcRepeat_keeps (keeps_refl s) ..
  | .arpRequest .. => execArpRequest_keeps (keeps_refl s) ..
  | .sesOpen .. => execSesOpen_keeps (keeps_refl s) ..
  | .req .. => execReq_keeps (keeps_refl s) ..
  | .ack .. => execAck_keeps (keeps_refl s) ..
  | .poll .. => execPoll_keeps (keeps_refl s) ..
  | .close .. => execClose_keeps (keeps_refl s) ..
  | .keepalive .. => execKeepalive_keeps (keeps_refl s) ..
  | .sessionAckTimer .. => execSessionAckTimer_keeps (keeps_refl s) ..
  | .sessionAgeOut .. => execSessionAgeOut_keeps (keeps_refl s) ..
  | .groupHoldExpire .. => execGroupHoldExpire_keeps (keeps_refl s) ..
  | .accClear .. => execAccClear_keeps (keeps_refl s) ..
  | .flPortEnable .. => execFlPortEnable_keeps (keeps_refl s) ..
  | .linkTrained .. => execLinkTrained_keeps (keeps_refl s) ..
  | .trainingRetry .. => execTrainingRetry_keeps (keeps_refl s) ..
  | .linkBlockReceive .. => execLinkBlockReceive_keeps (keeps_refl s) ..
  | .replayRequest .. => execReplayRequest_keeps (keeps_refl s) ..
  | .blockLockLoss .. => execBlockLockLoss_keeps (keeps_refl s) ..
  | .retrain .. => execRetrain_keeps (keeps_refl s) ..
  | .retrainTimeout .. => execRetrainTimeout_keeps (keeps_refl s) ..
  | .laneRetire .. => execLaneRetire_keeps (keeps_refl s) ..
  | .flaridHeadArrive .. => execFlaridHeadArrive_keeps (keeps_refl s) ..
  | .read .. => execRead_keeps (keeps_refl s) ..
  | .write .. => execWrite_keeps (keeps_refl s) ..
  | .atomicAdd .. => execAtomicAdd_keeps (keeps_refl s) ..
  | .counterAdd .. => execCounterAdd_keeps (keeps_refl s) ..
  | .readData .. => execReadData_keeps (keeps_refl s) ..
  | .flAck .. => execFlAck_keeps (keeps_refl s) ..
  | .nack .. => execNack_keeps (keeps_refl s) ..
  | .nackResend .. => execNackResend_keeps (keeps_refl s) ..
  | .mcastWrite .. => execMcastWrite_keeps (keeps_refl s) ..
  | .mcastFrame .. => execMcastFrame_keeps (keeps_refl s) ..
  | .notice .. => execNotice_keeps (keeps_refl s) ..
  | .flReturn .. => execFlReturn_keeps (keeps_refl s) ..
  | .flWaitTimeout .. => execFlWaitTimeout_keeps (keeps_refl s) ..
  | .requestTimeout .. => execRequestTimeout_keeps (keeps_refl s) ..
  | .routeMarkExpire .. => execRouteMarkExpire_keeps (keeps_refl s) ..
  | .epochExpire .. => execEpochExpire_keeps (keeps_refl s) ..
  | .dupEntryExpire .. => execDupEntryExpire_keeps (keeps_refl s) ..
  | .routeCacheExpire .. => execRouteCacheExpire_keeps (keeps_refl s) ..
  | .fencedInject .. => execFencedInject_keeps (keeps_refl s) ..
  | .limiterWindow .. => execLimiterWindow_keeps (keeps_refl s) ..
  | .limiterRamp .. => execLimiterRamp_keeps (keeps_refl s) ..
  | .rtRead => execRtRead_keeps (keeps_refl s)
  | .rtWrite => execRtWrite_keeps (keeps_refl s)
  | .mcRead => execMcRead_keeps (keeps_refl s)
  | .mcWrite => execMcWrite_keeps (keeps_refl s)
  | .flKeyCommit .. => execFlKeyCommit_keeps (keeps_refl s) ..
  | .instKeyCommit .. => execInstKeyCommit_keeps (keeps_refl s) ..
  | .flSrcIdWrite .. => execFlSrcIdWrite_keeps (keeps_refl s) ..
  | .gateArm .. => execGateArm_keeps (keeps_refl s) ..
  | .broadcastGo .. => execBroadcastGo_keeps (keeps_refl s) ..
  | .broadcastDone .. => execBroadcastDone_keeps (keeps_refl s) ..
  | .statArm .. => execStatArm_keeps (keeps_refl s) ..
  | .statClear .. => execStatClear_keeps (keeps_refl s) ..
  | .blockEraseDone .. => execBlockEraseDone_keeps (keeps_refl s) ..
  | .refreshDue .. => execRefreshDue_keeps (keeps_refl s) ..
  | .entryWrite .. => execEntryWrite_keeps (keeps_refl s) ..
  | .entryWriteDone .. => execEntryWriteDone_keeps (keeps_refl s) ..
  | .libDelete .. => execLibDelete_keeps (keeps_refl s) ..
  | .keyCommit => execKeyCommit_keeps (keeps_refl s)
  | .keyLock => execKeyLock_keeps (keeps_refl s)
  | .fetchArm .. => execFetchArm_keeps (keeps_refl s) ..
  | .fetchComplete .. => execFetchComplete_keeps (keeps_refl s) ..
  | .signatureCheckDone .. => execSignatureCheckDone_keeps (keeps_refl s) ..
  | .activationStageRelease .. => execActivationStageRelease_keeps (keeps_refl s) ..
  | .planeLoadDone .. => execPlaneLoadDone_keeps (keeps_refl s) ..
  | .mcRxArm .. => execMcRxArm_keeps (keeps_refl s) ..
  | .mcTxArm .. => execMcTxArm_keeps (keeps_refl s) ..
  | .mcRxTimeout => execMcRxTimeout_keeps (keeps_refl s)
  | .planeScrub .. => execPlaneScrub_keeps (keeps_refl s) ..
  | .autostart => execAutostart_keeps (keeps_refl s)
  | .ceAutoCommit .. => execCeAutoCommit_keeps (keeps_refl s) ..
  | .faultReport .. => execFaultReport_keeps (keeps_refl s) ..
  | .incidentClose .. => execIncidentClose_keeps (keeps_refl s) ..
  | .stepReplay => execStepReplay_keeps (keeps_refl s)
  | .replayRestart => execReplayRestart_keeps (keeps_refl s)
  | .stepCommit => execStepCommit_keeps (keeps_refl s)
  | .powerControlPeriod .. => execPowerControlPeriod_keeps (keeps_refl s) ..
  | .startupEnd => execStartupEnd_keeps (keeps_refl s)
  | .ageingCheck .. => execAgeingCheck_keeps (keeps_refl s) ..
  | .gapEnd => execGapEnd_keeps (keeps_refl s)
  | .droop .. => execDroop_keeps (keeps_refl s) ..
  | .vrAlert => execVrAlert_keeps (keeps_refl s)
  | .floorEnd => execFloorEnd_keeps (keeps_refl s)
  | .thermalSample .. => execThermalSample_keeps (keeps_refl s) ..
  | .throttleStep => execThrottleStep_keeps (keeps_refl s)
  | .pwrCtrlWrite .. => execPwrCtrlWrite_keeps (keeps_refl s) ..
  | .restEnter .. => execRestEnter_keeps (keeps_refl s) ..
  | .restEntered => execRestEntered_keeps (keeps_refl s)
  | .wake .. => execWake_keeps (keeps_refl s) ..
  | .wakeDone => execWakeDone_keeps (keeps_refl s)
  | .coldReset .. => execColdReset_keeps (keeps_refl s) ..
  | .bootStageEnd .. => execBootStageEnd_keeps (keeps_refl s) ..
  | .bootWatchdog => execBootWatchdog_keeps (keeps_refl s)
  | .railFault .. => execRailFault_keeps (keeps_refl s) ..
  | .refclkLoss .. => execRefclkLoss_keeps (keeps_refl s) ..
  | .hostReset => execHostReset_keeps (keeps_refl s)
  | .controllerReset => execControllerReset_keeps (keeps_refl s)
  | .controllerWatchdog => execControllerWatchdog_keeps (keeps_refl s)
  | .hubWatchdog => execHubWatchdog_keeps (keeps_refl s)
  | .gsResetCold .. => execGsResetCold_keeps (keeps_refl s) ..
  | .gsResetController .. => execGsResetController_keeps (keeps_refl s) ..
  | .setupSave .. => execSetupSave_keeps (keeps_refl s) ..
  | .setupSaveDone .. => execSetupSaveDone_keeps (keeps_refl s) ..
  | .setupRestore => execSetupRestore_keeps (keeps_refl s)
  | .setEndpointId .. => execSetEndpointId_keeps (keeps_refl s) ..
  | .getEndpointId .. => execGetEndpointId_keeps (keeps_refl s) ..
  | .getMctpVersionSupport .. => execGetMctpVersionSupport_keeps (keeps_refl s) ..
  | .getMessageTypeSupport .. => execGetMessageTypeSupport_keeps (keeps_refl s) ..
  | .getVendorDefinedMessageSupport .. => execGetVendorDefinedMessageSupport_keeps (keeps_refl s) ..
  | .readReg .. => execReadReg_keeps (keeps_refl s) ..
  | .writeReg .. => execWriteReg_keeps (keeps_refl s) ..
  | .readPage .. => execReadPage_keeps (keeps_refl s) ..
  | .readEvent .. => execReadEvent_keeps (keeps_refl s) ..
  | .mctpReset .. => execMctpReset_keeps (keeps_refl s) ..
  | .recoveryWrite .. => execRecoveryWrite_keeps (keeps_refl s) ..
  | .recoveryCommit .. => execRecoveryCommit_keeps (keeps_refl s) ..
  | .pmbusPoll .. => execPmbusPoll_keeps (keeps_refl s) ..
  | .shutdown => execShutdown_keeps (keeps_refl s)
  | .shutdownDone => execShutdownDone_keeps (keeps_refl s)
  | .shutdownRestart => execShutdownRestart_keeps (keeps_refl s)
  | .tapReset => execTapReset_keeps (keeps_refl s)
  | .extest .. => execExtest_keeps (keeps_refl s) ..
  | .samplePreload .. => execSamplePreload_keeps (keeps_refl s) ..
  | .idcode => execIdcode_keeps (keeps_refl s)
  | .clamp => execClamp_keeps (keeps_refl s)
  | .highz => execHighz_keeps (keeps_refl s)
  | .extestPulse .. => execExtestPulse_keeps (keeps_refl s) ..
  | .extestTrain .. => execExtestTrain_keeps (keeps_refl s) ..
  | .bypass .. => execBypass_keeps (keeps_refl s) ..
  | .coldResetNDeassert => execColdResetNDeassert_keeps (keeps_refl s)
  | .brownoutEnd .. => execBrownoutEnd_keeps (keeps_refl s) ..
  | .perstNDeassert .. => execPerstNDeassert_keeps (keeps_refl s) ..
  | .controllerResetDone => execControllerResetDone_keeps (keeps_refl s)
  | .vrAlertDeassert => execVrAlertDeassert_keeps (keeps_refl s)
  | .pwrWarnDeassert => execPwrWarnDeassert_keeps (keeps_refl s)
  | .droopEnd .. => execDroopEnd_keeps (keeps_refl s) ..
  | .ethLinkUp .. => execEthLinkUp_keeps (keeps_refl s) ..
  | .ethLinkDown .. => execEthLinkDown_keeps (keeps_refl s) ..
  | .imageChunkRead .. => execImageChunkRead_keeps (keeps_refl s) ..
  | .pageRetirementDone .. => execPageRetirementDone_keeps (keeps_refl s) ..
  | .rowSwapDone .. => execRowSwapDone_keeps (keeps_refl s) ..

/-- What a step answers: a next state that keeps what `Keeps` says of the state without the command that has run. -/
theorem step_keeps (s : State) : KeepsOut { s with pending := s.pending.tail } (step s) := by
  obtain ⟨pending, _⟩ := s
  cases pending with
  | nil => exact keepsOut_next (State.idle_keeps (keeps_refl _))
  | cons c rest => exact exec_keeps _ c

/-- Settles O1: `step` names the case of a command in front. -/
theorem stepRunsFrontCommand : Obligations.StepRunsFrontCommand := fun _ _ _ => rfl

/-- Settles O3: the table's rows have no bits (log entry 105). -/
theorem noWordSpellsACommand : Obligations.NoWordSpellsACommand := fun _ _ _ => ⟨rfl, rfl⟩

/-- Settles O4: what a command answers is one state, and that one keeps what `Keeps` says. -/
theorem everyCommandKeepsWhatNoCommandTouches : Obligations.EveryCommandKeepsWhatNoCommandTouches := by
  intro c s t h
  obtain ⟨u, hu, hkeeps⟩ := exec_keeps s c
  obtain rfl : t = u := by simpa using h.symm.trans hu
  exact hkeeps

/-- Settles O5: a step's state keeps the form of the state without the command that has run, whose memory is the same. -/
theorem everyStepKeepsMemoryForm : Obligations.EveryStepKeepsMemoryForm := by
  intro s t h hwf
  obtain ⟨u, hu, _, hform, _⟩ := step_keeps s
  obtain rfl : t = u := by simpa using h.symm.trans hu
  exact hform hwf

/-- Settles O6: in `State.reset` no byte of DRAM is listed, and of the registers GS_RESET_CAUSE alone. -/
theorem resetHasMemoryForm : Obligations.ResetHasMemoryForm := by
  unfold Obligations.ResetHasMemoryForm
  decide

/-- Settles O8: `exec_keeps` and `step_keeps` name the state that is answered. -/
theorem noCommandStops : Obligations.NoCommandStops := by
  refine ⟨fun c s => ?_, fun s => ?_⟩
  · obtain ⟨t, ht, _⟩ := exec_keeps s c
    exact ⟨t, ht⟩
  · obtain ⟨t, ht, _⟩ := step_keeps s
    exact ⟨t, ht⟩

end Sys2Proof.Machine

/-! What passes on an empty queue, what a cold reset at power-on leaves, and the instructions of the test access port. -/

namespace Sys2Proof.Machine

/-! ### Time (R331, R335; log entry 6) -/

theorem State.rg_cond_wrg_of_ne (s : State) (c : Bool) {o off : Nat} (h : o ≠ off) (f : State → Word) :
    (s.cond c fun u => u.wrg off (f u)).rg o = s.rg o := by
  unfold State.cond
  split
  · exact s.rg_wrg_of_ne h _
  · rfl

theorem State.cond_wrg_eq (s : State) (c : Bool) (off : Nat) (f : State → Word) :
    (s.cond c fun u => u.wrg off (f u)) = { s with regs := (s.cond c fun u => u.wrg off (f u)).regs } := by
  cases c <;> rfl

/-- Settles O2: `idle` leaves the state in cold reset, and else is `tick`, whose one register is TB_HOLDOVER_S. -/
theorem emptyQueueLetsTimePass : Obligations.EmptyQueueLetsTimePass := by
  intro s hempty
  refine ⟨s.idle, by rw [step, hempty], fun hcold => if_pos hcold, fun hcold => ?_⟩
  have htick : s.idle = s.tick := if_neg (by simp [hcold])
  rw [htick, State.tick]
  refine ⟨?time, ?frame, fun off hoff => ?regs⟩
  case time => rw [State.cond_wrg_eq]; simp [State.setTime]
  case frame => rw [State.cond_wrg_eq]; rfl
  case regs => rw [State.rg_cond_wrg_of_ne _ _ (by simpa using hoff)]; rfl

/-! ### Power-on (Table 19.2, R642) -/

theorem State.reset_rg (off : Nat) : State.reset.rg off = if 0x18 = off then 1#32 else regReset off := rfl

/-- Settles O7: `State.reset` lists GS_RESET_CAUSE alone, no byte, no page and no cluster. -/
theorem resetLeavesTheTableValues : Obligations.ResetLeavesTheTableValues := by
  refine ⟨fun off hoff => ?_, rfl, ?_⟩
  · rw [State.reset_rg, if_neg (Ne.symm hoff)]
  · refine ⟨by decide, by decide, fun _ => rfl, fun p => ?_, fun _ => rfl, fun _ _ => rfl, rfl, rfl, rfl, rfl, rfl, rfl, rfl⟩
    simp [State.pageZeroed, State.reset, MemReset]

/-! ### The test access port (R646, R647) -/

theorem State.emit_tdo (s : State) (v : Word) : s.emit (.tdo v) = { s with outbox := s.outbox ++ [.tdo v] } := by
  simp [State.emit, Output.disabled]

theorem State.tapShift_eq (s : State) (captured shifted : Word) : s.tapShift captured shifted =
    { s with pins := { s.pins with boundary := shifted.toNat }, outbox := s.outbox ++ [.tdo captured] } := by
  rw [State.tapShift, State.emit_tdo]

theorem State.tapTest_of_inColdReset {s : State} (h : s.mgmt.inColdReset = true) (opcode : Nat) (captured shifted : Word) :
    s.tapTest opcode captured shifted = { s with
      pins := { s.pins with tapInstr := opcode, tapTakes := true, boundary := shifted.toNat }, outbox := s.outbox ++ [.tdo captured] } := by
  simp [State.tapTest, State.tapLoad, State.tapShift_eq, h]

theorem State.tapTest_of_not_inColdReset {s : State} (h : s.mgmt.inColdReset = false) (opcode : Nat) (captured shifted : Word) :
    s.tapTest opcode captured shifted = { s with pins := { s.pins with tapInstr := opcode, tapTakes := false } } := by
  simp [State.tapTest, State.tapLoad, h]

/-- Settles O60: each instruction loads its code and takes the pins or not; only those on the boundary register shift. -/
theorem theTestPortTakesItsInstructions : Obligations.TheTestPortTakesItsInstructions := by
  refine ⟨fun s => ⟨rfl, ?idcode, rfl, rfl⟩, fun s captured shifted => ⟨?sample, fun c hc => ⟨fun hcold => ?takes, fun hcold => ?bypasses⟩⟩,
    fun s opcode => ⟨fun h => congrArg Host.Outcome.next (if_pos h), fun h => congrArg Host.Outcome.next (if_neg (by omega))⟩⟩
  case idcode => exact congrArg Host.Outcome.next (State.emit_tdo _ _)
  case sample => exact congrArg Host.Outcome.next (State.tapShift_eq _ _ _)
  case takes =>
    simp only [List.mem_cons, List.not_mem_nil, or_false] at hc
    obtain rfl | rfl | rfl := hc <;> exact congrArg Host.Outcome.next (State.tapTest_of_inColdReset hcold ..)
  case bypasses =>
    simp only [List.mem_cons, List.not_mem_nil, or_false] at hc
    obtain rfl | rfl | rfl := hc <;> exact congrArg Host.Outcome.next (State.tapTest_of_not_inColdReset hcold ..)

end Sys2Proof.Machine

/-! Proofs about the matrix unit (04_matrix_units.md): the rows of an MMA, and the other steps of the unit's operations. -/

namespace Sys2Proof.Machine

/-! ### Banks, and what reads of the scratchpad rest on -/

section
variable (c : ClusterSt) (b : Nat) (x : Bank)

theorem ClusterSt.setBank_eq : c.setBank b x = { c with bank0 := (c.setBank b x).bank0, bank1 := (c.setBank b x).bank1 } := by
  unfold ClusterSt.setBank
  split <;> rfl

@[simp] theorem ClusterSt.setBank_sp : (c.setBank b x).sp = c.sp := by rw [ClusterSt.setBank_eq]
@[simp] theorem ClusterSt.setBank_planes : (c.setBank b x).planes = c.planes := by rw [ClusterSt.setBank_eq]
@[simp] theorem ClusterSt.setBank_ctxs : (c.setBank b x).ctxs = c.ctxs := by rw [ClusterSt.setBank_eq]
@[simp] theorem ClusterSt.setBank_bucket : (c.setBank b x).bucket = c.bucket := by rw [ClusterSt.setBank_eq]
@[simp] theorem ClusterSt.setBank_arrayQ : (c.setBank b x).arrayQ = c.arrayQ := by rw [ClusterSt.setBank_eq]
@[simp] theorem ClusterSt.setBank_arrays : (c.setBank b x).arrays = c.arrays := by rw [ClusterSt.setBank_eq]
@[simp] theorem ClusterSt.setBank_epiQ : (c.setBank b x).epiQ = c.epiQ := by rw [ClusterSt.setBank_eq]
@[simp] theorem ClusterSt.setBank_epiRun : (c.setBank b x).epiRun = c.epiRun := by rw [ClusterSt.setBank_eq]
@[simp] theorem ClusterSt.setBank_board : (c.setBank b x).board = c.board := by rw [ClusterSt.setBank_eq]
@[simp] theorem ClusterSt.setBank_active : (c.setBank b x).active = c.active := by rw [ClusterSt.setBank_eq]; rfl
@[simp] theorem ClusterSt.setBank_plane (p : Nat) : (c.setBank b x).plane p = c.plane p := by rw [ClusterSt.setBank_eq]; rfl
@[simp] theorem ClusterSt.setBank_ctx (k : Nat) : (c.setBank b x).ctx k = c.ctx k := by rw [ClusterSt.setBank_eq]; rfl
@[simp] theorem ClusterSt.bank_setBank_same : (c.setBank b x).bank b = x := by
  by_cases h : b = 0 <;> simp [ClusterSt.bank, ClusterSt.setBank, h]
@[simp] theorem ClusterSt.setBank_setBank (y : Bank) : (c.setBank b x).setBank b y = c.setBank b y := by
  by_cases h : b = 0 <;> simp [ClusterSt.setBank, h]

/-- A cluster holds two banks; another bank stays. -/
theorem ClusterSt.bank_setBank_of_ne {d : Nat} (hne : d ≠ b) (hb : b < 2) (hd : d < 2) : (c.setBank b x).bank d = c.bank d := by
  obtain rfl | rfl : b = 0 ∨ b = 1 := by omega
  · obtain rfl : d = 1 := by omega
    rfl
  · obtain rfl : d = 0 := by omega
    rfl

end

section
variable {c d : ClusterSt} (h : d.sp = c.sp)
include h

theorem ClusterSt.rdN_congr (a len : Nat) : d.rdN a len = c.rdN a len := by
  induction len generalizing a with
  | zero => rfl
  | succ len ih => simp only [ClusterSt.rdN, ClusterSt.rd, h, ih]

theorem ClusterSt.rdElem_congr (a w : Nat) (high : Bool) : d.rdElem a w high = c.rdElem a w high := by
  simp only [ClusterSt.rdElem, ClusterSt.rd, ClusterSt.rdN_congr h, h]

theorem ClusterSt.readAct_congr (hb : d.bucket = c.bucket) (p : Plane) (o : MatOp) (y : Ctx) (i : Nat) :
    d.readAct p o y i = c.readAct p o y i := by
  simp only [ClusterSt.readAct, ClusterSt.bkt, ClusterSt.rd, ClusterSt.rdElem_congr h, h, hb]

end

/-! ### The rows of an MMA (R129, R141) -/

/-- The activation vector of row i, as the cluster holds it. -/
def ClusterSt.actRow (c : ClusterSt) (o : MatOp) (i : Nat) : List (Option (Nat × FV)) × Option (Nat × Int) :=
  c.readAct (c.plane o.plane) o { c.ctx (4 * o.plane + o.ctx) with idx := o.idx } i

/-- An element of a bank. -/
def ClusterSt.acc (c : ClusterSt) (b i j : Nat) : Word := tget 0 (c.bank b).data (128 * i + j)

/-- The columns of row i that an MMA on bank b gives. -/
def ClusterSt.mmaOut (c : ClusterSt) (o : MatOp) (b i : Nat) : List ColOut :=
  mmaRow c.active o.fmtA (c.actRow o i).1 fun j => if o.cont then c.acc b i j else 0

/-- Between s and t an MMA on bank b of cluster n has written its rows from lo up to hi, and nothing else of clusters or DRAM. -/
def RowsDone (s t : State) (n : Nat) (o : MatOp) (b lo hi : Nat) : Prop :=
  t.dram = s.dram ∧ (∀ m, m ≠ n → t.cl m = s.cl m) ∧ ∃ d : Table Word,
    t.cl n = (s.cl n).setBank b { (s.cl n).bank b with data := d } ∧
    (∀ i j, lo ≤ i → i < hi → j < 128 → tget 0 d (128 * i + j) = (((s.cl n).mmaOut o b i).map (·.value)).getD j 0) ∧
    (∀ i j, (i < lo ∨ hi ≤ i) → j < 128 → tget 0 d (128 * i + j) = (s.cl n).acc b i j)

theorem tget_foldl_zipIdx (base j : Nat) (ws : List Word) (d : Table Word) (k : Nat) :
    tget 0 ((ws.zipIdx k).foldl (fun d e => mput 0 d (base + e.2) e.1) d) j =
      if base + k ≤ j ∧ j < base + k + ws.length then ws.getD (j - base - k) 0 else tget 0 d j := by
  induction ws generalizing d k with
  | nil => simp
  | cons w ws ih =>
    rw [List.zipIdx_cons, List.foldl_cons, ih, tget_mput, List.length_cons]
    by_cases hj : j = base + k
    · subst hj
      simp
    · by_cases hin : base + (k + 1) ≤ j ∧ j < base + (k + 1) + ws.length
      · rw [if_pos hin, if_pos (by omega), show j - base - k = (j - base - (k + 1)) + 1 by omega, List.getD_cons_succ]
      · rw [if_neg hin, if_neg hj, if_neg (by omega)]

theorem mmaRow_length (t : WTile) (fa : Nat) (act : List (Option (Nat × FV))) (total : Nat → Word) : (mmaRow t fa act total).length = 128 := by
  simp [mmaRow]

theorem tget_wrRow (c : ClusterSt) (b i : Nat) {ws : List Word} (hlen : ws.length = 128) (i' : Nat) {j : Nat} (hj : j < 128) :
    (c.wrRow b i ws).acc b i' j = if i' = i then ws.getD j 0 else c.acc b i' j := by
  have hrow := tget_foldl_zipIdx (128 * i) (128 * i' + j) ws (c.bank b).data 0
  simp only [ClusterSt.acc, ClusterSt.wrRow, ClusterSt.bank_setBank_same, hrow, hlen]
  by_cases hi : i' = i
  · subst hi
    simp [hj]
  · rw [if_neg (by omega), if_neg hi]

@[simp] theorem State.arithFlags_clusters (s : State) (n ctx f : Nat) : (s.arithFlags n ctx f).clusters = s.clusters := by
  unfold State.arithFlags
  split <;> rfl

@[simp] theorem State.arithFlags_dram (s : State) (n ctx f : Nat) : (s.arithFlags n ctx f).dram = s.dram := by
  unfold State.arithFlags
  split <;> rfl

theorem mmaRow_congr (t : WTile) (fa : Nat) (act : List (Option (Nat × FV))) {f g : Nat → Word} (h : ∀ j, j < 128 → f j = g j) :
    mmaRow t fa act f = mmaRow t fa act g := by
  unfold mmaRow
  refine List.map_congr_left fun j hj => ?_
  rw [h j (List.mem_range.mp hj)]

section
variable {s t u : State} {n : Nat} {o : MatOp} {b lo hi : Nat}

/-- A row that is not among those done is read as before, and gives what it would have given before. -/
theorem RowsDone.rows_eq (h : RowsDone s t n o b lo hi) {i : Nat} (hout : i < lo ∨ hi ≤ i) :
    (t.cl n).actRow o i = (s.cl n).actRow o i ∧ (∀ j, j < 128 → (t.cl n).acc b i j = (s.cl n).acc b i j) ∧
      (t.cl n).mmaOut o b i = (s.cl n).mmaOut o b i := by
  obtain ⟨-, -, d, hcl, -, hkeep⟩ := h
  have hact : (t.cl n).actRow o i = (s.cl n).actRow o i := by
    simp only [ClusterSt.actRow, hcl, ClusterSt.setBank_plane, ClusterSt.setBank_ctx]
    exact ClusterSt.readAct_congr (by simp) (by simp) ..
  have hacc : ∀ j, j < 128 → (t.cl n).acc b i j = (s.cl n).acc b i j := fun j hj => by
    rw [ClusterSt.acc, hcl, ClusterSt.bank_setBank_same]
    exact hkeep i j hout hj
  have hactive : (t.cl n).active = (s.cl n).active := by rw [hcl, ClusterSt.setBank_active]
  refine ⟨hact, hacc, ?_⟩
  rw [ClusterSt.mmaOut, ClusterSt.mmaOut, hact, hactive]
  refine mmaRow_congr _ _ _ fun j hj => ?_
  rw [hacc j hj]

theorem RowsDone.refl (s : State) (n : Nat) (o : MatOp) (b lo : Nat) : RowsDone s s n o b lo lo := by
  refine ⟨rfl, fun _ _ => rfl, ((s.cl n).bank b).data, ?_, fun i j _ _ _ => by omega, fun i j _ _ => rfl⟩
  unfold ClusterSt.setBank ClusterSt.bank
  split <;> rfl

theorem RowsDone.trans {mid : Nat} (h : RowsDone s t n o b lo mid) (k : RowsDone t u n o b mid hi) (hlo : lo ≤ mid) (hhi : mid ≤ hi) :
    RowsDone s u n o b lo hi := by
  have hrows := fun i hout => h.rows_eq (i := i) hout
  obtain ⟨hdram, hother, d, hcl, hdone, hkeep⟩ := h
  obtain ⟨kdram, kother, e, kcl, kdone, kkeep⟩ := k
  refine ⟨kdram.trans hdram, fun m hm => (kother m hm).trans (hother m hm), e, ?_, fun i j hi hi' hj => ?_, fun i j hout hj => ?_⟩
  · rw [kcl, hcl]
    simp
  · by_cases hmid : i < mid
    · rw [kkeep i j (.inl hmid) hj, ClusterSt.acc, hcl, ClusterSt.bank_setBank_same]
      exact hdone i j hi hmid hj
    · rw [kdone i j (by omega) hi' hj, (hrows i (.inr (by omega))).2.2]
  · rw [kkeep i j (by omega) hj, (hrows i (by omega)).2.1 j hj]

end

/-- The count of a row all of whose positions are masked. -/
def State.countMasked (s : State) (n : Nat) (masked : Bool) : State := if masked then s.inc64 (Reg.MASKED_LO n) 1 else s

@[simp] theorem State.countMasked_clusters (s : State) (n : Nat) (masked : Bool) : (s.countMasked n masked).clusters = s.clusters := by
  cases masked <;> rfl

@[simp] theorem State.countMasked_dram (s : State) (n : Nat) (masked : Bool) : (s.countMasked n masked).dram = s.dram := by
  cases masked <;> rfl

/-- What one row of an MMA leaves: its count where every position is masked, its elements and its flags. -/
def State.mmaRowDone (s : State) (n : Nat) (o : MatOp) (b i : Nat) : State :=
  let row := (s.cl n).mmaOut o b i
  ((s.countMasked n (((s.cl n).actRow o i).1.all Option.isNone)).upCl n fun c => c.wrRow b i (row.map (·.value))).arithFlags n o.ctx
    ((row.map (·.flags)).foldl (· ||| ·) 0)

/-- What the checker is told of a row of an MMA. -/
def ClusterSt.mmaCheck (c : ClusterSt) (o : MatOp) (b i : Nat) : RowCheck :=
  let row := c.mmaOut o b i
  ⟨! isIntFmt o.fmtA, !row.any (·.special), (row.map (·.shat)).sum⟩

theorem State.mmaRowDone_rowsDone (s : State) (n : Nat) (o : MatOp) (b i : Nat) : RowsDone s (s.mmaRowDone n o b i) n o b i (i + 1) := by
  have hlen : (((s.cl n).mmaOut o b i).map (·.value)).length = 128 := by rw [List.length_map, ClusterSt.mmaOut, mmaRow_length]
  have hcl : ∀ m, (s.mmaRowDone n o b i).cl m =
      if m = n then (s.cl n).wrRow b i (((s.cl n).mmaOut o b i).map (·.value)) else s.cl m := fun m => by
    simp only [State.mmaRowDone, State.cl, State.arithFlags_clusters, State.upCl, State.setCl, State.countMasked_clusters, tget_tput]
  have hrow := fun i' j hj => tget_wrRow (s.cl n) b i hlen i' (j := j) hj
  refine ⟨by simp [State.mmaRowDone, State.upCl], fun m hm => by rw [hcl, if_neg hm],
    ((s.cl n).wrRow b i (((s.cl n).mmaOut o b i).map (·.value))).bank b |>.data, ?_, fun i' j hi hi' hj => ?_, fun i' j hout hj => ?_⟩
  · rw [hcl, if_pos rfl]
    simp only [ClusterSt.wrRow, ClusterSt.bank_setBank_same]
  · obtain rfl : i' = i := by omega
    exact (hrow i' j hj).trans (if_pos rfl)
  · exact (hrow i' j hj).trans (if_neg (by omega))

theorem State.arrayRows_succ_mma {o : MatOp} (hmop : o.mop = 1) {s : State} {n i : Nat} (hread : ((s.cl n).actRow o i).2 = none)
    (b other k0 f : Nat) (l : List RowCheck) :
    s.arrayRows n o b other k0 (f + 1) i l = (s.mmaRowDone n o b i).arrayRows n o b other k0 f (i + 1) (l ++ [(s.cl n).mmaCheck o b i]) := by
  simp only [ClusterSt.actRow] at hread
  rw [State.arrayRows]
  simp only [hread, hmop, if_true]
  rfl

theorem State.arrayRows_mma {o : MatOp} (hmop : o.mop = 1) (n b other k0 : Nat) (f : Nat) (s : State) (i : Nat) (l : List RowCheck)
    (hread : ∀ i', i ≤ i' → i' < i + f → ((s.cl n).actRow o i').2 = none) :
    (s.arrayRows n o b other k0 f i l).2.2 = none ∧ RowsDone s (s.arrayRows n o b other k0 f i l).1 n o b i (i + f) := by
  induction f generalizing s i l with
  | zero =>
    have hzero : s.arrayRows n o b other k0 0 i l = (s, l, none) := by rw [State.arrayRows]
    rw [hzero]
    exact ⟨rfl, RowsDone.refl s n o b i⟩
  | succ f ih =>
    have hrow := s.mmaRowDone_rowsDone n o b i
    obtain ⟨hend, hrest⟩ := ih (s.mmaRowDone n o b i) (i + 1) (l ++ [(s.cl n).mmaCheck o b i]) fun i' hi hi' => by
      rw [(hrow.rows_eq (.inr hi)).1]
      exact hread i' (by omega) (by omega)
    rw [State.arrayRows_succ_mma hmop (hread i (Nat.le_refl _) (by omega))]
    refine ⟨hend, ?_⟩
    have htrans := hrow.trans hrest (by omega) (by omega)
    rwa [show i + 1 + f = i + (f + 1) by omega] at htrans

/-! ### The checker without a fault, and the operation's end (R150, R141) -/

theorem SameArray.refl (s : State) : SameArray s s := ⟨rfl, rfl⟩

theorem SameArray.trans {s t u : State} (h : SameArray s t) (k : SameArray t u) : SameArray s u := ⟨k.1.trans h.1, k.2.trans h.2⟩

theorem SameArray.ite {s t u : State} {p : Prop} [Decidable p] (ht : SameArray s t) (hu : SameArray s u) :
    SameArray s (if p then t else u) := by
  split <;> assumption

section
variable {s t : State} (h : SameArray s t)
include h

theorem SameArray.wrg (off : Nat) (v : Word) : SameArray s (t.wrg off v) := h
theorem SameArray.setF (x : Fld) (k : Nat) : SameArray s (t.setF x k) := h
theorem SameArray.incN (off k : Nat) : SameArray s (t.incN off k) := h
theorem SameArray.inc (off : Nat) : SameArray s (t.inc off) := h
theorem SameArray.inc64 (off k : Nat) : SameArray s (t.inc64 off k) := h
theorem SameArray.upCl (n : Nat) (f : ClusterSt → ClusterSt) : SameArray (s.upCl n f) (t.upCl n f) := by
  simp only [SameArray, State.upCl, State.setCl, State.cl, h.1, h.2, and_self]

theorem SameArray.free : SameArray s t.free.2 := h

end

theorem State.mxuRecord_sameArray (s : State) (n : Nat) (o : MatOp) (inj : Bool) (kind row : Nat) (loc : Option Nat) (resid : Word) :
    SameArray s (s.mxuRecord n o inj kind row loc resid) := by
  have hcount : SameArray s (s.inc (Reg.MISMATCHES n)) := (SameArray.refl s).inc _
  unfold State.mxuRecord
  exact hcount.ite (((hcount.wrg _ _).wrg _ _).wrg _ _)

/-- Without a fault that shows, the checker counts rows and spends an armed injection. -/
theorem State.checkRows_sameArray (s : State) (n : Nat) (o : MatOp) (i : Nat) (l : List RowCheck) :
    SameArray s (s.checkRows n o .none i l) := by
  induction l generalizing s i with
  | nil => exact SameArray.refl s
  | cons r rs ih =>
    simp only [State.checkRows]
    generalize hcounted : (if r.checked = true then s.inc64 (Reg.ROWS_CHECKED_LO n) 1 else s.inc (Reg.ROWS_UNCHECKED n)) = u
    have hu : SameArray s u := hcounted ▸ ((SameArray.refl s).inc64 _ _).ite ((SameArray.refl s).inc _)
    generalize (r.checked && o.mop == 1 && u.on (Reg.MXU_INJECT_ARM n)) = arm
    cases arm with
    | false => exact hu.trans (ih u (i + 1))
    | true =>
      refine (hu.trans ?_).trans (ih _ (i + 1))
      refine SameArray.trans ?_ (State.mxuRecord_sameArray ..)
      cases r.float with
      | false => exact (SameArray.refl u).setF _ _
      | true => exact ((SameArray.refl u).setF _ _).free

/-! ### An MMA from its start to the wait for its bank's release (R134, R135, R138, R141) -/

/-- The cluster in which the rows of an operation run: a tile to be swapped in is active, and the bank is the array's. -/
def ClusterSt.mmaBegun (c : ClusterSt) (o : MatOp) : ClusterSt :=
  let d := if o.swap then c.swapTiles else c
  let b := (c.plane o.plane).opBank o
  d.takeBanks o [b] (if o.cont then (d.bank b).kPos else 0)

theorem ClusterSt.swapTiles_eq (c : ClusterSt) :
    c.swapTiles = { c with sel := c.swapTiles.sel, tile0 := c.swapTiles.tile0, tile1 := c.swapTiles.tile1 } := by
  unfold ClusterSt.swapTiles ClusterSt.setShadow
  dsimp only
  split <;> rfl

@[simp] theorem ClusterSt.swapTiles_active (c : ClusterSt) : c.swapTiles.active = c.shadow := by
  unfold ClusterSt.swapTiles ClusterSt.setShadow ClusterSt.active ClusterSt.shadow
  cases c.sel <;> rfl

theorem ClusterSt.swapped_eq (c : ClusterSt) (swap : Bool) : (if swap then c.swapTiles else c) =
    { c with
      sel := (if swap then c.swapTiles else c).sel, tile0 := (if swap then c.swapTiles else c).tile0
      tile1 := (if swap then c.swapTiles else c).tile1 } := by
  cases swap
  · rfl
  · exact c.swapTiles_eq

theorem ClusterSt.swapped_active (c : ClusterSt) (swap : Bool) :
    (if swap then c.swapTiles else c).active = if swap then c.shadow else c.active := by
  cases swap
  · rfl
  · exact c.swapTiles_active

/-- What the start of an MMA leaves of a cluster: its active tile is the one that the operation uses, and the elements of its banks stay. -/
theorem ClusterSt.mmaBegun_spec (c : ClusterSt) {o : MatOp} {b : Nat} (hb : (c.plane o.plane).opBank o = b) : ∃ d : ClusterSt,
    (∃ x : Bank, c.mmaBegun o = d.setBank b x ∧ x.data = (c.bank b).data) ∧ d.active = (if o.swap then c.shadow else c.active) ∧
      d = { c with sel := d.sel, tile0 := d.tile0, tile1 := d.tile1 } := by
  refine ⟨if o.swap then c.swapTiles else c, ⟨_, by rw [ClusterSt.mmaBegun, hb]; rfl, ?_⟩, c.swapped_active o.swap, c.swapped_eq o.swap⟩
  rw [c.swapped_eq o.swap]
  rfl

/-- An MMA whose checks pass and whose vectors are read: its rows, the checker's count, and its place among the operations that await their
bank's release. -/
theorem State.runArray_mma {s : State} {n : Nat} {o : MatOp} {b : Nat} (hmop : o.mop = 1) (hb : ((s.cl n).plane o.plane).opBank o = b)
    (hload : ((s.cl n).mmaBegun o).active.loaded = true) (hfmt : ((s.cl n).mmaBegun o).active.fmt = o.fmtW)
    (hclosed : o.cont = true → ((s.cl n).bank b).closed = false)
    (hread : ∀ i, i < o.rows → (((s.cl n).mmaBegun o).actRow o i).2 = none) :
    ∃ u : State, RowsDone (s.setCl n ((s.cl n).mmaBegun o)) u n o b 0 o.rows ∧
      SameArray (u.upCl n fun c => { c with arrays := c.arrays ++ [⟨o, [b], o.epi, []⟩] }) (s.runArray n o .none) := by
  have hbanks : ((s.cl n).plane o.plane).opBanks o = [b] := by rw [Plane.opBanks, if_pos hmop, hb]
  have hactive : ((s.cl n).mmaBegun o).active = (if o.swap then (s.cl n).swapTiles else s.cl n).active :=
    ClusterSt.setBank_active ..
  have hbank : (if o.swap then (s.cl n).swapTiles else s.cl n).bank b = (s.cl n).bank b := by
    rw [ClusterSt.swapped_eq]
    rfl
  have htake : (s.cl n).mmaBegun o = (if o.swap then (s.cl n).swapTiles else s.cl n).takeBanks o [b]
      (if o.cont then ((if o.swap then (s.cl n).swapTiles else s.cl n).bank b).kPos else 0) := by
    rw [ClusterSt.mmaBegun, hb]
  have hok : (o.cont && ((if o.swap then (s.cl n).swapTiles else s.cl n).bank b).closed ||
      !(if o.swap then (s.cl n).swapTiles else s.cl n).active.loaded ||
      decide ((if o.swap then (s.cl n).swapTiles else s.cl n).active.fmt ≠ o.fmtW)) = false := by
    rw [← hactive, hload, hfmt, hbank]
    cases hcont : o.cont <;> simp [hclosed, hcont]
  unfold State.runArray
  simp only [hbanks, hb, hok, Bool.false_eq_true, if_false, ← htake]
  obtain ⟨hnone, hrows⟩ := State.arrayRows_mma (s := s.setCl n ((s.cl n).mmaBegun o)) hmop n b (1 - b)
    (if o.cont then ((if o.swap then (s.cl n).swapTiles else s.cl n).bank b).kPos else 0) o.rows 0 [] (by simpa using hread)
  revert hnone hrows
  generalize State.arrayRows _ n o b _ _ o.rows 0 [] = r
  intro hnone hrows
  refine ⟨r.1, by simpa using hrows, ?_⟩
  simp only [hnone, Option.isNone_none, Bool.and_true, ite_self]
  exact SameArray.upCl (((SameArray.refl r.1).inc64 _ _).trans (State.checkRows_sameArray ..)) n _

/-- MATRIX_OP_START of an array operation that is on and whose holds are met runs it, with the array's queue empty. -/
theorem exec_matrixOpStart_array {s : State} {n : Fin 576} {o : MatOp} (hq : (s.cl n).arrayQ = some o) (hon : o.on = true)
    (hstart : (s.cl n).arrayMayStart o = true) (hfence : s.isFenced n = false) (fault : MatFault) :
    exec (.matrixOpStart n false fault .clean none) s = .next ((s.upCl n fun c => { c with arrayQ := none }).runArray n o fault) := by
  change execMatrixOpStart n false fault .clean none s = _
  simp only [execMatrixOpStart, hq, hstart, hfence, hon, State.spEcc, State.conflict, Bool.not_true, Bool.or_self, Bool.false_eq_true,
    if_false]

/-- Settles O12: the rows of the MMA are those of `mmaOut` on the tile that the operation uses. -/
theorem mmaGivesEveryColumnItsSum : Obligations.MmaGivesEveryColumnItsSum := by
  intro s n o c p y tile b act old hq hon hmop hstart hfence hload hfmt hclosed hb2 hread
  obtain ⟨d, ⟨x, hbegun, hdata⟩, hactive, hd⟩ := ({ c with arrayQ := none } : ClusterSt).mmaBegun_spec (o := o) (b := b) rfl
  have hactRow : ∀ i, (d.setBank b x).actRow o i = c.readAct p o y i := fun i => by
    simp only [ClusterSt.actRow, ClusterSt.setBank_plane, ClusterSt.setBank_ctx]
    rw [hd]
    exact ClusterSt.readAct_congr (by simp) (by simp) ..
  have htile : (d.setBank b x).active = tile := by rw [ClusterSt.setBank_active, hactive]; rfl
  have hcl : (s.upCl n fun c => { c with arrayQ := none }).cl n = { c with arrayQ := none } := s.cl_upCl_same n _
  obtain ⟨u, ⟨hdram, hother, e, hu, hdone, hkeep⟩, hend⟩ := State.runArray_mma
    (s := s.upCl n fun c => { c with arrayQ := none }) (n := n) (o := o) (b := b) hmop (by rw [hcl]; rfl)
    (by rw [hcl, hbegun, htile, hload]) (by rw [hcl, hbegun, htile, hfmt]) (by rw [hcl]; exact hclosed)
    fun i hi => by rw [hcl, hbegun, hactRow, hread i hi]
  rw [hcl, hbegun, State.cl_setCl_same] at hu hdone hkeep
  refine ⟨_, exec_matrixOpStart_array hq hon hstart hfence .none, ?_⟩
  generalize hw : (s.upCl n fun c => { c with arrayQ := none }).runArray n o .none = w at hend ⊢
  have hwcl : ∀ m, w.cl m = (u.upCl n fun c => { c with arrays := c.arrays ++ [⟨o, [b], o.epi, []⟩] }).cl m := fun m =>
    congrArg (tget noCluster · m) hend.1
  have hwn : w.cl n = { d.setBank b { x with data := e } with arrays := c.arrays ++ [⟨o, [b], o.epi, []⟩] } := by
    rw [hwcl, State.cl_upCl_same, hu, ClusterSt.bank_setBank_same, ClusterSt.setBank_setBank, ClusterSt.setBank_arrays, hd]
  have hbank : ∀ k, (w.cl n).bank k = (d.setBank b { x with data := e }).bank k := fun k => by rw [hwn]; rfl
  have hold : ∀ i j, (d.setBank b x).acc b i j = old i j := fun i j => by
    rw [ClusterSt.acc, ClusterSt.bank_setBank_same, hdata]; rfl
  refine ⟨fun i j hi hj => ?_, fun i j hi hj => ?_, ?_, ?_, ?_, ?_, ?_, fun m hm => ?_⟩
  · rw [hbank, ClusterSt.bank_setBank_same, hdone i j (Nat.zero_le _) hi hj, ClusterSt.mmaOut, htile, hactRow]
    simp only [hold]
    rfl
  · rw [hbank, ClusterSt.bank_setBank_same, hkeep i j (.inr hi) hj, hold]
  · rw [hbank, ClusterSt.bank_setBank_of_ne _ _ _ (by omega) hb2 (by omega), hd]
    rfl
  · rw [hwn]
    exact (ClusterSt.setBank_sp ..).trans (by rw [hd])
  · rw [hwn]
    exact (ClusterSt.setBank_arrayQ ..).trans (by rw [hd])
  · rw [hwn, Plane.opBanks, if_pos hmop]
  · intro a
    rw [State.rdB, State.rdB, hend.2]
    exact congrArg (tget 0#8 · a) hdram
  · rw [hwcl, State.cl_upCl, if_neg hm, hother m hm, State.cl_setCl, if_neg hm, State.cl_upCl, if_neg hm]

end Sys2Proof.Machine

/-! Proofs about the matrix unit (04_matrix_units.md): its loader, banks and epilogue. -/

namespace Sys2Proof.Machine

/-! ### The users of banks -/

/-- Between c and d nothing but the users of the banks differs. -/
def UsersOnly (c d : ClusterSt) : Prop :=
  d = { c with bank0 := { c.bank0 with user := d.bank0.user }, bank1 := { c.bank1 with user := d.bank1.user } }

theorem UsersOnly.refl (c : ClusterSt) : UsersOnly c c := rfl

theorem UsersOnly.trans {c d e : ClusterSt} (h : UsersOnly c d) (k : UsersOnly d e) : UsersOnly c e := by
  unfold UsersOnly at *
  rw [k, h]

theorem UsersOnly.setBank (c : ClusterSt) (b user : Nat) : UsersOnly c (c.setBank b { c.bank b with user := user }) := by
  unfold UsersOnly ClusterSt.setBank ClusterSt.bank
  split <;> rfl

theorem UsersOnly.data {c d : ClusterSt} (h : UsersOnly c d) (b : Nat) : (d.bank b).data = (c.bank b).data := by
  rw [h]
  unfold ClusterSt.bank
  split <;> rfl

theorem UsersOnly.foldl {l : List Nat} {f : ClusterSt → Nat → ClusterSt} (hf : ∀ c b, UsersOnly c (f c b)) (c : ClusterSt) :
    UsersOnly c (l.foldl f c) := by
  induction l generalizing c with
  | nil => exact UsersOnly.refl c
  | cons b l ih => exact (hf c b).trans (ih (f c b))

/-- What an update brings to a bank's user, and no update of another bank of the list takes back, holds after the whole list. -/
theorem foldl_bank_user {Q : Nat → Prop} {b : Nat} {f : ClusterSt → Nat → ClusterSt} (hset : ∀ c, Q ((f c b).bank b).user)
    (hkeep : ∀ c b', Q (c.bank b).user → Q ((f c b').bank b).user) {l : List Nat} (c : ClusterSt) (h : b ∈ l ∨ Q (c.bank b).user) :
    Q ((l.foldl f c).bank b).user := by
  induction l generalizing c with
  | nil => simpa using h
  | cons a l ih =>
    refine ih (f c a) ?_
    obtain h | h := h
    · obtain rfl | h := List.mem_cons.mp h
      · exact .inr (hset c)
      · exact .inl h
    · exact .inr (hkeep c a h)

theorem ClusterSt.bank_setBank_user (c : ClusterSt) (a b user : Nat) :
    ((c.setBank a { c.bank a with user := user }).bank b).user = user ∨
      ((c.setBank a { c.bank a with user := user }).bank b).user = (c.bank b).user := by
  by_cases ha : a = 0 <;> by_cases hb : b = 0 <;> simp [ClusterSt.setBank, ClusterSt.bank, ha, hb]

theorem OnlyCl.upCl (s : State) (n : Nat) (f : ClusterSt → ClusterSt) : OnlyCl s (s.upCl n f) n := OnlyCl.setCl s n _

/-! ### The loader (R137, R138) -/

section
variable {c d : ClusterSt} (h : d.sp = c.sp)
include h

theorem ClusterSt.readRun_congr (p : Plane) (t o f : Nat) (e : Int) (len : Nat) : d.readRun p t o f e len = c.readRun p t o f e len := by
  simp only [ClusterSt.readRun, ClusterSt.rd, ClusterSt.rdElem_congr h, h]

theorem ClusterSt.loadRows_congr (p : Plane) (b : Nat) (o : MatOp) (y : Ctx) (f k : Nat) (a : WTile × Nat × Option (Nat × Nat × Int)) :
    d.loadRows p b o y f k a = c.loadRows p b o y f k a := by
  induction f generalizing k a with
  | zero => rfl
  | succ f ih => simp only [ClusterSt.loadRows, ClusterSt.readRun_congr h, ih]

end

section
variable (c : ClusterSt) (tile : WTile)

@[simp] theorem ClusterSt.setShadow_shadow : (c.setShadow tile).shadow = tile := by
  unfold ClusterSt.setShadow ClusterSt.shadow
  cases c.sel <;> rfl

@[simp] theorem ClusterSt.setShadow_active : (c.setShadow tile).active = c.active := by
  unfold ClusterSt.setShadow ClusterSt.active
  cases c.sel <;> rfl

@[simp] theorem ClusterSt.setShadow_loading : (c.setShadow tile).loading = c.loading := by
  unfold ClusterSt.setShadow
  split <;> rfl

@[simp] theorem ClusterSt.setShadow_loaderQ : (c.setShadow tile).loaderQ = c.loaderQ := by
  unfold ClusterSt.setShadow
  split <;> rfl

@[simp] theorem ClusterSt.setShadow_sp : (c.setShadow tile).sp = c.sp := by
  unfold ClusterSt.setShadow
  split <;> rfl

end

/-- MATRIX_OP_START of a LOADW whose holds are met starts it. -/
theorem exec_matrixOpStart_loader {s : State} {n : Fin 576} {o : MatOp} (hq : (s.cl n).loaderQ = some o)
    (hstart : (s.cl n).loadMayStart o = true) (hfence : s.isFenced n = false) {ecc : SpEcc} {conf : Option Conflict}
    (hclean : o.on = false ∨ (ecc = .clean ∧ conf = none)) (fault : MatFault) :
    exec (.matrixOpStart n true fault ecc conf) s = .next (s.startLoad n o) := by
  change execMatrixOpStart n true fault ecc conf s = _
  obtain hoff | ⟨rfl, rfl⟩ := hclean
  · simp [execMatrixOpStart, hq, hstart, hfence, hoff]
  · cases hon : o.on <;> simp [execMatrixOpStart, hq, hstart, hfence, hon, State.spEcc, State.conflict]

/-- A LOADW whose rows lie in their extent: the masked rows are counted, and the tile stands in the shadow register. -/
theorem State.startLoad_of_loadRows {s : State} {n : Nat} {o : MatOp} {tile : WTile} {m : Nat} (hon : o.on = true)
    (hrows : (s.cl n).loadRows ((s.cl n).plane o.plane) (s.cl n).bkt o { (s.cl n).ctx (4 * o.plane + o.ctx) with idx := o.idx }
      (((s.cl n).plane o.plane).bound (s.cl n).bkt o.lt (((s.cl n).plane o.plane).levelAt o.lt 0)) 0
      (⟨o.fmtW, true, false, [], [], o.order⟩, 0, none) = (tile, m, none)) :
    s.startLoad n o =
      ((s.upCl n fun c => { c with loaderQ := none, loading := some o }).inc64 (Reg.MASKED_LO n) m).upCl n fun c => c.setShadow tile := by
  have hcl : (s.upCl n fun c => { c with loaderQ := none, loading := some o }).cl n = { s.cl n with loaderQ := none, loading := some o } :=
    s.cl_upCl_same n _
  have hread := (ClusterSt.loadRows_congr (c := s.cl n) (d := { s.cl n with loaderQ := none, loading := some o }) rfl
    ((s.cl n).plane o.plane) (s.cl n).bkt o { (s.cl n).ctx (4 * o.plane + o.ctx) with idx := o.idx } _ _ _).trans hrows
  unfold State.startLoad
  simp only [hon, Bool.not_true, Bool.false_eq_true, if_false, hcl]
  erw [hread]

theorem State.rg_inc64_of_ne (s : State) {o off : Nat} (hlo : o ≠ off) (hhi : o ≠ off + 4) (k : Nat) : (s.inc64 off k).rg o = s.rg o := by
  rw [State.inc64, State.wrg64, State.rg_wrg_of_ne _ hhi, State.rg_wrg_of_ne _ hlo]

/-! ### Scoreboard entries -/

theorem ClusterSt.enter_eq (c : ClusterSt) (stream : Bool) (rs : List (Nat × Nat)) :
    (c.enter stream rs).1 = { c with board := (c.enter stream rs).1.board, nextEntry := (c.enter stream rs).1.nextEntry } := by
  induction rs generalizing c with
  | nil => rfl
  | cons r rs ih =>
    simp only [ClusterSt.enter]
    rw [ih]

/-! ### What the rows of an epilogue leave (R146, R148) -/

/-- Between c and d nothing but bytes of the scratchpad differs. -/
def OnlySp (c d : ClusterSt) : Prop := d = { c with sp := d.sp }

theorem OnlySp.refl (c : ClusterSt) : OnlySp c c := rfl

theorem OnlySp.trans {c d e : ClusterSt} (h : OnlySp c d) (k : OnlySp d e) : OnlySp c e := by
  unfold OnlySp at *
  rw [k, h]

theorem ClusterSt.wr_onlySp (c : ClusterSt) (a : Nat) (v : Byte) : OnlySp c (c.wr a v) := by
  unfold OnlySp ClusterSt.wr
  split <;> rfl

theorem ClusterSt.wrN_onlySp (c : ClusterSt) (a : Nat) (bs : List Byte) : OnlySp c (c.wrN a bs) := by
  induction bs generalizing c a with
  | nil => exact OnlySp.refl c
  | cons b bs ih => exact (c.wr_onlySp a b).trans (ih _ _)

theorem ClusterSt.wrW_onlySp (c : ClusterSt) (a : Nat) (v : Word) : OnlySp c (c.wrW a v) := c.wrN_onlySp a _

theorem ClusterSt.wrElem_onlySp (c : ClusterSt) (a w : Nat) (high : Bool) (v : Nat) : OnlySp c (c.wrElem a w high v) := by
  unfold ClusterSt.wrElem
  split
  · exact c.wr_onlySp ..
  · exact c.wrN_onlySp ..

theorem OnlySp.ite {c d e : ClusterSt} {p : Prop} [Decidable p] (hd : OnlySp c d) (he : OnlySp c e) : OnlySp c (if p then d else e) := by
  split <;> assumption

theorem OnlySp.foldl {α : Type} (l : List α) {f : ClusterSt → α → ClusterSt} (hf : ∀ c x, OnlySp c (f c x)) (c : ClusterSt) :
    OnlySp c (l.foldl f c) := by
  induction l generalizing c with
  | nil => exact OnlySp.refl c
  | cons x l ih => exact (hf c x).trans (ih _)

theorem OnlySp.foldl_fst {α β : Type} (l : List α) {f : ClusterSt × β → α → ClusterSt × β} (hf : ∀ c x, OnlySp c.1 (f c x).1)
    (c : ClusterSt × β) : OnlySp c.1 (l.foldl f c).1 := by
  induction l generalizing c with
  | nil => exact OnlySp.refl c.1
  | cons x l ih => exact (hf c x).trans (ih _)

/-- What the rows of an epilogue may do to a state: write the cluster's scratchpad, and set and count arithmetic flags. -/
def EpiRan (s t : State) (n : Nat) : Prop :=
  OnlySp (s.cl n) (t.cl n) ∧ t.dram = s.dram ∧ RegsBut s t [Reg.ARITH_FLAGS n, Reg.ARITH_EVENTS n]

theorem EpiRan.refl (s : State) (n : Nat) : EpiRan s s n := ⟨OnlySp.refl _, rfl, fun _ _ => rfl⟩

theorem EpiRan.trans {s t u : State} {n : Nat} (h : EpiRan s t n) (k : EpiRan t u n) : EpiRan s u n := by
  obtain ⟨hcl, hdram, hregs⟩ := h
  obtain ⟨kcl, kdram, kregs⟩ := k
  exact ⟨hcl.trans kcl, kdram.trans hdram, fun off hoff => (kregs off hoff).trans (hregs off hoff)⟩

theorem State.arithFlags_epiRan (s : State) (n ctx f : Nat) : EpiRan s (s.arithFlags n ctx f) n := by
  refine ⟨by simp [OnlySp, State.cl], State.arithFlags_dram .., fun off hoff => ?_⟩
  simp only [List.mem_cons, List.not_mem_nil, or_false, not_or] at hoff
  unfold State.arithFlags
  split
  · rfl
  · rw [State.rg_incN, if_neg hoff.2, State.rg_wrg_of_ne _ hoff.1]

theorem State.setCl_epiRan {s : State} {n : Nat} {c : ClusterSt} (h : OnlySp (s.cl n) c) : EpiRan s (s.setCl n c) n :=
  ⟨by rwa [State.cl_setCl_same], rfl, fun _ _ => rfl⟩

theorem State.epiRow_epiRan (s : State) (n : Nat) (o : MatOp) (pre : Preamble) (b j : Nat) (rs : List (Option Nat)) :
    EpiRan s (s.epiRow n o pre b j rs).1 n := by
  unfold State.epiRow
  dsimp only
  split
  · exact EpiRan.refl s n
  · refine (State.setCl_epiRan ?_).trans (State.arithFlags_epiRan ..)
    have hput : ∀ (c : ClusterSt) (p : Prop) [Decidable p] (a w : Nat) (high : Bool) (v : Nat), OnlySp c (if p then c.wrElem a w high v else c) :=
      fun c _ _ a w high v => (c.wrElem_onlySp a w high v).ite (OnlySp.refl c)
    refine OnlySp.trans (d := Prod.fst (ite _ _ _)) ?elements (OnlySp.ite (OnlySp.foldl _ (fun c k => c.wrW_onlySp ..) _) (OnlySp.refl _))
    case elements =>
      split
      · exact OnlySp.foldl_fst _ (fun cr q => (cr.1.wr_onlySp ..).trans (OnlySp.foldl _ (fun c x => hput ..) _)) (s.cl n, 0)
      · exact OnlySp.foldl_fst _ (fun cr x => hput ..) (s.cl n, 0)

theorem State.epiRows_epiRan (n : Nat) (o : MatOp) (pre : Preamble) (b f : Nat) (s : State) (j : Nat) (x : Word) :
    EpiRan s (s.epiRows n o pre b f j x).1 n := by
  induction f generalizing s j x with
  | zero => exact EpiRan.refl s n
  | succ f ih =>
    simp only [State.epiRows]
    split
    · exact State.epiRow_epiRan ..
    · exact (State.epiRow_epiRan ..).trans (ih _ _ _)

/-- Settles O13: each command of the unit does one update of the cluster, and the rows of an epilogue only write scratchpad and flags. -/
theorem matrixUnitTakesItsOperationsOn : Obligations.MatrixUnitTakesItsOperationsOn := by
  refine ⟨?load, ?skip, ?complete, ?release, ?epilogue, ?done, ?inject⟩
  case load =>
    intro s n o tile m c p y hq hstart hfence hon hrows
    refine ⟨_, (exec_matrixOpStart_loader hq hstart hfence (.inr ⟨rfl, rfl⟩) .none).trans (congrArg _ (State.startLoad_of_loadRows hon hrows)), ?_⟩
    simp only [State.cl_upCl_same, State.inc64_cl, ClusterSt.setShadow_shadow, ClusterSt.setShadow_active, ClusterSt.setShadow_loading,
      ClusterSt.setShadow_loaderQ, ClusterSt.setShadow_sp]
    refine ⟨trivial, rfl, trivial, trivial, rfl, fun off hoff => ?_, fun a => rfl, fun m' hm => ?_⟩
    · simp only [List.mem_cons, List.not_mem_nil, or_false, not_or] at hoff
      exact State.rg_inc64_of_ne _ hoff.1 hoff.2 m
    · rw [State.cl_upCl, if_neg hm, State.inc64_cl, State.cl_upCl, if_neg hm]
  case skip =>
    intro s n o ecc conf hq hstart hfence hoff
    rw [exec_matrixOpStart_loader hq hstart hfence (.inl hoff), State.startLoad, if_pos (by simp [hoff])]
    rfl
  case complete =>
    intro s n o hload hon horder hloaded
    have hexec : exec (.tileComplete n) s = .next (s.upCl n fun c =>
      let c := { c with loading := none }
      if o.on && c.shadow.order == o.order && c.shadow.loaded then c.setShadow { c.shadow with complete := true } else c) := by
      change execTileComplete n s = _
      rw [execTileComplete, hload]
    refine ⟨_, hexec, OnlyCl.upCl .., ?_⟩
    have hsame : ({ s.cl n with loading := none } : ClusterSt).shadow = (s.cl n).shadow := rfl
    simp only [State.cl_upCl_same, hon, hsame, horder, hloaded, beq_self_eq_true, Bool.and_self, if_true, ClusterSt.setShadow_loading,
      ClusterSt.setShadow_shadow, ClusterSt.setShadow_active, true_and]
    rfl
  case release =>
    intro s n r rs hr hfault
    have hexec : exec (.arrayBankRelease n) s = .next (s.upCl n fun c =>
        let c := r.banks.foldl (fun c b =>
          if rs.any (·.banks.contains b) then c else c.setBank b { c.bank b with user := if r.epi then 2 else 0 }) c
        { c with arrays := rs, epiQ := if r.epi then c.epiQ ++ [r] else c.epiQ }) := by
      change execArrayBankRelease n s = _
      rw [execArrayBankRelease, hr]
      simp only [hfault, Bool.false_eq_true, if_false]
    have hstep : ∀ (c : ClusterSt) (b : Nat), UsersOnly c
        (if rs.any (·.banks.contains b) then c else c.setBank b { c.bank b with user := if r.epi then 2 else 0 }) := fun c b => by
      split
      · exact UsersOnly.refl c
      · exact UsersOnly.setBank c b _
    have hfold := UsersOnly.foldl (l := r.banks) hstep (s.cl n)
    refine ⟨_, hexec, OnlyCl.upCl .., ?_⟩
    rw [State.cl_upCl_same]
    refine ⟨rfl, ?_, fun b hb hfree _ => ?_, hfold.data 0, hfold.data 1⟩
    · dsimp only
      rw [hfold]
    · refine foldl_bank_user (Q := (· = if r.epi then 2 else 0)) (fun c => ?_) (fun c b' hkeep => ?_) (s.cl n) (.inl hb)
      · rw [hfree, if_neg (by decide), ClusterSt.bank_setBank_same]
      · dsimp only
        split
        · exact hkeep
        · exact (c.bank_setBank_user b' b _).elim id fun h => h.trans hkeep
  case done =>
    intro s n r hr
    have hexec : exec (.epilogueDone n) s = .next (s.upCl n fun c =>
        let c := r.banks.foldl (fun c b => if (c.bank b).user = 2 then c.setBank b { c.bank b with user := 0 } else c) c
        { c.retire r.entries with epiRun := none }) := by
      change execEpilogueDone n s = _
      rw [execEpilogueDone, hr]
    have hstep : ∀ (c : ClusterSt) (b : Nat), UsersOnly c (if (c.bank b).user = 2 then c.setBank b { c.bank b with user := 0 } else c) :=
      fun c b => by
        split
        · exact UsersOnly.setBank c b 0
        · exact UsersOnly.refl c
    have hfold := UsersOnly.foldl (l := r.banks) hstep (s.cl n)
    refine ⟨_, hexec, OnlyCl.upCl .., ?_⟩
    rw [State.cl_upCl_same]
    refine ⟨rfl, ?_, fun b hb _ => ?_, ?_, hfold.data 0, hfold.data 1⟩
    · simp only [ClusterSt.retire]
      rw [hfold]
    · refine foldl_bank_user (Q := (· ≠ 2)) (fun c => ?_) (fun c b' hkeep => ?_) (s.cl n) (.inl hb)
      · split
        · rw [ClusterSt.bank_setBank_same]
          exact Nat.zero_ne_add_one 1
        · assumption
      · dsimp only
        split
        · exact (c.bank_setBank_user b' b 0).elim (fun h => by rw [h]; decide) fun h => by rwa [h]
        · exact hkeep
    · simp only [ClusterSt.retire]
      rw [hfold]
  case inject =>
    intro s n v hopen hawake
    change execMxuInject n v s = _
    rw [execMxuInject, State.hostWrite, State.writeAllowed_of_open hopen, if_pos rfl, if_neg (by omega)]
  case epilogue =>
    intro s n r rest c o p x seed z hrun hq hroom hfence hfault hz
    have hexec : exec (.epilogueStart n .clean none .none) s = .next z.1 := by
      change execEpilogueStart n .clean none .none s = _
      have hroom' : (decide (8 < c.used false + (p.epiRanges o).length) || s.isFenced n || c.mxuFault) = false := by
        simp [hfence, hfault, Nat.not_lt.mpr hroom]
      simp only [execEpilogueStart]
      rw [show (s.cl n).epiRun = none from hrun, show (s.cl n).epiQ = r :: rest from hq]
      change (if (decide (8 < c.used false + (p.epiRanges o).length) || s.isFenced n || c.mxuFault) = true then _ else
        match z.2 with
        | none => Host.Outcome.next z.1
        | some (j, a) => _) = _
      rw [hroom', hz]
      rfl
    obtain ⟨hcl, hdram, hregs⟩ : EpiRan (s.setCl n { x.1 with epiQ := rest, epiRun := some { r with entries := x.2 } }) z.1 n :=
      State.epiRows_epiRan ..
    rw [State.cl_setCl_same] at hcl
    have henter : x.1 = { c with board := x.1.board, nextEntry := x.1.nextEntry } := ClusterSt.enter_eq ..
    refine ⟨z.1, hexec, rfl, ?_, ?_, ?_, ?_, fun a => congrArg (tget 0#8 · a) hdram, hregs⟩
    · rw [hcl]
    · rw [hcl]
    · rw [hcl, henter]
    · rw [hcl, henter]

end Sys2Proof.Machine

/-! Proofs about the vector unit (05_vector_units.md): an operation of one beat, and the record of a sum of squares. -/

namespace Sys2Proof.Machine

/-! ### Updates of registers alone -/

/-- Between s and t nothing but registers differs. -/
def RegsOnly (s t : State) : Prop := t = { s with regs := t.regs }

theorem RegsOnly.refl (s : State) : RegsOnly s s := rfl

theorem RegsOnly.trans {s t u : State} (h : RegsOnly s t) (k : RegsOnly t u) : RegsOnly s u := by
  unfold RegsOnly at *
  rw [k, h]

theorem RegsOnly.ite {s t u : State} {p : Prop} [Decidable p] (ht : RegsOnly s t) (hu : RegsOnly s u) : RegsOnly s (if p then t else u) := by
  split <;> assumption

section
variable {s t : State} (h : RegsOnly s t)
include h

theorem RegsOnly.wrg (off : Nat) (v : Word) : RegsOnly s (t.wrg off v) := h.trans rfl
theorem RegsOnly.setF (x : Fld) (k : Nat) : RegsOnly s (t.setF x k) := h.trans rfl
theorem RegsOnly.incN (off k : Nat) : RegsOnly s (t.incN off k) := h.trans rfl
theorem RegsOnly.inc (off : Nat) : RegsOnly s (t.inc off) := h.trans rfl
theorem RegsOnly.wrg64 (off k : Nat) : RegsOnly s (t.wrg64 off k) := h.trans rfl
theorem RegsOnly.inc64 (off k : Nat) : RegsOnly s (t.inc64 off k) := h.trans rfl
theorem RegsOnly.plain (off : Nat) (v : Word) : RegsOnly s (t.plain off v) := h.trans rfl

theorem RegsOnly.clusters : t.clusters = s.clusters := (congrArg State.clusters (show t = _ from h)).trans rfl
theorem RegsOnly.dram : t.dram = s.dram := (congrArg State.dram (show t = _ from h)).trans rfl
theorem RegsOnly.outbox : t.outbox = s.outbox := (congrArg State.outbox (show t = _ from h)).trans rfl
theorem RegsOnly.cl (n : Nat) : t.cl n = s.cl n := congrArg (tget noCluster · n) h.clusters

end

/-! ### Contexts that do not wait (R61) -/

theorem State.each_eq_self {α : Type} (s : State) (l : List α) {f : State → α → State} (hf : ∀ x ∈ l, f s x = s) : s.each l f = s := by
  unfold State.each
  induction l with
  | nil => rfl
  | cons x l ih =>
    rw [List.foldl_cons, hf x (List.mem_cons_self ..)]
    exact ih fun y hy => hf y (List.mem_cons_of_mem _ hy)

/-- Where no context of a cluster waits, none is woken. -/
theorem State.wake_of_quiet {s : State} {n : Nat} (h : (s.cl n).quiet) : s.wake n = s := by
  unfold State.wake
  split
  · rfl
  · refine State.each_eq_self s _ fun k hk => if_neg ?_
    have hst := h k (List.mem_range.mp hk)
    cases hctx : ((s.cl n).ctx k).st <;> simp_all

/-! ### What lanes read (R163, R178) -/

/-- Two clusters whose lanes read the same: scratchpad, banks and selected bucket are equal. -/
def SameReads (c d : ClusterSt) : Prop := d.sp = c.sp ∧ d.bank0 = c.bank0 ∧ d.bank1 = c.bank1 ∧ d.bucket = c.bucket

section
variable {c d : ClusterSt} (h : SameReads c d)
include h

theorem SameReads.rdLoc (imm : Word) (f : Nat) (l : Loc) : d.rdLoc imm f l = c.rdLoc imm f l := by
  obtain ⟨hsp, h0, h1, -⟩ := h
  cases l <;> simp only [ClusterSt.rdLoc, ClusterSt.rdElem_congr hsp, ClusterSt.rd, ClusterSt.bank, hsp, h0, h1]

theorem SameReads.gatherLoc (p : Plane) (o : VecOp) (b : Loc) : d.gatherLoc p o b = c.gatherLoc p o b := by
  simp only [ClusterSt.gatherLoc, h.rdLoc]

theorem SameReads.lane (p : Plane) (o : VecOp) (y : Ctx) (pos : Nat) : d.lane p o y pos = c.lane p o y pos := by
  have hbkt : d.bkt = c.bkt := congrArg (Option.getD · 0) h.2.2.2
  simp only [ClusterSt.lane, h.gatherLoc, h.rdLoc, hbkt]

theorem SameReads.runLane {g e : ClusterSt} (hg : SameReads g e) (p : Plane) (o : VecOp) (t : List Word) (l : Lane) :
    d.runLane e p o t l = c.runLane g p o t l := by
  have hm : ∀ l, (if o.vop = 0x21 then e else d).rdLoc 0 o.fmtA l = (if o.vop = 0x21 then g else c).rdLoc 0 o.fmtA l := fun l => by
    split
    · exact hg.rdLoc ..
    · exact h.rdLoc ..
  simp only [ClusterSt.runLane, h.rdLoc, hm]

end

theorem ClusterSt.enter_sameReads (c : ClusterSt) (stream : Bool) (rs : List (Nat × Nat)) : SameReads c (c.enter stream rs).1 := by
  rw [ClusterSt.enter_eq]
  exact ⟨rfl, rfl, rfl, rfl⟩

/-! ### One beat (R161, R180) -/

theorem State.vecFlags_regsOnly (s : State) (n ctx f : Nat) : RegsOnly s (s.vecFlags n ctx f) := by
  unfold State.vecFlags
  exact (RegsOnly.refl s).ite (((RegsOnly.refl s).wrg _ _).incN _ _)

theorem State.vecFlags_regsBut (s : State) (n ctx f : Nat) : RegsBut s (s.vecFlags n ctx f) [Reg.VEC_FLAGS n, Reg.VEC_EVENTS n] := by
  intro off hoff
  simp only [List.mem_cons, List.not_mem_nil, or_false, not_or] at hoff
  unfold State.vecFlags
  split
  · rfl
  · rw [State.rg_incN, if_neg hoff.2, State.rg_wrg_of_ne _ hoff.1]

/-- The lanes of the only beat of an operation, on the cluster that runs it. -/
def ClusterSt.beatLanes (c : ClusterSt) (o : VecOp) (total : Nat) : List Lane :=
  (List.range total).map (c.lane (c.plane o.plane) o { c.ctx (4 * o.plane + o.ctx) with idx := o.idx })

/-- What the active lanes of a beat write, in lane order. -/
def ClusterSt.beatWrites (c : ClusterSt) (o : VecOp) (t : List Word) (total : Nat) : List (Loc × Nat) :=
  ((c.beatLanes o total).filter (·.active)).flatMap fun l => (c.runLane c (c.plane o.plane) o t l).writes

theorem flatMap_active {α : Type} (lanes : List Lane) (f : Lane → LaneOut) (g : LaneOut → List α) :
    ((lanes.map fun l => if l.active then some (f l) else none).filterMap id).flatMap g = (lanes.filter (·.active)).flatMap fun l => g (f l) := by
  induction lanes with
  | nil => rfl
  | cons l lanes ih => cases hl : l.active <;> simpa [hl] using ih

/-- The first beat, without a fault on a lane that counts: what it writes waits to land, and it sets registers. -/
theorem VecRun.beat_of_no_fault {r : VecRun} {n : Nat} {o : VecOp} {t : List Word} {total : Nat} (hlate : r.late = []) (htotal : total ≤ 64)
    (hfault : ∀ l ∈ (r.s.cl n).beatLanes o total, (l.active || l.maskFault) = true → l.faults = []) :
    (r.beat n o t total 0).late = [(0, (r.s.cl n).beatWrites o t total)] ∧ (r.beat n o t total 0).fault = none ∧
      RegsOnly (r.s.upCl n fun c => c.land o (beatCycles o.vop * 0) []) (r.beat n o t total 0).s := by
  have hcl : (r.s.upCl n fun c => c.land o (beatCycles o.vop * 0) r.late).cl n = r.s.cl n := by
    rw [State.cl_upCl_same, hlate]
    rfl
  have hfind : (((r.s.cl n).beatLanes o total).zipIdx.find? fun e => (e.1.active || e.1.maskFault) && !e.1.faults.isEmpty) = none := by
    rw [List.find?_eq_none]
    intro e he
    have hmem := List.fst_mem_of_mem_zipIdx he
    cases hlive : (e.1.active || e.1.maskFault)
    · simp
    · simp [hfault e.1 hmem hlive]
  unfold VecRun.beat
  revert hcl
  simp only [hlate]
  generalize r.s.upCl n (fun c => c.land o (beatCycles o.vop * 0) []) = u
  intro hcl
  simp only [hcl, Nat.mul_zero, Nat.sub_zero, Nat.min_eq_right htotal, Nat.zero_add]
  generalize hL : List.map _ (List.range total) = lanes
  rw [← show (r.s.cl n).beatLanes o total = lanes from hL]
  simp only [hfind]
  refine ⟨?_, trivial, ?_⟩
  · rw [flatMap_active]
    rfl
  · exact (((((RegsOnly.refl u).inc64 _ _).incN _ _).trans (State.vecFlags_regsOnly ..)).inc64 _ _)

/-- An operation of at most 64 positions, without sums of squares and without a fault on a lane that counts (R180). -/
theorem State.runVec_of_one_beat {s : State} {n : Nat} {o : VecOp} {total : Nat} {t : List Word} {x : ClusterSt × List Nat}
    (ht : t = if o.vop = 0x20 ∧ o.sub = 0 then (s.cl n).words o.aux 260 else [])
    (htotal : ((s.cl n).plane o.plane).positions (s.cl n).bkt o.lt = total) (hpos : 0 < total) (hle : total ≤ 64)
    (hx : x = (s.cl n).enter false (((s.cl n).plane o.plane).vecRanges o)) (hsumsq : o.sumsq = false)
    (hfault : ∀ l ∈ (s.cl n).beatLanes o total, (l.active || l.maskFault) = true → l.faults = []) :
    (s.runVec n o).cl n = (((s.cl n).beatWrites o t total).foldl (fun d w => d.wrLoc o.fmtD w) x.1).retire x.2 ∧
      (∀ m, m ≠ n → (s.runVec n o).cl m = s.cl m) ∧ (s.runVec n o).dram = s.dram ∧ (s.runVec n o).outbox = s.outbox := by
  have hceil : ceilDiv total 64 = 1 := by
    unfold ceilDiv
    omega
  have hsame : SameReads (s.cl n) x.1 := hx ▸ (s.cl n).enter_sameReads ..
  have hplane : ∀ p, x.1.plane p = (s.cl n).plane p := fun p => by rw [hx, ClusterSt.enter_eq]; rfl
  have hctx : ∀ k, x.1.ctx k = (s.cl n).ctx k := fun k => by rw [hx, ClusterSt.enter_eq]; rfl
  have hlanes : x.1.beatLanes o total = (s.cl n).beatLanes o total := by
    simp only [ClusterSt.beatLanes, hplane, hctx]
    exact List.map_congr_left fun l _ => hsame.lane ..
  have hwrites : x.1.beatWrites o t total = (s.cl n).beatWrites o t total := by
    simp only [ClusterSt.beatWrites, hlanes, hplane, hsame.runLane hsame]
  obtain ⟨hlate, hnone, hregs⟩ := VecRun.beat_of_no_fault (t := t) (n := n)
    (r := ⟨s.setCl n x.1, [], List.replicate 64 0, List.replicate 64 0, 0, false, false, none⟩) (o := o) rfl hle
    (by rw [State.cl_setCl_same, hlanes]; exact hfault)
  unfold State.runVec
  simp only [htotal, hceil, ← hx, ← ht, VecRun.beats]
  revert hlate hnone hregs
  generalize VecRun.beat _ n o t total 0 = r
  intro hlate hnone hregs
  rw [State.cl_setCl_same, hwrites] at hlate
  have hcl : ∀ m, r.s.cl m = if m = n then x.1 else s.cl m := fun m => by
    rw [hregs.cl, State.cl_upCl, State.cl_setCl_same, State.cl_setCl]
    by_cases hm : m = n <;> simp only [hm, if_true, if_false]
    rfl
  simp only [hnone, Option.isSome_none, Bool.false_eq_true, if_false, VecRun.land, hlate, hsumsq, List.foldl_cons, List.foldl_nil]
  refine ⟨?_, fun m hm => ?_, hregs.dram, hregs.outbox⟩
  · simp only [State.cl_upCl_same, hcl, if_true]
  · simp only [State.cl_upCl, hcl, if_neg hm]

/-! ### The obligation -/

/-- VECTOR_OP_START of an operation whose holds are met, with the unit's queue empty: it runs where its predicate is on. -/
theorem exec_vectorOpStart {s : State} {n : Fin 576} {o : VecOp} (hq : (s.cl n).vecQ = some o) (hstart : (s.cl n).vecMayStart o = true)
    (hfence : s.isFenced n = false) {ecc : SpEcc} {conf : Option Conflict} (hclean : o.on = false ∨ (ecc = .clean ∧ conf = none))
    (hsumsq : o.sumsq = false) :
    exec (.vectorOpStart n ecc conf) s = .next (if o.on then (s.upCl n fun c => { c with vecQ := none }).runVec n o
      else s.upCl n fun c => { c with vecQ := none }) := by
  change execVectorOpStart n ecc conf s = _
  obtain hoff | ⟨rfl, rfl⟩ := hclean
  · simp [execVectorOpStart, hq, hstart, hfence, hoff, hsumsq]
  · cases hon : o.on <;> simp [execVectorOpStart, hq, hstart, hfence, hon, hsumsq, State.spEcc, State.conflict]

/-- Settles O14: one beat reads from the cluster as it stands and lands at the end; a record is written where no context waits for it. -/
theorem vectorUnitRunsABeat : Obligations.VectorUnitRunsABeat := by
  refine ⟨?beat, ?skip, ?record⟩
  case beat =>
    intro s n o c p y total lanes t0 x writes hq hstart hfence hon hsumsq hpos hle hfault
    have hcl : (s.upCl n fun c => { c with vecQ := none }).cl n = c := s.cl_upCl_same n _
    obtain ⟨hn, hother, hdram, hout⟩ := State.runVec_of_one_beat (s := s.upCl n fun c => { c with vecQ := none }) (n := n) (o := o)
      (total := total) (t := t0) (x := x) (by rw [hcl]) (by rw [hcl]) hpos hle (by rw [hcl]) hsumsq (by rw [hcl]; exact hfault)
    refine ⟨_, (exec_vectorOpStart hq hstart hfence (.inr ⟨rfl, rfl⟩) hsumsq).trans (congrArg _ (if_pos hon)), ?_, ?_, hout, fun m hm => ?_⟩
    · rw [hn, hcl]
      rfl
    · exact fun a => congrArg (tget 0#8 · a) hdram
    · rw [hother m hm, State.cl_upCl, if_neg hm]
  case skip =>
    intro s n o ecc conf hq hstart hfence hoff hsumsq
    rw [exec_vectorOpStart hq hstart hfence (.inl hoff) hsumsq, if_neg (by simp [hoff])]
    rfl
  case record =>
    intro s n r hr hon hquiet
    let c : ClusterSt := (({ s.cl n with sumsq := none } : ClusterSt).retire r.entries).wrN r.addr (wordBytes r.words)
    have hexec : exec (.sumsqRecordWrite n) s = .next (((s.setCl n c).vecFlags n r.ctx r.flags).wake n) := by
      change execSumsqRecordWrite n s = _
      simp only [execSumsqRecordWrite, hr, hon, if_true]
      rfl
    have hflags := State.vecFlags_regsOnly (s.setCl n c) n r.ctx r.flags
    have hquiet' : (((s.setCl n c).vecFlags n r.ctx r.flags).cl n).quiet := by
      rw [hflags.cl, State.cl_setCl_same]
      have hsp : OnlySp _ c := ClusterSt.wrN_onlySp ..
      rw [hsp]
      exact hquiet
    rw [State.wake_of_quiet hquiet'] at hexec
    refine ⟨_, hexec, ?_, ?_, State.vecFlags_regsBut (s.setCl n c) n r.ctx r.flags, fun m hm => ?_⟩
    · rw [hflags.cl, State.cl_setCl_same]
    · exact fun a => congrArg (tget 0#8 · a) hflags.dram
    · rw [hflags.cl, State.cl_setCl, if_neg hm]

end Sys2Proof.Machine

/-! Reads of BAR0 and their latches (R654, R657), and the mesh and its bridges (R32, R36, R41). -/

namespace Sys2Proof.Machine

/-! ### Tables: which keys are listed -/

@[simp] theorem thas_tput {α : Type} (t : Table α) (k j : Nat) (v : α) : thas (tput t k v) j = (decide (j = k) || thas t j) := by
  induction t with
  | nil => by_cases h : k = j <;> simp [tput, thas, h, Ne.symm]
  | cons e t ih =>
    simp only [tput]
    by_cases hjk : j = k
    · subst hjk
      split_ifs with h₁ h₂ <;> simp_all [thas]
    · have hkj : k ≠ j := fun h => hjk h.symm
      split_ifs with h₁ h₂ <;> simp_all [thas]

@[simp] theorem thas_tdel {α : Type} (t : Table α) (k j : Nat) : thas (tdel t k) j = (!decide (j = k) && thas t j) := by
  induction t with
  | nil => simp [tdel, thas]
  | cons e t ih =>
    simp only [tdel]
    by_cases hjk : j = k
    · subst hjk
      split_ifs with h <;> simp_all [thas, Ne.symm]
    · have hkj : k ≠ j := fun h => hjk h.symm
      split_ifs with h <;> simp_all [thas]

/-! ### Reads -/

/-- The same state but for the free values taken. -/
def Drawn (s t : State) : Prop := t = { s with freeCount := t.freeCount }

theorem Drawn.ite {β : Type} {s : State} {c : Prop} [Decidable c] {x y : β × State} (hx : Drawn s x.2) (hy : Drawn s y.2) :
    Drawn s (if c then x else y).2 := by
  split
  · exact hx
  · exact hy

/-- A debug window's register takes at most a free value. -/
theorem State.windowView_drawn (s : State) (n w : Nat) : Drawn s (s.windowView n w).2 := by
  unfold State.windowView
  with_reducible repeat' apply Drawn.ite
  case' hy.hy.hy.hy.hy.hy.hy.hy.hy.hy.hy.hy.hx => split
  all_goals rfl

/-- What a read finds takes at most a free value. -/
theorem State.view_drawn (s : State) (off : Nat) : Drawn s (s.view off).2 := by
  unfold State.view
  with_reducible repeat' apply Drawn.ite
  case hx.hy => exact s.windowView_drawn _ _
  all_goals rfl

theorem State.emit_regRead (s : State) (mc : Bool) (off : Nat) (v : Word) :
    s.emit (.regRead mc off v) = { s with outbox := s.outbox ++ [.regRead mc off v] } :=
  s.emit_of_enabled (by simp [Output.disabled])

/-- The value and the state of a read, before its latches: the latched value, else what the register shows. -/
def State.readValue (s : State) (mc : Bool) (off : Nat) : Word × State :=
  if thas s.host.latches (latchKey mc off) then (tget 0 s.host.latches (latchKey mc off), s) else s.view off

theorem State.readValue_fst (s : State) (mc : Bool) (off : Nat) : (s.readValue mc off).1 =
    if thas s.host.latches (latchKey mc off) then tget 0 s.host.latches (latchKey mc off) else (s.view off).1 := by
  unfold State.readValue
  split <;> rfl

theorem State.readValue_drawn (s : State) (mc : Bool) (off : Nat) : Drawn s (s.readValue mc off).2 :=
  Drawn.ite rfl (s.view_drawn off)

/-- Nothing but the free values taken and the latches differs. -/
def OnlyLatches (s t : State) : Prop := t = { s with freeCount := t.freeCount, host := { s.host with latches := t.host.latches } }

theorem OnlyLatches.refl (s : State) : OnlyLatches s s := rfl

theorem OnlyLatches.trans {s t u : State} (h : OnlyLatches s t) (k : OnlyLatches t u) : OnlyLatches s u := by
  unfold OnlyLatches at *
  rw [k, h]

theorem Drawn.onlyLatches {s t : State} (h : Drawn s t) : OnlyLatches s t := by
  unfold Drawn at h
  unfold OnlyLatches
  rw [h]

theorem State.setLatches_onlyLatches (s : State) (l : Table Word) : OnlyLatches s { s with host := { s.host with latches := l } } := rfl

/-- A read of 4 bytes answers `readValue`, and changes the latches and the free values alone. -/
theorem State.read4_spec (s : State) (mc : Bool) (off : Nat) :
    (s.read4 mc off).1 = (s.readValue mc off).1 ∧ OnlyLatches s (s.read4 mc off).2 ∧
      (setsLatch off = false → thas (s.read4 mc off).2.host.latches (latchKey mc off) = false) ∧
      (setsLatch off = true → thas (s.read4 mc off).2.host.latches (latchKey mc (off + 4)) = true) := by
  have hv := (s.readValue_drawn mc off).onlyLatches
  have hread : s.read4 mc off = let v := s.readValue mc off
      let t : State := { v.2 with host := { v.2.host with latches := tdel v.2.host.latches (latchKey mc off) } }
      if setsLatch off then
        (v.1, { (t.view (off + 4)).2 with host := { (t.view (off + 4)).2.host with
          latches := tput (t.view (off + 4)).2.host.latches (latchKey mc (off + 4)) (t.view (off + 4)).1 } })
      else (v.1, t) := rfl
  rw [hread]
  generalize s.readValue mc off = v at hv
  simp only
  have ht := hv.trans (v.2.setLatches_onlyLatches (tdel v.2.host.latches (latchKey mc off)))
  have hdel : thas (tdel v.2.host.latches (latchKey mc off)) (latchKey mc off) = false := by simp
  cases hset : setsLatch off with
  | false => exact ⟨rfl, ht, fun _ => hdel, fun h => by simp at h⟩
  | true =>
    refine ⟨rfl, ?_, fun h => by simp at h, fun _ => by simp⟩
    exact (ht.trans (State.view_drawn _ _).onlyLatches).trans (State.setLatches_onlyLatches _ _)

/-- A read of 8 bytes: both registers as they are at one instant, and no latch on either. -/
theorem State.read8_eq (s : State) (mc : Bool) (off : Nat) :
    s.read8 mc off = { s with
      outbox := s.outbox ++ [.regRead mc off (s.view off).1, .regRead mc (off + 4) ((s.view off).2.view (off + 4)).1]
      freeCount := ((s.view off).2.view (off + 4)).2.freeCount
      host := { s.host with latches := tdel (tdel s.host.latches (latchKey mc off)) (latchKey mc (off + 4)) } } := by
  have h₁ := s.view_drawn off
  have h₂ := (s.view off).2.view_drawn (off + 4)
  unfold Drawn at h₁ h₂
  simp only [State.read8, State.emit_regRead]
  generalize (s.view off).2.view (off + 4) = b at h₂
  generalize s.view off = a at h₁ h₂
  rw [h₂, h₁]
  simp

theorem touched_four {off : Nat} (h : off % 4 = 0) : touched off 4 = [off] := by
  simp [touched, h, List.range_succ, Nat.div_mul_cancel (Nat.dvd_of_mod_eq_zero h)]

/-- A served read of 4 aligned bytes sends what `read4` answers. -/
theorem exec_latchedRead_four {s : State} {mc : Bool} {off : BitVec 24} (hserved : s.readServed off.toNat = true)
    (hdata : dbgData off.toNat = false) (halign : off.toNat % 4 = 0) :
    exec (.latchedRead mc off 4) s =
      .next ((s.read4 mc off.toNat).2.emit (.regRead mc off.toNat (s.read4 mc off.toNat).1)) := by
  change execLatchedRead mc off 4 s = _
  simp [execLatchedRead, hserved, Nat.div_mul_cancel (Nat.dvd_of_mod_eq_zero halign), hdata, touched_four halign, State.each]

/-- Settles O26: `read4` and `read8` read through `view` and change the latches alone. -/
theorem readsAnswerAndLatchTheirPartners : Obligations.ReadsAnswerAndLatchTheirPartners := by
  refine ⟨?four, ?turn, ?eight, ?recovery⟩
  case four =>
    intro s mc off hserved hdata halign
    refine ⟨_, exec_latchedRead_four hserved hdata halign, ?_⟩
    obtain ⟨hval, honly, hclear, hset⟩ := s.read4_spec mc off.toNat
    rw [State.emit_regRead, hval, State.readValue_fst]
    unfold OnlyLatches at honly
    refine ⟨?_, ?_, hclear, hset⟩
    · rw [honly]
    · rw [honly]
  case turn =>
    intro s mc hserved hlatch
    have hoff : (BitVec.ofNat 24 Reg.TB_NOW_TURN).toNat = Reg.TB_NOW_TURN := by decide
    refine ⟨_, exec_latchedRead_four (by rw [hoff]; exact hserved) (by decide) (by decide), ?_⟩
    rw [State.emit_regRead, hoff]
    have hview (t : State) : t.view Reg.TB_NOW_TURN = (BitVec.ofNat 32 t.time.turn, t) := rfl
    have hangle (t : State) : t.view (Reg.TB_NOW_TURN + 4) = (BitVec.ofNat 32 t.time.angle, t) := rfl
    have hset : setsLatch Reg.TB_NOW_TURN = true := by decide
    have hkey : latchKey mc (Reg.TB_NOW_TURN + 4) = latchKey mc Reg.TB_NOW_ANGLE := rfl
    simp [State.read4, hlatch, hview, hangle, hset, hkey]
  case eight =>
    intro s mc off hserved hdata halign
    have halign4 : off.toNat % 4 = 0 := by omega
    have hexec : exec (.latchedRead mc off 8) s = .next (s.read8 mc off.toNat) := by
      change execLatchedRead mc off 8 s = _
      simp [execLatchedRead, hserved, Nat.div_mul_cancel (Nat.dvd_of_mod_eq_zero halign4), hdata, halign]
    refine ⟨_, hexec, ?_⟩
    rw [State.read8_eq]
    exact ⟨rfl, rfl, by simp, by simp⟩
  case recovery =>
    intro s mc off size hrec hoff
    have hserved : s.readServed off.toNat = false := by simp [State.readServed, hrec, hoff]
    change execLatchedRead mc off size s = _
    simp [execLatchedRead, hserved]

/-! ### The mesh and the bridges -/

theorem State.emit_delivered (s : State) (p : MeshPkt) : s.emit (.delivered p) = { s with outbox := s.outbox ++ [.delivered p] } :=
  s.emit_of_enabled (by simp [Output.disabled])

/-- Settles O27: each command is one update of the mesh, of the drop counts or of the bridges. -/
theorem meshAndBridgesCarryPackets : Obligations.MeshAndBridgesCarryPackets := by
  refine ⟨?age, ?deliver, ?drop, ?fail, ?again⟩
  case age =>
    intro s k
    refine ⟨_, rfl, rfl, by simp, fun j p hp => ?_⟩
    simp only [List.getElem?_mapIdx, hp, Option.map_some, Option.some.injEq]
    split_ifs <;> simp_all
  case deliver =>
    intro s p h
    have hkept : ¬ (stopKind p.dst.toNat = 0 ∧ s.repair.fenced.contains (stopCluster p.dst.toNat) = true) := by
      rintro ⟨hkind, hfenced⟩
      rcases h with h | h
      · exact h hkind
      · rw [State.isFenced, hfenced] at h; simp at h
    refine ⟨_, by change execMeshPacketArrive p s = _; simp only [execMeshPacketArrive, if_neg hkept]; rfl, ?_⟩
    rw [State.emit_delivered]
  case drop =>
    intro s p hkind hfenced
    refine ⟨_, by change execMeshPacketArrive p s = _; simp only [execMeshPacketArrive]; rw [if_pos ⟨hkind, hfenced⟩], rfl, fun g => ?_⟩
    simp only [tget_tput]
    by_cases hg : g = stopRegion p.dst.toNat <;> simp [hg, b2n]
  case fail =>
    intro s b l g hgood
    refine ⟨_, by change execBridgeGroupFail b l g s = _; simp only [execBridgeGroupFail, hgood]; rfl, ?_⟩
    refine ⟨by simp [State.report], by simp [State.report], fun k hk => ?_, ⟨_, rfl⟩, rfl⟩
    simp [State.report, hk]
  case again =>
    intro s b l g hbad
    change execBridgeGroupFail b l g s = _
    simp only [execBridgeGroupFail, hbad, if_true]

end Sys2Proof.Machine

/-! What the end of runs can do (R298, R380, R411, R494, R566): the frame that the rollback of the step, the answers to its requests and the failure
of the package keep. -/

namespace Sys2Proof.Machine

/-- The registers that the end of a run may write: counts of refusals, deadlines, groups and losses, the event ring, and the instances' totals. -/
def RunReg (o : Nat) : Prop :=
  o ∈ [Reg.FH_CPL_MISMATCH, Reg.DRAM_LOST, Reg.DRAM_LOST_ADDR_LO, Reg.DRAM_LOST_ADDR_HI, Reg.FH_EVT_HEAD, Reg.MG_ALERT, Reg.IRQ_STATUS, Reg.SES_REFUSED,
      Reg.GRP_DELIVERED, Reg.GRP_DOWN_DROPPED, Reg.DL_UNCHECKED, Reg.DL_ABANDONS] ∨
    (0x36000 ≤ o ∧ o < 0x38000) ∨ ∃ i k, k < 6 ∧ o = 0x80100 + 0x400 * i + 4 * k

/-- A cluster as before, or with its issue stopped and its channels and streams restarted. -/
structure Halts (c d : ClusterSt) : Prop where
  same : d = { c with
    stopped := d.stopped, switching := d.switching, streams := d.streams, sends := d.sends, recvs := d.recvs, board := d.board }
  board : d.board.Sublist c.board
  stopped : c.stopped = true → d.stopped = true
  switching : d.switching = c.switching ∨ d.switching = none

theorem Halts.refl (c : ClusterSt) : Halts c c := ⟨rfl, List.Sublist.refl _, id, .inl rfl⟩

theorem Halts.trans {c d e : ClusterSt} (h : Halts c d) (k : Halts d e) : Halts c e := by
  refine ⟨?_, k.board.trans h.board, fun hc => k.stopped (h.stopped hc), ?_⟩
  · have h₁ := h.same
    have h₂ := k.same
    rw [h₂, h₁]
  · rcases k.switching with hk | hk
    · rw [hk]; exact h.switching
    · exact .inr hk

theorem ClusterSt.halt_halts (c : ClusterSt) : Halts c c.stopStep.restartUnits :=
  ⟨rfl, List.filter_sublist, fun _ => rfl, .inr rfl⟩

/-- The frame of the end of runs: registers of `RunReg`, halted clusters, memory, what is sent, descriptors, sequences and sessions, open barrier
episodes, reports on their way, and the two outputs that follow registers. -/
structure RunsEnd (s t : State) : Prop where
  rg : ∀ o, ¬ RunReg o → t.rg o = s.rg o
  cl : ∀ n, Halts (s.cl n) (t.cl n)
  rest : t = { s with
    freeCount := t.freeCount, outbox := t.outbox, regs := t.regs, clusters := t.clusters, dram := t.dram, barriers := t.barriers
    host := { s.host with descs := t.host.descs, reads := t.host.reads }
    net := { s.net with
      seqs := t.net.seqs, sessions := t.net.sessions, groups := t.net.groups, step := t.net.step, restart := t.net.restart }
    repair := { s.repair with inFlight := t.repair.inFlight }
    pins := { s.pins with alertN := t.pins.alertN, loadErrN := t.pins.loadErrN } }

theorem RunsEnd.refl (s : State) : RunsEnd s s := ⟨fun _ _ => rfl, fun _ => .refl _, rfl⟩

theorem RunsEnd.trans {s t u : State} (h : RunsEnd s t) (k : RunsEnd t u) : RunsEnd s u := by
  refine ⟨fun o ho => (k.rg o ho).trans (h.rg o ho), fun n => (h.cl n).trans (k.cl n), ?_⟩
  have h₁ := h.rest
  have h₂ := k.rest
  rw [h₂, h₁]

theorem RunsEnd.ite {s t u : State} {p : Prop} [Decidable p] (ht : RunsEnd s t) (hu : RunsEnd s u) : RunsEnd s (if p then t else u) := by
  split
  · exact ht
  · exact hu

theorem State.each_runsEnd {α : Type} (s : State) (l : List α) {f : State → α → State} (hf : ∀ u x, RunsEnd u (f u x)) : RunsEnd s (s.each l f) := by
  unfold State.each
  induction l generalizing s with
  | nil => exact .refl s
  | cons x l ih => exact (hf s x).trans (ih (f s x))

theorem State.cond_runsEnd (s : State) (c : Bool) {f : State → State} (hf : ∀ u, RunsEnd u (f u)) : RunsEnd s (s.cond c f) :=
  RunsEnd.ite (hf s) (.refl s)

/-! ### Registers -/

theorem State.wrg_runsEnd (s : State) {off : Nat} (hoff : RunReg off) (v : Word) : RunsEnd s (s.wrg off v) :=
  ⟨fun o ho => s.rg_wrg_of_ne (by rintro rfl; exact ho hoff) v, fun _ => .refl _, rfl⟩

theorem State.setF_runsEnd (s : State) {x : Fld} (hoff : RunReg x.off) (k : Nat) : RunsEnd s (s.setF x k) := s.wrg_runsEnd hoff _

theorem State.inc_runsEnd (s : State) {off : Nat} (hoff : RunReg off) : RunsEnd s (s.inc off) := s.wrg_runsEnd hoff _

theorem State.inc64_runsEnd (s : State) {off : Nat} (hlo : RunReg off) (hhi : RunReg (off + 4)) (k : Nat) : RunsEnd s (s.inc64 off k) :=
  (s.wrg_runsEnd hlo _).trans (State.wrg_runsEnd _ hhi _)

theorem RunReg.event {e : Nat} (he : e < 256) {off k : Nat} (hk : k < 32) (hoff : off = 0x36000 + k + 0x20 * e) : RunReg off :=
  .inr (.inl (by omega))

theorem RunReg.total (i : Nat) {off k : Nat} (hk : k < 6) (hoff : off = 0x80100 + 4 * k + 0x400 * i) : RunReg off :=
  .inr (.inr ⟨i, k, hk, by omega⟩)

/-! ### Operations that write none of them -/

theorem State.emit_runsEnd (s : State) (o : Output) : RunsEnd s (s.emit o) :=
  ⟨fun _ _ => State.emit_rg .., fun _ => by rw [State.emit_cl]; exact .refl _, by rw [State.emit_eq]⟩

theorem State.wrB_runsEnd (s : State) (a : Nat) (v : Byte) : RunsEnd s (s.wrB a v) :=
  RunsEnd.ite ⟨fun _ _ => rfl, fun _ => .refl _, rfl⟩ (.refl s)

theorem State.wrBytes_runsEnd (s : State) (a : Nat) (bs : List Byte) : RunsEnd s (s.wrBytes a bs) := by
  induction bs generalizing s a with
  | nil => exact .refl s
  | cons b bs ih => exact (s.wrB_runsEnd a b).trans (ih _ _)

theorem State.wrWords_runsEnd (s : State) (a : Nat) (ws : List Word) : RunsEnd s (s.wrWords a ws) := by
  induction ws generalizing s a with
  | nil => exact .refl s
  | cons w ws ih => exact (s.wrBytes_runsEnd a _).trans (ih _ _)

theorem State.free_runsEnd (s : State) : RunsEnd s s.free.2 := ⟨fun _ _ => rfl, fun _ => .refl _, rfl⟩
theorem State.report_runsEnd (s : State) (stop unit detail : Nat) (byCount : Bool) : RunsEnd s (s.report stop unit detail byCount) :=
  ⟨fun _ _ => rfl, fun _ => .refl _, rfl⟩
theorem State.setStep_runsEnd (s : State) (x : Option StepSt) : RunsEnd s (s.setStep x) := ⟨fun _ _ => rfl, fun _ => .refl _, rfl⟩
theorem State.setSeq_runsEnd (s : State) (id : Nat) (q : Seq) : RunsEnd s (s.setSeq id q) := ⟨fun _ _ => rfl, fun _ => .refl _, rfl⟩
theorem State.setSes_runsEnd (s : State) (n : Nat) (x : Session) : RunsEnd s (s.setSes n x) := ⟨fun _ _ => rfl, fun _ => .refl _, rfl⟩
theorem State.setDesc_runsEnd (s : State) (id : Nat) (d : Desc) : RunsEnd s (s.setDesc id d) := ⟨fun _ _ => rfl, fun _ => .refl _, rfl⟩
theorem State.endRead_runsEnd (s : State) (use : ReadOf) : RunsEnd s (s.endRead use) := ⟨fun _ _ => rfl, fun _ => .refl _, rfl⟩
theorem State.endEpisodes_runsEnd (s : State) : RunsEnd s s.endEpisodes := ⟨fun _ _ => rfl, fun _ => .refl _, rfl⟩

theorem State.setRestart_runsEnd (s : State) (x : Option Nat) : RunsEnd s { s with net := { s.net with restart := x } } :=
  ⟨fun _ _ => rfl, fun _ => .refl _, rfl⟩
theorem State.addGroup_runsEnd (s : State) (r : GroupReply) : RunsEnd s { s with net := { s.net with groups := s.net.groups ++ [r] } } :=
  ⟨fun _ _ => rfl, fun _ => .refl _, rfl⟩

theorem State.drivePins_runsEnd (s : State) : RunsEnd s s.drivePins :=
  RunsEnd.ite (.refl s) ⟨fun _ _ => rfl, fun _ => .refl _, rfl⟩

/-- Every cluster's issue stops; a cluster that the state does not list has the reset state's, stopped or not. -/
theorem State.stopClusters_runsEnd (s : State) : RunsEnd s s.stopClusters := by
  refine ⟨fun _ _ => rfl, fun n => ?_, rfl⟩
  unfold State.stopClusters State.cl
  simp only
  induction s.clusters with
  | nil => exact .refl _
  | cons e l ih =>
    simp only [List.map_cons, tget]
    split_ifs
    · exact ClusterSt.halt_halts _
    · exact ih

/-! ### Interrupts, alerts and events -/

theorem State.msix_runsEnd (s : State) (inst vector : Nat) : RunsEnd s (s.msix inst vector) := s.emit_runsEnd _

theorem State.irq_runsEnd (s : State) (k : Nat) : RunsEnd s (s.irq k) := by
  have h : RunsEnd s (s.setF ⟨Reg.IRQ_STATUS, k, k⟩ 1) := s.setF_runsEnd (.inl (by simp)) 1
  exact RunsEnd.ite h (RunsEnd.ite (h.trans (State.msix_runsEnd ..)) h)

theorem State.alert_runsEnd (s : State) (k : Nat) : RunsEnd s (s.alert k) :=
  (s.setF_runsEnd (x := ⟨Reg.MG_ALERT, k, k⟩) (.inl (by simp)) 1).trans (State.drivePins_runsEnd _)

theorem State.post_runsEnd (s : State) (cls unit stop action detail : Nat) (owner : Option (Nat × Nat)) (lc : Option Nat) :
    RunsEnd s (s.post cls unit stop action detail owner lc) := by
  have he : (s.rg Reg.FH_EVT_HEAD).toNat % 256 < 256 := Nat.mod_lt _ (by decide)
  unfold State.post
  dsimp only
  refine .trans (.trans (.trans ?_ (State.inc_runsEnd _ (.inl (by simp)))) (State.irq_runsEnd _ _)) (State.alert_runsEnd _ _)
  generalize (s.rg Reg.FH_EVT_HEAD).toNat % 256 = e at he
  have hword (u : State) {off k : Nat} (hk : k < 32) (hoff : off = 0x36000 + k + 0x20 * e) (v : Word) : RunsEnd u (u.wrg off v) :=
    u.wrg_runsEnd (.event he hk hoff) v
  refine .trans ?_ (hword _ (k := 24) (by decide) rfl _)
  refine .trans ?_ (hword _ (k := 20) (by decide) rfl _)
  refine .trans ?_ (hword _ (k := 16) (by decide) rfl _)
  refine .trans ?_ (hword _ (k := 12) (by decide) rfl _)
  refine .trans ?_ (hword _ (k := 8) (by decide) rfl _)
  refine .trans ?_ (hword _ (k := 4) (by decide) rfl _)
  exact hword s (k := 0) (by decide) rfl _

theorem State.postOpen_runsEnd (s : State) (cls : Nat) (stop : Option Nat) (owner : Option (Nat × Nat)) :
    RunsEnd s (s.postOpen cls stop owner) := by
  unfold State.postOpen
  dsimp only
  exact (s.free_runsEnd.trans (State.free_runsEnd _)).trans (State.post_runsEnd ..)

/-- A complement mismatch that advances no count of its own. -/
theorem State.cplMismatch_runsEnd (s : State) (stop unit detail : Nat) : RunsEnd s (s.cplMismatch none stop unit detail) :=
  (s.inc_runsEnd (.inl (by simp))).trans (State.report_runsEnd ..)

theorem State.lostRecord_runsEnd (s : State) (i a : Nat) : RunsEnd s (s.lostRecord i a) := by
  unfold State.lostRecord
  dsimp only
  refine .trans ?_ (State.post_runsEnd ..)
  refine .trans ?_ (State.wrg_runsEnd _ (off := Reg.DRAM_LOST_ADDR_HI) (.inl (by simp)) _)
  refine .trans ?_ (State.wrg_runsEnd _ (off := Reg.DRAM_LOST_ADDR_LO) (.inl (by simp)) _)
  refine .trans ?_ (State.setF_runsEnd _ (x := Reg.DRAM_LOST_INSTANCE) (.inl (by simp [Reg.DRAM_LOST_INSTANCE])) i)
  exact s.setF_runsEnd (x := Reg.DRAM_LOST_VALID) (.inl (by simp [Reg.DRAM_LOST_VALID])) 1

/-! ### The journal -/

theorem State.putJournalHeader_runsEnd (s : State) (x : StepSt) : RunsEnd s (s.putJournalHeader x) := s.wrWords_runsEnd _ _

theorem State.undo_runsEnd (s : State) (inst base k : Nat) : RunsEnd s (s.undo inst base k) :=
  RunsEnd.ite (s.wrBytes_runsEnd _ _) ((s.cplMismatch_runsEnd ..).trans (State.lostRecord_runsEnd ..))

theorem State.undoAll_runsEnd (s : State) (inst base n : Nat) : RunsEnd s (s.undoAll inst base n) := by
  induction n generalizing s with
  | zero => exact .refl s
  | succ n ih => exact (s.undo_runsEnd inst base n).trans (ih _)

theorem State.rollback_runsEnd (s : State) : RunsEnd s s.rollback := by
  unfold State.rollback
  split
  · exact .refl s
  · exact ((s.undoAll_runsEnd ..).trans (State.putJournalHeader_runsEnd ..)).trans (State.setStep_runsEnd ..)

/-! ### Answers -/

theorem State.sesSend_runsEnd (s : State) (n typ : Nat) (last : Bool) (seq reqId frag : Nat) (payload : List Byte) :
    RunsEnd s (s.sesSend n typ last seq reqId frag payload) :=
  (s.setSes_runsEnd ..).trans (State.emit_runsEnd ..)

theorem State.sendFrags_runsEnd (s : State) (n reqId total k : Nat) (fs : List (List Byte)) : RunsEnd s (s.sendFrags n reqId total k fs) := by
  induction fs generalizing s k with
  | nil => exact .refl s
  | cons f fs ih => exact ((s.setSes_runsEnd ..).trans (State.sesSend_runsEnd ..)).trans (ih _ _)

theorem State.reply_runsEnd (s : State) (n reqId : Nat) (bytes : List Byte) : RunsEnd s (s.reply n reqId bytes) :=
  (s.setSes_runsEnd ..).trans (State.sendFrags_runsEnd ..)

theorem State.groupSend_runsEnd (s : State) (g d reqId total k : Nat) (fs : List (List Byte)) : RunsEnd s (s.groupSend g d reqId total k fs) := by
  induction fs generalizing s k with
  | nil => exact .refl s
  | cons f fs ih => exact (s.emit_runsEnd _).trans (ih _ _)

theorem State.groupDest_runsEnd (s : State) (g reqId : Nat) (fs : List (List Byte)) (d : GroupDest) : RunsEnd s (s.groupDest g reqId fs d).1 := by
  unfold State.groupDest
  split_ifs
  · exact .refl s
  · exact s.inc_runsEnd (.inl (by simp))
  · exact .refl s
  · exact (s.groupSend_runsEnd ..).trans (State.inc_runsEnd _ (.inl (by simp)))

theorem State.groupDests_runsEnd (s : State) (g reqId : Nat) (fs : List (List Byte)) (ds : List GroupDest) :
    RunsEnd s (s.groupDests g reqId fs ds).1 := by
  induction ds generalizing s with
  | nil => exact .refl s
  | cons d ds ih => exact (s.groupDest_runsEnd g reqId fs d).trans (ih _)

theorem State.groupReport_runsEnd (s : State) (r : GroupReply) : RunsEnd s (s.groupReport r) := by
  unfold State.groupReport
  refine RunsEnd.ite (.refl s) ?_
  exact ((s.setSes_runsEnd ..).trans (State.sesSend_runsEnd ..)).trans (State.cond_runsEnd _ _ fun u => u.irq_runsEnd 5)

theorem State.groupStep_runsEnd (s : State) (r : GroupReply) : RunsEnd s (s.groupStep r) :=
  RunsEnd.ite ((s.groupDests_runsEnd ..).trans (State.groupReport_runsEnd ..)) ((s.groupDests_runsEnd ..).trans (State.addGroup_runsEnd ..))

/-! ### The end of sequences -/

theorem State.account_runsEnd (s : State) (i qwait preempt : Nat) : RunsEnd s (s.account i qwait preempt) := by
  have hlo (off k : Nat) (hk : k < 6) (hoff : off = 0x80100 + 4 * k + 0x400 * i) : RunReg off := .total i hk hoff
  have h₁ := s.inc64_runsEnd (hlo (Reg.ACC_QWAIT_LO i) 0 (by decide) rfl) (hlo _ 1 (by decide) (by simp only [Reg.ACC_QWAIT_LO]; omega)) qwait
  have h₂ := h₁.trans
    (State.inc64_runsEnd _ (hlo (Reg.ACC_PREEMPT_LO i) 2 (by decide) rfl) (hlo _ 3 (by decide) (by simp only [Reg.ACC_PREEMPT_LO]; omega)) preempt)
  exact h₂.trans (State.inc64_runsEnd _ (hlo (Reg.ACC_DONE_LO i) 4 (by decide) rfl) (hlo _ 5 (by decide) (by simp only [Reg.ACC_DONE_LO]; omega)) 1)

theorem State.endSeq_runsEnd (s : State) (id status detail : Nat) : RunsEnd s (s.endSeq id status detail) := by
  unfold State.endSeq
  refine RunsEnd.ite (.refl s) ?_
  dsimp only
  generalize (if (status == 0 && (s.seq id).late) = true then (1, 1) else (status, detail)) = st
  have h := (s.setSeq_runsEnd id { s.seq id with state := .gone }).trans
    (State.account_runsEnd _ (s.seq id).inst (s.seqTimes (s.seq id)).1 (s.seq id).preempt)
  revert h
  generalize State.account _ _ _ _ = t
  intro h
  split
  · exact h.trans (State.setDesc_runsEnd ..)
  · have hses (x : Session) (n : Nat) (c : Bool) := (h.trans (State.setSes_runsEnd _ n x)).trans
      (State.cond_runsEnd _ c fun u => u.inc_runsEnd (off := Reg.DL_UNCHECKED) (.inl (by simp)))
    split
    · exact (hses ..).trans (State.reply_runsEnd ..)
    · exact ((hses ..).trans (State.reply_runsEnd ..)).trans (State.groupStep_runsEnd ..)
  · exact h

theorem State.programError_runsEnd (s : State) (detail : Nat) : RunsEnd s (s.programError detail) := by
  unfold State.programError
  split
  · exact .refl s
  · refine RunsEnd.ite (.refl s) ?_
    have h := (s.stopClusters_runsEnd.trans (State.endEpisodes_runsEnd _)).trans (State.rollback_runsEnd _)
    exact (h.trans (State.each_runsEnd _ _ fun u id => u.endSeq_runsEnd id 3 detail)).trans (State.setStep_runsEnd ..)

theorem State.endDesc_runsEnd (s : State) (id status detail : Nat) : RunsEnd s (s.endDesc id status detail) :=
  (s.endRead_runsEnd _).trans (State.setDesc_runsEnd ..)

theorem State.abandonSeq_runsEnd (s : State) (id detail : Nat) : RunsEnd s (s.abandonSeq id detail) := by
  have hend (u : State) : RunsEnd u ((u.endSeq id 2 detail).inc Reg.DL_ABANDONS) :=
    (u.endSeq_runsEnd ..).trans (State.inc_runsEnd _ (.inl (by simp)))
  unfold State.abandonSeq
  split
  · exact hend s
  · refine RunsEnd.ite ?_ (RunsEnd.ite ((hend s).trans (State.setStep_runsEnd ..)) (hend s))
    have h := ((s.stopClusters_runsEnd.trans (State.endEpisodes_runsEnd _)).trans (State.rollback_runsEnd _)).trans (hend _)
    refine RunsEnd.ite ((h.trans (State.each_runsEnd _ _ fun u k => u.endSeq_runsEnd k 2 0)).trans (State.setStep_runsEnd ..)) ?_
    have hrest (l : List Nat) (f : State → Nat → Seq) := (h.trans (State.each_runsEnd _ l fun u k => u.setSeq_runsEnd k (f u k))).trans
      (State.setStep_runsEnd _ none)
    exact RunsEnd.ite (hrest ..) ((hrest ..).trans (State.setRestart_runsEnd ..))

theorem State.dataLost_runsEnd (s : State) (i a : Nat) : RunsEnd s (s.dataLost i a) := by
  unfold State.dataLost
  dsimp only
  split
  · exact s.lostRecord_runsEnd i a
  · exact RunsEnd.ite ((s.lostRecord_runsEnd i a).trans (State.each_runsEnd _ _ fun u id => u.abandonSeq_runsEnd id 0)) (s.lostRecord_runsEnd i a)

/-! ### The failure of the package (R566) -/

theorem State.sesError_runsEnd (s : State) (n reqId code : Nat) : RunsEnd s (s.sesError n reqId code) :=
  ((s.sesSend_runsEnd ..).trans (State.inc_runsEnd _ (.inl (by simp)))).trans (State.irq_runsEnd ..)

theorem State.refuseRequest_runsEnd (s : State) (n reqId code : Nat) : RunsEnd s ((s.sesError n reqId code).dropRequest n reqId) :=
  (s.sesError_runsEnd ..).trans (State.setSes_runsEnd ..)

theorem State.failSeq_runsEnd (s : State) (id : Nat) : RunsEnd s (s.failSeq id) := by
  unfold State.failSeq
  dsimp only
  split
  · exact RunsEnd.ite (.refl s) ((s.setSeq_runsEnd ..).trans (State.refuseRequest_runsEnd ..))
  · exact s.endSeq_runsEnd id 2 0

/-- A failed package's step in progress: rolled back, unless it is past its commit point. -/
def State.rollUncommitted (s : State) : State :=
  match s.net.step with
  | some x => if x.committed then s else s.rollback
  | none => s

theorem State.rollUncommitted_runsEnd (s : State) : RunsEnd s s.rollUncommitted := by
  unfold State.rollUncommitted
  split
  · exact RunsEnd.ite (.refl s) s.rollback_runsEnd
  · exact .refl s

/-- The failure of the package in its parts: issue stops, the step rolls back, and sequences, descriptors and requests end. -/
theorem State.failRuns_eq (s : State) : s.failRuns =
    let t := s.stopClusters.endEpisodes.rollUncommitted
    let t := t.each (t.net.seqs.map (·.1)) fun u id => u.failSeq id
    let t := t.each (t.host.descs.filter fun e => e.2.state == .admitted && e.2.opcode == 1) fun u e => u.endDesc e.1 2 0
    let t := t.each t.net.sessions fun u e =>
      u.each (e.2.requests.filter fun r => r.complete && r.reply.isNone) fun v r => (v.sesError e.1 r.reqId 5).dropRequest e.1 r.reqId
    t.setStep none := rfl

theorem State.failRuns_runsEnd (s : State) : RunsEnd s s.failRuns := by
  rw [State.failRuns_eq]
  dsimp only
  refine .trans ?_ (State.setStep_runsEnd ..)
  refine .trans ?_ (State.each_runsEnd _ _ fun u e => State.each_runsEnd _ _ fun v r => v.refuseRequest_runsEnd ..)
  refine .trans ?_ (State.each_runsEnd _ _ fun u e => u.endDesc_runsEnd e.1 2 0)
  refine .trans ?_ (State.each_runsEnd _ _ fun u id => u.failSeq_runsEnd id)
  exact (s.stopClusters_runsEnd.trans (State.endEpisodes_runsEnd _)).trans (State.rollUncommitted_runsEnd _)

theorem State.failRuns_step (s : State) : s.failRuns.net.step = none := rfl

end Sys2Proof.Machine

/-! Fields of registers beside the one that is written, and 64-bit counts. -/

namespace Sys2Proof.Machine

/-- A field apart from the one that is replaced stays. -/
theorem bits_setBits_apart (v : Word) {hi lo hi' lo' : Nat} (h : hi < lo' ∨ hi' < lo) (hle : lo ≤ hi) (hle' : lo' ≤ hi') (n : Nat) :
    bits (setBits v hi lo n) hi' lo' = bits v hi' lo' := by
  have hfield : (setBits v hi lo n).extractLsb' lo' (hi' - lo' + 1) = v.extractLsb' lo' (hi' - lo' + 1) := by
    apply BitVec.eq_of_getLsbD_eq
    intro i hi₁
    by_cases hw : lo' + i < 32
    · have hout : lo' + i < lo ∨ hi - lo + 1 ≤ lo' + i - lo := by omega
      simp only [setBits, BitVec.getLsbD_extractLsb', BitVec.getLsbD_or, BitVec.getLsbD_and, BitVec.getLsbD_not, BitVec.getLsbD_shiftLeft,
        BitVec.getLsbD_ofNat, Nat.testBit_two_pow_sub_one]
      rcases hout with hout | hout
      · simp [hi₁, hw, hout]
      · have hnot : ¬ (lo' + i - lo < hi - lo + 1) := by omega
        simp [hi₁, hw, hnot]
    · simp only [BitVec.getLsbD_extractLsb', BitVec.getLsbD_of_ge _ _ (Nat.le_of_not_lt hw)]
  rw [bits, hfield, bits]

theorem State.fd_setF_apart (s : State) {x y : Fld} (hoff : y.off = x.off) (h : x.hi < y.lo ∨ y.hi < x.lo) (hx : x.lo ≤ x.hi) (hy : y.lo ≤ y.hi)
    (n : Nat) : (s.setF x n).fd y = s.fd y := by
  rw [State.fd, hoff, State.rg_setF, if_pos rfl, bits_setBits_apart _ h hx hy, State.fd, hoff]

theorem State.on_setF_apart (s : State) {x y : Fld} (hoff : y.off = x.off) (h : x.hi < y.lo ∨ y.hi < x.lo) (hx : x.lo ≤ x.hi) (hy : y.lo ≤ y.hi)
    (n : Nat) : (s.setF x n).on y = s.on y := by
  rw [State.on, s.fd_setF_apart hoff h hx hy, State.on]

theorem State.fd_setF_of_ne (s : State) {x y : Fld} (h : y.off ≠ x.off) (n : Nat) : (s.setF x n).fd y = s.fd y :=
  State.fd_congr (s.rg_setF_of_ne h n)

theorem State.on_setF_of_ne (s : State) {x y : Fld} (h : y.off ≠ x.off) (n : Nat) : (s.setF x n).on y = s.on y :=
  State.on_congr (s.rg_setF_of_ne h n)

/-- A one-bit field shows the bit that is written. -/
theorem State.on_setF_bit (s : State) {x : Fld} (h : x.hi = x.lo) (hhi : x.hi < 32) (b : Bool) : (s.setF x (b2n b)).on x = b := by
  rw [State.on, State.fd_setF_same _ (by omega) hhi, h]
  cases b <;> simp [b2n]

theorem State.on_setF_one (s : State) {x : Fld} (h : x.hi = x.lo) (hhi : x.hi < 32) : (s.setF x 1).on x = true := s.on_setF_bit h hhi true
theorem State.on_setF_zero (s : State) {x : Fld} (h : x.hi = x.lo) (hhi : x.hi < 32) : (s.setF x 0).on x = false := s.on_setF_bit h hhi false

theorem State.rg_inc_same (s : State) (off : Nat) : (s.inc off).rg off = s.rg off + 1 := by
  rw [State.inc, State.rg_incN, if_pos rfl]
  rfl

theorem State.rg_inc_of_ne (s : State) {o off : Nat} (h : o ≠ off) : (s.inc off).rg o = s.rg o := s.rg_wrg_of_ne h _

/-- A 64-bit count shows the number written, modulo 2^64. -/
theorem State.rg64_wrg64 (s : State) (off k : Nat) : (s.wrg64 off k).rg64 off = k % 2 ^ 64 := by
  rw [State.rg64, State.wrg64, State.rg_wrg_of_ne _ (by omega), State.rg_wrg, if_pos rfl, State.rg_wrg, if_pos rfl, lo32, hi32,
    BitVec.toNat_ofNat, BitVec.toNat_ofNat]
  omega

theorem State.rg64_inc64 (s : State) (off k : Nat) : (s.inc64 off k).rg64 off = (s.rg64 off + k) % 2 ^ 64 := s.rg64_wrg64 off _

end Sys2Proof.Machine

/-! Context switches, plane switches and the debug controls of a cluster's sequencer (R62, R81, R92). -/

namespace Sys2Proof.Machine

/-! ### What a binding of contexts leaves of a cluster -/

/-- The planes and the plane switch of a cluster stay, and a scoreboard that is empty stays empty. -/
structure KeepsPlanes (c d : ClusterSt) : Prop where
  planes : d.planes = c.planes
  switch : d.switch = c.switch
  board : c.board = [] → d.board = []

theorem KeepsPlanes.refl (c : ClusterSt) : KeepsPlanes c c := ⟨rfl, rfl, id⟩

theorem KeepsPlanes.trans {c d e : ClusterSt} (h : KeepsPlanes c d) (k : KeepsPlanes d e) : KeepsPlanes c e :=
  ⟨k.planes.trans h.planes, k.switch.trans h.switch, fun hc => k.board (h.board hc)⟩

theorem KeepsPlanes.plane {c d : ClusterSt} (h : KeepsPlanes c d) (p : Nat) : d.plane p = c.plane p := by
  rw [ClusterSt.plane, ClusterSt.plane, h.planes]

theorem Halts.keepsPlanes {c d : ClusterSt} (h : Halts c d) : KeepsPlanes c d := by
  refine ⟨?_, ?_, fun hc => ?_⟩
  · rw [h.same]
  · rw [h.same]
  · have hsub := h.board
    rw [hc] at hsub
    exact List.sublist_nil.mp hsub

theorem RunsEnd.keepsPlanes {s t : State} (h : RunsEnd s t) (n : Nat) : KeepsPlanes (s.cl n) (t.cl n) := (h.cl n).keepsPlanes

theorem ClusterSt.setCtx_keepsPlanes (c : ClusterSt) (k : Nat) (y : Ctx) : KeepsPlanes c (c.setCtx k y) := ⟨rfl, rfl, id⟩

theorem ClusterSt.seek_keepsPlanes (c : ClusterSt) : KeepsPlanes c c.seek := by
  unfold ClusterSt.seek
  split
  · exact .refl c
  · split
    · exact ⟨rfl, rfl, id⟩
    · exact .refl c

/-- A fold of updates each of which keeps the planes. -/
theorem foldl_keepsPlanes {α : Type} (c : ClusterSt) (l : List α) {f : ClusterSt → α → ClusterSt} (hf : ∀ d x, KeepsPlanes d (f d x)) :
    KeepsPlanes c (l.foldl f c) := by
  induction l generalizing c with
  | nil => exact .refl c
  | cons x l ih => exact (hf c x).trans (ih (f c x))

theorem ClusterSt.bindUnits_keepsPlanes (c : ClusterSt) (k : Nat) (keep : Bool) : KeepsPlanes c (c.bindUnits k keep) := by
  unfold ClusterSt.bindUnits
  refine .trans (foldl_keepsPlanes c (List.range 16) fun d x => ?streams) (foldl_keepsPlanes _ (List.range 8) fun d i => ?_)
  case streams => exact ⟨rfl, rfl, id⟩
  split_ifs <;> exact ⟨rfl, rfl, id⟩

theorem State.cond_clusters (s : State) (c : Bool) {f : State → State} (hf : ∀ u : State, (f u).clusters = u.clusters) :
    (s.cond c f).clusters = s.clusters := by
  cases c
  · rfl
  · exact hf s

theorem State.strFault_clusters (s : State) (n kind k desc slot pkg : Nat) (addr block : Option Nat) :
    (s.strFault n kind k desc slot pkg addr block).clusters = s.clusters := by
  refine s.cond_clusters _ fun u => ?_
  cases addr <;> cases block <;> simp only [State.wrg_clusters, State.setF_clusters, State.free_clusters]

theorem State.cl_congr {s t : State} (h : t.clusters = s.clusters) (n : Nat) : t.cl n = s.cl n := by rw [State.cl, State.cl, h]

theorem State.flowError_keepsPlanes (s : State) (n : Nat) : KeepsPlanes (s.cl n) (s.flowError.cl n) := (s.programError_runsEnd 9).keepsPlanes n

/-- A context that is bound, set free or found with unfinished work leaves the planes of its cluster. -/
theorem State.bindCtx_keepsPlanes (s : State) (n k : Nat) (ids : List Nat) (slot : Nat) (keep : Bool) :
    KeepsPlanes (s.cl n) ((s.bindCtx n k ids slot keep).cl n) := by
  unfold State.bindCtx
  split
  · rw [State.cl_upCl_same]
    exact ClusterSt.setCtx_keepsPlanes ..
  · dsimp only
    split
    case h_1 =>
      refine .trans ?_ (State.flowError_keepsPlanes _ n)
      rw [State.cl_congr (s := s) ((State.cond_clusters _ _ fun u => ?fields).trans (State.incN_clusters ..))]
      case fields => simp only [State.setF_clusters]
      exact .refl _
    case h_2 =>
      refine .trans ?_ (State.flowError_keepsPlanes _ n)
      rw [State.cl_congr (s.strFault_clusters ..)]
      exact .refl _
    case h_3 =>
      rw [State.bind1, State.cl_upCl_same]
      exact (ClusterSt.bindUnits_keepsPlanes ..).trans (ClusterSt.setCtx_keepsPlanes ..)

theorem State.each_keepsPlanes {α : Type} (s : State) (n : Nat) (l : List α) {f : State → α → State}
    (hf : ∀ u x, KeepsPlanes (u.cl n) ((f u x).cl n)) : KeepsPlanes (s.cl n) ((s.each l f).cl n) := by
  unfold State.each
  induction l generalizing s with
  | nil => exact .refl _
  | cons x l ih => exact (hf s x).trans (ih (f s x))

theorem State.bindPlanes_keepsPlanes (s : State) (n : Nat) (planes : List Nat) (x : StepSt) (keep : Bool) :
    KeepsPlanes (s.cl n) ((s.bindPlanes n planes x keep).cl n) := by
  refine s.each_keepsPlanes n _ fun u k => ?_
  split_ifs
  · exact u.bindCtx_keepsPlanes n k _ _ _
  · rw [State.cl_upCl_same]
    exact ClusterSt.setCtx_keepsPlanes ..

theorem State.stopLend_keepsPlanes (s : State) (n : Nat) : KeepsPlanes (s.cl n) ((s.stopLend n).cl n) := by
  unfold State.stopLend
  split
  · exact .refl _
  · rw [State.incN_cl, State.cl_upCl_same]
    exact ⟨rfl, rfl, id⟩

theorem ClusterSt.startAt_keepsPlanes (c : ClusterSt) (planes : List Nat) : KeepsPlanes c (c.startAt planes) := by
  have hstart : KeepsPlanes c { c with last := 4 * planes.headD 0 + 3, cur := none, switching := none } := ⟨rfl, rfl, id⟩
  unfold ClusterSt.startAt
  dsimp only
  split
  · exact hstart.trans ⟨rfl, rfl, id⟩
  · exact hstart.trans (ClusterSt.seek_keepsPlanes _)

theorem State.startActive_keepsPlanes (s : State) (n : Nat) (act : List Nat) (x : StepSt) :
    KeepsPlanes (s.cl n) ((s.startActive n act x).cl n) := by
  have hbind := s.bindPlanes_keepsPlanes n act x false
  unfold State.startActive
  dsimp only
  split
  · exact hbind
  · refine hbind.trans (.trans ?_ (State.stopLend_keepsPlanes _ n))
    have hclear (d : ClusterSt) : KeepsPlanes d { d with cur := none, switching := none } := ⟨rfl, rfl, id⟩
    rw [State.cl_upCl_same]
    exact (hclear _).trans (ClusterSt.seek_keepsPlanes _)

/-! ### The planes of a switch (R81) -/

theorem ClusterSt.plane_setPlane (c : ClusterSt) (p q : Nat) (x : Plane) : (c.setPlane p x).plane q = if q = p then x else c.plane q := by
  rw [ClusterSt.plane, ClusterSt.setPlane, tget_tput, ClusterSt.plane]

/-- The states of planes after each of a list is put in a state, by an update that leaves the other planes. -/
theorem foldl_plane_st (l : List Nat) (c : ClusterSt) {f : ClusterSt → Nat → ClusterSt} {v : Nat}
    (hf : ∀ d p q, ((f d p).plane q).st = if q = p then v else (d.plane q).st) (q : Nat) :
    ((l.foldl f c).plane q).st = if q ∈ l then v else (c.plane q).st := by
  induction l generalizing c with
  | nil => simp
  | cons p l ih =>
    rw [List.foldl_cons, ih, hf]
    by_cases hq : q ∈ l
    · simp [hq]
    · by_cases hqp : q = p <;> simp [hq, hqp]

/-- The outgoing planes become RESIDENT, then the incoming ones ACTIVE. -/
def ClusterSt.swapPlanes (c : ClusterSt) (inc : List Nat) (stamp : Nat) : ClusterSt :=
  inc.foldl (fun c p => c.setPlane p { c.plane p with st := 3, used := stamp })
    (c.outgoing.foldl (fun c p => (c.setPlane p { c.plane p with st := 2 }).leave p) c)

theorem ClusterSt.swapPlanes_st (c : ClusterSt) (inc : List Nat) (stamp q : Nat) :
    ((c.swapPlanes inc stamp).plane q).st = if q ∈ inc then 3 else if q ∈ c.outgoing then 2 else (c.plane q).st := by
  unfold ClusterSt.swapPlanes
  rw [foldl_plane_st _ _ (v := 3), foldl_plane_st _ _ (v := 2)]
  · intro d p q
    change ((d.setPlane p _).plane q).st = _
    rw [ClusterSt.plane_setPlane]
    split_ifs <;> rfl
  · intro d p q
    rw [ClusterSt.plane_setPlane]
    split_ifs <;> rfl

theorem ClusterSt.mem_planesOf_resident {c : ClusterSt} {slot sect p : Nat} (h : p ∈ c.planesOf slot sect [2]) : (c.plane p).st = 2 := by
  simp only [ClusterSt.planesOf, List.mem_filter, Bool.and_eq_true] at h
  simpa using h.2.2

theorem ClusterSt.mem_outgoing {c : ClusterSt} {p : Nat} (h : p ∈ c.outgoing) : (c.plane p).st = 3 := by
  simp only [ClusterSt.outgoing, List.mem_filter] at h
  simpa using h.2

/-- A plane that goes out does not come in. -/
theorem ClusterSt.not_mem_planesOf_of_outgoing {c : ClusterSt} {slot sect p : Nat} (h : p ∈ c.outgoing) : p ∉ c.planesOf slot sect [2] := by
  intro hin
  have hout := c.mem_outgoing h
  rw [c.mem_planesOf_resident hin] at hout
  simp at hout

/-- The cluster at the end of a switch, before its incoming contexts are bound. -/
def State.switched (s : State) (n : Nat) (w : PlaneSwitch) (x : StepSt) : ClusterSt :=
  let c := (s.cl n).swapPlanes ((s.cl n).planesOf w.slot w.sect [2]) ((s.cl n).useStamp s.clk)
  { c with
    board := []
    switch := none
    bucket := some (s.selectBucket x w.sect)
    tile0 := { c.tile0 with loaded := false }
    tile1 := { c.tile1 with loaded := false }
    arrived := false }

/-- The registers that a switch clears at a change of owner, and its count. -/
def State.countSwitch (s : State) (n : Nat) (owner : Bool) : State :=
  (s.cond owner fun u =>
    ((u.wrg (Reg.ARITH_FLAGS n) 0).wrg (Reg.ARITH_EVENTS n) 0).wrg (Reg.VEC_FLAGS n) 0 |>.wrg (Reg.VEC_EVENTS n) 0).inc64 (Reg.SWITCHES_LO n) 1

theorem State.countSwitch_cl (s : State) (n : Nat) (owner : Bool) (m : Nat) : (s.countSwitch n owner).cl m = s.cl m := by
  rw [State.countSwitch, State.inc64_cl]
  exact State.cl_congr (s.cond_clusters _ fun u => by simp only [State.wrg_clusters]) m

/-- A switch whose conditions hold, of planes that are RESIDENT and need no zeroing: its planes are swapped, and what follows keeps them. -/
theorem exec_planeSwitch_swaps {s : State} {n : Fin 576} {w : PlaneSwitch} {x : StepSt} (hswitch : (s.cl n).switch = some w)
    (hstep : s.net.step = some x) (hready : s.switchReady n w = true) (hnone : (s.cl n).planesOf w.slot w.sect [3] = [])
    (howner : (s.cl n).otherOwner w = false ∨ w.zeroing = true) :
    After (.planeSwitch n) s fun t => KeepsPlanes (s.switched n w x) (t.cl n) := by
  have hno : ((s.cl n).otherOwner w && ! w.zeroing) = false := by rcases howner with h | h <;> simp [h]
  have hexec : exec (.planeSwitch n) s =
      let t := ((s.setCl n (s.switched n w x)).countSwitch n ((s.cl n).otherOwner w)).bindPlanes n ((s.cl n).planesOf w.slot w.sect [2]) x w.fused
      if t.net.step.isNone then .next t else .next (t.upCl n fun c => c.startAt ((s.cl n).planesOf w.slot w.sect [2])) := by
    change execPlaneSwitch n s = _
    simp only [execPlaneSwitch, hswitch, hstep, hready, hnone, hno, Bool.not_true, Bool.false_eq_true, if_false, List.isEmpty_nil]
    rfl
  have hbound := ((s.setCl n (s.switched n w x)).countSwitch n ((s.cl n).otherOwner w)).bindPlanes_keepsPlanes n
    ((s.cl n).planesOf w.slot w.sect [2]) x w.fused
  rw [State.countSwitch_cl, State.cl_setCl_same] at hbound
  simp only [After, hexec]
  split
  · exact ⟨_, rfl, hbound⟩
  · refine ⟨_, rfl, hbound.trans ?_⟩
    rw [State.cl_upCl_same]
    exact ClusterSt.startAt_keepsPlanes ..

/-! ### SEQ_DEBUG (R92) -/

/-- A write of SEQ_DEBUG that is let through outside Rest. -/
theorem State.hostWrite_of_open {s : State} (h : s.open) (off : Nat) (f : State → State) : s.hostWrite off f = f s := by
  rw [State.hostWrite, State.writeAllowed_of_open h, if_pos rfl]

theorem State.seqDebugWrite_of_awake {s : State} (h : s.awake) (n : Nat) (halt step : Bool) : s.seqDebugWrite n halt step =
    let t := (s.setF (Reg.SEQ_DEBUG_HALT n) (b2n halt)).upCl n fun c => { c with stepOne := c.stepOne && halt }
    if step && halt then t.upCl n fun c => { c with stepOne := true } else t := by
  rw [State.seqDebugWrite, if_neg (by omega)]

/-- Settles O19: the two switches are updates of the cluster, after which the binding of contexts keeps the planes. -/
theorem switchesAndDebugControls : Obligations.SwitchesAndDebugControls := by
  refine ⟨?context, ?ask, ?swap, ?active, ?waits, ?halt, ?one⟩
  case context =>
    intro s n k c hswitching hstopped hfenced hready
    have hexec : exec (.contextSwitch n) s = .next ((s.setCl n { c.setCtx k { c.ctx k with st := .running, accLive := false } with
        cur := some k, switching := none }).inc64 (Reg.SWITCHES_LO n) 1) := by
      change execContextSwitch n s = _
      simp only [execContextSwitch, c] at *
      simp only [hswitching, hstopped, hfenced, hready, Bool.or_self, Bool.false_eq_true, if_false, ne_eq, not_true]
      rfl
    refine ⟨_, hexec, ?_⟩
    simp only [State.inc64_cl, State.cl_setCl_same]
    refine ⟨⟨?_, fun j hj => ?_⟩, rfl, ?_, fun off hoff => ?_, fun _ => rfl, rfl, fun m hm => ?_⟩
    · exact (tget_tput ..).trans (if_pos rfl)
    · exact (tget_tput ..).trans (if_neg hj)
    · rw [State.rg64_inc64]; rfl
    · simp only [List.mem_cons, List.not_mem_nil, or_false, not_or] at hoff
      rw [State.rg_inc64_of_ne _ hoff.1 hoff.2]; rfl
    · rw [State.cl_setCl, if_neg hm]
  case ask =>
    intro s n w x c hswitch hstep hready hnone howner hzero
    change execPlaneSwitch n s = _
    simp only [c] at *
    simp only [execPlaneSwitch, hswitch, hstep, hready, hnone, howner, hzero, Bool.not_true, Bool.not_false, Bool.false_eq_true, if_false,
      List.isEmpty_nil, Bool.and_self, if_true]
    rfl
  case swap =>
    intro s n w x c hswitch hstep hready hnone howner
    obtain ⟨t, hexec, hkeeps⟩ := exec_planeSwitch_swaps hswitch hstep hready hnone howner
    have hst (p : Nat) : ((t.cl n).plane p).st = ((c.swapPlanes (c.planesOf w.slot w.sect [2]) (c.useStamp s.clk)).plane p).st :=
      congrArg Plane.st (hkeeps.plane p)
    refine ⟨t, hexec, hkeeps.switch, hkeeps.board rfl, fun p hp => ?_, fun p hp => ?_⟩
    · rw [hst, ClusterSt.swapPlanes_st, if_pos hp]
    · rw [hst, ClusterSt.swapPlanes_st, if_neg (c.not_mem_planesOf_of_outgoing hp), if_pos hp]
  case active =>
    intro s n w x c hswitch hstep hready hsome
    have hexec : exec (.planeSwitch n) s =
        .next ((s.setCl n { c with switch := none }).startActive n (c.planesOf w.slot w.sect [3]) x) := by
      change execPlaneSwitch n s = _
      have hne : ((s.cl n).planesOf w.slot w.sect [3]).isEmpty = false := by simpa using hsome
      simp only [c] at *
      simp only [execPlaneSwitch, hswitch, hstep, hready, hne, Bool.not_true, Bool.not_false, Bool.false_eq_true, if_false, if_true]
      rfl
    have hkeeps := (s.setCl n { c with switch := none }).startActive_keepsPlanes n (c.planesOf w.slot w.sect [3]) x
    rw [State.cl_setCl_same] at hkeeps
    exact ⟨_, hexec, hkeeps.switch, fun p _ => congrArg Plane.st (hkeeps.plane p)⟩
  case waits =>
    intro s n w hswitch hready
    change execPlaneSwitch n s = _
    cases hstep : s.net.step with
    | none => simp only [execPlaneSwitch, hswitch, hstep]
    | some x => simp only [execPlaneSwitch, hswitch, hstep, hready, Bool.not_false, if_true]
  case halt =>
    intro s n halt hopen hawake
    have hexec : exec (.seqHalt n halt) s =
        .next ((s.setF (Reg.SEQ_DEBUG_HALT n) (b2n halt)).upCl n fun c => { c with stepOne := c.stepOne && halt }) := by
      change execSeqHalt n halt s = _
      rw [execSeqHalt, State.hostWrite_of_open hopen, State.seqDebugWrite_of_awake hawake]
      rfl
    refine ⟨_, hexec, ?_, fun off hoff => ?_, ?_, fun _ => rfl, fun m hm => ?_⟩
    · exact (State.on_congr rfl).trans (s.on_setF_bit (x := Reg.SEQ_DEBUG_HALT n) rfl (by simp [Reg.SEQ_DEBUG_HALT]) halt)
    · exact s.rg_setF_of_ne (x := Reg.SEQ_DEBUG_HALT n) (by simpa [Reg.SEQ_DEBUG_HALT] using hoff) _
    · rw [State.cl_upCl_same]; rfl
    · rw [State.cl_upCl, if_neg hm]; rfl
  case one =>
    intro s n hopen hawake hhalt
    have hexec : exec (.seqStep n) s = .next (((s.setF (Reg.SEQ_DEBUG_HALT n) (b2n true)).upCl n
        fun c => { c with stepOne := c.stepOne && true }).upCl n fun c => { c with stepOne := true }) := by
      change execSeqStep n s = _
      rw [execSeqStep, State.hostWrite_of_open hopen, hhalt, State.seqDebugWrite_of_awake hawake]
      rfl
    refine ⟨_, hexec, ?_, ?_, fun _ => rfl, fun m hm => ?_⟩
    · exact (State.on_congr rfl).trans (s.on_setF_bit (x := Reg.SEQ_DEBUG_HALT n) rfl (by simp [Reg.SEQ_DEBUG_HALT]) true)
    · rw [State.cl_upCl_same, State.cl_upCl_same]; rfl
    · rw [State.cl_upCl, if_neg hm, State.cl_upCl, if_neg hm]; rfl

end Sys2Proof.Machine

/-! Barriers inside a section: arrival, release, and its arrival at a cluster (R310 to R316). -/

namespace Sys2Proof.Machine

theorem ClusterSt.seek_ctx (c : ClusterSt) (j : Nat) : c.seek.ctx j = c.ctx j := by
  unfold ClusterSt.seek
  split
  · rfl
  · split <;> rfl

theorem ClusterSt.ctx_setCtx (c : ClusterSt) (k j : Nat) (y : Ctx) : (c.setCtx k y).ctx j = if j = k then y else c.ctx j := tget_tput ..

theorem ClusterSt.waitFor_ctxSet (c : ClusterSt) (k : Nat) (w : Wait) (live : Bool) :
    CtxSet c (c.waitFor k w live) k { c.ctx k with st := .waiting, wait := w, accLive := live } := by
  have hset := CtxSet.setCtx c k { c.ctx k with st := .waiting, wait := w, accLive := live }
  exact ⟨(ClusterSt.seek_ctx _ k).trans hset.1, fun j hj => (ClusterSt.seek_ctx _ j).trans (hset.2 j hj)⟩

/-- What an arrival leaves: it changes barriers and the cluster's BAR_STATUS. -/
structure OnlyBar (s t : State) (n : Nat) : Prop where
  clusters : t.clusters = s.clusters
  dram : t.dram = s.dram
  outbox : t.outbox = s.outbox
  regs : RegsBut s t [Reg.BAR_STATUS n]

theorem OnlyBar.refl (s : State) (n : Nat) : OnlyBar s s n := ⟨rfl, rfl, rfl, fun _ _ => rfl⟩

theorem OnlyBar.trans {s t u : State} {n : Nat} (h : OnlyBar s t n) (k : OnlyBar t u n) : OnlyBar s u n :=
  ⟨k.clusters.trans h.clusters, k.dram.trans h.dram, k.outbox.trans h.outbox, fun o ho => (k.regs o ho).trans (h.regs o ho)⟩

theorem State.setBar_onlyBar (s : State) (n key : Nat) (b : BarrierSt) : OnlyBar s (s.setBar key b) n := ⟨rfl, rfl, rfl, fun _ _ => rfl⟩

theorem State.setF_onlyBar (s : State) {n : Nat} {x : Fld} (hx : x.off = Reg.BAR_STATUS n) (k : Nat) : OnlyBar s (s.setF x k) n :=
  ⟨rfl, rfl, rfl, fun o ho => s.rg_setF_of_ne (by rw [hx]; simpa using ho) k⟩

theorem State.each_onlyBar {α : Type} (s : State) (n : Nat) (l : List α) {f : State → α → State} (hf : ∀ u x, OnlyBar u (f u x) n) :
    OnlyBar s (s.each l f) n := by
  unfold State.each
  induction l generalizing s with
  | nil => exact .refl s n
  | cons x l ih => exact (hf s x).trans (ih (f s x))

theorem State.barrierArrive_onlyBar (s : State) (n : Nat) : OnlyBar s (s.barrierArrive n) n := by
  unfold State.barrierArrive
  split
  · exact .refl s n
  · refine s.each_onlyBar n _ fun u bid => ?_
    dsimp only
    split
    · exact .refl u n
    · exact (((u.setBar_onlyBar n _ _).trans (State.setF_onlyBar _ rfl _)).trans (State.setF_onlyBar _ rfl _)).trans (State.setF_onlyBar _ rfl _)

/-! ### The release at a cluster (R313) -/

/-- A context that the release lets go on, and one that it does not reach. -/
def Released (bid : Nat) (x y : Ctx) : Prop :=
  (x.st = .waiting ∧ x.wait = .barrier bid → (y.st = .ready ∨ y.st = .running) ∧ y.slotPtr = x.slotPtr + 1) ∧
    (x.st ≠ .waiting ∨ x.wait ≠ .barrier bid → y = x)

theorem ClusterSt.makeReady_ctx (c : ClusterSt) (k : Nat) :
    (((c.makeReady k).ctx k).st = .ready ∨ ((c.makeReady k).ctx k).st = .running) ∧ ((c.makeReady k).ctx k).slotPtr = (c.ctx k).slotPtr ∧
      ∀ j, j ≠ k → (c.makeReady k).ctx j = c.ctx j := by
  unfold ClusterSt.makeReady
  dsimp only
  split
  · simp only [ClusterSt.ctx_setCtx, if_true]
    exact ⟨.inr trivial, trivial, fun j hj => if_neg hj⟩
  · simp only [ClusterSt.seek_ctx, ClusterSt.ctx_setCtx, if_true]
    exact ⟨.inl trivial, trivial, fun j hj => if_neg hj⟩

theorem State.stopLend_ctx (s : State) (n j : Nat) : ((s.stopLend n).cl n).ctx j = (s.cl n).ctx j := by
  unfold State.stopLend
  split
  · rfl
  · rw [State.incN_cl, State.cl_upCl_same]; rfl

/-- The registers but the count of time spent lending, and DRAM, barriers and repair, stay when a context becomes READY. -/
structure ReadyFrame (s t : State) (n : Nat) : Prop where
  dram : t.dram = s.dram
  barriers : t.barriers = s.barriers
  regs : RegsBut s t [Reg.LEND_US n]

theorem State.ready_frame (s : State) (n k : Nat) (f : ClusterSt → ClusterSt) : ReadyFrame s ((s.upCl n f).ready n k) n := by
  unfold State.ready State.stopLend
  split
  · exact ⟨rfl, rfl, fun _ _ => rfl⟩
  · exact ⟨rfl, rfl, fun o ho => State.rg_wrg_of_ne _ (by simpa using ho) _⟩

/-- One context of the release's walk over the cluster. -/
def State.releaseOne (s : State) (n bid k : Nat) : State :=
  if ((s.cl n).ctx k).wait == .barrier bid && ((s.cl n).ctx k).st == .waiting then (s.upCl n fun c => c.advance k 1).ready n k else s

theorem State.releaseOne_frame (s : State) (n bid k : Nat) : ReadyFrame s (s.releaseOne n bid k) n := by
  unfold State.releaseOne
  split
  · exact s.ready_frame n k _
  · exact ⟨rfl, rfl, fun _ _ => rfl⟩

theorem State.releaseOne_ctx (s : State) (n bid k : Nat) : Released bid ((s.cl n).ctx k) (((s.releaseOne n bid k).cl n).ctx k) ∧
    ∀ j, j ≠ k → ((s.releaseOne n bid k).cl n).ctx j = (s.cl n).ctx j := by
  unfold State.releaseOne
  split
  case isTrue h =>
    simp only [Bool.and_eq_true, beq_iff_eq] at h
    obtain ⟨hwait, hst⟩ := h
    obtain ⟨hready, hptr, hother⟩ := ((s.cl n).advance k 1).makeReady_ctx k
    simp only [State.ready, State.stopLend_ctx, State.cl_upCl_same]
    refine ⟨⟨fun _ => ⟨hready, ?_⟩, fun hnot => ?_⟩, fun j hj => (hother j hj).trans ?_⟩
    · rw [hptr, ClusterSt.advance, ClusterSt.ctx_setCtx, if_pos rfl]
    · exact absurd hnot (by simp [hwait, hst])
    · rw [ClusterSt.advance, ClusterSt.ctx_setCtx, if_neg hj]
  case isFalse h =>
    simp only [Bool.and_eq_true, beq_iff_eq, not_and] at h
    exact ⟨⟨fun hwaits => absurd hwaits.1 (h hwaits.2), fun _ => rfl⟩, fun _ _ => rfl⟩

/-- The walk over a list of contexts without repetition: those of the list are released or stay, the others stay. -/
theorem State.each_releaseOne (s : State) (n bid : Nat) {l : List Nat} (hl : l.Nodup) :
    ReadyFrame s (s.each l fun u k => u.releaseOne n bid k) n ∧
      (∀ k ∈ l, Released bid ((s.cl n).ctx k) (((s.each l fun u k => u.releaseOne n bid k).cl n).ctx k)) ∧
      ∀ j, j ∉ l → ((s.each l fun u k => u.releaseOne n bid k).cl n).ctx j = (s.cl n).ctx j := by
  unfold State.each
  induction l generalizing s with
  | nil => exact ⟨⟨rfl, rfl, fun _ _ => rfl⟩, by simp, fun _ _ => rfl⟩
  | cons k l ih =>
    obtain ⟨hk, hl⟩ := List.nodup_cons.mp hl
    obtain ⟨hframe, hin, hout⟩ := ih (s.releaseOne n bid k) hl
    obtain ⟨hself, hother⟩ := s.releaseOne_ctx n bid k
    have hone := s.releaseOne_frame n bid k
    rw [List.foldl_cons]
    refine ⟨⟨hframe.dram.trans hone.dram, hframe.barriers.trans hone.barriers, fun o ho => (hframe.regs o ho).trans (hone.regs o ho)⟩,
      fun j hj => ?_, fun j hj => ?_⟩
    · rcases List.mem_cons.mp hj with rfl | hjl
      · rw [hout j hk]; exact hself
      · rw [← hother j (by rintro rfl; exact hk hjl)]; exact hin j hjl
    · obtain ⟨hjk, hjl⟩ := not_or.mp (mt List.mem_cons.mpr hj)
      rw [hout j hjl, hother j hjk]

/-- Settles O22: arrival changes barriers and BAR_STATUS alone, and a release walks over the contexts one by one. -/
theorem barriersGatherAndRelease : Obligations.BarriersGatherAndRelease := by
  refine ⟨?arrive, ?release, ?reach⟩
  case arrive =>
    intro s n k x on bid hissues
    have hexec : exec (.barrier n x bid) s =
        .next (((s.upCl n fun c => { c with stepOne := false }).waitAt n k (.barrier bid) x).barrierArrive n) := by
      change execBarrier n x bid s = _
      rw [execBarrier, State.issue_of_issues hissues]
    have harrive := ((s.upCl n fun c => { c with stepOne := false }).waitAt n k (.barrier bid) x).barrierArrive_onlyBar n
    refine ⟨_, hexec, ?_, fun a => ?_, harrive.outbox, fun o ho => harrive.regs o ho, fun m hm => ?_⟩
    · rw [State.cl_congr harrive.clusters, State.waitAt, State.cl_upCl_same, State.cl_upCl_same]
      exact ClusterSt.waitFor_ctxSet { s.cl n with stepOne := false } k _ _
    · rw [State.rdB, harrive.dram]; rfl
    · rw [State.cl_congr harrive.clusters, State.waitAt, State.cl_upCl, if_neg hm, State.cl_upCl, if_neg hm]
  case release =>
    intro s x sect bid k ps hstep hne hall hlatched
    have hempty : ps.isEmpty = false := by simpa using hne
    have harrived : ps.all (s.bar k).arrived.contains = true := List.all_eq_true.mpr hall
    have hfire : (s.barrierGated sect.toNat bid && ! (s.bar k).latched) = false := by
      cases hg : s.barrierGated sect.toNat bid
      · rfl
      · simp [hlatched hg]
    change execBarrierRelease sect bid s = _
    simp only [execBarrierRelease, hstep]
    rw [if_neg]
    simp only [k, ps] at hempty harrived hfire
    simp only [hempty, harrived, hfire, Bool.not_true, Bool.or_self, Bool.false_eq_true, not_false_iff]
  case reach =>
    intro s x n bid attempt inst gen c sect hstep hsome hattempt hinst hgen hstopped
    let b := s.bar (barKey sect bid)
    let mine := (s.lcsOf n).filter b.releasing.contains
    let t := (s.setBar (barKey sect bid) { b with releasing := b.releasing.filter fun l => ! mine.contains l }).setF (Reg.BAR_STATUS_WAITING n) 0
    have hmine : mine.isEmpty = false := by
      obtain ⟨l, hl, hcont⟩ := hsome
      exact List.isEmpty_eq_false_iff_exists_mem.mpr ⟨l, List.mem_filter.mpr ⟨hl, hcont⟩⟩
    have hcurrent : ¬ (attempt.toNat ≠ x.attempt % 256 ∨ inst.val ≠ x.inst ∨ gen.toNat ≠ s.gen inst ∨ c.stopped = true) := by
      simp [hattempt, hinst, hgen, hstopped]
    have hexec : exec (.barrierReleaseArrive n bid attempt inst gen) s = .next (t.each (List.range 32) fun u k => u.releaseOne n bid k) := by
      change execBarrierReleaseArrive n bid attempt inst gen s = _
      simp only [execBarrierReleaseArrive, hstep]
      rw [if_neg (by rw [Bool.not_eq_true]; exact hmine), if_neg hcurrent]
      rfl
    obtain ⟨hframe, hin, -⟩ := t.each_releaseOne n bid (List.nodup_range (n := 32))
    have hcl : t.cl n = c := rfl
    have hwaiting : t.fd (Reg.BAR_STATUS_WAITING n) = 0 := by
      rw [State.fd_setF_same _ (by simp [Reg.BAR_STATUS_WAITING]) (by simp [Reg.BAR_STATUS_WAITING])]
      simp
    refine ⟨_, hexec, ?_, fun a => ?_, fun k hk hst hwait => ?_, fun k hk hnot => ?_, fun l hl => ?_⟩
    · rw [State.fd_congr (s := t) (hframe.regs _ (by simp [Reg.BAR_STATUS_WAITING, Reg.BAR_STATUS, Reg.LEND_US])), hwaiting]
    · rw [State.rdB, hframe.dram]; rfl
    · rw [← hcl] at hst hwait ⊢
      exact (hin k (List.mem_range.mpr hk)).1 ⟨hst, hwait⟩
    · rw [← hcl] at hnot ⊢
      exact (hin k (List.mem_range.mpr hk)).2 hnot
    · rw [State.bar, hframe.barriers]
      have hbar : t.bar (barKey sect bid) = { b with releasing := b.releasing.filter fun l => ! mine.contains l } :=
        (tget_tput ..).trans (if_pos rfl)
      change (t.bar (barKey sect bid)).releasing.contains l = false
      rw [hbar]
      rw [Bool.eq_false_iff]
      intro hcont
      simp only [List.contains_eq_mem, decide_eq_true_eq, List.mem_filter, Bool.not_eq_true', decide_eq_false_iff_not] at hcont
      exact hcont.2 (List.mem_filter.mpr ⟨hl, by simpa using hcont.1⟩)

end Sys2Proof.Machine

/-! What counts, interrupts, alerts and reports leave: a frame for the many commands that write registers and send, and change nothing else. -/

namespace Sys2Proof.Machine

/-- Nothing differs but registers for which W holds, what is sent and the free values drawn, reports on their way, and the two outputs that
follow registers. -/
structure Reports (W : Nat → Prop) (s t : State) : Prop where
  rest : t = { s with
    freeCount := t.freeCount, outbox := t.outbox, regs := t.regs
    repair := { s.repair with inFlight := t.repair.inFlight }
    pins := { s.pins with alertN := t.pins.alertN, loadErrN := t.pins.loadErrN } }
  regs : ∀ o, ¬ W o → t.rg o = s.rg o

section
variable {W V : Nat → Prop} {s t u : State}

theorem Reports.refl (s : State) : Reports W s s := ⟨rfl, fun _ _ => rfl⟩

theorem Reports.trans (h : Reports W s t) (k : Reports W t u) : Reports W s u := by
  refine ⟨?_, fun o ho => (k.regs o ho).trans (h.regs o ho)⟩
  have h₁ := h.rest
  have h₂ := k.rest
  rw [h₂, h₁]

theorem Reports.mono (h : Reports V s t) (hVW : ∀ o, V o → W o) : Reports W s t := ⟨h.rest, fun o ho => h.regs o fun hV => ho (hVW o hV)⟩

theorem Reports.ite {p : Prop} [Decidable p] (ht : Reports W s t) (hu : Reports W s u) : Reports W s (if p then t else u) := by
  split
  · exact ht
  · exact hu

variable (h : Reports W s t)
include h

theorem Reports.sameArray : SameArray s t := by rw [h.rest]; exact ⟨rfl, rfl⟩
theorem Reports.host : t.host = s.host := by rw [h.rest]
theorem Reports.net : t.net = s.net := by rw [h.rest]
theorem Reports.regsBut {l : List Nat} (hl : ∀ o, W o → o ∈ l) : RegsBut s t l := fun o ho => h.regs o fun hW => ho (hl o hW)

theorem Reports.wrg {off : Nat} (hoff : W off) (v : Word) : Reports W s (t.wrg off v) :=
  h.trans ⟨rfl, fun o ho => t.rg_wrg_of_ne (by rintro rfl; exact ho hoff) v⟩
theorem Reports.setF {x : Fld} (hoff : W x.off) (k : Nat) : Reports W s (t.setF x k) := h.wrg hoff _
theorem Reports.incN {off : Nat} (hoff : W off) (k : Nat) : Reports W s (t.incN off k) := h.wrg hoff _
theorem Reports.inc {off : Nat} (hoff : W off) : Reports W s (t.inc off) := h.wrg hoff _
theorem Reports.plain {off : Nat} (hoff : W off) (v : Word) : Reports W s (t.plain off v) := h.wrg hoff _
theorem Reports.emit (o : Output) : Reports W s (t.emit o) := h.trans ⟨by rw [State.emit_eq], fun _ _ => State.emit_rg ..⟩
theorem Reports.msix (inst vector : Nat) : Reports W s (t.msix inst vector) := h.emit _
theorem Reports.free : Reports W s t.free.2 := h.trans ⟨rfl, fun _ _ => rfl⟩
theorem Reports.report (stop unit detail : Nat) (byCount : Bool) : Reports W s (t.report stop unit detail byCount) := h.trans ⟨rfl, fun _ _ => rfl⟩
theorem Reports.drivePins : Reports W s t.drivePins := h.trans (Reports.ite (.refl t) ⟨rfl, fun _ _ => rfl⟩)

theorem Reports.irq (hstatus : W Reg.IRQ_STATUS) (k : Nat) : Reports W s (t.irq k) := by
  have hset : Reports W s (t.setF ⟨Reg.IRQ_STATUS, k, k⟩ 1) := h.setF hstatus 1
  exact hset.ite ((hset.msix _ _).ite hset)

theorem Reports.instEvent {i : Nat} (hevents : W (Reg.INST_EVENTS i)) (k : Nat) : Reports W s (t.instEvent i k) := by
  have hset : Reports W s (t.setF ⟨Reg.INST_EVENTS i, k, k⟩ 1) := h.setF hevents 1
  exact (hset.msix _ _).ite hset

theorem Reports.alert (halert : W Reg.MG_ALERT) (k : Nat) : Reports W s (t.alert k) := (h.setF (x := ⟨Reg.MG_ALERT, k, k⟩) halert 1).drivePins

theorem Reports.cplMismatch (hcpl : W Reg.FH_CPL_MISMATCH) {off : Nat} (hoff : W off) (stop unit detail : Nat) :
    Reports W s (t.cplMismatch (some off) stop unit detail) := ((h.inc hoff).inc hcpl).report ..

theorem Reports.cplMismatch_none (hcpl : W Reg.FH_CPL_MISMATCH) (stop unit detail : Nat) :
    Reports W s (t.cplMismatch none stop unit detail) := (h.inc hcpl).report ..

end

/-! ### Registers that interrupts leave -/

theorem State.irq_rg (s : State) (k : Nat) {o : Nat} (ho : o ≠ Reg.IRQ_STATUS) : (s.irq k).rg o = s.rg o :=
  ((Reports.refl (W := (· = Reg.IRQ_STATUS)) s).irq rfl k).regs o ho

theorem State.instEvent_rg (s : State) (i k : Nat) {o : Nat} (ho : o ≠ Reg.INST_EVENTS i) : (s.instEvent i k).rg o = s.rg o :=
  ((Reports.refl (W := (· = Reg.INST_EVENTS i)) s).instEvent rfl k).regs o ho

end Sys2Proof.Machine

/-! Doorbells, staged tails and counter signals of BAR2 (R303, R362 to R365, R388). -/

namespace Sys2Proof.Machine

/-! ### BAR2 -/

theorem State.bar2_of_bellsOpen {s : State} {i : Nat} (h : s.bellsOpen i) (f : State → State) : s.bar2 i f = f s := by
  obtain ⟨hreset, hready⟩ := h
  simp [State.bar2, hreset, hready]

theorem State.bar2_of_reset {s : State} {i : Nat} (h : s.on (Reg.INST_STATUS_IN_RESET i) = true) (f : State → State) :
    s.bar2 i f = s.inc (Reg.INST_DISCARDS i) := by
  rw [State.bar2, if_pos h]

theorem State.bar2_of_notReady {s : State} {i : Nat} (h : s.on (Reg.INST_STATUS_IN_RESET i) = false) (hready : s.on Reg.GS_STATUS_READY = false)
    (f : State → State) : s.bar2 i f = s.inc Reg.HL_DB_DISCARD := by
  simp [State.bar2, h, hready]

/-! ### Waking and fetching -/

/-- A wake trigger shows in PWR_STATUS or is held in the power state. -/
theorem State.wakeTrigger_frame (s : State) : s.wakeTrigger = { s with regs := s.wakeTrigger.regs, power := s.wakeTrigger.power } ∧
    RegsBut s s.wakeTrigger [Reg.PWR_STATUS] := by
  unfold State.wakeTrigger
  split
  · exact ⟨rfl, fun o ho => s.rg_setF_of_ne (x := Reg.PWR_STATUS_STATE) (by simpa [Reg.PWR_STATUS_STATE] using ho) 4⟩
  · split <;> exact ⟨rfl, fun _ _ => rfl⟩

/-- A fetch, where one is due, is a read of the host's memory: the host link's reads and what is sent differ. -/
theorem State.issueFetch_frame (s : State) (r : Nat) :
    s.issueFetch r = { s with outbox := (s.issueFetch r).outbox, host := { s.host with reads := (s.issueFetch r).host.reads } } := by
  unfold State.issueFetch State.issueRead
  split
  · split
    · rfl
    · rw [State.emit_eq]
  · rfl

/-! ### A tail or head in range -/

theorem State.newTail_spec (s : State) (r : Nat) (t : Word) : (s.newTail r t).rg (Reg.RC_SQ_TAIL r) = t ∧
    RegsBut s (s.newTail r t) [Reg.RC_SQ_TAIL r, Reg.PWR_STATUS] ∧ SameArray s (s.newTail r t) := by
  unfold State.newTail
  split
  case isTrue h => exact ⟨h.symm, fun _ _ => rfl, rfl, rfl⟩
  case isFalse =>
    dsimp only
    generalize hu : (s.wrg (Reg.RC_SQ_TAIL r) t).setRing r { s.ring r with bells := (s.ring r).bells ++ [(t.toNat, s.now)] } = u
    have huRg (o : Nat) : u.rg o = (s.wrg (Reg.RC_SQ_TAIL r) t).rg o := by rw [← hu]; rfl
    have huArray : SameArray s u := by rw [← hu]; exact ⟨rfl, rfl⟩
    obtain ⟨hwake, hwakeRg⟩ := (u.issueFetch r).wakeTrigger_frame
    have hfetch := u.issueFetch_frame r
    have hrg (o : Nat) (ho : o ≠ Reg.PWR_STATUS) : (u.issueFetch r).wakeTrigger.rg o = (s.wrg (Reg.RC_SQ_TAIL r) t).rg o := by
      rw [hwakeRg o (by simpa using ho), ← huRg, State.rg, hfetch]; rfl
    refine ⟨?_, fun o ho => ?_, ?_⟩
    · rw [hrg _ (by simp only [Reg.RC_SQ_TAIL, Reg.PWR_STATUS]; omega), State.rg_wrg, if_pos rfl]
    · simp only [List.mem_cons, List.not_mem_nil, or_false, not_or] at ho
      rw [hrg o ho.2, State.rg_wrg_of_ne _ ho.1]
    · rw [hwake, hfetch]; exact huArray

/-- The registers of a position out of range. -/
theorem State.rangeError_spec (s : State) (r i code : Nat) (hcode : code < 16) :
    (s.rangeError r i code).rg (Reg.RC_DB_DISCARD r) = s.rg (Reg.RC_DB_DISCARD r) + 1 ∧ (s.rangeError r i code).on (Reg.RC_STATUS_SQ_ERR r) = true ∧
      (s.rangeError r i code).fd (Reg.RC_STATUS_ERR_CODE r) = code ∧
      Reports (· ∈ [Reg.RC_DB_DISCARD r, Reg.RC_STATUS r, Reg.INST_EVENTS i, Reg.IRQ_STATUS]) s (s.rangeError r i code) := by
  unfold State.rangeError
  generalize hu : ((s.inc (Reg.RC_DB_DISCARD r)).setF (Reg.RC_STATUS_SQ_ERR r) 1).setF (Reg.RC_STATUS_ERR_CODE r) code = u
  have hrg (o : Nat) (hevents : o ≠ Reg.INST_EVENTS i) (hirq : o ≠ Reg.IRQ_STATUS) : ((u.instEvent i 5).irq 3).rg o = u.rg o := by
    rw [State.irq_rg _ _ hirq, State.instEvent_rg _ _ _ hevents]
  have hstatus : ((u.instEvent i 5).irq 3).rg (Reg.RC_STATUS r) = u.rg (Reg.RC_STATUS r) :=
    hrg _ (by simp only [Reg.RC_STATUS, Reg.INST_EVENTS]; omega) (by simp only [Reg.RC_STATUS, Reg.IRQ_STATUS]; omega)
  have hdiscard : ((u.instEvent i 5).irq 3).rg (Reg.RC_DB_DISCARD r) = u.rg (Reg.RC_DB_DISCARD r) :=
    hrg _ (by simp only [Reg.RC_DB_DISCARD, Reg.INST_EVENTS]; omega) (by simp only [Reg.RC_DB_DISCARD, Reg.IRQ_STATUS]; omega)
  have hne : Reg.RC_DB_DISCARD r ≠ Reg.RC_STATUS r := by simp only [Reg.RC_DB_DISCARD, Reg.RC_STATUS]; omega
  refine ⟨?_, ?_, ?_, ?_⟩
  · rw [hdiscard, ← hu, State.rg_setF_of_ne _ hne, State.rg_setF_of_ne _ hne, State.rg_inc_same]
  · rw [State.on_congr (s := u) hstatus, ← hu, State.on_setF_apart _ (x := Reg.RC_STATUS_ERR_CODE r) (y := Reg.RC_STATUS_SQ_ERR r) rfl
      (by simp [Reg.RC_STATUS_SQ_ERR, Reg.RC_STATUS_ERR_CODE]) (by simp [Reg.RC_STATUS_ERR_CODE]) (by simp [Reg.RC_STATUS_SQ_ERR]),
      State.on_setF_one _ rfl (by simp [Reg.RC_STATUS_SQ_ERR])]
  · rw [State.fd_congr (s := u) hstatus, ← hu, State.fd_setF_same _ (by simp [Reg.RC_STATUS_ERR_CODE]) (by simp [Reg.RC_STATUS_ERR_CODE])]
    exact Nat.mod_eq_of_lt hcode
  · rw [← hu]
    exact (((((Reports.refl s).inc (by simp)).setF (by simp [Reg.RC_STATUS_SQ_ERR]) 1).setF (by simp [Reg.RC_STATUS_ERR_CODE]) code).instEvent
      (by simp) 5).irq (by simp) 3

/-! ### The checks of a bell -/

theorem State.sqBell_of_ring {s : State} {i loc : Nat} {v : BitVec 64} {r : Nat} (hbell : s.bellsOpen i) (hok : bellOk 8 v = true)
    (hring : s.ringAt true i loc = some r) (f : State → Nat → Word → State) : s.sqBell i loc 8 v f =
      if tailOk (v.extractLsb' 0 32) (s.rg (Reg.RC_SQ_TAIL r)) (s.rg (Reg.RC_SQ_HEAD r)) (s.fd (Reg.RC_CTRL_SQ_LOG2 r))
        then f s r (v.extractLsb' 0 32) else s.rangeError r i 1 := by
  rw [State.sqBell, State.bar2_of_bellsOpen hbell]
  simp only [hok, hring, Bool.not_true, Bool.false_eq_true, if_false]

theorem State.sqBell_of_noRing {s : State} {i loc : Nat} {v : BitVec 64} (hbell : s.bellsOpen i) (hok : bellOk 8 v = true)
    (hring : s.ringAt true i loc = none) (f : State → Nat → Word → State) : s.sqBell i loc 8 v f = s := by
  rw [State.sqBell, State.bar2_of_bellsOpen hbell]
  simp only [hok, hring, Bool.not_true, Bool.false_eq_true, if_false]

/-- The body of a BAR2 command that refuses a write of another size, or with a mismatch. -/
def Mismatches (s u : State) : Prop := u.rg Reg.FH_CPL_MISMATCH = s.rg Reg.FH_CPL_MISMATCH + 1 ∧ u.host = s.host ∧ SameArray s u ∧
  RegsBut s u [Reg.FH_CPL_MISMATCH, Reg.HL_DB_DISCARD, Reg.PC_SIG_DISCARD, Reg.IRQ_STATUS]

theorem State.cplMismatch_rg (s : State) {off : Nat} (hoff : Reg.FH_CPL_MISMATCH ≠ off) (stop unit detail : Nat) :
    (s.cplMismatch (some off) stop unit detail).rg Reg.FH_CPL_MISMATCH = s.rg Reg.FH_CPL_MISMATCH + 1 := by
  change ((s.inc off).inc Reg.FH_CPL_MISMATCH).rg _ = _
  rw [State.rg_inc_same, State.rg_inc_of_ne _ hoff]

theorem State.badBell_mismatches (s : State) (i : Nat) : Mismatches s (s.badBell i) := by
  have hframe : Reports (· ∈ [Reg.FH_CPL_MISMATCH, Reg.HL_DB_DISCARD, Reg.PC_SIG_DISCARD, Reg.IRQ_STATUS]) s (s.badBell i) :=
    ((Reports.refl s).cplMismatch (by simp) (by simp) ..).irq (by simp) 3
  refine ⟨?_, hframe.host, hframe.sameArray, hframe.regsBut fun _ h => h⟩
  rw [State.badBell, State.irq_rg _ _ (by decide), State.cplMismatch_rg _ (by decide)]

theorem State.badSignal_mismatches (s : State) (i : Nat) : Mismatches s (s.cplMismatch (some Reg.PC_SIG_DISCARD) (hubStop 0) 15 i) := by
  have hframe : Reports (· ∈ [Reg.FH_CPL_MISMATCH, Reg.HL_DB_DISCARD, Reg.PC_SIG_DISCARD, Reg.IRQ_STATUS]) s
      (s.cplMismatch (some Reg.PC_SIG_DISCARD) (hubStop 0) 15 i) := (Reports.refl s).cplMismatch (by simp) (by simp) ..
  exact ⟨s.cplMismatch_rg (by decide) .., hframe.host, hframe.sameArray, hframe.regsBut fun _ h => h⟩

/-- Each BAR2 command is a body under the checks of BAR2, and its body answers a bad bell by a mismatch. -/
theorem exec_bar2 {s : State} {i loc : Fin 64} {c : Fin 4096} {n : Nat} {v : BitVec 64} {x : Instr}
    (hx : x ∈ [Instr.sqDoorbell i loc n v, .cqDoorbell i loc n v, .stagedTailWrite i loc n v, .counterSignal i c n v]) :
    ∃ f : State → State, exec x s = .next (s.bar2 i f) ∧ (bellOk n v = false → Mismatches s (f s)) := by
  simp only [List.mem_cons, List.not_mem_nil, or_false] at hx
  obtain rfl | rfl | rfl | rfl := hx
  · refine ⟨_, rfl, fun hbad => ?_⟩
    simp only [hbad, Bool.not_false, if_true]
    exact s.badBell_mismatches i
  · refine ⟨_, rfl, fun hbad => ?_⟩
    simp only [hbad, Bool.not_false, if_true]
    exact s.badBell_mismatches i
  · refine ⟨_, rfl, fun hbad => ?_⟩
    simp only [hbad, Bool.not_false, if_true]
    exact s.badBell_mismatches i
  · refine ⟨_, rfl, fun hbad => ?_⟩
    simp only [hbad, Bool.not_false, if_true]
    exact s.badSignal_mismatches i

/-- Settles O32: after the checks of BAR2 and of the bell, a position in range is stored, and another is a range error. -/
theorem doorbellsMoveTheirPositions : Obligations.DoorbellsMoveTheirPositions := by
  refine ⟨?sq, ?none, ?cq, ?signal, ?refused⟩
  case sq =>
    intro s i loc v r hbell hok hring t0
    have hdoor : exec (.sqDoorbell i loc 8 v) s = .next (s.sqBell i loc 8 v fun s r t => s.newTail r t) := rfl
    have hstage : exec (.stagedTailWrite i loc 8 v) s =
      .next (s.sqBell i loc 8 v fun s r t => s.setRing r { s.ring r with stagedTail := some t.toNat }) := rfl
    rw [State.sqBell_of_ring hbell hok hring] at hdoor hstage
    refine ⟨fun htail => ?_, fun htail => ?_⟩
    · rw [if_pos htail] at hdoor hstage
      refine ⟨⟨_, hdoor, s.newTail_spec r t0⟩, fun heq => ?_, _, hstage, ?_, rfl, fun k hk => ?_⟩
      · rw [Passes, hdoor, State.newTail, if_pos heq]
      · rw [State.ring, State.setRing, tget_tput, if_pos rfl]
      · rw [State.ring, State.setRing, tget_tput, if_neg hk, State.ring]
    · rw [if_neg (by rw [htail]; decide)] at hdoor hstage
      obtain ⟨hcount, herr, hcode, hframe⟩ := s.rangeError_spec r i 1 (by decide)
      have hresult (c : Instr) (hc : exec c s = .next (s.rangeError r i 1)) : After c s fun t => t.rg (Reg.RC_DB_DISCARD r) = s.rg (Reg.RC_DB_DISCARD r) + 1 ∧
          t.on (Reg.RC_STATUS_SQ_ERR r) = true ∧ t.fd (Reg.RC_STATUS_ERR_CODE r) = 1 ∧ t.host = s.host ∧ SameArray s t ∧
          RegsBut s t [Reg.RC_DB_DISCARD r, Reg.RC_STATUS r, Reg.INST_EVENTS i, Reg.IRQ_STATUS] :=
        ⟨_, hc, hcount, herr, hcode, hframe.host, hframe.sameArray, hframe.regsBut fun _ h => h⟩
      intro c hc
      simp only [List.mem_cons, List.not_mem_nil, or_false] at hc
      obtain rfl | rfl := hc
      · exact hresult _ hdoor
      · exact hresult _ hstage
  case none =>
    intro s i loc v hbell hok hring
    have hdoor : exec (.sqDoorbell i loc 8 v) s = .next (s.sqBell i loc 8 v fun s r t => s.newTail r t) := rfl
    have hstage : exec (.stagedTailWrite i loc 8 v) s =
      .next (s.sqBell i loc 8 v fun s r t => s.setRing r { s.ring r with stagedTail := some t.toNat }) := rfl
    rw [State.sqBell_of_noRing hbell hok hring] at hdoor hstage
    exact ⟨hdoor, hstage⟩
  case cq =>
    intro s i loc v r hbell hok hring h ok
    have hexec : exec (.cqDoorbell i loc 8 v) s = .next (if ok then ((s.wrg (Reg.RC_CQ_HEAD r) h).showRoom r).wakeTrigger else s.rangeError r i 2) := by
      change execCqDoorbell i loc 8 v s = _
      rw [execCqDoorbell, State.bar2_of_bellsOpen hbell]
      simp only [hok, hring, Bool.not_true, Bool.false_eq_true, if_false]
      rfl
    refine ⟨fun hin => ?_, fun hout => ?_⟩
    · rw [if_pos hin] at hexec
      obtain ⟨hwake, hwakeRg⟩ := ((s.wrg (Reg.RC_CQ_HEAD r) h).showRoom r).wakeTrigger_frame
      refine ⟨_, hexec, ?_, ?_, ?_, ?_, fun o ho => ?_⟩
      · rw [hwakeRg _ (by simp only [List.mem_cons, List.not_mem_nil, or_false, Reg.RC_CQ_HEAD, Reg.PWR_STATUS]; omega), State.showRoom,
          State.rg_setF_of_ne _ (by simp only [Reg.RC_CQ_HEAD, Reg.RC_STATUS_CQ_FULL, Reg.RC_STATUS]; omega), State.rg_wrg, if_pos rfl]
      · rw [hwake]; rfl
      · rw [hwake]; exact ⟨rfl, rfl⟩
      · rw [hwake]; rfl
      · simp only [List.mem_cons, List.not_mem_nil, or_false, not_or] at ho
        rw [hwakeRg o (by simpa using ho.2.2), State.showRoom, State.rg_setF_of_ne _ ho.2.1, State.rg_wrg_of_ne _ ho.1]
    · rw [if_neg hout] at hexec
      obtain ⟨-, herr, hcode, hframe⟩ := s.rangeError_spec r i 2 (by decide)
      refine ⟨_, hexec, hframe.regs _ ?_, herr, hcode, hframe.host, hframe.sameArray⟩
      simp only [List.mem_cons, List.not_mem_nil, or_false, Reg.RC_CQ_HEAD, Reg.RC_DB_DISCARD, Reg.RC_STATUS, Reg.INST_EVENTS, Reg.IRQ_STATUS]
      omega
  case signal =>
    intro s i c v hbell hok
    have hexec : exec (.counterSignal i c 8 v) s = .next (if v.extractLsb' 0 32 = 0 then s else if ! s.pcOwned c i then s.inc Reg.PC_SIG_REFUSED
        else s.advancePc c (v.extractLsb' 0 32).toNat (hostNode i)) := by
      change execCounterSignal i c 8 v s = _
      rw [execCounterSignal, State.bar2_of_bellsOpen hbell]
      simp only [hok, Bool.not_true, Bool.false_eq_true, if_false]
    refine ⟨fun hzero => ?_, fun hinc howner => ?_⟩
    · rw [Passes, hexec, if_pos hzero]
    · rw [hexec, if_neg hinc, howner]; rfl
  case refused =>
    intro s i loc c n v x hx
    obtain ⟨f, hexec, hbad⟩ := exec_bar2 (s := s) hx
    refine ⟨fun hbell hmis => ?_, fun hreset => ?_, fun hreset hready => ?_⟩
    · exact ⟨_, by rw [hexec, State.bar2_of_bellsOpen hbell], hbad hmis⟩
    · rw [hexec, State.bar2_of_reset hreset]
    · rw [hexec, State.bar2_of_notReady hreset hready]

end Sys2Proof.Machine

/-! Cluster counters: advances, waits and mirrors (R292 to R296, R301), setting by hand (R321, R326), lending and traced waits (R318, R322). -/

namespace Sys2Proof.Machine

/-! ### The value and the source of a counter -/

theorem State.setCc_rg_of_ne (s : State) (n i v src : Nat) {o : Nat} (hlo : o ≠ Reg.CC_LO n i) (hhi : o ≠ Reg.CC_HI n i) :
    (s.setCc n i v src).rg o = s.rg o := by
  rw [State.setCc, State.rg_wrg_of_ne _ hhi, State.rg_wrg_of_ne _ hlo]

theorem State.setCc_rg_hi (s : State) (n i v src : Nat) :
    (s.setCc n i v src).rg (Reg.CC_HI n i) = BitVec.ofNat 32 (src % 2 ^ 16 * 2 ^ 16 + v / 2 ^ 32 % 2 ^ 16) := by
  rw [State.setCc, State.rg_wrg, if_pos rfl]

theorem State.cc_setCc (s : State) (n i : Nat) {v : Nat} (hv : v ≤ counterMax) (src : Nat) : (s.setCc n i v src).cc n i = v := by
  have hlo : (s.setCc n i v src).rg (Reg.CC_LO n i) = lo32 v := by
    rw [State.setCc, State.rg_wrg_of_ne _ (by simp only [Reg.CC_LO, Reg.CC_HI]; omega), State.rg_wrg, if_pos rfl]
  have hhi : (s.setCc n i v src).fd (Reg.CC_HI_VALUE n i) = v / 2 ^ 32 % 2 ^ 16 := by
    rw [State.fd, show (Reg.CC_HI_VALUE n i).off = Reg.CC_HI n i from rfl, State.setCc_rg_hi, bits, BitVec.extractLsb'_toNat, BitVec.toNat_ofNat]
    simp only [Reg.CC_HI_VALUE, Nat.shiftRight_eq_div_pow]
    omega
  rw [State.cc, hlo, hhi, lo32, BitVec.toNat_ofNat]
  unfold counterMax at hv
  omega

theorem State.fd_setCc_src (s : State) (n i v : Nat) {src : Nat} (hsrc : src < 2 ^ 16) :
    (s.setCc n i v src).fd (Reg.CC_HI_LAST_SRC n i) = src := by
  rw [State.fd, show (Reg.CC_HI_LAST_SRC n i).off = Reg.CC_HI n i from rfl, State.setCc_rg_hi, bits, BitVec.extractLsb'_toNat, BitVec.toNat_ofNat]
  simp only [Reg.CC_HI_LAST_SRC, Nat.shiftRight_eq_div_pow]
  omega

theorem clusterStop_lt {n : Nat} (h : n < 576) : clusterStop n < 2 ^ 16 := by
  simp only [clusterStop]
  omega

/-! ### Pairs that do not drift -/

theorem State.cc_congr {s t : State} (h : ∀ o, t.rg o = s.rg o) (n i : Nat) : t.cc n i = s.cc n i := by
  rw [State.cc, State.cc, h, State.fd_congr (h _)]

/-- Drift looks at planes and registers alone. -/
theorem State.pairDrift_congr {s t : State} {n : Nat} (hplanes : (t.cl n).planes = (s.cl n).planes) (hrg : ∀ o, t.rg o = s.rg o)
    (e : Nat × Nat × Nat) : t.pairDrift n e = s.pairDrift n e := by
  have hplane : (t.cl n).plane e.1 = (s.cl n).plane e.1 := by rw [ClusterSt.plane, ClusterSt.plane, hplanes]
  simp only [State.pairDrift, hplane, State.cc_congr hrg]

theorem ClusterSt.pairs_congr {c d : ClusterSt} (h : d.planes = c.planes) : d.pairs = c.pairs := by
  unfold ClusterSt.pairs ClusterSt.plane
  rw [h]

theorem State.checkPairs_of_none {s : State} {n : Nat} (h : ∀ e ∈ (s.cl n).pairs, s.pairDrift n e = none) (i slot : Nat) :
    s.checkPairs n i slot = s := by
  unfold State.checkPairs
  dsimp only
  rw [List.find?_eq_none.mpr]
  intro e he
  simp [h e (List.mem_of_mem_filter he)]

theorem State.setCc_rg_congr {s t : State} (h : ∀ o, t.rg o = s.rg o) (n i v src o : Nat) : (t.setCc n i v src).rg o = (s.setCc n i v src).rg o := by
  rw [State.setCc, State.setCc, State.rg_wrg, State.rg_wrg, State.rg_wrg, State.rg_wrg, h]

theorem State.activity_rg (s : State) (n : Nat) (delivery : Bool) (o : Nat) : (s.activity n delivery).rg o = s.rg o := rfl
theorem State.activity_fd (s : State) (n : Nat) (delivery : Bool) (x : Fld) : (s.activity n delivery).fd x = s.fd x := rfl
theorem State.activity_cc (s : State) (n : Nat) (delivery : Bool) (m i : Nat) : (s.activity n delivery).cc m i = s.cc m i := rfl
theorem State.activity_cl (s : State) (n : Nat) (delivery : Bool) (m : Nat) : (s.activity n delivery).cl m = s.cl m := rfl
theorem State.activity_rdB (s : State) (n : Nat) (delivery : Bool) (a : Nat) : (s.activity n delivery).rdB a = s.rdB a := rfl
theorem State.activity_outbox (s : State) (n : Nat) (delivery : Bool) : (s.activity n delivery).outbox = s.outbox := rfl
theorem State.activity_clusters (s : State) (n : Nat) (delivery : Bool) : (s.activity n delivery).clusters = s.clusters := rfl

/-- The state in which these outputs have been sent. -/
def State.sent (s : State) (l : List Output) : State := { s with outbox := s.outbox ++ l }

theorem State.sent_rg (s : State) (l : List Output) (o : Nat) : (s.sent l).rg o = s.rg o := rfl
theorem State.sent_fd (s : State) (l : List Output) (x : Fld) : (s.sent l).fd x = s.fd x := rfl
theorem State.sent_cc (s : State) (l : List Output) (m i : Nat) : (s.sent l).cc m i = s.cc m i := rfl
theorem State.sent_cl (s : State) (l : List Output) (m : Nat) : (s.sent l).cl m = s.cl m := rfl
theorem State.sent_rdB (s : State) (l : List Output) (a : Nat) : (s.sent l).rdB a = s.rdB a := rfl
theorem State.sent_outbox (s : State) (l : List Output) : (s.sent l).outbox = s.outbox ++ l := rfl

/-- A counter takes a value on a cluster whose pairs do not drift and where no context waits: the counter and the deadlock window differ. -/
theorem State.mirrorTake_of_quiet {s : State} {n i v src : Nat} (hless : s.cc n i < v)
    (hpairs : ∀ e ∈ (s.cl n).pairs, (s.setCc n i v src).pairDrift n e = none) (hquiet : (s.cl n).quiet) :
    s.mirrorTake n i v src = (s.setCc n i v src).activity n false := by
  have hcl : ((s.setCc n i v src).activity n false).cl n = s.cl n := by rw [State.activity_cl, State.setCc_cl]
  have hdrift : ∀ e ∈ (((s.setCc n i v src).activity n false).cl n).pairs, ((s.setCc n i v src).activity n false).pairDrift n e = none := by
    intro e he
    rw [hcl] at he
    exact (State.pairDrift_congr (by rw [State.activity_cl]) (fun o => State.activity_rg ..) e).trans (hpairs e he)
  rw [State.mirrorTake, if_pos hless, State.checkPairs_of_none hdrift, State.wake_of_quiet (by rw [hcl]; exact hquiet)]

/-- What a mirror's new value leaves. -/
theorem State.setCc_activity_spec (s : State) {n i v src : Nat} (hv : v ≤ counterMax) (hsrc : src < 2 ^ 16) :
    let t := (s.setCc n i v src).activity n false
    t.cc n i = v ∧ t.fd (Reg.CC_HI_LAST_SRC n i) = src ∧ t.clusters = s.clusters ∧ t.outbox = s.outbox ∧
      RegsBut s t [Reg.CC_LO n i, Reg.CC_HI n i] ∧ SameDram s t := by
  refine ⟨?_, ?_, ?_, ?_, fun o ho => ?_, fun a => ?_⟩
  · rw [State.activity_cc, s.cc_setCc n i hv src]
  · rw [State.activity_fd, s.fd_setCc_src n i v hsrc]
  · rw [State.activity_clusters, State.setCc_clusters]
  · rw [State.activity_outbox, State.setCc_outbox]
  · simp only [List.mem_cons, List.not_mem_nil, or_false, not_or] at ho
    rw [State.activity_rg, s.setCc_rg_of_ne n i v src ho.1 ho.2]
  · rw [State.activity_rdB, State.setCc_rdB]

/-! ### CSIG and CWAIT -/

/-- The state in which a slot of context k has moved on. -/
def State.passed (s : State) (n k : Nat) : State := (s.upCl n fun c => { c with stepOne := false }).pass n k

theorem State.passed_cl_same (s : State) (n k : Nat) : (s.passed n k).cl n = ({ s.cl n with stepOne := false } : ClusterSt).advance k 1 := by
  rw [State.passed, State.pass, State.cl_upCl_same, State.cl_upCl_same]

theorem State.passed_cl_of_ne (s : State) {n m : Nat} (h : m ≠ n) (k : Nat) : (s.passed n k).cl m = s.cl m := by
  rw [State.passed, State.pass, State.cl_upCl, if_neg h, State.cl_upCl, if_neg h]

theorem State.passed_ctxSet (s : State) (n k : Nat) : CtxSet (s.cl n) ((s.passed n k).cl n) k ((s.cl n).ctx k).next := by
  rw [State.passed_cl_same]
  exact CtxSet.setCtx { s.cl n with stepOne := false } k _

theorem State.passed_moved (s : State) (n k : Nat) : Moved s (s.passed n k) n k ((s.cl n).ctx k).next := by
  refine ⟨⟨rfl, fun m hm => s.passed_cl_of_ne hm k⟩, ?_, s.passed_ctxSet n k⟩
  rw [State.passed_cl_same]
  rfl

/-- Moving on leaves no context waiting where none waits. -/
theorem State.passed_quiet {s : State} {n : Nat} (h : (s.cl n).quiet) (k : Nat) : ((s.passed n k).cl n).quiet := by
  intro j hj
  obtain ⟨hsame, hother⟩ := s.passed_ctxSet n k
  by_cases hjk : j = k
  · subst hjk
    rw [hsame]
    exact h j hj
  · rw [hother j hjk]
    exact h j hj

/-- The cluster counter of a binding. -/
theorem State.advanceBinding_own {s u : State} {n k b inc slot : Nat} {p : Plane} (hplane : (u.cl n).plane (k / 4) = p) (hkind : p.cb b 0 30 29 = 0)
    (hplanes : (u.cl n).planes = (s.cl n).planes) (hrg : ∀ o, u.rg o = s.rg o)
    (hmax : s.cc n (p.counter b (k % 4)) + inc ≤ counterMax) (hquiet : (u.cl n).quiet)
    (hpairs : ∀ e ∈ (s.cl n).pairs,
      (s.setCc n (p.counter b (k % 4)) (s.cc n (p.counter b (k % 4)) + inc) (clusterStop n)).pairDrift n e = none) :
    u.advanceBinding n k b inc slot = ((u.setCc n (p.counter b (k % 4)) (s.cc n (p.counter b (k % 4)) + inc) (clusterStop n)).activity n false).sent
      (if p.cb b 1 31 31 = 1 then [.mirrorUpdate (p.cb b 1 30 22)
        (p.cb b 1 21 16 + if p.cb b 0 28 28 = 1 then k % 4 else 0) (s.cc n (p.counter b (k % 4)) + inc)] else []) := by
  have hcc : u.cc n (p.counter b (k % 4)) = s.cc n (p.counter b (k % 4)) := State.cc_congr hrg ..
  have hsent (t : State) (o : Output) (ho : o.disabled = false) : (if p.cb b 1 31 31 = 1 then t.emit o else t) =
      t.sent (if p.cb b 1 31 31 = 1 then [o] else []) := by
    split
    · exact t.emit_of_enabled (by rw [ho, Bool.and_false])
    · rw [State.sent, List.append_nil]
  unfold State.advanceBinding
  simp only [hplane, hkind, hcc, Nat.min_eq_left hmax, if_neg (Nat.not_lt.mpr hmax)]
  rw [hsent _ _ rfl]
  generalize (if p.cb b 1 31 31 = 1 then [Output.mirrorUpdate (p.cb b 1 30 22) (p.cb b 1 21 16 + if p.cb b 0 28 28 = 1 then k % 4 else 0)
    (s.cc n (p.counter b (k % 4)) + inc)] else []) = sent
  generalize s.cc n (p.counter b (k % 4)) + inc = v at hpairs
  have hcl (w : Nat) : (((u.setCc n (p.counter b (k % 4)) w (clusterStop n)).activity n false).sent sent).cl n = u.cl n := by
    rw [State.sent_cl, State.activity_cl, State.setCc_cl]
  rw [State.checkPairs_of_none, State.wake_of_quiet]
  · rw [hcl]
    exact hquiet
  · intro e he
    rw [hcl, ClusterSt.pairs_congr hplanes] at he
    refine (State.pairDrift_congr ?_ (fun o => ?_) e).trans (hpairs e he)
    · rw [hcl, State.setCc_cl, hplanes]
    · rw [State.sent_rg, State.activity_rg, State.setCc_rg_congr hrg]

theorem exec_csig_of_issues {s : State} {n : Fin 576} {k : Nat} {x : SlotCtl} {on : Bool} (h : s.issues n k x on) (b : Fin 64) (inc : BitVec 16) :
    exec (.csig n x b inc) s = .next (if on then (s.passed n k).advanceBinding n k b inc.toNat ((s.cl n).ctx k).slotPtr else s.passed n k) := by
  change execCsig n x b inc s = _
  rw [execCsig, State.issue_of_issues h, State.cl_upCl_same]
  rfl

theorem exec_cwait_of_issues {s : State} {n : Fin 576} {k : Nat} {x : SlotCtl} {on : Bool} (h : s.issues n k x on) (b ref : Fin 64) (rel : Bool)
    (off : BitVec 32) : exec (.cwait n x b ref rel off) s = .next (if ! on || s.counterMet n k b ref rel off.toNat then s.passed n k
      else (s.upCl n fun c => { c with stepOne := false }).waitAt n k (.counter b ref rel off.toNat) x) := by
  have hmet : (s.upCl n fun c => { c with stepOne := false }).counterMet n k b ref rel off.toNat = s.counterMet n k b ref rel off.toNat := by
    simp only [State.counterMet, State.bindVal, State.cl_upCl_same]
    rfl
  change execCwait n x b ref rel off s = _
  rw [execCwait, State.issue_of_issues h, hmet]
  rfl

/-- Settles O20: an advance or a mirror's value that causes no drift and meets no wait changes its counter alone. -/
theorem clusterCountersAdvanceAndAreWaitedFor : Obligations.ClusterCountersAdvanceAndAreWaitedFor := by
  refine ⟨?own, ?staged, ?off, ?met, ?waits, ?mirror, ?pkg⟩
  case own =>
    intro s n k x b inc hissues c p i v hkind hmax _ hpairs hquiet
    have hcl := s.passed_cl_same n k
    have hadvance := State.advanceBinding_own (s := s) (u := s.passed n k) (n := n) (k := k) (b := b) (inc := inc.toNat)
      (slot := ((s.cl n).ctx k).slotPtr) (p := p) (by rw [hcl]; rfl) hkind (by rw [hcl]; rfl) (fun _ => rfl) hmax (State.passed_quiet hquiet k) hpairs
    have hexec := exec_csig_of_issues hissues b inc
    rw [if_pos rfl, hadvance] at hexec
    obtain ⟨-, hmoved, -⟩ := s.passed_moved n k
    have hcl' (m : Nat) (w : Nat) (l : List Output) :
        ((((s.passed n k).setCc n i w (clusterStop n)).activity n false).sent l).cl m = (s.passed n k).cl m := by
      rw [State.sent_cl, State.activity_cl, State.setCc_cl]
    refine ⟨_, hexec, ?_, ?_, ?_, ?_, fun m hm => ?_, ?_, fun o ho => ?_, fun a => ?_⟩
    · rw [State.sent_cc, State.activity_cc]
      exact State.cc_setCc _ n i hmax _
    · rw [State.sent_fd, State.activity_fd]
      exact State.fd_setCc_src _ n i v (clusterStop_lt n.isLt)
    · rw [hcl']
      exact s.passed_ctxSet n k
    · rw [hcl']
      exact hmoved
    · rw [hcl', s.passed_cl_of_ne hm k]
    · rw [State.sent_outbox, State.activity_outbox, State.setCc_outbox]
      rfl
    · simp only [List.mem_cons, List.not_mem_nil, or_false, not_or] at ho
      rw [State.sent_rg, State.activity_rg, State.setCc_rg_of_ne _ _ _ _ _ ho.1 ho.2]
      rfl
    · rw [State.sent_rdB, State.activity_rdB, State.setCc_rdB]
      rfl
  case staged =>
    intro s n k x b inc y hissues c p hkind hstep
    have hcl := s.passed_cl_same n k
    have hplane : ((s.passed n k).cl n).plane (k / 4) = p := by rw [hcl]; rfl
    have hadvance : (s.passed n k).advanceBinding n k b inc.toNat ((s.cl n).ctx k).slotPtr = (s.passed n k).setStep (some { y with
        staged := y.staged ++ [⟨n, k, if p.cb b 0 30 29 = 3 then some (p.cb b 1 13 0) else none, p.cb b 0 11 0, inc.toNat⟩] }) := by
      unfold State.advanceBinding
      simp only [hplane]
      have hnet : (s.passed n k).net.step = some y := hstep
      split
      · omega
      · omega
      · simp only [hnet]
    have hexec := exec_csig_of_issues hissues b inc
    rw [if_pos rfl, hadvance] at hexec
    exact ⟨_, hexec, s.passed_ctxSet n k, rfl, rfl, rfl, rfl⟩
  case off =>
    intro s n k x b inc hissues
    exact ⟨_, exec_csig_of_issues hissues b inc, s.passed_moved n k⟩
  case met =>
    intro s n k x on b ref rel off hissues hgo
    have hgo' : (! on || s.counterMet n k b ref rel off.toNat) = true := by rcases hgo with h | h <;> simp [h]
    have hexec := exec_cwait_of_issues hissues b ref rel off
    rw [if_pos hgo'] at hexec
    exact ⟨_, hexec, s.passed_moved n k⟩
  case waits =>
    intro s n k x b ref rel off hissues hmet
    have hexec := exec_cwait_of_issues hissues b ref rel off
    rw [hmet, if_neg (by decide)] at hexec
    refine ⟨_, hexec, ⟨rfl, fun m hm => ?_⟩, ?_⟩
    · rw [State.waitAt, State.cl_upCl, if_neg hm, State.cl_upCl, if_neg hm]
    · rw [State.waitAt, State.cl_upCl_same, State.cl_upCl_same]
      exact ClusterSt.waitFor_ctxSet { s.cl n with stepOne := false } k _ _
  case mirror =>
    intro s n k v step attempt inst gen src c hfenced hgen hstep hattempt hreleased hless hpairs hquiet
    have hnotHeld : (decide (step.toNat = (c.step + 1) % 256) || (s.net.step.any fun x =>
        ! x.released.contains n.val && step.toNat == x.number % 256 && attempt.toNat == x.attempt % 256)) = false := by
      have hne : ¬ step.toNat = (c.step + 1) % 256 := by omega
      cases hnet : s.net.step with
      | none => simp [hne]
      | some x => simp only [hne, decide_false, Option.any_some, hreleased x hnet]; rfl
    have hexec : exec (.mirrorUpdate n k v false step attempt inst gen src) s = .next ((s.setCc n k v.toNat src.toNat).activity n false) := by
      change execMirrorUpdate n k v false step attempt inst gen src s = _
      simp only [execMirrorUpdate, hfenced, hgen, Bool.false_eq_true, if_false, ne_eq, not_true]
      rw [if_neg (by rw [hnotHeld]; decide), if_pos ⟨hstep, hattempt⟩, State.mirrorTake_of_quiet hless hpairs hquiet]
    exact ⟨_, hexec, s.setCc_activity_spec (Nat.le_sub_one_of_lt v.isLt) src.isLt⟩
  case pkg =>
    intro s n k v inst gen c hfenced hgen hless hpairs hquiet
    have hexec : exec (.pkgMirrorUpdate n k v false inst gen) s = .next ((s.setCc n k v.toNat (hubStop 6)).activity n false) := by
      change execPkgMirrorUpdate n k v false inst gen s = _
      simp only [execPkgMirrorUpdate, hfenced, hgen, Bool.false_eq_true, if_false, ne_eq, not_true]
      rw [State.mirrorTake_of_quiet hless hpairs hquiet]
    obtain ⟨hcc, -, hcl, hout, hregs, hdram⟩ := s.setCc_activity_spec (n := n) (i := k) (src := hubStop 6) (Nat.le_sub_one_of_lt v.isLt) (by decide)
    exact ⟨_, hexec, hcc, hcl, hout, hregs, hdram⟩

end Sys2Proof.Machine

/-! PC_CTRL, setting by hand, lending and traced waits (R318, R321, R322, R325). -/

namespace Sys2Proof.Machine

theorem State.pcIrq_clusters (s : State) (i : Nat) : (s.pcIrq i).clusters = s.clusters := by rw [State.pcIrq_eq]
theorem State.pcIrq_rdB (s : State) (i a : Nat) : (s.pcIrq i).rdB a = s.rdB a := by rw [State.rdB, State.pcIrq_eq, State.rdB]

/-- A setting that the registers give: below 2^48, as their widths say. -/
theorem State.cntSet_value_le (s : State) : (s.rg Reg.CNT_SET_VAL_LO).toNat + 2 ^ 32 * s.fd Reg.CNT_SET_VAL_HI_VALUE ≤ counterMax := by
  have hlo := (s.rg Reg.CNT_SET_VAL_LO).isLt
  have hhi : s.fd Reg.CNT_SET_VAL_HI_VALUE < 2 ^ 16 := BitVec.isLt _
  unfold counterMax
  omega

/-- A setting by hand of a cluster counter that its rule lets through, on a cluster where it causes no drift and meets no wait. -/
theorem State.cntSet_cluster {s : State}
    (hlo : s.rg Reg.CNT_SET_VAL_N_LO = ~~~(s.rg Reg.CNT_SET_VAL_LO))
    (hhi : s.fd Reg.CNT_SET_VAL_N_HI_VALUE_N = 65535 - s.fd Reg.CNT_SET_VAL_HI_VALUE) (hpkg : s.on Reg.CNT_SET_TARGET_PKG = false) {n i v : Nat}
    (hv : v = (s.rg Reg.CNT_SET_VAL_LO).toNat + 2 ^ 32 * s.fd Reg.CNT_SET_VAL_HI_VALUE) (hn : n = s.fd Reg.CNT_SET_TARGET_PCLUSTER)
    (hi : i = s.fd Reg.CNT_SET_TARGET_INDEX) (hn' : n < 576) (hi' : i < 64) (hfenced : s.isFenced n = false)
    (hlocked : (s.cl n).counterLocked i = false) (hless : s.cc n i < v)
    (hpairs : ∀ e ∈ (s.cl n).pairs, (s.setCc n i v (s.fd (Reg.CC_HI_LAST_SRC n i))).pairDrift n e = none) (hquiet : (s.cl n).quiet) :
    s.cntSet = (s.setCc n i v (s.fd (Reg.CC_HI_LAST_SRC n i))).setDone 0 := by
  have hcl : (s.setCc n i v (s.fd (Reg.CC_HI_LAST_SRC n i))).cl n = s.cl n := State.setCc_cl ..
  have hdrifts : (s.setCc n i v (s.fd (Reg.CC_HI_LAST_SRC n i))).rg (Reg.CC_DRIFTS n) = s.rg (Reg.CC_DRIFTS n) :=
    s.setCc_rg_of_ne n i v _ (by simp only [Reg.CC_DRIFTS, Reg.CC_LO]; omega) (by simp only [Reg.CC_DRIFTS, Reg.CC_HI]; omega)
  have hcheck : (s.setCc n i v (s.fd (Reg.CC_HI_LAST_SRC n i))).checkPairs n i 0 = s.setCc n i v (s.fd (Reg.CC_HI_LAST_SRC n i)) :=
    State.checkPairs_of_none (by rw [hcl]; exact hpairs) i 0
  have hwake : (s.setCc n i v (s.fd (Reg.CC_HI_LAST_SRC n i))).wake n = s.setCc n i v (s.fd (Reg.CC_HI_LAST_SRC n i)) :=
    State.wake_of_quiet (by rw [hcl]; exact hquiet)
  have hin : ¬ (576 ≤ n ∨ 64 ≤ i) := by omega
  unfold State.cntSet
  simp only [← hv, ← hn, ← hi, hlo, hhi, hpkg, beq_self_eq_true, Bool.and_self, Bool.not_true, Bool.false_eq_true, if_false, if_neg hin, hfenced,
    hlocked, Bool.or_self, if_neg (Nat.not_le.mpr hless), hcheck, hdrifts, ne_eq, not_true, hwake]

theorem State.setDone_rg_of_ne (s : State) (result : Nat) {o : Nat} (h : o ≠ Reg.CNT_SET_STATUS) : (s.setDone result).rg o = s.rg o := by
  rw [State.setDone, State.rg_setF_of_ne _ h, State.rg_setF_of_ne _ h]

theorem State.setDone_status (s : State) : (s.setDone 0).on Reg.CNT_SET_STATUS_DONE = true ∧ (s.setDone 0).fd Reg.CNT_SET_STATUS_RESULT = 0 := by
  rw [State.setDone]
  refine ⟨?_, by rw [State.fd_setF_same _ (by decide) (by decide)]; rfl⟩
  rw [State.on_setF_apart _ (x := Reg.CNT_SET_STATUS_RESULT) (y := Reg.CNT_SET_STATUS_DONE) rfl (by decide) (by decide) (by decide),
    State.on_setF_one _ rfl (by decide)]

/-- Settles O21: each write is one of its rule's branches, whose effect the lemmas on counters give. -/
theorem countersAreSetByHandAndIdleClustersLend : Obligations.CountersAreSetByHandAndIdleClustersLend := by
  refine ⟨?plain, ?restart, ?bound, ?set, ?lend, ?trace⟩
  case plain =>
    intro s c v old new hopen hsame hvec harm
    have hexec := exec_pcCtrlWrite hopen hsame hvec
    rw [State.pcIrq_of_not_due (by rw [harm, Bool.false_and]; decide)] at hexec
    refine ⟨_, hexec, ⟨rfl, fun off hoff => ?_⟩, ?_⟩
    · rw [State.rg_plain, if_neg (by simpa using hoff)]
    · rw [State.rg_plain, if_pos rfl]
  case restart =>
    intro s c v hopen hchange hbound hvec
    have hexec : exec (.pcCtrlWrite c v) s = .next (State.pcIrq { (s.plain (Reg.PC_CTRL c) v).setPc c 0 with
        time := { s.time with watch := tdel s.time.watch c } } c) := by
      change execPcCtrlWrite c v s = _
      rw [execPcCtrlWrite, State.hostWrite_of_open hopen, State.pcCtrlWrite]
      simp only [hchange, hbound, decide_true, Bool.and_false, Bool.false_eq_true, if_false, hvec, if_true, ne_eq, not_false_iff]
      rfl
    refine ⟨_, hexec, ?_, ?_, fun a => ?_⟩
    · rw [State.pcIrq_pc]
      exact State.pc_setPc (s.plain (Reg.PC_CTRL c) v) c (by decide)
    · rw [State.pcIrq_clusters]
      rfl
    · rw [State.pcIrq_rdB]
      rfl
  case bound =>
    intro s c v hopen hchange hbound
    change execPcCtrlWrite c v s = _
    rw [execPcCtrlWrite, State.hostWrite_of_open hopen, State.pcCtrlWrite]
    simp only [hchange, hbound, decide_true, Bool.and_true, if_true, ne_eq, not_false_iff]
  case set =>
    intro s v n i hopen hlo hhi hpkg hn hi hfenced hlocked hless hpairs hquiet
    have hexec : exec .cntSetGo s = .next ((s.setCc n i v (s.fd (Reg.CC_HI_LAST_SRC n i))).setDone 0) := by
      change execCntSetGo s = _
      rw [execCntSetGo, State.hostWrite_of_open hopen, State.cntSet_cluster hlo hhi hpkg rfl rfl rfl hn hi hfenced hlocked hless hpairs hquiet]
    obtain ⟨hdone, hresult⟩ := (s.setCc n i v (s.fd (Reg.CC_HI_LAST_SRC n i))).setDone_status
    have hccRg : Reg.CC_LO n i ≠ Reg.CNT_SET_STATUS ∧ Reg.CC_HI n i ≠ Reg.CNT_SET_STATUS := by
      simp only [Reg.CC_LO, Reg.CC_HI, Reg.CNT_SET_STATUS]
      omega
    refine ⟨_, hexec, ?_, hdone, hresult, ?_, fun a => ?_, fun o ho => ?_⟩
    · rw [State.cc, State.setDone_rg_of_ne _ _ hccRg.1, State.fd_congr (x := Reg.CC_HI_VALUE n i) (State.setDone_rg_of_ne _ _ hccRg.2)]
      exact s.cc_setCc n i s.cntSet_value_le _
    · rw [State.setDone, State.setF_clusters, State.setF_clusters, State.setCc_clusters]
    · rw [State.setDone, State.setF_rdB, State.setF_rdB, State.setCc_rdB]
    · simp only [List.mem_cons, List.not_mem_nil, or_false, not_or] at ho
      rw [State.setDone_rg_of_ne _ _ ho.2.2, s.setCc_rg_of_ne n i v _ ho.1 ho.2.1]
  case lend =>
    intro s n c hlend hfenced hhalt hfixed hrunning hswitching hidle
    change execLendStart n s = _
    simp only [c] at *
    have hmay : ((s.cl n).lending.isSome || s.isFenced n || s.on (Reg.SEQ_DEBUG_HALT n) || s.on Reg.PWR_CTRL_MODE || (s.cl n).running.isSome ||
        (s.cl n).switching.isSome || ! (s.cl n).unitsIdle) = false := by
      rw [hlend, hfenced, hhalt, hfixed, hrunning, hswitching, hidle]
      rfl
    simp only [execLendStart]
    rw [if_neg (by rw [hmay]; decide)]
    rfl
  case trace =>
    intro s n p c k j l
    have hexec : exec (.traceNotice n p c k true) s = .next (s.traceShow k l) := by
      change execTraceNotice n p c k true s = _
      simp only [execTraceNotice, if_true, State.traceStart, if_pos k.isLt]
      rfl
    have hfirst : Reg.TR_WAITERS k ≠ Reg.TR_FIRST k := by simp only [Reg.TR_WAITERS, Reg.TR_FIRST]; omega
    have htarget : Reg.TR_WAITERS k ≠ Reg.TR_TARGET k := by simp only [Reg.TR_WAITERS, Reg.TR_TARGET]; omega
    refine ⟨_, hexec, ?_, ?_, rfl, fun _ => rfl, fun o ho => ?_⟩
    · exact (tget_tput ..).trans (if_pos rfl)
    · rw [State.traceShow, State.fd_congr (x := Reg.TR_WAITERS_COUNT k) ((State.rg_wrg_of_ne _ htarget _).trans (State.rg_wrg_of_ne _ hfirst _)),
        State.fd_setF_same _ (by simp [Reg.TR_WAITERS_COUNT]) (by simp [Reg.TR_WAITERS_COUNT])]
      exact Nat.mod_eq_of_lt (by simp only [Reg.TR_WAITERS_COUNT]; omega)
    · simp only [List.mem_cons, List.not_mem_nil, or_false, not_or] at ho
      rw [State.traceShow, State.rg_wrg_of_ne _ ho.2.2, State.rg_wrg_of_ne _ ho.2.1, State.rg_setF_of_ne _ ho.1]
      rfl

end Sys2Proof.Machine

/-! Proofs about the DRAM controllers (01_six_levels.md, R37 to R39; 15_dram_and_store.md, R489 to R496): accesses, merging, repairs and
zeroing. -/

namespace Sys2Proof.Machine

/-! ### Controllers and bytes -/

/-- What a finished shutdown does not disable is sent. -/
theorem State.emit_of_undisabled (s : State) {o : Output} (h : o.disabled = false) : s.emit o = { s with outbox := s.outbox ++ [o] } :=
  s.emit_of_enabled (by rw [h, Bool.and_false])

theorem State.ctl_setCtl (s : State) (st k : Nat) (c : DramCtl) : (s.setCtl st c).ctl k = if k = st then c else s.ctl k := by
  unfold State.ctl State.setCtl
  exact tget_tput ..

theorem State.ctl_setCtl_same (s : State) (st : Nat) (c : DramCtl) : (s.setCtl st c).ctl st = c := by rw [s.ctl_setCtl, if_pos rfl]

theorem State.ctl_congr {s t : State} (h : t.mem.ctl = s.mem.ctl) (k : Nat) : t.ctl k = s.ctl k := by rw [State.ctl, h, State.ctl]

theorem State.wrB_eq (s : State) (a : Nat) (v : Byte) : s.wrB a v = { s with dram := (s.wrB a v).dram } := by
  unfold State.wrB
  split <;> rfl

theorem State.wrBytes_eq (s : State) (a : Nat) (l : List Byte) : s.wrBytes a l = { s with dram := (s.wrBytes a l).dram } := by
  induction l generalizing s a with
  | nil => rfl
  | cons x l ih =>
    rw [State.wrBytes, ih, s.wrB_eq]

/-! ### Merge entries (R37, R38) -/

/-- A write closes the entries of the lines that it touches. -/
theorem closeEntries_closed {a len l : Nat} {es : List MergeEntry} (hlo : a / 64 ≤ l) (hhi : l < (a + len + 63) / 64) :
    ∀ e ∈ closeEntries a len es, e.line = l → e.joinable = false := by
  intro e he hline
  obtain ⟨e₀, -, rfl⟩ := List.mem_map.1 he
  split at hline
  · rw [if_pos (by assumption)]
  · rename_i hout
    exact absurd ⟨hline ▸ hlo, hline ▸ hhi⟩ hout

theorem closeEntries_requesters (a len : Nat) (es : List MergeEntry) : (closeEntries a len es).map (·.requesters) = es.map (·.requesters) := by
  rw [closeEntries, List.map_map]
  refine List.map_congr_left fun e _ => ?_
  change MergeEntry.requesters (if _ then _ else _) = _
  split <;> rfl

/-- A read that joins is with an entry of its line. -/
theorem joinRead_some {line : Nat} {r : Nat × Nat × Nat} {es es' : List MergeEntry} (h : joinRead line r es = some es') :
    (∃ e ∈ es', e.line = line ∧ r ∈ e.requesters) ∧ ∃ y ∈ es, y.line = line ∧ y.joinable = true := by
  induction es generalizing es' with
  | nil => cases h
  | cons e es ih =>
    rw [joinRead] at h
    split at h
    next hopen =>
      cases h
      exact ⟨⟨_, List.mem_cons_self .., hopen.1, List.mem_append_right _ (List.mem_singleton_self _)⟩, e, List.mem_cons_self .., hopen⟩
    next =>
      obtain ⟨es₁, hjoin, rfl⟩ := Option.map_eq_some_iff.1 h
      obtain ⟨⟨x, hx, hxline⟩, y, hy, hyline⟩ := ih hjoin
      exact ⟨⟨x, List.mem_cons_of_mem _ hx, hxline⟩, y, List.mem_cons_of_mem _ hy, hyline⟩

/-- What the arrival of a read leaves: its line is read with the requester, and nothing but its controller differs. -/
theorem State.readArrive_spec (s : State) (st src i gen a : Nat) :
    s.readArrive st src i gen a = { s with mem := { s.mem with ctl := (s.readArrive st src i gen a).mem.ctl } } ∧
    (∀ k, k ≠ st → (s.readArrive st src i gen a).ctl k = s.ctl k) ∧
    ∃ e ∈ ((s.readArrive st src i gen a).ctl st).reads, e.line = a / 64 ∧ (src, i, gen) ∈ e.requesters ∧
      ((∀ y ∈ (s.ctl st).reads, y.line = a / 64 → y.joinable = false) → e.data = s.rdBytes (a / 64 * 64) 64 ∧
        ((s.readArrive st src i gen a).ctl st).reads = (s.ctl st).reads ++ [e]) := by
  unfold State.readArrive
  dsimp only
  split
  next es hjoin =>
    obtain ⟨⟨e, he, hline, hreq⟩, y, hy, hyline, hopen⟩ := joinRead_some hjoin
    refine ⟨rfl, fun k hk => by rw [State.ctl_setCtl, if_neg hk], e, ?_, hline, hreq, fun hclosed => ?_⟩
    · rw [State.ctl_setCtl_same]
      exact he
    · exact absurd hopen (by rw [hclosed y hy hyline]; decide)
  next =>
    generalize decide ((List.filter (fun e => e.joinable) (s.ctl st).reads).length < 64) = opens
    refine ⟨rfl, fun k hk => by rw [State.ctl_setCtl, if_neg hk],
      ⟨a / 64, s.rdBytes (a / 64 * 64) 64, opens, opens, share src a false, [(src, i, gen)]⟩, ?_, rfl,
      List.mem_singleton_self _, fun _ => ⟨rfl, ?_⟩⟩
    · rw [State.ctl_setCtl_same]
      exact List.mem_append_right _ (List.mem_singleton_self _)
    · rw [State.ctl_setCtl_same]

/-- A line lies in one page of 2 MiB, so an access to a line demands that page or none. -/
theorem line_pages (a : Nat) : (a / 64 * 64 % 2 ^ 21 + 64 + 2 ^ 21 - 1) / 2 ^ 21 = 1 ∧ a / 64 * 64 / 2 ^ 21 = a / 2 ^ 21 := by omega

/-- A line of a page that is not zeroed is not ready, and its page is demanded. -/
theorem State.line_of_unzeroed {s : State} {a : Nat} (h : s.pageZeroed (a / 2 ^ 21) = false) :
    s.rangeReady (a / 64 * 64) 64 = false ∧ a / 2 ^ 21 ∈ (s.demand (a / 64 * 64) 64).mem.demand := by
  obtain ⟨hcount, hpage⟩ := line_pages a
  constructor
  · rw [State.rangeReady, hcount, hpage, List.range_one, List.all_cons, Nat.add_zero, h]
    rfl
  · dsimp only [State.demand]
    rw [hcount, hpage]
    by_cases hin : s.mem.demand.contains (a / 2 ^ 21) = true
    · exact List.mem_append_left _ (List.contains_iff_mem.1 hin)
    · refine List.mem_append_right _ (List.mem_filter.2 ⟨?_, ?_⟩)
      · exact List.mem_map.2 ⟨0, by simp, rfl⟩
      · rw [h, Bool.eq_false_iff.2 hin]
        rfl

/-- The requesters whose generation stands are answered in order (R39). -/
theorem State.replyRead_eq (s : State) (e : MergeEntry) : s.replyRead e =
    { s with outbox := s.outbox ++ ((e.requesters.filter fun r => s.gen r.2.1 == r.2.2).map fun r => .dramReply r.1 e.line e.data) } := by
  unfold State.replyRead State.each
  generalize s.gen = gen
  induction e.requesters generalizing s with
  | nil =>
    rw [List.filter_nil, List.map_nil, List.append_nil]
    rfl
  | cons r rs ih =>
    rw [List.foldl_cons, List.filter_cons]
    split
    · rw [State.emit_of_undisabled s rfl, ih, List.map_cons, List.append_assoc, List.singleton_append]
    · exact ih s

/-- A write that takes effect changes its bytes alone, closes its line's entries, takes its page's tag away and is acknowledged. -/
theorem State.writeTake_spec (s : State) (st src a : Nat) (data : List Byte) :
    let t := s.writeTake st src a data
    (∀ k, k < data.length → a + k < dramSize → t.rdB (a + k) = data.getD k 0#8) ∧
    (∀ b, b < a ∨ a + data.length ≤ b → t.rdB b = s.rdB b) ∧ (∀ e ∈ (t.ctl st).reads, e.line = a / 64 → data ≠ [] → e.joinable = false) ∧
    tget 0 t.mem.tags (a / 4096) = 0 ∧ t.outbox = s.outbox ++ [.dramAck src a] ∧ t.regs = s.regs ∧ t.clusters = s.clusters := by
  let u := s.setCtl st { s.ctl st with reads := closeEntries a data.length (s.ctl st).reads }
  have hwrite : s.writeTake st src a data = { u with
      dram := (u.wrBytes a data).dram, mem := { u.mem with tags := tdel u.mem.tags (a / 4096) }, outbox := s.outbox ++ [.dramAck src a] } := by
    unfold State.writeTake
    dsimp only
    rw [State.emit_of_undisabled _ rfl, u.wrBytes_eq]
    rfl
  intro t
  have hrdB (b : Nat) : t.rdB b = if a ≤ b ∧ b < a + data.length ∧ b < dramSize then data.getD (b - a) 0#8 else s.rdB b := by
    change (s.writeTake st src a data).rdB b = _
    rw [hwrite]
    exact u.rdB_wrBytes a b data
  have hctl : t.ctl st = { s.ctl st with reads := closeEntries a data.length (s.ctl st).reads } := by
    change (s.writeTake st src a data).ctl st = _
    rw [hwrite]
    exact s.ctl_setCtl_same ..
  refine ⟨fun k hk hlt => ?_, fun b hb => ?_, fun e he hline hne => ?_, ?_, ?_, ?_, ?_⟩
  · rw [hrdB, if_pos ⟨by omega, by omega, hlt⟩, Nat.add_sub_cancel_left]
  · rw [hrdB, if_neg (by omega)]
  · rw [hctl] at he
    have hlen := List.length_pos_iff.2 hne
    exact closeEntries_closed (Nat.le_refl _) (by omega) e he hline
  · rw [show t = _ from hwrite]
    exact (tget_tdel ..).trans (if_pos rfl)
  · rw [show t = _ from hwrite]
  · rw [show t = _ from hwrite]
    rfl
  · rw [show t = _ from hwrite]
    rfl

/-- Settles O28: a write takes effect, a read joins or opens an entry or waits, a window ends, and a clean read answers its requesters, each
by what its arm does where its checks pass. -/
theorem dramServesReadsAndWrites : Obligations.DramServesReadsAndWrites := by
  unfold Obligations.DramServesReadsAndWrites
  refine ⟨?write, ?stale, ?read, ?noStorage, ?unzeroed, ?window, ?complete⟩
  case write =>
    intro s st src i gen addr data a hgen ha hready hheld
    have hfresh : s.writeFresh i gen.toNat none = true := by simp [State.writeFresh, hgen]
    have hgo : ¬ (!s.rangeReady a data.length || s.held st a) = true := by rw [hready, hheld]; decide
    have hexec : exec (.dramWriteArrive st src i gen none addr data) s = .next (s.writeTake st src.toNat a data) := by
      change execDramWriteArrive .. = _
      simp only [execDramWriteArrive, Option.map_none, hfresh]
      rw [if_neg (by decide), if_neg (Nat.not_le.2 ha), if_neg hgo]
    exact ⟨_, hexec, s.writeTake_spec ..⟩
  case stale =>
    intro s st src i gen at? addr data hgen
    change execDramWriteArrive .. = _
    have hfresh : s.writeFresh i gen.toNat (at?.map (·.toNat)) = false := by
      unfold State.writeFresh
      rw [Bool.and_eq_false_iff]
      exact .inl (by simpa using Ne.symm hgen)
    simp [execDramWriteArrive, hfresh]
  case read =>
    intro s st req i gen addr a ha hready hheld
    have hgo : ¬ (!s.rangeReady (a / 64 * 64) 64 || s.held st a) = true := by rw [hready, hheld]; decide
    have hexec : exec (.dramReadArrive st req i gen addr) s = .next (s.readArrive st req.toNat i gen.toNat a) := by
      change execDramReadArrive .. = _
      simp only [execDramReadArrive]
      rw [if_neg (Nat.not_le.2 ha), if_neg hgo]
    exact ⟨_, hexec, s.readArrive_spec ..⟩
  case noStorage =>
    intro s st req i gen addr ha
    change execDramReadArrive .. = _
    simp [execDramReadArrive, ha]
  case unzeroed =>
    intro s st req i gen addr ha hpage
    obtain ⟨hready, hdemand⟩ := State.line_of_unzeroed hpage
    have hexec : exec (.dramReadArrive st req i gen addr) s =
        .next { s.demand (addr.toNat / 64 * 64) 64 with
          mem := { (s.demand (addr.toNat / 64 * 64) 64).mem with waiting := s.mem.waiting ++ [⟨req.toNat, i, gen.toNat, addr.toNat, false, []⟩] } } := by
      change execDramReadArrive .. = _
      simp only [execDramReadArrive, if_neg (Nat.not_le.2 ha), hready]
      rfl
    exact ⟨_, hexec, rfl, hdemand, rfl⟩
  case window =>
    intro s st line
    refine ⟨_, rfl, ?_, ?_, rfl, fun k hk => by rw [State.ctl_setCtl, if_neg hk]⟩
    · rw [State.ctl_setCtl_same]
      exact closeEntries_closed (by omega) (by omega)
    · rw [State.ctl_setCtl_same]
      exact closeEntries_requesters ..
  case complete =>
    intro s st k row pc retries use again e he
    let t := s.incN (Reg.DRAM_LINK_RETRY st) retries
    let c := t.ctl st
    let u := t.setCtl st { c with reads := c.reads.eraseIdx k, pcRows := tput (s.ctl st).pcRows row pc }
    have hexec : exec (.dramReadComplete st k .clean row pc retries use again) s = .next (u.replyRead e) := by
      change execDramReadComplete st k .clean row pc retries use again s = _
      simp only [execDramReadComplete, he]
      rfl
    have hgen (i : Nat) : u.gen i = s.gen i := State.fd_congr (s.rg_wrg_of_ne (by
      unfold Reg.INST_STATUS_GENERATION Reg.INST_STATUS Reg.DRAM_LINK_RETRY
      dsimp only
      omega) _)
    rw [State.replyRead_eq] at hexec
    simp only [hgen] at hexec
    refine ⟨_, hexec, rfl, ?_, rfl, ⟨rfl, fun off hoff => ?_⟩, ?_⟩
    · exact congrArg DramCtl.reads (t.ctl_setCtl_same ..)
    · exact s.rg_wrg_of_ne (by simpa using hoff) _
    · exact (s.rg_incN ..).trans (if_pos rfl)

/-! ### Repairs and zeroing (R493, R496) -/

theorem State.serveWaiting_of_none {s : State} (h : s.mem.waiting = []) : s.serveWaiting = s := by
  have hstay : ({ s with mem := { s.mem with waiting := [] } } : State) = s := by rw [← h]
  unfold State.serveWaiting
  rw [h, hstay]
  rfl

theorem OnlyRegs.refl (s : State) (l : List Nat) : OnlyRegs s s l := ⟨rfl, fun _ _ => rfl⟩

theorem OnlyRegs.trans {s t u : State} {l : List Nat} (h : OnlyRegs s t l) (k : OnlyRegs t u l) : OnlyRegs s u l := by
  obtain ⟨hrest, hrg⟩ := h
  obtain ⟨krest, krg⟩ := k
  exact ⟨by rw [krest, hrest], fun o ho => (krg o ho).trans (hrg o ho)⟩

theorem OnlyRegs.wrg {s t : State} {l : List Nat} (h : OnlyRegs s t l) {off : Nat} (hoff : off ∈ l) (v : Word) : OnlyRegs s (t.wrg off v) l :=
  h.trans ⟨rfl, fun o ho => t.rg_wrg_of_ne (by rintro rfl; exact ho hoff) v⟩

theorem OnlyRegs.setF {s t : State} {l : List Nat} (h : OnlyRegs s t l) {x : Fld} (hoff : x.off ∈ l) (k : Nat) : OnlyRegs s (t.setF x k) l :=
  h.wrg hoff _

theorem OnlyRegs.ite {s t u : State} {l : List Nat} {p : Prop} [Decidable p] (ht : OnlyRegs s t l) (hu : OnlyRegs s u l) :
    OnlyRegs s (if p then t else u) l := by
  split
  · exact ht
  · exact hu

theorem OnlyRegs.mono {s t : State} {l l' : List Nat} (h : OnlyRegs s t l) (hl : l ⊆ l') : OnlyRegs s t l' := ⟨h.1, fun o ho => h.2 o fun hin => ho (hl hin)⟩

/-- A status field of a stack below which RETIRED lies leaves RETIRED. -/
theorem State.retired_setF (s : State) (st hi lo k : Nat) (hlo : 14 < lo) (hle : lo ≤ hi) :
    (s.setF ⟨Reg.DRAM_STATUS st, hi, lo⟩ k).fd (Reg.DRAM_STATUS_RETIRED st) = s.fd (Reg.DRAM_STATUS_RETIRED st) :=
  s.fd_setF_apart (x := ⟨Reg.DRAM_STATUS st, hi, lo⟩) (y := Reg.DRAM_STATUS_RETIRED st) rfl (.inr hlo) hle (Nat.zero_le 14) k

/-- The check of a pseudo-channel writes its stack's status, not its count of retired pages, and reports. -/
theorem State.checkPseudoChannel_spec (s : State) (st pc n limit : Nat) : ∃ u r, s.checkPseudoChannel st pc n limit = { u with repair := r } ∧
    OnlyRegs s u [Reg.DRAM_STATUS st] ∧ u.fd (Reg.DRAM_STATUS_RETIRED st) = s.fd (Reg.DRAM_STATUS_RETIRED st) := by
  have hstatus : Reg.DRAM_STATUS st ∈ [Reg.DRAM_STATUS st] := List.mem_singleton_self _
  unfold State.checkPseudoChannel
  split
  next => exact ⟨s, s.repair, rfl, .refl .., rfl⟩
  next =>
    split
    next =>
      split
      next => exact ⟨s, s.repair, rfl, .refl .., rfl⟩
      next => exact ⟨_, _, rfl, (OnlyRegs.refl ..).setF hstatus _, s.retired_setF st 31 31 _ (by decide) (by decide)⟩
    next =>
      refine ⟨_, _, rfl, ((OnlyRegs.refl ..).setF hstatus _).setF hstatus _, ?_⟩
      exact (State.retired_setF _ st 29 25 _ (by decide) (by decide)).trans (s.retired_setF st 24 24 _ (by decide) (by decide))

theorem le_skipZeroed (z : List Nat) (f n : Nat) : n ≤ skipZeroed z f n := by
  induction f generalizing n with
  | zero => exact Nat.le_refl _
  | succ f ih =>
    rw [skipZeroed]
    split
    · exact Nat.le_of_succ_le (ih (n + 1))
    · exact Nat.le_refl _

/-- A memory filtered by its keys reads its default at the keys left out, and as before at the others. -/
theorem tget_filter_key {α : Type} (d : α) (t : Table α) (p : Nat → Bool) (k : Nat) :
    tget d (t.filter fun e => p e.1) k = if p k then tget d t k else d := by
  induction t with
  | nil => rw [List.filter_nil, tget, ite_self]
  | cons e t ih =>
    obtain ⟨j, v⟩ := e
    by_cases hjk : j = k
    · subst hjk
      by_cases hp : p j = true
      · rw [List.filter_cons, if_pos hp, if_pos hp, tget, tget, if_pos rfl, if_pos rfl]
      · rw [List.filter_cons, if_neg hp, ih, if_neg hp, if_neg hp]
    · have htail : tget d ((j, v) :: t) k = tget d t k := if_neg hjk
      rw [htail, ← ih, List.filter_cons]
      split
      · exact if_neg hjk
      · rfl

/-- After a page is zeroed its bytes read 0, and every other as before. -/
theorem State.rdB_zeroPage (s : State) (p a : Nat) :
    (s.zeroPage p).rdB a = if p * 2 ^ 21 ≤ a ∧ a < (p + 1) * 2 ^ 21 then 0#8 else s.rdB a := by
  refine (tget_filter_key (0#8 : Byte) s.dram (fun j => !decide (p * 2 ^ 21 ≤ j ∧ j < (p + 1) * 2 ^ 21)) a).trans ?_
  simp only [Bool.not_eq_true', decide_eq_false_iff_not, ite_not]
  rfl

/-- The engine's book-keeping when page p is done (R496). -/
def DramSt.pageDone (m : DramSt) (p : Nat) : DramSt :=
  let zl := if p < m.zeroNext then m.zeroed else p :: m.zeroed
  let zn := skipZeroed zl (zl.length + 1) m.zeroNext
  { m with
    zeroNext := zn, zeroed := zl.filter (fun q => decide (zn ≤ q)), zeroBusy := none, demand := m.demand.filter (· ≠ p)
    instZero := (m.instZero.map fun e => (e.1, e.2.filter (· ≠ p))).filter (fun e => decide (e.2 ≠ [])) }

theorem DramSt.pageDone_zeroed (m : DramSt) (p : Nat) : p < (m.pageDone p).zeroNext ∨ p ∈ (m.pageDone p).zeroed := by
  unfold DramSt.pageDone
  dsimp only
  by_cases hpast : p < m.zeroNext
  · exact .inl (Nat.lt_of_lt_of_le hpast (le_skipZeroed ..))
  · rw [if_neg hpast]
    by_cases hnext : p < skipZeroed (p :: m.zeroed) ((p :: m.zeroed).length + 1) m.zeroNext
    · exact .inl hnext
    · exact .inr (List.mem_filter.2 ⟨List.mem_cons_self .., decide_eq_true (Nat.not_lt.1 hnext)⟩)

theorem DramSt.pageDone_demand (m : DramSt) (p : Nat) : p ∉ (m.pageDone p).demand := by
  intro hp
  simpa using (List.mem_filter.1 hp).2

theorem DramSt.pageDone_instZero (m : DramSt) (p : Nat) : ∀ e ∈ (m.pageDone p).instZero, p ∉ e.2 := by
  intro e he hp
  obtain ⟨e₀, -, rfl⟩ := List.mem_map.1 (List.mem_filter.1 he).1
  simpa using (List.mem_filter.1 hp).2

/-- The registers that a zeroed page writes: DRAM_ZEROING of the instances it was the last page of, and ZERO_STATUS. -/
def State.pageShown (s : State) (ends : List (Nat × List Nat)) (was : Bool) : State :=
  let t := s.each ends fun u e => u.setF (Reg.INST_STATUS_DRAM_ZEROING e.1) 0
  if was then t else t.setF Reg.ZERO_STATUS_PAGES_LEFT (t.fd Reg.ZERO_STATUS_PAGES_LEFT - 1)

theorem State.pageShown_onlyRegs (s : State) {ends : List (Nat × List Nat)} (hends : ∀ e ∈ ends, e.1 < 64) (was : Bool) :
    OnlyRegs s (s.pageShown ends was) (Reg.ZERO_STATUS :: (List.range 64).map Reg.INST_STATUS) := by
  have hin : ∀ e ∈ ends, Reg.INST_STATUS e.1 ∈ Reg.ZERO_STATUS :: (List.range 64).map Reg.INST_STATUS := fun e he =>
    List.mem_cons_of_mem _ (List.mem_map.2 ⟨e.1, List.mem_range.2 (hends e he), rfl⟩)
  have heach := OnlyRegs.each (offs := Reg.ZERO_STATUS :: (List.range 64).map Reg.INST_STATUS) s ends
    (f := fun u e => u.setF (Reg.INST_STATUS_DRAM_ZEROING e.1) 0)
    fun u e he => (OnlyRegs.refl ..).setF (x := Reg.INST_STATUS_DRAM_ZEROING e.1) (hin e he) 0
  exact heach.ite (heach.setF (List.mem_cons_self ..) _)

/-- The state in which page p is done, with the engine at its next page. -/
def State.pageEnd (s : State) (p : Nat) : State :=
  let ends := s.mem.instZero.filter fun e => decide (e.1 < 64) && e.2.contains p && decide (e.2.length = 1)
  let t := { s.zeroPage p with mem := s.mem.pageDone p }.pageShown ends (s.pageZeroed p)
  { t with mem := { t.mem with zeroBusy := t.nextZero } }.setF Reg.ZERO_STATUS_BUSY (b2n t.nextZero.isSome)

theorem execDramPageZeroed_eq {s : State} {p : Nat} (h : (s.mem.zeroBusy.orElse fun _ => s.nextZero) = some p) :
    execDramPageZeroed s = .next (s.pageEnd p).serveWaiting := by
  unfold execDramPageZeroed
  rw [h]
  rfl

theorem State.pageEnd_spec (s : State) (p : Nat) : ∃ z, s.pageEnd p =
    { s.zeroPage p with regs := (s.pageEnd p).regs, mem := { s.mem.pageDone p with zeroBusy := z } } ∧
    RegsBut s (s.pageEnd p) (Reg.ZERO_STATUS :: (List.range 64).map Reg.INST_STATUS) := by
  unfold State.pageEnd
  dsimp only
  generalize hends : s.mem.instZero.filter (fun e => decide (e.1 < 64) && e.2.contains p && decide (e.2.length = 1)) = ends
  have hlt : ∀ e ∈ ends, e.1 < 64 := by
    intro e he
    rw [← hends] at he
    have hkept := (List.mem_filter.1 he).2
    simp only [Bool.and_eq_true, decide_eq_true_eq] at hkept
    exact hkept.1.1
  obtain ⟨hrest, hrg⟩ := State.pageShown_onlyRegs { s.zeroPage p with mem := s.mem.pageDone p } hlt (s.pageZeroed p)
  generalize State.pageShown _ ends _ = t at hrest hrg ⊢
  refine ⟨t.nextZero, ?_, fun o ho => ?_⟩
  · rw [hrest]
    rfl
  · refine (State.rg_setF_of_ne _ (by rintro rfl; exact ho (List.mem_cons_self ..)) _).trans ?_
    exact hrg o ho

/-- Settles O29: a repair's end moves its page or row to those repaired and shows it, and a page's end zeroes it, each with no access to
serve. -/
theorem dramRepairsAndZeroing : Obligations.DramRepairsAndZeroing := by
  unfold Obligations.DramRepairsAndZeroing
  refine ⟨?retire, ?noCopy, ?spare, ?noSwap, ?migrate, ?noMigration, ?page, ?noPage⟩
  case retire =>
    intro s st p hcopy hlen hwait
    let pages := tput (s.ctl st).pcPages 0 (tget 0 (s.ctl st).pcPages 0 + 1)
    let c : DramCtl := { s.ctl st with copying := none, retired := (s.ctl st).retired ++ [p], pcPages := pages }
    let t := (s.setCtl st c).setF (Reg.DRAM_STATUS_RETIRED st) ((s.ctl st).retired.length + 1)
    obtain ⟨u, r, hcheck, ⟨hrest, hrg⟩, hretired⟩ := t.checkPseudoChannel_spec st 0 (tget 0 pages 0) 256
    have hexec : exec (.pageRetirementDone st) s = .next { u with repair := r } := by
      change execPageRetirementDone st s = _
      unfold execPageRetirementDone
      dsimp only
      rw [hcopy]
      refine (congrArg (fun v : State => Host.Outcome.next v.serveWaiting) hcheck).trans ?_
      rw [State.serveWaiting_of_none]
      rw [hrest]
      exact hwait
    have hctl (k : Nat) : u.ctl k = if k = st then c else s.ctl k := by
      rw [hrest]
      exact s.ctl_setCtl ..
    refine ⟨_, hexec, ?_, ?_, ?_, ?_, ?_, ?_, fun o ho => ?_, fun k hk => (hctl k).trans (if_neg hk)⟩
    · exact congrArg DramCtl.retired ((hctl st).trans (if_pos rfl))
    · exact congrArg DramCtl.copying ((hctl st).trans (if_pos rfl))
    · refine hretired.trans ((State.fd_setF_same _ (x := Reg.DRAM_STATUS_RETIRED st) (Nat.zero_le 14) (by decide : 14 < 32) _).trans ?_)
      exact Nat.mod_eq_of_lt hlen
    · rw [hrest]
      rfl
    · rw [hrest]
      rfl
    · rw [hrest]
      rfl
    · exact (hrg o ho).trans (State.rg_setF_of_ne _ (by rintro rfl; exact ho (List.mem_singleton_self _)) _)
  case noCopy =>
    intro s st hcopy
    change execPageRetirementDone st s = _
    unfold execPageRetirementDone
    dsimp only
    rw [hcopy]
  case spare =>
    intro s st r hswap hwait
    let c : DramCtl := { s.ctl st with swapping := none, spared := (s.ctl st).spared ++ [r] }
    let t := (s.setCtl st c).inc (Reg.DRAM_ROWS_SPARED st)
    have hne : Reg.DRAM_ROWS_SPARED st ≠ Reg.DRAM_STATUS st := by unfold Reg.DRAM_ROWS_SPARED Reg.DRAM_STATUS; omega
    let pc := tget 0 (s.ctl st).pcRows r
    obtain ⟨u, r', hcheck, ⟨hrest, hrg⟩, -⟩ :=
      t.checkPseudoChannel_spec st pc (c.spared.filter fun q => tget 0 c.pcRows q == pc).length 64
    have hexec : exec (.rowSwapDone st) s = .next { u with repair := r' } := by
      change execRowSwapDone st s = _
      unfold execRowSwapDone
      dsimp only
      rw [hswap]
      refine (congrArg (fun v : State => Host.Outcome.next v.serveWaiting) hcheck).trans ?_
      rw [State.serveWaiting_of_none]
      rw [hrest]
      exact hwait
    have hctl (k : Nat) : u.ctl k = if k = st then c else s.ctl k := by
      rw [hrest]
      exact s.ctl_setCtl ..
    refine ⟨_, hexec, ?_, ?_, ?_, ?_, ?_, ?_, fun o ho => ?_, fun k hk => (hctl k).trans (if_neg hk)⟩
    · exact congrArg DramCtl.spared ((hctl st).trans (if_pos rfl))
    · exact congrArg DramCtl.swapping ((hctl st).trans (if_pos rfl))
    · exact (hrg _ (by simpa using hne)).trans (State.rg_inc_same ..)
    · rw [hrest]
      rfl
    · rw [hrest]
      rfl
    · rw [hrest]
      rfl
    · obtain ⟨hstatus, hspared⟩ : o ≠ Reg.DRAM_STATUS st ∧ o ≠ Reg.DRAM_ROWS_SPARED st := by simpa using ho
      exact (hrg o (by simpa using hstatus)).trans (State.rg_inc_of_ne _ hspared)
  case noSwap =>
    intro s st hswap
    change execRowSwapDone st s = _
    unfold execRowSwapDone
    dsimp only
    rw [hswap]
  case migrate =>
    intro s st hon
    have hexec : exec (.pseudoChannelMigrateDone st) s =
        .next ((s.setF (Reg.DRAM_STATUS_MIGRATING st) 0).setF (Reg.DRAM_STATUS_SPARE_PC st) 1) := by
      change execPseudoChannelMigrateDone st s = _
      rw [execPseudoChannelMigrateDone, if_pos hon]
    have hstatus : Reg.DRAM_STATUS st ∈ [Reg.DRAM_STATUS st] := List.mem_singleton_self _
    refine ⟨_, hexec, ?_, ?_, ?_, ((OnlyRegs.refl ..).setF hstatus _).setF hstatus _⟩
    · refine (State.on_setF_apart _ (x := Reg.DRAM_STATUS_SPARE_PC st) (y := Reg.DRAM_STATUS_MIGRATING st) rfl (.inr (by decide : 24 < 30))
        (Nat.le_refl 30) (Nat.le_refl 24) _).trans ?_
      exact s.on_setF_zero (x := Reg.DRAM_STATUS_MIGRATING st) rfl (by decide : 24 < 32)
    · exact State.on_setF_one _ (x := Reg.DRAM_STATUS_SPARE_PC st) rfl (by decide : 30 < 32)
    · exact (State.retired_setF _ st 30 30 _ (by decide) (by decide)).trans (s.retired_setF st 24 24 _ (by decide) (by decide))
  case noMigration =>
    intro s st hon
    change execPseudoChannelMigrateDone st s = _
    rw [execPseudoChannelMigrateDone, if_neg (by rw [hon]; decide)]
  case page =>
    intro s p hp hwait
    have hnext : (s.mem.zeroBusy.orElse fun _ => s.nextZero) = some p := by
      rcases hp with hbusy | ⟨hbusy, hnext⟩
      · rw [hbusy]
        rfl
      · rw [hbusy]
        exact hnext
    obtain ⟨z, hend, hregs⟩ := s.pageEnd_spec p
    have hexec : exec .dramPageZeroed s = .next (s.pageEnd p) := by
      refine (execDramPageZeroed_eq hnext).trans ?_
      rw [State.serveWaiting_of_none]
      rw [hend]
      exact hwait
    refine ⟨_, hexec, fun a hlo hhi => ?_, fun a hout => ?_, ?_, ?_, ?_, ?_, ?_, hregs⟩
    · rw [hend]
      exact (s.rdB_zeroPage p a).trans (if_pos ⟨hlo, hhi⟩)
    · rw [hend]
      exact (s.rdB_zeroPage p a).trans (if_neg (by omega))
    · rw [hend, State.pageZeroed, Bool.or_eq_true, decide_eq_true_eq, List.contains_iff_mem]
      exact s.mem.pageDone_zeroed p
    · rw [hend]
      exact s.mem.pageDone_demand p
    · rw [hend]
      exact s.mem.pageDone_instZero p
    · rw [hend]
      rfl
    · rw [hend]
      rfl
  case noPage =>
    intro s hbusy hnext
    have hexec : exec .dramPageZeroed s = .next (s.setF Reg.ZERO_STATUS_BUSY 0) := by
      change execDramPageZeroed s = _
      unfold execDramPageZeroed
      rw [hbusy, hnext]
      rfl
    exact ⟨_, hexec, s.on_setF_zero rfl (by decide), (OnlyRegs.refl ..).setF (List.mem_singleton_self _) _⟩

end Sys2Proof.Machine

/-! Proofs about submission rings: descriptors fetched, and descriptors admitted (R368, R376 to R378). -/

namespace Sys2Proof.Machine

theorem State.ring_setRing (s : State) (r k : Nat) (x : RingSt) : (s.setRing r x).ring k = if k = r then x else s.ring k := by
  unfold State.ring State.setRing
  exact tget_tput ..

/-! ### Reads of the host's memory -/

/-- Nothing differs but what is sent and the reads of the host's memory that are outstanding. -/
def OnlyReads (s t : State) : Prop := t = { s with outbox := t.outbox, host := { s.host with reads := t.host.reads } }

section
variable {s t u : State}

theorem OnlyReads.trans (h : OnlyReads s t) (k : OnlyReads t u) : OnlyReads s u := by
  unfold OnlyReads at h k ⊢
  rw [k, h]

theorem State.issueRead_onlyReads (s : State) (use : ReadOf) (inst : Nat) (safe : Bool) : OnlyReads s (s.issueRead use inst safe) := by
  unfold State.issueRead
  split
  · rfl
  · rw [State.emit_eq]
    rfl

theorem State.issueFetch_onlyReads (s : State) (r : Nat) : OnlyReads s (s.issueFetch r) := s.issueFetch_frame r

theorem State.endRead_onlyReads (s : State) (use : ReadOf) : OnlyReads s (s.endRead use) := rfl

variable (h : OnlyReads s t)
include h

theorem OnlyReads.desc (id : Nat) : t.desc id = s.desc id := by rw [h]; rfl
theorem OnlyReads.descs : t.host.descs = s.host.descs := by rw [h]
theorem OnlyReads.ring (r : Nat) : t.ring r = s.ring r := by rw [h]; rfl
theorem OnlyReads.rg (o : Nat) : t.rg o = s.rg o := by rw [h]; rfl
theorem OnlyReads.sameArray : SameArray s t := by rw [h]; exact ⟨rfl, rfl⟩

end

/-! ### Fetching (R368) -/

/-- The descriptor that a fetch puts in flight. -/
def State.fetchedDesc (s : State) (r : Nat) (ws : List Word) (reject : Nat) : Desc :=
  { noDesc with
    ring := r, pos := (s.ring r).fetchPos, words := ws, inst := s.fd (Reg.RC_CTRL_OWNER r), gen := s.gen (s.fd (Reg.RC_CTRL_OWNER r))
    state := .fetched, rung := bellTime 0 0 (s.ring r).fetchPos (s.ring r).bells s.now, status := if reject = 0 then 0 else 4, detail := reject }

theorem State.takeFetched_spec (s : State) (r : Nat) (ws : List Word) (reject : Nat) :
    (s.takeFetched r ws reject).desc s.host.nextDesc = s.fetchedDesc r ws reject ∧
    (∀ j, j ≠ s.host.nextDesc → (s.takeFetched r ws reject).desc j = s.desc j) ∧
    (s.takeFetched r ws reject).ring r = { s.ring r with fetchPos := ((s.ring r).fetchPos + 1) % 2 ^ 32, failures := 0 } ∧
    (∀ o, (s.takeFetched r ws reject).rg o = s.rg o) ∧ SameArray s (s.takeFetched r ws reject) := by
  let u := s.setDesc s.host.nextDesc (s.fetchedDesc r ws reject)
  let v := { u with host := { u.host with nextDesc := u.host.nextDesc + 1 } }.setRing r
    { s.ring r with fetchPos := ((s.ring r).fetchPos + 1) % 2 ^ 32, failures := 0 }
  have hreads : OnlyReads v (s.takeFetched r ws reject) := (v.endRead_onlyReads (.fetch r)).trans (State.issueFetch_onlyReads _ r)
  have hdesc (j : Nat) : v.desc j = if j = s.host.nextDesc then s.fetchedDesc r ws reject else s.desc j := s.desc_setDesc ..
  refine ⟨?_, fun j hj => ?_, ?_, fun o => hreads.rg o, hreads.sameArray⟩
  · rw [hreads.desc, hdesc, if_pos rfl]
  · rw [hreads.desc, hdesc, if_neg hj]
  · rw [hreads.ring, State.ring_setRing, if_pos rfl]

/-- A fetch for a ring whose words may differ from their complement, which is counted and reported. -/
def State.checkedWords (s : State) (r : Nat) (ws : List Word) : State :=
  if ws.getD 1 0 == ~~~(ws.getD 0 0) then s else s.cplMismatch none (hubStop 0) 15 (s.fd (Reg.RC_CTRL_OWNER r))

theorem State.checkedWords_reports (s : State) (r : Nat) (ws : List Word) : Reports (· = Reg.FH_CPL_MISMATCH) s (s.checkedWords r ws) :=
  (Reports.refl s).ite ((Reports.refl (W := (· = Reg.FH_CPL_MISMATCH)) s).cplMismatch_none rfl ..)

theorem State.checkedWords_fetchedDesc (s : State) (r : Nat) (ws : List Word) :
    (s.checkedWords r ws).fetchedDesc r ws 18 = s.fetchedDesc r ws 18 := by
  have hframe := s.checkedWords_reports r ws
  have howner : (s.checkedWords r ws).fd (Reg.RC_CTRL_OWNER r) = s.fd (Reg.RC_CTRL_OWNER r) :=
    State.fd_congr (hframe.regs _ (by simp only [Reg.RC_CTRL_OWNER, Reg.RC_CTRL, Reg.FH_CPL_MISMATCH]; omega))
  have hgen (i : Nat) : (s.checkedWords r ws).gen i = s.gen i :=
    State.fd_congr (hframe.regs _ (by simp only [Reg.INST_STATUS_GENERATION, Reg.INST_STATUS, Reg.FH_CPL_MISMATCH]; omega))
  have hring : (s.checkedWords r ws).ring r = s.ring r := by rw [State.ring, hframe.host, State.ring]
  have hnow : (s.checkedWords r ws).now = s.now := by rw [hframe.rest]; rfl
  rw [State.fetchedDesc, howner, hgen, hring, hnow, State.fetchedDesc]

theorem execDescriptorFetch_of_due {s : State} {r : Fin 4096} (ws : List Word) (hen : s.on (Reg.RC_CTRL_SQ_EN r) = true)
    (hdue : (s.rg (Reg.RC_SQ_TAIL r)).toNat ≠ (s.ring r).fetchPos) : execDescriptorFetch r ws s =
      .next (if descOk ws (s.ring r).fetchPos then s.takeFetched r ws 0
        else if (s.ring r).failures < 3 then
          (((s.checkedWords r ws).setRing r { s.ring r with failures := (s.ring r).failures + 1 }).endRead (.fetch r)).issueFetch r
        else (s.checkedWords r ws).takeFetched r ws 18) := by
  unfold execDescriptorFetch
  dsimp only
  rw [if_neg (by simp [hen, hdue])]
  rfl

/-! ### Admission (R376 to R378) -/

/-- The descriptor that is admitted, or that ends where its checks rejected it. -/
def State.admittedDesc (s : State) (id : Nat) : Desc :=
  { s.desc id with
    state := if (s.desc id).status = 0 then .admitted else .ended, order := s.host.admitCount, gen := s.gen (s.desc id).inst
    hadDeadline := (s.desc id).opcode == 1 && bit ((s.desc id).w 4) 20 && (s.desc id).status == 0 }

/-- The state with a descriptor admitted and its deadline, if it has one, noted. -/
def State.admitNoted (s : State) (id : Nat) : State :=
  let d := s.desc id
  let t := s.setDesc id (s.admittedDesc id)
  let h := { t.host with admitCount := t.host.admitCount + 1 }
  { t with host := if d.opcode == 1 && bit (d.w 4) 20 && d.status == 0 then { h with deadlines := h.deadlines ++
    [⟨id, deadlineInstant s.now (bits (d.w 5) 23 0) (bits (d.w 4) 18 11), bit (d.w 4) 19⟩] } else h }

theorem State.admitNoted_spec (s : State) (id : Nat) :
    (∀ j, (s.admitNoted id).desc j = if j = id then s.admittedDesc id else s.desc j) ∧ (∀ r, (s.admitNoted id).ring r = s.ring r) := by
  constructor
  · intro j
    refine Eq.trans ?_ (s.desc_setDesc id (s.admittedDesc id) j)
    unfold State.admitNoted State.desc
    dsimp only
    split <;> rfl
  · intro r
    unfold State.admitNoted State.ring
    dsimp only
    split <;> rfl

/-- The state with the head advanced and a completion reserved at completion ring c. -/
def State.admitCounted (s : State) (id c : Nat) : State :=
  (((s.admitNoted id).inc (Reg.RC_SQ_HEAD (s.desc id).ring)).setRing c
    { (s.admitNoted id).ring c with reserved := ((s.admitNoted id).ring c).reserved + 1 }).showRoom c

theorem State.admitOne_onlyReads (s : State) (id : Nat) :
    OnlyReads (s.admitCounted id (s.fd (Reg.RC_SQ_LINK_CQ (s.desc id).ring))) (s.admitOne id) := by
  unfold State.admitOne
  dsimp only
  split
  · exact State.issueRead_onlyReads _ _ _ _
  · rfl

theorem State.admitOne_spec (s : State) (id : Nat) :
    let d := s.desc id
    let c := s.fd (Reg.RC_SQ_LINK_CQ d.ring)
    (s.admitOne id).rg (Reg.RC_SQ_HEAD d.ring) = s.rg (Reg.RC_SQ_HEAD d.ring) + 1 ∧ (s.admitOne id).desc id = s.admittedDesc id ∧
    (∀ j, j ≠ id → (s.admitOne id).desc j = s.desc j) ∧ ((s.admitOne id).ring c).reserved = (s.ring c).reserved + 1 ∧
    SameArray s (s.admitOne id) ∧ RegsBut s (s.admitOne id) [Reg.RC_SQ_HEAD d.ring, Reg.RC_STATUS c] := by
  intro d c
  have hreads := s.admitOne_onlyReads id
  obtain ⟨hdesc, hring⟩ := s.admitNoted_spec id
  have hrg (o : Nat) (ho : o ≠ Reg.RC_STATUS c) : (s.admitOne id).rg o = (s.inc (Reg.RC_SQ_HEAD d.ring)).rg o :=
    (hreads.rg o).trans (State.rg_setF_of_ne _ (x := Reg.RC_STATUS_CQ_FULL c) ho _)
  refine ⟨?_, ?_, fun j hj => ?_, ?_, hreads.sameArray, fun o ho => ?_⟩
  · rw [hrg _ (by simp only [Reg.RC_SQ_HEAD, Reg.RC_STATUS]; omega), State.rg_inc_same]
  · exact (hreads.desc id).trans ((hdesc id).trans (if_pos rfl))
  · exact (hreads.desc j).trans ((hdesc j).trans (if_neg hj))
  · rw [hreads.ring, ← hring c]
    exact congrArg RingSt.reserved ((State.ring_setRing _ c c _).trans (if_pos rfl))
  · simp only [List.mem_cons, List.not_mem_nil, or_false, not_or] at ho
    rw [hrg o ho.2, State.rg_inc_of_ne _ ho.1]

/-- The rings that the arbiter's round has left, or those of the next round. -/
def State.roundLeft (s : State) : List Nat :=
  let left := s.host.grants.filter fun r => s.ringActive r
  if left.isEmpty then (s.host.rings.map (·.1)).filter fun r => s.ringActive r else left

theorem execDescriptorAdmit_eq (r : Fin 4096) (s : State) : execDescriptorAdmit r s =
    .next (if s.roundLeft.contains r.val && ! s.admitHeld then
      match s.nextDesc r with
      | some id => { s with host := { s.host with grants := s.roundLeft.erase r.val } }.admitOne id
      | none => s
    else s) := rfl

theorem mem_keys_of_thas {α : Type} {t : Table α} {k : Nat} (h : thas t k = true) : k ∈ t.map (·.1) := by
  induction t with
  | nil => cases h
  | cons e t ih =>
    rw [List.map_cons]
    by_cases hk : e.1 = k
    · exact hk ▸ List.mem_cons_self ..
    · rw [thas, if_neg hk] at h
      exact List.mem_cons_of_mem _ (ih h)

theorem State.mem_roundLeft {s : State} {r : Nat} (hactive : s.ringActive r = true)
    (h : s.host.grants.contains r = true ∨ ((∀ k ∈ s.host.grants, s.ringActive k = false) ∧ thas s.host.rings r = true)) : r ∈ s.roundLeft := by
  unfold State.roundLeft
  dsimp only
  rcases h with hgrant | ⟨hnone, hring⟩
  · have hin : r ∈ s.host.grants.filter fun r => s.ringActive r := List.mem_filter.2 ⟨List.contains_iff_mem.1 hgrant, hactive⟩
    rw [if_neg (by rw [List.isEmpty_iff]; exact List.ne_nil_of_mem hin)]
    exact hin
  · have hempty : s.host.grants.filter (fun r => s.ringActive r) = [] :=
      List.filter_eq_nil_iff.2 fun k hk => by rw [hnone k hk]; decide
    rw [hempty, if_pos List.isEmpty_nil]
    exact List.mem_filter.2 ⟨mem_keys_of_thas hring, hactive⟩

theorem State.not_mem_roundLeft {s : State} {r k : Nat} (hgrant : k ∈ s.host.grants) (hactive : s.ringActive k = true) (hr : r ∉ s.host.grants) :
    r ∉ s.roundLeft := by
  have hin : k ∈ s.host.grants.filter fun r => s.ringActive r := List.mem_filter.2 ⟨hgrant, hactive⟩
  unfold State.roundLeft
  dsimp only
  rw [if_neg (by rw [List.isEmpty_iff]; exact List.ne_nil_of_mem hin)]
  exact fun h => hr (List.mem_filter.1 h).1

/-! ### The obligation -/

/-- Settles O33: a fetch that is due takes its words in or counts their failure, and the arbiter's turn admits the ring that its round has left. -/
theorem descriptorsAreFetchedAndAdmitted : Obligations.DescriptorsAreFetchedAndAdmitted := by
  unfold Obligations.DescriptorsAreFetchedAndAdmitted
  refine ⟨?taken, ?failed, ?notDue, ?admitted, ?held, ?otherRing⟩
  case taken =>
    intro s r ws x hen hdue hcheck
    have hexec : exec (.descriptorFetch r ws) s = _ := execDescriptorFetch_of_due ws hen hdue
    by_cases hok : descOk ws x.fetchPos = true
    · rw [if_pos hok] at hexec
      obtain ⟨hdesc, hother, hring, hrg, harray⟩ := s.takeFetched_spec r ws 0
      refine ⟨_, hexec, ?_⟩
      dsimp only
      rw [hdesc, hring, if_pos hok, if_pos hok]
      exact ⟨rfl, rfl, rfl, rfl, rfl, rfl, rfl, rfl, rfl, rfl, hother, harray, fun o _ => hrg o⟩
    · have hfail : x.failures = 3 := hcheck.resolve_left hok
      rw [if_neg hok, if_neg (by rw [show (s.ring r).failures = 3 from hfail]; decide)] at hexec
      have hframe := s.checkedWords_reports r ws
      have hhost := hframe.host
      obtain ⟨hdesc, hother, hring, hrg, harray⟩ := (s.checkedWords r ws).takeFetched_spec r ws 18
      rw [hhost, s.checkedWords_fetchedDesc] at hdesc
      rw [hhost] at hother
      have hstay : (s.checkedWords r ws).ring r = s.ring r := by rw [State.ring, hhost, State.ring]
      rw [hstay] at hring
      refine ⟨_, hexec, ?_⟩
      dsimp only
      rw [hdesc, hring, if_neg hok, if_neg hok]
      refine ⟨rfl, rfl, rfl, rfl, rfl, rfl, rfl, rfl, rfl, rfl, fun j hj => (hother j hj).trans ?_, hframe.sameArray.trans harray, ?_⟩
      · rw [State.desc, hhost, State.desc]
      · exact fun o ho => (hrg o).trans (hframe.regs o (by simpa using ho))
  case failed =>
    intro s r ws x hen hdue hbad hfew
    have hexec : exec (.descriptorFetch r ws) s = _ := execDescriptorFetch_of_due ws hen hdue
    rw [if_neg (by rw [show descOk ws (s.ring r).fetchPos = false from hbad]; decide), if_pos hfew] at hexec
    have hframe := s.checkedWords_reports r ws
    have hreads := (State.endRead_onlyReads ((s.checkedWords r ws).setRing r { s.ring r with failures := (s.ring r).failures + 1 }) (.fetch r)).trans
      (State.issueFetch_onlyReads _ r)
    refine ⟨_, hexec, ?_, ?_, ?_, ?_, ?_⟩
    · rw [hreads.ring, State.ring_setRing, if_pos rfl]
    · rw [hreads.ring, State.ring_setRing, if_pos rfl]
    · rw [hreads.descs]
      change (s.checkedWords r ws).host.descs = _
      rw [hframe.host]
    · exact hframe.sameArray.trans hreads.sameArray
    · exact fun o ho => (hreads.rg o).trans (hframe.regs o (by simpa using ho))
  case notDue =>
    intro s r ws hpos
    change execDescriptorFetch r ws s = _
    unfold execDescriptorFetch
    dsimp only
    rw [if_pos (by simp [hpos])]
  case admitted =>
    intro s r id d hactive hheld hnext hdesc hround hring
    subst hdesc
    have hexec : exec (.descriptorAdmit r) s = .next ({ s with host := { s.host with grants := s.roundLeft.erase r.val } }.admitOne id) := by
      refine (execDescriptorAdmit_eq r s).trans ?_
      rw [hheld, List.contains_iff_mem.2 (State.mem_roundLeft hactive hround), hnext]
      rfl
    obtain ⟨hhead, hadmitted, hother, hreserved, harray, hrg⟩ :=
      State.admitOne_spec { s with host := { s.host with grants := s.roundLeft.erase r.val } } id
    rw [← hring]
    refine ⟨_, hexec, hhead, ?_, ?_, ?_, hother, hreserved, harray, hrg⟩
    all_goals
      rw [hadmitted]
      rfl
  case held =>
    intro s r hheld
    refine (execDescriptorAdmit_eq r s).trans ?_
    rw [hheld, Bool.not_true, Bool.and_false]
    rfl
  case otherRing =>
    intro s r k hgrant hactive hr
    refine (execDescriptorAdmit_eq r s).trans ?_
    have hout : r.val ∉ s.roundLeft := State.not_mem_roundLeft hgrant hactive (by simpa using hr)
    rw [if_neg (by simp [hout])]

end Sys2Proof.Machine

/-! Proofs about completions (R380 to R384) and reads of the host's memory that time out (R385, R386). -/

namespace Sys2Proof.Machine

/-! ### Completions -/

theorem State.ring_setRing_same (s : State) (r : Nat) (x : RingSt) : (s.setRing r x).ring r = x := by rw [s.ring_setRing, if_pos rfl]

/-- The vector of a completion ring. -/
def State.cqVector (s : State) (c : Nat) : Output := .msix (s.fd (Reg.RC_CTRL_OWNER c)) (s.fd (Reg.RC_CQ_IRQ_VECTOR c))

theorem State.cqIrq_eq {s : State} (h : s.sends) (c : Nat) :
    s.cqIrq c = { s with outbox := s.outbox ++ [s.cqVector c] }.setRing c { s.ring c with sinceIrq := 0, coalFrom := none } := by
  rw [State.cqIrq, State.msix, State.emit_of_sends h]
  rfl

/-- Coalescing changes its ring's own counts, and may raise the ring's vector. -/
theorem State.coalesce_spec {s : State} (h : s.sends) (c : Nat) (irqBit : Bool) : ∃ more x,
    s.coalesce c irqBit = { s with outbox := s.outbox ++ more, host := { s.host with rings := x } } ∧
      (more = [] ∨ more = [s.cqVector c]) ∧ ((s.coalesce c irqBit).ring c).reserved = (s.ring c).reserved := by
  unfold State.coalesce
  split
  next => exact ⟨[], s.host.rings, by rw [List.append_nil], .inl rfl, rfl⟩
  next =>
    dsimp only
    split
    next =>
      rw [State.cqIrq_eq (s := s.setRing c _) h]
      refine ⟨[s.cqVector c], _, rfl, .inr rfl, ?_⟩
      exact (congrArg RingSt.reserved (State.ring_setRing_same ..)).trans ((congrArg RingSt.reserved (s.ring_setRing_same c _)).trans rfl)
    next =>
      refine ⟨[], _, by rw [List.append_nil]; rfl, .inl rfl, ?_⟩
      exact (congrArg RingSt.reserved (s.ring_setRing_same c _)).trans rfl

/-- The address of the next entry of a completion ring. -/
def State.cqPlace (s : State) (c : Nat) : Nat :=
  s.fd (Reg.RC_CQ_BASE_LO_ADDR c) * 4096 + (s.rg (Reg.RC_CQ_BASE_HI c)).toNat * 2 ^ 32 +
    32 * ((s.rg (Reg.RC_CQ_WRITTEN c)).toNat % 2 ^ s.fd (Reg.RC_CTRL_CQ_LOG2 c))

/-- The completion of a descriptor is written at its ring's next place, unless the descriptor is quiet. -/
def State.writeCompletion (s : State) (d : Desc) (c : Nat) : State :=
  if bit (d.w 0) 26 && d.status == 0 then s
  else ((s.emit (.hostWrite d.inst (s.cqPlace c) (completion s d c))).inc (Reg.RC_CQ_WRITTEN c)).coalesce c (bit (d.w 0) 27)

/-- A descriptor leaves flight, and its reservation ends. -/
def State.leaveFlight (s : State) (id c : Nat) (hadDeadline : Bool) : State :=
  let u := s.setRing c { s.ring c with reserved := (s.ring c).reserved - 1 }
  let h := { u.host with descs := tdel u.host.descs id, deadlines := u.host.deadlines.filter fun x => x.desc ≠ id }
  let u := if hadDeadline && ! u.on Reg.TB_STATUS_FIRST_LOCK then u.inc Reg.DL_UNCHECKED else u
  { u with host := h }.showRoom c

theorem State.complete_eq {s : State} {id : Nat} (h : bit ((s.desc id).w 15) 31 = false) :
    s.complete id = (s.writeCompletion (s.desc id) (s.fd (Reg.RC_SQ_LINK_CQ (s.desc id).ring))).leaveFlight id
      (s.fd (Reg.RC_SQ_LINK_CQ (s.desc id).ring)) (s.desc id).hadDeadline := by
  have hpost : s.postSignal id = s := by
    unfold State.postSignal
    dsimp only
    rw [h]
    rfl
  unfold State.complete
  rw [hpost]
  rfl

theorem State.leaveFlight_spec (s : State) (id c : Nat) (hadDeadline : Bool) :
    thas (s.leaveFlight id c hadDeadline).host.descs id = false ∧ (∀ j, j ≠ id → (s.leaveFlight id c hadDeadline).desc j = s.desc j) ∧
    ((s.leaveFlight id c hadDeadline).ring c).reserved = (s.ring c).reserved - 1 ∧ SameArray s (s.leaveFlight id c hadDeadline) ∧
    (s.leaveFlight id c hadDeadline).outbox = s.outbox ∧ RegsBut s (s.leaveFlight id c hadDeadline) [Reg.DL_UNCHECKED, Reg.RC_STATUS c] := by
  let u := s.setRing c { s.ring c with reserved := (s.ring c).reserved - 1 }
  let v := if hadDeadline && ! u.on Reg.TB_STATUS_FIRST_LOCK then u.inc Reg.DL_UNCHECKED else u
  have hv : OnlyRegs u v [Reg.DL_UNCHECKED] := ((OnlyRegs.refl ..).wrg (List.mem_singleton_self _) _).ite (.refl ..)
  have hleave : s.leaveFlight id c hadDeadline = { v with host := { u.host with
    descs := tdel u.host.descs id, deadlines := u.host.deadlines.filter fun x => x.desc ≠ id } }.showRoom c := rfl
  refine ⟨?_, fun j hj => ?_, ?_, ?_, ?_, fun o ho => ?_⟩
  · rw [hleave]
    exact (thas_tdel ..).trans (by rw [decide_eq_true rfl]; rfl)
  · rw [hleave]
    exact (tget_tdel ..).trans (if_neg hj)
  · rw [hleave]
    exact congrArg RingSt.reserved (s.ring_setRing_same c _)
  · rw [hleave, hv.1]
    exact ⟨rfl, rfl⟩
  · rw [hleave, hv.1]
    rfl
  · simp only [List.mem_cons, List.not_mem_nil, or_false, not_or] at ho
    rw [hleave]
    refine (State.rg_setF_of_ne _ (x := Reg.RC_STATUS_CQ_FULL c) ho.2 _).trans ?_
    exact hv.2 o (by simpa using ho.1)

theorem State.writeCompletion_quiet {s : State} {d : Desc} (h : (bit (d.w 0) 26 && d.status == 0) = true) (c : Nat) : s.writeCompletion d c = s := by
  rw [State.writeCompletion, if_pos h]

/-- A completion that is written. -/
theorem State.writeCompletion_loud {s : State} {d : Desc} (h : (bit (d.w 0) 26 && d.status == 0) = false) (hsends : s.sends) (c : Nat) :
    ∃ more x, s.writeCompletion d c = { s.inc (Reg.RC_CQ_WRITTEN c) with
        outbox := s.outbox ++ Output.hostWrite d.inst (s.cqPlace c) (completion s d c) :: more, host := { s.host with rings := x } } ∧
      (more = [] ∨ more = [s.cqVector c]) ∧ ((s.writeCompletion d c).ring c).reserved = (s.ring c).reserved := by
  let v := s.sent [.hostWrite d.inst (s.cqPlace c) (completion s d c)]
  have hwrite : s.writeCompletion d c = (v.inc (Reg.RC_CQ_WRITTEN c)).coalesce c (bit (d.w 0) 27) := by
    rw [State.writeCompletion, if_neg (by rw [h]; decide), State.emit_of_sends hsends]
    rfl
  have hrg (o : Nat) (ho : o ≠ Reg.RC_CQ_WRITTEN c) : (v.inc (Reg.RC_CQ_WRITTEN c)).rg o = s.rg o := by
    rw [v.rg_inc_of_ne ho, s.sent_rg]
  have hsendsU : (v.inc (Reg.RC_CQ_WRITTEN c)).sends :=
    (State.sends_congr (s := s) (hrg _ (by simp only [Reg.GS_STATUS, Reg.RC_CQ_WRITTEN]; omega))).2 hsends
  have hvector : (v.inc (Reg.RC_CQ_WRITTEN c)).cqVector c = s.cqVector c := by
    rw [State.cqVector, State.fd_congr (s := s) (hrg _ (by simp only [Reg.RC_CTRL_OWNER, Reg.RC_CTRL, Reg.RC_CQ_WRITTEN]; omega)),
      State.fd_congr (s := s) (hrg _ (by simp only [Reg.RC_CQ_IRQ_VECTOR, Reg.RC_CQ_IRQ, Reg.RC_CQ_WRITTEN]; omega)), State.cqVector]
  obtain ⟨more, x, hcoal, hmore, hreserved⟩ := State.coalesce_spec hsendsU c (bit (d.w 0) 27)
  rw [hvector] at hmore
  refine ⟨more, x, ?_, hmore, ?_⟩
  · rw [hwrite, hcoal, ← List.singleton_append, ← List.append_assoc]
    rfl
  · rw [hwrite]
    exact hreserved

/-! ### Tags (R385, R386) -/

theorem State.emit_sent (s : State) (o : Output) : ∃ more, s.emit o = s.sent more := by
  unfold State.emit
  split
  · exact ⟨[], by rw [State.sent, List.append_nil]⟩
  · exact ⟨[o], rfl⟩

/-- An interrupt sets its bit and may raise its vector. -/
theorem State.irq_eq (s : State) (k : Nat) : ∃ more, s.irq k = (s.setF ⟨Reg.IRQ_STATUS, k, k⟩ 1).sent more := by
  have hstay (u : State) : ∃ more, u = u.sent more := ⟨[], by rw [State.sent, List.append_nil]⟩
  unfold State.irq
  dsimp only
  split
  · exact hstay _
  · split
    · exact State.emit_sent ..
    · exact hstay _

theorem thas_tput_same {α : Type} (t : Table α) (k : Nat) (v : α) : thas (tput t k v) k = true := by
  rw [thas_tput, decide_eq_true rfl, Bool.true_or]

theorem thas_tput_of_ne {α : Type} (t : Table α) {j k : Nat} (h : j ≠ k) (v : α) : thas (tput t k v) j = thas t j := by
  rw [thas_tput, decide_eq_false h, Bool.false_or]

theorem thas_tdel_same {α : Type} (t : Table α) (k : Nat) : thas (tdel t k) k = false := by
  rw [thas_tdel, decide_eq_true rfl]
  rfl

theorem thas_tdel_of_ne {α : Type} (t : Table α) {j k : Nat} (h : j ≠ k) : thas (tdel t k) j = thas t j := by
  rw [thas_tdel, decide_eq_false h]
  rfl

/-- The state in which a read's timeout is counted and reported, and its tag quarantined. -/
def State.tagTimedOut (s : State) (tag : Nat) : State := (((s.inc Reg.HL_TIMEOUTS).irq 3).emit (.aerTimeout tag)).quarantineTag tag

theorem State.tagTimedOut_spec (s : State) (tag : Nat) :
    (∃ due, (s.tagTimedOut tag).host = { s.host with quarantine := tput s.host.quarantine tag due }) ∧
    .aerTimeout tag ∈ (s.tagTimedOut tag).outbox ∧ SameArray s (s.tagTimedOut tag) ∧
    (s.tagTimedOut tag).rg Reg.HL_TIMEOUTS = s.rg Reg.HL_TIMEOUTS + 1 ∧
    RegsBut s (s.tagTimedOut tag) [Reg.HL_TIMEOUTS, Reg.IRQ_STATUS, Reg.HL_QUARANTINED] := by
  obtain ⟨more, hirq⟩ := (s.inc Reg.HL_TIMEOUTS).irq_eq 3
  have hemit : ((s.inc Reg.HL_TIMEOUTS).irq 3).emit (.aerTimeout tag) =
      ((s.inc Reg.HL_TIMEOUTS).setF ⟨Reg.IRQ_STATUS, 3, 3⟩ 1).sent (more ++ [.aerTimeout tag]) := by
    rw [State.emit_of_undisabled _ rfl, hirq, State.sent, State.sent, List.append_assoc]
  have hrg (o : Nat) (hq : o ≠ Reg.HL_QUARANTINED) : (s.tagTimedOut tag).rg o = ((s.inc Reg.HL_TIMEOUTS).irq 3).rg o :=
    (State.rg_setF_of_ne _ (x := Reg.HL_QUARANTINED_TAGS) hq _).trans (State.emit_rg ..)
  refine ⟨?_, ?_, ?_, ?_, fun o ho => ?_⟩
  · unfold State.tagTimedOut State.quarantineTag
    rw [hemit]
    exact ⟨_, rfl⟩
  · unfold State.tagTimedOut State.quarantineTag
    rw [hemit]
    exact List.mem_append_right _ (List.mem_append_right _ (List.mem_singleton_self _))
  · unfold State.tagTimedOut State.quarantineTag
    rw [hemit]
    exact ⟨rfl, rfl⟩
  · rw [hrg _ (by decide), State.irq_rg _ _ (by decide), State.rg_inc_same]
  · simp only [List.mem_cons, List.not_mem_nil, or_false, not_or] at ho
    obtain ⟨htimeouts, hstatus, hquarantined⟩ := ho
    rw [hrg _ hquarantined, State.irq_rg _ _ hstatus, State.rg_inc_of_ne _ htimeouts]

/-- A read that times out and may be repeated, under a fresh tag. -/
theorem execHostReadTimeout_safe {s : State} {tag new : Fin 16384} {x : HostRead}
    (hfind : s.host.reads.find? (fun e => e.1 == tag.val) = some (tag.val, x)) (hsafe : x.safe = true) (htries : x.tries < 3)
    (hquarantine : thas (s.tagTimedOut tag).host.quarantine new = false) (hreads : thas (tdel (s.tagTimedOut tag).host.reads tag) new = false) :
    execHostReadTimeout tag new s = .next ({ s.tagTimedOut tag with host := { (s.tagTimedOut tag).host with
      reads := tput (tdel (s.tagTimedOut tag).host.reads tag) new { x with tries := x.tries + 1 } } }.emit (.hostRead x.inst new)) := by
  unfold execHostReadTimeout
  rw [hfind]
  dsimp only
  rw [if_pos]
  · rfl
  · change (x.safe && decide (x.tries < 3) && ! thas (s.tagTimedOut tag).host.quarantine new &&
      ! thas (tdel (s.tagTimedOut tag).host.reads tag) new) = true
    rw [hsafe, decide_eq_true htries, hquarantine, hreads]
    rfl

/-! ### The obligation -/

/-- Settles O35: a completion is written where the descriptor is not quiet and the descriptor leaves; tags move between use, quarantine and
rest. -/
theorem completionsAreWrittenAndHostReadsTimeOut : Obligations.CompletionsAreWrittenAndHostReadsTimeOut := by
  unfold Obligations.CompletionsAreWrittenAndHostReadsTimeOut
  refine ⟨?complete, ?timer, ?noTimer, ?timeout, ?late, ?notLate, ?expire⟩
  case complete =>
    intro s r pos id d hfind hdesc hended hpost hsends c quiet addr
    subst hdesc
    have hexec : exec (.descriptorComplete r pos) s = .next ((s.writeCompletion (s.desc id) c).leaveFlight id c (s.desc id).hadDeadline) := by
      change execDescriptorComplete r pos s = _
      unfold execDescriptorComplete
      rw [hfind]
      dsimp only
      rw [if_pos hended, State.complete_eq hpost]
    have hwritten : Reg.RC_CQ_WRITTEN c ∉ [Reg.DL_UNCHECKED, Reg.RC_STATUS c] := by
      simp only [List.mem_cons, List.not_mem_nil, or_false, Reg.RC_CQ_WRITTEN, Reg.DL_UNCHECKED, Reg.RC_STATUS]
      omega
    obtain ⟨hgone, hother, hreserved, harray, hout, hregs⟩ := (s.writeCompletion (s.desc id) c).leaveFlight_spec id c (s.desc id).hadDeadline
    by_cases hquiet : quiet = true
    · rw [State.writeCompletion_quiet hquiet] at hexec hgone hother hreserved harray hout hregs
      exact ⟨_, hexec, hgone, hother, hreserved, harray, fun _ => ⟨hout, hregs _ hwritten⟩,
        fun hloud => absurd hquiet (by rw [hloud]; decide)⟩
    · have hloud : quiet = false := by simpa using hquiet
      obtain ⟨more, x, hwrite, hmore, hsame⟩ := State.writeCompletion_loud hloud hsends c
      refine ⟨_, hexec, hgone, fun j hj => (hother j hj).trans ?_, hreserved.trans (by rw [hsame]), SameArray.trans ?_ harray,
        fun hq => absurd hq hquiet, fun _ => ⟨(hregs _ hwritten).trans ?_, more, hout.trans ?_, hmore⟩⟩
      all_goals rw [hwrite]
      · rfl
      · exact ⟨rfl, rfl⟩
      · exact s.rg_inc_same _
      · rfl
  case timer =>
    intro s c hen hcoal hfrom hsends
    have hexec : exec (.coalTimer c) s = .next (s.cqIrq c) := by
      change execCoalTimer c s = _
      unfold execCoalTimer
      rw [hen, hfrom, if_pos (by simp [hcoal])]
    rw [State.cqIrq_eq hsends] at hexec
    exact ⟨_, hexec, rfl, State.ring_setRing_same .., rfl⟩
  case noTimer =>
    intro s c hfrom
    change execCoalTimer c s = _
    unfold execCoalTimer
    rw [hfrom, Option.isSome_none, Bool.and_false]
    rfl
  case timeout =>
    intro s tag new x hfind hsafe htries hne hfresh hfree
    obtain ⟨⟨due, hhost⟩, haer, harray, hcount, hregs⟩ := s.tagTimedOut_spec tag
    have hreads : (s.tagTimedOut tag).host.reads = s.host.reads := by rw [hhost]
    have hquarantine : (s.tagTimedOut tag).host.quarantine = tput s.host.quarantine tag due := by rw [hhost]
    have hnew : new.val ≠ tag.val := fun h => hne (Fin.ext h.symm)
    have hexec : exec (.hostReadTimeout tag new) s = _ := execHostReadTimeout_safe hfind hsafe htries
      (by rw [hquarantine, thas_tput_of_ne _ hnew, hfresh]) (by rw [thas_tdel_of_ne _ hnew, hreads, hfree])
    rw [State.emit_of_undisabled _ rfl] at hexec
    refine ⟨_, hexec, hcount, ?_, ?_, ?_, ?_, ?_, hregs, ?_, List.mem_append_right _ (List.mem_singleton_self _)⟩
    · exact (congrArg (fun q : Table Nat => thas q tag) hquarantine).trans (thas_tput_same ..)
    · exact (thas_tput_of_ne _ hnew.symm _).trans (thas_tdel_same ..)
    · exact (tget_tput ..).trans (if_pos rfl)
    · have hdescs : (s.tagTimedOut tag).host.descs = s.host.descs := by rw [hhost]
      exact hdescs
    · exact harray
    · exact List.mem_append_left _ haer
  case late =>
    intro s tag hin
    have hexec : exec (.lateCompletion tag) s = .next ((s.inc Reg.HL_LATE_CPL).irq 3) := by
      change execLateCompletion tag s = _
      rw [execLateCompletion, if_pos hin]
    obtain ⟨more, hirq⟩ := (s.inc Reg.HL_LATE_CPL).irq_eq 3
    refine ⟨_, hexec, ?_, fun o ho => ?_, ?_⟩
    · rw [State.irq_rg _ _ (by decide), State.rg_inc_same]
    · simp only [List.mem_cons, List.not_mem_nil, or_false, not_or] at ho
      rw [State.irq_rg _ _ ho.2, State.rg_inc_of_ne _ ho.1]
    · rw [hirq]
      rfl
  case notLate =>
    intro s tag hout
    change execLateCompletion tag s = _
    rw [execLateCompletion, if_neg (by rw [hout]; decide)]
  case expire =>
    intro s tag
    refine ⟨_, rfl, thas_tdel_same .., fun o ho => ?_, ⟨rfl, rfl⟩, fun k hk => thas_tdel_of_ne _ hk⟩
    exact State.rg_setF_of_ne _ (x := Reg.HL_QUARANTINED_TAGS) (by simpa [Reg.HL_QUARANTINED_TAGS] using ho) _

end Sys2Proof.Machine

/-! Proofs about work across packages: the step gate, the broadcast writer and the statistics blocks (R474, R475, R482, R483,
R488). -/

namespace Sys2Proof.Machine

/-! ### Plain writes of the INST registers -/

/-- A field that a write sets takes what is written. -/
theorem bits_plainWrite (old v : Word) {rw w1c hi lo : Nat}
    (hrw : (BitVec.ofNat 32 rw).extractLsb' lo (hi - lo + 1) = BitVec.allOnes _) (hw1c : (BitVec.ofNat 32 w1c).extractLsb' lo (hi - lo + 1) = 0#_) :
    bits (plainWrite old v rw w1c) hi lo = bits v hi lo := by
  have hfield : (plainWrite old v rw w1c).extractLsb' lo (hi - lo + 1) = v.extractLsb' lo (hi - lo + 1) := by
    apply BitVec.eq_of_getLsbD_eq
    intro i hi'
    have hset : (BitVec.ofNat 32 rw).getLsbD (lo + i) = true := by
      simpa only [BitVec.getLsbD_extractLsb', BitVec.getLsbD_allOnes, hi', decide_true, Bool.true_and] using congrArg (·.getLsbD i) hrw
    have hclear : (BitVec.ofNat 32 w1c).getLsbD (lo + i) = false := by
      simpa only [BitVec.getLsbD_extractLsb', BitVec.getLsbD_zero, hi', decide_true, Bool.true_and] using congrArg (·.getLsbD i) hw1c
    have hin := BitVec.lt_of_getLsbD hset
    simp only [plainWrite, BitVec.getLsbD_extractLsb', BitVec.getLsbD_and, BitVec.getLsbD_or, BitVec.getLsbD_not, hset, hclear]
    simp [hin]
  rw [bits, hfield, bits]

theorem State.fd_plain (s : State) {off rw w1c : Nat} (hmask : regMasks off = (rw, w1c)) (v : Word) {hi lo : Nat}
    (hrw : (BitVec.ofNat 32 rw).extractLsb' lo (hi - lo + 1) = BitVec.allOnes _) (hw1c : (BitVec.ofNat 32 w1c).extractLsb' lo (hi - lo + 1) = 0#_) :
    (s.plain off v).fd ⟨off, hi, lo⟩ = bits v hi lo := by
  rw [State.fd, State.rg_plain, if_pos rfl, hmask]
  exact bits_plainWrite _ v hrw hw1c

theorem bits_same_beq (v : Word) (k : Nat) : (bits v k k == 1) = bit v k := by
  have hlt : (v.extractLsb' k 1).toNat < 2 := (v.extractLsb' k 1).isLt
  have hbit : (v.extractLsb' k 1).getLsbD 0 = bit v k := by simp [bit]
  rw [bits, Nat.sub_self, Nat.zero_add, ← hbit, BitVec.getLsbD, Nat.testBit_zero]
  rcases Nat.lt_succ_iff_lt_or_eq.1 hlt with h | h
  · rw [Nat.lt_one_iff.1 h]
    rfl
  · rw [h]
    rfl

theorem State.on_plain (s : State) {off rw w1c : Nat} (hmask : regMasks off = (rw, w1c)) (v : Word) {k : Nat}
    (hrw : (BitVec.ofNat 32 rw).extractLsb' k (k - k + 1) = BitVec.allOnes _) (hw1c : (BitVec.ofNat 32 w1c).extractLsb' k (k - k + 1) = 0#_) :
    (s.plain off v).on ⟨off, k, k⟩ = bit v k := by
  rw [State.on, s.fd_plain hmask v hrw hw1c, bits_same_beq]

/-- An INST register has the access types of its row. -/
theorem regMasks_inst {off : Nat} {r : RegRow} {j : Nat} (hlo : 0x80000 ≤ off) (hhi : off < 0x90000)
    (hrow : findRow ((off - 0x80000) % 0x400) regRows80000_0 = some (r, j)) : regMasks off = (r.rw, r.w1c) := by
  have hinst : findReg off regBlocks = some (r, j) := by
    rw [regBlocks, findReg_cons_of_outside (by omega), findReg_cons_of_outside (by omega), findReg_cons_of_outside (by omega),
      findReg_cons_of_outside (by omega), findReg_cons_of_outside (by omega)]
    exact findReg_cons_of_row (by omega) hrow _
  rw [regMasks, if_neg (by omega), hinst]

theorem regMasks_gateCtrl (i : Fin 64) : regMasks (Reg.XCH_GATE_CTRL i) = (0x8FFFFFFF, 0x40000000) := by
  have hrel : (Reg.XCH_GATE_CTRL i - 0x80000) % 0x400 = 0x180 := by unfold Reg.XCH_GATE_CTRL; omega
  refine regMasks_inst (r := ⟨0x180, 1, 4, 0x1, 0x8FFFFFFF, 0x40000000⟩) (j := 0) ?_ ?_ (by rw [hrel]; rfl) <;> unfold Reg.XCH_GATE_CTRL <;> omega

theorem regMasks_bcCtrl (i : Fin 64) : regMasks (Reg.XCH_BC_CTRL i) = (0x2FFF03FF, 0) := by
  have hrel : (Reg.XCH_BC_CTRL i - 0x80000) % 0x400 = 0x1C0 := by unfold Reg.XCH_BC_CTRL; omega
  refine regMasks_inst (r := ⟨0x1C0, 1, 4, 0x0, 0x2FFF03FF, 0x0⟩) (j := 0) ?_ ?_ (by rw [hrel]; rfl) <;> unfold Reg.XCH_BC_CTRL <;> omega

theorem regMasks_statCtrl (i : Fin 64) : regMasks (Reg.STAT_CTRL i) = (0x800003FF, 0x20000000) := by
  have hrel : (Reg.STAT_CTRL i - 0x80000) % 0x400 = 0x200 := by unfold Reg.STAT_CTRL; omega
  refine regMasks_inst (r := ⟨0x200, 1, 4, 0x0, 0x800003FF, 0x20000000⟩) (j := 0) ?_ ?_ (by rw [hrel]; rfl) <;> unfold Reg.STAT_CTRL <;> omega

/-! ### The step gate (R474, R475) -/

section
variable (s : State) (i : Fin 64) (v : Word)

theorem State.gateWrite_armed (hset : bit v 31 = true) (hown : s.pcOwned (bits v 27 16) i = true) (hper : bits v 15 0 ≠ 0) (hruns : s.instRuns i = false) :
    s.gateWrite i v = (((s.plain (Reg.XCH_GATE_CTRL i) v).wrg64 (Reg.XCH_GATE_BASE_LO i) (s.pc (bits v 27 16))).wrg (Reg.XCH_GATE_STEPS i) 0) := by
  have hpc : (s.plain (Reg.XCH_GATE_CTRL i) v).pc (bits v 27 16) = s.pc (bits v 27 16) := by
    refine State.pc_congr (s.rg_wrg_of_ne ?_ _) (s.rg_wrg_of_ne ?_ _)
    · simp only [Reg.PC_VALUE_LO, Reg.XCH_GATE_CTRL]; omega
    · simp only [Reg.PC_VALUE_HI, Reg.XCH_GATE_CTRL]; omega
  unfold State.gateWrite
  dsimp only
  rw [if_pos hset, if_neg (by simp [hown, hper, hruns]), hpc]

theorem State.gateWrite_refused (hset : bit v 31 = true) (h : s.pcOwned (bits v 27 16) i = false ∨ bits v 15 0 = 0 ∨ s.instRuns i = true) :
    s.gateWrite i v = s.setF (Reg.XCH_GATE_CTRL_REFUSED i) 1 := by
  unfold State.gateWrite
  dsimp only
  rw [if_pos hset, if_pos]
  rcases h with h | h | h <;> simp [h]

/-- The value that a write which clears EN takes: PER_STEP 0 keeps the old value (R656). -/
def State.gateValue (s : State) (i : Nat) (v : Word) : Word :=
  if bits v 15 0 = 0 then setBits v 15 0 (s.fd (Reg.XCH_GATE_CTRL_PER_STEP i)) else v

theorem State.gateValue_spec (s : State) (i : Nat) (v : Word) : bit (s.gateValue i v) 31 = bit v 31 ∧
    bits (s.gateValue i v) 15 0 = if bits v 15 0 = 0 then s.fd (Reg.XCH_GATE_CTRL_PER_STEP i) else bits v 15 0 := by
  unfold State.gateValue
  split
  · refine ⟨?_, ?_⟩
    · rw [← bits_same_beq, ← bits_same_beq, bits_setBits_apart v (.inl (by decide)) (by decide) (by decide)]
    · rw [bits_setBits_same v (by decide) (by decide)]
      exact Nat.mod_eq_of_lt (BitVec.isLt _)
  · exact ⟨rfl, rfl⟩

theorem thas_of_find?_none {α : Type} {t : Table α} {k : Nat} (h : t.find? (fun e => e.1 == k) = none) : thas t k = false := by
  induction t with
  | nil => rfl
  | cons e t ih =>
    rw [List.find?_cons] at h
    by_cases hk : e.1 = k
    · rw [beq_iff_eq.2 hk] at h
      cases h
    · rw [beq_eq_false_iff_ne.2 hk] at h
      rw [thas, if_neg hk]
      exact ih h

theorem find?_none_of_thas {α : Type} {t : Table α} {k : Nat} (h : thas t k = false) : t.find? (fun e => e.1 == k) = none := by
  induction t with
  | nil => rfl
  | cons e t ih =>
    by_cases hk : e.1 = k
    · rw [thas, if_pos hk] at h
      cases h
    · rw [thas, if_neg hk] at h
      rw [List.find?_cons, beq_eq_false_iff_ne.2 hk]
      exact ih h

theorem State.gateEnd_spec (s : State) (i : Nat) : thas (s.gateEnd i).net.gateFrom i = false ∧ SameArray s (s.gateEnd i) ∧
    RegsBut s (s.gateEnd i) [Reg.XCH_GATE_WAIT_US i] := by
  unfold State.gateEnd
  split
  next hnone => exact ⟨thas_of_find?_none hnone, .refl s, fun _ _ => rfl⟩
  next => exact ⟨thas_tdel_same .., ⟨rfl, rfl⟩, fun o ho => State.rg_wrg_of_ne _ (by simpa using ho) _⟩

end

/-! ### The broadcast writer (R482, R483) -/

theorem State.inWindow_congr {s t : State} {i : Nat} (h : ∀ w, w < 8 → t.rg (Reg.WIN_BASE i w) = s.rg (Reg.WIN_BASE i w) ∧
    t.rg (Reg.WIN_SIZE i w) = s.rg (Reg.WIN_SIZE i w)) (a len : Nat) : t.inWindow i a len = s.inWindow i a len := by
  unfold State.inWindow
  rw [Bool.eq_iff_iff, List.any_eq_true, List.any_eq_true]
  refine exists_congr fun w => and_congr_right fun hw => ?_
  obtain ⟨hbase, hsize⟩ := h w (List.mem_range.1 hw)
  rw [State.on_congr (x := Reg.WIN_BASE_EN i w) hbase, State.fd_congr (x := Reg.WIN_BASE_BASE i w) hbase, State.fd_congr (x := Reg.WIN_SIZE_SIZE i w) hsize]

/-- A broadcast starts, or is refused, under the written control. -/
theorem State.castWrite_go (s : State) (i : Fin 64) {v : Word} (hgo : bit v 31 = true) (hcommit : bit v 29 = false) :
    s.castWrite i v = if thas s.links.casts i || ! s.inWindow i (s.bcSrc i) (s.rg (Reg.XCH_BC_BYTES i)).toNat
      then (s.plain (Reg.XCH_BC_CTRL i) v).setF (Reg.XCH_BC_STATUS_REFUSED i) 1
      else { s.plain (Reg.XCH_BC_CTRL i) v with links := { s.links with
        casts := tput s.links.casts i ⟨bits v 27 16, s.bcSrc i, (s.rg (Reg.XCH_BC_BYTES i)).toNat, false⟩ } }.setF (Reg.XCH_BC_CTRL_BUSY i) 1 := by
  have hrg (o : Nat) (ho : o ≠ Reg.XCH_BC_CTRL i) : (s.plain (Reg.XCH_BC_CTRL i) v).rg o = s.rg o := s.rg_wrg_of_ne ho _
  have hwait : (s.plain (Reg.XCH_BC_CTRL i) v).on (Reg.XCH_BC_CTRL_ON_COMMIT i) = false :=
    (s.on_plain (regMasks_bcCtrl i) v (k := 29) (by decide) (by decide)).trans hcommit
  have hgroup : (s.plain (Reg.XCH_BC_CTRL i) v).fd (Reg.XCH_BC_CTRL_GROUP i) = bits v 27 16 :=
    s.fd_plain (regMasks_bcCtrl i) v (hi := 27) (lo := 16) (by decide) (by decide)
  have hsrc : (s.plain (Reg.XCH_BC_CTRL i) v).bcSrc i = s.bcSrc i := by
    rw [State.bcSrc, State.fd_congr (s := s) (hrg _ (by simp only [Reg.XCH_BC_SRC_LO_ADDR, Reg.XCH_BC_SRC_LO, Reg.XCH_BC_CTRL]; omega)),
      State.fd_congr (s := s) (hrg _ (by simp only [Reg.XCH_BC_SRC_HI_ADDR, Reg.XCH_BC_SRC_HI, Reg.XCH_BC_CTRL]; omega)), State.bcSrc]
  have hbytes := hrg (Reg.XCH_BC_BYTES i) (by simp only [Reg.XCH_BC_BYTES, Reg.XCH_BC_CTRL]; omega)
  have hwin (a len : Nat) : (s.plain (Reg.XCH_BC_CTRL i) v).inWindow i a len = s.inWindow i a len :=
    State.inWindow_congr (fun w hw => ⟨hrg _ (by simp only [Reg.WIN_BASE, Reg.XCH_BC_CTRL]; omega),
      hrg _ (by simp only [Reg.WIN_SIZE, Reg.XCH_BC_CTRL]; omega)⟩) a len
  unfold State.castWrite State.castStart
  dsimp only
  rw [hgo, hwait, Bool.not_false, Bool.and_true, if_pos rfl, hsrc, hbytes, hwin, hgroup]
  rfl

theorem State.emit_sameArray {s t : State} (h : SameArray s t) (o : Output) : SameArray s (t.emit o) := by
  rw [State.emit_eq]
  exact h

theorem SameArray.sent {s t : State} (h : SameArray s t) (l : List Output) : SameArray s (t.sent l) := h

theorem State.irq_sameArray {s t : State} (h : SameArray s t) (k : Nat) : SameArray s (t.irq k) := by
  obtain ⟨more, hirq⟩ := t.irq_eq k
  have hset : SameArray s (t.setF ⟨Reg.IRQ_STATUS, k, k⟩ 1) := h.setF _ _
  rw [hirq]
  exact hset.sent more

theorem State.drivePins_sameArray {s t : State} (h : SameArray s t) : SameArray s t.drivePins := by
  unfold State.drivePins
  exact h.ite h

theorem State.alert_sameArray {s t : State} (h : SameArray s t) (k : Nat) : SameArray s (t.alert k) := State.drivePins_sameArray (h.setF _ _)

theorem State.post_sameArray {s t : State} (h : SameArray s t) (cls unit stop action detail : Nat) (owner : Option (Nat × Nat)) (lc : Option Nat) :
    SameArray s (t.post cls unit stop action detail owner lc) := by
  unfold State.post
  exact State.alert_sameArray (State.irq_sameArray (((((((((h.wrg _ _).wrg _ _).wrg _ _).wrg _ _).wrg _ _).wrg _ _).wrg _ _).inc _)) 2) 4

theorem State.limit10_sameArray {s t : State} (h : SameArray s t) (key : Nat) {f : State → State} (hf : ∀ u, SameArray s u → SameArray s (f u)) :
    SameArray s (t.limit10 key f) := by
  unfold State.limit10
  split
  · exact h.ite (hf _ h)
  · exact hf _ h

theorem State.postOpen_sameArray {s t : State} (h : SameArray s t) (cls : Nat) (stop : Option Nat) (owner : Option (Nat × Nat)) :
    SameArray s (t.postOpen cls stop owner) := by
  unfold State.postOpen
  exact State.post_sameArray h.free.free ..

theorem State.partReject_sameArray {s t : State} (h : SameArray s t) (q : Nat) : SameArray s (t.partReject q) := by
  unfold State.partReject
  exact State.limit10_sameArray (h.inc _) _ fun _ hu => State.postOpen_sameArray hu ..

theorem SameArray.cond {s t : State} (h : SameArray s t) (c : Bool) {f : State → State} (hf : SameArray s (f t)) : SameArray s (t.cond c f) := hf.ite h

theorem State.depart_sameArray {s t : State} (h : SameArray s t) (q : Nat) (p : FlPacket) : SameArray s (t.depart q p) := by
  unfold State.depart State.launch
  have hport (x : PortSt) : SameArray s (t.setPort q x) := h
  exact SameArray.ite (State.emit_sameArray ((hport _).cond _ ((hport _).inc _)) _) (hport _)

theorem State.answer_sameArray {s t : State} (h : SameArray s t) (r : FlPacket) : SameArray s (t.answer r) :=
  h.ite ((State.partReject_sameArray h _).ite (State.depart_sameArray h _ _))

theorem State.sendOwn_sameArray {s t : State} (h : SameArray s t) (dst argLo argHi origin tag : Nat) : SameArray s (t.sendOwn dst argLo argHi origin tag) := by
  unfold State.sendOwn
  split
  · exact h
  · exact h.ite (State.answer_sameArray h _)

theorem State.dropBranch_sameArray {s t : State} (h : SameArray s t) (q : Nat) (p : FlPacket) : SameArray s (t.dropBranch q p) := by
  have hrecord : SameArray s (t.partialRecord q p.group t.srcId) := by
    unfold State.partialRecord State.flEvent
    exact State.irq_sameArray (((((h.inc _).setF _ _).setF _ _).setF _ _).setF _ _) 6
  have hengine (tag port pkg : Nat) : SameArray s ((t.partialRecord q p.group t.srcId).partialEngine tag port pkg) := by
    unfold State.partialEngine
    exact (((hrecord.setF _ _).setF _ _).setF _ _).ite ((hrecord.setF _ _).ite hrecord)
  unfold State.dropBranch
  exact (hengine _ _ _).ite (State.sendOwn_sameArray hrecord ..)

theorem State.branch_sameArray {s t : State} (h : SameArray s t) (p : FlPacket) (q : Nat) : SameArray s (t.branch p q) :=
  (State.dropBranch_sameArray h q p).ite ((State.partReject_sameArray h q).ite (State.depart_sameArray h q p))

theorem SameArray.each {α : Type} {s t : State} (h : SameArray s t) (l : List α) {f : State → α → State}
    (hf : ∀ u x, SameArray s u → SameArray s (f u x)) : SameArray s (t.each l f) := by
  unfold State.each
  induction l generalizing t with
  | nil => exact h
  | cons x l ih => exact ih (hf t x h)

theorem State.replicate_sameArray {s t : State} (h : SameArray s t) (arrival : Option Nat) (p : FlPacket) : SameArray s (t.replicate arrival p) := by
  unfold State.replicate
  split
  · exact h
  · exact h.ite ((h.inc _).ite (h.each _ fun u q hu => State.branch_sameArray hu p q))

theorem State.castSend_sameArray {s t : State} (h : SameArray s t) (i group a n f : Nat) : SameArray s (t.castSend i group a n f) := by
  induction f generalizing t a n with
  | zero => rwa [State.castSend]
  | succ f ih =>
    rw [State.castSend]
    exact h.ite (ih (State.replicate_sameArray (t := { t with links := { t.links with nextId := (t.links.nextId + 1) % 2 ^ 32 } }) h _ _) _ _)

/-! ### The statistics block (R488) -/

theorem OnlyRegs.wrg64 {s t : State} {l : List Nat} (h : OnlyRegs s t l) {off : Nat} (hlo : off ∈ l) (hhi : off + 4 ∈ l) (n : Nat) :
    OnlyRegs s (t.wrg64 off n) l := (h.wrg hlo _).wrg hhi _

theorem State.statClear_spec (s : State) (i : Nat) : (s.statClear i).rg (Reg.STAT_STEPS i) = 0 ∧ (s.statClear i).rg (Reg.STAT_BAD i) = 0 ∧
    (s.statClear i).rg64 (Reg.STAT_PIECE_SQ_LO i) = 0 ∧ (s.statClear i).rg64 (Reg.STAT_TOTAL_SQ_LO i) = 0 ∧
    OnlyRegs s (s.statClear i) [Reg.STAT_STEPS i, Reg.STAT_BAD i, Reg.STAT_PIECE_SQ_LO i, Reg.STAT_PIECE_SQ_HI i, Reg.STAT_TOTAL_SQ_LO i,
      Reg.STAT_TOTAL_SQ_HI i] := by
  have hpiece : Reg.STAT_PIECE_SQ_LO i + 4 = Reg.STAT_PIECE_SQ_HI i := by unfold Reg.STAT_PIECE_SQ_LO Reg.STAT_PIECE_SQ_HI; omega
  have htotal : Reg.STAT_TOTAL_SQ_LO i + 4 = Reg.STAT_TOTAL_SQ_HI i := by unfold Reg.STAT_TOTAL_SQ_LO Reg.STAT_TOTAL_SQ_HI; omega
  have hrg (o : Nat) : (s.statClear i).rg o = if o = Reg.STAT_TOTAL_SQ_HI i then 0 else if o = Reg.STAT_TOTAL_SQ_LO i then 0 else
      if o = Reg.STAT_PIECE_SQ_HI i then 0 else if o = Reg.STAT_PIECE_SQ_LO i then 0 else if o = Reg.STAT_BAD i then 0 else
      if o = Reg.STAT_STEPS i then 0 else s.rg o := by
    unfold State.statClear State.wrg64
    rw [hpiece, htotal]
    have hlo : lo32 0 = 0 := rfl
    have hhi : hi32 0 = 0 := rfl
    simp only [State.rg_wrg, hlo, hhi]
  have hzero (o : Nat) (ho : o ∈ [Reg.STAT_STEPS i, Reg.STAT_BAD i, Reg.STAT_PIECE_SQ_LO i, Reg.STAT_PIECE_SQ_HI i, Reg.STAT_TOTAL_SQ_LO i,
      Reg.STAT_TOTAL_SQ_HI i]) : (s.statClear i).rg o = 0 := by
    rw [hrg]
    simp only [List.mem_cons, List.not_mem_nil, or_false] at ho
    rcases ho with h | h | h | h | h | h <;> simp [h]
  have hpair {lo hi : Nat} (hadd : lo + 4 = hi) (hlo : (s.statClear i).rg lo = 0) (hhi : (s.statClear i).rg hi = 0) : (s.statClear i).rg64 lo = 0 := by
    rw [State.rg64, hadd, hlo, hhi]
    rfl
  refine ⟨hzero _ (by simp), hzero _ (by simp), hpair hpiece (hzero _ (by simp)) (hzero _ (by simp)), hpair htotal (hzero _ (by simp)) (hzero _ (by simp)), ?_⟩
  exact ((((OnlyRegs.refl ..).wrg (by simp) _).wrg (by simp) _).wrg64 (by simp) (by simp [hpiece]) _).wrg64 (by simp) (by simp [htotal]) _

theorem State.statWrite_refused {s : State} {i : Nat} {v : Word} (hset : bit v 31 = true)
    (h : s.inWindow i (s.statBase i) (16 * (s.fd (Reg.STAT_SHAPE_SLICES i) * s.fd (Reg.STAT_SHAPE_PIECES i))) = false ∨
      16384 < s.fd (Reg.STAT_SHAPE_SLICES i) * s.fd (Reg.STAT_SHAPE_PIECES i)) : s.statWrite i v = s.setF (Reg.STAT_CTRL_REFUSED i) 1 := by
  unfold State.statWrite
  dsimp only
  rw [if_pos]
  rcases h with h | h <;> simp [hset, h]

theorem State.statWrite_taken {s : State} {i : Nat} {v : Word}
    (h : bit v 31 = true → s.inWindow i (s.statBase i) (16 * (s.fd (Reg.STAT_SHAPE_SLICES i) * s.fd (Reg.STAT_SHAPE_PIECES i))) = true ∧
      s.fd (Reg.STAT_SHAPE_SLICES i) * s.fd (Reg.STAT_SHAPE_PIECES i) ≤ 16384) :
    s.statWrite i v = if bit v 30 then (s.plain (Reg.STAT_CTRL i) v).statClear i else s.plain (Reg.STAT_CTRL i) v := by
  unfold State.statWrite
  dsimp only
  rw [if_neg]
  by_cases hset : bit v 31 = true
  · obtain ⟨hwin, hlen⟩ := h hset
    simp [hwin, hlen]
  · simp [hset]

/-- A write of STAT_CTRL that takes. -/
theorem State.statTaken_spec (s : State) (i : Fin 64) (v : Word) :
    let t := if bit v 30 then (s.plain (Reg.STAT_CTRL i) v).statClear i else s.plain (Reg.STAT_CTRL i) v
    t.on (Reg.STAT_CTRL_EN i) = bit v 31 ∧ t.fd (Reg.STAT_CTRL_SLOT i) = bits v 9 0 ∧
    OnlyRegs s t [Reg.STAT_CTRL i, Reg.STAT_STEPS i, Reg.STAT_BAD i, Reg.STAT_PIECE_SQ_LO i, Reg.STAT_PIECE_SQ_HI i, Reg.STAT_TOTAL_SQ_LO i,
      Reg.STAT_TOTAL_SQ_HI i] := by
  intro t
  obtain ⟨-, -, -, -, hclear⟩ := (s.plain (Reg.STAT_CTRL i) v).statClear_spec i
  have hctrl : t.rg (Reg.STAT_CTRL i) = (s.plain (Reg.STAT_CTRL i) v).rg (Reg.STAT_CTRL i) := by
    by_cases h : bit v 30 = true
    · refine (congrArg (fun u : State => u.rg (Reg.STAT_CTRL i)) (if_pos h)).trans (hclear.2 _ ?_)
      simp only [List.mem_cons, List.not_mem_nil, or_false, Reg.STAT_CTRL, Reg.STAT_STEPS, Reg.STAT_BAD, Reg.STAT_PIECE_SQ_LO, Reg.STAT_PIECE_SQ_HI,
        Reg.STAT_TOTAL_SQ_LO, Reg.STAT_TOTAL_SQ_HI]
      omega
    · exact congrArg (fun u : State => u.rg (Reg.STAT_CTRL i)) (if_neg h)
  have hplain (l : List Nat) : OnlyRegs s (s.plain (Reg.STAT_CTRL i) v) (Reg.STAT_CTRL i :: l) := (OnlyRegs.refl ..).wrg (List.mem_cons_self ..) _
  refine ⟨?_, ?_, ?_⟩
  · exact (State.on_congr (x := Reg.STAT_CTRL_EN i) hctrl).trans (s.on_plain (regMasks_statCtrl i) v (k := 31) (by decide) (by decide))
  · exact (State.fd_congr (x := Reg.STAT_CTRL_SLOT i) hctrl).trans (s.fd_plain (regMasks_statCtrl i) v (hi := 9) (lo := 0) (by decide) (by decide))
  · exact OnlyRegs.ite ((hplain _).trans (hclear.mono (List.subset_cons_self ..))) (hplain _)

/-! ### The obligation -/

/-- Settles O49: each control's write is taken or refused by its rule, and a broadcast's end takes it out. -/
theorem gatesBroadcastsAndStatisticsAreArmed : Obligations.GatesBroadcastsAndStatisticsAreArmed := by
  unfold Obligations.GatesBroadcastsAndStatisticsAreArmed
  refine ⟨?gate, ?gateOff, ?cast, ?noCast, ?castDone, ?notCast, ?stat⟩
  case gate =>
    intro s i v hopen hset c
    have hexec : exec (.gateArm i v) s = .next (s.gateWrite i v) := congrArg Host.Outcome.next (State.hostWrite_of_open hopen ..)
    refine ⟨fun hown hper hruns => ?_, fun hrefused => ?_⟩
    · rw [s.gateWrite_armed i v hset hown hper hruns] at hexec
      have hbase : Reg.XCH_GATE_BASE_LO i + 4 = Reg.XCH_GATE_BASE_HI i := by unfold Reg.XCH_GATE_BASE_LO Reg.XCH_GATE_BASE_HI; omega
      let t := s.plain (Reg.XCH_GATE_CTRL i) v
      have hctrl : ((t.wrg64 (Reg.XCH_GATE_BASE_LO i) (s.pc c)).wrg (Reg.XCH_GATE_STEPS i) 0).rg (Reg.XCH_GATE_CTRL i) = t.rg (Reg.XCH_GATE_CTRL i) := by
        rw [State.wrg64, hbase, State.rg_wrg_of_ne _ (by simp only [Reg.XCH_GATE_CTRL, Reg.XCH_GATE_STEPS]; omega),
          State.rg_wrg_of_ne _ (by simp only [Reg.XCH_GATE_CTRL, Reg.XCH_GATE_BASE_HI]; omega),
          State.rg_wrg_of_ne _ (by simp only [Reg.XCH_GATE_CTRL, Reg.XCH_GATE_BASE_LO]; omega)]
      refine ⟨_, hexec, ?_, ?_, ?_, ?_, ?_, ?_⟩
      · refine (State.on_congr (x := Reg.XCH_GATE_CTRL_EN i) hctrl).trans ?_
        exact (s.on_plain (regMasks_gateCtrl i) v (k := 31) (by decide) (by decide)).trans hset
      · refine (State.fd_congr (x := Reg.XCH_GATE_CTRL_COUNTER i) hctrl).trans ?_
        exact s.fd_plain (regMasks_gateCtrl i) v (hi := 27) (lo := 16) (by decide) (by decide)
      · refine (State.fd_congr (x := Reg.XCH_GATE_CTRL_PER_STEP i) hctrl).trans ?_
        exact s.fd_plain (regMasks_gateCtrl i) v (hi := 15) (lo := 0) (by decide) (by decide)
      · have hlt : s.pc c < 2 ^ 64 := by
          have hlo := (s.rg (Reg.PC_VALUE_LO c)).isLt
          have hhi : s.fd (Reg.PC_VALUE_HI_VALUE c) < 2 ^ 16 := BitVec.isLt _
          rw [State.pc]
          omega
        rw [State.rg64, State.rg_wrg_of_ne _ (by simp only [Reg.XCH_GATE_BASE_LO, Reg.XCH_GATE_STEPS]; omega),
          State.rg_wrg_of_ne _ (by simp only [Reg.XCH_GATE_BASE_LO, Reg.XCH_GATE_STEPS]; omega)]
        exact (t.rg64_wrg64 ..).trans (Nat.mod_eq_of_lt hlt)
      · rw [State.rg_wrg, if_pos rfl]
      · exact (((OnlyRegs.refl ..).wrg (by simp) _).wrg64 (by simp) (by simp [hbase]) _).wrg (by simp) _
    · rw [s.gateWrite_refused i v hset hrefused] at hexec
      refine ⟨_, hexec, s.on_setF_one (x := Reg.XCH_GATE_CTRL_REFUSED i) rfl (by decide : 30 < 32), ?_, (OnlyRegs.refl ..).setF (by simp [Reg.XCH_GATE_CTRL_REFUSED]) _⟩
      exact s.on_setF_apart (x := Reg.XCH_GATE_CTRL_REFUSED i) (y := Reg.XCH_GATE_CTRL_EN i) rfl (.inl (by decide : 30 < 31)) (Nat.le_refl 30) (Nat.le_refl 31) _
  case gateOff =>
    intro s i v hopen hclear
    have hexec : exec (.gateArm i v) s = .next ((s.plain (Reg.XCH_GATE_CTRL i) (s.gateValue i v)).gateEnd i) := by
      refine (congrArg Host.Outcome.next (State.hostWrite_of_open hopen ..)).trans ?_
      unfold State.gateWrite
      dsimp only
      rw [if_neg (by rw [hclear]; decide)]
      rfl
    obtain ⟨hgone, harray, hrg⟩ := (s.plain (Reg.XCH_GATE_CTRL i) (s.gateValue i v)).gateEnd_spec i
    have hctrl := hrg (Reg.XCH_GATE_CTRL i) (by simp [Reg.XCH_GATE_CTRL, Reg.XCH_GATE_WAIT_US])
    obtain ⟨hen, hper⟩ := s.gateValue_spec i v
    refine ⟨_, hexec, ?_, hgone, ?_, harray, fun o ho => ?_⟩
    · refine (State.on_congr (x := Reg.XCH_GATE_CTRL_EN i) hctrl).trans ?_
      exact (s.on_plain (regMasks_gateCtrl i) _ (k := 31) (by decide) (by decide)).trans (hen.trans hclear)
    · refine (State.fd_congr (x := Reg.XCH_GATE_CTRL_PER_STEP i) hctrl).trans ?_
      exact (s.fd_plain (regMasks_gateCtrl i) _ (hi := 15) (lo := 0) (by decide) (by decide)).trans hper
    · simp only [List.mem_cons, List.not_mem_nil, or_false, not_or] at ho
      exact (hrg o (by simpa using ho.2)).trans (s.rg_wrg_of_ne ho.1 _)
  case cast =>
    intro s i v hopen hgo hcommit n
    have hexec : exec (.broadcastGo i v) s = .next (s.castWrite i v) := congrArg Host.Outcome.next (State.hostWrite_of_open hopen ..)
    rw [s.castWrite_go i hgo hcommit] at hexec
    refine ⟨fun hidle hwin => ?_, fun hrefused => ?_⟩
    · rw [if_neg (by simp [hidle, hwin, n])] at hexec
      refine ⟨_, hexec, State.on_setF_one _ (x := Reg.XCH_BC_CTRL_BUSY i) rfl (by decide : 30 < 32), rfl, ⟨rfl, rfl⟩, fun o ho => ?_⟩
      have hne : o ≠ Reg.XCH_BC_CTRL i := by simpa using ho
      exact (State.rg_setF_of_ne _ (x := Reg.XCH_BC_CTRL_BUSY i) hne _).trans (s.rg_wrg_of_ne hne _)
    · rw [if_pos (by rcases hrefused with h | h <;> simp [h, n])] at hexec
      refine ⟨_, hexec, State.on_setF_one _ (x := Reg.XCH_BC_STATUS_REFUSED i) rfl (by decide : 29 < 32), ?_⟩
      exact ((OnlyRegs.refl ..).wrg (by simp) _).setF (by simp [Reg.XCH_BC_STATUS_REFUSED]) _
  case noCast =>
    intro s i v hopen hno
    have hwait : (s.plain (Reg.XCH_BC_CTRL i) v).on (Reg.XCH_BC_CTRL_ON_COMMIT i) = bit v 29 :=
      s.on_plain (regMasks_bcCtrl i) v (k := 29) (by decide) (by decide)
    have hexec : exec (.broadcastGo i v) s = .next (s.plain (Reg.XCH_BC_CTRL i) v) := by
      refine (congrArg Host.Outcome.next (State.hostWrite_of_open hopen ..)).trans ?_
      unfold State.castWrite
      dsimp only
      rw [hwait, if_neg (by rcases hno with h | h <;> simp [h])]
    exact ⟨_, hexec, (OnlyRegs.refl ..).wrg (by simp) _⟩
  case castDone =>
    intro s i e hfind hready
    let t := if s.on (Reg.FL_INST_KEY_VALID i) then s.castSend i e.2.group e.2.addr e.2.bytes (ceilDiv e.2.bytes 4096) else s
    have ht : SameArray s t := SameArray.ite (State.castSend_sameArray (.refl s) ..) (.refl s)
    have hexec : exec (.broadcastDone i) s = .next (({ t with links := { t.links with casts := tdel t.links.casts i } }.setF
        (Reg.XCH_BC_CTRL_BUSY i) 0).setF (Reg.XCH_BC_STATUS_DONE i) 1) := by
      change execBroadcastDone i s = _
      unfold execBroadcastDone
      rw [hfind]
      dsimp only
      rw [hready]
      rfl
    refine ⟨_, hexec, ?_, State.on_setF_one _ (x := Reg.XCH_BC_STATUS_DONE i) rfl (by decide : 31 < 32), thas_tdel_same .., ht, fun hkey => ?_⟩
    · refine (State.on_setF_of_ne _ (x := Reg.XCH_BC_STATUS_DONE i) (y := Reg.XCH_BC_CTRL_BUSY i) ?_ _).trans ?_
      · simp only [Reg.XCH_BC_STATUS_DONE, Reg.XCH_BC_STATUS, Reg.XCH_BC_CTRL_BUSY, Reg.XCH_BC_CTRL]; omega
      · exact State.on_setF_zero _ (x := Reg.XCH_BC_CTRL_BUSY i) rfl (by decide : 30 < 32)
    · have hstay : t = s := if_neg (by rw [hkey]; decide)
      rw [hstay]
      exact ⟨rfl, rfl⟩
  case notCast =>
    intro s i hno
    change execBroadcastDone i s = _
    unfold execBroadcastDone
    rw [find?_none_of_thas hno]
  case stat =>
    intro s i v hopen n
    have harm : exec (.statArm i v) s = .next (s.statWrite i v) := congrArg Host.Outcome.next (State.hostWrite_of_open hopen ..)
    have hclear : exec (.statClear i v) s = .next (s.statWrite i v) := congrArg Host.Outcome.next (State.hostWrite_of_open hopen ..)
    obtain ⟨hen, hslot, honly⟩ := s.statTaken_spec i v
    refine ⟨fun hset hbad => ?_, fun hset hwin hlen => ?_, fun hoff h30 => ?_, fun hoff h30 => ?_⟩
    · rw [State.statWrite_refused hset hbad] at harm
      refine ⟨_, harm, s.on_setF_one (x := Reg.STAT_CTRL_REFUSED i) rfl (by decide : 29 < 32), ?_, (OnlyRegs.refl ..).setF (by simp [Reg.STAT_CTRL_REFUSED]) _⟩
      exact s.on_setF_apart (x := Reg.STAT_CTRL_REFUSED i) (y := Reg.STAT_CTRL_EN i) rfl (.inl (by decide : 29 < 31)) (Nat.le_refl 29) (Nat.le_refl 31) _
    · rw [State.statWrite_taken fun _ => ⟨hwin, hlen⟩] at harm
      exact ⟨_, harm, hen.trans hset, hslot, honly⟩
    · rw [State.statWrite_taken fun hset => absurd hset (by rw [hoff]; decide)] at hclear
      rw [if_pos h30] at hclear hen honly
      obtain ⟨hsteps, hbad, hpiece, htotal, -⟩ := (s.plain (Reg.STAT_CTRL i) v).statClear_spec i
      exact ⟨_, hclear, hsteps, hbad, hpiece, htotal, hen.trans hoff, honly⟩
    · rw [State.statWrite_taken fun hset => absurd hset (by rw [hoff]; decide)] at hclear
      rw [if_neg (by rw [h30]; decide)] at hclear hen
      exact ⟨_, hclear, hen.trans hoff, (OnlyRegs.refl ..).wrg (by simp) _⟩

end Sys2Proof.Machine

/-! Proofs about the Ethernet ports: frames, pauses, neighbours and links (R399 to R407, R417). -/

namespace Sys2Proof.Machine

/-! ### Bits of a register -/

/-- A single bit that is written takes the value, and every other bit of the register stays. -/
theorem getLsbD_setBits_bit (v : Word) {k : Nat} (hk : k < 32) (b : Bool) (j : Nat) :
    (setBits v k k (b2n b)).getLsbD j = if j = k then b else v.getLsbD j := by
  simp only [setBits, Nat.sub_self, Nat.zero_add, BitVec.getLsbD_or, BitVec.getLsbD_and, BitVec.getLsbD_not, BitVec.getLsbD_shiftLeft,
    BitVec.getLsbD_ofNat, Nat.testBit_two_pow_sub_one]
  by_cases hj : j < 32
  · rcases Nat.lt_trichotomy j k with hlt | rfl | hgt
    · simp [hj, hlt, Nat.ne_of_lt hlt]
    · cases b <;> simp [hj, b2n]
    · have hout : ¬ (j - k < 1) := by omega
      simp [hj, hout, Nat.ne_of_gt hgt]
  · have hne : j ≠ k := by omega
    rw [if_neg hne, BitVec.getLsbD_of_ge v j (Nat.le_of_not_lt hj)]
    simp [hj]

theorem State.testBit_fd (s : State) (x : Fld) {j : Nat} (hj : j ≤ x.hi - x.lo) : (s.fd x).testBit j = (s.rg x.off).getLsbD (x.lo + j) := by
  rw [State.fd, bits]
  change ((s.rg x.off).extractLsb' x.lo (x.hi - x.lo + 1)).getLsbD j = _
  rw [BitVec.getLsbD_extractLsb', decide_eq_true (Nat.lt_succ_of_le hj), Bool.true_and]

theorem State.getLsbD_setF_bit (s : State) {off k : Nat} (hk : k < 32) (b : Bool) (j : Nat) :
    ((s.setF ⟨off, k, k⟩ (b2n b)).rg off).getLsbD j = if j = k then b else (s.rg off).getLsbD j := by
  rw [State.rg_setF, if_pos rfl, getLsbD_setBits_bit _ hk]

/-! ### Pauses (R403, R405) -/

theorem State.groupsAgain_of_none {s : State} (h : s.net.groups = []) : s.groupsAgain = s := by
  have hstay : ({ s with net := { s.net with groups := [] } } : State) = s := by rw [← h]
  unfold State.groupsAgain
  rw [h, hstay]
  rfl

theorem State.setPause_paused (s : State) (p sub q quanta k : Nat) :
    tget 0 (s.setPause p sub q quanta).net.paused k = if k = prioKey p sub q then quanta else tget 0 s.net.paused k := by
  change tget 0 (if quanta = 0 then tdel s.net.paused (prioKey p sub q) else tput s.net.paused (prioKey p sub q) quanta) k = _
  split
  next hzero => rw [tget_tdel, hzero]
  next => rw [tget_tput]

/-- Pauses change the table of pauses and the register that shows them. -/
def OnlyPauses (s t : State) (p : Nat) : Prop :=
  OnlyRegs { s with net := t.net } t [Reg.ETH_PAUSED p] ∧ t.net = { s.net with paused := t.net.paused }

theorem State.setPause_onlyPauses (s : State) (p sub q quanta : Nat) : OnlyPauses s (s.setPause p sub q quanta) p :=
  ⟨⟨rfl, fun _ ho => State.rg_setF_of_ne _ (x := ⟨Reg.ETH_PAUSED p, 8 * sub + q, 8 * sub + q⟩) (by simpa using ho) _⟩, rfl⟩

theorem prioKey_inj {p sub q r : Nat} (h : prioKey p sub q = prioKey p sub r) : q = r := by
  unfold prioKey at h
  omega

theorem OnlyPauses.trans {s t u : State} {p : Nat} (h : OnlyPauses s t p) (k : OnlyPauses t u p) : OnlyPauses s u p := by
  obtain ⟨⟨hrest, hrg⟩, hnet⟩ := h
  obtain ⟨⟨krest, krg⟩, knet⟩ := k
  refine ⟨⟨?_, fun o ho => (krg o ho).trans (hrg o ho)⟩, ?_⟩
  · rw [krest, hrest]
  · rw [knet, hnet]

/-- The pauses that a list of priorities takes. -/
theorem State.each_setPause (s : State) (p sub : Nat) (quanta : Nat → Nat) (l : List Nat) :
    OnlyPauses s (s.each l fun u q => u.setPause p sub q (quanta q)) p ∧
    ∀ q, tget 0 (s.each l fun u q => u.setPause p sub q (quanta q)).net.paused (prioKey p sub q) =
      if q ∈ l then quanta q else tget 0 s.net.paused (prioKey p sub q) := by
  unfold State.each
  induction l generalizing s with
  | nil => exact ⟨⟨⟨rfl, fun _ _ => rfl⟩, rfl⟩, fun q => (if_neg List.not_mem_nil).symm⟩
  | cons r l ih =>
    obtain ⟨honly, hpaused⟩ := ih (s.setPause p sub r (quanta r))
    refine ⟨(s.setPause_onlyPauses ..).trans honly, fun q => ?_⟩
    rw [List.foldl_cons, hpaused, State.setPause_paused]
    by_cases hq : q ∈ l
    · rw [if_pos hq, if_pos (List.mem_cons_of_mem _ hq)]
    · rw [if_neg hq]
      by_cases hqr : q = r
      · rw [hqr, if_pos rfl, if_pos (List.mem_cons_self ..)]
      · rw [if_neg fun h => hqr (prioKey_inj h), if_neg fun h => hqr ((List.mem_cons.1 h).resolve_right hq)]

/-- A datagram that a sub-port takes in. -/
theorem State.rxLevel_quiet {s : State} {p sub q fill : Nat} (hsent : tget false s.net.pfcSent (prioKey p sub q) = false) (hfill : fill ≤ 786432) :
    s.rxLevel p sub q fill = { s with net := { s.net with rxFill := tput s.net.rxFill (prioKey p sub q) fill } } := by
  unfold State.rxLevel
  dsimp only
  rw [hsent, decide_eq_false (by omega : ¬ 786432 < fill)]
  simp

/-- A buffer whose pause is out is repeated or ended (R405). -/
theorem execPfcRepeat_of_sent {s : State} {p : Fin 4} {sub : BitVec 2} {q : Fin 8} {fill : Nat} (hsends : s.sends)
    (hsent : tget false s.net.pfcSent (prioKey p sub.toNat q) = true) : execPfcRepeat p sub q fill s =
      .next { s with
        outbox := s.outbox ++ [.eth p sub.toNat (.pause q (if fill ≤ 524288 then 0 else 65535))]
        net := { s.net with
          rxFill := tput s.net.rxFill (prioKey p sub.toNat q) fill
          pfcSent := tput s.net.pfcSent (prioKey p sub.toNat q) (decide (524288 < fill)) } } := by
  have hpause (quanta : Nat) : ({ s with net := { s.net with rxFill := tput s.net.rxFill (prioKey p sub.toNat q) fill } } : State).sendPause p sub.toNat q quanta =
      { s with
        outbox := s.outbox ++ [.eth p sub.toNat (.pause q quanta)]
        net := { s.net with
          rxFill := tput s.net.rxFill (prioKey p sub.toNat q) fill, pfcSent := tput s.net.pfcSent (prioKey p sub.toNat q) (decide (quanta ≠ 0)) } } := by
    unfold State.sendPause
    rw [State.emit_of_sends (s := { s with net := { s.net with rxFill := tput s.net.rxFill (prioKey p sub.toNat q) fill } }) hsends]
  unfold execPfcRepeat State.rxLevel
  dsimp only
  rw [hsent]
  by_cases hfill : fill ≤ 524288
  · simp only [hfill, Nat.not_lt.2 hfill, decide_true, decide_false, Bool.not_true, Bool.and_false, Bool.and_true, if_true, if_false,
      Bool.false_eq_true, hpause]
    rfl
  · simp only [hfill, Nat.not_le.1 hfill, decide_true, decide_false, Bool.not_true, Bool.and_false, if_false,
      Bool.false_eq_true, hpause]
    rfl

/-! ### Frames (R400 to R407) -/

section
variable {s : State} {p : Fin 4} {sub : BitVec 2} {f : EthFrame} {fill : Nat}

/-- A frame passes the checks that every frame meets. -/
def State.framePlain (s : State) (p sub : Nat) (f : EthFrame) : Bool := decide (f.tags < 2) && decide (f.bytes ≤ 9216) && f.fcsOk && s.macOk p sub f

theorem State.framePlain_iff (s : State) (p sub : Nat) (f : EthFrame) :
    (decide (2 ≤ f.tags) || decide (9216 < f.bytes) || ! f.fcsOk || ! s.macOk p sub f) = ! s.framePlain p sub f := by
  unfold State.framePlain
  by_cases htags : f.tags < 2 <;> by_cases hbytes : f.bytes ≤ 9216 <;> cases f.fcsOk <;> cases s.macOk p sub f <;>
    simp [htags, hbytes, Nat.not_le.2, Nat.not_lt.1, Nat.not_lt.2, Nat.not_le.1]

variable (hup : (s.fd (Reg.ETH_STATUS_LINK_UP p)).testBit sub.toNat = true)
include hup

theorem execEthFrameReceive_dropped (hplain : s.framePlain p sub.toNat f = false) :
    execEthFrameReceive p sub f fill s = .next (s.inc (Reg.ETH_RX_DROPPED p)) := by
  unfold execEthFrameReceive
  dsimp only
  rw [hup, State.framePlain_iff, hplain]
  rfl

theorem execEthFrameReceive_globalPause (hplain : s.framePlain p sub.toNat f = true) (hkind : f.kind = .globalPause) :
    execEthFrameReceive p sub f fill s = .next (s.inc (Reg.ETH_GPAUSE_DROPPED p)) := by
  unfold execEthFrameReceive
  dsimp only
  rw [hup, State.framePlain_iff, hplain, hkind]
  rfl

/-- A sound datagram for an own address comes to the checks of its header. -/
theorem execEthFrameReceive_udp (hplain : s.framePlain p sub.toNat f = true) {d : Datagram} {ip : BitVec 128}
    (hkind : f.kind = .udp d false ip false false true false) (haddr : s.ownAddr p sub.toNat false ip.toNat (if f.tags = 0 then 0 else f.vlan.toNat) = true)
    (hfill : fill + f.bytes ≤ 524288) (hsent : tget false s.net.pfcSent (prioKey p sub.toNat f.prio) = false) :
    execEthFrameReceive p sub f fill s =
      .next ({ s with net := { s.net with rxFill := tput s.net.rxFill (prioKey p sub.toNat f.prio) (fill + f.bytes) } }.headerIn p sub.toNat d) := by
  unfold execEthFrameReceive
  dsimp only
  rw [hup, State.framePlain_iff, hplain, hkind]
  dsimp only
  rw [haddr, if_neg (show ¬ 1048576 < fill + f.bytes by omega), State.rxLevel_quiet hsent (by omega)]
  rfl

end

theorem State.cplMismatch_count (s : State) {off : Nat} (hoff : off ≠ Reg.FH_CPL_MISMATCH) (stop unit detail : Nat) :
    (s.cplMismatch (some off) stop unit detail).rg off = s.rg off + 1 := by
  change ((s.inc off).inc Reg.FH_CPL_MISMATCH).rg _ = _
  rw [State.rg_inc_of_ne _ hoff, State.rg_inc_same]

/-! ### Links (R399, R417) -/

/-- The link bits of a port after one sub-port's status is set. -/
theorem State.linkUp_setF (s : State) (p : Nat) {b : Nat} (hb : b < 4) (up fec : Bool) {k : Nat} (hk : k < 4) :
    (((s.setF ⟨Reg.ETH_STATUS p, 28 + b, 28 + b⟩ (b2n up)).setF ⟨Reg.ETH_STATUS p, 24 + b, 24 + b⟩ (b2n fec)).fd
      (Reg.ETH_STATUS_LINK_UP p)).testBit k = if k = b then up else (s.fd (Reg.ETH_STATUS_LINK_UP p)).testBit k := by
  rw [State.testBit_fd _ _ (by simp [Reg.ETH_STATUS_LINK_UP]; omega), State.testBit_fd _ _ (by simp [Reg.ETH_STATUS_LINK_UP]; omega)]
  change (State.rg _ (Reg.ETH_STATUS p)).getLsbD (28 + k) = if k = b then up else (s.rg (Reg.ETH_STATUS p)).getLsbD (28 + k)
  rw [State.getLsbD_setF_bit _ (by omega), if_neg (by omega), State.getLsbD_setF_bit _ (by omega)]
  exact if_congr (by omega) rfl rfl

theorem State.linkStatus_onlyRegs (s : State) (p hi lo hi' lo' k k' : Nat) :
    OnlyRegs s ((s.setF ⟨Reg.ETH_STATUS p, hi, lo⟩ k).setF ⟨Reg.ETH_STATUS p, hi', lo'⟩ k') [Reg.ETH_STATUS p] :=
  ((OnlyRegs.refl ..).setF (x := ⟨Reg.ETH_STATUS p, hi, lo⟩) (List.mem_singleton_self _) _).setF (x := ⟨Reg.ETH_STATUS p, hi', lo'⟩)
    (List.mem_singleton_self _) _

/-! ### The obligation -/

/-- Settles O44: each frame by the first of its checks that decides, and pauses and links by the bit of their sub-port. -/
theorem ethernetPortsTakeFramesAndPauses : Obligations.EthernetPortsTakeFramesAndPauses := by
  unfold Obligations.EthernetPortsTakeFramesAndPauses
  refine ⟨?frame, ?pfc, ?expire, ?again, ?arp, ?up, ?down⟩
  case frame =>
    intro s p sub f fill up plain
    refine ⟨fun hdown => ?_, fun hup hplain => execEthFrameReceive_dropped hup hplain,
      fun hup hplain hkind => execEthFrameReceive_globalPause hup hplain hkind, fun d ip hup hplain hkind hlen haddr hfill hsent => ?_⟩
    · change execEthFrameReceive p sub f fill s = _
      unfold execEthFrameReceive
      dsimp only
      rw [show (s.fd (Reg.ETH_STATUS_LINK_UP p)).testBit sub.toNat = false from hdown]
      rfl
    · have hexec : exec (.ethFrameReceive p sub f fill) s = _ := execEthFrameReceive_udp hup hplain hkind haddr hfill hsent
      refine ⟨fun hpair hver htyp hbody => ?_, fun hpair => ?_⟩
      · rw [State.headerIn, if_neg (by simp [hlen]), if_neg (by simp [hpair]), if_neg (by omega), State.emit_of_undisabled _ rfl] at hexec
        exact ⟨_, hexec, rfl, rfl, rfl⟩
      · rw [State.headerIn, if_neg (by simp [hlen]), if_pos hpair] at hexec
        refine ⟨_, hexec, rfl, ⟨rfl, rfl⟩, ?_, ?_, fun o ho => ?_⟩
        · exact State.cplMismatch_count _ (by decide) ..
        · exact State.cplMismatch_rg _ (by decide) ..
        · exact (Reports.cplMismatch (Reports.refl (W := (· ∈ [Reg.SES_CPL_DISCARD, Reg.FH_CPL_MISMATCH])) _) (by simp) (by simp) ..).regs o ho
  case pfc =>
    intro s p sub en quanta hgroups
    let l := (List.range 8).filter fun q => bit en q && (s.fd (Reg.ETH_PFC_RX_EN p)).testBit q
    obtain ⟨⟨⟨hrest, hrg⟩, hnet⟩, hpaused⟩ := (s.inc (Reg.ETH_PFC_RX p)).each_setPause p sub.toNat (fun q => (quanta.getD q 0).toNat) l
    have hexec : exec (.pfcReceive p sub en quanta) s =
        .next ((s.inc (Reg.ETH_PFC_RX p)).each l fun u q => u.setPause p sub.toNat q (quanta.getD q 0).toNat) := by
      change execPfcReceive p sub en quanta s = _
      unfold execPfcReceive
      dsimp only
      rw [State.groupsAgain_of_none]
      rw [hnet]
      exact hgroups
    refine ⟨_, hexec, ?_, fun q hq => ?_, ?_, ?_, fun o ho => ?_⟩
    · rw [hrg _ (by simp [Reg.ETH_PFC_RX, Reg.ETH_PAUSED])]
      exact s.rg_inc_same _
    · refine (hpaused q).trans (if_congr ?_ rfl rfl)
      simp [l, hq]
    · rw [hrest]
      rfl
    · rw [hrest]
      exact ⟨rfl, rfl⟩
    · simp only [List.mem_cons, List.not_mem_nil, or_false, not_or] at ho
      exact (hrg o (by simpa using ho.2)).trans (s.rg_inc_of_ne ho.1)
  case expire =>
    intro s p sub q hgroups
    have hexec : exec (.pauseExpire p sub q) s = .next (s.setPause p sub.toNat q 0) := by
      refine congrArg Host.Outcome.next ?_
      rw [State.groupsAgain_of_none]
      exact hgroups
    have hbit : 8 * sub.toNat + q.val < 32 := by omega
    refine ⟨_, hexec, ?_, ?_, fun k hk => ?_, rfl, ⟨rfl, rfl⟩, fun o ho => ?_⟩
    · rw [State.setPause_paused, if_pos rfl]
    · rw [State.testBit_fd _ _ (by simp [Reg.ETH_PAUSED_PAUSED]; omega)]
      exact (State.getLsbD_setF_bit _ hbit false _).trans (if_pos (Nat.zero_add _))
    · rw [State.setPause_paused, if_neg hk]
    · exact (s.setPause_onlyPauses ..).1.2 o ho
  case again =>
    intro s p sub q fill hsends
    refine ⟨fun hsent => ?_, fun hsent => ?_⟩
    · change execPfcRepeat p sub q fill s = _
      unfold execPfcRepeat
      rw [hsent]
      rfl
    · exact ⟨_, execPfcRepeat_of_sent hsends hsent, rfl, (tget_tput ..).trans (if_pos rfl), (tget_tput ..).trans (if_pos rfl), rfl⟩
  case arp =>
    intro s p sub v6 ip vlan hsends
    change execArpRequest p sub v6 ip vlan s = _
    rw [execArpRequest, State.emit_of_sends hsends]
  case up =>
    intro s p sub usable
    refine ⟨fun husable => ?_, fun husable => ?_⟩
    · have hexec : exec (.ethLinkUp p sub) s = .next ((s.setF ⟨Reg.ETH_STATUS p, 28 + sub.toNat, 28 + sub.toNat⟩ 1).setF
          ⟨Reg.ETH_STATUS p, 24 + sub.toNat, 24 + sub.toNat⟩ 1) := congrArg Host.Outcome.next (if_pos husable)
      refine ⟨_, hexec, s.linkStatus_onlyRegs .., fun b hb => ?_⟩
      refine (s.linkUp_setF p (by omega) true true hb).trans ?_
      by_cases hsub : b = sub.toNat <;> simp [hsub]
    · exact congrArg Host.Outcome.next (if_neg (Bool.eq_false_iff.1 husable))
  case down =>
    intro s p sub fec hgroups
    let t := (s.setF ⟨Reg.ETH_STATUS p, 28 + sub.toNat, 28 + sub.toNat⟩ 0).setF ⟨Reg.ETH_STATUS p, 24 + sub.toNat, 24 + sub.toNat⟩ (b2n fec)
    have hexec : exec (.ethLinkDown p sub fec) s = .next t := by
      refine congrArg Host.Outcome.next ?_
      rw [State.ethDown, State.groupsAgain_of_none]
      exact hgroups
    refine ⟨_, hexec, s.linkStatus_onlyRegs .., rfl, fun b hb => ?_⟩
    refine (s.linkUp_setF p (by omega) false fec hb).trans ?_
    by_cases hsub : b = sub.toNat <;> simp [hsub]

end Sys2Proof.Machine

/-! Proofs about the cold reset (R607, Table 19.2) and the management bus (R617 to R619, Table 19.5). -/

namespace Sys2Proof.Machine

/-! ### What a cold reset leaves -/

theorem State.eraseBlocks_frame (s : State) (e : Nat) : s.eraseBlocks e = { s with store := (s.eraseBlocks e).store } := by
  have heach (l : List Nat) : ∀ s : State, (s.each l fun u b => u.setBlock b { u.block b with cls := 2 })
      = { s with store := (s.each l fun u b => u.setBlock b { u.block b with cls := 2 }).store } := by
    induction l with
    | nil => exact fun _ => rfl
    | cons b l ih =>
      intro s
      exact ih _
  unfold State.eraseBlocks
  dsimp only
  rw [heach]

/-- An entry whose last use ends changes the store alone. -/
theorem State.libSettle_frame (s : State) (e : Nat) : s.libSettle e = { s with store := (s.libSettle e).store } := by
  unfold State.libSettle
  dsimp only
  split
  · rw [State.setLib, s.eraseBlocks_frame]
  · rfl

theorem State.settle_frame (s : State) (l : List Nat) : s.each l State.libSettle = { s with store := (s.each l State.libSettle).store } := by
  induction l generalizing s with
  | nil => rfl
  | cons e l ih =>
    change (s.libSettle e).each l State.libSettle = { s with store := ((s.libSettle e).each l State.libSettle).store }
    rw [ih, s.libSettle_frame]

theorem State.settle_rg (s : State) (l : List Nat) (off : Nat) : (s.each l State.libSettle).rg off = s.rg off := by
  rw [s.settle_frame]
  rfl

/-- After a cold reset only GS_RESET_CAUSE differs from the register table. -/
theorem State.coldReset_rg (s : State) (cause : Option Nat) {off : Nat} (h : off ≠ Reg.GS_RESET_CAUSE) : (s.coldReset cause).rg off = regReset off := by
  unfold State.coldReset
  rw [State.rg_wrg_of_ne _ h, State.settle_rg]
  rfl

theorem State.coldReset_cause (s : State) (k : Nat) :
    (s.coldReset (some k)).rg Reg.GS_RESET_CAUSE = s.rg Reg.GS_RESET_CAUSE ||| BitVec.ofNat 32 (2 ^ k) := by
  unfold State.coldReset
  rw [State.rg_wrg, if_pos rfl]

theorem State.coldReset_clusters (s : State) (cause : Option Nat) : (s.coldReset cause).clusters = [] := by
  unfold State.coldReset
  dsimp only [State.wrg]
  rw [State.settle_frame]
  rfl

theorem State.coldReset_outbox (s : State) (cause : Option Nat) : (s.coldReset cause).outbox = s.outbox := by
  unfold State.coldReset
  dsimp only [State.wrg]
  rw [State.settle_frame]

theorem State.coldReset_mgmt (s : State) (cause : Option Nat) : (s.coldReset cause).mgmt = s.mgmt.cold := by
  unfold State.coldReset
  dsimp only [State.wrg]
  rw [State.settle_frame]

theorem State.coldCause_of_running {s : State} (h : s.inShutdown = false) (k : Nat) : s.coldCause k = s.coldReset (some k) := by
  rw [State.coldCause, if_neg (by simp [h])]

/-! ### The bytes of a recovery image -/

/-- Bytes put at consecutive addresses. -/
theorem tget_foldl_tput_mapIdx (a : Nat) (data : List Byte) (t : Table Byte) (k : Nat) :
    tget 0#8 ((data.mapIdx fun j v => (a + j, v)).foldl (fun t (e : Nat × Byte) => tput t e.1 e.2) t) k
      = if a ≤ k ∧ k < a + data.length then data.getD (k - a) 0#8 else tget 0#8 t k := by
  induction data generalizing a t with
  | nil => simp
  | cons b data ih =>
    have hshift : ((b :: data).mapIdx fun j v => (a + j, v)) = (a, b) :: data.mapIdx fun j v => (a + 1 + j, v) := by
      rw [List.mapIdx_cons]
      congr 1
      exact congrArg (List.mapIdx · data) (by funext j v; rw [show a + (j + 1) = a + 1 + j by omega])
    rw [hshift, List.foldl_cons, ih, tget_tput]
    by_cases hk : k = a
    · subst hk
      simp
    · by_cases hin : a ≤ k ∧ k < a + (b :: data).length
      · have hsub : k - a = (k - (a + 1)) + 1 := by omega
        have hin' : a + 1 ≤ k ∧ k < a + 1 + data.length := by
          rw [List.length_cons] at hin
          omega
        rw [if_pos hin, if_pos hin', hsub, List.getD_cons_succ]
      · have hin' : ¬ (a + 1 ≤ k ∧ k < a + 1 + data.length) := by
          rw [List.length_cons] at hin
          omega
        rw [if_neg hin, if_neg hin', if_neg hk]

/-! ### Answers -/

section
variable {s : State} {pec : Bool}

theorem State.vendorRun_unserved (hserves : s.mctpServes pec = false) (cmd : Nat) (f : State → State) : s.vendorRun pec cmd f = s := by
  simp [State.vendorRun, hserves]

theorem State.vendorRun_recovery (hserves : s.mctpServes pec = true) (hrec : s.on Reg.GS_STATUS_RECOVERY = true) (cmd : Nat) (f : State → State) :
    s.vendorRun pec cmd f = s.vendorUnserved cmd := by simp [State.vendorRun, hserves, hrec]

theorem State.vendorRun_service (hserves : s.mctpServes pec = true) (hrec : s.on Reg.GS_STATUS_RECOVERY = false) (cmd : Nat) (f : State → State) :
    s.vendorRun pec cmd f = f s := by simp [State.vendorRun, hserves, hrec]

/-- What is not served is answered with a status that is not OK. -/
theorem State.vendorUnserved_spec (s : State) (cmd : Nat) : ∃ st, 1 ≤ st ∧ st ≤ 3 ∧
    s.vendorUnserved cmd = ({ s with freeCount := s.freeCount + 1 }).emit (.mctp (0x7F00 + cmd) st []) :=
  ⟨s.free.1.toNat % 3 + 1, by omega, by omega, rfl⟩

end

theorem managementCommands_pass {s : State} {pec : Bool} (h : s.mctpServes pec = false) (eid typ sel k part : BitVec 8) (off v n len : Word)
    (vf sig : Bool) (code codeN svn build : BitVec 16) (data : List Byte) :
    ∀ c ∈ [Instr.setEndpointId pec eid, .getEndpointId pec, .getMctpVersionSupport pec typ, .getMessageTypeSupport pec,
      .getVendorDefinedMessageSupport pec sel, .readReg pec off, .writeReg pec off v vf, .readPage pec k part, .readEvent pec n,
      .mctpReset pec code codeN, .recoveryWrite pec off data, .recoveryCommit pec len sig svn build], Passes c s := by
  have hnot : ((! s.mctpServes pec) = true) := by rw [h]; rfl
  have hneg : ¬ (s.mctpServes pec = true) := by simp [h]
  simp only [List.forall_mem_cons, List.not_mem_nil, false_implies, implies_true, and_true]
  exact ⟨congrArg Host.Outcome.next (if_pos hnot), congrArg Host.Outcome.next (if_neg hneg), congrArg Host.Outcome.next (if_pos hnot),
    congrArg Host.Outcome.next (if_neg hneg), congrArg Host.Outcome.next (if_pos hnot), congrArg Host.Outcome.next (if_pos hnot),
    congrArg Host.Outcome.next (s.vendorRun_unserved h ..), congrArg Host.Outcome.next (s.vendorRun_unserved h ..),
    congrArg Host.Outcome.next (s.vendorRun_unserved h ..), congrArg Host.Outcome.next (if_pos hnot),
    congrArg Host.Outcome.next (if_pos hnot), congrArg Host.Outcome.next (if_pos hnot)⟩

/-! ### The commands that are served -/

section
variable {s : State} {pec : Bool} (hserves : s.mctpServes pec = true)
include hserves

theorem setEndpointId_takes {eid : BitVec 8} (h0 : eid ≠ 0#8) (hF : eid ≠ 0xFF#8) : After (.setEndpointId pec eid) s fun t =>
    t.fd Reg.MG_SMBUS_EID = eid.toNat ∧ t.outbox = s.outbox ++ [.mctp 1 0 [eid]] ∧ OnlyRegs { s with outbox := t.outbox } t [Reg.MG_SMBUS] := by
  have hexec : exec (.setEndpointId pec eid) s = .next ((s.setF Reg.MG_SMBUS_EID eid.toNat).sent [.mctp 1 0 [eid]]) := by
    change execSetEndpointId pec eid s = _
    rw [execSetEndpointId, if_neg (by simp [hserves]), if_neg (by simp [h0, hF]), State.controlReply, State.emit_of_undisabled _ rfl]
    rfl
  refine ⟨_, hexec, ?sets, rfl, rfl, fun off hoff => ?regs⟩
  case sets =>
    have hfits : eid.toNat < 2 ^ 8 := eid.isLt
    exact (State.fd_setF_same s (x := Reg.MG_SMBUS_EID) (by decide) (by decide) _).trans (Nat.mod_eq_of_lt hfits)
  case regs => exact s.rg_setF_of_ne (x := Reg.MG_SMBUS_EID) (by simpa [Reg.MG_SMBUS_EID] using hoff) _

theorem getMctpVersionSupport_answers (typ : BitVec 8) :
    (typ = 0#8 ∨ typ = 0x7F#8 ∨ typ = 0xFF#8 → ∃ w : Word,
      exec (.getMctpVersionSupport pec typ) s = .next (({ s with freeCount := s.freeCount + 1 }).emit (.mctp 4 0 (leBytes 4 w.toNat)))) ∧
    (typ ≠ 0#8 → typ ≠ 0x7F#8 → typ ≠ 0xFF#8 → exec (.getMctpVersionSupport pec typ) s = .next (s.emit (.mctp 4 0x80 []))) := by
  change (_ → ∃ w : Word, execGetMctpVersionSupport pec typ s = _) ∧ (_ → _ → _ → execGetMctpVersionSupport pec typ s = _)
  rw [execGetMctpVersionSupport, if_neg (by simp [hserves])]
  constructor
  · intro hknown
    rw [if_neg (by rintro ⟨h0, h7, hF⟩; rcases hknown with h | h | h <;> contradiction)]
    exact ⟨s.free.1, rfl⟩
  · intro h0 h7 hF
    rw [if_pos ⟨h0, h7, hF⟩]
    rfl

theorem readReg_answers {off : Word} (hread : s.readServed off.toNat = true) :
    (off.toNat < 2 ^ 24 → off.toNat % 4 = 0 → After (.readReg pec off) s fun t =>
      t.outbox = (s.read4 true off.toNat).2.outbox ++ [.mctp 0x7F01 0 (leBytes 4 (s.read4 true off.toNat).1.toNat)] ∧
        t.regs = (s.read4 true off.toNat).2.regs) ∧
    (2 ^ 24 ≤ off.toNat ∨ off.toNat % 4 ≠ 0 → exec (.readReg pec off) s = .next (s.emit (.mctp 0x7F01 2 []))) := by
  change (_ → _ → ∃ t, execReadReg pec off s = _ ∧ _) ∧ (_ → execReadReg pec off s = _)
  rw [execReadReg, if_neg (by simp [hserves]), if_neg (by simp [hread])]
  constructor
  · intro hlt halign
    rw [if_neg (by omega)]
    refine ⟨_, rfl, ?_⟩
    rw [State.vendorReply, State.emit_of_undisabled _ rfl]
    exact ⟨rfl, rfl⟩
  · intro hout
    rw [if_pos hout]
    rfl

theorem recovery_unserved (hrec : s.on Reg.GS_STATUS_RECOVERY = true) (k part : BitVec 8) (off v n : Word) (vf : Bool) :
    ∀ c ∈ [(Instr.writeReg pec off v vf, 2), (.readPage pec k part, 3), (.readEvent pec n, 4)] ++
        (if s.readServed off.toNat then [] else [(.readReg pec off, 1)]),
      ∃ st, 1 ≤ st ∧ st ≤ 3 ∧ exec c.1 s = .next (({ s with freeCount := s.freeCount + 1 }).emit (.mctp (0x7F00 + c.2) st [])) := by
  have hspec {c : Instr} {cmd : Nat} (h : exec c s = .next (s.vendorUnserved cmd)) : ∃ st, 1 ≤ st ∧ st ≤ 3 ∧
      exec c s = .next (({ s with freeCount := s.freeCount + 1 }).emit (.mctp (0x7F00 + cmd) st [])) := by
    obtain ⟨st, hlo, hhi, heq⟩ := s.vendorUnserved_spec cmd
    exact ⟨st, hlo, hhi, by rw [h, heq]⟩
  intro c hc
  rcases List.mem_append.1 hc with hc | hc
  · simp only [List.mem_cons, List.not_mem_nil, or_false] at hc
    obtain rfl | rfl | rfl := hc <;> exact hspec (congrArg Host.Outcome.next (State.vendorRun_recovery hserves hrec ..))
  · split at hc
    · cases hc
    next hread =>
      obtain rfl := List.mem_singleton.1 hc
      refine hspec ?_
      change execReadReg pec off s = _
      rw [execReadReg, if_neg (by simp [hserves]), if_pos (by simp [hread])]

theorem service_unserved (hrec : s.on Reg.GS_STATUS_RECOVERY = false) (off len : Word) (data : List Byte) (sig : Bool) (svn build : BitVec 16) :
    ∀ c ∈ [(Instr.recoveryWrite pec off data, 6), (.recoveryCommit pec len sig svn build, 7)],
      ∃ st, 1 ≤ st ∧ st ≤ 3 ∧ exec c.1 s = .next (({ s with freeCount := s.freeCount + 1 }).emit (.mctp (0x7F00 + c.2) st [])) := by
  intro c hc
  obtain ⟨st, hlo, hhi, heq⟩ := s.vendorUnserved_spec c.2
  refine ⟨st, hlo, hhi, ?_⟩
  rw [← heq]
  simp only [List.mem_cons, List.not_mem_nil, or_false] at hc
  obtain rfl | rfl := hc
  · change execRecoveryWrite pec off data s = _
    rw [execRecoveryWrite, if_neg (by simp [hserves]), if_pos (by simp [hrec])]
  · change execRecoveryCommit pec len sig svn build s = _
    rw [execRecoveryCommit, if_neg (by simp [hserves]), if_pos (by simp [hrec])]

theorem readPage_answers (hrec : s.on Reg.GS_STATUS_RECOVERY = false) (k part : BitVec 8) :
    (16 ≤ k.toNat ∨ 4 ≤ part.toNat → exec (.readPage pec k part) s = .next (s.emit (.mctp 0x7F03 2 []))) ∧
    (k.toNat < 16 → part.toNat < 4 → exec (.readPage pec k part) s = .next (s.emit (.mctp 0x7F03 0
      (wordBytes ((List.range 64).map fun w => s.rg (samplePage k.toNat + 256 * part.toNat + 4 * w)))))) := by
  change (_ → execReadPage pec k part s = _) ∧ (_ → _ → execReadPage pec k part s = _)
  rw [execReadPage, State.vendorRun_service hserves hrec]
  refine ⟨fun hout => ?_, fun hk hpart => ?_⟩
  · rw [if_pos hout]
    rfl
  · rw [if_neg (by omega)]
    rfl

theorem readEvent_answers (hrec : s.on Reg.GS_STATUS_RECOVERY = false) (n : Word) :
    (1 ≤ (s.rg Reg.FH_EVT_HEAD - n).toNat → (s.rg Reg.FH_EVT_HEAD - n).toNat ≤ 256 → s.rg (Reg.EVT_SEQ (n.toNat % 256)) = n →
      exec (.readEvent pec n) s = .next (s.emit (.mctp 0x7F04 0
        (wordBytes ((List.range 8).map fun w => s.rg (Reg.EVT_CAUSE (n.toNat % 256) + 4 * w)))))) ∧
    ((s.rg Reg.FH_EVT_HEAD - n).toNat = 0 ∨ 256 < (s.rg Reg.FH_EVT_HEAD - n).toNat ∨ s.rg (Reg.EVT_SEQ (n.toNat % 256)) ≠ n →
      exec (.readEvent pec n) s = .next (s.emit (.mctp 0x7F04 2 []))) := by
  change (_ → _ → _ → execReadEvent pec n s = _) ∧ (_ → execReadEvent pec n s = _)
  rw [execReadEvent, State.vendorRun_service hserves hrec]
  refine ⟨fun hlo hhi hseq => ?_, fun hout => ?_⟩
  · rw [if_pos ⟨hlo, hhi, hseq⟩]
    rfl
  · rw [if_neg (by rintro ⟨hlo, hhi, hseq⟩; rcases hout with h | h | h <;> first | omega | exact h hseq)]
    rfl

theorem mctpReset_answers (hrec : s.on Reg.GS_STATUS_RECOVERY = false) (code codeN : BitVec 16) :
    (codeN ≠ ~~~code → After (.mctpReset pec code codeN) s fun t => t.rg Reg.FH_CPL_MISMATCH = s.rg Reg.FH_CPL_MISMATCH + 1 ∧
      t.outbox = s.outbox ++ [.mctp 0x7F05 2 []] ∧ SameArray s t ∧ RegsBut s t [Reg.FH_CPL_MISMATCH]) ∧
    (codeN = ~~~code → code ≠ 0x0C01#16 → code ≠ 0x0C02#16 → exec (.mctpReset pec code codeN) s = .next (s.emit (.mctp 0x7F05 2 []))) ∧
    (codeN = ~~~code → code = 0x0C01#16 ∨ code = 0x0C02#16 →
      exec (.mctpReset pec code codeN) s = .next ((s.emit (.mctp 0x7F05 0 [])).resetCode code.toNat)) := by
  change (_ → ∃ t, execMctpReset pec code codeN s = _ ∧ _) ∧ (_ → _ → _ → execMctpReset pec code codeN s = _) ∧ (_ → _ → execMctpReset pec code codeN s = _)
  rw [execMctpReset, if_neg (by simp [hserves]), if_neg (by simp [hrec])]
  refine ⟨fun hmis => ?mismatch, fun hmatch h1 h2 => ?undefined, fun hmatch hcode => ?resets⟩
  case mismatch =>
    rw [if_pos hmis]
    refine ⟨_, rfl, ?_⟩
    rw [State.vendorReply, State.emit_of_undisabled _ rfl]
    refine ⟨State.rg_inc_same _ _, rfl, ⟨rfl, rfl⟩, fun off hoff => ?_⟩
    exact State.rg_inc_of_ne _ (by simpa using hoff)
  case undefined =>
    rw [if_neg (not_not_intro hmatch), if_neg (by simp [h1, h2])]
    rfl
  case resets =>
    rw [if_neg (not_not_intro hmatch), if_pos hcode]
    rfl

theorem recoveryWrite_answers (hrec : s.on Reg.GS_STATUS_RECOVERY = true) (off : Word) (data : List Byte) :
    (224 < data.length ∨ 2 ^ 24 < off.toNat + data.length → exec (.recoveryWrite pec off data) s = .next (s.emit (.mctp 0x7F06 2 []))) ∧
    (data.length ≤ 224 → off.toNat + data.length ≤ 2 ^ 24 → After (.recoveryWrite pec off data) s fun t =>
      (∀ j b, data[j]? = some b → tget 0#8 t.mgmt.recovery (off.toNat + j) = b) ∧
      (∀ a, a < off.toNat ∨ off.toNat + data.length ≤ a → tget 0#8 t.mgmt.recovery a = tget 0#8 s.mgmt.recovery a) ∧
      t.outbox = s.outbox ++ [.mctp 0x7F06 0 []] ∧ t.regs = s.regs ∧ SameArray s t) := by
  change (_ → execRecoveryWrite pec off data s = _) ∧ (_ → _ → ∃ t, execRecoveryWrite pec off data s = _ ∧ _)
  rw [execRecoveryWrite, if_neg (by simp [hserves]), if_neg (by simp [hrec])]
  refine ⟨fun hout => ?_, fun hlen hend => ?_⟩
  · rw [if_pos hout]
    rfl
  · rw [if_neg (by omega)]
    refine ⟨_, rfl, ?_⟩
    rw [State.vendorReply, State.emit_of_undisabled _ rfl]
    refine ⟨fun j b hj => ?_, fun a ha => ?_, rfl, rfl, rfl, rfl⟩
    · refine (tget_foldl_tput_mapIdx ..).trans ?_
      obtain ⟨hlt, hb⟩ := List.getElem?_eq_some_iff.1 hj
      rw [if_pos (by omega), Nat.add_sub_cancel_left, List.getD_eq_getElem?_getD, hj]
      rfl
    · refine (tget_foldl_tput_mapIdx ..).trans ?_
      rw [if_neg (by omega)]

theorem recoveryCommit_answers (hrec : s.on Reg.GS_STATUS_RECOVERY = true) (len : Word) (sig : Bool) (svn build : BitVec 16) :
    ((sig && decide (s.mgmt.minSvn ≤ svn.toNat) && decide (len.toNat ≤ 2 ^ 24)) = false →
      exec (.recoveryCommit pec len sig svn build) s = .next (s.emit (.mctp 0x7F07 1 []))) ∧
    ((sig && decide (s.mgmt.minSvn ≤ svn.toNat) && decide (len.toNat ≤ 2 ^ 24)) = true → s.inShutdown = false →
      After (.recoveryCommit pec len sig svn build) s fun t =>
        t.mgmt.copyA = ⟨true, svn.toNat, build.toNat⟩ ∧ t.mgmt.copyB = ⟨true, svn.toNat, build.toNat⟩ ∧
        t.outbox = s.outbox ++ [.mctp 0x7F07 0 []] ∧ t.clusters = [] ∧ t.rg Reg.GS_RESET_CAUSE = s.rg Reg.GS_RESET_CAUSE ||| 8#32) := by
  have hgood : (! sig || decide (svn.toNat < s.mgmt.minSvn) || decide (2 ^ 24 < len.toNat))
      = ! (sig && decide (s.mgmt.minSvn ≤ svn.toNat) && decide (len.toNat ≤ 2 ^ 24)) := by
    simp only [Bool.not_and, ← decide_not, Nat.not_le]
  change (_ → execRecoveryCommit pec len sig svn build s = _) ∧ (_ → _ → ∃ t, execRecoveryCommit pec len sig svn build s = _ ∧ _)
  rw [execRecoveryCommit, if_neg (by simp [hserves]), if_neg (by simp [hrec]), hgood]
  refine ⟨fun hbad => ?_, fun hok hrun => ?_⟩
  · rw [if_pos (by rw [hbad]; rfl)]
    rfl
  · rw [if_neg (by rw [hok]; decide)]
    generalize hu : (s.setMgmt { s.mgmt with copyA := ⟨true, svn.toNat, build.toNat⟩, copyB := ⟨true, svn.toNat, build.toNat⟩ }).vendorReply 7 0 [] = u
    have hexec := congrArg (fun v : State => (.next (v.coldCause 3) : Out)) hu
    rw [State.vendorReply, State.emit_of_undisabled _ rfl] at hu
    have hrunning : u.inShutdown = false := by
      rw [← hu]
      exact hrun
    refine ⟨u.coldCause 3, hexec, ?_⟩
    rw [State.coldCause_of_running hrunning, State.coldReset_mgmt, State.coldReset_outbox, State.coldReset_clusters, State.coldReset_cause, ← hu]
    exact ⟨rfl, rfl, rfl, rfl, rfl⟩

end

/-! ### PMBus (R619) -/

theorem State.drivePins_frame (s : State) : s.drivePins = { s with pins := s.drivePins.pins } := by
  unfold State.drivePins
  split <;> rfl

theorem State.drivePins_rg (s : State) (o : Nat) : s.drivePins.rg o = s.rg o := by
  rw [s.drivePins_frame]
  rfl

theorem State.drivePins_fd (s : State) (x : Fld) : s.drivePins.fd x = s.fd x := State.fd_congr (s.drivePins_rg _)

/-- An alert sets its bit of MG_ALERT, and the output follows. -/
theorem State.alert_fd (s : State) {k : Nat} (hk : k < 32) : (s.alert k).fd ⟨Reg.MG_ALERT, k, k⟩ = 1 := by
  rw [State.alert, State.drivePins_fd, State.fd_setF_same s (x := ⟨Reg.MG_ALERT, k, k⟩) (Nat.le_refl k) hk, Nat.sub_self]
  rfl

theorem State.alert_rg (s : State) (k : Nat) {o : Nat} (h : o ≠ Reg.MG_ALERT) : (s.alert k).rg o = s.rg o := by
  rw [State.alert, State.drivePins_rg, s.rg_setF_of_ne (x := ⟨Reg.MG_ALERT, k, k⟩) h]

theorem State.drivePins_outbox (s : State) : s.drivePins.outbox = s.outbox := by rw [s.drivePins_frame]

theorem State.alert_outbox (s : State) (k : Nat) : (s.alert k).outbox = s.outbox := by
  rw [State.alert, State.drivePins_outbox, State.setF_outbox]

theorem pmbusPoll_follows (s : State) (die : Option (Fin 4)) (ok fault : Bool) (a : Nat)
    (ha : a = match die with
      | none => s.fd Reg.MG_PMBUS_IN_ADDR
      | some d => s.fd Reg.MG_PMBUS_VR_BASE + d.val) :
    (s.mgmt.controllerReset = true ∨ s.inCold = true → Passes (.pmbusPoll die ok fault) s) ∧
    (s.mgmt.controllerReset = false → s.inCold = false →
      (ok = true → (die = none ∨ fault = false) → exec (.pmbusPoll die ok fault) s = .next (s.emit (.pmbus a))) ∧
      (ok = false ∨ (die ≠ none ∧ fault = true) → After (.pmbusPoll die ok fault) s fun t => t.rg Reg.MG_PMBUS_ERR = s.rg Reg.MG_PMBUS_ERR + 1 ∧
        t.fd ⟨Reg.MG_ALERT, 4, 4⟩ = 1 ∧ t.outbox = s.outbox ++ [.pmbus a] ∧ SameArray s t ∧ RegsBut s t [Reg.MG_PMBUS_ERR, Reg.MG_ALERT])) := by
  subst ha
  refine ⟨fun hidle => congrArg Host.Outcome.next (if_pos (by simpa using hidle)), fun hreset hcold => ?_⟩
  have hexec : execPmbusPoll die ok fault s = .next _ := congrArg Host.Outcome.next (if_neg (by simp [hreset, hcold]))
  change (_ → _ → execPmbusPoll die ok fault s = _) ∧ (_ → ∃ t, execPmbusPoll die ok fault s = _ ∧ _)
  rw [hexec]
  refine ⟨fun hok hfault => ?_, fun hbad => ?_⟩
  · exact congrArg Host.Outcome.next (if_neg (by rcases hfault with rfl | rfl <;> simp [hok]))
  · rw [if_pos (by rcases hbad with rfl | ⟨hdie, rfl⟩ <;> simp [Option.isSome_iff_ne_none, *])]
    refine ⟨_, rfl, ?_⟩
    rw [State.emit_of_undisabled _ rfl]
    generalize hu : ({ s with outbox := s.outbox ++ [Output.pmbus _] } : State) = u
    have hrg (o : Nat) : u.rg o = s.rg o := by rw [← hu]; rfl
    have hsame : SameArray s u := by rw [← hu]; exact ⟨rfl, rfl⟩
    refine ⟨?errors, State.alert_fd _ (by decide), ?outbox, State.alert_sameArray (hsame.inc _) 4, fun o ho => ?regs⟩
    case errors => rw [State.alert_rg _ _ (by decide), State.rg_inc_same, hrg]
    case outbox =>
      rw [State.alert_outbox, ← hu]
      rfl
    case regs =>
      simp only [List.mem_cons, List.not_mem_nil, or_false, not_or] at ho
      rw [State.alert_rg _ _ ho.2, State.rg_inc_of_ne _ ho.1, hrg]

/-- Settles O59: the answer of each command, in the order of Table 19.5. -/
theorem theManagementBusAnswersItsCommands : Obligations.TheManagementBusAnswersItsCommands := by
  refine ⟨fun s pec hnot eid typ sel k part off v n len vf sig code codeN svn build data =>
      managementCommands_pass hnot eid typ sel k part off v n len vf sig code codeN svn build data, fun s pec hserves => ?_,
    fun s die ok fault => pmbusPoll_follows s die ok fault _ rfl⟩
  refine ⟨fun eid => ⟨fun hno => ?null, setEndpointId_takes hserves⟩, congrArg Host.Outcome.next (if_pos hserves),
    getMctpVersionSupport_answers hserves, congrArg Host.Outcome.next (if_pos hserves), ?vendor, fun sel hsel => ?otherSet,
    fun off => readReg_answers hserves, recovery_unserved hserves, service_unserved hserves, readPage_answers hserves,
    readEvent_answers hserves, mctpReset_answers hserves, recoveryWrite_answers hserves, recoveryCommit_answers hserves⟩
  case null =>
    change execSetEndpointId pec eid s = _
    rw [execSetEndpointId, if_neg (by simp [hserves]), if_pos hno]
    rfl
  case vendor =>
    change execGetVendorDefinedMessageSupport pec 0#8 s = _
    rw [execGetVendorDefinedMessageSupport, if_neg (by simp [hserves]), if_pos rfl]
    rfl
  case otherSet =>
    change execGetVendorDefinedMessageSupport pec sel s = _
    rw [execGetVendorDefinedMessageSupport, if_neg (by simp [hserves]), if_neg hsel]
    rfl

end Sys2Proof.Machine

/-! Proofs about the time base (R328 to R337, R351, R352). -/

namespace Sys2Proof.Machine

/-! ### Events, steps and locks -/

theorem State.timeEvent_rg (s : State) (x : Fld) {o : Nat} (hx : o ≠ x.off) (hirq : o ≠ Reg.IRQ_STATUS) : (s.timeEvent x).rg o = s.rg o := by
  rw [State.timeEvent, State.irq_rg _ _ hirq, State.rg_setF_of_ne _ hx]

theorem State.timeEvent_fd (s : State) (x : Fld) {y : Fld} (hx : y.off ≠ x.off) (hirq : y.off ≠ Reg.IRQ_STATUS) :
    (s.timeEvent x).fd y = s.fd y := State.fd_congr (s.timeEvent_rg x hx hirq)

theorem State.timeEvent_sameArray {s t : State} (h : SameArray s t) (x : Fld) : SameArray s (t.timeEvent x) := State.irq_sameArray (h.setF _ _) 1

theorem State.timeEvent_rest (s : State) (x : Fld) :
    s.timeEvent x = { s with regs := (s.timeEvent x).regs, outbox := (s.timeEvent x).outbox } := by
  obtain ⟨more, hirq⟩ := (s.setF x 1).irq_eq 1
  rw [State.timeEvent, hirq]
  rfl

theorem State.timeEvent_time (s : State) (x : Fld) : (s.timeEvent x).time = s.time := by rw [s.timeEvent_rest]
theorem State.timeEvent_host (s : State) (x : Fld) : (s.timeEvent x).host = s.host := by rw [s.timeEvent_rest]

/-- A step of the time sets the turn and the angle. -/
theorem State.stepTime_time (s : State) (turn angle : Nat) : (s.stepTime turn angle).time = { s.time with turn := turn, angle := angle } := by
  unfold State.stepTime
  split
  next hsame =>
    obtain ⟨hturn, hangle⟩ := hsame
    rw [← hturn, ← hangle]
  next => rw [State.timeEvent_time]; rfl

theorem State.stepTime_rg (s : State) (turn angle : Nat) {o : Nat} (hev : o ≠ Reg.TB_EVENTS) (hirq : o ≠ Reg.IRQ_STATUS) :
    (s.stepTime turn angle).rg o = s.rg o := by
  unfold State.stepTime
  split
  · rfl
  · exact (State.timeEvent_rg _ _ hev hirq).trans rfl

theorem SameArray.setTime {s t : State} (h : SameArray s t) (x : TimeSt) : SameArray s (t.setTime x) := h

theorem State.stepTime_sameArray {s t : State} (h : SameArray s t) (turn angle : Nat) : SameArray s (t.stepTime turn angle) := by
  unfold State.stepTime
  split
  · exact h
  · exact State.timeEvent_sameArray (SameArray.setTime h _) _

/-- What a lock starts from: the time set to the reference at first lock, and the lock's instant taken. -/
def State.atLock (s : State) (set : Option (Nat × Nat)) : State :=
  let t := match set with
    | some (turn, angle) => if s.on Reg.TB_STATUS_FIRST_LOCK then s else s.stepTime turn angle
    | none => s
  t.cond (! t.on Reg.TB_STATUS_FIRST_LOCK) fun u => u.setTime { u.time with lockAt := u.now }

theorem State.lockTime_eq (s : State) (set : Option (Nat × Nat)) : s.lockTime set =
    let t := (((s.atLock set).setF Reg.TB_STATUS_STATE 2).setF Reg.TB_STATUS_FIRST_LOCK 1).timeEvent Reg.TB_EVENTS_LOCK_GAINED
    if t.time.relocking then (t.setTime { t.time with relocking := false }).maintResult 0 else t := rfl

theorem State.atLock_rg (s : State) (set : Option (Nat × Nat)) {o : Nat} (hev : o ≠ Reg.TB_EVENTS) (hirq : o ≠ Reg.IRQ_STATUS) :
    (s.atLock set).rg o = s.rg o := by
  have hcond (t : State) (c : Bool) (f : State → TimeSt) : (t.cond c fun u => u.setTime (f u)).rg o = t.rg o := by
    cases c <;> rfl
  unfold State.atLock
  rw [hcond]
  split
  · split
    · rfl
    · exact s.stepTime_rg _ _ hev hirq
  · rfl

theorem State.atLock_sameArray {s t : State} (h : SameArray s t) (set : Option (Nat × Nat)) : SameArray s (t.atLock set) := by
  have hcond (t : State) (c : Bool) (f : State → TimeSt) (h : SameArray s t) : SameArray s (t.cond c fun u => u.setTime (f u)) := by
    cases c
    · exact h
    · exact ⟨h.1, h.2⟩
  unfold State.atLock
  refine hcond _ _ _ ?_
  split
  · exact h.ite (State.stepTime_sameArray h _ _)
  · exact h

/-- What a command of the time base keeps: the array, and every register but the time base's status, error and events and IRQ_STATUS. -/
structure KeepsTime (s t : State) : Prop where
  array : SameArray s t
  regs : RegsBut s t [Reg.TB_STATUS, Reg.TB_PHASE_ERR, Reg.TB_EVENTS, Reg.IRQ_STATUS]

theorem State.lockTime_rg (s : State) (set : Option (Nat × Nat)) (o : Nat) : (s.lockTime set).rg o =
    ((((s.atLock set).setF Reg.TB_STATUS_STATE 2).setF Reg.TB_STATUS_FIRST_LOCK 1).timeEvent Reg.TB_EVENTS_LOCK_GAINED).rg o := by
  rw [s.lockTime_eq]
  dsimp only
  split <;> rfl

theorem State.lockTime_keepsTime {s t : State} (h : KeepsTime s t) (set : Option (Nat × Nat)) : KeepsTime s (t.lockTime set) := by
  constructor
  · rw [t.lockTime_eq]
    have hlock := State.timeEvent_sameArray (((State.atLock_sameArray h.array set).setF Reg.TB_STATUS_STATE 2).setF Reg.TB_STATUS_FIRST_LOCK 1)
      Reg.TB_EVENTS_LOCK_GAINED
    exact SameArray.ite ⟨hlock.1, hlock.2⟩ hlock
  · intro o ho
    have hout := ho
    simp only [List.mem_cons, List.not_mem_nil, or_false, not_or] at hout
    obtain ⟨hst, -, hev, hirq⟩ := hout
    rw [t.lockTime_rg, State.timeEvent_rg _ _ hev hirq, State.rg_setF_of_ne _ (x := Reg.TB_STATUS_FIRST_LOCK) hst,
      State.rg_setF_of_ne _ (x := Reg.TB_STATUS_STATE) hst, t.atLock_rg set hev hirq, h.regs o ho]

/-! ### The fields of TB_STATUS -/

theorem State.tbState_setF (s : State) {k : Nat} (hk : k < 8) : (s.setF Reg.TB_STATUS_STATE k).tbState = k :=
  (State.fd_setF_same s (x := Reg.TB_STATUS_STATE) (by decide) (by decide) k).trans (Nat.mod_eq_of_lt hk)

theorem State.tbState_setF_firstLock (s : State) (k : Nat) : (s.setF Reg.TB_STATUS_FIRST_LOCK k).tbState = s.tbState :=
  s.fd_setF_apart (x := Reg.TB_STATUS_FIRST_LOCK) (y := Reg.TB_STATUS_STATE) rfl (by decide) (by decide) (by decide) k

theorem State.tbState_setF_refValid (s : State) (k : Nat) : (s.setF Reg.TB_STATUS_REF_VALID k).tbState = s.tbState :=
  s.fd_setF_apart (x := Reg.TB_STATUS_REF_VALID) (y := Reg.TB_STATUS_STATE) rfl (by decide) (by decide) (by decide) k

theorem State.tbState_setF_refIn (s : State) (k : Nat) : (s.setF Reg.TB_STATUS_REF_IN_OK k).tbState = s.tbState :=
  s.fd_setF_apart (x := Reg.TB_STATUS_REF_IN_OK) (y := Reg.TB_STATUS_STATE) rfl (by decide) (by decide) (by decide) k

theorem State.refValid_setF_state (s : State) (k : Nat) : (s.setF Reg.TB_STATUS_STATE k).on Reg.TB_STATUS_REF_VALID = s.on Reg.TB_STATUS_REF_VALID :=
  s.on_setF_apart (x := Reg.TB_STATUS_STATE) (y := Reg.TB_STATUS_REF_VALID) rfl (by decide) (by decide) (by decide) k

theorem State.refValid_setF_firstLock (s : State) (k : Nat) :
    (s.setF Reg.TB_STATUS_FIRST_LOCK k).on Reg.TB_STATUS_REF_VALID = s.on Reg.TB_STATUS_REF_VALID :=
  s.on_setF_apart (x := Reg.TB_STATUS_FIRST_LOCK) (y := Reg.TB_STATUS_REF_VALID) rfl (by decide) (by decide) (by decide) k

theorem State.firstLock_setF_refValid (s : State) (k : Nat) :
    (s.setF Reg.TB_STATUS_REF_VALID k).on Reg.TB_STATUS_FIRST_LOCK = s.on Reg.TB_STATUS_FIRST_LOCK :=
  s.on_setF_apart (x := Reg.TB_STATUS_REF_VALID) (y := Reg.TB_STATUS_FIRST_LOCK) rfl (by decide) (by decide) (by decide) k

theorem State.firstLock_setF_refIn (s : State) (k : Nat) :
    (s.setF Reg.TB_STATUS_REF_IN_OK k).on Reg.TB_STATUS_FIRST_LOCK = s.on Reg.TB_STATUS_FIRST_LOCK :=
  s.on_setF_apart (x := Reg.TB_STATUS_REF_IN_OK) (y := Reg.TB_STATUS_FIRST_LOCK) rfl (by decide) (by decide) (by decide) k

theorem State.tbState_congr {s t : State} (h : t.rg Reg.TB_STATUS = s.rg Reg.TB_STATUS) : t.tbState = s.tbState := State.fd_congr h

/-- After a lock the time base is LOCKED, with FIRST_LOCK set; what else its status shows stays. -/
theorem State.lockTime_status (s : State) (set : Option (Nat × Nat)) : (s.lockTime set).tbState = 2 ∧
    (s.lockTime set).on Reg.TB_STATUS_FIRST_LOCK = true ∧ (s.lockTime set).on Reg.TB_STATUS_REF_VALID = s.on Reg.TB_STATUS_REF_VALID := by
  have hrg : (s.lockTime set).rg Reg.TB_STATUS = (((s.atLock set).setF Reg.TB_STATUS_STATE 2).setF Reg.TB_STATUS_FIRST_LOCK 1).rg Reg.TB_STATUS := by
    rw [s.lockTime_rg, State.timeEvent_rg _ _ (by decide) (by decide)]
  refine ⟨(State.tbState_congr hrg).trans ?_, (State.on_congr hrg).trans (State.on_setF_one _ rfl (by decide)), (State.on_congr hrg).trans ?_⟩
  · rw [State.tbState_setF_firstLock, State.tbState_setF _ (by decide)]
  · rw [State.refValid_setF_firstLock, State.refValid_setF_state]
    exact State.on_congr (s.atLock_rg set (by decide) (by decide))

/-! ### Comparisons (R332, R336) -/

/-- A comparison's error, validity and count of good comparisons, before what they do to the lock. -/
def State.compared (s : State) (err : Int) : State :=
  let t := (s.wrg Reg.TB_PHASE_ERR (BitVec.ofInt 32 err)).setF Reg.TB_STATUS_REF_VALID 1
  t.setTime { t.time with
    good := if decide (err.natAbs ≤ 16) then t.time.good + 1 else 0, goodSince := if t.time.good = 0 then t.clk else t.time.goodSince }

theorem State.compare_eq (s : State) (err : Int) (set : Option (Nat × Nat)) : s.compare err set =
    let t := s.compared err
    if t.tbState = 3 then
      if decide (err.natAbs ≤ 16) then t.lockTime none
      else t.cond (decide (4000 < err.natAbs)) fun u => u.timeEvent Reg.TB_EVENTS_RELOCK_NEEDED
    else if t.tbState = 2 then (if decide (err.natAbs ≤ 16) then t else t.setF Reg.TB_STATUS_STATE 1)
    else
      let t := t.cond (t.tbState == 0) fun u => u.setF Reg.TB_STATUS_STATE 1
      if decide (4 ≤ if decide (err.natAbs ≤ 16) then s.time.good + 1 else 0) && decide (t.time.goodSince + us 100000 ≤ t.clk) then t.lockTime set else t :=
  rfl

theorem State.compared_spec (s : State) (err : Int) : (s.compared err).tbState = s.tbState ∧
    (s.compared err).on Reg.TB_STATUS_REF_VALID = true ∧ (s.compared err).rg Reg.TB_PHASE_ERR = BitVec.ofInt 32 err ∧
    (s.compared err).clk = s.clk ∧ (s.compared err).time.goodSince = (if s.time.good = 0 then s.clk else s.time.goodSince) ∧
    KeepsTime s (s.compared err) := by
  unfold State.compared
  refine ⟨?_, ?_, ?_, rfl, rfl, ⟨rfl, rfl⟩, fun o ho => ?_⟩
  · refine (State.tbState_setF_refValid _ 1).trans ?_
    exact State.tbState_congr (s.rg_wrg_of_ne (by decide) _)
  · exact State.on_setF_one (s.wrg Reg.TB_PHASE_ERR (BitVec.ofInt 32 err)) (x := Reg.TB_STATUS_REF_VALID) rfl (by decide)
  · refine (State.rg_setF_of_ne (s.wrg Reg.TB_PHASE_ERR (BitVec.ofInt 32 err)) (x := Reg.TB_STATUS_REF_VALID) (by decide) 1).trans ?_
    rw [State.rg_wrg, if_pos rfl]
  · simp only [List.mem_cons, List.not_mem_nil, or_false, not_or] at ho
    obtain ⟨hst, herr, -, -⟩ := ho
    refine (State.rg_setF_of_ne (s.wrg Reg.TB_PHASE_ERR (BitVec.ofInt 32 err)) (x := Reg.TB_STATUS_REF_VALID) hst 1).trans ?_
    exact s.rg_wrg_of_ne herr _

theorem KeepsTime.refl (s : State) : KeepsTime s s := ⟨.refl s, fun _ _ => rfl⟩

theorem KeepsTime.trans {s t u : State} (h : KeepsTime s t) (k : KeepsTime t u) : KeepsTime s u :=
  ⟨h.array.trans k.array, fun o ho => (k.regs o ho).trans (h.regs o ho)⟩

theorem KeepsTime.status {s t : State} (h : KeepsTime s t) (k : Nat) : KeepsTime s (t.setF Reg.TB_STATUS_STATE k) := by
  refine ⟨h.array.setF _ _, fun o ho => ?_⟩
  have hst : o ≠ Reg.TB_STATUS := by
    rintro rfl
    exact ho (by decide)
  rw [t.rg_setF_of_ne (x := Reg.TB_STATUS_STATE) hst, h.regs o ho]

theorem KeepsTime.refIn (s : State) (k : Nat) : KeepsTime s (s.setF Reg.TB_STATUS_REF_IN_OK k) := by
  refine ⟨(SameArray.refl s).setF _ _, fun o ho => ?_⟩
  have hst : o ≠ Reg.TB_STATUS := by
    rintro rfl
    exact ho (by decide)
  exact s.rg_setF_of_ne (x := Reg.TB_STATUS_REF_IN_OK) hst k

theorem KeepsTime.event {s t : State} (h : KeepsTime s t) {x : Fld} (hx : x.off = Reg.TB_EVENTS) : KeepsTime s (t.timeEvent x) := by
  refine ⟨State.timeEvent_sameArray h.array x, fun o ho => ?_⟩
  have hout := ho
  simp only [List.mem_cons, List.not_mem_nil, or_false, not_or] at hout
  obtain ⟨-, -, hev, hirq⟩ := hout
  rw [t.timeEvent_rg x (hx ▸ hev) hirq, h.regs o ho]

/-- What a comparison does to the lock, from what the time base was. -/
def Compared (s : State) (err : Int) (t : State) : Prop :=
  let small := decide (err.natAbs ≤ 16)
  t.rg Reg.TB_PHASE_ERR = BitVec.ofInt 32 err ∧ t.on Reg.TB_STATUS_REF_VALID = true ∧ SameArray s t ∧
    (s.tbState = 2 → t.tbState = if small then 2 else 1) ∧ (s.tbState = 3 → t.tbState = if small then 2 else 3) ∧
    (s.tbState ≤ 1 → (small = false ∨ s.time.good < 3) → t.tbState = 1) ∧
    (s.tbState ≤ 1 → small = true → 3 ≤ s.time.good → s.time.goodSince + us 100000 ≤ s.clk → t.tbState = 2 ∧ t.on Reg.TB_STATUS_FIRST_LOCK = true) ∧
    RegsBut s t [Reg.TB_STATUS, Reg.TB_PHASE_ERR, Reg.TB_EVENTS, Reg.IRQ_STATUS]

theorem State.lockTime_phaseErr (s : State) (set : Option (Nat × Nat)) : (s.lockTime set).rg Reg.TB_PHASE_ERR = s.rg Reg.TB_PHASE_ERR := by
  rw [s.lockTime_rg, State.timeEvent_rg _ _ (by decide) (by decide), State.rg_setF_of_ne _ (x := Reg.TB_STATUS_FIRST_LOCK) (by decide),
    State.rg_setF_of_ne _ (x := Reg.TB_STATUS_STATE) (by decide), s.atLock_rg set (by decide) (by decide)]

theorem State.compare_spec (s : State) (err : Int) (set : Option (Nat × Nat)) : Compared s err (s.compare err set) := by
  obtain ⟨hst, hvalid, herr, hclk, hsince, hkeeps⟩ := s.compared_spec err
  rw [s.compare_eq]
  dsimp only
  generalize s.compared err = t at *
  rw [hst]
  by_cases h3 : s.tbState = 3
  · rw [if_pos h3]
    by_cases hsmall : err.natAbs ≤ 16
    · rw [if_pos (decide_eq_true hsmall)]
      obtain ⟨hlocked, -, hval⟩ := t.lockTime_status none
      have hk := State.lockTime_keepsTime hkeeps none
      refine ⟨by rw [t.lockTime_phaseErr, herr], by rw [hval, hvalid], hk.array, fun h => by omega, fun _ => ?_, fun h => by omega, fun h => by omega,
        hk.regs⟩
      rw [hlocked, if_pos (decide_eq_true hsmall)]
    · rw [if_neg (by simpa using hsmall)]
      have hev : KeepsTime t (t.cond (decide (4000 < err.natAbs)) fun u => u.timeEvent Reg.TB_EVENTS_RELOCK_NEEDED) ∧
          ∀ o, o ≠ Reg.TB_EVENTS → o ≠ Reg.IRQ_STATUS →
            (t.cond (decide (4000 < err.natAbs)) fun u => u.timeEvent Reg.TB_EVENTS_RELOCK_NEEDED).rg o = t.rg o := by
        unfold State.cond
        split
        · exact ⟨(KeepsTime.refl t).event rfl, fun o hev hirq => t.timeEvent_rg _ hev hirq⟩
        · exact ⟨.refl t, fun _ _ _ => rfl⟩
      obtain ⟨hframe, hrg⟩ := hev
      have hk := hkeeps.trans hframe
      refine ⟨by rw [hrg _ (by decide) (by decide), herr], (State.on_congr (hrg _ (by decide) (by decide))).trans hvalid, hk.array,
        fun h => by omega, fun _ => ?_, fun h => by omega, fun h => by omega, hk.regs⟩
      rw [State.tbState_congr (hrg _ (by decide) (by decide)), hst, h3, if_neg (by simpa using hsmall)]
  · rw [if_neg h3]
    by_cases h2 : s.tbState = 2
    · rw [if_pos h2]
      by_cases hsmall : err.natAbs ≤ 16
      · rw [if_pos (decide_eq_true hsmall)]
        refine ⟨herr, hvalid, hkeeps.array, fun _ => ?_, fun h => by omega, fun h => by omega, fun h => by omega, hkeeps.regs⟩
        rw [hst, h2, if_pos (decide_eq_true hsmall)]
      · rw [if_neg (by simpa using hsmall)]
        have hk := hkeeps.status 1
        refine ⟨?_, by rw [State.refValid_setF_state, hvalid], hk.array, fun _ => ?_, fun h => by omega, fun h => by omega, fun h => by omega, hk.regs⟩
        · rw [t.rg_setF_of_ne (x := Reg.TB_STATUS_STATE) (by decide), herr]
        · rw [State.tbState_setF _ (by decide), if_neg (by simpa using hsmall)]
    · rw [if_neg h2]
      have hacq : ∀ u, u = (t.cond (s.tbState == 0) fun u => u.setF Reg.TB_STATUS_STATE 1) → KeepsTime s u ∧ u.rg Reg.TB_PHASE_ERR = BitVec.ofInt 32 err ∧
          u.on Reg.TB_STATUS_REF_VALID = true ∧ u.clk = s.clk ∧ u.time.goodSince = t.time.goodSince ∧ (s.tbState ≤ 1 → u.tbState = 1) := by
        rintro u rfl
        unfold State.cond
        split
        · refine ⟨hkeeps.status 1, ?_, by rw [State.refValid_setF_state, hvalid], hclk, rfl, fun _ => t.tbState_setF (by decide)⟩
          rw [t.rg_setF_of_ne (x := Reg.TB_STATUS_STATE) (by decide), herr]
        next hne =>
          refine ⟨hkeeps, herr, hvalid, hclk, rfl, fun hle => ?_⟩
          simp only [beq_iff_eq] at hne
          omega
      obtain ⟨hk, huerr, huvalid, huclk, husince, hone⟩ := hacq _ rfl
      generalize (t.cond (s.tbState == 0) fun u => u.setF Reg.TB_STATUS_STATE 1) = u at *
      rw [husince, hsince, huclk]
      by_cases hlocks : (4 ≤ if decide (err.natAbs ≤ 16) then s.time.good + 1 else 0) ∧ (if s.time.good = 0 then s.clk else s.time.goodSince) + us 100000 ≤ s.clk
      · rw [if_pos (by rw [decide_eq_true hlocks.1, decide_eq_true hlocks.2]; rfl)]
        obtain ⟨hgood, -⟩ := hlocks
        obtain ⟨hlocked, hfirst, hval⟩ := u.lockTime_status set
        have hkl := State.lockTime_keepsTime hk set
        refine ⟨by rw [u.lockTime_phaseErr, huerr], by rw [hval, huvalid], hkl.array, fun h => absurd h h2, fun h => absurd h h3, fun _ hno => ?_,
          fun _ _ _ _ => ⟨hlocked, hfirst⟩, hkl.regs⟩
        rcases hno with hbig | hfew
        · rw [if_neg (by simp [hbig])] at hgood
          omega
        · split at hgood <;> omega
      · rw [if_neg fun h => hlocks ((Bool.and_eq_true_iff.1 h).imp of_decide_eq_true of_decide_eq_true)]
        refine ⟨huerr, huvalid, hk.array, fun h => absurd h h2, fun h => absurd h h3, fun hle _ => hone hle, fun _ hsmall hgood hlong => ?_, hk.regs⟩
        refine absurd ⟨?_, ?_⟩ hlocks
        · rw [if_pos hsmall]
          omega
        · rw [if_neg (by omega)]
          exact hlong

/-- TB_STATUS.REF_IN_OK has no part in a comparison. -/
theorem Compared.of_refIn {s : State} {k : Nat} {err : Int} {t : State} (h : Compared (s.setF Reg.TB_STATUS_REF_IN_OK k) err t) : Compared s err t := by
  obtain ⟨herr, hvalid, harray, h2, h3, h1, h4, hregs⟩ := h
  have hk : KeepsTime s t := (KeepsTime.refIn s k).trans ⟨harray, hregs⟩
  rw [State.tbState_setF_refIn] at h2 h3 h1 h4
  exact ⟨herr, hvalid, hk.array, h2, h3, h1, h4, hk.regs⟩

theorem State.pulseValid_setF_refIn (s : State) (k : Nat) (err : Int) (spacing period : Nat) :
    (s.setF Reg.TB_STATUS_REF_IN_OK k).pulseValid err spacing period = s.pulseValid err spacing period := by
  rw [State.pulseValid, State.tbState_setF_refIn, State.pulseValid]

theorem framePulse_compares {s : State} {err : Int} {sp : Nat} {refIn : Bool} (hsource : s.time.source = 1) (href : s.time.refSel = 0 ∨ refIn = true)
    (hvalid : s.pulseValid err sp (1000 * s.time.turnUs) = true) : After (.framePulse err sp refIn) s (Compared s err) := by
  change ∃ t, execFramePulse err sp refIn s = _ ∧ _
  unfold execFramePulse State.cond
  dsimp only
  split
  · have hv : (s.setF Reg.TB_STATUS_REF_IN_OK (b2n refIn)).pulseValid err sp (1000 * s.time.turnUs) = true := by
      rw [State.pulseValid_setF_refIn, hvalid]
    exact ⟨_, congrArg Host.Outcome.next (if_pos ⟨hsource, href, hv⟩), (State.compare_spec _ err none).of_refIn⟩
  · exact ⟨_, congrArg Host.Outcome.next (if_pos ⟨hsource, href, hvalid⟩), s.compare_spec err none⟩

/-! ### Losses and relocks (R334, R336) -/

/-- A loss before it moves the state: the reference is not valid, and LOCK_LOST is set. -/
def State.lost (s : State) : State :=
  ((s.setF Reg.TB_STATUS_REF_VALID 0).timeEvent Reg.TB_EVENTS_LOCK_LOST).setTime { s.time with good := 0 }

theorem State.lost_status (s : State) : (s.lost).rg Reg.TB_STATUS = (s.setF Reg.TB_STATUS_REF_VALID 0).rg Reg.TB_STATUS :=
  (s.setF Reg.TB_STATUS_REF_VALID 0).timeEvent_rg Reg.TB_EVENTS_LOCK_LOST (by decide) (by decide)

theorem State.lost_event (s : State) : s.lost.on Reg.TB_EVENTS_LOCK_LOST = true := by
  have hirq := ((s.setF Reg.TB_STATUS_REF_VALID 0).setF Reg.TB_EVENTS_LOCK_LOST 1).irq_rg 1 (o := Reg.TB_EVENTS) (by decide)
  exact (State.on_congr hirq).trans (State.on_setF_one _ rfl (by decide))

theorem State.lost_keeps (s : State) : KeepsTime s s.lost := by
  refine ⟨State.timeEvent_sameArray ((SameArray.refl s).setF _ _) _, fun o ho => ?_⟩
  simp only [List.mem_cons, List.not_mem_nil, or_false, not_or] at ho
  obtain ⟨hst, -, hev, hirq⟩ := ho
  refine ((s.setF Reg.TB_STATUS_REF_VALID 0).timeEvent_rg Reg.TB_EVENTS_LOCK_LOST hev hirq).trans ?_
  exact s.rg_setF_of_ne (x := Reg.TB_STATUS_REF_VALID) hst 0

/-- What a loss of the reference in use does to the lock. -/
def State.lossMove (s : State) : State :=
  if ! s.lost.on Reg.TB_STATUS_FIRST_LOCK then s.lost.setF Reg.TB_STATUS_STATE 1
  else if s.lost.tbState = 3 then s.lost
  else ((s.lost.setF Reg.TB_STATUS_STATE 3).wrg Reg.TB_HOLDOVER_S 0).setTime { s.lost.time with holdFrom := s.lost.clk }

/-- The state after a loss. -/
def Lost (s t : State) : Prop :=
  t.on Reg.TB_STATUS_REF_VALID = false ∧ t.on Reg.TB_EVENTS_LOCK_LOST = true ∧ (s.on Reg.TB_STATUS_FIRST_LOCK = false → t.tbState = 1) ∧
    (s.on Reg.TB_STATUS_FIRST_LOCK = true → t.tbState = 3) ∧
    (s.on Reg.TB_STATUS_FIRST_LOCK = true → s.tbState ≠ 3 → t.rg Reg.TB_HOLDOVER_S = 0) ∧ SameArray s t ∧
    RegsBut s t [Reg.TB_STATUS, Reg.TB_EVENTS, Reg.TB_HOLDOVER_S, Reg.IRQ_STATUS]

theorem State.lossMove_spec (s : State) : Lost s s.lossMove := by
  have hfirst : s.lost.on Reg.TB_STATUS_FIRST_LOCK = s.on Reg.TB_STATUS_FIRST_LOCK :=
    (State.on_congr s.lost_status).trans (s.firstLock_setF_refValid 0)
  have hst : s.lost.tbState = s.tbState := (State.tbState_congr s.lost_status).trans (s.tbState_setF_refValid 0)
  have hvalid : s.lost.on Reg.TB_STATUS_REF_VALID = false := (State.on_congr s.lost_status).trans (State.on_setF_zero _ rfl (by decide))
  have hev := s.lost_event
  have hregs : RegsBut s s.lost [Reg.TB_STATUS, Reg.TB_EVENTS, Reg.TB_HOLDOVER_S, Reg.IRQ_STATUS] := by
    intro o ho
    by_cases herr : o = Reg.TB_PHASE_ERR
    · subst herr
      exact ((s.setF Reg.TB_STATUS_REF_VALID 0).timeEvent_rg Reg.TB_EVENTS_LOCK_LOST (by decide) (by decide)).trans
        (s.rg_setF_of_ne (x := Reg.TB_STATUS_REF_VALID) (by decide) 0)
    · refine s.lost_keeps.regs o ?_
      simp only [List.mem_cons, List.not_mem_nil, or_false, not_or] at ho ⊢
      exact ⟨ho.1, herr, ho.2.1, ho.2.2.2⟩
  have harray := s.lost_keeps.array
  unfold State.lossMove
  rw [hfirst, hst]
  generalize s.lost = u at *
  cases hlock : s.on Reg.TB_STATUS_FIRST_LOCK
  · rw [if_pos (by rfl)]
    refine ⟨by rw [State.refValid_setF_state, hvalid], ?_, fun _ => u.tbState_setF (by decide), by simp [hlock], by simp [hlock], harray.setF _ _, fun o ho => ?_⟩
    · rw [u.on_setF_of_ne (x := Reg.TB_STATUS_STATE) (by decide), hev]
    · have hne : o ≠ Reg.TB_STATUS := by
        rintro rfl
        exact ho (by decide)
      rw [u.rg_setF_of_ne (x := Reg.TB_STATUS_STATE) hne, hregs o ho]
  · rw [if_neg (by decide)]
    by_cases h3 : s.tbState = 3
    · rw [if_pos h3]
      exact ⟨hvalid, hev, by simp [hlock], fun _ => hst.trans h3, fun _ h => absurd h3 h, harray, hregs⟩
    · rw [if_neg h3]
      have hrg (o : Nat) (ho : o ≠ Reg.TB_HOLDOVER_S) : ((u.setF Reg.TB_STATUS_STATE 3).wrg Reg.TB_HOLDOVER_S 0).rg o = (u.setF Reg.TB_STATUS_STATE 3).rg o :=
        State.rg_wrg_of_ne _ ho _
      refine ⟨?_, ?_, by simp [hlock], fun _ => ?_, fun _ _ => ?_, ((harray.setF Reg.TB_STATUS_STATE 3).wrg Reg.TB_HOLDOVER_S 0).setTime _, fun o ho => ?_⟩
      · refine (State.on_congr (hrg Reg.TB_STATUS (by decide))).trans ?_
        rw [State.refValid_setF_state, hvalid]
      · refine (State.on_congr (hrg Reg.TB_EVENTS (by decide))).trans ?_
        rw [u.on_setF_of_ne (x := Reg.TB_STATUS_STATE) (by decide), hev]
      · exact (State.tbState_congr (hrg Reg.TB_STATUS (by decide))).trans (u.tbState_setF (by decide))
      · refine (State.rg_wrg (u.setF Reg.TB_STATUS_STATE 3) Reg.TB_HOLDOVER_S Reg.TB_HOLDOVER_S 0).trans ?_
        rw [if_pos rfl]
      · have hout := ho
        simp only [List.mem_cons, List.not_mem_nil, or_false, not_or] at hout
        obtain ⟨hne, -, hhold, -⟩ := hout
        refine (hrg o hhold).trans ?_
        rw [u.rg_setF_of_ne (x := Reg.TB_STATUS_STATE) hne, hregs o ho]

/-- TB_STATUS.REF_IN_OK has no part in a loss. -/
theorem Lost.of_refIn {s : State} {k : Nat} {t : State} (h : Lost (s.setF Reg.TB_STATUS_REF_IN_OK k) t) : Lost s t := by
  obtain ⟨hvalid, hev, hnever, hheld, hzero, harray, hregs⟩ := h
  rw [State.firstLock_setF_refIn] at hnever hheld hzero
  rw [State.tbState_setF_refIn] at hzero
  refine ⟨hvalid, hev, hnever, hheld, hzero, harray, fun o ho => ?_⟩
  have hne : o ≠ Reg.TB_STATUS := by
    rintro rfl
    exact ho (by decide)
  rw [hregs o ho, s.rg_setF_of_ne (x := Reg.TB_STATUS_REF_IN_OK) hne]

theorem referenceLoss_follows (s : State) (why : LossCause) :
    let fits := (why = .pulses ∧ (s.time.source = 1 ∨ s.time.source = 3)) ∨ (why = .syncs ∧ s.time.source = 2) ∨ (why = .refIn ∧ s.time.refSel ≠ 0)
    (¬ fits → Passes (.referenceLoss why) s) ∧ (fits → After (.referenceLoss why) s (Lost s)) := by
  refine ⟨fun hno => ?_, fun hfits => ?_⟩
  · refine congrArg Host.Outcome.next (if_pos ?_)
    cases why <;> simpa using hno
  · cases why
    case pulses => exact ⟨_, congrArg Host.Outcome.next (if_neg (by simpa [or_iff_not_imp_left] using hfits)), s.lossMove_spec⟩
    case syncs => exact ⟨_, congrArg Host.Outcome.next (if_neg (by simpa using hfits)), s.lossMove_spec⟩
    case refIn => exact ⟨_, congrArg Host.Outcome.next (if_neg (by simpa using hfits)), (State.lossMove_spec _).of_refIn⟩

/-! ### Relocks (R336) -/

/-- TIME_RELOCK once its fields are taken: the reference's validity shows and the time steps to it. -/
def State.relocked (s : State) (turns : BitVec 32) (angle : BitVec 24) (valid : Bool) : State :=
  if s.time.source = 0 then (s.setF Reg.TB_STATUS_STATE 0).setF Reg.TB_STATUS_REF_VALID 0
  else
    let t := (s.setF Reg.TB_STATUS_STATE 4).setF Reg.TB_STATUS_REF_VALID (b2n valid)
    if valid then t.stepTime (if t.time.source = 2 then turns.toNat else t.time.turn) angle.toNat else t

/-- The time fields that a relock leaves. -/
def Relocked (s t : State) (turns : BitVec 32) (angle : BitVec 24) (valid : Bool) : Prop :=
  SameArray s t ∧ (∀ o, o ≠ Reg.TB_STATUS → o ≠ Reg.TB_EVENTS → o ≠ Reg.IRQ_STATUS → t.rg o = s.rg o) ∧
    t.tbState = (if s.time.source = 0 then 0 else 4) ∧
    t.time = { s.time with turn := t.time.turn, angle := t.time.angle } ∧
    (s.time.source = 2 → valid = true → t.time.turn = turns.toNat ∧ t.time.angle = angle.toNat)

theorem State.relocked_spec (s : State) (turns : BitVec 32) (angle : BitVec 24) (valid : Bool) :
    Relocked s (s.relocked turns angle valid) turns angle valid := by
  have hset (k v : Nat) : SameArray s ((s.setF Reg.TB_STATUS_STATE k).setF Reg.TB_STATUS_REF_VALID v) ∧
      (∀ o, o ≠ Reg.TB_STATUS → ((s.setF Reg.TB_STATUS_STATE k).setF Reg.TB_STATUS_REF_VALID v).rg o = s.rg o) ∧
      ((s.setF Reg.TB_STATUS_STATE k).setF Reg.TB_STATUS_REF_VALID v).time = s.time := by
    refine ⟨((SameArray.refl s).setF _ _).setF _ _, fun o ho => ?_, rfl⟩
    rw [State.rg_setF_of_ne _ (x := Reg.TB_STATUS_REF_VALID) ho, State.rg_setF_of_ne _ (x := Reg.TB_STATUS_STATE) ho]
  have hst (k v : Nat) (hk : k < 8) : ((s.setF Reg.TB_STATUS_STATE k).setF Reg.TB_STATUS_REF_VALID v).tbState = k := by
    rw [State.tbState_setF_refValid, State.tbState_setF _ hk]
  unfold State.relocked
  by_cases h0 : s.time.source = 0
  · rw [if_pos h0]
    obtain ⟨harray, hregs, htime⟩ := hset 0 0
    refine ⟨harray, fun o ho _ _ => hregs o ho, by rw [hst 0 0 (by decide), if_pos h0], ?_, fun h2 => by omega⟩
    rw [htime]
  · rw [if_neg h0]
    dsimp only
    obtain ⟨harray, hregs, htime⟩ := hset 4 (b2n valid)
    have h4 := hst 4 (b2n valid) (by decide)
    generalize (s.setF Reg.TB_STATUS_STATE 4).setF Reg.TB_STATUS_REF_VALID (b2n valid) = u at *
    cases valid
    · rw [if_neg (by decide)]
      refine ⟨harray, fun o ho _ _ => hregs o ho, by rw [h4, if_neg h0], ?_, fun _ h => by cases h⟩
      rw [htime]
    · rw [if_pos rfl, htime]
      refine ⟨State.stepTime_sameArray harray _ _, fun o ho hev hirq => ?_, ?_, ?_, fun h2 _ => ?_⟩
      · rw [State.stepTime_rg _ _ _ hev hirq, hregs o ho]
      · rw [State.tbState_congr (State.stepTime_rg _ _ _ (by decide) (by decide)), h4, if_neg h0]
      · rw [State.stepTime_time, htime]
      · rw [State.stepTime_time, if_pos h2]
        exact ⟨rfl, rfl⟩

theorem State.maintBegin_rg (s : State) (cmd : Nat) {o : Nat} (h : o ≠ Reg.MAINT_STATUS) : (s.maintBegin cmd).rg o = s.rg o := by
  rw [State.maintBegin, State.rg_setF_of_ne _ (x := Reg.MAINT_STATUS_CMD) h, State.rg_setF_of_ne _ (x := Reg.MAINT_STATUS_BUSY) h]

theorem State.maintBegin_busy (s : State) (cmd : Nat) : (s.maintBegin cmd).on Reg.MAINT_STATUS_BUSY = true := by
  rw [State.maintBegin, State.on_setF_apart _ (x := Reg.MAINT_STATUS_CMD) (y := Reg.MAINT_STATUS_BUSY) rfl (by decide) (by decide) (by decide)]
  exact State.on_setF_one _ rfl (by decide)

theorem State.maintBegin_sameArray (s : State) (cmd : Nat) : SameArray s (s.maintBegin cmd) := ((SameArray.refl s).setF _ _).setF _ _
theorem State.maintBegin_time (s : State) (cmd : Nat) : (s.maintBegin cmd).time = s.time := rfl

theorem State.badStaged_congr {s t : State} (h : ∀ o, o ≠ Reg.MAINT_STATUS → t.rg o = s.rg o) : t.badStaged = s.badStaged := by
  rw [State.badStaged, State.fd_congr (h _ (by decide)), State.fd_congr (h _ (by decide)), State.badStaged]

/-- The time base with the staged fields, relocking. -/
def State.staged (s : State) : State := s.applyStaged.setTime { s.applyStaged.time with relocking := true, good := 0 }

theorem timeRelock_follows {s : State} (hopen : s.open) (turns : BitVec 32) (angle : BitVec 24) (valid : Bool) :
    After (.timeRelock turns angle valid) s fun t => t.on Reg.MAINT_STATUS_BUSY = true ∧ SameArray s t ∧
      (s.badStaged = true → t.host.maintWait = some 2 ∧ t.time = s.time) ∧
      (s.badStaged = false → t.time.source = s.fd Reg.TB_CTRL_SOURCE ∧ t.time.turnUs = s.fd Reg.TB_TURN_US_TURN_US ∧
        t.time.refSel = s.fd Reg.TB_CTRL_REF_SEL ∧ t.time.relocking = true ∧
        t.tbState = (if s.fd Reg.TB_CTRL_SOURCE = 0 then 0 else 4) ∧
        (s.fd Reg.TB_CTRL_SOURCE = 2 → valid = true → t.time.turn = turns.toNat ∧ t.time.angle = angle.toNat)) := by
  have hexec : exec (.timeRelock turns angle valid) s = .next (if (s.maintBegin 6).badStaged then (s.maintBegin 6).maintResult 2
      else (s.maintBegin 6).staged.relocked turns angle valid) := by
    change execTimeRelock turns angle valid s = _
    rw [execTimeRelock, State.hostWrite_of_open hopen]
    rfl
  have hrg : ∀ o, o ≠ Reg.MAINT_STATUS → (s.maintBegin 6).rg o = s.rg o := fun o ho => s.maintBegin_rg 6 ho
  have hbusy := s.maintBegin_busy 6
  have harray := s.maintBegin_sameArray 6
  have htime := s.maintBegin_time 6
  rw [State.badStaged_congr hrg] at hexec
  refine ⟨_, hexec, ?_⟩
  generalize s.maintBegin 6 = u at *
  have hsource : u.staged.time.source = s.fd Reg.TB_CTRL_SOURCE := State.fd_congr (hrg _ (by decide))
  have hturn : u.staged.time.turnUs = s.fd Reg.TB_TURN_US_TURN_US := State.fd_congr (hrg _ (by decide))
  have hsel : u.staged.time.refSel = s.fd Reg.TB_CTRL_REF_SEL := State.fd_congr (hrg _ (by decide))
  have hrelocking : u.staged.time.relocking = true := rfl
  have hkept : SameArray u u.staged ∧ ∀ o, u.staged.rg o = u.rg o := ⟨⟨rfl, rfl⟩, fun _ => rfl⟩
  cases hbad : s.badStaged
  · rw [if_neg (by decide)]
    generalize u.staged = v at *
    obtain ⟨hvarray, hvrg⟩ := hkept
    obtain ⟨hrarray, hrregs, hrst, hrtime, hrset⟩ := v.relocked_spec turns angle valid
    generalize v.relocked turns angle valid = t at *
    refine ⟨?_, (harray.trans hvarray).trans hrarray, by simp, fun _ => ⟨?_, ?_, ?_, ?_, ?_, ?_⟩⟩
    · rw [State.on_congr (hrregs _ (by decide) (by decide) (by decide)), State.on_congr (hvrg _), hbusy]
    · rw [hrtime]; exact hsource
    · rw [hrtime]; exact hturn
    · rw [hrtime]; exact hsel
    · rw [hrtime]; exact hrelocking
    · rw [hrst, hsource]
    · rwa [hsource] at hrset
  · rw [if_pos rfl]
    exact ⟨hbusy, harray, fun _ => ⟨rfl, htime⟩, by simp⟩

/-! ### Output pulses (R351, R352) -/

theorem tbOutputPulse_leaves {s : State} {pps : Bool} (hfirst : s.on Reg.TB_STATUS_FIRST_LOCK = true) (hsource : s.time.source ≠ 0)
    (hio : s.pins.ioOff = false) (hreset : s.mgmt.controllerReset = false) :
    exec (.tbOutputPulse pps) s = .next (if s.on (if pps then Reg.TB_OUT_CTRL_PPS_OUT_EN else Reg.TB_OUT_CTRL_FRAME_OUT_EN)
      then { s with outbox := s.outbox ++ [.pulse pps] } else s) := by
  change execTbOutputPulse pps s = _
  rw [execTbOutputPulse, if_neg (by simp [hfirst, hsource, hio])]
  cases pps
  · rw [if_neg (by decide), hreset, State.cond, Bool.not_false, Bool.and_true, State.emit_of_undisabled _ rfl]
    rfl
  · rw [if_pos rfl, State.cond, State.emit_of_undisabled _ rfl]
    rfl

/-- Settles O37: a comparison, a loss and a relock each by what they do to TB_STATUS; the rest are the guards of the commands. -/
theorem timeBaseFollowsItsReference : Obligations.TimeBaseFollowsItsReference := by
  refine ⟨?compare, fun s msg err sp turns angle refIn => ⟨fun h1 h0 => ?frame, fun h3 => ?pps, fun hno => ?ptp⟩, referenceLoss_follows,
    fun s hsends => ⟨fun h2 => ?delay, fun h2 => congrArg Host.Outcome.next (if_neg h2)⟩,
    fun s turns angle valid hopen => timeRelock_follows hopen turns angle valid,
    fun s pps hfirst hsource hio hreset => tbOutputPulse_leaves hfirst hsource hio hreset, fun s pps hfirst => ?early⟩
  case compare =>
    rintro s c err sp turns angle refIn small (⟨rfl, hsource, href, hvalid⟩ | ⟨rfl, hsource, hvalid⟩ | ⟨rfl, hsource⟩)
    · exact framePulse_compares hsource href hvalid
    · exact ⟨_, congrArg Host.Outcome.next (if_pos ⟨hsource, hvalid⟩), s.compare_spec err none⟩
    · exact ⟨_, congrArg Host.Outcome.next (if_pos hsource), s.compare_spec err _⟩
  case frame =>
    change execFramePulse err sp refIn s = _
    rw [execFramePulse]
    simp [State.cond, h0, h1]
  case pps => exact congrArg Host.Outcome.next (if_neg fun h => h3 h.1)
  case ptp =>
    change execPtpSync msg err turns angle s = _
    cases msg
    case sync => exact congrArg Host.Outcome.next (if_neg (by simpa using hno))
    all_goals rfl
  case delay => exact (congrArg Host.Outcome.next (if_pos h2)).trans (by rw [State.emit_of_sends hsends])
  case early =>
    refine congrArg Host.Outcome.next (if_pos ?_)
    simp [hfirst]

end Sys2Proof.Machine

/-! Proofs about angle events (R338 to R344): their commits and firings. -/

namespace Sys2Proof.Machine

/-! ### Firings (R337, R343, R344) -/

theorem bit_setBits_zero (v : Word) {k : Nat} (hk : k < 32) : bit (setBits v k k 0) k = false := by
  exact (getLsbD_setBits_bit v hk false k).trans (if_pos rfl)

/-- After its VALID bit clears an entry is not valid. -/
theorem State.clearEntry_invalid (s : State) (e : Nat) : bit ((s.clearEntry e).rg (Reg.AE_WORD e 0)) 31 = false := by
  have hrg : (s.clearEntry e).rg (Reg.AE_WORD e 0) = setBits (s.rg (Reg.AE_WORD e 0)) 31 31 0 := by
    refine (State.rg_setF_of_ne (s.setF ⟨Reg.AE_WORD e 0, 31, 31⟩ 0) (x := ⟨Reg.AE_WORD e 4, 31, 31⟩) (by simp [Reg.AE_WORD]) 1).trans ?_
    rw [State.rg_setF, if_pos rfl]
  rw [hrg, bit_setBits_zero _ (by decide)]

theorem State.clearEntry_rg (s : State) {e o : Nat} (h0 : o ≠ Reg.AE_WORD e 0) (h4 : o ≠ Reg.AE_WORD e 4) : (s.clearEntry e).rg o = s.rg o :=
  (State.rg_setF_of_ne (s.setF ⟨Reg.AE_WORD e 0, 31, 31⟩ 0) (x := ⟨Reg.AE_WORD e 4, 31, 31⟩) h4 1).trans
    (s.rg_setF_of_ne (x := ⟨Reg.AE_WORD e 0, 31, 31⟩) h0 0)

theorem State.clearEntry_rest (s : State) (e : Nat) :
    s.clearEntry e = { s with regs := (s.clearEntry e).regs, time := { s.time with watch := (s.clearEntry e).time.watch } } := rfl

/-- The state once a firing is noted: what is crowded or late is counted, and the ideal time has fired. -/
def State.marked (s : State) (e ideal : Nat) (late : Bool) : State :=
  ((s.cond (decide (4 ≤ s.crowd e ideal)) fun u => u.inc Reg.AE_CROWDED).markFired e ideal).cond late fun u => u.inc Reg.AE_LATE

/-- What the notes of a firing leave: two counts and the ideal times that have fired. -/
structure Marked (s u : State) (e ideal : Nat) : Prop where
  rest : u = { s with regs := u.regs, time := { s.time with fired := u.time.fired } }
  rg : ∀ o, o ≠ Reg.AE_CROWDED → o ≠ Reg.AE_LATE → u.rg o = s.rg o
  fired : ideal ∈ tget [] u.time.fired e

theorem State.marked_spec (s : State) (e ideal : Nat) (late : Bool) : Marked s (s.marked e ideal late) e ideal := by
  have hcount (t : State) (c : Bool) (off : Nat) : (t.cond c fun u => u.inc off) = { t with regs := (t.cond c fun u => u.inc off).regs } ∧
      ∀ o, o ≠ off → (t.cond c fun u => u.inc off).rg o = t.rg o := by
    unfold State.cond
    split
    · exact ⟨rfl, fun o ho => t.rg_inc_of_ne ho⟩
    · exact ⟨rfl, fun _ _ => rfl⟩
  unfold State.marked
  obtain ⟨hrest, hrg⟩ := hcount s (decide (4 ≤ s.crowd e ideal)) Reg.AE_CROWDED
  generalize (s.cond (decide (4 ≤ s.crowd e ideal)) fun u => u.inc Reg.AE_CROWDED) = t at *
  obtain ⟨hrest', hrg'⟩ := hcount (t.markFired e ideal) late Reg.AE_LATE
  refine ⟨?_, fun o hc hl => (hrg' o hl).trans (hrg o hc), ?_⟩
  · rw [hrest', hrest]
    rfl
  · rw [hrest', State.markFired, State.setTime, tget_tput, if_pos rfl]
    exact List.mem_cons_self ..

/-- A firing's end: a one-shot entry is no longer valid. -/
def State.shot (s : State) (e : Nat) (ws : List Word) : State := if aeOneshot ws then s.clearEntry e else s

theorem State.shot_rest (s : State) (e : Nat) (ws : List Word) :
    s.shot e ws = { s with regs := (s.shot e ws).regs, time := { s.time with watch := (s.shot e ws).time.watch } } := by
  unfold State.shot
  split
  · exact s.clearEntry_rest e
  · rfl

theorem State.shot_rg (s : State) {e o : Nat} (ws : List Word) (h0 : o ≠ Reg.AE_WORD e 0) (h4 : o ≠ Reg.AE_WORD e 4) : (s.shot e ws).rg o = s.rg o := by
  unfold State.shot
  split
  · exact s.clearEntry_rg h0 h4
  · rfl

theorem State.shot_invalid (s : State) (e : Nat) {ws : List Word} (h : aeOneshot ws = true) : bit ((s.shot e ws).rg (Reg.AE_WORD e 0)) 31 = false := by
  rw [State.shot, if_pos h, s.clearEntry_invalid]

section
variable {s : State} {e action : Nat} {fits : List Word → Bool} {bad : BitVec 2} {late : Bool} {f : Act} {ws : List Word} {ideal : Nat}

/-- A due firing with both copies damaged clears its entry. -/
theorem State.fire_damaged (hdue : s.due e action ws ideal) (hfits : fits ws = true) :
    s.fire e action fits 3 late f = ((s.clearEntry e).inc Reg.AE_DISCARD).hostMismatch 0 := by
  obtain ⟨hfirst, hst, hdown, hgov, hvalid, haction, hafter, hnew⟩ := hdue
  have hunfired : ideal ∉ tget [] s.time.fired e := by simpa using hnew
  rw [State.fire, hgov]
  dsimp only
  rw [if_neg (by simp [hfirst, hst, hdown, hvalid, haction, hafter, hunfired, hfits]), if_pos rfl]

/-- A due firing acts, or waits for the wake where its action does. -/
theorem State.fire_due (hdue : s.due e action ws ideal) (hfits : fits ws = true) (hbad : bad ≠ 3) : s.fire e action fits bad late f =
    if action ≤ 4 ∧ 2 ≤ s.fd Reg.PWR_STATUS_STATE then
      (((s.marked e ideal true).setPower { s.power with held := s.power.held ++ [(e, ws)] }).wakeTrigger).shot e ws
    else ((s.marked e ideal late).act f ws ideal).shot e ws := by
  obtain ⟨hfirst, hst, hdown, hgov, hvalid, haction, hafter, hnew⟩ := hdue
  have hunfired : ideal ∉ tget [] s.time.fired e := by simpa using hnew
  rw [State.fire, hgov]
  dsimp only
  rw [if_neg (by simp [hfirst, hst, hdown, hvalid, haction, hafter, hunfired, hfits]), if_neg hbad]
  have hst : ((s.cond (decide (4 ≤ s.crowd e ideal)) fun u => u.inc Reg.AE_CROWDED).markFired e ideal).fd Reg.PWR_STATUS_STATE
      = s.fd Reg.PWR_STATUS_STATE := State.fd_congr ((s.marked_spec e ideal false).rg Reg.PWR_STATUS (by decide) (by decide))
  rw [hst]
  by_cases hhold : action ≤ 4 ∧ 2 ≤ s.fd Reg.PWR_STATUS_STATE
  · rw [if_pos hhold, decide_eq_true hhold.1, decide_eq_true hhold.2, Bool.and_true, Bool.or_true, if_pos rfl]
    have hpower : (s.marked e ideal true).power = s.power := by rw [(s.marked_spec e ideal true).rest]
    rw [← hpower]
    rfl
  · have hno : (decide (action ≤ 4) && decide (2 ≤ s.fd Reg.PWR_STATUS_STATE)) = false := by
      rw [← Bool.decide_and, decide_eq_false hhold]
    simp only [hno, if_neg hhold, Bool.or_false, Bool.false_eq_true, if_false]
    rfl

/-- Where nothing is due, no firing has an effect. -/
theorem State.fire_idle (h : s.on Reg.TB_STATUS_FIRST_LOCK = false ∨ (tget [] s.time.fired e).contains (s.governs e).2.1 = true) :
    s.fire e action fits bad late f = s := by
  rw [State.fire]
  refine if_pos ?_
  rcases h with h | h <;> rw [h] <;> simp

end

/-! ### The ideal times that have fired stay -/

theorem State.restRequest_time (s : State) (woken : Bool) : (s.restRequest woken).time = s.time := by
  unfold State.restRequest
  split
  · rfl
  · split
    · obtain ⟨more, hirq⟩ := (s.setF Reg.PWR_EVENTS_REST_REFUSED 1).irq_eq 4
      rw [State.powerEvent, hirq]
      rfl
    · split <;> rfl

theorem State.wakeTrigger_time (s : State) : s.wakeTrigger.time = s.time := by rw [s.wakeTrigger_frame.1]

theorem State.newTail_time (s : State) (r : Nat) (t : Word) : (s.newTail r t).time = s.time := by
  unfold State.newTail
  split
  · rfl
  · dsimp only
    rw [State.wakeTrigger_time, State.issueFetch_frame]
    rfl

theorem State.admitOne_time (s : State) (id : Nat) : (s.admitOne id).time = s.time := by
  rw [s.admitOne_onlyReads id]
  rfl

/-- What sampling leaves: registers of the snapshot pages from b on, free values and the count of samples. -/
structure Sampled (b : Nat) (s t : State) : Prop where
  rest : t = { s with regs := t.regs, freeCount := t.freeCount, repair := { s.repair with sampleSeq := t.repair.sampleSeq } }
  rg : ∀ o, o < b → t.rg o = s.rg o

section
variable {a b : Nat} {s t u : State}

theorem Sampled.refl (s : State) : Sampled b s s := ⟨rfl, fun _ _ => rfl⟩

theorem Sampled.trans (h : Sampled b s t) (k : Sampled b t u) : Sampled b s u := by
  refine ⟨?_, fun o ho => (k.rg o ho).trans (h.rg o ho)⟩
  have h₁ := h.rest
  have h₂ := k.rest
  rw [h₂, h₁]

theorem Sampled.mono (h : Sampled b s t) (hle : a ≤ b) : Sampled a s t := ⟨h.rest, fun o ho => h.rg o (by omega)⟩

theorem Sampled.wrg (h : Sampled b s t) {off : Nat} (hoff : b ≤ off) (v : Word) : Sampled b s (t.wrg off v) :=
  h.trans ⟨rfl, fun o ho => t.rg_wrg_of_ne (by omega) v⟩

theorem Sampled.drawn (h : Drawn s t) : Sampled b s t := by
  unfold Drawn at h
  rw [h]
  exact ⟨rfl, fun _ _ => rfl⟩

theorem Sampled.each {α : Type} (h : Sampled b s t) (l : List α) {f : State → α → State} (hf : ∀ u, ∀ x ∈ l, Sampled b u (f u x)) :
    Sampled b s (t.each l f) := by
  induction l generalizing t with
  | nil => exact h
  | cons x l ih => exact ih (h.trans (hf t x (List.mem_cons_self ..))) fun u y hy => hf u y (List.mem_cons_of_mem _ hy)

end

/-- A register of a set, as it reads, goes to the set's page. -/
def State.samplePart (u : State) (k : Nat) (e : Nat × Nat) : State := (u.view e.2).2.wrg (samplePage k + 0x10 + 4 * e.1) (u.view e.2).1

theorem State.samplePart_sampled (s : State) (k : Nat) (e : Nat × Nat) : Sampled (samplePage k) s (s.samplePart k e) :=
  (Sampled.drawn (s.view_drawn e.2)).wrg (by omega) _

theorem State.sample_eq (s : State) (seq ideal k : Nat) : s.sample seq ideal k =
    (((s.each ((sampleSet k).mapIdx fun i r => (i, r)) fun u e => u.samplePart k e).wrg (samplePage k + 4) (BitVec.ofNat 32 (ideal / 2 ^ 24))).wrg
      (samplePage k + 8) (BitVec.ofNat 32 (ideal % 2 ^ 24))).wrg (samplePage k) (BitVec.ofNat 32 seq) := rfl

theorem State.sample_sampled (s : State) (seq ideal k : Nat) : Sampled (samplePage k) s (s.sample seq ideal k) := by
  rw [s.sample_eq]
  exact ((((Sampled.refl s).each _ fun u e _ => u.samplePart_sampled k e).wrg (by omega) _).wrg (by omega) _).wrg (Nat.le_refl _) _

/-- One set is sampled under the next number. -/
def State.sampleNext (s : State) (ideal k : Nat) : State :=
  { s with repair := { s.repair with sampleSeq := s.repair.sampleSeq + 1 } }.sample (s.repair.sampleSeq + 1) ideal k

theorem State.sampleNext_sampled (s : State) (ideal k : Nat) : Sampled (samplePage k) s (s.sampleNext ideal k) :=
  Sampled.trans (t := { s with repair := { s.repair with sampleSeq := s.repair.sampleSeq + 1 } }) ⟨rfl, fun _ _ => rfl⟩ (State.sample_sampled ..)

theorem actTelemetry_eq (s : State) (ws : List Word) (ideal : Nat) : actTelemetry s ws ideal =
    (s.each ((List.range 5).filter fun k => bit (aeArg ws) k) fun t k => t.sampleNext ideal k, true) := rfl

theorem actTelemetry_sampled (s : State) (ws : List Word) (ideal : Nat) : Sampled 0x38000 s (actTelemetry s ws ideal).1 :=
  (Sampled.refl s).each _ fun u k _ => (u.sampleNext_sampled ideal k).mono (by simp only [samplePage]; omega)

/-- An action leaves the ideal times that have fired. -/
def KeepsFired (f : Act) : Prop := ∀ s ws ideal, (f s ws ideal).1.time.fired = s.time.fired

theorem actStartRun_keepsFired : KeepsFired actStartRun := by
  intro s ws ideal
  unfold actStartRun
  dsimp only
  split
  · split
    · exact congrArg TimeSt.fired (s.admitOne_time _)
    · rfl
  · rfl

theorem actRing_keepsFired : KeepsFired actRing := by
  intro s ws ideal
  unfold actRing
  dsimp only
  split
  · split
    · exact congrArg TimeSt.fired (s.newTail_time _ _)
    · rfl
  · rfl

theorem actStartStep_keepsFired (e : Nat) : KeepsFired (actStartStep e) := by
  intro s ws ideal
  unfold actStartStep
  split <;> rfl

theorem actBarrier_keepsFired (e : Nat) : KeepsFired (actBarrier e) := by
  intro s ws ideal
  unfold actBarrier
  dsimp only
  split <;> rfl

theorem actWake_keepsFired : KeepsFired actWake := fun s _ _ => congrArg TimeSt.fired s.wakeTrigger_time
theorem actRest_keepsFired : KeepsFired actRest := fun s _ _ => congrArg TimeSt.fired (s.restRequest_time false)
theorem actCap_keepsFired : KeepsFired actCap := fun _ _ _ => rfl

theorem actTelemetry_keepsFired : KeepsFired actTelemetry := by
  intro s ws ideal
  rw [(actTelemetry_sampled s ws ideal).rest]

theorem State.act_fired {f : Act} (hf : KeepsFired f) (s : State) (ws : List Word) (ideal : Nat) : (s.act f ws ideal).time.fired = s.time.fired := by
  unfold State.act
  dsimp only
  split <;> exact hf s ws ideal

theorem State.shot_fired (s : State) (e : Nat) (ws : List Word) : (s.shot e ws).time.fired = s.time.fired := by rw [s.shot_rest]

theorem State.wakeTrigger_held (s : State) : s.wakeTrigger.power.held = s.power.held := by
  unfold State.wakeTrigger
  split
  · rfl
  · split <;> rfl

/-- After a firing its ideal time has fired and a one-shot entry is not valid; near Rest the first four actions wait. -/
theorem State.fire_once {s : State} {e action : Nat} {fits : List Word → Bool} {bad : BitVec 2} {late : Bool} {f : Act} {ws : List Word} {ideal : Nat}
    (hdue : s.due e action ws ideal) (hfits : fits ws = true) (hbad : bad ≠ 3) (hf : KeepsFired f) :
    ideal ∈ tget [] (s.fire e action fits bad late f).time.fired e ∧
      (aeOneshot ws = true → bit ((s.fire e action fits bad late f).rg (Reg.AE_WORD e 0)) 31 = false) ∧
      (2 ≤ s.fd Reg.PWR_STATUS_STATE → action ≤ 4 → (s.fire e action fits bad late f).power.held = s.power.held ++ [(e, ws)] ∧
        (s.fire e action fits bad late f).rg Reg.AE_FIRED = s.rg Reg.AE_FIRED) := by
  rw [State.fire_due hdue hfits hbad]
  have haw (k : Nat) : Reg.AE_FIRED ≠ Reg.AE_WORD e k := by
    simp only [Reg.AE_FIRED, Reg.AE_WORD]
    omega
  split
  next hhold =>
    have hmark := s.marked_spec e ideal true
    generalize s.marked e ideal true = u at *
    obtain ⟨hwake, hwakeRg⟩ := (u.setPower { s.power with held := s.power.held ++ [(e, ws)] }).wakeTrigger_frame
    refine ⟨?_, fun hone => State.shot_invalid _ e hone, fun _ _ => ⟨?_, ?_⟩⟩
    · rw [State.shot_fired, State.wakeTrigger_time]
      exact hmark.fired
    · rw [State.shot_rest]
      exact State.wakeTrigger_held _
    · rw [State.shot_rg _ ws (haw 0) (haw 4), hwakeRg _ (by decide)]
      exact hmark.rg _ (by decide) (by decide)
  next hhold =>
    refine ⟨?_, fun hone => State.shot_invalid _ e hone, fun hst haction => absurd ⟨haction, hst⟩ hhold⟩
    rw [State.shot_fired, State.act_fired hf]
    exact (s.marked_spec e ideal late).fired

theorem AE_WORD_ne (e k : Nat) {o : Nat} (h : o < 0x11000) : o ≠ Reg.AE_WORD e k := by
  simp only [Reg.AE_WORD]
  omega

theorem State.hostMismatch_rg (s : State) (i : Nat) {o : Nat} (h : o ≠ Reg.FH_CPL_MISMATCH) : (s.hostMismatch i).rg o = s.rg o := s.rg_inc_of_ne h

/-- A mismatch reported by the hub changes registers, reports on their way and free values. -/
theorem State.hostMismatch_rest (s : State) (i : Nat) : s.hostMismatch i =
    { s with regs := (s.hostMismatch i).regs, repair := (s.hostMismatch i).repair, freeCount := (s.hostMismatch i).freeCount } := rfl

/-- A damaged entry is cleared and counted. -/
def State.discarded (s : State) (e : Nat) : State := ((s.clearEntry e).inc Reg.AE_DISCARD).hostMismatch 0

theorem State.discarded_rg (s : State) (e : Nat) {o : Nat} (h : o ≠ Reg.FH_CPL_MISMATCH) :
    (s.discarded e).rg o = ((s.clearEntry e).inc Reg.AE_DISCARD).rg o := State.hostMismatch_rg _ 0 h

theorem State.discarded_rest (s : State) (e : Nat) : s.discarded e = { s with
    regs := (s.discarded e).regs, repair := (s.discarded e).repair, freeCount := (s.discarded e).freeCount, time := (s.discarded e).time } := by
  have hinc (t : State) : t.inc Reg.AE_DISCARD = { t with regs := (t.inc Reg.AE_DISCARD).regs } := rfl
  unfold State.discarded
  rw [State.hostMismatch_rest, hinc, s.clearEntry_rest]

theorem State.discarded_spec (s : State) (e : Nat) : bit ((s.discarded e).rg (Reg.AE_WORD e 0)) 31 = false ∧
    (s.discarded e).rg Reg.AE_DISCARD = s.rg Reg.AE_DISCARD + 1 ∧ SameArray s (s.discarded e) ∧ (s.discarded e).host = s.host ∧
    (s.discarded e).net = s.net ∧ (s.discarded e).power = s.power ∧ (s.discarded e).outbox = s.outbox := by
  have hrest := s.discarded_rest e
  refine ⟨?_, ?_, ⟨?_, ?_⟩, ?_, ?_, ?_, ?_⟩
  · rw [s.discarded_rg e (by simp only [Reg.AE_WORD, Reg.FH_CPL_MISMATCH]; omega), State.rg_inc_of_ne _ (AE_WORD_ne e 0 (by decide)).symm,
      s.clearEntry_invalid]
  · rw [s.discarded_rg e (by decide), State.rg_inc_same, s.clearEntry_rg (AE_WORD_ne _ _ (by decide)) (AE_WORD_ne _ _ (by decide))]
  all_goals rw [hrest]

/-! ### Commits (R339) -/

/-- A list of registers that are written, each with its word. -/
theorem State.each_wrg_rg (s : State) (l : List Nat) (g : Nat → Nat) (v : Nat → Word) (o : Nat) (hg : ∀ i ∈ l, ∀ j ∈ l, g i = g j → i = j)
    (hl : l.Nodup) : (∀ w ∈ l, o = g w → (s.each l fun u w => u.wrg (g w) (v w)).rg o = v w) ∧
      ((∀ w ∈ l, o ≠ g w) → (s.each l fun u w => u.wrg (g w) (v w)).rg o = s.rg o) := by
  induction l generalizing s with
  | nil => exact ⟨fun w hw => absurd hw List.not_mem_nil, fun _ => rfl⟩
  | cons x l ih =>
    obtain ⟨hx, hl⟩ := List.nodup_cons.1 hl
    obtain ⟨hhit, hmiss⟩ := ih (s.wrg (g x) (v x)) (fun i hi j hj => hg i (List.mem_cons_of_mem _ hi) j (List.mem_cons_of_mem _ hj)) hl
    refine ⟨fun w hw ho => ?_, fun ho => ?_⟩
    · rcases List.mem_cons.1 hw with rfl | hw
      · refine (hmiss fun j hj heq => ?_).trans ?_
        · have hwj := hg w (List.mem_cons_self ..) j (List.mem_cons_of_mem _ hj) (ho.symm.trans heq)
          exact hx (hwj ▸ hj)
        · rw [State.rg_wrg, if_pos ho]
      · exact hhit w hw ho
    · refine (hmiss fun j hj => ho j (List.mem_cons_of_mem _ hj)).trans ?_
      exact State.rg_wrg_of_ne _ (ho x (List.mem_cons_self ..)) _

theorem State.aeWords_congr {s t : State} {f : Nat} (h : ∀ w, w < 4 → t.rg (Reg.AE_WORD f w) = s.rg (Reg.AE_WORD f w)) : t.aeWords f = s.aeWords f :=
  List.map_congr_left fun w hw => h w (List.mem_range.1 hw)

theorem State.commitResult_entry (s : State) (e : Fin 512) (k : Nat) :
    ((s.setF Reg.AE_COMMIT_ENTRY e).setF Reg.AE_COMMIT_RESULT k).fd Reg.AE_COMMIT_ENTRY = e := by
  have he : e.val < 2 ^ 9 := e.isLt
  rw [State.fd_setF_apart (s.setF Reg.AE_COMMIT_ENTRY e) (x := Reg.AE_COMMIT_RESULT) (y := Reg.AE_COMMIT_ENTRY) rfl (by decide) (by decide) (by decide) k,
    State.fd_setF_same s (x := Reg.AE_COMMIT_ENTRY) (by decide) (by decide)]
  exact Nat.mod_eq_of_lt he

theorem State.commitResult_result (s : State) {k : Nat} (hk : k < 4) : (s.setF Reg.AE_COMMIT_RESULT k).fd Reg.AE_COMMIT_RESULT = k := by
  rw [State.fd_setF_same s (x := Reg.AE_COMMIT_RESULT) (by decide) (by decide)]
  exact Nat.mod_eq_of_lt hk

theorem State.commitResult_rg (s : State) (e k : Nat) {o : Nat} (h : o ≠ Reg.AE_COMMIT) :
    ((s.setF Reg.AE_COMMIT_ENTRY e).setF Reg.AE_COMMIT_RESULT k).rg o = s.rg o := by
  rw [State.rg_setF_of_ne _ (x := Reg.AE_COMMIT_RESULT) h, State.rg_setF_of_ne _ (x := Reg.AE_COMMIT_ENTRY) h]

/-- The entry named, and the result of its commit. -/
abbrev State.refused (s : State) (e k : Nat) : State := (s.setF Reg.AE_COMMIT_ENTRY e).setF Reg.AE_COMMIT_RESULT k

/-- The staged words taken: the previous contents noted, and the eight words in the table. -/
def State.taken (s x : State) (e : Nat) : State :=
  ((s.setF Reg.AE_COMMIT_ENTRY e).setTime { s.time with previous := tput s.time.previous e (x.now, x.aeWords e) }).each (List.range 8)
    fun u w => u.wrg (Reg.AE_WORD e w) (x.aeStaged e w)

theorem State.aeCommit_eq (s : State) (e : Nat) (w7 : Word) : s.aeCommit e w7 =
    let x := s.aeStage e 7 w7
    if (List.range 4).any fun w => x.aeStaged e (w + 4) ≠ ~~~(x.aeStaged e w) then ((x.refused e 1).inc Reg.AE_DISCARD).hostMismatch 0
    else if aeInvalid ((List.range 4).map (x.aeStaged e)) then x.refused e 2
    else if x.aeNotOwned ((List.range 4).map (x.aeStaged e)) then x.refused e 3
    else ((x.taken x e).setF Reg.AE_COMMIT_RESULT 0).pruneWatches := rfl

theorem State.taken_rg (s x : State) (e : Nat) : (∀ w, w < 8 → (s.taken x e).rg (Reg.AE_WORD e w) = x.aeStaged e w) ∧
    ∀ o, (∀ w, w < 8 → o ≠ Reg.AE_WORD e w) → (s.taken x e).rg o = (s.setF Reg.AE_COMMIT_ENTRY e).rg o := by
  have heach (o : Nat) := State.each_wrg_rg ((s.setF Reg.AE_COMMIT_ENTRY e).setTime { s.time with previous := tput s.time.previous e (x.now, x.aeWords e) })
    (List.range 8) (Reg.AE_WORD e) (x.aeStaged e) o (by intro i _ j _ hij; simp only [Reg.AE_WORD] at hij; omega) List.nodup_range
  exact ⟨fun w hw => (heach _).1 w (List.mem_range.2 hw) rfl, fun o ho => (heach o).2 fun w hw => ho w (List.mem_range.1 hw)⟩

theorem State.taken_sameArray (s x : State) (e : Nat) : SameArray s (s.taken x e) ∧ (s.taken x e).outbox = s.outbox := by
  have heach (l : List Nat) (u : State) : SameArray u (u.each l fun u w => u.wrg (Reg.AE_WORD e w) (x.aeStaged e w)) ∧
      (u.each l fun u w => u.wrg (Reg.AE_WORD e w) (x.aeStaged e w)).outbox = u.outbox := by
    induction l generalizing u with
    | nil => exact ⟨.refl u, rfl⟩
    | cons w l ih => exact ih _
  exact heach (List.range 8) ((s.setF Reg.AE_COMMIT_ENTRY e).setTime { s.time with previous := tput s.time.previous e (x.now, x.aeWords e) })

/-- A commit that is refused changes no entry. -/
theorem State.refused_spec (s : State) (e : Fin 512) {k : Nat} (hk : k < 4) : (s.refused e k).fd Reg.AE_COMMIT_ENTRY = e ∧
    (s.refused e k).fd Reg.AE_COMMIT_RESULT = k ∧ SameArray s (s.refused e k) ∧ (s.refused e k).outbox = s.outbox ∧
    ∀ f, (s.refused e k).aeWords f = s.aeWords f := by
  refine ⟨s.commitResult_entry e k, State.commitResult_result _ hk, ((SameArray.refl s).setF _ _).setF _ _, ?_, fun f => State.aeWords_congr fun w _ => ?_⟩
  · rw [State.refused, State.setF_outbox, State.setF_outbox]
  · exact s.commitResult_rg e k (AE_WORD_ne f w (by decide)).symm

theorem aeCommit_follows {s : State} (hopen : s.open) (e : Fin 512) (w7 : Word) :
    let x := s.aeStage e 7 w7
    let ws := (List.range 4).map (x.aeStaged e)
    let paired := (List.range 4).all fun w => x.aeStaged e (w + 4) == ~~~(x.aeStaged e w)
    After (.aeCommit e w7) s fun t => t.fd Reg.AE_COMMIT_ENTRY = e ∧ SameArray s t ∧ t.outbox = s.outbox ∧
      (paired = true → aeInvalid ws = false → x.aeNotOwned ws = false → t.fd Reg.AE_COMMIT_RESULT = 0 ∧ t.aeWords e = ws ∧
        ∀ f, f ≠ e.val → t.aeWords f = s.aeWords f) ∧
      ((paired = false ∨ aeInvalid ws = true ∨ x.aeNotOwned ws = true) → (∀ f, t.aeWords f = s.aeWords f) ∧
        t.fd Reg.AE_COMMIT_RESULT = if paired = false then 1 else if aeInvalid ws then 2 else 3) := by
  intro x ws paired
  have hexec : exec (.aeCommit e w7) s = .next (s.aeCommit e w7) := by
    change execAeCommit e w7 s = _
    rw [execAeCommit, State.hostWrite_of_open hopen]
  refine ⟨_, hexec, ?_⟩
  have hx : SameArray s x ∧ x.outbox = s.outbox ∧ ∀ f, x.aeWords f = s.aeWords f := ⟨⟨rfl, rfl⟩, rfl, fun _ => rfl⟩
  have hpair : ((List.range 4).any fun w => x.aeStaged e (w + 4) ≠ ~~~(x.aeStaged e w)) = ! paired := by
    rw [List.not_all_eq_any_not]
    refine congrArg (List.any _) (funext fun w => ?_)
    by_cases h : x.aeStaged e (w + 4) = ~~~(x.aeStaged e w) <;> simp [h]
  have hrefused (k : Nat) (hk : k < 4) (t : State) (ht : t = x.refused e k) : t.fd Reg.AE_COMMIT_ENTRY = e ∧ t.fd Reg.AE_COMMIT_RESULT = k ∧
      SameArray s t ∧ t.outbox = s.outbox ∧ ∀ f, t.aeWords f = s.aeWords f := by
    obtain ⟨hentry, hresult, harray, hout, hwords⟩ := x.refused_spec e hk
    rw [ht]
    exact ⟨hentry, hresult, hx.1.trans harray, hout.trans hx.2.1, fun f => (hwords f).trans (hx.2.2 f)⟩
  cases hpaired : paired
  case false =>
    have heq : s.aeCommit e w7 = ((x.refused e 1).inc Reg.AE_DISCARD).hostMismatch 0 :=
      (s.aeCommit_eq e w7).trans (if_pos (hpair.trans (by rw [hpaired]; rfl)))
    rw [heq]
    obtain ⟨hentry, hresult, harray, hout, hwords⟩ := hrefused 1 (by decide) _ rfl
    generalize x.refused e 1 = u at *
    have hrg (o : Nat) (hd : o ≠ Reg.AE_DISCARD) (hm : o ≠ Reg.FH_CPL_MISMATCH) : ((u.inc Reg.AE_DISCARD).hostMismatch 0).rg o = u.rg o := by
      rw [State.hostMismatch_rg _ 0 hm, u.rg_inc_of_ne hd]
    have hrest : SameArray u ((u.inc Reg.AE_DISCARD).hostMismatch 0) ∧ ((u.inc Reg.AE_DISCARD).hostMismatch 0).outbox = u.outbox := by
      rw [State.hostMismatch_rest]
      exact ⟨⟨rfl, rfl⟩, rfl⟩
    refine ⟨?_, harray.trans hrest.1, hrest.2.trans hout, by simp, fun _ => ⟨fun f => ?_, ?_⟩⟩
    · rw [State.fd_congr (hrg _ (by decide) (by decide)), hentry]
    · refine (State.aeWords_congr fun w hw => hrg _ (AE_WORD_ne f w (by decide)).symm ?_).trans (hwords f)
      simp only [Reg.AE_WORD, Reg.FH_CPL_MISMATCH]
      omega
    · rw [State.fd_congr (hrg _ (by decide) (by decide)), hresult, if_pos rfl]
  case true =>
    have hpassed : ¬ (((List.range 4).any fun w => x.aeStaged e (w + 4) ≠ ~~~(x.aeStaged e w)) = true) := by
      rw [hpair, hpaired]
      decide
    cases hinvalid : aeInvalid ws
    case true =>
      rw [show s.aeCommit e w7 = x.refused e 2 from ((s.aeCommit_eq e w7).trans (if_neg hpassed)).trans (if_pos hinvalid)]
      obtain ⟨hentry, hresult, harray, hout, hwords⟩ := hrefused 2 (by decide) _ rfl
      exact ⟨hentry, harray, hout, by simp, fun _ => ⟨hwords, by simp [hresult]⟩⟩
    case false =>
      have hvalid : ¬ (aeInvalid ws = true) := by simp [hinvalid]
      cases howned : x.aeNotOwned ws
      case true =>
        rw [show s.aeCommit e w7 = x.refused e 3 from (((s.aeCommit_eq e w7).trans (if_neg hpassed)).trans (if_neg hvalid)).trans (if_pos howned)]
        obtain ⟨hentry, hresult, harray, hout, hwords⟩ := hrefused 3 (by decide) _ rfl
        exact ⟨hentry, harray, hout, by simp, fun _ => ⟨hwords, by simp [hresult]⟩⟩
      case false =>
        have hfree : ¬ (x.aeNotOwned ws = true) := by rw [howned]; decide
        rw [show s.aeCommit e w7 = ((x.taken x e).setF Reg.AE_COMMIT_RESULT 0).pruneWatches from
          (((s.aeCommit_eq e w7).trans (if_neg hpassed)).trans (if_neg hvalid)).trans (if_neg hfree)]
        obtain ⟨htaken, hother⟩ := x.taken_rg x e
        obtain ⟨harray, hout⟩ := x.taken_sameArray x e
        generalize hu : x.taken x e = u at *
        have hrg (o : Nat) : ((u.setF Reg.AE_COMMIT_RESULT 0).pruneWatches).rg o = (u.setF Reg.AE_COMMIT_RESULT 0).rg o := rfl
        have hword (f w : Nat) : ((u.setF Reg.AE_COMMIT_RESULT 0).pruneWatches).rg (Reg.AE_WORD f w) = u.rg (Reg.AE_WORD f w) :=
          (hrg _).trans (State.rg_setF_of_ne _ (x := Reg.AE_COMMIT_RESULT) (AE_WORD_ne f w (by decide)).symm 0)
        refine ⟨?_, ((hx.1.trans harray).setF Reg.AE_COMMIT_RESULT 0).setTime _, ?_, fun _ _ _ => ⟨?_, ?_, fun f hf => ?_⟩, by simp⟩
        · have he : e.val < 2 ^ 9 := e.isLt
          rw [State.fd_congr (hrg _), State.fd_setF_apart _ (x := Reg.AE_COMMIT_RESULT) (y := Reg.AE_COMMIT_ENTRY) rfl (by decide) (by decide) (by decide),
            State.fd_congr (hother _ fun w _ => AE_WORD_ne e w (by decide)), State.fd_setF_same x (x := Reg.AE_COMMIT_ENTRY) (by decide) (by decide)]
          exact Nat.mod_eq_of_lt he
        · exact (State.setF_outbox u Reg.AE_COMMIT_RESULT 0).trans (hout.trans hx.2.1)
        · rw [State.fd_congr (hrg _)]
          exact State.commitResult_result _ (by decide)
        · refine List.map_congr_left fun w hw => ?_
          rw [hword, htaken w (by have := List.mem_range.1 hw; omega)]
        · refine (State.aeWords_congr fun w hw => ?_).trans (hx.2.2 f)
          rw [hword, hother _ fun v hv => ?_]
          · exact State.rg_setF_of_ne _ (x := Reg.AE_COMMIT_ENTRY) (AE_WORD_ne f w (by decide)).symm _
          · simp only [Reg.AE_WORD]
            omega

/-- Settles O38: a commit's outcome follows its checks in order, and what every firing leaves is a fact about `fire`, whatever its action. -/
theorem angleEventsCommitAndFireOnce : Obligations.AngleEventsCommitAndFireOnce := by
  refine ⟨fun s e w7 hopen => aeCommit_follows hopen e w7, ?once, ?damaged, ?idle⟩
  case once =>
    intro s e bad late ws ideal x hx hdue hfits hbad
    have hact {c : Instr} {action : Nat} {fits : List Word → Bool} {f : Act} (hexec : exec c s = .next (s.fire e action fits bad late f))
        (hdue : s.due e action ws ideal) (hfits : fits ws = true) (hf : KeepsFired f) : After c s fun t => ideal ∈ tget [] t.time.fired e ∧
        (aeOneshot ws = true → bit (t.rg (Reg.AE_WORD e 0)) 31 = false) ∧
        (2 ≤ s.fd Reg.PWR_STATUS_STATE → action ≤ 4 → t.power.held = s.power.held ++ [(e.val, ws)] ∧ t.rg Reg.AE_FIRED = s.rg Reg.AE_FIRED) :=
      ⟨_, hexec, State.fire_once hdue hfits hbad hf⟩
    simp only [List.mem_cons, List.not_mem_nil, or_false] at hx
    obtain rfl | rfl | rfl | rfl | rfl | rfl | rfl | rfl := hx
    · exact hact rfl hdue rfl actStartRun_keepsFired
    · exact hact rfl hdue rfl actRing_keepsFired
    · exact hact rfl hdue rfl (actStartStep_keepsFired e)
    · exact hact rfl hdue rfl (actBarrier_keepsFired e)
    · exact hact rfl hdue hfits actWake_keepsFired
    · exact hact rfl hdue hfits actRest_keepsFired
    · exact hact rfl hdue hfits actCap_keepsFired
    · exact hact rfl hdue rfl actTelemetry_keepsFired
  case damaged =>
    intro s e late ws ideal x hx hdue hfits
    have hclear {c : Instr} {action : Nat} {fits : List Word → Bool} {f : Act} (hexec : exec c s = .next (s.fire e action fits 3 late f))
        (hdue : s.due e action ws ideal) (hfits : fits ws = true) : exec c s = .next (s.discarded e) := by
      rw [hexec, State.fire_damaged hdue hfits, State.discarded]
    refine ⟨s.discarded e, ?_, s.discarded_spec e⟩
    simp only [List.mem_cons, List.not_mem_nil, or_false] at hx
    obtain rfl | rfl | rfl | rfl | rfl | rfl | rfl | rfl | rfl := hx
    case inr.inr.inr.inr.inr.inl | inr.inr.inr.inr.inr.inr.inl | inr.inr.inr.inr.inr.inr.inr.inl => exact hclear rfl hdue hfits
    all_goals exact hclear rfl hdue rfl
  case idle =>
    intro s e bad late hidle c hc
    have hfire {action : Nat} {fits : List Word → Bool} {f : Act} (hexec : exec c s = .next (s.fire e action fits bad late f)) : Passes c s :=
      hexec.trans (congrArg Host.Outcome.next (State.fire_idle hidle))
    simp only [List.mem_cons, List.not_mem_nil, or_false] at hc
    obtain rfl | rfl | rfl | rfl | rfl | rfl | rfl | rfl | rfl := hc <;> exact hfire rfl

end Sys2Proof.Machine

/-! What each action of an angle event does (R344, R346, R365, R569, R595 to R598). -/

namespace Sys2Proof.Machine

/-! ### A firing that acts -/

/-- The end of a firing that acted: it is counted, and a one-shot entry clears. -/
def State.acted (s : State) (e : Nat) (ws : List Word) : State := (s.inc Reg.AE_FIRED).shot e ws

theorem State.acted_rest (s : State) (e : Nat) (ws : List Word) :
    s.acted e ws = { s with regs := (s.acted e ws).regs, time := { s.time with watch := (s.acted e ws).time.watch } } := by
  have hinc : s.inc Reg.AE_FIRED = { s with regs := (s.inc Reg.AE_FIRED).regs } := rfl
  unfold State.acted
  rw [State.shot_rest, hinc]

/-- The registers that a firing itself leaves: below the time base's counts of firings, or beyond the table of entries. -/
theorem State.acted_rg (s : State) (e : Fin 512) (ws : List Word) {o : Nat} (h : o ≠ Reg.AE_FIRED) (hout : o < 0x11000 ∨ 0x15000 ≤ o) :
    (s.acted e ws).rg o = s.rg o := by
  have hne (k : Nat) (hk : k < 8) : o ≠ Reg.AE_WORD e k := by
    have he := e.isLt
    simp only [Reg.AE_WORD]
    omega
  rw [State.acted, State.shot_rg _ ws (hne 0 (by decide)) (hne 4 (by decide)), s.rg_inc_of_ne h]

theorem State.acted_fired (s : State) (e : Nat) (ws : List Word) : (s.acted e ws).rg Reg.AE_FIRED = s.rg Reg.AE_FIRED + 1 := by
  rw [State.acted, State.shot_rg _ ws (AE_WORD_ne e 0 (by decide)) (AE_WORD_ne e 4 (by decide)), State.rg_inc_same]

section
variable {s : State} {e : Fin 512} {action : Nat} {fits : List Word → Bool} {bad : BitVec 2} {late : Bool} {f : Act} {ws : List Word} {ideal : Nat}
  (hdue : s.due e action ws ideal) (hfits : fits ws = true) (hbad : bad ≠ 3) (hawake : s.fd Reg.PWR_STATUS_STATE < 2)
include hdue hfits hbad hawake

/-- Away from Rest a due firing acts, on a state that differs in its notes alone. -/
theorem State.fire_acts : ∃ u, Marked s u e ideal ∧ s.fire e action fits bad late f = (u.act f ws ideal).shot e ws := by
  refine ⟨_, s.marked_spec e ideal late, ?_⟩
  rw [State.fire_due hdue hfits hbad, if_neg (by omega)]

/-- A firing whose action acts. -/
theorem State.fire_acted {g : State → State} (hacts : ∀ u, Marked s u e ideal → f u ws ideal = (g u, true)) :
    ∃ u, Marked s u e ideal ∧ s.fire e action fits bad late f = (g u).acted e ws := by
  obtain ⟨u, hu, hfire⟩ := State.fire_acts (late := late) (f := f) hdue hfits hbad hawake
  refine ⟨u, hu, ?_⟩
  rw [hfire, State.act, hacts u hu]
  rfl

/-- A firing whose action does not act. -/
theorem State.fire_unacted {g : State → State} (hacts : ∀ u, Marked s u e ideal → f u ws ideal = (g u, false)) :
    ∃ u, Marked s u e ideal ∧ s.fire e action fits bad late f = (g u).shot e ws := by
  obtain ⟨u, hu, hfire⟩ := State.fire_acts (late := late) (f := f) hdue hfits hbad hawake
  refine ⟨u, hu, ?_⟩
  rw [hfire, State.act, hacts u hu]
  rfl

end

section
variable {s u : State} {e ideal : Nat} (h : Marked s u e ideal)
include h

theorem Marked.host : u.host = s.host := by rw [h.rest]
theorem Marked.net : u.net = s.net := by rw [h.rest]
theorem Marked.power : u.power = s.power := by rw [h.rest]
theorem Marked.barriers : u.barriers = s.barriers := by rw [h.rest]
theorem Marked.sameArray : SameArray s u := by rw [h.rest]; exact ⟨rfl, rfl⟩

/-- Registers away from the counts of crowded and late firings. -/
theorem Marked.far {o : Nat} (ho : 0x1004C ≤ o ∨ o < 0x10044) : u.rg o = s.rg o :=
  h.rg o (by simp only [Reg.AE_CROWDED]; omega) (by simp only [Reg.AE_LATE]; omega)

theorem Marked.desc (id : Nat) : u.desc id = s.desc id := by rw [State.desc, h.host, State.desc]
theorem Marked.ring (r : Nat) : u.ring r = s.ring r := by rw [State.ring, h.host, State.ring]
theorem Marked.bar (k : Nat) : u.bar k = s.bar k := by rw [State.bar, h.barriers, State.bar]

theorem Marked.nextDesc (r : Nat) : u.nextDesc r = s.nextDesc r := by
  rw [State.nextDesc, h.host, h.far (by simp only [Reg.RC_SQ_HEAD]; omega), State.nextDesc]

theorem Marked.ringHeld (r : Nat) : u.ringHeld r = s.ringHeld r := by rw [State.ringHeld, h.host, State.ringHeld]

theorem Marked.cqRoom (c : Nat) : u.cqRoom c = s.cqRoom c := by
  rw [State.cqRoom, h.far (by simp only [Reg.RC_CQ_WRITTEN]; omega), h.far (by simp only [Reg.RC_CQ_HEAD]; omega), h.ring,
    State.fd_congr (x := Reg.RC_CTRL_CQ_LOG2 c) (h.far (by simp only [Reg.RC_CTRL_CQ_LOG2, Reg.RC_CTRL]; omega)), State.cqRoom]

theorem Marked.deadlineRoom (d : Desc) : u.deadlineRoom d = s.deadlineRoom d := by rw [State.deadlineRoom, h.host, State.deadlineRoom]

theorem Marked.admitHeld : u.admitHeld = s.admitHeld := by
  rw [State.admitHeld, State.on_congr (h.far (.inr (by decide))), State.on_congr (h.far (.inr (by decide))), h.power,
    State.fd_congr (h.far (.inl (by decide))), State.admitHeld]

theorem Marked.owner (r : Nat) : u.fd (Reg.RC_CTRL_OWNER r) = s.fd (Reg.RC_CTRL_OWNER r) :=
  State.fd_congr (h.far (by simp only [Reg.RC_CTRL_OWNER, Reg.RC_CTRL]; omega))

theorem Marked.enabled (r : Nat) : u.on (Reg.RC_CTRL_SQ_EN r) = s.on (Reg.RC_CTRL_SQ_EN r) :=
  State.on_congr (h.far (by simp only [Reg.RC_CTRL_SQ_EN, Reg.RC_CTRL]; omega))

theorem Marked.pc (c : Nat) : u.pc c = s.pc c :=
  State.pc_congr (h.far (by simp only [Reg.PC_VALUE_LO]; omega)) (h.far (by simp only [Reg.PC_VALUE_HI]; omega))

theorem Marked.pcOwned (c i : Nat) : u.pcOwned c i = s.pcOwned c i := by
  rw [State.pcOwned, State.on_congr (x := Reg.PC_CTRL_OWNED c) (h.far (by simp only [Reg.PC_CTRL_OWNED, Reg.PC_CTRL]; omega)),
    State.fd_congr (x := Reg.PC_CTRL_OWNER c) (h.far (by simp only [Reg.PC_CTRL_OWNER, Reg.PC_CTRL]; omega)), State.pcOwned]

theorem Marked.restBusy : u.restBusy = s.restBusy := by
  have hstore : u.store = s.store := by rw [h.rest]
  have himages : u.images = s.images := by rw [h.rest]
  have hfetch (i : Nat) : u.on (Reg.STF_CTRL_EN i) = s.on (Reg.STF_CTRL_EN i) ∧ u.fd (Reg.STF_CTRL_REQ i) = s.fd (Reg.STF_CTRL_REQ i) :=
    ⟨State.on_congr (h.far (by simp only [Reg.STF_CTRL_EN, Reg.STF_CTRL]; omega)),
      State.fd_congr (h.far (by simp only [Reg.STF_CTRL_REQ, Reg.STF_CTRL]; omega))⟩
  have hmaint : u.on Reg.MAINT_STATUS_BUSY = s.on Reg.MAINT_STATUS_BUSY := State.on_congr (h.far (.inr (by decide)))
  have hmode : u.on Reg.PWR_CTRL_MODE = s.on Reg.PWR_CTRL_MODE := State.on_congr (h.far (.inl (by decide)))
  unfold State.restBusy
  simp only [h.host, h.net, h.power, hstore, himages, (hfetch _).1, (hfetch _).2, h.pc, hmaint, hmode]

end

/-! ### START_RUN and RING -/

theorem startRun_admits {s : State} {e : Fin 512} {bad : BitVec 2} {late : Bool} {ws : List Word} {ideal : Nat} (hbad : bad ≠ 3)
    (hawake : s.fd Reg.PWR_STATUS_STATE < 2) {id : Nat} (hdue : s.due e 1 ws ideal) (hnext : s.nextDesc (bits (aeArg ws) 11 0) = some id)
    (howner : s.fd (Reg.RC_CTRL_OWNER (bits (aeArg ws) 11 0)) = aeOwner ws) (hen : s.on (Reg.RC_CTRL_SQ_EN (bits (aeArg ws) 11 0)) = true)
    (hawaits : (s.desc id).awaits = true) (hheld : s.ringHeld (bits (aeArg ws) 11 0) = false)
    (hroom : s.cqRoom (s.fd (Reg.RC_SQ_LINK_CQ (bits (aeArg ws) 11 0))) = true) (hdl : s.deadlineRoom (s.desc id) = true) (hadmit : s.admitHeld = false) :
    After (.startRun e bad late) s fun t => (t.desc id).state = .admitted ∧ (t.desc id).words = (s.desc id).words ∧
      t.rg Reg.AE_FIRED = s.rg Reg.AE_FIRED + 1 ∧ SameArray s t := by
  have hacts (u : State) (h : Marked s u e ideal) : actStartRun u ws ideal = (u.admitOne id, true) := by
    have hlink : u.fd (Reg.RC_SQ_LINK_CQ (bits (aeArg ws) 11 0)) = s.fd (Reg.RC_SQ_LINK_CQ (bits (aeArg ws) 11 0)) :=
      State.fd_congr (h.far (by simp only [Reg.RC_SQ_LINK_CQ, Reg.RC_SQ_LINK]; omega))
    simp only [actStartRun, h.nextDesc, hnext, h.owner, howner, h.enabled, hen, h.desc, hawaits, h.ringHeld, hheld, hlink, h.cqRoom, hroom,
      h.deadlineRoom, hdl, h.admitHeld, hadmit, beq_self_eq_true, Bool.and_self, Bool.not_false, if_true]
  obtain ⟨u, hu, hfire⟩ := State.fire_acted (fits := fun _ => true) (late := late) hdue rfl hbad hawake hacts
  obtain ⟨-, hdesc, -, -, harray, hregs⟩ := u.admitOne_spec id
  have hstatus : (u.desc id).status = 0 := by
    rw [hu.desc]
    simp only [Desc.awaits, Bool.and_eq_true, beq_iff_eq] at hawaits
    exact hawaits.2
  generalize u.admitOne id = v at *
  have hvdesc : (v.acted e ws).desc id = u.admittedDesc id := by
    rw [State.desc, State.acted_rest]
    exact hdesc
  refine ⟨_, congrArg Host.Outcome.next hfire, ?_, ?_, ?_, ?_⟩
  · rw [hvdesc, State.admittedDesc, hstatus]
    rfl
  · rw [hvdesc, ← hu.desc]
    rfl
  · rw [State.acted_fired, hregs _ (by simp only [List.mem_cons, List.not_mem_nil, or_false, Reg.AE_FIRED, Reg.RC_SQ_HEAD, Reg.RC_STATUS]; omega),
      hu.far (.inr (by decide))]
  · rw [State.acted_rest]
    exact hu.sameArray.trans harray

theorem startRun_idles {s : State} {e : Fin 512} {bad : BitVec 2} {late : Bool} {ws : List Word} {ideal : Nat} (hbad : bad ≠ 3)
    (hawake : s.fd Reg.PWR_STATUS_STATE < 2) (hdue : s.due e 1 ws ideal) (hnext : s.nextDesc (bits (aeArg ws) 11 0) = none) :
    After (.startRun e bad late) s fun t => t.rg Reg.AE_IDLE = s.rg Reg.AE_IDLE + 1 ∧ t.rg Reg.AE_FIRED = s.rg Reg.AE_FIRED ∧ t.host = s.host ∧
      SameArray s t := by
  have hacts (u : State) (h : Marked s u e ideal) : actStartRun u ws ideal = (u.inc Reg.AE_IDLE, false) := by
    simp only [actStartRun, h.nextDesc, hnext]
  obtain ⟨u, hu, hfire⟩ := State.fire_unacted (fits := fun _ => true) (late := late) hdue rfl hbad hawake hacts
  have hrg (o : Nat) (ho : o < 0x11000) : ((u.inc Reg.AE_IDLE).shot e ws).rg o = (u.inc Reg.AE_IDLE).rg o :=
    State.shot_rg _ ws (AE_WORD_ne e 0 ho) (AE_WORD_ne e 4 ho)
  refine ⟨_, congrArg Host.Outcome.next hfire, ?_, ?_, ?_, ?_⟩
  · rw [hrg _ (by decide), State.rg_inc_same, hu.far (.inr (by decide))]
  · rw [hrg _ (by decide), State.rg_inc_of_ne _ (by decide), hu.far (.inr (by decide))]
  · rw [State.shot_rest]
    exact hu.host
  · rw [State.shot_rest]
    exact hu.sameArray.inc Reg.AE_IDLE

theorem ringFire_applies {s : State} {e : Fin 512} {bad : BitVec 2} {late : Bool} {ws : List Word} {ideal : Nat} (hbad : bad ≠ 3)
    (hawake : s.fd Reg.PWR_STATUS_STATE < 2) {n : Nat} (hdue : s.due e 2 ws ideal) (hstaged : (s.ring (bits (aeArg ws) 11 0)).stagedTail = some n)
    (howner : s.fd (Reg.RC_CTRL_OWNER (bits (aeArg ws) 11 0)) = aeOwner ws) (hen : s.on (Reg.RC_CTRL_SQ_EN (bits (aeArg ws) 11 0)) = true)
    (hnew : BitVec.ofNat 32 n ≠ s.rg (Reg.RC_SQ_TAIL (bits (aeArg ws) 11 0)))
    (hok : tailOk (BitVec.ofNat 32 n) (s.rg (Reg.RC_SQ_TAIL (bits (aeArg ws) 11 0))) (s.rg (Reg.RC_SQ_HEAD (bits (aeArg ws) 11 0)))
      (s.fd (Reg.RC_CTRL_SQ_LOG2 (bits (aeArg ws) 11 0))) = true) :
    After (.ringFire e bad late) s fun t => t.rg (Reg.RC_SQ_TAIL (bits (aeArg ws) 11 0)) = BitVec.ofNat 32 n ∧
      t.rg Reg.AE_FIRED = s.rg Reg.AE_FIRED + 1 ∧ SameArray s t := by
  generalize hr : bits (aeArg ws) 11 0 = r at *
  have hacts (u : State) (h : Marked s u e ideal) : actRing u ws ideal = (u.newTail r (BitVec.ofNat 32 n), true) := by
    have htail : u.rg (Reg.RC_SQ_TAIL r) = s.rg (Reg.RC_SQ_TAIL r) := h.far (by simp only [Reg.RC_SQ_TAIL]; omega)
    have hhead : u.rg (Reg.RC_SQ_HEAD r) = s.rg (Reg.RC_SQ_HEAD r) := h.far (by simp only [Reg.RC_SQ_HEAD]; omega)
    have hlog : u.fd (Reg.RC_CTRL_SQ_LOG2 r) = s.fd (Reg.RC_CTRL_SQ_LOG2 r) :=
      State.fd_congr (h.far (by simp only [Reg.RC_CTRL_SQ_LOG2, Reg.RC_CTRL]; omega))
    simp only [actRing, hr, h.ring, hstaged, h.owner, howner, h.enabled, hen, htail, hhead, hlog, hok, beq_self_eq_true, decide_eq_true hnew,
      Bool.and_self, if_true]
  obtain ⟨u, hu, hfire⟩ := State.fire_acted (fits := fun _ => true) (late := late) hdue rfl hbad hawake hacts
  obtain ⟨htail, hregs, harray⟩ := u.newTail_spec r (BitVec.ofNat 32 n)
  generalize u.newTail r (BitVec.ofNat 32 n) = v at *
  refine ⟨_, congrArg Host.Outcome.next hfire, ?_, ?_, ?_⟩
  · rw [v.acted_rg e ws (by simp only [Reg.RC_SQ_TAIL, Reg.AE_FIRED]; omega) (by simp only [Reg.RC_SQ_TAIL]; omega), htail]
  · rw [State.acted_fired, hregs _ (by simp only [List.mem_cons, List.not_mem_nil, or_false, Reg.AE_FIRED, Reg.RC_SQ_TAIL, Reg.PWR_STATUS]; omega),
      hu.far (.inr (by decide))]
  · rw [State.acted_rest]
    exact hu.sameArray.trans harray

/-! ### START_STEP and BARRIER -/

/-- A firing that its barrier already holds latched is missed, and the entry recorded. -/
theorem State.missed_spec (s : State) (e : Fin 512) : (s.missed e).rg Reg.AE_MISSED = s.rg Reg.AE_MISSED + 1 ∧
    (s.missed e).fd Reg.AE_LAST_MISS_ENTRY = e ∧ s.missed e = { s with regs := (s.missed e).regs } := by
  refine ⟨?_, ?_, rfl⟩
  · rw [State.missed, State.rg_setF_of_ne _ (x := Reg.AE_LAST_MISS_ENTRY) (by decide), State.rg_inc_same]
  · have he : e.val < 2 ^ 9 := e.isLt
    rw [State.missed, State.fd_setF_same _ (x := Reg.AE_LAST_MISS_ENTRY) (by decide) (by decide)]
    exact Nat.mod_eq_of_lt he

section
variable {s u : State} {e : Fin 512} {ws : List Word} {ideal : Nat} (hu : Marked s u e ideal)
include hu

theorem Marked.missed_shot : ((u.missed e).shot e ws).rg Reg.AE_MISSED = s.rg Reg.AE_MISSED + 1 ∧ ((u.missed e).shot e ws).fd Reg.AE_LAST_MISS_ENTRY = e ∧
    (u.missed e).shot e ws = { s with regs := ((u.missed e).shot e ws).regs, time := ((u.missed e).shot e ws).time } := by
  obtain ⟨hcount, hentry, hrest⟩ := u.missed_spec e
  have hrg (o : Nat) (ho : o < 0x11000) : ((u.missed e).shot e ws).rg o = (u.missed e).rg o :=
    State.shot_rg _ ws (AE_WORD_ne e 0 ho) (AE_WORD_ne e 4 ho)
  refine ⟨by rw [hrg _ (by decide), hcount, hu.far (.inr (by decide))], by rw [State.fd_congr (hrg _ (by decide)), hentry], ?_⟩
  rw [State.shot_rest, hrest, hu.rest]

end

theorem startStep_latches {s : State} {e : Fin 512} {bad : BitVec 2} {late : Bool} {ws : List Word} {ideal : Nat} (hbad : bad ≠ 3)
    (hawake : s.fd Reg.PWR_STATUS_STATE < 2) (hdue : s.due e 3 ws ideal) :
    (s.net.gateStep = false → After (.startStep e bad late) s fun t => t.net.gateStep = true ∧ t.rg Reg.AE_FIRED = s.rg Reg.AE_FIRED + 1 ∧ SameArray s t ∧
      t = { s with regs := t.regs, time := t.time, net := { s.net with gateStep := true } }) ∧
    (s.net.gateStep = true → After (.startStep e bad late) s fun t => t.rg Reg.AE_MISSED = s.rg Reg.AE_MISSED + 1 ∧
      t.fd Reg.AE_LAST_MISS_ENTRY = e ∧ t.net = s.net ∧ SameArray s t) := by
  refine ⟨fun hfree => ?_, fun hlatched => ?_⟩
  · have hacts (u : State) (h : Marked s u e ideal) : actStartStep e u ws ideal = ({ u with net := { u.net with gateStep := true } }, true) :=
      if_neg (by rw [h.net, hfree]; decide)
    obtain ⟨u, hu, hfire⟩ := State.fire_acted (fits := fun _ => true) (late := late) (g := fun u => { u with net := { u.net with gateStep := true } })
      hdue rfl hbad hawake hacts
    have hrest : ({ u with net := { u.net with gateStep := true } } : State).acted e ws = { s with
        regs := (({ u with net := { u.net with gateStep := true } } : State).acted e ws).regs
        time := (({ u with net := { u.net with gateStep := true } } : State).acted e ws).time
        net := { s.net with gateStep := true } } := by
      rw [State.acted_rest, hu.net, hu.rest]
    have hfired : (({ u with net := { u.net with gateStep := true } } : State).acted e ws).rg Reg.AE_FIRED = s.rg Reg.AE_FIRED + 1 := by
      rw [State.acted_fired, ← hu.far (.inr (by decide))]
      rfl
    refine ⟨_, congrArg Host.Outcome.next hfire, ?_, hfired, ?_, hrest⟩
    · rw [hrest]
    · rw [hrest]
      exact ⟨rfl, rfl⟩
  · have hacts (u : State) (h : Marked s u e ideal) : actStartStep e u ws ideal = (u.missed e, false) := if_pos (by rw [h.net, hlatched])
    obtain ⟨u, hu, hfire⟩ := State.fire_unacted (fits := fun _ => true) (late := late) hdue rfl hbad hawake hacts
    obtain ⟨hcount, hentry, hrest⟩ := hu.missed_shot (ws := ws)
    refine ⟨_, congrArg Host.Outcome.next hfire, hcount, hentry, ?_, ?_⟩
    · rw [hrest]
    · rw [hrest]
      exact ⟨rfl, rfl⟩

theorem aeBarrier_latches {s : State} {e : Fin 512} {bad : BitVec 2} {late : Bool} {ws : List Word} {ideal : Nat} (hbad : bad ≠ 3)
    (hawake : s.fd Reg.PWR_STATUS_STATE < 2) (hdue : s.due e 4 ws ideal) : let k := barKey (bits (aeArg ws) 15 0) (bits (aeArg ws) 19 16)
    ((s.bar k).latched = false → After (.aeBarrier e bad late) s fun t => t.bar k = { s.bar k with latched := true } ∧
      t.rg Reg.AE_FIRED = s.rg Reg.AE_FIRED + 1 ∧ t = { s with regs := t.regs, time := t.time, barriers := t.barriers } ∧ ∀ j, j ≠ k → t.bar j = s.bar j) ∧
    ((s.bar k).latched = true → After (.aeBarrier e bad late) s fun t => t.rg Reg.AE_MISSED = s.rg Reg.AE_MISSED + 1 ∧ t.barriers = s.barriers) := by
  intro k
  refine ⟨fun hfree => ?_, fun hlatched => ?_⟩
  · have hacts (u : State) (h : Marked s u e ideal) : actBarrier e u ws ideal = (u.setBar k { s.bar k with latched := true }, true) := by
      have hk := h.bar k
      unfold actBarrier
      dsimp only
      rw [if_neg (by rw [hk, hfree]; decide), hk]
    obtain ⟨u, hu, hfire⟩ := State.fire_acted (fits := fun _ => true) (late := late) hdue rfl hbad hawake hacts
    have hbarriers : ((u.setBar k { s.bar k with latched := true }).acted e ws).barriers = tput s.barriers k { s.bar k with latched := true } := by
      rw [State.acted_rest, State.setBar, hu.barriers]
    have hbar (j : Nat) : ((u.setBar k { s.bar k with latched := true }).acted e ws).bar j = if j = k then { s.bar k with latched := true } else s.bar j := by
      rw [State.bar, hbarriers, tget_tput]
      rfl
    refine ⟨_, congrArg Host.Outcome.next hfire, (hbar k).trans (if_pos rfl), ?_, ?_, fun j hj => (hbar j).trans (if_neg hj)⟩
    · rw [State.acted_fired, ← hu.far (.inr (by decide))]
      rfl
    · rw [State.acted_rest, State.setBar, hu.rest]
  · have hacts (u : State) (h : Marked s u e ideal) : actBarrier e u ws ideal = (u.missed e, false) := if_pos (by rw [h.bar]; exact hlatched)
    obtain ⟨u, hu, hfire⟩ := State.fire_unacted (fits := fun _ => true) (late := late) hdue rfl hbad hawake hacts
    obtain ⟨hcount, -, hrest⟩ := hu.missed_shot (ws := ws)
    refine ⟨_, congrArg Host.Outcome.next hfire, hcount, ?_⟩
    rw [hrest]

/-! ### DEADLINE -/

/-- What is put in a table is found there. -/
theorem find?_tput_same {α : Type} (t : Table α) (k : Nat) (v : α) : (tput t k v).find? (fun x => x.1 == k) = some (k, v) := by
  induction t with
  | nil => simp [tput]
  | cons e t ih =>
    obtain ⟨j, w⟩ := e
    rw [tput]
    split_ifs with hlt heq
    · simp
    · simp
    · rw [List.find?_cons_of_neg (by simpa using Ne.symm heq), ih]

theorem deadline_records {s : State} {e : Fin 512} {bad : BitVec 2} {late : Bool} {ws : List Word} {ideal : Nat} (hbad : bad ≠ 3)
    (hawake : s.fd Reg.PWR_STATUS_STATE < 2) (hdue : s.due e 5 ws ideal) (howned : s.pcOwned (bits (aeArg ws) 11 0) (aeOwner ws) = true)
    (hfirst : s.time.watch.find? (fun x => x.1 == bits (aeArg ws) 11 0) = none) (hkept : aeOneshot ws = false) :
    After (.deadline e bad late) s fun t => s.pc (bits (aeArg ws) 11 0) = t.pc (bits (aeArg ws) 11 0) ∧
      (∃ w, t.time.watch.find? (fun x => x.1 == bits (aeArg ws) 11 0) = some (bits (aeArg ws) 11 0, w) ∧ w.value = s.pc (bits (aeArg ws) 11 0)) ∧
      t.rg Reg.AE_FIRED = s.rg Reg.AE_FIRED + 1 ∧ t.outbox = s.outbox ∧ SameArray s t := by
  generalize hr : bits (aeArg ws) 11 0 = r at *
  have hacts (u : State) (h : Marked s u e ideal) : actDeadline u ws ideal =
      (u.setTime { u.time with watch := tput u.time.watch r ⟨s.pc r, ideal, 0, false⟩ }, true) := by
    have hwatch : u.time.watch = s.time.watch := by rw [h.rest]
    simp only [actDeadline, hr, h.pcOwned, howned, h.pc, hwatch, hfirst, Bool.not_true, Bool.false_eq_true, if_false, Bool.false_and]
  obtain ⟨u, hu, hfire⟩ := State.fire_acted (fits := fun _ => true) (late := late) hdue rfl hbad hawake hacts
  have hshot (v : State) : v.acted e ws = v.inc Reg.AE_FIRED := if_neg (by simp [hkept])
  rw [hshot] at hfire
  have hrg (o : Nat) (ho : o ≠ Reg.AE_FIRED) : ((u.setTime { u.time with watch := tput u.time.watch r ⟨s.pc r, ideal, 0, false⟩ }).inc Reg.AE_FIRED).rg o = u.rg o :=
    State.rg_inc_of_ne _ ho
  refine ⟨_, congrArg Host.Outcome.next hfire, ?_, ⟨_, find?_tput_same .., rfl⟩, ?_, ?_, (hu.sameArray.setTime _).inc _⟩
  · exact (hu.pc r).symm.trans (State.pc_congr (hrg _ (by simp only [Reg.PC_VALUE_LO, Reg.AE_FIRED]; omega))
      (hrg _ (by simp only [Reg.PC_VALUE_HI, Reg.AE_FIRED]; omega))).symm
  · rw [State.rg_inc_same, ← hu.far (.inr (by decide))]
    rfl
  · have hout : u.outbox = s.outbox := by rw [hu.rest]
    exact hout

/-- A deadline miss is counted and shows in its owner's events. -/
theorem State.missPosted_spec (s : State) (i : Nat) (owner : Option (Nat × Nat)) : let t := ((s.postOpen 6 none owner).instEvent i 1).inc Reg.DL_MISSES
    t.rg Reg.DL_MISSES = s.rg Reg.DL_MISSES + 1 ∧ bit (t.rg (Reg.INST_EVENTS i)) 1 = true ∧ t.rg Reg.AE_FIRED = s.rg Reg.AE_FIRED ∧ SameArray s t := by
  have hposted (o : Nat) (ho : ¬ RunReg o) := (s.postOpen_runsEnd 6 none owner).rg o ho
  have harray := State.postOpen_sameArray (.refl s) 6 none owner
  generalize s.postOpen 6 none owner = u at *
  have hevent (o : Nat) (ho : o ≠ Reg.INST_EVENTS i) : (u.instEvent i 1).rg o = u.rg o := u.instEvent_rg i 1 ho
  have hset : (u.instEvent i 1).rg (Reg.INST_EVENTS i) = (u.setF ⟨Reg.INST_EVENTS i, 1, 1⟩ 1).rg (Reg.INST_EVENTS i) := by
    unfold State.instEvent
    dsimp only
    split
    · exact State.emit_rg ..
    · rfl
  have hrun : ¬ RunReg Reg.DL_MISSES ∧ ¬ RunReg Reg.AE_FIRED := by
    simp only [RunReg, Reg.DL_MISSES, Reg.AE_FIRED]
    constructor <;> · rintro (h | h | ⟨j, k, -, h⟩)
                      · exact absurd h (by decide)
                      · omega
                      · omega
  have hne : Reg.DL_MISSES ≠ Reg.INST_EVENTS i ∧ Reg.AE_FIRED ≠ Reg.INST_EVENTS i := by
    simp only [Reg.DL_MISSES, Reg.AE_FIRED, Reg.INST_EVENTS]
    omega
  dsimp only
  refine ⟨?_, ?_, ?_, ?_⟩
  · rw [State.rg_inc_same, hevent _ hne.1, hposted _ hrun.1]
  · rw [State.rg_inc_of_ne _ hne.1.symm, hset, State.rg_setF, if_pos rfl]
    exact (getLsbD_setBits_bit _ (k := 1) (by decide) true 1).trans (if_pos rfl)
  · rw [State.rg_inc_of_ne _ (by decide), hevent _ hne.2, hposted _ hrun.2]
  · refine SameArray.inc ?_ _
    unfold State.instEvent
    exact SameArray.ite (harray.trans (State.emit_sameArray ((SameArray.refl u).setF _ _) _)) (harray.setF _ _)

theorem State.deadlineMiss_spec (s : State) (i : Nat) : (s.deadlineMiss i).rg Reg.DL_MISSES = s.rg Reg.DL_MISSES + 1 ∧
    bit ((s.deadlineMiss i).rg (Reg.INST_EVENTS i)) 1 = true ∧ (s.deadlineMiss i).rg Reg.AE_FIRED = s.rg Reg.AE_FIRED ∧ SameArray s (s.deadlineMiss i) :=
  s.missPosted_spec i _

theorem deadline_misses {s : State} {e : Fin 512} {bad : BitVec 2} {late : Bool} {ws : List Word} {ideal : Nat} (hbad : bad ≠ 3)
    (hawake : s.fd Reg.PWR_STATUS_STATE < 2) (hdue : s.due e 5 ws ideal) (howned : s.pcOwned (bits (aeArg ws) 11 0) (aeOwner ws) = true) {w : Watch}
    (hold : s.time.watch.find? (fun x => x.1 == bits (aeArg ws) 11 0) = some (bits (aeArg ws) 11 0, w)) (hnew : w.ideal ≠ ideal)
    (hlow : s.pc (bits (aeArg ws) 11 0) < w.value + bits (aeArg ws) 30 23) (hstay : bit (aeArg ws) 31 = false) :
    After (.deadline e bad late) s fun t => t.rg Reg.DL_MISSES = s.rg Reg.DL_MISSES + 1 ∧ bit (t.rg (Reg.INST_EVENTS (aeOwner ws))) 1 = true ∧
      t.rg Reg.AE_FIRED = s.rg Reg.AE_FIRED + 1 ∧ SameArray s t := by
  generalize hr : bits (aeArg ws) 11 0 = r at *
  have hacts (u : State) (h : Marked s u e ideal) : actDeadline u ws ideal =
      ((u.setTime { u.time with watch := tput u.time.watch r ⟨s.pc r, ideal, w.value, true⟩ }).deadlineMiss (aeOwner ws), true) := by
    have hwatch : u.time.watch = s.time.watch := by rw [h.rest]
    simp only [actDeadline, hr, h.pcOwned, howned, h.pc, hwatch, hold, if_neg hnew, decide_eq_true hlow, hstay, State.cond, Bool.not_true,
      Bool.false_eq_true, if_false, Bool.and_self, if_true]
  obtain ⟨u, hu, hfire⟩ := State.fire_acted (fits := fun _ => true) (late := late) hdue rfl hbad hawake hacts
  obtain ⟨hcount, hevent, hfired, harray⟩ :=
    (u.setTime { u.time with watch := tput u.time.watch r ⟨s.pc r, ideal, w.value, true⟩ }).deadlineMiss_spec (aeOwner ws)
  have hbase : ∀ o, (u.setTime { u.time with watch := tput u.time.watch r ⟨s.pc r, ideal, w.value, true⟩ }).rg o = u.rg o := fun _ => rfl
  have hsame := hu.sameArray.setTime { u.time with watch := tput u.time.watch r ⟨s.pc r, ideal, w.value, true⟩ }
  generalize u.setTime { u.time with watch := tput u.time.watch r ⟨s.pc r, ideal, w.value, true⟩ } = x at *
  generalize x.deadlineMiss (aeOwner ws) = v at *
  refine ⟨_, congrArg Host.Outcome.next hfire, ?_, ?_, ?_, ?_⟩
  · rw [v.acted_rg e ws (by decide) (.inl (by decide)), hcount, hbase, hu.far (.inl (by decide))]
  · rw [v.acted_rg e ws (by simp only [Reg.INST_EVENTS, Reg.AE_FIRED]; omega) (by simp only [Reg.INST_EVENTS]; omega), hevent]
  · rw [State.acted_fired, hfired, hbase, hu.far (.inr (by decide))]
  · rw [State.acted_rest]
    exact hsame.trans harray

/-! ### POWER -/

section
variable {s : State} {e : Fin 512} {bad : BitVec 2} {late : Bool} {ws : List Word} {ideal : Nat} (hbad : bad ≠ 3)
  (hawake : s.fd Reg.PWR_STATUS_STATE < 2) (hdue : s.due e 6 ws ideal)
include hbad hawake hdue

theorem powerWake_stays (hop : opIs 0 ws = true) : After (.powerWake e bad late) s fun t => t.fd Reg.PWR_STATUS_STATE = s.fd Reg.PWR_STATUS_STATE ∧
    t.rg Reg.AE_FIRED = s.rg Reg.AE_FIRED + 1 ∧ t = { s with regs := t.regs, time := t.time } := by
  have hst (u : State) (h : Marked s u e ideal) : u.fd Reg.PWR_STATUS_STATE = s.fd Reg.PWR_STATUS_STATE := State.fd_congr (h.far (.inl (by decide)))
  have hacts (u : State) (h : Marked s u e ideal) : actWake u ws ideal = (u, true) := by
    rw [actWake, State.wakeTrigger, hst u h, if_neg (by omega), if_neg (by omega)]
  obtain ⟨u, hu, hfire⟩ := State.fire_acted (late := late) (g := fun u => u) hdue hop hbad hawake hacts
  refine ⟨_, congrArg Host.Outcome.next hfire, ?_, ?_, ?_⟩
  · rw [State.fd_congr (u.acted_rg e ws (by decide) (.inr (by decide))), hst u hu]
  · rw [State.acted_fired, hu.far (.inr (by decide))]
  · rw [State.acted_rest, hu.rest]

theorem powerEnterRest_requests (hop : opIs 1 ws = true) (hfree : s.restBusy = false) : After (.powerEnterRest e bad late) s fun t =>
    t.fd Reg.PWR_STATUS_STATE = 2 ∧ t.rg Reg.AE_FIRED = s.rg Reg.AE_FIRED + 1 ∧ SameArray s t := by
  have hacts (u : State) (h : Marked s u e ideal) : actRest u ws ideal = ((u.setF Reg.PWR_STATUS_STATE 2).setPower { u.power with trigger := false }, true) := by
    have hst : u.fd Reg.PWR_STATUS_STATE = s.fd Reg.PWR_STATUS_STATE := State.fd_congr (h.far (.inl (by decide)))
    rw [actRest, State.restRequest, if_neg (by omega), if_neg (by rw [h.restBusy, hfree]; decide), if_neg (by decide)]
  obtain ⟨u, hu, hfire⟩ := State.fire_acted (late := late) hdue hop hbad hawake hacts
  have hrg (o : Nat) : ((u.setF Reg.PWR_STATUS_STATE 2).setPower { u.power with trigger := false }).rg o = (u.setF Reg.PWR_STATUS_STATE 2).rg o := rfl
  have hsame : SameArray s ((u.setF Reg.PWR_STATUS_STATE 2).setPower { u.power with trigger := false }) := hu.sameArray.setF Reg.PWR_STATUS_STATE 2
  generalize (u.setF Reg.PWR_STATUS_STATE 2).setPower { u.power with trigger := false } = v at *
  refine ⟨_, congrArg Host.Outcome.next hfire, ?_, ?_, ?_⟩
  · rw [State.fd_congr (v.acted_rg e ws (by decide) (.inr (by decide))), State.fd_congr (hrg _), State.fd_setF_same _ (by decide) (by decide)]
    rfl
  · rw [State.acted_fired, hrg, State.rg_setF_of_ne _ (x := Reg.PWR_STATUS_STATE) (by decide), hu.far (.inr (by decide))]
  · rw [State.acted_rest]
    exact hsame

theorem powerSetCap_sets (hop : opIs 2 ws = true) : After (.powerSetCap e bad late) s fun t => t.fd Reg.PWR_CTRL_CAP_W = bits (aeArg ws) 8 0 ∧
    t.fd Reg.PWR_CTRL_MODE = s.fd Reg.PWR_CTRL_MODE ∧ t.rg Reg.AE_FIRED = s.rg Reg.AE_FIRED + 1 ∧ SameArray s t := by
  obtain ⟨u, hu, hfire⟩ := State.fire_acted (late := late) hdue hop hbad hawake (f := actCap)
    (g := fun u => u.setF Reg.PWR_CTRL_CAP_W (bits (aeArg ws) 8 0)) fun _ _ => rfl
  have hcap : bits (aeArg ws) 8 0 < 2 ^ 9 := (((aeArg ws).extractLsb' 0 9)).isLt
  refine ⟨_, congrArg Host.Outcome.next hfire, ?_, ?_, ?_, ?_⟩
  · rw [State.fd_congr (State.acted_rg _ e ws (by decide) (.inr (by decide))), State.fd_setF_same _ (by decide) (by decide)]
    exact Nat.mod_eq_of_lt hcap
  · rw [State.fd_congr (State.acted_rg _ e ws (by decide) (.inr (by decide))),
      State.fd_setF_apart u (x := Reg.PWR_CTRL_CAP_W) (y := Reg.PWR_CTRL_MODE) rfl (by decide) (by decide) (by decide),
      State.fd_congr (hu.far (.inl (by decide)))]
  · rw [State.acted_fired, State.rg_setF_of_ne _ (x := Reg.PWR_CTRL_CAP_W) (by decide), hu.far (.inr (by decide))]
  · rw [State.acted_rest]
    exact hu.sameArray.setF Reg.PWR_CTRL_CAP_W (bits (aeArg ws) 8 0)

end

/-! ### TELEMETRY -/

theorem State.each_cons {α : Type} (s : State) (x : α) (l : List α) (f : State → α → State) : s.each (x :: l) f = (f s x).each l f := rfl

theorem State.samplePart_rg (s : State) (k : Nat) (x : Nat × Nat) (o : Nat) :
    (s.samplePart k x).rg o = if o = samplePage k + 0x10 + 4 * x.1 then (s.view x.2).1 else s.rg o := by
  have hdrawn := s.view_drawn x.2
  unfold Drawn at hdrawn
  have hrg : (s.view x.2).2.rg o = s.rg o := by
    rw [hdrawn]
    rfl
  rw [State.samplePart, State.rg_wrg, hrg]

/-- FH_SUMMARY reads as it is held. -/
theorem State.view_summary (s : State) : (s.view Reg.FH_SUMMARY).1 = s.rg Reg.FH_SUMMARY := by
  unfold State.view
  iterate 15 rw [if_neg (by decide)]

theorem State.sampleNext_seq (s : State) (ideal k : Nat) : (s.sampleNext ideal k).repair.sampleSeq = s.repair.sampleSeq + 1 := by
  have hpart (l : List (Nat × Nat)) (u : State) : (u.each l fun u e => u.samplePart k e).repair = u.repair := by
    induction l generalizing u with
    | nil => rfl
    | cons x l ih =>
      refine (ih (u.samplePart k x)).trans ?_
      have hdrawn := u.view_drawn x.2
      unfold Drawn at hdrawn
      change (u.view x.2).2.repair = u.repair
      rw [hdrawn]
  rw [State.sampleNext, State.sample_eq]
  exact congrArg RepairSt.sampleSeq (hpart _ _)

theorem State.eachSample_seq (s : State) (ideal : Nat) (l : List Nat) :
    (s.each l fun t k => t.sampleNext ideal k).repair.sampleSeq = s.repair.sampleSeq + l.length := by
  induction l generalizing s with
  | nil => rfl
  | cons k l ih =>
    refine (ih (s.sampleNext ideal k)).trans ?_
    rw [s.sampleNext_seq, List.length_cons]
    omega

/-- The page of the first set: its number, the time of the firing, and FH_SUMMARY. -/
theorem State.sampleNext_page (s : State) (ideal : Nat) :
    (s.sampleNext ideal 0).rg (samplePage 0 + 0x10) = s.rg Reg.FH_SUMMARY ∧
    (s.sampleNext ideal 0).rg (samplePage 0) = BitVec.ofNat 32 (s.repair.sampleSeq + 1) ∧
    (s.sampleNext ideal 0).rg (samplePage 0 + 4) = BitVec.ofNat 32 (ideal / 2 ^ 24) ∧
    (s.sampleNext ideal 0).rg (samplePage 0 + 8) = BitVec.ofNat 32 (ideal % 2 ^ 24) := by
  rw [State.sampleNext, State.sample_eq]
  generalize hv : ({ s with repair := { s.repair with sampleSeq := s.repair.sampleSeq + 1 } } : State) = v
  have hsum : v.rg Reg.FH_SUMMARY = s.rg Reg.FH_SUMMARY := by
    subst hv
    rfl
  have hfirst : (v.each ((sampleSet 0).mapIdx fun i r => (i, r)) fun u e => u.samplePart 0 e).rg (samplePage 0 + 0x10) = s.rg Reg.FH_SUMMARY := by
    change ((((((v.samplePart 0 (0, Reg.FH_SUMMARY)).samplePart 0 (1, Reg.FH_REPLAYS)).samplePart 0 (2, Reg.FH_INCIDENTS)).samplePart 0
      (3, Reg.FH_COALESCED)).samplePart 0 (4, Reg.FH_CPL_MISMATCH)).samplePart 0 (5, Reg.FH_EVT_HEAD)).rg (samplePage 0 + 0x10) = _
    iterate 5 rw [State.samplePart_rg, if_neg (by decide)]
    rw [State.samplePart_rg, if_pos (by decide), v.view_summary, hsum]
  generalize v.each ((sampleSet 0).mapIdx fun i r => (i, r)) (fun u e => u.samplePart 0 e) = w at *
  refine ⟨?_, ?_, ?_, ?_⟩
  · rw [State.rg_wrg_of_ne _ (by decide), State.rg_wrg_of_ne _ (by decide), State.rg_wrg_of_ne _ (by decide), hfirst]
  · rw [State.rg_wrg, if_pos rfl]
  · rw [State.rg_wrg_of_ne _ (by decide), State.rg_wrg_of_ne _ (by decide), State.rg_wrg, if_pos rfl]
  · rw [State.rg_wrg_of_ne _ (by decide), State.rg_wrg, if_pos rfl]

theorem telemetry_samples {s : State} {e : Fin 512} {bad : BitVec 2} {late : Bool} {ws : List Word} {ideal : Nat} (hbad : bad ≠ 3)
    (hawake : s.fd Reg.PWR_STATUS_STATE < 2) (hdue : s.due e 7 ws ideal) :
    After (.telemetry e bad late) s fun t => t.rg Reg.AE_FIRED = s.rg Reg.AE_FIRED + 1 ∧ SameArray s t ∧
      t.repair.sampleSeq = s.repair.sampleSeq + ((List.range 5).filter fun k => bit (aeArg ws) k).length ∧
      (bit (aeArg ws) 0 = true → t.rg (samplePage 0 + 0x10) = s.rg Reg.FH_SUMMARY ∧ t.rg (samplePage 0) = BitVec.ofNat 32 (s.repair.sampleSeq + 1) ∧
        t.rg (samplePage 0 + 4) = BitVec.ofNat 32 (ideal / 2 ^ 24) ∧ t.rg (samplePage 0 + 8) = BitVec.ofNat 32 (ideal % 2 ^ 24)) := by
  obtain ⟨u, hu, hfire⟩ := State.fire_acted (fits := fun _ => true) (late := late) hdue rfl hbad hawake (f := actTelemetry)
    (g := fun u => (actTelemetry u ws ideal).1) fun u _ => rfl
  have hsampled := actTelemetry_sampled u ws ideal
  have hseq : (actTelemetry u ws ideal).1.repair.sampleSeq = u.repair.sampleSeq + ((List.range 5).filter fun k => bit (aeArg ws) k).length :=
    u.eachSample_seq ideal _
  have hrepair : u.repair = s.repair := by rw [hu.rest]
  have hpage (hset : bit (aeArg ws) 0 = true) (o : Nat) (ho : o < 0x38400) : (actTelemetry u ws ideal).1.rg o = (u.sampleNext ideal 0).rg o := by
    have hlist : (List.range 5).filter (fun k => bit (aeArg ws) k) = 0 :: [1, 2, 3, 4].filter fun k => bit (aeArg ws) k :=
      List.filter_cons_of_pos (p := fun k => bit (aeArg ws) k) (a := 0) (l := [1, 2, 3, 4]) hset
    rw [actTelemetry_eq, hlist, State.each_cons]
    refine ((Sampled.refl (b := 0x38400) (u.sampleNext ideal 0)).each _ fun v k hk => ?_).rg o ho
    refine (v.sampleNext_sampled ideal k).mono ?_
    have hpos : 1 ≤ k := by
      have hmem := (List.mem_filter.1 hk).1
      simp only [List.mem_cons, List.not_mem_nil, or_false] at hmem
      omega
    simp only [samplePage]
    omega
  obtain ⟨hsum, hnum, hturn, hangle⟩ := u.sampleNext_page ideal
  generalize (actTelemetry u ws ideal).1 = v at *
  have hout (o : Nat) (hlo : 0x15000 ≤ o) : (v.acted e ws).rg o = v.rg o := v.acted_rg e ws (by simp only [Reg.AE_FIRED]; omega) (.inr hlo)
  refine ⟨_, congrArg Host.Outcome.next hfire, ?_, ?_, ?_, fun hset => ⟨?_, ?_, ?_, ?_⟩⟩
  · rw [State.acted_fired, hsampled.rg _ (by decide), hu.far (.inr (by decide))]
  · rw [State.acted_rest, hsampled.rest]
    exact hu.sameArray
  · rw [State.acted_rest]
    exact hseq.trans (by rw [hrepair])
  · rw [hout _ (by decide), hpage hset _ (by decide), hsum, hu.far (.inl (by decide))]
  · rw [hout _ (by decide), hpage hset _ (by decide), hnum, hrepair]
  · rw [hout _ (by decide), hpage hset _ (by decide), hturn]
  · rw [hout _ (by decide), hpage hset _ (by decide), hangle]

/-- Settles O39: what each action does to the state that the firing's notes leave. -/
theorem firingsTakeTheirActions : Obligations.FiringsTakeTheirActions := by
  intro s e bad late ws ideal hbad hawake r fired
  exact ⟨fun id hdue hnext howner hen hawaits hheld hroom hdl hadmit =>
      startRun_admits hbad hawake hdue hnext howner hen hawaits hheld hroom hdl hadmit,
    fun hdue hnext => startRun_idles hbad hawake hdue hnext,
    fun n hdue hstaged howner hen hnew hok => ringFire_applies hbad hawake hdue hstaged howner hen hnew hok,
    fun hdue => startStep_latches hbad hawake hdue, fun hdue => aeBarrier_latches hbad hawake hdue,
    fun hdue howned hfirst hkept => deadline_records hbad hawake hdue howned hfirst hkept,
    fun w hdue howned hold hnew hlow hstay => deadline_misses hbad hawake hdue howned hold hnew hlow hstay,
    fun hdue => ⟨powerWake_stays hbad hawake hdue, powerEnterRest_requests hbad hawake hdue, powerSetCap_sets hbad hawake hdue⟩,
    fun hdue => telemetry_samples hbad hawake hdue⟩

end Sys2Proof.Machine

/-! Proofs about the weight store (R497 to R517): blocks, entry writes, deletions, keys and fetch queues. -/

namespace Sys2Proof.Machine

/-! ### Blocks (R498, R501, R504) -/

theorem State.block_setBlock (s : State) (b c : Nat) (x : StoreBlock) : (s.setBlock b x).block c = if c = b then x else s.block c := tget_tput ..

theorem State.storeCounts_rest (s : State) : s.storeCounts = { s with regs := s.storeCounts.regs } := rfl

theorem State.storeCounts_rg (s : State) {o : Nat} (hfree : o ≠ Reg.ST_FREE_BLOCKS) (hbad : o ≠ Reg.ST_BAD_BLOCKS) (hwear : o ≠ Reg.ST_WEAR) :
    s.storeCounts.rg o = s.rg o := by
  unfold State.storeCounts
  dsimp only
  rw [State.rg_wrg_of_ne _ hwear, State.rg_setF_of_ne _ (x := Reg.ST_BAD_BLOCKS_COUNT) hbad, State.rg_setF_of_ne _ (x := Reg.ST_FREE_BLOCKS_COUNT) hfree]

theorem State.storeCounts_store (s : State) : s.storeCounts.store = s.store := by rw [s.storeCounts_rest]
theorem State.storeCounts_sameArray {s t : State} (h : SameArray s t) : SameArray s t.storeCounts := by rw [t.storeCounts_rest]; exact h

theorem State.eraseNow_block (s : State) (failing : List Nat) (b : Nat) : ((s.eraseNow failing b).block b).pe = (s.block b).pe + 1 ∧
    ((s.eraseNow failing b).block b).cls = (if failing.contains b then 4 else 0) ∧ ∀ c, c ≠ b → (s.eraseNow failing b).block c = s.block c := by
  unfold State.eraseNow
  dsimp only
  rw [State.block_setBlock, if_pos rfl]
  refine ⟨?_, ?_, fun c hc => by rw [State.block_setBlock, if_neg hc]⟩ <;> split <;> rfl

theorem blockEraseDone_follows (s : State) (b : Fin 131072) (intentOk erasedOk : Bool) (fails : Nat) :
    (s.store.erasing.contains b.val = true → After (.blockEraseDone b intentOk fails erasedOk) s fun t => (t.block b).pe = (s.block b).pe + 1 ∧
      ((t.block b).cls = if intentOk && erasedOk && decide (fails < 2) then 0 else 4) ∧ (∀ c, c ≠ b.val → t.block c = s.block c) ∧
      t.store.erasing = s.store.erasing.erase b.val ∧ SameArray s t ∧ RegsBut s t [Reg.ST_FREE_BLOCKS, Reg.ST_BAD_BLOCKS, Reg.ST_WEAR]) ∧
    (s.store.erasing.contains b.val = false → Passes (.blockEraseDone b intentOk fails erasedOk) s) := by
  refine ⟨fun herasing => ⟨_, congrArg Host.Outcome.next (if_pos herasing), ?_⟩, fun hnot => congrArg Host.Outcome.next (if_neg (by rw [hnot]; decide))⟩
  obtain ⟨hpe, hcls, hother⟩ := s.eraseNow_block (if intentOk && erasedOk && decide (fails < 2) then [] else [b.val]) b
  have hrest : s.eraseNow (if intentOk && erasedOk && decide (fails < 2) then [] else [b.val]) b =
      { s with store := { s.store with blocks := (s.eraseNow (if intentOk && erasedOk && decide (fails < 2) then [] else [b.val]) b).store.blocks } } := rfl
  generalize s.eraseNow (if intentOk && erasedOk && decide (fails < 2) then [] else [b.val]) b = u at *
  have hstore (v : State) (c : Nat) : v.storeCounts.block c = v.block c := by rw [State.block, State.storeCounts_store, State.block]
  refine ⟨?_, ?_, fun c hc => ?_, ?_, ?_, fun o ho => ?_⟩
  · rw [hstore]
    exact hpe
  · rw [hstore]
    refine hcls.trans ?_
    split <;> simp
  · rw [hstore]
    exact hother c hc
  · rw [State.storeCounts_store, hrest]
  · refine State.storeCounts_sameArray ?_
    rw [hrest]
    exact ⟨rfl, rfl⟩
  · simp only [List.mem_cons, List.not_mem_nil, or_false, not_or] at ho
    rw [State.storeCounts_rg _ ho.1 ho.2.1 ho.2.2, hrest]
    rfl

theorem State.freeFrom_free {s : State} {f b c : Nat} (h : s.freeFrom f b = some c) : (s.block c).cls = 0 := by
  induction f generalizing b with
  | zero => cases h
  | succ f ih =>
    rw [State.freeFrom] at h
    split at h
    next hfree =>
      cases h
      exact hfree
    next => exact ih h

theorem State.freeFrom_congr {s t : State} (h : t.store = s.store) (f b : Nat) : t.freeFrom f b = s.freeFrom f b := by
  induction f generalizing b with
  | zero => rfl
  | succ f ih => rw [State.freeFrom, ih, State.block, h, State.freeFrom, State.block]

theorem State.countPages_rest (s : State) (p : PageReads) : s.countPages p = { s with regs := (s.countPages p).regs } := rfl

theorem State.countPages_rg (s : State) (p : PageReads) {o : Nat} (hcorr : o ≠ Reg.ST_CORR) (huncorr : o ≠ Reg.ST_UNCORR) : (s.countPages p).rg o = s.rg o :=
  (State.rg_wrg_of_ne _ huncorr _).trans (s.rg_wrg_of_ne hcorr _)

/-- The state after block b has moved to the free block c. -/
def State.refreshed (s : State) (b c : Nat) (retire : Bool) : State :=
  let t := (s.setBlock c { s.block c with cls := 1, entry := (s.block b).entry, chunk := (s.block b).chunk, reads := 0 }).setBlock b
    { s.block b with cls := if retire then 4 else 2 }
  { t with store := { t.store with
      erasing := if retire then t.store.erasing else t.store.erasing ++ [b], version := t.store.version + 1, seqNo := t.store.seqNo + 1 } }

theorem State.refreshed_block (s : State) (b c k : Nat) (retire : Bool) : (s.refreshed b c retire).block k =
    if k = b then { s.block b with cls := if retire then 4 else 2 }
    else if k = c then { s.block c with cls := 1, entry := (s.block b).entry, chunk := (s.block b).chunk, reads := 0 } else s.block k := by
  refine (State.block_setBlock (s.setBlock c _) b k _).trans ?_
  rw [State.block_setBlock]

theorem refreshDue_moves (s : State) (b : Fin 131072) (retire : Bool) (pages : PageReads) (c : Nat) (hdata : (s.block b).cls = 1)
    (hfree : s.freeFrom (s.store.blocks.length + 1) 0 = some c) :
    After (.refreshDue b retire pages) s fun t => (t.block c).cls = 1 ∧ (t.block c).entry = (s.block b).entry ∧ (t.block c).chunk = (s.block b).chunk ∧
      (t.block c).reads = 0 ∧ (t.block b).cls = (if retire then 4 else 2) ∧ (∀ k, k ≠ b.val → k ≠ c → t.block k = s.block k) ∧
      t.rg Reg.ST_REFRESHED = s.rg Reg.ST_REFRESHED + 1 ∧ t.store.lib = s.store.lib ∧ SameArray s t := by
  have hcount : (s.countPages pages).store = s.store := by rw [State.countPages_rest]
  have hexec : exec (.refreshDue b retire pages) s = .next ((((s.countPages pages).refreshed b c retire).inc Reg.ST_REFRESHED).storeCounts) := by
    change execRefreshDue b retire pages s = _
    unfold execRefreshDue
    dsimp only
    rw [if_pos hdata, State.freeFrom_congr hcount, hcount, hfree]
    rfl
  have hne : c ≠ b.val := by
    rintro rfl
    rw [State.freeFrom_free hfree] at hdata
    cases hdata
  have hblock (k : Nat) : ((((s.countPages pages).refreshed b c retire).inc Reg.ST_REFRESHED).storeCounts).block k =
      if k = b.val then { s.block b with cls := if retire then 4 else 2 }
      else if k = c then { s.block c with cls := 1, entry := (s.block b).entry, chunk := (s.block b).chunk, reads := 0 } else s.block k := by
    rw [State.block, State.storeCounts_store]
    exact (State.refreshed_block (s.countPages pages) b c k retire).trans rfl
  refine ⟨_, hexec, ?_, ?_, ?_, ?_, ?_, fun k hb hc => ?_, ?_, ?_, ?_⟩
  · rw [hblock, if_neg hne, if_pos rfl]
  · rw [hblock, if_neg hne, if_pos rfl]
  · rw [hblock, if_neg hne, if_pos rfl]
  · rw [hblock, if_neg hne, if_pos rfl]
  · rw [hblock, if_pos rfl]
  · rw [hblock, if_neg hb, if_neg hc]
  · rw [State.storeCounts_rg _ (by decide) (by decide) (by decide), State.rg_inc_same]
    exact congrArg (· + 1) (s.countPages_rg pages (by decide) (by decide))
  · rw [State.storeCounts_store]
    rfl
  · exact State.storeCounts_sameArray ⟨rfl, rfl⟩

/-! ### Entry writes (R509) -/

/-- The end of an entry write shows its result, and leaves the rest of the store. -/
theorem State.stwEnd_spec (s : State) {r : Nat} (hr : r < 8) : (s.stwEnd r).on Reg.STW_CTRL_DONE = true ∧ (s.stwEnd r).on Reg.STW_CTRL_BUSY = false ∧
    (s.stwEnd r).fd Reg.STW_CTRL_RESULT = r ∧ s.stwEnd r = { s with regs := (s.stwEnd r).regs, store := { s.store with writing := none } } ∧
    RegsBut s (s.stwEnd r) [Reg.STW_CTRL, Reg.ST_STATUS] := by
  have hrg (o : Nat) (ho : o ≠ Reg.ST_STATUS) : (s.stwEnd r).rg o =
      (((s.setF Reg.STW_CTRL_RESULT r).setF Reg.STW_CTRL_DONE 1).setF Reg.STW_CTRL_BUSY 0).rg o :=
    State.rg_setF_of_ne _ (x := Reg.ST_STATUS_WRITING) ho 0
  refine ⟨?_, ?_, ?_, rfl, fun o ho => ?_⟩
  · rw [State.on_congr (hrg _ (by decide)),
      State.on_setF_apart _ (x := Reg.STW_CTRL_BUSY) (y := Reg.STW_CTRL_DONE) rfl (by decide) (by decide) (by decide)]
    exact State.on_setF_one _ rfl (by decide)
  · rw [State.on_congr (hrg _ (by decide))]
    exact State.on_setF_zero _ rfl (by decide)
  · rw [State.fd_congr (hrg _ (by decide)),
      State.fd_setF_apart _ (x := Reg.STW_CTRL_BUSY) (y := Reg.STW_CTRL_RESULT) rfl (by decide) (by decide) (by decide),
      State.fd_setF_apart _ (x := Reg.STW_CTRL_DONE) (y := Reg.STW_CTRL_RESULT) rfl (by decide) (by decide) (by decide),
      State.fd_setF_same s (x := Reg.STW_CTRL_RESULT) (by decide) (by decide)]
    exact Nat.mod_eq_of_lt hr
  · simp only [List.mem_cons, List.not_mem_nil, or_false, not_or] at ho
    rw [hrg o ho.2, State.rg_setF_of_ne _ (x := Reg.STW_CTRL_BUSY) ho.1, State.rg_setF_of_ne _ (x := Reg.STW_CTRL_DONE) ho.1,
      State.rg_setF_of_ne _ (x := Reg.STW_CTRL_RESULT) ho.1]

theorem State.entryCheck_lt (s : State) (e owner : Nat) (sigOk digestsOk : Bool) : (s.entryCheck e owner sigOk digestsOk).1 < 6 := by
  unfold State.entryCheck
  dsimp only
  split_ifs <;> decide

theorem entryWrite_starts {s : State} {v : Word} {sigOk digestsOk : Bool} (hopen : s.open) (hgo : bit v 31 = true) (hidle : s.store.writing = none) :
    let t0 := s.plain Reg.STW_CTRL v
    let e := t0.fd Reg.STW_CTRL_ENTRY
    let r := t0.entryCheck e (t0.fd Reg.STW_CTRL_OWNER) sigOk digestsOk
    After (.entryWrite v sigOk digestsOk) s fun t => SameArray s t ∧ t.store.lib = s.store.lib ∧ RegsBut s t [Reg.STW_CTRL, Reg.ST_STATUS] ∧
      (r.2 = true → t.on Reg.STW_CTRL_DONE = true ∧ t.on Reg.STW_CTRL_BUSY = false ∧ t.fd Reg.STW_CTRL_RESULT = r.1 ∧ t.store = s.store) ∧
      (r.2 = false → t.on Reg.STW_CTRL_BUSY = true ∧ t.store = { s.store with writing := some (e, r.1) }) := by
  intro t0 e r
  have hexec : exec (.entryWrite v sigOk digestsOk) s = .next (if r.2 then t0.stwEnd r.1 else
      { (t0.setF Reg.STW_CTRL_BUSY 1).setF Reg.ST_STATUS_WRITING 1 with
        store := { t0.store with writing := some (e, r.1) } }) := by
    change execEntryWrite v sigOk digestsOk s = _
    rw [execEntryWrite, State.hostWrite_of_open hopen, State.stwWrite, if_pos (by rw [hgo, hidle]; rfl)]
    rfl
  have hr : r.1 < 6 := t0.entryCheck_lt ..
  have ht0 : SameArray s t0 ∧ t0.store = s.store ∧ RegsBut s t0 [Reg.STW_CTRL, Reg.ST_STATUS] :=
    ⟨⟨rfl, rfl⟩, rfl, fun o ho => s.rg_wrg_of_ne (by rintro rfl; exact ho (by decide)) _⟩
  obtain ⟨harray, hstore, hregs⟩ := ht0
  have hnone : ({ s.store with writing := none } : StoreSt) = s.store := by rw [← hidle]
  refine ⟨_, hexec, ?_⟩
  cases hat : r.2
  case true =>
    rw [if_pos rfl]
    obtain ⟨hdone, hbusy, hresult, hrest, hend⟩ := t0.stwEnd_spec (r := r.1) (by omega)
    refine ⟨?_, ?_, fun o ho => (hend o ho).trans (hregs o ho), fun _ => ⟨hdone, hbusy, hresult, ?_⟩, by simp⟩
    · rw [hrest]
      exact harray
    · rw [hrest, hstore]
    · rw [hrest, hstore, hnone]
  case false =>
    rw [if_neg (by decide)]
    refine ⟨harray, ?_, fun o ho => ?_, by simp, fun _ => ⟨?_, ?_⟩⟩
    · change t0.store.lib = s.store.lib
      rw [hstore]
    · have hne := ho
      simp only [List.mem_cons, List.not_mem_nil, or_false, not_or] at hne
      refine (State.rg_setF_of_ne (t0.setF Reg.STW_CTRL_BUSY 1) (x := Reg.ST_STATUS_WRITING) hne.2 1).trans ?_
      rw [State.rg_setF_of_ne _ (x := Reg.STW_CTRL_BUSY) hne.1, hregs o ho]
    · refine (State.on_setF_of_ne (t0.setF Reg.STW_CTRL_BUSY 1) (x := Reg.ST_STATUS_WRITING) (y := Reg.STW_CTRL_BUSY) (by decide) 1).trans ?_
      exact State.on_setF_one _ rfl (by decide)
    · exact congrArg (fun st : StoreSt => { st with writing := some (e, r.1) }) hstore

theorem State.maintResume_of_idle {s : State} (h : s.on Reg.MAINT_STATUS_BUSY = false) : s.maintResume = s := if_neg (by simp [h])

theorem State.placeEntry_rest (s : State) (e n c : Nat) : s.placeEntry e n c = { s with store := { s.store with
    blocks := (s.placeEntry e n c).store.blocks, seqNo := (s.placeEntry e n c).store.seqNo } } := by
  induction n generalizing s c with
  | zero => rfl
  | succ n ih =>
    unfold State.placeEntry
    split
    · rfl
    · rw [ih]
      rfl

theorem State.lib_setLib (s : State) (e k : Nat) (x : LibEntry) : (s.setLib e x).lib k = if k = e then x else s.lib k := tget_tput ..

/-- The library table and the counts once an entry's blocks have been taken. -/
def State.placed (s : State) (e n : Nat) (x : LibEntry) : State :=
  let t := (s.setLib e x).placeEntry e n 0
  { t with store := { t.store with version := t.store.version + 1 } }.storeCounts

theorem State.commitEntry_eq (s : State) (e : Nat) : ∃ n x, x.state = 1 ∧ s.commitEntry e = s.placed e n x := ⟨_, _, rfl, rfl⟩

theorem State.placed_rest (s : State) (e n : Nat) (x : LibEntry) : s.placed e n x =
    { s with regs := (s.placed e n x).regs, store := (s.placed e n x).store } := by
  unfold State.placed
  dsimp only
  rw [State.storeCounts_rest, State.placeEntry_rest]
  rfl

theorem State.placed_lib (s : State) (e n k : Nat) (x : LibEntry) : (s.placed e n x).lib k = if k = e then x else s.lib k := by
  unfold State.placed
  dsimp only
  rw [State.lib, State.storeCounts_store, State.placeEntry_rest]
  exact s.lib_setLib e k x

theorem State.placed_rg (s : State) (e n : Nat) (x : LibEntry) : RegsBut s (s.placed e n x) [Reg.ST_FREE_BLOCKS, Reg.ST_BAD_BLOCKS, Reg.ST_WEAR] := by
  intro o ho
  simp only [List.mem_cons, List.not_mem_nil, or_false, not_or] at ho
  unfold State.placed
  dsimp only
  rw [State.storeCounts_rg _ ho.1 ho.2.1 ho.2.2, State.placeEntry_rest]
  rfl

theorem State.commitEntry_spec (s : State) (e : Nat) : ((s.commitEntry e).lib e).state = 1 ∧ (∀ k, k ≠ e → (s.commitEntry e).lib k = s.lib k) ∧
    SameArray s (s.commitEntry e) ∧ RegsBut s (s.commitEntry e) [Reg.ST_FREE_BLOCKS, Reg.ST_BAD_BLOCKS, Reg.ST_WEAR] := by
  obtain ⟨n, x, hstate, heq⟩ := s.commitEntry_eq e
  rw [heq]
  refine ⟨by rw [s.placed_lib, if_pos rfl, hstate], fun k hk => by rw [s.placed_lib, if_neg hk], ?_, s.placed_rg e n x⟩
  rw [s.placed_rest]
  exact ⟨rfl, rfl⟩

theorem entryWriteDone_ends {s : State} {e r : Nat} {aborted : Bool} (hwriting : s.store.writing = some (e, r)) (hr : r < 6)
    (hidle : s.on Reg.MAINT_STATUS_BUSY = false) :
    After (.entryWriteDone aborted) s fun t => t.store.writing = none ∧ t.on Reg.STW_CTRL_DONE = true ∧ t.on Reg.STW_CTRL_BUSY = false ∧
      t.fd Reg.STW_CTRL_RESULT = (if aborted then 5 else r) ∧ SameArray s t ∧
      ((aborted = true ∨ r ≠ 0) → t.store.lib = s.store.lib) ∧ (aborted = false → r = 0 → (t.lib e).state = 1 ∧ ∀ k, k ≠ e → t.lib k = s.lib k) := by
  have hexec : exec (.entryWriteDone aborted) s = .next (if aborted then (s.stwEnd 5).maintResume
      else if r = 0 then ((s.commitEntry e).stwEnd 0).maintResume else (s.stwEnd r).maintResume) := by
    change execEntryWriteDone aborted s = _
    unfold execEntryWriteDone
    rw [hwriting]
  -- the end of a write that leaves the library
  have hends (u : State) (k : Nat) (hk : k < 8) (hbusy : u.on Reg.MAINT_STATUS_BUSY = false) : (u.stwEnd k).maintResume = u.stwEnd k := by
    obtain ⟨-, -, -, -, hregs⟩ := u.stwEnd_spec hk
    exact State.maintResume_of_idle ((State.on_congr (hregs _ (by decide))).trans hbusy)
  refine ⟨_, hexec, ?_⟩
  cases aborted
  case true =>
    rw [if_pos rfl, hends s 5 (by decide) hidle]
    obtain ⟨hdone, hbusy, hresult, hrest, -⟩ := s.stwEnd_spec (r := 5) (by decide)
    refine ⟨by rw [hrest], hdone, hbusy, by rw [hresult, if_pos rfl], ?_, fun _ => by rw [hrest], by simp⟩
    rw [hrest]
    exact ⟨rfl, rfl⟩
  case false =>
    rw [if_neg (by decide)]
    by_cases h0 : r = 0
    · obtain ⟨hstate, hother, harray, hcounts⟩ := s.commitEntry_spec e
      rw [if_pos h0, hends _ 0 (by decide) ((State.on_congr (hcounts _ (by decide))).trans hidle)]
      generalize s.commitEntry e = u at *
      obtain ⟨hdone, hbusy, hresult, hrest, -⟩ := u.stwEnd_spec (r := 0) (by decide)
      have hlib (k : Nat) : (u.stwEnd 0).lib k = u.lib k := by
        rw [State.lib, hrest]
        rfl
      refine ⟨by rw [hrest], hdone, hbusy, by rw [hresult, if_neg (by decide), h0], ?_, by simp [h0], fun _ _ => ⟨?_, fun k hk => ?_⟩⟩
      · rw [hrest]
        exact harray
      · rw [hlib, hstate]
      · rw [hlib, hother k hk]
    · rw [if_neg h0, hends s r (by omega) hidle]
      obtain ⟨hdone, hbusy, hresult, hrest, -⟩ := s.stwEnd_spec (r := r) (by omega)
      refine ⟨by rw [hrest], hdone, hbusy, by rw [hresult, if_neg (by decide)], ?_, fun _ => by rw [hrest], fun _ h => absurd h h0⟩
      rw [hrest]
      exact ⟨rfl, rfl⟩

/-! ### Deletions (R511) -/

theorem State.eraseBlocks_lib (s : State) (e : Nat) : (s.eraseBlocks e).store.lib = s.store.lib := by
  have heach (l : List Nat) : ∀ u : State, (u.each l fun u b => u.setBlock b { u.block b with cls := 2 }).store.lib = u.store.lib := by
    induction l with
    | nil => exact fun _ => rfl
    | cons b l ih =>
      intro u
      exact ih _
  exact heach _ s

theorem State.libSettle_lib (s : State) (e k : Nat) : (s.libSettle e).lib k =
    if (s.lib e).state = 3 ∧ (s.lib e).uses = 0 then if k = e then noEntry else s.lib k else s.lib k := by
  unfold State.libSettle
  dsimp only
  split
  · rw [State.lib_setLib, State.lib, s.eraseBlocks_lib, State.lib]
  · rfl

theorem libDelete_follows {s : State} {v : Word} (hopen : s.open) (hgo : bit v 31 = true) :
    let e := (s.plain Reg.LIB_DELETE v).fd Reg.LIB_DELETE_ENTRY
    (((s.lib e).state = 0 ∨ (s.lib e).state = 3) → After (.libDelete v) s fun t => t.on Reg.LIB_DELETE_REFUSED = true ∧ t.store = s.store ∧
      OnlyRegs s t [Reg.LIB_DELETE]) ∧
    ((s.lib e).state ≠ 0 → (s.lib e).state ≠ 3 → After (.libDelete v) s fun t => (t.lib e).state = (if (s.lib e).uses = 0 then 0 else 3) ∧
      (∀ k, k ≠ e → t.lib k = s.lib k) ∧ SameArray s t) := by
  intro e
  have hexec : exec (.libDelete v) s = .next (if (s.lib e).state = 0 ∨ (s.lib e).state = 3 then (s.plain Reg.LIB_DELETE v).setF Reg.LIB_DELETE_REFUSED 1
      else (((s.plain Reg.LIB_DELETE v).setLib e { s.lib e with state := 3 }).libSettle e).storeCounts) := by
    change execLibDelete v s = _
    rw [execLibDelete, State.hostWrite_of_open hopen, State.libDeleteWrite, if_pos hgo]
    rfl
  refine ⟨fun hno => ?_, fun h0 h3 => ?_⟩
  · rw [if_pos hno] at hexec
    refine ⟨_, hexec, State.on_setF_one _ rfl (by decide), rfl, rfl, fun o ho => ?_⟩
    have hne : o ≠ Reg.LIB_DELETE := by simpa using ho
    exact (State.rg_setF_of_ne _ (x := Reg.LIB_DELETE_REFUSED) hne 1).trans (s.rg_wrg_of_ne hne _)
  · rw [if_neg (by omega)] at hexec
    have hset (k : Nat) : ((s.plain Reg.LIB_DELETE v).setLib e { s.lib e with state := 3 }).lib k = if k = e then { s.lib e with state := 3 } else s.lib k :=
      State.lib_setLib ..
    have harray : SameArray s ((s.plain Reg.LIB_DELETE v).setLib e { s.lib e with state := 3 }) := ⟨rfl, rfl⟩
    generalize (s.plain Reg.LIB_DELETE v).setLib e { s.lib e with state := 3 } = u at *
    have hlib (k : Nat) : (u.libSettle e).storeCounts.lib k = if (s.lib e).uses = 0 then if k = e then noEntry else u.lib k else u.lib k := by
      rw [State.lib, State.storeCounts_store]
      refine (u.libSettle_lib e k).trans ?_
      rw [hset e, if_pos rfl]
      simp only [true_and]
    refine ⟨_, hexec, ?_, fun k hk => ?_, State.storeCounts_sameArray ?_⟩
    · rw [hlib, if_pos rfl, hset, if_pos rfl]
      split <;> rfl
    · rw [hlib, if_neg hk, hset, if_neg hk, ite_self]
    · rw [u.libSettle_frame]
      exact harray

/-! ### Keys (R508) -/

theorem State.key_congr {s t : State} (h : t.store.keys = s.store.keys) (k : Nat) : t.key k = s.key k := by rw [State.key, h, State.key]

theorem keys_follow {s : State} (hopen : s.open) : let k := s.fd Reg.KEY_SEL_SLOT
    ((s.key k).locked = true → After .keyCommit s fun t => t.on Reg.KEY_CTRL_REFUSED = true ∧ OnlyRegs s t [Reg.KEY_CTRL]) ∧
    ((s.key k).locked = false → After .keyCommit s fun t => t.key k = ⟨true, false, (List.range 24).map fun w => tget 0 s.store.keyStage w⟩ ∧
      (∀ j, j ≠ k → t.key j = s.key j) ∧ t.regs = s.regs ∧ t.store.lib = s.store.lib) ∧
    ((s.key k).valid = false → After .keyLock s fun t => t.on Reg.KEY_CTRL_REFUSED = true ∧ OnlyRegs s t [Reg.KEY_CTRL]) ∧
    ((s.key k).valid = true → After .keyLock s fun t => t.key k = { s.key k with locked := true } ∧ (∀ j, j ≠ k → t.key j = s.key j) ∧
      t.regs = s.regs ∧ t.store.lib = s.store.lib) := by
  intro k
  have hcommit : exec .keyCommit s = .next s.keyCommit := by
    change execKeyCommit s = _
    rw [execKeyCommit, State.hostWrite_of_open hopen]
  have hlock : exec .keyLock s = .next s.keyLock := by
    change execKeyLock s = _
    rw [execKeyLock, State.hostWrite_of_open hopen]
  have hrefused : (s.setF Reg.KEY_CTRL_REFUSED 1).on Reg.KEY_CTRL_REFUSED = true ∧ OnlyRegs s (s.setF Reg.KEY_CTRL_REFUSED 1) [Reg.KEY_CTRL] := by
    refine ⟨State.on_setF_one _ rfl (by decide), rfl, fun o ho => ?_⟩
    exact s.rg_setF_of_ne (x := Reg.KEY_CTRL_REFUSED) (by simpa [Reg.KEY_CTRL_REFUSED] using ho) 1
  refine ⟨fun hlocked => ⟨_, hcommit, ?_⟩, fun hfree => ⟨_, hcommit, ?_⟩, fun hno => ⟨_, hlock, ?_⟩, fun hvalid => ⟨_, hlock, ?_⟩⟩
  · rw [State.keyCommit, if_pos hlocked]
    exact hrefused
  · rw [State.keyCommit, if_neg (by rw [hfree]; decide)]
    refine ⟨?_, fun j hj => ?_, rfl, rfl⟩
    · rw [State.key, tget_tput, if_pos rfl]
      exact congrArg (fun l => KeySlot.mk true l _) hfree
    · rw [State.key, tget_tput, if_neg hj, State.key]
  · rw [State.keyLock, if_neg (by rw [hno]; decide)]
    exact hrefused
  · rw [State.keyLock, if_pos hvalid]
    refine ⟨?_, fun j hj => ?_, rfl, rfl⟩
    · rw [State.key, tget_tput, if_pos rfl]
    · rw [State.key, tget_tput, if_neg hj, State.key]

/-! ### Fetch queues (R515, R516) -/

theorem regMasks_stfCtrl (i : Fin 64) : regMasks (Reg.STF_CTRL i) = (0xBCFFFFFF, 0x40000000) := by
  have hrel : (Reg.STF_CTRL i - 0x80000) % 0x400 = 0x240 := by unfold Reg.STF_CTRL; omega
  refine regMasks_inst (r := ⟨0x240, 1, 4, 0x10000000, 0xBCFFFFFF, 0x40000000⟩) (j := 0) ?_ ?_ (by rw [hrel]; rfl) <;> unfold Reg.STF_CTRL <;> omega

theorem fetchArm_follows {s : State} {i : Fin 64} {v : Word} (hopen : s.open) (hset : bit v 31 = true) :
    let ok := s.pcOwned (bits v 23 12) i && s.pcOwned (bits v 11 0) i && decide (4 ≤ bits v 29 26) && decide (bits v 29 26 ≤ 15) &&
      s.inWindow i (s.stfBase i) (32 * 2 ^ bits v 29 26)
    (ok = true → After (.fetchArm i v) s fun t => t.on (Reg.STF_CTRL_EN i) = true ∧ t.rg (Reg.STF_TAKEN i) = 0 ∧
      tget ⟨0, 0⟩ t.store.fetch i = ⟨s.pc (bits v 23 12), 0⟩ ∧ SameArray s t ∧ RegsBut s t [Reg.STF_CTRL i, Reg.STF_TAKEN i]) ∧
    (ok = false → After (.fetchArm i v) s fun t => t.on (Reg.STF_CTRL_REFUSED i) = true ∧ t.on (Reg.STF_CTRL_EN i) = s.on (Reg.STF_CTRL_EN i) ∧
      OnlyRegs s t [Reg.STF_CTRL i]) := by
  intro ok
  have hi := i.isLt
  have hexec : exec (.fetchArm i v) s = .next (if ok then
      { (s.plain (Reg.STF_CTRL i) v).wrg (Reg.STF_TAKEN i) 0 with store := { s.store with
        fetch := tput s.store.fetch i ⟨((s.plain (Reg.STF_CTRL i) v).wrg (Reg.STF_TAKEN i) 0).pc (bits v 23 12), 0⟩ } }
      else s.setF (Reg.STF_CTRL_REFUSED i) 1) := by
    change execFetchArm i v s = _
    rw [execFetchArm, State.hostWrite_of_open hopen, State.fetchArm, if_pos hset]
    rfl
  refine ⟨fun hok => ?_, fun hno => ?_⟩
  · rw [hok, if_pos rfl] at hexec
    have hne : Reg.STF_CTRL i ≠ Reg.STF_TAKEN i := by simp only [Reg.STF_CTRL, Reg.STF_TAKEN]; omega
    have hpc : ((s.plain (Reg.STF_CTRL i) v).wrg (Reg.STF_TAKEN i) 0).pc (bits v 23 12) = s.pc (bits v 23 12) := by
      refine State.pc_congr ?_ ?_ <;>
      · rw [State.rg_wrg_of_ne _ (by simp only [Reg.PC_VALUE_LO, Reg.PC_VALUE_HI, Reg.STF_TAKEN]; omega)]
        exact s.rg_wrg_of_ne (by simp only [Reg.PC_VALUE_LO, Reg.PC_VALUE_HI, Reg.STF_CTRL]; omega) _
    refine ⟨_, hexec, ?_, ?_, ?_, ⟨rfl, rfl⟩, fun o ho => ?_⟩
    · refine (State.on_congr (s := s.plain (Reg.STF_CTRL i) v) (State.rg_wrg_of_ne _ hne 0)).trans ?_
      exact (s.on_plain (regMasks_stfCtrl i) v (k := 31) (by decide) (by decide)).trans hset
    · refine (State.rg_wrg (s.plain (Reg.STF_CTRL i) v) (Reg.STF_TAKEN i) (Reg.STF_TAKEN i) 0).trans ?_
      rw [if_pos rfl]
    · rw [hpc]
      exact (tget_tput ..).trans (if_pos rfl)
    · simp only [List.mem_cons, List.not_mem_nil, or_false, not_or] at ho
      exact (State.rg_wrg_of_ne (s.plain (Reg.STF_CTRL i) v) ho.2 0).trans (s.rg_wrg_of_ne ho.1 _)
  · rw [hno, if_neg (by decide)] at hexec
    refine ⟨_, hexec, State.on_setF_one s (x := Reg.STF_CTRL_REFUSED i) rfl (by simp [Reg.STF_CTRL_REFUSED]), ?_, rfl, fun o ho => ?_⟩
    · exact s.on_setF_apart (x := Reg.STF_CTRL_REFUSED i) (y := Reg.STF_CTRL_EN i) rfl (by simp [Reg.STF_CTRL_REFUSED, Reg.STF_CTRL_EN])
        (by simp [Reg.STF_CTRL_REFUSED]) (by simp [Reg.STF_CTRL_EN]) 1
    · exact s.rg_setF_of_ne (x := Reg.STF_CTRL_REFUSED i) (by simpa [Reg.STF_CTRL_REFUSED] using ho) 1

theorem State.rdWords_congr {s t : State} (h : t.dram = s.dram) (a n : Nat) : t.rdWords a n = s.rdWords a n := by
  have hbytes (b m : Nat) : t.rdBytes b m = s.rdBytes b m := by
    induction m generalizing b with
    | zero => rfl
    | succ m ih => rw [State.rdBytes, ih, State.rdB, h, State.rdBytes, State.rdB]
  induction n generalizing a with
  | zero => rfl
  | succ n ih => rw [State.rdWords, ih, State.rdW, hbytes, State.rdWords, State.rdW]

/-- The registers that an event, or the report of a mismatch, may write: the event ring and its head, IRQ_STATUS, MG_ALERT and FH_CPL_MISMATCH. -/
def EventReg (o : Nat) : Prop :=
  (0x36000 ≤ o ∧ o < 0x38000) ∨ o = Reg.FH_EVT_HEAD ∨ o = Reg.IRQ_STATUS ∨ o = Reg.MG_ALERT ∨ o = Reg.FH_CPL_MISMATCH

/-- An event writes its record, and is signalled. -/
theorem State.post_reports (s : State) (cls unit stop action detail : Nat) (owner : Option (Nat × Nat)) (lc : Option Nat) :
    Reports EventReg s (s.post cls unit stop action detail owner lc) := by
  have he : (s.rg Reg.FH_EVT_HEAD).toNat % 256 < 256 := Nat.mod_lt _ (by decide)
  unfold State.post
  dsimp only
  generalize (s.rg Reg.FH_EVT_HEAD).toNat % 256 = e at *
  have hrecord {t : State} (h : Reports EventReg s t) {off : Nat} (hlo : 0x36000 ≤ off) (hhi : off < 0x38000) (v : Word) :
      Reports EventReg s (t.wrg off v) := h.wrg (.inl ⟨hlo, hhi⟩) v
  have hcause := hrecord (.refl s) (off := Reg.EVT_CAUSE e) (by simp only [Reg.EVT_CAUSE]; omega) (by simp only [Reg.EVT_CAUSE]; omega)
  have haction {t : State} (h : Reports EventReg s t) := hrecord h (off := Reg.EVT_ACTION e) (by simp only [Reg.EVT_ACTION]; omega) (by simp only [Reg.EVT_ACTION]; omega)
  have howner {t : State} (h : Reports EventReg s t) := hrecord h (off := Reg.EVT_OWNER e) (by simp only [Reg.EVT_OWNER]; omega) (by simp only [Reg.EVT_OWNER]; omega)
  have hturn {t : State} (h : Reports EventReg s t) := hrecord h (off := Reg.EVT_TURN e) (by simp only [Reg.EVT_TURN]; omega) (by simp only [Reg.EVT_TURN]; omega)
  have hangle {t : State} (h : Reports EventReg s t) := hrecord h (off := Reg.EVT_ANGLE e) (by simp only [Reg.EVT_ANGLE]; omega) (by simp only [Reg.EVT_ANGLE]; omega)
  have hseq {t : State} (h : Reports EventReg s t) := hrecord h (off := Reg.EVT_SEQ e) (by simp only [Reg.EVT_SEQ]; omega) (by simp only [Reg.EVT_SEQ]; omega)
  have hlc {t : State} (h : Reports EventReg s t) := hrecord h (off := Reg.EVT_LC e) (by simp only [Reg.EVT_LC]; omega) (by simp only [Reg.EVT_LC]; omega)
  exact (((hlc (hseq (hangle (hturn (howner (haction (hcause _) _) _) _) _) _) _).inc (.inr (.inl rfl))).irq (.inr (.inr (.inl rfl))) 2).alert
    (.inr (.inr (.inr (.inl rfl)))) 4

/-- What the service of a fetch record does before its status is written: the queues and the clusters stay, and so does every register but those of
events. -/
structure Fetching (s t : State) : Prop where
  clusters : t.clusters = s.clusters
  fetch : t.store.fetch = s.store.fetch
  rg : ∀ o, ¬ EventReg o → t.rg o = s.rg o

theorem Fetching.refl (s : State) : Fetching s s := ⟨rfl, rfl, fun _ _ => rfl⟩

theorem Fetching.trans {s t u : State} (h : Fetching s t) (k : Fetching t u) : Fetching s u :=
  ⟨k.clusters.trans h.clusters, k.fetch.trans h.fetch, fun o ho => (k.rg o ho).trans (h.rg o ho)⟩

theorem Fetching.ite {s t u : State} {p : Prop} [Decidable p] (ht : Fetching s t) (hu : Fetching s u) : Fetching s (if p then t else u) := by
  split
  · exact ht
  · exact hu

theorem State.wrBytes_fetching (s : State) (a : Nat) (l : List Byte) : Fetching s (s.wrBytes a l) := by
  rw [s.wrBytes_eq]
  exact ⟨rfl, rfl, fun _ _ => rfl⟩

/-- Bytes written to pages that take a tag. -/
theorem State.wrBytes_tagged_fetching (s : State) (a : Nat) (l : List Byte) (g : Table Nat) :
    Fetching s { s.wrBytes a l with mem := { (s.wrBytes a l).mem with tags := g } } := by
  obtain ⟨hcl, hfetch, hrg⟩ := s.wrBytes_fetching a l
  generalize s.wrBytes a l = t at *
  exact ⟨hcl, hfetch, hrg⟩

theorem State.fetchChunks_fetching (s : State) (e first dst n : Nat) : Fetching s (s.fetchChunks e first dst n) := by
  induction n with
  | zero => exact .refl s
  | succ n ih =>
    unfold State.fetchChunks
    dsimp only
    exact ih.trans (State.wrBytes_tagged_fetching ..)

theorem State.report_fetching (s : State) (stop unit detail : Nat) (byCount : Bool) : Fetching s (s.report stop unit detail byCount) :=
  ⟨rfl, rfl, fun _ _ => rfl⟩

theorem State.damage_fetching (s : State) (e c : Nat) : Fetching s (s.damage e c) := by
  unfold State.damage
  dsimp only
  generalize hx : ({ s.lib e with state := _, damaged := _ } : LibEntry) = x
  have hset : Fetching s (s.setLib e x) := ⟨rfl, rfl, fun _ _ => rfl⟩
  generalize s.setLib e x = u at *
  have hpost := u.post_reports 0x15 14 (hubStop 3) 0 e none none
  have hposted : Fetching u (u.post 0x15 14 (hubStop 3) 0 e none none) := ⟨hpost.sameArray.1, by rw [hpost.rest], hpost.regs⟩
  generalize u.post 0x15 14 (hubStop 3) 0 e none none = v at *
  exact (hset.trans hposted).trans (v.report_fetching _ _ _ _)

theorem State.cplMismatch_fetching (s : State) (stop unit detail : Nat) : Fetching s (s.cplMismatch none stop unit detail) := by
  have hframe := (Reports.refl (W := (· = Reg.FH_CPL_MISMATCH)) s).cplMismatch_none rfl stop unit detail
  refine ⟨hframe.sameArray.1, ?_, fun o ho => hframe.regs o fun h => ho (.inr (.inr (.inr (.inr h))))⟩
  rw [hframe.rest]

theorem State.wakeWaits_store (s : State) (i : Nat) : (s.wakeWaits i).store = s.store := by
  obtain ⟨u, ⟨hu, -⟩, heq⟩ := s.wakeWaits_spec i
  rw [heq, hu]

theorem State.takeFetches_store (s : State) (i : Nat) : (s.takeFetches i).store = s.store := by rw [(s.takeFetches_onlyRegs i).1]

theorem State.pcShown_store (s : State) (i v node : Nat) : (s.pcShown i v node).store = s.store := by
  have hemit : ((s.setPc i v).emit (.counterUpdate i v)).store = s.store := by
    rw [State.emit_eq]
    rfl
  unfold State.pcShown
  dsimp only
  rw [State.takeFetches_store, State.wakeWaits_store]
  split
  · exact hemit
  · exact hemit

/-- An advance of a package counter leaves the store. -/
theorem State.advancePc_store (s : State) (i inc node : Nat) : (s.advancePc i inc node).store = s.store := by
  have hirq (t : State) : (t.pcIrq i).store = t.store := by rw [t.pcIrq_eq]
  have hnotify (t : State) : (t.notify i).store = t.store := by rw [t.notify_eq]
  rw [s.advancePc_eq, hirq, hnotify, s.pcShown_store]

/-- A record of a fetch queue served, up to the write of its status. -/
def State.recordServed (s : State) (w : List Word) (a : Nat) (r : Nat × Nat) : State :=
  let e := bits (w.getD 0 0) 31 20
  let dst := bits (w.getD 3 0) 31 6 * 64 + bits (w.getD 4 0) 7 0 * 2 ^ 32
  let t := s.fetchChunks e (bits (w.getD 0 0) 19 0) dst r.2
  let t := if r.1 = 6 then t.damage e (bits (w.getD 0 0) 19 0 + r.2) else t
  if w.getD 1 0 ≠ ~~~(w.getD 0 0) then t.cplMismatch none (dramStop (stackOf a)) 10 (a % (96 * 2 ^ 30) / 8192) else t

theorem State.recordServed_fetching (s : State) (w : List Word) (a : Nat) (r : Nat × Nat) : Fetching s (s.recordServed w a r) := by
  have hchunks := s.fetchChunks_fetching (bits (w.getD 0 0) 31 20) (bits (w.getD 0 0) 19 0)
    (bits (w.getD 3 0) 31 6 * 64 + bits (w.getD 4 0) 7 0 * 2 ^ 32) r.2
  unfold State.recordServed
  dsimp only
  generalize s.fetchChunks _ _ _ _ = t at *
  have hdamage : Fetching s (if r.1 = 6 then t.damage (bits (w.getD 0 0) 31 20) (bits (w.getD 0 0) 19 0 + r.2) else t) :=
    Fetching.ite (hchunks.trans (t.damage_fetching _ _)) hchunks
  generalize (if r.1 = 6 then t.damage (bits (w.getD 0 0) 31 20) (bits (w.getD 0 0) 19 0 + r.2) else t) = u at *
  exact Fetching.ite (hdamage.trans (u.cplMismatch_fetching _ _ _)) hdamage

/-- The status of the record written, the next record chosen, and counter DONE advanced. -/
def State.recordDone (s : State) (i a code : Nat) (q : FetchSt) (counter : Nat) : State :=
  let t := s.wrBytes (a + 20) [BitVec.ofNat 8 code]
  let t := if code = 1 then t else t.inc (Reg.STF_FAILED i)
  { t with store := { t.store with fetch := tput t.store.fetch i { q with next := q.next + 1 } } }.advancePc counter 1 (hostNode i)

theorem State.recordDone_spec (s : State) (i a code : Nat) (q : FetchSt) (counter : Nat) (ha : a + 20 < dramSize) (hi : i < 64) :
    (s.recordDone i a code q counter).rdB (a + 20) = BitVec.ofNat 8 code ∧ tget ⟨0, 0⟩ (s.recordDone i a code q counter).store.fetch i = { q with next := q.next + 1 } ∧
    (s.recordDone i a code q counter).clusters = s.clusters ∧ (s.recordDone i a code q counter).pc counter = min (s.pc counter + 1) (2 ^ 48 - 1) := by
  have hbyte : (s.wrBytes (a + 20) [BitVec.ofNat 8 code]).rdB (a + 20) = BitVec.ofNat 8 code := by
    rw [State.rdB_wrBytes, if_pos ⟨Nat.le_refl _, by simp, ha⟩, Nat.sub_self, List.getD_cons_zero]
  have hwrite := s.wrBytes_fetching (a + 20) [BitVec.ofNat 8 code]
  have hwriteRg : ∀ o, (s.wrBytes (a + 20) [BitVec.ofNat 8 code]).rg o = s.rg o := by
    intro o
    rw [s.wrBytes_eq]
    rfl
  unfold State.recordDone
  dsimp only
  generalize s.wrBytes (a + 20) [BitVec.ofNat 8 code] = t at *
  have hfail : (if code = 1 then t else t.inc (Reg.STF_FAILED i)) = { t with regs := (if code = 1 then t else t.inc (Reg.STF_FAILED i)).regs } ∧
      ∀ o, o ≠ Reg.STF_FAILED i → (if code = 1 then t else t.inc (Reg.STF_FAILED i)).rg o = t.rg o := by
    split
    · exact ⟨rfl, fun _ _ => rfl⟩
    · exact ⟨rfl, fun o ho => t.rg_inc_of_ne ho⟩
  obtain ⟨hrest, hrg⟩ := hfail
  generalize (if code = 1 then t else t.inc (Reg.STF_FAILED i)) = u at *
  have hv : ({ u with store := { u.store with fetch := tput u.store.fetch i { q with next := q.next + 1 } } } : State).clusters = s.clusters ∧
      ({ u with store := { u.store with fetch := tput u.store.fetch i { q with next := q.next + 1 } } } : State).rdB (a + 20) = BitVec.ofNat 8 code ∧
      ({ u with store := { u.store with fetch := tput u.store.fetch i { q with next := q.next + 1 } } } : State).pc counter = s.pc counter ∧
      tget ⟨0, 0⟩ ({ u with store := { u.store with fetch := tput u.store.fetch i { q with next := q.next + 1 } } } : State).store.fetch i =
        { q with next := q.next + 1 } := by
    refine ⟨?_, ?_, ?_, ?_⟩
    · rw [hrest]
      exact hwrite.clusters
    · rw [hrest]
      exact hbyte
    · refine State.pc_congr ((hrg _ ?_).trans (hwriteRg _)) ((hrg _ ?_).trans (hwriteRg _)) <;>
      · simp only [Reg.PC_VALUE_LO, Reg.PC_VALUE_HI, Reg.STF_FAILED]
        omega
    · exact (tget_tput ..).trans (if_pos rfl)
  obtain ⟨hcl, hrd, hpc, hfetch⟩ := hv
  generalize ({ u with store := { u.store with fetch := tput u.store.fetch i { q with next := q.next + 1 } } } : State) = v at *
  obtain ⟨hclusters, hdram⟩ := v.advancePc_sameArray counter 1 (hostNode i)
  refine ⟨?_, ?_, hclusters.trans hcl, ?_⟩
  · rw [State.rdB, hdram]
    exact hrd
  · rw [v.advancePc_store, hfetch]
  · rw [v.advancePc_pc, hpc, satAdd]

/-- The counts of pages read leave what a fetch record's status depends on. -/
theorem State.fetchStatus_countPages (s : State) (p : PageReads) (i : Fin 64) (w : List Word) (sigOk : Bool) (bad : Option Nat) :
    (s.countPages p).fetchStatus i w sigOk bad = s.fetchStatus i w sigOk bad := by
  have hi := i.isLt
  have hwin (a len : Nat) : (s.countPages p).inWindow i a len = s.inWindow i a len := by
    refine State.inWindow_congr (fun w hw => ⟨s.countPages_rg p ?_ ?_, s.countPages_rg p ?_ ?_⟩) a len <;>
    · simp only [Reg.WIN_BASE, Reg.WIN_SIZE, Reg.ST_CORR, Reg.ST_UNCORR]
      omega
  have hlib (e : Nat) : (s.countPages p).lib e = s.lib e := rfl
  unfold State.fetchStatus
  simp only [hwin, hlib]

theorem fetchComplete_serves (s : State) (i : Fin 64) (sigOk : Bool) (bad : Option Nat) (pages : PageReads) :
    let q := tget ⟨0, 0⟩ s.store.fetch i
    let a := s.stfBase i + 32 * (q.next % 2 ^ s.fd (Reg.STF_CTRL_LOG2 i))
    let r := s.fetchStatus i (s.rdWords a 8) sigOk bad
    s.on (Reg.STF_CTRL_EN i) = true → q.base + q.next + 1 ≤ s.pc (s.fd (Reg.STF_CTRL_REQ i)) → a + 20 < dramSize →
    After (.fetchComplete i sigOk bad pages) s fun t => t.rdB (a + 20) = BitVec.ofNat 8 r.1 ∧
      tget ⟨0, 0⟩ t.store.fetch i = { q with next := q.next + 1 } ∧ t.clusters = s.clusters ∧
      t.pc (s.fd (Reg.STF_CTRL_DONE i)) = min (s.pc (s.fd (Reg.STF_CTRL_DONE i)) + 1) (2 ^ 48 - 1) := by
  intro q a r hen htaken ha
  have hi := i.isLt
  have hcount {o : Nat} (ho : o < 0xB1010 ∨ 0xB1014 < o) : (s.countPages pages).rg o = s.rg o :=
    s.countPages_rg pages (by simp only [Reg.ST_CORR]; omega) (by simp only [Reg.ST_UNCORR]; omega)
  have hctrl (x : Fld) (hx : x.off = Reg.STF_CTRL i) : (s.countPages pages).fd x = s.fd x :=
    State.fd_congr (hcount (by rw [hx]; simp only [Reg.STF_CTRL]; omega))
  have hpc (c : Nat) (hc : c < 4096) : (s.countPages pages).pc c = s.pc c :=
    State.pc_congr (hcount (by simp only [Reg.PC_VALUE_LO]; omega)) (hcount (by simp only [Reg.PC_VALUE_HI]; omega))
  have hreq : s.fd (Reg.STF_CTRL_REQ i) < 4096 := ((s.rg (Reg.STF_CTRL i)).extractLsb' 12 12).isLt
  have hdone : s.fd (Reg.STF_CTRL_DONE i) < 4096 := ((s.rg (Reg.STF_CTRL i)).extractLsb' 0 12).isLt
  have hbase : (s.countPages pages).stfBase i = s.stfBase i := by
    rw [State.stfBase, State.fd_congr (x := Reg.STF_BASE_LO_ADDR i) (hcount (by simp only [Reg.STF_BASE_LO_ADDR, Reg.STF_BASE_LO]; omega)),
      State.fd_congr (x := Reg.STF_BASE_HI_ADDR i) (hcount (by simp only [Reg.STF_BASE_HI_ADDR, Reg.STF_BASE_HI]; omega)), State.stfBase]
  have hwords : (s.countPages pages).rdWords a 8 = s.rdWords a 8 := State.rdWords_congr rfl a 8
  have hstatus := s.fetchStatus_countPages pages i (s.rdWords a 8) sigOk bad
  have hfetch : (s.countPages pages).store.fetch = s.store.fetch := rfl
  have hcl : (s.countPages pages).clusters = s.clusters := rfl
  have hdue : ((s.countPages pages).on (Reg.STF_CTRL_EN i) &&
      decide (q.base + q.next + 1 ≤ (s.countPages pages).pc ((s.countPages pages).fd (Reg.STF_CTRL_REQ i)))) = true := by
    rw [State.on, hctrl (Reg.STF_CTRL_EN i) rfl, hctrl (Reg.STF_CTRL_REQ i) rfl, hpc _ hreq, decide_eq_true htaken, Bool.and_true]
    exact hen
  have hexec : exec (.fetchComplete i sigOk bad pages) s = .next
      (((s.countPages pages).recordServed (s.rdWords a 8) a r).recordDone i a r.1 q (s.fd (Reg.STF_CTRL_DONE i))) := by
    change execFetchComplete i sigOk bad pages s = _
    unfold execFetchComplete
    dsimp only
    rw [hfetch, if_pos hdue, hbase, hctrl (Reg.STF_CTRL_LOG2 i) rfl, hwords, hstatus, hctrl (Reg.STF_CTRL_DONE i) rfl]
    rfl
  have hserved := (s.countPages pages).recordServed_fetching (s.rdWords a 8) a r
  obtain ⟨hbyte, hnext, hclusters, hadvanced⟩ :=
    ((s.countPages pages).recordServed (s.rdWords a 8) a r).recordDone_spec i a r.1 q (s.fd (Reg.STF_CTRL_DONE i)) ha hi
  refine ⟨_, hexec, hbyte, hnext, hclusters.trans (hserved.clusters.trans hcl), ?_⟩
  have hkept : ((s.countPages pages).recordServed (s.rdWords a 8) a r).pc (s.fd (Reg.STF_CTRL_DONE i)) = s.pc (s.fd (Reg.STF_CTRL_DONE i)) := by
    have hquiet (o : Nat) (hlo : 0x90000 ≤ o) : ¬ EventReg o := by
      simp only [EventReg, Reg.FH_EVT_HEAD, Reg.IRQ_STATUS, Reg.MG_ALERT, Reg.FH_CPL_MISMATCH]
      omega
    refine Eq.trans (State.pc_congr (hserved.rg _ (hquiet _ ?_)) (hserved.rg _ (hquiet _ ?_))) (hpc _ hdone) <;>
    · simp only [Reg.PC_VALUE_LO, Reg.PC_VALUE_HI]
      omega
  rw [hadvanced, hkept]

/-- Settles O43: each command of the store by the part of it that it writes. -/
theorem storeKeepsEntriesKeysAndBlocks : Obligations.StoreKeepsEntriesKeysAndBlocks := by
  refine ⟨fun s b intentOk erasedOk fails => blockEraseDone_follows s b intentOk erasedOk fails,
    fun s b retire pages c hdata hfree => refreshDue_moves s b retire pages c hdata hfree,
    fun s b retire pages hno => congrArg Host.Outcome.next (if_neg hno), fun s v sigOk digestsOk hopen hgo hidle => entryWrite_starts hopen hgo hidle,
    fun s e r aborted hwriting hr hidle => entryWriteDone_ends hwriting hr hidle, fun s aborted hnone => ?none,
    fun s v hopen hgo => libDelete_follows hopen hgo, fun s hopen => keys_follow hopen, fun s i v hopen hset => fetchArm_follows hopen hset,
    fun s i sigOk bad pages => fetchComplete_serves s i sigOk bad pages, fun s i sigOk bad pages hoff => ?idle⟩
  case none =>
    change execEntryWriteDone aborted s = _
    rw [execEntryWriteDone, hnone]
  case idle =>
    have hi := i.isLt
    have hstill : (s.countPages pages).on (Reg.STF_CTRL_EN i) = false :=
      (State.on_congr (s.countPages_rg pages (by simp only [Reg.STF_CTRL_EN, Reg.STF_CTRL, Reg.ST_CORR]; omega)
        (by simp only [Reg.STF_CTRL_EN, Reg.STF_CTRL, Reg.ST_UNCORR]; omega))).trans hoff
    refine ⟨_, congrArg Host.Outcome.next (if_neg (by rw [hstill, Bool.false_and]; decide)), s.countPages_rest pages, fun o ho => ?_⟩
    simp only [List.mem_cons, List.not_mem_nil, or_false, not_or] at ho
    exact s.countPages_rg pages ho.1 ho.2

end Sys2Proof.Machine

/-! Proofs about the work of descriptors (R370 to R372, R379). -/

namespace Sys2Proof.Machine

theorem State.endDesc_onlyHost (s : State) (id status detail : Nat) : OnlyHost s (s.endDesc id status detail) := rfl

/-- A rejection, or an end that does nothing else, changes the descriptor alone. -/
theorem State.endDesc_ends (s : State) (id status detail : Nat) :
    EndedDesc s (s.endDesc id status detail) id status detail ∧ OnlyHost s (s.endDesc id status detail) :=
  ⟨s.endDesc_endedDesc id status detail, s.endDesc_onlyHost id status detail⟩

/-- An end after work that leaves the descriptors. -/
theorem EndedDesc.of_descs {s u t : State} {id status detail : Nat} (h : EndedDesc u t id status detail) (hdesc : ∀ j, u.desc j = s.desc j) :
    EndedDesc s t id status detail := by
  unfold EndedDesc at h ⊢
  simpa only [hdesc] using h

/-! ### RUN (R370) -/

/-- The sequence that a RUN makes ready. -/
def State.runSeq (s : State) (id : Nat) (d : Desc) : Seq := { noSeq with
  desc := some id, slot := bits (d.w 4) 31 22, inst := d.inst, state := .ready, readyAt := d.rung, order := s.net.nextSeq
  stepNo := (d.w 6).toNat, maxSteps := bits (d.w 7) 15 0, size0 := (d.w 8).toNat, size1 := (d.w 9).toNat
  inAddr := d.dram 10, outAddr := d.dram 12 }

/-- The state with a RUN's sequence ready and its descriptor running. -/
def State.runReady (s : State) (id : Nat) (d : Desc) : State :=
  let t := (s.setSeq s.net.nextSeq (s.runSeq id d)).setDesc id { d with state := .running }
  { t with net := { t.net with nextSeq := t.net.nextSeq + 1 } }

section
variable {s : State} {r : Fin 4096} {pos : Word} {id : Nat} {d : Desc}

theorem exec_run (h : s.hasWork r pos 1 id d) (hok : s.on Reg.FH_SUMMARY_FAILED = false) : exec (.run r pos) s = .next (
    if (s.slot (bits (d.w 4) 31 22)).phase ≠ 2 ∨ s.evictBefore (bits (d.w 4) 31 22) d.order = true then s.endDesc id 4 15
    else if (s.slot (bits (d.w 4) 31 22)).inst ≠ d.inst then s.endDesc id 4 14
    else if ! s.inWindow d.inst (d.dram 10) (s.slot (bits (d.w 4) 31 22)).inBytes || ! s.inWindow d.inst (d.dram 12) (s.slot (bits (d.w 4) 31 22)).outBytes then
      s.endDesc id 4 13
    else s.runReady id d) := by
  change execRun r pos s = _
  rw [execRun, State.work_of_hasWork h, if_neg (by simp [hok])]
  rfl

theorem run_follows (h : s.hasWork r pos 1 id d) : let n := bits (d.w 4) 31 22
    let p := s.slot n
    s.on Reg.FH_SUMMARY_FAILED = false →
    (p.phase = 2 → s.evictBefore n d.order = false → p.inst = d.inst → s.inWindow d.inst (d.dram 10) p.inBytes = true →
      s.inWindow d.inst (d.dram 12) p.outBytes = true →
      After (.run r pos) s fun t => t.seq s.net.nextSeq = s.runSeq id d ∧
        t.desc id = { d with state := .running } ∧ (∀ j, j ≠ id → t.desc j = s.desc j) ∧ (∀ j, j ≠ s.net.nextSeq → t.seq j = s.seq j) ∧
        t = { s with host := { s.host with descs := t.host.descs }, net := { s.net with seqs := t.net.seqs, nextSeq := s.net.nextSeq + 1 } }) ∧
    ((p.phase ≠ 2 ∨ s.evictBefore n d.order = true) → After (.run r pos) s fun t => EndedDesc s t id 4 15 ∧ OnlyHost s t) ∧
    (p.phase = 2 → s.evictBefore n d.order = false → p.inst ≠ d.inst → After (.run r pos) s fun t => EndedDesc s t id 4 14 ∧ OnlyHost s t) ∧
    (p.phase = 2 → s.evictBefore n d.order = false → p.inst = d.inst →
      (s.inWindow d.inst (d.dram 10) p.inBytes = false ∨ s.inWindow d.inst (d.dram 12) p.outBytes = false) →
      After (.run r pos) s fun t => EndedDesc s t id 4 13 ∧ OnlyHost s t) := by
  intro n p hok
  have hexec := exec_run h hok
  have hregistered (hphase : p.phase = 2) (hevict : s.evictBefore n d.order = false) : ¬ (p.phase ≠ 2 ∨ s.evictBefore n d.order = true) := by
    simp [hphase, hevict]
  refine ⟨fun hphase hevict hinst hin hout => ?_, fun hno => ?_, fun hphase hevict hinst => ?_, fun hphase hevict hinst hwin => ?_⟩
  · rw [if_neg (hregistered hphase hevict), if_neg (not_not_intro hinst), if_neg (by rw [hin, hout]; decide)] at hexec
    refine ⟨_, hexec, ?_, ?_, fun j hj => ?_, fun j hj => ?_, rfl⟩
    · exact (tget_tput ..).trans (if_pos rfl)
    · exact (State.desc_setDesc _ id _ id).trans (if_pos rfl)
    · exact (State.desc_setDesc _ id _ j).trans (if_neg hj)
    · exact (tget_tput ..).trans (if_neg hj)
  · rw [if_pos hno] at hexec
    exact ⟨_, hexec, s.endDesc_ends id 4 15⟩
  · rw [if_neg (hregistered hphase hevict), if_pos hinst] at hexec
    exact ⟨_, hexec, s.endDesc_ends id 4 14⟩
  · rw [if_neg (hregistered hphase hevict), if_neg (not_not_intro hinst), if_pos (by rcases hwin with h | h <;> rw [h] <;> simp)] at hexec
    exact ⟨_, hexec, s.endDesc_ends id 4 13⟩

/-! ### Copies (R371) -/

theorem State.hubWrite_rest (s : State) (a : Nat) (data : List Byte) :
    s.hubWrite a data = { s with dram := (s.wrBytes a data).dram, mem := (s.hubWrite a data).mem } := by
  unfold State.hubWrite
  dsimp only
  rw [s.wrBytes_eq]

theorem copyIn_follows (h : s.hasWork r pos 2 id d) (data : List Byte) : let a := d.dram 6
    let n := (d.w 8).toNat
    (s.inWindow d.inst a n = true → s.rangeReady a n = true → data.length = n → a + n ≤ dramSize →
      After (.copyIn r pos data) s fun t => EndedDesc s t id 0 0 ∧ (∀ k, k < n → t.rdB (a + k) = data.getD k 0#8) ∧
        (∀ b, b < a ∨ a + n ≤ b → t.rdB b = s.rdB b) ∧ t.regs = s.regs ∧ t.clusters = s.clusters ∧ t.outbox = s.outbox) ∧
    (s.inWindow d.inst a n = false → After (.copyIn r pos data) s fun t => EndedDesc s t id 4 13 ∧ OnlyHost s t) := by
  intro a n
  have hexec : exec (.copyIn r pos data) s = .next (if ! s.inWindow d.inst a n then s.endDesc id 4 13 else if ! s.rangeReady a n then s.demand a n
      else if data.length ≠ n then s else (s.hubWrite a data).endDesc id 0 0) := by
    change execCopyIn r pos data s = _
    rw [execCopyIn, State.work_of_hasWork h]
  refine ⟨fun hwin hready hlen hfits => ?_, fun hout => ?_⟩
  · rw [if_neg (by rw [hwin]; decide), if_neg (by rw [hready]; decide), if_neg (not_not_intro hlen)] at hexec
    have hread (b : Nat) : ((s.hubWrite a data).endDesc id 0 0).rdB b = (s.wrBytes a data).rdB b := rfl
    refine ⟨_, hexec, EndedDesc.of_descs (State.endDesc_endedDesc _ id 0 0) fun j => ?_, fun k hk => ?_, fun b hb => ?_, ?_, ?_, ?_⟩
    · rw [s.hubWrite_rest]
      rfl
    · rw [hread, State.rdB_wrBytes, if_pos ⟨by omega, by omega, by omega⟩, Nat.add_sub_cancel_left]
    · rw [hread, State.rdB_wrBytes, if_neg (by omega)]
    all_goals rw [s.hubWrite_rest]; rfl
  · rw [if_pos (by rw [hout]; decide)] at hexec
    exact ⟨_, hexec, s.endDesc_ends id 4 13⟩

theorem copyOut_follows (h : s.hasWork r pos 3 id d) : let a := d.dram 6
    let n := (d.w 8).toNat
    (s.inWindow d.inst a n = true → s.rangeReady a n = true → s.sends →
      After (.copyOut r pos) s fun t => EndedDesc s t id 0 0 ∧ t.outbox = s.outbox ++ [.hostBytes d.inst (d.hostAddr 4) (s.rdBytes a n)] ∧
        t = { s with host := t.host, outbox := t.outbox }) ∧
    (s.inWindow d.inst a n = false → After (.copyOut r pos) s fun t => EndedDesc s t id 4 13 ∧ OnlyHost s t) := by
  intro a n
  have hexec : exec (.copyOut r pos) s = .next (if ! s.inWindow d.inst a n then s.endDesc id 4 13 else if ! s.rangeReady a n then s.demand a n
      else (s.emit (.hostBytes d.inst (d.hostAddr 4) (s.rdBytes a n))).endDesc id 0 0) := by
    change execCopyOut r pos s = _
    rw [execCopyOut, State.work_of_hasWork h]
  refine ⟨fun hwin hready hsends => ?_, fun hout => ?_⟩
  · rw [if_neg (by rw [hwin]; decide), if_neg (by rw [hready]; decide), State.emit_of_sends hsends] at hexec
    exact ⟨_, hexec, EndedDesc.of_descs (State.endDesc_endedDesc _ id 0 0) fun _ => rfl, rfl, rfl⟩
  · rw [if_pos (by rw [hout]; decide)] at hexec
    exact ⟨_, hexec, s.endDesc_ends id 4 13⟩

/-! ### Counters not owned, timeouts and fences (R372, R379) -/

theorem signal_rejected (h : s.hasWork r pos 4 id d) (hno : s.pcOwned (bits (d.w 4) 11 0) d.inst = false) :
    After (.signal r pos) s fun t => EndedDesc s t id 4 14 ∧ OnlyHost s t := by
  refine ⟨_, ?_, s.endDesc_ends id 4 14⟩
  change execSignal r pos s = _
  rw [execSignal, State.work_of_hasWork h, if_neg (by rw [hno]; decide)]

theorem wait_rejected (h : s.hasWork r pos 5 id d) (hno : s.pcOwned (bits (d.w 4) 11 0) d.inst = false) :
    After (.wait r pos) s fun t => EndedDesc s t id 4 14 ∧ OnlyHost s t := by
  refine ⟨_, ?_, s.endDesc_ends id 4 14⟩
  change execWait r pos s = _
  rw [execWait, State.work_of_hasWork h, if_pos (by rw [hno]; decide)]

theorem waitTimeout_ends (hfind : s.findDesc r pos.toNat = some id) (hrunning : (s.desc id).state = .running) (hop : (s.desc id).opcode = 5)
    (htime : (s.desc id).w 7 ≠ 0) : After (.waitTimeout r pos) s fun t => EndedDesc s t id 1 3 ∧ SameArray s t ∧ t.outbox = s.outbox := by
  obtain ⟨htrace, -⟩ := s.traceEnd_onlyTrace (bits ((s.desc id).w 4) 11 0) (BitVec.ofNat 32 (hostNode (s.desc id).inst), (s.desc id).w 5)
  have hexec : exec (.waitTimeout r pos) s = .next ((s.traceEnd (bits ((s.desc id).w 4) 11 0)
      (BitVec.ofNat 32 (hostNode (s.desc id).inst), (s.desc id).w 5)).endDesc id 1 3) := by
    change execWaitTimeout r pos s = _
    rw [execWaitTimeout, hfind]
    exact congrArg Host.Outcome.next (if_pos ⟨hrunning, hop, htime⟩)
  generalize s.traceEnd (bits ((s.desc id).w 4) 11 0) (BitVec.ofNat 32 (hostNode (s.desc id).inst), (s.desc id).w 5) = u at *
  refine ⟨_, hexec, EndedDesc.of_descs (u.endDesc_endedDesc id 1 3) fun j => ?_, ?_, ?_⟩
  · rw [htrace]
    rfl
  · rw [htrace]
    exact ⟨rfl, rfl⟩
  · rw [htrace]
    rfl

theorem fence_follows (h : s.hasWork r pos 8 id d) :
    let earlier := s.host.descs.any fun e => e.2.state ≠ .fetched && decide (e.2.order < d.order) &&
      (if bit (d.w 4) 0 then e.2.inst == d.inst else e.2.ring == d.ring)
    (earlier = false → After (.fence r pos) s fun t => EndedDesc s t id 0 0 ∧ OnlyHost s t) ∧ (earlier = true → Passes (.fence r pos) s) := by
  intro earlier
  have hexec : exec (.fence r pos) s = .next (if earlier then s else s.endDesc id 0 0) := by
    change execFence r pos s = _
    rw [execFence, State.work_of_hasWork h]
  refine ⟨fun hnone => ?_, fun hsome => ?_⟩
  · rw [hnone, if_neg (by decide)] at hexec
    exact ⟨_, hexec, s.endDesc_ends id 0 0⟩
  · rw [hsome, if_pos rfl] at hexec
    exact hexec

end

/-- Settles O34: each opcode's work by its checks in order, ending in the descriptor's end. -/
theorem descriptorsDoTheirWork : Obligations.DescriptorsDoTheirWork :=
  ⟨fun _ _ _ _ _ h => run_follows h, fun _ _ _ data _ _ h => copyIn_follows h data, fun _ _ _ _ _ h => copyOut_follows h,
    fun _ _ _ _ _ hno => ⟨fun h => signal_rejected h hno, fun h => wait_rejected h hno⟩,
    fun _ _ _ _ hfind hrunning hop htime => waitTimeout_ends hfind hrunning hop htime, fun _ _ _ _ _ h => fence_follows h⟩

end Sys2Proof.Machine

/-! ## Channels: what SEND, RECV and RELEASE move, and what arrives (chapter 8) -/

namespace Sys2Proof.Machine

/-! ### Bytes and endpoints of a cluster -/

theorem ClusterSt.rd_wr (c : ClusterSt) (a b : Nat) (v : Byte) : (c.wr a v).rd b = if b = a ∧ a < 0x600000 then v else c.rd b := by
  unfold ClusterSt.wr ClusterSt.rd
  by_cases ha : a < 0x600000
  · rw [if_pos ha]
    simp only [tget_mput, ha, and_true]
  · rw [if_neg ha]
    simp only [ha, and_false, if_false]

/-- A written byte reads its data inside the scratchpad; every byte outside the range reads as before. -/
theorem ClusterSt.rd_wrN_of_apart (c : ClusterSt) {a b : Nat} {bs : List Byte} (h : b < a ∨ a + bs.length ≤ b) : (c.wrN a bs).rd b = c.rd b := by
  induction bs generalizing c a with
  | nil => rfl
  | cons v bs ih =>
    rw [List.length_cons] at h
    rw [ClusterSt.wrN, ih _ (by omega), ClusterSt.rd_wr, if_neg (by omega)]

theorem ClusterSt.rd_wrN (c : ClusterSt) (a : Nat) {i : Nat} {bs : List Byte} (hi : i < bs.length) (ha : a + i < 0x600000) :
    (c.wrN a bs).rd (a + i) = bs.getD i 0#8 := by
  induction bs generalizing c a i with
  | nil => exact absurd hi (Nat.not_lt_zero i)
  | cons v bs ih =>
    rw [ClusterSt.wrN]
    cases i with
    | zero =>
      rw [Nat.add_zero] at ha
      rw [Nat.add_zero, ClusterSt.rd_wrN_of_apart _ (by omega), ClusterSt.rd_wr, if_pos ⟨rfl, ha⟩, List.getD_cons_zero]
    | succ i =>
      rw [List.length_cons] at hi
      rw [show a + (i + 1) = a + 1 + i by omega, ih _ _ (by omega) (by omega), List.getD_cons_succ]

theorem ClusterSt.sendEp_setSend (c : ClusterSt) (k : Nat) (e : SendEp) : (c.setSend k e).sendEp k = e := (tget_tput ..).trans (if_pos rfl)

theorem ClusterSt.recvEp_setRecv (c : ClusterSt) (k : Nat) (r : RecvEp) : (c.setRecv k r).recvEp k = r := (tget_tput ..).trans (if_pos rfl)

/-! ### SEND (R273) -/

/-- The endpoint that a tile has left. -/
def SendEp.afterTile (e : SendEp) (take : Bool) : SendEp :=
  { e with credits := e.credits - 1, seq := e.seq + 1, takeSent := e.takeSent + b2n take }

/-- What a tile that leaves changes in its cluster. -/
def ClusterSt.tileLeaves (c : ClusterSt) (k ep : Nat) (take : Bool) : ClusterSt :=
  (c.setSend (epKey k ep) ((c.sendEp (epKey k ep)).afterTile take)).advance k 1

theorem State.sendTile_eq (s : State) (n k ep : Nat) (isNull : Bool) (halo : List Nat) (data : List Byte) :
    ∃ dst, s.sendTile n k ep isNull halo data = ((s.upCl n fun c => c.tileLeaves k ep
        ((s.slot (c.plane (k / 4)).slot).exitChain (c.plane (k / 4)).sect)).inc64 (Reg.CH_TILES_SENT_LO n) 1).sent
      [.tile (((s.cl n).plane (k / 4)).sb ep 23 15) (((s.cl n).plane (k / 4)).sb ep 26 24) dst (k % 4) ((s.cl n).sendEp (epKey k ep)).seq isNull
        ((s.slot ((s.cl n).plane (k / 4)).slot).exitChain ((s.cl n).plane (k / 4)).sect) halo data] := by
  rw [State.sendTile]
  exact ⟨_, State.emit_of_undisabled _ rfl⟩

/-- A tile that is sent: what the endpoint, the context, the memories, the outbox and the registers hold then. -/
theorem State.sendTile_spec (s : State) (n k ep : Nat) (isNull : Bool) (halo : List Nat) (data : List Byte) {c : ClusterSt} (hc : s.cl n = c) :
    ((s.sendTile n k ep isNull halo data).cl n).sendEp (epKey k ep) =
        (c.sendEp (epKey k ep)).afterTile ((s.slot (c.plane (k / 4)).slot).exitChain (c.plane (k / 4)).sect) ∧
      CtxSet c ((s.sendTile n k ep isNull halo data).cl n) k (c.ctx k).next ∧ ((s.sendTile n k ep isNull halo data).cl n).sp = c.sp ∧
      (∀ j, j ≠ n → (s.sendTile n k ep isNull halo data).cl j = s.cl j) ∧ SameDram s (s.sendTile n k ep isNull halo data) ∧
      (∃ dst, (s.sendTile n k ep isNull halo data).outbox = s.outbox ++ [.tile ((c.plane (k / 4)).sb ep 23 15) ((c.plane (k / 4)).sb ep 26 24) dst
        (k % 4) (c.sendEp (epKey k ep)).seq isNull ((s.slot (c.plane (k / 4)).slot).exitChain (c.plane (k / 4)).sect) halo data]) ∧
      RegsBut s (s.sendTile n k ep isNull halo data) [Reg.CH_TILES_SENT_LO n, Reg.CH_TILES_SENT_LO n + 4] := by
  subst hc
  obtain ⟨dst, hsend⟩ := s.sendTile_eq n k ep isNull halo data
  have hcl (m : Nat) : (s.sendTile n k ep isNull halo data).cl m = (s.upCl n fun c => c.tileLeaves k ep
      ((s.slot (c.plane (k / 4)).slot).exitChain (c.plane (k / 4)).sect)).cl m := by
    rw [hsend, State.sent_cl, State.inc64_cl]
  refine ⟨?_, ?_, ?_, fun j hj => ?_, fun a => ?_, ⟨dst, ?_⟩, fun o ho => ?_⟩
  · rw [hcl, State.cl_upCl_same]
    exact ClusterSt.sendEp_setSend ..
  · rw [hcl, State.cl_upCl_same]
    exact CtxSet.setCtx (ClusterSt.setSend ..) k _
  · rw [hcl, State.cl_upCl_same]
    rfl
  · rw [hcl, State.cl_upCl, if_neg hj]
  · rw [hsend, State.sent_rdB, State.inc64_rdB, State.upCl_rdB]
  · rw [hsend, State.sent_outbox, State.inc64_outbox, State.upCl_outbox]
  · simp only [List.mem_cons, List.not_mem_nil, or_false, not_or] at ho
    rw [hsend, State.sent_rg, State.rg_inc64_of_ne _ ho.1 ho.2, State.upCl_rg]

/-- The state in which a slot that issues has its effect: a single step that was due is done. -/
def State.stepped (s : State) (n : Nat) : State := s.upCl n fun c => { c with stepOne := false }

theorem State.stepped_cl_same (s : State) (n : Nat) : (s.stepped n).cl n = { s.cl n with stepOne := false } := State.cl_upCl_same ..

theorem State.stepped_cl_of_ne (s : State) {n m : Nat} (h : m ≠ n) : (s.stepped n).cl m = s.cl m := by rw [State.stepped, State.cl_upCl, if_neg h]

/-- A slot that waits changes its context alone. -/
theorem State.waitAt_stepped (s : State) (n k : Nat) (w : Wait) (x : SlotCtl) : OnlyCl s ((s.stepped n).waitAt n k w x) n ∧
    CtxSet (s.cl n) (((s.stepped n).waitAt n k w x).cl n) k { (s.cl n).ctx k with st := .waiting, wait := w, accLive := x.accLive } := by
  refine ⟨⟨rfl, fun m hm => ?_⟩, ?_⟩
  · rw [State.waitAt, State.cl_upCl, if_neg hm, s.stepped_cl_of_ne hm]
  · rw [State.waitAt, State.cl_upCl_same, s.stepped_cl_same]
    exact ClusterSt.waitFor_ctxSet { s.cl n with stepOne := false } k _ _

theorem State.sendSlot_of_credit {s : State} {n k : Nat} {x : SlotCtl} {on : Bool} (h : s.issues n k x on) {ep : Nat}
    (hcredit : ((s.cl n).sendEp (epKey k ep)).credits ≠ 0) (f : Nat → Bool → State → State) : s.sendSlot n x ep f = .next (f k on (s.stepped n)) := by
  rw [State.sendSlot, State.issue_of_issues h]
  refine congrArg Host.Outcome.next (if_neg ?_)
  rw [State.cl_upCl_same]
  exact hcredit

theorem State.sendSlot_of_no_credit {s : State} {n k : Nat} {x : SlotCtl} {on : Bool} (h : s.issues n k x on) {ep : Nat}
    (hcredit : ((s.cl n).sendEp (epKey k ep)).credits = 0) (f : Nat → Bool → State → State) :
    s.sendSlot n x ep f = .next ((s.stepped n).waitAt n k (.credit ep) x) := by
  rw [State.sendSlot, State.issue_of_issues h]
  refine congrArg Host.Outcome.next (if_pos ?_)
  rw [State.cl_upCl_same]
  exact hcredit

theorem ClusterSt.rdN_stepOne (c : ClusterSt) (b : Bool) (a len : Nat) : ({ c with stepOne := b } : ClusterSt).rdN a len = c.rdN a len := by
  induction len generalizing a with
  | zero => rfl
  | succ len ih => rw [ClusterSt.rdN, ClusterSt.rdN, ih]; rfl

theorem exec_send_of_issues {s : State} {n : Fin 576} {k : Nat} {x : SlotCtl} {on : Bool} (h : s.issues n k x on) (ep : Fin 8) (addr : BitVec 23)
    (m : BitVec 8) (hcredit : ((s.cl n).sendEp (epKey k ep)).credits ≠ 0)
    (hread : on = true → (s.cl n).mayRead [lineRange addr.toNat (addr.toNat + 64 * (m.toNat + 1))]) :
    exec (.send n x ep addr m) s = .next ((s.stepped n).sendTile n k ep (! on) []
      (if on then (s.cl n).rdN addr.toNat (64 * (m.toNat + 1)) else [])) := by
  change execSend n x ep addr m s = _
  rw [execSend, State.sendSlot_of_credit h hcredit]
  refine congrArg Host.Outcome.next ?_
  cases on with
  | false => rfl
  | true =>
    refine (if_neg (by decide)).trans ?_
    rw [State.readSlot_of_mayRead (by rw [s.stepped_cl_same]; exact hread rfl), s.stepped_cl_same, ClusterSt.rdN_stepOne]
    rfl


theorem ClusterSt.rdElem_stepOne (c : ClusterSt) (b : Bool) (a w : Nat) (high : Bool) :
    ({ c with stepOne := b } : ClusterSt).rdElem a w high = c.rdElem a w high := by
  rw [ClusterSt.rdElem, ClusterSt.rdElem, ClusterSt.rdN_stepOne]
  rfl

theorem ClusterSt.readSlab_stepOne (c : ClusterSt) (b : Bool) (k t f : Nat) (sl : Slab) :
    ({ c with stepOne := b } : ClusterSt).readSlab k t f sl = c.readSlab k t f sl := by
  unfold ClusterSt.readSlab
  simp only [ClusterSt.rdElem_stepOne]
  rfl

theorem State.haloFmt_of_some {s : State} {n k t op f : Nat} (h : ((s.cl n).plane (k / 4)).operandFmt t op = some f) :
    s.haloFmt n k t op = (f, s) := by
  rw [State.haloFmt, h]

theorem exec_sendHalo_of_issues {s : State} {n : Fin 576} {k : Nat} {x : SlotCtl} (h : s.issues n k x true) (ep : Fin 8) (lt : Fin 16)
    (bindB upper : Bool) {f : Nat} {elems : List Nat} {c : ClusterSt} (hc : s.cl n = c) {sl : Slab}
    (hsl : (c.plane (k / 4)).slab c.bkt lt (b2n bindB) false upper = sl) (hcredit : (c.sendEp (epKey k ep)).credits ≠ 0)
    (hfmt : (c.plane (k / 4)).operandFmt lt sl.op = some f)
    (hread : c.mayRead ((List.range sl.total).map fun i =>
      (((c.plane (k / 4)).slabAddr c.bkt lt (fmtWidth f) sl (c.ctx k).idx i).1.toNat / 64,
        ((c.plane (k / 4)).slabAddr c.bkt lt (fmtWidth f) sl (c.ctx k).idx i).1.toNat / 64)))
    (hslab : c.readSlab k lt f sl = (elems, none)) :
    ∃ masked, exec (.sendHalo n x ep lt bindB upper) s = .next (((s.stepped n).inc64 (Reg.MASKED_LO n) masked).sendTile n k ep false
      (c.ctx k).idx (packElems (fmtWidth f) elems)) := by
  subst hc
  change ∃ masked, execSendHalo n x ep lt bindB upper s = _
  rw [execSendHalo, State.sendSlot_of_credit h hcredit]
  have hcl := s.stepped_cl_same n
  have hfmt' : (s.stepped n).haloFmt n k lt sl.op = (f, s.stepped n) := by
    refine State.haloFmt_of_some ?_
    rw [hcl]
    exact hfmt
  have hslab' : ((s.stepped n).cl n).readSlab k lt f sl = (elems, none) := by
    rw [hcl, ClusterSt.readSlab_stepOne]
    exact hslab
  dsimp only
  rw [Bool.not_true, if_neg (by decide)]
  have hsl' : (((s.stepped n).cl n).plane (k / 4)).slab ((s.stepped n).cl n).bkt lt (b2n bindB) false upper = sl := by
    rw [hcl]
    exact hsl
  rw [hsl', hfmt', State.readSlot_of_mayRead (by rw [hcl]; exact hread), hslab', hcl]
  exact ⟨_, rfl⟩

/-! ### RECV and RELEASE (R275, R276) -/

theorem ClusterSt.place_onlySp (c : ClusterSt) (addr : Nat) (held : Table (List Byte)) : OnlySp c (c.place addr held) :=
  OnlySp.foldl held (fun d _ => d.wrN_onlySp _ _) c

/-- Writing a predicate bit leaves everything of the cluster but the predicates of one context. -/
theorem ClusterSt.setPred_spec (c : ClusterSt) (k i : Nat) (v : Bool) : (c.setPred k i v).recvs = c.recvs ∧
    (∃ preds, (c.setPred k i v).ctx k = { c.ctx k with preds := preds }) ∧ ∀ j, j ≠ k → (c.setPred k i v).ctx j = c.ctx j := by
  unfold ClusterSt.setPred
  split
  · exact ⟨rfl, ⟨_, rfl⟩, fun _ _ => rfl⟩
  · obtain ⟨hsame, hother⟩ := CtxSet.setCtx c k { c.ctx k with preds := setBits (c.ctx k).preds i i (b2n v) }
    exact ⟨rfl, ⟨_, hsame⟩, hother⟩

theorem State.sent_nil (s : State) : s.sent [] = s := by rw [State.sent, List.append_nil]

/-- The cluster once a tile is taken: the endpoint is r, and context k knows whether the tile held data. -/
def ClusterSt.tileTaken (placed : ClusterSt) (y : Ctx) (k ep pbit : Nat) (r : RecvEp) (v : Bool) : ClusterSt :=
  ((placed.setRecv (epKey k ep) r).setCtx k { y with tiles := tput y.tiles ep v }).setPred k pbit v

theorem ClusterSt.tileTaken_spec {c placed : ClusterSt} (hctxs : placed.ctxs = c.ctxs) (k ep pbit : Nat) (r : RecvEp) (v : Bool) :
    (placed.tileTaken (c.ctx k) k ep pbit r v).recvEp (epKey k ep) = r ∧
      ((placed.tileTaken (c.ctx k) k ep pbit r v).ctx k).slotPtr = (c.ctx k).slotPtr ∧
      tget false ((placed.tileTaken (c.ctx k) k ep pbit r v).ctx k).tiles ep = v ∧
      ∀ j, j ≠ k → (placed.tileTaken (c.ctx k) k ep pbit r v).ctx j = c.ctx j := by
  unfold ClusterSt.tileTaken
  obtain ⟨hrecvs, ⟨preds, hsame⟩, hother⟩ := ClusterSt.setPred_spec
    ((placed.setRecv (epKey k ep) r).setCtx k { c.ctx k with tiles := tput (c.ctx k).tiles ep v }) k pbit v
  rw [ClusterSt.ctx_setCtx, if_pos rfl] at hsame
  refine ⟨?_, ?_, ?_, fun j hj => ?_⟩
  · rw [ClusterSt.recvEp, hrecvs]
    exact ClusterSt.recvEp_setRecv ..
  · rw [hsame]
  · rw [hsame]
    exact (tget_tput ..).trans (if_pos rfl)
  · rw [hother j hj, ClusterSt.ctx_setCtx, if_neg hj, ClusterSt.ctx, ClusterSt.ctx, ← hctxs]
    rfl

theorem State.takeTile_eq {s : State} {n k ep : Nat} (pbit : Nat) {d : Tile} (h : ((s.cl n).recvEp (epKey k ep)).next = some d) :
    ∃ (placed : ClusterSt) (tiles : List Tile) (sent : List Output), placed.ctxs = (s.cl n).ctxs ∧ s.takeTile n k ep pbit = (s.setCl n (placed.tileTaken ((s.cl n).ctx k) k ep pbit
      ⟨tiles, ((s.cl n).recvEp (epKey k ep)).q + 1, ((s.cl n).recvEp (epKey k ep)).stale⟩ (! d.isNull))).sent sent := by
  have hplace (addr : Nat) (held : Table (List Byte)) : ((s.cl n).place addr held).ctxs = (s.cl n).ctxs := by
    rw [(s.cl n).place_onlySp addr held]
  unfold State.takeTile
  simp only [h]
  cases htake : d.take with
  | false => exact ⟨_, _, [], hplace _ _, (State.sent_nil _).symm⟩
  | true => exact ⟨_, _, _, hplace _ _, State.emit_of_undisabled _ (o := .takeNotice _ _ _) rfl⟩

/-- What taking tile d leaves in the cluster. -/
theorem State.takeTile_spec {s : State} {n k ep : Nat} (pbit : Nat) {d : Tile} (h : ((s.cl n).recvEp (epKey k ep)).next = some d) :
    (((s.takeTile n k ep pbit).cl n).recvEp (epKey k ep)).q = ((s.cl n).recvEp (epKey k ep)).q + 1 ∧
      (((s.takeTile n k ep pbit).cl n).ctx k).slotPtr = ((s.cl n).ctx k).slotPtr ∧
      tget false (((s.takeTile n k ep pbit).cl n).ctx k).tiles ep = (! d.isNull) ∧
      (∀ j, j ≠ k → ((s.takeTile n k ep pbit).cl n).ctx j = (s.cl n).ctx j) ∧ (s.takeTile n k ep pbit).dram = s.dram ∧
      (s.takeTile n k ep pbit).regs = s.regs ∧ ∀ m, m ≠ n → (s.takeTile n k ep pbit).cl m = s.cl m := by
  obtain ⟨placed, tiles, sent, hctxs, heq⟩ := State.takeTile_eq pbit h
  obtain ⟨hrecv, hptr, htiles, hother⟩ := ClusterSt.tileTaken_spec (c := s.cl n) hctxs k ep pbit
    ⟨tiles, ((s.cl n).recvEp (epKey k ep)).q + 1, ((s.cl n).recvEp (epKey k ep)).stale⟩ (! d.isNull)
  rw [heq, State.sent_cl, State.cl_setCl_same]
  refine ⟨by rw [hrecv], hptr, htiles, hother, rfl, rfl, fun m hm => ?_⟩
  rw [State.sent_cl, State.cl_setCl, if_neg hm]

theorem exec_recv_of_issues {s : State} {n : Fin 576} {k : Nat} {x : SlotCtl} {on : Bool} (h : s.issues n k x on) (ep pbit : Fin 8) :
    exec (.recv n x ep pbit) s = .next (if ((s.cl n).recvEp (epKey k ep)).next.isSome then ((s.stepped n).takeTile n k ep pbit).pass n k
      else (s.stepped n).waitAt n k (.recv ep pbit) x) := by
  change execRecv n x ep pbit s = _
  rw [execRecv, State.issue_of_issues h, State.cl_upCl_same]
  rfl

/-- RELEASE of a taken tile, with none spilled: the tile goes, the context moves on, and a credit leaves. -/
theorem exec_release_of_issues {s : State} {n : Fin 576} {k : Nat} {x : SlotCtl} {on : Bool} (h : s.issues n k x on) (ep : Fin 8) {r : RecvEp}
    (hr : (s.cl n).recvEp (epKey k ep) = r) {d : Tile} (hd : r.tiles.find? (·.taken) = some d) (hspilled : ∀ y ∈ r.tiles, y.spilledAt = none) :
    ∃ lc e, exec (.release n x ep) s = .next (((s.stepped n).upCl n fun c => (c.setRecv (epKey k ep)
      { r with tiles := r.tiles.filter fun y => y.seq ≠ d.seq }).advance k 1).sent [.credit lc e (k % 4)]) := by
  have hnone : (r.tiles.any fun y => y.spilledAt.isSome) = false := by
    rw [List.any_eq_false]
    intro y hy
    rw [hspilled y hy]
    decide
  change ∃ lc e, execRelease n x ep s = _
  rw [execRelease, State.issue_of_issues h]
  change ∃ lc e, Host.Outcome.next _ = _
  have hr' : ((s.upCl n fun c => { c with stepOne := false }).cl n).recvEp (epKey k ep) = r := by
    rw [State.cl_upCl_same]
    exact hr
  dsimp only
  rw [hr']
  simp only [hd, hnone, Bool.false_eq_true, if_false]
  exact ⟨_, _, congrArg Host.Outcome.next (State.emit_of_undisabled _ rfl)⟩

/-! ### Arriving packets (R274) -/

/-- The tile of an endpoint that a packet belongs to: the one that is there, or a new one. -/
def RecvEp.tileOf (r : RecvEp) (q : TilePkt) : Tile :=
  (r.tiles.find? fun t => t.seq == q.seq).getD ⟨q.seq, q.total, [], q.isNull, q.take, q.plane, false, none, 0, [], q.halo⟩

/-- A packet goes beside the buffer: the endpoint is a halo, or its buffer holds another tile, or the tile is beside it already. -/
def RecvEp.aside (r : RecvEp) (q : TilePkt) (p : Plane) : Bool :=
  (p.haloOf q.ep).isSome || r.occupied (p.bpc q.ep) q.seq || ! (r.tileOf q).held.isEmpty

/-- The tile once the packet is added to it. -/
def Tile.withPacket (y : Tile) (q : TilePkt) (aside : Bool) : Tile :=
  { y with
    got := y.got ++ [q.index.val], len := y.len + q.data.length
    held := if aside && ! q.isNull then tput y.held q.index q.data else y.held }

/-- The endpoint once the tile is put among the others. -/
def RecvEp.withTile (r : RecvEp) (q : TilePkt) (y : Tile) : RecvEp :=
  { r with tiles := ((r.tiles.filter fun t => t.seq ≠ q.seq).filter fun t => decide (t.seq < q.seq)) ++
      y :: (r.tiles.filter fun t => t.seq ≠ q.seq).filter fun t => decide (q.seq < t.seq) }

/-- What follows once a packet is in: the region's window restarts, a whole halo tile fills its margin, and waits are looked at. -/
def State.afterPacket (t : State) (n : Nat) (q : TilePkt) (p : Plane) (y : Tile) : State :=
  let u := if y.whole then t.activity n true else t
  let u := match p.haloOf q.ep with
    | some h => if y.whole then u.fillMargin n (4 * q.plane.val + q.ctx.val) q.ep h y else u
    | none => u
  if p.st = 3 && u.net.step.isSome then u.wake n else u

theorem State.takePacket_eq (s : State) (n : Nat) (q : TilePkt) {k : Nat} (hk : 4 * q.plane.val + q.ctx.val = k) {p : Plane}
    (hp : (s.cl n).plane q.plane = p) {r : RecvEp} (hr : (s.cl n).recvEp (epKey k q.ep) = r) {aside : Bool} (haside : r.aside q p = aside) :
    s.takePacket n q = if ((r.tileOf q).got.contains q.index.val || (r.tileOf q).taken) = true then s else
      State.afterPacket (s.upCl n fun c =>
        (if aside || q.isNull then c else c.wrN (p.bufAddr q.ep q.ctx q.seq + 1024 * q.index) q.data).setRecv (epKey k q.ep)
          (r.withTile q (if (p.haloOf q.ep).isSome && ((r.tileOf q).withPacket q aside).whole then { (r.tileOf q).withPacket q aside with held := [] }
            else (r.tileOf q).withPacket q aside))) n q p ((r.tileOf q).withPacket q aside) := by
  subst hk hp hr haside
  rfl

/-- With no halo and no waiting context, nothing but the network's state follows. -/
theorem State.afterPacket_of_quiet {t : State} {n : Nat} {q : TilePkt} {p : Plane} (hhalo : p.haloOf q.ep = none) (hquiet : (t.cl n).quiet) (y : Tile) :
    ∃ net, t.afterPacket n q p y = { t with net := net } := by
  have hwhole : ∃ net, (if y.whole then t.activity n true else t) = { t with net := net } := by
    split
    · exact ⟨_, rfl⟩
    · exact ⟨_, rfl⟩
  obtain ⟨net, hwhole⟩ := hwhole
  have hwake : ({ t with net := net } : State).wake n = { t with net := net } := State.wake_of_quiet hquiet
  unfold State.afterPacket
  simp only [hhalo, hwhole, hwake, ite_self]
  exact ⟨net, rfl⟩

/-- The tile of a fresh packet: it awaits the packet, is not taken and holds nothing beside its buffer. -/
theorem RecvEp.tileOf_fresh {r : RecvEp} {q : TilePkt} (h : ∀ y ∈ r.tiles, y.seq = q.seq → q.index.val ∉ y.got ∧ y.taken = false ∧ y.held = []) :
    (r.tileOf q).seq = q.seq ∧ q.index.val ∉ (r.tileOf q).got ∧ (r.tileOf q).taken = false ∧ (r.tileOf q).held = [] := by
  unfold RecvEp.tileOf
  cases hfind : r.tiles.find? fun t => t.seq == q.seq with
  | none => exact ⟨rfl, List.not_mem_nil, rfl, rfl⟩
  | some y =>
    have hseq : y.seq = q.seq := by simpa using List.find?_some hfind
    exact ⟨hseq, h y (List.mem_of_find?_eq_some hfind) hseq⟩

theorem RecvEp.withTile_spec (r : RecvEp) {q : TilePkt} {y : Tile} (hseq : y.seq = q.seq) (hgot : q.index.val ∈ y.got) :
    ∃ x ∈ (r.withTile q y).tiles, x.seq = q.seq ∧ q.index.val ∈ x.got :=
  ⟨y, List.mem_append_right _ (List.mem_cons_self ..), hseq, hgot⟩

/-- A fresh packet for a plain endpoint with its buffer free lands in the buffer. -/
theorem State.takePacket_of_fresh {s : State} {n : Nat} {q : TilePkt} {c : ClusterSt} (hc : s.cl n = c)
    (hhalo : (c.plane q.plane).haloOf q.ep = none) (hnull : q.isNull = false)
    (hfree : (c.recvEp (epKey (4 * q.plane.val + q.ctx.val) q.ep)).occupied ((c.plane q.plane).bpc q.ep) q.seq = false)
    (hfresh : ∀ y ∈ (c.recvEp (epKey (4 * q.plane.val + q.ctx.val) q.ep)).tiles, y.seq = q.seq →
      q.index.val ∉ y.got ∧ y.taken = false ∧ y.held = []) (hquiet : c.quiet) :
    ∃ net, s.takePacket n q = { s.setCl n ((c.wrN ((c.plane q.plane).bufAddr q.ep q.ctx q.seq + 1024 * q.index) q.data).setRecv
      (epKey (4 * q.plane.val + q.ctx.val) q.ep) ((c.recvEp (epKey (4 * q.plane.val + q.ctx.val) q.ep)).withTile q
        (((c.recvEp (epKey (4 * q.plane.val + q.ctx.val) q.ep)).tileOf q).withPacket q false))) with net := net } := by
  obtain ⟨-, hgot, htaken, hheld⟩ := RecvEp.tileOf_fresh hfresh
  have haside : (c.recvEp (epKey (4 * q.plane.val + q.ctx.val) q.ep)).aside q (c.plane q.plane) = false := by
    rw [RecvEp.aside, hhalo, hfree, hheld]
    rfl
  rw [s.takePacket_eq n q rfl (by rw [hc]) (by rw [hc]) haside, if_neg (by simpa using ⟨hgot, htaken⟩), hhalo, hnull,
    State.upCl, hc]
  refine State.afterPacket_of_quiet (t := s.setCl n _) hhalo ?_ _
  rw [State.cl_setCl_same]
  intro j hj
  have hctxs := congrArg ClusterSt.ctxs (c.wrN_onlySp ((c.plane q.plane).bufAddr q.ep q.ctx q.seq + 1024 * q.index) q.data)
  have hctx : (c.wrN ((c.plane q.plane).bufAddr q.ep q.ctx q.seq + 1024 * q.index) q.data).ctx j = c.ctx j := congrArg (tget noCtx · j) hctxs
  exact hctx ▸ hquiet j hj

/-- Settles O23: a slot that sends, takes or frees a tile moves its endpoint and its context, and what arrives lands where it belongs. -/
theorem channelsMoveTilesAndCredits : Obligations.ChannelsMoveTilesAndCredits := by
  refine ⟨?send, ?noCredit, ?halo, ?recv, ?recvWaits, ?release, ?packet, ?credit, ?feed, ?notice⟩
  case send =>
    intro s n k x on ep addr m hissues c p e len hcredit hread
    obtain ⟨hep, hctx, hsp, hcls, hdram, ⟨dst, hout⟩, hrg⟩ := (s.stepped n).sendTile_spec n k ep (! on) []
      (if on then (s.cl n).rdN addr.toNat (64 * (m.toNat + 1)) else []) (s.stepped_cl_same n)
    exact ⟨_, exec_send_of_issues hissues ep addr m hcredit hread, hep, hctx, hsp, fun j hj => (hcls j hj).trans (s.stepped_cl_of_ne hj), hdram,
      ⟨dst, hout⟩, hrg⟩
  case noCredit =>
    intro s n k x on ep addr m hissues hcredit
    have hexec : exec (.send n x ep addr m) s = _ := (rfl : _ = execSend n x ep addr m s).trans (State.sendSlot_of_no_credit hissues hcredit _)
    exact ⟨_, hexec, s.waitAt_stepped n k _ x⟩
  case halo =>
    intro s n k x ep lt bindB upper f elems hissues c p e sl lines hcredit hfmt hread hslab
    obtain ⟨masked, hexec⟩ := exec_sendHalo_of_issues hissues ep lt bindB upper (c := c) rfl (sl := sl) rfl hcredit hfmt hread hslab
    obtain ⟨hep, hctx, hsp, hcls, hdram, ⟨dst, hout⟩, hrg⟩ := ((s.stepped n).inc64 (Reg.MASKED_LO n) masked).sendTile_spec n k ep false
      (c.ctx k).idx (packElems (fmtWidth f) elems) ((State.inc64_cl ..).trans (s.stepped_cl_same n))
    exact ⟨_, hexec, hep, hctx, hdram, ⟨dst, hout⟩⟩
  case recv =>
    intro s n k x on ep pbit d hissues hnext
    have hexec := exec_recv_of_issues hissues ep pbit
    rw [hnext, if_pos (by rfl)] at hexec
    obtain ⟨hq, hptr, htiles, hctxs, hdram, hregs, hcls⟩ := State.takeTile_spec (s := s.stepped n) pbit (n := n) (k := k) (ep := ep) (d := d)
      (by rw [s.stepped_cl_same]; exact hnext)
    rw [s.stepped_cl_same] at hq hptr hctxs
    obtain ⟨hsame, hother⟩ := CtxSet.setCtx (((s.stepped n).takeTile n k ep pbit).cl n) k (Ctx.next ((((s.stepped n).takeTile n k ep pbit).cl n).ctx k))
    refine ⟨_, hexec, ?_⟩
    dsimp only
    rw [State.pass, State.cl_upCl_same]
    refine ⟨hq, ?_, ?_, fun j hj => (hother j hj).trans (hctxs j hj), fun a => ?_, hregs, fun m hm => ?_⟩
    · exact (congrArg Ctx.slotPtr hsame).trans (congrArg (· + 1) hptr)
    · exact (congrArg (fun y : Ctx => tget false y.tiles ep) hsame).trans htiles
    · exact congrArg (tget 0#8 · a) hdram
    · rw [State.cl_upCl, if_neg hm, hcls m hm, s.stepped_cl_of_ne hm]
  case recvWaits =>
    intro s n k x on ep pbit hissues hnext
    have hexec := exec_recv_of_issues hissues ep pbit
    rw [hnext, if_neg (by decide)] at hexec
    exact ⟨_, hexec, s.waitAt_stepped n k _ x⟩
  case release =>
    intro s n k x on ep d hissues r hd hspilled
    obtain ⟨lc, e, hexec⟩ := exec_release_of_issues hissues ep (r := r) rfl hd hspilled
    refine ⟨_, hexec, ?_⟩
    dsimp only
    rw [State.sent_cl, State.cl_upCl_same, s.stepped_cl_same]
    refine ⟨ClusterSt.recvEp_setRecv .., CtxSet.setCtx (ClusterSt.setRecv ..) k _, rfl, rfl, rfl, ⟨lc, e, rfl⟩, fun m hm => ?_⟩
    rw [State.sent_cl, State.cl_upCl, if_neg hm, s.stepped_cl_of_ne hm]
  case packet =>
    intro s n q c k p r a hfenced hgen hattempt hactive hhalo hnull hfree hfresh hquiet
    obtain ⟨net, htake⟩ := State.takePacket_of_fresh (s := s) (n := n) (q := q) (c := c) rfl hhalo hnull hfree hfresh hquiet
    have hexec : exec (.tilePacketArrive n q) s = .next (s.takePacket n q) := by
      change execTilePacketArrive n q s = _
      refine congrArg Host.Outcome.next ((if_neg ?_).trans (if_pos ?_))
      · simp [hfenced, hgen, hattempt, c]
      · simp only [Bool.or_eq_true, decide_eq_true_eq]
        exact Or.inl hactive
    have hcl (m : Nat) : (s.takePacket n q).cl m = if m = n.val then (c.wrN a q.data).setRecv (epKey k q.ep) (r.withTile q ((r.tileOf q).withPacket q false)) else s.cl m := by
      rw [htake]
      exact s.cl_setCl m n _
    refine ⟨_, hexec, ?_⟩
    dsimp only
    rw [hcl, if_pos rfl]
    refine ⟨fun i hi ha => c.rd_wrN a hi ha, fun b hb => c.rd_wrN_of_apart hb, ?_, ?_, ?_, ?_, fun m hm => by rw [hcl, if_neg hm]⟩
    · rw [ClusterSt.recvEp_setRecv]
      exact r.withTile_spec (y := (r.tileOf q).withPacket q false) (RecvEp.tileOf_fresh hfresh).1 (List.mem_append_right _ (List.mem_singleton.mpr rfl))
    · exact (congrArg ClusterSt.ctxs (c.wrN_onlySp a q.data)).trans rfl
    · rw [htake]; rfl
    · rw [htake]; rfl
  case credit =>
    intro s n p ep c src srcEp d k e hfenced hless hquiet
    refine congrArg Host.Outcome.next ?_
    rw [hfenced]
    refine (if_neg (by decide)).trans ((if_neg (by decide)).trans ((if_neg (Nat.not_le.mpr hless)).trans ?_))
    refine State.wake_of_quiet ?_
    rw [State.cl_upCl_same]
    exact hquiet
  case feed =>
    intro s n p ep c f src srcEp d k y limit hfenced hless
    refine congrArg Host.Outcome.next ?_
    rw [hfenced]
    exact (if_neg (by decide)).trans ((if_neg (by decide)).trans (if_neg (Nat.not_le.mpr hless)))
  case notice =>
    intro s n p ep c src srcEp d k e hfenced hless
    refine congrArg Host.Outcome.next ?_
    rw [hfenced]
    exact (if_neg (by decide)).trans ((if_neg (by decide)).trans (if_neg (Nat.not_le.mpr hless)))

end Sys2Proof.Machine

/-! ## Planes written and scrubbed, and the multicast and autostart registers (R532 to R536, R541, R542) -/

namespace Sys2Proof.Machine

/-! ### Outputs one after the other -/

theorem State.each_sent {α : Type} (s : State) (l : List α) {f : State → α → State} (hf : ∀ u x, ∃ more, f u x = u.sent more) :
    ∃ more, s.each l f = s.sent more := by
  induction l generalizing s with
  | nil => exact ⟨[], s.sent_nil.symm⟩
  | cons x l ih =>
    obtain ⟨first, hfirst⟩ := hf s x
    obtain ⟨rest, hrest⟩ := ih (s.sent first)
    rw [State.each_cons, hfirst, hrest]
    exact ⟨first ++ rest, by rw [State.sent, State.sent, State.sent, List.append_assoc]⟩

/-! ### What an advance of a package counter leaves -/

theorem State.advancePc_rg_above (s : State) {i : Nat} (hi : i < 4096) (inc node : Nat) {off : Nat} (hoff : 0xA0000 ≤ off) :
    (s.advancePc i inc node).rg off = s.rg off := by
  have hctrl : off ≠ Reg.PC_CTRL i := by simp only [Reg.PC_CTRL]; omega
  have hlo : off ≠ Reg.PC_VALUE_LO i := by simp only [Reg.PC_VALUE_LO]; omega
  have hhi : off ≠ Reg.PC_VALUE_HI i := by simp only [Reg.PC_VALUE_HI]; omega
  rw [s.advancePc_eq, State.pcIrq_rg _ i hctrl, State.notify_rg]
  exact (s.pcShown_shown i (satAdd_lt _ _) node).rg_of_ne (not_showsCounters_pc (by omega)) hlo hhi

theorem State.wakeWaits_images (s : State) (i : Nat) : (s.wakeWaits i).images = s.images := by
  obtain ⟨u, ⟨hu, -⟩, heq⟩ := s.wakeWaits_spec i
  rw [heq, hu]

theorem State.pcShown_images (s : State) (i v node : Nat) : (s.pcShown i v node).images = s.images := by
  have hemit : ((s.setPc i v).emit (.counterUpdate i v)).images = s.images := by
    rw [State.emit_eq]
    rfl
  unfold State.pcShown
  dsimp only
  rw [(State.takeFetches_onlyRegs _ i).1]
  refine (State.wakeWaits_images _ i).trans ?_
  split
  · exact hemit
  · exact hemit

theorem State.advancePc_images (s : State) (i inc node : Nat) : (s.advancePc i inc node).images = s.images := by
  have hirq (t : State) : (t.pcIrq i).images = t.images := by rw [t.pcIrq_eq]
  have hnotify (t : State) : (t.notify i).images = t.images := by rw [t.notify_eq]
  rw [s.advancePc_eq, hirq, hnotify, s.pcShown_images]

/-! ### A plane written into a cluster (R532) -/

/-- What a plane of the image becomes in a physical plane. -/
def State.planeFrom (s : State) (n slot : Nat) (e : Nat × Table Word) : Plane :=
  ⟨2, slot, (s.slot slot).inst, (s.slot slot).gen, e.1 / 65536, e.1 / 8 % 512, (s.cl n).useStamp s.clk, e.1, e.2⟩

theorem State.putPlane_eq (s : State) (n slot p : Nat) (e : Nat × Table Word) : ∃ more, s.putPlane n slot p e =
    ((s.upCl n fun c => (c.clearPlane p).setPlane p (s.planeFrom n slot e)).inc64 Reg.CE_PLANE_BYTES_LO
      (((tget [] (s.slot slot).written e.1).map (·.2)).sum)).sent more :=
  State.each_sent _ _ fun u _ => u.emit_sent _

theorem ClusterSt.plane_put (c : ClusterSt) (p j : Nat) (x : Plane) :
    ((c.clearPlane p).setPlane p x).plane j = if j = p then x else c.plane j := by
  rw [ClusterSt.plane_setPlane]
  split
  · rfl
  · next hj => exact (tget_tdel ..).trans (if_neg hj)

theorem State.putPlane_spec (s : State) (n slot p : Nat) (e : Nat × Table Word) :
    ((s.putPlane n slot p e).cl n).plane p = s.planeFrom n slot e ∧ (∀ j, j ≠ p → ((s.putPlane n slot p e).cl n).plane j = (s.cl n).plane j) ∧
      (∀ m, m ≠ n → (s.putPlane n slot p e).cl m = s.cl m) ∧ SameDram s (s.putPlane n slot p e) ∧ (s.putPlane n slot p e).images = s.images ∧
      (s.putPlane n slot p e).net = s.net ∧ (s.putPlane n slot p e).rg64 Reg.CE_PLANE_BYTES_LO =
        (s.rg64 Reg.CE_PLANE_BYTES_LO + ((tget [] (s.slot slot).written e.1).map (·.2)).sum) % 2 ^ 64 ∧
      RegsBut s (s.putPlane n slot p e) [Reg.CE_PLANE_BYTES_LO, Reg.CE_PLANE_BYTES_LO + 4] := by
  obtain ⟨more, heq⟩ := s.putPlane_eq n slot p e
  have hcl (m : Nat) : (s.putPlane n slot p e).cl m = (s.upCl n fun c => (c.clearPlane p).setPlane p (s.planeFrom n slot e)).cl m := by
    rw [heq, State.sent_cl, State.inc64_cl]
  refine ⟨?_, fun j hj => ?_, fun m hm => ?_, fun a => ?_, ?_, ?_, ?_, fun o ho => ?_⟩
  · rw [hcl, State.cl_upCl_same, ClusterSt.plane_put, if_pos rfl]
  · rw [hcl, State.cl_upCl_same, ClusterSt.plane_put, if_neg hj]
  · rw [hcl, State.cl_upCl, if_neg hm]
  · rw [heq, State.sent_rdB, State.inc64_rdB, State.upCl_rdB]
  · rw [heq, State.sent, State.inc64_images, State.upCl_images]
  · rw [heq, State.sent, State.inc64_net, State.upCl_net]
  · rw [heq]
    exact State.rg64_inc64 _ _ _
  · simp only [List.mem_cons, List.not_mem_nil, or_false, not_or] at ho
    rw [heq, State.sent_rg, State.rg_inc64_of_ne _ ho.1 ho.2, State.upCl_rg]

theorem State.pkgRoom_of_fits {s : State} {new : List Nat} (h : pkgFits (s.pkgAll ++ new) = true) (slot sect f : Nat) :
    s.pkgRoom slot sect new f = some s := by
  cases f with
  | zero => exact if_pos h
  | succ f => exact if_pos h

/-- A plane of a section that no physical plane holds yet is put where the cluster has place for it. -/
theorem State.putPlanes_one {s : State} {n slot sect : Nat} {e : Nat × Table Word}
    (h : ∀ q, q < 8 → ((s.cl n).plane q).st ≠ 0 → ((s.cl n).plane q).slot = slot → ((s.cl n).plane q).key ≠ e.1) :
    s.putPlanes n slot sect [e] = (s.planeSpace n slot sect).map fun p => s.putPlane n slot p e := by
  have hmissing : ((List.range 8).any fun p => ((s.cl n).plane p).st ≠ 0 && ((s.cl n).plane p).slot == slot && ((s.cl n).plane p).key == e.1) = false := by
    rw [List.any_eq_false]
    intro p hp
    simp only [Bool.and_eq_true, decide_eq_true_eq, beq_iff_eq, not_and]
    rintro ⟨hst, hslot⟩
    exact h p (List.mem_range.1 hp) hst hslot
  unfold State.putPlanes
  dsimp only
  rw [hmissing]
  cases s.planeSpace n slot sect with
  | none => rfl
  | some p => rfl

/-- What PLANE_LOAD_DONE of a section with one plane for the cluster does: the plane is put, or where none can take it a preload is refused. -/
theorem exec_planeLoadDone_one {s : State} {n : Fin 576} {slot : Fin 1024} {sect : BitVec 16} {e : Nat × Table Word}
    (hphase : (s.slot slot).phase = 2) (hevict : (s.slot slot).evicting = false) (hstage : (s.slot slot).released.contains 0 = true)
    (hfenced : s.isFenced n = false) (hawake : s.awake) (hneed : s.planesFor n slot sect.toNat = [e])
    (hfits : pkgFits (s.pkgAll ++ pkgNames [imagePlane e.1 e.2]) = true)
    (hmissing : ∀ q, q < 8 → ((s.cl n).plane q).st ≠ 0 → ((s.cl n).plane q).slot = slot.val → ((s.cl n).plane q).key ≠ e.1) :
    exec (.planeLoadDone n slot sect) s = .next (((s.planeSpace n slot sect.toNat).map fun p =>
      ((s.putPlane n slot p e).tryPreload slot).tryBoundary).getD (s.preloadRefused slot sect.toNat)) := by
  change execPlaneLoadDone n slot sect s = _
  unfold execPlaneLoadDone
  refine congrArg Host.Outcome.next ((if_neg ?_).trans ?_)
  · simp only [hphase, hevict, hstage, hfenced, hneed]
    simp only [State.awake] at hawake
    simpa using hawake
  · simp only [hneed, List.map_cons, List.map_nil, State.pkgRoom_of_fits hfits, State.putPlanes_one hmissing]
    cases s.planeSpace n slot sect.toNat with
    | none => rfl
    | some p => rfl

theorem State.tryPreload_of_none {s : State} {n : Nat} (h : (s.slot n).preload = false) : s.tryPreload n = s :=
  if_neg fun hpre => absurd (h.symm.trans hpre.2.1) (by decide)

theorem State.tryBoundary_of_none {s : State} (h : s.net.step = none) : s.tryBoundary = s := by
  rw [State.tryBoundary, h]

theorem State.preloadRefused_of_none {s : State} {slot sect : Nat} (h : (s.slot slot).preload = false) : s.preloadRefused slot sect = s :=
  if_neg fun hpre => absurd (h.symm.trans hpre.1) (by decide)

theorem State.slot_setSlot (s : State) (n : Nat) (p : ProgSlot) : (s.setSlot n p).slot n = p := (tget_tput ..).trans (if_pos rfl)

/-- The load that wanted a preload ends with FRAME_REFUSED, and the registration stands. -/
theorem State.preloadRefused_eq {s : State} {slot sect id : Nat} (hpre : (s.slot slot).preload = true) (hdone : (s.slot slot).preloaded = false)
    (htold : (s.slot slot).told = false) (hsect : sect = (s.slot slot).firstSect) (horigin : (s.slot slot).origin = 0)
    (hdesc : (s.slot slot).desc = some id) : s.preloadRefused slot sect =
      (((((s.inc Reg.CE_FRAMES_REFUSED).setSlot slot { s.slot slot with preloaded := true, told := true }).setF Reg.CE_STATUS_LAST_DETAIL 12).setF
        Reg.CE_STATUS_LAST_SLOT slot).endDesc id 4 12) := by
  unfold State.preloadRefused
  dsimp only
  rw [if_pos ⟨hpre, by rw [hdone]; decide, by rw [htold]; decide, hsect⟩]
  unfold State.loadFailed State.tellLoad
  simp only [horigin, hdesc]
  rfl

theorem State.preloadRefused_spec {s : State} {slot sect id : Nat} (hpre : (s.slot slot).preload = true) (hdone : (s.slot slot).preloaded = false)
    (htold : (s.slot slot).told = false) (hsect : sect = (s.slot slot).firstSect) (horigin : (s.slot slot).origin = 0)
    (hdesc : (s.slot slot).desc = some id) : EndedDesc s (s.preloadRefused slot sect) id 4 12 ∧
      (s.preloadRefused slot sect).rg Reg.CE_FRAMES_REFUSED = s.rg Reg.CE_FRAMES_REFUSED + 1 ∧ SameArray s (s.preloadRefused slot sect) ∧
      ((s.preloadRefused slot sect).slot slot).phase = (s.slot slot).phase ∧
      RegsBut s (s.preloadRefused slot sect) [Reg.CE_FRAMES_REFUSED, Reg.CE_STATUS] := by
  rw [State.preloadRefused_eq hpre hdone htold hsect horigin hdesc]
  generalize hx : ({ s.slot slot with preloaded := true, told := true } : ProgSlot) = x
  have hphase : x.phase = (s.slot slot).phase := by rw [← hx]
  generalize hu : (((s.inc Reg.CE_FRAMES_REFUSED).setSlot slot x).setF Reg.CE_STATUS_LAST_DETAIL 12).setF Reg.CE_STATUS_LAST_SLOT slot = u
  have hhost : u.host = s.host := by rw [← hu, State.setF_host, State.setF_host, State.setSlot_host, State.inc_host]
  have harray : SameArray s u := by
    rw [← hu, SameArray, State.setF_clusters, State.setF_clusters, State.setSlot_clusters, State.inc_clusters, State.setF_dram, State.setF_dram,
      State.setSlot_dram, State.inc_dram]
    exact ⟨rfl, rfl⟩
  have hslot : u.slot slot = x := by
    rw [← hu, State.slot, State.setF_images, State.setF_images]
    exact (s.inc Reg.CE_FRAMES_REFUSED).slot_setSlot slot x
  have hrg {o : Nat} (ho : o ≠ Reg.CE_STATUS) : u.rg o = (s.inc Reg.CE_FRAMES_REFUSED).rg o := by
    rw [← hu, State.rg_setF_of_ne _ (show o ≠ Reg.CE_STATUS_LAST_SLOT.off from ho), State.rg_setF_of_ne _ (show o ≠ Reg.CE_STATUS_LAST_DETAIL.off from ho)]
    rfl
  refine ⟨(u.endDesc_endedDesc id 4 12).of_descs fun j => congrArg (fun h : HostSt => tget noDesc h.descs j) hhost, ?_, harray,
    (congrArg ProgSlot.phase hslot).trans hphase, fun o ho => ?_⟩
  · exact (hrg (by decide)).trans (s.rg_inc_same _)
  · simp only [List.mem_cons, List.not_mem_nil, or_false, not_or] at ho
    exact (hrg ho.2).trans (s.rg_inc_of_ne ho.1)

/-! ### Multicast and autostart registers (R534, R541, R542) -/

theorem regMasks_mcTx : regMasks Reg.CE_MC_TX = (0x8FFF03FF, 0x40000000) := by decide
theorem regMasks_mcRxCtrl : regMasks Reg.CE_MC_RX_CTRL = (0xFFFFF3FF, 0) := by decide

theorem State.plain_onlyRegs (s : State) (off : Nat) (v : Word) : OnlyRegs s (s.plain off v) [off] := (OnlyRegs.refl s [off]).wrg (List.mem_singleton.mpr rfl) _

/-- A write that arms or disarms the receiver moves none of its addresses and no window. -/
theorem State.rxOk_plain (s : State) (v : Word) (o : Nat) : (s.plain Reg.CE_MC_RX_CTRL v).inWindow o (s.plain Reg.CE_MC_RX_CTRL v).rxAddr 1 =
    s.inWindow o s.rxAddr 1 ∧ (s.plain Reg.CE_MC_RX_CTRL v).inWindow o (s.plain Reg.CE_MC_RX_CTRL v).rxBase 1 = s.inWindow o s.rxBase 1 := by
  have hrg {off : Nat} (hoff : off ≠ Reg.CE_MC_RX_CTRL) : (s.plain Reg.CE_MC_RX_CTRL v).rg off = s.rg off := by rw [State.rg_plain, if_neg hoff]
  have hwin (a : Nat) : (s.plain Reg.CE_MC_RX_CTRL v).inWindow o a 1 = s.inWindow o a 1 := by
    refine State.inWindow_congr (fun w _ => ⟨hrg ?_, hrg ?_⟩) a 1
    · simp only [Reg.WIN_BASE, Reg.CE_MC_RX_CTRL]; omega
    · simp only [Reg.WIN_SIZE, Reg.CE_MC_RX_CTRL]; omega
  have haddr : (s.plain Reg.CE_MC_RX_CTRL v).rxAddr = s.rxAddr := by
    rw [State.rxAddr, State.fd_congr (x := Reg.CE_MC_RX_ADDR_LO_ADDR) (hrg (by decide)), State.fd_congr (x := Reg.CE_MC_RX_ADDR_HI_ADDR) (hrg (by decide))]
    rfl
  have hbase : (s.plain Reg.CE_MC_RX_CTRL v).rxBase = s.rxBase := by
    rw [State.rxBase, State.fd_congr (x := Reg.CE_MC_RX_BASE_LO_ADDR) (hrg (by decide)), State.fd_congr (x := Reg.CE_MC_RX_BASE_HI_ADDR) (hrg (by decide))]
    rfl
  rw [hwin, hwin, haddr, hbase]
  exact ⟨rfl, rfl⟩

theorem State.rxWrite_eq {s : State} (hoff : s.on Reg.CE_MC_RX_CTRL_EN = false) {v : Word} (harm : bit v 31 = true) :
    s.rxWrite v = if (s.inWindow (bits v 29 24) s.rxAddr 1 && s.inWindow (bits v 29 24) s.rxBase 1) = false then
      ((s.plain Reg.CE_MC_RX_CTRL v).setF Reg.CE_MC_RX_CTRL_EN 0).setF Reg.CE_MC_RX_STATUS_RESULT 4
    else { (s.plain Reg.CE_MC_RX_CTRL v).wrg Reg.CE_MC_RX_BYTES 0 with images := { s.images with rxHave := [], rxSeen := false } } := by
  have howner : (s.plain Reg.CE_MC_RX_CTRL v).fd Reg.CE_MC_RX_CTRL_OWNER = bits v 29 24 := s.fd_plain regMasks_mcRxCtrl v (hi := 29) (lo := 24) (by decide) (by decide)
  obtain ⟨haddr, hbase⟩ := s.rxOk_plain v (bits v 29 24)
  unfold State.rxWrite
  dsimp only
  rw [hoff, Bool.false_and, if_neg (by decide), harm, if_neg (by decide), howner, haddr, hbase, ← Bool.not_and]
  cases (s.inWindow (bits v 29 24) s.rxAddr 1 && s.inWindow (bits v 29 24) s.rxBase 1) with
  | false => rfl
  | true => rfl

/-- The outcome of the receiver, as its status shows it. -/
def State.rxShown (s : State) (result detail : Nat) : State :=
  ((s.setF Reg.CE_MC_RX_STATUS_DONE 1).setF Reg.CE_MC_RX_STATUS_RESULT result).setF Reg.CE_MC_RX_STATUS_DETAIL detail

theorem State.rxShown_spec (s : State) {result : Nat} (hresult : result < 8) (detail : Nat) : (s.rxShown result detail).images = s.images ∧
    SameArray s (s.rxShown result detail) ∧ (s.rxShown result detail).on Reg.CE_MC_RX_STATUS_DONE = true ∧
    (s.rxShown result detail).fd Reg.CE_MC_RX_STATUS_RESULT = result ∧ ∀ o, o ≠ Reg.CE_MC_RX_STATUS → (s.rxShown result detail).rg o = s.rg o := by
  unfold State.rxShown
  refine ⟨?_, (((SameArray.refl s).setF _ _).setF _ _).setF _ _, ?_, ?_, fun o ho => ?_⟩
  · rw [State.setF_images, State.setF_images, State.setF_images]
  · rw [State.on_setF_apart _ (x := Reg.CE_MC_RX_STATUS_DETAIL) (y := Reg.CE_MC_RX_STATUS_DONE) rfl (by decide) (by decide) (by decide),
      State.on_setF_apart _ (x := Reg.CE_MC_RX_STATUS_RESULT) (y := Reg.CE_MC_RX_STATUS_DONE) rfl (by decide) (by decide) (by decide)]
    exact State.on_setF_one _ rfl (by decide)
  · rw [State.fd_setF_apart _ (x := Reg.CE_MC_RX_STATUS_DETAIL) (y := Reg.CE_MC_RX_STATUS_RESULT) rfl (by decide) (by decide) (by decide), State.fd_setF_same _ (by decide) (by decide)]
    exact Nat.mod_eq_of_lt hresult
  · rw [State.rg_setF_of_ne _ (by exact ho), State.rg_setF_of_ne _ (by exact ho), State.rg_setF_of_ne _ (by exact ho)]

/-- The receiver ends: its outcome shows, its owner's counter may advance, and it is disarmed. -/
theorem State.rxEnd_spec (s : State) {result : Nat} (hresult : result < 8) (detail : Nat) : (s.rxEnd result detail).on Reg.CE_MC_RX_CTRL_EN = false ∧
    (s.rxEnd result detail).on Reg.CE_MC_RX_STATUS_DONE = true ∧ (s.rxEnd result detail).fd Reg.CE_MC_RX_STATUS_RESULT = result ∧
    (s.rxEnd result detail).images = s.images ∧ SameArray s (s.rxEnd result detail) ∧
    ∀ o, 0xA0000 ≤ o → o ≠ Reg.CE_MC_RX_CTRL → o ≠ Reg.CE_MC_RX_STATUS → (s.rxEnd result detail).rg o = s.rg o := by
  have hcounter : s.fd Reg.CE_MC_RX_CNT_COUNTER < 4096 := ((s.rg Reg.CE_MC_RX_CNT).extractLsb' 0 12).isLt
  obtain ⟨himages, harray, hdone, hres, hrg⟩ := s.rxShown_spec hresult detail
  obtain ⟨u, hu, huimages, huarray, hurg⟩ : ∃ u : State, s.rxEnd result detail = u.setF Reg.CE_MC_RX_CTRL_EN 0 ∧ u.images = s.images ∧ SameArray s u ∧
      ∀ o, 0xA0000 ≤ o → u.rg o = (s.rxShown result detail).rg o := by
    refine ⟨_, rfl, ?_⟩
    generalize hu : ((s.setF Reg.CE_MC_RX_STATUS_DONE 1).setF Reg.CE_MC_RX_STATUS_RESULT result).setF Reg.CE_MC_RX_STATUS_DETAIL detail = u
    rw [show s.rxShown result detail = u from hu] at himages harray ⊢
    unfold State.cond
    split
    · exact ⟨(u.advancePc_images _ _ _).trans himages, harray.trans (u.advancePc_sameArray _ _ _), fun o ho => u.advancePc_rg_above hcounter _ _ ho⟩
    · exact ⟨himages, harray, fun o _ => rfl⟩
  have hstatus : u.rg Reg.CE_MC_RX_STATUS = (s.rxShown result detail).rg Reg.CE_MC_RX_STATUS := hurg _ (by decide)
  rw [hu]
  refine ⟨State.on_setF_zero _ rfl (by decide), ?_, ?_, huimages, huarray.setF _ _, fun o ho hctrl hst => ?_⟩
  · rw [State.on_setF_of_ne _ (by decide)]
    exact (State.on_congr (x := Reg.CE_MC_RX_STATUS_DONE) hstatus).trans hdone
  · rw [State.fd_setF_of_ne _ (by decide)]
    exact (State.fd_congr (x := Reg.CE_MC_RX_STATUS_RESULT) hstatus).trans hres
  · rw [State.rg_setF_of_ne _ (by exact hctrl), hurg o ho, hrg o hst]

/-- LOAD_ERR is shown and the failure counted. -/
theorem State.loadErr_spec (s : State) : s.loadErr.on Reg.CE_STATUS_LOAD_ERR = true ∧ s.loadErr.rg Reg.CE_FAILS = s.rg Reg.CE_FAILS + 1 ∧
    s.loadErr.images = s.images ∧ SameArray s s.loadErr := by
  have hrg (o : Nat) : s.loadErr.rg o = ((s.setF Reg.CE_STATUS_LOAD_ERR 1).inc Reg.CE_FAILS).rg o := State.drivePins_rg _ o
  refine ⟨?_, ?_, ?_, ?_⟩
  · rw [State.on_congr (x := Reg.CE_STATUS_LOAD_ERR) ((hrg _).trans (State.rg_inc_of_ne _ (by decide)))]
    exact State.on_setF_one _ rfl (by decide)
  · rw [hrg, State.rg_inc_same, State.rg_setF_of_ne _ (by decide)]
  · rw [State.loadErr, State.drivePins_frame, State.inc_images, State.setF_images]
  · exact State.drivePins_sameArray (((SameArray.refl s).setF _ _).inc _)

/-- A commit with GO and no entry write in progress stores all eight records. -/
theorem State.autoCommit_of_idle (s : State) {v : Word} (hgo : bit v 31 = true) (hidle : s.store.writing = none) :
    s.autoCommit v = { s.plain Reg.CE_AUTO_COMMIT v with store := { s.store with
      autos := (List.range 8).map fun k => (k, [s.rg (Reg.CE_AUTO_CTRL k), s.rg (Reg.CE_AUTO_BASE_LO k), s.rg (Reg.CE_AUTO_BASE_HI k)])
      version := s.store.version + 1 } } := by
  have hrg {o : Nat} (ho : o ≠ Reg.CE_AUTO_COMMIT) : (s.plain Reg.CE_AUTO_COMMIT v).rg o = s.rg o := by rw [State.rg_plain, if_neg ho]
  have hrecs : ((List.range 8).map fun k => (k, [(s.plain Reg.CE_AUTO_COMMIT v).rg (Reg.CE_AUTO_CTRL k),
      (s.plain Reg.CE_AUTO_COMMIT v).rg (Reg.CE_AUTO_BASE_LO k), (s.plain Reg.CE_AUTO_COMMIT v).rg (Reg.CE_AUTO_BASE_HI k)])) =
      (List.range 8).map fun k => (k, [s.rg (Reg.CE_AUTO_CTRL k), s.rg (Reg.CE_AUTO_BASE_LO k), s.rg (Reg.CE_AUTO_BASE_HI k)]) := by
    refine List.map_congr_left fun k hk => ?_
    have hk := List.mem_range.1 hk
    rw [hrg (by simp only [Reg.CE_AUTO_CTRL, Reg.CE_AUTO_COMMIT]; omega), hrg (by simp only [Reg.CE_AUTO_BASE_LO, Reg.CE_AUTO_COMMIT]; omega),
      hrg (by simp only [Reg.CE_AUTO_BASE_HI, Reg.CE_AUTO_COMMIT]; omega)]
  unfold State.autoCommit
  dsimp only
  rw [hrecs, if_neg (by simp [hgo]), if_neg (by rw [State.plain_store, hidle]; decide), State.plain_store]

theorem tget_range'_map {α : Type} {d : α} (f : Nat → α) {n b k : Nat} (hb : b ≤ k) (hk : k < b + n) :
    tget d ((List.range' b n).map fun j => (j, f j)) k = f k := by
  induction n generalizing b with
  | zero => omega
  | succ n ih =>
    rw [List.range'_succ, List.map_cons, tget]
    by_cases h : b = k
    · rw [if_pos h, h]
    · rw [if_neg h, ih (by omega) (by omega)]

theorem tget_range_map {α : Type} {d : α} (f : Nat → α) {n k : Nat} (hk : k < n) : tget d ((List.range n).map fun j => (j, f j)) k = f k := by
  rw [List.range_eq_range']
  exact tget_range'_map f (Nat.zero_le k) (by omega)

/-- Settles O52: what is written lands in its plane or its registers, and what may not be is refused as its rule says. -/
theorem planesAreWrittenScrubbedAndMulticast : Obligations.PlanesAreWrittenScrubbedAndMulticast := by
  refine ⟨fun s n slot sect => ?load, fun s n p word => ?scrub, fun s v hopen => ?registers, fun s => ?timeout⟩
  case load =>
    intro p
    refine ⟨fun hnone => ?_, fun e hphase hevict hstage hfenced hawake hneed hfits hmissing => ?_⟩
    · refine congrArg Host.Outcome.next (if_pos ?_)
      simpa using hnone
    have hexec := exec_planeLoadDone_one hphase hevict hstage hfenced hawake hneed hfits hmissing
    refine ⟨fun q hfree hpre hstep => ?_, fun hfull hpre => ?_, fun id hfull hpre hdone htold hsect horigin hdesc => ?_⟩
    · have hspace : s.planeSpace n slot sect.toNat = some q := by rw [State.planeSpace, hfree]
      obtain ⟨hplane, hother, hcl, hdram, himages, hnet, hbytes, hrg⟩ := s.putPlane_spec n slot q e
      have hslot : (s.putPlane n slot q e).slot slot = s.slot slot := congrArg (fun x : ImageSt => tget noSlot x.slots slot) himages
      rw [hspace, Option.map_some, Option.getD_some, State.tryPreload_of_none (by rw [hslot]; exact hpre),
        State.tryBoundary_of_none (by rw [hnet]; exact hstep)] at hexec
      exact ⟨_, hexec, ⟨_, hplane⟩, hother, hcl, hdram, himages, hbytes, hrg⟩
    · rw [hfull, Option.map_none, Option.getD_none, State.preloadRefused_of_none hpre] at hexec
      exact hexec
    · rw [hfull, Option.map_none, Option.getD_none] at hexec
      obtain ⟨hended, hcount, harray, hphase', hrg⟩ := State.preloadRefused_spec hpre hdone htold hsect horigin hdesc
      exact ⟨_, hexec, hended, hcount, harray, hphase'.trans hphase, hrg⟩
  case scrub =>
    intro x
    refine ⟨fun ecc hnone => congrArg Host.Outcome.next (if_pos hnone), congrArg Host.Outcome.next (ite_self s), fun hst hfenced => ?_⟩
    have hgo : ¬ (x.st < 2 ∨ s.isFenced n = true) := by
      rw [hfenced]
      exact fun h => h.elim (Nat.not_lt.mpr hst) (by decide)
    refine ⟨congrArg Host.Outcome.next (if_neg hgo), fun hrewrite => ?_, fun hactive hessential => ?_⟩
    · have hexec : exec (.planeScrub n p word .uncorrectable) s = .next ((s.rewritePlane n p).inc Reg.CE_SCRUB_REPAIR) :=
        congrArg Host.Outcome.next ((if_neg hgo).trans (if_pos (by simpa using hrewrite)))
      have hcl (m : Nat) : ((s.rewritePlane n p).inc Reg.CE_SCRUB_REPAIR).cl m = if m = n.val then (s.cl n).setPlane p
          { x with words := tget x.words (s.slot x.slot).planes x.key } else s.cl m := by
        rw [State.inc_cl]
        exact s.cl_upCl m n _
      refine ⟨_, hexec, ?_, fun q hq => ?_, fun m hm => by rw [hcl, if_neg hm], ?_, fun o ho => ?_, rfl, rfl⟩
      · rw [hcl, if_pos rfl, ClusterSt.plane_setPlane, if_pos rfl]
      · rw [hcl, if_pos rfl, ClusterSt.plane_setPlane, if_neg hq]
      · rw [State.rg_inc_same]
        rfl
      · rw [State.rg_inc_of_ne _ (by simpa using ho)]
        rfl
    · have hexec : exec (.planeScrub n p word .uncorrectable) s =
          .next ((s.inc Reg.CE_SCRUB_FAULT).report (clusterStop n) 4 (p.val * 2 ^ 21 + word.val) false) :=
        congrArg Host.Outcome.next ((if_neg hgo).trans (if_neg (by simpa using ⟨hactive, hessential⟩)))
      exact ⟨_, hexec, rfl, s.rg_inc_same _, fun o ho => s.rg_inc_of_ne (by simpa using ho), rfl, rfl⟩
  case registers =>
    have hexec : exec (.mcTxArm v) s = .next (s.txWrite v) ∧ exec (.mcRxArm v) s = .next (s.rxWrite v) ∧
        exec (.ceAutoCommit v) s = .next (s.autoCommit v) :=
      ⟨congrArg Host.Outcome.next (State.hostWrite_of_open hopen _ _), congrArg Host.Outcome.next (State.hostWrite_of_open hopen _ _),
        congrArg Host.Outcome.next (State.hostWrite_of_open hopen _ _)⟩
    obtain ⟨htx, hrx, hauto⟩ := hexec
    refine ⟨fun hen harm => ?_, fun hgo => ?_, fun hen harm => ?_, fun hdisarm => ?_, fun hen harm => ?_, fun hgo => ?_, fun hgo hwriting => ?_,
      fun hgo hidle => ?_⟩
    · exact htx.trans (congrArg Host.Outcome.next (if_pos (by rw [hen, harm]; rfl)))
    · have hplain : s.txWrite v = s.plain Reg.CE_MC_TX v := if_neg (by rcases hgo with h | h <;> simp [h])
      exact ⟨_, htx.trans (congrArg Host.Outcome.next hplain), s.on_plain regMasks_mcTx v (k := 31) (by decide) (by decide),
        s.fd_plain regMasks_mcTx v (hi := 27) (lo := 16) (by decide) (by decide), s.fd_plain regMasks_mcTx v (hi := 9) (lo := 0) (by decide) (by decide),
        s.plain_onlyRegs _ v⟩
    · exact hrx.trans (congrArg Host.Outcome.next (if_pos (by rw [hen, harm]; rfl)))
    · have hplain : s.rxWrite v = s.plain Reg.CE_MC_RX_CTRL v := (if_neg (by simp [hdisarm])).trans (if_pos (by simp [hdisarm]))
      exact ⟨_, hrx.trans (congrArg Host.Outcome.next hplain), (s.on_plain regMasks_mcRxCtrl v (k := 31) (by decide) (by decide)).trans hdisarm,
        s.plain_onlyRegs _ v⟩
    · intro ok
      have hwrite := State.rxWrite_eq hen harm
      refine ⟨fun hbad => ?_, fun hok => ?_⟩
      · rw [if_pos hbad] at hwrite
        refine ⟨_, hrx.trans (congrArg Host.Outcome.next hwrite), ?_, ?_, ?_⟩
        · rw [State.on_setF_of_ne _ (by decide)]
          exact State.on_setF_zero _ rfl (by decide)
        · exact State.fd_setF_same _ (by decide) (by decide) 4
        · exact (((s.plain_onlyRegs Reg.CE_MC_RX_CTRL v).mono (by simp)).setF (by simp [Reg.CE_MC_RX_CTRL_EN]) _).setF (by simp [Reg.CE_MC_RX_STATUS_RESULT]) _
      · rw [if_neg (by rw [show (s.inWindow (bits v 29 24) s.rxAddr 1 && s.inWindow (bits v 29 24) s.rxBase 1) = true from hok]; decide)] at hwrite
        have hfd (x : Fld) (hx : x.off = Reg.CE_MC_RX_CTRL) : ((s.plain Reg.CE_MC_RX_CTRL v).wrg Reg.CE_MC_RX_BYTES 0).fd x =
            (s.plain Reg.CE_MC_RX_CTRL v).fd x := State.fd_congr (State.rg_wrg_of_ne _ (by rw [hx]; decide) _)
        refine ⟨_, hrx.trans (congrArg Host.Outcome.next hwrite), ?_, ?_, ?_, ?_, ?_, rfl, ⟨rfl, rfl⟩, fun o ho => ?_⟩
        · exact (congrArg (· == 1) (hfd Reg.CE_MC_RX_CTRL_EN rfl)).trans ((s.on_plain regMasks_mcRxCtrl v (k := 31) (by decide) (by decide)).trans harm)
        · exact (hfd Reg.CE_MC_RX_CTRL_OWNER rfl).trans (s.fd_plain regMasks_mcRxCtrl v (hi := 29) (lo := 24) (by decide) (by decide))
        · exact (hfd Reg.CE_MC_RX_CTRL_GROUP rfl).trans (s.fd_plain regMasks_mcRxCtrl v (hi := 23) (lo := 12) (by decide) (by decide))
        · exact (hfd Reg.CE_MC_RX_CTRL_SLOT rfl).trans (s.fd_plain regMasks_mcRxCtrl v (hi := 9) (lo := 0) (by decide) (by decide))
        · exact ((s.plain Reg.CE_MC_RX_CTRL v).rg_wrg Reg.CE_MC_RX_BYTES Reg.CE_MC_RX_BYTES 0).trans (if_pos rfl)
        · simp only [List.mem_cons, List.not_mem_nil, or_false, not_or] at ho
          refine ((s.plain Reg.CE_MC_RX_CTRL v).rg_wrg_of_ne ho.2 0).trans ?_
          rw [State.rg_plain, if_neg ho.1]
    · have hplain : s.autoCommit v = s.plain Reg.CE_AUTO_COMMIT v := if_pos (by simp [hgo])
      exact ⟨_, hauto.trans (congrArg Host.Outcome.next hplain), rfl, s.plain_onlyRegs _ v⟩
    · have hrefuse : s.autoCommit v = (s.plain Reg.CE_AUTO_COMMIT v).setF Reg.CE_AUTO_COMMIT_REFUSED 1 :=
        (if_neg (by simp [hgo])).trans (if_pos hwriting)
      exact ⟨_, hauto.trans (congrArg Host.Outcome.next hrefuse), State.on_setF_one _ rfl (by decide),
        (s.plain_onlyRegs _ v).setF (by simp [Reg.CE_AUTO_COMMIT_REFUSED]) _⟩
    · have hcommit := s.autoCommit_of_idle hgo hidle
      refine ⟨_, hauto.trans (congrArg Host.Outcome.next hcommit), fun k hk => ?_, rfl, rfl, ⟨rfl, rfl⟩, (s.plain_onlyRegs _ v).2⟩
      exact tget_range_map _ hk
  case timeout =>
    refine ⟨fun hnone => congrArg Host.Outcome.next (if_neg ?_), fun hen hseen hmissing hloading => ?_⟩
    · simp only [Bool.and_eq_true, Bool.not_eq_true', not_and]
      rcases hnone with h | h | h | h <;> simp [h]
    have hexec : exec .mcRxTimeout s = .next (s.loadErr.rxEnd 3 0) := congrArg Host.Outcome.next (if_pos (by simp [hen, hseen, hmissing, hloading]))
    obtain ⟨hctrl, hdone, hres, himages, harray, hrg⟩ := s.loadErr.rxEnd_spec (result := 3) (by decide) 0
    obtain ⟨herr, hfails, herrImages, herrArray⟩ := s.loadErr_spec
    refine ⟨_, hexec, hctrl, hdone, hres, ?_, ?_, himages.trans herrImages, herrArray.trans harray⟩
    · exact (State.on_congr (x := Reg.CE_STATUS_LOAD_ERR) (hrg _ (by decide) (by decide) (by decide))).trans herr
    · exact (hrg _ (by decide) (by decide) (by decide)).trans hfails

end Sys2Proof.Machine

/-! ## Steps: their start, their release, their commit and their replay (R314, R421, R560 to R562) -/

namespace Sys2Proof.Machine

/-! ### What writes to DRAM leave of the network's state -/

theorem State.wrBytes_net (s : State) (a : Nat) (bs : List Byte) : (s.wrBytes a bs).net = s.net := by
  induction bs generalizing s a with
  | nil => rfl
  | cons b bs ih => exact (ih (s.wrB a b) (a + 1)).trans (by rw [State.wrB_eq])

theorem State.wrWords_net (s : State) (a : Nat) (ws : List Word) : (s.wrWords a ws).net = s.net := by
  induction ws generalizing s a with
  | nil => rfl
  | cons w ws ih => exact (ih _ _).trans (s.wrBytes_net _ _)

theorem State.putJournalHeader_net (s : State) (x : StepSt) : (s.putJournalHeader x).net = s.net := s.wrWords_net _ _

theorem State.wrBytes_regs (s : State) (a : Nat) (bs : List Byte) : (s.wrBytes a bs).regs = s.regs := by
  induction bs generalizing s a with
  | nil => rfl
  | cons b bs ih => exact (ih (s.wrB a b) (a + 1)).trans (by rw [State.wrB_eq])

theorem State.wrWords_regs (s : State) (a : Nat) (ws : List Word) : (s.wrWords a ws).regs = s.regs := by
  induction ws generalizing s a with
  | nil => rfl
  | cons w ws ih => exact (ih _ _).trans (s.wrBytes_regs _ _)

theorem State.putJournalHeader_rg (s : State) (x : StepSt) (o : Nat) : (s.putJournalHeader x).rg o = s.rg o :=
  congrArg (tget (regReset o) · o) (s.wrWords_regs _ _)

/-! ### The start of a step (R421, R314) -/

/-- The next step of a slot, as its start makes it. -/
structure StartedStep (s : State) (slot : Nat) (t : State) (x : StepSt) : Prop where
  step : t.net.step = some x
  ofSlot : x.slot = slot
  number : x.number = s.net.stepCount + 1
  attempt : x.attempt = s.net.attemptNo + 1
  sect : x.sect = (s.slot slot).firstSect
  fresh : x.released = [] ∧ x.arrived = [] ∧ x.committed = false ∧ x.journal = 0
  stepCount : t.net.stepCount = x.number
  attemptNo : t.net.attemptNo = x.attempt

/-- A command that leads to the started step. -/
theorem StartedStep.after {c : Instr} {s v w : State} {slot : Nat} {x : StepSt} (h : StartedStep v slot w x) (hexec : exec c s = .next w) :
    After c s fun t => ∃ x, t.net.step = some x ∧ x.slot = slot ∧ x.number = v.net.stepCount + 1 ∧ x.attempt = v.net.attemptNo + 1 ∧
      x.sect = (v.slot slot).firstSect ∧ x.released = [] ∧ x.arrived = [] ∧ x.committed = false ∧ x.journal = 0 ∧ t.net.stepCount = x.number ∧
      t.net.attemptNo = x.attempt := by
  obtain ⟨hreleased, harrived, hcommitted, hjournal⟩ := h.fresh
  exact ⟨w, hexec, x, h.step, h.ofSlot, h.number, h.attempt, h.sect, hreleased, harrived, hcommitted, hjournal, h.stepCount, h.attemptNo⟩

theorem State.beginStep_started (s : State) {slot : Nat} (h : ∀ e ∈ s.links.refused, e.1 ≠ slot) : ∃ x, StartedStep s slot (s.beginStep slot false) x := by
  have hnone : (s.links.refused.any fun e => e.1 == slot) = false := by
    rw [List.any_eq_false]
    intro e he
    simpa using h e he
  unfold State.beginStep
  dsimp only
  rw [hnone, if_neg (by decide)]
  have hnet (t : State) (x : StepSt) : (t.putJournalHeader x).net = t.net := t.putJournalHeader_net x
  exact ⟨_, (congrArg NetSt.step (hnet _ _)).trans rfl, rfl, rfl, rfl, rfl, ⟨rfl, rfl, rfl, rfl⟩, (congrArg NetSt.stepCount (hnet _ _)).trans rfl,
    (congrArg NetSt.attemptNo (hnet _ _)).trans rfl⟩

theorem State.tryStep_started (s : State) {slot : Nat} (hbatch : s.batch slot ≠ [])
    (hready : ∀ r ∈ s.startRanges slot (s.batch slot), s.rangeReady r.1 r.2 = true) (h : ∀ e ∈ s.links.refused, e.1 ≠ slot) :
    ∃ x, StartedStep s slot (s.tryStep slot false) x := by
  have hbegin : s.tryStep slot false = s.beginStep slot false :=
    (if_neg (by simpa using hbatch)).trans (if_pos (by rw [List.all_eq_true]; exact hready))
  rw [hbegin]
  exact s.beginStep_started h

/-- Once a START_STEP firing has had its step, it is consumed: nothing else of the step differs. -/
theorem StartedStep.gate {s t : State} {slot : Nat} {x : StepSt} (h : StartedStep s slot t x) (p : Bool) :
    StartedStep s slot (if p then { t with net := { t.net with gateStep := false } } else t) x := by
  cases p with
  | false => exact h
  | true => exact ⟨h.step, h.ofSlot, h.number, h.attempt, h.sect, h.fresh, h.stepCount, h.attemptNo⟩

/-- The slot that is chosen steps, once its sequences have joined. -/
theorem exec_stepBarrierRelease_chosen {s : State} {slot : Nat} (hstep : s.net.step = none) (hheld : s.stepsHeld = false)
    (hrestart : s.net.restart = none) (hgated : s.stepGated = false)
    (hchoose : s.chooseSlot (s.workSlots.filter fun n => s.gateMet (s.slot n).inst) = some slot) {v : State}
    (hv : (s.gateEnd (s.slot slot).inst).each ((s.gateEnd (s.slot slot).inst).joinOrder slot) (fun u id => u.joinOne slot id) = v) :
    exec .stepBarrierRelease s = .next (if (v.tryStep slot false).net.step.isSome && v.stepGated then
      { v.tryStep slot false with net := { (v.tryStep slot false).net with gateStep := false } } else v.tryStep slot false) := by
  change execStepBarrierRelease s = _
  refine congrArg Host.Outcome.next ((if_neg (by simp [hstep, hheld])).trans ?_)
  simp only [hrestart]
  refine (if_neg (by simp [hgated])).trans ?_
  simp only [hchoose, hv]

/-! ### The release that reaches a cluster (R314) -/

/-- Besides registers and the mark of a bank's migration of cluster n, nothing differs: what a release does before it starts the cluster. -/
def Restarted (s t : State) (n : Nat) : Prop :=
  t.net = s.net ∧ t.dram = s.dram ∧ (∀ m, m ≠ n → t.cl m = s.cl m) ∧ ∃ mig, t.cl n = { s.cl n with migrating := mig }

theorem Restarted.refl (s : State) (n : Nat) : Restarted s s n := ⟨rfl, rfl, fun _ _ => rfl, _, rfl⟩

theorem Restarted.trans {s t u : State} {n : Nat} (h : Restarted s t n) (k : Restarted t u n) : Restarted s u n := by
  obtain ⟨hnet, hdram, hcl, mig, hmig⟩ := h
  obtain ⟨knet, kdram, kcl, mig', kmig⟩ := k
  exact ⟨knet.trans hnet, kdram.trans hdram, fun m hm => (kcl m hm).trans (hcl m hm), mig', by rw [kmig, hmig]⟩

theorem Restarted.each {α : Type} (s : State) (n : Nat) (l : List α) {f : State → α → State} (hf : ∀ u x, Restarted u (f u x) n) :
    Restarted s (s.each l f) n := by
  induction l generalizing s with
  | nil => exact .refl s n
  | cons x l ih => exact (hf s x).trans (ih (f s x))

theorem State.setCc_restarted (s : State) (m i v src n : Nat) : Restarted s (s.setCc m i v src) n :=
  ⟨s.setCc_net .., s.setCc_dram .., fun _ _ => s.setCc_cl .., _, s.setCc_cl ..⟩

theorem State.setF_restarted (s : State) (x : Fld) (k n : Nat) : Restarted s (s.setF x k) n := ⟨rfl, rfl, fun _ _ => rfl, _, rfl⟩

theorem State.bankSwitch_restarted (s : State) (n : Nat) : Restarted s (s.bankSwitch n) n := by
  unfold State.bankSwitch
  split
  · have hmark : Restarted s (s.upCl n fun c => { c with migrating := none }) n :=
      ⟨rfl, rfl, fun m hm => (s.cl_upCl m n _).trans (if_neg hm), none, s.cl_upCl_same n _⟩
    exact (((hmark.trans (State.setF_restarted ..)).trans (State.setF_restarted ..)).trans (State.setF_restarted ..)).trans (State.setF_restarted ..)
  · exact .refl s n

theorem ClusterSt.planesOf_congr {c d : ClusterSt} (h : d.planes = c.planes) (slot sect : Nat) (sts : List Nat) :
    d.planesOf slot sect sts = c.planesOf slot sect sts := by
  unfold ClusterSt.planesOf ClusterSt.plane
  rw [h]

/-- What the release of step x sets in a cluster. -/
def ClusterSt.released (c : ClusterSt) (x : StepSt) (base : Table Nat) (bucket : Nat) (strict : Bool) : ClusterSt :=
  { c with
    heldUpd := [], base := base, step := x.number, attempt := x.attempt, arrived := false, stopped := false, switch := none
    bucket := some bucket, strict := strict }

/-- A plane switch is ordered. -/
def ClusterSt.withSwitch (c : ClusterSt) (w : PlaneSwitch) : ClusterSt := { c with switch := some w }

/-- A cluster that the release of the step in progress reaches, where the section's planes are not ACTIVE or may not start yet. -/
theorem exec_stepReleaseArrive_switches {s : State} {n : Fin 576} {x : StepSt} (hstep : s.net.step = some x)
    (hnew : x.released.contains n.val = false) (hreplay : x.replaying = false) (hfenced : s.isFenced n = false) (hfault : (s.cl n).mxuFault = false)
    (hwait : (s.cl n).planesOf x.slot x.sect [3] = [] ∨ s.startable x.slot x.sect = false) :
    ∃ (u : State) (base : Table Nat) (bucket : Nat) (strict : Bool), Restarted (s.setStep (some { x with released := x.released ++ [n.val] })) u n ∧
      exec (.stepReleaseArrive n) s = .next ((u.upCl n fun c => c.released x base bucket strict).upCl n fun c =>
        c.withSwitch ⟨x.slot, x.sect, x.inst, false, false⟩) := by
  change ∃ (u : State) (base : Table Nat) (bucket : Nat) (strict : Bool), _ ∧ execStepReleaseArrive n s = _
  unfold execStepReleaseArrive State.restartCounters
  simp only [hstep]
  rw [if_neg (by simp only [hnew, hreplay, hfenced, hfault]; decide)]
  have hcounters := Restarted.each (s.setStep (some { x with released := x.released ++ [n.val] })) n.val
    (((s.setStep (some { x with released := x.released ++ [n.val] })).cl n).stepCounters x.slot) (f := fun t i => t.setCc n i 0 0)
    fun u i => u.setCc_restarted n i 0 0 n
  generalize State.each (s.setStep _) _ _ = t at hcounters ⊢
  have hheld := hcounters.trans (Restarted.each t n.val (s.cl n).heldUpd
    (f := fun u e => u.setCc n e.1 (max (u.cc n e.1) (e.2 / 2 ^ 16)) (e.2 % 2 ^ 16)) fun u e => u.setCc_restarted ..)
  generalize State.each t _ _ = v at hheld ⊢
  have hbank := hheld.trans (v.bankSwitch_restarted n)
  generalize v.bankSwitch n = u at hbank ⊢
  refine ⟨u, _, _, _, hbank, if_pos ?_⟩
  obtain ⟨-, -, -, mig, hmig⟩ := hbank
  have hplanes : (u.cl n).planes = (s.cl n).planes := by rw [hmig, State.setStep_cl]
  rw [State.cl_upCl_same]
  refine (congrArg (fun l : List Nat => l.isEmpty || ! s.startable x.slot x.sect) (ClusterSt.planesOf_congr (c := s.cl n) hplanes x.slot x.sect [3])).trans ?_
  rcases hwait with h | h <;> simp [h]

/-! ### The commit (R560) -/

theorem State.regrant_net (s : State) : s.regrant.net = s.net := by
  have heach (l : List Nat) (t : State) (f : State → Nat → State) (hf : ∀ u d, (f u d).net = u.net) : (t.each l f).net = t.net := by
    induction l generalizing t with
    | nil => rfl
    | cons d l ih => exact (ih (f t d)).trans (hf t d)
  unfold State.regrant
  refine (heach _ _ _ fun u d => ?_).trans ?_
  · split
    · rfl
    · rw [State.emit_eq]
      rfl
  · rw [State.setF_net, State.setPower_net]

theorem State.powerEvent_net (s : State) (x : Fld) : (s.powerEvent x).net = s.net := by
  obtain ⟨more, heq⟩ := (s.setF x 1).irq_eq 4
  rw [State.powerEvent, heq, State.sent, State.setF_net, State.setF_net]

theorem State.formDebt_net (s : State) : s.formDebt.net = s.net := by
  unfold State.formDebt
  rw [State.wrg_net, State.setPower_net]

/-- The step boundary's bookkeeping of power leaves the network's state. -/
theorem State.powerBoundary_net (s : State) : s.powerBoundary.net = s.net := by
  have hcond : (s.cond s.power.broken fun u => (u.inc Reg.FIXED_BROKEN).powerEvent Reg.PWR_EVENTS_FIXED_BROKEN).net = s.net := by
    unfold State.cond
    split
    · rw [State.powerEvent_net, State.inc_net]
    · rfl
  unfold State.powerBoundary
  dsimp only
  generalize s.cond _ _ = t at hcond ⊢
  split
  · rfl
  · split
    · rw [State.regrant_net, State.wrg_net, State.setPower_net, hcond]
    · split
      · rw [State.regrant_net, State.wrg_net, State.setPower_net, hcond]
      · rw [State.setPower_net, State.formDebt_net, hcond]

/-- The commit point marks the step committed, and nothing staged is left. -/
theorem State.commitPoint_step (s : State) {x : StepSt} (h : x.staged = []) :
    (s.commitPoint x).net.step = some { x with committed := true, staged := [] } := by
  generalize hy : ({ x with committed := true, staged := [] } : StepSt) = y
  have hheader : ((s.setStep (some y)).putJournalHeader y).net.step = some y := by rw [State.putJournalHeader_net, State.setStep_step]
  unfold State.commitPoint
  dsimp only
  rw [h, hy]
  generalize (s.setStep (some y)).putJournalHeader y = t at hheader ⊢
  have hgate : (if t.on (Reg.XCH_GATE_CTRL_EN x.inst) then t.inc (Reg.XCH_GATE_STEPS x.inst) else t).net.step = some y := by
    split
    · rw [State.inc_net, hheader]
    · exact hheader
  exact hgate

/-! ### Replay (R561) -/

/-- The state from which a replay waits for its repairs. -/
def State.replayed (s : State) (x : StepSt) : State :=
  { s with
    clusters := s.clusters.map fun e => (e.1, { e.2.stopStep.restartUnits with attempt := s.net.attemptNo + 1, heldUpd := [], arrived := false, switch := none })
    barriers := s.barriers.map fun e => (e.1, { e.2 with arrived := [] })
    mem := { s.mem with waiting := s.mem.waiting.filter fun w => ! (w.write && stopKind w.requester == 0) }
    links := { s.links with egress := s.links.egress.filter fun r => match r.use with | .advance .. => true | _ => false }
    net := { s.net with
      attemptNo := s.net.attemptNo + 1
      step := some { x with
        attempt := s.net.attemptNo + 1, attempts := x.attempts + 1, replayDue := false, replaying := true, staged := [], arrived := [] } } }

theorem exec_stepReplay_due {s : State} {x : StepSt} (hstep : s.net.step = some x) (hdue : x.replayDue = true) (hcommitted : x.committed = false)
    (hreplaying : x.replaying = false) (hattempts : x.attempts < 16) : exec .stepReplay s = .next (s.replayed x) := by
  have hclusters : (s.stopClusters.endEpisodes.clusters.map fun e : Nat × ClusterSt =>
      (e.1, { e.2 with attempt := s.net.attemptNo + 1, heldUpd := [], arrived := false, switch := none })) = (s.replayed x).clusters := by
    simp only [State.stopClusters, State.endEpisodes, State.replayed, List.map_map]
    rfl
  change execStepReplay s = _
  refine congrArg Host.Outcome.next ?_
  simp only [hstep]
  refine (if_neg (by simp [hdue, hcommitted])).trans ((if_neg (by simp [hreplaying])).trans ((if_neg (Nat.not_le.mpr hattempts)).trans ?_))
  rw [hclusters]
  rfl

/-- A step that restarts: its count advances, and it runs from its first section with an empty journal. -/
theorem State.restartStep_spec (s : State) (x : StepSt) : (s.restartStep x).rg Reg.FH_REPLAYS = s.rg Reg.FH_REPLAYS + 1 ∧
    ∃ y, (s.restartStep x).net.step = some y ∧ y.replaying = false ∧ y.released = [] ∧ y.arrived = [] ∧ y.journal = 0 ∧ y.attempt = x.attempt ∧
      y.number = x.number := by
  have hrg (l : List Nat) (t : State) (f : State → Nat → State) (hf : ∀ u i, (f u i).regs = u.regs) : (t.each l f).regs = t.regs := by
    induction l generalizing t with
    | nil => rfl
    | cons i l ih => exact (ih (f t i)).trans (hf t i)
  have hcount := hrg x.seqIds s (fun u id => u.setSeq id { u.seq id with replay := (u.seq id).replay + 1 }) fun _ _ => rfl
  unfold State.restartStep
  dsimp only
  generalize s.each _ _ = t at hcount ⊢
  refine ⟨?_, _, (congrArg NetSt.step (State.putJournalHeader_net ..)).trans rfl, rfl, rfl, rfl, rfl, rfl, rfl⟩
  rw [State.putJournalHeader_rg]
  exact (t.rg_inc_same _).trans (congrArg (tget (regReset Reg.FH_REPLAYS) · Reg.FH_REPLAYS + 1) hcount)

/-- Settles O41: each command of a step takes it one stage further where its conditions hold, and passes where they do not. -/
theorem stepsBeginReplayAndCommit : Obligations.StepsBeginReplayAndCommit := by
  refine ⟨?begins, fun s h => ?held, ?arrive, fun s n h => ?noStep, fun s h => ?notReady, fun s x hstep hcommitted hworked hcasts => ?ends,
    fun s x hstep hcommitted hready hstaged hworked hremote => ?point, fun s x hstep hdue hcommitted hreplaying hattempts => ?replay,
    fun s x hstep h => ?noReplay, fun s x hstep hreplaying hdone hsame => ?restart, fun s x hstep h => ?noRestart⟩
  case begins =>
    intro s slot hstep hheld hrestart hgated hchoose u v hbatch hready hrefused
    obtain ⟨x, hx⟩ := v.tryStep_started hbatch hready hrefused
    have hexec := exec_stepBarrierRelease_chosen hstep hheld hrestart hgated hchoose (v := v) rfl
    exact (hx.gate ((v.tryStep slot false).net.step.isSome && v.stepGated)).after hexec
  case held => exact congrArg Host.Outcome.next (if_pos (by rcases h with h | h <;> simp [h]))
  case arrive =>
    intro s n x hstep hnew hreplay hfenced hfault hwait
    obtain ⟨u, base, bucket, strict, ⟨hnet, hdram, hcl, mig, hmig⟩, hexec⟩ := exec_stepReleaseArrive_switches hstep hnew hreplay hfenced hfault hwait
    refine ⟨_, hexec, ?_, ?_, ?_, ?_, ?_, ?_, ?_, fun a => ?_, fun m hm => ?_⟩
    · rw [State.upCl_net, State.upCl_net, hnet, State.setStep_step]
    · rw [State.cl_upCl_same, State.cl_upCl_same]; rfl
    · rw [State.cl_upCl_same, State.cl_upCl_same]; rfl
    · rw [State.cl_upCl_same, State.cl_upCl_same]; rfl
    · rw [State.cl_upCl_same, State.cl_upCl_same]; rfl
    · rw [State.cl_upCl_same, State.cl_upCl_same]; rfl
    · rw [State.cl_upCl_same, State.cl_upCl_same]; rfl
    · rw [State.upCl_rdB, State.upCl_rdB]
      exact congrArg (tget 0#8 · a) hdram
    · rw [State.cl_upCl, if_neg hm, State.cl_upCl, if_neg hm, hcl m hm, State.setStep_cl]
  case noStep =>
    change execStepReleaseArrive n s = _
    rw [execStepReleaseArrive, h]
  case notReady =>
    refine congrArg Host.Outcome.next ?_
    rcases h with h | ⟨x, hx, hcommitted, hworked, hready⟩
    · simp only [h]
    · simp only [hx, hcommitted, hworked, hready, Bool.and_false, Bool.false_and, Bool.false_eq_true, if_false]
  case ends =>
    have hnone : (s.links.casts.any fun e => e.2.commit) = false := by
      rw [List.any_eq_false]
      intro e he
      rw [hcasts e he]
      decide
    have hexec : exec .stepCommit s = .next (s.commitEnd x) := by
      refine congrArg Host.Outcome.next ?_
      simp only [hstep, hcommitted, hworked, Bool.not_true, Bool.and_false, Bool.false_and, Bool.false_eq_true, if_false, hnone, Bool.not_false,
        Bool.and_true, if_true]
    refine ⟨_, hexec, ?_⟩
    dsimp only
    rw [State.commitEnd, State.powerBoundary_net, State.setStep_step]
  case point =>
    have hpoint := s.commitPoint_step hstaged
    have hexec : exec .stepCommit s = .next (s.commitPoint x) := by
      have hremote' : x.remoteWait.isEmpty = false := by simpa using hremote
      refine congrArg Host.Outcome.next ?_
      simp only [hstep, hcommitted, hready, Bool.not_false, Bool.and_self, if_true, hpoint, hworked, hremote', Bool.and_false, Bool.false_and,
        Bool.false_eq_true, if_false]
    exact ⟨_, hexec, _, hpoint, rfl, hworked, rfl⟩
  case replay =>
    refine ⟨_, exec_stepReplay_due hstep hdue hcommitted hreplaying hattempts, rfl, rfl, fun e he => ?_, fun e he => ?_, rfl, rfl, rfl⟩
    · obtain ⟨d, -, rfl⟩ := List.mem_map.1 he
      exact ⟨rfl, rfl⟩
    · obtain ⟨d, -, rfl⟩ := List.mem_map.1 he
      rfl
  case noReplay =>
    refine congrArg Host.Outcome.next ?_
    simp only [hstep]
    exact if_pos (by rcases h with h | h <;> simp [h])
  case restart =>
    have hexec : exec .replayRestart s = .next (s.rollback.restartStep x) := by
      refine congrArg Host.Outcome.next ?_
      simp only [hstep]
      exact (if_neg (by simp [hreplaying, hdone])).trans (if_neg (not_not_intro hsame))
    exact ⟨_, hexec, s.rollback.restartStep_spec x⟩
  case noRestart =>
    refine congrArg Host.Outcome.next ?_
    simp only [hstep]
    exact if_pos (by rcases h with h | h <;> simp [h])

end Sys2Proof.Machine

/-! ## What packets that leave by the Flarid links change, and the outcome of a load (R449, R534, R539) -/

namespace Sys2Proof.Machine

/-! ### Packets out -/

/-- The registers that a packet's way out may write: the event record, counts and events of the ports, and what a delivery to some receivers marks. -/
def LinkReg (o : Nat) : Prop :=
  EventReg o ∨ (0x80000 ≤ o ∧ o < 0x90000) ∨ o = Reg.CE_MC_TX ∨ 0x210000 ≤ o ∨ (0x200000 ≤ o ∧ 8 ≤ o % 0x1000)

/-- Between s and t packets left or were dropped: links, reports, what is sent and registers of `LinkReg` differ. -/
structure PacketsOut (s t : State) : Prop where
  rest : t = { s with
    freeCount := t.freeCount, outbox := t.outbox, regs := t.regs, links := t.links
    repair := { s.repair with inFlight := t.repair.inFlight, limited := t.repair.limited }
    pins := { s.pins with alertN := t.pins.alertN, loadErrN := t.pins.loadErrN } }
  rg : ∀ o, ¬ LinkReg o → t.rg o = s.rg o

section
variable {s t u : State}

theorem PacketsOut.refl (s : State) : PacketsOut s s := ⟨rfl, fun _ _ => rfl⟩

theorem PacketsOut.trans (h : PacketsOut s t) (k : PacketsOut t u) : PacketsOut s u := by
  refine ⟨?_, fun o ho => (k.rg o ho).trans (h.rg o ho)⟩
  have h₁ := h.rest
  have h₂ := k.rest
  rw [h₂, h₁]

theorem PacketsOut.of_reports {W : Nat → Prop} (h : Reports W s t) (hW : ∀ o, W o → LinkReg o) : PacketsOut s t := by
  refine ⟨?_, fun o ho => h.regs o fun hw => ho (hW o hw)⟩
  have hrest := h.rest
  rw [hrest]

theorem PacketsOut.ite {p : Prop} [Decidable p] (ht : PacketsOut s t) (hu : PacketsOut s u) : PacketsOut s (if p then t else u) := by
  split
  · exact ht
  · exact hu

theorem PacketsOut.cond (h : PacketsOut s t) (c : Bool) {f : State → State} (hf : PacketsOut t (f t)) : PacketsOut s (t.cond c f) :=
  (h.trans hf).ite h

theorem PacketsOut.images (h : PacketsOut s t) : t.images = s.images := by rw [h.rest]
theorem PacketsOut.host (h : PacketsOut s t) : t.host = s.host := by rw [h.rest]
theorem PacketsOut.sameArray (h : PacketsOut s t) : SameArray s t := by rw [h.rest]; exact ⟨rfl, rfl⟩

variable (s)

theorem State.wrg_packetsOut {o : Nat} (h : LinkReg o) (v : Word) : PacketsOut s (s.wrg o v) :=
  .of_reports ((Reports.refl (W := LinkReg) s).wrg h v) fun _ => id
theorem State.setF_packetsOut {x : Fld} (h : LinkReg x.off) (k : Nat) : PacketsOut s (s.setF x k) := s.wrg_packetsOut h _
theorem State.inc_packetsOut {o : Nat} (h : LinkReg o) : PacketsOut s (s.inc o) := s.wrg_packetsOut h _
theorem State.emit_packetsOut (o : Output) : PacketsOut s (s.emit o) := .of_reports ((Reports.refl (W := LinkReg) s).emit o) fun _ => id
theorem State.irq_packetsOut (k : Nat) : PacketsOut s (s.irq k) := by
  have hevents : Reports EventReg s (s.irq k) := (Reports.refl s).irq (.inr (.inr (.inl rfl))) k
  exact .of_reports hevents fun _ => .inl
theorem State.setLinks_packetsOut (x : LinkSt) : PacketsOut s { s with links := x } := ⟨rfl, fun _ _ => rfl⟩

theorem State.postOpen_packetsOut (cls : Nat) (stop : Option Nat) (owner : Option (Nat × Nat)) : PacketsOut s (s.postOpen cls stop owner) := by
  have hfree : Reports EventReg s s.free.2.free.2 := (Reports.refl s).free.free
  have hpost (t : State) (unit st detail : Nat) (h : Reports EventReg s t) : PacketsOut s (t.post cls unit st 0 detail owner none) :=
    .of_reports (h.trans (t.post_reports ..)) fun _ => .inl
  exact hpost _ _ _ _ hfree

theorem State.limit10_packetsOut (key : Nat) {f : State → State} (hf : ∀ u, PacketsOut u (f u)) : PacketsOut s (s.limit10 key f) := by
  have hlimited : PacketsOut s { s with repair := { s.repair with limited := tput s.repair.limited key s.clk } } := ⟨rfl, fun _ _ => rfl⟩
  unfold State.limit10
  split
  · exact (PacketsOut.refl s).ite (hlimited.trans (hf _))
  · exact hlimited.trans (hf _)

theorem State.partReject_packetsOut (q : Nat) : PacketsOut s (s.partReject q) := by
  have hcount : LinkReg (Reg.FL_PKEY_REJECTS q) := .inr (.inr (.inr (.inr (by simp only [Reg.FL_PKEY_REJECTS]; omega))))
  exact (s.inc_packetsOut hcount).trans (State.limit10_packetsOut _ _ fun u => u.postOpen_packetsOut ..)

theorem State.depart_packetsOut (q : Nat) (p : FlPacket) : PacketsOut s (s.depart q p) := by
  have hmarked : LinkReg (Reg.FL_MARKED q) := .inr (.inr (.inr (.inr (by simp only [Reg.FL_MARKED]; omega))))
  have hport (x : PortSt) : PacketsOut s (s.setPort q x) := s.setLinks_packetsOut _
  unfold State.depart State.launch
  exact PacketsOut.ite (((hport _).cond _ (State.inc_packetsOut _ hmarked)).trans (State.emit_packetsOut _ _)) (hport _)

theorem State.answer_packetsOut (r : FlPacket) : PacketsOut s (s.answer r) :=
  (PacketsOut.refl s).ite ((s.partReject_packetsOut _).ite (s.depart_packetsOut _ _))

theorem State.sendOwn_packetsOut (dst argLo argHi origin tag : Nat) : PacketsOut s (s.sendOwn dst argLo argHi origin tag) := by
  unfold State.sendOwn
  split
  · exact .refl s
  · exact (PacketsOut.refl s).ite (s.answer_packetsOut _)

theorem State.partialRecord_packetsOut (q group pkg : Nat) : PacketsOut s (s.partialRecord q group pkg) := by
  have hlink {o : Nat} (h : 0x210000 ≤ o) : LinkReg o := .inr (.inr (.inr (.inl h)))
  unfold State.partialRecord State.flEvent
  refine ((((PacketsOut.trans ?_ (State.setF_packetsOut _ ?_ _)).trans (State.setF_packetsOut _ ?_ _)).trans (State.setF_packetsOut _ ?_ _)).trans
    (State.setF_packetsOut _ ?_ _)).trans (State.irq_packetsOut _ _)
  · exact s.inc_packetsOut (hlink (by decide))
  all_goals exact hlink (by decide)

theorem State.partialEngine_packetsOut (tag port pkg : Nat) : PacketsOut s (s.partialEngine tag port pkg) := by
  unfold State.partialEngine
  split
  · next htag =>
    have hstatus : LinkReg (Reg.XCH_BC_STATUS tag) := .inr (.inl (by simp only [Reg.XCH_BC_STATUS]; omega))
    exact ((s.setF_packetsOut (x := Reg.XCH_BC_STATUS_PARTIAL tag) hstatus 1).trans (State.setF_packetsOut _ (x := Reg.XCH_BC_STATUS_PORT tag) hstatus _)).trans
      (State.setF_packetsOut _ (x := Reg.XCH_BC_STATUS_PKG tag) hstatus _)
  · exact PacketsOut.ite (s.setF_packetsOut (.inr (.inr (.inl rfl))) 1) (.refl s)

theorem State.branch_packetsOut (p : FlPacket) (q : Nat) : PacketsOut s (s.branch p q) := by
  have hdrop : PacketsOut s (s.dropBranch q p) :=
    (s.partialRecord_packetsOut _ _ _).trans (PacketsOut.ite (State.partialEngine_packetsOut _ _ _ _) (State.sendOwn_packetsOut _ _ _ _ _ _))
  exact hdrop.ite ((s.partReject_packetsOut q).ite (s.depart_packetsOut q p))

theorem PacketsOut.each {α : Type} (l : List α) {f : State → α → State} (hf : ∀ u x, PacketsOut u (f u x)) : PacketsOut s (s.each l f) := by
  induction l generalizing s with
  | nil => exact .refl s
  | cons x l ih => exact (hf s x).trans (ih (f s x))

theorem State.replicate_packetsOut (arrival : Option Nat) (p : FlPacket) : PacketsOut s (s.replicate arrival p) := by
  unfold State.replicate
  split
  · exact .refl s
  · exact (PacketsOut.refl s).ite ((s.inc_packetsOut (.inr (.inr (.inr (.inl (by decide)))))).ite (.each s _ fun u q => u.branch_packetsOut p q))

theorem State.imageSend_packetsOut (i off f : Nat) (bs : List Byte) : PacketsOut s (s.imageSend i off f bs) := by
  induction f generalizing s off bs with
  | zero => exact .refl s
  | succ f ih =>
    exact (PacketsOut.refl s).ite (((s.setLinks_packetsOut _).trans (State.replicate_packetsOut _ _ _)).trans (ih _ _ _))

theorem State.txImage_packetsOut (n i off : Nat) (bs : List Byte) : PacketsOut s (s.txImage n i off bs) :=
  PacketsOut.ite (s.imageSend_packetsOut _ _ _ _) (.refl s)

end

/-! ### The outcome of a load (R539) -/

/-- What a failure notes before it is told: the detail, the slot, and for the contents of an image LOAD_ERR. -/
def State.failNoted (s : State) (n detail : Nat) (err : Bool) : State :=
  ((s.setF Reg.CE_STATUS_LAST_DETAIL detail).setF Reg.CE_STATUS_LAST_SLOT n).cond err State.loadErr

/-- A failure is a fault of the image's contents, or one of what nobody waits for but a register. -/
def ProgSlot.failShows (p : ProgSlot) (detail : Nat) : Bool :=
  [4, 11, 17].contains detail || decide (2 ≤ p.origin) || (p.origin == 1 && ! (detail == 14 || detail == 16))

theorem State.loadFailed_eq (s : State) (n : Nat) (p : ProgSlot) (status detail : Nat) :
    s.loadFailed n p status detail = (s.failNoted n detail (p.failShows detail)).tellLoad p status detail := rfl

theorem State.loadErr_rg (s : State) {o : Nat} (hstatus : o ≠ Reg.CE_STATUS) (hfails : o ≠ Reg.CE_FAILS) : s.loadErr.rg o = s.rg o := by
  rw [State.loadErr, State.drivePins_rg, State.rg_inc_of_ne _ hfails, State.rg_setF_of_ne _ (by exact hstatus)]

theorem State.loadErr_rest (s : State) : s.loadErr = { s with regs := s.loadErr.regs, pins := s.loadErr.pins } := by
  rw [State.loadErr, State.drivePins_frame]
  rfl

theorem State.loadErr_fd (s : State) {x : Fld} (hoff : x.off = Reg.CE_STATUS) (hhi : x.hi < 31) (hx : x.lo ≤ x.hi) : s.loadErr.fd x = s.fd x := by
  have hrg : s.loadErr.rg x.off = (s.setF Reg.CE_STATUS_LOAD_ERR 1).rg x.off := by
    rw [State.loadErr, State.drivePins_rg, State.rg_inc_of_ne _ (by rw [hoff]; decide)]
  exact (State.fd_congr hrg).trans (s.fd_setF_apart (x := Reg.CE_STATUS_LOAD_ERR) hoff (.inr hhi) (by decide) hx 1)

theorem State.failNoted_rest (s : State) (n detail : Nat) (err : Bool) :
    s.failNoted n detail err = { s with regs := (s.failNoted n detail err).regs, pins := (s.failNoted n detail err).pins } := by
  unfold State.failNoted State.cond
  split
  · rw [State.loadErr_rest]
    rfl
  · rfl

theorem State.failNoted_rg (s : State) (n detail : Nat) (err : Bool) {o : Nat} (hstatus : o ≠ Reg.CE_STATUS) (hfails : o ≠ Reg.CE_FAILS) :
    (s.failNoted n detail err).rg o = s.rg o := by
  have hset : ((s.setF Reg.CE_STATUS_LAST_DETAIL detail).setF Reg.CE_STATUS_LAST_SLOT n).rg o = s.rg o := by
    rw [State.rg_setF_of_ne _ (by exact hstatus), State.rg_setF_of_ne _ (by exact hstatus)]
  unfold State.failNoted State.cond
  split
  · rw [State.loadErr_rg _ hstatus hfails, hset]
  · exact hset

theorem State.failNoted_quiet (s : State) (n detail : Nat) : RegsBut s (s.failNoted n detail false) [Reg.CE_STATUS] := by
  intro o ho
  have ho : o ≠ Reg.CE_STATUS := by simpa using ho
  exact ((State.setF ..).rg_setF_of_ne (x := Reg.CE_STATUS_LAST_SLOT) ho n).trans (s.rg_setF_of_ne (x := Reg.CE_STATUS_LAST_DETAIL) ho detail)

theorem State.failNoted_shows (s : State) (n detail : Nat) : (s.failNoted n detail true).on Reg.CE_STATUS_LOAD_ERR = true ∧
    (s.failNoted n detail true).rg Reg.CE_FAILS = s.rg Reg.CE_FAILS + 1 := by
  obtain ⟨herr, hfails, -⟩ := ((s.setF Reg.CE_STATUS_LAST_DETAIL detail).setF Reg.CE_STATUS_LAST_SLOT n).loadErr_spec
  refine ⟨herr, hfails.trans ?_⟩
  rw [State.rg_setF_of_ne _ (by decide), State.rg_setF_of_ne _ (by decide)]

/-- The detail and the slot show, and BUSY stays. -/
theorem State.failNoted_status (s : State) {n detail : Nat} (hn : n < 1024) (hd : detail < 256) (err : Bool) :
    (s.failNoted n detail err).fd Reg.CE_STATUS_LAST_DETAIL = detail ∧ (s.failNoted n detail err).fd Reg.CE_STATUS_LAST_SLOT = n ∧
      (s.failNoted n detail err).fd Reg.CE_STATUS_BUSY = s.fd Reg.CE_STATUS_BUSY := by
  have hcond (x : Fld) (hoff : x.off = Reg.CE_STATUS) (hhi : x.hi < 31) (hx : x.lo ≤ x.hi) : (s.failNoted n detail err).fd x =
      ((s.setF Reg.CE_STATUS_LAST_DETAIL detail).setF Reg.CE_STATUS_LAST_SLOT n).fd x := by
    unfold State.failNoted State.cond
    split
    · exact State.loadErr_fd _ hoff hhi hx
    · rfl
  refine ⟨(hcond _ rfl (by decide) (by decide)).trans ?_, (hcond _ rfl (by decide) (by decide)).trans ?_, (hcond _ rfl (by decide) (by decide)).trans ?_⟩
  · rw [State.fd_setF_apart _ (x := Reg.CE_STATUS_LAST_SLOT) (y := Reg.CE_STATUS_LAST_DETAIL) rfl (by decide) (by decide) (by decide),
      State.fd_setF_same _ (by decide) (by decide)]
    exact Nat.mod_eq_of_lt hd
  · rw [State.fd_setF_same _ (by decide) (by decide)]
    exact Nat.mod_eq_of_lt hn
  · rw [State.fd_setF_apart _ (x := Reg.CE_STATUS_LAST_SLOT) (y := Reg.CE_STATUS_BUSY) rfl (by decide) (by decide) (by decide),
      State.fd_setF_apart _ (x := Reg.CE_STATUS_LAST_DETAIL) (y := Reg.CE_STATUS_BUSY) rfl (by decide) (by decide) (by decide)]

/-- The outcome of a descriptor's load goes to the descriptor. -/
theorem State.tellLoad_desc (s : State) {p : ProgSlot} {id : Nat} (horigin : p.origin = 0) (hdesc : p.desc = some id) (status detail : Nat) :
    s.tellLoad p status detail = s.endDesc id status detail := by
  unfold State.tellLoad
  simp only [horigin, hdesc]

/-- The load of a descriptor fails: the descriptor ends with the detail, no slot changes, and CE_STATUS shows it. -/
theorem State.loadFailed_desc (s : State) {n id : Nat} {p : ProgSlot} (horigin : p.origin = 0) (hdesc : p.desc = some id) (status detail : Nat) :
    EndedDesc s (s.loadFailed n p status detail) id status detail ∧ (s.loadFailed n p status detail).images = s.images ∧
      SameArray s (s.loadFailed n p status detail) ∧
      ∀ o, (s.loadFailed n p status detail).rg o = (s.failNoted n detail ([4, 11, 17].contains detail)).rg o := by
  have hshows : p.failShows detail = [4, 11, 17].contains detail := by
    simp only [ProgSlot.failShows, horigin]
    exact (Bool.or_false _).trans (Bool.or_false _)
  rw [State.loadFailed_eq, State.tellLoad_desc _ horigin hdesc, hshows]
  have hrest := s.failNoted_rest n detail ([4, 11, 17].contains detail)
  generalize s.failNoted n detail ([4, 11, 17].contains detail) = t at hrest ⊢
  refine ⟨(t.endDesc_endedDesc id status detail).of_descs fun j => by rw [hrest]; rfl, ?_, ?_, fun o => rfl⟩
  · exact (show t.images = s.images by rw [hrest])
  · exact (show SameArray s t by rw [hrest]; exact ⟨rfl, rfl⟩)

/-- Whoever ordered a load, the outcome changes no slot, no memory of the array and none of the first registers of the engine. -/
theorem State.tellLoad_frame (s : State) (p : ProgSlot) (status detail : Nat) :
    (s.tellLoad p status detail).images = s.images ∧ SameArray s (s.tellLoad p status detail) ∧
      (∀ o, 0xA0000 ≤ o → o < 0xA0100 → (s.tellLoad p status detail).rg o = s.rg o) ∧
      (s.on Reg.CE_MC_RX_CTRL_EN = false → (s.tellLoad p status detail).on Reg.CE_MC_RX_CTRL_EN = false) := by
  unfold State.tellLoad
  split
  · split
    · exact ⟨rfl, ⟨rfl, rfl⟩, fun _ _ _ => rfl, id⟩
    · exact ⟨rfl, ⟨rfl, rfl⟩, fun _ _ _ => rfl, id⟩
  · have hresult : (if status = 0 then 0 else if detail = 14 ∨ detail = 16 then 4 else 1) < 8 := by
      split
      · decide
      · split <;> decide
    obtain ⟨hen, -, -, himages, harray, hrg⟩ := s.rxEnd_spec hresult detail
    exact ⟨himages, harray, fun o hlo hhi => hrg o hlo (by simp only [Reg.CE_MC_RX_CTRL]; omega) (by simp only [Reg.CE_MC_RX_STATUS]; omega), fun _ => hen⟩
  · next k _ =>
    have hrg {o : Nat} (ho : o ≠ Reg.CE_AUTO_STATUS k) : (((s.setF (Reg.CE_AUTO_STATUS_DONE k) 1).setF (Reg.CE_AUTO_STATUS_STATUS k) status).setF
        (Reg.CE_AUTO_STATUS_DETAIL k) detail).rg o = s.rg o := by
      rw [State.rg_setF_of_ne _ (by exact ho), State.rg_setF_of_ne _ (by exact ho), State.rg_setF_of_ne _ (by exact ho)]
    refine ⟨?_, (((SameArray.refl s).setF _ _).setF _ _).setF _ _, fun o hlo hhi => hrg (by simp only [Reg.CE_AUTO_STATUS]; omega), fun h => ?_⟩
    · rw [State.setF_images, State.setF_images, State.setF_images]
    · exact (State.on_congr (x := Reg.CE_MC_RX_CTRL_EN) (hrg (by simp only [Reg.CE_AUTO_STATUS, Reg.CE_MC_RX_CTRL_EN, Reg.CE_MC_RX_CTRL]; omega))).trans h

end Sys2Proof.Machine

/-! ## Images: their claim, their chunks, their registration and their eviction (R374, R513, R529 to R541) -/

namespace Sys2Proof.Machine

/-! ### Opening an image (R520) -/

theorem State.libUse_rest (s : State) (e : Nat) : s.libUse e = { s with store := (s.libUse e).store } := rfl

theorem State.libRelease_rest (s : State) (e : Nat) : s.libRelease e = { s with store := (s.libRelease e).store } := by
  rw [State.libRelease, State.libSettle_frame]
  rfl

/-- The slot of an image that is being registered. -/
def ProgSlot.opened (p : ProgSlot) (h : List Word) (gen : Nat) : ProgSlot :=
  { p with
    phase := 1, gen := gen, bytes := headerBytes h, payOff := payloadOffset h, keySlot := bits (h.getD 0 0) 26 24
    fail := if headerBytes h % 512 ≠ 0 ∨ 2 ^ 32 < headerBytes h then 5 else 0 }

/-- A header that describes an image within its length. -/
def imageFits (h : List Word) (limit : Option Nat) : Bool :=
  headerOk h && bits (h.getD 0 0) 31 28 == 0 && ! limit.any fun l => decide (l < payloadOffset h + headerBytes h)

/-- A header that describes no image ends the load with AUTH; another makes the engine busy with the slot. -/
theorem State.openImage_of_bad (s : State) (n : Nat) (p : ProgSlot) {h : List Word} {limit : Option Nat} (hbad : imageFits h limit = false) :
    s.openImage n p h limit = s.loadFailed n p 4 17 := by
  refine if_pos ?_
  unfold imageFits at hbad
  revert hbad
  cases headerOk h <;> cases (limit.any fun l => decide (l < payloadOffset h + headerBytes h)) <;> simp

theorem State.openImage_of_good (s : State) (n : Nat) (p : ProgSlot) {h : List Word} {limit : Option Nat} (hgood : imageFits h limit = true) :
    (s.openImage n p h limit).images = { s.images with slots := tput s.images.slots n (p.opened h (s.gen p.inst)), active := some n } ∧
      (s.openImage n p h limit).on Reg.CE_STATUS_BUSY = true ∧ (s.openImage n p h limit).host = s.host ∧ SameArray s (s.openImage n p h limit) ∧
      ∀ o, ¬ LinkReg o → o ≠ Reg.CE_STATUS → (s.openImage n p h limit).rg o = s.rg o := by
  have hfits : (! headerOk h || bits (h.getD 0 0) 31 28 ≠ 0 || (limit.any fun l => decide (l < payloadOffset h + headerBytes h))) = false := by
    unfold imageFits at hgood
    simp only [Bool.and_eq_true, beq_iff_eq, Bool.not_eq_true'] at hgood
    obtain ⟨⟨hok, htype⟩, hlen⟩ := hgood
    simp only [hok, htype, hlen, ne_eq, not_true, decide_false, Bool.not_true, Bool.or_self]
  obtain ⟨u, hopen, hu, hbusy⟩ : ∃ u : State, s.openImage n p h limit = u.txImage n p.inst 0 ((wordBytes h).take (payloadOffset h)) ∧
      u = { s with regs := (s.setF Reg.CE_STATUS_BUSY 1).regs, store := u.store, images :=
        { s.images with slots := tput s.images.slots n (p.opened h (s.gen p.inst)), active := some n } } ∧ u.regs = (s.setF Reg.CE_STATUS_BUSY 1).regs := by
    unfold State.openImage
    dsimp only
    refine ⟨_, (if_neg (by rw [hfits]; decide)), ?_⟩
    split
    · rw [State.libUse_rest]
      exact ⟨rfl, rfl⟩
    · exact ⟨rfl, rfl⟩
  have hout := u.txImage_packetsOut n p.inst 0 ((wordBytes h).take (payloadOffset h))
  have hrg (o : Nat) : u.rg o = (s.setF Reg.CE_STATUS_BUSY 1).rg o := congrArg (tget (regReset o) · o) hbusy
  have hstatus : ¬ LinkReg Reg.CE_STATUS := by
    unfold LinkReg EventReg
    decide
  rw [hopen]
  refine ⟨hout.images.trans (by rw [hu]), ?_, hout.host.trans (by rw [hu]), (show SameArray s u by rw [hu]; exact ⟨rfl, rfl⟩).trans hout.sameArray,
    fun o ho hne => ?_⟩
  · rw [State.on_congr (x := Reg.CE_STATUS_BUSY) ((hout.rg _ hstatus).trans (hrg _))]
    exact State.on_setF_one _ rfl (by decide)
  · rw [hout.rg o ho, hrg, State.rg_setF_of_ne _ (by exact hne)]

/-! ### LOAD_PROGRAM (R373, R529) -/

/-- The slot and the image that the words of a LOAD_PROGRAM name. -/
def Desc.loadSlot (d : Desc) : Nat := bits (d.w 4) 31 22
def Desc.loadSource (d : Desc) : Nat := bits (d.w 4) 21 20
def Desc.loadImage (d : Desc) : Nat := if d.loadSource = 0 then d.hostAddr 5 else if d.loadSource = 1 then d.dram 5 else bits (d.w 5) 11 0

/-- The slot's contents as a LOAD_PROGRAM gives them. -/
def Desc.loads (d : Desc) (id : Nat) : ProgSlot :=
  { noSlot with inst := d.inst, desc := some id, source := d.loadSource, image := d.loadImage, dramBase := d.dram 8, preload := bit (d.w 4) 19 }

/-- The header and hash list that a load reads. -/
def State.loadHead (s : State) (d : Desc) (head : List Word) : List Word :=
  if d.loadSource = 0 then head
  else if d.loadSource = 1 then s.rdWords d.loadImage (payloadOffset (s.rdWords d.loadImage 64) / 4) else (s.lib d.loadImage).head

/-- Every claim that refuses does so with NOT_OWNED or IN_USE. -/
theorem State.claim_codes {s : State} {n inst : Nat} {order : Option Nat} {c : Nat} (h : s.claim n inst order = some c) : c = 14 ∨ c = 16 := by
  unfold State.claim at h
  split at h
  · cases h
    split
    · exact .inl rfl
    · exact .inr rfl
  · split at h
    · cases h
    · obtain ⟨e, -, rfl⟩ := Option.map_eq_some_iff.1 h
      split
      · exact .inl rfl
      · exact .inr rfl

theorem State.entryRefuses_codes {s : State} {e inst c : Nat} (h : s.entryRefuses e inst = some c) : c = 14 ∨ c = 15 := by
  unfold State.entryRefuses at h
  dsimp only at h
  split at h
  · cases h
    exact .inr rfl
  · split at h
    · cases h
      exact .inl rfl
    · cases h

section
variable {s : State} {ring : Fin 4096} {pos : Word} {id : Nat} {d : Desc} (head : List Word) (hwork : s.hasWork ring pos 6 id d)
include hwork

theorem exec_loadProgram_claimed {c : Nat} (hclaim : s.claim d.loadSlot d.inst (some d.order) = some c) :
    exec (.loadProgram ring pos head) s = .next (s.loadFailed d.loadSlot (d.loads id) 4 c) := by
  change execLoadProgram ring pos head s = _
  rw [execLoadProgram, State.work_of_hasWork hwork]
  unfold Desc.loadSlot at hclaim
  simp only [hclaim]
  rfl

theorem exec_loadProgram_waits (hclaim : s.claim d.loadSlot d.inst (some d.order) = none) (hbusy : s.images.active.isSome = true) :
    exec (.loadProgram ring pos head) s = .next s := by
  change execLoadProgram ring pos head s = _
  rw [execLoadProgram, State.work_of_hasWork hwork]
  unfold Desc.loadSlot at hclaim
  simp only [hclaim]
  exact congrArg Host.Outcome.next (if_pos (by rw [hbusy]; rfl))

theorem exec_loadProgram_outside (hclaim : s.claim d.loadSlot d.inst (some d.order) = none) (hidle : s.images.active = none)
    (hsrc : d.loadSource = 1) (hwin : s.inWindow d.inst d.loadImage (d.w 7).toNat = false) :
    exec (.loadProgram ring pos head) s = .next (s.loadFailed d.loadSlot (d.loads id) 4 13) := by
  change execLoadProgram ring pos head s = _
  rw [execLoadProgram, State.work_of_hasWork hwork]
  unfold Desc.loadSlot at hclaim
  simp only [hclaim]
  refine congrArg Host.Outcome.next ((if_neg ?_).trans (if_pos ⟨hsrc, ?_⟩))
  · rw [hidle, show bits (d.w 4) 21 20 = 1 from hsrc]
    simp
  · have hout : (! s.inWindow d.inst d.loadImage (d.w 7).toNat) = true := by rw [hwin]; rfl
    exact hout

theorem exec_loadProgram_refused {c : Nat} (hclaim : s.claim d.loadSlot d.inst (some d.order) = none) (hidle : s.images.active = none)
    (hsrc : d.loadSource = 2) (hmaint : s.storeMaint = false) (hentry : s.entryRefuses d.loadImage d.inst = some c) :
    exec (.loadProgram ring pos head) s = .next (s.loadFailed d.loadSlot (d.loads id) 4 c) := by
  have hsrc' : bits (d.w 4) 21 20 = 2 := hsrc
  change execLoadProgram ring pos head s = _
  rw [execLoadProgram, State.work_of_hasWork hwork]
  unfold Desc.loadSlot at hclaim
  simp only [hclaim]
  refine congrArg Host.Outcome.next ((if_neg ?_).trans ((if_neg ?_).trans ((if_neg ?_).trans ?_)))
  · rw [hidle, hmaint]
    simp
  · rw [hsrc']
    exact fun h => absurd h.1 (by decide)
  · rw [hsrc']
    exact fun h => absurd h.1 (by decide)
  · have hnone : (if bits (d.w 4) 21 20 = 2 then s.entryRefuses d.loadImage d.inst else none) = some c := (if_pos hsrc').trans hentry
    unfold Desc.loadImage Desc.loadSource at hnone
    simp only [hnone]
    rfl

theorem exec_loadProgram_opens (hclaim : s.claim d.loadSlot d.inst (some d.order) = none) (hidle : s.images.active = none)
    (hdram : d.loadSource = 1 → s.inWindow d.inst d.loadImage (d.w 7).toNat = true ∧ s.rangeReady d.loadImage (d.w 7).toNat = true)
    (hstore : d.loadSource = 2 → s.storeMaint = false ∧ s.entryRefuses d.loadImage d.inst = none) :
    exec (.loadProgram ring pos head) s = .next ((s.setDesc id { d with state := .running, start := some s.now }).openImage d.loadSlot (d.loads id)
      (s.loadHead d head) (if d.loadSource = 2 then none else some (d.w 7).toNat)) := by
  change execLoadProgram ring pos head s = _
  rw [execLoadProgram, State.work_of_hasWork hwork]
  unfold Desc.loadSlot at hclaim
  simp only [hclaim]
  refine congrArg Host.Outcome.next ((if_neg ?_).trans ((if_neg ?_).trans ((if_neg ?_).trans ?_)))
  · rw [hidle]
    by_cases hsrc : bits (d.w 4) 21 20 = 2
    · rw [(hstore hsrc).1]
      simp
    · simp [hsrc]
  · rintro ⟨hsrc, hwin⟩
    have hin : ¬ (! s.inWindow d.inst d.loadImage (d.w 7).toNat) = true := by rw [(hdram hsrc).1]; decide
    exact hin hwin
  · rintro ⟨hsrc, hready⟩
    have hin : ¬ (! s.rangeReady d.loadImage (d.w 7).toNat) = true := by rw [(hdram hsrc).2]; decide
    exact hin hready
  · have hnone : (if bits (d.w 4) 21 20 = 2 then s.entryRefuses d.loadImage d.inst else none) = none := by
      split
      · next hsrc => exact (hstore hsrc).2
      · rfl
    unfold Desc.loadImage Desc.loadSource at hnone
    simp only [hnone]
    rfl

end

/-! ### The final check, the signature and the stages of activation (R529, R537, R538) -/

/-- What the outcome of a load keeps of slot n: its phase and stages, and every other slot. -/
structure KeepsSlot (s t : State) (n : Nat) : Prop where
  phase : (t.slot n).phase = (s.slot n).phase
  released : (t.slot n).released = (s.slot n).released
  other : ∀ m, m ≠ n → t.slot m = s.slot m
  loads : t.rg Reg.CE_LOADS = s.rg Reg.CE_LOADS

theorem KeepsSlot.refl (s : State) (n : Nat) : KeepsSlot s s n := ⟨rfl, rfl, fun _ _ => rfl, rfl⟩

theorem KeepsSlot.trans {s t u : State} {n : Nat} (h : KeepsSlot s t n) (k : KeepsSlot t u n) : KeepsSlot s u n :=
  ⟨k.phase.trans h.phase, k.released.trans h.released, fun m hm => (k.other m hm).trans (h.other m hm), k.loads.trans h.loads⟩

theorem KeepsSlot.of_images {s t : State} (himages : t.images = s.images) (hloads : t.rg Reg.CE_LOADS = s.rg Reg.CE_LOADS) (n : Nat) : KeepsSlot s t n := by
  have hslot (m : Nat) : t.slot m = s.slot m := by rw [State.slot, State.slot, himages]
  exact ⟨by rw [hslot], by rw [hslot], fun m _ => hslot m, hloads⟩

theorem State.slot_setSlot_of_ne (s : State) {n m : Nat} (h : m ≠ n) (p : ProgSlot) : (s.setSlot n p).slot m = s.slot m := (tget_tput ..).trans (if_neg h)

theorem KeepsSlot.setSlot (s : State) {n : Nat} {p : ProgSlot} (hphase : p.phase = (s.slot n).phase) (hreleased : p.released = (s.slot n).released) :
    KeepsSlot s (s.setSlot n p) n :=
  ⟨by rw [State.slot_setSlot, hphase], by rw [State.slot_setSlot, hreleased], fun m hm => s.slot_setSlot_of_ne hm p, rfl⟩

theorem State.tellLoad_keepsSlot (s : State) (p : ProgSlot) (status detail n : Nat) : KeepsSlot s (s.tellLoad p status detail) n := by
  obtain ⟨himages, -, hrg, -⟩ := s.tellLoad_frame p status detail
  exact .of_images himages (hrg _ (by decide) (by decide)) n

theorem State.loadDone_keepsSlot (s : State) (n : Nat) : KeepsSlot s (s.loadDone n) n := by
  unfold State.loadDone
  dsimp only
  split
  · exact (KeepsSlot.setSlot s (n := n) (p := { s.slot n with told := true }) rfl rfl).trans (State.tellLoad_keepsSlot _ _ _ _ n)
  · exact .refl s n

theorem State.tryPreload_keepsSlot (s : State) (n : Nat) : KeepsSlot s (s.tryPreload n) n := by
  unfold State.tryPreload
  dsimp only
  split
  · exact (KeepsSlot.setSlot s (n := n) (p := { s.slot n with preloaded := true }) rfl rfl).trans (State.loadDone_keepsSlot _ n)
  · exact .refl s n

theorem State.engineFree_rest (s : State) (p : ProgSlot) : s.engineFree p = { s with
    images := { s.images with active := none }, regs := (s.setF Reg.CE_STATUS_BUSY 0).regs, store := (s.engineFree p).store } := by
  unfold State.engineFree
  dsimp only
  split
  · rw [State.libRelease_rest]
    rfl
  · rfl

theorem State.engineFree_rg (s : State) (p : ProgSlot) (o : Nat) : (s.engineFree p).rg o = (s.setF Reg.CE_STATUS_BUSY 0).rg o := by
  rw [s.engineFree_rest p]
  rfl

/-- The multicast receiver takes no slot that is in use. -/
theorem State.rxTry_slot (s : State) {n : Nat} (hphase : (s.slot n).phase ≠ 0) :
    (s.rxTry.slot n).phase = (s.slot n).phase ∧ s.rxTry.rg Reg.CE_LOADS = s.rg Reg.CE_LOADS := by
  have hloads : Reg.CE_LOADS ≠ Reg.CE_STATUS ∧ Reg.CE_LOADS ≠ Reg.CE_FAILS := by decide
  have hfails (m : Nat) (p : ProgSlot) (status detail : Nat) : ((s.loadFailed m p status detail).slot n).phase = (s.slot n).phase ∧
      (s.loadFailed m p status detail).rg Reg.CE_LOADS = s.rg Reg.CE_LOADS := by
    obtain ⟨himages, -, hrg, -⟩ := (s.failNoted m detail (p.failShows detail)).tellLoad_frame p status detail
    rw [State.loadFailed_eq]
    refine ⟨?_, (hrg _ (by decide) (by decide)).trans (s.failNoted_rg _ _ _ hloads.1 hloads.2)⟩
    rw [State.slot, himages, s.failNoted_rest m detail]
    rfl
  unfold State.rxTry
  split
  · exact ⟨rfl, rfl⟩
  · dsimp only
    split
    · exact hfails _ _ _ _
    · next hclaim =>
      generalize hh : s.rdWords s.rxAddr (payloadOffset (s.rdWords s.rxAddr 64) / 4) = h
      cases hgood : imageFits h none with
      | false =>
        rw [State.openImage_of_bad _ _ _ hgood]
        exact hfails _ _ _ _
      | true =>
        obtain ⟨himages, -, -, -, hrg⟩ := s.openImage_of_good (s.fd Reg.CE_MC_RX_CTRL_SLOT) { noSlot with
          inst := s.fd Reg.CE_MC_RX_CTRL_OWNER, origin := 1, source := 1, image := s.rxAddr, dramBase := s.rxBase, preload := s.on Reg.CE_MC_RX_CTRL_PRELOAD }
          hgood
        have hne : n ≠ s.fd Reg.CE_MC_RX_CTRL_SLOT := by
          rintro rfl
          unfold State.claim at hclaim
          rw [if_pos hphase] at hclaim
          cases hclaim
        refine ⟨?_, hrg _ (by unfold LinkReg EventReg; decide) hloads.1⟩
        rw [State.slot, himages]
        exact congrArg ProgSlot.phase ((tget_tput ..).trans (if_neg hne))

/-- A final check that passes registers the slot and counts the load. -/
theorem State.finalCheck_spec (s : State) (n : Nat) : ((s.finalCheck n).slot n).phase = 2 ∧
    (s.finalCheck n).rg Reg.CE_LOADS = s.rg Reg.CE_LOADS + 1 := by
  unfold State.finalCheck
  dsimp only
  generalize hq : ({ s.slot n with
    phase := 2, released := if (bits ((s.slot n).header.getD 0 0) 31 24 == 0x24) = true then [0, 1, 2, 3] else [] } : ProgSlot) = q
  have hfree : ((((s.setSlot n q).inc Reg.CE_LOADS).engineFree (s.slot n)).slot n).phase = 2 ∧
      (((s.setSlot n q).inc Reg.CE_LOADS).engineFree (s.slot n)).rg Reg.CE_LOADS = s.rg Reg.CE_LOADS + 1 := by
    constructor
    · rw [State.slot, State.engineFree_rest, State.inc_images]
      exact (congrArg ProgSlot.phase (s.slot_setSlot n q)).trans (by rw [← hq])
    · rw [State.engineFree_rg, State.rg_setF_of_ne _ (by decide), State.rg_inc_same]
      rfl
  generalize State.engineFree _ _ = t at hfree ⊢
  obtain ⟨hphase, hloads⟩ := hfree
  have hkeeps := (t.tryPreload_keepsSlot n).trans (State.loadDone_keepsSlot _ n)
  have hphase' := hkeeps.phase.trans hphase
  obtain ⟨hrx, hrxLoads⟩ := State.rxTry_slot ((t.tryPreload n).loadDone n) (n := n) (by rw [hphase']; decide)
  exact ⟨hrx.trans hphase', (hrxLoads.trans hkeeps.loads).trans hloads⟩

theorem failOutcome_detail_lt (f : Nat) : (failOutcome f).2 < 256 := by
  unfold failOutcome
  split <;> decide

/-- The state in which a load that fails its checks has left its slot and the engine. -/
def State.loadLeft (s : State) (n : Nat) (p : ProgSlot) : State :=
  State.engineFree { s with images := { s.images with slots := tdel s.images.slots n } } p

theorem State.loadLeft_spec (s : State) (n : Nat) (p : ProgSlot) : ((s.loadLeft n p).slot n).phase = 0 ∧ (s.loadLeft n p).images.active = none ∧
    (s.loadLeft n p).on Reg.CE_STATUS_BUSY = false ∧ ∀ o, o ≠ Reg.CE_STATUS → (s.loadLeft n p).rg o = s.rg o := by
  unfold State.loadLeft
  refine ⟨?_, ?_, ?_, fun o ho => ?_⟩
  · rw [State.slot, State.engineFree_rest]
    exact congrArg ProgSlot.phase ((tget_tdel ..).trans (if_pos rfl))
  · rw [State.engineFree_rest]
  · rw [State.on_congr (x := Reg.CE_STATUS_BUSY) (State.engineFree_rg _ p _)]
    exact State.on_setF_zero _ rfl (by decide)
  · rw [State.engineFree_rg, State.rg_setF_of_ne _ (by exact ho)]
    rfl

theorem State.rxTry_of_off {s : State} (h : s.on Reg.CE_MC_RX_CTRL_EN = false) : s.rxTry = s := if_pos (by rw [h]; rfl)

/-- A load that fails leaves its slot free, the engine free, and its outcome told. -/
theorem State.loadEnds_spec (s : State) {n : Nat} (hn : n < 1024) (p : ProgSlot) (status detail : Nat) (hd : detail < 256)
    (hoff : s.on Reg.CE_MC_RX_CTRL_EN = false) : (((s.loadLeft n p).loadFailed n p status detail).rxTry.slot n).phase = 0 ∧
      ((s.loadLeft n p).loadFailed n p status detail).rxTry.images.active = none ∧
      ((s.loadLeft n p).loadFailed n p status detail).rxTry.on Reg.CE_STATUS_BUSY = false ∧
      ((s.loadLeft n p).loadFailed n p status detail).rxTry.fd Reg.CE_STATUS_LAST_SLOT = n ∧
      ((s.loadLeft n p).loadFailed n p status detail).rxTry.fd Reg.CE_STATUS_LAST_DETAIL = detail ∧
      ((s.loadLeft n p).loadFailed n p status detail).rxTry.rg Reg.CE_LOADS = s.rg Reg.CE_LOADS ∧
      ∀ id, p.origin = 0 → p.desc = some id → (((s.loadLeft n p).loadFailed n p status detail).rxTry.desc id).state = .ended ∧
        (((s.loadLeft n p).loadFailed n p status detail).rxTry.desc id).status = status ∧
        (((s.loadLeft n p).loadFailed n p status detail).rxTry.desc id).detail = detail := by
  obtain ⟨hphase, hactive, hbusy, hrg⟩ := s.loadLeft_spec n p
  generalize s.loadLeft n p = t at *
  obtain ⟨htold, -, htoldRg, htoldOff⟩ := (t.failNoted n detail (p.failShows detail)).tellLoad_frame p status detail
  obtain ⟨hdetail, hslot, hkept⟩ := t.failNoted_status hn hd (p.failShows detail)
  have hnoted {o : Nat} := t.failNoted_rg n detail (p.failShows detail) (o := o)
  have himages : (t.loadFailed n p status detail).images = t.images := by
    rw [State.loadFailed_eq, htold, State.failNoted_rest]
  have hstatus (x : Fld) (hx : x.off = Reg.CE_STATUS) : (t.loadFailed n p status detail).fd x = (t.failNoted n detail (p.failShows detail)).fd x :=
    State.fd_congr (by rw [hx]; exact htoldRg _ (by decide) (by decide))
  have hstillOff : (t.loadFailed n p status detail).on Reg.CE_MC_RX_CTRL_EN = false :=
    htoldOff ((State.on_congr (x := Reg.CE_MC_RX_CTRL_EN) ((hnoted (by decide) (by decide)).trans (hrg _ (by decide)))).trans hoff)
  rw [State.rxTry_of_off hstillOff]
  refine ⟨?_, by rw [himages, hactive], ?_, (hstatus _ rfl).trans hslot, (hstatus _ rfl).trans hdetail, ?_, fun id horigin hdesc => ?_⟩
  · rw [State.slot, himages]
    exact hphase
  · exact (congrArg (· == 1) ((hstatus _ rfl).trans hkept)).trans hbusy
  · exact ((htoldRg _ (by decide) (by decide)).trans (hnoted (by decide) (by decide))).trans (hrg _ (by decide))
  · obtain ⟨⟨hstate, hst, hdet, -⟩, -⟩ := t.loadFailed_desc (n := n) horigin hdesc status detail
    exact ⟨hstate, hst, hdet⟩

end Sys2Proof.Machine

/-! ## Chunks of an image, and EVICT (R374, R520, R529) -/

namespace Sys2Proof.Machine

/-! ### Chunks -/

/-- Neither the program slots nor the array's memories differ. -/
def SameImages (s t : State) : Prop := t.images = s.images ∧ SameArray s t

theorem SameImages.trans {s t u : State} (h : SameImages s t) (k : SameImages t u) : SameImages s u := ⟨k.1.trans h.1, h.2.trans k.2⟩

theorem SameImages.ite {s t u : State} {p : Prop} [Decidable p] (ht : SameImages s t) (hu : SameImages s u) : SameImages s (if p then t else u) := by
  split
  · exact ht
  · exact hu

theorem SameImages.of_reports {W : Nat → Prop} {s t : State} (h : Reports W s t) : SameImages s t := ⟨by rw [h.rest], h.sameArray⟩

theorem SameImages.each {α : Type} (s : State) (l : List α) {f : State → α → State} (hf : ∀ u x, SameImages u (f u x)) : SameImages s (s.each l f) := by
  induction l generalizing s with
  | nil => exact ⟨rfl, rfl, rfl⟩
  | cons x l ih => exact (hf s x).trans (ih (f s x))

theorem State.frameMismatch_sameImages (s : State) (p : ProgSlot) (k : Nat) : SameImages s (s.frameMismatch p k) := by
  have hcpl (t : State) (stop unit detail : Nat) : SameImages t (t.cplMismatch none stop unit detail) :=
    .of_reports ((Reports.refl (W := (· = Reg.FH_CPL_MISMATCH)) t).cplMismatch_none rfl stop unit detail)
  induction k generalizing s with
  | zero => exact ⟨rfl, rfl, rfl⟩
  | succ k ih =>
    unfold State.frameMismatch
    dsimp only
    split
    · exact (hcpl s _ _ _).trans (ih _)
    · exact (hcpl s _ _ _).trans (ih _)
    · exact (hcpl s _ _ _).trans (ih _)

theorem State.damage_sameImages (s : State) (e c : Nat) : SameImages s (s.damage e c) := by
  have hpost (t : State) (cls unit stop action detail : Nat) : SameImages t ((t.post cls unit stop action detail none none).report stop unit detail false) :=
    .of_reports ((t.post_reports cls unit stop action detail none none).report ..)
  exact SameImages.trans (t := s.setLib e _) ⟨rfl, rfl, rfl⟩ (hpost _ 0x15 14 (hubStop 3) 0 e)

/-- What the read of a chunk counts, sends on and reports, before anything of it is applied. -/
def State.chunkRead (s : State) (n : Nat) (p : ProgSlot) (bs : List Byte) (ok : Bool) (mismatches : Nat) (pages : PageReads) : State :=
  let t := if p.source = 2 then s.countPages pages else s
  let t := (t.txImage n p.inst (p.payOff + p.chunksRead * 2 ^ 20) bs).frameMismatch p mismatches
  if p.source = 2 ∧ ¬ ok then t.damage p.image p.chunksRead else t

theorem State.chunkRead_sameImages (s : State) (n : Nat) (p : ProgSlot) (bs : List Byte) (ok : Bool) (mismatches : Nat) (pages : PageReads) :
    SameImages s (s.chunkRead n p bs ok mismatches pages) := by
  have hcount : SameImages s (if p.source = 2 then s.countPages pages else s) := .ite ⟨rfl, rfl, rfl⟩ ⟨rfl, rfl, rfl⟩
  have hsent (t : State) : SameImages t (t.txImage n p.inst (p.payOff + p.chunksRead * 2 ^ 20) bs) :=
    ⟨(t.txImage_packetsOut ..).images, (t.txImage_packetsOut ..).sameArray⟩
  have hread := (hcount.trans (hsent _)).trans (State.frameMismatch_sameImages _ p mismatches)
  exact SameImages.ite (hread.trans (State.damage_sameImages _ _ _)) hread

/-- Bytes of DRAM that are written depend on nothing but DRAM. -/
theorem State.wrBytes_dram_congr {s t : State} (h : t.dram = s.dram) (a : Nat) (bs : List Byte) : (t.wrBytes a bs).dram = (s.wrBytes a bs).dram := by
  induction bs generalizing s t a with
  | nil => exact h
  | cons b bs ih =>
    refine ih ?_ (a + 1)
    unfold State.wrB
    split
    · exact congrArg (mput 0#8 · a b) h
    · exact h

theorem State.each_hubWrite_dram_congr (base : Nat) (ws : List (Nat × List Byte)) {s t : State} (h : t.dram = s.dram) :
    (t.each ws fun u w => u.hubWrite (base + w.1) w.2).dram = (s.each ws fun u w => u.hubWrite (base + w.1) w.2).dram := by
  induction ws generalizing s t with
  | nil => exact h
  | cons w ws ih => exact ih (State.wrBytes_dram_congr h _ _)

theorem State.hubWrite_clusters (s : State) (a : Nat) (bs : List Byte) : (s.hubWrite a bs).clusters = s.clusters ∧ (s.hubWrite a bs).images = s.images := by
  unfold State.hubWrite
  rw [State.wrBytes_eq]
  exact ⟨rfl, rfl⟩

theorem State.writeImage_spec (s : State) (n : Nat) (p : ProgSlot) (k : Nat) (ws : List (Nat × List Byte)) :
    (s.writeImage n p k ws).images = s.images ∧ (s.writeImage n p k ws).clusters = s.clusters ∧
      (s.writeImage n p k ws).dram = (s.each ws fun u w => u.hubWrite (p.dramBase + w.1) w.2).dram := by
  have heach : ∀ (l : List (Nat × List Byte)) (u : State), (u.each l fun u w => u.hubWrite (p.dramBase + w.1) w.2).images = u.images ∧
      (u.each l fun u w => u.hubWrite (p.dramBase + w.1) w.2).clusters = u.clusters := by
    intro l
    induction l with
    | nil => exact fun _ => ⟨rfl, rfl⟩
    | cons w l ih =>
      intro u
      obtain ⟨hcl, him⟩ := u.hubWrite_clusters (p.dramBase + w.1) w.2
      obtain ⟨him', hcl'⟩ := ih (u.hubWrite (p.dramBase + w.1) w.2)
      exact ⟨him'.trans him, hcl'.trans hcl⟩
  obtain ⟨himages, hclusters⟩ := heach ws s
  unfold State.writeImage
  dsimp only
  split
  · exact ⟨himages, hclusters, rfl⟩
  · exact ⟨himages, hclusters, rfl⟩

section
variable {s : State} {n : Nat} {p : ProgSlot} {data bs : List Byte} {digestOk : Bool} {transient : Nat} {pages : PageReads}

/-- A chunk that is not the last, with its pages zeroed: what is read is counted, what its frames say is written, and the slot takes it in. -/
theorem exec_imageChunkRead_taken (hactive : s.images.active = some n) (hp : s.slot n = p) (hmore : p.chunksRead + 1 < ceilDiv p.bytes (2 ^ 20))
    (hfrom : p.source = 1 → s.rangeReady (p.image + p.payOff + p.chunksRead * 2 ^ 20) (2 ^ 20) = true) (hbytes : s.chunkBytes p data = some bs)
    {ok : Bool} (hok : (digestOk && ! (p.source == 2 && (s.lib p.image).damaged.contains p.chunksRead)) = ok) {x : Walk} (hx : s.walkChunk p bs ok = x) :
    exec (.imageChunkRead data digestOk transient pages) s = .next (
      if x.writes.filter (fun w => ! s.rangeReady (p.dramBase + w.1) w.2.length) ≠ [] then
        s.each (x.writes.filter fun w => ! s.rangeReady (p.dramBase + w.1) w.2.length) fun u w => u.demand (p.dramBase + w.1) w.2.length
      else ((s.chunkRead n p bs ok (transient + x.bad) pages).writeImage n p p.chunksRead x.writes).setSlot n x.slot) := by
  have hlen : min (2 ^ 20) (p.bytes - p.chunksRead * 2 ^ 20) = 2 ^ 20 := by
    unfold ceilDiv at hmore
    omega
  subst hp hok hx
  change execImageChunkRead data digestOk transient pages s = _
  unfold execImageChunkRead
  refine congrArg Host.Outcome.next ?_
  simp only [hactive]
  refine (if_neg (by omega)).trans ((if_neg ?_).trans ?_)
  · rw [hlen]
    rintro ⟨hsrc, hready⟩
    rw [hfrom hsrc] at hready
    exact absurd hready (by decide)
  · simp only [hbytes]
    refine if_congr Iff.rfl rfl ?_
    exact if_pos hmore

theorem filter_not_eq_nil_iff {α : Type} (l : List α) (f : α → Bool) : (l.filter fun w => ! f w) = [] ↔ l.all f = true := by
  simp [List.filter_eq_nil_iff]

end

theorem State.each_demand_spec (s : State) (l : List (Nat × List Byte)) (base : Nat) :
    (s.each l fun u w => u.demand (base + w.1) w.2.length).images = s.images ∧ (s.each l fun u w => u.demand (base + w.1) w.2.length).regs = s.regs ∧
      SameArray s (s.each l fun u w => u.demand (base + w.1) w.2.length) := by
  induction l generalizing s with
  | nil => exact ⟨rfl, rfl, rfl, rfl⟩
  | cons w l ih =>
    obtain ⟨himages, hregs, hclusters, hdram⟩ := ih (s.demand (base + w.1) w.2.length)
    exact ⟨himages, hregs, hclusters, hdram⟩

/-! ### EVICT (R374) -/

theorem foldl_clearPlane_plane (l : List Nat) (c : ClusterSt) (q : Nat) :
    (l.foldl ClusterSt.clearPlane c).plane q = if q ∈ l then noPlane else c.plane q := by
  induction l generalizing c with
  | nil => rfl
  | cons p l ih =>
    have hclear : (c.clearPlane p).plane q = if q = p then noPlane else c.plane q := tget_tdel ..
    rw [List.foldl_cons, ih, hclear]
    by_cases hq : q ∈ l
    · rw [if_pos hq, if_pos (List.mem_cons_of_mem p hq)]
    · rw [if_neg hq]
      exact if_congr (by simp [hq]) rfl rfl

/-- A cluster without the planes of slot n. -/
def ClusterSt.without (n : Nat) (c : ClusterSt) : ClusterSt :=
  ((List.range 8).filter fun p => (c.plane p).st ≠ 0 && (c.plane p).slot == n).foldl ClusterSt.clearPlane c

theorem ClusterSt.without_plane (n : Nat) (c : ClusterSt) {q : Nat} (hq : q < 8) (hst : ((c.without n).plane q).st ≠ 0) :
    ((c.without n).plane q).slot ≠ n := by
  unfold ClusterSt.without at hst ⊢
  rw [foldl_clearPlane_plane] at hst ⊢
  split at hst
  · exact absurd rfl hst
  · next hnot =>
    rw [if_neg hnot]
    intro hslot
    exact hnot (List.mem_filter.2 ⟨List.mem_range.2 hq, by simp [hst, hslot]⟩)

theorem State.dropPlanes_spec (s : State) (n : Nat) : (s.dropPlanes n).images = s.images ∧ ∀ m, (s.dropPlanes n).cl m = (s.cl m).without n := by
  have hzero : ∀ (l : List (Nat × Nat)) (u : State), (u.each l fun u r => u.zeroRange r.1 r.2).images = u.images ∧
      (u.each l fun u r => u.zeroRange r.1 r.2).clusters = u.clusters := by
    intro l
    induction l with
    | nil => exact fun _ => ⟨rfl, rfl⟩
    | cons r l ih => exact fun u => ih (u.zeroRange r.1 r.2)
  unfold State.dropPlanes
  dsimp only
  obtain ⟨himages, hclusters⟩ := hzero ((s.slot n).sections.map fun e : Nat × List Word => (s.slot n).spill e.1)
    { s with clusters := s.clusters.map fun e => (e.1, e.2.without n) }
  refine ⟨himages, fun m => ?_⟩
  have hnone : noCluster.without n = noCluster := by
    unfold ClusterSt.without
    simp [noCluster, ClusterSt.plane, tget, noPlane]
  exact (congrArg (tget noCluster · m) hclusters).trans (tget_map_snd hnone s.clusters m)

/-- A slot that is freed: its planes' clusters stay, its record is no longer valid, and no other slot changes. -/
theorem State.freeSlot_spec (s : State) (n : Nat) : ((s.freeSlot n).slot n).phase = 0 ∧ (∀ m, m ≠ n → (s.freeSlot n).slot m = s.slot m) ∧
    (s.freeSlot n).on (Reg.BAT_CTRL_VALID n) = false ∧ ∀ m, KeepsPlanes (s.cl m) ((s.freeSlot n).cl m) := by
  have hends := s.each_runsEnd (s.net.seqs.filter fun e => e.2.slot == n && e.2.session.isSome) (f := fun u e => u.failSeq e.1)
    fun u e => u.failSeq_runsEnd e.1
  unfold State.freeSlot
  dsimp only
  generalize s.each _ _ = t at hends ⊢
  have himages : t.images = s.images := by rw [hends.rest]
  refine ⟨?_, fun m hm => ?_, State.on_setF_zero _ rfl (show 31 < 32 by decide), fun m => hends.keepsPlanes m⟩
  · rw [State.slot, State.setF_images]
    exact congrArg ProgSlot.phase ((tget_tdel ..).trans (if_pos rfl))
  · rw [State.slot, State.setF_images]
    exact ((tget_tdel ..).trans (if_neg hm)).trans (by rw [himages]; rfl)

/-- What EVICT leaves once the runs before it have ended and no step of the slot is in progress. -/
def State.evicted (s : State) (n id : Nat) (free : Bool) : State :=
  (if free then (s.dropPlanes n).freeSlot n else (s.dropPlanes n).setSlot n { s.slot n with evicting := false }).endDesc id 0 0

theorem State.evicted_spec (s : State) (n id : Nat) (free : Bool) :
    (((s.evicted n id free).desc id).state = .ended ∧ ((s.evicted n id free).desc id).status = 0 ∧ ((s.evicted n id free).desc id).detail = 0) ∧
      (∀ m q, q < 8 → (((s.evicted n id free).cl m).plane q).st ≠ 0 → (((s.evicted n id free).cl m).plane q).slot ≠ n) ∧
      (∀ m, m ≠ n → (s.evicted n id free).slot m = s.slot m) ∧
      (free = true → ((s.evicted n id free).slot n).phase = 0 ∧ (s.evicted n id free).on (Reg.BAT_CTRL_VALID n) = false) ∧
      (free = false → (s.evicted n id free).slot n = { s.slot n with evicting := false }) := by
  obtain ⟨himages, hcl⟩ := s.dropPlanes_spec n
  have hslot (m : Nat) : (s.dropPlanes n).slot m = s.slot m := by rw [State.slot, himages, State.slot]
  unfold State.evicted
  generalize s.dropPlanes n = t at himages hcl hslot ⊢
  have hended (u : State) : ((u.endDesc id 0 0).desc id).state = .ended ∧ ((u.endDesc id 0 0).desc id).status = 0 ∧
      ((u.endDesc id 0 0).desc id).detail = 0 := by
    obtain ⟨hstate, hstatus, hdetail, -⟩ := u.endDesc_endedDesc id 0 0
    exact ⟨hstate, hstatus, hdetail⟩
  have hplanes {c d : ClusterSt} (h : KeepsPlanes (c.without n) d) {q : Nat} (hq : q < 8) (hst : (d.plane q).st ≠ 0) : (d.plane q).slot ≠ n := by
    rw [h.plane] at hst ⊢
    exact c.without_plane n hq hst
  refine ⟨hended _, ?_⟩
  cases free with
  | true =>
    obtain ⟨hphase, hother, hvalid, hkeeps⟩ := t.freeSlot_spec n
    refine ⟨fun m q hq hst => hplanes (c := s.cl m) (by rw [← hcl]; exact hkeeps m) hq hst, fun m hm => (hother m hm).trans (hslot m),
      fun _ => ⟨hphase, hvalid⟩, fun h => absurd h (by decide)⟩
  | false =>
    refine ⟨fun m q hq hst => hplanes (c := s.cl m) (by rw [← hcl]; exact KeepsPlanes.refl _) hq hst,
      fun m hm => (t.slot_setSlot_of_ne hm _).trans (hslot m), fun h => absurd h (by decide), fun _ => t.slot_setSlot n _⟩

/-! ### The stages of activation, and autostart (R538, R541) -/

/-- The last stage of a load without a preload tells its descriptor. -/
theorem State.loadDone_tells {s : State} {n id : Nat} (hphase : (s.slot n).phase = 2) (htold : (s.slot n).told = false)
    (hreleased : (s.slot n).released.length = 4) (hpre : (s.slot n).preload = false) (horigin : (s.slot n).origin = 0)
    (hdesc : (s.slot n).desc = some id) : s.loadDone n = (s.setSlot n { s.slot n with told := true }).endDesc id 0 0 := by
  refine (if_pos ⟨hphase, by rw [htold]; decide, hreleased, .inl (by rw [hpre]; decide)⟩).trans ?_
  exact State.tellLoad_desc _ horigin hdesc 0 0

/-- The outcome of an autostart record shows in its status. -/
theorem State.tellLoad_auto (s : State) {p : ProgSlot} {k : Nat} (horigin : p.origin = k + 2) {status detail : Nat} (hs : status < 8) (hd : detail < 256) :
    (s.tellLoad p status detail).on (Reg.CE_AUTO_STATUS_DONE k) = true ∧ (s.tellLoad p status detail).fd (Reg.CE_AUTO_STATUS_STATUS k) = status ∧
      (s.tellLoad p status detail).fd (Reg.CE_AUTO_STATUS_DETAIL k) = detail := by
  have htell : s.tellLoad p status detail =
      ((s.setF (Reg.CE_AUTO_STATUS_DONE k) 1).setF (Reg.CE_AUTO_STATUS_STATUS k) status).setF (Reg.CE_AUTO_STATUS_DETAIL k) detail := by
    unfold State.tellLoad
    simp only [horigin]
  have hle : (20 : Nat) ≤ 27 ∧ (28 : Nat) ≤ 30 ∧ (31 : Nat) ≤ 31 := by decide
  rw [htell]
  refine ⟨?_, ?_, ?_⟩
  · rw [State.on_setF_apart _ (x := Reg.CE_AUTO_STATUS_DETAIL k) (y := Reg.CE_AUTO_STATUS_DONE k) rfl (.inl (show 27 < 31 by decide)) hle.1 hle.2.2,
      State.on_setF_apart _ (x := Reg.CE_AUTO_STATUS_STATUS k) (y := Reg.CE_AUTO_STATUS_DONE k) rfl (.inl (show 30 < 31 by decide)) hle.2.1 hle.2.2]
    exact State.on_setF_one _ rfl (show 31 < 32 by decide)
  · rw [State.fd_setF_apart _ (x := Reg.CE_AUTO_STATUS_DETAIL k) (y := Reg.CE_AUTO_STATUS_STATUS k) rfl (.inl (show 27 < 28 by decide)) hle.1 hle.2.1]
    exact (State.fd_setF_same _ (x := Reg.CE_AUTO_STATUS_STATUS k) hle.2.1 (show 30 < 32 by decide) status).trans (Nat.mod_eq_of_lt hs)
  · exact (State.fd_setF_same _ (x := Reg.CE_AUTO_STATUS_DETAIL k) hle.1 (show 27 < 32 by decide) detail).trans (Nat.mod_eq_of_lt hd)

/-- A record of the autostart table that cannot be loaded is done with its detail, and LOAD_ERR sets. -/
theorem State.loadFailed_auto (s : State) {p : ProgSlot} {k : Nat} (horigin : p.origin = k + 2) (n : Nat) {detail : Nat} (hd : detail < 256) :
    (s.loadFailed n p 4 detail).on (Reg.CE_AUTO_STATUS_DONE k) = true ∧ (s.loadFailed n p 4 detail).fd (Reg.CE_AUTO_STATUS_STATUS k) = 4 ∧
      (s.loadFailed n p 4 detail).fd (Reg.CE_AUTO_STATUS_DETAIL k) = detail ∧ (s.loadFailed n p 4 detail).on Reg.CE_STATUS_LOAD_ERR = true ∧
      (s.loadFailed n p 4 detail).images = s.images ∧ SameArray s (s.loadFailed n p 4 detail) := by
  have hshows : p.failShows detail = true := by
    have horigin' : decide (2 ≤ p.origin) = true := by rw [decide_eq_true_eq, horigin]; omega
    simp [ProgSlot.failShows, horigin']
  have hrest := s.failNoted_rest n detail true
  rw [State.loadFailed_eq, hshows]
  obtain ⟨herr, -⟩ := s.failNoted_shows n detail
  generalize s.failNoted n detail true = t at *
  obtain ⟨hdone, hstatus, hdetail⟩ := t.tellLoad_auto horigin (status := 4) (by decide) hd
  obtain ⟨himages, harray, hrg, -⟩ := t.tellLoad_frame p 4 detail
  refine ⟨hdone, hstatus, hdetail, ?_, himages.trans (by rw [hrest]), (show SameArray s t by rw [hrest]; exact ⟨rfl, rfl⟩).trans harray⟩
  exact (State.on_congr (x := Reg.CE_STATUS_LOAD_ERR) (hrg _ (by decide) (by decide))).trans herr

/-- Slot and contents that an autostart record gives. -/
def autoSlot (k : Nat) (r : List Word) : ProgSlot :=
  { noSlot with
    inst := bits (r.getD 0 0) 29 24, origin := k + 2, source := 2, image := bits (r.getD 0 0) 23 12, preload := bit (r.getD 0 0) 30
    dramBase := bits (r.getD 1 0) 31 12 * 4096 + bits (r.getD 2 0) 7 0 * 2 ^ 32 }

section
variable {s : State} {k : Nat} (hsetup : s.on Reg.GS_STATUS_SETUP_RESTORED = true) (hidle : s.images.active = none) (hmaint : s.storeMaint = false)
  (hnext : s.nextAuto = some k) (hfree : (s.images.slots.any fun e => e.2.origin == k + 2 && ! e.2.told) = false) {r : List Word}
  (hr : tget [] s.store.autos k = r)
include hsetup hidle hmaint hnext hfree hr

theorem exec_autostart_refused {c : Nat} (hc : ((s.claim (bits (r.getD 0 0) 9 0) (bits (r.getD 0 0) 29 24) none).orElse fun _ =>
    s.entryRefuses (bits (r.getD 0 0) 23 12) (bits (r.getD 0 0) 29 24)) = some c) :
    exec .autostart s = .next (s.loadFailed (bits (r.getD 0 0) 9 0) (autoSlot k r) 4 c) := by
  subst hr
  change execAutostart s = _
  refine congrArg Host.Outcome.next ((if_neg (by rw [hsetup, hidle, hmaint]; decide)).trans ?_)
  simp only [hnext]
  refine (if_neg (by rw [hfree]; decide)).trans ?_
  simp only [hc]
  rfl

theorem exec_autostart_opens (hclaim : s.claim (bits (r.getD 0 0) 9 0) (bits (r.getD 0 0) 29 24) none = none)
    (hentry : s.entryRefuses (bits (r.getD 0 0) 23 12) (bits (r.getD 0 0) 29 24) = none) :
    exec .autostart s = .next (s.openImage (bits (r.getD 0 0) 9 0) (autoSlot k r) (s.lib (bits (r.getD 0 0) 23 12)).head none) := by
  subst hr
  have hnone : ((s.claim (bits ((tget [] s.store.autos k).getD 0 0) 9 0) (bits ((tget [] s.store.autos k).getD 0 0) 29 24) none).orElse fun _ =>
      s.entryRefuses (bits ((tget [] s.store.autos k).getD 0 0) 23 12) (bits ((tget [] s.store.autos k).getD 0 0) 29 24)) = none := by
    rw [hclaim]
    exact hentry
  change execAutostart s = _
  refine congrArg Host.Outcome.next ((if_neg (by rw [hsetup, hidle, hmaint]; decide)).trans ?_)
  simp only [hnext]
  refine (if_neg (by rw [hfree]; decide)).trans ?_
  simp only [hnone]
  rfl

end

/-! ### The signature (R508, R529) -/

/-- The slot once its signature has been looked at. -/
def ProgSlot.signed (p : ProgSlot) (good : Bool) : ProgSlot :=
  { p with sigDone := true, fail := if good then p.fail else if p.fail = 0 then 2 else min p.fail 2 }

theorem exec_signatureCheckDone {s : State} {n : Nat} (hactive : s.images.active = some n) {p : ProgSlot} (hp : s.slot n = p) (hsig : p.sigDone = false)
    (ok : Bool) : exec (.signatureCheckDone ok) s = .next ((s.setSlot n (p.signed (ok && (s.key p.keySlot).valid))).tryFinal n) := by
  have hslot (good : Bool) : (if good = true then { p with sigDone := true } else ({ p with sigDone := true } : ProgSlot).failAs 2) = p.signed good := by
    cases good <;> rfl
  subst hp
  change execSignatureCheckDone ok s = _
  refine congrArg Host.Outcome.next ?_
  simp only [hactive]
  refine (if_neg (by rw [hsig]; decide)).trans ?_
  rw [hslot]

theorem State.tryFinal_signed (s : State) (n : Nat) (p : ProgSlot) (good : Bool) : (s.setSlot n (p.signed good)).tryFinal n =
    if p.chunksRead < ceilDiv p.bytes (2 ^ 20) then s.setSlot n (p.signed good)
    else if (p.signed good).fail = 0 then (s.setSlot n (p.signed good)).finalCheck n
    else (((s.setSlot n (p.signed good)).loadLeft n (p.signed good)).loadFailed n (p.signed good) (failOutcome (p.signed good).fail).1
      (failOutcome (p.signed good).fail).2).rxTry := by
  unfold State.tryFinal
  rw [State.slot_setSlot]
  refine if_congr ?_ rfl rfl
  simp only [ProgSlot.signed, Bool.not_true, Bool.false_or]
  exact decide_eq_true_iff

/-! ### LOAD_PROGRAM with a header (R520, R529) -/

/-- The limit that the descriptor's length gives, read at the source. -/
theorem imageFits_eq (h : List Word) (src len : Nat) : imageFits h (if src = 2 then none else some len) =
    (headerOk h && bits (h.getD 0 0) 31 28 == 0 && (src == 2 || decide (payloadOffset h + headerBytes h ≤ len))) := by
  have hle : (! decide (len < payloadOffset h + headerBytes h)) = decide (payloadOffset h + headerBytes h ≤ len) := by
    simp only [← decide_not, Nat.not_lt]
  unfold imageFits
  by_cases hsrc : src = 2
  · rw [if_pos hsrc, beq_iff_eq.2 hsrc]
    rfl
  · rw [if_neg hsrc, beq_eq_false_iff_ne.2 hsrc, Option.any_some, hle, Bool.false_or]

/-- A header that fits makes the engine busy with its slot, and the descriptor runs. -/
theorem State.openImage_runs (s : State) (n id : Nat) (d : Desc) {h : List Word} {limit : Option Nat} (hgood : imageFits h limit = true) {t : State}
    (ht : (s.setDesc id { d with state := .running, start := some s.now }).openImage n (d.loads id) h limit = t) :
    t.images.active = some n ∧ t.on Reg.CE_STATUS_BUSY = true ∧ (t.slot n).phase = 1 ∧ (t.slot n).inst = d.inst ∧ (t.slot n).desc = some id ∧
      (t.slot n).bytes = headerBytes h ∧ (t.slot n).chunksRead = 0 ∧ (t.desc id).state = .running ∧ (∀ m, m ≠ n → t.slot m = s.slot m) ∧ SameArray s t := by
  obtain ⟨himages, hbusy, hhost, harray, -⟩ := (s.setDesc id { d with state := .running, start := some s.now }).openImage_of_good n (d.loads id) hgood
  rw [ht] at himages hbusy hhost harray
  have hslot (m : Nat) : t.slot m = if m = n then (d.loads id).opened h (s.gen d.inst) else s.slot m :=
    (congrArg (fun x : ImageSt => tget noSlot x.slots m) himages).trans (tget_tput ..)
  have hown := (hslot n).trans (if_pos rfl)
  have hdesc : t.desc id = { d with state := .running, start := some s.now } :=
    (congrArg (fun x : HostSt => tget noDesc x.descs id) hhost).trans ((s.desc_setDesc id _ id).trans (if_pos rfl))
  exact ⟨congrArg ImageSt.active himages, hbusy, congrArg ProgSlot.phase hown, congrArg ProgSlot.inst hown, congrArg ProgSlot.desc hown,
    congrArg ProgSlot.bytes hown, congrArg ProgSlot.chunksRead hown, congrArg Desc.state hdesc, fun m hm => (hslot m).trans (if_neg hm), harray⟩

/-- A header that does not fit ends the load with AUTH, and LOAD_ERR sets. -/
theorem State.openImage_ends (s : State) (n id : Nat) {h : List Word} {limit : Option Nat} (hbad : imageFits h limit = false) {t : State}
    (ht : (s.setDesc id { s.desc id with state := .running, start := some s.now }).openImage n ((s.desc id).loads id) h limit = t) :
    EndedDesc s t id 4 17 ∧ t.images = s.images ∧ t.on Reg.CE_STATUS_LOAD_ERR = true ∧ t.rg Reg.CE_FAILS = s.rg Reg.CE_FAILS + 1 ∧ SameArray s t := by
  have hfail := State.openImage_of_bad (s.setDesc id { s.desc id with state := .running, start := some s.now }) n ((s.desc id).loads id) hbad
  have hdesc (j : Nat) := s.desc_setDesc id { s.desc id with state := .running, start := some s.now } j
  have hrg : ∀ o, (s.setDesc id { s.desc id with state := .running, start := some s.now }).rg o = s.rg o := fun _ => rfl
  have himages : (s.setDesc id { s.desc id with state := .running, start := some s.now }).images = s.images := rfl
  have harray : SameArray s (s.setDesc id { s.desc id with state := .running, start := some s.now }) := ⟨rfl, rfl⟩
  generalize s.setDesc id { s.desc id with state := .running, start := some s.now } = u at *
  obtain ⟨⟨hstate, hstatus, hdetail, hwords, hring, hpos, hinst, hother⟩, himages', harray', hrg'⟩ :=
    u.loadFailed_desc (n := n) (p := (s.desc id).loads id) (id := id) rfl rfl 4 17
  rw [← hfail, ht] at hstate hstatus hdetail hwords hring hpos hinst hother himages' harray' hrg'
  obtain ⟨herr, hfails⟩ := u.failNoted_shows n 17
  have hself : u.desc id = { s.desc id with state := .running, start := some s.now } := (hdesc id).trans (if_pos rfl)
  refine ⟨⟨hstate, hstatus, hdetail, hwords.trans ((congrArg Desc.words hself).trans rfl), hring.trans ((congrArg Desc.ring hself).trans rfl),
    hpos.trans ((congrArg Desc.pos hself).trans rfl), hinst.trans ((congrArg Desc.inst hself).trans rfl),
    fun j hj => (hother j hj).trans ((hdesc j).trans (if_neg hj))⟩,
    himages'.trans himages, (State.on_congr (x := Reg.CE_STATUS_LOAD_ERR) (hrg' _)).trans herr, ((hrg' _).trans hfails).trans ?_, harray.trans harray'⟩
  rw [hrg]

/-! ### A stage of activation (R538) -/

/-- The slot once its next stage is released. -/
def ProgSlot.staged (p : ProgSlot) : ProgSlot :=
  { p with released := p.released ++ [bits (p.header.getD 8 0) (2 * p.released.length + 1) (2 * p.released.length)] }

theorem State.released_spec (s : State) (n : Nat) (hphase : (s.slot n).phase = 2) {t : State}
    (ht : ((s.setSlot n (s.slot n).staged).tryPreload n).loadDone n = t) :
    (t.slot n).released = (s.slot n).staged.released ∧ (t.slot n).phase = 2 ∧ (∀ m, m ≠ n → t.slot m = s.slot m) ∧
      (∀ id, (s.slot n).released.length = 3 → (s.slot n).preload = false → (s.slot n).told = false → (s.slot n).origin = 0 → (s.slot n).desc = some id →
        EndedDesc s t id 0 0 ∧ (t.slot n).told = true) := by
  have hkeeps := ((s.setSlot n (s.slot n).staged).tryPreload_keepsSlot n).trans (State.loadDone_keepsSlot _ n)
  rw [ht] at hkeeps
  have hslot := s.slot_setSlot n (s.slot n).staged
  refine ⟨hkeeps.released.trans (congrArg ProgSlot.released hslot), (hkeeps.phase.trans (congrArg ProgSlot.phase hslot)).trans hphase,
    fun m hm => (hkeeps.other m hm).trans (s.slot_setSlot_of_ne hm _), fun id hlen hpre htold horigin hdesc => ?_⟩
  have hdescs : ∀ j, ((s.setSlot n (s.slot n).staged).setSlot n { (s.slot n).staged with told := true }).desc j = s.desc j := fun _ => rfl
  have hfour : (s.slot n).staged.released.length = 4 := by
    unfold ProgSlot.staged
    rw [List.length_append, hlen]
    rfl
  rw [State.tryPreload_of_none ((congrArg ProgSlot.preload hslot).trans hpre), State.loadDone_tells ((congrArg ProgSlot.phase hslot).trans hphase)
    ((congrArg ProgSlot.told hslot).trans htold) ((congrArg (fun p : ProgSlot => p.released.length) hslot).trans hfour)
    ((congrArg ProgSlot.preload hslot).trans hpre) ((congrArg ProgSlot.origin hslot).trans horigin) ((congrArg ProgSlot.desc hslot).trans hdesc),
    hslot] at ht
  rw [← ht]
  exact ⟨(State.endDesc_endedDesc _ id 0 0).of_descs hdescs, congrArg ProgSlot.told ((s.setSlot n (s.slot n).staged).slot_setSlot n _)⟩

/-- Settles O51: a load, a chunk, a signature, a stage, an autostart record and an eviction each take the branch of their rule. -/
theorem imagesAreClaimedCheckedRegisteredAndEvicted : Obligations.ImagesAreClaimedCheckedRegisteredAndEvicted := by
  refine ⟨?load, fun s data digestOk transient pages => ⟨fun hidle => ?chunkIdle, fun n hactive => ?chunk⟩,
    fun s ok => ⟨fun hidle => ?signIdle, fun n hactive => ?sign⟩, fun s n => ?stage, fun s h => ?autoWaits, ?auto, ?evict⟩
  case load =>
    intro s ring pos id d head hwork n src image h
    have hn : n < 1024 := ((d.w 4).extractLsb' 22 10).isLt
    refine ⟨fun c hclaim => ?_, fun hclaim hbusy => exec_loadProgram_waits head hwork hclaim hbusy, fun hclaim hidle hsrc hdram hstore => ?_,
      fun hclaim hidle hsrc hwin => ?_, fun c hclaim hidle hsrc hmaint hentry => ?_⟩
    · have hcodes := State.claim_codes hclaim
      have hshows : [4, 11, 17].contains c = false := by rcases hcodes with rfl | rfl <;> decide
      have hc : c < 256 := by rcases hcodes with rfl | rfl <;> decide
      obtain ⟨hended, himages, harray, hrg⟩ := s.loadFailed_desc (n := n) (p := d.loads id) (id := id) rfl rfl 4 c
      rw [hshows] at hrg
      obtain ⟨hdetail, hslot, -⟩ := s.failNoted_status hn hc false
      exact ⟨_, exec_loadProgram_claimed head hwork hclaim, hended, hcodes, himages, harray, (State.fd_congr (hrg _)).trans hdetail,
        (State.fd_congr (hrg _)).trans hslot, fun o ho => (hrg o).trans (s.failNoted_quiet n c o ho)⟩
    · have hfits := imageFits_eq h src (d.w 7).toNat
      have hexec := exec_loadProgram_opens head hwork hclaim hidle hdram hstore
      have hown : s.desc id = d := hwork.2.1
      refine ⟨fun hgood => ⟨_, hexec, State.openImage_runs s n id d (hfits.trans hgood) rfl⟩, fun hbad => ?_⟩
      subst hown
      exact ⟨_, hexec, State.openImage_ends s n id (hfits.trans hbad) rfl⟩
    · obtain ⟨hended, himages, harray, hrg⟩ := s.loadFailed_desc (n := n) (p := d.loads id) (id := id) rfl rfl 4 13
      exact ⟨_, exec_loadProgram_outside head hwork hclaim hidle hsrc hwin, hended, himages, harray,
        fun o ho => (hrg o).trans (s.failNoted_quiet n 13 o ho)⟩
    · have hshows : [4, 11, 17].contains c = false := by rcases State.entryRefuses_codes hentry with rfl | rfl <;> decide
      obtain ⟨hended, himages, harray, hrg⟩ := s.loadFailed_desc (n := n) (p := d.loads id) (id := id) rfl rfl 4 c
      rw [hshows] at hrg
      exact ⟨_, exec_loadProgram_refused head hwork hclaim hidle hsrc hmaint hentry, hended, himages, harray,
        fun o ho => (hrg o).trans (s.failNoted_quiet n c o ho)⟩
  case chunkIdle =>
    change execImageChunkRead data digestOk transient pages s = _
    rw [execImageChunkRead, hidle]
  case chunk =>
    intro p k a ok
    refine ⟨fun hlast => ?_, fun bs hmore hfrom hbytes => ?_⟩
    · change execImageChunkRead data digestOk transient pages s = _
      unfold execImageChunkRead
      refine congrArg Host.Outcome.next ?_
      simp only [hactive]
      exact if_pos hlast
    intro x
    have hexec := exec_imageChunkRead_taken (transient := transient) (pages := pages) hactive (p := p) rfl hmore hfrom hbytes (digestOk := digestOk)
      (ok := ok) rfl (x := x) rfl
    have htaken (hready : x.writes.filter (fun w => ! s.rangeReady (p.dramBase + w.1) w.2.length) = []) :
        exec (.imageChunkRead data digestOk transient pages) s = .next
          (((s.chunkRead n p bs ok (transient + x.bad) pages).writeImage n p p.chunksRead x.writes).setSlot n x.slot) := by
      rw [if_neg (not_not_intro hready)] at hexec
      exact hexec
    obtain ⟨hreadImages, hreadClusters, hreadDram⟩ := s.chunkRead_sameImages n p bs ok (transient + x.bad) pages
    obtain ⟨hwriteImages, hwriteClusters, hwriteDram⟩ := (s.chunkRead n p bs ok (transient + x.bad) pages).writeImage_spec n p p.chunksRead x.writes
    have hslotOf : (((s.chunkRead n p bs ok (transient + x.bad) pages).writeImage n p p.chunksRead x.writes).setSlot n x.slot).images.active = some n :=
      (congrArg ImageSt.active (hwriteImages.trans hreadImages)).trans hactive
    refine ⟨fun hbad => ?_, fun hready => ?_, fun hready => ?_⟩
    · have hwalk : x = ⟨({ p with chunksRead := p.chunksRead + 1 } : ProgSlot).failAs 2, [], 0⟩ := if_pos (by rw [hbad]; rfl)
      have hnone : x.writes = [] := by rw [hwalk]
      refine ⟨_, htaken (by rw [hnone]; rfl), (State.slot_setSlot ..).trans (by rw [hwalk]; rfl), hslotOf, hwriteClusters.trans hreadClusters, ?_⟩
      rw [hnone] at hwriteDram
      exact (show _ = _ by rw [hnone]; exact hwriteDram).trans hreadDram
    · exact ⟨_, htaken ((filter_not_eq_nil_iff ..).2 hready), State.slot_setSlot .., hslotOf, hwriteClusters.trans hreadClusters,
        hwriteDram.trans (State.each_hubWrite_dram_congr p.dramBase x.writes hreadDram)⟩
    · have hwaits : x.writes.filter (fun w => ! s.rangeReady (p.dramBase + w.1) w.2.length) ≠ [] := by
        rw [ne_eq, filter_not_eq_nil_iff, hready]
        decide
      rw [if_pos hwaits] at hexec
      exact ⟨_, hexec, s.each_demand_spec _ p.dramBase⟩
  case signIdle =>
    change execSignatureCheckDone ok s = _
    rw [execSignatureCheckDone, hidle]
  case sign =>
    intro p good f
    refine ⟨fun hsig => ?_, fun hsig hmore => ?_, fun hsig hlast => ?_⟩
    · change execSignatureCheckDone ok s = _
      unfold execSignatureCheckDone
      refine congrArg Host.Outcome.next ?_
      simp only [hactive]
      exact if_pos hsig
    · refine (exec_signatureCheckDone hactive (p := p) rfl hsig ok).trans (congrArg Host.Outcome.next ?_)
      rw [State.tryFinal_signed]
      exact if_pos hmore
    · have hexec := exec_signatureCheckDone hactive (p := p) rfl hsig ok
      rw [State.tryFinal_signed, if_neg (Nat.not_lt.mpr hlast)] at hexec
      refine ⟨fun hpass => ?_, fun hfail hn hoff => ?_⟩
      · exact ⟨_, hexec.trans (congrArg Host.Outcome.next (if_pos hpass)), (s.setSlot n (p.signed good)).finalCheck_spec n⟩
      · exact ⟨_, hexec.trans (congrArg Host.Outcome.next (if_neg hfail)),
          (s.setSlot n (p.signed good)).loadEnds_spec hn (p.signed good) (failOutcome f).1 (failOutcome f).2 (failOutcome_detail_lt f) hoff⟩
  case stage =>
    intro p
    refine ⟨fun h => congrArg Host.Outcome.next (if_neg fun hgo => ?_), fun hphase hlen =>
      ⟨_, congrArg Host.Outcome.next (if_pos ⟨hphase, hlen⟩), s.released_spec n hphase rfl⟩⟩
    rcases h with h | h
    · exact h hgo.1
    · exact absurd hgo.2 (Nat.not_lt.mpr h)
  case autoWaits =>
    change execAutostart s = _
    refine congrArg Host.Outcome.next ?_
    by_cases hgo : (! s.on Reg.GS_STATUS_SETUP_RESTORED || s.images.active.isSome || s.storeMaint) = true
    · exact if_pos hgo
    · have hnone : s.nextAuto = none := by
        rcases h with h | h | h | h
        · simp [h] at hgo
        · simp [h] at hgo
        · simp [h] at hgo
        · exact h
      refine (if_neg hgo).trans ?_
      rw [hnone]
  case auto =>
    intro s k hsetup hidle hmaint hnext hfree w h
    refine ⟨fun c hc => ?_, fun hclaim hentry hok htype => ?_⟩
    · have hd : c < 256 := by
        rcases (Option.orElse_eq_some ..).1 hc with hclaim | ⟨-, hentry⟩
        · rcases State.claim_codes hclaim with rfl | rfl <;> decide
        · rcases State.entryRefuses_codes hentry with rfl | rfl <;> decide
      exact ⟨_, exec_autostart_refused hsetup hidle hmaint hnext hfree rfl hc, s.loadFailed_auto rfl _ hd⟩
    · have hgood : imageFits h none = true := by
        simp only [imageFits, hok, htype]
        rfl
      obtain ⟨himages, hbusy, -, harray, -⟩ := s.openImage_of_good (bits w 9 0) (autoSlot k (tget [] s.store.autos k)) hgood
      have hslot := congrArg (fun x : ImageSt => tget noSlot x.slots (bits w 9 0)) himages
      have hslot := hslot.trans ((tget_tput ..).trans (if_pos rfl))
      exact ⟨_, exec_autostart_opens hsetup hidle hmaint hnext hfree rfl hclaim hentry, congrArg ImageSt.active himages, congrArg ProgSlot.phase hslot,
        congrArg ProgSlot.origin hslot, hbusy, harray⟩
  case evict =>
    intro s ring pos id d hwork n p
    have hexec : exec (.evict ring pos) s = .next (if p.phase = 0 then s.endDesc id 4 15 else if p.inst ≠ d.inst then s.endDesc id 4 14
        else if p.phase = 1 ∨ s.runsBefore n d.order then s else if s.net.step.any (fun x => x.slot == n) then s.setSlot n { p with evicting := true }
        else s.evicted n id (bit (d.w 4) 21)) := by
      change execEvict ring pos s = _
      rw [execEvict, State.work_of_hasWork hwork]
      rfl
    refine ⟨fun hphase => ?_, fun hphase hinst => ?_, fun hphase hinst hwaits => ?_, fun hphase hreg hinst hruns hstep => ?_,
      fun hphase hreg hinst hruns hstep => ?_⟩
    · rw [if_pos hphase] at hexec
      exact ⟨_, hexec, s.endDesc_endedDesc id 4 15, rfl, rfl, rfl, rfl⟩
    · rw [if_neg hphase, if_pos hinst] at hexec
      exact ⟨_, hexec, s.endDesc_endedDesc id 4 14, rfl, rfl, rfl, rfl⟩
    · rw [if_neg hphase, if_neg (not_not_intro hinst), if_pos hwaits] at hexec
      exact hexec
    · rw [if_neg hphase, if_neg (not_not_intro hinst), if_neg (by rw [hruns]; simp [hreg]), if_pos hstep] at hexec
      exact hexec
    · rw [if_neg hphase, if_neg (not_not_intro hinst), if_neg (by rw [hruns]; simp [hreg]), if_neg (by rw [hstep]; decide)] at hexec
      obtain ⟨⟨hstate, hstatus, hdetail⟩, hplanes, hother, hfreed, hkept⟩ := s.evicted_spec n id (bit (d.w 4) 21)
      exact ⟨_, hexec, hstate, hstatus, hdetail, hplanes, hother, hfreed, hkept⟩

end Sys2Proof.Machine

/-! ## Cold resets, set-up and shutdowns (R606, R607, R614, R624, R625, R627, Tables 19.2 and 19.9) -/

namespace Sys2Proof.Machine

/-! ### A cold reset, in full (Table 19.2) -/

theorem State.coldReset_pending (s : State) (cause : Option Nat) : (s.coldReset cause).pending = s.pending := by
  unfold State.coldReset
  dsimp only [State.wrg]
  rw [State.settle_frame]

/-- A cold reset with no entry being deleted leaves what its table keeps, and everything else at reset. -/
theorem State.coldReset_from {s : State} (h : s.noneDeleting) (k : Nat) : ColdFrom s (s.coldReset (some k)) k := by
  have hnil : ((s.store.lib.map fun e : Nat × LibEntry => (e.1, { e.2 with uses := 0 })).filter fun e => e.2.state == 3) = [] := by
    rw [List.filter_eq_nil_iff]
    intro e he hstate
    obtain ⟨e', he', rfl⟩ := List.mem_map.1 he
    exact h e' he' (beq_iff_eq.1 hstate)
  have hlib (e : Nat) : tget noEntry (s.store.lib.map fun x : Nat × LibEntry => (x.1, { x.2 with uses := 0 })) e = { s.lib e with uses := 0 } :=
    tget_map_snd (f := fun x : LibEntry => { x with uses := 0 }) rfl s.store.lib e
  refine (?_ : ∀ t, s.coldReset (some k) = t → ColdFrom s t k) _ rfl
  intro t ht
  have hcause := s.coldReset_cause k
  have hrg (o : Nat) := s.coldReset_rg (some k) (off := o)
  have houtbox := s.coldReset_outbox (some k)
  have hpending := s.coldReset_pending (some k)
  rw [ht] at hcause hrg houtbox hpending
  unfold State.coldReset at ht
  dsimp only at ht
  rw [hnil] at ht
  have hof {α : Type} (f : State → α) := (congrArg f ht).symm
  exact ⟨hof State.clusters, hof State.dram, hof State.mesh, hof State.host, hof State.net, hof State.time, hof State.images, hof State.links,
    hof State.power, hof (·.repair.fenceCount), hof (·.repair.retired), hof (·.repair.fenced), hof (·.store.blocks), hof (·.store.keys),
    hof (·.store.autos), fun e => (hof (·.lib e)).trans (hlib e), hof (·.mgmt.setup), hof (·.mgmt.minSvn), hof (·.mgmt.controllerReset),
    hof (·.mgmt.hubDead), houtbox, hpending, hcause, fun o => hrg o⟩

theorem State.coldReset_dram (s : State) (cause : Option Nat) : (s.coldReset cause).dram = [] := by
  unfold State.coldReset
  dsimp only [State.wrg]
  rw [State.settle_frame]
  rfl

/-! ### Grants (R573, R574, R589) -/

/-- Each cluster's grant of the state (a table of 576 entries, never to be evaluated by unification). -/
@[irreducible] def State.grants (s : State) : Table Nat := (List.range 576).map fun n => (n, s.grant n)

theorem State.tget_grants (s : State) {n : Nat} (hn : n < 576) : tget 0 s.grants n = s.grant n := by
  unfold State.grants
  exact tget_range_map s.grant hn

/-- The grants g and the least maximum m. -/
def State.granting (s : State) (g : Table Nat) (m : Nat) : State := (s.setPower { s.power with granted := g }).setF Reg.PWR_FREQ_MIN_FMAX_MHZ m

/-- The regulators are told of the dies whose highest grant has changed. -/
def State.tellDies (t s : State) (l : List Nat) : State :=
  t.each l fun u d => if u.dieTop d = s.dieTop d then u else u.free.2.emit (.avs d u.free.1.toNat)

theorem State.tellDies_rest (t s : State) (l : List Nat) :
    t.tellDies s l = { t with freeCount := (t.tellDies s l).freeCount, outbox := (t.tellDies s l).outbox } := by
  unfold State.tellDies
  induction l generalizing t with
  | nil => rfl
  | cons d l ih =>
    rw [State.each_cons, ih]
    split
    · rfl
    · rw [State.emit_eq]
      rfl

theorem State.regrant_eq (s : State) : ∃ m, s.regrant = (s.granting s.grants m).tellDies s (List.range 4) := by
  unfold State.grants
  exact ⟨_, rfl⟩

/-- What does not look at what is sent or drawn sees the grants alone. -/
theorem State.regrant_of (s : State) {α : Type} (f : State → α) (hf : ∀ (t : State) (c : Nat) (o : List Output),
    f { t with freeCount := c, outbox := o } = f t) : ∃ m, f s.regrant = f (s.granting s.grants m) := by
  obtain ⟨m, h⟩ := s.regrant_eq
  rw [h, State.tellDies_rest]
  exact ⟨m, hf ..⟩

section
variable (s : State) (g : Table Nat) (m : Nat)

theorem State.granting_power : (s.granting g m).power = { s.power with granted := g } := rfl
theorem State.granting_mgmt : (s.granting g m).mgmt = s.mgmt := rfl
theorem State.granting_repair : (s.granting g m).repair = s.repair := rfl
theorem State.granting_array : SameArray s (s.granting g m) := ⟨rfl, rfl⟩
theorem State.granting_rg {o : Nat} (h : o ≠ Reg.PWR_FREQ) : (s.granting g m).rg o = s.rg o :=
  State.rg_setF_of_ne _ (x := Reg.PWR_FREQ_MIN_FMAX_MHZ) h _

end

theorem State.regrant_rg (s : State) {o : Nat} (h : o ≠ Reg.PWR_FREQ) : s.regrant.rg o = s.rg o := by
  obtain ⟨m, hm⟩ := s.regrant_of (·.rg o) fun _ _ _ => rfl
  exact hm.trans (s.granting_rg _ m h)

theorem State.regrant_power (s : State) : s.regrant.power = { s.power with granted := s.grants } := by
  obtain ⟨m, hm⟩ := s.regrant_of State.power fun _ _ _ => rfl
  exact hm.trans (s.granting_power _ m)

theorem State.regrant_granted (s : State) {n : Nat} (hn : n < 576) : tget 0 s.regrant.power.granted n = s.grant n := by
  have h : s.regrant.power.granted = s.grants := congrArg PowerSt.granted s.regrant_power
  exact (congrArg (tget 0 · n) h).trans (s.tget_grants hn)

theorem State.regrant_mgmt (s : State) : s.regrant.mgmt = s.mgmt := by
  obtain ⟨m, hm⟩ := s.regrant_of State.mgmt fun _ _ _ => rfl
  exact hm.trans (s.granting_mgmt _ m)

theorem State.regrant_repair (s : State) : s.regrant.repair = s.repair := by
  obtain ⟨m, hm⟩ := s.regrant_of State.repair fun _ _ _ => rfl
  exact hm.trans (s.granting_repair _ m)

theorem State.regrant_sameArray (s : State) : SameArray s s.regrant := by
  obtain ⟨m, hclusters⟩ := s.regrant_of State.clusters fun _ _ _ => rfl
  obtain ⟨m', hdram⟩ := s.regrant_of State.dram fun _ _ _ => rfl
  exact ⟨hclusters.trans (s.granting_array _ m).1, hdram.trans (s.granting_array _ m').2⟩

/-- At the floor every cluster that is in service has 300 MHz. -/
theorem State.grant_of_floored {s : State} (h : s.floored = true) (n : Nat) :
    s.grant n = if s.isFenced n || s.power.trip || s.fd Reg.PWR_STATUS_STATE == 3 then 0 else 300 := by
  have hout : (s.isFenced n || s.power.trip || s.fd Reg.PWR_STATUS_STATE == 3) = (s.isFenced n || s.power.trip || s.fd Reg.PWR_STATUS_STATE = 3) := by
    by_cases hstate : s.fd Reg.PWR_STATUS_STATE = 3 <;> simp [hstate]
  rw [hout]
  exact if_congr Iff.rfl rfl (if_pos h)

/-! ### The set-up record (R614, R615) -/

theorem State.regWrite_setup (s : State) (v : Word) (vf : Bool) : s.regWrite Reg.GS_SETUP v vf = s.setupWrite v := rfl

theorem exec_setupSave_of_open {s : State} (hopen : s.open) (v : Word) : exec (.setupSave v) s = .next (s.setupWrite v) := by
  change execSetupSave v s = _
  rw [execSetupSave, State.barWrite_four_of_open hopen (by decide), State.regWrite_setup]

theorem exec_setupSave_early {s : State} (hready : s.on Reg.GS_STATUS_READY = false) {v : Word} (hsave : bit v 31 = true) :
    exec (.setupSave v) s = .next ((s.rejectWrite Reg.GS_SETUP).setF Reg.GS_SETUP_RESULT 2) := by
  have hsave' : bit (v.setWidth 64) 31 = true := by
    have hbit : bit (v.setWidth 64) 31 = bit v 31 := by simp [bit]
    rw [hbit, hsave]
  have hrefused : s.writeAllowed Reg.GS_SETUP = false := by simp [State.writeAllowed, hready]
  change execSetupSave v s = _
  rw [execSetupSave, State.barWrite, if_neg (by decide), if_pos (by simp [hrefused])]
  exact congrArg Host.Outcome.next (if_pos ⟨rfl, hsave', by simp [hready]⟩)

/-! ### A power warning (R624, R625) -/

/-- Runs that stop leave no step in progress, and leave what the end of runs leaves. -/
theorem State.stopRuns_runsEnd (s : State) : RunsEnd s s.stopRuns ∧ s.stopRuns.net.step = none := by
  unfold State.stopRuns
  split
  · next hnone => exact ⟨.refl s, hnone⟩
  · exact ⟨((s.stopClusters_runsEnd.trans (State.endEpisodes_runsEnd _)).trans (State.cond_runsEnd _ _ fun u => u.rollback_runsEnd)).trans
      (State.setStep_runsEnd ..), rfl⟩

/-- The event bit of MG_ALERT apart, an event leaves the alerts. -/
theorem State.post_alert (s : State) (cls unit stop action detail : Nat) (owner : Option (Nat × Nat)) (lc : Option Nat) {k : Nat} (hk : k < 4) :
    (s.post cls unit stop action detail owner lc).fd ⟨Reg.MG_ALERT, k, k⟩ = s.fd ⟨Reg.MG_ALERT, k, k⟩ := by
  have he : (s.rg Reg.FH_EVT_HEAD).toNat % 256 < 256 := Nat.mod_lt _ (by decide)
  unfold State.post
  dsimp only
  generalize (s.rg Reg.FH_EVT_HEAD).toNat % 256 = e at he
  rw [State.alert, State.drivePins_fd, State.fd_setF_apart _ (x := ⟨Reg.MG_ALERT, 4, 4⟩) (y := ⟨Reg.MG_ALERT, k, k⟩) rfl (.inr hk) (Nat.le_refl 4)
    (Nat.le_refl k)]
  have hword (off : Nat) (h : 0x36000 ≤ off) : Reg.MG_ALERT ≠ off := by
    simp only [Reg.MG_ALERT]
    omega
  refine State.fd_congr ((State.irq_rg _ 2 (show Reg.MG_ALERT ≠ _ by decide)).trans ((State.rg_inc_of_ne _ (show Reg.MG_ALERT ≠ _ by decide)).trans ?_))
  rw [State.rg_wrg_of_ne _ (hword _ (by simp only [Reg.EVT_LC]; omega)), State.rg_wrg_of_ne _ (hword _ (by simp only [Reg.EVT_SEQ]; omega)),
    State.rg_wrg_of_ne _ (hword _ (by simp only [Reg.EVT_ANGLE]; omega)), State.rg_wrg_of_ne _ (hword _ (by simp only [Reg.EVT_TURN]; omega)),
    State.rg_wrg_of_ne _ (hword _ (by simp only [Reg.EVT_OWNER]; omega)), State.rg_wrg_of_ne _ (hword _ (by simp only [Reg.EVT_ACTION]; omega)),
    State.rg_wrg_of_ne _ (hword _ (by simp only [Reg.EVT_CAUSE]; omega))]

/-- A rollback posts events at most. -/
theorem State.rollback_alert (s : State) {k : Nat} (hk : k < 4) : s.rollback.fd ⟨Reg.MG_ALERT, k, k⟩ = s.fd ⟨Reg.MG_ALERT, k, k⟩ := by
  have hundo (u : State) (inst base j : Nat) : (u.undo inst base j).fd ⟨Reg.MG_ALERT, k, k⟩ = u.fd ⟨Reg.MG_ALERT, k, k⟩ := by
    unfold State.undo
    dsimp only
    split
    · exact State.fd_congr (congrArg (tget (regReset Reg.MG_ALERT) · Reg.MG_ALERT) (u.wrBytes_regs _ _))
    · unfold State.lostRecord
      dsimp only
      refine (State.post_alert _ _ _ _ _ _ _ _ hk).trans (State.fd_congr (?_ : _ = u.rg Reg.MG_ALERT))
      change (State.wrg ..).rg Reg.MG_ALERT = _
      rw [State.rg_wrg_of_ne _ (by decide), State.rg_wrg_of_ne _ (by decide), State.rg_setF_of_ne _ (x := Reg.DRAM_LOST_INSTANCE) (by decide),
        State.rg_setF_of_ne _ (x := Reg.DRAM_LOST_VALID) (by decide)]
      exact State.rg_inc_of_ne _ (by decide)
  have hall (n : Nat) : ∀ (u : State) (inst base : Nat), (u.undoAll inst base n).fd ⟨Reg.MG_ALERT, k, k⟩ = u.fd ⟨Reg.MG_ALERT, k, k⟩ := by
    induction n with
    | zero => exact fun _ _ _ => rfl
    | succ n ih => exact fun u inst base => (ih _ inst base).trans (hundo u inst base n)
  unfold State.rollback
  split
  · rfl
  · next x _ =>
    have hrg (u : State) (y : StepSt) : ((u.putJournalHeader y).setStep (some y)).rg Reg.MG_ALERT = u.rg Reg.MG_ALERT :=
      (State.setStep_rg ..).trans (u.putJournalHeader_rg y _)
    exact (State.fd_congr (x := ⟨Reg.MG_ALERT, k, k⟩) (hrg _ _)).trans (hall ..)

theorem State.stopRuns_alert (s : State) {k : Nat} (hk : k < 4) : s.stopRuns.fd ⟨Reg.MG_ALERT, k, k⟩ = s.fd ⟨Reg.MG_ALERT, k, k⟩ := by
  unfold State.stopRuns
  split
  · rfl
  · unfold State.cond
    split
    · exact (State.rollback_alert _ hk).trans rfl
    · rfl

theorem not_runReg_of_lt {o : Nat} (ho : o < 0x10000 ∨ (0x20000 ≤ o ∧ o < 0x30000)) (halert : o ≠ Reg.MG_ALERT) (hirq : o ≠ Reg.IRQ_STATUS) : ¬ RunReg o := by
  simp only [Reg.MG_ALERT, Reg.IRQ_STATUS] at halert hirq
  simp only [RunReg, List.mem_cons, List.not_mem_nil, or_false, Reg.FH_CPL_MISMATCH, Reg.DRAM_LOST, Reg.DRAM_LOST_ADDR_LO, Reg.DRAM_LOST_ADDR_HI,
    Reg.FH_EVT_HEAD, Reg.MG_ALERT, Reg.IRQ_STATUS, Reg.SES_REFUSED, Reg.GRP_DELIVERED, Reg.GRP_DOWN_DROPPED, Reg.DL_UNCHECKED, Reg.DL_ABANDONS]
  rintro (h | h | ⟨i, k, -, h⟩) <;> omega

/-- A power warning with none under way: what the module is before the grants. -/
def State.warned (s : State) : State :=
  (((s.setMgmt { s.mgmt with warn := true, restartCount := false }).setF Reg.GS_STATUS_SHUTTING_DOWN 1).alert 2).stopRuns

theorem State.warned_spec (s : State) : s.warned.on Reg.GS_STATUS_SHUTTING_DOWN = true ∧
    s.warned.mgmt = { s.mgmt with warn := true, restartCount := false } ∧ s.warned.net.step = none ∧ s.warned.fd ⟨Reg.MG_ALERT, 2, 2⟩ = 1 ∧
    s.warned.repair.fenced = s.repair.fenced ∧ s.warned.power = s.power ∧ s.warned.rg Reg.PWR_STATUS = s.rg Reg.PWR_STATUS := by
  have hrun : ¬ RunReg Reg.GS_STATUS ∧ ¬ RunReg Reg.PWR_STATUS :=
    ⟨not_runReg_of_lt (by decide) (by decide) (by decide), not_runReg_of_lt (by decide) (by decide) (by decide)⟩
  obtain ⟨hends, hnone⟩ := (((s.setMgmt { s.mgmt with warn := true, restartCount := false }).setF Reg.GS_STATUS_SHUTTING_DOWN 1).alert 2).stopRuns_runsEnd
  have halert := (((s.setMgmt { s.mgmt with warn := true, restartCount := false }).setF Reg.GS_STATUS_SHUTTING_DOWN 1).alert 2).stopRuns_alert
    (k := 2) (by decide)
  rw [State.alert_fd _ (by decide)] at halert
  have hreports := (Reports.refl (W := (· = Reg.MG_ALERT))
    ((s.setMgmt { s.mgmt with warn := true, restartCount := false }).setF Reg.GS_STATUS_SHUTTING_DOWN 1)).alert rfl 2
  unfold State.warned
  generalize (((s.setMgmt { s.mgmt with warn := true, restartCount := false }).setF Reg.GS_STATUS_SHUTTING_DOWN 1).alert 2) = u at hends halert hreports hnone ⊢
  generalize u.stopRuns = t at *
  have hstatus := (hends.rg _ hrun.1).trans (hreports.regs Reg.GS_STATUS (by decide))
  have hpower := (hends.rg _ hrun.2).trans (hreports.regs Reg.PWR_STATUS (by decide))
  refine ⟨(State.on_congr hstatus).trans (State.on_setF_one _ rfl (by decide)), ?_, hnone, halert, ?_, ?_, hpower.trans ?_⟩
  · rw [hends.rest, hreports.rest]
    rfl
  · rw [hends.rest, hreports.rest]
    rfl
  · rw [hends.rest, hreports.rest]
    rfl
  · rw [State.rg_setF_of_ne _ (by decide), State.setMgmt_rg]

/-! ### The end of a shutdown (R625, R627) -/

/-- An entry write and a firmware update that a shutdown ends. -/
def State.writeEnded (s : State) : State := s.cond s.store.writing.isSome fun u => u.stwEnd 5
def State.updateEnded (s : State) : State :=
  s.cond (s.on Reg.MAINT_STATUS_BUSY && s.fd Reg.MAINT_STATUS_CMD == 5) fun u => (u.setMgmt { u.mgmt with updating := none }).maintEnd 3

theorem State.writeEnded_spec (s : State) : s.writeEnded.store.writing = none ∧ s.writeEnded.mgmt = s.mgmt ∧ SameArray s s.writeEnded ∧
    RegsBut s s.writeEnded [Reg.STW_CTRL, Reg.ST_STATUS] ∧
    (s.store.writing.isSome = true → s.writeEnded.fd Reg.STW_CTRL_RESULT = 5 ∧ s.writeEnded.on Reg.STW_CTRL_DONE = true) := by
  obtain ⟨hdone, -, hresult, hrest, hregs⟩ := s.stwEnd_spec (r := 5) (by decide)
  by_cases h : s.store.writing.isSome = true
  · have hended : s.writeEnded = s.stwEnd 5 := if_pos h
    rw [hended]
    exact ⟨by rw [hrest], by rw [hrest], by rw [hrest]; exact ⟨rfl, rfl⟩, hregs, fun _ => ⟨hresult, hdone⟩⟩
  · have hended : s.writeEnded = s := if_neg h
    rw [hended]
    exact ⟨by simpa using h, rfl, ⟨rfl, rfl⟩, fun _ _ => rfl, fun hsome => absurd hsome h⟩

/-- The end of a maintenance command: its status, and the interrupt. -/
theorem State.maintEnd_spec (s : State) {r : Nat} (hr : r < 4) : (s.maintEnd r).on Reg.MAINT_STATUS_BUSY = false ∧
    (s.maintEnd r).fd Reg.MAINT_STATUS_RESULT = r ∧ (s.maintEnd r).mgmt = s.mgmt ∧ (s.maintEnd r).store = s.store ∧ SameArray s (s.maintEnd r) ∧
    RegsBut s (s.maintEnd r) [Reg.MAINT_STATUS, Reg.IRQ_STATUS] := by
  have hirq (u : State) := (Reports.refl (W := (· = Reg.IRQ_STATUS)) u).irq rfl 0
  have hshown (u : State) (hu : u.regs = (((s.setF Reg.MAINT_STATUS_BUSY 0).setF Reg.MAINT_STATUS_DONE 1).setF Reg.MAINT_STATUS_RESULT r).regs) (o : Nat) :
      u.rg o = (((s.setF Reg.MAINT_STATUS_BUSY 0).setF Reg.MAINT_STATUS_DONE 1).setF Reg.MAINT_STATUS_RESULT r).rg o :=
    congrArg (tget (regReset o) · o) hu
  obtain ⟨u, hend, hu, hrest⟩ : ∃ u : State, s.maintEnd r = u.irq 0 ∧
      u.regs = (((s.setF Reg.MAINT_STATUS_BUSY 0).setF Reg.MAINT_STATUS_DONE 1).setF Reg.MAINT_STATUS_RESULT r).regs ∧
      u = { s with host := u.host, regs := u.regs } := ⟨_, rfl, rfl, rfl⟩
  have hshown := hshown u hu
  have hframe := hirq u
  have hregs := hframe.regs
  rw [hend]
  refine ⟨?_, ?_, by rw [hframe.rest, hrest], by rw [hframe.rest, hrest], ?_, fun o ho => ?_⟩
  · rw [State.on_congr ((hregs _ (by decide)).trans (hshown _)),
      State.on_setF_apart _ (x := Reg.MAINT_STATUS_RESULT) (y := Reg.MAINT_STATUS_BUSY) rfl (by decide) (by decide) (by decide),
      State.on_setF_apart _ (x := Reg.MAINT_STATUS_DONE) (y := Reg.MAINT_STATUS_BUSY) rfl (by decide) (by decide) (by decide)]
    exact State.on_setF_zero _ rfl (by decide)
  · rw [State.fd_congr ((hregs _ (by decide)).trans (hshown _)), State.fd_setF_same _ (x := Reg.MAINT_STATUS_RESULT) (by decide) (by decide)]
    exact Nat.mod_eq_of_lt hr
  · rw [hframe.rest, hrest]
    exact ⟨rfl, rfl⟩
  · simp only [List.mem_cons, List.not_mem_nil, or_false, not_or] at ho
    rw [hregs o ho.2, hshown, State.rg_setF_of_ne _ (x := Reg.MAINT_STATUS_RESULT) ho.1, State.rg_setF_of_ne _ (x := Reg.MAINT_STATUS_DONE) ho.1,
      State.rg_setF_of_ne _ (x := Reg.MAINT_STATUS_BUSY) ho.1]

theorem State.updateEnded_spec (s : State) : s.updateEnded.store = s.store ∧ SameArray s s.updateEnded ∧
    RegsBut s s.updateEnded [Reg.MAINT_STATUS, Reg.IRQ_STATUS] ∧ s.updateEnded.mgmt = { s.mgmt with updating := s.updateEnded.mgmt.updating } ∧
    (s.on Reg.MAINT_STATUS_BUSY = true → s.fd Reg.MAINT_STATUS_CMD = 5 → s.updateEnded.on Reg.MAINT_STATUS_BUSY = false ∧
      s.updateEnded.fd Reg.MAINT_STATUS_RESULT = 3 ∧ s.updateEnded.mgmt.updating = none) := by
  obtain ⟨hbusy, hresult, hmgmt, hstore, harray, hregs⟩ := (s.setMgmt { s.mgmt with updating := none }).maintEnd_spec (r := 3) (by decide)
  by_cases h : (s.on Reg.MAINT_STATUS_BUSY && s.fd Reg.MAINT_STATUS_CMD == 5) = true
  · have hended : s.updateEnded = (s.setMgmt { s.mgmt with updating := none }).maintEnd 3 := if_pos h
    rw [hended]
    exact ⟨hstore, harray, hregs, by rw [hmgmt]; rfl, fun _ _ => ⟨hbusy, hresult, by rw [hmgmt]; rfl⟩⟩
  · have hended : s.updateEnded = s := if_neg h
    rw [hended]
    exact ⟨rfl, ⟨rfl, rfl⟩, fun _ _ => rfl, rfl, fun hb hc => absurd (by simp [hb, hc]) h⟩

/-- What follows the end of a shutdown: the cold reset that waited, or the restart's count. -/
def State.afterShutdown (s : State) : State :=
  match s.mgmt.coldDue with
  | some k => s.coldReset (some k)
  | none => s.setMgmt { s.mgmt with restartCount := ! s.mgmt.warn }

theorem State.afterShutdown_none {s : State} (h : s.mgmt.coldDue = none) :
    s.afterShutdown = s.setMgmt { s.mgmt with restartCount := ! s.mgmt.warn } := by
  rw [State.afterShutdown, h]

theorem State.afterShutdown_some {s : State} {k : Nat} (h : s.mgmt.coldDue = some k) : s.afterShutdown = s.coldReset (some k) := by
  rw [State.afterShutdown, h]

theorem exec_shutdownDone {s : State} (h : s.inShutdown = true) :
    exec .shutdownDone s = .next (s.writeEnded.updateEnded.setF Reg.GS_STATUS_SHUTDOWN_DONE 1).afterShutdown := by
  change execShutdownDone s = _
  exact congrArg Host.Outcome.next ((if_neg (by rw [h]; decide)).trans rfl)

theorem State.ended_coldDue (s : State) : (s.writeEnded.updateEnded.setF Reg.GS_STATUS_SHUTDOWN_DONE 1).mgmt.coldDue = s.mgmt.coldDue := by
  obtain ⟨-, hmgmt, -⟩ := s.writeEnded_spec
  obtain ⟨-, -, -, hmgmt', -⟩ := s.writeEnded.updateEnded_spec
  rw [State.setF_mgmt, hmgmt', hmgmt]

/-- Settles O58: each command of set-up and shutdown takes the branch of its rule, and a cold reset leaves what its table keeps. -/
theorem setUpIsSavedAndRestoredAndShutdownsRunToTheirEnd : Obligations.SetUpIsSavedAndRestoredAndShutdownsRunToTheirEnd := by
  refine ⟨fun s v => ⟨fun hopen hsave => ?noSave, fun hopen hsave hsaving => ?busy, fun hopen hsave hidle => ?save, fun hready hsave => ?early⟩,
    fun s ok hnone => ?noDone, fun s r hsaving => ?stored, fun s => ⟨fun h => ?restoreWaits, fun hready hctl hcold => ?restore⟩,
    fun s => ⟨fun h => ?warnAgain, fun hcold hdown => ?warn⟩, fun s => ⟨fun h => ?noShutdown, fun h hcold => ?done, ?cold, rfl, ?noRestart, ?restart⟩⟩
  case noSave =>
    rw [Passes, exec_setupSave_of_open hopen]
    exact congrArg Host.Outcome.next (if_pos (by simp [hsave]))
  case busy =>
    have hwrite : s.setupWrite v = s.setF Reg.GS_SETUP_RESULT 2 := (if_neg (by simp [hsave])).trans (if_pos hsaving)
    refine ⟨_, exec_setupSave_of_open hopen v, ?_⟩
    dsimp only
    rw [hwrite]
    exact ⟨State.fd_setF_same _ (by decide) (by decide) 2, (OnlyRegs.refl s _).setF (List.mem_singleton.2 rfl) 2⟩
  case save =>
    have hwrite : s.setupWrite v = (s.setMgmt { s.mgmt with saving := some s.snapshot }).setF Reg.GS_SETUP_SAVING 1 :=
      (if_neg (by simp [hsave])).trans (if_neg (by simp [hidle]))
    refine ⟨_, exec_setupSave_of_open hopen v, ?_⟩
    dsimp only
    rw [hwrite]
    exact ⟨State.on_setF_one _ rfl (by decide), rfl, ⟨rfl, rfl⟩, fun o ho => State.rg_setF_of_ne _ (x := Reg.GS_SETUP_SAVING) (List.mem_singleton.not.1 ho) 1⟩
  case early =>
    refine ⟨_, exec_setupSave_early hready hsave, State.fd_setF_same _ (by decide) (by decide) 2, ?_, ?_⟩
    · rw [State.rg_setF_of_ne _ (by decide), State.rejectWrite, State.rg_setF_of_ne _ (by decide)]
      exact s.rg_inc_same _
    · exact (((OnlyRegs.refl s _).wrg (off := Reg.REJECTED_WRITES) (by simp) _).setF (x := Reg.REJECTED_LAST_OFFSET) (by simp [Reg.REJECTED_LAST_OFFSET]) _).setF
        (x := Reg.GS_SETUP_RESULT) (by simp [Reg.GS_SETUP_RESULT]) 2
  case noDone =>
    change execSetupSaveDone ok s = _
    rw [execSetupSaveDone, hnone]
  case stored =>
    have hstored : exec (.setupSaveDone true) s = .next ((((s.setF Reg.GS_SETUP_SAVING 0).setMgmt { s.mgmt with
        saving := none, setup := some r, setupVersion := (s.mgmt.setupVersion + 1) % 2 ^ 16 }).setF Reg.GS_SETUP_RESULT 1).setF Reg.GS_SETUP_VALID 1
        |>.setF Reg.GS_SETUP_VERSION ((s.mgmt.setupVersion + 1) % 2 ^ 16)) := by
      change execSetupSaveDone true s = _
      rw [execSetupSaveDone, hsaving]
      rfl
    have hfailed : exec (.setupSaveDone false) s = .next (((s.setF Reg.GS_SETUP_SAVING 0).setMgmt { s.mgmt with saving := none }).setF
        Reg.GS_SETUP_RESULT 2) := by
      change execSetupSaveDone false s = _
      rw [execSetupSaveDone, hsaving]
      rfl
    refine ⟨⟨_, hstored, ?_, ?_, ?_, ?_, rfl, fun o ho => ?_⟩, ⟨_, hfailed, ?_, State.fd_setF_same _ (by decide) (by decide) 2, rfl, fun o ho => ?_⟩⟩
    · rw [State.on_setF_apart _ (x := Reg.GS_SETUP_VERSION) (y := Reg.GS_SETUP_SAVING) rfl (by decide) (by decide) (by decide),
        State.on_setF_apart _ (x := Reg.GS_SETUP_VALID) (y := Reg.GS_SETUP_SAVING) rfl (by decide) (by decide) (by decide),
        State.on_setF_apart _ (x := Reg.GS_SETUP_RESULT) (y := Reg.GS_SETUP_SAVING) rfl (by decide) (by decide) (by decide), State.setMgmt_on]
      exact s.on_setF_zero rfl (by decide)
    · rw [State.fd_setF_apart _ (x := Reg.GS_SETUP_VERSION) (y := Reg.GS_SETUP_RESULT) rfl (by decide) (by decide) (by decide),
        State.fd_setF_apart _ (x := Reg.GS_SETUP_VALID) (y := Reg.GS_SETUP_RESULT) rfl (by decide) (by decide) (by decide)]
      exact State.fd_setF_same _ (by decide) (by decide) 1
    · rw [State.on_setF_apart _ (x := Reg.GS_SETUP_VERSION) (y := Reg.GS_SETUP_VALID) rfl (by decide) (by decide) (by decide)]
      exact State.on_setF_one _ rfl (by decide)
    · exact (State.fd_setF_same _ (x := Reg.GS_SETUP_VERSION) (by decide) (by decide) _).trans (Nat.mod_mod _ _)
    · have ho : o ≠ Reg.GS_SETUP := by simpa using ho
      rw [State.rg_setF_of_ne _ (x := Reg.GS_SETUP_VERSION) ho, State.rg_setF_of_ne _ (x := Reg.GS_SETUP_VALID) ho,
        State.rg_setF_of_ne _ (x := Reg.GS_SETUP_RESULT) ho, State.setMgmt_rg, State.rg_setF_of_ne _ (x := Reg.GS_SETUP_SAVING) ho]
    · rw [State.on_setF_apart _ (x := Reg.GS_SETUP_RESULT) (y := Reg.GS_SETUP_SAVING) rfl (by decide) (by decide) (by decide), State.setMgmt_on]
      exact s.on_setF_zero rfl (by decide)
    · have ho : o ≠ Reg.GS_SETUP := by simpa using ho
      rw [State.rg_setF_of_ne _ (x := Reg.GS_SETUP_RESULT) ho, State.setMgmt_rg, State.rg_setF_of_ne _ (x := Reg.GS_SETUP_SAVING) ho]
  case restoreWaits =>
    exact congrArg Host.Outcome.next (if_pos (by rcases h with h | h | h <;> simp [h]))
  case restore =>
    have hgo : ¬ (! s.on Reg.GS_STATUS_READY || s.mgmt.controllerReset || s.inCold) = true := by simp [hready, hctl, hcold]
    refine ⟨fun hfirst hnone => ?_, fun r hfirst hr => ?_, fun hdone hwait => ?_, fun r hdone hr hauto hloading => ?_⟩
    · have hexec : exec .setupRestore s = .next (s.setF Reg.GS_STATUS_SETUP_RESTORED 1) := by
        refine congrArg Host.Outcome.next ((if_neg hgo).trans ((if_pos (by simp [hfirst])).trans ?_))
        simp only [hnone]
      exact ⟨_, hexec, State.on_setF_one _ rfl (by decide), (OnlyRegs.refl s _).setF (List.mem_singleton.2 rfl) 1⟩
    · intro u
      have hexec : exec .setupRestore s = .next (((u.setMgmt { u.mgmt with restore := some (r.filter fun e => isBatch e.1) }).setF Reg.GS_SETUP_VERSION
          u.mgmt.setupVersion).setF Reg.GS_STATUS_SETUP_RESTORED 1) := by
        refine congrArg Host.Outcome.next ((if_neg hgo).trans ((if_pos (by simp [hfirst])).trans ?_))
        simp only [hr]
        rfl
      refine ⟨_, hexec, State.on_setF_one _ rfl (by decide), ?_, ?_, ⟨?_, ?_⟩, fun o ho => ?_⟩
      · rw [State.setF_mgmt, State.setF_mgmt]
        rfl
      · rw [State.setF_time, State.setF_time]
        rfl
      · rw [State.setF_clusters, State.setF_clusters]
        rfl
      · rw [State.setF_dram, State.setF_dram]
        rfl
      · simp only [List.mem_cons, List.not_mem_nil, or_false, not_or] at ho
        rw [State.rg_setF_of_ne _ (x := Reg.GS_STATUS_SETUP_RESTORED) ho.1, State.rg_setF_of_ne _ (x := Reg.GS_SETUP_VERSION) ho.2, State.setMgmt_rg]
    · refine congrArg Host.Outcome.next ((if_neg hgo).trans ((if_neg (by simp [hdone])).trans ?_))
      cases hr : s.mgmt.restore with
      | none => rfl
      | some r =>
        refine if_pos ?_
        rcases hwait with h | h | h
        · rw [hr] at h
          cases h
        · simp [h]
        · simp [h]
    · have hexec : exec .setupRestore s = .next ((s.each r State.restoreOne).setMgmt { (s.each r State.restoreOne).mgmt with restore := none }) := by
        refine congrArg Host.Outcome.next ((if_neg hgo).trans ((if_neg (by simp [hdone])).trans ?_))
        simp only [hr]
        exact if_neg (by simp [hauto, hloading])
      exact ⟨_, hexec, rfl, rfl⟩
  case warnAgain =>
    exact congrArg Host.Outcome.next (if_pos (by rcases h with h | h <;> simp [h]))
  case warn =>
    have hexec : exec .shutdown s = .next s.warned.regrant := congrArg Host.Outcome.next (if_neg (by simp [hcold, hdown]))
    obtain ⟨hdown', hmgmt, hstep, halert, hfenced, hpower, hstatus⟩ := s.warned_spec
    have hfloor : s.warned.floored = true := by simp [State.floored, hdown']
    refine ⟨_, hexec, ?_, ?_, ?_, fun n hn => ?_, ?_⟩
    · exact (State.on_congr (State.regrant_rg _ (by decide))).trans hdown'
    · exact (State.regrant_mgmt _).trans hmgmt
    · exact (congrArg NetSt.step (State.regrant_net _)).trans hstep
    · rw [State.regrant_granted _ hn, State.grant_of_floored hfloor, State.isFenced, hfenced, hpower, State.fd_congr hstatus, State.isFenced]
    · exact (State.fd_congr (State.regrant_rg _ (by decide))).trans halert
  case noShutdown => exact congrArg Host.Outcome.next (if_pos (by simp [h]))
  case done =>
    obtain ⟨hwriting, hmgmt, harray, hregs, hresult⟩ := s.writeEnded_spec
    have hmaint := hregs Reg.MAINT_STATUS (by decide)
    generalize hu : s.writeEnded = u at *
    have hexec := exec_shutdownDone h
    rw [State.afterShutdown_none (s.ended_coldDue.trans hcold), hu] at hexec
    obtain ⟨hstore, harray', hregs', hmgmt', hended⟩ := u.updateEnded_spec
    generalize u.updateEnded = v at *
    have hshown (o : Nat) (ho : o ≠ Reg.GS_STATUS) : ((v.setF Reg.GS_STATUS_SHUTDOWN_DONE 1).setMgmt { (v.setF Reg.GS_STATUS_SHUTDOWN_DONE 1).mgmt with
        restartCount := ! (v.setF Reg.GS_STATUS_SHUTDOWN_DONE 1).mgmt.warn }).rg o =
        v.rg o := (State.setMgmt_rg ..).trans (State.rg_setF_of_ne _ (x := Reg.GS_STATUS_SHUTDOWN_DONE) ho 1)
    refine ⟨_, hexec, ?_, ?_, ?_, ?_, fun hw => ?_, fun hbusy hcmd => ?_⟩
    · rw [State.setMgmt_on]
      exact State.on_setF_one _ rfl (by decide)
    · change (! v.mgmt.warn) = _
      rw [hmgmt', hmgmt]
    · exact (congrArg StoreSt.writing hstore).trans hwriting
    · exact (harray.trans harray').trans ⟨rfl, rfl⟩
    · obtain ⟨h5, hdone⟩ := hresult hw
      exact ⟨(State.fd_congr ((hshown _ (by decide)).trans (hregs' _ (by decide)))).trans h5,
        (State.on_congr ((hshown _ (by decide)).trans (hregs' _ (by decide)))).trans hdone⟩
    · obtain ⟨hidle, h3, hnone⟩ := hended ((State.on_congr hmaint).trans hbusy) ((State.fd_congr hmaint).trans hcmd)
      refine ⟨(State.on_congr (hshown _ (by decide))).trans hidle, (State.fd_congr (hshown _ (by decide))).trans h3, hnone, ?_, ?_⟩
      · change v.mgmt.copyA = _
        rw [hmgmt', hmgmt]
      · change v.mgmt.copyB = _
        rw [hmgmt', hmgmt]
  case cold =>
    intro k h hcold
    obtain ⟨-, -, -, hregs, -⟩ := s.writeEnded_spec
    obtain ⟨-, -, hregs', -, -⟩ := s.writeEnded.updateEnded_spec
    have hexec := exec_shutdownDone h
    rw [State.afterShutdown_some (s.ended_coldDue.trans hcold)] at hexec
    refine ⟨_, hexec, State.coldReset_clusters .., State.coldReset_dram .., ?_, ?_⟩
    · rw [State.coldReset_mgmt]
      rfl
    · rw [State.coldReset_cause, State.rg_setF_of_ne _ (by decide), hregs' _ (by decide), hregs _ (by decide)]
  case noRestart =>
    intro h
    exact congrArg Host.Outcome.next (if_neg (by simp [h]))
  case restart =>
    intro h hnone
    exact ⟨_, congrArg Host.Outcome.next (if_pos h), State.coldReset_from hnone 2⟩

end Sys2Proof.Machine

/-! ## Power: control periods, ageing, gaps, droop, VR_ALERT_N and PWR_CTRL (R573 to R590) -/

namespace Sys2Proof.Machine

/-! ### What a grant looks at (R574, R589) -/

/-- Nothing that a cluster's grant looks at differs. -/
structure KeepsGrants (s t : State) : Prop where
  ctrl : t.rg Reg.PWR_CTRL = s.rg Reg.PWR_CTRL
  status : t.rg Reg.PWR_STATUS = s.rg Reg.PWR_STATUS
  life : t.rg Reg.GS_STATUS = s.rg Reg.GS_STATUS
  fenced : t.repair.fenced = s.repair.fenced
  clusters : t.clusters = s.clusters
  trip : t.power.trip = s.power.trip
  byFreq : t.power.byFreq = s.power.byFreq
  budgets : t.power.budgets = s.power.budgets
  falls : t.power.falls = s.power.falls
  limit : t.power.thermLimit = s.power.thermLimit

theorem KeepsGrants.effectiveCap {s t : State} (h : KeepsGrants s t) : t.effectiveCap = s.effectiveCap := by
  unfold State.effectiveCap
  rw [State.fd_congr (x := Reg.PWR_CTRL_CAP_W) h.ctrl, State.on_congr (x := Reg.PWR_STATUS_THROTTLE) h.status, h.limit]

theorem KeepsGrants.floored {s t : State} (h : KeepsGrants s t) : t.floored = s.floored := by
  unfold State.floored
  rw [State.on_congr (x := Reg.PWR_STATUS_FLOOR) h.status, State.on_congr (x := Reg.PWR_STATUS_HOT_FLOOR) h.status,
    State.on_congr (x := Reg.GS_STATUS_SHUTTING_DOWN) h.life]

theorem KeepsGrants.grant {s t : State} (h : KeepsGrants s t) (n : Nat) : t.grant n = s.grant n := by
  have hcl : t.cl n = s.cl n := by rw [State.cl, State.cl, h.clusters]
  unfold State.grant State.fmax State.isFenced
  rw [h.effectiveCap, h.floored, h.fenced, hcl, h.trip, h.byFreq, h.budgets, h.falls, State.fd_congr (x := Reg.PWR_STATUS_STATE) h.status,
    State.on_congr (x := Reg.PWR_CTRL_MODE) h.ctrl, State.on_congr (x := Reg.PWR_CTRL_GUARD) h.ctrl]

/-- After grants anew, and whatever keeps them and what they look at, every cluster has its grant. -/
theorem KeepsGrants.grantsHold {s t : State} (h : KeepsGrants s t) (hg : t.power.granted = s.regrant.power.granted) : t.grantsHold := by
  intro n hn
  rw [h.grant, hg]
  exact s.regrant_granted hn

theorem State.regrant_keepsGrants (s : State) : KeepsGrants s s.regrant := by
  have hpower {α : Type} (f : PowerSt → α) := congrArg f s.regrant_power
  exact ⟨s.regrant_rg (by decide), s.regrant_rg (by decide), s.regrant_rg (by decide), by rw [s.regrant_repair], s.regrant_sameArray.1,
    hpower (·.trip), hpower (·.byFreq), hpower (·.budgets), hpower (·.falls),
    hpower (·.thermLimit)⟩

theorem State.regrant_grantsHold (s : State) : s.regrant.grantsHold := s.regrant_keepsGrants.grantsHold rfl

theorem KeepsGrants.trans {s t u : State} (h : KeepsGrants s t) (k : KeepsGrants t u) : KeepsGrants s u :=
  ⟨k.ctrl.trans h.ctrl, k.status.trans h.status, k.life.trans h.life, k.fenced.trans h.fenced, k.clusters.trans h.clusters, k.trip.trans h.trip,
    k.byFreq.trans h.byFreq, k.budgets.trans h.budgets, k.falls.trans h.falls, k.limit.trans h.limit⟩

/-! ### The draw (R575, R587) -/

/-- The draw enters the means and the energy; NOW shows the mean of the draws. -/
theorem State.showPower_spec (s : State) (draw : Nat) : KeepsGrants s (s.showPower draw) ∧
    (s.showPower draw).power.granted = s.power.granted ∧ (s.showPower draw).power.energy = s.power.energy + draw ∧
    (s.showPower draw).power.periods = s.power.periods + 1 ∧ (s.showPower draw).power.draws = (draw :: s.power.draws).take 1000 ∧
    (s.showPower draw).fd Reg.PWR_NOW_DECIWATTS = meanOf (s.showPower draw).power.draws % 2 ^ 16 ∧ SameArray s (s.showPower draw) ∧
    RegsBut s (s.showPower draw) [Reg.PWR_NOW, Reg.PWR_LIMIT, Reg.PWR_FREQ, Reg.CAP_MS] := by
  obtain ⟨u, means, ticks, cap, freq, c, hu, hshow⟩ : ∃ (u : State) (means : List Nat) (ticks cap freq : Nat) (c : Bool), u = s.setPower { s.power with
      draws := (draw :: s.power.draws).take 1000, means := means, energy := s.power.energy + draw, periods := s.power.periods + 1, ticks := ticks } ∧
      s.showPower draw = (((u.setF Reg.PWR_NOW_DECIWATTS (meanOf u.power.draws)).setF Reg.PWR_LIMIT_DECIWATTS cap).setF Reg.PWR_FREQ_MEAN_MHZ freq).cond c
        fun v => v.inc Reg.CAP_MS := ⟨_, _, _, _, _, _, rfl, rfl⟩
  have hshown : Reports (· ∈ [Reg.PWR_NOW, Reg.PWR_LIMIT, Reg.PWR_FREQ, Reg.CAP_MS]) u (s.showPower draw) ∧
      (s.showPower draw).fd Reg.PWR_NOW_DECIWATTS = meanOf u.power.draws % 2 ^ 16 := by
    rw [hshow]
    have hset := (((Reports.refl (W := (· ∈ [Reg.PWR_NOW, Reg.PWR_LIMIT, Reg.PWR_FREQ, Reg.CAP_MS])) u).setF (x := Reg.PWR_NOW_DECIWATTS)
      (by simp [Reg.PWR_NOW_DECIWATTS]) (meanOf u.power.draws)).setF (x := Reg.PWR_LIMIT_DECIWATTS) (by simp [Reg.PWR_LIMIT_DECIWATTS]) cap).setF
      (x := Reg.PWR_FREQ_MEAN_MHZ) (by simp [Reg.PWR_FREQ_MEAN_MHZ]) freq
    have hnow : (((u.setF Reg.PWR_NOW_DECIWATTS (meanOf u.power.draws)).setF Reg.PWR_LIMIT_DECIWATTS cap).setF Reg.PWR_FREQ_MEAN_MHZ freq).fd
        Reg.PWR_NOW_DECIWATTS = meanOf u.power.draws % 2 ^ 16 := by
      rw [State.fd_setF_of_ne _ (by decide), State.fd_setF_of_ne _ (by decide)]
      exact State.fd_setF_same _ (by decide) (by decide) _
    unfold State.cond
    split
    · exact ⟨hset.inc (by simp), (State.fd_congr (State.rg_inc_of_ne _ (by decide))).trans hnow⟩
    · exact ⟨hset, hnow⟩
  obtain ⟨hreports, hnow⟩ := hshown
  have hpower : (s.showPower draw).power = u.power := by rw [hreports.rest]
  have hrepair : (s.showPower draw).repair.fenced = u.repair.fenced := by rw [hreports.rest]
  obtain ⟨hclusters, hdram⟩ := hreports.sameArray
  have hregs := hreports.regs
  generalize s.showPower draw = t at *
  have hof {α : Type} (f : PowerSt → α) : f t.power = f u.power := congrArg f hpower
  subst hu
  exact ⟨⟨hregs _ (by decide), hregs _ (by decide), hregs _ (by decide), hrepair, hclusters, hof (·.trip), hof (·.byFreq), hof (·.budgets), hof (·.falls),
    hof (·.thermLimit)⟩, hof (·.granted), hof (·.energy), hof (·.periods), hof (·.draws), hnow.trans (congrArg (meanOf · % 2 ^ 16) (hof (·.draws)).symm),
    ⟨hclusters, hdram⟩, fun o ho => hregs o ho⟩

/-! ### The commands of a control period (R574) -/

/-- A control period's commands, region by region from the first. -/
def State.takeBudgets (s : State) (first : Nat) (cmds : List (Nat × Nat × Bool)) : State :=
  s.each (cmds.mapIdx fun g c => (first + g, c)) fun u c => u.takeBudget c.1 (c.2.1, c.2.2.1) c.2.2.2

/-- What the commands may change: budgets, and the count and report of a bad one. -/
structure BudgetsTaken (s t : State) (first : Nat) (cmds : List (Nat × Nat × Bool)) : Prop where
  array : SameArray s t
  power : t.power = { s.power with budgets := t.power.budgets }
  regs : ∀ o, o ≠ Reg.PWR_CMD_DISCARD → o ≠ Reg.FH_CPL_MISMATCH → t.rg o = s.rg o
  before : ∀ g < first, tget (0, 0) t.power.budgets g = tget (0, 0) s.power.budgets g
  taken : ∀ g c, cmds[g]? = some c →
    tget (0, 0) t.power.budgets (first + g) = if c.2.2 then tget (0, 0) s.power.budgets (first + g) else (c.1, c.2.1)
  discarded : t.rg Reg.PWR_CMD_DISCARD = s.rg Reg.PWR_CMD_DISCARD + BitVec.ofNat 32 (cmds.filter fun c => c.2.2).length

theorem State.takeBudgets_cons (s : State) (first : Nat) (c : Nat × Nat × Bool) (cmds : List (Nat × Nat × Bool)) :
    s.takeBudgets first (c :: cmds) = (s.takeBudget first (c.1, c.2.1) c.2.2).takeBudgets (first + 1) cmds := by
  unfold State.takeBudgets
  rw [List.mapIdx_cons, State.each_cons]
  simp only [Nat.add_zero, Nat.add_assoc, Nat.add_comm 1]

theorem State.cplMismatch_frame (s : State) (off stop unit detail : Nat) : (∀ o, (s.cplMismatch (some off) stop unit detail).rg o =
    ((s.inc off).inc Reg.FH_CPL_MISMATCH).rg o) ∧ SameArray s (s.cplMismatch (some off) stop unit detail) ∧
    (s.cplMismatch (some off) stop unit detail).power = s.power := ⟨fun _ => rfl, ⟨rfl, rfl⟩, rfl⟩

/-- One command, which is taken or discarded. -/
theorem State.takeBudget_taken (s : State) (g : Nat) (b : Nat × Nat) (bad : Bool) : BudgetsTaken s (s.takeBudget g b bad) g [(b.1, b.2, bad)] ∧
    ∀ k, k ≠ g → tget (0, 0) (s.takeBudget g b bad).power.budgets k = tget (0, 0) s.power.budgets k := by
  have hfirst (j : Nat) (c : Nat × Nat × Bool) (h : [(b.1, b.2, bad)][j]? = some c) : j = 0 ∧ c = (b.1, b.2, bad) := by
    cases j with
    | zero => exact ⟨rfl, (Option.some.inj h).symm⟩
    | succ j => simp at h
  cases bad with
  | true =>
    have hbad : s.takeBudget g b true = s.cplMismatch (some Reg.PWR_CMD_DISCARD) (regionStop g) 18 0 := if_pos rfl
    obtain ⟨hrg, harray, hpower⟩ := s.cplMismatch_frame Reg.PWR_CMD_DISCARD (regionStop g) 18 0
    rw [hbad]
    generalize s.cplMismatch (some Reg.PWR_CMD_DISCARD) (regionStop g) 18 0 = t at *
    refine ⟨⟨harray, by rw [hpower], fun o hd hf => ?_, fun _ _ => by rw [hpower], fun j c hc => ?_, ?_⟩, fun _ _ => by rw [hpower]⟩
    · rw [hrg, State.rg_inc_of_ne _ hf, State.rg_inc_of_ne _ hd]
    · obtain ⟨rfl, rfl⟩ := hfirst j c hc
      rw [hpower]
      rfl
    · rw [hrg, State.rg_inc_of_ne _ (by decide), State.rg_inc_same]
      rfl
  | false =>
    have hbudget (k : Nat) : tget (0, 0) (s.takeBudget g b false).power.budgets k = if k = g then b else tget (0, 0) s.power.budgets k := tget_tput ..
    refine ⟨⟨⟨rfl, rfl⟩, rfl, fun _ _ _ => rfl, fun k hk => (hbudget k).trans (if_neg (by omega)), fun j c hc => ?_, (BitVec.add_zero _).symm⟩,
      fun k hk => (hbudget k).trans (if_neg hk)⟩
    obtain ⟨rfl, rfl⟩ := hfirst j c hc
    exact (hbudget g).trans (if_pos rfl)

theorem State.takeBudgets_taken (s : State) (first : Nat) (cmds : List (Nat × Nat × Bool)) : BudgetsTaken s (s.takeBudgets first cmds) first cmds := by
  induction cmds generalizing s first with
  | nil => exact ⟨⟨rfl, rfl⟩, rfl, fun _ _ _ => rfl, fun _ _ => rfl, fun g c h => by simp at h, (BitVec.add_zero _).symm⟩
  | cons c cmds ih =>
    obtain ⟨harray, hpower, hregs, hbefore, htaken, hdiscarded⟩ := ih (s.takeBudget first (c.1, c.2.1) c.2.2) (first + 1)
    obtain ⟨⟨harray', hpower', hregs', hbefore', htaken', hdiscarded'⟩, hother⟩ := s.takeBudget_taken first (c.1, c.2.1) c.2.2
    rw [s.takeBudgets_cons]
    generalize s.takeBudget first (c.1, c.2.1) c.2.2 = u at *
    generalize u.takeBudgets (first + 1) cmds = t at *
    refine ⟨harray'.trans harray, by rw [hpower, hpower'], fun o hd hf => (hregs o hd hf).trans (hregs' o hd hf),
      fun g hg => (hbefore g (by omega)).trans (hbefore' g hg), fun g d hd => ?_, ?_⟩
    · cases g with
      | zero =>
        cases hd
        exact (hbefore first (by omega)).trans (htaken' 0 _ rfl)
      | succ g =>
        have hplace : first + (g + 1) = first + 1 + g := by omega
        rw [hplace, htaken g d hd, hother _ (by omega)]
    · rw [hdiscarded, hdiscarded', BitVec.add_assoc, ← BitVec.ofNat_add, ← List.length_append, ← List.filter_append]
      rfl

theorem exec_powerControlPeriod_taken {s : State} {draw others : Nat} {cmds : List (Nat × Nat × Bool)} (hstate : s.fd Reg.PWR_STATUS_STATE < 2)
    (htrip : s.power.trip = false) (hlen : cmds.length = 32) (hcap : others + (cmds.map fun c => c.1).sum ≤ s.effectiveCap) :
    exec (.powerControlPeriod draw others cmds) s = .next ((s.takeBudgets 0 cmds).regrant.showPower draw) := by
  have hall : s.takeBudgets 0 cmds = s.each (cmds.mapIdx fun g c => (g, c)) fun u c => u.takeBudget c.1 (c.2.1, c.2.2.1) c.2.2.2 := by
    simp only [State.takeBudgets, Nat.zero_add]
  rw [hall]
  refine congrArg Host.Outcome.next ((if_neg ?_).trans (if_neg ?_))
  · rintro (h | h)
    · omega
    · rw [htrip] at h
      cases h
  · rintro (h | h)
    · exact h hlen
    · omega

/-! ### Events of the power unit (R590) -/

/-- An event sets its bit and the interrupt's, and may be sent. -/
theorem State.powerEvent_eq (s : State) (x : Fld) : ∃ more, s.powerEvent x = ((s.setF x 1).setF ⟨Reg.IRQ_STATUS, 4, 4⟩ 1).sent more :=
  (s.setF x 1).irq_eq 4

theorem State.powerEvent_spec (s : State) {x : Fld} (hone : x.hi = x.lo) (hhi : x.hi < 32) (hx : x.off ≠ Reg.IRQ_STATUS) :
    (s.powerEvent x).on x = true ∧ (s.powerEvent x).power = s.power ∧ (s.powerEvent x).repair = s.repair ∧ SameArray s (s.powerEvent x) ∧
      RegsBut s (s.powerEvent x) [x.off, Reg.IRQ_STATUS] := by
  obtain ⟨more, h⟩ := s.powerEvent_eq x
  have hrg (o : Nat) : (s.powerEvent x).rg o = ((s.setF x 1).setF ⟨Reg.IRQ_STATUS, 4, 4⟩ 1).rg o := congrArg (·.rg o) h
  refine ⟨?_, (congrArg State.power h).trans rfl, (congrArg State.repair h).trans rfl,
    ⟨(congrArg State.clusters h).trans rfl, (congrArg State.dram h).trans rfl⟩, fun o ho => ?_⟩
  · exact (State.on_congr ((hrg _).trans (State.rg_setF_of_ne _ (by exact hx) 1))).trans (s.on_setF_one hone hhi)
  · simp only [List.mem_cons, List.not_mem_nil, or_false, not_or] at ho
    exact (hrg o).trans ((State.rg_setF_of_ne _ (by exact ho.2) 1).trans (s.rg_setF_of_ne ho.1 1))

/-! ### PWR_CTRL (R573, R584) -/

section
variable {s : State} {v : Word}

/-- The write's own clearing of REFUSED. -/
def State.refusedCleared (s : State) (v : Word) : State := s.cond (bit v 31) fun t => t.setF Reg.PWR_CTRL_REFUSED 0

theorem State.refusedCleared_spec (s : State) (v : Word) : (∀ x : Fld, x.off = Reg.PWR_CTRL → x.hi < 31 → x.lo ≤ x.hi → (s.refusedCleared v).fd x = s.fd x) ∧
    OnlyRegs s (s.refusedCleared v) [Reg.PWR_CTRL] := by
  unfold State.refusedCleared State.cond
  split
  · exact ⟨fun x hoff hhi hle => State.fd_setF_apart _ (x := Reg.PWR_CTRL_REFUSED) hoff (.inr hhi) (by decide) hle 0,
      (OnlyRegs.refl s _).setF (List.mem_singleton.2 rfl) 0⟩
  · exact ⟨fun _ _ _ _ => rfl, .refl s _⟩

/-- What a write that is taken sets. -/
def State.capped (s : State) (v : Word) : State :=
  (((s.refusedCleared v).setF Reg.PWR_CTRL_MODE (b2n (bit v 30))).setF Reg.PWR_CTRL_GUARD (b2n (bit v 29))).setF Reg.PWR_CTRL_CAP_W (bits v 8 0)

theorem State.capped_spec (s : State) (v : Word) : (s.capped v).on Reg.PWR_CTRL_MODE = bit v 30 ∧ (s.capped v).on Reg.PWR_CTRL_GUARD = bit v 29 ∧
    (s.capped v).fd Reg.PWR_CTRL_CAP_W = bits v 8 0 ∧ OnlyRegs s (s.capped v) [Reg.PWR_CTRL] := by
  obtain ⟨-, honly⟩ := s.refusedCleared_spec v
  unfold State.capped
  generalize s.refusedCleared v = u at *
  have hcap : bits v 8 0 < 2 ^ 9 := (v.extractLsb' 0 9).isLt
  refine ⟨?_, ?_, ?_, ((honly.setF (by simp [Reg.PWR_CTRL_MODE]) _).setF (by simp [Reg.PWR_CTRL_GUARD]) _).setF (by simp [Reg.PWR_CTRL_CAP_W]) _⟩
  · rw [State.on_setF_apart _ (x := Reg.PWR_CTRL_CAP_W) (y := Reg.PWR_CTRL_MODE) rfl (by decide) (by decide) (by decide),
      State.on_setF_apart _ (x := Reg.PWR_CTRL_GUARD) (y := Reg.PWR_CTRL_MODE) rfl (by decide) (by decide) (by decide)]
    exact State.on_setF_bit _ rfl (by decide) _
  · rw [State.on_setF_apart _ (x := Reg.PWR_CTRL_CAP_W) (y := Reg.PWR_CTRL_GUARD) rfl (by decide) (by decide) (by decide)]
    exact State.on_setF_bit _ rfl (by decide) _
  · rw [State.fd_setF_same _ (x := Reg.PWR_CTRL_CAP_W) (by decide) (by decide)]
    exact Nat.mod_eq_of_lt hcap

/-- With a change of MODE the debt starts at 0, and power steering by frequency ends. -/
def State.modeBegun (s : State) (mode : Bool) : State :=
  ((s.setPower { s.power with debt := 0, energy := 0, periods := 0, broken := false, byFreq := false }).cond mode fun u =>
    (u.wrg Reg.PWR_DEBT 0).setF Reg.PWR_P_IDLE_DECIWATTS 1200).cond mode fun u => u.each (u.clusters.map (·.1)) State.stopLend

theorem State.powerWrite_eq (s : State) (v : Word) : s.powerWrite v =
    if bits v 8 0 < 120 ∨ 300 < bits v 8 0 ∨ (bit v 30 ≠ (s.refusedCleared v).on Reg.PWR_CTRL_MODE ∧ (s.refusedCleared v).anyRun = true) then
      (s.refusedCleared v).setF Reg.PWR_CTRL_REFUSED 1
    else if ! decide (bit v 30 ≠ (s.refusedCleared v).on Reg.PWR_CTRL_MODE) then s.capped v else ((s.capped v).modeBegun (bit v 30)).regrant := rfl

end

/-- A cluster that stops lending is counted in its own register, and neither power nor DRAM differ. -/
theorem State.stopLend_frame (s : State) (n : Nat) : (s.stopLend n).power = s.power ∧ (s.stopLend n).dram = s.dram ∧
    ∀ o < 0x400000, (s.stopLend n).rg o = s.rg o := by
  unfold State.stopLend
  split
  · exact ⟨rfl, rfl, fun _ _ => rfl⟩
  · exact ⟨rfl, rfl, fun o ho => State.rg_wrg_of_ne _ (by simp only [Reg.LEND_US]; omega) _⟩

theorem State.stopLends_frame (l : List Nat) (s : State) : (s.each l State.stopLend).power = s.power ∧ (s.each l State.stopLend).dram = s.dram ∧
    ∀ o < 0x400000, (s.each l State.stopLend).rg o = s.rg o := by
  induction l generalizing s with
  | nil => exact ⟨rfl, rfl, fun _ _ => rfl⟩
  | cons n l ih =>
    obtain ⟨hpower, hdram, hrg⟩ := ih (s.stopLend n)
    obtain ⟨hpower', hdram', hrg'⟩ := s.stopLend_frame n
    exact ⟨hpower.trans hpower', hdram.trans hdram', fun o ho => (hrg o ho).trans (hrg' o ho)⟩

theorem State.modeBegun_spec (s : State) (mode : Bool) :
    (s.modeBegun mode).power = { s.power with debt := 0, energy := 0, periods := 0, broken := false, byFreq := false } ∧
      (s.modeBegun mode).dram = s.dram ∧ (s.modeBegun mode).rg Reg.PWR_CTRL = s.rg Reg.PWR_CTRL ∧
      (mode = true → (s.modeBegun mode).rg Reg.PWR_DEBT = 0 ∧ (s.modeBegun mode).fd Reg.PWR_P_IDLE_DECIWATTS = 1200) := by
  unfold State.modeBegun State.cond
  cases mode with
  | false => exact ⟨rfl, rfl, rfl, fun h => absurd h (by decide)⟩
  | true =>
    rw [if_pos rfl, if_pos rfl]
    generalize hu : s.setPower { s.power with debt := 0, energy := 0, periods := 0, broken := false, byFreq := false } = u
    obtain ⟨hpower, hdram, hrg⟩ := State.stopLends_frame (((u.wrg Reg.PWR_DEBT 0).setF Reg.PWR_P_IDLE_DECIWATTS 1200).clusters.map (·.1))
      ((u.wrg Reg.PWR_DEBT 0).setF Reg.PWR_P_IDLE_DECIWATTS 1200)
    refine ⟨hpower.trans (congrArg State.power hu).symm, hdram.trans (congrArg State.dram hu).symm, ?_, fun _ => ⟨?_, ?_⟩⟩
    · rw [hrg _ (by decide), State.rg_setF_of_ne _ (by decide), State.rg_wrg_of_ne _ (by decide), ← hu]
      rfl
    · rw [hrg _ (by decide), State.rg_setF_of_ne _ (by decide), State.rg_wrg, if_pos rfl]
    · rw [State.fd_congr (hrg Reg.PWR_P_IDLE (by decide))]
      exact State.fd_setF_same _ (by decide) (by decide) _

/-- Settles O53: each command of the power unit takes the branch of its rule, and grants anew hold of the state they leave. -/
theorem powerFrequenciesAndAlertsFollowTheirRules : Obligations.PowerFrequenciesAndAlertsFollowTheirRules := by
  refine ⟨fun s draw others cmds => ⟨fun hstate htrip h => ?unfit, fun hstate htrip hlen hcap => ?period, fun h => ?resting⟩,
    fun s => ⟨fun h => ?startup, fun h => congrArg Host.Outcome.next (if_neg h)⟩,
    fun s n low => ⟨fun h => ?noAgeing, fun hlow hfenced => ?ageing⟩, fun s => ⟨fun h => ?noGap, fun h => ?gap⟩,
    fun s g => ⟨fun h => congrArg Host.Outcome.next (if_pos h), fun h => ?droop, rfl⟩,
    fun s => ⟨fun h => congrArg Host.Outcome.next (if_pos h), fun h => ?alert, fun h => congrArg Host.Outcome.next (if_pos h),
      fun h => congrArg Host.Outcome.next (if_neg (by rw [h]; decide)), fun hcount halert => ?floorEnd,
      fun h => congrArg Host.Outcome.next (if_neg (by rcases h with h | h <;> simp [h]))⟩, fun s v hopen => ?write⟩
  case unfit =>
    refine congrArg Host.Outcome.next ((if_neg ?_).trans (if_pos h))
    rintro (h | h)
    · omega
    · rw [htrip] at h
      cases h
  case period =>
    obtain ⟨harray, hpower, hregs, -, htaken, hdiscarded⟩ := s.takeBudgets_taken 0 cmds
    have hexec := exec_powerControlPeriod_taken (draw := draw) hstate htrip hlen hcap
    generalize s.takeBudgets 0 cmds = u at *
    obtain ⟨hkeeps, hgranted, henergy, hperiods, hdraws, hnow, hshown, hrg⟩ := u.regrant.showPower_spec draw
    have hbudgets := (u.regrant_keepsGrants.trans hkeeps).budgets
    have hof {α : Type} (f : PowerSt → α) := congrArg f u.regrant_power
    have hof' {α : Type} (f : PowerSt → α) := congrArg f hpower
    refine ⟨_, hexec, fun g c hc => ?_, ?_, (u.regrant_keepsGrants.trans hkeeps).grantsHold hgranted, ?_, ?_, ?_, hnow,
      (harray.trans u.regrant_sameArray).trans hshown⟩
    · rw [hbudgets]
      have := htaken g c hc
      rwa [Nat.zero_add] at this
    · rw [hrg _ (by decide), State.regrant_rg _ (by decide), hdiscarded]
    · exact henergy.trans (congrArg (· + draw) ((hof (·.energy)).trans (hof' (·.energy))))
    · exact hperiods.trans (congrArg (· + 1) ((hof (·.periods)).trans (hof' (·.periods))))
    · exact hdraws.trans (congrArg (fun l => (draw :: l).take 1000) ((hof (·.draws)).trans (hof' (·.draws))))
  case resting =>
    obtain ⟨hkeeps, hgranted, henergy, -, hdraws, -, hshown, hrg⟩ := s.showPower_spec draw
    exact ⟨_, congrArg Host.Outcome.next (if_pos h), hkeeps.budgets, hgranted, henergy, hdraws, hshown, hrg⟩
  case startup =>
    refine ⟨_, congrArg Host.Outcome.next (if_pos h), ?_, State.regrant_grantsHold _, (show SameArray s (s.setF Reg.PWR_STATUS_STATE 1) from ⟨rfl, rfl⟩).trans (State.regrant_sameArray _), fun o ho => ?_⟩
    · rw [State.fd_congr (State.regrant_rg _ (by decide))]
      exact State.fd_setF_same _ (by decide) (by decide) _
    · simp only [List.mem_cons, List.not_mem_nil, or_false, not_or] at ho
      exact (State.regrant_rg _ ho.2).trans (s.rg_setF_of_ne (x := Reg.PWR_STATUS_STATE) ho.1 1)
  case noAgeing => exact congrArg Host.Outcome.next (if_pos (by rcases h with h | h <;> simp [h]))
  case ageing =>
    obtain ⟨u, hu⟩ : ∃ u, u = s.setPower { s.power with falls := tput s.power.falls n (tget 0 s.power.falls n + 1) } := ⟨_, rfl⟩
    have hexec : exec (.ageingCheck n low) s = .next (((u.powerEvent Reg.PWR_EVENTS_AGEING_STEP).cond
        (decide ((u.powerEvent Reg.PWR_EVENTS_AGEING_STEP).fmax n < 1200)) fun w => w.report (clusterStop n) 0 0 false).regrant) := by
      rw [hu]
      exact congrArg Host.Outcome.next (if_neg (by simp [hlow, hfenced]))
    obtain ⟨hon, hpower, hrepair, harray, -⟩ := u.powerEvent_spec (x := Reg.PWR_EVENTS_AGEING_STEP) rfl (by decide) (by decide)
    generalize u.powerEvent Reg.PWR_EVENTS_AGEING_STEP = w at *
    have hreport : (w.cond (decide (w.fmax n < 1200)) fun w => w.report (clusterStop n) 0 0 false) = { w with
        repair := { w.repair with inFlight := w.repair.inFlight ++ if w.fmax n < 1200 then [⟨clusterStop n, 0, 0, false⟩] else [] } } := by
      unfold State.cond
      by_cases hlow : w.fmax n < 1200
      · rw [if_pos (decide_eq_true hlow), if_pos hlow]
        rfl
      · rw [if_neg (by simpa using hlow), if_neg hlow, List.append_nil]
    generalize (w.cond (decide (w.fmax n < 1200)) fun w => w.report (clusterStop n) 0 0 false) = x at hexec hreport
    have hpower' : x.power = w.power := by rw [hreport]
    have hfalls (m : Nat) : tget 0 x.power.falls m = if m = n then tget 0 s.power.falls n + 1 else tget 0 s.power.falls m := by
      rw [hpower', hpower, hu]
      exact tget_tput ..
    refine ⟨_, hexec, ?_, fun m hm => ?_, ?_, State.regrant_grantsHold _, ?_, ?_⟩
    · rw [State.regrant_power]
      exact (hfalls n).trans (if_pos rfl)
    · rw [State.regrant_power]
      exact (hfalls m).trans (if_neg hm)
    · refine (State.on_congr ((State.regrant_rg _ (by decide)).trans ?_)).trans hon
      rw [hreport]
      rfl
    · rw [hu] at harray
      refine (harray.trans ?_).trans (State.regrant_sameArray _)
      rw [hreport]
      exact ⟨rfl, rfl⟩
    · have hfmax : x.regrant.fmax n = w.fmax n := by
        rw [State.fmax, State.regrant_power, State.fmax, ← hpower']
      have hown : w.repair = s.repair := by
        rw [hrepair, hu]
        rfl
      rw [State.regrant_repair, hfmax, hreport, ← hown]
  case noGap => exact congrArg Host.Outcome.next (if_pos (by rw [h]; rfl))
  case gap =>
    intro d
    have hlt (x : State) : x.fd Reg.PWR_P_IDLE_DECIWATTS < 2 ^ 16 := ((x.rg Reg.PWR_P_IDLE).extractLsb' 0 16).isLt
    obtain ⟨idle, u, hidle, hu, hexec⟩ : ∃ (idle : Nat) (u : State), idle = (if s.power.periods = 0 then s.fd Reg.PWR_P_IDLE_DECIWATTS
        else s.power.energy / s.power.periods) ∧ u = s.setPower { s.power with debt := d, energy := 0, periods := 0 } ∧
        exec .gapEnd s = .next ((((u.wrg Reg.PWR_DEBT (BitVec.ofNat 32 (d / 10))).setF Reg.PWR_P_IDLE_DECIWATTS idle).inc Reg.IDLE_GAPS).setPower
          { u.power with gap := false }) := ⟨_, _, rfl, rfl, congrArg Host.Outcome.next (if_neg (by rw [h]; decide))⟩
    have hidle' : (((u.wrg Reg.PWR_DEBT (BitVec.ofNat 32 (d / 10))).setF Reg.PWR_P_IDLE_DECIWATTS idle).inc Reg.IDLE_GAPS).fd
        Reg.PWR_P_IDLE_DECIWATTS = idle % 2 ^ 16 :=
      (State.fd_congr (State.rg_inc_of_ne _ (by decide))).trans (State.fd_setF_same _ (by decide) (by decide) _)
    refine ⟨_, hexec, by rw [hu]; rfl, ?_, ?_, fun hperiods => ?_, fun hperiods => ?_, by rw [hu]; exact ⟨rfl, rfl⟩, fun o ho => ?_⟩
    · rw [State.setPower_rg, State.rg_inc_of_ne _ (by decide), State.rg_setF_of_ne _ (by decide), State.rg_wrg, if_pos rfl]
    · rw [State.setPower_rg, State.rg_inc_same, State.rg_setF_of_ne _ (by decide), State.rg_wrg_of_ne _ (by decide), hu]
      rfl
    · rw [State.setPower_fd, hidle', hidle, if_neg hperiods]
    · rw [State.setPower_fd, hidle', hidle, if_pos hperiods]
      exact Nat.mod_eq_of_lt (hlt s)
    · simp only [List.mem_cons, List.not_mem_nil, or_false, not_or] at ho
      rw [State.setPower_rg, State.rg_inc_of_ne _ ho.2.1, State.rg_setF_of_ne _ (x := Reg.PWR_P_IDLE_DECIWATTS) ho.2.2, State.rg_wrg_of_ne _ ho.1, hu]
      rfl
  case droop =>
    refine ⟨_, congrArg Host.Outcome.next (if_neg (by rw [h]; decide)), rfl, ?_, rfl, fun o ho => ?_⟩
    · exact State.rg_inc_same ..
    · exact (State.rg_inc_of_ne _ (List.mem_singleton.not.1 ho)).trans rfl
  case alert =>
    obtain ⟨u, hu⟩ : ∃ u, u = (s.setF Reg.PWR_STATUS_FLOOR 1).inc Reg.VR_ALERTS := ⟨_, rfl⟩
    obtain ⟨hon, hpower, hrepair, harray, hregs⟩ := u.powerEvent_spec (x := Reg.PWR_EVENTS_VR_ALERT) rfl (by decide) (by decide)
    have hexec : exec .vrAlert s = .next ((u.powerEvent Reg.PWR_EVENTS_VR_ALERT).setPower
        { (u.powerEvent Reg.PWR_EVENTS_VR_ALERT).power with alert := true, floorCount := false, broken := true }).regrant := by
      rw [hu]
      exact congrArg Host.Outcome.next (if_neg (by rw [h]; decide))
    generalize u.powerEvent Reg.PWR_EVENTS_VR_ALERT = w at *
    have hstatus : w.rg Reg.PWR_STATUS = (s.setF Reg.PWR_STATUS_FLOOR 1).rg Reg.PWR_STATUS := by
      rw [hregs _ (by decide), hu, State.rg_inc_of_ne _ (by decide)]
    have hfloor : w.on Reg.PWR_STATUS_FLOOR = true := (State.on_congr hstatus).trans (s.on_setF_one rfl (by decide))
    have hstate : w.fd Reg.PWR_STATUS_STATE = s.fd Reg.PWR_STATUS_STATE := (State.fd_congr hstatus).trans
      (s.fd_setF_apart (x := Reg.PWR_STATUS_FLOOR) (y := Reg.PWR_STATUS_STATE) rfl (by decide) (by decide) (by decide) 1)
    have hfloored : (w.setPower { w.power with alert := true, floorCount := false, broken := true }).floored = true := by
      rw [State.floored, State.setPower_on, hfloor]
      rfl
    refine ⟨_, hexec, ?_, ?_, ?_, ?_, ?_, fun n hn => ?_⟩
    · rw [State.regrant_power]
      rfl
    · exact (State.on_congr (State.regrant_rg _ (by decide))).trans hfloor
    · rw [State.regrant_rg _ (by decide), State.setPower_rg, hregs _ (by decide), hu, State.rg_inc_same, State.rg_setF_of_ne _ (by decide)]
    · exact (State.on_congr (State.regrant_rg _ (by decide))).trans hon
    · refine SameArray.trans ?_ (State.regrant_sameArray _)
      rw [hu] at harray
      exact harray
    · have hfenced : w.repair.fenced = s.repair.fenced := by
        rw [hrepair, hu]
        rfl
      have htrip : w.power.trip = s.power.trip := by
        rw [hpower, hu]
        rfl
      rw [State.regrant_granted _ hn, State.grant_of_floored hfloored, State.setPower_fd, hstate, State.isFenced, State.isFenced, ← hfenced, ← htrip]
      rfl
  case floorEnd =>
    refine ⟨_, congrArg Host.Outcome.next (if_pos (by rw [hcount, halert]; rfl)), ?_, ?_, State.regrant_grantsHold _,
      (show SameArray s ((s.setF Reg.PWR_STATUS_FLOOR 0).setPower { s.power with floorCount := false }) from ⟨rfl, rfl⟩).trans
        (State.regrant_sameArray _), fun o ho => ?_⟩
    · exact (State.on_congr (State.regrant_rg _ (by decide))).trans (s.on_setF_zero rfl (by decide))
    · rw [State.regrant_power]
      rfl
    · simp only [List.mem_cons, List.not_mem_nil, or_false, not_or] at ho
      exact (State.regrant_rg _ ho.2).trans ((State.setPower_rg ..).trans (s.rg_setF_of_ne (x := Reg.PWR_STATUS_FLOOR) ho.1 0))
  case write =>
    have hexec : exec (.pwrCtrlWrite v) s = .next (s.powerWrite v) := congrArg Host.Outcome.next (State.hostWrite_of_open hopen _ _)
    obtain ⟨hfields, honly⟩ := s.refusedCleared_spec v
    have hmode : (s.refusedCleared v).on Reg.PWR_CTRL_MODE = s.on Reg.PWR_CTRL_MODE :=
      congrArg (· == 1) (hfields Reg.PWR_CTRL_MODE rfl (by decide) (by decide))
    have hrun : (s.refusedCleared v).anyRun = s.anyRun := by
      rw [State.anyRun, honly.1]
      rfl
    rw [State.powerWrite_eq, hmode, hrun] at hexec
    obtain ⟨hmode', hguard, hcap, hcapped⟩ := s.capped_spec v
    intro change
    refine ⟨fun h => ?_, fun hlow hhigh hsame => ?_, fun hlow hhigh hchange hidle => ?_⟩
    · have hkept (y : Fld) (hoff : y.off = Reg.PWR_CTRL) (hhi : y.hi < 31) (hle : y.lo ≤ y.hi) :
          ((s.refusedCleared v).setF Reg.PWR_CTRL_REFUSED 1).fd y = s.fd y :=
        (State.fd_setF_apart _ (x := Reg.PWR_CTRL_REFUSED) hoff (.inr hhi) (by decide) hle 1).trans (hfields y hoff hhi hle)
      refine ⟨_, hexec.trans (congrArg Host.Outcome.next (if_pos h)), State.on_setF_one _ rfl (by decide), ?_, ?_,
        hkept Reg.PWR_CTRL_CAP_W rfl (by decide) (by decide), honly.setF (List.mem_singleton.2 rfl) 1⟩
      · exact congrArg (· == 1) (hkept Reg.PWR_CTRL_MODE rfl (by decide) (by decide))
      · exact congrArg (· == 1) (hkept Reg.PWR_CTRL_GUARD rfl (by decide) (by decide))
    · have hgo : ¬ (bits v 8 0 < 120 ∨ 300 < bits v 8 0 ∨ (change ∧ s.anyRun = true)) := by
        rintro (h | h | ⟨h, -⟩)
        · omega
        · omega
        · exact hsame h
      exact ⟨_, hexec.trans (congrArg Host.Outcome.next ((if_neg hgo).trans (if_pos (by rw [decide_eq_false hsame]; rfl)))), hmode', hguard, hcap, hcapped⟩
    · have hgo : ¬ (bits v 8 0 < 120 ∨ 300 < bits v 8 0 ∨ (change ∧ s.anyRun = true)) := by
        rintro (h | h | ⟨-, h⟩)
        · omega
        · omega
        · rw [hidle] at h
          cases h
      obtain ⟨hpower, hdram, hctrl, hbegun⟩ := (s.capped v).modeBegun_spec (bit v 30)
      have hexec' : exec (.pwrCtrlWrite v) s = .next ((s.capped v).modeBegun (bit v 30)).regrant :=
        hexec.trans (congrArg Host.Outcome.next ((if_neg hgo).trans (if_neg (by rw [decide_eq_true hchange]; decide))))
      generalize (s.capped v).modeBegun (bit v 30) = w at *
      have hshown := (State.regrant_rg w (o := Reg.PWR_CTRL) (by decide)).trans hctrl
      have hof {α : Type} (f : PowerSt → α) := (congrArg f w.regrant_power).trans (congrArg (fun p : PowerSt => f { p with granted := w.grants }) hpower)
      refine ⟨_, hexec', (State.on_congr (x := Reg.PWR_CTRL_MODE) hshown).trans hmode', (State.on_congr (x := Reg.PWR_CTRL_GUARD) hshown).trans hguard,
        (State.fd_congr (x := Reg.PWR_CTRL_CAP_W) hshown).trans hcap, hof (·.debt), hof (·.energy), hof (·.byFreq), w.regrant_grantsHold, fun a => ?_, fun hsteer => ?_⟩
      · refine congrArg (tget 0#8 · a) ((w.regrant_sameArray.2.trans hdram).trans ?_)
        rw [hcapped.1]
      · obtain ⟨hdebt, hidle'⟩ := hbegun hsteer
        exact ⟨(State.regrant_rg w (by decide)).trans hdebt, (State.fd_congr (State.regrant_rg w (by decide))).trans hidle'⟩

end Sys2Proof.Machine

/-! ## What a link's fall and an owner's reset leave of the status registers (R391, R432, R443, R465, R605) -/

namespace Sys2Proof.Machine

/-! ### Registers that stay -/

/-- The registers for which P holds read as before. -/
structure KeepsOn (P : Nat → Prop) (s t : State) : Prop where
  rg : ∀ o, P o → t.rg o = s.rg o

section
variable {P : Nat → Prop} {s t u : State}

theorem KeepsOn.refl (s : State) : KeepsOn P s s := ⟨fun _ _ => rfl⟩
theorem KeepsOn.trans (h : KeepsOn P s t) (k : KeepsOn P t u) : KeepsOn P s u := ⟨fun o ho => (k.rg o ho).trans (h.rg o ho)⟩
theorem KeepsOn.ite {p : Prop} [Decidable p] (ht : KeepsOn P s t) (hu : KeepsOn P s u) : KeepsOn P s (if p then t else u) := by
  split
  · exact ht
  · exact hu
theorem KeepsOn.cond (h : KeepsOn P s t) (c : Bool) {f : State → State} (hf : KeepsOn P t (f t)) : KeepsOn P s (t.cond c f) := (h.trans hf).ite h
theorem KeepsOn.of_regs (h : t.regs = s.regs) : KeepsOn P s t := ⟨fun o _ => congrArg (tget (regReset o) · o) h⟩
theorem KeepsOn.of_runsEnd (h : RunsEnd s t) (hP : ∀ o, P o → ¬ RunReg o) : KeepsOn P s t := ⟨fun o ho => h.rg o (hP o ho)⟩
theorem KeepsOn.of_reports {W : Nat → Prop} (h : Reports W s t) (hP : ∀ o, P o → ¬ W o) : KeepsOn P s t := ⟨fun o ho => h.regs o (hP o ho)⟩
theorem KeepsOn.of_packetsOut (h : PacketsOut s t) (hP : ∀ o, P o → ¬ LinkReg o) : KeepsOn P s t := ⟨fun o ho => h.rg o (hP o ho)⟩

theorem KeepsOn.each {α : Type} (s : State) (l : List α) {f : State → α → State} (hf : ∀ u x, KeepsOn P u (f u x)) : KeepsOn P s (s.each l f) := by
  induction l generalizing s with
  | nil => exact .refl s
  | cons x l ih => exact (hf s x).trans (ih (f s x))

variable (s) in
theorem KeepsOn.withHost (x : HostSt) : KeepsOn P s { s with host := x } := .of_regs rfl
variable (s) in
theorem KeepsOn.withNet (x : NetSt) : KeepsOn P s { s with net := x } := .of_regs rfl
variable (s) in
theorem KeepsOn.withTime (x : TimeSt) : KeepsOn P s { s with time := x } := .of_regs rfl
variable (s) in
theorem KeepsOn.withImages (x : ImageSt) : KeepsOn P s { s with images := x } := .of_regs rfl
variable (s) in
theorem KeepsOn.withStore (x : StoreSt) : KeepsOn P s { s with store := x } := .of_regs rfl
variable (s) in
theorem KeepsOn.withClusters (x : Table ClusterSt) : KeepsOn P s { s with clusters := x } := .of_regs rfl

variable (h : KeepsOn P s t)
include h

theorem KeepsOn.wrg {off : Nat} (hoff : ¬ P off) (v : Word) : KeepsOn P s (t.wrg off v) :=
  h.trans ⟨fun o ho => t.rg_wrg_of_ne (by rintro rfl; exact hoff ho) v⟩
theorem KeepsOn.setF {x : Fld} (hoff : ¬ P x.off) (k : Nat) : KeepsOn P s (t.setF x k) := h.wrg hoff _
theorem KeepsOn.inc {off : Nat} (hoff : ¬ P off) : KeepsOn P s (t.inc off) := h.wrg hoff _
theorem KeepsOn.wrg64 {off : Nat} (hlo : ¬ P off) (hhi : ¬ P (off + 4)) (n : Nat) : KeepsOn P s (t.wrg64 off n) := (h.wrg hlo _).wrg hhi _
theorem KeepsOn.regs (hregs : u.regs = t.regs) : KeepsOn P s u := h.trans (.of_regs hregs)

end

/-! ### The state of the ports, while packets find other ways (R443, R465 to R468) -/

/-- The status registers of the ports. -/
def PortStatus (o : Nat) : Prop := ∃ q < 16, o = Reg.FL_STATUS q

theorem PortStatus.not_runReg {o : Nat} (h : PortStatus o) : ¬ RunReg o := by
  obtain ⟨q, hq, rfl⟩ := h
  simp only [RunReg, List.mem_cons, List.not_mem_nil, or_false, Reg.FH_CPL_MISMATCH, Reg.DRAM_LOST, Reg.DRAM_LOST_ADDR_LO, Reg.DRAM_LOST_ADDR_HI,
    Reg.FH_EVT_HEAD, Reg.MG_ALERT, Reg.IRQ_STATUS, Reg.SES_REFUSED, Reg.GRP_DELIVERED, Reg.GRP_DOWN_DROPPED, Reg.DL_UNCHECKED, Reg.DL_ABANDONS,
    Reg.FL_STATUS]
  rintro (h | h | ⟨i, k, hk, h⟩) <;> omega

theorem PortStatus.not_event {o : Nat} (h : PortStatus o) : ¬ EventReg o := by
  obtain ⟨q, hq, rfl⟩ := h
  unfold EventReg
  simp only [Reg.FH_EVT_HEAD, Reg.MG_ALERT, Reg.IRQ_STATUS, Reg.FH_CPL_MISMATCH, Reg.FL_STATUS]
  omega

theorem PortStatus.not_link {o : Nat} (h : PortStatus o) : ¬ LinkReg o := by
  have hevent := h.not_event
  obtain ⟨q, hq, rfl⟩ := h
  rintro (h | h | h | h | h)
  · exact hevent h
  all_goals
    simp only [Reg.CE_MC_TX, Reg.FL_STATUS] at h
    omega

theorem not_portStatus_of_lt {o : Nat} (h : o < 0x200000) : ¬ PortStatus o := by
  rintro ⟨q, hq, rfl⟩
  simp only [Reg.FL_STATUS] at h
  omega

theorem not_portStatus_of_le {o : Nat} (h : 0x210000 ≤ o) : ¬ PortStatus o := by
  rintro ⟨q, hq, rfl⟩
  simp only [Reg.FL_STATUS] at h
  omega

abbrev KeepsPorts := KeepsOn PortStatus

section
variable (s : State)

theorem State.flEvent_ports {x : Fld} (hx : x.off = Reg.FL_EVENTS) : KeepsPorts s (s.flEvent x) :=
  ((KeepsOn.refl s).setF (by rw [hx]; exact not_portStatus_of_le (by decide)) 1).trans ⟨fun o ho => State.irq_rg _ 6 (by
    rintro rfl
    exact not_portStatus_of_lt (by decide) ho)⟩

theorem State.post_ports (cls unit stop action detail : Nat) (owner : Option (Nat × Nat)) (lc : Option Nat) :
    KeepsPorts s (s.post cls unit stop action detail owner lc) := .of_reports (s.post_reports ..) fun _ h => h.not_event

theorem State.limit10_ports (key : Nat) {f : State → State} (hf : ∀ u, KeepsPorts u (f u)) : KeepsPorts s (s.limit10 key f) := by
  have hlimited : KeepsPorts s { s with repair := { s.repair with limited := tput s.repair.limited key s.clk } } := .of_regs rfl
  unfold State.limit10
  split
  · exact (KeepsOn.refl s).ite (hlimited.trans (hf _))
  · exact hlimited.trans (hf _)

theorem State.sendOwn_ports (dst argLo argHi origin tag : Nat) : KeepsPorts s (s.sendOwn dst argLo argHi origin tag) :=
  .of_packetsOut (s.sendOwn_packetsOut ..) fun _ h => h.not_link

theorem State.suspect_ports (pkg stop : Nat) {f : State → State} (hf : ∀ u, KeepsPorts u (f u)) : KeepsPorts s (s.suspect pkg stop f) := by
  have hposted : KeepsPorts s ((s.report stop 13 pkg true).post 0x17 13 stop 0 pkg none none) :=
    (KeepsOn.of_regs (s := s) (t := s.report stop 13 pkg true) rfl).trans (State.post_ports _ _ _ _ _ _ _ _)
  have hlimited := hposted.trans (State.limit10_ports _ (10000 + pkg) hf)
  exact hposted.ite (KeepsOn.ite (hlimited.regs rfl) hlimited)

theorem State.refreshDigest_ports : KeepsPorts s s.refreshDigest := by
  have hdigest {o : Nat} (h : 0x210000 ≤ o) : ¬ PortStatus o := not_portStatus_of_le h
  have hwords (l : List Nat) (f : Nat → Word) : KeepsPorts s (s.each l fun u w => u.wrg (digestOff w) (f w)) :=
    .each s l fun u w => (KeepsOn.refl u).wrg (hdigest (by simp only [digestOff]; omega)) _
  unfold State.refreshDigest
  refine KeepsOn.ite (.refl s) ?_
  have hcounted (l : List Nat) (f : Nat → Word) (n : Nat) (c : Word) : KeepsPorts s ((((s.each l fun u w => u.wrg (digestOff w) (f w)).setF
      Reg.FL_DIGEST_COUNT_COUNT n).wrg Reg.FL_DIGEST_CRC c).inc Reg.FL_DIGEST_SEQ) :=
    (((hwords l f).setF (hdigest (by decide)) n).wrg (hdigest (by decide)) c).inc (hdigest (by decide))
  refine KeepsOn.ite (hcounted ..) ?_
  dsimp only
  refine KeepsOn.trans (KeepsOn.trans ?_ (State.limit10_ports _ 0 fun u => u.post_ports ..)) (KeepsOn.each _ _ fun u d =>
    u.suspect_ports d _ fun v => v.sendOwn_ports ..)
  exact (hcounted ..).trans (State.flEvent_ports _ (x := Reg.FL_EVENTS_PARTITION_SUSPECTED) rfl)

theorem State.strFault_ports (n kind k desc slot pkg : Nat) (addr block : Option Nat) : KeepsPorts s (s.strFault n kind k desc slot pkg addr block) := by
  have hfault {o : Nat} (h : 0x400000 ≤ o) : ¬ PortStatus o := not_portStatus_of_le (by omega)
  have hset (u : State) {x : Fld} (hx : x.off = Reg.STR_FAULT n) (v : Nat) : KeepsPorts u (u.setF x v) :=
    (KeepsOn.refl u).setF (by rw [hx]; exact hfault (by simp only [Reg.STR_FAULT]; omega)) v
  have hsome (u : State) (a : Option Nat) (f : Nat → Word) : KeepsPorts u (match a with | some a => (f a, u) | none => u.free).2 := by
    cases a <;> exact .of_regs rfl
  unfold State.strFault
  refine (KeepsOn.refl s).cond _ ?_
  dsimp only
  refine KeepsOn.wrg (KeepsOn.wrg (KeepsOn.wrg ?_ (hfault ?_) _) (hfault ?_) _) (hfault ?_) _
  · refine KeepsOn.trans (KeepsOn.trans (KeepsOn.trans ?_ (hsome _ _ _)) (hsome _ _ _)) (hsome _ _ _)
    exact ((((((hset s rfl _).trans (hset _ rfl _)).trans (hset _ rfl _)).trans (hset _ rfl _)).trans (hset _ rfl _)).trans (hset _ rfl _))
  · simp only [Reg.STR_FAULT_ADDR_LO]
    omega
  · simp only [Reg.STR_FAULT_BLOCK]
    omega
  · simp only [Reg.STR_FAULT_ADDR_HI]
    omega

theorem State.links_ports (x : LinkSt) : KeepsPorts s { s with links := x } := .of_regs rfl
theorem State.setPort_ports (p : Nat) (x : PortSt) : KeepsPorts s (s.setPort p x) := s.links_ports _
theorem State.depart_ports (q : Nat) (p : FlPacket) : KeepsPorts s (s.depart q p) := .of_packetsOut (s.depart_packetsOut q p) fun _ h => h.not_link

theorem State.refuse_ports (r : FlReq) : KeepsPorts s (s.refuse r) := by
  unfold State.refuse
  split
  · exact KeepsOn.ite ((s.strFault_ports ..).trans (.of_runsEnd (State.programError_runsEnd ..) fun _ h => h.not_runReg)) (.refl s)
  · exact KeepsOn.ite ((s.strFault_ports ..).trans (.of_runsEnd (State.programError_runsEnd ..) fun _ h => h.not_runReg)) (.refl s)
  · have hfree : KeepsPorts s s.free.2 := .of_regs rfl
    exact (hfree.trans (State.strFault_ports ..)).regs rfl

theorem State.settle_ports (id : Nat) : KeepsPorts s (s.settle id) := by
  unfold State.settle
  split
  · exact .of_regs rfl
  · exact .refl s

theorem State.inject_ports (r : FlReq) (resend : Bool) : KeepsPorts s (s.inject r resend) := by
  have hout {t u : State} (h : PacketsOut t u) : KeepsPorts t u := .of_packetsOut h fun _ h => h.not_link
  have hrefused (t u : State) (h : KeepsPorts t u) : KeepsPorts t ((u.refuse r).settle r.id) :=
    (h.trans (u.refuse_ports r)).trans (State.settle_ports _ _)
  unfold State.inject
  dsimp only
  cases s.pickRoute (s.routeEnt r.dest) (s.prefOf resend) with
  | none =>
    have hidle : KeepsPorts s { s with links := { s.links with idle := s.links.idle ++ [{ r with later := false }] } } := .of_regs rfl
    exact hidle.inc (off := Reg.FL_UNREACHABLE) (not_portStatus_of_le (by decide))
  | some k =>
    dsimp only
    generalize ht : State.setPort _ _ _ = t
    have hroute : KeepsPorts s t := .of_regs (by rw [← ht]; rfl)
    refine KeepsOn.ite (hroute.trans (hrefused t t (.refl t))) (KeepsOn.ite (hroute.trans (hrefused t _ (hout (t.partReject_packetsOut _)))) ?_)
    exact hroute.trans ((t.links_ports _).trans (State.depart_ports _ _ _))

theorem State.accept_ports (r : FlReq) : KeepsPorts s (s.accept r) := by
  unfold State.accept
  exact KeepsOn.ite ((s.links_ports _).trans (State.refuse_ports _ _)) (KeepsOn.ite ((s.links_ports _).trans (State.links_ports _ _))
    ((s.links_ports _).trans (State.inject_ports _ _ _)))

theorem State.reviveIdle_ports : KeepsPorts s s.reviveIdle := by
  have hone (u : State) (r : FlReq) (x : Option StepSt) : KeepsPorts u ((u.setStep x).accept r) :=
    (KeepsOn.of_regs (s := u) (t := u.setStep x) rfl).trans (State.accept_ports _ r)
  unfold State.reviveIdle
  refine KeepsOn.ite (.refl s) ((s.links_ports _).trans (.each _ _ fun u r => KeepsOn.ite ?_ (.refl u)))
  split
  · exact hone u r _
  · exact u.accept_ports r

theorem State.refresh_ports : KeepsPorts s s.refresh := s.refreshDigest_ports.trans (State.reviveIdle_ports _)

theorem State.pump_ports : KeepsPorts s s.pump := by
  unfold State.pump
  split
  · next x _ =>
    have hgone : KeepsPorts s { s with links := { s.links with egress := s.links.egress.erase x } } := .of_regs rfl
    exact KeepsOn.ite (hgone.trans (State.inject_ports _ x false)) (.refl s)
  · exact .refl s

theorem State.routeLost_ports (r : FlReq) : KeepsPorts s (s.routeLost r) := by
  have hmarked : KeepsPorts s (s.markFailed r.dest r.route) := by
    unfold State.markFailed
    exact ((s.links_ports _).trans (State.links_ports _ _)).trans (State.flEvent_ports _ rfl)
  have hresend (u : State) : KeepsPorts u (u.resend r) :=
    ((KeepsOn.of_regs (s := u) (t := u.dropTracked r.id) rfl).trans (State.inject_ports _ r true)).trans (State.pump_ports _)
  have hcounted := hmarked.cond ((s.markFailed r.dest r.route).reachable r.dest) (f := fun v => v.inc Reg.FL_RESENDS) ((KeepsOn.refl _).inc (off := Reg.FL_RESENDS)
    (not_portStatus_of_le (by decide)))
  exact (hcounted.trans (hresend _)).trans (State.refresh_ports _)

theorem State.displaced_ports (q : Nat) (p : FlPacket) : KeepsPorts s (s.displaced q p) := by
  have hout {t u : State} (h : PacketsOut t u) : KeepsPorts t u := .of_packetsOut h fun _ h => h.not_link
  have hdrop : PacketsOut s (s.dropBranch q p) :=
    (s.partialRecord_packetsOut _ _ _).trans (PacketsOut.ite (State.partialEngine_packetsOut _ _ _ _) (State.sendOwn_packetsOut _ _ _ _ _ _))
  have hback : PacketsOut s (s.turnBack p) := PacketsOut.ite (.refl s) (s.answer_packetsOut _)
  unfold State.displaced
  refine KeepsOn.ite (hout hdrop) (KeepsOn.ite ?_ (hout hback))
  split
  · exact KeepsOn.ite (.refl s) (s.routeLost_ports _)
  · exact .refl s

theorem State.summary_ports : KeepsPorts s s.summary := by
  have hset (u : State) {x : Fld} (hx : x.off = Reg.FH_SUMMARY) (k : Nat) : KeepsPorts u (u.setF x k) :=
    (KeepsOn.refl u).setF (by rw [hx]; exact not_portStatus_of_lt (by decide)) k
  have hshown (a b c d : Nat) : KeepsPorts s ((((s.setF Reg.FH_SUMMARY_WORKING a).setF Reg.FH_SUMMARY_EXHAUSTED b).setF Reg.FH_SUMMARY_FOLDED c).setF
      Reg.FH_SUMMARY_DEGRADED d) := (((hset s rfl a).trans (hset _ rfl b)).trans (hset _ rfl c)).trans (hset _ rfl d)
  unfold State.summary
  exact KeepsOn.ite ((hshown ..).trans (.of_runsEnd (State.postOpen_runsEnd ..) fun _ h => h.not_runReg)) (hshown ..)

end

/-! ### A port that goes down (R432, R443) -/

theorem FL_STATUS_ne {p q : Nat} (h : q ≠ p) : Reg.FL_STATUS q ≠ Reg.FL_STATUS p := by
  simp only [Reg.FL_STATUS]
  omega

/-- The states of the ports that stay, and the state of the one that changes. -/
structure PortBecomes (s t : State) (p st : Nat) : Prop where
  own : t.portState p = st
  other : ∀ q < 16, q ≠ p → t.portState q = s.portState q

theorem KeepsOn.portState {s t : State} (h : KeepsPorts s t) {q : Nat} (hq : q < 16) : t.portState q = s.portState q :=
  State.fd_congr (h.rg _ ⟨q, hq, rfl⟩)

theorem PortBecomes.keeps {s t u : State} {p st : Nat} (h : PortBecomes s t p st) (hp : p < 16) (k : KeepsPorts t u) : PortBecomes s u p st :=
  ⟨(k.portState hp).trans h.own, fun q hq hne => (k.portState hq).trans (h.other q hq hne)⟩

theorem State.portStops_becomes (s : State) {p st : Nat} (hp : p < 16) (hst : st < 8) : PortBecomes s (s.portStops p st) p st := by
  have hset : PortBecomes s ((s.setPortState p st).setF (Reg.FL_STATUS_LANES p) 0) p st := by
    have hrg (q : Nat) (hne : q ≠ p) := (State.rg_setF_of_ne (s.setPortState p st) (x := Reg.FL_STATUS_LANES p) (FL_STATUS_ne hne) 0).trans
      (s.rg_setF_of_ne (x := Reg.FL_STATUS_STATE p) (FL_STATUS_ne hne) st)
    refine ⟨?_, fun q _ hne => State.fd_congr (hrg q hne)⟩
    have hlanes : (26 : Nat) ≤ 28 ∧ (29 : Nat) ≤ 31 := by decide
    refine (State.fd_setF_apart _ (x := Reg.FL_STATUS_LANES p) (y := Reg.FL_STATUS_STATE p) rfl (.inl (show 28 < 29 by decide)) hlanes.1 hlanes.2 0).trans ?_
    exact (State.fd_setF_same _ (x := Reg.FL_STATUS_STATE p) hlanes.2 (show 31 < 32 by decide) st).trans (Nat.mod_eq_of_lt hst)
  unfold State.portStops
  dsimp only
  refine hset.keeps hp (KeepsOn.trans ?_ (State.refresh_ports _))
  exact (State.setPort_ports _ _ _).trans (KeepsOn.each _ _ (f := fun u w => u.displaced p w) fun u w => u.displaced_ports p w)

theorem State.portDown_becomes (s : State) {p : Nat} (hp : p < 16) : PortBecomes s (s.portDown p) p 4 := by
  have hcount : KeepsPorts s (s.inc (Reg.FL_DOWNS p)) := (KeepsOn.refl s).inc (by
    rintro ⟨q, -, h⟩
    simp only [Reg.FL_DOWNS, Reg.FL_STATUS] at h
    omega)
  obtain ⟨hown, hother⟩ := State.portStops_becomes (s.inc (Reg.FL_DOWNS p)) hp (st := 4) (by decide)
  have hstops : PortBecomes s ((s.inc (Reg.FL_DOWNS p)).portStops p 4) p 4 :=
    ⟨hown, fun q hq hne => (hother q hq hne).trans (hcount.portState hq)⟩
  unfold State.portDown
  dsimp only
  generalize (s.inc (Reg.FL_DOWNS p)).portStops p 4 = t at hstops
  have hevent := t.flEvent_ports (x := Reg.FL_EVENTS_LINK_DOWN) rfl
  generalize t.flEvent Reg.FL_EVENTS_LINK_DOWN = u at hevent
  exact hstops.keeps hp ((hevent.trans (u.suspect_ports _ _ fun v => v.sendOwn_ports ..)).trans (State.summary_ports _))

/-- A port that is up retrains at most. -/
theorem State.retrain_others (s : State) {p : Nat} : ∀ q < 16, q ≠ p → (s.retrain p).portState q = s.portState q := by
  intro q hq hne
  unfold State.retrain
  split
  · have hset : ((s.setPortState p 3).setPort p { s.port p with rxBad := 0 }).portState q = s.portState q :=
      State.fd_congr (s.rg_setF_of_ne (x := Reg.FL_STATUS_STATE p) (FL_STATUS_ne hne) 3)
    exact ((State.refresh_ports _).portState hq).trans hset
  · rfl

/-- A port that trains, is up or retrains falls with its clock. -/
def State.clockLost (s : State) (p : Nat) : State := if [1, 2, 3].contains (s.portState p) then (s.retrain p).portDown p else s

theorem State.clockLost_own (s : State) {p : Nat} (hp : p < 16) :
    (s.clockLost p).portState p = if [1, 2, 3].contains (s.portState p) then 4 else s.portState p := by
  unfold State.clockLost
  by_cases h : [1, 2, 3].contains (s.portState p) = true
  · rw [if_pos h, if_pos h]
    exact (State.portDown_becomes _ hp).own
  · rw [if_neg h, if_neg h]

theorem State.clockLost_other (s : State) {p q : Nat} (hp : p < 16) (hq : q < 16) (hne : q ≠ p) : (s.clockLost p).portState q = s.portState q := by
  unfold State.clockLost
  split
  · exact ((State.portDown_becomes _ hp).other q hq hne).trans (s.retrain_others q hq hne)
  · rfl

theorem State.clocksLost (l : List Nat) (s : State) (d : Nat) (hbound : ∀ k ∈ l, 4 * d + k < 16) (hnodup : l.Nodup) :
    (∀ k ∈ l, (s.each l fun u k => u.clockLost (4 * d + k)).portState (4 * d + k) =
        if [1, 2, 3].contains (s.portState (4 * d + k)) then 4 else s.portState (4 * d + k)) ∧
      ∀ q < 16, (∀ k ∈ l, q ≠ 4 * d + k) → (s.each l fun u k => u.clockLost (4 * d + k)).portState q = s.portState q := by
  induction l generalizing s with
  | nil => exact ⟨fun k hk => absurd hk List.not_mem_nil, fun _ _ _ => rfl⟩
  | cons k l ih =>
    obtain ⟨hk, hl⟩ := List.nodup_cons.1 hnodup
    obtain ⟨hown, hother⟩ := ih (s.clockLost (4 * d + k)) (fun j hj => hbound j (List.mem_cons_of_mem k hj)) hl
    have hfirst : 4 * d + k < 16 := hbound k List.mem_cons_self
    refine ⟨fun j hj => ?_, fun q hq hne => ?_⟩
    · rcases List.mem_cons.1 hj with rfl | hj
      · exact (hother _ hfirst fun i hi heq => hk (by rwa [show j = i by omega])).trans (s.clockLost_own hfirst)
      · have hne : 4 * d + j ≠ 4 * d + k := by
          intro heq
          exact hk (by rwa [show k = j by omega])
        rw [State.each_cons, hown j hj, s.clockLost_other hfirst (hbound j (List.mem_cons_of_mem k hj)) hne]
    · exact (hother q hq fun j hj => hne j (List.mem_cons_of_mem k hj)).trans (s.clockLost_other hfirst hq (hne k List.mem_cons_self))

/-! ### The reset of INST_CTRL (R391 to R393) -/

/-- The status registers of the host link and of the instances. -/
def ResetStatus (o : Nat) : Prop := o = Reg.HL_STATUS ∨ ∃ j < 64, o = Reg.INST_STATUS j

theorem ResetStatus.not_runReg {o : Nat} (h : ResetStatus o) : ¬ RunReg o := by
  simp only [RunReg, List.mem_cons, List.not_mem_nil, or_false, Reg.FH_CPL_MISMATCH, Reg.DRAM_LOST, Reg.DRAM_LOST_ADDR_LO, Reg.DRAM_LOST_ADDR_HI,
    Reg.FH_EVT_HEAD, Reg.MG_ALERT, Reg.IRQ_STATUS, Reg.SES_REFUSED, Reg.GRP_DELIVERED, Reg.GRP_DOWN_DROPPED, Reg.DL_UNCHECKED, Reg.DL_ABANDONS]
  rcases h with rfl | ⟨q, hq, rfl⟩ <;> simp only [Reg.HL_STATUS, Reg.INST_STATUS] <;> rintro (h | h | ⟨i, k, hk, h⟩) <;> omega

/-- A register of Table 21.5's pages from 0x90000 on, or at another place of an INST page, is none of them. -/
theorem not_resetStatus_of_le {o : Nat} (h : 0x90000 ≤ o) : ¬ ResetStatus o := by
  rintro (rfl | ⟨j, hj, rfl⟩)
  · exact absurd h (by decide)
  · simp only [Reg.INST_STATUS] at h
    omega

theorem not_resetStatus_of_mod {o : Nat} (hlo : 0x8000 ≤ o) (h : o % 0x20 ≠ 4) : ¬ ResetStatus o := by
  rintro (rfl | ⟨j, hj, rfl⟩)
  · exact absurd hlo (by decide)
  · simp only [Reg.INST_STATUS] at h
    omega

theorem not_resetStatus_of_page {o i : Nat} (k : Nat) (hk : 8 ≤ k ∧ k < 0x400) (h : o = 0x80000 + 0x400 * i + k) : ¬ ResetStatus o := by
  rintro (rfl | ⟨j, hj, rfl⟩)
  · simp only [Reg.HL_STATUS] at h
    omega
  · simp only [Reg.INST_STATUS] at h
    omega

abbrev KeepsResets := KeepsOn ResetStatus

section
variable (s : State) (i : Nat)

theorem State.resetStep_resets : KeepsResets s (s.resetStep i) := by
  have hends : ∀ {t u : State}, RunsEnd t u → KeepsResets t u := fun h => .of_runsEnd h fun _ h => h.not_runReg
  unfold State.resetStep
  split
  · exact .refl s
  · next x _ =>
    refine KeepsOn.ite (.refl s) ?_
    have hstopped := s.stopClusters_runsEnd.trans (State.endEpisodes_runsEnd _)
    have hrolled : RunsEnd s (if x.committed then s.stopClusters.endEpisodes else s.stopClusters.endEpisodes.rollback) :=
      RunsEnd.ite hstopped (hstopped.trans (State.rollback_runsEnd _))
    have hdone (l : List Nat) : KeepsResets s (((if x.committed then s.stopClusters.endEpisodes else s.stopClusters.endEpisodes.rollback).each l
        fun u k => u.setSeq k { u.seq k with preempt := (u.seq k).preempt + 1, state := .displaced }).setStep none) :=
      hends ((hrolled.trans (State.each_runsEnd _ _ fun u k => u.setSeq_runsEnd ..)).trans (State.setStep_runsEnd ..))
    exact KeepsOn.ite (hdone _) ((hdone _).regs rfl)

theorem State.resetRings_resets : KeepsResets s (s.resetRings i) := by
  have hctrl (r : Nat) : ¬ ResetStatus (Reg.RC_CTRL r) := not_resetStatus_of_mod (by simp only [Reg.RC_CTRL]; omega) (by simp only [Reg.RC_CTRL]; omega)
  have htrace (u : State) (c : Nat) (w : Word × Word) : KeepsResets u (u.traceEnd c w) := ⟨fun o ho => (u.traceEnd_onlyTrace c w).2 o (by
    rcases ho with rfl | ⟨j, hj, rfl⟩
    · decide
    · simp only [Reg.INST_STATUS]
      omega)⟩
  have hquarantined : ¬ ResetStatus Reg.HL_QUARANTINED := by
    rintro (h | ⟨j, hj, h⟩)
    · exact absurd h (by decide)
    · simp only [Reg.HL_QUARANTINED, Reg.INST_STATUS] at h
      omega
  have htag (u : State) (tag : Nat) : KeepsResets u (u.quarantineTag tag) := by
    unfold State.quarantineTag
    exact (KeepsOn.withHost u _).setF (x := Reg.HL_QUARANTINED_TAGS) hquarantined _
  unfold State.resetRings
  dsimp only
  refine KeepsOn.trans (KeepsOn.trans (KeepsOn.trans (KeepsOn.trans (KeepsOn.trans (KeepsOn.each s _ fun u r => ?_) (KeepsOn.each _ _ fun u r => ?_))
    (KeepsOn.each _ _ fun u e => htrace u _ _)) (KeepsOn.withHost _ _)) (KeepsOn.each _ _ fun u t => htag u t)) (KeepsOn.withHost _ _)
  · exact ((KeepsOn.refl u).setF (x := Reg.RC_CTRL_SQ_EN r) (hctrl r) 0).setF (x := Reg.RC_CTRL_CQ_EN r) (hctrl r) 0
  · exact KeepsOn.withHost u _

theorem State.zeroLater_resets (n : Nat) (pages : List Nat) : KeepsResets s (s.zeroLater n pages) := by
  unfold State.zeroLater
  exact KeepsOn.ite (.refl s) (.of_regs rfl)

theorem State.closeSeq_resets (id : Nat) : KeepsResets s (s.closeSeq id) := by
  have haccount := (s.setSeq_runsEnd id { s.seq id with state := .gone }).trans
    (State.account_runsEnd _ (s.seq id).inst (s.seqTimes (s.seq id)).1 (s.seq id).preempt)
  unfold State.closeSeq State.leaveQuietly
  exact KeepsOn.ite (.withNet s _) (KeepsOn.ite ((KeepsOn.of_runsEnd haccount fun _ h => h.not_runReg).trans (State.zeroLater_resets _ _ _))
    (.withNet s _))

theorem State.resetSessions_resets : KeepsResets s (s.resetSessions i) := by
  unfold State.resetSessions
  refine .each s _ fun u n => ?_
  unfold State.closeSession
  dsimp only
  exact ((KeepsOn.each u _ (f := fun v (e : Nat × Seq) => v.closeSeq e.1) fun v e => v.closeSeq_resets e.1).trans (State.zeroLater_resets _ _ _)).trans
    (KeepsOn.withNet _ _)

theorem State.resetEntries_resets : KeepsResets s (s.resetEntries i) := by
  have hword (e w : Nat) (hw : w % 4 = 0) : ¬ ResetStatus (Reg.AE_WORD e w) :=
    not_resetStatus_of_mod (by simp only [Reg.AE_WORD]; omega) (by simp only [Reg.AE_WORD]; omega)
  have hentry (u : State) (e : Nat) : KeepsResets u (u.clearEntry e) :=
    (((KeepsOn.refl u).setF (x := ⟨Reg.AE_WORD e 0, 31, 31⟩) (hword e 0 rfl) 0).setF (x := ⟨Reg.AE_WORD e 4, 31, 31⟩) (hword e 4 rfl) 1).trans
      (KeepsOn.withTime _ _)
  unfold State.resetEntries
  dsimp only
  exact ((KeepsOn.each s _ hentry).trans (KeepsOn.withTime _ _)).trans (KeepsOn.withTime _ _)

theorem State.resetCluster_resets (n : Nat) : KeepsResets s (s.resetCluster i n) := by
  have hlend : KeepsResets s (s.stopLend n) := by
    unfold State.stopLend
    split
    · exact .refl s
    · exact (KeepsOn.withClusters s _).wrg (not_resetStatus_of_le (by simp only [Reg.LEND_US]; omega)) _
  unfold State.resetCluster
  dsimp only
  split
  · exact .refl s
  · exact hlend.trans (KeepsOn.withClusters _ _)

theorem State.engineFree_resets (p : ProgSlot) : KeepsResets s (s.engineFree p) := by
  have hbusy : KeepsResets s (s.setF Reg.CE_STATUS_BUSY 0) := (KeepsOn.refl s).setF (x := Reg.CE_STATUS_BUSY) (not_resetStatus_of_le (by decide)) 0
  rw [s.engineFree_rest]
  exact hbusy.regs rfl

theorem State.dropPlanes_resets (n : Nat) : KeepsResets s (s.dropPlanes n) := by
  unfold State.dropPlanes
  exact (KeepsOn.withClusters s _).trans (KeepsOn.each _ _ fun v r => .of_regs rfl)

theorem State.resetSlot_resets (n : Nat) : KeepsResets s (s.resetSlot n) := by
  have hauto (k : Nat) : ¬ ResetStatus (Reg.CE_AUTO_STATUS k) := not_resetStatus_of_le (by simp only [Reg.CE_AUTO_STATUS]; omega)
  have hactive : KeepsResets s (if s.images.active = some n then s.engineFree (s.slot n) else s) := KeepsOn.ite (s.engineFree_resets _) (.refl s)
  have hends (t u : State) (h : KeepsResets t u) : KeepsResets t (({ (u.dropPlanes n) with images :=
      { (u.dropPlanes n).images with slots := tdel (u.dropPlanes n).images.slots n } } : State).setF (Reg.BAT_CTRL_VALID n) 0) :=
    ((h.trans (u.dropPlanes_resets n)).trans (KeepsOn.withImages _ _)).setF (x := Reg.BAT_CTRL_VALID n)
      (not_resetStatus_of_le (by simp only [Reg.BAT_CTRL_VALID, Reg.BAT_CTRL]; omega)) 0
  unfold State.resetSlot
  refine hends s _ (KeepsOn.ite hactive ?_)
  split
  · exact hactive
  · exact hactive.setF (x := Reg.CE_MC_RX_CTRL_EN) (not_resetStatus_of_le (by decide)) 0
  · next k _ =>
    exact KeepsOn.setF (x := Reg.CE_AUTO_STATUS_DETAIL k) (KeepsOn.setF (x := Reg.CE_AUTO_STATUS_STATUS k) (KeepsOn.setF (x := Reg.CE_AUTO_STATUS_DONE k)
      (hactive.trans (KeepsOn.of_regs (t := State.free _ |>.2) rfl)) (hauto k) _) (hauto k) _) (hauto k) _

theorem State.resetSlots_resets : KeepsResets s (s.resetSlots i) := .each s _ fun u n => u.resetSlot_resets n

theorem State.resetUnits_resets : KeepsResets s (s.resetUnits i) := by
  have hpage {o : Nat} (k : Nat) (hk : 8 ≤ k ∧ k < 0x400) (h : o = k + 0x80000 + 0x400 * i) : ¬ ResetStatus o := not_resetStatus_of_page (i := i) k hk (by omega)
  have hgate : KeepsResets s (((s.setF (Reg.XCH_GATE_CTRL_EN i) 0).wrg64 (Reg.XCH_GATE_BASE_LO i) 0).wrg (Reg.XCH_GATE_STEPS i) 0) :=
    (((KeepsOn.refl s).setF (x := Reg.XCH_GATE_CTRL_EN i) (hpage 0x180 (by decide) rfl) 0).wrg64 (off := Reg.XCH_GATE_BASE_LO i) (hpage 0x184 (by decide) rfl)
      (hpage 0x188 (by decide) (by simp only [Reg.XCH_GATE_BASE_LO]; omega)) 0).wrg (hpage 0x18C (by decide) rfl) 0
  have hstat (u : State) : KeepsResets u (u.statClear i) :=
    ((((KeepsOn.refl u).wrg (hpage 0x210 (by decide) rfl) 0).wrg (hpage 0x214 (by decide) rfl) 0).wrg64 (off := Reg.STAT_PIECE_SQ_LO i) (hpage 0x218 (by decide) rfl)
      (hpage 0x21C (by decide) (by simp only [Reg.STAT_PIECE_SQ_LO]; omega)) 0).wrg64 (off := Reg.STAT_TOTAL_SQ_LO i) (hpage 0x220 (by decide) rfl)
      (hpage 0x224 (by decide) (by simp only [Reg.STAT_TOTAL_SQ_LO]; omega)) 0
  have hacc (u : State) : KeepsResets u (u.accClear i) :=
    (((KeepsOn.refl u).wrg64 (off := Reg.ACC_QWAIT_LO i) (hpage 0x100 (by decide) rfl) (hpage 0x104 (by decide) (by simp only [Reg.ACC_QWAIT_LO]; omega)) 0).wrg64 (off := Reg.ACC_PREEMPT_LO i)
      (hpage 0x108 (by decide) rfl) (hpage 0x10C (by decide) (by simp only [Reg.ACC_PREEMPT_LO]; omega)) 0).wrg64 (off := Reg.ACC_DONE_LO i)
      (hpage 0x110 (by decide) rfl) (hpage 0x114 (by decide) (by simp only [Reg.ACC_DONE_LO]; omega)) 0
  unfold State.resetUnits
  refine ((KeepsOn.setF (x := Reg.STF_CTRL_EN i) (KeepsOn.setF (x := Reg.XCH_BC_CTRL_BUSY i) (KeepsOn.trans (KeepsOn.setF (x := Reg.STAT_CTRL_EN i)
    (hgate.trans (KeepsOn.withNet _ _)) (hpage 0x200 (by decide) rfl) 0) (hstat _)) (hpage 0x1C0 (by decide) rfl) 0)
    (hpage 0x240 (by decide) rfl) 0).trans (KeepsOn.withStore _ _)).trans (hacc _)

theorem State.resetCounters_resets : KeepsResets s (s.resetCounters i) := by
  have hpc {o c : Nat} (k : Nat) (h : o = k + 0x90000 + 0x10 * c) : ¬ ResetStatus o := not_resetStatus_of_le (by omega)
  have hone (u : State) (c : Nat) : KeepsResets u ((((u.setPc c 0).setF (Reg.PC_CTRL_NOTIFY_EN c) 0).setF (Reg.PC_CTRL_IRQ_ARM c) 0).emit
      (.counterUpdate c 0)) := by
    have hset := ((((KeepsOn.refl u).wrg (off := Reg.PC_VALUE_LO c) (hpc (c := c) 0 (by simp only [Reg.PC_VALUE_LO])) (lo32 0)).setF (x := Reg.PC_VALUE_HI_VALUE c) (hpc (c := c) 4 rfl) (0 / 2 ^ 32 % 2 ^ 16)).setF
      (x := Reg.PC_CTRL_NOTIFY_EN c) (hpc (c := c) 8 rfl) 0).setF (x := Reg.PC_CTRL_IRQ_ARM c) (hpc (c := c) 8 rfl) 0
    exact hset.trans ⟨fun o _ => State.emit_rg ..⟩
  unfold State.resetCounters
  exact (KeepsOn.each s _ hone).trans (KeepsOn.withTime _ _)

/-- A reset shows IN_RESET in its own INST_STATUS, and leaves the status of the host link and every other INST_STATUS. -/
theorem State.instReset_status (hi : i < 64) : (s.instReset i).on (Reg.INST_STATUS_IN_RESET i) = true ∧ (s.instReset i).rg Reg.HL_STATUS = s.rg Reg.HL_STATUS ∧
    ∀ j < 64, j ≠ i → (s.instReset i).rg (Reg.INST_STATUS j) = s.rg (Reg.INST_STATUS j) := by
  have hlink (u : State) : KeepsResets u (u.resetLinks i) := .of_regs rfl
  have hheld (u : State) : KeepsResets u (u.resetHeld i) := .of_regs rfl
  have hseqs (u : State) : KeepsResets u (u.resetSeqs i) := .each u _ fun v e => .withNet v _
  have hrest (u : State) (l : State → List Nat) : KeepsResets u ((((((((u.resetRings i).resetSessions i).resetEntries i).each
      (l (((u.resetRings i).resetSessions i).resetEntries i)) fun v n => v.resetCluster i n).resetSlots i).resetLinks i).resetUnits i |>.resetCounters i).resetHeld i) :=
    ((((((((u.resetRings_resets i).trans (State.resetSessions_resets _ i)).trans (State.resetEntries_resets _ i)).trans
      (KeepsOn.each _ _ (f := fun v n => v.resetCluster i n) fun v n => v.resetCluster_resets i n)).trans (State.resetSlots_resets _ i)).trans (hlink _)).trans
      (State.resetUnits_resets _ i)).trans (State.resetCounters_resets _ i)).trans (hheld _)
  unfold State.instReset
  split
  · next hon => exact ⟨hon, rfl, fun _ _ _ => rfl⟩
  · dsimp only
    have hstart := (s.resetStep_resets i).trans (hseqs _)
    generalize (s.resetStep i).resetSeqs i = t at hstart
    have hset : ((t.setF (Reg.INST_STATUS_GENERATION i) ((t.gen i + 1) % 256)).setF (Reg.INST_STATUS_IN_RESET i) 1).on (Reg.INST_STATUS_IN_RESET i) = true :=
      State.on_setF_one _ rfl (show 30 < 32 by decide)
    have hother (o : Nat) (ho : o ≠ Reg.INST_STATUS i) :
        ((t.setF (Reg.INST_STATUS_GENERATION i) ((t.gen i + 1) % 256)).setF (Reg.INST_STATUS_IN_RESET i) 1).rg o = t.rg o :=
      (State.rg_setF_of_ne _ (x := Reg.INST_STATUS_IN_RESET i) ho 1).trans (State.rg_setF_of_ne _ (x := Reg.INST_STATUS_GENERATION i) ho _)
    generalize (t.setF (Reg.INST_STATUS_GENERATION i) ((t.gen i + 1) % 256)).setF (Reg.INST_STATUS_IN_RESET i) 1 = u at hset hother
    have hkeeps := hrest u fun v => v.clusters.map (·.1)
    have hhl : ResetStatus Reg.HL_STATUS := .inl rfl
    have hinst (j : Nat) (hj : j < 64) : ResetStatus (Reg.INST_STATUS j) := .inr ⟨j, hj, rfl⟩
    refine ⟨(State.on_congr (hkeeps.rg _ (hinst i hi))).trans hset, ?_, fun j hj hne => ?_⟩
    · rw [hkeeps.rg _ hhl, hother _ (by simp only [Reg.HL_STATUS, Reg.INST_STATUS]; omega), hstart.rg _ hhl]
    · rw [hkeeps.rg _ (hinst j hj), hother _ (by simp only [Reg.INST_STATUS]; omega), hstart.rg _ (hinst j hj)]

end

/-- After the reset of the instances of a list each of them is in reset, and the host link's status is as before. -/
theorem State.instResets_status (l : List Nat) (s : State) (hl : ∀ i ∈ l, i < 64) : (s.each l State.instReset).rg Reg.HL_STATUS = s.rg Reg.HL_STATUS ∧
    (∀ i ∈ l, (s.each l State.instReset).on (Reg.INST_STATUS_IN_RESET i) = true) ∧
    ∀ i < 64, s.on (Reg.INST_STATUS_IN_RESET i) = true → (s.each l State.instReset).on (Reg.INST_STATUS_IN_RESET i) = true := by
  induction l generalizing s with
  | nil => exact ⟨rfl, fun i hi => absurd hi List.not_mem_nil, fun _ _ h => h⟩
  | cons i l ih =>
    obtain ⟨hown, hlink, hother⟩ := s.instReset_status i (hl i List.mem_cons_self)
    obtain ⟨hlink', hin, hkept⟩ := ih (s.instReset i) fun j hj => hl j (List.mem_cons_of_mem i hj)
    refine ⟨hlink'.trans hlink, fun j hj => ?_, fun j hj hon => hkept j hj ?_⟩
    · rcases List.mem_cons.1 hj with rfl | hj
      · exact hkept j (hl j List.mem_cons_self) hown
      · exact hin j hj
    · by_cases hne : j = i
      · rw [hne]
        exact hown
      · exact (State.on_congr (hother j hj hne)).trans hon

end Sys2Proof.Machine

/-! ## Cold resets and the loss of rails, clocks and the host (R605 to R607, R624, R643, R646) -/

namespace Sys2Proof.Machine

/-! ### Cold resets -/

/-- What a cold reset keeps is not what its cause changed before it. -/
theorem ColdFrom.of_causes {s u t : State} {k : Nat} (h : ColdFrom u t k) (hu : u = { s with mgmt := u.mgmt, pins := u.pins })
    (hsetup : u.mgmt.setup = s.mgmt.setup) (hsvn : u.mgmt.minSvn = s.mgmt.minSvn) : ColdFrom s t k := by
  have hof {α : Type} (f : State → α) : f u = f { s with mgmt := u.mgmt, pins := u.pins } := congrArg f hu
  obtain ⟨h1, h2, h3, h4, h5, h6, h7, h8, hfalls, hcount, hretired, hfenced, hblocks, hkeys, hautos, hlib, hset, hmin, hctl, hdead, hout, hpend, hcause, hrg⟩ := h
  exact ⟨h1, h2, h3, h4, h5, h6, h7, h8, hfalls.trans (hof fun x => { State.reset.power with falls := x.power.falls }),
    hcount.trans (hof (·.repair.fenceCount)), hretired.trans (hof (·.repair.retired)), hfenced, hblocks.trans (hof (·.store.blocks)),
    hkeys.trans (hof (·.store.keys)), hautos.trans (hof (·.store.autos)), fun e => (hlib e).trans (hof fun x => { x.lib e with uses := 0 }),
    hset.trans hsetup, hmin.trans hsvn, hctl, hdead, hout.trans (hof State.outbox), hpend.trans (hof State.pending),
    hcause.trans (hof fun x => x.rg Reg.GS_RESET_CAUSE ||| BitVec.ofNat 32 (2 ^ k)), hrg⟩

/-- A supply that failed holds the module after the cold reset. -/
theorem State.brownoutReset_spec {s : State} (h : s.noneDeleting) (c : Supply) : ColdFrom s (s.brownoutReset c) 4 ∧
    (s.brownoutReset c).mgmt.brownout.contains c = true := by
  have hcold := s.coldReset_from h 4
  unfold State.brownoutReset
  generalize s.coldReset (some 4) = t at hcold
  refine ⟨hcold, ?_⟩
  change (if t.mgmt.brownout.contains c then t.mgmt.brownout else t.mgmt.brownout ++ [c]).contains c = true
  split
  · assumption
  · simp

/-! ### GS_RESET (R606) -/

theorem exec_gsReset_of_open {s : State} (hopen : s.open) (v : Word) {c : Instr} (hc : c ∈ [Instr.gsResetCold v, .gsResetController v]) :
    exec c s = .next (s.gsReset v) := by
  have hwrite (f : State → State) : s.hostWrite Reg.GS_RESET f = f s := State.hostWrite_of_open hopen _ f
  rcases List.mem_cons.1 hc with rfl | hc
  · exact congrArg Host.Outcome.next (hwrite _)
  · rw [List.mem_singleton.1 hc]
    exact congrArg Host.Outcome.next (hwrite _)

/-! ### The controller and the hub (R624, R643) -/

/-- The fan's duty and its register. -/
def State.fanDriven (s : State) (d : Nat) : State := { s.setF Reg.FAN_STATUS_DUTY d with pins := { s.pins with fanPwm := d } }

theorem State.driveFan_eq (s : State) : s.driveFan = s.fanDriven (if s.mgmt.controllerReset || s.mgmt.hubDead then 100 else s.fanDuty) := rfl

theorem State.fanDriven_rg (s : State) (d : Nat) {o : Nat} (h : o ≠ Reg.FAN_STATUS) : (s.fanDriven d).rg o = s.rg o :=
  s.rg_setF_of_ne (x := Reg.FAN_STATUS_DUTY) h d

theorem State.fanDriven_fanDuty (s : State) (d : Nat) : (s.fanDriven d).fanDuty = s.fanDuty := by
  have hfd (x : Fld) (hx : x.off ≠ Reg.FAN_STATUS) : (s.fanDriven d).fd x = s.fd x := State.fd_congr (s.fanDriven_rg d hx)
  unfold State.fanDuty State.hot
  rw [hfd _ (by decide), hfd _ (by decide), hfd _ (by decide), hfd _ (by decide), hfd _ (by decide)]

theorem State.fanDriven_fd (s : State) {d : Nat} (hd : d < 256) : (s.fanDriven d).fd Reg.FAN_STATUS_DUTY = d :=
  (s.fd_setF_same (x := Reg.FAN_STATUS_DUTY) (by decide) (by decide) d).trans (Nat.mod_eq_of_lt hd)

theorem State.fanDriven_inc_sameArray (s : State) (m : MgmtSt) (off d : Nat) : SameArray s (((s.setMgmt m).inc off).fanDriven d) := ⟨rfl, rfl⟩

theorem State.driveFan_of_off {s : State} (h : (s.mgmt.controllerReset || s.mgmt.hubDead) = true) : s.driveFan = s.fanDriven 100 :=
  s.driveFan_eq.trans (congrArg s.fanDriven (if_pos h))

theorem State.controllerResetNow_of_running {s : State} (h : s.inCold = false) :
    s.controllerResetNow = ((s.setMgmt { s.mgmt with controllerReset := true }).inc Reg.MG_RESETS).fanDriven 100 := by
  have hgo : ¬ s.inCold = true := by rw [h]; decide
  exact (if_neg hgo).trans (State.driveFan_of_off rfl)

/-! ### The clock of the Ethernet (R635) -/

/-- The link bit of sub-port b of port p. -/
abbrev linkBit (p b : Nat) : Fld := ⟨Reg.ETH_STATUS p, 28 + b, 28 + b⟩

/-- The answers that wait leave the status of the Ethernet ports. -/
theorem State.groupsAgain_runsEnd (s : State) : RunsEnd s s.groupsAgain := by
  have hnone : RunsEnd s { s with net := { s.net with groups := [] } } := ⟨fun _ _ => rfl, fun _ => .refl _, rfl⟩
  exact hnone.trans (State.each_runsEnd _ _ fun u r => u.groupStep_runsEnd r)

theorem not_runReg_ethStatus {p : Nat} (hp : p < 4) : ¬ RunReg (Reg.ETH_STATUS p) := by
  simp only [RunReg, List.mem_cons, List.not_mem_nil, or_false, Reg.FH_CPL_MISMATCH, Reg.DRAM_LOST, Reg.DRAM_LOST_ADDR_LO, Reg.DRAM_LOST_ADDR_HI,
    Reg.FH_EVT_HEAD, Reg.MG_ALERT, Reg.IRQ_STATUS, Reg.SES_REFUSED, Reg.GRP_DELIVERED, Reg.GRP_DOWN_DROPPED, Reg.DL_UNCHECKED, Reg.DL_ABANDONS,
    Reg.ETH_STATUS]
  rintro (h | h | ⟨i, k, hk, h⟩) <;> omega

theorem State.ethDown_spec (s : State) {p b : Nat} (hp : p < 4) (hb : b < 4) : (s.ethDown p b false).fd (linkBit p b) = 0 ∧
    (∀ q c, q < 4 → c < 4 → s.fd (linkBit q c) = 0 → (s.ethDown p b false).fd (linkBit q c) = 0) ∧ (s.ethDown p b false).pins.refLost = s.pins.refLost := by
  have hends := State.groupsAgain_runsEnd ((s.setF (linkBit p b) 0).setF ⟨Reg.ETH_STATUS p, 24 + b, 24 + b⟩ (b2n false))
  have hfec (q c : Nat) (hc : c < 4) : ((s.setF (linkBit p b) 0).setF ⟨Reg.ETH_STATUS p, 24 + b, 24 + b⟩ (b2n false)).fd (linkBit q c) =
      (s.setF (linkBit p b) 0).fd (linkBit q c) := by
    by_cases hq : Reg.ETH_STATUS q = Reg.ETH_STATUS p
    · exact State.fd_setF_apart _ (x := ⟨Reg.ETH_STATUS p, 24 + b, 24 + b⟩) (y := linkBit q c) hq (.inl (by dsimp only; omega)) (Nat.le_refl _) (Nat.le_refl _) _
    · exact State.fd_setF_of_ne _ (x := ⟨Reg.ETH_STATUS p, 24 + b, 24 + b⟩) (y := linkBit q c) hq _
  have hshown (q c : Nat) (hq : q < 4) (hc : c < 4) : (s.ethDown p b false).fd (linkBit q c) = (s.setF (linkBit p b) 0).fd (linkBit q c) :=
    (State.fd_congr (hends.rg _ (not_runReg_ethStatus hq))).trans (hfec q c hc)
  have hown : (s.setF (linkBit p b) 0).fd (linkBit p b) = 0 :=
    (s.fd_setF_same (x := linkBit p b) (Nat.le_refl _) (by dsimp only; omega) 0).trans (Nat.zero_mod _)
  refine ⟨(hshown p b hp hb).trans hown, fun q c hq hc hzero => (hshown q c hq hc).trans ?_, ?_⟩
  · by_cases hsame : q = p ∧ c = b
    · obtain ⟨rfl, rfl⟩ := hsame
      exact hown
    · by_cases hreg : Reg.ETH_STATUS q = Reg.ETH_STATUS p
      · have hqp : q = p := by
          simp only [Reg.ETH_STATUS] at hreg
          omega
        have hcb : c ≠ b := fun h => hsame ⟨hqp, h⟩
        exact (s.fd_setF_apart (x := linkBit p b) (y := linkBit q c) hreg (by dsimp only; omega) (Nat.le_refl _) (Nat.le_refl _) 0).trans hzero
      · exact (s.fd_setF_of_ne (x := linkBit p b) (y := linkBit q c) hreg 0).trans hzero
  · unfold State.ethDown
    rw [hends.rest]
    rfl

theorem State.ethDowns_spec (l : List Nat) (s : State) (hl : ∀ k ∈ l, k < 16) :
    (∀ k ∈ l, (s.each l fun u k => u.ethDown (k / 4) (k % 4) false).fd (linkBit (k / 4) (k % 4)) = 0) ∧
      (∀ q c, q < 4 → c < 4 → s.fd (linkBit q c) = 0 → (s.each l fun u k => u.ethDown (k / 4) (k % 4) false).fd (linkBit q c) = 0) ∧
      (s.each l fun u k => u.ethDown (k / 4) (k % 4) false).pins.refLost = s.pins.refLost := by
  induction l generalizing s with
  | nil => exact ⟨fun k hk => absurd hk List.not_mem_nil, fun _ _ _ _ h => h, rfl⟩
  | cons k l ih =>
    have hk : k < 16 := hl k List.mem_cons_self
    obtain ⟨hown, hother, hpins⟩ := s.ethDown_spec (p := k / 4) (b := k % 4) (by omega) (by omega)
    obtain ⟨hown', hother', hpins'⟩ := ih (s.ethDown (k / 4) (k % 4) false) fun j hj => hl j (List.mem_cons_of_mem k hj)
    refine ⟨fun j hj => ?_, fun q c hq hc h => hother' q c hq hc (hother q c hq hc h), hpins'.trans hpins⟩
    rcases List.mem_cons.1 hj with rfl | hj
    · exact hother' _ _ (by omega) (by omega) hown
    · exact hown' j hj

/-- The reference clock c counts as lost. -/
def State.clockOut (s : State) (c : RefClk) : State :=
  { s with pins := { s.pins with refLost := if s.pins.refLost.contains c then s.pins.refLost else s.pins.refLost ++ [c] } }

theorem State.exec_refclkLoss_eth (s : State) :
    exec (.refclkLoss .eth) s = .next ((s.clockOut .eth).each (List.range 16) fun u k => u.ethDown (k / 4) (k % 4) false) := rfl

theorem State.exec_refclkLoss_flarid (s : State) (d : Fin 4) :
    exec (.refclkLoss (.flarid d)) s = .next ((s.clockOut (.flarid d)).each (List.range 4) fun u k => u.clockLost (4 * d.val + k)) := rfl

/-! ### A rail whose loss fails the package (R624) -/

theorem State.packageFailed_spec {s : State} (hup : s.on Reg.FH_SUMMARY_FAILED = false) {cause : Nat} (hcause : cause < 32) (stop unit : Nat) :
    (s.packageFailed cause stop unit).on Reg.FH_SUMMARY_FAILED = true ∧ (s.packageFailed cause stop unit).fd Reg.FH_SUMMARY_CAUSE = cause ∧
      (s.packageFailed cause stop unit).net.step = none ∧ (s.packageFailed cause stop unit).pins.ioOff = s.pins.ioOff := by
  have hfailed : s.packageFailed cause stop unit =
      ((((s.setF Reg.FH_SUMMARY_FAILED 1).setF Reg.FH_SUMMARY_CAUSE cause).post 0x18 unit stop 8 0 none none).alert 0).failRuns :=
    if_neg (by rw [hup]; decide)
  have hset : ((s.setF Reg.FH_SUMMARY_FAILED 1).setF Reg.FH_SUMMARY_CAUSE cause).on Reg.FH_SUMMARY_FAILED = true ∧
      ((s.setF Reg.FH_SUMMARY_FAILED 1).setF Reg.FH_SUMMARY_CAUSE cause).fd Reg.FH_SUMMARY_CAUSE = cause := by
    refine ⟨?_, (State.fd_setF_same _ (x := Reg.FH_SUMMARY_CAUSE) (by decide) (by decide) cause).trans (Nat.mod_eq_of_lt hcause)⟩
    rw [State.on_setF_apart _ (x := Reg.FH_SUMMARY_CAUSE) (y := Reg.FH_SUMMARY_FAILED) rfl (by decide) (by decide) (by decide)]
    exact s.on_setF_one rfl (by decide)
  have hpins : ((s.setF Reg.FH_SUMMARY_FAILED 1).setF Reg.FH_SUMMARY_CAUSE cause).pins = s.pins := rfl
  rw [hfailed]
  generalize (s.setF Reg.FH_SUMMARY_FAILED 1).setF Reg.FH_SUMMARY_CAUSE cause = u at hset hpins ⊢
  have hends := ((u.post_runsEnd 0x18 unit stop 8 0 none none).trans (State.alert_runsEnd _ 0)).trans (State.failRuns_runsEnd _)
  have hrg := hends.rg Reg.FH_SUMMARY (by
    simp only [RunReg, List.mem_cons, List.not_mem_nil, or_false, Reg.FH_CPL_MISMATCH, Reg.DRAM_LOST, Reg.DRAM_LOST_ADDR_LO, Reg.DRAM_LOST_ADDR_HI,
      Reg.FH_EVT_HEAD, Reg.MG_ALERT, Reg.IRQ_STATUS, Reg.SES_REFUSED, Reg.GRP_DELIVERED, Reg.GRP_DOWN_DROPPED, Reg.DL_UNCHECKED, Reg.DL_ABANDONS,
      Reg.FH_SUMMARY]
    rintro (h | h | ⟨i, k, hk, h⟩) <;> omega)
  refine ⟨(State.on_congr hrg).trans hset.1, (State.fd_congr hrg).trans hset.2, State.failRuns_step _, ?_⟩
  rw [hends.rest, ← hpins]

/-- Settles O56: each loss and reset takes the branch of its rule; a cold reset leaves what its table keeps. -/
theorem coldResetsKeepWhatTheirTableKeeps : Obligations.ColdResetsKeepWhatTheirTableKeeps := by
  refine ⟨fun s h => ?powerOn, fun s h hup => ?pin, fun s h => ?pinWaits, fun s => ⟨fun h => ?notHeld, fun h => ?release⟩, fun s v hopen => ?code,
    fun s => ?controller, fun s r h => congrArg Host.Outcome.next (if_pos h), fun s hin => ?rails, fun s c => ?brownoutEnd, fun s => ?clocks,
    fun s => ⟨fun h => ?hostHeld, fun hcold hready => ?hostDown, fun hcold hready => ?hostReset⟩, fun s rate flit width => ?perst⟩
  case powerOn =>
    obtain ⟨u, hu, hmgmt, hexec⟩ : ∃ u : State, u = { s with mgmt := u.mgmt, pins := u.pins } ∧
        u.mgmt = { s.mgmt with inColdReset := true, brownout := [], warn := false } ∧ exec (.coldReset true) s = .next (u.coldReset (some 0)) :=
      ⟨{ s with
          mgmt := { s.mgmt with inColdReset := true, brownout := [], warn := false }
          pins := { s.pins with refLost := [], ioOff := false } }, rfl, rfl, rfl⟩
    have hcold : u.mgmt.setup = s.mgmt.setup ∧ u.mgmt.minSvn = s.mgmt.minSvn ∧ u.mgmt.cold.inColdReset = true ∧ u.mgmt.cold.brownout = [] ∧
        u.mgmt.cold.copyA = s.mgmt.copyA ∧ u.mgmt.cold.copyB = s.mgmt.copyB := by
      rw [hmgmt]
      exact ⟨rfl, rfl, rfl, rfl, rfl, rfl⟩
    obtain ⟨hsetup, hsvn, hin, hbrown, hA, hB⟩ := hcold
    refine ⟨_, hexec, ?_⟩
    dsimp only
    rw [State.coldReset_mgmt]
    refine ⟨(State.coldReset_from ?_ 0).of_causes hu hsetup hsvn, hin, hbrown, hA, hB⟩
    rw [hu]
    exact h
  case pin =>
    obtain ⟨u, hu, hmgmt, hexec⟩ : ∃ u : State, u = { s with mgmt := u.mgmt, pins := u.pins } ∧ u.mgmt = { s.mgmt with inColdReset := true } ∧
        exec (.coldReset false) s = .next (u.coldReset (some 1)) :=
      ⟨s.setMgmt { s.mgmt with inColdReset := true }, rfl, rfl, congrArg Host.Outcome.next (State.coldCause_of_running (by exact hup) 1)⟩
    have hcold : u.mgmt.setup = s.mgmt.setup ∧ u.mgmt.minSvn = s.mgmt.minSvn ∧ u.mgmt.cold.inColdReset = true ∧
        u.mgmt.cold.copyA = s.mgmt.copyA ∧ u.mgmt.cold.copyB = s.mgmt.copyB := by
      rw [hmgmt]
      exact ⟨rfl, rfl, rfl, rfl, rfl⟩
    obtain ⟨hsetup, hsvn, hin, hA, hB⟩ := hcold
    refine ⟨_, hexec, ?_⟩
    dsimp only
    rw [State.coldReset_mgmt]
    refine ⟨(State.coldReset_from ?_ 1).of_causes hu hsetup hsvn, hin, hA, hB⟩
    rw [hu]
    exact h
  case pinWaits => exact congrArg Host.Outcome.next (if_pos h)
  case notHeld => exact congrArg Host.Outcome.next (if_pos (by rw [h]; rfl))
  case release => exact congrArg Host.Outcome.next (if_neg (by rw [h]; decide))
  case code =>
    have hcode (w : Word) {c : Instr} (hc : c ∈ [Instr.gsResetCold w, .gsResetController w]) := exec_gsReset_of_open hopen w hc
    have hcold : s.gsReset 0xF3FE0C01#32 = s.coldCause 3 := (if_pos (by decide)).trans (if_pos (by decide))
    refine ⟨fun hbad c hc => ⟨s.hostMismatch 0, (hcode v hc).trans (congrArg Host.Outcome.next (if_neg hbad)), ?_, rfl, rfl, fun o ho => ?_⟩,
      fun hgood hc1 hc2 c hc => (hcode v hc).trans (congrArg Host.Outcome.next ((if_pos hgood).trans ((if_neg hc1).trans (if_neg hc2)))),
      fun h hup => ?_, fun hdown => ?_, fun _ => ?_⟩
    · exact s.rg_inc_same _
    · exact s.hostMismatch_rg 0 (List.mem_singleton.not.1 ho)
    · refine ⟨_, hcode _ List.mem_cons_self, ?_⟩
      dsimp only
      rw [hcold, State.coldCause_of_running hup]
      exact State.coldReset_from h 3
    · rw [hcode _ List.mem_cons_self, hcold]
      exact congrArg Host.Outcome.next (if_pos hdown)
    · rw [hcode _ (List.mem_cons_of_mem _ List.mem_cons_self)]
      exact congrArg Host.Outcome.next ((if_pos (by decide)).trans ((if_neg (by decide)).trans (if_pos (by decide))))
  case controller =>
    refine ⟨rfl, fun h => congrArg Host.Outcome.next (if_pos h), fun h => ?_, fun h => congrArg Host.Outcome.next (if_neg (by rw [h]; decide)),
      fun h hhub => ?_, fun h => congrArg Host.Outcome.next (if_pos ?_), fun hcold hdown hstage => ?_⟩
    · have hexec : exec .controllerReset s = .next (((s.setMgmt { s.mgmt with controllerReset := true }).inc Reg.MG_RESETS).fanDriven 100) :=
        congrArg Host.Outcome.next (State.controllerResetNow_of_running h)
      refine ⟨_, hexec, rfl, ?_, rfl, State.fanDriven_fd _ (by decide), State.fanDriven_inc_sameArray s _ Reg.MG_RESETS 100, fun o ho => ?_⟩
      · rw [State.fanDriven_rg _ _ (by decide), State.rg_inc_same]
        rfl
      · simp only [List.mem_cons, List.not_mem_nil, or_false, not_or] at ho
        exact (State.fanDriven_rg _ _ ho.2).trans ((State.rg_inc_of_ne _ ho.1).trans rfl)
    · obtain ⟨u, hu, hmgmt, hregs, hpins⟩ : ∃ u, u = (s.setMgmt { s.mgmt with controllerReset := false }).drivePins ∧
          u.mgmt = { s.mgmt with controllerReset := false } ∧ u.regs = s.regs ∧
          u.pins.alertN = decide ((s.rg Reg.MG_ALERT &&& s.rg Reg.MG_ALERT_EN) ≠ 0#32) := by
        refine ⟨_, rfl, by rw [State.drivePins_frame]; rfl, by rw [State.drivePins_frame]; rfl, ?_⟩
        unfold State.drivePins
        rw [if_neg (by exact Bool.false_ne_true)]
        change (s.mgmt.hubDead || decide ((s.rg Reg.MG_ALERT &&& s.rg Reg.MG_ALERT_EN) ≠ 0#32)) = _
        rw [hhub, Bool.false_or]
      have hframe : SameArray s u := by
        rw [hu, State.drivePins_frame]
        exact ⟨rfl, rfl⟩
      have hexec : exec .controllerResetDone s = .next (u.fanDriven u.fanDuty) := by
        refine congrArg Host.Outcome.next ((if_pos h).trans ?_)
        rw [← hu, State.driveFan_eq, hmgmt]
        exact congrArg u.fanDriven (if_neg (by simp [hhub]))
      refine ⟨_, hexec, hmgmt, (u.fanDriven_fanDuty _).symm, hpins, hframe.trans ⟨rfl, rfl⟩, fun o ho => ?_⟩
      exact (u.fanDriven_rg _ (List.mem_singleton.not.1 ho)).trans (congrArg (tget (regReset o) · o) hregs)
    · rcases h with h | h | h <;> simp [h]
    · have hexec : exec .hubWatchdog s = .next { (((s.setMgmt { s.mgmt with hubDead := true }).setF Reg.GS_RESET_CAUSE_HUB_DEAD 1).fanDriven 100) with
          pins := { (((s.setMgmt { s.mgmt with hubDead := true }).setF Reg.GS_RESET_CAUSE_HUB_DEAD 1).fanDriven 100).pins with alertN := true } } := by
        exact congrArg Host.Outcome.next ((if_neg (by simp [hcold, hdown, hstage])).trans
          (congrArg (fun x : State => { x with pins := { x.pins with alertN := true } }) (State.driveFan_of_off (Bool.or_true _))))
      refine ⟨_, hexec, rfl, ?_, rfl, rfl, ⟨rfl, rfl⟩, fun o ho => ?_⟩
      · refine (State.on_congr (s := (s.setMgmt { s.mgmt with hubDead := true }).setF Reg.GS_RESET_CAUSE_HUB_DEAD 1) ?_).trans
          (State.on_setF_one _ rfl (by decide))
        exact State.fanDriven_rg _ 100 (by decide)
      · simp only [List.mem_cons, List.not_mem_nil, or_false, not_or] at ho
        exact (State.fanDriven_rg _ 100 ho.2).trans ((State.rg_setF_of_ne _ (x := Reg.GS_RESET_CAUSE_HUB_DEAD) ho.1 1).trans rfl)
  case rails =>
    have hgo : ¬ s.mgmt.inColdReset = true := by rw [hin]; decide
    have hlost (u : State) (hu : u = { s with pins := u.pins }) (h : s.noneDeleting) : ColdFrom s (u.brownoutReset .refclk) 4 ∧
        (u.brownoutReset .refclk).mgmt.brownout.contains .refclk = true := by
      have hnone : u.noneDeleting := by
        rw [hu]
        exact h
      have hmgmt : u.mgmt = s.mgmt := by rw [hu]
      obtain ⟨hcold, hbrown⟩ := State.brownoutReset_spec hnone .refclk
      exact ⟨hcold.of_causes (by rw [hmgmt]; exact hu) (by rw [hmgmt]) (by rw [hmgmt]), hbrown⟩
    refine ⟨fun h => ⟨_, congrArg Host.Outcome.next (if_neg hgo), State.brownoutReset_spec h .aon⟩,
      fun h => ⟨_, congrArg Host.Outcome.next (if_neg hgo), State.brownoutReset_spec h .hub⟩,
      fun h => ⟨_, congrArg Host.Outcome.next (if_neg hgo), hlost _ rfl h⟩, fun d => congrArg Host.Outcome.next (if_neg hgo), fun r hr hup => ?_⟩
    have hfails : exec (.railFault r) s = .next (({ s with pins := { s.pins with ioOff := s.pins.ioOff || decide (r = .io) } } : State).packageFailed 6
        (hubStop 9) 0) := by
      refine congrArg Host.Outcome.next ((if_neg hgo).trans ?_)
      have hkeep (hne : r ≠ .io) : ({ s with pins := { s.pins with ioOff := s.pins.ioOff || decide (r = .io) } } : State) = s := by
        rw [decide_eq_false hne, Bool.or_false]
      simp only [List.mem_cons, List.not_mem_nil, or_false] at hr
      rcases hr with rfl | rfl | rfl | rfl | rfl | rfl
      · rw [decide_eq_true rfl, Bool.or_true]
      all_goals exact congrArg (State.packageFailed · 6 (hubStop 9) 0) (hkeep (by decide)).symm
    obtain ⟨hon, hcause, hstep, hoff⟩ := State.packageFailed_spec (s := { s with pins := { s.pins with ioOff := s.pins.ioOff || decide (r = .io) } }) hup
      (cause := 6) (by decide) (hubStop 9) 0
    exact ⟨_, hfails, hon, hcause, hstep, hoff⟩
  case brownoutEnd =>
    cases c with
    | aon => exact ⟨_, rfl, rfl, rfl, rfl, rfl⟩
    | hub => exact ⟨_, rfl, rfl, rfl, rfl, rfl⟩
    | refclk => exact ⟨_, rfl, rfl, rfl, rfl, rfl⟩
  case clocks =>
    have hlost (c : RefClk) : (if s.pins.refLost.contains c then s.pins.refLost else s.pins.refLost ++ [c]).contains c = true := by
      split
      · assumption
      · simp
    refine ⟨?_, fun d => ?_, ?_⟩
    · obtain ⟨hdown, -, hpins⟩ := State.ethDowns_spec (List.range 16) (s.clockOut .eth) fun k hk => List.mem_range.1 hk
      refine ⟨_, s.exec_refclkLoss_eth, (congrArg (List.contains · RefClk.eth) hpins).trans (hlost .eth), fun p b hp hb => ?_⟩
      have hlink := hdown (4 * p + b) (List.mem_range.2 (by omega))
      rwa [show (4 * p + b) / 4 = p by omega, show (4 * p + b) % 4 = b by omega] at hlink
    · have hbound : ∀ k ∈ List.range 4, 4 * d.val + k < 16 := fun k hk => by
        have := List.mem_range.1 hk
        omega
      obtain ⟨hown, -⟩ := State.clocksLost (List.range 4) (s.clockOut (.flarid d)) d.val hbound List.nodup_range
      exact ⟨_, s.exec_refclkLoss_flarid d, fun k hk => hown k (List.mem_range.2 hk)⟩
    · refine ⟨_, rfl, ?_, hlost .pcie, ⟨rfl, rfl⟩, fun o ho => ?_⟩
      · exact (State.rg_wrg ..).trans (if_pos rfl)
      · exact State.rg_wrg_of_ne _ (List.mem_singleton.not.1 ho) 0
  case hostHeld => exact congrArg Host.Outcome.next (if_pos h)
  case hostDown =>
    refine ⟨_, congrArg Host.Outcome.next ((if_neg (by rw [hcold]; decide)).trans (if_pos (by rw [hready]; rfl))), ?_, rfl, ⟨rfl, rfl⟩, fun o ho => ?_⟩
    · exact (State.rg_wrg ..).trans (if_pos rfl)
    · exact State.rg_wrg_of_ne _ (List.mem_singleton.not.1 ho) 0
  case hostReset =>
    obtain ⟨hlink, hall, -⟩ := State.instResets_status (List.range 64) ((s.setMgmt { s.mgmt with perst := true }).hostLinkDown) fun i hi => List.mem_range.1 hi
    refine ⟨_, congrArg Host.Outcome.next ((if_neg (by rw [hcold]; decide)).trans (if_neg (by rw [hready]; decide))), hlink.trans ?_,
      fun i hi => hall i (List.mem_range.2 hi)⟩
    exact (State.rg_wrg ..).trans (if_pos rfl)
  case perst =>
    intro held
    refine ⟨fun h => congrArg Host.Outcome.next (if_pos h), fun h => ?_⟩
    have hgo : ¬ held = true := by rw [h]; decide
    refine ⟨_, congrArg Host.Outcome.next (if_neg hgo), State.on_setF_one _ rfl (by decide), ?_, ?_, ?_, rfl, ⟨rfl, rfl⟩, fun o ho => ?_⟩
    · rw [State.fd_setF_apart _ (x := Reg.HL_STATUS_UP) (y := Reg.HL_STATUS_RATE) rfl (by decide) (by decide) (by decide),
        State.fd_setF_apart _ (x := Reg.HL_STATUS_WIDTH) (y := Reg.HL_STATUS_RATE) rfl (by decide) (by decide) (by decide),
        State.fd_setF_apart _ (x := Reg.HL_STATUS_FLIT) (y := Reg.HL_STATUS_RATE) rfl (by decide) (by decide) (by decide)]
      exact (State.fd_setF_same _ (x := Reg.HL_STATUS_RATE) (by decide) (by decide) _).trans (Nat.mod_eq_of_lt rate.isLt)
    · rw [State.on_setF_apart _ (x := Reg.HL_STATUS_UP) (y := Reg.HL_STATUS_FLIT) rfl (by decide) (by decide) (by decide),
        State.on_setF_apart _ (x := Reg.HL_STATUS_WIDTH) (y := Reg.HL_STATUS_FLIT) rfl (by decide) (by decide) (by decide)]
      exact State.on_setF_bit _ rfl (by decide) flit
    · rw [State.fd_setF_apart _ (x := Reg.HL_STATUS_UP) (y := Reg.HL_STATUS_WIDTH) rfl (by decide) (by decide) (by decide)]
      exact (State.fd_setF_same _ (x := Reg.HL_STATUS_WIDTH) (by decide) (by decide) _).trans (Nat.mod_eq_of_lt width.isLt)
    · have hne := List.mem_singleton.not.1 ho
      rw [State.rg_setF_of_ne _ (x := Reg.HL_STATUS_UP) hne, State.rg_setF_of_ne _ (x := Reg.HL_STATUS_WIDTH) hne,
        State.rg_setF_of_ne _ (x := Reg.HL_STATUS_FLIT) hne, State.rg_setF_of_ne _ (x := Reg.HL_STATUS_RATE) hne]
      rfl

end Sys2Proof.Machine

/-! ## Deadlock windows (R88, R90, R317, R323) -/

namespace Sys2Proof.Machine

/-! ### The event that a deadlock is suspected -/

/-- The registers of the wait graph. -/
def GraphReg (o : Nat) : Prop := 0x32000 ≤ o ∧ o < 0x34000

theorem Reports.each {α : Type} {W : Nat → Prop} (l : List α) (s : State) {f : State → α → State} (hf : ∀ u, ∀ x ∈ l, Reports W u (f u x)) :
    Reports W s (s.each l f) := by
  induction l generalizing s with
  | nil => exact .refl s
  | cons x l ih => exact (hf s x List.mem_cons_self).trans (ih (f s x) fun u y hy => hf u y (List.mem_cons_of_mem x hy))

/-- An event advances the head of the ring. -/
theorem State.post_head (s : State) (cls unit stop action detail : Nat) (owner : Option (Nat × Nat)) (lc : Option Nat) :
    (s.post cls unit stop action detail owner lc).rg Reg.FH_EVT_HEAD = s.rg Reg.FH_EVT_HEAD + 1 := by
  unfold State.post
  dsimp only
  generalize (s.rg Reg.FH_EVT_HEAD).toNat % 256 = e
  have hword (off : Nat) (h : 0x36000 ≤ off) : Reg.FH_EVT_HEAD ≠ off := by
    simp only [Reg.FH_EVT_HEAD]
    omega
  rw [State.alert_rg _ 4 (by decide), State.irq_rg _ 2 (by decide), State.rg_inc_same,
    State.rg_wrg_of_ne _ (hword _ (by simp only [Reg.EVT_LC]; omega)), State.rg_wrg_of_ne _ (hword _ (by simp only [Reg.EVT_SEQ]; omega)),
    State.rg_wrg_of_ne _ (hword _ (by simp only [Reg.EVT_ANGLE]; omega)), State.rg_wrg_of_ne _ (hword _ (by simp only [Reg.EVT_TURN]; omega)),
    State.rg_wrg_of_ne _ (hword _ (by simp only [Reg.EVT_OWNER]; omega)), State.rg_wrg_of_ne _ (hword _ (by simp only [Reg.EVT_ACTION]; omega)),
    State.rg_wrg_of_ne _ (hword _ (by simp only [Reg.EVT_CAUSE]; omega))]

/-- The wait graph is taken into its registers. -/
theorem State.waitGraph_reports (s : State) (g : Nat) : Reports GraphReg s (s.waitGraph g) := by
  have hword {u t : State} (h : Reports GraphReg u t) {e off : Nat} (he : e < 256) (hlo : 0x33000 + 0x10 * e ≤ off) (hhi : off < 0x33010 + 0x10 * e)
      (v : Word) : Reports GraphReg u (t.wrg off v) := h.wrg (by unfold GraphReg; omega) v
  have hedge (u : State) {e : Nat} (he : e < 256) (a b c d : Word) :
      Reports GraphReg u ((((u.wrg (Reg.WG_FROM e) a).wrg (Reg.WG_TO e) b).wrg (Reg.WG_TARGET e) c).wrg (Reg.WG_VALUE e) d) :=
    hword (hword (hword (hword (.refl u) he (by simp only [Reg.WG_FROM]; omega) (by simp only [Reg.WG_FROM]; omega) a) he
      (by simp only [Reg.WG_TO]; omega) (by simp only [Reg.WG_TO]; omega) b) he (by simp only [Reg.WG_TARGET]; omega)
      (by simp only [Reg.WG_TARGET]; omega) c) he (by simp only [Reg.WG_VALUE]; omega) (by simp only [Reg.WG_VALUE]; omega) d
  have hstatus {u : State} (h : Reports GraphReg s u) (x : Fld) (hx : GraphReg x.off) (k : Nat) : Reports GraphReg s (u.setF x k) := h.setF hx k
  unfold State.waitGraph
  refine Reports.ite (.refl s) ?_
  dsimp only
  generalize (List.dedup (α := (Nat × Nat × Word × Word)) (_ ++ _)) = es
  have hedges := Reports.each (W := GraphReg) (es.take 256).zipIdx s (f := fun u e => ((((u.wrg (Reg.WG_FROM e.2) (BitVec.ofNat 32 e.1.1)).wrg
    (Reg.WG_TO e.2) (BitVec.ofNat 32 e.1.2.1)).wrg (Reg.WG_TARGET e.2) e.1.2.2.1).wrg (Reg.WG_VALUE e.2) e.1.2.2.2)) fun u e he => hedge u
      (by have hlt := List.snd_lt_of_mem_zipIdx he; rw [List.length_take] at hlt; omega) _ _ _ _
  generalize s.each _ _ = t at hedges ⊢
  have hrest := hedges.trans (Reports.each ((List.range 256).drop es.length) t (f := fun u e => ((((u.wrg (Reg.WG_FROM e) 0).wrg
    (Reg.WG_TO e) 0).wrg (Reg.WG_TARGET e) 0).wrg (Reg.WG_VALUE e) 0)) fun u e he => hedge u (List.mem_range.1 (List.mem_of_mem_drop he)) _ _ _ _)
  generalize t.each _ _ = u at hrest ⊢
  have hshown := hstatus (hstatus (hstatus (hstatus hrest Reg.WG_STATUS_TRUNC ⟨by decide, by decide⟩ (b2n (decide (256 < es.length))))
    Reg.WG_STATUS_REGION ⟨by decide, by decide⟩ g) Reg.WG_STATUS_EDGES ⟨by decide, by decide⟩ (min es.length 256)) Reg.WG_STATUS_VALID
    ⟨by decide, by decide⟩ 1
  split
  · exact hstatus (hstatus hshown Reg.WG_SOURCE_SECTION ⟨by decide, by decide⟩ _) Reg.WG_SOURCE_INSTANCE ⟨by decide, by decide⟩ _
  · exact hshown

theorem State.waitGraph_valid (s : State) (g : Nat) : (s.waitGraph g).on Reg.WG_STATUS_VALID = true := by
  have hset (u : State) : (u.setF Reg.WG_STATUS_VALID 1).on Reg.WG_STATUS_VALID = true := u.on_setF_one rfl (by decide)
  unfold State.waitGraph
  split
  · assumption
  · dsimp only
    split
    · rw [State.on_setF_of_ne _ (x := Reg.WG_SOURCE_INSTANCE) (y := Reg.WG_STATUS_VALID) (by decide),
        State.on_setF_of_ne _ (x := Reg.WG_SOURCE_SECTION) (y := Reg.WG_STATUS_VALID) (by decide)]
      exact hset _
    · exact hset _

theorem GraphReg.not_event {o : Nat} (h : GraphReg o) : ¬ EventReg o := by
  obtain ⟨hlo, hhi⟩ := h
  simp only [EventReg, Reg.FH_EVT_HEAD, Reg.IRQ_STATUS, Reg.MG_ALERT, Reg.FH_CPL_MISMATCH]
  omega

theorem State.clusterEvent_reports (s : State) (n cls unit action detail : Nat) :
    Reports (fun o => EventReg o ∨ ∃ i, o = Reg.INST_EVENTS i) s (s.clusterEvent n cls unit action detail) := by
  have hposted := (s.post_reports cls unit (clusterStop n) action detail (s.net.step.map fun x => (x.inst, x.sect)) (s.lcsOf n).head?).mono
    (W := fun o => EventReg o ∨ ∃ i, o = Reg.INST_EVENTS i) fun _ h => .inl h
  unfold State.clusterEvent
  dsimp only
  split
  · exact hposted.instEvent (.inr ⟨_, rfl⟩) _
  · exact hposted

theorem State.clusterEvent_head (s : State) (n cls unit action detail : Nat) :
    (s.clusterEvent n cls unit action detail).rg Reg.FH_EVT_HEAD = s.rg Reg.FH_EVT_HEAD + 1 := by
  unfold State.clusterEvent
  dsimp only
  split
  · exact (State.instEvent_rg _ _ _ (by simp only [Reg.FH_EVT_HEAD, Reg.INST_EVENTS]; omega)).trans (s.post_head ..)
  · exact s.post_head ..

/-- A region with a wait has its deadlock suspected. -/
theorem State.suspectDeadlock_spec {s : State} {g : Nat} (hwaits : s.regionWaits g ≠ []) : (s.suspectDeadlock g).net = s.net ∧
    (s.suspectDeadlock g).on Reg.WG_STATUS_VALID = true ∧ SameArray s (s.suspectDeadlock g) ∧
    (s.suspectDeadlock g).rg Reg.FH_EVT_HEAD = s.rg Reg.FH_EVT_HEAD + 1 := by
  obtain ⟨e, l, hl⟩ := List.exists_cons_of_ne_nil hwaits
  have hraise : s.suspectDeadlock g = (s.waitGraph g).clusterEvent e.1 7 0 0 0 := by
    unfold State.suspectDeadlock
    rw [hl]
    rfl
  have hgraph := s.waitGraph_reports g
  have hvalid := s.waitGraph_valid g
  rw [hraise]
  generalize s.waitGraph g = u at hgraph hvalid ⊢
  have hevent := u.clusterEvent_reports e.1 7 0 0 0
  refine ⟨hevent.net.trans hgraph.net, (State.on_congr (hevent.regs _ ?_)).trans hvalid, hgraph.sameArray.trans hevent.sameArray,
    (u.clusterEvent_head ..).trans (congrArg (· + 1) (hgraph.regs _ ?_))⟩
  · rintro (h | ⟨i, h⟩)
    · exact GraphReg.not_event ⟨by decide, by decide⟩ h
    · simp only [Reg.WG_STATUS_VALID, Reg.WG_STATUS, Reg.INST_EVENTS] at h
      omega
  · exact fun h => absurd h.1 (by decide)

/-! ### Tiles that spill -/

theorem State.wrBytes_clusters (s : State) (a : Nat) (bs : List Byte) : (s.wrBytes a bs).clusters = s.clusters := by
  induction bs generalizing s a with
  | nil => rfl
  | cons b bs ih => exact (ih (s.wrB a b) (a + 1)).trans (by rw [State.wrB_eq])

/-- Each tile that moves to the spill area counts; other clusters stay. -/
theorem State.spillTiles_spec (n k ep : Nat) (ts : List Tile) (as : List Nat) (s : State) (h : ts.length ≤ as.length) :
    (s.spillTiles n k ep ts as).net = s.net ∧
      (s.spillTiles n k ep ts as).rg (Reg.CH_SPILLS n) = s.rg (Reg.CH_SPILLS n) + BitVec.ofNat 32 ts.length ∧
      RegsBut s (s.spillTiles n k ep ts as) [Reg.CH_SPILLS n] ∧ ∀ m, m ≠ n → (s.spillTiles n k ep ts as).cl m = s.cl m := by
  induction ts generalizing s as with
  | nil => exact ⟨rfl, (BitVec.add_zero _).symm, fun _ _ => rfl, fun _ _ => rfl⟩
  | cons t ts ih =>
    obtain ⟨a, as, rfl⟩ := List.exists_cons_of_length_pos (Nat.lt_of_lt_of_le (Nat.succ_pos _) h)
    unfold State.spillTiles
    dsimp only
    generalize (if t.held.isEmpty then _ else t.bytes) = data
    have hmoved (f : ClusterSt → ClusterSt) : ((s.wrBytes a data).upCl n f).net = s.net ∧ ((s.wrBytes a data).upCl n f).regs = s.regs ∧
        ∀ m, m ≠ n → ((s.wrBytes a data).upCl n f).cl m = s.cl m :=
      ⟨s.wrBytes_net a data, s.wrBytes_regs a data, fun m hm => by rw [State.cl_upCl, if_neg hm, State.cl, State.cl, s.wrBytes_clusters a data]⟩
    obtain ⟨hnet, hregs, hcl⟩ := hmoved fun c => c.setRecv (epKey k ep) { (s.cl n).recvEp (epKey k ep) with
      tiles := ((s.cl n).recvEp (epKey k ep)).tiles.map fun y => if y.seq == t.seq then { y with spilledAt := some a, held := [] } else y }
    generalize (s.wrBytes a data).upCl n _ = u at hnet hregs hcl ⊢
    have hrg (o : Nat) : u.rg o = s.rg o := congrArg (tget (regReset o) · o) hregs
    generalize u.creditTo _ ep = dst
    obtain ⟨hnet', hcount, hrest, hcl'⟩ := ih as ((u.emit (.credit dst.1 dst.2 (k % 4))).inc (Reg.CH_SPILLS n)) (Nat.le_of_succ_le_succ h)
    refine ⟨hnet'.trans ((u.emit_net _).trans hnet), hcount.trans ?_, fun o ho => (hrest o ho).trans ?_, fun m hm => (hcl' m hm).trans ?_⟩
    · rw [State.rg_inc_same, State.emit_rg, hrg, BitVec.add_assoc, List.length_cons, Nat.add_comm ts.length, BitVec.ofNat_add]
      rfl
    · rw [State.rg_inc_of_ne _ (List.mem_singleton.not.1 ho), State.emit_rg, hrg]
    · exact (State.emit_cl ..).trans (hcl m hm)

/-! ### The window's end -/

/-- The window of region g counts as expired. -/
def State.windowOut (s : State) (g : Nat) : State := { s with net := { s.net with expired := g :: s.net.expired.filter (· ≠ g) } }

/-- What follows the window of a blocked region in step x: the spill of its candidate, or the suspicion of a deadlock. -/
def State.afterWindow (s : State) (x : StepSt) (g : Nat) : State :=
  let t := s.windowOut g
  let raise (u : State) : State := if (s.regionWaits g).all fun e => u.excused e.1 e.2 then u else u.suspectDeadlock g
  match t.spillCandidate g with
  | none => raise t
  | some (n, p, ep, c) =>
    let k := 4 * p + c
    let r := (t.cl n).recvEp (epKey k ep)
    let tiles := r.tiles.filter fun y => y.spilledAt.isNone
    let move := if ((t.cl n).plane p).bpc ep = 1 then tiles else tiles.drop 1
    let places := t.spillFree x.slot (t.sectOf n)
    if places.length < move.length then raise t
    else
      let id := 1024 * n + epKey k ep
      let again := tget 0 (t.net.lastSpill.map fun e => (e.1, e.2 + 1)) g == id + 1
      let u := t.spillTiles n k ep move places
      let u := { u with net := { u.net with expired := u.net.expired.filter (· ≠ g), lastSpill := tput u.net.lastSpill g id } }
      if again then u.suspectDeadlock g else u

theorem State.exec_deadlockWindowExpire (s : State) (g : Fin 32) : exec (.deadlockWindowExpire g) s = .next (match s.net.step with
    | none => s
    | some x => if ! s.regionBlocked g || (s.regionWaits g).isEmpty || (s.regionWaits g).all fun e => s.atGate e.1 e.2 then s
      else s.afterWindow x g) := rfl

theorem State.afterWindow_of_none {s : State} {x : StepSt} {g : Nat} (hnone : (s.windowOut g).spillCandidate g = none) : s.afterWindow x g =
    if (s.regionWaits g).all fun e => (s.windowOut g).excused e.1 e.2 then s.windowOut g else (s.windowOut g).suspectDeadlock g := by
  unfold State.afterWindow
  dsimp only
  rw [hnone]

/-- The tiles of an endpoint that a spill moves: those that lie in its buffers, without the first where it has two. -/
def State.spillMove (s : State) (n p ep c : Nat) : List Tile :=
  let tiles := ((s.cl n).recvEp (epKey (4 * p + c) ep)).tiles.filter fun y => y.spilledAt.isNone
  if ((s.cl n).plane p).bpc ep = 1 then tiles else tiles.drop 1

theorem State.afterWindow_of_room {s : State} {x : StepSt} {g n p ep c : Nat} (hcand : (s.windowOut g).spillCandidate g = some (n, p, ep, c))
    (hroom : (s.spillMove n p ep c).length ≤ ((s.windowOut g).spillFree x.slot ((s.windowOut g).sectOf n)).length)
    (hfirst : tget 0 (s.net.lastSpill.map fun e => (e.1, e.2 + 1)) g ≠ 1024 * n + epKey (4 * p + c) ep + 1) :
    ∃ u places last, (s.spillMove n p ep c).length ≤ places.length ∧
      u = (s.windowOut g).spillTiles n (4 * p + c) ep (s.spillMove n p ep c) places ∧
      s.afterWindow x g = { u with net := { u.net with expired := u.net.expired.filter (· ≠ g), lastSpill := last } } := by
  let u := (s.windowOut g).spillTiles n (4 * p + c) ep (s.spillMove n p ep c) ((s.windowOut g).spillFree x.slot ((s.windowOut g).sectOf n))
  refine ⟨u, _, tput u.net.lastSpill g (1024 * n + epKey (4 * p + c) ep), hroom, rfl, ?_⟩
  unfold State.afterWindow
  dsimp only
  rw [hcand]
  exact (if_neg (Nat.not_lt.2 hroom)).trans (if_neg (by rw [beq_iff_eq]; exact hfirst))

theorem exec_deadlockWindowExpire_of_unblocked {s : State} {g : Fin 32} (h : s.net.step = none ∨ s.regionBlocked g = false ∨
    (s.regionWaits g).all (fun e => s.atGate e.1 e.2) = true) : exec (.deadlockWindowExpire g) s = .next s := by
  rw [State.exec_deadlockWindowExpire]
  split
  · rfl
  · next x hstep =>
    refine congrArg Host.Outcome.next (if_pos ?_)
    rcases h with h | h | h
    · exact absurd (h.symm.trans hstep) nofun
    · rw [h]
      rfl
    · rw [h, Bool.or_true]

theorem exec_deadlockWindowExpire_of_blocked {s : State} {g : Fin 32} {x : StepSt} (hstep : s.net.step = some x) (hblocked : s.regionBlocked g = true)
    (hgate : (s.regionWaits g).all (fun e => s.atGate e.1 e.2) = false) : exec (.deadlockWindowExpire g) s = .next (s.afterWindow x g) := by
  have hempty : (s.regionWaits g).isEmpty = false := by
    cases h : s.regionWaits g with
    | nil =>
      rw [h] at hgate
      exact nomatch hgate
    | cons e l => rfl
  rw [State.exec_deadlockWindowExpire, hstep]
  exact congrArg Host.Outcome.next (if_neg (by rw [hblocked, hempty, hgate]; decide))

/-- The window that counts as expired stays so where a deadlock is suspected. -/
theorem State.windowOut_suspect {s : State} {g : Nat} (hwaits : s.regionWaits g ≠ []) :
    ((s.windowOut g).suspectDeadlock g).net.expired.contains g = true ∧ ((s.windowOut g).suspectDeadlock g).on Reg.WG_STATUS_VALID = true ∧
      SameArray s ((s.windowOut g).suspectDeadlock g) ∧ ((s.windowOut g).suspectDeadlock g).rg Reg.FH_EVT_HEAD = s.rg Reg.FH_EVT_HEAD + 1 := by
  obtain ⟨hnet, hvalid, harray, hhead⟩ := State.suspectDeadlock_spec (s := s.windowOut g) (g := g) hwaits
  have hout : (s.windowOut g).net.expired.contains g = true := by simp [State.windowOut]
  exact ⟨(congrArg (fun x : NetSt => x.expired.contains g) hnet).trans hout, hvalid, harray, hhead⟩

/-- A spill ends the window and is counted at its cluster. -/
theorem State.spilled_spec {s u : State} {g n p ep c : Nat} {places : List Nat} (hroom : (s.spillMove n p ep c).length ≤ places.length)
    (hu : u = (s.windowOut g).spillTiles n (4 * p + c) ep (s.spillMove n p ep c) places) :
    (u.net.expired.filter (· ≠ g)).contains g = false ∧ u.net.step = s.net.step ∧
      u.rg (Reg.CH_SPILLS n) = s.rg (Reg.CH_SPILLS n) + BitVec.ofNat 32 (s.spillMove n p ep c).length ∧ RegsBut s u [Reg.CH_SPILLS n] ∧
      ∀ m, m ≠ n → u.cl m = s.cl m := by
  obtain ⟨hnet, hcount, hregs, hcl⟩ := State.spillTiles_spec n (4 * p + c) ep (s.spillMove n p ep c) places (s.windowOut g) hroom
  rw [← hu] at hnet hcount hregs hcl
  exact ⟨by simp, (congrArg NetSt.step hnet :), hcount, hregs, hcl⟩

/-- The end of a deadlock window in a blocked region. -/
theorem deadlockWindows (s : State) (g : Fin 32) (y : StepSt) (hstep : s.net.step = some y) (hblocked : s.regionBlocked g = true)
    (hgate : (s.regionWaits g).all (fun e => s.atGate e.1 e.2) = false) :
    ((s.windowOut g).spillCandidate g = none → (s.regionWaits g).all (fun e => (s.windowOut g).excused e.1 e.2) = false →
      After (.deadlockWindowExpire g) s fun t => t.net.expired.contains g.val = true ∧ t.on Reg.WG_STATUS_VALID = true ∧ SameArray s t ∧
        t.rg Reg.FH_EVT_HEAD = s.rg Reg.FH_EVT_HEAD + 1) ∧
    ((s.windowOut g).spillCandidate g = none → (s.regionWaits g).all (fun e => (s.windowOut g).excused e.1 e.2) = true →
      exec (.deadlockWindowExpire g) s = .next (s.windowOut g)) ∧
    ∀ n p ep c, (s.windowOut g).spillCandidate g = some (n, p, ep, c) →
      (s.spillMove n p ep c).length ≤ ((s.windowOut g).spillFree y.slot ((s.windowOut g).sectOf n)).length →
      tget 0 (s.net.lastSpill.map fun e => (e.1, e.2 + 1)) g ≠ 1024 * n + epKey (4 * p + c) ep + 1 →
      After (.deadlockWindowExpire g) s fun t => t.net.expired.contains g.val = false ∧ t.net.step = s.net.step ∧
        t.rg (Reg.CH_SPILLS n) = s.rg (Reg.CH_SPILLS n) + BitVec.ofNat 32 (s.spillMove n p ep c).length ∧ RegsBut s t [Reg.CH_SPILLS n] ∧
        ∀ m, m ≠ n → t.cl m = s.cl m := by
  have hexec := exec_deadlockWindowExpire_of_blocked hstep hblocked hgate
  have hwaits : s.regionWaits g ≠ [] := fun h => by
    rw [h] at hgate
    exact nomatch hgate
  refine ⟨fun hnone hraise => ?_, fun hnone hexcused => ?_, fun n p ep c hcand hroom hfirst => ?_⟩
  · refine ⟨_, hexec.trans (congrArg Host.Outcome.next ((State.afterWindow_of_none hnone).trans (if_neg (by rw [hraise]; decide)))), ?_⟩
    exact State.windowOut_suspect hwaits
  · exact hexec.trans (congrArg Host.Outcome.next ((State.afterWindow_of_none hnone).trans (if_pos hexcused)))
  · obtain ⟨u, places, last, hfits, hu, hafter⟩ := State.afterWindow_of_room hcand hroom hfirst
    exact ⟨_, hexec.trans (congrArg Host.Outcome.next hafter), State.spilled_spec hfits hu⟩

end Sys2Proof.Machine

/-! ## Incidents and their repairs (R544 to R556) -/

namespace Sys2Proof.Machine

/-! ### What the repair of the map keeps -/

/-- The registers of the incidents and of the maps. -/
def MapReg (o : Nat) : Prop := o = Reg.FH_INCIDENTS ∨ (0x34000 ≤ o ∧ o < 0x36000)

theorem MapReg.not_runReg {o : Nat} (h : MapReg o) : ¬ RunReg o := by
  unfold MapReg at h
  simp only [RunReg, List.mem_cons, List.not_mem_nil, or_false, Reg.FH_CPL_MISMATCH, Reg.DRAM_LOST, Reg.DRAM_LOST_ADDR_LO, Reg.DRAM_LOST_ADDR_HI,
    Reg.FH_EVT_HEAD, Reg.MG_ALERT, Reg.IRQ_STATUS, Reg.SES_REFUSED, Reg.GRP_DELIVERED, Reg.GRP_DOWN_DROPPED, Reg.DL_UNCHECKED, Reg.DL_ABANDONS,
    Reg.FH_INCIDENTS] at h ⊢
  rintro (h | h | ⟨i, k, hk, h⟩) <;> omega

theorem MapReg.not_event {o : Nat} (h : MapReg o) : ¬ EventReg o := by
  unfold MapReg at h
  simp only [EventReg, Reg.FH_EVT_HEAD, Reg.IRQ_STATUS, Reg.MG_ALERT, Reg.FH_CPL_MISMATCH, Reg.FH_INCIDENTS] at h ⊢
  omega

/-- The collectors, the fences, the count of incidents and the working positions are as before. -/
structure KeepsWorking (s t : State) : Prop where
  collectors : t.repair.collectors = s.repair.collectors
  fenced : t.repair.fenced = s.repair.fenced
  incidents : t.rg Reg.FH_INCIDENTS = s.rg Reg.FH_INCIDENTS
  working : ∀ g < 32, t.fd (Reg.RM_STATUS_WORKING g) = s.fd (Reg.RM_STATUS_WORKING g)

section
variable {s t u : State}

theorem KeepsWorking.refl (s : State) : KeepsWorking s s := ⟨rfl, rfl, rfl, fun _ _ => rfl⟩
theorem KeepsWorking.trans (h : KeepsWorking s t) (k : KeepsWorking t u) : KeepsWorking s u :=
  ⟨k.collectors.trans h.collectors, k.fenced.trans h.fenced, k.incidents.trans h.incidents, fun g hg => (k.working g hg).trans (h.working g hg)⟩
theorem KeepsWorking.ite {p : Prop} [Decidable p] (ht : KeepsWorking s t) (hu : KeepsWorking s u) : KeepsWorking s (if p then t else u) := by
  split
  · exact ht
  · exact hu

theorem KeepsWorking.of_rg (hcollectors : t.repair.collectors = s.repair.collectors) (hfenced : t.repair.fenced = s.repair.fenced)
    (h : ∀ o, MapReg o → t.rg o = s.rg o) : KeepsWorking s t :=
  ⟨hcollectors, hfenced, h _ (.inl rfl), fun g hg => State.fd_congr (h _ (.inr (by simp only [Reg.RM_STATUS_WORKING, Reg.RM_STATUS]; omega)))⟩

theorem KeepsWorking.of_regs (hregs : t.regs = s.regs) (hrepair : t.repair = s.repair) : KeepsWorking s t :=
  .of_rg (congrArg RepairSt.collectors hrepair) (congrArg RepairSt.fenced hrepair) fun o _ => congrArg (tget (regReset o) · o) hregs

theorem KeepsWorking.of_runsEnd (h : RunsEnd s t) : KeepsWorking s t :=
  .of_rg (by rw [h.rest]) (by rw [h.rest]) fun o ho => h.rg o ho.not_runReg

theorem KeepsWorking.of_reports (h : Reports EventReg s t) : KeepsWorking s t :=
  .of_rg (by rw [h.rest]) (by rw [h.rest]) fun o ho => h.regs o ho.not_event

theorem KeepsWorking.each {α : Type} (l : List α) (s : State) {f : State → α → State} (hf : ∀ u, ∀ x ∈ l, KeepsWorking u (f u x)) :
    KeepsWorking s (s.each l f) := by
  induction l generalizing s with
  | nil => exact .refl s
  | cons x l ih => exact (hf s x List.mem_cons_self).trans (ih (f s x) fun u y hy => hf u y (List.mem_cons_of_mem x hy))

theorem KeepsWorking.wrg (s : State) {off : Nat} (hoff : off ≠ Reg.FH_INCIDENTS) (hmap : ∀ g < 32, off ≠ Reg.RM_STATUS g) (v : Word) :
    KeepsWorking s (s.wrg off v) :=
  ⟨rfl, rfl, s.rg_wrg_of_ne hoff.symm v, fun g hg => State.fd_congr (s.rg_wrg_of_ne (hmap g hg).symm v)⟩

theorem KeepsWorking.incN (s : State) {off : Nat} (hoff : off ≠ Reg.FH_INCIDENTS) (hmap : ∀ g < 32, off ≠ Reg.RM_STATUS g) (k : Nat) :
    KeepsWorking s (s.incN off k) := .wrg s hoff hmap _

theorem KeepsWorking.setF (s : State) {x : Fld} (hoff : ¬ MapReg x.off) (k : Nat) : KeepsWorking s (s.setF x k) :=
  .of_rg rfl rfl fun o ho => s.rg_setF_of_ne (by rintro rfl; exact hoff ho) k

/-- The other fields of a region's status leave its working positions. -/
theorem KeepsWorking.setF_status (s : State) {x : Fld} {g : Nat} (hx : x.off = Reg.RM_STATUS g) (hhi : x.hi < 14) (hlo : x.lo ≤ x.hi) (k : Nat) :
    KeepsWorking s (s.setF x k) := by
  refine ⟨rfl, rfl, s.rg_setF_of_ne (by rw [hx]; simp only [Reg.FH_INCIDENTS, Reg.RM_STATUS]; omega) k, fun q _ => ?_⟩
  by_cases h : Reg.RM_STATUS q = Reg.RM_STATUS g
  · exact s.fd_setF_apart (x := x) (y := Reg.RM_STATUS_WORKING q) (h.trans hx.symm) (.inl hhi) hlo (show 14 ≤ 31 by decide) k
  · exact s.fd_setF_of_ne (x := x) (y := Reg.RM_STATUS_WORKING q) (by rw [hx]; exact h) k

end

section
variable (s : State)

theorem State.post_keepsWorking (cls unit stop action detail : Nat) (owner : Option (Nat × Nat)) (lc : Option Nat) :
    KeepsWorking s (s.post cls unit stop action detail owner lc) := .of_reports (s.post_reports ..)

theorem State.mapStatus_keepsWorking (g : Nat) : KeepsWorking s (s.mapStatus g) :=
  ((KeepsWorking.setF_status s (x := Reg.RM_STATUS_FOLDED g) rfl (show 13 < 14 by decide) (show 6 ≤ 13 by decide) _).trans
    (KeepsWorking.setF_status _ (x := Reg.RM_STATUS_SPARES g) rfl (show 4 < 14 by decide) (show 0 ≤ 4 by decide) _)).trans
    (KeepsWorking.setF_status _ (x := Reg.RM_STATUS_EXHAUSTED g) rfl (show 5 < 14 by decide) (Nat.le_refl 5) _)

theorem State.summary_keepsWorking : KeepsWorking s s.summary := by
  have hset (u : State) {x : Fld} (hx : x.off = Reg.FH_SUMMARY) (k : Nat) : KeepsWorking u (u.setF x k) :=
    .setF u (by rw [hx]; unfold MapReg; decide) k
  have hshown (a b c d : Nat) : KeepsWorking s ((((s.setF Reg.FH_SUMMARY_WORKING a).setF Reg.FH_SUMMARY_EXHAUSTED b).setF Reg.FH_SUMMARY_FOLDED c).setF
      Reg.FH_SUMMARY_DEGRADED d) := (((hset s rfl a).trans (hset _ rfl b)).trans (hset _ rfl c)).trans (hset _ rfl d)
  unfold State.summary
  exact KeepsWorking.ite ((hshown ..).trans (.of_runsEnd (State.postOpen_runsEnd ..))) (hshown ..)

theorem State.packageFailed_keepsWorking (cause stop unit : Nat) : KeepsWorking s (s.packageFailed cause stop unit) := by
  have hset (u : State) {x : Fld} (hx : x.off = Reg.FH_SUMMARY) (k : Nat) : KeepsWorking u (u.setF x k) :=
    .setF u (by rw [hx]; unfold MapReg; decide) k
  unfold State.packageFailed
  exact KeepsWorking.ite (.refl s) (((hset s (x := Reg.FH_SUMMARY_FAILED) rfl 1).trans (hset _ (x := Reg.FH_SUMMARY_CAUSE) rfl cause)).trans
    (.of_runsEnd (((State.post_runsEnd ..).trans (State.alert_runsEnd ..)).trans (State.failRuns_runsEnd _))))

theorem State.rewriteMap_keepsWorking {g : Nat} (hg : g < 32) (stop : Nat) : KeepsWorking s (s.rewriteMap g stop).1 := by
  have hentries (f : Nat → Word) : KeepsWorking s (s.each (List.range 16) fun u l => u.wrg (Reg.RM_ENTRY g l) (f l)) :=
    .each _ s fun u l hl => by
      have := List.mem_range.1 hl
      exact .wrg u (by simp only [Reg.RM_ENTRY, Reg.FH_INCIDENTS]; omega) (fun q _ => by simp only [Reg.RM_ENTRY, Reg.RM_STATUS]; omega) _
  have hrebound (u : State) (l : List Nat) (f : Nat → ClusterSt → ClusterSt) : KeepsWorking u (u.each l fun v p => v.upCl (18 * g + p) (f p)) :=
    .each _ u fun v p _ => .of_regs rfl rfl
  unfold State.rewriteMap
  dsimp only
  split
  · exact s.packageFailed_keepsWorking ..
  · have hshown {u : State} (h : KeepsWorking s u) : KeepsWorking s (u.mapStatus g).summary :=
      h.trans ((State.mapStatus_keepsWorking _ g).trans (State.summary_keepsWorking _))
    have hposted {u : State} (h : KeepsWorking s u) (c : Bool) : KeepsWorking s (if c then u.post 0x12 0 stop 2 0 none none else u) :=
      .ite (h.trans (u.post_keepsWorking ..)) h
    have hdropped {u : State} (h : KeepsWorking s u) (l : List Nat) : KeepsWorking s (u.dropMesh l) := h.trans (.of_regs rfl rfl)
    have hfolded {u : State} (h : KeepsWorking s u) (c : Bool) (x : Table (List Nat)) :
        KeepsWorking s (if c then { u with repair := { u.repair with foldOrder := x } } else u) :=
      .ite (h.trans ⟨rfl, rfl, rfl, fun _ _ => rfl⟩) h
    have hbound (f : Nat → Word) (l : List Nat) (h : Nat → ClusterSt → ClusterSt) (ns : List Nat) :=
      hdropped ((hentries f).trans (hrebound _ l h)) ns
    generalize (if s.workCount g < 16 then (s.foldOrderOf g).take (16 - s.workCount g) else []) = folds
    exact hposted (hshown (hfolded (hbound ..) ..)) _

end

/-! ### The fence of a cluster (R551, R552) -/

/-- The collectors and the count of incidents are as before. -/
structure KeepsIncidents (s t : State) : Prop where
  collectors : t.repair.collectors = s.repair.collectors
  incidents : t.rg Reg.FH_INCIDENTS = s.rg Reg.FH_INCIDENTS

theorem KeepsIncidents.refl (s : State) : KeepsIncidents s s := ⟨rfl, rfl⟩
theorem KeepsWorking.keepsIncidents {s t : State} (h : KeepsWorking s t) : KeepsIncidents s t := ⟨h.collectors, h.incidents⟩

/-- Cluster n is fenced and no longer a working position of its region. -/
structure Fences (s t : State) (n : Nat) : Prop where
  keeps : KeepsIncidents s t
  fenced : n ∈ t.repair.fenced
  working : t.works (n / 18) (n % 18) = false

theorem Fences.trans {s t u : State} {n : Nat} (hn : n < 576) (h : Fences s t n) (k : KeepsWorking t u) : Fences s u n := by
  refine ⟨⟨k.collectors.trans h.keeps.collectors, k.incidents.trans h.keeps.incidents⟩, by rw [k.fenced]; exact h.fenced, ?_⟩
  rw [State.works, k.working _ (by omega)]
  exact h.working

theorem testBit_clear (v : Nat) {p : Nat} (hp : p < 18) : ((v &&& (2 ^ 18 - 1 - 2 ^ p)) % 2 ^ 18).testBit p = false := by
  have hmask : (2 ^ 18 - 1 - 2 ^ p).testBit p = false := by
    interval_cases p <;> rfl
  rw [Nat.testBit_mod_two_pow, Nat.testBit_and, hmask, Bool.and_false, Bool.and_false]

theorem State.stopLend_keepsWorking (s : State) (n : Nat) : KeepsWorking s (s.stopLend n) := by
  unfold State.stopLend
  split
  · exact .refl s
  · have hlent : KeepsWorking s (s.upCl n fun c => { c with lending := none }) := .of_regs rfl rfl
    refine hlent.trans (.incN _ ?_ (fun g hg => ?_) _)
    all_goals
      simp only [Reg.LEND_US, Reg.FH_INCIDENTS, Reg.RM_STATUS]
      omega

/-- A cluster that is not fenced becomes so. -/
theorem State.fenceCluster_fences {s : State} {n : Nat} (hn : n < 576) (h : s.isFenced n = false) : Fences s (s.fenceCluster n).1 n := by
  have hstopped (f : ClusterSt → ClusterSt) : KeepsWorking s ((s.stopLend n).upCl n f) := (s.stopLend_keepsWorking n).trans (.of_regs rfl rfl)
  unfold State.fenceCluster
  rw [if_neg (by rw [h]; decide)]
  dsimp only
  have hbase := hstopped fun c => c.stopStep.restartUnits
  generalize (s.stopLend n).upCl n _ = t at hbase ⊢
  have hfences (x : Table Nat) (l : List Nat) (k : Nat) : let u : State := { t with repair := { t.repair with fenced := l ++ [n], fenceCount := x } }
      Fences s ((u.setF (Reg.RM_STATUS_WORKING (n / 18)) (k &&& (2 ^ 18 - 1 - 2 ^ (n % 18)))).inc (Reg.RM_FENCES (n / 18))) n := by
    refine ⟨⟨hbase.collectors, ?_⟩, List.mem_append_right l List.mem_cons_self, ?_⟩
    · rw [State.rg_inc_of_ne _ (by simp only [Reg.FH_INCIDENTS, Reg.RM_FENCES]; omega), State.rg_setF_of_ne _ (x := Reg.RM_STATUS_WORKING (n / 18))
        (by simp only [Reg.FH_INCIDENTS, Reg.RM_STATUS_WORKING, Reg.RM_STATUS]; omega)]
      exact hbase.incidents
    · rw [State.works, State.fd_congr (State.rg_inc_of_ne _ (by simp only [Reg.RM_STATUS_WORKING, Reg.RM_STATUS, Reg.RM_FENCES]; omega)),
        State.fd_setF_same _ (x := Reg.RM_STATUS_WORKING (n / 18)) (show 14 ≤ 31 by decide) (show 31 < 32 by decide)]
      exact testBit_clear k (Nat.mod_lt n (by decide))
  exact (hfences ..).trans hn (State.rewriteMap_keepsWorking _ (by omega) _)

theorem State.fenceAction_keepsIncidents (s : State) {n : Nat} (hn : n < 576) : KeepsIncidents s (s.fenceAction n).1 := by
  change KeepsIncidents s (s.fenceCluster n).1
  cases h : s.isFenced n with
  | false => exact (State.fenceCluster_fences hn h).keeps
  | true =>
    unfold State.fenceCluster
    rw [if_pos h]
    exact .refl s

/-! ### The repair of a report (R544 to R556) -/

theorem stopUnit_lt {stop n : Nat} (h : stopUnit stop = some n) : n < 576 := by
  unfold stopUnit at h
  split at h
  · next hstop =>
    rw [← Option.some.inj h]
    exact hstop.2.1
  · exact nomatch h

theorem State.mapSpare_keepsIncidents (s : State) (n b : Nat) : KeepsIncidents s (s.mapSpare n b) := by
  refine ⟨rfl, ?_⟩
  have hset (u : State) (x : Fld) (hx : x.off = Reg.SP_BANK_MAP n) (k : Nat) : (u.setF x k).rg Reg.FH_INCIDENTS = u.rg Reg.FH_INCIDENTS :=
    u.rg_setF_of_ne (by rw [hx]; simp only [Reg.FH_INCIDENTS, Reg.SP_BANK_MAP]; omega) k
  unfold State.mapSpare
  dsimp only
  rw [State.upCl_rg, hset _ (Reg.SP_BANK_MAP_BANK_N n) rfl, hset _ (Reg.SP_BANK_MAP_USED_N n) rfl, hset _ (Reg.SP_BANK_MAP_BANK n) rfl,
    hset _ (Reg.SP_BANK_MAP_USED n) rfl]

theorem State.restorePage_keepsIncidents (s : State) (st p : Nat) (restored : Bool) : KeepsIncidents s (s.restorePage st p restored) := by
  unfold State.restorePage
  dsimp only
  split
  · exact .refl s
  · exact (KeepsWorking.of_runsEnd (s.dataLost_runsEnd ..)).keepsIncidents

theorem KeepsIncidents.fst_ite {s : State} {p : Prop} [Decidable p] {x y : State × Nat × Bool} (hx : KeepsIncidents s x.1)
    (hy : KeepsIncidents s y.1) : KeepsIncidents s (if p then x else y).1 := by
  split
  · exact hx
  · exact hy

theorem State.repairFor_keepsIncidents (s : State) (r : Report) (restored : Bool) : KeepsIncidents s (s.repairFor r restored).1 := by
  have hself := KeepsIncidents.refl s
  have hfence {n : Nat} (hn : stopUnit r.stop = some n) := s.fenceAction_keepsIncidents (stopUnit_lt hn)
  unfold State.repairFor
  dsimp only
  split
  case h_1 n _ hn => exact hfence hn
  case h_2 n _ hn => exact hfence hn
  case h_3 => exact hself
  case h_4 n _ hn => exact .fst_ite (hfence hn) (.fst_ite ⟨rfl, rfl⟩ (s.mapSpare_keepsIncidents ..))
  case h_5 n _ hn => exact .fst_ite (hfence hn) ⟨rfl, rfl⟩
  case h_6 n _ hn => exact .fst_ite hself (.fst_ite (hfence hn) hself)
  case h_7 n _ hn => exact .fst_ite hself (.fst_ite (hfence hn) hself)
  case h_8 => exact .fst_ite hself (.fst_ite hself hself)
  case h_14 => exact .fst_ite hself (s.restorePage_keepsIncidents ..)
  case h_15 => exact hself
  all_goals exact .fst_ite hself hself

section
variable {s : State} {r : Report} (restored : Bool)

theorem State.repairFor_of_logic {n : Nat} (hunit : r.unit = 1) (hn : stopUnit r.stop = some n) :
    s.repairFor r restored = ((s.fenceAction n).1, (s.fenceAction n).2, true) := by
  unfold State.repairFor
  dsimp only
  rw [hunit, hn]
  rfl

theorem State.repairFor_of_bankCount {n : Nat} (hunit : r.unit = 3) (hn : stopUnit r.stop = some n) (hcount : r.byCount = true) (hbank : r.detail ≤ 31)
    (hspare : s.spareUsed n = false) : s.repairFor r restored = (s.upCl n fun c => { c with migrating := some (r.detail, false) }, 3, false) := by
  unfold State.repairFor
  dsimp only
  rw [hunit, hn]
  exact (if_neg (by rw [hspare, decide_eq_false (Nat.not_lt.2 hbank)]; decide)).trans (if_pos hcount)

theorem State.repairFor_of_path (hunit : r.unit = 8 ∨ r.unit = 17) :
    s.repairFor r restored = if r.byCount then (s, 0, false) else (s, 6, true) := by
  unfold State.repairFor
  dsimp only
  rcases hunit with hunit | hunit
  all_goals
    rw [hunit]
    cases stopUnit r.stop with
    | none => rfl
    | some n => rfl

end

/-! ### Incidents that open -/

theorem State.setCollector_rg (s : State) (c : Nat) (x : Collector) {o : Nat} (ho : o ≠ Reg.FC_STATUS c) : (s.setCollector c x).rg o = s.rg o :=
  (State.rg_setF_of_ne _ (x := Reg.FC_STATUS_QUEUED c) ho _).trans (State.rg_setF_of_ne _ (x := Reg.FC_STATUS_OPEN c) ho _)

theorem State.collector_setCollector (s : State) (c : Nat) (x : Collector) : (s.setCollector c x).collector c = x := (tget_tput ..).trans (if_pos rfl)

/-- An incident in slot k, once its repair f has been done. -/
def State.opened (s : State) (f : State × Nat × Bool) (c k : Nat) (r : Report) : State :=
  let replay := f.2.2 && s.stepOpen
  let t := f.1
  let t := if escalates r then { t with repair := { t.repair with escalation := t.repair.escalation ++ [(r, s.clk)] } } else t
  let x := t.collector c
  let t := t.setCollector c { x with slots := tput x.slots k ⟨r, f.2.1, if replay then 1 else 2, s.clk, 0⟩ }
  let lc := (stopUnit r.stop).bind fun n => (s.lcsOf n).head?
  let t := (t.inc Reg.FH_INCIDENTS).post (incidentClass r) r.unit r.stop f.2.1 r.detail (s.net.step.map fun x => (x.inst, x.sect)) lc
  if replay then t.orderReplay else t

theorem State.openIncident_eq (s : State) (c k : Nat) (r : Report) (restored : Bool) :
    s.openIncident c k r restored = s.opened (s.repairFor r restored) c k r := rfl

/-- What an incident's opening adds to the state f.1 that its repair leaves. -/
structure Opens (s : State) (f : State × Nat × Bool) (c k : Nat) (r : Report) (t : State) : Prop where
  collector : t.collector c = { f.1.collector c with
    slots := tput (f.1.collector c).slots k ⟨r, f.2.1, if f.2.2 && s.stepOpen then 1 else 2, s.clk, 0⟩ }
  incidents : t.rg Reg.FH_INCIDENTS = f.1.rg Reg.FH_INCIDENTS + 1
  fenced : t.repair.fenced = f.1.repair.fenced
  clusters : t.clusters = f.1.clusters
  summary : t.rg Reg.FH_SUMMARY = f.1.rg Reg.FH_SUMMARY
  status : ∀ g < 32, t.rg (Reg.RM_STATUS g) = f.1.rg (Reg.RM_STATUS g)
  step : t.net.step = if f.2.2 && s.stepOpen then f.1.orderReplay.net.step else f.1.net.step

theorem State.orderReplay_eq (s : State) : s.orderReplay = s.setStep s.orderReplay.net.step := by
  unfold State.orderReplay
  split
  · split
    · rfl
    · rfl
  · rfl

theorem State.orderReplay_step_congr {s t : State} (h : t.net.step = s.net.step) : t.orderReplay.net.step = s.orderReplay.net.step := by
  unfold State.orderReplay
  rw [h]
  split
  · split
    · exact h
    · rfl
  · exact h

theorem State.incidentPosted_spec (s : State) (c : Nat) (x : Collector) (cls unit stop action detail : Nat) (owner : Option (Nat × Nat))
    (lc : Option Nat) : let t := ((s.setCollector c x).inc Reg.FH_INCIDENTS).post cls unit stop action detail owner lc
    t.collector c = x ∧ t.rg Reg.FH_INCIDENTS = s.rg Reg.FH_INCIDENTS + 1 ∧ t.repair.fenced = s.repair.fenced ∧ t.clusters = s.clusters ∧
      t.net = s.net ∧ t.rg Reg.FH_SUMMARY = s.rg Reg.FH_SUMMARY ∧ ∀ g < 32, t.rg (Reg.RM_STATUS g) = s.rg (Reg.RM_STATUS g) := by
  have hset (o : Nat) (ho : o ≠ Reg.FC_STATUS c) : (s.setCollector c x).rg o = s.rg o := s.setCollector_rg c x ho
  have hown := s.collector_setCollector c x
  obtain ⟨hfenced, hclusters, hnet⟩ : (s.setCollector c x).repair.fenced = s.repair.fenced ∧ (s.setCollector c x).clusters = s.clusters ∧
      (s.setCollector c x).net = s.net := ⟨rfl, rfl, rfl⟩
  generalize s.setCollector c x = u at hset hown hfenced hclusters hnet ⊢
  have hposted := (u.inc Reg.FH_INCIDENTS).post_reports cls unit stop action detail owner lc
  intro t
  have hrest := hposted.rest
  have hrg (o : Nat) (hne : o ≠ Reg.FH_INCIDENTS) (hevent : ¬ EventReg o) (ho : o ≠ Reg.FC_STATUS c) : t.rg o = s.rg o :=
    (hposted.regs o hevent).trans ((u.rg_inc_of_ne hne).trans (hset o ho))
  refine ⟨?_, ?_, ?_, ?_, hposted.net.trans hnet, ?_, fun g hg => ?_⟩
  · refine (congrArg (fun v : State => v.collector c) hrest).trans ?_
    exact hown
  · refine (hposted.regs _ (MapReg.not_event (.inl rfl))).trans ((u.rg_inc_same _).trans (congrArg (· + 1) (hset _ ?_)))
    simp only [Reg.FH_INCIDENTS, Reg.FC_STATUS]
    omega
  · exact (congrArg (fun v : State => v.repair.fenced) hrest).trans hfenced
  · exact hposted.sameArray.1.trans hclusters
  · refine hrg _ (by decide) ?_ (by simp only [Reg.FH_SUMMARY, Reg.FC_STATUS]; omega)
    simp only [EventReg, Reg.FH_SUMMARY, Reg.FH_EVT_HEAD, Reg.IRQ_STATUS, Reg.MG_ALERT, Reg.FH_CPL_MISMATCH]
    omega
  · refine hrg _ (by simp only [Reg.RM_STATUS, Reg.FH_INCIDENTS]; omega) (MapReg.not_event (.inr ?_))
      (by simp only [Reg.RM_STATUS, Reg.FC_STATUS]; omega)
    simp only [Reg.RM_STATUS]
    omega

theorem State.opened_opens (s : State) (f : State × Nat × Bool) (c k : Nat) (r : Report) : Opens s f c k r (s.opened f c k r) := by
  obtain ⟨u, hu, hregs, hclusters, hnet, hfenced, hcollector⟩ : ∃ u, u = (if escalates r then
      { f.1 with repair := { f.1.repair with escalation := f.1.repair.escalation ++ [(r, s.clk)] } } else f.1) ∧ u.regs = f.1.regs ∧
      u.clusters = f.1.clusters ∧ u.net = f.1.net ∧ u.repair.fenced = f.1.repair.fenced ∧ u.collector c = f.1.collector c := by
    refine ⟨_, rfl, ?_⟩
    split
    · exact ⟨rfl, rfl, rfl, rfl, rfl⟩
    · exact ⟨rfl, rfl, rfl, rfl, rfl⟩
  have hrg (o : Nat) : u.rg o = f.1.rg o := congrArg (tget (regReset o) · o) hregs
  unfold State.opened
  dsimp only
  rw [← hu, hcollector]
  obtain ⟨hown, hcount, hfence, hcl, hkept, hsummary, hstatus⟩ := u.incidentPosted_spec c { f.1.collector c with
    slots := tput (f.1.collector c).slots k ⟨r, f.2.1, if f.2.2 && s.stepOpen then 1 else 2, s.clk, 0⟩ } (incidentClass r) r.unit r.stop f.2.1 r.detail
    (s.net.step.map fun x => (x.inst, x.sect)) ((stopUnit r.stop).bind fun n => (s.lcsOf n).head?)
  generalize State.post _ _ _ _ _ _ _ _ = t at *
  have hnets : t.net = f.1.net := hkept.trans hnet
  have hopens : t.collector c = _ ∧ t.rg Reg.FH_INCIDENTS = f.1.rg Reg.FH_INCIDENTS + 1 ∧ t.repair.fenced = f.1.repair.fenced ∧
      t.clusters = f.1.clusters ∧ t.rg Reg.FH_SUMMARY = f.1.rg Reg.FH_SUMMARY ∧ ∀ g < 32, t.rg (Reg.RM_STATUS g) = f.1.rg (Reg.RM_STATUS g) :=
    ⟨hown, hcount.trans (congrArg (· + 1) (hrg _)), hfence.trans hfenced, hcl.trans hclusters, hsummary.trans (hrg _),
      fun g hg => (hstatus g hg).trans (hrg _)⟩
  obtain ⟨h1, h2, h3, h4, h5, h6⟩ := hopens
  by_cases hreplay : (f.2.2 && s.stepOpen) = true
  · rw [if_pos hreplay]
    rw [t.orderReplay_eq]
    refine ⟨h1, h2, h3, h4, h5, h6, ?_⟩
    rw [if_pos hreplay]
    exact State.orderReplay_step_congr (congrArg NetSt.step hnets)
  · rw [if_neg hreplay]
    refine ⟨h1, h2, h3, h4, h5, h6, ?_⟩
    rw [if_neg hreplay]
    exact congrArg NetSt.step hnets

end Sys2Proof.Machine

/-! ## Fault reports and the close of incidents (R544, R546, R549) -/

namespace Sys2Proof.Machine

/-! ### Reports that are taken -/

/-- The report has left the path to its collector. -/
def State.delivered (s : State) (r : Report) : State := { s with repair := { s.repair with inFlight := s.repair.inFlight.erase r } }

section
variable {s : State} {r : Report} (restored : Bool)

theorem State.takeReport_of_found {k : Nat} {i : Incident} (h : (s.collector (collectorOf r.stop)).find r = some (k, i)) :
    s.takeReport r restored = (s.setCollector (collectorOf r.stop) { s.collector (collectorOf r.stop) with
      slots := tput (s.collector (collectorOf r.stop)).slots k { i with reports := i.reports + 1 } }).coalesced (collectorOf r.stop) := by
  unfold State.takeReport
  dsimp only
  rw [h]

variable (hnew : (s.collector (collectorOf r.stop)).find r = none)
include hnew

theorem State.takeReport_of_fenced {n : Nat} (hn : stopUnit r.stop = some n) (hfenced : s.isFenced n = true) :
    s.takeReport r restored = s.coalesced (collectorOf r.stop) := by
  unfold State.takeReport
  dsimp only
  rw [hnew]
  exact if_pos (by rw [hn]; exact hfenced)

variable (hopen : ∀ n, stopUnit r.stop = some n → s.isFenced n = false)
include hopen

theorem State.takeReport_of_slot {k : Nat} (hk : (s.collector (collectorOf r.stop)).freeSlot = some k) :
    s.takeReport r restored = s.openIncident (collectorOf r.stop) k r restored := by
  unfold State.takeReport
  dsimp only
  rw [hnew, hk]
  refine if_neg ?_
  cases h : stopUnit r.stop with
  | none => exact Bool.false_ne_true
  | some n => exact fun hf => Bool.false_ne_true ((hopen n h).symm.trans hf)

theorem State.takeReport_of_full (hfull : (s.collector (collectorOf r.stop)).freeSlot = none) :
    s.takeReport r restored = if (s.collector (collectorOf r.stop)).queue.length < 1024 then
        s.setCollector (collectorOf r.stop) { s.collector (collectorOf r.stop) with queue := (s.collector (collectorOf r.stop)).queue ++ [r] }
      else (s.setCollector (collectorOf r.stop) { s.collector (collectorOf r.stop) with lost := true }).inc Reg.FH_LOST := by
  unfold State.takeReport
  dsimp only
  rw [hnew, hfull]
  refine if_neg ?_
  cases h : stopUnit r.stop with
  | none => exact Bool.false_ne_true
  | some n => exact fun hf => Bool.false_ne_true ((hopen n h).symm.trans hf)

end

section
variable (s : State) (stop : BitVec 16) (unit : BitVec 8) (detail : BitVec 24) (byCount restored : Bool)

theorem exec_faultReport (beyond : Bool) : exec (.faultReport stop unit detail byCount beyond restored) s =
    .next (match s.failCause ⟨stop.toNat, unit.toNat, detail.toNat, byCount⟩ beyond with
      | some cause => ((s.delivered ⟨stop.toNat, unit.toNat, detail.toNat, byCount⟩).takeReport ⟨stop.toNat, unit.toNat, detail.toNat, byCount⟩
          restored).packageFailed cause stop.toNat unit.toNat
      | none => (s.delivered ⟨stop.toNat, unit.toNat, detail.toNat, byCount⟩).takeReport ⟨stop.toNat, unit.toNat, detail.toNat, byCount⟩ restored) := rfl

theorem exec_faultReport_of_none {beyond : Bool} (h : s.failCause ⟨stop.toNat, unit.toNat, detail.toNat, byCount⟩ beyond = none) :
    exec (.faultReport stop unit detail byCount beyond restored) s =
      .next ((s.delivered ⟨stop.toNat, unit.toNat, detail.toNat, byCount⟩).takeReport ⟨stop.toNat, unit.toNat, detail.toNat, byCount⟩ restored) := by
  rw [exec_faultReport, h]

theorem exec_faultReport_of_some {beyond : Bool} {cause : Nat} (h : s.failCause ⟨stop.toNat, unit.toNat, detail.toNat, byCount⟩ beyond = some cause) :
    exec (.faultReport stop unit detail byCount beyond restored) s =
      .next (((s.delivered ⟨stop.toNat, unit.toNat, detail.toNat, byCount⟩).takeReport ⟨stop.toNat, unit.toNat, detail.toNat, byCount⟩
        restored).packageFailed cause stop.toNat unit.toNat) := by
  rw [exec_faultReport, h]

end

theorem State.failCause_of_within (s : State) {r : Report} (h9 : r.unit ≠ 9) (h11 : r.unit ≠ 11) : s.failCause r false = none :=
  (if_neg fun h => h11 h.1).trans ((if_neg fun h => h9 h.1).trans (if_pos rfl))

theorem State.failCause_of_package (s : State) {r : Report} (h : r.unit = 17) : s.failCause r true = some 5 :=
  (if_neg fun h11 => absurd (h.symm.trans h11.1) (by decide)).trans ((if_neg fun h9 => absurd (h.symm.trans h9.1) (by decide)).trans
    ((if_neg (by decide)).trans (if_pos h)))

/-! ### What each way of taking a report does -/

theorem State.coalesced_onlyRegs (s : State) (c : Nat) : OnlyRegs s (s.coalesced c) [Reg.FC_COALESCED c, Reg.FH_COALESCED] := by
  refine ⟨rfl, fun o ho => ?_⟩
  simp only [List.mem_cons, List.not_mem_nil, or_false, not_or] at ho
  exact (State.rg_inc_of_ne _ ho.2).trans (s.rg_inc_of_ne ho.1)

theorem State.setCollector_sameArray (s : State) (c : Nat) (x : Collector) : SameArray s (s.setCollector c x) := by
  unfold State.setCollector
  dsimp only
  refine SameArray.setF (SameArray.setF ?_ _ _) _ _
  exact ⟨rfl, rfl⟩

theorem fcCoalesced_ne (c : Nat) : Reg.FC_COALESCED c ≠ Reg.FH_COALESCED := by
  simp only [Reg.FC_COALESCED, Reg.FH_COALESCED]
  omega

theorem State.coalesced_all (s : State) (c : Nat) : (s.coalesced c).rg Reg.FH_COALESCED = s.rg Reg.FH_COALESCED + 1 := by
  unfold State.coalesced
  rw [State.rg_inc_same, State.rg_inc_of_ne _ (fcCoalesced_ne c).symm]

theorem State.coalesced_own (s : State) (c : Nat) : (s.coalesced c).rg (Reg.FC_COALESCED c) = s.rg (Reg.FC_COALESCED c) + 1 := by
  unfold State.coalesced
  rw [State.rg_inc_of_ne _ (fcCoalesced_ne c), State.rg_inc_same]

theorem State.inc_collector (s : State) (off c : Nat) : (s.inc off).collector c = s.collector c := rfl

theorem State.coalesced_collector (s : State) (c : Nat) : (s.coalesced c).collector c = s.collector c := rfl

/-- A report that merges is counted at its incident and as coalesced. -/
theorem State.merged_spec (s : State) (c : Nat) (x : Collector) : ((s.setCollector c x).coalesced c).collector c = x ∧
    ((s.setCollector c x).coalesced c).rg (Reg.FC_COALESCED c) = s.rg (Reg.FC_COALESCED c) + 1 ∧
    ((s.setCollector c x).coalesced c).rg Reg.FH_COALESCED = s.rg Reg.FH_COALESCED + 1 ∧ SameArray s ((s.setCollector c x).coalesced c) ∧
    RegsBut s ((s.setCollector c x).coalesced c) [Reg.FC_STATUS c, Reg.FC_COALESCED c, Reg.FH_COALESCED] := by
  have hset {o : Nat} (ho : o ≠ Reg.FC_STATUS c) := s.setCollector_rg c x ho
  have hown := s.collector_setCollector c x
  have harray := s.setCollector_sameArray c x
  have hne : Reg.FC_COALESCED c ≠ Reg.FC_STATUS c ∧ Reg.FH_COALESCED ≠ Reg.FC_STATUS c := by
    simp only [Reg.FC_COALESCED, Reg.FH_COALESCED, Reg.FC_STATUS]
    omega
  generalize s.setCollector c x = u at hset hown harray ⊢
  have hmerged := u.coalesced_own c
  have hall := u.coalesced_all c
  obtain ⟨-, hregs⟩ := u.coalesced_onlyRegs c
  refine ⟨(u.coalesced_collector c).trans hown, hmerged.trans (congrArg (· + 1) (hset hne.1)), hall.trans (congrArg (· + 1) (hset hne.2)),
    harray.trans (((SameArray.refl u).inc _).inc _), fun o ho => ?_⟩
  · simp only [List.mem_cons, List.not_mem_nil, or_false, not_or] at ho
    exact (hregs o (by simp [ho.2.1, ho.2.2])).trans (hset ho.1)

/-- A queue that is full counts what it loses. -/
theorem State.lost_spec (s : State) (c : Nat) (x : Collector) : ((s.setCollector c x).inc Reg.FH_LOST).collector c = x ∧
    ((s.setCollector c x).inc Reg.FH_LOST).rg Reg.FH_LOST = s.rg Reg.FH_LOST + 1 ∧ SameArray s ((s.setCollector c x).inc Reg.FH_LOST) ∧
    RegsBut s ((s.setCollector c x).inc Reg.FH_LOST) [Reg.FC_STATUS c, Reg.FH_LOST] := by
  have hset {o : Nat} (ho : o ≠ Reg.FC_STATUS c) := s.setCollector_rg c x ho
  have hown := s.collector_setCollector c x
  have harray := s.setCollector_sameArray c x
  generalize s.setCollector c x = u at *
  refine ⟨(u.inc_collector _ c).trans hown, ?_, harray.trans ((SameArray.refl u).inc _), fun o ho => ?_⟩
  · rw [State.rg_inc_same, hset (by simp only [Reg.FH_LOST, Reg.FC_STATUS]; omega)]
  · simp only [List.mem_cons, List.not_mem_nil, or_false, not_or] at ho
    rw [State.rg_inc_of_ne _ ho.2, hset ho.1]

/-- The steps of an incident's opening. -/
theorem State.openIncident_spec (s : State) (c k : Nat) (r : Report) (restored : Bool) :
    (∃ i : Incident, ((s.openIncident c k r restored).collector c).slots = tput (s.collector c).slots k i ∧ i.report = r ∧ i.opened = s.clk) ∧
      ((s.openIncident c k r restored).collector c).queue = (s.collector c).queue ∧
      (s.openIncident c k r restored).rg Reg.FH_INCIDENTS = s.rg Reg.FH_INCIDENTS + 1 := by
  have hopens := s.opened_opens (s.repairFor r restored) c k r
  have hkeeps := s.repairFor_keepsIncidents r restored
  have hcollector : (s.repairFor r restored).1.collector c = s.collector c := congrArg (tget noCollector · c) hkeeps.collectors
  rw [s.openIncident_eq, hopens.collector, hopens.incidents, hkeeps.incidents, hcollector]
  exact ⟨⟨_, rfl, rfl, rfl⟩, rfl, rfl⟩

/-- A fault of a cluster's logic fences it. -/
theorem State.openIncident_fences {s : State} {r : Report} {n : Nat} (c k : Nat) (restored : Bool) (hunit : r.unit = 1)
    (hn : stopUnit r.stop = some n) (hopen : s.isFenced n = false) :
    (s.openIncident c k r restored).isFenced n = true ∧ (s.openIncident c k r restored).works (n / 18) (n % 18) = false := by
  have hlt := stopUnit_lt hn
  have hopens := s.opened_opens (s.repairFor r restored) c k r
  have hfences := State.fenceCluster_fences hlt hopen
  rw [s.openIncident_eq]
  generalize s.opened _ c k r = t at hopens ⊢
  have hfirst : (s.repairFor r restored).1 = (s.fenceCluster n).1 := by rw [State.repairFor_of_logic restored hunit hn]; rfl
  refine ⟨?_, ?_⟩
  · rw [State.isFenced, hopens.fenced, hfirst]
    exact List.contains_iff_mem.2 hfences.fenced
  · rw [State.works, State.fd_congr (hopens.status _ (by omega)), hfirst]
    exact hfences.working

/-- A bank found by count is copied to the spare. -/
theorem State.openIncident_copies {s : State} {r : Report} {n : Nat} (c k : Nat) (restored : Bool) (hunit : r.unit = 3) (hcount : r.byCount = true)
    (hbank : r.detail ≤ 31) (hn : stopUnit r.stop = some n) (hspare : s.spareUsed n = false) :
    ((s.openIncident c k r restored).cl n).migrating = some (r.detail, false) ∧ (s.openIncident c k r restored).repair.fenced = s.repair.fenced ∧
      (s.openIncident c k r restored).net.step = s.net.step := by
  have hopens := s.opened_opens (s.repairFor r restored) c k r
  rw [s.openIncident_eq]
  generalize s.opened _ c k r = t at hopens ⊢
  obtain ⟨-, -, hfenced, hclusters, -, -, hstep⟩ := hopens
  rw [State.repairFor_of_bankCount restored hunit hn hcount hbank hspare] at hfenced hclusters hstep
  refine ⟨?_, hfenced, hstep⟩
  rw [State.cl, hclusters]
  exact congrArg ClusterSt.migrating (s.cl_upCl_same n _)

/-- A path's fault orders the replay of a step that has not committed. -/
theorem State.openIncident_replays {s : State} {r : Report} {y : StepSt} (c k : Nat) (restored : Bool) (hunit : r.unit = 8) (hcount : r.byCount = false)
    (hstep : s.net.step = some y) (hcommitted : y.committed = false) :
    (s.openIncident c k r restored).net.step = some { y with replayDue := true } := by
  have hopens := s.opened_opens (s.repairFor r restored) c k r
  rw [s.openIncident_eq]
  generalize s.opened _ c k r = t at hopens ⊢
  have hreplay := hopens.step
  have hfor : s.repairFor r restored = (s, 6, true) := (State.repairFor_of_path restored (.inl hunit)).trans (if_neg (by rw [hcount]; decide))
  have hsopen : s.stepOpen = true := by
    rw [State.stepOpen, hstep]
    exact congrArg not hcommitted
  rw [hfor, hsopen] at hreplay
  refine hreplay.trans ?_
  change s.orderReplay.net.step = _
  unfold State.orderReplay
  rw [hstep]
  exact congrArg (fun x : State => x.net.step) (if_neg (by rw [hcommitted]; decide))

/-- A fault of the package's own units leaves the summary. -/
theorem State.takeReport_summary (s : State) {r : Report} (hunit : r.unit = 17) (restored : Bool) :
    (s.takeReport r restored).rg Reg.FH_SUMMARY = s.rg Reg.FH_SUMMARY := by
  have hcoalesced (u : State) (c : Nat) : (u.coalesced c).rg Reg.FH_SUMMARY = u.rg Reg.FH_SUMMARY :=
    (u.coalesced_onlyRegs c).2 _ (by
      simp only [List.mem_cons, List.not_mem_nil, or_false, not_or, Reg.FH_SUMMARY, Reg.FC_COALESCED, Reg.FH_COALESCED]
      omega)
  have hset (c : Nat) (x : Collector) : (s.setCollector c x).rg Reg.FH_SUMMARY = s.rg Reg.FH_SUMMARY :=
    s.setCollector_rg c x (by simp only [Reg.FH_SUMMARY, Reg.FC_STATUS]; omega)
  have hopened (c k : Nat) : (s.openIncident c k r restored).rg Reg.FH_SUMMARY = s.rg Reg.FH_SUMMARY := by
    have hsummary := (s.opened_opens (s.repairFor r restored) c k r).summary
    rw [← s.openIncident_eq, State.repairFor_of_path restored (.inr hunit)] at hsummary
    refine hsummary.trans ?_
    split
    · rfl
    · rfl
  unfold State.takeReport
  dsimp only
  split
  · exact (hcoalesced ..).trans (hset ..)
  · split
    · exact hcoalesced ..
    · split
      · exact hopened ..
      · split
        · exact hset ..
        · exact (State.rg_inc_of_ne _ (by decide)).trans (hset ..)

/-! ### Incidents that close -/

theorem State.serveQueues_of_empty {s : State} {c : Nat} (hqueue : (s.collector c).queue = []) (hlost : (s.collector c).lost = false) :
    s.serveQueues c 1 = s := by
  change s.serveQueue c = s
  unfold State.serveQueue
  dsimp only
  split
  · rfl
  · rw [if_neg (by rw [hlost]; decide), hqueue]

theorem find_of_not_thas {α : Type} (t : Table α) (k : Nat) (h : thas t k = false) : t.find? (fun e => e.1 == k) = none := by
  induction t with
  | nil => rfl
  | cons e t ih =>
    by_cases he : e.1 = k
    · exact absurd ((if_pos he).symm.trans h) (by decide)
    · rw [List.find?_cons_of_neg (by rw [beq_iff_eq]; exact he)]
      exact ih ((if_neg he).symm.trans h)

section
variable {s : State} {c : Fin 33} {k : Fin 32}

theorem exec_incidentClose (s : State) (c : Fin 33) (k : Fin 32) : exec (.incidentClose c k) s =
    .next (match (s.collector c).slots.find? fun e => e.1 == k.val with
      | some (_, i) => if s.repairing i || s.replayPending i then s else (s.setCollector c { s.collector c with
          slots := tdel (s.collector c).slots k }).serveQueues c ((s.collector c).queue.length + 1)
      | none => s) := rfl

theorem exec_incidentClose_of_none (h : thas (s.collector c).slots k = false) : exec (.incidentClose c k) s = .next s := by
  rw [exec_incidentClose, find_of_not_thas _ _ h]

variable {e : Nat × Incident} (he : (s.collector c).slots.find? (fun e => e.1 == k.val) = some e)
include he

theorem exec_incidentClose_of_pending (h : s.repairing e.2 = true ∨ s.replayPending e.2 = true) : exec (.incidentClose c k) s = .next s := by
  rw [exec_incidentClose, he]
  refine congrArg Host.Outcome.next (if_pos ?_)
  rcases h with h | h
  · rw [h, Bool.true_or]
  · rw [h, Bool.or_true]

theorem exec_incidentClose_of_done (hrepair : s.repairing e.2 = false) (hreplay : s.replayPending e.2 = false) (hqueue : (s.collector c).queue = [])
    (hlost : (s.collector c).lost = false) :
    exec (.incidentClose c k) s = .next (s.setCollector c { s.collector c with slots := tdel (s.collector c).slots k }) := by
  have hown := s.collector_setCollector c { s.collector c with slots := tdel (s.collector c).slots k }
  rw [exec_incidentClose, he]
  refine congrArg Host.Outcome.next ((if_neg (by rw [hrepair, hreplay]; decide)).trans ?_)
  rw [hqueue]
  exact State.serveQueues_of_empty (by rw [hown]; exact hqueue) (by rw [hown]; exact hlost)

end

/-! ### The obligation -/

section
variable (s : State) (stop : BitVec 16) (unit : BitVec 8) (detail : BitVec 24) (byCount restored : Bool)

/-- A report opens an incident in a free slot. -/
theorem faultReport_opens {r : Report} (hr : r = ⟨stop.toNat, unit.toNat, detail.toNat, byCount⟩) {k : Nat}
    (hexec : exec (.faultReport stop unit detail byCount false restored) s =
      .next ((s.delivered r).openIncident (collectorOf r.stop) k r restored)) (hopen : ∀ n, stopUnit r.stop = some n → s.isFenced n = false) :
    After (.faultReport stop unit detail byCount false restored) s fun t =>
      (∃ i, tget i (t.collector (collectorOf r.stop)).slots k = i ∧ thas (t.collector (collectorOf r.stop)).slots k = true ∧ i.report = r ∧
        i.opened = s.clk) ∧
      (t.collector (collectorOf r.stop)).queue = (s.collector (collectorOf r.stop)).queue ∧ t.rg Reg.FH_INCIDENTS = s.rg Reg.FH_INCIDENTS + 1 ∧
      (∀ n, r.unit = 1 → stopUnit r.stop = some n → t.isFenced n = true ∧ t.works (n / 18) (n % 18) = false) ∧
      (∀ n, r.unit = 3 → byCount = true → r.detail ≤ 31 → stopUnit r.stop = some n → s.spareUsed n = false →
        (t.cl n).migrating = some (r.detail, false) ∧ t.repair.fenced = s.repair.fenced ∧ t.net.step = s.net.step) ∧
      ∀ y, r.unit = 8 → byCount = false → s.net.step = some y → y.committed = false → t.net.step = some { y with replayDue := true } := by
  have hcount : r.byCount = byCount := by rw [hr]
  obtain ⟨⟨i, hslots, hreport, hopened⟩, hqueue, hincidents⟩ := (s.delivered r).openIncident_spec (collectorOf r.stop) k r restored
  refine ⟨_, hexec, ⟨i, ?_, ?_, hreport, hopened⟩, hqueue, hincidents, fun n hunit hn => ?_, fun n hunit hby hbank hn hspare => ?_,
    fun y hunit hby hstep hcommitted => ?_⟩
  · rw [hslots, tget_tput, if_pos rfl]
  · rw [hslots]
    exact thas_tput_same ..
  · exact State.openIncident_fences _ k restored hunit hn (hopen n hn)
  · exact State.openIncident_copies _ k restored hunit (hcount.trans hby) hbank hn hspare
  · exact State.openIncident_replays _ k restored hunit (hcount.trans hby) hstep hcommitted

/-- With no slot free a report waits, or is lost. -/
theorem faultReport_waits {r : Report} {c : Nat} {x : Collector}
    (hexec : exec (.faultReport stop unit detail byCount false restored) s =
      .next (if x.queue.length < 1024 then (s.delivered r).setCollector c { x with queue := x.queue ++ [r] }
        else ((s.delivered r).setCollector c { x with lost := true }).inc Reg.FH_LOST)) :
    After (.faultReport stop unit detail byCount false restored) s fun t =>
      (t.collector c).slots = x.slots ∧ SameArray s t ∧ RegsBut s t [Reg.FC_STATUS c, Reg.FH_LOST] ∧
      (x.queue.length < 1024 → (t.collector c).queue = x.queue ++ [r] ∧ t.rg Reg.FH_LOST = s.rg Reg.FH_LOST) ∧
      (1024 ≤ x.queue.length → (t.collector c).queue = x.queue ∧ (t.collector c).lost = true ∧ t.rg Reg.FH_LOST = s.rg Reg.FH_LOST + 1) := by
  have hsame : SameArray s (s.delivered r) := ⟨rfl, rfl⟩
  have hrg (o : Nat) : (s.delivered r).rg o = s.rg o := rfl
  refine ⟨_, hexec, ?_⟩
  dsimp only
  generalize s.delivered r = u at hsame hrg ⊢
  by_cases hroom : x.queue.length < 1024
  · rw [if_pos hroom]
    have hown := u.collector_setCollector c { x with queue := x.queue ++ [r] }
    have hset {o : Nat} (ho : o ≠ Reg.FC_STATUS c) := (u.setCollector_rg c { x with queue := x.queue ++ [r] } ho).trans (hrg o)
    have harray := hsame.trans (u.setCollector_sameArray c { x with queue := x.queue ++ [r] })
    generalize u.setCollector c _ = t at hown hset harray ⊢
    rw [hown]
    refine ⟨rfl, harray, fun o ho => hset fun h => ho (h ▸ List.mem_cons_self), fun _ => ⟨rfl, hset ?_⟩, fun hfull => absurd hroom (Nat.not_lt.2 hfull)⟩
    simp only [Reg.FH_LOST, Reg.FC_STATUS]
    omega
  · rw [if_neg hroom]
    obtain ⟨hown, hlost, harray, hregs⟩ := u.lost_spec c { x with lost := true }
    generalize (u.setCollector c { x with lost := true }).inc Reg.FH_LOST = t at hown hlost harray hregs ⊢
    rw [hown]
    exact ⟨rfl, hsame.trans harray, fun o ho => (hregs o ho).trans (hrg o), fun h => absurd h hroom, fun _ => ⟨rfl, rfl, hlost.trans (congrArg (· + 1) (hrg _))⟩⟩

end

/-- Settles O50: a report takes the branch of its collector; incidents close by their repairs; windows by the spill's candidate. -/
theorem faultReportsOpenMergeAndCloseIncidents : Obligations.FaultReportsOpenMergeAndCloseIncidents := by
  refine ⟨fun s stop unit detail byCount restored => ?report, fun s stop detail byCount restored hup => ?beyond, fun s c k e => ?close,
    fun s c k h => exec_incidentClose_of_none h, fun s g h => exec_deadlockWindowExpire_of_unblocked h,
    fun s g y hstep hblocked hgate => deadlockWindows s g y hstep hblocked hgate⟩
  case report =>
    intro r c x h9 h11
    have hexec : exec (.faultReport stop unit detail byCount false restored) s = .next ((s.delivered r).takeReport r restored) :=
      exec_faultReport_of_none s stop unit detail byCount restored (s.failCause_of_within h9 h11)
    refine ⟨fun k i hfound => ?merges, fun n hnew hn hfenced => ?fenced, fun k hnew hopen hk => ?opens, fun hnew hopen hfull => ?waits⟩
    case merges =>
      refine ⟨_, hexec.trans (congrArg Host.Outcome.next (State.takeReport_of_found restored (s := s.delivered r) hfound)), ?_⟩
      obtain ⟨hown, hcount, hall, harray, hregs⟩ := (s.delivered r).merged_spec c { x with slots := tput x.slots k { i with reports := i.reports + 1 } }
      exact ⟨hown, hcount, hall, harray, hregs⟩
    case fenced =>
      refine ⟨_, hexec.trans (congrArg Host.Outcome.next (State.takeReport_of_fenced restored (s := s.delivered r) hnew hn hfenced)), ?_⟩
      exact ⟨(s.delivered r).coalesced_collector c, ⟨rfl, rfl⟩, rfl, ((s.delivered r).coalesced_onlyRegs c).2⟩
    case opens =>
      exact faultReport_opens s stop unit detail byCount restored rfl
        (hexec.trans (congrArg Host.Outcome.next (State.takeReport_of_slot restored (s := s.delivered r) hnew hopen hk))) hopen
    case waits =>
      exact faultReport_waits s stop unit detail byCount restored
        (hexec.trans (congrArg Host.Outcome.next (State.takeReport_of_full restored (s := s.delivered r) hnew hopen hfull)))
  case beyond =>
    have hsummary := (s.delivered ⟨stop.toNat, 17, detail.toNat, byCount⟩).takeReport_summary (r := ⟨stop.toNat, 17, detail.toNat, byCount⟩) rfl restored
    refine ⟨_, exec_faultReport_of_some s stop 17#8 detail byCount restored (s.failCause_of_package rfl), ?_⟩
    obtain ⟨hon, hcause, hstep, -⟩ := State.packageFailed_spec ((State.on_congr hsummary).trans hup) (cause := 5) (by decide) stop.toNat 17
    exact ⟨hon, hcause, hstep⟩
  case close =>
    intro x he
    refine ⟨fun h => exec_incidentClose_of_pending he h, fun hrepair hreplay hqueue hlost => ?_⟩
    refine ⟨_, exec_incidentClose_of_done he hrepair hreplay hqueue hlost, s.collector_setCollector c _, s.setCollector_sameArray c _, fun o ho => ?_⟩
    exact s.setCollector_rg c _ (List.mem_singleton.not.1 ho)

end Sys2Proof.Machine
